-- ==== Sys2Proof/Word.lean ====
section
/-! DEFINITION. Word.lean: the byte type and the plainest conversions between bytes and numbers.
The manual's multi-byte fields are little-endian (R44, R393, R614); network forms that the spec writes
most-significant byte first use the big-endian pair. -/

namespace Sys2Proof

/-- One byte. -/
abbrev Byte := BitVec 8

/-- A byte string: a message, a block, a key. -/
abbrev Bytes := List Byte

/-- Read a byte string as a little-endian number. -/
def leNat : Bytes → Nat
  | [] => 0
  | b :: r => b.toNat + 256 * leNat r

/-- Write a number as `k` little-endian bytes (the bits above are dropped). -/
def natLE : Nat → Nat → Bytes
  | 0, _ => []
  | k + 1, n => BitVec.ofNat 8 n :: natLE k (n / 256)

/-- Read a byte string as a big-endian number. -/
def beNat (b : Bytes) : Nat := leNat b.reverse

/-- Write a number as `k` big-endian bytes. -/
def natBE (k n : Nat) : Bytes := (natLE k n).reverse

end Sys2Proof
end

