-- ==== Sys2Proof/Syntax.lean ====
section
/-! DEFINITION. Syntax.lean: the commands of the block and the data they carry. -/

namespace Sys2Proof

/-- A tile, T0 to T15 (R8, R12). -/
abbrev TileId := Fin 16

/-- A bay, B0 to B7. -/
abbrev BayId := Fin 8

/-- STATUS of R397; the codes of every last-result entry agree with it. -/
inductive Status
  | ok | conflict | duplicateId | invalid | limit | tableFull | notActive | busy | noSeal | sealExhausted | legalFull
  | hash | bankBusy | noEntry | access | rights | target | length | unreachable | noSubscription
  deriving DecidableEq, Repr

/-- The numeric code of a STATUS (R397). -/
def Status.code : Status → Nat
  | .ok => 0 | .conflict => 1 | .duplicateId => 2 | .invalid => 3 | .limit => 4 | .tableFull => 5 | .notActive => 6
  | .busy => 7 | .noSeal => 8 | .sealExhausted => 9 | .legalFull => 10 | .hash => 11 | .bankBusy => 12
  | .noEntry => 0x20 | .access => 0x21 | .rights => 0x22 | .target => 0x23 | .length => 0x24 | .unreachable => 0x25
  | .noSubscription => 0x26

/-- An event before it is logged, and after (R592). `taken` is the model's own: the clock count at which a log took it. -/
structure Event where
  sev : Nat
  wher : Nat
  code : Nat
  obj : Nat
  a : Nat
  b : Nat
  whenNs : Nat
  uptime : Nat
  eseq : Nat
  taken : Nat
  deriving DecidableEq, Repr

/-- A frame on its way to Gather with its intake descriptor (R77). `aad` is the MAC header before the auxiliary security
header of an RF frame (R94). `env` is the model's number of the open envelope that
the frame came in, 0 for none. -/
structure Frame where
  source : Nat
  addrKind : Nat
  satId : Nat
  forceOld : Bool
  rfSecured : Bool
  entry : Nat
  addr : Nat
  arrival : Nat
  envSeq : Nat
  aad : Bytes
  apdu : Bytes
  env : Nat
  deriving DecidableEq, Repr

/-- An opened reading (R103); times in TIME80 seconds, ARRIVAL in nanoseconds. -/
structure Opened where
  midx : Nat
  source : Nat
  tend : Nat
  capOfs : Int
  idur : Nat
  qual : Nat
  row : Nat
  rows : Nat
  ctr : Nat
  arrival : Nat
  regs : List Int
  deriving DecidableEq, Repr

/-- The part of an archive record that its KIND decides (R148 to R151). A BOOK record keeps its bytes 0x0A to 0x33,
which the Balance engine forms (R206 to R213). -/
inductive RecBody
  | meter (out tend idur qual : Nat) (regs : List Int)
  | link (tend priorSeq : Nat) (priorTag : Bytes) (reason : Nat)
  | header (firstSeq count cause keyGen signer : Nat) (root : Bytes)
  | sigR (closeNs : Nat) (r : Bytes)
  | sigS (hdrSeq : Nat) (sv : Bytes)
  | book (out : Nat) (data : Bytes)
  deriving DecidableEq, Repr

/-- An archive record (R148): SEQ, WHO[21:0], the body, TAG. -/
structure ArchRec where
  seq : Nat
  who : Nat
  body : RecBody
  tag : Bytes
  deriving DecidableEq, Repr

/-- An item of one of the ping-pong queues of R586. -/
inductive QItem
  | cullet (b : Bytes)
  | record (r : ArchRec)
  | ack (source peer mark : Nat) (b : Bytes)
  | sample (b : Bytes)
  | event (e : Event)
  deriving DecidableEq, Repr

/-- What the PLC receiver delivers with a frame (R297, R303, R316, R326, R327, R333): the path from the originator to the tile as short
addresses, the originator first and the neighbour last; the originator's EUI-64 and whether its frame used short addressing; framing (0 G3-PLC,
1 IEEE 1901.2); what a tone-map response of the neighbour asks for: MOD (0 ROBO, 1 to 3 with one to three bits per carrier), carrier groups, whether a coherent scheme; the slot header of an extended frame; `lag`: time from the last PLC_ZC edge to the first data symbol, `own`: the sender's own time since its
zero crossing from a standard frame's phase detection counter, both in ns; SNR per carrier in quarter dB, one list per slot, or one list for a
standard frame; the received samples of each symbol; `age`: time since the first FCH symbol, in ns (R425); link cost; MAC security level, and whether FCS and MIC are good. -/
structure PlcPhy where
  path : List Nat
  eui : Nat
  short : Bool
  framing : Nat
  asks : Option (Nat × Nat × Bool)
  sh : Option Nat
  lag : Nat
  own : Nat
  snr : List (List Int)
  samples : List (List Int)
  age : Nat := 0
  cost : Nat
  level : Nat
  fcsOk : Bool
  micOk : Bool
  deriving DecidableEq, Repr

/-- What a step of TILE_BOOT finds (R605): how the mount goes, and what a power failure or wear has damaged in the legal region (R233, R242, R243), a bit for each
copy of the registers, each copy of the calibration block, and the module in force. -/
structure BootFound where
  how : Nat
  legal : Nat
  deriving DecidableEq, Repr

/-- What FRAME_INTAKE finds in a frame: how often the session slot of each key kind fails its integrity check at use (R89), one base-4 digit for each kind; and
whether the opened APDU reports a magnetic event (bit 0) or a cover opening (bit 1), of which the spec gives the effect and not the form (R214, R248). -/
structure IntakeFound where
  slotBad : Nat
  report : Nat
  deriving DecidableEq, Repr

/-- A legal operation at a tile (R242, R244, R624) and what befalls it: 0 nothing; 1 the seal is released, 2 the power fails in step 2. -/
structure LegalOp where
  tile : TileId
  cut : Nat
  deriving DecidableEq, Repr

/-- Who sends a PTP message (R422): domain number and port identity; whether Follow_Up comes with its Sync (two-step). -/
structure PtpSender where
  domain : Nat
  port : Bytes
  followUp : Bool := false
  deriving DecidableEq, Repr

/-- What a datagram on a lane is (R390): a Trakmer message; one to another UDP port, or a fragment; an ICMPv6 echo request; a neighbour solicitation. The BODY of
the last two is the data that the answer repeats, and the address that is asked for. -/
inductive DgramForm
  | trakmer | otherPort | fragment | echo | solicit
  deriving DecidableEq, Repr

/-- A frame of the host protocol as it stands on its channel (R395, R396): the header fields that the table's row does not fix, and the BODY, which is
the payload of an unprotected frame and the ciphertext followed by the tag of a protected one. VERSION is 1 and TYPE is the row's. -/
structure HostMsg where
  target : Nat
  status : Nat
  session : Nat
  seq : Nat
  ref : Nat
  len : Nat
  flags : Nat
  body : Bytes
  form : DgramForm := .trakmer
  deriving DecidableEq, Repr

/-- A FETCH or ACK_DISCARD: SEQs FIRST and LAST put directly to a tile, or a host message on a lane (R176, R179, R395). -/
inductive RangeReq
  | direct (t : TileId) (first last : Nat)
  | host (lane : Fin 2) (peer : Bytes) (m : HostMsg)
  deriving DecidableEq, Repr

/-- The commands of the block: one constructor per row of the opcode table (spec/opcode_table.json), with the operands that
its rule gives it. -/
inductive Instr
  /-- POWER_ON (R603): VSYS rises through 2.5 V; the Pier leaves reset after 5 ms, increments the boot count and starts the device start-up sequence. -/
  | powerOn (present : Nat) (lost : List Nat)
  /-- BROWN_OUT (R547): VSYS falls below 2.2 V, causing the Pier's power-on reset of every tile and the Pier. -/
  | brownOut
  /-- SYS_RST_N (R602): The SYS_RST_N ball is held low for at least 1 us, giving a reset of device scope. -/
  | sysRstN (present : Nat) (lost : List Nat)
  /-- DEVICE_RESET (R602): The device.reset action resets the device 10 ms after its response has been sent. -/
  | deviceReset
  /-- QUALIFICATION_WINDOW (R19): A 1 024-cycle RC window ends; REFCLK passes or fails, and the Pier selects or changes its clock source. -/
  | qualificationWindow (edges : Nat)
  /-- REFCLK_LOSS (R19): No REFCLK edge arrives for 4 us; the Pier switches glitch-free to the RC oscillator and raises an event. -/
  | refclkLoss
  /-- LOCKSTEP_MISCOMPARE (R21): The Pier copies disagree; the outputs are held, both copies are reloaded from the store, and the Pier resumes within 20 us. -/
  | lockstepMiscompare
  /-- TILE_POWER_UP (R604): The Pier powers the next tile of the boot plan, waits for the rail acknowledgement, then applies the stagger. -/
  | tilePowerUp
  /-- TILE_BOOT (R605): A tile whose core rail is acknowledged runs steps T1 to T8: PLL lock, bank check, KEK opening, DRAM training, mount and load. -/
  | tileBoot (t : TileId) (trained : Bool) (found : BootFound)
  /-- WATCHDOG (R613): The firmware does not service the watchdog in time; the tile resets with cause WATCHDOG. -/
  | watchdog (t : TileId)
  /-- TRIAL_TIMEOUT (R611): A trial boot is not confirmed within tile.fw.trial_s; the tile resets and the bank is rejected. -/
  | trialTimeout (t : TileId)
  /-- TRIAL_CONFIRM (R611): The trial bank becomes CONFIRMED when missing bits 0 to 3 clear; FLOOR rises and older banks may be rejected. -/
  | trialConfirm (t : TileId)
  /-- FW_CONFIRM (R611): The host executes tile.fw.confirm to confirm the trial bank. -/
  | fwConfirm (t : TileId)
  /-- STAGE_BEGIN (R617): Zeroes the named non-running bank and marks it STAGING. -/
  | stageBegin (t : TileId) (bank len : Nat)
  /-- BANK_WRITE (R617): A SET_BLOCK writes image bytes into a STAGING bank; a write to the running bank is refused with BANK_BUSY. -/
  | bankWrite (t : TileId) (bank : Fin 2) (off : Nat) (data : Bytes)
  /-- STAGE_COMMIT (R617): Compares the SHA-384 of the staged bytes and marks the bank PENDING on a match. -/
  | stageCommit (t : TileId) (digest : Bytes)
  /-- TILE_FW_RESET (R621): tile.fw.reset resets the tile with cause HOST 10 ms after the response, refused on an ACTIVE tile without FORCE. -/
  | tileFwReset (t : TileId) (force : Nat)
  /-- LEGAL_INSTALL (R624): Checks the staged LEGAL image under the seal and installs the legal module into the inactive place. -/
  | legalInstall (o : LegalOp)
  /-- BAY_MODE_WRITE (R25): A write of bay.mode or bay.wiring is refused with CONFLICT when it would pair independent mode with PARALLEL wiring. -/
  | bayModeWrite (b : BayId) (wiring : Bool) (value : Nat)
  /-- METERS_ENROL (R61): Checks the staging block in order and enrols the record, inserting its hash entries and journalling it. -/
  | metersEnrol (t : TileId)
  /-- METERS_EDIT (R690): Replaces the E fields of an IN_SERVICE record after the checks of R690. -/
  | metersEdit (t : TileId)
  /-- METERS_MOVE_OUT (R66): Removes the hash entries, sets MOVING_OUT and raises IC_DOWN to its ceiling. -/
  | metersMoveOut (t : TileId)
  /-- METERS_RETIRE (R64): Removes the hash entries, destroys the key blobs, sets RETIRED and logs the retirement. -/
  | metersRetire (t : TileId)
  /-- METERS_RELEASE (R64): Sets a RETIRED or MOVING_OUT record to FREE and clears every field except MIDX_GEN. -/
  | metersRelease (t : TileId)
  /-- METER_ACTION_ACK (R65): A meter action is acknowledged once earlier readings have left G8 and the journal entry is durable and mirrored. -/
  | meterActionAck (t : TileId)
  /-- CLASS_TABLE_WRITE (R689): A write of the class table is judged on the whole resulting table and refused with INVALID or CONFLICT. -/
  | classTableWrite (t : TileId) (off : Nat) (data : Bytes)
  /-- CHECKPOINT (R68): On the checkpoint interval, or early for journal room, the tile writes a header, every record and a trailer. -/
  | checkpoint (t : TileId)
  /-- JOURNAL_PAGE_PROGRAM (R70): A journal page is programmed when it is full or 10 ms after its first entry. -/
  | journalPageProgram (t : TileId)
  /-- RECORD_RESTORE (R72): A record failing CHECK is restored in the background, or marked damaged. -/
  | recordRestore (t : TileId) (slot : Nat) (copyBad : Bool)
  /-- ENVELOPE (R79): A relay envelope arrives; its header and entries are checked before any entry enters G0. -/
  | envelope (t : TileId) (p : Fin 2) (frame : Bytes)
  /-- GATHER_INJECT (R81): Checks and submits the envelope in the inject buffer as SOURCE 2. -/
  | gatherInject (t : TileId)
  /-- FRAME_INTAKE (R82): Gather takes a frame from a VOQ toward P5 by weighted round robin and runs it through G0 to G5. -/
  | frameIntake (t : TileId) (overlap : Bool) (found : IntakeFound)
  /-- MIDX_WAIT_RELEASE (R86): A frame waiting behind another frame of the same MIDX continues to G2 when the previous one leaves G4. -/
  | midxWaitRelease (t : TileId) (midx : Nat)
  /-- DUPLICATE_CHECK (R104): A reading, once the previous reading of its MIDX has left G8, is judged against LAST_TEND and DUP_MAP. -/
  | duplicateCheck (t : TileId)
  /-- ENVELOPE_ACK (R108): Once every entry has ended and the ack point is reached, the RELAY_ACK is queued. -/
  | envelopeAck (t : TileId)
  /-- MARVER_PASS (R126): Marver judges a reading in 40 cycles and hands Lehr a group or writes a Cullet entry. -/
  | marverPass (t : TileId)
  /-- RULESET_COMMIT (R119): Checks the staged rule set and replaces the named set as one step. -/
  | rulesetCommit (t : TileId)
  /-- MARVER_REPLAY (R143): Checks replay items and re-enters them as readings under RECHECK, FORCE_OLD or RESTATE. -/
  | marverReplay (t : TileId)
  /-- CULLET_TAG (R140): The vault takes a staged Cullet entry, computes its CMAC tag and writes it to the Cullet queue. -/
  | culletTag (t : TileId)
  /-- CULLET_READ (R139): Removes and returns one tagged Cullet entry. -/
  | culletRead (t : TileId)
  /-- CULLET_READ_BLOCK (R139): Removes and returns at most 8 Cullet entries in queue order. -/
  | culletReadBlock (t : TileId)
  /-- LEHR_ARCHIVE_GROUP (R153): Lehr assigns SEQs to a group, tags each record, hashes its leaf and queues it to the FTL. -/
  | lehrArchiveGroup (t : TileId)
  /-- BATCH_CLOSE_TIME (R162): Meridian reaches the batch period; the open batch is closed with CAUSE TIME. -/
  | batchCloseTime (t : TileId)
  /-- KEY_CHANGE (R159): The vault reports a new archive key generation; the open batch is closed with CAUSE KEY_CHANGE. -/
  | keyChange (t : TileId)
  /-- PAGE_FLUSH (R180): A page is programmed when it is full or flush_time after its first record. -/
  | pageFlush (t : TileId)
  /-- RING_FULL (R181): The archive ring has no free block; Lehr stops or overwrites per full_policy. -/
  | ringFull (t : TileId)
  /-- LEHR_PROOF (R169): Produces the inclusion proof of a record within 10 ms. -/
  | lehrProof (t : TileId)
  /-- LEHR_VERIFY (R170): Checks tags, roots and signatures over a SEQ range at low priority. -/
  | lehrVerify (t : TileId)
  /-- FETCH (R176): Returns one slot per SEQ of a stream range. -/
  | fetch (r : RangeReq)
  /-- ACK_DISCARD (R179): Discards a SEQ range of a stream durably and mirrors the discard. -/
  | ackDiscard (r : RangeReq)
  /-- BALANCE_FEED (R185): Balance takes the next record from its feed queue and repairs any SEQ gap from the archive. -/
  | balanceFeed (t : TileId)
  /-- CLOSE_TICK (R201): At T + close_window × B the books are closed, localised, scored and restated. -/
  | closeTick (t : TileId)
  /-- TREE_COMMIT (R197): Checks the staged segment tree and commits it for the next book. -/
  | treeCommit (t : TileId)
  /-- BALANCE_REBUILD (R218): When the tile begins issuing, the books, baselines and evidence are rebuilt from the archive. -/
  | balanceRebuild (t : TileId)
  /-- GRID_CHANGE_TICK (R219): A closing tick of the old grid closes its books and restates all pending adjustments. -/
  | gridChangeTick (t : TileId)
  /-- SYNC_RESET (R226): At the first whole Meridian second after a trigger, the decimators restart and SETTLE samples are bridged. `sec` is the second S that
begins (R225). -/
  | syncReset (t : TileId) (sec : Nat)
  /-- METRO_RESYNC (R226): The host requests a synchronising reset of the metrology. -/
  | metroResync (t : TileId)
  /-- BLOCK_END (R231): Every 1 024 samples, block energies go to the accumulators and the legal registers are written and mirrored. The codes of
the eight channels (R223), those of IN and VX as a pair. -/
  | blockEnd (t : TileId) (v1 v2 v3 i1 i2 i3 : List Int) (inVx : List Int × List Int)
  /-- SECOND_UPDATE (R232): Each Meridian second, rms, power and frequency are updated and the sample count is slip-adjusted. `sec` is the
second that begins; of V1 and of V2 the whole periods of the second that ended, and the instants in ns of their first and last rising zero crossing. -/
  | secondUpdate (t : TileId) (sec n1 first1 last1 n2 first2 last2 : Nat)
  /-- MINUTE_RECORD (R234): At each minute grid point, a voltage minute record is delivered to the feeder history. -/
  | minuteRecord (t : TileId)
  /-- LOCAL_READING (R236): At each grid point of a LOCAL record's IDUR, the metrology forms an opened reading for G6. -/
  | localReading (t : TileId)
  /-- SEAL_ASSERT (R239): LEGAL_EN_N has been low for 100 ms; the seal counts as asserted and SEAL_ASSERT is logged. -/
  | sealAssert (b : BayId)
  /-- SEAL_RELEASE (R239): LEGAL_EN_N reads high; the seal is released and SEAL_RELEASE is logged. -/
  | sealRelease (b : BayId)
  /-- CAL_COMMIT (R242): Checks and writes the calibration block under the seal and triggers a synchronising reset. -/
  | calCommit (o : LegalOp)
  /-- REG_RESTORE (R244): Restores the twelve legal registers under the seal. -/
  | regRestore (o : LegalOp)
  /-- MAG_READ (R247): Each 100 ms the sensors are read, and tamper episodes open or end. -/
  | magRead (t : TileId) (v : List (Option Bytes))
  /-- SENSOR_RETRY (R246): A failed sensor is tried again every 10 s. -/
  | sensorRetry (t : TileId) (i : Fin 2) (v : Option Bytes)
  /-- LOCAL_RELAY_CMD (R251): A command to a local relay starts a pulse sequence, or reports ALREADY. -/
  | localRelayCmd (t : TileId) (k : Fin 2) (c : Nat)
  /-- RELAY_PULSE_END (R251): A relay pulse ends at its length or its cut, and the relay waits for feedback. -/
  | relayPulseEnd (t : TileId) (k : Fin 2) (uj : Nat) (cut : Bool)
  /-- RELAY_FEEDBACK_CHANGE (R251): The debounced feedback of a local relay changes and is judged against the command. -/
  | relayFeedbackChange (t : TileId) (k : Fin 2) (low : Bool)
  /-- RELAY_CONFIRM_TIMEOUT (R251): W elapses without a matching feedback; the relay retries or enters MISMATCH. -/
  | relayConfirmTimeout (t : TileId) (k : Fin 2)
  /-- DISP_LINE (R254): At the start of each dwell, the next display item line is sent on DISP. -/
  | dispLine (b : BayId)
  /-- EPH_CAL_COMMIT (R262): Checks a tariff calendar and puts it in force or makes it passive. -/
  | ephCalCommit (t : TileId)
  /-- CALENDAR_ACTIVATE (R262): The passive calendar comes into force at its ACTIVATE time. -/
  | calendarActivate (t : TileId)
  /-- BILLING_APPLY (R264): Ephemeris applies a METER record at G9: TOU shares, charges and BILL_SEQ. -/
  | billingApply (t : TileId)
  /-- CLOCK_EVENT (R268): A meter clock adjustment writes CLK_OFS and may request a split. -/
  | clockEvent (t : TileId)
  /-- SPLIT_EXPIRE (R270): A split entry whose G is more than 16 intervals behind LAST_TEND expires. -/
  | splitExpire (t : TileId)
  /-- PROFILE_WRITE (R272): A write of prepayment profiles is checked and applied. -/
  | profileWrite (t : TileId) (off : Nat) (data : Bytes)
  /-- TOPUP (R277): Checks a top-up, adds it to CREDIT, records its ID and evaluates the meter. -/
  | topup (t : TileId)
  /-- CONFIRM_HELD (R274): Clears CREDIT_HELD of the selected meter. -/
  | confirmHeld (t : TileId)
  /-- PREPAY_EVALUATE (R276): Each local minute, a deferred meter is evaluated for disconnect or reconnect. -/
  | prepayEvaluate (t : TileId)
  /-- EPH_RELAY_CMD (R278): A relay command is journalled, mirrored and sent as a DLMS ACTION. -/
  | ephRelayCmd (t : TileId) (c : Nat)
  /-- RELAY_CHECK_GET (R279): Δ after the ACTION, Ephemeris GETs control_state and compares it with the command. -/
  | relayCheckGet (t : TileId) (slot : Nat)
  /-- RELAY_CONFIRM_EXPIRY (R279): W passes without a match; the command is reissued or the meter enters MISMATCH. -/
  | relayConfirmExpiry (t : TileId) (slot : Nat)
  /-- RELAY_AUDIT (R280): Ephemeris periodically reads control_state of each relay meter. -/
  | relayAudit (t : TileId) (slot : Nat)
  /-- FLAGS_CLEAR (R283): Clears the masked EVENT_FLAGS bits of the selected meter. -/
  | flagsClear (t : TileId) (mask : Nat)
  /-- EPH_DOWNLINK_APDU (R284): Ephemeris seals a downlink APDU under IC_DOWN and sends it. -/
  | ephDownlinkApdu (t : TileId)
  /-- EPH_RESPONSE (R284): A response to an Ephemeris request is opened and judged. -/
  | ephResponse (t : TileId) (f : Frame)
  /-- RESPONSE_TIMEOUT (R284): An unanswered request is repeated or fails after mgmt_tries. -/
  | responseTimeout (t : TileId) (slot inv : Nat)
  /-- CALENDAR_PUSH (R287): Pushes the newest calendar to a meter in four steps. -/
  | calendarPush (t : TileId) (slot : Nat)
  /-- PUSH_LOAD (R288): Checks the campaign descriptor and image hash, and makes the campaign LOADED. -/
  | pushLoad (t : TileId)
  /-- PUSH_START (R288): Starts the loaded campaign. -/
  | pushStart (t : TileId)
  /-- PUSH_PAUSE (R288): Pauses the running campaign. -/
  | pushPause (t : TileId)
  /-- PUSH_ACTIVATE (R290): Orders image activation for VERIFIED members. -/
  | pushActivate (t : TileId)
  /-- PUSH_CANCEL (R290): Cancels every member not DONE or FAILED. -/
  | pushCancel (t : TileId)
  /-- PUSH_ADD (R289): Admits up to 256 meters to the campaign. -/
  | pushAdd (t : TileId)
  /-- PUSH_MEMBER_STEP (R290): A campaign member advances its image-transfer machine on its turn or a response. -/
  | pushMemberStep (t : TileId) (slot : Nat)
  /-- MULTICAST_ROUND (R291): Every block is broadcast for the configured rounds. -/
  | multicastRound (t : TileId)
  /-- FILL_PASS (R292): Reads the block status of a meter and unicasts missing blocks. -/
  | fillPass (t : TileId) (slot : Nat)
  /-- PLC_FRAME_RX (R297): A PLC frame is received, blanked, decoded and delivered. -/
  | plcFrameRx (t : TileId) (p : PlcPhy) (apdu : Bytes)
  /-- PLC_TRANSMIT (R301): A PLC frame is sent with PSEL and TXEN timing. -/
  | plcTransmit (t : TileId) (dur ofs : Nat) (fail acked : Bool) (route : List Nat)
  /-- ZC_EDGE (R303): A PLC_ZC rising edge is timestamped and the mains period updated. -/
  | zcEdge (t : TileId)
  /-- ZC_LOST (R303): 25 ms without an edge makes the zero-crossing reference LOST. -/
  | zcLost (t : TileId)
  /-- JOIN (R304): A joining device is admitted and given a short address, or refused. -/
  | join (t : TileId) (eui : Nat) (authOk : Bool)
  /-- PLC_MODE_SWITCH (R307): In AUTO the tile changes between BEACON and POLLED modes. -/
  | plcModeSwitch (t : TileId)
  /-- POLL_CYCLE_START (R308): A POLLED cycle begins and the slot schedule is filled. -/
  | pollCycleStart (t : TileId)
  /-- COLLECTION_REQUEST (R309): A get-request by range is sent to a due meter. -/
  | collectionRequest (t : TileId) (slot : Nat)
  /-- CYCLE_BEACON (R312): The tile broadcasts a CYCLE_BEACON command. -/
  | cycleBeacon (t : TileId)
  /-- CAP (R315): A CAP command is received or sent, recording capabilities and EPOCH. -/
  | cap (t : TileId) (p : PlcPhy) (b : Bytes)
  /-- MAP_REQ (R322): A MAP_REQ asks a receiver for its map set. -/
  | mapReq (t : TileId) (p : PlcPhy) (b : Bytes)
  /-- MAP_RSP (R319): A received map set is checked and applied to later frames. -/
  | mapRsp (t : TileId) (p : PlcPhy) (b : Bytes)
  /-- MAP_REFRESH (R323): The tile forms and sends a new map set on change or refresh. -/
  | mapRefresh (t : TileId) (a : Nat)
  /-- NEIGH_REPORT (R329): A NEIGH_REPORT request or answer carries link phases and costs. -/
  | neighReport (t : TileId) (p : PlcPhy) (b : Bytes)
  /-- PHASE_QUERY (R329): Periodically the tile requests NEIGH_REPORTs on routes. -/
  | phaseQuery (t : TileId)
  /-- ROUTE_RECOMPUTE (R333): Every 600 s the least-cost routes are computed and PREFER commands sent. -/
  | routeRecompute (t : TileId)
  /-- RF_FRAME_RX (R346): An RF frame is received, filtered, acknowledged and passed to Gather. -/
  | rfFrameRx (t : TileId) (ch : Nat) (rssi : Int) (psdu : Bytes)
  /-- RF_POLL (R353): An accepted poll is answered with a pending frame or NONE. -/
  | rfPoll (t : TileId) (ch : Nat) (rssi : Int) (psdu : Bytes)
  /-- RF_DOWNLINK (R355): A downlink frame is queued for a sleepy meter or sent by CSMA. -/
  | rfDownlink (t : TileId) (fail : Bool)
  /-- PENDING_EXPIRE (R355): A pending RF frame expires after pending_ttl_s. -/
  | pendingExpire (t : TileId) (slot : Nat)
  /-- RF_COLLECTION (R357): A collection request is queued for a late RF interval. -/
  | rfCollection (t : TileId) (slot : Nat)
  /-- DUTY_BUCKET (R359): A 10 s duty bucket completes, freeing airtime for held frames. -/
  | dutyBucket (t : TileId)
  /-- FRAME_ADMIT (R369): A frame arriving at a switch input is admitted to the pool, dropped or made to wait. -/
  | frameAdmit (t : TileId) (i o : Fin 8) (cls : Fin 4) (data : Bytes) (fcsBad : Bool)
  /-- FRAME_DISPATCH (R372): A free output dispatches the next frame by class precedence and DWRR. -/
  | frameDispatch (t : TileId) (o : Fin 8)
  /-- CREDIT_RETURN (R371): A unit returns credits as it frees cells. -/
  | creditReturn (t : TileId) (o : Fin 8) (n : Nat)
  /-- CREDIT_CHECK (R374): Every 1 ms the credit sum of each output is checked and corrected. -/
  | creditCheck (t : TileId) (o : Fin 8) (seen : Nat)
  /-- LINK_UP (R378): Block lock or auto-negotiation brings D0 or D1 up, or out of HOLD. -/
  | linkUp (t : TileId) (p : Fin 2)
  /-- LINK_LOST (R378): A link loss puts the port in HOLD or takes it down. -/
  | linkLost (t : TileId) (p : Fin 2)
  /-- HOLD_EXPIRY (R378): The hold timer elapses and the port goes down. -/
  | holdExpiry (t : TileId) (p : Fin 2)
  /-- PORT_DISABLE (R378): A write of tile.sw.port_disable holds D0 or D1 in DISABLED. -/
  | portDisable (t : TileId) (p : Fin 2) (value : Nat)
  /-- HELLO_REQ (R382): A satellite's HELLO_REQ starts a handshake and the tile answers HELLO. -/
  | helloReq (t : TileId) (p : Fin 2) (frame : Bytes)
  /-- HELLO_RSP (R382): The satellite's response is verified, keys are derived and FINISH is sent. -/
  | helloRsp (t : TileId) (p : Fin 2) (frame : Bytes)
  /-- HANDSHAKE_TIMEOUT (R382): A handshake not finished within 100 ms is abandoned. -/
  | handshakeTimeout (t : TileId) (k : Nat)
  /-- RESUME (R384): A RESUME in VERIFY restores the session or sets it DOWN. -/
  | resume (t : TileId) (p : Fin 2) (frame : Bytes)
  /-- VERIFY_TIMEOUT (R384): V elapses in VERIFY and the session goes DOWN. -/
  | verifyTimeout (t : TileId) (k : Nat)
  /-- KEEPALIVE (R384): Nothing is sent for A and a KEEPALIVE is sent. -/
  | keepalive (t : TileId) (k : Nat)
  /-- SAT_DEAD (R384): Nothing is accepted for X and the session goes DOWN. -/
  | satDead (t : TileId) (k : Nat)
  /-- SESSION_RESET (R384): Ends the selected satellite session. -/
  | sessionReset (t : TileId)
  /-- DOWN_RSP (R386): A satellite's DOWN_RSP goes to Ephemeris or is dropped. -/
  | downRsp (t : TileId) (p : Fin 2) (frame : Bytes)
  /-- HELLO (R400): A host HELLO is answered with HELLO_RSP, LIMIT or BUSY. -/
  | hello (lane : Fin 2) (peer : Bytes) (m : HostMsg)
  /-- AUTH (R401): The host's certificate and signature are checked and FINISH sets the rights. -/
  | auth (lane : Fin 2) (peer : Bytes) (m : HostMsg)
  /-- GET (R395): Reads up to 32 items, each checked in order. -/
  | get (lane : Fin 2) (peer : Bytes) (m : HostMsg)
  /-- SET (R395): Writes up to 32 items in order, each on its own. -/
  | set (lane : Fin 2) (peer : Bytes) (m : HostMsg)
  /-- GET_BLOCK (R399): Reads a byte range of an OCTET entry. -/
  | getBlock (lane : Fin 2) (peer : Bytes) (m : HostMsg)
  /-- SET_BLOCK (R399): Writes a byte range of an OCTET entry and locks staging to the session. -/
  | setBlock (lane : Fin 2) (peer : Bytes) (m : HostMsg)
  /-- SUBSCRIBE (R407): Opens an ARCHIVE, EVENT or WATCH subscription. -/
  | subscribe (lane : Fin 2) (peer : Bytes) (m : HostMsg)
  /-- UNSUBSCRIBE (R407): Removes a subscription. -/
  | unsubscribe (lane : Fin 2) (peer : Bytes) (m : HostMsg)
  /-- EXEC (R395): Executes an action entry with its parameters. -/
  | exec (lane : Fin 2) (peer : Bytes) (m : HostMsg)
  /-- CLOSE (R405): Ends the session. -/
  | close (lane : Fin 2) (peer : Bytes) (m : HostMsg)
  /-- NOTIFY (R408): The hub copies a produced stream item to every subscribed session. -/
  | notify (target stream : Nat)
  /-- WATCH_COMPARE (R650): At most every MIN_MS the watched entry is compared and sent when changed. -/
  | watchCompare (session sub : Nat)
  /-- NO_SESSION (R406): A protected message for an unknown session is answered NO_SESSION. -/
  | noSession (lane : Fin 2) (peer : Bytes) (type : Nat) (m : HostMsg)
  /-- SESSION_IDLE (R405): A session with no request for session_idle_s ends. -/
  | sessionIdle (session : Nat)
  /-- SESSION_END (R405): device.host.session_end ends the selected session. -/
  | sessionEnd
  /-- STAGING_LOCK_TIMEOUT (R399): A staging lock ends after 60 s without a write. -/
  | stagingLockTimeout (index sub : Nat)
  /-- LANE_DOWN (R391): A lane down for lane_hold_ms moves traffic or sessions to the other lane. -/
  | laneDown (lane : Fin 2) (ev : Fin 4)
  /-- LANE_REVERT (R391): The primary lane becomes active again after lane_revert_s up. -/
  | laneRevert
  /-- SERIAL_FRAME (R412): A service-bus frame is received and answered by the Pier. -/
  | serialFrame (frame : Bytes)
  /-- PTP_SYNC (R422): A forwarded Sync forms an offset measurement for Meridian. -/
  | ptpSync (lane : Fin 2) (sender : PtpSender) (originNs : Nat) (corrNs : Int)
  /-- PDELAY (R422): Once per second the hub runs Pdelay on each lane. -/
  | pdelay (lane : Fin 2) (t1 t2 t3 t4 : Nat)
  /-- PPS_EDGE (R423): A TIN_PPS edge named by TIN_TOD forms a measurement. -/
  | ppsEdge (rising : Bool) (widthNs : Nat)
  /-- TOD_MESSAGE (R424): A TIN_TOD message is checked and names the next edge. -/
  | todMessage (msg : Bytes)
  /-- MERIDIAN_MEASUREMENT (R430): A measurement drives the Meridian machine: qualification, step, servo or refusal. -/
  | meridianMeasurement (t : TileId)
  /-- REFERENCE_LOSS (R429): No measurement for loss_ms; the reference is lost. -/
  | referenceLoss (t : TileId)
  /-- LEAP_SECOND (R420): A pending leap second changes the UTC offset at the end of the UTC day. -/
  | leapSecond
  /-- RESTEP (R435): Orders selected tiles to step again to the reference or a manual time. -/
  | restep (params : Bytes)
  /-- RESTEP_TIMEOUT (R435): The re-step completes after 70 s with the tiles that have not stepped failing. -/
  | restepTimeout
  /-- TOUT_EDGE (R439): TOUT is driven at each whole second or repeated from TIN_PPS. -/
  | toutEdge (b : BayId)
  /-- PTP_MASTER_TX (R441): Once per second the tile sends Sync, Follow_Up and Announce on D0 and D1. -/
  | ptpMasterTx (t : TileId) (d0 d1 : Option (Nat × Nat × Nat × Nat))
  /-- METER_CLOCK_CHECK (R442): Meridian reads a meter clock and sets it when outside the deadband. -/
  | meterClockCheck (t : TileId) (slot : Nat)
  /-- VAULT_ENROL (R454): Enrols the tile as NEW_BAY or JOIN and seals the KEKs. -/
  | vaultEnrol (t : TileId)
  /-- BAY_OFFER (R456): Opens a 60 s window for the other tile to JOIN. -/
  | bayOffer (t : TileId)
  /-- BAY_OFFER_EXPIRY (R456): The offer window closes after 60 s. -/
  | bayOfferExpiry (t : TileId)
  /-- GO_FIELD (R474): Moves an enrolled tile to FIELD. -/
  | goField (t : TileId)
  /-- VAULT_ERASE (R451): Erases envelopes and slots and returns the tile to BLANK. -/
  | vaultErase (t : TileId)
  /-- DEBUG_UNLOCK (R477): Verifies the debug token and moves the tile to DEBUG. -/
  | debugUnlock (t : TileId)
  /-- DEBUG_CHALLENGE (R476): A read returns a fresh 16-byte challenge. -/
  | debugChallenge (t : TileId)
  /-- VAULT_RETIRE (R478): Blows the retirement fuse and erases. -/
  | vaultRetire (t : TileId)
  /-- VAULT_IMPORT (R468): Unwraps imported keys into blobs and updates records. -/
  | vaultImport (t : TileId)
  /-- ARCHIVE_ROTATE (R471): Creates the next archive key generation. -/
  | archiveRotate (t : TileId)
  /-- HOST_REKEY (R459): Raises the device host key generation. -/
  | hostRekey
  /-- CERT_WRITE (R473): A certificate entry write is judged for form and key. -/
  | certWrite (t : TileId) (which : Fin 5) (off : Nat) (data : Bytes)
  /-- ANCHOR_WRITE (R475): Writes or removes an operator trust anchor. -/
  | anchorWrite (i : Fin 8) (off : Nat) (data : Bytes)
  /-- DRBG_RESEED (R479): The DRBG reseeds every 10 s or 2^20 requests. -/
  | drbgReseed (t : TileId)
  /-- HEALTH_FAIL (R479): A TRNG health test fails and the DRBG returns to NOT_READY. -/
  | healthFail (t : TileId)
  /-- DRBG_READY (R479): Health tests pass and the DRBG is seeded and ready. -/
  | drbgReady (t : TileId)
  /-- ROLE_ASSIGN (R485): A tile reaching level 3 becomes ACTIVE or STANDBY. -/
  | roleAssign (t : TileId)
  /-- PREFERRED_TIMEOUT (R485): 10 s after Pier reset the other tile is made ACTIVE. -/
  | preferredTimeout (b : BayId)
  /-- HEARTBEAT (R505): The active sends its status heartbeat. -/
  | heartbeat (t : TileId)
  /-- HEARTBEAT_LOSS (R505): 30 ms without a heartbeat triggers promotion or fault. -/
  | heartbeatLoss (t : TileId)
  /-- PROMOTION (R506): The standby is promoted in bounded steps. -/
  | promotion (b : BayId) (ok : Bool)
  /-- BAY_PROMOTE (R509): Runs an orderly hand-over to the standby. -/
  | bayPromote (b : BayId) (force : Nat)
  /-- CLEAR_FAULT (R485): Resets a FAULTED tile back toward STANDBY. -/
  | clearFault (b : BayId) (odd : Nat)
  /-- MIRROR_ITEM (R489): A mirror frame is written into the standby FIFO and reported. -/
  | mirrorItem (b : BayId) (resent : Nat)
  /-- MIRROR_FRAME_LOST (R489): A frame is not delivered after 3 attempts and counts as lost. -/
  | mirrorFrameLost (b : BayId)
  /-- STANDBY_DRAIN (R496): The standby applies FIFO items to its copy. -/
  | standbyDrain (b : BayId)
  /-- STANDBY_WAKE (R497): The standby in RETAIN is woken by watermark, audit timer or request. -/
  | standbyWake (b : BayId)
  /-- AUDIT_CHECK (R502): The standby recomputes an audited group and compares digests. -/
  | auditCheck (b : BayId) (upset : Bytes)
  /-- TIE_BREAK (R503): Both tiles recompute and the Punty gives a verdict. -/
  | tieBreak (b : BayId) (active : Bool) (upset : Bytes)
  /-- TIE_BREAK_TIMEOUT (R503): A tile not reporting within 100 ms disagrees with itself. -/
  | tieBreakTimeout (b : BayId)
  /-- RESYNC (R499): The active snapshots state and catches up the standby. -/
  | resync (b : BayId)
  /-- BAY_MODE_CHANGE (R514): Changes the bay between redundant and independent. -/
  | bayModeChange (b : BayId) (mode : Nat)
  /-- POWER_REQUEST_RUN (R522): A host power request 0 wakes the tile. -/
  | powerRequestRun (t : TileId)
  /-- POWER_REQUEST_HOLD (R522): A host power request 1 starts entry to HOLD. -/
  | powerRequestHold (t : TileId)
  /-- POWER_REQUEST_RETAIN (R522): A host power request 2 starts entry to RETAIN. -/
  | powerRequestRetain (t : TileId)
  /-- POWER_REQUEST_ISOLATED (R522): A host power request 3 faults the standby and isolates it. -/
  | powerRequestIsolated (t : TileId)
  /-- POWER_REQUEST_OFF (R522): A host power request 4 isolates the standby and turns its rail off. -/
  | powerRequestOff (t : TileId)
  /-- IDLE_ENTRY (R524): The standby's firmware requests its idle state after a drain. -/
  | idleEntry (t : TileId)
  /-- ISOLATION (R527): The Punty isolates a faulted tile without conditions. -/
  | isolation (t : TileId)
  /-- WAKE_EVENT (R526): A wake event aborts an entry or starts a wake. -/
  | wakeEvent (t : TileId)
  /-- WAKE (R530): The tile returns to RUN through W1 to W4. -/
  | wake (t : TileId)
  /-- REGULATOR_ACK (R535): READ_VOUT and STATUS_WORD show the setpoint reached. -/
  | regulatorAck (t : TileId) (mv status : Nat)
  /-- REGULATOR_ACK_TIMEOUT (R529): No acknowledgement within 1 ms refuses the entry. -/
  | regulatorAckTimeout (t : TileId)
  /-- PMB_ALERT (R536): PMB_ALERT_N falls and status is read. -/
  | pmbAlert (words : List Nat)
  /-- STATUS_POLL (R536): Every 10 ms STATUS_WORD of each regulator is read. -/
  | statusPoll (words : List Nat)
  /-- PFAIL_ASSERT (R547): PFAIL_N asserts and NAND writes and field drive stop. -/
  | pfailAssert (cause : Fin 3) (mv rails : Nat)
  /-- PFAIL_RELEASE (R548): PFAIL_N releases and queued operations resume. -/
  | pfailRelease (mv : Nat)
  /-- BANK_BUDGET_FREE (R541): A bucket leaves the window and a held pulse may start. -/
  | bankBudgetFree (b : BayId)
  /-- ENERGY_SETTING_WRITE (R543): A bay.energy write needs SECURE and raises an event. -/
  | energySettingWrite (b : BayId) (which : Fin 4) (value rights : Nat)
  /-- VANA_OUT_OF_RANGE (R674): VANA leaves range and the analogue units stop, restarting 10 ms after return. -/
  | vanaOutOfRange (t : TileId) (back : Bool)
  /-- MEDIA_FORMAT (R573): Erases every good block and formats the die. -/
  | mediaFormat (t : TileId)
  /-- RELOCATION (R559): Copies, commits and erases a block. -/
  | relocation (t : TileId)
  /-- PROGRAM_FAIL (R568): A failed program retires the block. -/
  | programFail (t : TileId) (copy : Bool)
  /-- ERASE_COMPLETE (R559): An erase completes and a FREE entry is written. -/
  | eraseComplete (t : TileId) (fail : Bool)
  /-- PATROL (R569): The patrol reads wordlines and queues refreshes. -/
  | patrol (t : TileId) (pb page worst total fails : Nat)
  /-- WEAR_LEVEL (R570): Relocates the least-worn block when the spread exceeds 300. -/
  | wearLevel (t : TileId)
  /-- MAP_JOURNAL_PAGE (R558): Queued map-journal entries are programmed. -/
  | mapJournalPage (t : TileId)
  /-- KEYSTORE_COMPACT (R565): Compacts the key store log. -/
  | keystoreCompact (t : TileId)
  /-- TEMPERATURE_SAMPLE (R576): Every 60 s the die temperature is sampled. -/
  | temperatureSample (t : TileId) (c : Int)
  /-- QUEUE_WRITE (R581): A write places an item, swaps banks or overwrites. -/
  | queueWrite (t : TileId) (code : Fin 7) (item : QItem)
  /-- QUEUE_READ (R579): A read returns the next item or an empty item. -/
  | queueRead (t : TileId) (code : Fin 7)
  /-- WM_STATUS_READ (R585): Returns and clears the watermark status. -/
  | wmStatusRead (t : TileId) (code : Fin 7)
  /-- RC_COUNTER_READ (R587): Returns and clears an RC counter. -/
  | rcCounterRead (index sub : Nat)
  /-- EVENT_LOG (R592): An event entry is logged or suppressed. -/
  | eventLog (w : Option TileId)
  /-- EVENTS_READ_BLOCK (R595): Returns up to 16 event entries. -/
  | eventsReadBlock (w : Option TileId)
  /-- LEGAL_EVENT (R598): A legal log entry is written or counted unlogged. -/
  | legalEvent (t : TileId) (code : Nat) (data : Bytes)
  /-- LEGAL_ACK (R599): Releases legal log entries. -/
  | legalAck (t : TileId) (lseq : Nat) (tag : Bytes)
  /-- DIAG_UNLOCK (R628): Unlocks bays for perturbation. -/
  | diagUnlock (bays secs : Nat)
  /-- DIAG_LOCK (R628): Locks the named bays. -/
  | diagLock (bays : Nat)
  /-- UNLOCK_EXPIRY (R628): A bay's unlock time expires. -/
  | unlockExpiry (b : BayId)
  /-- EGRESS_DELAY (R632): Arms egress delay on an output port. -/
  | egressDelay (t : TileId) (rec : Bytes)
  /-- CREDIT_STARVE (R632): Arms a credit ceiling on an output port. -/
  | creditStarve (t : TileId) (rec : Bytes)
  /-- NAND_FAIL (R634): Arms injected NAND program failures. -/
  | nandFail (t : TileId) (rec : Bytes)
  /-- LOST_INJECT (R632): Discards items from a queue's fill bank. -/
  | lostInject (t : TileId) (rec : Bytes)
  /-- MIRROR_DELAY (R633): Arms a mirror frame delay. -/
  | mirrorDelay (b : BayId) (rec : Bytes)
  /-- PMBUS_DELAY (R633): Arms delayed regulator acknowledgements. -/
  | pmbusDelay (b : BayId) (rec : Bytes)
  /-- AUDIT_MISMATCH (R635): Arms injected audit mismatches. -/
  | auditMismatch (b : BayId) (rec : Bytes)
  /-- MIRROR_LOST (R633): Discards items from the mirror FIFO. -/
  | mirrorLost (b : BayId) (rec : Bytes)
  /-- CONTROL_DISARM (R630): A zero arm record disarms a control. -/
  | controlDisarm (t : TileId) (ofBay : Bool) (k : Fin 4)
  /-- CONTROL_EXPIRY (R637): A control ends when its duration or count runs out. -/
  | controlExpiry (t : TileId) (ofBay : Bool) (k : Fin 4)
  /-- RESTORE_DEFAULTS (R659): Returns RWS entries of selected areas to defaults. -/
  | restoreDefaults (mask : Nat)
  /-- DICT_DESCRIBE (R662): Returns the descriptor of the selected entry. -/
  | dictDescribe
  /-- ENTRY_WRITE (R646): A write to a register with no row of its own is checked and stored. -/
  | entryWrite (target index sub : Nat) (value : Bytes) (rights : Nat)
  /-- WAKE_ORDER_TIMEOUT (R485): A STANDBY tile not in RUN 10 ms after a Punty wake order is isolated and becomes FAULTED with alarm UNPROTECTED. -/
  | wakeOrderTimeout (t : TileId)
  /-- TILE_STATUS_REPORT (R644): A tile reports a change of its role, service level or missing elements to the Pier, and a STANDBY that reports its code bank, root, DRAM or NAND lost is isolated and FAULTED. -/
  | tileStatusReport (t : TileId)
  /-- SERIAL_TILE_TIMEOUT (R413): A tile that has not answered a forwarded service-bus request within 200 ms is answered UNREACHABLE with DETAIL 4 TIMEOUT. -/
  | serialTileTimeout
  /-- RESTEP_ENTRY_EXPIRY (R437): A re-step table entry is removed 16 × 86 400 s after its instant s. -/
  | restepEntryExpiry (t : TileId)
  /-- DRBG_START_TIMEOUT (R479): When the DRBG is not ready 100 ms after an attempt starts, drbg_state reads FAILED and an event is raised. -/
  | drbgStartTimeout (t : TileId)
  /-- TREE_TAKES_EFFECT (R217): At the first grid point after a tree commit the new tree takes effect: scores reset and RAISED nodes archive ALARM records with STATE 2. -/
  | treeTakesEffect (t : TileId)
  /-- IMAGE_ACTIVATE_TIME (R290): When Meridian time reaches the campaign ACTIVATE time, VERIFIED members are sent image_activate. -/
  | imageActivateTime (t : TileId)
  /-- ACTIVATING_TIMEOUT (R290): A member in ACTIVATING with no answer for 600 s after its ACTION fails with NO_RESPONSE. -/
  | activatingTimeout (t : TileId) (slot : Nat)
  /-- DWELL_BUCKET (R360): A 100 ms dwell bucket of a channel leaves its window, freeing dwell for frames that dwell held back. -/
  | dwellBucket (t : TileId) (ch : Nat)
  /-- PLC_DUTY_FREE (R542): PLC_TXEN time leaves the rolling 10 s window of the field energy limiter, letting a held PLC frame start. -/
  | plcDutyFree (t : TileId)
  /-- MAP_SET_DROP (R322): A receiver drops a transmitter's previous map set 10 s after the first frame that carries the current MSID. -/
  | mapSetDrop (t : TileId) (a : Nat)
  /-- PTP_ANNOUNCE (R422): A received Announce message feeds the best master clock algorithm, which may change the selected master. -/
  | ptpAnnounce (lane : Fin 2) (sender : PtpSender) (gm : Bytes) (prio1 cls acc var prio2 steps src : Nat) (utc : Int) (utcValid : Bool) (leap : Int)
  /-- PAGE_PROGRAM_COMPLETE (R564): A NAND page program completes, making its journal, configuration, key-store or archive contents durable and releasing the acknowledgements that wait on it. -/
  | pageProgramComplete (t : TileId)
  deriving DecidableEq, Repr

end Sys2Proof
end

