-- ==== Sys2Proof/Decode.lean ====
section
/-! DEFINITION. Decode.lean: commands as words. The opcode table gives no row any bits, so no word spells a command (notes/assumptions/2.md). -/

namespace Sys2Proof

/-- The command that a word of `nbits` bits spells. -/
def decodeTableWord (_nbits _w : Nat) : Option Instr := none

end Sys2Proof
end

