-- ==== Sys2Proof/Machine/Crypto.lean ====
section
/-! DEFINITION. Crypto.lean: the cryptographic functions the manual names by their public standards: AES (FIPS 197), GCM,
CMAC, CCM*, AES-KW (RFC 3394), SHA-256 and SHA-384 (FIPS 180-4), HMAC, the KDF of R457, SipHash-2-4 (R56), CRC-32 of
IEEE 802.3, and ECDSA over P-256 and P-384 with the deterministic nonce of RFC 6979 (R164, R616).
PRESUMED: the manual gives only the names; the algorithms are the public ones (notes/assumptions/3.md). -/

namespace Sys2Proof.Machine.Crypto

/-- Bytes from numbers. -/
def ofNats (l : List Nat) : Bytes := l.map (BitVec.ofNat 8)

/-- ASCII bytes of a text. -/
def ascii (t : String) : Bytes := t.toList.map fun c => BitVec.ofNat 8 c.toNat

/-- Byte-wise exclusive or, to the length of the shorter. -/
def xorB (a b : Bytes) : Bytes := List.zipWith (· ^^^ ·) a b

/-- Pad with zero bytes to a multiple of 16. -/
def pad16 (b : Bytes) : Bytes := b ++ List.replicate ((16 - b.length % 16) % 16) 0

/-- Split into pieces of `n` bytes (the last may be short); `fuel` bounds the pieces. -/
def piecesAux (n : Nat) : Nat → Bytes → List Bytes
  | 0, _ => []
  | _, [] => []
  | f + 1, b => b.take n :: piecesAux n f (b.drop n)

/-- Split into pieces of `n` bytes. -/
def pieces (n : Nat) (b : Bytes) : List Bytes := piecesAux n (b.length + 1) b

/-! CRC -/

/-- One bit step of a reflected CRC-32 with polynomial 0xEDB88320. -/
def crc32Bit (c : Nat) : Nat :=
  (c / 2) ^^^ (0xEDB88320 * (c % 2))

/-- CRC-32 (IEEE 802.3 polynomial) of a byte string. -/
def crc32 (b : Bytes) : Nat :=
  (b.foldl (fun c x => Nat.repeat crc32Bit 8 (c ^^^ x.toNat)) 0xFFFFFFFF) ^^^ 0xFFFFFFFF

/-! AES -/

/-- The S-box of FIPS 197. -/
def sbox : List Nat :=
  [99, 124, 119, 123, 242, 107, 111, 197, 48, 1, 103, 43, 254, 215, 171, 118] ++
  [202, 130, 201, 125, 250, 89, 71, 240, 173, 212, 162, 175, 156, 164, 114, 192] ++
  [183, 253, 147, 38, 54, 63, 247, 204, 52, 165, 229, 241, 113, 216, 49, 21] ++
  [4, 199, 35, 195, 24, 150, 5, 154, 7, 18, 128, 226, 235, 39, 178, 117] ++
  [9, 131, 44, 26, 27, 110, 90, 160, 82, 59, 214, 179, 41, 227, 47, 132] ++
  [83, 209, 0, 237, 32, 252, 177, 91, 106, 203, 190, 57, 74, 76, 88, 207] ++
  [208, 239, 170, 251, 67, 77, 51, 133, 69, 249, 2, 127, 80, 60, 159, 168] ++
  [81, 163, 64, 143, 146, 157, 56, 245, 188, 182, 218, 33, 16, 255, 243, 210] ++
  [205, 12, 19, 236, 95, 151, 68, 23, 196, 167, 126, 61, 100, 93, 25, 115] ++
  [96, 129, 79, 220, 34, 42, 144, 136, 70, 238, 184, 20, 222, 94, 11, 219] ++
  [224, 50, 58, 10, 73, 6, 36, 92, 194, 211, 172, 98, 145, 149, 228, 121] ++
  [231, 200, 55, 109, 141, 213, 78, 169, 108, 86, 244, 234, 101, 122, 174, 8] ++
  [186, 120, 37, 46, 28, 166, 180, 198, 232, 221, 116, 31, 75, 189, 139, 138] ++
  [112, 62, 181, 102, 72, 3, 246, 14, 97, 53, 87, 185, 134, 193, 29, 158] ++
  [225, 248, 152, 17, 105, 217, 142, 148, 155, 30, 135, 233, 206, 85, 40, 223] ++
  [140, 161, 137, 13, 191, 230, 66, 104, 65, 153, 45, 15, 176, 84, 187, 22]

/-- SubBytes of one byte. -/
def sub (x : Byte) : Byte := BitVec.ofNat 8 (sbox.getD x.toNat 0)

/-- Inverse SubBytes of one byte. -/
def invSub (x : Byte) : Byte := BitVec.ofNat 8 (sbox.idxOf x.toNat)

/-- Multiplication by x in GF(2^8). -/
def xtime (x : Byte) : Byte := if x.toNat ≥ 128 then (x <<< 1) ^^^ 0x1B else x <<< 1

/-- Multiplication in GF(2^8) by a small constant. -/
def gmul (k : Nat) (x : Byte) : Byte :=
  (if k.testBit 0 then x else 0) ^^^ (if k.testBit 1 then xtime x else 0) ^^^
  (if k.testBit 2 then xtime (xtime x) else 0) ^^^ (if k.testBit 3 then xtime (xtime (xtime x)) else 0)

/-- Key expansion: the list of 4-byte words, newest first; `n` words still to form. -/
def expandAux (nk : Nat) : Nat → Nat → Byte → List Bytes → List Bytes
  | 0, _, _, ws => ws
  | n + 1, i, rc, ws =>
    let prev := ws.headD []
    let old := ws.getD (nk - 1) []
    let t :=
      if i % nk = 0 then
        match (prev.drop 1 ++ prev.take 1).map sub with
        | a :: r => (a ^^^ rc) :: r
        | [] => []
      else if nk > 6 ∧ i % nk = 4 then prev.map sub
      else prev
    expandAux nk n (i + 1) (if i % nk = 0 then xtime rc else rc) (xorB old t :: ws)

/-- The round keys of AES-128 or AES-256, first round first. -/
def roundKeys (key : Bytes) : List Bytes :=
  let nk := key.length / 4
  let ws := (expandAux nk (4 * (nk + 7) - nk) nk 1 (pieces 4 key).reverse).reverse
  pieces 16 ws.flatten

/-- ShiftRows on the 16-byte column-major state. -/
def shiftRows (s : Bytes) : Bytes :=
  [0, 5, 10, 15, 4, 9, 14, 3, 8, 13, 2, 7, 12, 1, 6, 11].map (s.getD · 0)

/-- Inverse ShiftRows. -/
def invShiftRows (s : Bytes) : Bytes :=
  [0, 13, 10, 7, 4, 1, 14, 11, 8, 5, 2, 15, 12, 9, 6, 3].map (s.getD · 0)

/-- MixColumns of one column with first matrix row `m`. -/
def mixCol (m : List Nat) (c : Bytes) : Bytes :=
  (List.range 4).map fun r =>
    (List.range 4).foldl (fun acc j => acc ^^^ gmul (m.getD ((j + 4 - r) % 4) 0) (c.getD j 0)) 0

/-- MixColumns. -/
def mix (m : List Nat) (s : Bytes) : Bytes := ((pieces 4 s).map (mixCol m)).flatten

/-- AES rounds of an encryption after the first key addition. -/
def encRounds : List Bytes → Bytes → Bytes
  | [], s => s
  | [k], s => xorB (shiftRows (s.map sub)) k
  | k :: ks, s => encRounds ks (xorB (mix [2, 3, 1, 1] (shiftRows (s.map sub))) k)

/-- AES encryption of one block under expanded keys. -/
def aesEncK (rk : List Bytes) (blk : Bytes) : Bytes :=
  match rk with
  | [] => blk
  | k :: ks => encRounds ks (xorB blk k)

/-- AES encryption of one block. -/
def aesEnc (key blk : Bytes) : Bytes := aesEncK (roundKeys key) blk

/-- AES rounds of a decryption, keys last first. -/
def decRounds : List Bytes → Bytes → Bytes
  | [], s => s
  | [k], s => xorB ((invShiftRows s).map invSub) k
  | k :: ks, s => decRounds ks (mix [14, 11, 13, 9] (xorB ((invShiftRows s).map invSub) k))

/-- AES decryption of one block under expanded keys. -/
def aesDecK (rk : List Bytes) (blk : Bytes) : Bytes :=
  match rk.reverse with
  | [] => blk
  | k :: ks => decRounds ks (xorB blk k)

/-! CMAC (NIST SP 800-38B) -/

/-- Doubling in GF(2^128), most significant bit first. -/
def dbl128 (b : Bytes) : Bytes :=
  let n := beNat b
  natBE 16 (if n ≥ 2 ^ 127 then (n * 2) % 2 ^ 128 ^^^ 0x87 else n * 2)

/-- AES-CMAC. -/
def cmac (key msg : Bytes) : Bytes :=
  let rk := roundKeys key
  let k1 := dbl128 (aesEncK rk (List.replicate 16 0))
  let k2 := dbl128 k1
  let full := ¬ msg.isEmpty ∧ msg.length % 16 = 0
  let ps := pieces 16 (if full then msg else pad16 (msg ++ [0x80]))
  let lastB := xorB (ps.getLastD []) (if full then k1 else k2)
  aesEncK rk (xorB (ps.dropLast.foldl (fun x p => aesEncK rk (xorB x p)) (List.replicate 16 0)) lastB)

/-! GCM (NIST SP 800-38D) -/

/-- Product of two blocks in the GCM field, on big-endian numbers; bit 127 of a number is the first bit. -/
def gf128Aux : Nat → Nat → Nat → Nat → Nat
  | 0, _, _, z => z
  | i + 1, x, v, z =>
    gf128Aux i x (if v % 2 = 1 then (v / 2) ^^^ (0xE1 <<< 120) else v / 2)
      (if x.testBit i then z ^^^ v else z)

/-- GHASH over a padded string. -/
def ghash (h : Nat) (b : Bytes) : Nat :=
  (pieces 16 b).foldl (fun y p => gf128Aux 128 (y ^^^ beNat p) h 0) 0

/-- Counter-mode stream of `n` blocks from counter block head `pre` (12 bytes) and counter `c`. -/
def ctrStream (rk : List Bytes) (pre : Bytes) (c n : Nat) : Bytes :=
  ((List.range n).map fun i => aesEncK rk (pre ++ natBE 4 (c + i))).flatten

/-- The 16-byte GCM tag of a ciphertext. -/
def gcmTag (key iv aad ct : Bytes) : Bytes :=
  let rk := roundKeys key
  let h := beNat (aesEncK rk (List.replicate 16 0))
  let s := ghash h (pad16 aad ++ pad16 ct ++ natBE 8 (8 * aad.length) ++ natBE 8 (8 * ct.length))
  xorB (aesEncK rk (iv ++ natBE 4 1)) (natBE 16 s)

/-- GCM counter-mode encryption or decryption with a 12-byte IV. -/
def gcmCtr (key iv d : Bytes) : Bytes :=
  xorB d (ctrStream (roundKeys key) iv 2 (d.length / 16 + 1))

/-- GCM sealing: ciphertext and a tag cut to `tl` bytes. -/
def gcmSeal (key iv aad pt : Bytes) (tl : Nat) : Bytes × Bytes :=
  let ct := gcmCtr key iv pt
  (ct, (gcmTag key iv aad ct).take tl)

/-- GCM opening: the plaintext when the (possibly truncated) tag verifies. -/
def gcmOpen (key iv aad ct tag : Bytes) : Option Bytes :=
  if (gcmTag key iv aad ct).take tag.length = tag ∧ ¬ tag.isEmpty then some (gcmCtr key iv ct) else none

/-! CCM* (IEEE 802.15.4, 13-byte nonce, 2-byte length field) -/

/-- CCM* authentication value of `m` bytes. -/
def ccmMac (key nonce aad pt : Bytes) (m : Nat) : Bytes :=
  let rk := roundKeys key
  let fl : Nat := (if aad.isEmpty then 0 else 64) + (if m = 0 then 0 else 8 * ((m - 2) / 2)) + 1
  let b0 : Bytes := [BitVec.ofNat 8 fl] ++ nonce ++ natBE 2 pt.length
  let al := if aad.isEmpty then [] else pad16 (natBE 2 aad.length ++ aad)
  let x := (pieces 16 (b0 ++ al ++ pad16 pt)).foldl (fun x p => aesEncK rk (xorB x p)) (List.replicate 16 0)
  x.take m

/-- CCM* key stream from counter `c`. -/
def ccmStream (key nonce : Bytes) (c n : Nat) : Bytes :=
  ((List.range n).map fun i => aesEnc key ([1] ++ nonce ++ natBE 2 (c + i))).flatten

/-- CCM* sealing: ciphertext and the encrypted MIC of `m` bytes. -/
def ccmSeal (key nonce aad pt : Bytes) (m : Nat) : Bytes × Bytes :=
  (xorB pt (ccmStream key nonce 1 (pt.length / 16 + 1)),
   xorB (ccmMac key nonce aad pt m) (ccmStream key nonce 0 1))

/-- CCM* opening. -/
def ccmOpen (key nonce aad ct mic : Bytes) : Option Bytes :=
  let pt := xorB ct (ccmStream key nonce 1 (ct.length / 16 + 1))
  if xorB (ccmMac key nonce aad pt mic.length) (ccmStream key nonce 0 1) = mic ∧ ¬ mic.isEmpty
  then some pt else none

/-! AES-KW (RFC 3394) -/

/-- One wrapping step: `(A, R)` at step counter `t` on register index `i`. -/
def kwStep (rk : List Bytes) (n : Nat) (ar : Bytes × List Bytes) (t : Nat) : Bytes × List Bytes :=
  let i := (t - 1) % n
  let b := aesEncK rk (ar.1 ++ ar.2.getD i [])
  (xorB (b.take 8) (natBE 8 t), ar.2.set i (b.drop 8))

/-- AES key wrap. -/
def kwWrap (kek pt : Bytes) : Bytes :=
  let rk := roundKeys kek
  let r := pieces 8 pt
  let n := r.length
  let ar := (List.range (6 * n)).foldl (fun a t => kwStep rk n a (t + 1)) (List.replicate 8 0xA6, r)
  ar.1 ++ ar.2.flatten

/-- One unwrapping step. -/
def kwUnstep (rk : List Bytes) (n : Nat) (ar : Bytes × List Bytes) (t : Nat) : Bytes × List Bytes :=
  let i := (t - 1) % n
  let b := aesDecK rk (xorB ar.1 (natBE 8 t) ++ ar.2.getD i [])
  (b.take 8, ar.2.set i (b.drop 8))

/-- AES key unwrap; none when the integrity value does not match. -/
def kwUnwrap (kek ct : Bytes) : Option Bytes :=
  let rk := roundKeys kek
  let ps := pieces 8 ct
  let r := ps.drop 1
  let n := r.length
  if n = 0 then none else
  let ar := (List.range (6 * n)).reverse.foldl (fun a t => kwUnstep rk n a (t + 1)) (ps.headD [], r)
  if ar.1 = List.replicate 8 0xA6 then some ar.2.flatten else none

/-! SHA-2 (FIPS 180-4) -/

/-- Round constants of SHA-256. -/
def k256 : List Nat :=
  [0x428a2f98, 0x71374491, 0xb5c0fbcf, 0xe9b5dba5, 0x3956c25b, 0x59f111f1, 0x923f82a4, 0xab1c5ed5] ++
  [0xd807aa98, 0x12835b01, 0x243185be, 0x550c7dc3, 0x72be5d74, 0x80deb1fe, 0x9bdc06a7, 0xc19bf174] ++
  [0xe49b69c1, 0xefbe4786, 0xfc19dc6, 0x240ca1cc, 0x2de92c6f, 0x4a7484aa, 0x5cb0a9dc, 0x76f988da] ++
  [0x983e5152, 0xa831c66d, 0xb00327c8, 0xbf597fc7, 0xc6e00bf3, 0xd5a79147, 0x6ca6351, 0x14292967] ++
  [0x27b70a85, 0x2e1b2138, 0x4d2c6dfc, 0x53380d13, 0x650a7354, 0x766a0abb, 0x81c2c92e, 0x92722c85] ++
  [0xa2bfe8a1, 0xa81a664b, 0xc24b8b70, 0xc76c51a3, 0xd192e819, 0xd6990624, 0xf40e3585, 0x106aa070] ++
  [0x19a4c116, 0x1e376c08, 0x2748774c, 0x34b0bcb5, 0x391c0cb3, 0x4ed8aa4a, 0x5b9cca4f, 0x682e6ff3] ++
  [0x748f82ee, 0x78a5636f, 0x84c87814, 0x8cc70208, 0x90befffa, 0xa4506ceb, 0xbef9a3f7, 0xc67178f2]

/-- Round constants of SHA-512 and SHA-384. -/
def k512 : List Nat :=
  [0x428a2f98d728ae22, 0x7137449123ef65cd, 0xb5c0fbcfec4d3b2f, 0xe9b5dba58189dbbc] ++
  [0x3956c25bf348b538, 0x59f111f1b605d019, 0x923f82a4af194f9b, 0xab1c5ed5da6d8118] ++
  [0xd807aa98a3030242, 0x12835b0145706fbe, 0x243185be4ee4b28c, 0x550c7dc3d5ffb4e2] ++
  [0x72be5d74f27b896f, 0x80deb1fe3b1696b1, 0x9bdc06a725c71235, 0xc19bf174cf692694] ++
  [0xe49b69c19ef14ad2, 0xefbe4786384f25e3, 0xfc19dc68b8cd5b5, 0x240ca1cc77ac9c65] ++
  [0x2de92c6f592b0275, 0x4a7484aa6ea6e483, 0x5cb0a9dcbd41fbd4, 0x76f988da831153b5] ++
  [0x983e5152ee66dfab, 0xa831c66d2db43210, 0xb00327c898fb213f, 0xbf597fc7beef0ee4] ++
  [0xc6e00bf33da88fc2, 0xd5a79147930aa725, 0x6ca6351e003826f, 0x142929670a0e6e70] ++
  [0x27b70a8546d22ffc, 0x2e1b21385c26c926, 0x4d2c6dfc5ac42aed, 0x53380d139d95b3df] ++
  [0x650a73548baf63de, 0x766a0abb3c77b2a8, 0x81c2c92e47edaee6, 0x92722c851482353b] ++
  [0xa2bfe8a14cf10364, 0xa81a664bbc423001, 0xc24b8b70d0f89791, 0xc76c51a30654be30] ++
  [0xd192e819d6ef5218, 0xd69906245565a910, 0xf40e35855771202a, 0x106aa07032bbd1b8] ++
  [0x19a4c116b8d2d0c8, 0x1e376c085141ab53, 0x2748774cdf8eeb99, 0x34b0bcb5e19b48a8] ++
  [0x391c0cb3c5c95a63, 0x4ed8aa4ae3418acb, 0x5b9cca4f7763e373, 0x682e6ff3d6b2b8a3] ++
  [0x748f82ee5defb2fc, 0x78a5636f43172f60, 0x84c87814a1f0ab72, 0x8cc702081a6439ec] ++
  [0x90befffa23631e28, 0xa4506cebde82bde9, 0xbef9a3f7b2c67915, 0xc67178f2e372532b] ++
  [0xca273eceea26619c, 0xd186b8c721c0c207, 0xeada7dd6cde0eb1e, 0xf57d4f7fee6ed178] ++
  [0x6f067aa72176fba, 0xa637dc5a2c898a6, 0x113f9804bef90dae, 0x1b710b35131c471b] ++
  [0x28db77f523047d84, 0x32caab7b40c72493, 0x3c9ebe0a15c9bebc, 0x431d67c49c100d4c] ++
  [0x4cc5d4becb3e42b6, 0x597f299cfc657e2a, 0x5fcb6fab3ad6faec, 0x6c44198c4a475817]

/-- Message schedule, newest first: `n` further words. -/
def schedule {w : Nat} (s0 s1 : BitVec w → BitVec w) : Nat → List (BitVec w) → List (BitVec w)
  | 0, l => l
  | n + 1, l => schedule s0 s1 n ((s1 (l.getD 1 0) + l.getD 6 0 + s0 (l.getD 14 0) + l.getD 15 0) :: l)

/-- One compression round on the eight working variables. -/
def shaRound {w : Nat} (S0 S1 : BitVec w → BitVec w) (v : List (BitVec w)) (kw : BitVec w × BitVec w) :
    List (BitVec w) :=
  match v with
  | [a, b, c, d, e, f, g, h] =>
    let t1 := h + S1 e + ((e &&& f) ^^^ (~~~e &&& g)) + kw.1 + kw.2
    let t2 := S0 a + ((a &&& b) ^^^ (a &&& c) ^^^ (b &&& c))
    [t1 + t2, a, b, c, d + t1, e, f, g]
  | _ => v

/-- One SHA-256 block. -/
def sha256Block (h : List (BitVec 32)) (blk : Bytes) : List (BitVec 32) :=
  let rot (n : Nat) (x : BitVec 32) := x.rotateRight n
  let m := (pieces 4 blk).map fun p => BitVec.ofNat 32 (beNat p)
  let ws := (schedule (fun x => rot 7 x ^^^ rot 18 x ^^^ (x >>> 3)) (fun x => rot 17 x ^^^ rot 19 x ^^^ (x >>> 10))
    48 m.reverse).reverse
  let v := (List.zip (k256.map (BitVec.ofNat 32)) ws).foldl
    (shaRound (fun x => rot 2 x ^^^ rot 13 x ^^^ rot 22 x) (fun x => rot 6 x ^^^ rot 11 x ^^^ rot 25 x)) h
  List.zipWith (· + ·) h v

/-- SHA-256. -/
def sha256 (m : Bytes) : Bytes :=
  let padded := m ++ [0x80] ++ List.replicate ((119 - m.length % 64) % 64) 0 ++ natBE 8 (8 * m.length)
  let h := (pieces 64 padded).foldl sha256Block (([0x6a09e667, 0xbb67ae85, 0x3c6ef372, 0xa54ff53a, 0x510e527f, 0x9b05688c, 0x1f83d9ab, 0x5be0cd19] : List Nat).map (BitVec.ofNat 32))
  (h.map fun x => natBE 4 x.toNat).flatten

/-- One SHA-512 block. -/
def sha512Block (h : List (BitVec 64)) (blk : Bytes) : List (BitVec 64) :=
  let rot (n : Nat) (x : BitVec 64) := x.rotateRight n
  let m := (pieces 8 blk).map fun p => BitVec.ofNat 64 (beNat p)
  let ws := (schedule (fun x => rot 1 x ^^^ rot 8 x ^^^ (x >>> 7)) (fun x => rot 19 x ^^^ rot 61 x ^^^ (x >>> 6))
    64 m.reverse).reverse
  let v := (List.zip (k512.map (BitVec.ofNat 64)) ws).foldl
    (shaRound (fun x => rot 28 x ^^^ rot 34 x ^^^ rot 39 x) (fun x => rot 14 x ^^^ rot 18 x ^^^ rot 41 x)) h
  List.zipWith (· + ·) h v

/-- SHA-384. -/
def sha384 (m : Bytes) : Bytes :=
  let padded := m ++ [0x80] ++ List.replicate ((239 - m.length % 128) % 128) 0 ++ natBE 16 (8 * m.length)
  let h := (pieces 128 padded).foldl sha512Block (([0xcbbb9d5dc1059ed8, 0x629a292a367cd507, 0x9159015a3070dd17, 0x152fecd8f70e5939, 0x67332667ffc00b31, 0x8eb44a8768581511, 0xdb0c2e0d64f98fa7, 0x47b5481dbefa4fa4] : List Nat).map (BitVec.ofNat 64))
  ((h.map fun x => natBE 8 x.toNat).flatten).take 48

/-- HMAC-SHA-256. -/
def hmac (key msg : Bytes) : Bytes :=
  let k := (if key.length > 64 then sha256 key else key)
  let k := k ++ List.replicate (64 - k.length) 0
  sha256 (k.map (· ^^^ 0x5C) ++ sha256 (k.map (· ^^^ 0x36) ++ msg))

/-- KDF of R457: counter-mode KDF of NIST SP 800-108 with HMAC-SHA-256; `bits` is L. -/
def kdf (key label context : Bytes) (bits : Nat) : Bytes :=
  let n := (bits + 255) / 256
  (((List.range n).map fun i => hmac key (natBE 4 (i + 1) ++ label ++ [0] ++ context ++ natBE 4 bits)).flatten).take
    (bits / 8)

/-! SipHash-2-4 -/

/-- One SipRound. -/
def sipRound (v : BitVec 64 × BitVec 64 × BitVec 64 × BitVec 64) :
    BitVec 64 × BitVec 64 × BitVec 64 × BitVec 64 :=
  let (v0, v1, v2, v3) := v
  let v0 := v0 + v1
  let v1 := v1.rotateLeft 13 ^^^ v0
  let v0 := v0.rotateLeft 32
  let v2 := v2 + v3
  let v3 := v3.rotateLeft 16 ^^^ v2
  let v0 := v0 + v3
  let v3 := v3.rotateLeft 21 ^^^ v0
  let v2 := v2 + v1
  let v1 := v1.rotateLeft 17 ^^^ v2
  let v2 := v2.rotateLeft 32
  (v0, v1, v2, v3)

/-- SipHash-2-4 of a byte string under a 128-bit key. -/
def siphash (key : Nat) (msg : Bytes) : Nat :=
  let k0 := BitVec.ofNat 64 key
  let k1 := BitVec.ofNat 64 (key / 2 ^ 64)
  let last := (pieces 8 msg).getLastD []
  let rest := if last.length = 8 then pieces 8 msg else (pieces 8 msg).dropLast
  let lastw := (if last.length = 8 then 0 else leNat last) + (msg.length % 256) * 2 ^ 56
  let init := (k0 ^^^ 0x736f6d6570736575, k1 ^^^ 0x646f72616e646f6d, k0 ^^^ 0x6c7967656e657261, k1 ^^^ 0x7465646279746573)
  let v := (rest.map leNat ++ [lastw]).foldl (fun v m =>
    let (a, b, c, d) := v
    let mm := BitVec.ofNat 64 m
    let (a, b, c, d) := sipRound (sipRound (a, b, c, d ^^^ mm))
    (a ^^^ mm, b, c, d)) init
  let (a, b, c, d) := v
  let (a, b, c, d) := Nat.repeat sipRound 4 (a, b, c ^^^ 0xFF, d)
  (a ^^^ b ^^^ c ^^^ d).toNat

/-! Elliptic curves -/

/-- A short Weierstrass curve with a = -3 over a prime field. -/
structure Curve where
  p : Nat
  b : Nat
  gx : Nat
  gy : Nat
  n : Nat
  bytes : Nat
  deriving DecidableEq, Repr

/-- P-256. -/
def p256 : Curve where
  p := 0xffffffff00000001000000000000000000000000ffffffffffffffffffffffff
  b := 0x5ac635d8aa3a93e7b3ebbd55769886bc651d06b0cc53b0f63bce3c3e27d2604b
  gx := 0x6b17d1f2e12c4247f8bce6e563a440f277037d812deb33a0f4a13945d898c296
  gy := 0x4fe342e2fe1a7f9b8ee7eb4a7c0f9e162bce33576b315ececbb6406837bf51f5
  n := 0xffffffff00000000ffffffffffffffffbce6faada7179e84f3b9cac2fc632551
  bytes := 32

/-- P-384. -/
def p384 : Curve where
  p := 0xfffffffffffffffffffffffffffffffffffffffffffffffffffffffffffffffeffffffff0000000000000000ffffffff
  b := 0xb3312fa7e23ee7e4988e056be3f82d19181d9c6efe8141120314088f5013875ac656398d8a2ed19d2a85c8edd3ec2aef
  gx := 0xaa87ca22be8b05378eb1c71ef320ad746e1d3b628ba79b9859f741e082542a385502f25dbf55296c3a545e3872760ab7
  gy := 0x3617de4a96262c6f5d9e98bf9292dc29f8f41dbd289a147ce9da3113b5f0b8c00a60b1ce1d7e819d7a431d7c90ea0e5f
  n := 0xffffffffffffffffffffffffffffffffffffffffffffffffc7634d81f4372ddf581a0db248b0a77aecec196accc52973
  bytes := 48

/-- Modular power; `fuel` bounds the bits of the exponent. -/
def powMod (m : Nat) : Nat → Nat → Nat → Nat
  | 0, _, _ => 1
  | f + 1, a, e =>
    if e = 0 then 1 % m
    else
      let h := powMod m f (a * a % m) (e / 2)
      if e % 2 = 1 then a * h % m else h

/-- Inverse modulo a prime. -/
def invMod (m a : Nat) : Nat := powMod m 400 (a % m) (m - 2)

/-- Point addition; none is the point at infinity. -/
def ecAdd (c : Curve) : Option (Nat × Nat) → Option (Nat × Nat) → Option (Nat × Nat)
  | none, q => q
  | q, none => q
  | some (x1, y1), some (x2, y2) =>
    if x1 = x2 ∧ (y1 + y2) % c.p = 0 then none
    else
      let l := if x1 = x2 then (3 * x1 * x1 + (c.p - 3)) * invMod c.p (2 * y1) % c.p
        else (y2 + c.p - y1) * invMod c.p (x2 + c.p - x1) % c.p
      let x3 := (l * l + 2 * c.p - x1 - x2) % c.p
      some (x3, (l * (x1 + c.p - x3) + c.p - y1) % c.p)

/-- Scalar multiplication; `fuel` bounds the bits of the scalar. -/
def ecMul (c : Curve) : Nat → Nat → Option (Nat × Nat) → Option (Nat × Nat)
  | 0, _, _ => none
  | f + 1, k, q =>
    if k = 0 then none
    else
      let h := ecMul c f (k / 2) (ecAdd c q q)
      if k % 2 = 1 then ecAdd c q h else h

/-- The point is on the curve. -/
def onCurve (c : Curve) (q : Nat × Nat) : Bool :=
  q.1 < c.p && q.2 < c.p && (q.2 * q.2 % c.p == (q.1 * q.1 % c.p * q.1 + (c.p - 3) * q.1 + c.b) % c.p)

/-- Uncompressed SEC 1 form of a public key. -/
def encodePoint (c : Curve) : Option (Nat × Nat) → Bytes
  | some (x, y) => [0x04] ++ natBE c.bytes x ++ natBE c.bytes y
  | none => [0x00]

/-- Read an uncompressed SEC 1 point that lies on the curve. -/
def decodePoint (c : Curve) (b : Bytes) : Option (Nat × Nat) :=
  let q := (beNat ((b.drop 1).take c.bytes), beNat (b.drop (1 + c.bytes)))
  if b.length = 1 + 2 * c.bytes ∧ b.headD 0 = 0x04 ∧ onCurve c q then some q else none

/-- Public key of a secret key. -/
def pubKey (c : Curve) (d : Nat) : Bytes := encodePoint c (ecMul c 400 d (some (c.gx, c.gy)))

/-- ECDH: the x coordinate of the shared point. -/
def ecdh (c : Curve) (d : Nat) (pub : Bytes) : Option Bytes :=
  match decodePoint c pub with
  | none => none
  | some q => (ecMul c 400 d (some q)).map fun z => natBE c.bytes z.1

/-- The RFC 6979 nonce search with HMAC-SHA-256. -/
def rfc6979Aux (n : Nat) : Nat → Bytes → Bytes → Nat
  | 0, _, v => beNat v % n
  | f + 1, k, v =>
    let v := hmac k v
    let t := beNat v
    if 1 ≤ t ∧ t < n then t
    else
      let k := hmac k (v ++ [0])
      rfc6979Aux n f k (hmac k v)

/-- The deterministic nonce of RFC 6979 for P-256 and a SHA-256 digest. -/
def rfc6979 (c : Curve) (d : Nat) (h : Bytes) : Nat :=
  let x := natBE 32 d
  let h1 := natBE 32 (beNat h % c.n)
  let v := List.replicate 32 1
  let k := hmac (List.replicate 32 0) (v ++ [0] ++ x ++ h1)
  let v := hmac k v
  let k := hmac k (v ++ [1] ++ x ++ h1)
  rfc6979Aux c.n 8 k (hmac k v)

/-- ECDSA over P-256 with SHA-256 and the nonce of RFC 6979: `r ‖ s`, 64 bytes. -/
def ecdsaSign (d : Nat) (msg : Bytes) : Bytes :=
  let c := p256
  let h := sha256 msg
  let k := rfc6979 c d h
  let r := ((ecMul c 400 k (some (c.gx, c.gy))).map fun q => q.1 % c.n).getD 0
  let s := invMod c.n k * (beNat h + r * d) % c.n
  natBE 32 r ++ natBE 32 s

/-- ECDSA verification of `r ‖ s` over a digest of the curve's length. -/
def ecdsaVerifyDigest (c : Curve) (pub h sig : Bytes) : Bool :=
  let r := beNat (sig.take c.bytes)
  let s := beNat (sig.drop c.bytes)
  match decodePoint c pub with
  | none => false
  | some q =>
    if sig.length = 2 * c.bytes ∧ 1 ≤ r ∧ r < c.n ∧ 1 ≤ s ∧ s < c.n then
      let w := invMod c.n s
      match ecAdd c (ecMul c 400 (beNat h * w % c.n) (some (c.gx, c.gy))) (ecMul c 400 (r * w % c.n) (some q)) with
      | none => false
      | some z => z.1 % c.n == r
    else false

/-- ECDSA over P-256 with SHA-256. -/
def ecdsaVerify (pub msg sig : Bytes) : Bool := ecdsaVerifyDigest p256 pub (sha256 msg) sig

/-- ECDSA over P-384 with SHA-384 (R616). -/
def ecdsaVerify384 (pub msg sig : Bytes) : Bool := ecdsaVerifyDigest p384 pub (sha384 msg) sig

/-- A P-256 secret key from 320 derived bits (R457). -/
def privOf (c : Bytes) : Nat := beNat c % (p256.n - 1) + 1

end Sys2Proof.Machine.Crypto
end

