-- ==== Sys2Proof/Machine/Dict.lean ====
section
/-! DEFINITION. Dict.lean: the object dictionary (R642 to R666). One definition per entry of the manual's tables, at its
T0 or B0 offset, with type, size, access, rights, range, default, reset class and descriptor flags; and the three
lists of R664 to R666. -/

namespace Sys2Proof.Machine

/-- Access codes of R647. -/
inductive Access | ro | rw | rws | wo | rc | ex
  deriving DecidableEq, Repr

/-- Rights of R401, lowest first. -/
inductive Right | view | operate | configure | secure | legal
  deriving DecidableEq, Repr

/-- Entry types of R645; `action` for an EX entry. -/
inductive Ty | bool | u8 | u16 | u32 | u64 | i8 | i16 | i32 | i64 | time80 | octet | string | record | action
  deriving DecidableEq, Repr

/-- Reset classes of R652. -/
inductive Cls | computed | powerOn | both | plain | stored | perSession
  deriving DecidableEq, Repr

/-- The areas of R642. -/
inductive Area | dev | bay | tile
  deriving DecidableEq, Repr

/-- A default value: what the entry reads while nothing is held for it.
`num`: one number for every sub-index; `nums`: one per sub-index; the others give the bytes of an OCTET entry. -/
inductive Dflt
  | num (n : Nat)
  | nums (l : List Nat)
  | zeros
  | fill (b : Nat)
  | stride (n b : Nat)
  | bytes (l : List Nat)
  | sparse (l : List (Nat × Nat))
  | rows (l : List (List Nat))
  deriving DecidableEq, Repr

/-- One entry of the dictionary tables. `off` is the index in the device area and the offset in a bay or tile
area; `sub` the first sub-index and `cnt` how many follow on from it; `size` the bytes of a value (R645), for an
action its largest parameter block; `lo` and `hi` the range a SET accepts (R646); `flags` as FLAGS of R663. -/
structure Entry where
  area : Area
  off : Nat
  sub : Nat
  cnt : Nat
  ty : Ty
  size : Nat
  acc : Access
  read : Option Right
  write : Option Right
  lo : Int
  hi : Int
  dflt : Dflt
  cls : Cls
  flags : Nat
  deriving DecidableEq, Repr

namespace Reg

/-- `device.id.product` (R660) -/
def device_id_product : Entry := ⟨.dev, 0x1000, 0x00, 1, .string, 8, .ro, (some .view), .none, 0, 0, .bytes [68, 75, 50, 49, 54], .plain, 2⟩
/-- `device.id.order_code` (R660) -/
def device_id_order_code : Entry := ⟨.dev, 0x1000, 0x01, 1, .string, 16, .ro, (some .view), .none, 0, 0, .zeros, .computed, 2⟩
/-- `device.id.serial` (R660) -/
def device_id_serial : Entry := ⟨.dev, 0x1000, 0x02, 1, .octet, 8, .ro, (some .view), .none, 0, 0, .zeros, .computed, 2⟩
/-- `device.id.stepping` (R660) -/
def device_id_stepping : Entry := ⟨.dev, 0x1000, 0x03, 1, .u16, 2, .ro, (some .view), .none, 0, 0, .num 0, .computed, 2⟩
/-- `device.id.date_code` (R660) -/
def device_id_date_code : Entry := ⟨.dev, 0x1000, 0x04, 1, .u16, 2, .ro, (some .view), .none, 0, 0, .num 0, .computed, 2⟩
/-- `device.id.dict_version` (R660) -/
def device_id_dict_version : Entry := ⟨.dev, 0x1000, 0x05, 1, .u16, 2, .ro, (some .view), .none, 0, 0, .num 1, .plain, 2⟩
/-- `device.id.label` (R660) -/
def device_id_label : Entry := ⟨.dev, 0x1001, 0x00, 1, .string, 32, .rws, (some .view), (some .configure), 0, 0, .zeros, .stored, 3⟩
/-- `device.id.location` (R660) -/
def device_id_location : Entry := ⟨.dev, 0x1001, 0x01, 1, .string, 64, .rws, (some .view), (some .configure), 0, 0, .zeros, .stored, 3⟩
/-- `device.dict.select` (R660) -/
def device_dict_select : Entry := ⟨.dev, 0x1002, 0x00, 1, .u32, 4, .rw, (some .view), (some .configure), 0, 4294967295, .num 0, .perSession, 66⟩
/-- `device.dict.describe` (R660) -/
def device_dict_describe : Entry := ⟨.dev, 0x1002, 0x01, 1, .record, 32, .ro, (some .view), .none, 0, 0, .zeros, .computed, 2⟩
/-- `pier.clock_source` (R43) -/
def pier_clock_source : Entry := ⟨.dev, 0x1100, 0x00, 1, .u8, 1, .ro, (some .view), .none, 0, 0, .num 0, .computed, 2⟩
/-- `pier.clock_switches` (R43) -/
def pier_clock_switches : Entry := ⟨.dev, 0x1100, 0x01, 1, .u32, 4, .rc, (some .view), .none, 0, 0, .num 0, .powerOn, 2⟩
/-- `pier.lockstep_state` (R43) -/
def pier_lockstep_state : Entry := ⟨.dev, 0x1101, 0x00, 1, .u8, 1, .ro, (some .view), .none, 0, 0, .num 0, .powerOn, 2⟩
/-- `pier.lockstep_miscompares` (R43) -/
def pier_lockstep_miscompares : Entry := ⟨.dev, 0x1101, 0x01, 1, .u32, 4, .rc, (some .view), .none, 0, 0, .num 0, .powerOn, 2⟩
/-- `device.service_level` (R43) -/
def device_service_level : Entry := ⟨.dev, 0x1102, 0x00, 1, .u8, 1, .ro, (some .view), .none, 0, 0, .num 0, .computed, 2⟩
/-- `device.supply.vsys_mv` (R550) -/
def device_supply_vsys_mv : Entry := ⟨.dev, 0x1103, 0x00, 1, .u16, 2, .ro, (some .view), .none, 0, 0, .num 0, .computed, 2⟩
/-- `device.supply.pfail` (R550) -/
def device_supply_pfail : Entry := ⟨.dev, 0x1103, 0x01, 1, .bool, 1, .ro, (some .view), .none, 0, 0, .num 0, .powerOn, 2⟩
/-- `device.supply.pfail_source` (R550) -/
def device_supply_pfail_source : Entry := ⟨.dev, 0x1103, 0x02, 1, .u8, 1, .ro, (some .view), .none, 0, 0, .num 0, .powerOn, 2⟩
/-- `device.supply.pfail_events` (R550) -/
def device_supply_pfail_events : Entry := ⟨.dev, 0x1103, 0x03, 1, .u32, 4, .rc, (some .view), .none, 0, 0, .num 0, .powerOn, 2⟩
/-- `device.supply.rail_faults` (R550) -/
def device_supply_rail_faults : Entry := ⟨.dev, 0x1103, 0x04, 1, .u8, 1, .ro, (some .view), .none, 0, 0, .num 0, .powerOn, 2⟩
/-- `device.pmbus.addr` (R550) -/
def device_pmbus_addr : Entry := ⟨.dev, 0x1104, 0x00, 1, .octet, 16, .rws, (some .view), (some .configure), 0, 0, .bytes [64, 65, 66, 67, 68, 69, 70, 71, 72, 73, 74, 75, 76, 77, 78, 79], .stored, 35⟩
/-- `device.pmbus.present` (R550) -/
def device_pmbus_present : Entry := ⟨.dev, 0x1104, 0x01, 1, .u16, 2, .ro, (some .view), .none, 0, 0, .num 0, .computed, 2⟩
/-- `device.pmbus.transactions` (R550) -/
def device_pmbus_transactions : Entry := ⟨.dev, 0x1104, 0x02, 1, .u64, 8, .ro, (some .view), .none, 0, 0, .num 0, .powerOn, 2⟩
/-- `device.pmbus.naks` (R550) -/
def device_pmbus_naks : Entry := ⟨.dev, 0x1104, 0x03, 1, .u32, 4, .rc, (some .view), .none, 0, 0, .num 0, .powerOn, 2⟩
/-- `device.pmbus.pec_errors` (R550) -/
def device_pmbus_pec_errors : Entry := ⟨.dev, 0x1104, 0x04, 1, .u32, 4, .rc, (some .view), .none, 0, 0, .num 0, .powerOn, 2⟩
/-- `device.pmbus.alerts` (R550) -/
def device_pmbus_alerts : Entry := ⟨.dev, 0x1104, 0x05, 1, .u32, 4, .rc, (some .view), .none, 0, 0, .num 0, .powerOn, 2⟩
/-- `device.pmbus.status` (R550) -/
def device_pmbus_status : Entry := ⟨.dev, 0x1105, 0x00, 16, .u16, 2, .ro, (some .view), .none, 0, 0, .num 0, .powerOn, 2⟩
/-- `device.events.read_from` (R601) -/
def device_events_read_from : Entry := ⟨.dev, 0x1110, 0x00, 1, .u64, 8, .rw, (some .view), (some .configure), 0, 18446744073709551615, .num 0, .perSession, 66⟩
/-- `device.events.read_block` (R601) -/
def device_events_read_block : Entry := ⟨.dev, 0x1110, 0x01, 1, .octet, 1024, .ro, (some .view), .none, 0, 0, .zeros, .computed, 2⟩
/-- `device.events.next_eseq` (R601) -/
def device_events_next_eseq : Entry := ⟨.dev, 0x1110, 0x02, 1, .u64, 8, .ro, (some .view), .none, 0, 0, .num 1, .powerOn, 2⟩
/-- `device.events.overwritten` (R601) -/
def device_events_overwritten : Entry := ⟨.dev, 0x1110, 0x03, 1, .u32, 4, .rc, (some .view), .none, 0, 0, .num 0, .powerOn, 2⟩
/-- `device.events.suppressed` (R601) -/
def device_events_suppressed : Entry := ⟨.dev, 0x1110, 0x04, 1, .u32, 4, .rc, (some .view), .none, 0, 0, .num 0, .powerOn, 2⟩
/-- `device.events.queue_lost` (R601) -/
def device_events_queue_lost : Entry := ⟨.dev, 0x1110, 0x05, 1, .u32, 4, .rc, (some .view), .none, 0, 0, .num 0, .powerOn, 2⟩
/-- `device.diag.unlock` (R641) -/
def device_diag_unlock : Entry := ⟨.dev, 0x1120, 0x00, 1, .action, 8, .ex, .none, (some .secure), 0, 0, .zeros, .computed, 2⟩
/-- `device.diag.lock` (R641) -/
def device_diag_lock : Entry := ⟨.dev, 0x1120, 0x01, 1, .action, 1, .ex, .none, (some .configure), 0, 0, .zeros, .computed, 2⟩
/-- `device.diag.unlocked` (R641) -/
def device_diag_unlocked : Entry := ⟨.dev, 0x1120, 0x02, 1, .u8, 1, .ro, (some .view), .none, 0, 0, .num 0, .powerOn, 2⟩
/-- `device.diag.armed` (R641) -/
def device_diag_armed : Entry := ⟨.dev, 0x1120, 0x03, 1, .u8, 1, .ro, (some .view), .none, 0, 0, .num 0, .powerOn, 2⟩
/-- `device.diag.arms` (R641) -/
def device_diag_arms : Entry := ⟨.dev, 0x1120, 0x04, 1, .u32, 4, .rc, (some .view), .none, 0, 0, .num 0, .powerOn, 2⟩
/-- `device.diag.unlock_remaining_s` (R641) -/
def device_diag_unlock_remaining_s : Entry := ⟨.dev, 0x1121, 0x00, 8, .u32, 4, .ro, (some .view), .none, 0, 0, .num 0, .powerOn, 2⟩
/-- `device.config.restore_defaults` (R660) -/
def device_config_restore_defaults : Entry := ⟨.dev, 0x1130, 0x00, 1, .action, 2, .ex, .none, (some .secure), 0, 0, .zeros, .computed, 2⟩
/-- `device.config.writes` (R660) -/
def device_config_writes : Entry := ⟨.dev, 0x1130, 0x01, 1, .u64, 8, .ro, (some .view), .none, 0, 0, .num 0, .stored, 3⟩
/-- `device.config.store_defaulted` (R660) -/
def device_config_store_defaulted : Entry := ⟨.dev, 0x1130, 0x02, 1, .u32, 4, .rc, (some .view), .none, 0, 0, .num 0, .powerOn, 2⟩
/-- `device.host.udp_port` (R417) -/
def device_host_udp_port : Entry := ⟨.dev, 0x1200, 0x00, 1, .u16, 2, .rws, (some .view), (some .configure), 1024, 65535, .num 48207, .stored, 35⟩
/-- `device.host.ipv6_addr` (R417) -/
def device_host_ipv6_addr : Entry := ⟨.dev, 0x1200, 0x01, 1, .octet, 16, .rws, (some .view), (some .configure), 0, 0, .zeros, .stored, 35⟩
/-- `device.host.prefix_len` (R417) -/
def device_host_prefix_len : Entry := ⟨.dev, 0x1200, 0x02, 1, .u8, 1, .rws, (some .view), (some .configure), 1, 128, .num 64, .stored, 35⟩
/-- `device.host.gateway` (R417) -/
def device_host_gateway : Entry := ⟨.dev, 0x1200, 0x03, 1, .octet, 16, .rws, (some .view), (some .configure), 0, 0, .zeros, .stored, 35⟩
/-- `device.host.ipv6_addr_b` (R417) -/
def device_host_ipv6_addr_b : Entry := ⟨.dev, 0x1200, 0x04, 1, .octet, 16, .rws, (some .view), (some .configure), 0, 0, .zeros, .stored, 35⟩
/-- `device.host.vlan` (R417) -/
def device_host_vlan : Entry := ⟨.dev, 0x1200, 0x05, 1, .u16, 2, .rws, (some .view), (some .configure), 0, 4094, .num 0, .stored, 35⟩
/-- `device.host.lane_mode` (R417) -/
def device_host_lane_mode : Entry := ⟨.dev, 0x1201, 0x00, 1, .u8, 1, .rws, (some .view), (some .configure), 0, 1, .num 0, .stored, 35⟩
/-- `device.host.lane_primary` (R417) -/
def device_host_lane_primary : Entry := ⟨.dev, 0x1201, 0x01, 1, .u8, 1, .rws, (some .view), (some .configure), 0, 1, .num 0, .stored, 35⟩
/-- `device.host.lane_hold_ms` (R417) -/
def device_host_lane_hold_ms : Entry := ⟨.dev, 0x1201, 0x02, 1, .u16, 2, .rws, (some .view), (some .configure), 1, 1000, .num 10, .stored, 35⟩
/-- `device.host.lane_revert_s` (R417) -/
def device_host_lane_revert_s : Entry := ⟨.dev, 0x1201, 0x03, 1, .u16, 2, .rws, (some .view), (some .configure), 0, 3600, .num 10, .stored, 35⟩
/-- `device.host.lane_state` (R417) -/
def device_host_lane_state : Entry := ⟨.dev, 0x1201, 0x04, 1, .u8, 1, .ro, (some .view), .none, 0, 0, .num 0, .powerOn, 2⟩
/-- `device.host.lane_switches` (R417) -/
def device_host_lane_switches : Entry := ⟨.dev, 0x1201, 0x05, 1, .u32, 4, .rc, (some .view), .none, 0, 0, .num 0, .powerOn, 2⟩
/-- `device.host.session_idle_s` (R417) -/
def device_host_session_idle_s : Entry := ⟨.dev, 0x1202, 0x00, 1, .u32, 4, .rws, (some .view), (some .configure), 10, 86400, .num 600, .stored, 3⟩
/-- `device.host.sessions` (R417) -/
def device_host_sessions : Entry := ⟨.dev, 0x1202, 0x01, 1, .u8, 1, .ro, (some .view), .none, 0, 0, .num 0, .powerOn, 2⟩
/-- `device.host.session_select` (R417) -/
def device_host_session_select : Entry := ⟨.dev, 0x1202, 0x02, 1, .u8, 1, .rw, (some .view), (some .configure), 0, 8, .num 0, .perSession, 66⟩
/-- `device.host.session_status` (R417) -/
def device_host_session_status : Entry := ⟨.dev, 0x1202, 0x03, 1, .octet, 96, .ro, (some .view), .none, 0, 0, .zeros, .computed, 2⟩
/-- `device.host.session_end` (R417) -/
def device_host_session_end : Entry := ⟨.dev, 0x1202, 0x04, 1, .action, 0, .ex, .none, (some .secure), 0, 0, .zeros, .computed, 2⟩
/-- `device.host.boot_count` (R417) -/
def device_host_boot_count : Entry := ⟨.dev, 0x1202, 0x05, 1, .u32, 4, .ro, (some .view), .none, 0, 0, .num 0, .stored, 3⟩
/-- `device.host.handshakes` (R417) -/
def device_host_handshakes : Entry := ⟨.dev, 0x1203, 0x00, 1, .u32, 4, .rc, (some .view), .none, 0, 0, .num 0, .powerOn, 2⟩
/-- `device.host.handshake_fail` (R417) -/
def device_host_handshake_fail : Entry := ⟨.dev, 0x1203, 0x01, 1, .u32, 4, .rc, (some .view), .none, 0, 0, .num 0, .powerOn, 2⟩
/-- `device.host.auth_fail` (R417) -/
def device_host_auth_fail : Entry := ⟨.dev, 0x1203, 0x02, 1, .u32, 4, .rc, (some .view), .none, 0, 0, .num 0, .powerOn, 2⟩
/-- `device.host.replay_discard` (R417) -/
def device_host_replay_discard : Entry := ⟨.dev, 0x1203, 0x03, 1, .u32, 4, .rc, (some .view), .none, 0, 0, .num 0, .powerOn, 2⟩
/-- `device.host.retransmits_answered` (R417) -/
def device_host_retransmits_answered : Entry := ⟨.dev, 0x1203, 0x04, 1, .u32, 4, .rc, (some .view), .none, 0, 0, .num 0, .powerOn, 2⟩
/-- `device.host.no_session_sent` (R417) -/
def device_host_no_session_sent : Entry := ⟨.dev, 0x1203, 0x05, 1, .u32, 4, .rc, (some .view), .none, 0, 0, .num 0, .powerOn, 2⟩
/-- `device.host.rx_discard` (R417) -/
def device_host_rx_discard : Entry := ⟨.dev, 0x1203, 0x06, 1, .u32, 4, .rc, (some .view), .none, 0, 0, .num 0, .powerOn, 2⟩
/-- `device.host.hub_drop_in` (R417) -/
def device_host_hub_drop_in : Entry := ⟨.dev, 0x1204, 0x00, 16, .u32, 4, .rc, (some .view), .none, 0, 0, .num 0, .powerOn, 2⟩
/-- `device.host.hub_drop_out` (R417) -/
def device_host_hub_drop_out : Entry := ⟨.dev, 0x1204, 0x10, 16, .u32, 4, .rc, (some .view), .none, 0, 0, .num 0, .powerOn, 2⟩
/-- `device.host.frames_in` (R417) -/
def device_host_frames_in : Entry := ⟨.dev, 0x1205, 0x00, 2, .u64, 8, .ro, (some .view), .none, 0, 0, .num 0, .powerOn, 2⟩
/-- `device.host.frames_out` (R417) -/
def device_host_frames_out : Entry := ⟨.dev, 0x1205, 0x02, 2, .u64, 8, .ro, (some .view), .none, 0, 0, .num 0, .powerOn, 2⟩
/-- `device.time.source` (R444) -/
def device_time_source : Entry := ⟨.dev, 0x1300, 0x00, 1, .u8, 1, .rws, (some .view), (some .configure), 0, 2, .num 0, .stored, 35⟩
/-- `device.time.jump_threshold_ns` (R444) -/
def device_time_jump_threshold_ns : Entry := ⟨.dev, 0x1300, 0x01, 1, .u32, 4, .rws, (some .view), (some .configure), 1000, 1000000000, .num 1000000, .stored, 3⟩
/-- `device.time.qualify_count` (R444) -/
def device_time_qualify_count : Entry := ⟨.dev, 0x1300, 0x02, 1, .u8, 1, .rws, (some .view), (some .configure), 2, 64, .num 8, .stored, 3⟩
/-- `device.time.qualify_spread_ns` (R444) -/
def device_time_qualify_spread_ns : Entry := ⟨.dev, 0x1300, 0x03, 1, .u32, 4, .rws, (some .view), (some .configure), 10, 1000000, .num 1000, .stored, 3⟩
/-- `device.time.refuse_count` (R444) -/
def device_time_refuse_count : Entry := ⟨.dev, 0x1300, 0x04, 1, .u8, 1, .rws, (some .view), (some .configure), 1, 64, .num 4, .stored, 3⟩
/-- `device.time.loss_ms` (R444) -/
def device_time_loss_ms : Entry := ⟨.dev, 0x1300, 0x05, 1, .u32, 4, .rws, (some .view), (some .configure), 500, 60000, .num 3000, .stored, 3⟩
/-- `device.time.holdover_spec_s` (R444) -/
def device_time_holdover_spec_s : Entry := ⟨.dev, 0x1300, 0x06, 1, .u32, 4, .rws, (some .view), (some .configure), 0, 604800, .num 3600, .stored, 3⟩
/-- `device.time.restep` (R444) -/
def device_time_restep : Entry := ⟨.dev, 0x1300, 0x07, 1, .action, 16, .ex, .none, (some .secure), 0, 0, .zeros, .computed, 2⟩
/-- `device.time.restep_result` (R444) -/
def device_time_restep_result : Entry := ⟨.dev, 0x1300, 0x08, 1, .u8, 1, .ro, (some .view), .none, 0, 0, .num 0, .powerOn, 2⟩
/-- `device.time.restep_failed` (R444) -/
def device_time_restep_failed : Entry := ⟨.dev, 0x1300, 0x09, 1, .u16, 2, .ro, (some .view), .none, 0, 0, .num 0, .powerOn, 2⟩
/-- `device.time.utc_offset` (R444) -/
def device_time_utc_offset : Entry := ⟨.dev, 0x1301, 0x00, 1, .i16, 2, .ro, (some .view), .none, 0, 0, .num 0, .computed, 2⟩
/-- `device.time.utc_offset_cfg` (R444) -/
def device_time_utc_offset_cfg : Entry := ⟨.dev, 0x1301, 0x01, 1, .i16, 2, .rws, (some .view), (some .configure), 0, 255, .num 37, .stored, 3⟩
/-- `device.time.utc_offset_source` (R444) -/
def device_time_utc_offset_source : Entry := ⟨.dev, 0x1301, 0x02, 1, .u8, 1, .ro, (some .view), .none, 0, 0, .num 0, .computed, 2⟩
/-- `device.time.leap_pending` (R444) -/
def device_time_leap_pending : Entry := ⟨.dev, 0x1301, 0x03, 1, .i8, 1, .ro, (some .view), .none, 0, 0, .num 0, .powerOn, 2⟩
/-- `device.time.utc_history` (R444) -/
def device_time_utc_history : Entry := ⟨.dev, 0x1301, 0x04, 1, .octet, 32, .ro, (some .view), .none, 0, 0, .zeros, .stored, 3⟩
/-- `device.time.ptp_domain` (R444) -/
def device_time_ptp_domain : Entry := ⟨.dev, 0x1302, 0x00, 1, .u8, 1, .rws, (some .view), (some .configure), 0, 127, .num 0, .stored, 3⟩
/-- `device.time.gm_identity` (R444) -/
def device_time_gm_identity : Entry := ⟨.dev, 0x1302, 0x01, 1, .octet, 8, .ro, (some .view), .none, 0, 0, .zeros, .powerOn, 2⟩
/-- `device.time.master_port` (R444) -/
def device_time_master_port : Entry := ⟨.dev, 0x1302, 0x02, 1, .octet, 10, .ro, (some .view), .none, 0, 0, .zeros, .powerOn, 2⟩
/-- `device.time.link_delay_ns` (R444) -/
def device_time_link_delay_ns : Entry := ⟨.dev, 0x1302, 0x03, 2, .u32, 4, .ro, (some .view), .none, 0, 0, .num 0, .powerOn, 2⟩
/-- `device.time.lane_corr_ns` (R444) -/
def device_time_lane_corr_ns : Entry := ⟨.dev, 0x1302, 0x05, 2, .i16, 2, .rws, (some .view), (some .configure), (-1000), 1000, .num 0, .stored, 3⟩
/-- `device.time.master_changes` (R444) -/
def device_time_master_changes : Entry := ⟨.dev, 0x1302, 0x07, 1, .u32, 4, .rc, (some .view), .none, 0, 0, .num 0, .powerOn, 2⟩
/-- `device.time.ptp_rx` (R444) -/
def device_time_ptp_rx : Entry := ⟨.dev, 0x1302, 0x08, 1, .u64, 8, .ro, (some .view), .none, 0, 0, .num 0, .powerOn, 2⟩
/-- `device.time.pps_polarity` (R444) -/
def device_time_pps_polarity : Entry := ⟨.dev, 0x1303, 0x00, 1, .u8, 1, .rws, (some .view), (some .configure), 0, 1, .num 0, .stored, 3⟩
/-- `device.time.tod_baud` (R444) -/
def device_time_tod_baud : Entry := ⟨.dev, 0x1303, 0x01, 1, .u32, 4, .rws, (some .view), (some .configure), 9600, 115200, .num 115200, .stored, 3⟩
/-- `device.time.tod_errors` (R444) -/
def device_time_tod_errors : Entry := ⟨.dev, 0x1303, 0x02, 1, .u32, 4, .rc, (some .view), .none, 0, 0, .num 0, .powerOn, 2⟩
/-- `device.boot.plan` (R626) -/
def device_boot_plan : Entry := ⟨.dev, 0x1400, 0x00, 1, .u16, 2, .rws, (some .view), (some .configure), 0, 65535, .num 65535, .stored, 35⟩
/-- `device.boot.stagger_us` (R626) -/
def device_boot_stagger_us : Entry := ⟨.dev, 0x1400, 0x01, 1, .u16, 2, .rws, (some .view), (some .configure), 0, 10000, .num 500, .stored, 3⟩
/-- `device.reset` (R626) -/
def device_reset : Entry := ⟨.dev, 0x1400, 0x02, 1, .action, 0, .ex, .none, (some .secure), 0, 0, .zeros, .computed, 2⟩
/-- `device.reset_cause` (R626) -/
def device_reset_cause : Entry := ⟨.dev, 0x1400, 0x03, 1, .u8, 1, .ro, (some .view), .none, 0, 0, .num 0, .computed, 2⟩
/-- `device.fw.tile_phase` (R626) -/
def device_fw_tile_phase : Entry := ⟨.dev, 0x1401, 0x00, 16, .u8, 1, .ro, (some .view), .none, 0, 0, .num 0, .powerOn, 2⟩
/-- `device.fw.tile_version` (R626) -/
def device_fw_tile_version : Entry := ⟨.dev, 0x1402, 0x00, 16, .u32, 4, .ro, (some .view), .none, 0, 0, .num 0, .powerOn, 2⟩
/-- `device.fw.require_countersign` (R626) -/
def device_fw_require_countersign : Entry := ⟨.dev, 0x1403, 0x00, 1, .bool, 1, .rws, (some .secure), (some .secure), 0, 1, .num 0, .stored, 3⟩
/-- `device.fw.rom_version` (R626) -/
def device_fw_rom_version : Entry := ⟨.dev, 0x1403, 0x01, 1, .u32, 4, .ro, (some .view), .none, 0, 0, .num 0, .computed, 2⟩
/-- `device.sec.anchor` (R483) -/
def device_sec_anchor : Entry := ⟨.dev, 0x1500, 0x00, 8, .octet, 1024, .rws, (some .secure), (some .secure), 0, 0, .zeros, .stored, 3⟩
/-- `device.sec.anchors` (R483) -/
def device_sec_anchors : Entry := ⟨.dev, 0x1500, 0x08, 1, .u8, 1, .ro, (some .view), .none, 0, 0, .num 0, .computed, 2⟩
/-- `device.sec.host_pub` (R483) -/
def device_sec_host_pub : Entry := ⟨.dev, 0x1501, 0x00, 1, .octet, 65, .ro, (some .view), .none, 0, 0, .zeros, .computed, 2⟩
/-- `device.sec.host_cert` (R483) -/
def device_sec_host_cert : Entry := ⟨.dev, 0x1501, 0x01, 1, .octet, 1024, .rws, (some .secure), (some .secure), 0, 0, .zeros, .stored, 3⟩
/-- `device.sec.host_next_pub` (R483) -/
def device_sec_host_next_pub : Entry := ⟨.dev, 0x1501, 0x02, 1, .octet, 65, .ro, (some .view), .none, 0, 0, .zeros, .computed, 2⟩
/-- `device.sec.host_next_cert` (R483) -/
def device_sec_host_next_cert : Entry := ⟨.dev, 0x1501, 0x03, 1, .octet, 1024, .rws, (some .secure), (some .secure), 0, 0, .zeros, .stored, 3⟩
/-- `device.sec.host_key_gen` (R483) -/
def device_sec_host_key_gen : Entry := ⟨.dev, 0x1501, 0x04, 1, .u8, 1, .ro, (some .view), .none, 0, 0, .num 0, .stored, 3⟩
/-- `device.sec.host_rekey` (R483) -/
def device_sec_host_rekey : Entry := ⟨.dev, 0x1501, 0x05, 1, .action, 0, .ex, .none, (some .secure), 0, 0, .zeros, .computed, 2⟩
/-- `device.sec.test_root` (R483) -/
def device_sec_test_root : Entry := ⟨.dev, 0x1502, 0x00, 1, .bool, 1, .ro, (some .view), .none, 0, 0, .num 0, .computed, 2⟩
/-- `device.sec.root_state` (R483) -/
def device_sec_root_state : Entry := ⟨.dev, 0x1502, 0x01, 1, .u8, 1, .ro, (some .view), .none, 0, 0, .num 0, .computed, 2⟩
/-- `device.sec.lifecycles` (R483) -/
def device_sec_lifecycles : Entry := ⟨.dev, 0x1502, 0x02, 1, .u64, 8, .ro, (some .view), .none, 0, 0, .num 0, .computed, 2⟩
/-- `device.svc.address` (R417) -/
def device_svc_address : Entry := ⟨.dev, 0x1600, 0x00, 1, .u8, 1, .rws, (some .view), (some .configure), 1, 247, .num 1, .stored, 3⟩
/-- `device.svc.open_view` (R417) -/
def device_svc_open_view : Entry := ⟨.dev, 0x1600, 0x01, 1, .bool, 1, .rws, (some .secure), (some .secure), 0, 1, .num 0, .stored, 3⟩
/-- `device.svc.frames_in` (R417) -/
def device_svc_frames_in : Entry := ⟨.dev, 0x1600, 0x02, 1, .u64, 8, .ro, (some .view), .none, 0, 0, .num 0, .powerOn, 2⟩
/-- `device.svc.frames_out` (R417) -/
def device_svc_frames_out : Entry := ⟨.dev, 0x1600, 0x03, 1, .u64, 8, .ro, (some .view), .none, 0, 0, .num 0, .powerOn, 2⟩
/-- `device.svc.fcs_errors` (R417) -/
def device_svc_fcs_errors : Entry := ⟨.dev, 0x1600, 0x04, 1, .u32, 4, .rc, (some .view), .none, 0, 0, .num 0, .powerOn, 2⟩
/-- `bay.mode` (R43) -/
def bay_mode : Entry := ⟨.bay, 0x000, 0x00, 1, .u8, 1, .rws, (some .view), (some .configure), 0, 1, .num 0, .stored, 35⟩
/-- `bay.wiring` (R43) -/
def bay_wiring : Entry := ⟨.bay, 0x000, 0x01, 1, .u8, 1, .rws, (some .view), (some .configure), 0, 1, .num 0, .stored, 3⟩
/-- `bay.preferred_active` (R43) -/
def bay_preferred_active : Entry := ⟨.bay, 0x000, 0x02, 1, .u8, 1, .rws, (some .view), (some .configure), 0, 1, .num 0, .stored, 3⟩
/-- `bay.role_even` (R43) -/
def bay_role_even : Entry := ⟨.bay, 0x001, 0x00, 1, .u8, 1, .ro, (some .view), .none, 0, 0, .num 0, .computed, 2⟩
/-- `bay.role_odd` (R43) -/
def bay_role_odd : Entry := ⟨.bay, 0x001, 0x01, 1, .u8, 1, .ro, (some .view), .none, 0, 0, .num 0, .computed, 2⟩
/-- `bay.own_pins` (R43) -/
def bay_own_pins : Entry := ⟨.bay, 0x001, 0x02, 1, .u8, 1, .ro, (some .view), .none, 0, 0, .num 0, .powerOn, 2⟩
/-- `bay.promote` (R516) -/
def bay_promote : Entry := ⟨.bay, 0x002, 0x00, 1, .action, 1, .ex, .none, (some .configure), 0, 0, .zeros, .computed, 2⟩
/-- `bay.clear_fault` (R516) -/
def bay_clear_fault : Entry := ⟨.bay, 0x002, 0x01, 1, .action, 1, .ex, .none, (some .configure), 0, 0, .zeros, .computed, 2⟩
/-- `bay.mode_change` (R516) -/
def bay_mode_change : Entry := ⟨.bay, 0x002, 0x02, 1, .action, 1, .ex, .none, (some .configure), 0, 0, .zeros, .computed, 2⟩
/-- `bay.last_result` (R516) -/
def bay_last_result : Entry := ⟨.bay, 0x002, 0x03, 1, .u8, 1, .ro, (some .view), .none, 0, 0, .num 0, .plain, 2⟩
/-- `bay.alarm` (R516) -/
def bay_alarm : Entry := ⟨.bay, 0x002, 0x04, 1, .u16, 2, .ro, (some .view), .none, 0, 0, .num 0, .powerOn, 2⟩
/-- `bay.promotions` (R516) -/
def bay_promotions : Entry := ⟨.bay, 0x003, 0x00, 1, .u32, 4, .rc, (some .view), .none, 0, 0, .num 0, .powerOn, 2⟩
/-- `bay.promotion_failed` (R516) -/
def bay_promotion_failed : Entry := ⟨.bay, 0x003, 0x01, 1, .u32, 4, .rc, (some .view), .none, 0, 0, .num 0, .powerOn, 2⟩
/-- `bay.heartbeat_losses` (R516) -/
def bay_heartbeat_losses : Entry := ⟨.bay, 0x003, 0x02, 1, .u32, 4, .rc, (some .view), .none, 0, 0, .num 0, .powerOn, 2⟩
/-- `bay.last_promotion` (R516) -/
def bay_last_promotion : Entry := ⟨.bay, 0x003, 0x03, 1, .octet, 32, .ro, (some .view), .none, 0, 0, .zeros, .stored, 3⟩
/-- `bay.mirror.sync` (R516) -/
def bay_mirror_sync : Entry := ⟨.bay, 0x004, 0x00, 1, .u8, 1, .ro, (some .view), .none, 0, 0, .num 1, .powerOn, 2⟩
/-- `bay.mirror.fill` (R516) -/
def bay_mirror_fill : Entry := ⟨.bay, 0x004, 0x01, 1, .u16, 2, .ro, (some .view), .none, 0, 0, .num 0, .powerOn, 2⟩
/-- `bay.mirror.lost` (R516) -/
def bay_mirror_lost : Entry := ⟨.bay, 0x004, 0x02, 1, .u32, 4, .rc, (some .view), .none, 0, 0, .num 0, .powerOn, 2⟩
/-- `bay.mirror.items` (R516) -/
def bay_mirror_items : Entry := ⟨.bay, 0x004, 0x03, 1, .u64, 8, .ro, (some .view), .none, 0, 0, .num 0, .powerOn, 2⟩
/-- `bay.mirror.retransmits` (R516) -/
def bay_mirror_retransmits : Entry := ⟨.bay, 0x004, 0x04, 1, .u32, 4, .rc, (some .view), .none, 0, 0, .num 0, .powerOn, 2⟩
/-- `bay.mirror.wake_level` (R516) -/
def bay_mirror_wake_level : Entry := ⟨.bay, 0x004, 0x05, 1, .u16, 2, .rws, (some .view), (some .configure), 64, 1792, .num 512, .stored, 3⟩
/-- `bay.mirror.stay_run_rate` (R516) -/
def bay_mirror_stay_run_rate : Entry := ⟨.bay, 0x004, 0x06, 1, .u32, 4, .rws, (some .view), (some .configure), 1000, 100000, .num 20000, .stored, 3⟩
/-- `bay.mirror.resyncs` (R516) -/
def bay_mirror_resyncs : Entry := ⟨.bay, 0x004, 0x07, 1, .u32, 4, .rc, (some .view), .none, 0, 0, .num 0, .powerOn, 2⟩
/-- `bay.mirror.resync_progress` (R516) -/
def bay_mirror_resync_progress : Entry := ⟨.bay, 0x004, 0x08, 1, .u8, 1, .ro, (some .view), .none, 0, 0, .num 0, .powerOn, 2⟩
/-- `bay.mirror.lag_max_us` (R516) -/
def bay_mirror_lag_max_us : Entry := ⟨.bay, 0x004, 0x09, 1, .u32, 4, .rc, (some .view), .none, 0, 0, .num 0, .powerOn, 2⟩
/-- `bay.mirror.wakes` (R516) -/
def bay_mirror_wakes : Entry := ⟨.bay, 0x004, 0x0A, 1, .u64, 8, .ro, (some .view), .none, 0, 0, .num 0, .powerOn, 2⟩
/-- `bay.mirror.wm_status` (R516) -/
def bay_mirror_wm_status : Entry := ⟨.bay, 0x004, 0x0B, 1, .u64, 8, .rc, (some .view), .none, 0, 0, .num 0, .powerOn, 2⟩
/-- `bay.mirror.schema_discards` (R516) -/
def bay_mirror_schema_discards : Entry := ⟨.bay, 0x004, 0x0C, 1, .u32, 4, .rc, (some .view), .none, 0, 0, .num 0, .powerOn, 2⟩
/-- `bay.audit.n` (R516) -/
def bay_audit_n : Entry := ⟨.bay, 0x005, 0x00, 1, .u16, 2, .rws, (some .view), (some .configure), 0, 65535, .num 64, .stored, 3⟩
/-- `bay.audit.timer_ms` (R516) -/
def bay_audit_timer_ms : Entry := ⟨.bay, 0x005, 0x01, 1, .u32, 4, .rws, (some .view), (some .configure), 10, 60000, .num 1000, .stored, 3⟩
/-- `bay.audit.checked` (R516) -/
def bay_audit_checked : Entry := ⟨.bay, 0x005, 0x02, 1, .u64, 8, .ro, (some .view), .none, 0, 0, .num 0, .powerOn, 2⟩
/-- `bay.audit.mismatches` (R516) -/
def bay_audit_mismatches : Entry := ⟨.bay, 0x005, 0x03, 1, .u32, 4, .rc, (some .view), .none, 0, 0, .num 0, .powerOn, 2⟩
/-- `bay.audit.inconclusive` (R516) -/
def bay_audit_inconclusive : Entry := ⟨.bay, 0x005, 0x04, 1, .u32, 4, .rc, (some .view), .none, 0, 0, .num 0, .powerOn, 2⟩
/-- `bay.audit.verdicts` (R516) -/
def bay_audit_verdicts : Entry := ⟨.bay, 0x005, 0x05, 3, .u32, 4, .rc, (some .view), .none, 0, 0, .num 0, .powerOn, 2⟩
/-- `bay.audit.last_match_seq` (R516) -/
def bay_audit_last_match_seq : Entry := ⟨.bay, 0x005, 0x08, 1, .u64, 8, .ro, (some .view), .none, 0, 0, .num 0, .stored, 3⟩
/-- `bay.audit.suspect_first` (R516) -/
def bay_audit_suspect_first : Entry := ⟨.bay, 0x005, 0x09, 1, .u64, 8, .ro, (some .view), .none, 0, 0, .num 0, .stored, 3⟩
/-- `bay.audit.suspect_last` (R516) -/
def bay_audit_suspect_last : Entry := ⟨.bay, 0x005, 0x0A, 1, .u64, 8, .ro, (some .view), .none, 0, 0, .num 0, .stored, 3⟩
/-- `bay.disp.dwell` (R256) -/
def bay_disp_dwell : Entry := ⟨.bay, 0x020, 0x00, 1, .u8, 1, .rws, (some .view), (some .configure), 2, 60, .num 8, .stored, 3⟩
/-- `bay.disp.items` (R256) -/
def bay_disp_items : Entry := ⟨.bay, 0x020, 0x01, 1, .octet, 28, .rws, (some .view), (some .configure), 0, 0, .fill 255, .stored, 3⟩
/-- `bay.disp.lines_sent` (R256) -/
def bay_disp_lines_sent : Entry := ⟨.bay, 0x020, 0x02, 1, .u64, 8, .ro, (some .view), .none, 0, 0, .num 0, .powerOn, 2⟩
/-- `bay.disp.errors` (R256) -/
def bay_disp_errors : Entry := ⟨.bay, 0x020, 0x03, 1, .u8, 1, .ro, (some .view), .none, 0, 0, .num 0, .powerOn, 2⟩
/-- `bay.legal_en` (R256) -/
def bay_legal_en : Entry := ⟨.bay, 0x020, 0x04, 1, .u8, 1, .ro, (some .view), .none, 0, 0, .num 0, .powerOn, 2⟩
/-- `bay.time.tout_mode` (R445) -/
def bay_time_tout_mode : Entry := ⟨.bay, 0x030, 0x00, 1, .u8, 1, .rws, (some .view), (some .configure), 0, 2, .num 0, .stored, 3⟩
/-- `bay.time.tout_width_us` (R445) -/
def bay_time_tout_width_us : Entry := ⟨.bay, 0x030, 0x01, 1, .u32, 4, .rws, (some .view), (some .configure), 1, 500000, .num 100000, .stored, 3⟩
/-- `bay.time.tout_source` (R445) -/
def bay_time_tout_source : Entry := ⟨.bay, 0x030, 0x02, 1, .u8, 1, .ro, (some .view), .none, 0, 0, .num 0, .powerOn, 2⟩
/-- `bay.time.tout_pulses` (R445) -/
def bay_time_tout_pulses : Entry := ⟨.bay, 0x030, 0x03, 1, .u64, 8, .ro, (some .view), .none, 0, 0, .num 0, .powerOn, 2⟩
/-- `bay.energy.pulse_mj` (R551) -/
def bay_energy_pulse_mj : Entry := ⟨.bay, 0x040, 0x00, 1, .u16, 2, .rws, (some .view), (some .secure), 10, 250, .num 150, .stored, 3⟩
/-- `bay.energy.bank_budget_mj` (R551) -/
def bay_energy_bank_budget_mj : Entry := ⟨.bay, 0x040, 0x01, 1, .u16, 2, .rws, (some .view), (some .secure), 150, 5000, .num 1000, .stored, 3⟩
/-- `bay.energy.bank_used_mj` (R551) -/
def bay_energy_bank_used_mj : Entry := ⟨.bay, 0x040, 0x02, 1, .u16, 2, .ro, (some .view), .none, 0, 0, .num 0, .powerOn, 2⟩
/-- `bay.energy.plc_atten_min_db` (R551) -/
def bay_energy_plc_atten_min_db : Entry := ⟨.bay, 0x040, 0x03, 1, .u8, 1, .rws, (some .view), (some .secure), 0, 30, .num 0, .stored, 3⟩
/-- `bay.energy.plc_duty_pm` (R551) -/
def bay_energy_plc_duty_pm : Entry := ⟨.bay, 0x040, 0x04, 1, .u16, 2, .rws, (some .view), (some .secure), 10, 1000, .num 500, .stored, 3⟩
/-- `bay.energy.budget_holds` (R551) -/
def bay_energy_budget_holds : Entry := ⟨.bay, 0x040, 0x05, 1, .u32, 4, .rc, (some .view), .none, 0, 0, .num 0, .powerOn, 2⟩
/-- `bay.energy.last_pulse_uj` (R551) -/
def bay_energy_last_pulse_uj : Entry := ⟨.bay, 0x040, 0x06, 1, .u32, 4, .ro, (some .view), .none, 0, 0, .num 0, .powerOn, 2⟩
/-- `bay.diag.mirror_delay` (R641) -/
def bay_diag_mirror_delay : Entry := ⟨.bay, 0x050, 0x00, 1, .octet, 16, .rw, (some .view), (some .configure), 0, 0, .zeros, .powerOn, 2⟩
/-- `bay.diag.pmbus_delay` (R641) -/
def bay_diag_pmbus_delay : Entry := ⟨.bay, 0x050, 0x01, 1, .octet, 16, .rw, (some .view), (some .configure), 0, 0, .zeros, .powerOn, 2⟩
/-- `bay.diag.audit_mismatch` (R641) -/
def bay_diag_audit_mismatch : Entry := ⟨.bay, 0x050, 0x02, 1, .octet, 16, .rw, (some .view), (some .configure), 0, 0, .zeros, .powerOn, 2⟩
/-- `bay.diag.mirror_lost` (R641) -/
def bay_diag_mirror_lost : Entry := ⟨.bay, 0x050, 0x03, 1, .octet, 16, .rw, (some .view), (some .configure), 0, 0, .zeros, .powerOn, 2⟩
/-- `bay.diag.audit_injected` (R641) -/
def bay_diag_audit_injected : Entry := ⟨.bay, 0x050, 0x04, 1, .u32, 4, .rc, (some .view), .none, 0, 0, .num 0, .powerOn, 2⟩
/-- `tile.id.number` (R661) -/
def id_number : Entry := ⟨.tile, 0x000, 0x00, 1, .u8, 1, .ro, (some .view), .none, 0, 0, .num 0, .computed, 2⟩
/-- `tile.id.bay` (R661) -/
def id_bay : Entry := ⟨.tile, 0x000, 0x01, 1, .u8, 1, .ro, (some .view), .none, 0, 0, .num 0, .computed, 2⟩
/-- `tile.id.role` (R661) -/
def id_role : Entry := ⟨.tile, 0x000, 0x02, 1, .u8, 1, .ro, (some .view), .none, 0, 0, .num 255, .powerOn, 2⟩
/-- `tile.id.dram` (R661) -/
def id_dram : Entry := ⟨.tile, 0x000, 0x03, 1, .u8, 1, .ro, (some .view), .none, 0, 0, .num 0, .computed, 2⟩
/-- `tile.id.nand` (R661) -/
def id_nand : Entry := ⟨.tile, 0x000, 0x04, 1, .u8, 1, .ro, (some .view), .none, 0, 0, .num 0, .computed, 2⟩
/-- `tile.status.uptime_ms` (R661) -/
def status_uptime_ms : Entry := ⟨.tile, 0x000, 0x05, 1, .u64, 8, .ro, (some .view), .none, 0, 0, .num 0, .both, 2⟩
/-- `tile.status.service` (R43) -/
def status_service : Entry := ⟨.tile, 0x001, 0x00, 1, .u8, 1, .ro, (some .view), .none, 0, 0, .num 0, .both, 2⟩
/-- `tile.status.missing` (R43) -/
def status_missing : Entry := ⟨.tile, 0x001, 0x01, 1, .u8, 1, .ro, (some .view), .none, 0, 0, .num 31, .both, 2⟩
/-- `tile.fw.bank_a` (R627) -/
def fw_bank_a : Entry := ⟨.tile, 0x010, 0x00, 1, .octet, 4194304, .wo, .none, (some .configure), 0, 0, .zeros, .stored, 1⟩
/-- `tile.fw.bank_b` (R627) -/
def fw_bank_b : Entry := ⟨.tile, 0x010, 0x01, 1, .octet, 4194304, .wo, .none, (some .configure), 0, 0, .zeros, .stored, 1⟩
/-- `tile.fw.stage_begin` (R627) -/
def fw_stage_begin : Entry := ⟨.tile, 0x010, 0x02, 1, .action, 8, .ex, .none, (some .configure), 0, 0, .zeros, .computed, 0⟩
/-- `tile.fw.stage_commit` (R627) -/
def fw_stage_commit : Entry := ⟨.tile, 0x010, 0x03, 1, .action, 48, .ex, .none, (some .configure), 0, 0, .zeros, .computed, 0⟩
/-- `tile.fw.last_result` (R627) -/
def fw_last_result : Entry := ⟨.tile, 0x010, 0x04, 1, .u8, 1, .ro, (some .view), .none, 0, 0, .num 0, .plain, 0⟩
/-- `tile.fw.bank_state` (R627) -/
def fw_bank_state : Entry := ⟨.tile, 0x011, 0x00, 2, .u8, 1, .ro, (some .view), .none, 0, 0, .num 0, .computed, 0⟩
/-- `tile.fw.bank_version` (R627) -/
def fw_bank_version : Entry := ⟨.tile, 0x011, 0x02, 2, .u32, 4, .ro, (some .view), .none, 0, 0, .num 0, .computed, 0⟩
/-- `tile.fw.running_bank` (R627) -/
def fw_running_bank : Entry := ⟨.tile, 0x011, 0x04, 1, .u8, 1, .ro, (some .view), .none, 0, 0, .num 0, .computed, 0⟩
/-- `tile.fw.floor` (R627) -/
def fw_floor : Entry := ⟨.tile, 0x011, 0x05, 1, .u32, 4, .ro, (some .view), .none, 0, 0, .num 0, .computed, 0⟩
/-- `tile.fw.boot_report` (R627) -/
def fw_boot_report : Entry := ⟨.tile, 0x011, 0x06, 1, .octet, 16, .ro, (some .view), .none, 0, 0, .zeros, .computed, 0⟩
/-- `tile.fw.confirm` (R627) -/
def fw_confirm : Entry := ⟨.tile, 0x011, 0x07, 1, .action, 0, .ex, .none, (some .configure), 0, 0, .zeros, .computed, 0⟩
/-- `tile.fw.trial_s` (R627) -/
def fw_trial_s : Entry := ⟨.tile, 0x011, 0x08, 1, .u16, 2, .rws, (some .view), (some .configure), 10, 600, .num 60, .stored, 1⟩
/-- `tile.fw.reset` (R627) -/
def fw_reset : Entry := ⟨.tile, 0x012, 0x00, 1, .action, 1, .ex, .none, (some .configure), 0, 0, .zeros, .computed, 0⟩
/-- `tile.fw.last_reset` (R627) -/
def fw_last_reset : Entry := ⟨.tile, 0x012, 0x01, 1, .u8, 1, .ro, (some .view), .none, 0, 0, .num 0, .computed, 0⟩
/-- `tile.fw.watchdog_ms` (R627) -/
def fw_watchdog_ms : Entry := ⟨.tile, 0x012, 0x02, 1, .u16, 2, .rws, (some .view), (some .configure), 100, 10000, .num 1000, .stored, 17⟩
/-- `tile.fw.resets` (R627) -/
def fw_resets : Entry := ⟨.tile, 0x012, 0x03, 1, .u32, 4, .rc, (some .view), .none, 0, 0, .num 0, .powerOn, 0⟩
/-- `tile.fw.schema` (R627) -/
def fw_schema : Entry := ⟨.tile, 0x012, 0x04, 1, .u16, 2, .ro, (some .view), .none, 0, 0, .num 0, .stored, 1⟩
/-- `tile.fw.schema_resets` (R627) -/
def fw_schema_resets : Entry := ⟨.tile, 0x012, 0x05, 1, .u32, 4, .ro, (some .view), .none, 0, 0, .num 0, .stored, 1⟩
/-- `tile.fw.legal_stage` (R627) -/
def fw_legal_stage : Entry := ⟨.tile, 0x013, 0x00, 1, .octet, 262144, .wo, .none, (some .legal), 0, 0, .zeros, .computed, 0⟩
/-- `tile.fw.legal_install` (R627) -/
def fw_legal_install : Entry := ⟨.tile, 0x013, 0x01, 1, .action, 0, .ex, .none, (some .legal), 0, 0, .zeros, .computed, 0⟩
/-- `tile.fw.legal_version` (R627) -/
def fw_legal_version : Entry := ⟨.tile, 0x013, 0x02, 1, .u32, 4, .ro, (some .view), .none, 0, 0, .num 0, .stored, 1⟩
/-- `tile.fw.legal_floor` (R627) -/
def fw_legal_floor : Entry := ⟨.tile, 0x013, 0x03, 1, .u32, 4, .ro, (some .view), .none, 0, 0, .num 0, .computed, 0⟩
/-- `tile.meters.in_service` (R74) -/
def meters_in_service : Entry := ⟨.tile, 0x040, 0x00, 1, .u32, 4, .ro, (some .view), .none, 0, 0, .num 0, .computed, 0⟩
/-- `tile.meters.direct_plc` (R74) -/
def meters_direct_plc : Entry := ⟨.tile, 0x040, 0x01, 1, .u16, 2, .ro, (some .view), .none, 0, 0, .num 0, .computed, 0⟩
/-- `tile.meters.direct_rf` (R74) -/
def meters_direct_rf : Entry := ⟨.tile, 0x040, 0x02, 1, .u16, 2, .ro, (some .view), .none, 0, 0, .num 0, .computed, 0⟩
/-- `tile.meters.relayed` (R74) -/
def meters_relayed : Entry := ⟨.tile, 0x040, 0x03, 1, .u32, 4, .ro, (some .view), .none, 0, 0, .num 0, .computed, 0⟩
/-- `tile.meters.retired` (R74) -/
def meters_retired : Entry := ⟨.tile, 0x040, 0x04, 1, .u32, 4, .ro, (some .view), .none, 0, 0, .num 0, .computed, 0⟩
/-- `tile.meters.record_errors` (R74) -/
def meters_record_errors : Entry := ⟨.tile, 0x040, 0x05, 1, .u32, 4, .rc, (some .view), .none, 0, 0, .num 0, .powerOn, 0⟩
/-- `tile.meters.damaged` (R74) -/
def meters_damaged : Entry := ⟨.tile, 0x040, 0x06, 1, .u32, 4, .ro, (some .view), .none, 0, 0, .num 0, .plain, 0⟩
/-- `tile.meters.select` (R74) -/
def meters_select : Entry := ⟨.tile, 0x041, 0x00, 1, .u32, 4, .rw, (some .view), (some .configure), 0, 4294967295, .num 0, .perSession, 64⟩
/-- `tile.meters.record` (R74) -/
def meters_record : Entry := ⟨.tile, 0x041, 0x01, 1, .octet, 256, .ro, (some .view), .none, 0, 0, .zeros, .computed, 0⟩
/-- `tile.meters.staging` (R74) -/
def meters_staging : Entry := ⟨.tile, 0x042, 0x00, 1, .octet, 512, .wo, .none, (some .configure), 0, 0, .zeros, .computed, 0⟩
/-- `tile.meters.enrol` (R74) -/
def meters_enrol : Entry := ⟨.tile, 0x042, 0x01, 1, .action, 0, .ex, .none, (some .configure), 0, 0, .zeros, .computed, 0⟩
/-- `tile.meters.move_out` (R74) -/
def meters_move_out : Entry := ⟨.tile, 0x042, 0x02, 1, .action, 0, .ex, .none, (some .configure), 0, 0, .zeros, .computed, 0⟩
/-- `tile.meters.retire` (R74) -/
def meters_retire : Entry := ⟨.tile, 0x042, 0x03, 1, .action, 0, .ex, .none, (some .configure), 0, 0, .zeros, .computed, 0⟩
/-- `tile.meters.release` (R74) -/
def meters_release : Entry := ⟨.tile, 0x042, 0x04, 1, .action, 0, .ex, .none, (some .configure), 0, 0, .zeros, .computed, 0⟩
/-- `tile.meters.edit` (R74) -/
def meters_edit : Entry := ⟨.tile, 0x042, 0x05, 1, .action, 0, .ex, .none, (some .configure), 0, 0, .zeros, .computed, 0⟩
/-- `tile.meters.last_result` (R74) -/
def meters_last_result : Entry := ⟨.tile, 0x042, 0x06, 1, .u8, 1, .ro, (some .view), .none, 0, 0, .num 0, .plain, 0⟩
/-- `tile.meters.class_table` (R74) -/
def meters_class_table : Entry := ⟨.tile, 0x043, 0x00, 1, .octet, 8192, .rws, (some .view), (some .configure), 0, 0, .stride 128 255, .stored, 9⟩
/-- `tile.meters.classes_used` (R74) -/
def meters_classes_used : Entry := ⟨.tile, 0x043, 0x01, 1, .u64, 8, .ro, (some .view), .none, 0, 0, .num 0, .computed, 0⟩
/-- `tile.meters.hash_load` (R74) -/
def meters_hash_load : Entry := ⟨.tile, 0x044, 0x00, 1, .u16, 2, .ro, (some .view), .none, 0, 0, .num 0, .computed, 0⟩
/-- `tile.meters.hash_stash` (R74) -/
def meters_hash_stash : Entry := ⟨.tile, 0x044, 0x01, 1, .u8, 1, .ro, (some .view), .none, 0, 0, .num 0, .computed, 0⟩
/-- `tile.meters.hash_insert_fail` (R74) -/
def meters_hash_insert_fail : Entry := ⟨.tile, 0x044, 0x02, 1, .u32, 4, .rc, (some .view), .none, 0, 0, .num 0, .powerOn, 0⟩
/-- `tile.meters.checkpoint_interval` (R74) -/
def meters_checkpoint_interval : Entry := ⟨.tile, 0x045, 0x00, 1, .u32, 4, .rws, (some .view), (some .configure), 60, 900, .num 300, .stored, 9⟩
/-- `tile.meters.checkpoint_last` (R74) -/
def meters_checkpoint_last : Entry := ⟨.tile, 0x045, 0x01, 1, .time80, 10, .ro, (some .view), .none, 0, 0, .num 0, .computed, 0⟩
/-- `tile.meters.checkpoint_s0` (R74) -/
def meters_checkpoint_s0 : Entry := ⟨.tile, 0x045, 0x02, 1, .u64, 8, .ro, (some .view), .none, 0, 0, .num 0, .computed, 0⟩
/-- `tile.meters.journal_fill` (R74) -/
def meters_journal_fill : Entry := ⟨.tile, 0x045, 0x03, 1, .u32, 4, .ro, (some .view), .none, 0, 0, .num 0, .computed, 0⟩
/-- `tile.meters.load_time` (R74) -/
def meters_load_time : Entry := ⟨.tile, 0x045, 0x04, 1, .u32, 4, .ro, (some .view), .none, 0, 0, .num 0, .powerOn, 0⟩
/-- `tile.meters.sat_table` (R74) -/
def meters_sat_table : Entry := ⟨.tile, 0x046, 0x00, 1, .octet, 32768, .rws, (some .view), (some .configure), 0, 0, .zeros, .stored, 9⟩
/-- `tile.gather.intake_weight` (R114) -/
def gather_intake_weight : Entry := ⟨.tile, 0x047, 0x00, 5, .u8, 1, .rws, (some .view), (some .configure), 1, 255, .nums [16, 16, 1, 4, 4], .stored, 9⟩
/-- `tile.gather.grid_phase` (R114) -/
def gather_grid_phase : Entry := ⟨.tile, 0x048, 0x00, 1, .u32, 4, .rws, (some .view), (some .configure), 0, 86399, .num 37, .stored, 9⟩
/-- `tile.gather.align_tol` (R114) -/
def gather_align_tol : Entry := ⟨.tile, 0x048, 0x01, 1, .u32, 4, .rws, (some .view), (some .configure), 0, 300, .num 30, .stored, 9⟩
/-- `tile.gather.late_window` (R114) -/
def gather_late_window : Entry := ⟨.tile, 0x048, 0x02, 1, .u32, 4, .rws, (some .view), (some .configure), 60, 604800, .num 3600, .stored, 9⟩
/-- `tile.gather.deviation_invert` (R114) -/
def gather_deviation_invert : Entry := ⟨.tile, 0x048, 0x03, 1, .bool, 1, .rws, (some .view), (some .configure), 0, 1, .num 0, .stored, 9⟩
/-- `tile.gather.dst_fold` (R114) -/
def gather_dst_fold : Entry := ⟨.tile, 0x048, 0x04, 1, .bool, 1, .rws, (some .view), (some .configure), 0, 1, .num 1, .stored, 9⟩
/-- `tile.gather.ack_point` (R114) -/
def gather_ack_point : Entry := ⟨.tile, 0x049, 0x00, 1, .u8, 1, .rws, (some .view), (some .configure), 0, 1, .num 0, .stored, 9⟩
/-- `tile.gather.retry_hint` (R114) -/
def gather_retry_hint : Entry := ⟨.tile, 0x049, 0x01, 1, .u16, 2, .rws, (some .view), (some .configure), 1, 3600, .num 300, .stored, 9⟩
/-- `tile.gather.inject_buffer` (R114) -/
def gather_inject_buffer : Entry := ⟨.tile, 0x04A, 0x00, 1, .octet, 8192, .wo, .none, (some .configure), 0, 0, .zeros, .computed, 0⟩
/-- `tile.gather.inject` (R114) -/
def gather_inject : Entry := ⟨.tile, 0x04A, 0x01, 1, .action, 0, .ex, .none, (some .configure), 0, 0, .zeros, .computed, 0⟩
/-- `tile.gather.inject_result` (R114) -/
def gather_inject_result : Entry := ⟨.tile, 0x04A, 0x02, 1, .octet, 24, .ro, (some .view), .none, 0, 0, .zeros, .plain, 0⟩
/-- `tile.gather.frames_in` (R114) -/
def gather_frames_in : Entry := ⟨.tile, 0x04B, 0x00, 5, .u64, 8, .ro, (some .view), .none, 0, 0, .num 0, .both, 0⟩
/-- `tile.gather.readings_out` (R114) -/
def gather_readings_out : Entry := ⟨.tile, 0x04B, 0x05, 1, .u64, 8, .ro, (some .view), .none, 0, 0, .num 0, .both, 0⟩
/-- `tile.gather.midx_waits` (R114) -/
def gather_midx_waits : Entry := ⟨.tile, 0x04B, 0x06, 1, .u64, 8, .ro, (some .view), .none, 0, 0, .num 0, .both, 0⟩
/-- `tile.gather.outcomes` (R114) -/
def gather_outcomes : Entry := ⟨.tile, 0x04C, 0x00, 6, .u32, 4, .rc, (some .view), .none, 0, 0, .num 0, .powerOn, 0⟩
/-- `tile.gather.last_detail` (R114) -/
def gather_last_detail : Entry := ⟨.tile, 0x04C, 0x06, 1, .u8, 1, .ro, (some .view), .none, 0, 0, .num 0, .plain, 0⟩
/-- `tile.gather.slot_hits` (R114) -/
def gather_slot_hits : Entry := ⟨.tile, 0x04D, 0x00, 1, .u64, 8, .ro, (some .view), .none, 0, 0, .num 0, .both, 0⟩
/-- `tile.gather.slot_misses` (R114) -/
def gather_slot_misses : Entry := ⟨.tile, 0x04D, 0x01, 1, .u64, 8, .ro, (some .view), .none, 0, 0, .num 0, .both, 0⟩
/-- `tile.gather.unwrap_fail` (R114) -/
def gather_unwrap_fail : Entry := ⟨.tile, 0x04D, 0x02, 1, .u32, 4, .rc, (some .view), .none, 0, 0, .num 0, .powerOn, 0⟩
/-- `tile.gather.next_ek_taken` (R114) -/
def gather_next_ek_taken : Entry := ⟨.tile, 0x04D, 0x03, 1, .u32, 4, .rc, (some .view), .none, 0, 0, .num 0, .powerOn, 0⟩
/-- `tile.gather.slot_bad` (R114) -/
def gather_slot_bad : Entry := ⟨.tile, 0x04D, 0x04, 1, .u32, 4, .rc, (some .view), .none, 0, 0, .num 0, .powerOn, 0⟩
/-- `tile.gather.envelope_errors` (R114) -/
def gather_envelope_errors : Entry := ⟨.tile, 0x04E, 0x00, 1, .u32, 4, .rc, (some .view), .none, 0, 0, .num 0, .powerOn, 0⟩
/-- `tile.gather.force_old_ignored` (R114) -/
def gather_force_old_ignored : Entry := ⟨.tile, 0x04E, 0x01, 1, .u32, 4, .rc, (some .view), .none, 0, 0, .num 0, .powerOn, 0⟩
/-- `tile.gather.ack_lost` (R114) -/
def gather_ack_lost : Entry := ⟨.tile, 0x04E, 0x02, 1, .u32, 4, .rc, (some .view), .none, 0, 0, .num 0, .powerOn, 0⟩
/-- `tile.gather.in_flight` (R114) -/
def gather_in_flight : Entry := ⟨.tile, 0x04E, 0x03, 1, .u16, 2, .ro, (some .view), .none, 0, 0, .num 0, .computed, 0⟩
/-- `tile.gather.in_flight_peak` (R114) -/
def gather_in_flight_peak : Entry := ⟨.tile, 0x04E, 0x04, 1, .u16, 2, .rc, (some .view), .none, 0, 0, .num 0, .both, 0⟩
/-- `tile.marver.ruleset_select` (R147) -/
def marver_ruleset_select : Entry := ⟨.tile, 0x080, 0x00, 1, .u8, 1, .rw, (some .view), (some .configure), 0, 63, .num 0, .plain, 0⟩
/-- `tile.marver.ruleset_stage` (R147) -/
def marver_ruleset_stage : Entry := ⟨.tile, 0x080, 0x01, 1, .octet, 512, .wo, .none, (some .configure), 0, 0, .zeros, .computed, 0⟩
/-- `tile.marver.ruleset_commit` (R147) -/
def marver_ruleset_commit : Entry := ⟨.tile, 0x080, 0x02, 1, .action, 0, .ex, .none, (some .configure), 0, 0, .zeros, .computed, 0⟩
/-- `tile.marver.last_result` (R147) -/
def marver_last_result : Entry := ⟨.tile, 0x080, 0x03, 1, .u8, 1, .ro, (some .view), .none, 0, 0, .num 0, .plain, 0⟩
/-- `tile.marver.last_bad_entry` (R147) -/
def marver_last_bad_entry : Entry := ⟨.tile, 0x080, 0x04, 1, .u8, 1, .ro, (some .view), .none, 0, 0, .num 255, .plain, 0⟩
/-- `tile.marver.ruleset_version` (R147) -/
def marver_ruleset_version : Entry := ⟨.tile, 0x081, 0x00, 64, .u16, 2, .ro, (some .view), .none, 0, 0, .num 0, .stored, 9⟩
/-- `tile.marver.rule_table` (R147) -/
def marver_rule_table : Entry := ⟨.tile, 0x082, 0x00, 1, .octet, 32768, .ro, (some .view), .none, 0, 0, .zeros, .stored, 9⟩
/-- `tile.marver.readings_in` (R147) -/
def marver_readings_in : Entry := ⟨.tile, 0x083, 0x00, 1, .u64, 8, .ro, (some .view), .none, 0, 0, .num 0, .both, 0⟩
/-- `tile.marver.accept` (R147) -/
def marver_accept : Entry := ⟨.tile, 0x083, 0x01, 1, .u64, 8, .ro, (some .view), .none, 0, 0, .num 0, .both, 0⟩
/-- `tile.marver.accept_edit` (R147) -/
def marver_accept_edit : Entry := ⟨.tile, 0x083, 0x02, 1, .u64, 8, .ro, (some .view), .none, 0, 0, .num 0, .both, 0⟩
/-- `tile.marver.accept_est` (R147) -/
def marver_accept_est : Entry := ⟨.tile, 0x083, 0x03, 1, .u64, 8, .ro, (some .view), .none, 0, 0, .num 0, .both, 0⟩
/-- `tile.marver.cullet_rule` (R147) -/
def marver_cullet_rule : Entry := ⟨.tile, 0x083, 0x04, 1, .u32, 4, .rc, (some .view), .none, 0, 0, .num 0, .powerOn, 0⟩
/-- `tile.marver.rule_skips` (R147) -/
def marver_rule_skips : Entry := ⟨.tile, 0x083, 0x05, 1, .u32, 4, .rc, (some .view), .none, 0, 0, .num 0, .powerOn, 0⟩
/-- `tile.marver.fill_refused` (R147) -/
def marver_fill_refused : Entry := ⟨.tile, 0x083, 0x06, 1, .u32, 4, .rc, (some .view), .none, 0, 0, .num 0, .powerOn, 0⟩
/-- `tile.marver.rollovers` (R147) -/
def marver_rollovers : Entry := ⟨.tile, 0x083, 0x07, 1, .u32, 4, .rc, (some .view), .none, 0, 0, .num 0, .powerOn, 0⟩
/-- `tile.marver.spike_edits` (R147) -/
def marver_spike_edits : Entry := ⟨.tile, 0x083, 0x08, 1, .u32, 4, .rc, (some .view), .none, 0, 0, .num 0, .powerOn, 0⟩
/-- `tile.marver.feeder_minutes` (R147) -/
def marver_feeder_minutes : Entry := ⟨.tile, 0x083, 0x09, 1, .u16, 2, .ro, (some .view), .none, 0, 0, .num 0, .both, 0⟩
/-- `tile.marver.rule_fails` (R147) -/
def marver_rule_fails : Entry := ⟨.tile, 0x084, 0x00, 32, .u32, 4, .rc, (some .view), .none, 0, 0, .num 0, .powerOn, 0⟩
/-- `tile.marver.replay_buffer` (R147) -/
def marver_replay_buffer : Entry := ⟨.tile, 0x085, 0x00, 1, .octet, 8712, .wo, .none, (some .configure), 0, 0, .zeros, .computed, 0⟩
/-- `tile.marver.replay` (R147) -/
def marver_replay : Entry := ⟨.tile, 0x085, 0x01, 1, .action, 0, .ex, .none, (some .configure), 0, 0, .zeros, .computed, 0⟩
/-- `tile.marver.replay_result` (R147) -/
def marver_replay_result : Entry := ⟨.tile, 0x085, 0x02, 1, .octet, 64, .ro, (some .view), .none, 0, 0, .zeros, .plain, 0⟩
/-- `tile.marver.replay_items` (R147) -/
def marver_replay_items : Entry := ⟨.tile, 0x085, 0x03, 1, .u64, 8, .ro, (some .view), .none, 0, 0, .num 0, .both, 0⟩
/-- `tile.cullet.read` (R147) -/
def cullet_read : Entry := ⟨.tile, 0x086, 0x00, 1, .octet, 128, .ro, (some .operate), .none, 0, 0, .zeros, .computed, 4⟩
/-- `tile.cullet.read_block` (R147) -/
def cullet_read_block : Entry := ⟨.tile, 0x086, 0x01, 1, .octet, 1024, .ro, (some .operate), .none, 0, 0, .zeros, .computed, 4⟩
/-- `tile.cullet.fill` (R147) -/
def cullet_fill : Entry := ⟨.tile, 0x086, 0x02, 1, .u16, 2, .ro, (some .view), .none, 0, 0, .num 0, .both, 0⟩
/-- `tile.cullet.written` (R147) -/
def cullet_written : Entry := ⟨.tile, 0x086, 0x03, 1, .u64, 8, .ro, (some .view), .none, 0, 0, .num 0, .both, 0⟩
/-- `tile.cullet.lost` (R147) -/
def cullet_lost : Entry := ⟨.tile, 0x086, 0x04, 1, .u32, 4, .rc, (some .view), .none, 0, 0, .num 0, .powerOn, 0⟩
/-- `tile.cullet.watermark` (R147) -/
def cullet_watermark : Entry := ⟨.tile, 0x086, 0x05, 1, .u16, 2, .rws, (some .view), (some .configure), 1, 8192, .num 6144, .stored, 9⟩
/-- `tile.cullet.wm_status` (R147) -/
def cullet_wm_status : Entry := ⟨.tile, 0x086, 0x06, 1, .u64, 8, .rc, (some .view), .none, 0, 0, .num 0, .both, 0⟩
/-- `tile.cullet.resets` (R147) -/
def cullet_resets : Entry := ⟨.tile, 0x086, 0x07, 1, .u32, 4, .rc, (some .view), .none, 0, 0, .num 0, .powerOn, 0⟩
/-- `tile.lehr.stream` (R183) -/
def lehr_stream : Entry := ⟨.tile, 0x0C0, 0x00, 1, .u8, 1, .ro, (some .view), .none, 0, 0, .num 0, .computed, 0⟩
/-- `tile.lehr.seq_next` (R183) -/
def lehr_seq_next : Entry := ⟨.tile, 0x0C0, 0x01, 1, .u64, 8, .ro, (some .view), .none, 0, 0, .num 0, .computed, 0⟩
/-- `tile.lehr.seq_held_high` (R183) -/
def lehr_seq_held_high : Entry := ⟨.tile, 0x0C0, 0x02, 1, .u64, 8, .ro, (some .view), .none, 0, 0, .num 0, .computed, 0⟩
/-- `tile.lehr.retained_floor` (R183) -/
def lehr_retained_floor : Entry := ⟨.tile, 0x0C0, 0x03, 1, .u64, 8, .ro, (some .view), .none, 0, 0, .num 0, .computed, 0⟩
/-- `tile.lehr.discard_floor` (R183) -/
def lehr_discard_floor : Entry := ⟨.tile, 0x0C0, 0x04, 1, .u64, 8, .ro, (some .view), .none, 0, 0, .num 0, .computed, 0⟩
/-- `tile.lehr.records_out` (R183) -/
def lehr_records_out : Entry := ⟨.tile, 0x0C0, 0x05, 1, .u64, 8, .ro, (some .view), .none, 0, 0, .num 0, .both, 0⟩
/-- `tile.lehr.batch_period` (R183) -/
def lehr_batch_period : Entry := ⟨.tile, 0x0C1, 0x00, 1, .u32, 4, .rws, (some .view), (some .configure), 60, 3600, .num 900, .stored, 9⟩
/-- `tile.lehr.batch_max` (R183) -/
def lehr_batch_max : Entry := ⟨.tile, 0x0C1, 0x01, 1, .u16, 2, .rws, (some .view), (some .configure), 64, 4096, .num 4096, .stored, 9⟩
/-- `tile.lehr.flush_time` (R183) -/
def lehr_flush_time : Entry := ⟨.tile, 0x0C1, 0x02, 1, .u32, 4, .rws, (some .view), (some .configure), 10, 10000, .num 2000, .stored, 9⟩
/-- `tile.lehr.full_policy` (R183) -/
def lehr_full_policy : Entry := ⟨.tile, 0x0C1, 0x03, 1, .u8, 1, .rws, (some .view), (some .configure), 0, 1, .num 0, .stored, 9⟩
/-- `tile.lehr.full_watermark` (R183) -/
def lehr_full_watermark : Entry := ⟨.tile, 0x0C1, 0x04, 1, .u8, 1, .rws, (some .view), (some .configure), 50, 99, .num 90, .stored, 9⟩
/-- `tile.lehr.last_header_seq` (R183) -/
def lehr_last_header_seq : Entry := ⟨.tile, 0x0C2, 0x00, 1, .u64, 8, .ro, (some .view), .none, 0, 0, .num 0, .computed, 0⟩
/-- `tile.lehr.last_close` (R183) -/
def lehr_last_close : Entry := ⟨.tile, 0x0C2, 0x01, 1, .time80, 10, .ro, (some .view), .none, 0, 0, .num 0, .computed, 0⟩
/-- `tile.lehr.batches_closed` (R183) -/
def lehr_batches_closed : Entry := ⟨.tile, 0x0C2, 0x02, 1, .u64, 8, .ro, (some .view), .none, 0, 0, .num 0, .both, 0⟩
/-- `tile.lehr.orphan_closes` (R183) -/
def lehr_orphan_closes : Entry := ⟨.tile, 0x0C2, 0x03, 1, .u32, 4, .rc, (some .view), .none, 0, 0, .num 0, .powerOn, 0⟩
/-- `tile.lehr.strays` (R183) -/
def lehr_strays : Entry := ⟨.tile, 0x0C2, 0x04, 1, .u32, 4, .ro, (some .view), .none, 0, 0, .num 0, .computed, 0⟩
/-- `tile.lehr.sign_pubkey` (R183) -/
def lehr_sign_pubkey : Entry := ⟨.tile, 0x0C3, 0x00, 1, .octet, 65, .ro, (some .view), .none, 0, 0, .zeros, .computed, 0⟩
/-- `tile.lehr.key_gen` (R183) -/
def lehr_key_gen : Entry := ⟨.tile, 0x0C3, 0x01, 1, .u8, 1, .ro, (some .view), .none, 0, 0, .num 0, .computed, 0⟩
/-- `tile.lehr.proof_seq` (R183) -/
def lehr_proof_seq : Entry := ⟨.tile, 0x0C4, 0x00, 1, .u64, 8, .rw, (some .view), (some .configure), 0, 18446744073709551615, .num 0, .plain, 0⟩
/-- `tile.lehr.proof` (R183) -/
def lehr_proof : Entry := ⟨.tile, 0x0C4, 0x01, 1, .action, 0, .ex, .none, (some .view), 0, 0, .zeros, .computed, 0⟩
/-- `tile.lehr.proof_block` (R183) -/
def lehr_proof_block : Entry := ⟨.tile, 0x0C4, 0x02, 1, .octet, 648, .ro, (some .view), .none, 0, 0, .zeros, .plain, 0⟩
/-- `tile.lehr.proof_result` (R183) -/
def lehr_proof_result : Entry := ⟨.tile, 0x0C4, 0x03, 1, .u8, 1, .ro, (some .view), .none, 0, 0, .num 0, .plain, 0⟩
/-- `tile.lehr.verify_first` (R183) -/
def lehr_verify_first : Entry := ⟨.tile, 0x0C5, 0x00, 1, .u64, 8, .rw, (some .view), (some .configure), 0, 18446744073709551615, .num 0, .plain, 0⟩
/-- `tile.lehr.verify_last` (R183) -/
def lehr_verify_last : Entry := ⟨.tile, 0x0C5, 0x01, 1, .u64, 8, .rw, (some .view), (some .configure), 0, 18446744073709551615, .num 0, .plain, 0⟩
/-- `tile.lehr.verify` (R183) -/
def lehr_verify : Entry := ⟨.tile, 0x0C5, 0x02, 1, .action, 0, .ex, .none, (some .configure), 0, 0, .zeros, .computed, 0⟩
/-- `tile.lehr.verify_result` (R183) -/
def lehr_verify_result : Entry := ⟨.tile, 0x0C5, 0x03, 1, .u8, 1, .ro, (some .view), .none, 0, 0, .num 0, .plain, 0⟩
/-- `tile.lehr.verify_bad_seq` (R183) -/
def lehr_verify_bad_seq : Entry := ⟨.tile, 0x0C5, 0x04, 1, .u64, 8, .ro, (some .view), .none, 0, 0, .num 0, .plain, 0⟩
/-- `tile.lehr.tag_fail` (R183) -/
def lehr_tag_fail : Entry := ⟨.tile, 0x0C5, 0x05, 1, .u32, 4, .rc, (some .view), .none, 0, 0, .num 0, .powerOn, 0⟩
/-- `tile.lehr.archive_blocks` (R183) -/
def lehr_archive_blocks : Entry := ⟨.tile, 0x0C6, 0x00, 1, .u16, 2, .ro, (some .view), .none, 0, 0, .num 0, .computed, 0⟩
/-- `tile.lehr.fill` (R183) -/
def lehr_fill : Entry := ⟨.tile, 0x0C6, 0x01, 1, .u16, 2, .ro, (some .view), .none, 0, 0, .num 0, .computed, 0⟩
/-- `tile.lehr.full_stops` (R183) -/
def lehr_full_stops : Entry := ⟨.tile, 0x0C6, 0x02, 1, .u32, 4, .rc, (some .view), .none, 0, 0, .num 0, .powerOn, 0⟩
/-- `tile.lehr.overwritten` (R183) -/
def lehr_overwritten : Entry := ⟨.tile, 0x0C6, 0x03, 1, .u64, 8, .ro, (some .view), .none, 0, 0, .num 0, .stored, 1⟩
/-- `tile.lehr.restatements` (R183) -/
def lehr_restatements : Entry := ⟨.tile, 0x0C7, 0x00, 1, .u64, 8, .ro, (some .view), .none, 0, 0, .num 0, .both, 0⟩
/-- `tile.lehr.restate_refused` (R183) -/
def lehr_restate_refused : Entry := ⟨.tile, 0x0C7, 0x01, 1, .u32, 4, .rc, (some .view), .none, 0, 0, .num 0, .powerOn, 0⟩
/-- `tile.lehr.splits` (R183) -/
def lehr_splits : Entry := ⟨.tile, 0x0C7, 0x02, 1, .u32, 4, .rc, (some .view), .none, 0, 0, .num 0, .powerOn, 0⟩
/-- `tile.lehr.fetch_records` (R183) -/
def lehr_fetch_records : Entry := ⟨.tile, 0x0C7, 0x03, 1, .u64, 8, .ro, (some .view), .none, 0, 0, .num 0, .both, 0⟩
/-- `tile.balance.interval` (R221) -/
def balance_interval : Entry := ⟨.tile, 0x100, 0x00, 1, .u32, 4, .rws, (some .view), (some .configure), 300, 3600, .num 900, .stored, 25⟩
/-- `tile.balance.close_window` (R221) -/
def balance_close_window : Entry := ⟨.tile, 0x100, 0x01, 1, .u8, 1, .rws, (some .view), (some .configure), 1, 16, .num 2, .stored, 9⟩
/-- `tile.balance.restate_horizon` (R221) -/
def balance_restate_horizon : Entry := ⟨.tile, 0x100, 0x02, 1, .u16, 2, .rws, (some .view), (some .configure), 0, 2880, .num 96, .stored, 9⟩
/-- `tile.balance.restate_max` (R221) -/
def balance_restate_max : Entry := ⟨.tile, 0x100, 0x03, 1, .u16, 2, .rws, (some .view), (some .configure), 1, 1024, .num 64, .stored, 9⟩
/-- `tile.balance.head_source` (R221) -/
def balance_head_source : Entry := ⟨.tile, 0x100, 0x04, 1, .u8, 1, .rws, (some .view), (some .configure), 0, 2, .num 0, .stored, 9⟩
/-- `tile.balance.spread_max` (R221) -/
def balance_spread_max : Entry := ⟨.tile, 0x100, 0x05, 1, .u8, 1, .rws, (some .view), (some .configure), 1, 96, .num 96, .stored, 9⟩
/-- `tile.balance.rebuild_lookback` (R221) -/
def balance_rebuild_lookback : Entry := ⟨.tile, 0x100, 0x06, 1, .u32, 4, .rws, (some .view), (some .configure), 0, 86400, .num 3600, .stored, 9⟩
/-- `tile.balance.v_nominal` (R221) -/
def balance_v_nominal : Entry := ⟨.tile, 0x101, 0x00, 1, .u16, 2, .rws, (some .view), (some .configure), 10000, 40000, .num 23000, .stored, 9⟩
/-- `tile.balance.pf_assumed` (R221) -/
def balance_pf_assumed : Entry := ⟨.tile, 0x101, 0x01, 1, .u16, 2, .rws, (some .view), (some .configure), 500, 1000, .num 950, .stored, 9⟩
/-- `tile.balance.shape_factor` (R221) -/
def balance_shape_factor : Entry := ⟨.tile, 0x101, 0x02, 1, .u16, 2, .rws, (some .view), (some .configure), 1000, 2000, .num 1100, .stored, 9⟩
/-- `tile.balance.phase_conf_min` (R221) -/
def balance_phase_conf_min : Entry := ⟨.tile, 0x101, 0x03, 1, .u8, 1, .rws, (some .view), (some .configure), 0, 255, .num 160, .stored, 9⟩
/-- `tile.balance.v_min_meters` (R221) -/
def balance_v_min_meters : Entry := ⟨.tile, 0x101, 0x04, 1, .u8, 1, .rws, (some .view), (some .configure), 1, 32, .num 2, .stored, 9⟩
/-- `tile.balance.cover_min` (R221) -/
def balance_cover_min : Entry := ⟨.tile, 0x101, 0x05, 1, .u16, 2, .rws, (some .view), (some .configure), 0, 1000, .num 990, .stored, 9⟩
/-- `tile.balance.move_confirm` (R221) -/
def balance_move_confirm : Entry := ⟨.tile, 0x101, 0x06, 1, .u8, 1, .rws, (some .view), (some .configure), 1, 255, .num 4, .stored, 9⟩
/-- `tile.balance.score_tau` (R221) -/
def balance_score_tau : Entry := ⟨.tile, 0x102, 0x00, 1, .u8, 1, .rws, (some .view), (some .configure), 1, 255, .num 16, .stored, 9⟩
/-- `tile.balance.conf_floor_w` (R221) -/
def balance_conf_floor_w : Entry := ⟨.tile, 0x102, 0x01, 1, .u16, 2, .rws, (some .view), (some .configure), 1, 65535, .num 50, .stored, 9⟩
/-- `tile.balance.score_unit_w` (R221) -/
def balance_score_unit_w : Entry := ⟨.tile, 0x102, 0x02, 1, .u16, 2, .rws, (some .view), (some .configure), 1, 65535, .num 25, .stored, 9⟩
/-- `tile.balance.report_floor_w` (R221) -/
def balance_report_floor_w : Entry := ⟨.tile, 0x102, 0x03, 1, .u32, 4, .rws, (some .view), (some .configure), 0, 10000000, .num 500, .stored, 9⟩
/-- `tile.balance.segment_records_max` (R221) -/
def balance_segment_records_max : Entry := ⟨.tile, 0x102, 0x04, 1, .u16, 2, .rws, (some .view), (some .configure), 0, 4096, .num 64, .stored, 9⟩
/-- `tile.balance.evidence_tau` (R221) -/
def balance_evidence_tau : Entry := ⟨.tile, 0x102, 0x05, 1, .u16, 2, .rws, (some .view), (some .configure), 1, 65535, .num 138, .stored, 9⟩
/-- `tile.balance.tamper_near_level` (R221) -/
def balance_tamper_near_level : Entry := ⟨.tile, 0x102, 0x06, 1, .u16, 2, .rws, (some .view), (some .configure), 1, 65535, .num 50, .stored, 9⟩
/-- `tile.balance.alarm_on` (R221) -/
def balance_alarm_on : Entry := ⟨.tile, 0x102, 0x07, 1, .u16, 2, .rws, (some .view), (some .configure), 1, 65535, .num 200, .stored, 9⟩
/-- `tile.balance.alarm_off` (R221) -/
def balance_alarm_off : Entry := ⟨.tile, 0x102, 0x08, 1, .u16, 2, .rws, (some .view), (some .configure), 0, 65535, .num 120, .stored, 9⟩
/-- `tile.balance.alarm_confirm` (R221) -/
def balance_alarm_confirm : Entry := ⟨.tile, 0x102, 0x09, 1, .u8, 1, .rws, (some .view), (some .configure), 1, 16, .num 3, .stored, 9⟩
/-- `tile.balance.weight` (R221) -/
def balance_weight : Entry := ⟨.tile, 0x103, 0x00, 7, .u8, 1, .rws, (some .view), (some .configure), 0, 255, .nums [40, 30, 20, 60, 80, 20, 60], .stored, 9⟩
/-- `tile.balance.tree_stage` (R221) -/
def balance_tree_stage : Entry := ⟨.tile, 0x104, 0x00, 1, .octet, 131072, .wo, .none, (some .configure), 0, 0, .zeros, .computed, 0⟩
/-- `tile.balance.tree_commit` (R221) -/
def balance_tree_commit : Entry := ⟨.tile, 0x104, 0x01, 1, .action, 0, .ex, .none, (some .configure), 0, 0, .zeros, .computed, 0⟩
/-- `tile.balance.tree` (R221) -/
def balance_tree : Entry := ⟨.tile, 0x104, 0x02, 1, .octet, 131072, .ro, (some .view), .none, 0, 0, .sparse [(0, 255), (1, 255), (2, 1), (12, 255), (13, 255), (14, 255), (15, 255)], .stored, 9⟩
/-- `tile.balance.tree_version` (R221) -/
def balance_tree_version : Entry := ⟨.tile, 0x104, 0x03, 1, .u16, 2, .ro, (some .view), .none, 0, 0, .num 0, .stored, 9⟩
/-- `tile.balance.last_result` (R221) -/
def balance_last_result : Entry := ⟨.tile, 0x104, 0x04, 1, .u8, 1, .ro, (some .view), .none, 0, 0, .num 0, .plain, 0⟩
/-- `tile.balance.tree_bad_node` (R221) -/
def balance_tree_bad_node : Entry := ⟨.tile, 0x104, 0x05, 1, .u16, 2, .ro, (some .view), .none, 0, 0, .num 65535, .plain, 0⟩
/-- `tile.balance.node_select` (R221) -/
def balance_node_select : Entry := ⟨.tile, 0x105, 0x00, 1, .u16, 2, .rw, (some .view), (some .configure), 0, 16383, .num 0, .perSession, 64⟩
/-- `tile.balance.node_status` (R221) -/
def balance_node_status : Entry := ⟨.tile, 0x105, 0x01, 1, .octet, 64, .ro, (some .view), .none, 0, 0, .zeros, .computed, 0⟩
/-- `tile.balance.alarms_raised` (R221) -/
def balance_alarms_raised : Entry := ⟨.tile, 0x105, 0x02, 1, .u16, 2, .ro, (some .view), .none, 0, 0, .num 0, .both, 0⟩
/-- `tile.balance.zones` (R221) -/
def balance_zones : Entry := ⟨.tile, 0x105, 0x03, 1, .u8, 1, .ro, (some .view), .none, 0, 0, .num 0, .computed, 0⟩
/-- `tile.balance.root_nontech` (R221) -/
def balance_root_nontech : Entry := ⟨.tile, 0x106, 0x00, 3, .i64, 8, .ro, (some .view), .none, 0, 0, .num 0, .both, 0⟩
/-- `tile.balance.books_closed` (R221) -/
def balance_books_closed : Entry := ⟨.tile, 0x107, 0x00, 1, .u64, 8, .ro, (some .view), .none, 0, 0, .num 0, .both, 0⟩
/-- `tile.balance.restatements` (R221) -/
def balance_restatements : Entry := ⟨.tile, 0x107, 0x01, 1, .u64, 8, .ro, (some .view), .none, 0, 0, .num 0, .both, 0⟩
/-- `tile.balance.pending_mwh` (R221) -/
def balance_pending_mwh : Entry := ⟨.tile, 0x107, 0x02, 1, .i64, 8, .ro, (some .view), .none, 0, 0, .num 0, .computed, 0⟩
/-- `tile.balance.pending_books` (R221) -/
def balance_pending_books : Entry := ⟨.tile, 0x107, 0x03, 1, .u32, 4, .ro, (some .view), .none, 0, 0, .num 0, .computed, 0⟩
/-- `tile.balance.beyond_horizon_mwh` (R221) -/
def balance_beyond_horizon_mwh : Entry := ⟨.tile, 0x107, 0x04, 1, .i64, 8, .ro, (some .view), .none, 0, 0, .num 0, .both, 0⟩
/-- `tile.balance.beyond_horizon` (R221) -/
def balance_beyond_horizon : Entry := ⟨.tile, 0x107, 0x05, 1, .u32, 4, .rc, (some .view), .none, 0, 0, .num 0, .powerOn, 0⟩
/-- `tile.balance.future` (R221) -/
def balance_future : Entry := ⟨.tile, 0x107, 0x06, 1, .u32, 4, .rc, (some .view), .none, 0, 0, .num 0, .powerOn, 0⟩
/-- `tile.balance.unpaired` (R221) -/
def balance_unpaired : Entry := ⟨.tile, 0x108, 0x00, 1, .u32, 4, .rc, (some .view), .none, 0, 0, .num 0, .powerOn, 0⟩
/-- `tile.balance.hole_ignored` (R221) -/
def balance_hole_ignored : Entry := ⟨.tile, 0x108, 0x01, 1, .u32, 4, .rc, (some .view), .none, 0, 0, .num 0, .powerOn, 0⟩
/-- `tile.balance.head_unusable` (R221) -/
def balance_head_unusable : Entry := ⟨.tile, 0x108, 0x02, 1, .u32, 4, .rc, (some .view), .none, 0, 0, .num 0, .powerOn, 0⟩
/-- `tile.balance.bad_segment` (R221) -/
def balance_bad_segment : Entry := ⟨.tile, 0x108, 0x03, 1, .u32, 4, .rc, (some .view), .none, 0, 0, .num 0, .powerOn, 0⟩
/-- `tile.balance.placement_moves` (R221) -/
def balance_placement_moves : Entry := ⟨.tile, 0x108, 0x04, 1, .u32, 4, .rc, (some .view), .none, 0, 0, .num 0, .powerOn, 0⟩
/-- `tile.balance.segment_records_cut` (R221) -/
def balance_segment_records_cut : Entry := ⟨.tile, 0x108, 0x05, 1, .u32, 4, .rc, (some .view), .none, 0, 0, .num 0, .powerOn, 0⟩
/-- `tile.balance.feed_gaps` (R221) -/
def balance_feed_gaps : Entry := ⟨.tile, 0x108, 0x06, 1, .u32, 4, .rc, (some .view), .none, 0, 0, .num 0, .powerOn, 0⟩
/-- `tile.balance.rebuilds` (R221) -/
def balance_rebuilds : Entry := ⟨.tile, 0x108, 0x07, 1, .u32, 4, .rc, (some .view), .none, 0, 0, .num 0, .powerOn, 0⟩
/-- `tile.balance.rebuild_time` (R221) -/
def balance_rebuild_time : Entry := ⟨.tile, 0x108, 0x08, 1, .u32, 4, .ro, (some .view), .none, 0, 0, .num 0, .powerOn, 0⟩
/-- `tile.balance.evidence_records` (R221) -/
def balance_evidence_records : Entry := ⟨.tile, 0x108, 0x09, 1, .u64, 8, .ro, (some .view), .none, 0, 0, .num 0, .both, 0⟩
/-- `tile.metro.state` (R255) -/
def metro_state : Entry := ⟨.tile, 0x140, 0x00, 1, .u8, 1, .ro, (some .view), .none, 0, 0, .num 0, .both, 0⟩
/-- `tile.metro.resync` (R255) -/
def metro_resync : Entry := ⟨.tile, 0x140, 0x01, 1, .action, 0, .ex, .none, (some .configure), 0, 0, .zeros, .computed, 0⟩
/-- `tile.metro.resyncs` (R255) -/
def metro_resyncs : Entry := ⟨.tile, 0x140, 0x02, 1, .u32, 4, .rc, (some .view), .none, 0, 0, .num 0, .powerOn, 0⟩
/-- `tile.metro.slip_adjusts` (R255) -/
def metro_slip_adjusts : Entry := ⟨.tile, 0x140, 0x03, 1, .u64, 8, .ro, (some .view), .none, 0, 0, .num 0, .both, 0⟩
/-- `tile.metro.overloads` (R255) -/
def metro_overloads : Entry := ⟨.tile, 0x140, 0x04, 1, .u32, 4, .rc, (some .view), .none, 0, 0, .num 0, .powerOn, 0⟩
/-- `tile.metro.unmeasured_ms` (R255) -/
def metro_unmeasured_ms : Entry := ⟨.tile, 0x140, 0x05, 1, .u64, 8, .ro, (some .view), .none, 0, 0, .num 0, .stored, 1⟩
/-- `tile.metro.head_gap_max_ms` (R255) -/
def metro_head_gap_max_ms : Entry := ⟨.tile, 0x140, 0x06, 1, .u32, 4, .rws, (some .view), (some .configure), 0, 3600000, .num 2000, .stored, 9⟩
/-- `tile.metro.rms` (R255) -/
def metro_rms : Entry := ⟨.tile, 0x141, 0x00, 8, .u32, 4, .ro, (some .view), .none, 0, 0, .num 0, .both, 0⟩
/-- `tile.metro.frequency` (R255) -/
def metro_frequency : Entry := ⟨.tile, 0x141, 0x08, 1, .u32, 4, .ro, (some .view), .none, 0, 0, .num 0, .both, 0⟩
/-- `tile.metro.p` (R255) -/
def metro_p : Entry := ⟨.tile, 0x142, 0x00, 3, .i32, 4, .ro, (some .view), .none, 0, 0, .num 0, .both, 0⟩
/-- `tile.metro.q` (R255) -/
def metro_q : Entry := ⟨.tile, 0x142, 0x03, 3, .i32, 4, .ro, (some .view), .none, 0, 0, .num 0, .both, 0⟩
/-- `tile.metro.legal_regs` (R255) -/
def metro_legal_regs : Entry := ⟨.tile, 0x143, 0x00, 12, .u64, 8, .ro, (some .view), .none, 0, 0, .num 0, .stored, 1⟩
/-- `tile.metro.cal_stage` (R255) -/
def metro_cal_stage : Entry := ⟨.tile, 0x144, 0x00, 1, .octet, 256, .wo, .none, (some .legal), 0, 0, .zeros, .computed, 0⟩
/-- `tile.metro.cal_commit` (R255) -/
def metro_cal_commit : Entry := ⟨.tile, 0x144, 0x01, 1, .action, 0, .ex, .none, (some .legal), 0, 0, .zeros, .computed, 0⟩
/-- `tile.metro.cal_block` (R255) -/
def metro_cal_block : Entry := ⟨.tile, 0x144, 0x02, 1, .octet, 256, .ro, (some .view), .none, 0, 0, .sparse [(0, 1), (19, 64), (28, 156), (29, 224), (35, 64), (44, 156), (45, 224), (51, 64), (60, 156), (61, 224), (67, 64), (76, 160), (77, 134), (78, 1), (83, 64), (92, 160), (93, 134), (94, 1), (99, 64), (108, 160), (109, 134), (110, 1), (115, 64), (124, 160), (125, 134), (126, 1), (131, 64), (140, 156), (141, 224), (252, 28), (253, 7), (254, 163), (255, 12)], .stored, 1⟩
/-- `tile.metro.last_result` (R255) -/
def metro_last_result : Entry := ⟨.tile, 0x144, 0x03, 1, .u8, 1, .ro, (some .view), .none, 0, 0, .num 0, .plain, 0⟩
/-- `tile.metro.seal_count` (R255) -/
def metro_seal_count : Entry := ⟨.tile, 0x144, 0x04, 1, .u16, 2, .ro, (some .view), .none, 0, 0, .num 0, .stored, 1⟩
/-- `tile.metro.legal_check` (R255) -/
def metro_legal_check : Entry := ⟨.tile, 0x144, 0x05, 1, .u32, 4, .ro, (some .view), .none, 0, 0, .num 0, .computed, 0⟩
/-- `tile.metro.reg_stage` (R255) -/
def metro_reg_stage : Entry := ⟨.tile, 0x144, 0x06, 1, .octet, 96, .wo, .none, (some .legal), 0, 0, .zeros, .computed, 0⟩
/-- `tile.metro.reg_restore` (R255) -/
def metro_reg_restore : Entry := ⟨.tile, 0x144, 0x07, 1, .action, 0, .ex, .none, (some .legal), 0, 0, .zeros, .computed, 0⟩
/-- `tile.metro.mag_desc` (R255) -/
def metro_mag_desc : Entry := ⟨.tile, 0x145, 0x00, 2, .octet, 24, .rws, (some .view), (some .configure), 0, 0, .zeros, .stored, 9⟩
/-- `tile.metro.mag_threshold` (R255) -/
def metro_mag_threshold : Entry := ⟨.tile, 0x145, 0x02, 1, .u16, 2, .rws, (some .view), (some .configure), 10, 2000, .num 500, .stored, 9⟩
/-- `tile.metro.mag_status` (R255) -/
def metro_mag_status : Entry := ⟨.tile, 0x145, 0x03, 1, .u8, 1, .ro, (some .view), .none, 0, 0, .num 0, .both, 0⟩
/-- `tile.metro.mag_episodes` (R255) -/
def metro_mag_episodes : Entry := ⟨.tile, 0x145, 0x04, 1, .u32, 4, .rc, (some .view), .none, 0, 0, .num 0, .powerOn, 0⟩
/-- `tile.metro.mag_log` (R255) -/
def metro_mag_log : Entry := ⟨.tile, 0x145, 0x05, 1, .octet, 512, .ro, (some .view), .none, 0, 0, .zeros, .stored, 1⟩
/-- `tile.metro.relay_cmd` (R255) -/
def metro_relay_cmd : Entry := ⟨.tile, 0x146, 0x00, 2, .u8, 1, .wo, .none, (some .operate), 0, 1, .num 0, .computed, 0⟩
/-- `tile.metro.relay_state` (R255) -/
def metro_relay_state : Entry := ⟨.tile, 0x146, 0x02, 2, .u32, 4, .ro, (some .view), .none, 0, 0, .num 0, .stored, 1⟩
/-- `tile.metro.fb_mode` (R255) -/
def metro_fb_mode : Entry := ⟨.tile, 0x146, 0x04, 2, .u8, 1, .rws, (some .view), (some .configure), 0, 3, .num 1, .stored, 9⟩
/-- `tile.metro.relay_pulse_ms` (R255) -/
def metro_relay_pulse_ms : Entry := ⟨.tile, 0x146, 0x06, 1, .u8, 1, .rws, (some .view), (some .configure), 10, 200, .num 60, .stored, 9⟩
/-- `tile.metro.relay_confirm_ms` (R255) -/
def metro_relay_confirm_ms : Entry := ⟨.tile, 0x146, 0x07, 1, .u16, 2, .rws, (some .view), (some .configure), 100, 2000, .num 500, .stored, 9⟩
/-- `tile.metro.relay_retries` (R255) -/
def metro_relay_retries : Entry := ⟨.tile, 0x146, 0x08, 1, .u8, 1, .rws, (some .view), (some .configure), 0, 2, .num 2, .stored, 9⟩
/-- `tile.metro.vx_present` (R255) -/
def metro_vx_present : Entry := ⟨.tile, 0x146, 0x09, 1, .u16, 2, .rws, (some .view), (some .configure), 0, 65535, .num 10000, .stored, 9⟩
/-- `tile.metro.vx_absent` (R255) -/
def metro_vx_absent : Entry := ⟨.tile, 0x146, 0x0A, 1, .u16, 2, .rws, (some .view), (some .configure), 0, 65535, .num 2000, .stored, 9⟩
/-- `tile.metro.vx_phase` (R255) -/
def metro_vx_phase : Entry := ⟨.tile, 0x146, 0x0B, 1, .u8, 1, .rws, (some .view), (some .configure), 1, 3, .num 1, .stored, 9⟩
/-- `tile.metro.fb_polarity` (R255) -/
def metro_fb_polarity : Entry := ⟨.tile, 0x146, 0x0C, 1, .u8, 1, .rws, (some .view), (some .configure), 0, 3, .num 0, .stored, 9⟩
/-- `tile.metro.relay_mismatches` (R255) -/
def metro_relay_mismatches : Entry := ⟨.tile, 0x146, 0x0D, 1, .u32, 4, .rc, (some .view), .none, 0, 0, .num 0, .powerOn, 0⟩
/-- `tile.metro.pulses_cut` (R255) -/
def metro_pulses_cut : Entry := ⟨.tile, 0x146, 0x0E, 1, .u32, 4, .rc, (some .view), .none, 0, 0, .num 0, .powerOn, 0⟩
/-- `tile.eph.cal_stage` (R294) -/
def eph_cal_stage : Entry := ⟨.tile, 0x180, 0x00, 1, .octet, 1600, .wo, .none, (some .configure), 0, 0, .zeros, .computed, 0⟩
/-- `tile.eph.cal_commit` (R294) -/
def eph_cal_commit : Entry := ⟨.tile, 0x180, 0x01, 1, .action, 0, .ex, .none, (some .configure), 0, 0, .zeros, .computed, 0⟩
/-- `tile.eph.calendar` (R294) -/
def eph_calendar : Entry := ⟨.tile, 0x180, 0x02, 1, .octet, 1600, .ro, (some .view), .none, 0, 0, .sparse [(0, 1), (64, 1), (65, 1), (67, 1), (161, 128), (1596, 148), (1597, 135), (1598, 62), (1599, 162)], .stored, 9⟩
/-- `tile.eph.cal_passive` (R294) -/
def eph_cal_passive : Entry := ⟨.tile, 0x180, 0x03, 1, .octet, 1600, .ro, (some .view), .none, 0, 0, .zeros, .stored, 9⟩
/-- `tile.eph.cal_previous` (R294) -/
def eph_cal_previous : Entry := ⟨.tile, 0x180, 0x04, 1, .octet, 1600, .ro, (some .view), .none, 0, 0, .zeros, .stored, 9⟩
/-- `tile.eph.cal_version` (R294) -/
def eph_cal_version : Entry := ⟨.tile, 0x180, 0x05, 1, .u8, 1, .ro, (some .view), .none, 0, 0, .num 1, .stored, 9⟩
/-- `tile.eph.last_result` (R294) -/
def eph_last_result : Entry := ⟨.tile, 0x180, 0x06, 1, .u8, 1, .ro, (some .view), .none, 0, 0, .num 0, .plain, 0⟩
/-- `tile.eph.cal_bad_offset` (R294) -/
def eph_cal_bad_offset : Entry := ⟨.tile, 0x180, 0x07, 1, .u16, 2, .ro, (some .view), .none, 0, 0, .num 65535, .plain, 0⟩
/-- `tile.eph.bill_basis` (R294) -/
def eph_bill_basis : Entry := ⟨.tile, 0x181, 0x00, 1, .u8, 1, .rws, (some .view), (some .configure), 0, 1, .num 0, .stored, 9⟩
/-- `tile.eph.applied` (R294) -/
def eph_applied : Entry := ⟨.tile, 0x181, 0x01, 1, .u64, 8, .ro, (some .view), .none, 0, 0, .num 0, .both, 0⟩
/-- `tile.eph.lag_max_ms` (R294) -/
def eph_lag_max_ms : Entry := ⟨.tile, 0x181, 0x02, 1, .u32, 4, .rc, (some .view), .none, 0, 0, .num 0, .both, 0⟩
/-- `tile.eph.cal_too_old` (R294) -/
def eph_cal_too_old : Entry := ⟨.tile, 0x181, 0x03, 1, .u32, 4, .rc, (some .view), .none, 0, 0, .num 0, .powerOn, 0⟩
/-- `tile.eph.backlog` (R294) -/
def eph_backlog : Entry := ⟨.tile, 0x181, 0x04, 1, .u16, 2, .ro, (some .view), .none, 0, 0, .num 0, .both, 0⟩
/-- `tile.eph.clock_split_limit` (R294) -/
def eph_clock_split_limit : Entry := ⟨.tile, 0x182, 0x00, 1, .u16, 2, .rws, (some .view), (some .configure), 1, 3600, .num 10, .stored, 9⟩
/-- `tile.eph.clock_stage` (R294) -/
def eph_clock_stage : Entry := ⟨.tile, 0x182, 0x01, 1, .octet, 16, .wo, .none, (some .configure), 0, 0, .zeros, .computed, 0⟩
/-- `tile.eph.clock_event` (R294) -/
def eph_clock_event : Entry := ⟨.tile, 0x182, 0x02, 1, .action, 0, .ex, .none, (some .configure), 0, 0, .zeros, .computed, 0⟩
/-- `tile.eph.splits_pending` (R294) -/
def eph_splits_pending : Entry := ⟨.tile, 0x182, 0x03, 1, .u16, 2, .ro, (some .view), .none, 0, 0, .num 0, .computed, 0⟩
/-- `tile.eph.splits_refused` (R294) -/
def eph_splits_refused : Entry := ⟨.tile, 0x182, 0x04, 1, .u32, 4, .rc, (some .view), .none, 0, 0, .num 0, .powerOn, 0⟩
/-- `tile.eph.splits_expired` (R294) -/
def eph_splits_expired : Entry := ⟨.tile, 0x182, 0x05, 1, .u32, 4, .rc, (some .view), .none, 0, 0, .num 0, .powerOn, 0⟩
/-- `tile.eph.profiles` (R294) -/
def eph_profiles : Entry := ⟨.tile, 0x183, 0x00, 1, .octet, 1024, .rws, (some .view), (some .configure), 0, 0, .zeros, .stored, 9⟩
/-- `tile.eph.topup_stage` (R294) -/
def eph_topup_stage : Entry := ⟨.tile, 0x183, 0x01, 1, .octet, 32, .wo, .none, (some .operate), 0, 0, .zeros, .computed, 0⟩
/-- `tile.eph.topup` (R294) -/
def eph_topup : Entry := ⟨.tile, 0x183, 0x02, 1, .action, 0, .ex, .none, (some .operate), 0, 0, .zeros, .computed, 0⟩
/-- `tile.eph.bad_profile` (R294) -/
def eph_bad_profile : Entry := ⟨.tile, 0x183, 0x03, 1, .u32, 4, .rc, (some .view), .none, 0, 0, .num 0, .powerOn, 0⟩
/-- `tile.eph.deferred` (R294) -/
def eph_deferred : Entry := ⟨.tile, 0x183, 0x04, 1, .u32, 4, .ro, (some .view), .none, 0, 0, .num 0, .computed, 0⟩
/-- `tile.eph.disconnects` (R294) -/
def eph_disconnects : Entry := ⟨.tile, 0x183, 0x05, 1, .u32, 4, .rc, (some .view), .none, 0, 0, .num 0, .powerOn, 0⟩
/-- `tile.eph.reconnects` (R294) -/
def eph_reconnects : Entry := ⟨.tile, 0x183, 0x06, 1, .u32, 4, .rc, (some .view), .none, 0, 0, .num 0, .powerOn, 0⟩
/-- `tile.eph.select` (R294) -/
def eph_select : Entry := ⟨.tile, 0x184, 0x00, 1, .u32, 4, .rw, (some .view), (some .configure), 0, 4294967295, .num 0, .perSession, 64⟩
/-- `tile.eph.relay_cmd` (R294) -/
def eph_relay_cmd : Entry := ⟨.tile, 0x184, 0x01, 1, .u8, 1, .wo, .none, (some .operate), 0, 2, .num 0, .computed, 0⟩
/-- `tile.eph.flags_clear` (R294) -/
def eph_flags_clear : Entry := ⟨.tile, 0x184, 0x02, 1, .u32, 4, .wo, .none, (some .operate), 0, 4294967295, .num 0, .computed, 0⟩
/-- `tile.eph.confirm_held` (R294) -/
def eph_confirm_held : Entry := ⟨.tile, 0x184, 0x03, 1, .action, 0, .ex, .none, (some .operate), 0, 0, .zeros, .computed, 0⟩
/-- `tile.eph.relay_confirm_s` (R294) -/
def eph_relay_confirm_s : Entry := ⟨.tile, 0x184, 0x04, 1, .u16, 2, .rws, (some .view), (some .configure), 10, 3600, .num 120, .stored, 9⟩
/-- `tile.eph.relay_retries` (R294) -/
def eph_relay_retries : Entry := ⟨.tile, 0x184, 0x05, 1, .u8, 1, .rws, (some .view), (some .configure), 0, 5, .num 2, .stored, 9⟩
/-- `tile.eph.relay_check_delay_s` (R294) -/
def eph_relay_check_delay_s : Entry := ⟨.tile, 0x184, 0x06, 1, .u8, 1, .rws, (some .view), (some .configure), 1, 60, .num 5, .stored, 9⟩
/-- `tile.eph.relay_audit_h` (R294) -/
def eph_relay_audit_h : Entry := ⟨.tile, 0x184, 0x07, 1, .u8, 1, .rws, (some .view), (some .configure), 1, 168, .num 24, .stored, 9⟩
/-- `tile.eph.relay_mismatches` (R294) -/
def eph_relay_mismatches : Entry := ⟨.tile, 0x184, 0x08, 1, .u32, 4, .rc, (some .view), .none, 0, 0, .num 0, .powerOn, 0⟩
/-- `tile.eph.resp_timeout_ms` (R294) -/
def eph_resp_timeout_ms : Entry := ⟨.tile, 0x185, 0x00, 1, .u32, 4, .rws, (some .view), (some .configure), 500, 60000, .num 5000, .stored, 9⟩
/-- `tile.eph.mgmt_tries` (R294) -/
def eph_mgmt_tries : Entry := ⟨.tile, 0x185, 0x01, 1, .u8, 1, .rws, (some .view), (some .configure), 1, 8, .num 3, .stored, 9⟩
/-- `tile.eph.resp_dropped` (R294) -/
def eph_resp_dropped : Entry := ⟨.tile, 0x185, 0x02, 1, .u32, 4, .rc, (some .view), .none, 0, 0, .num 0, .powerOn, 0⟩
/-- `tile.eph.push_plc_share` (R294) -/
def eph_push_plc_share : Entry := ⟨.tile, 0x186, 0x00, 1, .u16, 2, .rws, (some .view), (some .configure), 0, 1000, .num 200, .stored, 9⟩
/-- `tile.eph.push_rf_share` (R294) -/
def eph_push_rf_share : Entry := ⟨.tile, 0x186, 0x01, 1, .u16, 2, .rws, (some .view), (some .configure), 0, 1000, .num 250, .stored, 9⟩
/-- `tile.eph.push_sat_inflight` (R294) -/
def eph_push_sat_inflight : Entry := ⟨.tile, 0x186, 0x02, 1, .u8, 1, .rws, (some .view), (some .configure), 1, 64, .num 16, .stored, 9⟩
/-- `tile.eph.cal_push_enable` (R294) -/
def eph_cal_push_enable : Entry := ⟨.tile, 0x186, 0x03, 1, .bool, 1, .rws, (some .view), (some .configure), 0, 1, .num 1, .stored, 9⟩
/-- `tile.eph.push_stage` (R294) -/
def eph_push_stage : Entry := ⟨.tile, 0x187, 0x00, 1, .octet, 96, .wo, .none, (some .configure), 0, 0, .zeros, .computed, 0⟩
/-- `tile.eph.image` (R294) -/
def eph_image : Entry := ⟨.tile, 0x187, 0x01, 1, .octet, 4194304, .wo, .none, (some .configure), 0, 0, .zeros, .computed, 0⟩
/-- `tile.eph.push_load` (R294) -/
def eph_push_load : Entry := ⟨.tile, 0x187, 0x02, 1, .action, 0, .ex, .none, (some .configure), 0, 0, .zeros, .computed, 0⟩
/-- `tile.eph.push_members` (R294) -/
def eph_push_members : Entry := ⟨.tile, 0x187, 0x03, 1, .octet, 1024, .wo, .none, (some .configure), 0, 0, .zeros, .computed, 0⟩
/-- `tile.eph.push_add` (R294) -/
def eph_push_add : Entry := ⟨.tile, 0x187, 0x04, 1, .action, 0, .ex, .none, (some .configure), 0, 0, .zeros, .computed, 0⟩
/-- `tile.eph.push_start` (R294) -/
def eph_push_start : Entry := ⟨.tile, 0x187, 0x05, 1, .action, 0, .ex, .none, (some .configure), 0, 0, .zeros, .computed, 0⟩
/-- `tile.eph.push_pause` (R294) -/
def eph_push_pause : Entry := ⟨.tile, 0x187, 0x06, 1, .action, 0, .ex, .none, (some .configure), 0, 0, .zeros, .computed, 0⟩
/-- `tile.eph.push_activate` (R294) -/
def eph_push_activate : Entry := ⟨.tile, 0x187, 0x07, 1, .action, 0, .ex, .none, (some .configure), 0, 0, .zeros, .computed, 0⟩
/-- `tile.eph.push_cancel` (R294) -/
def eph_push_cancel : Entry := ⟨.tile, 0x187, 0x08, 1, .action, 0, .ex, .none, (some .configure), 0, 0, .zeros, .computed, 0⟩
/-- `tile.eph.push_state` (R294) -/
def eph_push_state : Entry := ⟨.tile, 0x187, 0x09, 1, .u8, 1, .ro, (some .view), .none, 0, 0, .num 0, .stored, 9⟩
/-- `tile.eph.push_descriptor` (R294) -/
def eph_push_descriptor : Entry := ⟨.tile, 0x187, 0x0A, 1, .octet, 96, .ro, (some .view), .none, 0, 0, .zeros, .stored, 9⟩
/-- `tile.eph.push_add_refused` (R294) -/
def eph_push_add_refused : Entry := ⟨.tile, 0x187, 0x0B, 1, .u32, 4, .rc, (some .view), .none, 0, 0, .num 0, .powerOn, 0⟩
/-- `tile.eph.bcast_ic` (R294) -/
def eph_bcast_ic : Entry := ⟨.tile, 0x187, 0x0C, 1, .u32, 4, .ro, (some .view), .none, 0, 0, .num 0, .stored, 1⟩
/-- `tile.eph.push_counts` (R294) -/
def eph_push_counts : Entry := ⟨.tile, 0x188, 0x00, 10, .u32, 4, .ro, (some .view), .none, 0, 0, .num 0, .computed, 0⟩
/-- `tile.eph.push_fail` (R294) -/
def eph_push_fail : Entry := ⟨.tile, 0x189, 0x00, 6, .u32, 4, .rc, (some .view), .none, 0, 0, .num 0, .powerOn, 0⟩
/-- `tile.plc.band` (R337) -/
def plc_band : Entry := ⟨.tile, 0x1C0, 0x00, 1, .u8, 1, .rws, (some .view), (some .configure), 0, 1, .num 0, .stored, 25⟩
/-- `tile.plc.framing` (R337) -/
def plc_framing : Entry := ⟨.tile, 0x1C0, 0x01, 1, .u8, 1, .rws, (some .view), (some .configure), 0, 1, .num 0, .stored, 9⟩
/-- `tile.plc.pan_id` (R337) -/
def plc_pan_id : Entry := ⟨.tile, 0x1C0, 0x02, 1, .u16, 2, .rws, (some .view), (some .configure), 0, 65535, .num 65535, .stored, 9⟩
/-- `tile.plc.tx_level` (R337) -/
def plc_tx_level : Entry := ⟨.tile, 0x1C0, 0x03, 1, .u8, 1, .rws, (some .view), (some .configure), 0, 30, .num 6, .stored, 9⟩
/-- `tile.plc.txen_lead_us` (R337) -/
def plc_txen_lead_us : Entry := ⟨.tile, 0x1C0, 0x04, 1, .u8, 1, .rws, (some .view), (some .configure), 0, 200, .num 20, .stored, 9⟩
/-- `tile.plc.psel_mode` (R337) -/
def plc_psel_mode : Entry := ⟨.tile, 0x1C0, 0x05, 1, .u8, 1, .rws, (some .view), (some .configure), 0, 1, .num 1, .stored, 9⟩
/-- `tile.plc.psel_fixed` (R337) -/
def plc_psel_fixed : Entry := ⟨.tile, 0x1C0, 0x06, 1, .u8, 1, .rws, (some .view), (some .configure), 0, 3, .num 3, .stored, 9⟩
/-- `tile.plc.psel_conf_min` (R337) -/
def plc_psel_conf_min : Entry := ⟨.tile, 0x1C0, 0x07, 1, .u8, 1, .rws, (some .view), (some .configure), 0, 255, .num 160, .stored, 9⟩
/-- `tile.plc.zc_delay_us` (R337) -/
def plc_zc_delay_us : Entry := ⟨.tile, 0x1C0, 0x08, 1, .i16, 2, .rws, (some .view), (some .configure), (-2000), 2000, .num 0, .stored, 9⟩
/-- `tile.plc.zc_state` (R337) -/
def plc_zc_state : Entry := ⟨.tile, 0x1C0, 0x09, 1, .u8, 1, .ro, (some .view), .none, 0, 0, .num 0, .both, 0⟩
/-- `tile.plc.mains_period_us` (R337) -/
def plc_mains_period_us : Entry := ⟨.tile, 0x1C0, 0x0A, 1, .u32, 4, .ro, (some .view), .none, 0, 0, .num 0, .both, 0⟩
/-- `tile.plc.repeater_table` (R337) -/
def plc_repeater_table : Entry := ⟨.tile, 0x1C0, 0x0B, 1, .octet, 2048, .rws, (some .view), (some .configure), 0, 0, .zeros, .stored, 9⟩
/-- `tile.plc.mode` (R337) -/
def plc_mode : Entry := ⟨.tile, 0x1C1, 0x00, 1, .u8, 1, .rws, (some .view), (some .configure), 0, 2, .num 0, .stored, 9⟩
/-- `tile.plc.mode_now` (R337) -/
def plc_mode_now : Entry := ⟨.tile, 0x1C1, 0x01, 1, .u8, 1, .ro, (some .view), .none, 0, 0, .num 0, .both, 0⟩
/-- `tile.plc.poll_cycle_s` (R337) -/
def plc_poll_cycle_s : Entry := ⟨.tile, 0x1C1, 0x02, 1, .u16, 2, .rws, (some .view), (some .configure), 60, 3600, .num 900, .stored, 9⟩
/-- `tile.plc.slot_ms` (R337) -/
def plc_slot_ms : Entry := ⟨.tile, 0x1C1, 0x03, 1, .u16, 2, .rws, (some .view), (some .configure), 0, 2000, .num 0, .stored, 9⟩
/-- `tile.plc.join_share` (R337) -/
def plc_join_share : Entry := ⟨.tile, 0x1C1, 0x04, 1, .u16, 2, .rws, (some .view), (some .configure), 5, 200, .num 20, .stored, 9⟩
/-- `tile.plc.beacon_period_s` (R337) -/
def plc_beacon_period_s : Entry := ⟨.tile, 0x1C1, 0x05, 1, .u16, 2, .rws, (some .view), (some .configure), 5, 300, .num 15, .stored, 9⟩
/-- `tile.plc.poll_delay_s` (R337) -/
def plc_poll_delay_s : Entry := ⟨.tile, 0x1C1, 0x06, 1, .u16, 2, .rws, (some .view), (some .configure), 0, 600, .num 60, .stored, 9⟩
/-- `tile.plc.pull_after_s` (R337) -/
def plc_pull_after_s : Entry := ⟨.tile, 0x1C1, 0x07, 1, .u32, 4, .rws, (some .view), (some .configure), 0, 86400, .num 300, .stored, 9⟩
/-- `tile.plc.rows_per_request` (R337) -/
def plc_rows_per_request : Entry := ⟨.tile, 0x1C1, 0x08, 1, .u8, 1, .rws, (some .view), (some .configure), 1, 96, .num 8, .stored, 9⟩
/-- `tile.plc.fill_holes` (R337) -/
def plc_fill_holes : Entry := ⟨.tile, 0x1C1, 0x09, 1, .bool, 1, .rws, (some .view), (some .configure), 0, 1, .num 1, .stored, 9⟩
/-- `tile.plc.switch_fail_pm` (R337) -/
def plc_switch_fail_pm : Entry := ⟨.tile, 0x1C1, 0x0A, 1, .u16, 2, .rws, (some .view), (some .configure), 10, 1000, .num 100, .stored, 9⟩
/-- `tile.plc.joined` (R337) -/
def plc_joined : Entry := ⟨.tile, 0x1C1, 0x0B, 1, .u16, 2, .ro, (some .view), .none, 0, 0, .num 0, .both, 0⟩
/-- `tile.plc.mode_switches` (R337) -/
def plc_mode_switches : Entry := ⟨.tile, 0x1C1, 0x0C, 1, .u32, 4, .rc, (some .view), .none, 0, 0, .num 0, .powerOn, 0⟩
/-- `tile.plc.schedule_overrun` (R337) -/
def plc_schedule_overrun : Entry := ⟨.tile, 0x1C1, 0x0D, 1, .u32, 4, .rc, (some .view), .none, 0, 0, .num 0, .powerOn, 0⟩
/-- `tile.plc.unsolicited` (R337) -/
def plc_unsolicited : Entry := ⟨.tile, 0x1C1, 0x0E, 1, .u32, 4, .rc, (some .view), .none, 0, 0, .num 0, .powerOn, 0⟩
/-- `tile.plc.join_refused` (R337) -/
def plc_join_refused : Entry := ⟨.tile, 0x1C1, 0x0F, 1, .u32, 4, .rc, (some .view), .none, 0, 0, .num 0, .powerOn, 0⟩
/-- `tile.plc.narrowed` (R337) -/
def plc_narrowed : Entry := ⟨.tile, 0x1C1, 0x10, 1, .u32, 4, .rc, (some .view), .none, 0, 0, .num 0, .powerOn, 0⟩
/-- `tile.plc.push_airtime_pm` (R337) -/
def plc_push_airtime_pm : Entry := ⟨.tile, 0x1C1, 0x11, 1, .u16, 2, .ro, (some .view), .none, 0, 0, .num 0, .both, 0⟩
/-- `tile.plc.beacon_seq` (R337) -/
def plc_beacon_seq : Entry := ⟨.tile, 0x1C1, 0x12, 1, .u8, 1, .ro, (some .view), .none, 0, 0, .num 0, .both, 0⟩
/-- `tile.plc.ext_enable` (R337) -/
def plc_ext_enable : Entry := ⟨.tile, 0x1C2, 0x00, 1, .bool, 1, .rws, (some .view), (some .configure), 0, 1, .num 1, .stored, 9⟩
/-- `tile.plc.ext_peers` (R337) -/
def plc_ext_peers : Entry := ⟨.tile, 0x1C2, 0x01, 1, .u16, 2, .ro, (some .view), .none, 0, 0, .num 0, .both, 0⟩
/-- `tile.plc.map_window` (R337) -/
def plc_map_window : Entry := ⟨.tile, 0x1C2, 0x02, 1, .u8, 1, .rws, (some .view), (some .configure), 4, 64, .num 16, .stored, 9⟩
/-- `tile.plc.snr_thr` (R337) -/
def plc_snr_thr : Entry := ⟨.tile, 0x1C2, 0x03, 4, .u8, 1, .rws, (some .view), (some .configure), 0, 40, .nums [1, 5, 9, 14], .stored, 9⟩
/-- `tile.plc.map_hyst_pm` (R337) -/
def plc_map_hyst_pm : Entry := ⟨.tile, 0x1C2, 0x07, 1, .u16, 2, .rws, (some .view), (some .configure), 0, 1000, .num 200, .stored, 9⟩
/-- `tile.plc.map_refresh_s` (R337) -/
def plc_map_refresh_s : Entry := ⟨.tile, 0x1C2, 0x08, 1, .u16, 2, .rws, (some .view), (some .configure), 60, 3600, .num 600, .stored, 9⟩
/-- `tile.plc.msid_unknown` (R337) -/
def plc_msid_unknown : Entry := ⟨.tile, 0x1C2, 0x09, 1, .u32, 4, .rc, (some .view), .none, 0, 0, .num 0, .powerOn, 0⟩
/-- `tile.plc.sh_crc_fail` (R337) -/
def plc_sh_crc_fail : Entry := ⟨.tile, 0x1C2, 0x0A, 1, .u32, 4, .rc, (some .view), .none, 0, 0, .num 0, .powerOn, 0⟩
/-- `tile.plc.map_rsp_bad` (R337) -/
def plc_map_rsp_bad : Entry := ⟨.tile, 0x1C2, 0x0B, 1, .u32, 4, .rc, (some .view), .none, 0, 0, .num 0, .powerOn, 0⟩
/-- `tile.plc.blank_k` (R337) -/
def plc_blank_k : Entry := ⟨.tile, 0x1C3, 0x00, 1, .u8, 1, .rws, (some .view), (some .configure), 0, 100, .num 40, .stored, 9⟩
/-- `tile.plc.blank_window` (R337) -/
def plc_blank_window : Entry := ⟨.tile, 0x1C3, 0x01, 1, .u16, 2, .rws, (some .view), (some .configure), 64, 4096, .num 256, .stored, 9⟩
/-- `tile.plc.blank_guard` (R337) -/
def plc_blank_guard : Entry := ⟨.tile, 0x1C3, 0x02, 1, .u8, 1, .rws, (some .view), (some .configure), 0, 16, .num 2, .stored, 9⟩
/-- `tile.plc.blanked_samples` (R337) -/
def plc_blanked_samples : Entry := ⟨.tile, 0x1C3, 0x03, 1, .u64, 8, .ro, (some .view), .none, 0, 0, .num 0, .both, 0⟩
/-- `tile.plc.blank_events` (R337) -/
def plc_blank_events : Entry := ⟨.tile, 0x1C3, 0x04, 1, .u64, 8, .ro, (some .view), .none, 0, 0, .num 0, .both, 0⟩
/-- `tile.plc.erased_symbols` (R337) -/
def plc_erased_symbols : Entry := ⟨.tile, 0x1C3, 0x05, 1, .u64, 8, .ro, (some .view), .none, 0, 0, .num 0, .both, 0⟩
/-- `tile.plc.phase_bias` (R337) -/
def plc_phase_bias : Entry := ⟨.tile, 0x1C4, 0x00, 1, .i16, 2, .rws, (some .view), (some .configure), (-1800), 1799, .num 0, .stored, 9⟩
/-- `tile.plc.phase_window` (R337) -/
def plc_phase_window : Entry := ⟨.tile, 0x1C4, 0x01, 1, .u8, 1, .rws, (some .view), (some .configure), 4, 64, .num 16, .stored, 9⟩
/-- `tile.plc.phase_query_h` (R337) -/
def plc_phase_query_h : Entry := ⟨.tile, 0x1C4, 0x02, 1, .u8, 1, .rws, (some .view), (some .configure), 1, 168, .num 24, .stored, 9⟩
/-- `tile.plc.phase_updates` (R337) -/
def plc_phase_updates : Entry := ⟨.tile, 0x1C4, 0x03, 1, .u32, 4, .rc, (some .view), .none, 0, 0, .num 0, .powerOn, 0⟩
/-- `tile.plc.phase_conflicts` (R337) -/
def plc_phase_conflicts : Entry := ⟨.tile, 0x1C4, 0x04, 1, .u32, 4, .rc, (some .view), .none, 0, 0, .num 0, .powerOn, 0⟩
/-- `tile.plc.max_hops` (R337) -/
def plc_max_hops : Entry := ⟨.tile, 0x1C5, 0x00, 1, .u8, 1, .rws, (some .view), (some .configure), 1, 15, .num 8, .stored, 9⟩
/-- `tile.plc.reroute_margin_pm` (R337) -/
def plc_reroute_margin_pm : Entry := ⟨.tile, 0x1C5, 0x01, 1, .u16, 2, .rws, (some .view), (some .configure), 0, 1000, .num 200, .stored, 9⟩
/-- `tile.plc.prefer_lifetime_min` (R337) -/
def plc_prefer_lifetime_min : Entry := ⟨.tile, 0x1C5, 0x02, 1, .u16, 2, .rws, (some .view), (some .configure), 10, 1440, .num 240, .stored, 9⟩
/-- `tile.plc.route_select` (R337) -/
def plc_route_select : Entry := ⟨.tile, 0x1C5, 0x03, 1, .u32, 4, .rw, (some .view), (some .configure), 0, 4294967295, .num 0, .perSession, 64⟩
/-- `tile.plc.route` (R337) -/
def plc_route : Entry := ⟨.tile, 0x1C5, 0x04, 1, .octet, 128, .ro, (some .view), .none, 0, 0, .zeros, .computed, 0⟩
/-- `tile.plc.route_discoveries` (R337) -/
def plc_route_discoveries : Entry := ⟨.tile, 0x1C5, 0x05, 1, .u32, 4, .rc, (some .view), .none, 0, 0, .num 0, .powerOn, 0⟩
/-- `tile.plc.prefer_sent` (R337) -/
def plc_prefer_sent : Entry := ⟨.tile, 0x1C5, 0x06, 1, .u32, 4, .rc, (some .view), .none, 0, 0, .num 0, .powerOn, 0⟩
/-- `tile.plc.chg_threshold` (R337) -/
def plc_chg_threshold : Entry := ⟨.tile, 0x1C5, 0x07, 1, .u16, 2, .rws, (some .view), (some .configure), 16, 65535, .num 400, .stored, 9⟩
/-- `tile.plc.frames_tx` (R337) -/
def plc_frames_tx : Entry := ⟨.tile, 0x1C6, 0x00, 1, .u64, 8, .ro, (some .view), .none, 0, 0, .num 0, .both, 0⟩
/-- `tile.plc.frames_rx` (R337) -/
def plc_frames_rx : Entry := ⟨.tile, 0x1C6, 0x01, 1, .u64, 8, .ro, (some .view), .none, 0, 0, .num 0, .both, 0⟩
/-- `tile.plc.csma_fail` (R337) -/
def plc_csma_fail : Entry := ⟨.tile, 0x1C6, 0x02, 1, .u32, 4, .rc, (some .view), .none, 0, 0, .num 0, .powerOn, 0⟩
/-- `tile.plc.mac_sec_fail` (R337) -/
def plc_mac_sec_fail : Entry := ⟨.tile, 0x1C6, 0x03, 1, .u32, 4, .rc, (some .view), .none, 0, 0, .num 0, .powerOn, 0⟩
/-- `tile.plc.tx_held` (R337) -/
def plc_tx_held : Entry := ⟨.tile, 0x1C6, 0x04, 1, .u32, 4, .rc, (some .view), .none, 0, 0, .num 0, .powerOn, 0⟩
/-- `tile.rf.regime` (R363) -/
def rf_regime : Entry := ⟨.tile, 0x200, 0x00, 1, .u8, 1, .rws, (some .view), (some .configure), 0, 5, .num 0, .stored, 25⟩
/-- `tile.rf.rate` (R363) -/
def rf_rate : Entry := ⟨.tile, 0x200, 0x01, 1, .u8, 1, .rws, (some .view), (some .configure), 0, 3, .num 1, .stored, 25⟩
/-- `tile.rf.custom_grid` (R363) -/
def rf_custom_grid : Entry := ⟨.tile, 0x200, 0x02, 1, .octet, 8, .rws, (some .view), (some .configure), 0, 0, .zeros, .stored, 9⟩
/-- `tile.rf.rx_base_channel` (R363) -/
def rf_rx_base_channel : Entry := ⟨.tile, 0x200, 0x03, 1, .u8, 1, .rws, (some .view), (some .configure), 0, 255, .num 27, .stored, 9⟩
/-- `tile.rf.preamble_octets` (R363) -/
def rf_preamble_octets : Entry := ⟨.tile, 0x200, 0x04, 1, .u8, 1, .rws, (some .view), (some .configure), 4, 64, .num 8, .stored, 9⟩
/-- `tile.rf.tx_power` (R363) -/
def rf_tx_power : Entry := ⟨.tile, 0x200, 0x05, 1, .i8, 1, .rws, (some .view), (some .configure), (-10), 14, .num 0, .stored, 9⟩
/-- `tile.rf.pa_lead_us` (R363) -/
def rf_pa_lead_us : Entry := ⟨.tile, 0x200, 0x06, 1, .u8, 1, .rws, (some .view), (some .configure), 0, 100, .num 10, .stored, 9⟩
/-- `tile.rf.pan_id` (R363) -/
def rf_pan_id : Entry := ⟨.tile, 0x201, 0x00, 1, .u16, 2, .rws, (some .view), (some .configure), 0, 65535, .num 65535, .stored, 9⟩
/-- `tile.rf.eui64` (R363) -/
def rf_eui64 : Entry := ⟨.tile, 0x201, 0x01, 1, .u64, 8, .rws, (some .view), (some .configure), 0, 18446744073709551615, .num 0, .stored, 9⟩
/-- `tile.rf.sec_level` (R363) -/
def rf_sec_level : Entry := ⟨.tile, 0x201, 0x02, 1, .u8, 1, .rws, (some .view), (some .configure), 5, 7, .num 5, .stored, 9⟩
/-- `tile.rf.fc_down` (R363) -/
def rf_fc_down : Entry := ⟨.tile, 0x201, 0x03, 1, .u32, 4, .ro, (some .view), .none, 0, 0, .num 0, .stored, 1⟩
/-- `tile.rf.sleepy_hold_s` (R363) -/
def rf_sleepy_hold_s : Entry := ⟨.tile, 0x202, 0x00, 1, .u32, 4, .rws, (some .view), (some .configure), 60, 86400, .num 3600, .stored, 9⟩
/-- `tile.rf.pending_ttl_s` (R363) -/
def rf_pending_ttl_s : Entry := ⟨.tile, 0x202, 0x01, 1, .u32, 4, .rws, (some .view), (some .configure), 10, 86400, .num 3600, .stored, 9⟩
/-- `tile.rf.pull_after_s` (R363) -/
def rf_pull_after_s : Entry := ⟨.tile, 0x202, 0x02, 1, .u32, 4, .rws, (some .view), (some .configure), 0, 86400, .num 300, .stored, 9⟩
/-- `tile.rf.rows_per_request` (R363) -/
def rf_rows_per_request : Entry := ⟨.tile, 0x202, 0x03, 1, .u8, 1, .rws, (some .view), (some .configure), 1, 96, .num 8, .stored, 9⟩
/-- `tile.rf.fill_holes` (R363) -/
def rf_fill_holes : Entry := ⟨.tile, 0x202, 0x04, 1, .bool, 1, .rws, (some .view), (some .configure), 0, 1, .num 1, .stored, 9⟩
/-- `tile.rf.neighbours` (R363) -/
def rf_neighbours : Entry := ⟨.tile, 0x202, 0x05, 1, .u16, 2, .ro, (some .view), .none, 0, 0, .num 0, .both, 0⟩
/-- `tile.rf.sleepy` (R363) -/
def rf_sleepy : Entry := ⟨.tile, 0x202, 0x06, 1, .u16, 2, .ro, (some .view), .none, 0, 0, .num 0, .both, 0⟩
/-- `tile.rf.pending` (R363) -/
def rf_pending : Entry := ⟨.tile, 0x202, 0x07, 1, .u16, 2, .ro, (some .view), .none, 0, 0, .num 0, .both, 0⟩
/-- `tile.rf.duty_band` (R363) -/
def rf_duty_band : Entry := ⟨.tile, 0x203, 0x00, 4, .octet, 12, .rws, (some .view), (some .configure), 0, 0, .rows [[24, 43, 13, 0, 160, 62, 13, 0, 100, 0, 1, 0], [160, 62, 13, 0, 248, 64, 13, 0, 100, 0, 1, 0], [92, 65, 13, 0, 80, 67, 13, 0, 10, 0, 1, 0], [24, 68, 13, 0, 18, 69, 13, 0, 232, 3, 1, 0]], .stored, 9⟩
/-- `tile.rf.duty_used_ms` (R363) -/
def rf_duty_used_ms : Entry := ⟨.tile, 0x203, 0x04, 4, .u32, 4, .ro, (some .view), .none, 0, 0, .num 0, .both, 0⟩
/-- `tile.rf.express_reserve_pm` (R363) -/
def rf_express_reserve_pm : Entry := ⟨.tile, 0x203, 0x08, 1, .u16, 2, .rws, (some .view), (some .configure), 0, 500, .num 100, .stored, 9⟩
/-- `tile.rf.dwell_enable` (R363) -/
def rf_dwell_enable : Entry := ⟨.tile, 0x204, 0x00, 1, .bool, 1, .rws, (some .view), (some .configure), 0, 1, .num 0, .stored, 9⟩
/-- `tile.rf.dwell_ms` (R363) -/
def rf_dwell_ms : Entry := ⟨.tile, 0x204, 0x01, 1, .u16, 2, .rws, (some .view), (some .configure), 10, 60000, .num 400, .stored, 9⟩
/-- `tile.rf.dwell_window_s` (R363) -/
def rf_dwell_window_s : Entry := ⟨.tile, 0x204, 0x02, 1, .u8, 1, .rws, (some .view), (some .configure), 1, 60, .num 20, .stored, 9⟩
/-- `tile.rf.frames_tx` (R363) -/
def rf_frames_tx : Entry := ⟨.tile, 0x205, 0x00, 1, .u64, 8, .ro, (some .view), .none, 0, 0, .num 0, .both, 0⟩
/-- `tile.rf.frames_rx` (R363) -/
def rf_frames_rx : Entry := ⟨.tile, 0x205, 0x01, 1, .u64, 8, .ro, (some .view), .none, 0, 0, .num 0, .both, 0⟩
/-- `tile.rf.polls` (R363) -/
def rf_polls : Entry := ⟨.tile, 0x205, 0x02, 1, .u64, 8, .ro, (some .view), .none, 0, 0, .num 0, .both, 0⟩
/-- `tile.rf.airtime_ms` (R363) -/
def rf_airtime_ms : Entry := ⟨.tile, 0x205, 0x03, 1, .u64, 8, .ro, (some .view), .none, 0, 0, .num 0, .both, 0⟩
/-- `tile.rf.rx_discard` (R363) -/
def rf_rx_discard : Entry := ⟨.tile, 0x206, 0x00, 1, .u32, 4, .rc, (some .view), .none, 0, 0, .num 0, .powerOn, 0⟩
/-- `tile.rf.poll_refused` (R363) -/
def rf_poll_refused : Entry := ⟨.tile, 0x206, 0x01, 1, .u32, 4, .rc, (some .view), .none, 0, 0, .num 0, .powerOn, 0⟩
/-- `tile.rf.poll_missed` (R363) -/
def rf_poll_missed : Entry := ⟨.tile, 0x206, 0x02, 1, .u32, 4, .rc, (some .view), .none, 0, 0, .num 0, .powerOn, 0⟩
/-- `tile.rf.pending_dropped` (R363) -/
def rf_pending_dropped : Entry := ⟨.tile, 0x206, 0x03, 1, .u32, 4, .rc, (some .view), .none, 0, 0, .num 0, .powerOn, 0⟩
/-- `tile.rf.pending_expired` (R363) -/
def rf_pending_expired : Entry := ⟨.tile, 0x206, 0x04, 1, .u32, 4, .rc, (some .view), .none, 0, 0, .num 0, .powerOn, 0⟩
/-- `tile.rf.duty_held` (R363) -/
def rf_duty_held : Entry := ⟨.tile, 0x206, 0x05, 1, .u32, 4, .rc, (some .view), .none, 0, 0, .num 0, .powerOn, 0⟩
/-- `tile.rf.dwell_held` (R363) -/
def rf_dwell_held : Entry := ⟨.tile, 0x206, 0x06, 1, .u32, 4, .rc, (some .view), .none, 0, 0, .num 0, .powerOn, 0⟩
/-- `tile.rf.csma_fail` (R363) -/
def rf_csma_fail : Entry := ⟨.tile, 0x206, 0x07, 1, .u32, 4, .rc, (some .view), .none, 0, 0, .num 0, .powerOn, 0⟩
/-- `tile.rf.tx_cut` (R363) -/
def rf_tx_cut : Entry := ⟨.tile, 0x206, 0x08, 1, .u32, 4, .rc, (some .view), .none, 0, 0, .num 0, .powerOn, 0⟩
/-- `tile.sw.port_speed` (R389) -/
def sw_port_speed : Entry := ⟨.tile, 0x220, 0x00, 2, .u8, 1, .rws, (some .view), (some .configure), 0, 1, .num 0, .stored, 9⟩
/-- `tile.sw.port_state` (R389) -/
def sw_port_state : Entry := ⟨.tile, 0x220, 0x02, 2, .u8, 1, .ro, (some .view), .none, 0, 0, .num 0, .both, 0⟩
/-- `tile.sw.link_hold_ms` (R389) -/
def sw_link_hold_ms : Entry := ⟨.tile, 0x220, 0x04, 1, .u16, 2, .rws, (some .view), (some .configure), 0, 1000, .num 50, .stored, 9⟩
/-- `tile.sw.vlan` (R389) -/
def sw_vlan : Entry := ⟨.tile, 0x220, 0x05, 1, .u16, 2, .rws, (some .view), (some .configure), 0, 4094, .num 0, .stored, 9⟩
/-- `tile.sw.port_disable` (R389) -/
def sw_port_disable : Entry := ⟨.tile, 0x220, 0x06, 2, .bool, 1, .rw, (some .view), (some .configure), 0, 1, .num 0, .plain, 0⟩
/-- `tile.sw.class_weight` (R389) -/
def sw_class_weight : Entry := ⟨.tile, 0x221, 0x00, 3, .u8, 1, .rws, (some .view), (some .configure), 1, 64, .nums [4, 8, 2], .stored, 9⟩
/-- `tile.sw.reserve_cells` (R389) -/
def sw_reserve_cells : Entry := ⟨.tile, 0x221, 0x03, 1, .u16, 2, .rws, (some .view), (some .configure), 32, 768, .num 256, .stored, 25⟩
/-- `tile.sw.shared_max` (R389) -/
def sw_shared_max : Entry := ⟨.tile, 0x221, 0x04, 1, .u16, 2, .rws, (some .view), (some .configure), 64, 8192, .num 4096, .stored, 9⟩
/-- `tile.sw.pool_free` (R389) -/
def sw_pool_free : Entry := ⟨.tile, 0x221, 0x05, 1, .u16, 2, .ro, (some .view), .none, 0, 0, .num 0, .computed, 0⟩
/-- `tile.sw.credits` (R389) -/
def sw_credits : Entry := ⟨.tile, 0x222, 0x00, 8, .u16, 2, .ro, (some .view), .none, 0, 0, .num 0, .computed, 0⟩
/-- `tile.sw.credit_faults` (R389) -/
def sw_credit_faults : Entry := ⟨.tile, 0x222, 0x08, 8, .u32, 4, .rc, (some .view), .none, 0, 0, .num 0, .powerOn, 0⟩
/-- `tile.sw.sample_n` (R389) -/
def sw_sample_n : Entry := ⟨.tile, 0x223, 0x00, 1, .u16, 2, .rws, (some .view), (some .configure), 0, 65535, .num 0, .stored, 9⟩
/-- `tile.sw.sample_ports` (R389) -/
def sw_sample_ports : Entry := ⟨.tile, 0x223, 0x01, 1, .u8, 1, .rws, (some .view), (some .configure), 0, 255, .num 3, .stored, 9⟩
/-- `tile.sw.sample_read` (R389) -/
def sw_sample_read : Entry := ⟨.tile, 0x223, 0x02, 1, .octet, 144, .ro, (some .view), .none, 0, 0, .zeros, .computed, 4⟩
/-- `tile.sw.sample_lost` (R389) -/
def sw_sample_lost : Entry := ⟨.tile, 0x223, 0x03, 1, .u32, 4, .rc, (some .view), .none, 0, 0, .num 0, .powerOn, 0⟩
/-- `tile.sw.link_epoch` (R389) -/
def sw_link_epoch : Entry := ⟨.tile, 0x224, 0x00, 1, .u32, 4, .ro, (some .view), .none, 0, 0, .num 0, .stored, 1⟩
/-- `tile.sw.keepalive_ms` (R389) -/
def sw_keepalive_ms : Entry := ⟨.tile, 0x224, 0x01, 1, .u16, 2, .rws, (some .view), (some .configure), 20, 1000, .num 100, .stored, 9⟩
/-- `tile.sw.sat_dead_ms` (R389) -/
def sw_sat_dead_ms : Entry := ⟨.tile, 0x224, 0x02, 1, .u16, 2, .rws, (some .view), (some .configure), 100, 10000, .num 1000, .stored, 9⟩
/-- `tile.sw.verify_ms` (R389) -/
def sw_verify_ms : Entry := ⟨.tile, 0x224, 0x03, 1, .u16, 2, .rws, (some .view), (some .configure), 10, 1000, .num 200, .stored, 9⟩
/-- `tile.sw.sessions` (R389) -/
def sw_sessions : Entry := ⟨.tile, 0x224, 0x04, 1, .u16, 2, .ro, (some .view), .none, 0, 0, .num 0, .both, 0⟩
/-- `tile.sw.session_select` (R389) -/
def sw_session_select : Entry := ⟨.tile, 0x224, 0x05, 1, .u16, 2, .rw, (some .view), (some .configure), 0, 1023, .num 0, .perSession, 64⟩
/-- `tile.sw.session_status` (R389) -/
def sw_session_status : Entry := ⟨.tile, 0x224, 0x06, 1, .octet, 96, .ro, (some .view), .none, 0, 0, .zeros, .computed, 0⟩
/-- `tile.sw.session_reset` (R389) -/
def sw_session_reset : Entry := ⟨.tile, 0x224, 0x07, 1, .action, 0, .ex, .none, (some .configure), 0, 0, .zeros, .computed, 0⟩
/-- `tile.sw.frames_in` (R389) -/
def sw_frames_in : Entry := ⟨.tile, 0x225, 0x00, 8, .u64, 8, .ro, (some .view), .none, 0, 0, .num 0, .both, 0⟩
/-- `tile.sw.frames_out` (R389) -/
def sw_frames_out : Entry := ⟨.tile, 0x226, 0x00, 8, .u64, 8, .ro, (some .view), .none, 0, 0, .num 0, .both, 0⟩
/-- `tile.sw.bytes_in` (R389) -/
def sw_bytes_in : Entry := ⟨.tile, 0x227, 0x00, 8, .u64, 8, .ro, (some .view), .none, 0, 0, .num 0, .both, 0⟩
/-- `tile.sw.bytes_out` (R389) -/
def sw_bytes_out : Entry := ⟨.tile, 0x228, 0x00, 8, .u64, 8, .ro, (some .view), .none, 0, 0, .num 0, .both, 0⟩
/-- `tile.sw.drop_buffer` (R389) -/
def sw_drop_buffer : Entry := ⟨.tile, 0x229, 0x00, 32, .u32, 4, .rc, (some .view), .none, 0, 0, .num 0, .powerOn, 0⟩
/-- `tile.sw.flushed` (R389) -/
def sw_flushed : Entry := ⟨.tile, 0x22A, 0x00, 32, .u32, 4, .rc, (some .view), .none, 0, 0, .num 0, .powerOn, 0⟩
/-- `tile.sw.drop_port_down` (R389) -/
def sw_drop_port_down : Entry := ⟨.tile, 0x22B, 0x00, 8, .u32, 4, .rc, (some .view), .none, 0, 0, .num 0, .powerOn, 0⟩
/-- `tile.sw.stale_discard` (R389) -/
def sw_stale_discard : Entry := ⟨.tile, 0x22B, 0x08, 4, .u32, 4, .rc, (some .view), .none, 0, 0, .num 0, .powerOn, 0⟩
/-- `tile.sw.express_drop` (R389) -/
def sw_express_drop : Entry := ⟨.tile, 0x22C, 0x00, 1, .u32, 4, .rc, (some .view), .none, 0, 0, .num 0, .powerOn, 0⟩
/-- `tile.sw.express_demoted` (R389) -/
def sw_express_demoted : Entry := ⟨.tile, 0x22C, 0x01, 1, .u32, 4, .rc, (some .view), .none, 0, 0, .num 0, .powerOn, 0⟩
/-- `tile.sw.hold_events` (R389) -/
def sw_hold_events : Entry := ⟨.tile, 0x22C, 0x02, 2, .u32, 4, .rc, (some .view), .none, 0, 0, .num 0, .powerOn, 0⟩
/-- `tile.sw.port_downs` (R389) -/
def sw_port_downs : Entry := ⟨.tile, 0x22C, 0x04, 2, .u32, 4, .rc, (some .view), .none, 0, 0, .num 0, .powerOn, 0⟩
/-- `tile.sw.fcs_errors` (R389) -/
def sw_fcs_errors : Entry := ⟨.tile, 0x22C, 0x06, 2, .u32, 4, .rc, (some .view), .none, 0, 0, .num 0, .powerOn, 0⟩
/-- `tile.sw.rx_unknown` (R389) -/
def sw_rx_unknown : Entry := ⟨.tile, 0x22C, 0x08, 1, .u32, 4, .rc, (some .view), .none, 0, 0, .num 0, .powerOn, 0⟩
/-- `tile.sw.handshakes` (R389) -/
def sw_handshakes : Entry := ⟨.tile, 0x22D, 0x00, 1, .u32, 4, .rc, (some .view), .none, 0, 0, .num 0, .powerOn, 0⟩
/-- `tile.sw.handshake_fail` (R389) -/
def sw_handshake_fail : Entry := ⟨.tile, 0x22D, 0x01, 1, .u32, 4, .rc, (some .view), .none, 0, 0, .num 0, .powerOn, 0⟩
/-- `tile.sw.resumes` (R389) -/
def sw_resumes : Entry := ⟨.tile, 0x22D, 0x02, 1, .u32, 4, .rc, (some .view), .none, 0, 0, .num 0, .powerOn, 0⟩
/-- `tile.sw.resume_fail` (R389) -/
def sw_resume_fail : Entry := ⟨.tile, 0x22D, 0x03, 1, .u32, 4, .rc, (some .view), .none, 0, 0, .num 0, .powerOn, 0⟩
/-- `tile.sw.link_auth_fail` (R389) -/
def sw_link_auth_fail : Entry := ⟨.tile, 0x22D, 0x04, 1, .u32, 4, .rc, (some .view), .none, 0, 0, .num 0, .powerOn, 0⟩
/-- `tile.sw.no_session` (R389) -/
def sw_no_session : Entry := ⟨.tile, 0x22D, 0x05, 1, .u32, 4, .rc, (some .view), .none, 0, 0, .num 0, .powerOn, 0⟩
/-- `tile.sw.down_rsp_dropped` (R389) -/
def sw_down_rsp_dropped : Entry := ⟨.tile, 0x22D, 0x06, 1, .u32, 4, .rc, (some .view), .none, 0, 0, .num 0, .powerOn, 0⟩
/-- `tile.time.state` (R446) -/
def time_state : Entry := ⟨.tile, 0x260, 0x00, 1, .u8, 1, .ro, (some .view), .none, 0, 0, .num 0, .both, 0⟩
/-- `tile.time.source_now` (R446) -/
def time_source_now : Entry := ⟨.tile, 0x260, 0x01, 1, .u8, 1, .ro, (some .view), .none, 0, 0, .num 0, .both, 0⟩
/-- `tile.time.now` (R446) -/
def time_now : Entry := ⟨.tile, 0x260, 0x02, 1, .time80, 10, .ro, (some .view), .none, 0, 0, .num 0, .computed, 0⟩
/-- `tile.time.offset_ns` (R446) -/
def time_offset_ns : Entry := ⟨.tile, 0x260, 0x03, 1, .i64, 8, .ro, (some .view), .none, 0, 0, .num 0, .both, 0⟩
/-- `tile.time.freq_ppb` (R446) -/
def time_freq_ppb : Entry := ⟨.tile, 0x260, 0x04, 1, .i32, 4, .ro, (some .view), .none, 0, 0, .num 0, .both, 0⟩
/-- `tile.time.holdover_s` (R446) -/
def time_holdover_s : Entry := ⟨.tile, 0x260, 0x05, 1, .u32, 4, .ro, (some .view), .none, 0, 0, .num 0, .both, 0⟩
/-- `tile.time.steps` (R446) -/
def time_steps : Entry := ⟨.tile, 0x260, 0x06, 1, .u32, 4, .ro, (some .view), .none, 0, 0, .num 0, .both, 0⟩
/-- `tile.time.last_step` (R446) -/
def time_last_step : Entry := ⟨.tile, 0x260, 0x07, 1, .time80, 10, .ro, (some .view), .none, 0, 0, .num 0, .stored, 1⟩
/-- `tile.time.last_step_ns` (R446) -/
def time_last_step_ns : Entry := ⟨.tile, 0x260, 0x08, 1, .i64, 8, .ro, (some .view), .none, 0, 0, .num 0, .stored, 1⟩
/-- `tile.time.outliers` (R446) -/
def time_outliers : Entry := ⟨.tile, 0x260, 0x09, 1, .u32, 4, .rc, (some .view), .none, 0, 0, .num 0, .powerOn, 0⟩
/-- `tile.time.refusals` (R446) -/
def time_refusals : Entry := ⟨.tile, 0x260, 0x0A, 1, .u32, 4, .rc, (some .view), .none, 0, 0, .num 0, .powerOn, 0⟩
/-- `tile.time.restep_pending` (R446) -/
def time_restep_pending : Entry := ⟨.tile, 0x260, 0x0B, 1, .bool, 1, .ro, (some .view), .none, 0, 0, .num 0, .stored, 1⟩
/-- `tile.time.restep_table` (R446) -/
def time_restep_table : Entry := ⟨.tile, 0x260, 0x0C, 1, .octet, 32, .ro, (some .view), .none, 0, 0, .zeros, .stored, 1⟩
/-- `tile.time.port_corr_ns` (R446) -/
def time_port_corr_ns : Entry := ⟨.tile, 0x261, 0x00, 4, .i16, 2, .rws, (some .view), (some .configure), (-1000), 1000, .num 0, .stored, 1⟩
/-- `tile.time.ptp_master_enable` (R446) -/
def time_ptp_master_enable : Entry := ⟨.tile, 0x262, 0x00, 1, .u8, 1, .rws, (some .view), (some .configure), 0, 3, .num 3, .stored, 1⟩
/-- `tile.time.clock_class` (R446) -/
def time_clock_class : Entry := ⟨.tile, 0x262, 0x01, 1, .u8, 1, .ro, (some .view), .none, 0, 0, .num 255, .both, 0⟩
/-- `tile.time.peer_delay_ns` (R446) -/
def time_peer_delay_ns : Entry := ⟨.tile, 0x262, 0x02, 2, .u32, 4, .ro, (some .view), .none, 0, 0, .num 0, .both, 0⟩
/-- `tile.time.sync_tx` (R446) -/
def time_sync_tx : Entry := ⟨.tile, 0x262, 0x04, 2, .u64, 8, .ro, (some .view), .none, 0, 0, .num 0, .both, 0⟩
/-- `tile.time.meter_set_enable` (R446) -/
def time_meter_set_enable : Entry := ⟨.tile, 0x263, 0x00, 1, .bool, 1, .rws, (some .view), (some .configure), 0, 1, .num 1, .stored, 1⟩
/-- `tile.time.meter_check_h` (R446) -/
def time_meter_check_h : Entry := ⟨.tile, 0x263, 0x01, 1, .u8, 1, .rws, (some .view), (some .configure), 1, 168, .num 24, .stored, 1⟩
/-- `tile.time.meter_deadband_ms` (R446) -/
def time_meter_deadband_ms : Entry := ⟨.tile, 0x263, 0x02, 1, .u32, 4, .rws, (some .view), (some .configure), 20, 60000, .num 2000, .stored, 1⟩
/-- `tile.time.meter_checks` (R446) -/
def time_meter_checks : Entry := ⟨.tile, 0x263, 0x03, 1, .u64, 8, .ro, (some .view), .none, 0, 0, .num 0, .both, 0⟩
/-- `tile.time.meter_sets` (R446) -/
def time_meter_sets : Entry := ⟨.tile, 0x263, 0x04, 1, .u32, 4, .rc, (some .view), .none, 0, 0, .num 0, .powerOn, 0⟩
/-- `tile.time.meter_set_fail` (R446) -/
def time_meter_set_fail : Entry := ⟨.tile, 0x263, 0x05, 1, .u32, 4, .rc, (some .view), .none, 0, 0, .num 0, .powerOn, 0⟩
/-- `tile.vault.lifecycle` (R482) -/
def vault_lifecycle : Entry := ⟨.tile, 0x280, 0x00, 1, .u8, 1, .ro, (some .view), .none, 0, 0, .num 0, .computed, 0⟩
/-- `tile.vault.root_used` (R482) -/
def vault_root_used : Entry := ⟨.tile, 0x280, 0x01, 1, .u8, 1, .ro, (some .view), .none, 0, 0, .num 0, .both, 0⟩
/-- `tile.vault.fuse_state` (R482) -/
def vault_fuse_state : Entry := ⟨.tile, 0x280, 0x02, 1, .u8, 1, .ro, (some .view), .none, 0, 0, .num 0, .computed, 0⟩
/-- `tile.vault.envelopes` (R482) -/
def vault_envelopes : Entry := ⟨.tile, 0x280, 0x03, 1, .u8, 1, .ro, (some .view), .none, 0, 0, .num 0, .both, 0⟩
/-- `tile.vault.reseals` (R482) -/
def vault_reseals : Entry := ⟨.tile, 0x280, 0x04, 1, .u32, 4, .rc, (some .view), .none, 0, 0, .num 0, .powerOn, 0⟩
/-- `tile.vault.serial` (R482) -/
def vault_serial : Entry := ⟨.tile, 0x280, 0x05, 1, .octet, 8, .ro, (some .view), .none, 0, 0, .zeros, .computed, 0⟩
/-- `tile.vault.bay_kcv` (R482) -/
def vault_bay_kcv : Entry := ⟨.tile, 0x280, 0x06, 1, .u32, 4, .ro, (some .view), .none, 0, 0, .num 0, .stored, 1⟩
/-- `tile.vault.enrol_mode` (R482) -/
def vault_enrol_mode : Entry := ⟨.tile, 0x281, 0x00, 1, .u8, 1, .rw, (some .view), (some .configure), 0, 1, .num 0, .plain, 0⟩
/-- `tile.vault.enrol` (R482) -/
def vault_enrol : Entry := ⟨.tile, 0x281, 0x01, 1, .action, 0, .ex, .none, (some .secure), 0, 0, .zeros, .computed, 0⟩
/-- `tile.vault.bay_offer` (R482) -/
def vault_bay_offer : Entry := ⟨.tile, 0x281, 0x02, 1, .action, 0, .ex, .none, (some .secure), 0, 0, .zeros, .computed, 0⟩
/-- `tile.vault.go_field` (R482) -/
def vault_go_field : Entry := ⟨.tile, 0x281, 0x03, 1, .action, 0, .ex, .none, (some .secure), 0, 0, .zeros, .computed, 0⟩
/-- `tile.vault.erase` (R482) -/
def vault_erase : Entry := ⟨.tile, 0x281, 0x04, 1, .action, 0, .ex, .none, (some .secure), 0, 0, .zeros, .computed, 0⟩
/-- `tile.vault.retire` (R482) -/
def vault_retire : Entry := ⟨.tile, 0x281, 0x05, 1, .action, 0, .ex, .none, (some .secure), 0, 0, .zeros, .computed, 0⟩
/-- `tile.vault.last_result` (R482) -/
def vault_last_result : Entry := ⟨.tile, 0x281, 0x06, 1, .u8, 1, .ro, (some .view), .none, 0, 0, .num 0, .plain, 0⟩
/-- `tile.vault.enrol_record` (R482) -/
def vault_enrol_record : Entry := ⟨.tile, 0x281, 0x07, 1, .octet, 212, .ro, (some .view), .none, 0, 0, .zeros, .computed, 0⟩
/-- `tile.vault.cert_id` (R482) -/
def vault_cert_id : Entry := ⟨.tile, 0x282, 0x00, 1, .octet, 1024, .rws, (some .secure), (some .secure), 0, 0, .zeros, .stored, 1⟩
/-- `tile.vault.cert_link` (R482) -/
def vault_cert_link : Entry := ⟨.tile, 0x282, 0x01, 1, .octet, 1024, .rws, (some .secure), (some .secure), 0, 0, .zeros, .stored, 1⟩
/-- `tile.vault.sat_anchor` (R482) -/
def vault_sat_anchor : Entry := ⟨.tile, 0x282, 0x02, 1, .octet, 1024, .rws, (some .secure), (some .secure), 0, 0, .zeros, .stored, 9⟩
/-- `tile.vault.import_stage` (R482) -/
def vault_import_stage : Entry := ⟨.tile, 0x283, 0x00, 1, .octet, 1096, .wo, .none, (some .secure), 0, 0, .zeros, .computed, 0⟩
/-- `tile.vault.import` (R482) -/
def vault_import : Entry := ⟨.tile, 0x283, 0x01, 1, .action, 0, .ex, .none, (some .secure), 0, 0, .zeros, .computed, 0⟩
/-- `tile.vault.import_result` (R482) -/
def vault_import_result : Entry := ⟨.tile, 0x283, 0x02, 1, .octet, 16, .ro, (some .view), .none, 0, 0, .zeros, .plain, 0⟩
/-- `tile.vault.import_pub` (R482) -/
def vault_import_pub : Entry := ⟨.tile, 0x283, 0x03, 1, .octet, 65, .ro, (some .view), .none, 0, 0, .zeros, .computed, 0⟩
/-- `tile.vault.import_attest` (R482) -/
def vault_import_attest : Entry := ⟨.tile, 0x283, 0x04, 1, .octet, 64, .ro, (some .view), .none, 0, 0, .zeros, .computed, 0⟩
/-- `tile.vault.archive_rotate` (R482) -/
def vault_archive_rotate : Entry := ⟨.tile, 0x284, 0x00, 1, .action, 0, .ex, .none, (some .secure), 0, 0, .zeros, .computed, 0⟩
/-- `tile.vault.sign_pubkeys` (R482) -/
def vault_sign_pubkeys : Entry := ⟨.tile, 0x284, 0x01, 1, .octet, 1040, .ro, (some .view), .none, 0, 0, .zeros, .stored, 1⟩
/-- `tile.vault.sign_attest` (R482) -/
def vault_sign_attest : Entry := ⟨.tile, 0x284, 0x02, 1, .octet, 1024, .ro, (some .view), .none, 0, 0, .zeros, .stored, 1⟩
/-- `tile.vault.slots_used` (R482) -/
def vault_slots_used : Entry := ⟨.tile, 0x285, 0x00, 1, .u64, 8, .ro, (some .view), .none, 0, 0, .num 0, .both, 0⟩
/-- `tile.vault.slot_file_used` (R482) -/
def vault_slot_file_used : Entry := ⟨.tile, 0x285, 0x01, 1, .u16, 2, .ro, (some .view), .none, 0, 0, .num 0, .both, 0⟩
/-- `tile.vault.integrity_fail` (R482) -/
def vault_integrity_fail : Entry := ⟨.tile, 0x285, 0x02, 1, .u32, 4, .rc, (some .view), .none, 0, 0, .num 0, .powerOn, 0⟩
/-- `tile.vault.unwraps` (R482) -/
def vault_unwraps : Entry := ⟨.tile, 0x285, 0x03, 1, .u64, 8, .ro, (some .view), .none, 0, 0, .num 0, .both, 0⟩
/-- `tile.vault.mask_refused` (R482) -/
def vault_mask_refused : Entry := ⟨.tile, 0x285, 0x04, 1, .u32, 4, .rc, (some .view), .none, 0, 0, .num 0, .powerOn, 0⟩
/-- `tile.vault.expired_refused` (R482) -/
def vault_expired_refused : Entry := ⟨.tile, 0x285, 0x05, 1, .u32, 4, .rc, (some .view), .none, 0, 0, .num 0, .powerOn, 0⟩
/-- `tile.vault.drbg_state` (R482) -/
def vault_drbg_state : Entry := ⟨.tile, 0x286, 0x00, 1, .u8, 1, .ro, (some .view), .none, 0, 0, .num 0, .both, 0⟩
/-- `tile.vault.not_ready` (R482) -/
def vault_not_ready : Entry := ⟨.tile, 0x286, 0x01, 1, .u32, 4, .rc, (some .view), .none, 0, 0, .num 0, .powerOn, 0⟩
/-- `tile.vault.health_fail` (R482) -/
def vault_health_fail : Entry := ⟨.tile, 0x286, 0x02, 1, .u32, 4, .rc, (some .view), .none, 0, 0, .num 0, .powerOn, 0⟩
/-- `tile.vault.reseeds` (R482) -/
def vault_reseeds : Entry := ⟨.tile, 0x286, 0x03, 1, .u64, 8, .ro, (some .view), .none, 0, 0, .num 0, .both, 0⟩
/-- `tile.vault.debug_challenge` (R482) -/
def vault_debug_challenge : Entry := ⟨.tile, 0x287, 0x00, 1, .octet, 16, .ro, (some .view), .none, 0, 0, .zeros, .computed, 0⟩
/-- `tile.vault.debug_token` (R482) -/
def vault_debug_token : Entry := ⟨.tile, 0x287, 0x01, 1, .octet, 148, .wo, .none, (some .secure), 0, 0, .zeros, .computed, 0⟩
/-- `tile.vault.debug_unlock` (R482) -/
def vault_debug_unlock : Entry := ⟨.tile, 0x287, 0x02, 1, .action, 0, .ex, .none, (some .secure), 0, 0, .zeros, .computed, 0⟩
/-- `tile.media.state` (R577) -/
def media_state : Entry := ⟨.tile, 0x2C0, 0x00, 1, .u8, 1, .ro, (some .view), .none, 0, 0, .num 0, .both, 0⟩
/-- `tile.media.mount_ms` (R577) -/
def media_mount_ms : Entry := ⟨.tile, 0x2C0, 0x01, 1, .u32, 4, .ro, (some .view), .none, 0, 0, .num 0, .both, 0⟩
/-- `tile.media.recoveries` (R577) -/
def media_recoveries : Entry := ⟨.tile, 0x2C0, 0x02, 1, .u32, 4, .ro, (some .view), .none, 0, 0, .num 0, .stored, 1⟩
/-- `tile.media.format` (R577) -/
def media_format : Entry := ⟨.tile, 0x2C0, 0x03, 1, .action, 0, .ex, .none, (some .secure), 0, 0, .zeros, .computed, 0⟩
/-- `tile.media.good_blocks` (R577) -/
def media_good_blocks : Entry := ⟨.tile, 0x2C1, 0x00, 1, .u16, 2, .ro, (some .view), .none, 0, 0, .num 0, .computed, 0⟩
/-- `tile.media.factory_bad` (R577) -/
def media_factory_bad : Entry := ⟨.tile, 0x2C1, 0x01, 1, .u16, 2, .ro, (some .view), .none, 0, 0, .num 0, .computed, 0⟩
/-- `tile.media.retired` (R577) -/
def media_retired : Entry := ⟨.tile, 0x2C1, 0x02, 1, .u16, 2, .ro, (some .view), .none, 0, 0, .num 0, .stored, 1⟩
/-- `tile.media.spares` (R577) -/
def media_spares : Entry := ⟨.tile, 0x2C1, 0x03, 1, .i16, 2, .ro, (some .view), .none, 0, 0, .num 0, .computed, 0⟩
/-- `tile.media.arch_floor` (R577) -/
def media_arch_floor : Entry := ⟨.tile, 0x2C1, 0x04, 1, .u16, 2, .rws, (some .view), (some .configure), 1024, 4600, .num 4096, .stored, 1⟩
/-- `tile.media.worn` (R577) -/
def media_worn : Entry := ⟨.tile, 0x2C1, 0x05, 1, .bool, 1, .ro, (some .view), .none, 0, 0, .num 0, .stored, 1⟩
/-- `tile.media.pool_free` (R577) -/
def media_pool_free : Entry := ⟨.tile, 0x2C1, 0x06, 1, .u16, 2, .ro, (some .view), .none, 0, 0, .num 0, .computed, 0⟩
/-- `tile.media.erase_max` (R577) -/
def media_erase_max : Entry := ⟨.tile, 0x2C2, 0x00, 1, .u32, 4, .ro, (some .view), .none, 0, 0, .num 0, .computed, 0⟩
/-- `tile.media.erase_mean` (R577) -/
def media_erase_mean : Entry := ⟨.tile, 0x2C2, 0x01, 1, .u32, 4, .ro, (some .view), .none, 0, 0, .num 0, .computed, 0⟩
/-- `tile.media.erase_min` (R577) -/
def media_erase_min : Entry := ⟨.tile, 0x2C2, 0x02, 1, .u32, 4, .ro, (some .view), .none, 0, 0, .num 0, .computed, 0⟩
/-- `tile.media.ecc_corrected` (R577) -/
def media_ecc_corrected : Entry := ⟨.tile, 0x2C3, 0x00, 1, .u64, 8, .ro, (some .view), .none, 0, 0, .num 0, .stored, 1⟩
/-- `tile.media.ecc_uncorrectable` (R577) -/
def media_ecc_uncorrectable : Entry := ⟨.tile, 0x2C3, 0x01, 1, .u32, 4, .ro, (some .view), .none, 0, 0, .num 0, .stored, 1⟩
/-- `tile.media.unreadable_pages` (R577) -/
def media_unreadable_pages : Entry := ⟨.tile, 0x2C3, 0x02, 1, .u32, 4, .ro, (some .view), .none, 0, 0, .num 0, .stored, 1⟩
/-- `tile.media.program_fail` (R577) -/
def media_program_fail : Entry := ⟨.tile, 0x2C3, 0x03, 1, .u32, 4, .rc, (some .view), .none, 0, 0, .num 0, .powerOn, 0⟩
/-- `tile.media.erase_fail` (R577) -/
def media_erase_fail : Entry := ⟨.tile, 0x2C3, 0x04, 1, .u32, 4, .rc, (some .view), .none, 0, 0, .num 0, .powerOn, 0⟩
/-- `tile.media.erase_refused` (R577) -/
def media_erase_refused : Entry := ⟨.tile, 0x2C3, 0x05, 1, .u32, 4, .rc, (some .view), .none, 0, 0, .num 0, .powerOn, 0⟩
/-- `tile.media.relocations` (R577) -/
def media_relocations : Entry := ⟨.tile, 0x2C4, 0x00, 1, .u64, 8, .ro, (some .view), .none, 0, 0, .num 0, .stored, 1⟩
/-- `tile.media.relocations_abandoned` (R577) -/
def media_relocations_abandoned : Entry := ⟨.tile, 0x2C4, 0x01, 1, .u32, 4, .rc, (some .view), .none, 0, 0, .num 0, .powerOn, 0⟩
/-- `tile.media.patrol_days` (R577) -/
def media_patrol_days : Entry := ⟨.tile, 0x2C4, 0x02, 1, .u8, 1, .rws, (some .view), (some .configure), 1, 30, .num 7, .stored, 1⟩
/-- `tile.media.refresh_bits` (R577) -/
def media_refresh_bits : Entry := ⟨.tile, 0x2C4, 0x03, 1, .u8, 1, .rws, (some .view), (some .configure), 16, 120, .num 80, .stored, 1⟩
/-- `tile.media.temp_hours` (R577) -/
def media_temp_hours : Entry := ⟨.tile, 0x2C5, 0x00, 8, .u32, 4, .ro, (some .view), .none, 0, 0, .num 0, .stored, 1⟩
/-- `tile.media.temp_now` (R577) -/
def media_temp_now : Entry := ⟨.tile, 0x2C5, 0x08, 1, .i16, 2, .ro, (some .view), .none, 0, 0, .num 0, .computed, 0⟩
/-- `tile.media.discard_ranges` (R577) -/
def media_discard_ranges : Entry := ⟨.tile, 0x2C6, 0x00, 1, .u16, 2, .ro, (some .view), .none, 0, 0, .num 0, .computed, 0⟩
/-- `tile.media.keystore_fill` (R577) -/
def media_keystore_fill : Entry := ⟨.tile, 0x2C6, 0x01, 1, .u16, 2, .ro, (some .view), .none, 0, 0, .num 0, .computed, 0⟩
/-- `tile.media.bytes_programmed` (R577) -/
def media_bytes_programmed : Entry := ⟨.tile, 0x2C6, 0x02, 1, .u64, 8, .ro, (some .view), .none, 0, 0, .num 0, .stored, 1⟩
/-- `tile.media.bytes_read` (R577) -/
def media_bytes_read : Entry := ⟨.tile, 0x2C6, 0x03, 1, .u64, 8, .ro, (some .view), .none, 0, 0, .num 0, .both, 0⟩
/-- `tile.power.state` (R552) -/
def power_state : Entry := ⟨.tile, 0x2E0, 0x00, 1, .u8, 1, .ro, (some .view), .none, 0, 0, .num 0, .computed, 2⟩
/-- `tile.power.request` (R552) -/
def power_request : Entry := ⟨.tile, 0x2E0, 0x01, 1, .u8, 1, .wo, .none, (some .configure), 0, 4, .num 0, .computed, 2⟩
/-- `tile.power.force` (R552) -/
def power_force : Entry := ⟨.tile, 0x2E0, 0x02, 1, .bool, 1, .rw, (some .view), (some .configure), 0, 1, .num 0, .plain, 2⟩
/-- `tile.power.keep_run` (R552) -/
def power_keep_run : Entry := ⟨.tile, 0x2E0, 0x03, 1, .bool, 1, .rw, (some .view), (some .configure), 0, 1, .num 0, .powerOn, 2⟩
/-- `tile.power.idle_state` (R552) -/
def power_idle_state : Entry := ⟨.tile, 0x2E0, 0x04, 1, .u8, 1, .rws, (some .view), (some .configure), 1, 2, .num 2, .stored, 3⟩
/-- `tile.power.vrun_mv` (R552) -/
def power_vrun_mv : Entry := ⟨.tile, 0x2E0, 0x05, 1, .u16, 2, .ro, (some .view), .none, 0, 0, .num 0, .computed, 2⟩
/-- `tile.power.rail_mv` (R552) -/
def power_rail_mv : Entry := ⟨.tile, 0x2E0, 0x06, 1, .u16, 2, .ro, (some .view), .none, 0, 0, .num 0, .computed, 2⟩
/-- `tile.power.refused` (R552) -/
def power_refused : Entry := ⟨.tile, 0x2E1, 0x00, 7, .u32, 4, .rc, (some .view), .none, 0, 0, .num 0, .powerOn, 2⟩
/-- `tile.power.entries` (R552) -/
def power_entries : Entry := ⟨.tile, 0x2E1, 0x07, 1, .u64, 8, .ro, (some .view), .none, 0, 0, .num 0, .powerOn, 2⟩
/-- `tile.power.wakes` (R552) -/
def power_wakes : Entry := ⟨.tile, 0x2E1, 0x08, 1, .u64, 8, .ro, (some .view), .none, 0, 0, .num 0, .powerOn, 2⟩
/-- `tile.power.last_refusal` (R552) -/
def power_last_refusal : Entry := ⟨.tile, 0x2E1, 0x09, 1, .octet, 16, .ro, (some .view), .none, 0, 0, .zeros, .powerOn, 2⟩
/-- `tile.power.forced_flush` (R552) -/
def power_forced_flush : Entry := ⟨.tile, 0x2E1, 0x0A, 1, .u32, 4, .rc, (some .view), .none, 0, 0, .num 0, .powerOn, 2⟩
/-- `tile.power.time_in_state` (R552) -/
def power_time_in_state : Entry := ⟨.tile, 0x2E2, 0x00, 5, .u64, 8, .ro, (some .view), .none, 0, 0, .num 0, .powerOn, 2⟩
/-- `tile.queue.fill` (R600) -/
def queue_fill : Entry := ⟨.tile, 0x300, 0x00, 7, .u16, 2, .ro, (some .view), .none, 0, 0, .num 0, .both, 0⟩
/-- `tile.queue.lost` (R600) -/
def queue_lost : Entry := ⟨.tile, 0x301, 0x00, 7, .u32, 4, .rc, (some .view), .none, 0, 0, .num 0, .powerOn, 0⟩
/-- `tile.queue.resets` (R600) -/
def queue_resets : Entry := ⟨.tile, 0x302, 0x00, 7, .u32, 4, .rc, (some .view), .none, 0, 0, .num 0, .powerOn, 0⟩
/-- `tile.queue.wm_level` (R600) -/
def queue_wm_level : Entry := ⟨.tile, 0x303, 0x00, 7, .u16, 2, .rws, (some .view), (some .configure), 1, 16384, .nums [6144, 12288, 12288, 12288, 3072, 6144, 384], .stored, 1⟩
/-- `tile.queue.wm_status` (R600) -/
def queue_wm_status : Entry := ⟨.tile, 0x304, 0x00, 7, .u64, 8, .rc, (some .view), .none, 0, 0, .num 0, .both, 0⟩
/-- `tile.eph.feed_gaps` (R600) -/
def eph_feed_gaps : Entry := ⟨.tile, 0x305, 0x00, 1, .u32, 4, .rc, (some .view), .none, 0, 0, .num 0, .powerOn, 0⟩
/-- `tile.events.read_from` (R600) -/
def events_read_from : Entry := ⟨.tile, 0x308, 0x00, 1, .u64, 8, .rw, (some .view), (some .configure), 0, 18446744073709551615, .num 0, .perSession, 64⟩
/-- `tile.events.read_block` (R600) -/
def events_read_block : Entry := ⟨.tile, 0x308, 0x01, 1, .octet, 1024, .ro, (some .view), .none, 0, 0, .zeros, .computed, 0⟩
/-- `tile.events.next_eseq` (R600) -/
def events_next_eseq : Entry := ⟨.tile, 0x308, 0x02, 1, .u64, 8, .ro, (some .view), .none, 0, 0, .num 1, .both, 0⟩
/-- `tile.events.overwritten` (R600) -/
def events_overwritten : Entry := ⟨.tile, 0x308, 0x03, 1, .u32, 4, .rc, (some .view), .none, 0, 0, .num 0, .powerOn, 0⟩
/-- `tile.events.suppressed` (R600) -/
def events_suppressed : Entry := ⟨.tile, 0x308, 0x04, 1, .u32, 4, .rc, (some .view), .none, 0, 0, .num 0, .powerOn, 0⟩
/-- `tile.legal.read_from` (R600) -/
def legal_read_from : Entry := ⟨.tile, 0x310, 0x00, 1, .u32, 4, .rw, (some .view), (some .configure), 0, 4294967295, .num 0, .perSession, 64⟩
/-- `tile.legal.read_block` (R600) -/
def legal_read_block : Entry := ⟨.tile, 0x310, 0x01, 1, .octet, 1024, .ro, (some .view), .none, 0, 0, .zeros, .computed, 0⟩
/-- `tile.legal.held` (R600) -/
def legal_held : Entry := ⟨.tile, 0x310, 0x02, 1, .u16, 2, .ro, (some .view), .none, 0, 0, .num 0, .computed, 0⟩
/-- `tile.legal.next_lseq` (R600) -/
def legal_next_lseq : Entry := ⟨.tile, 0x310, 0x03, 1, .u32, 4, .ro, (some .view), .none, 0, 0, .num 1, .stored, 1⟩
/-- `tile.legal.ack` (R600) -/
def legal_ack : Entry := ⟨.tile, 0x310, 0x04, 1, .action, 20, .ex, .none, (some .secure), 0, 0, .zeros, .computed, 0⟩
/-- `tile.legal.unlogged` (R600) -/
def legal_unlogged : Entry := ⟨.tile, 0x310, 0x05, 1, .u32, 4, .ro, (some .view), .none, 0, 0, .num 0, .stored, 1⟩
/-- `tile.diag.egress_delay` (R641) -/
def diag_egress_delay : Entry := ⟨.tile, 0x340, 0x00, 1, .octet, 16, .rw, (some .view), (some .configure), 0, 0, .zeros, .both, 0⟩
/-- `tile.diag.credit_starve` (R641) -/
def diag_credit_starve : Entry := ⟨.tile, 0x340, 0x01, 1, .octet, 16, .rw, (some .view), (some .configure), 0, 0, .zeros, .both, 0⟩
/-- `tile.diag.nand_fail` (R641) -/
def diag_nand_fail : Entry := ⟨.tile, 0x340, 0x02, 1, .octet, 16, .rw, (some .view), (some .configure), 0, 0, .zeros, .both, 0⟩
/-- `tile.diag.lost_inject` (R641) -/
def diag_lost_inject : Entry := ⟨.tile, 0x340, 0x03, 1, .octet, 16, .rw, (some .view), (some .configure), 0, 0, .zeros, .both, 0⟩
/-- `tile.diag.armed` (R641) -/
def diag_armed : Entry := ⟨.tile, 0x341, 0x00, 1, .u8, 1, .ro, (some .view), .none, 0, 0, .num 0, .both, 0⟩
/-- `tile.diag.nand_injected` (R641) -/
def diag_nand_injected : Entry := ⟨.tile, 0x341, 0x01, 1, .u32, 4, .rc, (some .view), .none, 0, 0, .num 0, .powerOn, 0⟩

end Reg

open Reg

/-- Part of `deviceEntries`. -/
def deviceEntries0 : List Entry :=
  [device_id_product, device_id_order_code, device_id_serial, device_id_stepping, device_id_date_code,
   device_id_dict_version, device_id_label, device_id_location, device_dict_select, device_dict_describe,
   pier_clock_source, pier_clock_switches, pier_lockstep_state, pier_lockstep_miscompares,
   device_service_level, device_supply_vsys_mv, device_supply_pfail, device_supply_pfail_source,
   device_supply_pfail_events, device_supply_rail_faults, device_pmbus_addr, device_pmbus_present,
   device_pmbus_transactions, device_pmbus_naks, device_pmbus_pec_errors, device_pmbus_alerts,
   device_pmbus_status, device_events_read_from, device_events_read_block, device_events_next_eseq,
   device_events_overwritten, device_events_suppressed, device_events_queue_lost, device_diag_unlock,
   device_diag_lock, device_diag_unlocked, device_diag_armed, device_diag_arms,
   device_diag_unlock_remaining_s, device_config_restore_defaults]

/-- Part of `deviceEntries`. -/
def deviceEntries1 : List Entry :=
  [device_config_writes, device_config_store_defaulted, device_host_udp_port, device_host_ipv6_addr,
   device_host_prefix_len, device_host_gateway, device_host_ipv6_addr_b, device_host_vlan,
   device_host_lane_mode, device_host_lane_primary, device_host_lane_hold_ms, device_host_lane_revert_s,
   device_host_lane_state, device_host_lane_switches, device_host_session_idle_s, device_host_sessions,
   device_host_session_select, device_host_session_status, device_host_session_end, device_host_boot_count,
   device_host_handshakes, device_host_handshake_fail, device_host_auth_fail, device_host_replay_discard,
   device_host_retransmits_answered, device_host_no_session_sent, device_host_rx_discard,
   device_host_hub_drop_in, device_host_hub_drop_out, device_host_frames_in, device_host_frames_out,
   device_time_source, device_time_jump_threshold_ns, device_time_qualify_count,
   device_time_qualify_spread_ns, device_time_refuse_count, device_time_loss_ms, device_time_holdover_spec_s,
   device_time_restep, device_time_restep_result]

/-- Part of `deviceEntries`. -/
def deviceEntries2 : List Entry :=
  [device_time_restep_failed, device_time_utc_offset, device_time_utc_offset_cfg,
   device_time_utc_offset_source, device_time_leap_pending, device_time_utc_history, device_time_ptp_domain,
   device_time_gm_identity, device_time_master_port, device_time_link_delay_ns, device_time_lane_corr_ns,
   device_time_master_changes, device_time_ptp_rx, device_time_pps_polarity, device_time_tod_baud,
   device_time_tod_errors, device_boot_plan, device_boot_stagger_us, device_reset, device_reset_cause,
   device_fw_tile_phase, device_fw_tile_version, device_fw_require_countersign, device_fw_rom_version,
   device_sec_anchor, device_sec_anchors, device_sec_host_pub, device_sec_host_cert, device_sec_host_next_pub,
   device_sec_host_next_cert, device_sec_host_key_gen, device_sec_host_rekey, device_sec_test_root,
   device_sec_root_state, device_sec_lifecycles, device_svc_address, device_svc_open_view,
   device_svc_frames_in, device_svc_frames_out, device_svc_fcs_errors]

/-- Every entry of the device area, in ascending index and sub-index (R664). -/
def deviceEntries : List Entry :=
  deviceEntries0 ++ deviceEntries1 ++ deviceEntries2

/-- Part of `bayEntries`. -/
def bayEntries0 : List Entry :=
  [bay_mode, bay_wiring, bay_preferred_active, bay_role_even, bay_role_odd, bay_own_pins, bay_promote,
   bay_clear_fault, bay_mode_change, bay_last_result, bay_alarm, bay_promotions, bay_promotion_failed,
   bay_heartbeat_losses, bay_last_promotion, bay_mirror_sync, bay_mirror_fill, bay_mirror_lost,
   bay_mirror_items, bay_mirror_retransmits, bay_mirror_wake_level, bay_mirror_stay_run_rate,
   bay_mirror_resyncs, bay_mirror_resync_progress, bay_mirror_lag_max_us, bay_mirror_wakes,
   bay_mirror_wm_status, bay_mirror_schema_discards, bay_audit_n, bay_audit_timer_ms, bay_audit_checked,
   bay_audit_mismatches, bay_audit_inconclusive, bay_audit_verdicts, bay_audit_last_match_seq,
   bay_audit_suspect_first, bay_audit_suspect_last, bay_disp_dwell, bay_disp_items, bay_disp_lines_sent]

/-- Part of `bayEntries`. -/
def bayEntries1 : List Entry :=
  [bay_disp_errors, bay_legal_en, bay_time_tout_mode, bay_time_tout_width_us, bay_time_tout_source,
   bay_time_tout_pulses, bay_energy_pulse_mj, bay_energy_bank_budget_mj, bay_energy_bank_used_mj,
   bay_energy_plc_atten_min_db, bay_energy_plc_duty_pm, bay_energy_budget_holds, bay_energy_last_pulse_uj,
   bay_diag_mirror_delay, bay_diag_pmbus_delay, bay_diag_audit_mismatch, bay_diag_mirror_lost,
   bay_diag_audit_injected]

/-- Every entry of the bay area, in ascending index and sub-index (R665). -/
def bayEntries : List Entry :=
  bayEntries0 ++ bayEntries1

/-- Part of `tileEntries`. -/
def tileEntries0 : List Entry :=
  [id_number, id_bay, id_role, id_dram, id_nand, status_uptime_ms, status_service, status_missing, fw_bank_a,
   fw_bank_b, fw_stage_begin, fw_stage_commit, fw_last_result, fw_bank_state, fw_bank_version,
   fw_running_bank, fw_floor, fw_boot_report, fw_confirm, fw_trial_s, fw_reset, fw_last_reset, fw_watchdog_ms,
   fw_resets, fw_schema, fw_schema_resets, fw_legal_stage, fw_legal_install, fw_legal_version, fw_legal_floor,
   meters_in_service, meters_direct_plc, meters_direct_rf, meters_relayed, meters_retired,
   meters_record_errors, meters_damaged, meters_select, meters_record, meters_staging]

/-- Part of `tileEntries`. -/
def tileEntries1 : List Entry :=
  [meters_enrol, meters_move_out, meters_retire, meters_release, meters_edit, meters_last_result,
   meters_class_table, meters_classes_used, meters_hash_load, meters_hash_stash, meters_hash_insert_fail,
   meters_checkpoint_interval, meters_checkpoint_last, meters_checkpoint_s0, meters_journal_fill,
   meters_load_time, meters_sat_table, gather_intake_weight, gather_grid_phase, gather_align_tol,
   gather_late_window, gather_deviation_invert, gather_dst_fold, gather_ack_point, gather_retry_hint,
   gather_inject_buffer, gather_inject, gather_inject_result, gather_frames_in, gather_readings_out,
   gather_midx_waits, gather_outcomes, gather_last_detail, gather_slot_hits, gather_slot_misses,
   gather_unwrap_fail, gather_next_ek_taken, gather_slot_bad, gather_envelope_errors,
   gather_force_old_ignored]

/-- Part of `tileEntries`. -/
def tileEntries2 : List Entry :=
  [gather_ack_lost, gather_in_flight, gather_in_flight_peak, marver_ruleset_select, marver_ruleset_stage,
   marver_ruleset_commit, marver_last_result, marver_last_bad_entry, marver_ruleset_version,
   marver_rule_table, marver_readings_in, marver_accept, marver_accept_edit, marver_accept_est,
   marver_cullet_rule, marver_rule_skips, marver_fill_refused, marver_rollovers, marver_spike_edits,
   marver_feeder_minutes, marver_rule_fails, marver_replay_buffer, marver_replay, marver_replay_result,
   marver_replay_items, cullet_read, cullet_read_block, cullet_fill, cullet_written, cullet_lost,
   cullet_watermark, cullet_wm_status, cullet_resets, lehr_stream, lehr_seq_next, lehr_seq_held_high,
   lehr_retained_floor, lehr_discard_floor, lehr_records_out, lehr_batch_period]

/-- Part of `tileEntries`. -/
def tileEntries3 : List Entry :=
  [lehr_batch_max, lehr_flush_time, lehr_full_policy, lehr_full_watermark, lehr_last_header_seq,
   lehr_last_close, lehr_batches_closed, lehr_orphan_closes, lehr_strays, lehr_sign_pubkey, lehr_key_gen,
   lehr_proof_seq, lehr_proof, lehr_proof_block, lehr_proof_result, lehr_verify_first, lehr_verify_last,
   lehr_verify, lehr_verify_result, lehr_verify_bad_seq, lehr_tag_fail, lehr_archive_blocks, lehr_fill,
   lehr_full_stops, lehr_overwritten, lehr_restatements, lehr_restate_refused, lehr_splits,
   lehr_fetch_records, balance_interval, balance_close_window, balance_restate_horizon, balance_restate_max,
   balance_head_source, balance_spread_max, balance_rebuild_lookback, balance_v_nominal, balance_pf_assumed,
   balance_shape_factor, balance_phase_conf_min]

/-- Part of `tileEntries`. -/
def tileEntries4 : List Entry :=
  [balance_v_min_meters, balance_cover_min, balance_move_confirm, balance_score_tau, balance_conf_floor_w,
   balance_score_unit_w, balance_report_floor_w, balance_segment_records_max, balance_evidence_tau,
   balance_tamper_near_level, balance_alarm_on, balance_alarm_off, balance_alarm_confirm, balance_weight,
   balance_tree_stage, balance_tree_commit, balance_tree, balance_tree_version, balance_last_result,
   balance_tree_bad_node, balance_node_select, balance_node_status, balance_alarms_raised, balance_zones,
   balance_root_nontech, balance_books_closed, balance_restatements, balance_pending_mwh,
   balance_pending_books, balance_beyond_horizon_mwh, balance_beyond_horizon, balance_future,
   balance_unpaired, balance_hole_ignored, balance_head_unusable, balance_bad_segment,
   balance_placement_moves, balance_segment_records_cut, balance_feed_gaps, balance_rebuilds]

/-- Part of `tileEntries`. -/
def tileEntries5 : List Entry :=
  [balance_rebuild_time, balance_evidence_records, metro_state, metro_resync, metro_resyncs,
   metro_slip_adjusts, metro_overloads, metro_unmeasured_ms, metro_head_gap_max_ms, metro_rms,
   metro_frequency, metro_p, metro_q, metro_legal_regs, metro_cal_stage, metro_cal_commit, metro_cal_block,
   metro_last_result, metro_seal_count, metro_legal_check, metro_reg_stage, metro_reg_restore, metro_mag_desc,
   metro_mag_threshold, metro_mag_status, metro_mag_episodes, metro_mag_log, metro_relay_cmd,
   metro_relay_state, metro_fb_mode, metro_relay_pulse_ms, metro_relay_confirm_ms, metro_relay_retries,
   metro_vx_present, metro_vx_absent, metro_vx_phase, metro_fb_polarity, metro_relay_mismatches,
   metro_pulses_cut, eph_cal_stage]

/-- Part of `tileEntries`. -/
def tileEntries6 : List Entry :=
  [eph_cal_commit, eph_calendar, eph_cal_passive, eph_cal_previous, eph_cal_version, eph_last_result,
   eph_cal_bad_offset, eph_bill_basis, eph_applied, eph_lag_max_ms, eph_cal_too_old, eph_backlog,
   eph_clock_split_limit, eph_clock_stage, eph_clock_event, eph_splits_pending, eph_splits_refused,
   eph_splits_expired, eph_profiles, eph_topup_stage, eph_topup, eph_bad_profile, eph_deferred,
   eph_disconnects, eph_reconnects, eph_select, eph_relay_cmd, eph_flags_clear, eph_confirm_held,
   eph_relay_confirm_s, eph_relay_retries, eph_relay_check_delay_s, eph_relay_audit_h, eph_relay_mismatches,
   eph_resp_timeout_ms, eph_mgmt_tries, eph_resp_dropped, eph_push_plc_share, eph_push_rf_share,
   eph_push_sat_inflight]

/-- Part of `tileEntries`. -/
def tileEntries7 : List Entry :=
  [eph_cal_push_enable, eph_push_stage, eph_image, eph_push_load, eph_push_members, eph_push_add,
   eph_push_start, eph_push_pause, eph_push_activate, eph_push_cancel, eph_push_state, eph_push_descriptor,
   eph_push_add_refused, eph_bcast_ic, eph_push_counts, eph_push_fail, plc_band, plc_framing, plc_pan_id,
   plc_tx_level, plc_txen_lead_us, plc_psel_mode, plc_psel_fixed, plc_psel_conf_min, plc_zc_delay_us,
   plc_zc_state, plc_mains_period_us, plc_repeater_table, plc_mode, plc_mode_now, plc_poll_cycle_s,
   plc_slot_ms, plc_join_share, plc_beacon_period_s, plc_poll_delay_s, plc_pull_after_s, plc_rows_per_request,
   plc_fill_holes, plc_switch_fail_pm, plc_joined]

/-- Part of `tileEntries`. -/
def tileEntries8 : List Entry :=
  [plc_mode_switches, plc_schedule_overrun, plc_unsolicited, plc_join_refused, plc_narrowed,
   plc_push_airtime_pm, plc_beacon_seq, plc_ext_enable, plc_ext_peers, plc_map_window, plc_snr_thr,
   plc_map_hyst_pm, plc_map_refresh_s, plc_msid_unknown, plc_sh_crc_fail, plc_map_rsp_bad, plc_blank_k,
   plc_blank_window, plc_blank_guard, plc_blanked_samples, plc_blank_events, plc_erased_symbols,
   plc_phase_bias, plc_phase_window, plc_phase_query_h, plc_phase_updates, plc_phase_conflicts, plc_max_hops,
   plc_reroute_margin_pm, plc_prefer_lifetime_min, plc_route_select, plc_route, plc_route_discoveries,
   plc_prefer_sent, plc_chg_threshold, plc_frames_tx, plc_frames_rx, plc_csma_fail, plc_mac_sec_fail,
   plc_tx_held]

/-- Part of `tileEntries`. -/
def tileEntries9 : List Entry :=
  [rf_regime, rf_rate, rf_custom_grid, rf_rx_base_channel, rf_preamble_octets, rf_tx_power, rf_pa_lead_us,
   rf_pan_id, rf_eui64, rf_sec_level, rf_fc_down, rf_sleepy_hold_s, rf_pending_ttl_s, rf_pull_after_s,
   rf_rows_per_request, rf_fill_holes, rf_neighbours, rf_sleepy, rf_pending, rf_duty_band, rf_duty_used_ms,
   rf_express_reserve_pm, rf_dwell_enable, rf_dwell_ms, rf_dwell_window_s, rf_frames_tx, rf_frames_rx,
   rf_polls, rf_airtime_ms, rf_rx_discard, rf_poll_refused, rf_poll_missed, rf_pending_dropped,
   rf_pending_expired, rf_duty_held, rf_dwell_held, rf_csma_fail, rf_tx_cut, sw_port_speed, sw_port_state]

/-- Part of `tileEntries`. -/
def tileEntries10 : List Entry :=
  [sw_link_hold_ms, sw_vlan, sw_port_disable, sw_class_weight, sw_reserve_cells, sw_shared_max, sw_pool_free,
   sw_credits, sw_credit_faults, sw_sample_n, sw_sample_ports, sw_sample_read, sw_sample_lost, sw_link_epoch,
   sw_keepalive_ms, sw_sat_dead_ms, sw_verify_ms, sw_sessions, sw_session_select, sw_session_status,
   sw_session_reset, sw_frames_in, sw_frames_out, sw_bytes_in, sw_bytes_out, sw_drop_buffer, sw_flushed,
   sw_drop_port_down, sw_stale_discard, sw_express_drop, sw_express_demoted, sw_hold_events, sw_port_downs,
   sw_fcs_errors, sw_rx_unknown, sw_handshakes, sw_handshake_fail, sw_resumes, sw_resume_fail,
   sw_link_auth_fail]

/-- Part of `tileEntries`. -/
def tileEntries11 : List Entry :=
  [sw_no_session, sw_down_rsp_dropped, time_state, time_source_now, time_now, time_offset_ns, time_freq_ppb,
   time_holdover_s, time_steps, time_last_step, time_last_step_ns, time_outliers, time_refusals,
   time_restep_pending, time_restep_table, time_port_corr_ns, time_ptp_master_enable, time_clock_class,
   time_peer_delay_ns, time_sync_tx, time_meter_set_enable, time_meter_check_h, time_meter_deadband_ms,
   time_meter_checks, time_meter_sets, time_meter_set_fail, vault_lifecycle, vault_root_used,
   vault_fuse_state, vault_envelopes, vault_reseals, vault_serial, vault_bay_kcv, vault_enrol_mode,
   vault_enrol, vault_bay_offer, vault_go_field, vault_erase, vault_retire, vault_last_result]

/-- Part of `tileEntries`. -/
def tileEntries12 : List Entry :=
  [vault_enrol_record, vault_cert_id, vault_cert_link, vault_sat_anchor, vault_import_stage, vault_import,
   vault_import_result, vault_import_pub, vault_import_attest, vault_archive_rotate, vault_sign_pubkeys,
   vault_sign_attest, vault_slots_used, vault_slot_file_used, vault_integrity_fail, vault_unwraps,
   vault_mask_refused, vault_expired_refused, vault_drbg_state, vault_not_ready, vault_health_fail,
   vault_reseeds, vault_debug_challenge, vault_debug_token, vault_debug_unlock, media_state, media_mount_ms,
   media_recoveries, media_format, media_good_blocks, media_factory_bad, media_retired, media_spares,
   media_arch_floor, media_worn, media_pool_free, media_erase_max, media_erase_mean, media_erase_min,
   media_ecc_corrected]

/-- Part of `tileEntries`. -/
def tileEntries13 : List Entry :=
  [media_ecc_uncorrectable, media_unreadable_pages, media_program_fail, media_erase_fail, media_erase_refused,
   media_relocations, media_relocations_abandoned, media_patrol_days, media_refresh_bits, media_temp_hours,
   media_temp_now, media_discard_ranges, media_keystore_fill, media_bytes_programmed, media_bytes_read,
   power_state, power_request, power_force, power_keep_run, power_idle_state, power_vrun_mv, power_rail_mv,
   power_refused, power_entries, power_wakes, power_last_refusal, power_forced_flush, power_time_in_state,
   queue_fill, queue_lost, queue_resets, queue_wm_level, queue_wm_status, eph_feed_gaps, events_read_from,
   events_read_block, events_next_eseq, events_overwritten, events_suppressed, legal_read_from]

/-- Part of `tileEntries`. -/
def tileEntries14 : List Entry :=
  [legal_read_block, legal_held, legal_next_lseq, legal_ack, legal_unlogged, diag_egress_delay,
   diag_credit_starve, diag_nand_fail, diag_lost_inject, diag_armed, diag_nand_injected]

/-- Every entry of the tile area, in ascending index and sub-index (R666). -/
def tileEntries : List Entry :=
  tileEntries0 ++ tileEntries1 ++ tileEntries2 ++ tileEntries3 ++ tileEntries4 ++ tileEntries5 ++ tileEntries6 ++ tileEntries7 ++ tileEntries8 ++ tileEntries9 ++ tileEntries10 ++ tileEntries11 ++ tileEntries12 ++ tileEntries13 ++ tileEntries14

/-- The type is held as a run of bytes. -/
def Ty.cells (t : Ty) : Bool := decide (t = .octet) || decide (t = .string)

/-- An entry that an image may define beyond the map (R666): a stored RWS entry that the CONFIG snapshot carries, at an offset from 0x040 to 0x25F that the
tables do not list. -/
def Entry.beyond (e : Entry) : Bool :=
  decide (e.area = .tile) && decide (e.acc = .rws) && decide (e.cls = .stored) && decide (e.flags = 9) && decide (e.ty ≠ .action) && decide (e.ty ≠ .record) &&
  decide (0x040 ≤ e.off) && decide (e.off < 0x260) && decide (1 ≤ e.cnt) && decide (e.sub + e.cnt ≤ 255) && !(tileEntries.any fun x => x.off == e.off)

end Sys2Proof.Machine

namespace Sys2Proof.Config

/-- The entries that the image of a VERSION defines beyond the map (R666): an image's own, which the manual leaves open (notes/assumptions/4.md). -/
opaque imageEntries (version : Nat) : List Machine.Entry

end Sys2Proof.Config
end

