-- ==== Sys2Proof/Config.lean ====
section
/-! DEFINITION. Config.lean: what one implementation fixes and the free values: constants without a body, applied to the
operands they depend on or to a plain counter of the state (notes/assumptions/4.md). Nothing can be proved about
which value they give. -/

namespace Sys2Proof.Config

/-- 32 bytes drawn from a tile's DRBG at its `n`-th request (R479); the hub's and the Pier's draws use tile 16. -/
opaque drbg : Nat → Nat → Bytes

/-- The fuse root F of a tile (R447): 32 bytes fixed at manufacture. -/
opaque fuseRoot : Nat → Bytes

/-- The PUF root P of a tile (R448): 32 bytes. -/
opaque pufRoot : Nat → Bytes

/-- The device root D of the Pier (R450): 32 bytes. -/
opaque deviceRoot : Bytes

/-- The serial of a tile (R482), 8 bytes; index 16 is the device serial (R660). -/
opaque serial : Nat → Bytes

/-- The Weahinar image key (P-384) and the Weahinar debug authority key (P-384), held in the boot ROM (R610). -/
opaque imageKey : Bytes
opaque debugKey : Bytes

/-- The tag of an entry while the key that should form it is absent: the manual states none. -/
opaque noKeyTag : Bytes → Bytes

/-- The servo law of Meridian (R428, R430): the frequency correction (ppb) that it wants for an offset (ns) and the present
correction. The manual gives only its bounds, which the model applies. -/
opaque servo : Int → Int → Int

/-- The MAC address of a port: D0 and D1 of a tile, or (tile 16) a host lane. The manual gives none. -/
opaque mac : Nat → Nat → Bytes

/-- The bytes of a PTP frame toward an output of a tile at a clock count, beyond what the model states of it. -/
opaque ptpFrame : Nat → Nat → Nat → Bytes

/-- The system title that a tile puts into the wrappers it seals toward meters (R284), 8 bytes. The manual gives none. -/
opaque systemTitle : Nat → Bytes

/-- Whether an interrupted or failed program damages the earlier pages of its wordline (R554), for a tile and the running number of
the page program. -/
opaque wordlineDamaged : Nat → Nat → Bool

/-- A duration or other measured figure that the manual only bounds, by kind, unit and clock count. -/
opaque measured : Nat → Nat → Nat → Nat

/-- Figures fixed at manufacture that the manual names without giving them (R626, R660): 0 `device.id.stepping`, 1 `device.id.date_code`,
2 `device.fw.rom_version`. -/
opaque identity : Nat → Nat

/-- The fractional delay of a current channel (R230): PHASE in units of 2⁻¹⁵ sample and the 65 corrected samples around the one delayed. -/
opaque fracDelay : Int → List Int → Int

/-- Coefficients of the Hilbert filter of 65 taps (R230), in units of 2⁻³⁰, by tap. -/
opaque hilbertTap : Nat → Int

/-- One step of the rate-1/2 convolutional code of G.9903 (R317): the two bits that the newest 7 input bits give. -/
opaque g3Conv : Nat → Bool × Bool

/-- Coded bit `i` of a MAC frame as R320 step 1 forms it: scrambled, Reed–Solomon and convolutionally coded as G.9903 defines. -/
opaque g3Coded : Bytes → Nat → Bool

/-- Scrambled zero `i` after the last coded bit (R320 step 3). -/
opaque g3Pad : Nat → Bool

/-- Phase step, in units of 45°, of a constellation label under a modulation (R320; 1 DBPSK, 2 DQPSK, 3 D8PSK), as G.9903 maps it. -/
opaque g3Phase : Nat → List Bool → Nat

/-- The pilot pseudo-noise sequence of G.9903 (R321), by data symbol and carrier. -/
opaque g3Pilot : Nat → Nat → Bool

/-- Phases of the last FCH symbol, in units of 45°, by the fields of the FCH and carrier. -/
opaque g3Fch : List Nat → Nat → Nat

/-- The phase detection counter of an FCH that begins `ofs` ns after the sender's zero crossing, for a mains period in ns (G.9903). -/
opaque g3Pdc : Nat → Nat → Nat

/-- The phases of the data symbols of a standard frame, by carrier, for its FCH fields and its MAC frame (G.9903). -/
opaque g3Std : List Nat → Bytes → List (List Nat)

/-- The LBP message that answers a device: whether it is accepted, its EUI-64, its short address, and the GMK sent to it under its EAP-PSK key (G.9903). -/
opaque g3Lbp : Bool → Nat → Nat → Bytes → Bytes → Bytes

/-- The 6LoWPAN frame of G.9903 that carries a UDP datagram to a port of a short address (R297). -/
opaque g3Datagram : Nat → Nat → Bytes → Bytes

/-- The two wrapper ports of DLMS/COSEM (R297), and the nonce of G.9903 for a PAN identifier and frame counter. -/
opaque wPorts : Bytes
opaque plcNonce : Nat → Nat → Bytes

end Sys2Proof.Config
end

