-- ==== Sys2Proof/Machine/Table.lean ====
section
/-! DEFINITION. Table.lean: sorted finite tables keyed by numbers, in one canonical form (keys strictly rising), and the
addressed byte buffers of the dictionary's OCTET entries built on them. -/

namespace Sys2Proof.Machine

/-- A finite table keyed by numbers, kept sorted by key. -/
abbrev Tbl (α : Type) := List (Nat × α)

/-- Look a key up. -/
def Tbl.get {α : Type} : Tbl α → Nat → Option α
  | [], _ => none
  | (k, v) :: r, j => if k = j then some v else Tbl.get r j

/-- Set a key. -/
def Tbl.put {α : Type} : Tbl α → Nat → α → Tbl α
  | [], j, w => [(j, w)]
  | (k, v) :: r, j, w =>
    if j < k then (j, w) :: (k, v) :: r
    else if j = k then (j, w) :: r
    else (k, v) :: Tbl.put r j w

/-- Remove a key. -/
def Tbl.del {α : Type} : Tbl α → Nat → Tbl α
  | [], _ => []
  | (k, v) :: r, j => if k = j then Tbl.del r j else (k, v) :: Tbl.del r j

/-- The canonical form: keys strictly rising. -/
def Tbl.sorted {α : Type} (m : Tbl α) : Bool := decide (m.Pairwise fun a b => a.1 < b.1)

/-- The values, by rising key. -/
def Tbl.vals {α : Type} (m : Tbl α) : List α := m.map Prod.snd

/-- The keys, rising. -/
def Tbl.keys {α : Type} (m : Tbl α) : List Nat := m.map Prod.fst

/-- Change the value under a key that is present. -/
def Tbl.upd {α : Type} (m : Tbl α) (j : Nat) (f : α → α) : Tbl α :=
  match Tbl.get m j with
  | some v => Tbl.put m j (f v)
  | none => m

/-- An addressed byte buffer: the bytes that differ from what an unlisted address reads as. -/
abbrev Cells := Tbl Byte

/-- Read one byte of a buffer whose unlisted addresses read `d a`. -/
def Cells.read (d : Nat → Byte) (m : Cells) (a : Nat) : Byte := (Tbl.get m a).getD (d a)

/-- Write one byte, keeping the form that no listed byte equals the unlisted one. -/
def Cells.write (d : Nat → Byte) (m : Cells) (a : Nat) (b : Byte) : Cells :=
  if b = d a then Tbl.del m a else Tbl.put m a b

/-- Write a run of bytes from address `a` on. -/
def Cells.writeAll (d : Nat → Byte) : Cells → Nat → Bytes → Cells
  | m, _, [] => m
  | m, a, b :: r => Cells.writeAll d (Cells.write d m a b) (a + 1) r

/-- Canonical form of a buffer: sorted, and no entry equal to the unlisted byte. -/
def Cells.wf (d : Nat → Byte) (m : Cells) : Bool := Tbl.sorted m && m.all fun e => e.2 != d e.1

end Sys2Proof.Machine
end

