-- ==== Sys2Proof/Machine/UnitsA.lean ====
section
/-! DEFINITION. UnitsA.lean: the state of the units of chapters 2 to 5 and 18, as plain data. State.lean puts the units
together. -/

namespace Sys2Proof.Machine

/-- The value held for a dictionary entry: a number (a TIME80 as nanoseconds, a signed value in two's complement of
its width) or the bytes of an OCTET entry that differ from its default. -/
inductive Val
  | num (n : Nat)
  | oct (c : Cells)
  deriving DecidableEq, Repr

/-! ### Actions (R399, R410) -/

/-- An action that a host has ordered: the number of the EXEC that waits for its answer (0 where it is commanded directly), and the keys of the staging
entries that it consumes. -/
structure Act where
  exec : Nat := 0
  frees : List Nat := []
  deriving DecidableEq, Repr

/-- The actions as the model follows them: the one that runs now, the newest number given to an EXEC, and the answers that have come since the hub last looked. -/
structure Acts where
  now : Act := {}
  last : Nat := 0
  fins : List (Nat × Status) := []
  deriving DecidableEq, Repr

/-! ### The meter population (chapter 2) -/

/-- A meter record (R44). Signed fields as integers. `checkGood` stands for CHECK: it says whether the stored CRC
agrees with the record (notes/assumptions/6.md). UPD_CNT is `updCnt`. -/
structure MeterRec where
  sysTitle : Nat
  eui64 : Nat
  shortAddr : Nat
  state : Nat
  cls : Nat
  path : Nat
  phase : Nat
  satId : Nat
  midxGen : Nat
  keyMap : Nat
  rfKeyId : Nat
  keyGen : Nat
  icUpHw : Nat
  icDown : Nat
  fcUpHw : Nat
  idur : Nat
  lastTend : Nat
  dupMap : Nat
  lastSeq : Nat
  clkOfs : Int
  lastReg : List Int
  gapRun : Nat
  tou : List Int
  credit : Int
  creditHeld : Int
  relayCmd : Nat
  relayRpt : Nat
  prepayProfile : Nat
  relayCmdTime : Nat
  segment : Nat
  phaseConf : Nat
  tamperCnt : Nat
  eventFlags : Nat
  imgId : Nat
  imgBlocks : Nat
  pushState : Nat
  calVersion : Nat
  enrolTime : Nat
  label : Bytes
  billSeq : Nat
  updCnt : Nat
  checkGood : Bool
  deriving DecidableEq, Repr

/-- A FREE record with the given MIDX_GEN. -/
def MeterRec.free (midxGen : Nat) : MeterRec where
  sysTitle := 0
  eui64 := 0
  shortAddr := 0
  state := 0
  cls := 0
  path := 0
  phase := 0
  satId := 0
  midxGen := midxGen
  keyMap := 0
  rfKeyId := 0
  keyGen := 0
  icUpHw := 0
  icDown := 0
  fcUpHw := 0
  idur := 0
  lastTend := 0
  dupMap := 0
  lastSeq := 0
  clkOfs := 0
  lastReg := [0, 0, 0, 0, 0, 0]
  gapRun := 0
  tou := [0, 0, 0, 0, 0, 0, 0, 0]
  credit := 0
  creditHeld := 0
  relayCmd := 0
  relayRpt := 0
  prepayProfile := 0
  relayCmdTime := 0
  segment := 0
  phaseConf := 0
  tamperCnt := 0
  eventFlags := 0
  imgId := 0
  imgBlocks := 0
  pushState := 0
  calVersion := 0
  enrolTime := 0
  label := List.replicate 16 0
  billSeq := 0
  updCnt := 0
  checkGood := true

/-- An entry of the hash table (R55): bucket, or none for the stash. -/
structure HashEnt where
  kind : Nat
  key : Nat
  midx : Nat
  bucket : Option Nat
  deriving DecidableEq, Repr

/-- What a journal entry changes (R69, R507). -/
inductive JOp | enrol | edit | moveOut | retire | release | fields | keys | topup | ceiling | guard
  deriving DecidableEq, Repr

/-- A journal entry (R69): the slot, the generation and UPD_CNT after the change, the record after it, an amount added
to CREDIT by a top-up with its TOPUP_ID, and the IC_DOWN ceiling in force after it. -/
structure JEntry where
  op : JOp
  slot : Nat
  gen : Nat
  upd : Nat
  snap : MeterRec
  amount : Int
  tid : Nat := 0
  ceil : Nat
  deriving DecidableEq, Repr

/-- A checkpoint (R68): start time, journal position J0, SEQ S0, the records with their IC_DOWN ceilings. -/
structure Checkpoint where
  start : Nat
  j0 : Nat
  s0 : Nat
  recs : Tbl MeterRec
  ceils : Tbl Nat
  deriving DecidableEq, Repr

/-- An action on a meter record that waits for its acknowledgement (R63, R65): journal entry count, mirror mark, whether
earlier readings must leave G8, and whether the slot's keys are then destroyed (R64, R66); `topup` says that it is a top-up. -/
structure PendAct where
  slot : Nat
  jpos : Nat
  mirror : Nat
  drain : Bool
  keys : Bool := false
  topup : Bool := false
  act : Act := {}
  deriving DecidableEq, Repr

/-- The actions on meter records (R60). -/
inductive MeterOp | enrol | edit | moveOut | retire | release
  deriving DecidableEq, Repr

/-- The meter population held in DRAM and Gather SRAM. `ceils` holds the IC_DOWN reservation ceilings (R69);
`jPage` the journal page being filled, `jCount` the entries ever written and `jDone` those durable. `waits` holds the actions that wait for the one
before them, each with its staging block and who ordered it (R60). -/
structure Meters where
  recs : Tbl MeterRec
  ceils : Tbl Nat
  hash : List HashEnt
  hashKey : Nat
  jPage : List JEntry
  jFirst : Option Nat
  jCount : Nat
  jDone : Nat
  pend : List PendAct
  waits : List (MeterOp × Bytes × Act)
  restoring : List Nat
  damaged : List Nat
  ckptRun : Option (Checkpoint × List Nat)
  ckptNext : Nat
  deriving DecidableEq, Repr

/-- An empty meter population. -/
def Meters.init : Meters where
  recs := []
  ceils := []
  hash := []
  hashKey := 0
  jPage := []
  jFirst := none
  jCount := 0
  jDone := 0
  pend := []
  waits := []
  restoring := []
  damaged := []
  ckptRun := none
  ckptNext := 0

/-! ### Queues (chapter 18) -/

/-- A ping-pong queue (R578 to R585): drain bank and fill bank, oldest first, the watermark status, and, when the
two copies of its pointers disagree, the fills that the copies imply (R582). -/
structure PPQ (α : Type) where
  drain : List α
  fill : List α
  above : Bool
  crossed : Bool
  crossedBack : Bool
  count : Nat
  level : Nat
  peak : Nat
  split : Option (Nat × Nat)
  deriving DecidableEq, Repr

/-- An empty queue. -/
def PPQ.empty {α : Type} : PPQ α where
  drain := []
  fill := []
  above := false
  crossed := false
  crossedBack := false
  count := 0
  level := 0
  peak := 0
  split := none

/-- An event log (R591): the entries held, oldest first, and what it took in the last second (R594): WHERE, CODE,
OBJ and the clock count of the taking; the highest ESEQ read; and the entries not yet sent on the EVENT stream (R407). -/
structure EventLog where
  entries : List Event
  recent : List (Nat × Nat × Nat × Nat)
  readTo : Nat
  unsent : List Event
  deriving DecidableEq, Repr

/-- An entry of the legal log (R597). -/
structure LegalEnt where
  code : Nat
  lseq : Nat
  whenNs : Nat
  sealCnt : Nat
  data : Bytes
  tag : Bytes
  deriving DecidableEq, Repr

/-! ### Gather (chapter 3) -/

/-- A frame that has passed G1 and waits for G2 behind another frame of its MIDX (R86); `slotBad` says how often the integrity
check of each of its key slots fails at use, one base-4 digit for each key kind (R89), `report` which
events its plaintext reports (R248). -/
structure Flight where
  frame : Frame
  midx : Nat
  gen : Nat
  slotBad : Nat
  report : Nat
  deriving DecidableEq, Repr

/-- A row that waits for its duplicate check (R86), or a reading of a LOCAL record, which needs none (`direct`): the frame it came in (0 for none), a restated SEQ, the item of a
running replay, and RULESET and FLAGS of its class as they stood when it entered G5 (R51). -/
structure Row where
  rd : Opened
  direct : Bool
  forceOld : Bool
  fid : Nat
  gen : Nat
  restate : Option Nat
  replay : Option Nat
  rule : Nat
  flags : Nat
  deriving DecidableEq, Repr

/-- A frame that passed G4 and whose readings are under way: those left, and the counters that it raised with their values
before, mirrored after its last record (R109). -/
structure FrameSt where
  fid : Nat
  midx : Nat
  env : Nat
  entry : Nat
  left : Nat
  ic : Option (Nat × Nat)
  fc : Option (Nat × Nat)
  deriving DecidableEq, Repr

/-- An envelope whose acknowledgement is open (R108): for each entry whether it has ended and reads RETRY; the newest mirror
item of its records. -/
structure EnvSt where
  uid : Nat
  source : Nat
  peer : Nat
  seq : Nat
  ended : List (Option Bool)
  mirror : Nat
  act : Act := {}
  deriving DecidableEq, Repr

/-- An entry of the session slot file (R88, R465). The list is kept least recently used first. -/
structure SlotEnt where
  midx : Nat
  kind : Nat
  keyGen : Nat
  key : Bytes
  usage : Nat
  expiry : Nat
  deriving DecidableEq, Repr

/-- Gather. `voq` holds, per source, the entries not yet judged of the frame that it takes; `rrPos` and `rrLeft` are the place in the weighted round of R82. -/
structure Gather where
  voq : List (List Frame)
  rrPos : Nat
  rrLeft : Nat
  waiting : List Flight
  rows : List Row
  frames : List FrameSt
  nextFrame : Nat
  envs : List EnvSt
  nextEnv : Nat
  injecting : Option Nat
  slots : List SlotEnt
  deriving DecidableEq, Repr

/-- Gather after a tile reset. -/
def Gather.init : Gather where
  voq := List.replicate 5 []
  rrPos := 0
  rrLeft := 0
  waiting := []
  rows := []
  frames := []
  nextFrame := 1
  envs := []
  nextEnv := 1
  injecting := none
  slots := []

/-! ### Marver (chapter 4) -/

/-- A reading that has passed the duplicate check, with the meter state read there (R115); `restate` names the
restated SEQ, `replay` the item of a running replay. -/
structure Passed where
  rd : Opened
  fid : Nat
  gen : Nat
  restate : Option Nat
  replay : Option Nat
  lastTend : Nat
  lastReg : List Int
  phase : Nat
  cls : Nat
  rule : Nat
  flags : Nat
  deriving DecidableEq, Repr

/-- One minute of the feeder history (R124, R234): the sum of the per-second voltage rms values of each phase in mV, their count, the flags
SETTLE and INTERP, and whether the minute is complete. -/
structure Minute where
  sums : List Nat
  count : Nat
  settle : Bool
  interp : Bool
  complete : Bool
  deriving DecidableEq, Repr

/-- A minute that the PHASE rules may use (R124). -/
def Minute.valid (m : Minute) : Bool := m.complete && !m.settle && !m.interp

/-- A replay that runs (R143): the result codes so far. -/
structure Replay where
  results : List (Option Nat)
  act : Act := {}
  deriving DecidableEq, Repr

/-- Marver. The Cullet staging queue (R140) holds entries without their tag. -/
structure Marver where
  inq : List Passed
  history : Tbl Minute
  stage : PPQ Bytes
  replay : Option Replay
  deriving DecidableEq, Repr

/-- Marver after a tile reset. -/
def Marver.init : Marver where
  inq := []
  history := []
  stage := PPQ.empty
  replay := none

/-! ### Lehr (chapter 5) -/

/-- A record of a group before Lehr gives it its SEQ. -/
structure PreRec where
  out : Nat
  tend : Nat
  idur : Nat
  qual : Nat
  regs : List Int
  deriving DecidableEq, Repr

/-- A group handed to Lehr: records of one meter (R133), or a restatement (R172) whose LINK names `restate` with
REASON `reason`, or one BOOK record of a node. `opened` and `ctx` are carried for the shadow audit (R501), `flags` for the billing (R51). -/
inductive Group
  | meter (midx fid : Nat) (replay : Option Nat) (recs : List PreRec) (rolls flags : Nat) (opened : Option Opened) (ctx : Bytes)
  | restate (midx : Nat) (replay : Option Nat) (prior reason flags : Nat) (rec : PreRec)
  | book (who out : Nat) (data : Bytes)
  | bookRestate (who out prior : Nat) (data : Bytes)
  deriving DecidableEq, Repr

/-- One SEQ stream as a tile issues it (R152 to R162): next SEQ, first leaf of the open batch, carried leaves, and the leaf
hashes of the open batch, from which the frontier of R163 follows. -/
structure StreamSt where
  next : Nat
  openFirst : Nat
  carried : Nat
  leaves : List Bytes
  issuing : Bool
  deriving DecidableEq, Repr

/-- Lehr's volatile part: groups waiting at G8, the page buffer and the instant of its first record, the two
streams, whether it is stopped (R181), and the key generations in use (R159). -/
structure Lehr where
  inq : List Group
  page : List ArchRec
  pageFirst : Option Nat
  stream0 : StreamSt
  stream1 : StreamSt
  stopped : Bool
  archGen : Nat
  signGen : Nat
  fillHigh : Bool
  deriving DecidableEq, Repr

/-- A stream of which a tile issues nothing. -/
def StreamSt.idle : StreamSt where
  next := 0
  openFirst := 0
  carried := 0
  leaves := []
  issuing := false

/-- Lehr after a tile reset. -/
def Lehr.init : Lehr where
  inq := []
  page := []
  pageFirst := none
  stream0 := StreamSt.idle
  stream1 := StreamSt.idle
  stopped := false
  archGen := 0
  signGen := 0
  fillHigh := false

end Sys2Proof.Machine
end

