-- ==== Sys2Proof/Machine/UnitsB.lean ====
section
/-! DEFINITION. UnitsB.lean: the state of the units of chapters 13 to 17 and 19, as plain data. -/

namespace Sys2Proof.Machine

/-! ### Time reference (chapter 13) -/

/-- Meridian of a tile (R428 to R438). Its time at clock count `now` is `baseTime` plus the elapsed count at frequency
correction `freq` (ppb), which moves toward `goal`, the newest that the servo wants, and was right at `freqAt`; `formed` holds measurements not yet judged; `meas` the newest
ones of a qualification, as (clock count, offset), oldest first. `since` is the TAI second at which the tile began to provide time, `closeSec` and `pollSec` the newest
grid points whose batch close and POLLED cycle have fired (R434). The state, source and counters are dictionary entries. -/
structure Mer where
  baseNow : Nat
  baseTime : Int
  freq : Int
  goal : Int
  freqAt : Nat
  since : Nat
  closeSec : Nat
  pollSec : Nat
  formed : List (Nat × Int)
  meas : List (Int × Int)
  lastMeas : Nat
  secCount : Nat × Nat
  outRun : Nat
  goodRun : Nat
  leftLocked : Option Nat
  manual : Bool
  restepSince : Option Nat
  restepMeas : List (Int × Int)
  deriving DecidableEq, Repr

/-- Meridian after tile reset: UNSET, the counter runs. -/
def Mer.init (now : Nat) : Mer where
  baseNow := now
  baseTime := 0
  freq := 0
  goal := 0
  freqAt := now
  since := 0
  closeSec := 0
  pollSec := 0
  formed := []
  meas := []
  lastMeas := now
  secCount := (0, 0)
  outRun := 0
  goodRun := 0
  leftLocked := none
  manual := false
  restepSince := none
  restepMeas := []

/-- A PTP master heard on a lane (R422): the data set that the best master clock algorithm compares. -/
structure Master where
  lane : Nat
  port : Bytes
  gm : Bytes
  prio1 : Nat
  cls : Nat
  acc : Nat
  var : Nat
  prio2 : Nat
  steps : Nat
  src : Nat
  utc : Int
  utcValid : Bool
  leap : Int
  seen : Nat
  deriving DecidableEq, Repr

/-- A re-step order that runs (R435): mode, tiles still to step, tiles that failed, whether one failed on a full
table, and its start. -/
structure RestepRun where
  mode : Nat
  waiting : List Nat
  failed : List Nat
  full : Bool
  start : Nat
  act : Act := {}
  deriving DecidableEq, Repr

/-- Device time (R420 to R424, R435). -/
structure DevTime where
  source : Nat
  masters : List Master
  best : Option Master
  todNamed : Option Nat
  todLeap : Nat
  todUtc : Option Int
  lastEdge : Option Nat
  ppsLevel : Bool
  utc : Int
  utcSrc : Nat
  leapAt : Nat
  restep : Option RestepRun
  deriving DecidableEq, Repr

/-- Device time before power-on. -/
def DevTime.init : DevTime where
  source := 0
  masters := []
  best := none
  todNamed := none
  todLeap := 0
  todUtc := none
  lastEdge := none
  ppsLevel := false
  utc := 37
  utcSrc := 2
  leapAt := 0
  restep := none

/-! ### Archive media (chapter 17) -/

/-- State of a physical block. -/
inductive BlkSt | erased | mapped | dirty | erasing | retired | bad
  deriving DecidableEq, Repr

/-- A physical block (R555, R557). -/
structure Blk where
  st : BlkSt
  erases : Nat
  region : Nat
  lb : Nat
  ver : Nat
  pages : Nat
  held : Nat
  deriving DecidableEq, Repr

/-- A map-journal entry (R557). A DISCARD entry says which order of the host waits for it. -/
inductive MapEnt
  | map (region lb pb : Nat) (old : Option Nat) (ver : Nat)
  | free (pb erases : Nat)
  | retire (pb : Nat)
  | discard (stream first last : Nat) (ack : Option Act)
  deriving DecidableEq, Repr

/-- A relocation in progress (R559): `copied` valid pages copied, then committed, then the old block erased or retired. -/
structure Reloc where
  region : Nat
  lb : Nat
  old : Nat
  new : Nat
  ver : Nat
  committed : Bool
  retire : Bool
  deriving DecidableEq, Repr

/-- A page program queued at the FTL (R564): what becomes durable when it completes. -/
inductive PageJob
  | archive (stream : Nat) (recs : List ArchRec)
  | journal (ents : List JEntry)
  | config (vals : List (Nat × Option Val))
  | media (vals : List (Nat × Option Val))
  | keys (ents : List (Nat × Nat × Option Bytes))
  | mapJ (ents : List MapEnt)
  | checkpoint (c : Checkpoint)
  deriving DecidableEq, Repr

/-- An archive record on the ring with the archive block and the page that hold it. The closure reserve counts as archive block
2^32. -/
structure ArchEnt where
  ent : ArchRec
  lb : Nat
  page : Nat
  deriving DecidableEq, Repr

/-- A tile's NAND die and what it keeps (R553 to R576). `factory` are the blocks marked bad at manufacture. Unlisted blocks are erased, with `formats` erases. `mapLog` holds the
entries of the map-journal blocks since their snapshots, newest block last, `mapPages` the pages of the newest and `mapHead` its logical block.
`journal` holds the durable journal entries by page × 256 + place, `jPos` the next page of the journal ring; `configAt`
the page of each configuration value's newest copy; `topups` the accepted TOPUP_IDs (R277); `keys` the standing key-store blobs by place and `keyLog` the places
written, per key-store block, oldest first. `floor0` and `floor1` are the retained floors of the streams. Page programs
wait in `jobs` with their numbers; `busy`: the first is being programmed. The jobs, queues and relocation are lost at a
reset. -/
structure Media where
  factory : List Nat
  formatted : Bool
  formats : Nat
  blocks : Tbl Blk
  mapLog : List (List MapEnt)
  mapPages : Nat
  mapHead : Nat
  mapQ : List MapEnt
  mapQAt : Nat
  reloc : Option Reloc
  relocQ : List (Nat × Bool)
  eraseQ : List Nat
  archNext : Nat
  headPages : Nat
  reservePages : Nat
  arch0 : Tbl ArchEnt
  arch1 : Tbl ArchEnt
  floor0 : Nat
  floor1 : Nat
  badPages : List (Nat × Nat)
  disc0 : List (Nat × Nat)
  disc1 : List (Nat × Nat)
  jPos : Nat
  journal : Tbl JEntry
  topups : List Nat
  config : Tbl Val
  configAt : Tbl Nat
  keys : Tbl Bytes
  keyLog : List (List Nat)
  keyHead : Nat
  ckA : Option Checkpoint
  ckB : Option Checkpoint
  jobs : List (Nat × PageJob)
  jobCount : Nat
  busy : Bool
  tempAcc : List Nat
  tempNow : Int
  patrolPos : Nat
  patrolFrom : Nat
  tempAt : Nat
  deriving DecidableEq, Repr

/-- An unformatted die without factory-bad blocks (the manual leaves their number open: DESIGN CHOICE, notes/assumptions/16.md). -/
def Media.init : Media where
  factory := []
  formatted := false
  formats := 0
  blocks := []
  mapLog := []
  mapPages := 0
  mapHead := 0
  mapQ := []
  mapQAt := 0
  reloc := none
  relocQ := []
  eraseQ := []
  archNext := 0
  headPages := 0
  reservePages := 0
  arch0 := []
  arch1 := []
  floor0 := 0
  floor1 := 0
  badPages := []
  disc0 := []
  disc1 := []
  jPos := 0
  journal := []
  topups := []
  config := []
  configAt := []
  keys := []
  keyLog := []
  keyHead := 0
  ckA := none
  ckB := none
  jobs := []
  jobCount := 0
  busy := false
  tempAcc := List.replicate 8 0
  tempNow := 0
  patrolPos := 0
  patrolFrom := 0
  tempAt := 0

/-! ### Vault (chapter 14) -/

/-- One copy of the key page (R453). `good` stands for its CRC. -/
structure KeyPage where
  life : Nat
  count : Nat
  kcv : Bytes
  tkF : Bytes
  tkP : Bytes
  bkF : Bytes
  bkP : Bytes
  ceil : Nat
  good : Bool
  deriving DecidableEq, Repr

/-- A blank key page. -/
def KeyPage.blank : KeyPage where
  life := 0
  count := 0
  kcv := List.replicate 4 0
  tkF := List.replicate 40 0
  tkP := List.replicate 40 0
  bkF := List.replicate 40 0
  bkP := List.replicate 40 0
  ceil := 0
  good := true

/-- A general slot (R464): key bytes, and whether its integrity word fails. -/
structure GenSlot where
  key : Bytes
  bad : Bool
  deriving DecidableEq, Repr

/-- The vault's volatile part: KEKs opened, general slots, DRAM blobs (keyed table × 2^24 + position, R463), the next
counter of a blob, the bay-offer window, the debug challenge, DRBG seeding (R479: start of the attempt, requests since the
last seed, its instant, whether it was ready since start), whether a rotation runs, and actions whose acknowledgement
waits (R463: journal count and mirror mark), and whether a tile reset follows the last of them (R451). -/
structure Vault where
  tileKek : Option Bytes
  bayKek : Option Bytes
  slots : Tbl GenSlot
  blobs : Tbl Bytes
  blobNext : Nat
  offerUntil : Option Nat
  challenge : Option (Bytes × Nat)
  drbgTry : Option Nat
  drbgReqs : Nat
  drbgSeeded : Option Nat
  drbgOnce : Bool
  rotating : Bool
  held : List (Nat × Nat × Act)
  debugOpen : Bool
  resetDue : Bool
  deriving DecidableEq, Repr

/-- The vault after tile reset. -/
def Vault.init : Vault where
  tileKek := none
  bayKek := none
  slots := []
  blobs := []
  blobNext := 0
  offerUntil := none
  challenge := none
  drbgTry := none
  drbgReqs := 0
  drbgSeeded := none
  drbgOnce := false
  rotating := false
  held := []
  debugOpen := false
  resetDue := false

/-! ### Start-up and firmware (chapter 19) -/

/-- A copy of the boot record (R608). `good` stands for its CRC. -/
structure BootRec where
  selected : Nat
  stA : Nat
  stB : Nat
  count : Nat
  reasonA : Nat
  reasonB : Nat
  floor : Nat
  verA : Nat
  verB : Nat
  legalFloor : Nat
  good : Bool
  deriving DecidableEq, Repr

/-- The boot record as shipped: SELECTED A, both banks EMPTY (DESIGN CHOICE, notes/assumptions/8.md). -/
def BootRec.init : BootRec where
  selected := 0
  stA := 0
  stB := 0
  count := 0
  reasonA := 0
  reasonB := 0
  floor := 0
  verA := 0
  verB := 0
  legalFloor := 0
  good := true

/-- A channel entry of the calibration block with the constants of an uncalibrated tile (R241) and this SCALE. -/
def calEntry (scale : Nat) : Bytes := natLE 4 0x40000000 ++ List.replicate 8 0 ++ natLE 4 scale

/-- The calibration block as shipped: VERSION 1, STATE 0, the constants of an uncalibrated tile, no commit, its CRC (DESIGN CHOICE where the rule says only
that STATE is 0, notes/assumptions/37.md). -/
def calDefault : Bytes :=
  [1, 0] ++ List.replicate 14 0 ++ (List.replicate 3 (calEntry 57500) ++ List.replicate 4 (calEntry 100000) ++ [calEntry 57500]).flatten ++
    List.replicate 108 0 ++ natLE 4 0x0CA3071C

/-- A legal module place (R624): VERSION, the module as stored, and the check value of its signed header (R243). -/
structure LegalMod where
  version : Nat
  body : Bytes
  check : Nat
  deriving DecidableEq, Repr

/-- A module place as shipped: an empty module with its own check value, the first bytes of SHA-256 over nothing (DESIGN CHOICE,
notes/assumptions/37.md). -/
def LegalMod.init : LegalMod where
  version := 0
  body := []
  check := 0x42C4B0E3

/-- A copy of the legal registers (R233): its sequence number, the twelve registers, the end in ns of the newest block they hold, and
whether its CRC-32 is good. -/
structure LegalCopy where
  seq : Nat
  regs : List Nat
  endNs : Nat
  good : Bool
  deriving DecidableEq, Repr

/-- A copy as shipped. -/
def LegalCopy.init : LegalCopy where
  seq := 0
  regs := List.replicate 12 0
  endNs := 0
  good := true

/-- The code array of a tile outside the key page: both boot record copies, banks, staged lengths, legal staging,
module places with the one in force. -/
structure Code where
  rec0 : BootRec
  rec1 : BootRec
  bankA : Cells
  bankB : Cells
  lenA : Nat
  lenB : Nat
  legalStage : Cells
  modA : LegalMod
  modB : LegalMod
  modActive : Nat
  report : Bytes
  deriving DecidableEq, Repr

/-- The code array as shipped: empty. -/
def Code.init : Code where
  rec0 := BootRec.init
  rec1 := BootRec.init
  bankA := []
  bankB := []
  lenA := 0
  lenB := 0
  legalStage := []
  modA := LegalMod.init
  modB := LegalMod.init
  modActive := 0
  report := List.replicate 16 0

/-- What the boot ROM and firmware hold while the tile runs: the running bank, whether it is locked, the trial and
watchdog deadlines, how far boot has gone (step T of R605 completed), the reset that is due, and the entries that the running image defines beyond the map,
which the Pier knows from step T5 on (R662). -/
structure Boot where
  running : Option Nat
  trialEnd : Option Nat
  dogEnd : Option Nat
  step : Nat
  version : Nat
  schema : Nat
  resetAt : Option (Nat × Nat)
  stageUntil : Nat
  defs : List Entry
  deriving DecidableEq, Repr

/-- Boot state of a tile that has just been reset. -/
def Boot.init : Boot where
  running := none
  trialEnd := none
  dogEnd := none
  step := 0
  version := 0
  schema := 0
  resetAt := none
  stageUntil := 0
  defs := []

/-! ### Power (chapter 16) -/

/-- Domain state as `tile.power.state` codes it (R552). -/
inductive Pwr | run | hold | retain | isolated | off | entering | waking
  deriving DecidableEq, Repr

/-- The code of a domain state (R552). -/
def Pwr.code : Pwr → Nat
  | .run => 0 | .hold => 1 | .retain => 2 | .isolated => 3 | .off => 4 | .entering => 5 | .waking => 6

/-- A tile's power domain as the Pier holds it (R518 to R532): state, the entry or wake in progress (target, requester,
step, wake event raised, forced), the instant of the last VOUT_COMMAND, setpoint and READ_VOUT, the Punty's wake
order, whether the hub holds frames, the REFCLK count and the instant the state was entered. -/
structure Power where
  st : Pwr
  target : Nat
  requester : Nat
  step : Nat
  wakeUp : Bool
  forced : Bool
  cmdAt : Nat
  setMv : Nat
  railMv : Nat
  orderAt : Option Nat
  hubHold : Bool
  locked : Bool
  countFrom : Option Nat
  refclkCount : Nat
  since : Nat
  vrunMv : Nat
  deriving DecidableEq, Repr

/-- A domain that is OFF. The fused run setpoint is 750 mV (DESIGN CHOICE, notes/assumptions/9.md). -/
def Power.init : Power where
  st := .off
  target := 0
  requester := 0
  step := 0
  wakeUp := false
  forced := false
  cmdAt := 0
  setMv := 0
  railMv := 0
  orderAt := none
  hubHold := false
  locked := false
  countFrom := none
  refclkCount := 0
  since := 0
  vrunMv := 750

/-- A PMBus transaction of the Pier (R533, R534): precedence class 1 to 5, tile, command code, and data (mV). -/
structure PmTx where
  cls : Nat
  tile : Nat
  cmd : Nat
  data : Nat
  again : Bool
  deriving DecidableEq, Repr

/-! ### Bays (chapter 15) -/

/-- An item of the mirror stream (R492 to R494). CONT items carry the continuation of the item before them; the
content travels with the first. CONFIG runs travel with the seconds since which the calendars they may carry are in force (DEDUCED from R262 and
R263, notes/assumptions/17.md). -/
inductive MItem
  | record (r : ArchRec)
  | meterRec (slot : Nat) (r : MeterRec) (ceil : Nat)
  | meterFields (slot : Nat) (old new : MeterRec) (ceil : Nat)
  | config (runs : List (Nat × Val)) (calSince : Nat × Nat)
  | legalRegs (kind : Nat) (vals : List Nat) (endNs : Nat)
  | calBlock (b : Bytes)
  | keyBlob (place : Nat) (blob : Option Bytes)
  | split (add : Bool) (midx g s : Nat)
  | topupId (id : Bytes)
  | ceilings (rf bcast plc : Nat)
  | duty (band bucket airtime push : Nat)
  | restep (s : Nat)
  | tamperNear (b : Bytes)
  | discard (stream first last : Nat)
  | localRelay (c0 c1 : Nat)
  | auditHead (seq count keyGen : Nat) (near split : Bool) (splitS : Nat) (digest : Bytes)
  | auditIn (r : Opened)
  | auditCtx (b : Bytes)
  | markBegin (first : Nat)
  | markEnd
  | cont
  deriving DecidableEq, Repr

/-- An audit group taken from the FIFO (R501, R502). -/
structure AuditGroup where
  seq : Nat
  count : Nat
  keyGen : Nat
  near : Bool
  splitS : Nat
  digest : Bytes
  inp : Option Opened
  ctx : Bytes
  at_ : Nat
  deriving DecidableEq, Repr

/-- A promotion in progress (R506): the step that is due and the instant since which it is, t0, cause, tiles, the state the standby had, and from step 8 on
the highest SEQ held and the first SEQ issued (R517). -/
structure Promo where
  step : Nat
  at_ : Nat
  t0 : Nat
  cause : Nat
  src : Nat
  dst : Nat
  wasRun : Bool
  wasHold : Bool
  high : Nat
  next : Nat
  deriving DecidableEq, Repr

/-- A tie-break in progress (R503): the group, A0 and S0, the reports A1, S1 (empty: none came), and the mode of an injected mismatch (R635). -/
structure Tie where
  grp : AuditGroup
  a0 : Bytes
  s0 : Bytes
  a1 : Option Bytes
  s1 : Option Bytes
  start : Nat
  inj : Option Nat
  deriving DecidableEq, Repr

/-- A resync in progress (R499): H_s + 1, the next SEQ of the catch-up, its phase (1 snapshot placed, 2 catch-up,
3 END placed). -/
structure Resync where
  first : Nat
  next : Nat
  phase : Nat
  deriving DecidableEq, Repr

/-- An armed control of a bay (R631, R633): parameters, the clock count at which it ends, its count left. -/
structure BayArm where
  p1 : Nat
  p2 : Nat
  until_ : Nat
  count : Nat
  deriving DecidableEq, Repr

/-- A bay as its Punty holds it. `unlockTo` is the clock count at which its diagnostic unlock ends (R628); `arms` MIRROR_DELAY, PMBUS_DELAY and AUDIT_MISMATCH; `mdelay`
the items that MIRROR_DELAY holds with the clock count of their release. Roles are coded per R26, 255 for none. `ownFell` is when a pin
last fell, `roseE` and `roseO` when each rose, `dropE` and `dropO` since when its tile has been told to release its outputs before it falls (R488). `link` holds the items placed and not yet
delivered; `placed` and `reported` count items placed and reported written; `lastBeat` the instants of the newest heartbeats of the even and the odd tile; `lagFrom` when the oldest unreported
record was placed (R510); `auditAt` when the oldest audit group in the FIFO arrived; `rate` the start of the running second and the archive records drained in it, `rateLow` since
when the rate has been below 80 per cent of `bay.mirror.stay_run_rate` (R497). -/
structure Bay where
  modeNow : Nat
  roleE : Nat
  roleO : Nat
  ownE : Bool
  ownO : Bool
  ownFell : Nat
  roseE : Nat
  roseO : Nat
  dropE : Option Nat
  dropO : Option Nat
  link : List MItem
  placed : Nat
  reported : Nat
  tries : Nat
  fifo : PPQ MItem
  promo : Option Promo
  handover : Bool
  modeTo : Bool
  modeAct : Act
  tie : Option Tie
  groups : List AuditGroup
  resync : Option Resync
  lastBeat : Nat × Nat
  auditCount : Nat
  rateLow : Option Nat
  toutSec : Int
  toutOf : Option Nat
  toutLevel : Bool
  legalEn : Bool
  pulses : List (Nat × Nat)
  dispPos : Nat
  dispAt : Nat
  unlockTo : Nat
  arms : List (Option BayArm)
  mdelay : List (MItem × Nat)
  lagFrom : Option Nat
  auditAt : Option Nat
  rate : Nat × Nat
  deriving DecidableEq, Repr

/-- A bay before its tiles have roles. -/
def Bay.init : Bay where
  modeNow := 0
  roleE := 255
  roleO := 255
  ownE := false
  ownO := false
  ownFell := 0
  roseE := 0
  roseO := 0
  dropE := none
  dropO := none
  link := []
  placed := 0
  reported := 0
  tries := 0
  fifo := PPQ.empty
  promo := none
  handover := false
  modeTo := false
  modeAct := {}
  tie := none
  groups := []
  resync := none
  lastBeat := (0, 0)
  auditCount := 0
  rateLow := some 0
  toutSec := 0
  toutOf := none
  toutLevel := false
  legalEn := false
  pulses := []
  dispPos := 0
  dispAt := 0
  unlockTo := 0
  arms := [none, none, none]
  mdelay := []
  lagFrom := none
  auditAt := none
  rate := (0, 0)

end Sys2Proof.Machine
end

