-- ==== Sys2Proof/Machine/UnitsC.lean ====
section
/-! DEFINITION. UnitsC.lean: the state of the units of chapters 6 to 12 and 20, as plain data. -/

namespace Sys2Proof.Machine

/-! ### Switch core (chapter 11) -/

/-- A PTP message toward P0 or P1 (R441): the domain, the second for which Sync is sent, the egress timestamp that Follow_Up names (ns), what Announce says, and
the exchange of Pdelay, where an answer carries the request. -/
inductive PtpMsg
  | sync (domain sec cls src steps : Nat)
  | followUp (domain : Nat) (ns : Int) (cls src steps : Nat)
  | announce (domain cls src steps : Nat)
  | pdelayReq (domain : Nat)
  | pdelayResp (domain : Nat) (req : Bytes)
  | pdelayFollow (domain : Nat) (req : Bytes)
  deriving DecidableEq, Repr

/-- What a frame in the pool carries: a link frame toward P0 or P1, tagged with its SESSION value (R385) or, when its type is unprotected, with the peer's address;
a PTP message; an APDU toward a meter through P3 or P4 (the MIDX, its precedence under R286, its invoke-id); the frames of a stored READING frame toward P5 (R75);
a response toward Ephemeris (R284, R386); or any other frame. -/
inductive SwBody
  | link (session type : Nat) (payload : Bytes)
  | plain (mac : Bytes) (type : Nat) (payload : Bytes)
  | ptp (m : PtpMsg)
  | mac (midx kind inv : Nat) (apdu : Bytes)
  | intake (fr : List Frame)
  | eph (f : Frame)
  | other (b : Bytes)
  deriving DecidableEq, Repr

/-- A frame stored in the switch core: class, full length, cells, whether they come from the shared pool (R369). -/
structure SwFrame where
  cls : Nat
  len : Nat
  cells : Nat
  shared : Bool
  body : SwBody
  deriving DecidableEq, Repr

/-- A satellite link session (R382, R384, R388). `st` is coded per R388; `hello` holds the HELLO_REQ and HELLO payloads of a
handshake, `nonce` the NONCE_D of a CHALLENGE; `since` the start of the handshake or of VERIFY. -/
structure Sess where
  st : Nat
  port : Nat
  mac : Bytes
  sat : Nat
  value : Nat
  epoch : Nat
  tx : Nat
  rx : Nat
  keyTx : Bytes
  keyRx : Bytes
  print : Bytes
  sentAt : Nat
  gotAt : Nat
  gotNs : Nat
  hello : Bytes
  nonce : Bytes
  since : Nat
  deriving DecidableEq, Repr

/-- The switch core of a tile. VOQs are keyed 32 × input + 4 × output + class; `rsv` and `shr` count the reserve and shared cells
each input uses; `credit` is C_o and `held` the cells of the unit behind output o,
`unit` the frames that the PLC MAC (3) and the RF MAC (4) hold; `miss` the consecutive mismatches of R374;
`rr` the last input served per output and class, `cur` the class an output serves, `deficit` its deficits (R372). `waiting`
holds frames of P5 and P6 that wait for cells. Ports: state per R389, and the start of HOLD. -/
structure Switch where
  reserve : Nat
  voqs : Tbl (List SwFrame)
  waiting : List (Nat × Nat × SwFrame)
  rsv : List Nat
  shr : List Nat
  credit : List Nat
  held : List Nat
  unit : Tbl (List SwFrame)
  miss : List Nat
  stopped : List Bool
  rr : Tbl Nat
  cur : List Nat
  deficit : Tbl Nat
  sampled : List Nat
  port : List Nat
  speed : List Nat
  hold : List Nat
  sess : Tbl Sess
  nextSess : Nat
  deriving DecidableEq, Repr

/-- The switch core after a tile reset, with `reserve` cells per input. Ports P2, P6 and P7 never go down. -/
def Switch.init (reserve : Nat) : Switch where
  reserve := reserve
  voqs := []
  waiting := []
  rsv := List.replicate 8 0
  shr := List.replicate 8 0
  credit := [0, 0, 1024, 0, 0, 0, 1024, 0]
  held := List.replicate 8 0
  unit := []
  miss := List.replicate 8 0
  stopped := List.replicate 8 false
  rr := []
  cur := List.replicate 8 1
  deficit := []
  sampled := List.replicate 8 0
  port := [0, 0]
  speed := [0, 0]
  hold := [0, 0]
  sess := []
  nextSess := 1

/-! ### Balance engine (chapter 6) -/

/-- Score of a node on one phase (R213): S, D, the newest x, CONF; E_DOWN and the voltage (mV, 0 when not observable) of the newest closed
book. -/
structure BPhase where
  s : Int
  d : Int
  x : Int
  conf : Nat
  down : Int
  volt : Nat
  deriving DecidableEq, Repr

/-- A phase without a score. -/
def BPhase.zero : BPhase where
  s := 0
  d := 0
  x := 0
  conf := 0
  down := 0
  volt := 0

/-- What the engine keeps of a node: evidence in 1/256 point (R215), confirmation count and alarm state (R217), L1 to L3. -/
structure BNode where
  ev : Nat
  k : Nat
  raised : Bool
  ph : List BPhase
  deriving DecidableEq, Repr

/-- A node without evidence or score. -/
def BNode.zero : BNode where
  ev := 0
  k := 0
  raised := false
  ph := [BPhase.zero, BPhase.zero, BPhase.zero]

/-- A meter: baseline (R193; TEND 0 for none), placement, and the candidate of R198 with its count. -/
structure BMeter where
  tend : Nat
  regs : List Int
  node : Nat
  cand : Nat
  cnt : Nat
  deriving DecidableEq, Repr

/-- What one meter has contributed to an open book: energy of L1 to L3 (mWh), the meter intervals that received a contribution, whether one was
estimated, whether it was split as unphased, and voltage values as (phase, mV). -/
structure BShare where
  midx : Nat
  e : List Int
  ends : List Nat
  est : Bool
  unph : Bool
  deriving DecidableEq, Repr

/-- A PHASE_BOOK record in force (R203): zone head node, phase, SEQ of the original record, cut, fields. -/
structure BRec where
  zone : Nat
  ph : Nat
  seq0 : Nat
  cut : Nat
  eHead : Option Int
  eMet : Int
  eTech : Int
  cover : Nat
  est : Nat
  unph : Nat
  qual : Nat
  deriving DecidableEq, Repr

/-- A contribution that waits for a restatement (R203): SEQ and meter of its record, and what it brings by phase to E_MET and, from the record of a
zone head, to E_HEAD. -/
structure BPend where
  seq : Nat
  midx : Nat
  met : List Int
  head : List Int
  deriving DecidableEq, Repr

/-- The closed books of one interval: its end, its B, the tree that they keep (R197), the records in force, and the pending
contributions. -/
structure BClosed where
  t : Nat
  b : Nat
  tree : Cells
  recs : List BRec
  pend : List BPend
  deriving DecidableEq, Repr

/-- A change of grid under way (R219): the old B, T_c, T_x, and the instant of the closing tick. -/
structure BGrid where
  bOld : Nat
  tc : Nat
  tx : Nat
  at_ : Nat
  deriving DecidableEq, Repr

/-- The Balance engine of a tile. `next` is the SEQ expected from the feed (0: none yet), `link` the PRIOR_SEQ of a LINK record just taken, `cut` the SEQ of the newest TICK record, `tick` the newest closed T, `first` the end of the first book, `start` the second up to which no book exists (0 when none lacks one); `volts` the voltage values of each open book by its end: meter, phase, mV (R210);
`heads` what the metrology delivered per book interval (R235): energy of L1 to L3, none when absent, and INTERP; `suspect` the spans of holdover and
the instants of re-steps (R205, R209); `seen` the evidence of the running interval (R215); `oldTree` the previous tree while a
book of it is open, with the grid point at which the newest takes effect; `flags` the nodes flagged at the newest tick (R216), rising. -/
structure Bal where
  ready : Bool
  rebuilt : Bool
  b : Nat
  next : Nat
  link : Nat
  cut : Nat
  first : Nat
  start : Nat
  tick : Nat
  books : Tbl (List BShare)
  volts : Tbl (List (Nat × Nat × Nat))
  closed : List BClosed
  meters : Tbl BMeter
  nodes : Tbl BNode
  flags : List Nat
  heads : Tbl (Option (List Int) × Bool)
  suspect : List (Nat × Option Nat)
  seen : List (Nat × Nat × Nat)
  oldTree : Option (Cells × Nat)
  effect : Option Nat
  grid : Option BGrid
  deriving DecidableEq, Repr

/-- The Balance engine after a tile reset. -/
def Bal.init : Bal where
  ready := false
  rebuilt := false
  b := 900
  next := 0
  link := 0
  cut := 0
  first := 0
  start := 0
  tick := 0
  books := []
  volts := []
  closed := []
  meters := []
  nodes := []
  flags := []
  heads := []
  suspect := []
  seen := []
  oldTree := none
  effect := none
  grid := none

/-- The Balance engine before its rebuild (R218, R219): the flags change only at ticks, placements carry over, spans of holdover and
re-steps still mark the books that hold them (R205), the previous tree keeps its books and the newest still takes effect (R197, R217), and
what the metrology delivered stays (R235; DEDUCED, notes/assumptions/30.md). -/
def Bal.restart (x : Bal) : Bal :=
  { Bal.init with
    flags := x.flags, suspect := x.suspect, oldTree := x.oldTree, effect := x.effect, heads := x.heads
    meters := (x.meters.filter fun e => decide (e.2.node ≠ 0) || decide (e.2.cnt ≠ 0)).map fun e => (e.1, { e.2 with tend := 0, regs := [] }) }

/-- A book that begins before second `g` is open: of the grid in force, or of an old one that has yet to close. -/
def Bal.openBefore (x : Bal) (g : Nat) : Bool :=
  decide ((if x.tick = 0 ∨ x.tick < x.first then x.first - x.b else x.tick) < g) || x.grid.any fun o => decide (o.tc < g)

/-- The previous tree goes with the last book that keeps it (R197). -/
def Bal.shedTree (x : Bal) : Bal := { x with oldTree := x.oldTree.filter fun o => x.openBefore o.2 }

/-! ### Metrology (chapter 7) -/

/-- A local relay (R251): state as `tile.metro.relay_state` codes it, attempts, the command that waits, reported state (none while unknown), start
of the drive (none: the pulse waits), whether its hold is counted, end and direction of the newest pulse, since when the feedback
differs, the outcome of the newest command that has one (0 none yet, 1 ALREADY, 2 OK, 3 MISMATCH), and the place in the mirror stream that the
pulses of its sequence wait for (R252). -/
structure Relay where
  st : Nat
  a : Nat
  wait : Option Nat
  reported : Option Nat
  drive : Option Nat
  counted : Bool
  pulsed : Option (Nat × Nat)
  off : Option Nat
  outcome : Nat
  mark : Nat
  deriving DecidableEq, Repr

/-- A relay before the feedback has been judged. -/
def Relay.init : Relay where
  st := 0
  a := 0
  wait := none
  reported := none
  drive := none
  counted := false
  pulsed := none
  off := none
  outcome := 0
  mark := 0

/-- An open episode on one axis (R247): peak (µT, signed), start and its saturation, reads below 80 % and the time of the first of them. -/
structure Episode where
  peak : Int
  start : Nat
  sat : Bool
  low : Nat
  lowAt : Nat
  deriving DecidableEq, Repr

/-- A magnetic sensor: consecutive failed reads, failed, the episode of each axis. -/
structure MagSensor where
  miss : Nat
  failed : Bool
  axes : List (Option Episode)
  deriving DecidableEq, Repr

/-- A sensor without a finding. -/
def MagSensor.init : MagSensor where
  miss := 0
  failed := false
  axes := [none, none, none]

/-- The rising zero crossings of a voltage channel in the running second (R232): their number, the instants of the first and the last, as ns of the second at
the sample that ends them, and the newest sample. -/
structure ZeroX where
  n : Nat
  first : Nat
  last : Nat
  prev : Option Int
  deriving DecidableEq, Repr

/-- No sample yet. -/
def ZeroX.init : ZeroX where
  n := 0
  first := 0
  last := 0
  prev := none

/-- The metrology of a tile. `halted`: 0 no, 1 registers lost, 2 check failed; `sync` the second of the newest synchronising reset, `blk` the blocks since;
the calibration block in force since it (R242); remainders in the unit of `energyUnit` (R228, R231); `hold` says that the held energy is still
due; of the newest block the sums of active and reactive power of each phase; of the running second those sums, the sums of squares of
the channels in primary units, that of V1 in codes, the number of valid samples and the crossings of V1 and V2; the adjustments of the decimators and the clock count at the reset
(R225); the sums and the largest per-second values of the running minute; the second at which the metrology started; TEND of the newest LOCAL interval; per
minute grid point of the newest day the registers there and the largest per-second values of its minute (R237); the seconds of synchronising resets; the judgement of R252 is done. -/
structure Metro where
  run : Bool
  halted : Nat
  sync : Nat
  blk : Nat
  cal : Bytes
  remP : List Int
  remQ : List Int
  hold : Bool
  lastP : List Int
  lastQ : List Int
  secP : List Int
  secQ : List Int
  secSq : List Nat
  secV1 : Nat
  secN : Nat
  zeros : ZeroX × ZeroX
  slips : Int
  syncNow : Int
  sums : List Nat
  count : Nat
  max8 : List Nat
  since : Nat
  localAt : Nat
  marks : Tbl (List Nat × List Nat)
  settles : List Nat
  vx : Nat
  volts : List Nat
  relays : List Relay
  judged : Bool
  mags : List MagSensor
  deriving DecidableEq, Repr

/-- The metrology after a tile reset. -/
def Metro.init : Metro where
  run := false
  halted := 0
  sync := 0
  blk := 0
  cal := []
  remP := [0, 0, 0]
  remQ := [0, 0, 0]
  hold := false
  lastP := [0, 0, 0]
  lastQ := [0, 0, 0]
  secP := [0, 0, 0]
  secQ := [0, 0, 0]
  secSq := List.replicate 8 0
  secV1 := 0
  secN := 0
  zeros := (ZeroX.init, ZeroX.init)
  slips := 0
  syncNow := 0
  sums := [0, 0, 0]
  count := 0
  max8 := []
  since := 0
  localAt := 0
  marks := []
  settles := []
  vx := 0
  volts := [0, 0, 0]
  relays := [Relay.init, Relay.init]
  judged := false
  mags := [MagSensor.init, MagSensor.init]

/-! ### Power-line carrier (chapter 9) -/

/-- A tone-map set of a link (R319): MSID, the map index of each slot, the maps as (MOD, MASK). -/
structure MapSet where
  msid : Nat
  slotMap : List Nat
  maps : List (Nat × Nat)
  deriving DecidableEq, Repr

/-- What a device has advertised in its newest CAP (R314). -/
structure PCap where
  caps : Nat
  maxMaps : Nat
  bands : Nat
  epoch : Nat
  zc : Bool
  deriving DecidableEq, Repr

/-- A PLC neighbour, keyed by short address: EUI-64, framing of its last frame, the modulation and mask that its tone-map response asks for (R297), link cost (R333), the newest phase differentials in 0.1°
(R330), per-carrier SNR of the newest frames (quarter dB, one list per slot, or one list for a standard frame), the long-term mean in 2⁻⁴⁸
of that with its start and newest update (R335); the map set it gave us, whether it was asked for one; the sets we gave it, when the
previous one is dropped, the instant and the per-slot capacity of the newest; consecutive unacknowledged frames. -/
structure PNeigh where
  eui : Nat
  framing : Nat
  std : Nat × Nat
  cost : Nat
  theta : List Nat
  snr : List (List (List Int))
  mean : List Int
  meanFrom : Nat
  meanAt : Nat
  tx : Option MapSet
  asked : Bool
  rxCur : Option MapSet
  rxPrev : Option MapSet
  dropAt : Option Nat
  rxAt : Nat
  rxCap : List Nat
  unacked : Nat
  deriving DecidableEq, Repr

/-- What a receiver reported about a link (R329): cost, R̄ × 255, θ in 0.1° (65535 unknown), frames averaged. -/
structure PLink where
  cost : Nat
  rbar : Nat
  theta : Nat
  nfr : Nat
  deriving DecidableEq, Repr

/-- A frame that the modem is to send: short destination (65535 broadcast), command identifier (0 for a data frame, 256 for an LBP message), payload; for a data
frame the slot of its meter, its precedence under R286 and its invoke-id; and the bytes of its datagram that earlier MAC frames have carried (R320). -/
structure PTx where
  dst : Nat
  cmd : Nat
  body : Bytes
  slot : Nat
  kind : Nat
  inv : Nat
  off : Nat := 0
  deriving DecidableEq, Repr

/-- A transmission under way (R301): step (1 PSEL set, 2 PLC_TXEN high, 3 PLC_TXEN low again) and its instant, the frame, next hop, duration in ns, the lead of
PLC_TXEN in ns, and how far the MAC frame carries the datagram (0: to its end). -/
structure PBusy where
  step : Nat
  at_ : Nat
  tx : PTx
  hop : Nat
  dur : Nat
  lead : Nat := 0
  next : Nat := 0
  deriving DecidableEq, Repr

/-- A PLC frame as it leaves (R297, R298, R301, R316): PLC_PSEL, next hop and final short address (65535 broadcast), command identifier (0 for a data frame), framing,
FCH delimiter type (4 extended), slot header (0 for none), number of data symbols, attenuation in dB, frame counter, the
APDU or command payload, the MAC frame of security level 5; the modulation, tone map and phase detection counter of the FCH; the phase of every carrier of the
band in each symbol of slot header and data, in units of 45°; and the factor by which the samples are interpolated for the DAC. -/
structure PlcOut where
  psel : Nat
  hop : Nat
  dst : Nat
  cmd : Nat
  framing : Nat
  dt : Nat
  sh : Nat
  syms : Nat
  atten : Nat
  counter : Nat
  body : Bytes
  mac : Bytes
  fch : Nat × Nat × Nat
  phases : List (List Nat)
  interp : Nat
  deriving DecidableEq, Repr

/-- Collection from meters over PLC or RF (R309, R357), by slot: row limit with the run of single-APDU responses, when a request was last sent, the holes
asked for; and the next invoke-id. -/
structure Collect where
  limit : Tbl (Nat × Nat)
  askedAt : Tbl Nat
  holes : Tbl (List Nat)
  inv : Nat
  deriving DecidableEq, Repr

/-- Nothing collected yet. -/
def Collect.init : Collect where
  limit := []
  askedAt := []
  holes := []
  inv := 0

/-- The row limit of a meter and its run. -/
def Collect.limitOf (c : Collect) (slot rows : Nat) : Nat × Nat := (Tbl.get c.limit slot).getD (rows, 0)

/-- The row limit after a response (R309): halved after DATABLOCK, doubled after 16 single-APDU responses in a row. -/
def Collect.heard (c : Collect) (slot rows kind : Nat) : Collect :=
  let l := c.limitOf slot rows
  let n := match kind with
    | 2 => (max (l.1 / 2) 1, 0)
    | 1 => if l.2 + 1 < 16 then (l.1, l.2 + 1) else (min (2 * l.1) rows, 0)
    | _ => l
  { c with limit := if n = (rows, 0) then Tbl.del c.limit slot else Tbl.put c.limit slot n
           askedAt := if kind = 0 then c.askedAt else Tbl.del c.askedAt slot }

/-- The PLC modem of a tile. `route` gives, per meter slot, the EUI-64 of each device from the meter toward the tile (R334), `routes` the short
addresses of the route in use per device. `zc` holds the instants of the newest accepted edges (clock count), newest first, `zcNs` the time of the newest, `zcRun` the intervals in range in a
row; `joined` the devices joined (short address, EUI-64), `below` since when at most 448 are, `failSwitch` the newest failure switch, `pend` a mode change that waits, `heldJoin` devices that
wait for it; `tries` the newest transmission attempts with whether channel access failed; `cycle` the start of the POLLED cycle (clock count), its length in slots, the slot
length in ns and its TAI second; `sched` the collection schedule as (first slot, hops, meter slot), `overrun` that the cycle is counted as overrun, `taken` the slots used, `push` those used by pushes; `pushAir` the airtime of pushes; `opened` a device whose slot is open
and until when; `told` what SLOTTED the tile has advertised per device (R315), `imposed` the devices whose route it has written itself (R333), `recode` the frames that go as
standard frames (R324), `joinEvery` and `cycleS` what the running cycle uses of the settings (R337); `held` the frames counted as held back, `duty` the PLC_TXEN times of the newest transmissions; `noise` the squares of the newest unblanked samples (R325). -/
structure Plc where
  up : Bool
  live : Nat
  exhausted : Bool
  route : Tbl (List Nat)
  routes : Tbl (List Nat)
  zc : List Nat
  zcNs : Int
  zcRun : Nat
  valid : Bool
  neigh : Tbl PNeigh
  caps : Tbl PCap
  links : List (Nat × Nat × PLink)
  joined : Tbl Nat
  below : Nat
  failSwitch : Option Nat
  pend : Option (Nat × Bool)
  heldJoin : List Nat
  tries : List (Nat × Bool)
  cycle : Option (Nat × Nat × Nat × Nat)
  sched : List (Nat × Nat × Nat)
  overrun : Bool
  taken : List (Nat × Nat)
  joinEvery : Nat
  cycleS : Nat
  told : Tbl Bool
  imposed : List Nat
  recode : List PTx
  push : Nat
  pushAir : List (Nat × Nat)
  opened : Option (Nat × Nat)
  collect : Collect
  beaconAt : Option Nat
  beaconSlot : Option (Nat × Nat)
  txq : List PTx
  busy : Option PBusy
  held : List PTx
  duty : List (Nat × Nat)
  noise : List Nat
  queryAt : Nat
  routeAt : Nat
  conflicts : Tbl Nat
  deriving DecidableEq, Repr

/-- The PLC modem after a tile reset, and while it is off (R295). -/
def Plc.init : Plc where
  up := false
  live := 0
  exhausted := false
  route := []
  routes := []
  zc := []
  zcNs := 0
  zcRun := 0
  valid := false
  neigh := []
  caps := []
  links := []
  joined := []
  below := 0
  failSwitch := none
  pend := none
  heldJoin := []
  tries := []
  cycle := none
  sched := []
  overrun := false
  taken := []
  joinEvery := 1
  cycleS := 900
  told := []
  imposed := []
  recode := []
  push := 0
  pushAir := []
  opened := none
  collect := Collect.init
  beaconAt := none
  beaconSlot := none
  txq := []
  busy := none
  held := []
  duty := []
  noise := []
  queryAt := 0
  routeAt := 0
  conflicts := []

/-! ### Sub-GHz radio (chapter 10) -/

/-- The settings that take effect at a tile reset (R296, R340, R362): PLC band; RF regime, rate, PAN identifier, EUI-64. -/
structure RadioCfg where
  band : Nat
  regime : Nat
  rate : Nat
  pan : Nat
  eui : Nat
  deriving DecidableEq, Repr

/-- The defaults. -/
def RadioCfg.init : RadioCfg where
  band := 0
  regime := 0
  rate := 1
  pan := 0xFFFF
  eui := 0

/-- A downlink frame (R355): APDU, precedence of R286, invoke-id, when it was queued, attempts made, whether a duty hold and a dwell hold of it have been
counted. -/
structure RPend where
  apdu : Bytes
  kind : Nat
  inv : Nat
  at_ : Nat
  tries : Nat
  dutyHeld : Bool
  dwellHeld : Bool
  deriving DecidableEq, Repr

/-- A radio neighbour (R351). -/
structure RNeigh where
  chan : Nat
  rssi : Int
  pollAt : Option Nat
  phw : Nat
  pend : List RPend
  deriving DecidableEq, Repr

/-- A transmission (R343): when its first preamble symbol starts, airtime in ns, the step (0 waiting, 1 RF_TRSW high, 2 RF_PAEN high, 3 RF_PAEN low), channel, PSDU; what it carries:
0 acknowledgement or NONE, 1 a poll answer, 2 a CSMA frame; the meter slot (2^22 for broadcast) and the frame. -/
structure RTx where
  start : Nat
  air : Nat
  step : Nat
  chan : Nat
  psdu : Bytes
  what : Nat
  slot : Nat
  item : Option RPend
  deriving DecidableEq, Repr

/-- The transceiver. `bands` holds per duty band the airtime in ns and the push part by bucket of 10 s (clock count ÷ 10^10), `known` the clock count up to which
that airtime is known, `mirrored` the buckets mirrored; `dwell` the airtime by channel as (bucket of 100 ms, ns); `full` when every channel's charge of R361 ends; `sendq` the frames
for CSMA with their meter slot; `txs` transmissions in order; `wait` the unicast frame whose acknowledgement is awaited: sequence number, until when, meter slot, frame; `seq` the sequence number; `fc` the downlink frame counter; `air` all airtime in ns; `charged`: the charges
of R361 have been made since the tile's reset or promotion. -/
structure Rf where
  up : Bool
  charged : Bool
  fc : Nat
  exhausted : Bool
  seq : Nat
  neigh : Tbl RNeigh
  bands : List (Tbl (Nat × Nat))
  known : Nat
  mirrored : Nat
  dwell : Tbl (List (Nat × Nat))
  full : Nat
  sendq : List (Nat × RPend)
  txs : List RTx
  wait : Option (Nat × Nat × Nat × RPend)
  collect : Collect
  air : Nat
  deriving DecidableEq, Repr

/-- The transceiver after a tile reset. -/
def Rf.init : Rf where
  up := false
  charged := false
  fc := 0
  exhausted := false
  seq := 0
  neigh := []
  bands := [[], [], [], []]
  known := 0
  mirrored := 0
  dwell := []
  full := 0
  sendq := []
  txs := []
  wait := none
  collect := Collect.init
  air := 0

/-! ### The host port (chapter 12) -/

/-- A subscription (R407): SUB_ID, stream, target, the watched item, MIN_MS, the GET result last sent (empty: none yet, or the tile has been reset) and when; of ARCHIVE
the first SEQ of each stream, and of EVENT the first ESEQ, that is sent (R408). -/
structure HSub where
  id : Nat
  stream : Nat
  target : Nat
  index : Nat
  sub : Nat
  minMs : Nat
  last : Bytes
  at_ : Nat
  first : List Nat := []
  deriving DecidableEq, Repr

/-- A host session or handshake (R400 to R405). `slot`: 0 to 7 a host session, 8 the serial one, none while it is a handshake; `chan` 0 HA, 1 HB, 2 the service bus; the peer's address; the receive window as a mask
of the 64 newest SEQ; keys; the secret part of EPH_D, HELLO and HELLO_RSP payloads and the instant of HELLO_RSP; the newest 32 answers with the SEQ and tag of their request; the instant of the newest request (clock count, TIME80 in ns); the per-session
entries that differ from their default (R651); the instant at which an EXEC of it last completed (R405). -/
structure HSess where
  id : Nat
  slot : Option Nat
  chan : Nat
  peer : Bytes
  rights : Nat
  subs : List HSub
  rx : Nat
  seen : Nat
  tx : Nat
  keyRx : Bytes
  keyTx : Bytes
  print : Bytes
  opened : Nat
  eph : Nat
  hello : Bytes
  rsp : Bytes
  since : Nat
  lastReq : Nat
  lastNs : Nat
  cache : List (Nat × Bytes × List Bytes)
  vals : Tbl Val
  busyAt : Nat := 0
  deriving DecidableEq, Repr

/-- An EXEC whose answer is due (R404, R410): session, SEQ and tag of the request, TYPE and TARGET, whether it came to its tile through P2, the number of its
action and when it began. -/
structure HExec where
  sess : Nat
  seq : Nat
  tag : Bytes
  type : Nat
  target : Nat
  p2 : Bool := false
  act : Nat
  since : Nat
  deriving DecidableEq, Repr

/-- A response that waits until what its request wrote is durable and placed in the mirror stream (R653): tile, session, SEQ and tag of the request, response type,
target, payload, the page jobs counted at the tile and the mirror mark, whether it came through P2. -/
structure HSet where
  tile : Nat
  sess : Nat
  seq : Nat
  tag : Bytes
  type : Nat
  target : Nat
  body : Bytes
  job : Nat
  mirror : Nat
  since : Nat
  p2 : Bool := false
  deriving DecidableEq, Repr

/-- A request that waits in the hub for a tile to wake (R409), or for the earlier requests of its session to the same target (R410): session, SEQ and
tag, type, payload. -/
structure HWait where
  target : Nat
  sess : Nat
  seq : Nat
  tag : Bytes
  type : Nat
  payload : Bytes
  deriving DecidableEq, Repr

/-- The host-port settings that the hub read at power-on (R417): lane mode, primary lane, hold time in ms, revert time in s, service-bus address, VLAN,
UDP port, the IPv6 addresses of `device.host.ipv6_addr` and `device.host.ipv6_addr_b`. -/
structure HubCfg where
  mode : Nat
  primary : Nat
  holdMs : Nat
  revertS : Nat
  addr : Nat
  vlan : Nat
  port : Nat
  ip : Bytes
  ipB : Bytes
  deriving DecidableEq, Repr

/-- The hub. `sess` is keyed by the number of the handshake; `locks` the staging locks by entry key: session and last write; per lane the instant since which it is up or down;
`noSess` the instants of the newest NO_SESSION; `outbox` the frames of tiles that wait for a lane (tile, session, frame). -/
structure Hub where
  sess : Tbl HSess
  next : Nat
  nextSub : Nat
  execs : List HExec
  sets : List HSet
  waits : List HWait
  locks : Tbl (Nat × Nat)
  laneUp : List Bool
  laneAt : List Nat
  active : Nat
  noSess : List Nat
  cfg : HubCfg
  outbox : List (Nat × Nat × Bytes)
  deriving DecidableEq, Repr

/-- The hub after a reset of the Pier. -/
def Hub.init : Hub where
  sess := []
  next := 1
  nextSub := 1
  execs := []
  sets := []
  waits := []
  locks := []
  laneUp := [false, false]
  laneAt := [0, 0]
  active := 0
  noSess := []
  cfg := { mode := 0, primary := 0, holdMs := 10, revertS := 10, addr := 1, vlan := 0, port := 48207, ip := List.replicate 16 0
           ipB := List.replicate 16 0 }
  outbox := []

/-! ### Perturbation controls (chapter 20) -/

/-- An armed control (R631): parameters, the clock count at which it ends, its count left. -/
structure Arm where
  p1 : Nat
  p2 : Nat
  p3 : Nat
  until_ : Nat
  count : Nat
  deriving DecidableEq, Repr

/-- The controls of a tile (R632): EGRESS_DELAY, CREDIT_STARVE, NAND_FAIL; frames that EGRESS_DELAY holds as (output, input, when, frame); until when it holds the
frame dispatched toward P5; the credits that CREDIT_STARVE holds back per output. -/
structure TileDiag where
  arms : List (Option Arm)
  delayed : List (Nat × Nat × Nat × SwFrame)
  p5 : Option Nat
  back : List Nat
  deriving DecidableEq, Repr

/-- No control armed. -/
def TileDiag.init : TileDiag where
  arms := [none, none, none]
  delayed := []
  p5 := none
  back := List.replicate 8 0

/-! ### Ephemeris (chapter 8) -/

/-- An entry of the split table (R269). -/
structure SplitEnt where
  midx : Nat
  g : Nat
  s : Nat
  deriving DecidableEq, Repr

/-- A relay meter's machine (R279): state (0 MATCHED, 1 SENT, 2 CHECK, 3 MISMATCH), attempts, and the clock counts at which the next
GET and the next audit are due (none while no GET is due). -/
structure ERelay where
  st : Nat
  a : Nat
  getAt : Option Nat
  auditAt : Nat
  deriving DecidableEq, Repr

/-- What a downlink request is for: a relay ACTION, a GET of control_state for R279 or for an audit, a step of a calendar push (R287), a
step of an image push by what it asks (R290, R292), a reading or a setting of a meter clock (R442). -/
inductive EJob
  | relayAct | relayGet | auditGet
  | cal (step version : Nat)
  | push (ask : Nat)
  | clockGet (again : Bool)
  | clockSet
  deriving DecidableEq, Repr

/-- A request of Ephemeris or Meridian to a meter (R284): plaintext APDU, precedence of R286 (0 relay commands, 1 collection and
management, 2 calendar pushes, 3 image pushes), class, invoke-id, attempts made, the sealing instant (clock count, time in ns) while it is unanswered, and the SESSION
value of the satellite session that its DOWN was tagged with. -/
structure EReq where
  slot : Nat
  job : EJob
  body : Bytes
  kind : Nat
  cls : Nat
  inv : Nat
  tries : Nat
  sent : Option (Nat × Int)
  via : Option Nat := none
  deriving DecidableEq, Repr

/-- A campaign member in DRAM (R290, R292): step inside its PUSH_STATE, blocks still to send, fill passes in a row without progress, the clock count to wait
for, that of its activation, whether an answer came since, and whether multicast passes it by. -/
structure EMember where
  sub : Nat
  todo : List Nat
  idle : Nat
  waitTo : Nat
  actAt : Nat
  heard : Bool
  unicast : Bool
  deriving DecidableEq, Repr

/-- A member that has done nothing yet. -/
def EMember.init (unicast : Bool) : EMember where
  sub := 0
  todo := []
  idle := 0
  waitTo := 0
  actAt := 0
  heard := false
  unicast := unicast

/-- A meter's clock check (R442): when the next is due, the newest round trips (ns), the time put into the SET with the delay used, and the offset measured (ns). -/
structure EClock where
  nextAt : Nat
  trips : List Int
  setAt : Int
  ofs : Int
  deriving DecidableEq, Repr

/-- Ephemeris of a tile. `next` is the SEQ expected from the feed (0: none yet), `flagsAt` the class FLAGS that a reading on its way to the billing entered G5 with and the clock count at which it left G9, by SEQ (R51, R267);
`base` the billing baselines (R265); `backlog` the standby's unbilled records with the LAST_TEND and LAST_REG before
each; `deferred` the slots of R276 and the minute evaluated last; `guard` the journal count that a promotion guard waits for (R507); `cal` the step of each calendar
push with its version, `calRetry` when a FAILED one is tried again; `mcast` the multicast round and block under way; `activate` says that push_activate was
executed; `bcast` is the broadcast counter (R291); `topups` the accepted TOPUP_IDs, oldest first. -/
structure Eph where
  splits : List SplitEnt
  next : Nat
  flagsAt : Tbl (Nat × Nat)
  base : Tbl (Nat × List Int)
  backlog : List (ArchRec × Nat × List Int)
  deferred : List Nat
  minute : Int
  guard : Nat
  relays : Tbl ERelay
  reqs : List EReq
  cal : Tbl (Nat × Nat)
  calRetry : Tbl Nat
  members : Tbl EMember
  mcast : Option (Nat × Nat)
  mcastDone : Bool
  activate : Bool
  bcast : Nat
  clocks : Tbl EClock
  topups : List Nat
  deriving DecidableEq, Repr

/-- Ephemeris after a tile reset. -/
def Eph.init : Eph where
  splits := []
  next := 0
  flagsAt := []
  base := []
  backlog := []
  deferred := []
  minute := 0
  guard := 0
  relays := []
  reqs := []
  cal := []
  calRetry := []
  members := []
  mcast := none
  mcastDone := false
  activate := false
  bcast := 0
  clocks := []
  topups := []

end Sys2Proof.Machine
end

