-- ==== Sys2Proof/Machine/State.lean ====
section
/-! DEFINITION. State.lean: everything the manual gives the DK216 to hold, as plain data, and the state after reset.
Every dictionary entry (R642 to R666) that is held as a value lives in `State.regs`; the rest is structured. -/

namespace Sys2Proof.Machine

/-- Faults. The manual describes no event that stops the block; none is raised. -/
inductive Fault
  /-- Raised by no command: kept so that a stop would have a name. Safe. -/
  | none
  deriving DecidableEq, Repr

/-- Refusals of the model. -/
inductive Refusal
  /-- Raised by `exec` for a command whose meaning is not written yet. Safe. -/
  | notModelled (mnemonic : String)
  deriving DecidableEq, Repr

/-- What a tile's units drive toward its field outputs (R30): relay lines (0 none, 1 SET, 2 CLR); whether the PLC modem drives its pins (R295), PLC_TXEN,
PLC_PSEL (3 is all phases); whether the transceiver drives its pins (R338), RF_PAEN, RF_TRSW; and whether DISP is sending. -/
structure Drive where
  relay0 : Nat
  relay1 : Nat
  plc : Bool
  txen : Bool
  psel : Nat
  rf : Bool
  paen : Bool
  trsw : Bool
  disp : Bool
  deriving DecidableEq, Repr

/-- Nothing driven active. -/
def Drive.idle : Drive where
  relay0 := 0
  relay1 := 0
  plc := false
  txen := false
  psel := 3
  rf := false
  paen := false
  trsw := false
  disp := false

/-- What a tile loses at a tile reset (R10, R602). `syncWanted`: since when a synchronising reset of the metrology is due (R226);
`legalUntil`: until when a legal operation runs; `modDue`: a legal module takes over at the next block boundary (R624);
`ptpSec`: the second of the newest PTP transmission (R441). -/
structure Vol where
  boot : Boot
  mer : Mer
  vault : Vault
  meters : Meters
  gather : Gather
  marver : Marver
  lehr : Lehr
  queues : Vector (PPQ QItem) 7
  elog : EventLog
  sw : Switch
  bal : Bal
  metro : Metro
  plc : Plc
  rf : Rf
  radio : RadioCfg
  diag : TileDiag
  eph : Eph
  drive : Drive
  syncWanted : Option Nat
  legalUntil : Nat
  modDue : Bool
  ptpSec : Int
  deriving DecidableEq, Repr

/-- The volatile part right after a tile reset at clock count `now`. -/
def Vol.init (now : Nat) : Vol where
  boot := Boot.init
  mer := Mer.init now
  vault := Vault.init
  meters := Meters.init
  gather := Gather.init
  marver := Marver.init
  lehr := Lehr.init
  queues := Vector.replicate 7 PPQ.empty
  elog := { entries := [], recent := [], readTo := 0, unsent := [] }
  sw := Switch.init 256
  bal := Bal.init
  metro := Metro.init
  plc := Plc.init
  rf := Rf.init
  radio := RadioCfg.init
  diag := TileDiag.init
  eph := Eph.init
  drive := Drive.idle
  syncWanted := none
  legalUntil := 0
  modDue := false
  ptpSec := 0

/-- A tile: the volatile part, what survives every reset (NAND die, key page copies, retirement fuse, fuse bank
condition, code array, legal log, the end in ns of the newest block of its legal registers, both copies of these registers and of the calibration block
(R233, R242), the legal check value (R243), whether legal registers or module are damaged (bits 0, 1), the start of the running book interval with
the net energies there in µWh and the unmeasured stretches in ns (R229, R235), the levels of RLY_FB (low), the seconds at which the calendar in force and the previous one came into force (R263), Punty mark of R691), what the Pier holds for it, the clock count of its last
reset, the EPOCH of its PLC stack (R314), the short addresses of devices that are no meters by EUI-64 (R305), and the model's own index of DRBG draws (notes/assumptions/4.md). -/
structure Tile where
  vol : Vol
  media : Media
  page0 : KeyPage
  page1 : KeyPage
  retired : Bool
  fuseState : Nat
  code : Code
  legal : List LegalEnt
  legalHead : Nat × Nat
  fcEui : Nat
  legalEnd : Nat
  legalA : LegalCopy
  legalB : LegalCopy
  calA : Bytes
  calB : Bytes
  legalCheck : Nat
  legalBad : Nat
  bookBase : Nat × List Int
  gaps : List (Nat × Nat)
  fbLow : List Bool
  calSince : Nat × Nat
  marks : Nat × Nat
  power : Power
  upSince : Nat
  vanaOk : Bool
  plcEpoch : Nat
  plcShorts : Tbl Nat
  draws : Nat
  deriving DecidableEq, Repr

/-- A tile as shipped, its domain OFF. -/
def Tile.init : Tile where
  vol := Vol.init 0
  media := Media.init
  page0 := KeyPage.blank
  page1 := KeyPage.blank
  retired := false
  fuseState := 0
  code := Code.init
  legal := []
  legalHead := (0, 0)
  fcEui := 0
  legalEnd := 0
  legalA := LegalCopy.init
  legalB := LegalCopy.init
  calA := calDefault
  calB := calDefault
  legalCheck := 0x42C4B0E3
  legalBad := 0
  bookBase := (0, [0, 0, 0])
  gaps := []
  fbLow := [true, true]
  calSince := (0, 0)
  marks := (0, 0)
  power := Power.init
  upSince := 0
  vanaOk := true
  plcEpoch := 0
  plcShorts := []
  draws := 0

/-- State of the Pier's clock selection (R19). -/
inductive ClockSt | select | onRefclk | onRc
  deriving DecidableEq, Repr

/-- The instructions of the test access port (R683). -/
inductive TapIns | bypass | idcode | samplePreload | extest
  deriving DecidableEq, Repr

/-- The test access port (R683): the instruction it holds, the data register being shifted, and the update stage of the scan chain. -/
structure Tap where
  ins : TapIns
  dr : List Bool
  cells : List Bool
  deriving DecidableEq, Repr

/-- The port in reset, as its pulled-down TRST_N leaves it: IEEE 1149.1 selects IDCODE. -/
def Tap.init : Tap where
  ins := .idcode
  dr := []
  cells := []

/-- The Pier and the hub. `plan` is the boot plan in force, which the Pier read at power-on (R604, R655); `board` the regulators that answer on the
board's PMBus, a bit per tile, and `enumDue` that the Pier has yet to enumerate them (R18, R536); `tap` the test access port
(R683). -/
structure Pier where
  up : Bool
  clock : ClockSt
  passCount : Nat
  misc : List Nat
  degraded : Bool
  evq : PPQ Event
  elog : EventLog
  upSince : Nat
  bootQueue : List Nat
  bootAt : Nat
  plan : Nat
  resetAt : Option Nat
  pmb : List PmTx
  pmbFlight : Option PmTx
  pmbAddr : List Nat
  present : Nat
  board : Nat
  enumDue : Bool
  polledAt : Nat
  vsysMv : Nat
  pfail : Bool
  rails : Nat
  boardPull : Bool
  pfailOkAt : Option Nat
  activeLane : Nat
  time : DevTime
  es : Bool
  rootState : Nat
  hub : Hub
  draws : Nat
  tap : Tap
  deriving DecidableEq, Repr

/-- The Pier in reset. -/
def Pier.init : Pier where
  up := false
  clock := .select
  passCount := 0
  misc := []
  degraded := false
  evq := PPQ.empty
  elog := { entries := [], recent := [], readTo := 0, unsent := [] }
  upSince := 0
  bootQueue := []
  bootAt := 0
  plan := 0xFFFF
  resetAt := none
  pmb := []
  pmbFlight := none
  pmbAddr := (List.range 16).map (0x40 + ·)
  present := 0
  board := 0
  enumDue := false
  polledAt := 0
  vsysMv := 0
  pfail := false
  rails := 0
  boardPull := false
  pfailOkAt := none
  activeLane := 0
  time := DevTime.init
  es := false
  rootState := 0
  hub := Hub.init
  draws := 0
  tap := Tap.init

/-- What the device puts out: the answer of a directly commanded action, a value or bytes read, and the frames and
edges that the rules send. -/
inductive Out
  | answer (unit : Nat) (st : Status)
  | value (unit n : Nat)
  | bytes (unit : Nat) (b : Bytes)
  | tout (bay : Nat) (level : Bool)
  | ptp (tile port vlan : Nat) (identity : Bytes) (m : PtpMsg)
  | lanePdelay (lane : Nat) (answer : Bool)
  | pmbus (addr cmd data : Nat)
  | link (tile port : Nat) (b : Bytes)
  | plc (tile : Nat) (frame : PlcOut)
  | rf (tile chan : Nat) (dBm : Int) (ppdu : Bytes)
  | i2c (tile addr reg val : Nat)
  | i2cRead (tile addr reg n : Nat)
  | dgram (chan vlan port : Nat) (src peer b : Bytes)
  | icmp (lane vlan type : Nat) (src peer b : Bytes)
  deriving DecidableEq, Repr

/-- The balls whose level the Pier gates (R31 to R33, R488): BAY_OWN per tile, each tile's field outputs (none is high
impedance), TOUT per bay, PFAIL_N. -/
structure Pins where
  own : List Bool
  field : List (Option Drive)
  tout : List Bool
  pfailN : Bool
  deriving DecidableEq, Repr

/-- Everything the manual gives the DK216. `now` counts nanoseconds and is the model's own. `regs` holds every dictionary
entry that has a value other than its default, by index × 256 + sub-index. `out` lists what was put out, oldest
first. `acts` is the model's own too (notes/assumptions/26.md). -/
structure State where
  pending : List Instr
  now : Nat
  regs : Tbl Val
  tiles : Vector Tile 16
  bays : Vector Bay 8
  pier : Pier
  out : List Out
  pins : Pins
  acts : Acts
  deriving DecidableEq, Repr

/-- The machine with VSYS absent, as shipped: nothing commanded, every entry at its default. -/
def State.reset : State where
  pending := []
  now := 0
  regs := []
  tiles := Vector.replicate 16 Tile.init
  bays := Vector.replicate 8 Bay.init
  pier := Pier.init
  out := []
  pins := { own := List.replicate 16 false, field := List.replicate 16 none, tout := List.replicate 8 false,
            pfailN := true }
  acts := {}

end Sys2Proof.Machine
end

