-- ==== Sys2Proof/Machine/Ops.lean ====
section
/-! DEFINITION. Ops.lean: the named operations on the state that the meanings share: dictionary values, tiles and bays,
roles, time, ping-pong queues, events, the mirror stream, tile reset, and the settling of the gated pins. -/

namespace Sys2Proof.Machine

/-! ### Dictionary values -/

/-- Index of an entry in the area of unit `n` (R643). -/
def Entry.index (e : Entry) (n : Nat) : Nat :=
  match e.area with
  | .dev => e.off
  | .bay => 0x2000 + 0x100 * n + e.off
  | .tile => 0x4000 + 0x400 * n + e.off

/-- Key of sub-index `i` (counted from the first) of an entry of unit `n` in `State.regs`. -/
def Entry.key (e : Entry) (n i : Nat) : Nat := e.index n * 256 + e.sub + i

/-- The number a default gives at sub-index `i`. -/
def Dflt.numAt : Dflt → Nat → Nat
  | .num n, _ => n
  | .nums l, i => l.getD i 0
  | _, _ => 0

/-- The byte a default gives at sub-index `i`, offset `a`. -/
def Dflt.byteAt : Dflt → Nat → Nat → Byte
  | .fill b, _, _ => BitVec.ofNat 8 b
  | .stride n b, _, a => if a % n = 0 then BitVec.ofNat 8 b else 0
  | .bytes l, _, a => BitVec.ofNat 8 (l.getD a 0)
  | .sparse l, _, a => BitVec.ofNat 8 ((Tbl.get l a).getD 0)
  | .rows l, i, a => BitVec.ofNat 8 ((l.getD i []).getD a 0)
  | _, _, _ => 0

/-- The largest value of an entry's size, plus 1. -/
def Entry.span (e : Entry) : Nat := 256 ^ e.size

/-- Read a numeric entry. -/
def State.rd (s : State) (e : Entry) (n : Nat) (i : Nat := 0) : Nat :=
  match Tbl.get s.regs (e.key n i) with
  | some (.num v) => v
  | _ => e.dflt.numAt i

/-- Write a numeric entry; a value equal to the default is not listed. -/
def State.wr (s : State) (e : Entry) (n v : Nat) (i : Nat := 0) : State :=
  let w := v % e.span
  { s with regs := if w = e.dflt.numAt i then Tbl.del s.regs (e.key n i) else Tbl.put s.regs (e.key n i) (.num w) }

/-- Read a numeric entry as a two's complement number of its size (R645). -/
def State.rdI (s : State) (e : Entry) (n : Nat) (i : Nat := 0) : Int :=
  let v := s.rd e n i
  if v < e.span / 2 then (v : Int) else (v : Int) - (e.span : Int)

/-- Write a number as two's complement. -/
def State.wrI (s : State) (e : Entry) (n : Nat) (v : Int) (i : Nat := 0) : State :=
  s.wr e n (v % (e.span : Int)).toNat i

/-- The listed bytes of an OCTET entry. -/
def State.cells (s : State) (e : Entry) (n i : Nat) : Cells :=
  match Tbl.get s.regs (e.key n i) with
  | some (.oct c) => c
  | _ => []

/-- Read `len` bytes of an OCTET entry from offset `a`. -/
def State.rdB (s : State) (e : Entry) (n : Nat) (a len : Nat) (i : Nat := 0) : Bytes :=
  (List.range len).map fun k => Cells.read (e.dflt.byteAt i) (s.cells e n i) (a + k)

/-- Read a little-endian number inside an OCTET entry. -/
def State.rdF (s : State) (e : Entry) (n : Nat) (a len : Nat) (i : Nat := 0) : Nat := leNat (s.rdB e n a len i)

/-- Read a whole OCTET entry. -/
def State.rdAll (s : State) (e : Entry) (n : Nat) (i : Nat := 0) : Bytes := s.rdB e n 0 e.size i

/-- Write bytes of an OCTET entry from offset `a`. -/
def State.wrB (s : State) (e : Entry) (n : Nat) (a : Nat) (b : Bytes) (i : Nat := 0) : State :=
  let c := Cells.writeAll (e.dflt.byteAt i) (s.cells e n i) a b
  { s with regs := if c = [] then Tbl.del s.regs (e.key n i) else Tbl.put s.regs (e.key n i) (.oct c) }

/-- Return an entry to its default. -/
def State.clr (s : State) (e : Entry) (n : Nat) (i : Nat := 0) : State :=
  { s with regs := Tbl.del s.regs (e.key n i) }

/-- Count `k` more (R587): a U64 wraps, every other counter saturates. -/
def State.bump (s : State) (e : Entry) (n : Nat) (i : Nat := 0) (k : Nat := 1) : State :=
  let v := s.rd e n i + k
  s.wr e n (if e.size = 8 then v else min v (e.span - 1)) i

/-- Bit `k` of a number. -/
def bit (v k : Nat) : Bool := v.testBit k

/-- Set bit `k` of a number to `b`. -/
def setBit (v k : Nat) (b : Bool) : Nat :=
  if b then (if bit v k then v else v + 2 ^ k) else (if bit v k then v - 2 ^ k else v)

/-- Set one bit of a numeric entry. -/
def State.wrBit (s : State) (e : Entry) (n k : Nat) (b : Bool) : State := s.wr e n (setBit (s.rd e n) k b)

/-- Bit value of a truth value. -/
def b2n (b : Bool) : Nat := if b then 1 else 0

/-- A field of a byte string, little-endian. -/
def fld (b : Bytes) (a len : Nat) : Nat := leNat ((b.drop a).take len)

/-- Exactly `n` bytes: cut or filled with zeros. -/
def fit (n : Nat) (b : Bytes) : Bytes := b.take n ++ List.replicate (n - b.length) 0

/-- Two's complement reading of `n` bits. -/
def toSigned (bits v : Nat) : Int := if v < 2 ^ (bits - 1) then (v : Int) else (v : Int) - (2 ^ bits : Nat)

/-- Two's complement form in `n` bytes, little-endian. -/
def intLE (n : Nat) (v : Int) : Bytes := natLE n (v % (256 ^ n : Nat)).toNat

/-! ### Units -/

/-- A tile. -/
def State.tile (s : State) (t : TileId) : Tile := s.tiles[t]

/-- Change a tile. -/
def State.onTile (s : State) (t : TileId) (f : Tile → Tile) : State := { s with tiles := s.tiles.set t (f s.tiles[t]) }

/-- Change a tile's volatile part. -/
def State.onVol (s : State) (t : TileId) (f : Vol → Vol) : State := s.onTile t fun x => { x with vol := f x.vol }

/-- A tile's volatile part. -/
def State.vol (s : State) (t : TileId) : Vol := (s.tile t).vol

/-- Change a tile's power domain. -/
def State.onPower (s : State) (t : TileId) (f : Power → Power) : State := s.onTile t fun x => { x with power := f x.power }

/-- Change a tile's media. -/
def State.onMedia (s : State) (t : TileId) (f : Media → Media) : State := s.onTile t fun x => { x with media := f x.media }

/-- Queue a page program at the tile's FTL (R564, R574): it starts at once when none is under way and PFAIL_N is high. -/
def State.queueJob (s : State) (t : TileId) (j : PageJob) : State :=
  s.onMedia t fun m => { m with jobs := m.jobs ++ [(m.jobCount, j)], jobCount := m.jobCount + 1
                                busy := m.busy || (m.jobs.isEmpty && !s.pier.pfail) }

/-- A bay. -/
def State.bay (s : State) (b : BayId) : Bay := s.bays[b]

/-- Change a bay. -/
def State.onBay (s : State) (b : BayId) (f : Bay → Bay) : State := { s with bays := s.bays.set b (f s.bays[b]) }

/-- Change the Pier. -/
def State.onPier (s : State) (f : Pier → Pier) : State := { s with pier := f s.pier }

/-- Put something out. -/
def State.emit (s : State) (o : Out) : State := { s with out := s.out ++ [o] }

/-- The answer of an action by its unit: the staging entries that it consumed are free (R399), and the EXEC that waits for it has its status (R410). -/
def State.answerFor (s : State) (a : Act) (n : Nat) (st : Status) : State :=
  { s with
    out := s.out ++ [.answer n st]
    pier := { s.pier with hub := { s.pier.hub with locks := s.pier.hub.locks.filter fun e => !a.frees.contains e.1 } }
    acts := { s.acts with fins := if a.exec = 0 then s.acts.fins else s.acts.fins ++ [(a.exec, st)] } }

/-- Answer the action that runs now. -/
def State.answer (s : State) (n : Nat) (st : Status) : State := s.answerFor s.acts.now n st

/-- Do something as part of an action. -/
def State.acting (s : State) (a : Act) (f : State → State) : State :=
  let r := f { s with acts := { s.acts with now := a } }
  { r with acts := { r.acts with now := s.acts.now } }

/-- A directly commanded action of a tile that consumes staging entries. -/
def consuming (t : TileId) (l : List Entry) (f : State → State) (s : State) : State := s.acting { frees := l.map fun e => e.key t 0 } f

/-- Apply a step for each element in order. -/
def State.each {α : Type} (s : State) (l : List α) (f : State → α → State) : State := l.foldl f s

/-- The bay of a tile. -/
def bayOf (t : TileId) : BayId := ⟨t.val / 2, by omega⟩

/-- The even or odd tile of a bay. -/
def tileOf (b : BayId) (odd : Bool) : TileId := ⟨2 * b.val + b2n odd, by unfold b2n; split <;> omega⟩

/-- The other tile of the bay. -/
def mate (t : TileId) : TileId := tileOf (bayOf t) (decide (t.val % 2 = 0))

/-- All tiles, all bays. -/
def allTiles : List TileId := List.finRange 16
def allBays : List BayId := List.finRange 8

/-- Role of a tile, coded per R26, 255 for none. -/
def State.role (s : State) (t : TileId) : Nat :=
  if t.val % 2 = 0 then (s.bay (bayOf t)).roleE else (s.bay (bayOf t)).roleO

/-- Set a tile's role. In DEGRADED every role stays as it is (R22). -/
def State.setRole (s : State) (t : TileId) (r : Nat) : State :=
  s.onBay (bayOf t) fun b => if s.pier.degraded then b else if t.val % 2 = 0 then { b with roleE := r } else { b with roleO := r }

/-- Whether the Punty drives the tile's BAY_OWN high. -/
def State.owns (s : State) (t : TileId) : Bool :=
  if t.val % 2 = 0 then (s.bay (bayOf t)).ownE else (s.bay (bayOf t)).ownO

/-- Raise or lower a tile's BAY_OWN (R31). In DEGRADED its level stays as it is (R22). -/
def State.setOwn (s : State) (t : TileId) (v : Bool) : State :=
  s.onBay (bayOf t) fun b =>
    let b' := if v then b else { b with ownFell := s.now }
    if s.pier.degraded then b
    else if t.val % 2 = 0 then { b' with ownE := v, roseE := if v then s.now else b.roseE, dropE := none }
    else { b' with ownO := v, roseO := if v then s.now else b.roseO, dropO := none }

/-- Since when a tile has been told to release its outputs, before its BAY_OWN falls (R33, R488). -/
def State.dropping (s : State) (t : TileId) : Option Nat :=
  if t.val % 2 = 0 then (s.bay (bayOf t)).dropE else (s.bay (bayOf t)).dropO

/-- The Punty tells a tile that owns to release its outputs, 20 µs before it lowers its BAY_OWN (R488). In DEGRADED nothing falls (R22). -/
def State.releaseOwn (s : State) (t : TileId) : State :=
  if !s.owns t || s.pier.degraded then s
  else s.onBay (bayOf t) fun b => if t.val % 2 = 0 then { b with dropE := some (b.dropE.getD s.now) } else { b with dropO := some (b.dropO.getD s.now) }

/-- A BAY_OWN whose tile was told to release its outputs 20 µs ago falls (R488). -/
def State.dropDue (s : State) (t : TileId) : State :=
  match s.dropping t with
  | some x => if x + 20000 ≤ s.now then s.setOwn t false else s
  | none => s

/-- The bay is in independent mode. -/
def State.independent (s : State) (t : TileId) : Bool := decide ((s.bay (bayOf t)).modeNow = 1)

/-- ACTIVE or INDEPENDENT: the tile serves meters. -/
def State.serves (s : State) (t : TileId) : Bool := decide (s.role t = 0 ∨ s.role t = 5)

/-- Both BAY_OWN pins of the bay may have been low for 10 µs when one rises now (R32): none is about to fall. -/
def State.ownSettled (s : State) (b : BayId) : Bool :=
  decide ((s.bay b).ownFell + 10000 ≤ s.now) && (s.bay b).dropE.isNone && (s.bay b).dropO.isNone

/-- The tile's domain is in RUN. -/
def State.inRun (s : State) (t : TileId) : Bool := decide ((s.tile t).power.st = .run)

/-- The bay has a standby that takes the mirror stream (R490). -/
def State.hasStandby (s : State) (b : BayId) : Bool :=
  decide ((s.bay b).modeNow = 0) &&
  [false, true].any fun o =>
    let t := tileOf b o
    (decide (s.role t = 1) || decide (s.role t = 2)) &&
    !(decide ((s.tile t).power.st = .off) || decide ((s.tile t).power.st = .isolated))

/-- The standby of a bay. -/
def State.standbyOf (s : State) (b : BayId) : Option TileId :=
  ([false, true].map (tileOf b)).find? fun t => decide (s.role t = 1) || decide (s.role t = 2)

/-- The active tile of a redundant bay. -/
def State.activeOf (s : State) (b : BayId) : Option TileId :=
  ([false, true].map (tileOf b)).find? fun t => decide (s.role t = 0)

/-! ### Time (chapter 13) -/

/-- Meridian time of a tile in nanoseconds. The time runs at the clock count corrected by the frequency correction. -/
def Mer.time (m : Mer) (now : Nat) : Int :=
  let d : Int := (now : Int) - (m.baseNow : Int)
  m.baseTime + d + d * m.freq / 1000000000

/-- Meridian time of tile `t` in nanoseconds. -/
def State.timeNs (s : State) (t : TileId) : Int := (s.vol t).mer.time s.now

/-- The newest `n` elements. -/
def keepLast {α : Type} (n : Nat) (l : List α) : List α := l.drop (l.length - n)

/-- A trigger of R226: the metrology is to reset at the first whole second that begins at least 1 ms later. One that arrives while a reset is pending, or
while the 35 SETTLE samples of the newest one run, is served by that one. -/
def State.askSync (s : State) (t : TileId) : State :=
  let m := (s.vol t).metro
  if (s.vol t).syncWanted.isSome ∨ (m.run = true ∧ (s.now : Int) ≤ m.syncNow + 4272461) then s
  else s.onVol t fun v => { v with syncWanted := some s.now }

/-- TIME80 seconds of tile `t`. -/
def State.timeSec (s : State) (t : TileId) : Nat := (s.timeNs t / 1000000000).toNat

/-- The tile provides time: LOCKED, HOLDOVER or REFUSING (R431). -/
def State.hasTime (s : State) (t : TileId) : Bool :=
  let m := s.rd Reg.time_state t
  decide (m = 2 ∨ m = 3 ∨ m = 4)

/-- WHEN of an event or record: the tile's time, 0 while it provides none (R592). -/
def State.whenNs (s : State) (t : TileId) : Nat := if s.hasTime t then (s.timeNs t).toNat else 0

/-- Time of the Pier's own events: that of the lowest-numbered tile that provides time, 0 for none
(DESIGN CHOICE, notes/assumptions/10.md). -/
def State.pierNs (s : State) : Nat :=
  match allTiles.find? fun t => s.inRun t && s.hasTime t with
  | some t => (s.timeNs t).toNat
  | none => 0

/-- TIME80 bytes of a time in nanoseconds (R419). -/
def time80 (ns : Nat) : Bytes := natLE 6 (ns / 1000000000) ++ natLE 4 (ns % 1000000000)

/-- Nanoseconds of TIME80 bytes. -/
def time80ns (b : Bytes) : Nat := fld b 0 6 * 1000000000 + fld b 6 4

/-! ### Ping-pong queues (R578 to R585) -/

/-- Items held. -/
def PPQ.fill_ {α : Type} (q : PPQ α) : Nat := q.drain.length + q.fill.length

/-- Judge the watermark after an access (R584, R585). -/
def PPQ.note {α : Type} (q : PPQ α) (l : Nat) : PPQ α :=
  let f := q.fill_
  let up := !q.above && decide (l ≤ f)
  let back := q.above && decide (f < l)
  { q with
    above := if up then true else if back then false else q.above
    crossed := q.crossed || up
    crossedBack := q.crossedBack || back
    level := if (up || back) && decide (q.count = 0) then f else q.level
    count := if up || back then min (q.count + 1) 65535 else q.count
    peak := max q.peak f }

/-- Outcome of an access: the queue, items lost by it, and whether the pointer copies disagreed (R582). -/
structure PPQ.Acc (α : Type) where
  q : PPQ α
  lost : Nat
  reset : Bool
  item : Option α

/-- The comparison of the pointer copies at every access (R582): on a mismatch both banks are emptied and the larger
implied fill is lost. -/
def PPQ.check {α : Type} (q : PPQ α) : PPQ α × Nat × Bool :=
  match q.split with
  | some (a, b) => ({ q with drain := [], fill := [], split := none }, max a b, true)
  | none => (q, 0, false)

/-- Place an item (R579, R581). -/
def PPQ.put {α : Type} (q : PPQ α) (c : Nat) (x : α) : PPQ α × Nat :=
  if q.fill.length < c then ({ q with fill := q.fill ++ [x] }, 0)
  else if q.drain = [] then ({ q with drain := q.fill, fill := [x] }, 0)
  else ({ q with fill := q.fill.tail ++ [x] }, 1)

/-- Take the next item (R579, R580). -/
def PPQ.take {α : Type} (q : PPQ α) : PPQ α × Option α :=
  match q.drain, q.fill with
  | x :: r, _ => ({ q with drain := r }, some x)
  | [], x :: r => ({ q with drain := r, fill := [] }, some x)
  | [], [] => (q, none)

/-- A whole write access with bank size `c` and level `l`. -/
def PPQ.write {α : Type} (q : PPQ α) (c l : Nat) (x : α) : PPQ.Acc α :=
  let k := q.check
  let p := k.1.put c x
  { q := p.1.note l, lost := k.2.1 + p.2, reset := k.2.2, item := none }

/-- A whole read access. -/
def PPQ.read {α : Type} (q : PPQ α) (l : Nat) : PPQ.Acc α :=
  let k := q.check
  let p := k.1.take
  { q := p.1.note l, lost := k.2.1, reset := k.2.2, item := p.2 }

/-- The watermark status word (R584). -/
def PPQ.word {α : Type} (q : PPQ α) : Nat :=
  b2n q.above + 2 * b2n q.crossed + 4 * b2n q.crossedBack + 2 ^ 16 * q.count + 2 ^ 32 * q.level + 2 ^ 48 * q.peak

/-- What a read of the status word leaves (R585). -/
def PPQ.seen {α : Type} (q : PPQ α) : PPQ α :=
  { q with crossed := false, crossedBack := false, count := 0, level := 0, peak := q.fill_ }

/-- Bank size of a tile queue (R586). -/
def bankSize (code : Fin 7) : Nat := [4096, 8192, 8192, 8192, 2048, 4096, 256].getD code 0

/-- A tile queue. -/
def State.queue (s : State) (t : TileId) (code : Fin 7) : PPQ QItem := (s.vol t).queues[code]

/-- Watermark level of a tile queue. That of queue 0 is held under `tile.cullet.watermark`, the same stored value (R586). -/
def State.level (s : State) (t : TileId) (code : Fin 7) : Nat :=
  if code.val = 0 then s.rd Reg.cullet_watermark t else s.rd Reg.queue_wm_level t code

/-- Set a tile queue. -/
def State.setQueue (s : State) (t : TileId) (code : Fin 7) (q : PPQ QItem) : State :=
  s.onVol t fun v => { v with queues := v.queues.set code q }

/-- Put an access's outcome back: the queue, LOST and the reset counter. -/
def State.qDone (s : State) (t : TileId) (code : Fin 7) (a : PPQ.Acc QItem) : State :=
  let s := s.setQueue t code a.q
  let s := if a.lost = 0 then s else s.bump Reg.queue_lost t code a.lost
  if a.reset then s.bump Reg.queue_resets t code else s

/-! ### Events (R591 to R594) -/

/-- Milliseconds since the tile's last reset. -/
def State.uptimeMs (s : State) (t : TileId) : Nat := (s.now - (s.tile t).upSince) / 1000000

/-- Place an event in the Pier's event queue (bank size 64, level 96, R586). -/
def State.pierPut (s : State) (e : Event) : State :=
  let a := s.pier.evq.write 64 96 (e : Event)
  let s := s.onPier fun p => { p with evq := a.q }
  if a.lost = 0 then s else s.bump Reg.device_events_queue_lost 0 0 a.lost

/-- Raise an event in the Pier's log: WHERE 0x80 + b for a bay, 0xFF for the device (R592). -/
def State.pierEvent (s : State) (wher sev code : Nat) (obj a b : Nat := 0) : State :=
  s.pierPut { sev := sev, wher := wher, code := code, obj := obj, a := a, b := b, whenNs := s.pierNs,
              uptime := (s.now - s.pier.upSince) / 1000000, eseq := 0, taken := 0 }

/-- Set or clear a bit of `bay.alarm`, with its event (R516, R593). -/
def State.alarm (s : State) (b : BayId) (k : Nat) (on : Bool) : State :=
  let w := s.rd Reg.bay_alarm b
  if bit w k = on then s
  else (s.wr Reg.bay_alarm b (setBit w k on)).pierEvent (0x80 + b.val) (if on then 2 else 0) (if on then 0x0206 else 0x0207) 0 k

/-- Raise a tile event: into the tile event queue, and a copy of a FAULT event to the Pier (R591). -/
def State.event (s : State) (t : TileId) (sev code : Nat) (obj a b : Nat := 0) : State :=
  let e : Event := { sev := sev, wher := t, code := code, obj := obj, a := a, b := b, whenNs := s.whenNs t,
                     uptime := s.uptimeMs t, eseq := 0, taken := 0 }
  let s := s.qDone t 6 ((s.queue t 6).write 256 (s.level t 6) (.event e))
  if sev = 3 then s.pierPut e else s

/-- A forced queue reset raises QUEUE FORCED_RESET (R582). -/
def State.qEvent (s : State) (t : TileId) (code : Fin 7) (reset : Bool) : State :=
  if reset then s.event t 1 0x1C01 code else s

/-- Write an item to a tile queue (R579, R581, R582). -/
def State.qWrite (s : State) (t : TileId) (code : Fin 7) (x : QItem) : State :=
  let a := (s.queue t code).write (bankSize code) (s.level t code) x
  (s.qDone t code a).qEvent t code a.reset

/-- Read the next item of a tile queue. -/
def State.qRead (s : State) (t : TileId) (code : Fin 7) : State × Option QItem :=
  let a := (s.queue t code).read (s.level t code)
  ((s.qDone t code a).qEvent t code a.reset, a.item)

/-! ### The mirror stream (R489 to R494) -/

/-- Frames that STATE items carrying `n` bytes take, continuations included (R494: 56 bytes and up to 31 times 64). -/
def stateFrames (n : Nat) : Nat :=
  n / 2040 * 32 + (if n % 2040 = 0 then 0 else 1 + (n % 2040 - 56 + 63) / 64)

/-- Continuation items that follow an item (R493, R494). -/
def MItem.conts (deltaBytes : Nat) : MItem → Nat
  | .meterRec _ _ _ => 4
  | .meterFields _ _ _ _ => (deltaBytes - 56 + 63) / 64
  | .config _ _ => stateFrames deltaBytes - 1
  | .legalRegs _ _ _ => (96 - 56 + 63) / 64
  | .calBlock _ => (256 - 56 + 63) / 64
  | .keyBlob _ _ => 1
  | .tamperNear _ => (512 - 56 + 63) / 64
  | _ => 0

/-- The item brings a record. -/
def MItem.isRecord : MItem → Bool
  | .record _ => true
  | _ => false

/-- Place an item and its continuations in the mirror stream of the tile's bay (R490, R491). From the BEGIN of a resync until its catch-up, which brings them
in SEQ order, no live RECORD item is placed (R499 step 4; DEDUCED from R154 for the steps before, notes/assumptions/26.md). -/
def State.mirror (s : State) (t : TileId) (x : MItem) (deltaBytes : Nat := 0) : State :=
  let later := x.isRecord && (s.bay (bayOf t)).resync.any fun r => decide (r.phase ≤ 2)
  if s.role t = 0 && s.hasStandby (bayOf t) && !later then
    let l := x :: List.replicate (x.conts deltaBytes) .cont
    s.onBay (bayOf t) fun b => { b with link := b.link ++ l, placed := b.placed + l.length
                                        lagFrom := if x.isRecord then some (b.lagFrom.getD s.now) else b.lagFrom }
  else s

/-- The mark that a step ordered after the newest placement waits for. -/
def State.mirrorMark (s : State) (t : TileId) : Nat := (s.bay (bayOf t)).placed

/-- The link has reported everything up to a mark, or there is no standby (R490). -/
def State.mirrored (s : State) (t : TileId) (m : Nat) : Bool :=
  !s.hasStandby (bayOf t) || decide (m ≤ (s.bay (bayOf t)).reported)

/-- Key of a tile entry inside a CONFIG run: offset × 256 + sub-index. -/
def Entry.runKey (e : Entry) (i : Nat := 0) : Nat := e.off * 256 + e.sub + i

/-- Write a numeric stored entry that the CONFIG snapshot carries (R494). -/
def State.wrM (s : State) (e : Entry) (t : TileId) (v : Nat) (i : Nat := 0) : State :=
  (s.wr e t v i).mirror t (.config [(e.runKey i, .num (v % e.span))] (s.tile t).calSince) (7 + e.size)

/-- Write bytes of a stored OCTET entry that the CONFIG snapshot carries. -/
def State.wrBM (s : State) (e : Entry) (t : TileId) (a : Nat) (b : Bytes) (i : Nat := 0) : State :=
  let s := s.wrB e t a b i
  s.mirror t (.config [(e.runKey i, .oct (s.cells e t i))] (s.tile t).calSince) (7 + e.size)

/-! ### Service level (R41, R431) -/

/-- `tile.status.service` follows from the missing elements: 1 with firmware, 2 with time, 3 with everything. -/
def State.settleService (s : State) (t : TileId) : State :=
  let m := s.rd Reg.status_missing t
  let lvl := if (s.vol t).boot.step < 2 then 0 else if bit m 4 then 1 else if m = 0 then 3 else 2
  s.wr Reg.status_service t lvl

/-- Set or clear a bit of `tile.status.missing` (R41). -/
def State.setMissing (s : State) (t : TileId) (k : Nat) (b : Bool) : State :=
  (s.wrBit Reg.status_missing t k b).settleService t

/-! ### Resets -/

/-- Find the entry that a key of `State.regs` belongs to. -/
def entryOf (key : Nat) : Option Entry :=
  let idx := key / 256
  let sub := key % 256
  let look := fun (l : List Entry) (off : Nat) =>
    l.find? fun e => e.off == off && decide (e.sub ≤ sub) && decide (sub < e.sub + e.cnt)
  if idx < 0x2000 then look deviceEntries idx
  else if idx < 0x2800 then look bayEntries ((idx - 0x2000) % 0x100)
  else if 0x4000 ≤ idx && idx < 0x8000 then look tileEntries ((idx - 0x4000) % 0x400)
  else none

/-- Keys of a tile's area. -/
def inTile (t : Nat) (key : Nat) : Bool := decide (key / 256 / 0x400 = 16 + t)

/-- Entries that a tile reset returns to their default (R652): classes both, plain and per session, and computed ones,
which are formed anew. `tile.power` entries are the Pier's and stay (R644). -/
def clearedByTileReset (key : Nat) : Bool :=
  match entryOf key with
  | some e => !decide (e.cls = .powerOn) && !decide (e.cls = .stored) && !(decide (0x2E0 ≤ e.off) && decide (e.off < 0x300))
  | none => false

/-- Stored tile entries held in FTL configuration pages or the block-table snapshot (R653): not the Pier store (offsets 0x2E0 to
0x2FF), the code array, the legal region or the key page. -/
def Entry.inNand (e : Entry) : Bool :=
  decide (e.area = .tile) && decide (e.cls = .stored) && !(decide (0x2E0 ≤ e.off) && decide (e.off < 0x300)) &&
  !decide (e.off = 0x010) && !(decide (e.off = 0x011) && decide (e.sub < 6)) && !decide (e.off = 0x013) &&
  !decide (e.off = 0x143) && !(decide (e.off = 0x144) && (decide (e.sub = 2) || decide (e.sub = 4))) &&
  !decide (e.off = 0x310) && !(decide (e.off = 0x280) && decide (e.sub = 6))

/-- A key of `State.regs` names an entry held in NAND; a key of a tile area that the map does not list is one of an image's own settings (R666). -/
def nandKey (key : Nat) : Bool := match entryOf key with
  | some e => e.inNand
  | none => decide (0x400000 ≤ key) && decide (key < 0x800000)

/-- A key inside a tile's block names a `tile.media` entry, which the block-table snapshot holds (R653). -/
def mediaRun (run : Nat) : Bool := decide (0x2C0 ≤ run / 256) && decide (run / 256 < 0x2E0)

/-- The tile of a key of `State.regs` and its key inside the tile's block. -/
def keyTile (key : Nat) : Nat := key / 256 / 0x400 - 16
def keyRun (key : Nat) : Nat := key % (0x400 * 256)

/-- The stored entries that a page carries. -/
def PageJob.values : PageJob → List (Nat × Option Val)
  | .config l => l
  | .media l => l
  | _ => []

/-- The value that a configuration entry will have once every queued page is programmed. -/
def Media.configNext (m : Media) (k : Nat) : Option Val :=
  m.jobs.foldl (fun v j => (j.2.values.find? fun x => decide (x.1 = k)).elim v fun x => x.2) (Tbl.get m.config k)

/-- Put the stored entries of a tile back to what its NAND holds (R653). -/
def State.reloadConfig (s : State) (t : TileId) : State :=
  let keep := s.regs.filter fun e => !(inTile t e.1 && nandKey e.1)
  let base := (0x4000 + 0x400 * t.val) * 256
  { s with regs := (s.tile t).media.config.foldl (fun r e => Tbl.put r (base + e.1) e.2) keep }

/-- A key of the Pier store (R653). -/
def inPierStore (key : Nat) : Bool := match entryOf key with
  | some e => decide (e.cls = .stored) && (decide (e.area ≠ .tile) || (decide (0x2E0 ≤ e.off) && decide (e.off < 0x300)))
  | none => false

/-- Count the writes to the Pier store: its entries whose value has changed (R660). The counter's own write is not one. -/
def countStore (s : State) (keys : List Nat) : State :=
  let k := Reg.device_config_writes.key 0 0
  let n := keys.countP fun x => decide (x ≠ k) && inPierStore x
  if n = 0 then s else s.bump Reg.device_config_writes 0 0 n

/-- Keys at which two tables of values differ, walking both in order; `fuel` is at least the sum of their lengths. -/
def diffKeys : Nat → Tbl Val → Tbl Val → List Nat
  | 0, _, _ => []
  | _ + 1, [], b => b.map Prod.fst
  | _ + 1, a, [] => a.map Prod.fst
  | n + 1, x :: a, y :: b =>
    if x.1 < y.1 then x.1 :: diffKeys n a (y :: b)
    else if y.1 < x.1 then y.1 :: diffKeys n (x :: a) b
    else if x.2 = y.2 then diffKeys n a b
    else x.1 :: diffKeys n a b

/-- Queue a configuration page for changed stored entries (R564), and a map-journal page for those of `tile.media` (R653). The count of bytes programmed goes
with the next such page and causes none (notes/assumptions/16.md). -/
def State.queueValues (s : State) (t : TileId) (l : List (Nat × Option Val)) : State :=
  let cfg := l.filter fun e => !mediaRun e.1
  let med := l.filter fun e => mediaRun e.1
  let s := if cfg = [] then s else s.queueJob t (.config cfg)
  if med.all fun e => decide (e.1 = Reg.media_bytes_programmed.off * 256 + Reg.media_bytes_programmed.sub) then s
  else s.queueJob t (.media med)

/-- Queue pages for the stored entries whose value has changed. -/
def persist (old s : State) : State :=
  if old.regs = s.regs then s
  else
    let diff := diffKeys (old.regs.length + s.regs.length) old.regs s.regs
    let keys := diff.filter fun k => decide (0x400000 ≤ k) && decide (k < 0x800000) && nandKey k
    let s := if s.pier.up then countStore s diff else s
    s.each allTiles fun s t =>
      s.queueValues t ((keys.filter fun k => inTile t k &&
        decide ((s.tile t).media.configNext (keyRun k) ≠ Tbl.get s.regs k)).map fun k => (keyRun k, Tbl.get s.regs k))

/-- Configuration values with the changes of a page put in. -/
def putRuns (c : Tbl Val) (l : List (Nat × Option Val)) : Tbl Val :=
  l.foldl (fun c x => match x.2 with
    | some v => Tbl.put c x.1 v
    | none => Tbl.del c x.1) c

/-- A reset that is no loss of power keeps every stored setting in force (R10, R602, R652), those whose page still waits in the queue
too: only a power loss may leave the old value (R653). -/
def Media.keepConfig (m : Media) : Media :=
  { m with config := m.jobs.foldl (fun c j => putRuns c j.2.values) m.config }

/-- What a reset takes from the FTL: the queues, the relocation under way and what was being programmed. -/
def Media.interrupt (m : Media) : Media :=
  { m with jobs := [], busy := false, mapQ := [], reloc := none, relocQ := [] }

/-- The radio settings that a tile reset takes over (R296, R340, R362). -/
def State.radioNow (s : State) (t : TileId) : RadioCfg where
  band := s.rd Reg.plc_band t
  regime := s.rd Reg.rf_regime t
  rate := s.rd Reg.rf_rate t
  pan := s.rd Reg.rf_pan_id t
  eui := s.rd Reg.rf_eui64 t

/-- What the Balance engine of a tile keeps over a reset (R205, R216, R219): a span of holdover that runs ends with it. -/
def State.balKept (s : State) (t : TileId) : Bal :=
  let x := (s.vol t).bal.restart
  { x with suspect := x.suspect.map fun e => if e.2.isNone then (e.1, some (s.timeSec t)) else e }

/-- Drop what a tile reset clears (R10, R652): the volatile part and the entries of its classes. -/
def State.tileClear (s : State) (t : TileId) (cause : Nat) : State :=
  let bal := s.balKept t
  let s := { s with regs := s.regs.filter fun e => !(inTile t e.1 && clearedByTileReset e.1) }
  let s := s.onTile t fun x => { x with vol := { Vol.init s.now with bal := bal }, upSince := s.now, media := x.media.keepConfig.interrupt }
  let s := s.onPier fun p =>
    let again := fun (x : HSub) => if x.target = t.val then { x with last := [], first := [] } else x
    let drop := fun (x : HSess) => { x with vals := x.vals.filter fun e => !inTile t e.1, subs := x.subs.map again }
    let locks := p.hub.locks.filter fun e => !inTile t e.1
    { p with hub := { p.hub with sess := p.hub.sess.map fun e => (e.1, drop e.2), locks := locks } }
  let s := s.reloadConfig t
  let s := s.onVol t fun v => { v with sw := Switch.init (s.rd Reg.sw_reserve_cells t), radio := s.radioNow t }
  (s.wr Reg.fw_last_reset t cause).bump Reg.fw_resets t

/-! ### The gated pins -/

/-- Level of a BAY_OWN ball: in a redundant bay never both (R31, R32). -/
def State.ownPin (s : State) (t : TileId) : Bool :=
  s.pier.up && s.owns t && (s.independent t || !s.owns (mate t))

/-- What a tile drives at its field balls: nothing unless the tile is in RUN and its BAY_OWN has been high for 10 µs
(R33, R488, R538); TXEN and PAEN stay low while PFAIL_N is low (R547). A tile that has been told to release its outputs, or whose role is no longer
ACTIVE, INDEPENDENT or PROMOTING, does so before its pin falls. -/
def State.fieldPin (s : State) (t : TileId) : Option Drive :=
  let b := s.bay (bayOf t)
  let rose := if t.val % 2 = 0 then b.roseE else b.roseO
  if s.ownPin t && (s.dropping t).isNone && (s.serves t || decide (s.role t = 3)) && decide (rose + 10000 ≤ s.now) && s.inRun t then
    let d := (s.vol t).drive
    some (if s.pier.pfail then { d with txen := false, paen := false } else d)
  else none

/-- The Pier's gates, formed anew after every command: a function of the state and of nothing else. -/
def State.pinsOf (s : State) : Pins where
  own := allTiles.map s.ownPin
  field := allTiles.map s.fieldPin
  tout := allBays.map fun b => s.pier.up && (s.bay b).toutLevel
  pfailN := !s.pier.pfail

/-- Form the gated pins. -/
def State.settle (s : State) : State := { s with pins := s.pinsOf }

/-- The outcome of a command whose effect is `f`: the queue and the clock count stay, changed settings go to the NAND, and the
gates follow. -/
def finish (f : State → State) (s : State) : Host.Outcome State Fault Refusal :=
  .next (State.settle (persist s { f s with pending := s.pending, now := s.now }))

end Sys2Proof.Machine
end

