-- ==== Sys2Proof/Machine/Calendar.lean ====
section
/-! DEFINITION. Calendar.lean: civil dates, the tariff calendar (R258 to R261) and the conversion between local time, UTC and TAI
(R100, R419, R420). -/

namespace Sys2Proof.Machine

/-! ### Civil dates (proleptic Gregorian) -/

/-- A decimal field; none when it is empty or holds another character. -/
def decimal (b : Bytes) : Option Nat :=
  if b = [] then none
  else b.foldl (fun a c => a.bind fun v =>
    if 48 ≤ c.toNat ∧ c.toNat ≤ 57 then some (v * 10 + (c.toNat - 48)) else none) (some 0)

/-- A leap year. -/
def leapYear (y : Int) : Bool := (decide (y % 4 = 0) && !decide (y % 100 = 0)) || decide (y % 400 = 0)

/-- Days of a month. -/
def monthDays (y : Int) (m : Nat) : Nat :=
  if m = 2 then (if leapYear y then 29 else 28) else if [4, 6, 9, 11].contains m then 30 else 31

/-- Days from 1970-01-01 to a date. -/
def daysFromCivil (y : Int) (m d : Nat) : Int :=
  let y := if m ≤ 2 then y - 1 else y
  let era := y / 400
  let yoe := y - era * 400
  let mp : Int := if m ≤ 2 then m + 9 else (m : Int) - 3
  let doy := (153 * mp + 2) / 5 + d - 1
  let doe := yoe * 365 + yoe / 4 - yoe / 100 + doy
  era * 146097 + doe - 719468

/-- The date of a day number. -/
def civilFromDays (z : Int) : Int × Nat × Nat :=
  let z := z + 719468
  let era := z / 146097
  let doe := z - era * 146097
  let yoe := (doe - doe / 1460 + doe / 36524 - doe / 146096) / 365
  let doy := doe - (365 * yoe + yoe / 4 - yoe / 100)
  let mp := (5 * doy + 2) / 153
  let d := (doy - (153 * mp + 2) / 5 + 1).toNat
  let m := (if mp < 10 then mp + 3 else mp - 9).toNat
  (if m ≤ 2 then yoe + era * 400 + 1 else yoe + era * 400, m, d)

/-- Weekday of a day number, 1 Monday to 7 Sunday. -/
def weekday (z : Int) : Nat := ((z + 3) % 7).toNat + 1

/-! ### The calendar as bytes (R258 to R260) -/

/-- Fields of a calendar. -/
def calStd (c : Bytes) : Int := toSigned 16 (fld c 0x12 2)
def calDst (c : Bytes) : Int := toSigned 16 (fld c 0x14 2)
def calDstOn (c : Bytes) : Bool := bit (fld c 1 1) 0
def calActivateNs (c : Bytes) : Nat := time80ns ((c.drop 8).take 10)

/-- Local second at which a DST rule is met in a year. -/
def ruleInstant (rule : Nat) (y : Int) : Int :=
  let month := rule / 2 ^ 28
  let week := rule / 2 ^ 25 % 8
  let wd := rule / 2 ^ 22 % 8
  let minute : Nat := rule / 2 ^ 11 % 2 ^ 11
  let first := daysFromCivil y month 1
  let off : Nat := (wd + 7 - weekday first) % 7
  let day : Nat := off + 7 * (week - 1)
  let day : Nat := if week = 5 ∧ monthDays y month ≤ day then day - 7 else day
  (first + day) * 86400 + 60 * minute

/-- DST is in force at a UTC second: the latest of the starts and ends at or before it is a start (R260). -/
def dstAt (c : Bytes) (u : Int) : Bool :=
  if calDstOn c then
    let std := 60 * calStd c
    let y := (civilFromDays ((u + std) / 86400)).1
    let ev := [y - 1, y, y + 1].flatMap fun y =>
      [(ruleInstant (fld c 0x16 4) y - std, true), (ruleInstant (fld c 0x1A 4) y - std - 60 * calDst c, false)]
    ((ev.filter fun e => decide (e.1 ≤ u)).foldl (fun (a : Option (Int × Bool)) e => match a with
      | some x => if x.1 ≤ e.1 then some e else some x
      | none => some e) none).elim false Prod.snd
  else false

/-- Local time of a UTC second. -/
def localOf (c : Bytes) (u : Int) : Int := u + 60 * calStd c + (if dstAt c u then 60 * calDst c else 0)

/-- UTC of a local time by the calendar's zone (R100): a repeated hour is resolved by clock-status bit 7; with status 0xFF the
earlier instant is taken, and the second result says so. A local time that the zone skips is read as standard time
(DESIGN CHOICE, notes/assumptions/14.md). -/
def utcOfLocal (c : Bytes) (l : Int) (status : Nat) : Int × Bool :=
  let u0 := l - 60 * calStd c
  let u1 := u0 - 60 * calDst c
  let ok0 := !dstAt c u0
  let ok1 := dstAt c u1
  if ok0 && ok1 && decide (u0 ≠ u1) then
    if status = 0xFF then (min u0 u1, true) else if bit status 7 then (u1, false) else (u0, false)
  else if ok1 then (u1, false) else (u0, false)

/-- The day profile that a special day names for a date: an entry of the year first, then an every-year entry. -/
def specialProfile (c : Bytes) (y : Int) (m d : Nat) : Option Nat :=
  let es := ((List.range 256).map fun i => fld c (0x220 + 4 * i) 4).filter fun e =>
    bit e 4 && decide (e / 2 ^ 12 % 16 = m) && decide (e / 2 ^ 7 % 32 = d)
  match es.find? fun e => decide (((e / 2 ^ 16 : Nat) : Int) = y) with
  | some e => some (e % 16)
  | none => (es.find? fun e => decide (e / 2 ^ 16 = 0xFFFF)).map (· % 16)

/-- The week of the season in force on a date (R261). -/
def seasonWeek (c : Bytes) (m d : Nat) : Nat :=
  let ss := ((List.range 8).map fun i => ((fld c (0x40 + 4 * i) 1) * 32 + fld c (0x41 + 4 * i) 1, fld c (0x42 + 4 * i) 1,
    bit (fld c (0x43 + 4 * i) 1) 0)).filter fun x => x.2.2
  let latest := fun (l : List (Nat × Nat × Bool)) => l.foldl (fun (a : Option (Nat × Nat × Bool)) x => match a with
    | some b => if b.1 ≤ x.1 then some x else some b
    | none => some x) none
  match latest (ss.filter fun x => decide (x.1 ≤ m * 32 + d)) with
  | some x => x.2.1
  | none => ((latest ss).map fun x => x.2.1).getD 0

/-- Rate of a day profile at a local minute: the valid switch point with the largest minute at most that one. -/
def profileRate (c : Bytes) (p minute : Nat) : Nat :=
  let pts := ((List.range 12).map fun i => fld c (0xA0 + 24 * p + 2 * i) 2).filter fun x => bit x 15 && decide (x % 2 ^ 11 ≤ minute)
  (pts.foldl (fun (a : Nat × Nat) x => if a.1 ≤ x % 2 ^ 11 + 1 then (x % 2 ^ 11 + 1, x / 2 ^ 12 % 8) else a) (0, 0)).2

/-- `rate_at` of R261 for a UTC second. -/
def rateAt (c : Bytes) (u : Int) : Nat :=
  let l := localOf c u
  let day := l / 86400
  let date := civilFromDays day
  let minute := (l % 86400 / 60).toNat
  let p := match specialProfile c date.1 date.2.1 date.2.2 with
    | some p => p
    | none => fld c (0x60 + 8 * seasonWeek c date.2.1 date.2.2 + (weekday day - 1)) 1
  profileRate c p minute

/-! ### TAI and UTC of past instants (R419, R420) -/

/-- Used places of `device.time.utc_history`: TAI second of effect and offset, oldest first. -/
def State.utcPlaces (s : State) : List (Nat × Int) :=
  (List.range 4).filterMap fun i =>
    let b := s.rdB Reg.device_time_utc_history 0 (8 * i) 8
    if leNat b = 0 then none else some (fld b 0 6, toSigned 16 (fld b 6 2))

/-- The places by which instants are converted: a change made while no tile provided time names no instant (R419); it counts only as what stood before the first that does. -/
def State.utcHistory (s : State) : List (Nat × Int) :=
  let l := s.utcPlaces
  let undated := l.takeWhile fun e => e.1 == 0
  undated ++ (l.drop undated.length).filter fun e => e.1 != 0

/-- The offset for an instant given as a TAI second: that of the newest change not after it; before the oldest entry, the
oldest entry's. -/
def State.utcAt (s : State) (sec : Nat) : Int :=
  match s.utcHistory with
  | [] => s.pier.time.utc
  | e :: r => (r.foldl (fun (a : Int) x => if x.1 ≤ sec then x.2 else a) e.2)

/-- The offset for an instant given as a UTC second. -/
def State.offsetAtUtc (s : State) (u : Int) : Int :=
  match s.utcHistory with
  | [] => s.pier.time.utc
  | e :: r => (r.foldl (fun (a : Int) x => if (x.1 : Int) ≤ u + x.2 then x.2 else a) e.2)

/-- UTC second of a TAI second. -/
def State.utcOfTai (s : State) (sec : Nat) : Int := (sec : Int) - s.utcAt sec

/-- The TAI second of 23:59:60 after the UTC second `u` = 23:59:59, when the day's end carries an inserted leap second, in the
history or pending (R100). The oldest entry of the history, whose prior offset is not known, counts as an insertion (DESIGN CHOICE,
notes/assumptions/35.md). -/
def State.leapTai (s : State) (u : Int) : Option Int :=
  let h := s.utcHistory
  let prev := (none : Option Int) :: h.map fun e => some e.2
  let hit := (h.zip prev).find? fun p => decide ((p.1.1 : Int) = u + p.1.2 + 1) && decide (p.2.getD (p.1.2 - 1) = p.1.2 - 1)
  if u % 86400 ≠ 86399 then none
  else match hit with
    | some p => some (u + p.1.2)
    | none =>
      if s.rdI Reg.device_time_leap_pending 0 = 1 ∧ (s.pier.time.leapAt : Int) = u + s.pier.time.utc + 2 then
        some (u + s.pier.time.utc + 1)
      else none

/-- The calendar in force of a tile. -/
def State.calendar (s : State) (t : TileId) : Bytes := s.rdAll Reg.eph_calendar t

/-- The grid (R101): the first grid point above a TAI second, for an interval duration. -/
def gridAbove (phase idur sec : Nat) : Nat :=
  let idur := max idur 1
  sec + (idur - (sec + idur - phase % idur) % idur)

/-- The newest grid point of a duration that is not above a TAI second. -/
def gridFloor (phase idur sec : Nat) : Nat := sec - (sec + max idur 1 - phase % max idur 1) % max idur 1

/-- What Meridian makes due on the grid of a duration is due when its newest grid point passed while the tile provided time and, in the present or the former timescale, has
not fired (R434). -/
def State.gridDue (s : State) (t : TileId) (idur last : Nat) : Option Nat :=
  let g := gridFloor (s.rd Reg.gather_grid_phase t) idur (s.timeSec t)
  if s.hasTime t && decide (max (s.vol t).mer.since last < g) then some g else none

/-- A TAI second lies on the grid of a duration. -/
def onGrid (phase idur sec : Nat) : Bool := decide ((sec + max idur 1 - phase % max idur 1) % max idur 1 = 0)

end Sys2Proof.Machine
end

