-- ==== Sys2Proof/Machine/Operands.lean ====
section
/-! DEFINITION. Operands.lean: how operands name things: MIDX and slots, the meter record as bytes, class templates and
register maps, places of key blobs; and the updates of one record that every unit uses (R44 to R54, R69). -/

namespace Sys2Proof.Machine

/-! ### MIDX (R27 to R29) -/

/-- BAY, TILE and SLOT of a MIDX. -/
def midxBay (m : Nat) : Nat := m / 2 ^ 19 % 8
def midxTile (m : Nat) : Nat := m / 2 ^ 18 % 2
def midxSlot (m : Nat) : Nat := m % 2 ^ 18

/-- The MIDX of a slot served by a tile. -/
def State.midxOf (s : State) (t : TileId) (slot : Nat) : Nat :=
  (t.val / 2) * 2 ^ 19 + (if s.independent t then (t.val % 2) * 2 ^ 18 else 0) + slot

/-- A MIDX lies in this tile's slots (R61 order 1). -/
def State.ownMidx (s : State) (t : TileId) (m : Nat) : Bool :=
  decide (m < 2 ^ 22) && decide (midxBay m = t.val / 2) &&
  decide (midxTile m = if s.independent t then t.val % 2 else 0)

/-! ### The meter record as bytes (R44) -/

/-- LAST_REG and REG0 to REG5 as 30 bytes. -/
def regsBytes (l : List Int) : Bytes := fit 30 (l.map (intLE 5)).flatten

/-- Six 40-bit registers from bytes. -/
def regsOf (b : Bytes) (a : Nat) : List Int := (List.range 6).map fun i => toSigned 40 (fld b (a + 5 * i) 5)

/-- Bytes 0x00 to 0xFB of a record. -/
def MeterRec.body (r : MeterRec) : Bytes :=
  natLE 8 r.sysTitle ++ natLE 8 r.eui64 ++ natLE 2 r.shortAddr ++ natLE 1 r.state ++ natLE 1 r.cls ++ natLE 1 r.path ++
  natLE 1 r.phase ++ natLE 2 r.satId ++ natLE 4 r.midxGen ++ natLE 1 r.keyMap ++ natLE 1 r.rfKeyId ++ natLE 2 r.keyGen ++
  natLE 4 r.icUpHw ++ natLE 4 r.icDown ++ natLE 4 r.fcUpHw ++ natLE 4 r.idur ++ natLE 6 r.lastTend ++ natLE 2 r.dupMap ++
  natLE 6 r.lastSeq ++ intLE 2 r.clkOfs ++ regsBytes r.lastReg ++ natLE 2 r.gapRun ++
  fit 64 (r.tou.map (intLE 8)).flatten ++ intLE 8 r.credit ++ intLE 8 r.creditHeld ++ natLE 1 r.relayCmd ++
  natLE 1 r.relayRpt ++ natLE 2 r.prepayProfile ++ natLE 4 r.relayCmdTime ++ natLE 2 r.segment ++ natLE 1 r.phaseConf ++
  natLE 1 r.tamperCnt ++ natLE 4 r.eventFlags ++ natLE 4 r.imgId ++ natLE 4 r.imgBlocks ++ natLE 1 r.pushState ++
  natLE 1 r.calVersion ++ [0, 0] ++ natLE 4 r.enrolTime ++ fit 16 r.label ++ natLE 6 r.billSeq ++ List.replicate 18 0 ++
  natLE 4 r.updCnt

/-- The 256 bytes of a record, CHECK included. -/
def MeterRec.bytes (r : MeterRec) : Bytes :=
  let b := r.body
  b ++ natLE 4 (Crypto.crc32 b ^^^ (if r.checkGood then 0 else 1))

/-- A record image read from bytes (R61); PHASE[7:4] reads 0 (R44). -/
def MeterRec.parse (b : Bytes) : MeterRec where
  sysTitle := fld b 0x00 8
  eui64 := fld b 0x08 8
  shortAddr := fld b 0x10 2
  state := fld b 0x12 1
  cls := fld b 0x13 1
  path := fld b 0x14 1
  phase := fld b 0x15 1 % 16
  satId := fld b 0x16 2
  midxGen := fld b 0x18 4
  keyMap := fld b 0x1C 1
  rfKeyId := fld b 0x1D 1
  keyGen := fld b 0x1E 2
  icUpHw := fld b 0x20 4
  icDown := fld b 0x24 4
  fcUpHw := fld b 0x28 4
  idur := fld b 0x2C 4
  lastTend := fld b 0x30 6
  dupMap := fld b 0x36 2
  lastSeq := fld b 0x38 6
  clkOfs := toSigned 16 (fld b 0x3E 2)
  lastReg := regsOf b 0x40
  gapRun := fld b 0x5E 2
  tou := (List.range 8).map fun i => toSigned 64 (fld b (0x60 + 8 * i) 8)
  credit := toSigned 64 (fld b 0xA0 8)
  creditHeld := toSigned 64 (fld b 0xA8 8)
  relayCmd := fld b 0xB0 1
  relayRpt := fld b 0xB1 1
  prepayProfile := fld b 0xB2 2
  relayCmdTime := fld b 0xB4 4
  segment := fld b 0xB8 2
  phaseConf := fld b 0xBA 1
  tamperCnt := fld b 0xBB 1
  eventFlags := fld b 0xBC 4
  imgId := fld b 0xC0 4
  imgBlocks := fld b 0xC4 4
  pushState := fld b 0xC8 1
  calVersion := fld b 0xC9 1
  enrolTime := fld b 0xCC 4
  label := fit 16 ((b.drop 0xD0).take 16)
  billSeq := fld b 0xE0 6
  updCnt := fld b 0xF8 4
  checkGood := true

/-! ### Class templates (R48, R49) -/

/-- A field of template `c` of a tile's class table. -/
def State.tmpl (s : State) (t : TileId) (c a len : Nat) : Nat := s.rdF Reg.meters_class_table t (128 * c + a) len

/-- KIND, REG_COUNT, FLAGS, IDUR_DEF and RULESET of a class. -/
def State.clsKind (s : State) (t : TileId) (c : Nat) : Nat := s.tmpl t c 0 1
def State.clsRegs (s : State) (t : TileId) (c : Nat) : Nat := s.tmpl t c 1 1
def State.clsFlags (s : State) (t : TileId) (c : Nat) : Nat := s.tmpl t c 2 2
def State.clsIdur (s : State) (t : TileId) (c : Nat) : Nat := s.tmpl t c 4 4
def State.clsRuleset (s : State) (t : TileId) (c : Nat) : Nat := s.tmpl t c 0x0E 1

/-- A register map (R49). -/
structure RegMap where
  classId : Nat
  obis : Bytes
  attr : Nat
  scaler : Int
  unit : Nat
  rkind : Nat
  roll : Nat
  bal : Nat
  deriving DecidableEq, Repr

/-- Map `i` of a class. -/
def State.regMap (s : State) (t : TileId) (c i : Nat) : RegMap :=
  let b := s.rdB Reg.meters_class_table t (128 * c + 0x10 + 16 * i) 16
  { classId := fld b 0 2, obis := (b.drop 2).take 6, attr := fld b 8 1, scaler := toSigned 8 (fld b 9 1),
    unit := fld b 10 1, rkind := fld b 11 1, roll := fld b 12 1, bal := fld b 13 1 }

/-- The maps in use of a class. -/
def State.maps (s : State) (t : TileId) (c : Nat) : List RegMap := (List.range (s.clsRegs t c)).map (s.regMap t c)

/-- Interval durations that R52 permits. -/
def idurValid (v : Nat) : Bool := [60, 300, 600, 900, 1800, 3600, 86400].contains v

/-! ### Meter records of a tile -/

/-- Change a tile's meter population. -/
def State.onMeters (s : State) (t : TileId) (f : Meters → Meters) : State := s.onVol t fun v => { v with meters := f v.meters }

/-- The record of a slot; a slot never used is FREE with generation 0. -/
def State.meter (s : State) (t : TileId) (slot : Nat) : MeterRec :=
  (Tbl.get (s.vol t).meters.recs slot).getD (MeterRec.free (s.midxOf t slot))

/-- Store a record in one indivisible step (R45). -/
def State.setMeter (s : State) (t : TileId) (slot : Nat) (r : MeterRec) : State :=
  s.onMeters t fun m => { m with recs := Tbl.put m.recs slot r }

/-- The IC_DOWN reservation ceiling of a slot (R69). -/
def State.ceil (s : State) (t : TileId) (slot : Nat) : Nat := (Tbl.get (s.vol t).meters.ceils slot).getD 0

/-- The tile's other downlink counters have reservations journalled like IC_DOWN, under numbers above every slot: 0 the PLC MAC frame
counter (R299), 1 `tile.rf.fc_down` (R349), 2 `tile.eph.bcast_ic` (R291). -/
def ctrSlot (k : Nat) : Nat := 2 ^ 18 + k

/-- Limits of signed 64 bits. -/
def sat64 (v : Int) : Int := max (-(2 ^ 63)) (min (2 ^ 63 - 1) v)

/-- The radio's neighbour entry of a meter that leaves is removed with its pending frames (R362). -/
def State.rfForget (s : State) (t : TileId) (slot : Nat) : State :=
  s.onVol t fun v => { v with rf := { v.rf with neigh := Tbl.del v.rf.neigh slot, sendq := v.rf.sendq.filter fun x => x.1 != slot } }

/-- Ephemeris sends a meter that leaves nothing more: its requests are refused and its machines end (R46, R66). -/
def State.ephForget (s : State) (t : TileId) (slot : Nat) : State :=
  s.onVol t fun v => { v with eph := { v.eph with
    reqs := v.eph.reqs.filter fun r => r.slot != slot, relays := Tbl.del v.eph.relays slot, cal := Tbl.del v.eph.cal slot
    calRetry := Tbl.del v.eph.calRetry slot, members := Tbl.del v.eph.members slot, clocks := Tbl.del v.eph.clocks slot
    deferred := v.eph.deferred.filter (· != slot) } }

/-- Bytes a FIELDS delta between two images takes: 2 and the field's length for every field that changed, and the
ending triple (R493). -/
def MeterRec.deltaBytes (o n : MeterRec) : Nat :=
  let f := fun (d : Bool) (k : Nat) => if d then 2 + k else 0
  2 + f (o.shortAddr != n.shortAddr) 2 + f (o.phase != n.phase) 1 + f (o.keyMap != n.keyMap) 1 +
  f (o.rfKeyId != n.rfKeyId) 1 + f (o.keyGen != n.keyGen) 2 + f (o.icUpHw != n.icUpHw) 4 + f (o.icDown != n.icDown) 4 +
  f (o.fcUpHw != n.fcUpHw) 4 + f (o.lastTend != n.lastTend) 6 + f (o.lastSeq != n.lastSeq) 6 + f (o.clkOfs != n.clkOfs) 2 +
  f (o.tou != n.tou) 64 + f (o.credit != n.credit) 8 + f (o.creditHeld != n.creditHeld) 8 + f (o.relayCmd != n.relayCmd) 1 +
  f (o.relayRpt != n.relayRpt) 1 + f (o.relayCmdTime != n.relayCmdTime) 4 + f (o.phaseConf != n.phaseConf) 1 +
  f (o.tamperCnt != n.tamperCnt) 1 + f (o.eventFlags != n.eventFlags) 4 + f (o.imgId != n.imgId) 4 +
  f (o.imgBlocks != n.imgBlocks) 4 + f (o.pushState != n.pushState) 1 + f (o.calVersion != n.calVersion) 1 +
  f (o.billSeq != n.billSeq) 6 + f (o.sysTitle != n.sysTitle) 8 + f (o.eui64 != n.eui64) 8 + f (o.cls != n.cls) 1 +
  f (o.path != n.path) 1 + f (o.satId != n.satId) 2 + f (o.idur != n.idur) 4 + f (o.prepayProfile != n.prepayProfile) 2 +
  f (o.segment != n.segment) 2 + f (o.label != n.label) 16

/-- Place a FIELDS delta of a record in the mirror stream (R493). -/
def State.mirrorFields (s : State) (t : TileId) (slot : Nat) (o n : MeterRec) : State :=
  s.mirror t (.meterFields slot o n (s.ceil t slot)) (o.deltaBytes n)

/-- A record as a delta shows it whose LAST_TEND and LAST_SEQ travel as changed fields. -/
def MeterRec.unseen (r : MeterRec) : MeterRec := { r with lastTend := 0, lastSeq := 0 }

/-- LAST_TEND and LAST_SEQ of a record that a reading without a frame has moved reach the mirror stream (R493). -/
def State.mirrorNewest (s : State) (t : TileId) (slot : Nat) : State :=
  let r := s.meter t slot
  s.mirrorFields t slot r.unseen r

/-- Place a RECORD delta. -/
def State.mirrorRec (s : State) (t : TileId) (slot : Nat) : State :=
  s.mirror t (.meterRec slot (s.meter t slot) (s.ceil t slot))

/-- Append a journal entry; its page's 10 ms start with its first entry (R69, R70). -/
def State.journal (s : State) (t : TileId) (e : JEntry) : State :=
  s.onMeters t fun m =>
    { m with jPage := m.jPage ++ [e], jFirst := if m.jPage = [] then some s.now else m.jFirst, jCount := m.jCount + 1 }

/-- A step that R69 journals: UPD_CNT rises, the record is stored and the entry written. -/
def State.journalMeter (s : State) (t : TileId) (slot : Nat) (r : MeterRec) (op : JOp) (amount : Int := 0) (tid : Nat := 0) : State :=
  let r := { r with updCnt := (r.updCnt + 1) % 2 ^ 32 }
  (s.setMeter t slot r).journal t
    { op := op, slot := slot, gen := r.midxGen, upd := r.updCnt, snap := r, amount := amount, tid := tid, ceil := s.ceil t slot }

/-- Change fields that R69 journals, with their delta. -/
def State.fieldsMeter (s : State) (t : TileId) (slot : Nat) (f : MeterRec → MeterRec) (op : JOp := .fields) : State :=
  let o := s.meter t slot
  let s := s.journalMeter t slot (f o) op
  s.mirrorFields t slot o (s.meter t slot)

/-- Change fields that R69 does not journal, with their delta. -/
def State.stateMeter (s : State) (t : TileId) (slot : Nat) (f : MeterRec → MeterRec) : State :=
  let o := s.meter t slot
  (s.setMeter t slot (f o)).mirrorFields t slot o (f o)

/-- A released record (R64, R69): FREE, every field but MIDX_GEN cleared, UPD_CNT too; the journal entry carries the generation of the record released and
UPD_CNT 0. -/
def State.freeMeter (s : State) (t : TileId) (slot gen : Nat) : State :=
  let s := s.onMeters t fun m => { m with ceils := Tbl.del m.ceils slot }
  (s.setMeter t slot (MeterRec.free gen)).journal t { op := .release, slot := slot, gen := gen, upd := 0, snap := MeterRec.free gen, amount := 0, ceil := 0 }

/-- Slots whose record satisfies a predicate. -/
def State.slotsOf (s : State) (t : TileId) (p : MeterRec → Bool) : List Nat :=
  ((s.vol t).meters.recs.filter fun e => p e.2).map Prod.fst

/-- The slot of the LOCAL record, when one is in service (R53). -/
def State.localSlot (s : State) (t : TileId) : Option Nat :=
  (s.slotsOf t fun r => decide (r.state = 1) && decide (r.path = 3)).head?

/-- Latch a bit of EVENT_FLAGS. -/
def State.latchFlag (s : State) (t : TileId) (slot k : Nat) : State :=
  if bit (s.meter t slot).eventFlags k then s
  else s.fieldsMeter t slot fun r => { r with eventFlags := setBit r.eventFlags k true }

/-- Latch a bit of EVENT_FLAGS of the LOCAL record. -/
def State.latchLocal (s : State) (t : TileId) (k : Nat) : State :=
  match s.localSlot t with
  | some i => s.latchFlag t i k
  | none => s

/-! ### The record update of R47 -/

/-- DUP_MAP formed anew for a newer reading: bit i is the interval that ends at e = t − (i + 1) × I, `d` being L − e. An old bit beyond the window is
clear. -/
def dupMapNew (l t i old : Nat) : Nat :=
  (List.range 16).foldl (fun a k =>
    let back := (k + 1) * i
    let set :=
      let d := l + back - t
      if l = 0 ∨ l + back < t then false
      else if d = 0 then true
      else if d % i = 0 then decide (d / i - 1 < 16) && bit old (d / i - 1)
      else true
    setBit a k set) 0

/-- LAST_TEND, LAST_SEQ, DUP_MAP, LAST_REG and GAP_RUN for a reading archived with SEQ `seq` (R47). -/
def MeterRec.archived (r : MeterRec) (seq t : Nat) (regs : List Int) : MeterRec :=
  let l := r.lastTend
  let i := max r.idur 1
  if l = 0 ∨ l < t then
    { r with lastTend := t, lastSeq := seq, dupMap := dupMapNew l t i r.dupMap, lastReg := regs
             gapRun := if l = 0 then 0 else min ((t - l + i - 1) / i - 1) 65535 }
  else
    let r := { r with lastSeq := seq }
    if (l - t) % i = 0 ∧ 0 < l - t ∧ (l - t) / i ≤ 16 then { r with dupMap := setBit r.dupMap ((l - t) / i - 1) true }
    else r

/-- An archive record applied to its meter record (R47, R71, R175): a RESTATED record and the first member of a split pair
change only LAST_SEQ. The first member ends off the grid. -/
def MeterRec.applyRecord (phase : Nat) (r : MeterRec) (a : ArchRec) : MeterRec :=
  match a.body with
  | .meter _ tend _ qual regs =>
    let i := max r.idur 1
    let off := decide ((tend + i - phase % i) % i ≠ 0)
    if bit qual 7 ∨ (bit qual 3 ∧ off) then { r with lastSeq := a.seq }
    else r.archived a.seq tend regs
  | _ => r

/-! ### Downlink invocation counters (R69, R507) -/

/-- A new ceiling of a slot or of a counter, journalled; UPD_CNT of the slot's record counts it (R45, R69). -/
def State.setCeil (s : State) (t : TileId) (slot c : Nat) : State :=
  let s := s.onMeters t fun m => { m with ceils := Tbl.put m.ceils slot c }
  if slot < 2 ^ 18 then s.journalMeter t slot (s.meter t slot) .ceiling
  else s.journal t { op := .ceiling, slot := slot, gen := 0, upd := 0, snap := MeterRec.free 0, amount := 0, ceil := c }

/-- Raise the reservation ceiling by 4 096, journalled (R69); it never passes 0xFFFF_FFFF. -/
def State.reserveIc (s : State) (t : TileId) (slot : Nat) : State :=
  let c := min (max (s.ceil t slot) (s.meter t slot).icDown + 4096) 0xFFFFFFFF
  let s := s.setCeil t slot c
  s.mirror t (.meterFields slot (s.meter t slot) (s.meter t slot) c) 8

/-! ### Key blobs (R463) -/

/-- Place of a blob: table (0 key blob area, 1 PLC key table, 2 bay key table) and position. -/
def blobPlace (table pos : Nat) : Nat := table * 2 ^ 24 + pos

/-- The blob at a place. -/
def State.blob (s : State) (t : TileId) (place : Nat) : Option Bytes := Tbl.get (s.vol t).vault.blobs place

/-- Change a tile's vault. -/
def State.onVault (s : State) (t : TileId) (f : Vault → Vault) : State := s.onVol t fun v => { v with vault := f v.vault }

/-- Write or destroy a blob: in DRAM, in the key store, and in the mirror stream (R463). -/
def State.setBlob (s : State) (t : TileId) (place : Nat) (b : Option Bytes) : State :=
  let s := s.onVault t fun v =>
    { v with blobs := match b with
                      | some x => Tbl.put v.blobs place x
                      | none => Tbl.del v.blobs place }
  (s.queueJob t (.keys [(place / 2 ^ 24, place % 2 ^ 24, b)])).mirror t (.keyBlob place b)

/-- Remove the slot-file entries of a meter's key (R465). -/
def State.dropSlots (s : State) (t : TileId) (midx : Nat) (kind : Option Nat) : State :=
  s.onVol t fun v => { v with gather := { v.gather with slots := v.gather.slots.filter fun e =>
    !(decide (e.midx = midx) && (kind.isNone || decide (kind = some e.kind))) } }

/-- The place of a meter's or repeater's EAP-PSK in the PLC key table (R463). -/
def State.plcKeyPlace (s : State) (t : TileId) (owner : Nat) : Option Nat :=
  ((s.vol t).vault.blobs.find? fun e => decide (e.1 / 2 ^ 24 = 1) && decide (fld e.2 4 4 = owner)).map Prod.fst

/-- Destroy every key blob of a slot and its slot-file entries (R64). -/
def State.destroyKeys (s : State) (t : TileId) (slot : Nat) : State :=
  let s := match s.plcKeyPlace t (s.midxOf t slot) with
    | some p => s.setBlob t p none
    | none => s
  let s := s.each (List.range 4) fun s k =>
    if (s.blob t (blobPlace 0 (4 * slot + k))).isSome then s.setBlob t (blobPlace 0 (4 * slot + k)) none else s
  s.dropSlots t (s.midxOf t slot) none

/-- Serial-number comparison of n-bit identifiers (R588). -/
def serialGt (n a b : Nat) : Bool :=
  let d := (a + 2 ^ n - b % 2 ^ n) % 2 ^ n
  decide (1 ≤ d) && decide (d ≤ 2 ^ (n - 1) - 1)

end Sys2Proof.Machine
end

