-- ==== Sys2Proof/Machine/Axdr.lean ====
section
/-! DEFINITION. Axdr.lean: the A-XDR forms that G3 and G5 read (R91, R92, R97 to R102): lengths, data elements, ciphering
wrappers, capture times and rows. The encodings that the manual takes from IEC 62056-5-3 and IEC 62056-6-2 are PRESUMED
(notes/assumptions/15.md). Failures are detail codes of R107. -/

namespace Sys2Proof.Machine

/-- An A-XDR length: one byte below 0x80, or 0x8n followed by n bytes. -/
def axLen : Bytes → Except Nat (Nat × Bytes)
  | [] => .error 0x47
  | b :: r =>
    if b.toNat < 0x80 then .ok (b.toNat, r)
    else
      let n := b.toNat - 0x80
      if n = 0 ∨ 4 < n ∨ r.length < n then .error 0x47 else .ok (beNat (r.take n), r.drop n)

/-- A data element as far as G5 distinguishes them: null-data, array and structure with the number of elements that they declare,
an accepted integer, a 12-byte octet-string or date-time, anything else. `bad` is an element whose tag gives no size: nothing after
it can be read, so the lists that it stands in end with it. -/
inductive AxVal
  | null
  | arr (n : Nat) (l : List AxVal)
  | str (n : Nat) (l : List AxVal)
  | int (v : Int)
  | time (b : Bytes)
  | other
  | bad

/-- Sizes of the fixed-size types of IEC 62056-6-2. -/
def axFixed (tag : Nat) : Option Nat :=
  [(0x03, 1), (0x0D, 1), (0x0F, 1), (0x10, 2), (0x05, 4), (0x14, 8), (0x11, 1), (0x12, 2), (0x06, 4), (0x15, 8), (0x16, 1),
   (0x17, 4), (0x18, 8), (0x19, 12), (0x1A, 5), (0x1B, 4)].lookup tag

/-- A scalar element from its tag and content. -/
def axScalar (tag : Nat) (b : Bytes) : AxVal :=
  if [0x0F, 0x10, 0x05, 0x14].contains tag then .int (toSigned (8 * b.length) (beNat b))
  else if [0x11, 0x12, 0x06, 0x15].contains tag then .int (beNat b)
  else if (tag = 0x09 ∨ tag = 0x19) ∧ b.length = 12 then .time b
  else .other

mutual
/-- One data element and the bytes after it; no bytes when an element without a size has ended the reading. `fuel` bounds the
elements still to read. -/
def axData : Nat → Bytes → Except Nat (AxVal × Option Bytes)
  | 0, _ => .error 0x47
  | _, [] => .error 0x47
  | fuel + 1, tag :: r =>
    let tag := tag.toNat
    if tag = 0 then .ok (.null, some r)
    else if tag = 1 ∨ tag = 2 then
      match axLen r with
      | .ok (n, r) =>
        if r.length < n then .error 0x47
        else (axList fuel n r).map fun p => (if tag = 1 then .arr n p.1 else .str n p.1, p.2)
      | .error e => .error e
    else
      let size : Option (Except Nat (Nat × Bytes)) :=
        match axFixed tag with
        | some k => some (.ok (k, r))
        | none =>
          if tag = 0x09 ∨ tag = 0x0A ∨ tag = 0x0C then some (axLen r)
          else if tag = 0x04 then some ((axLen r).map fun p => ((p.1 + 7) / 8, p.2))
          else none
      match size with
      | some (.ok (k, r)) => if r.length < k then .error 0x47 else .ok (axScalar tag (r.take k), some (r.drop k))
      | some (.error e) => .error e
      | none => .ok (.bad, none)
/-- `n` data elements and the bytes after them. -/
def axList : Nat → Nat → Bytes → Except Nat (List AxVal × Option Bytes)
  | 0, _, _ => .error 0x47
  | _, 0, r => .ok ([], some r)
  | fuel + 1, n + 1, r =>
    match axData fuel r with
    | .ok (v, some r) => (axList fuel n r).map fun p => (v :: p.1, p.2)
    | .ok (v, none) => .ok ([v], none)
    | .error e => .error e
end

/-! ### The ciphering wrapper (R91, R92, R97) -/

/-- First bytes of ciphering wrappers (R91). -/
def isWrapper (apdu : Bytes) : Bool :=
  match apdu with
  | b :: _ =>
    [0x21, 0x25, 0x26, 0x28, 0x2C, 0x2D, 0x2E, 0x36, 0x38, 0x41, 0x45, 0x46, 0x48, 0x4C, 0x4D, 0x4E, 0x56, 0x58,
     0xC8, 0xC9, 0xCA, 0xCB, 0xCC, 0xCD, 0xCF, 0xD0, 0xD1, 0xD2, 0xD3, 0xD4, 0xD5, 0xD7, 0xDB, 0xDC, 0xDD, 0xDF].contains b.toNat
  | [] => false

/-- An accepted wrapper. -/
structure Wrapper where
  title : Bytes
  sc : Nat
  ic : Nat
  body : Bytes
  tag : Bytes
  deriving DecidableEq, Repr

/-- Read a wrapper; its detail code on a failure. Content below the 17 bytes of a security header and a tag fails on its header, and a content length that
differs from what follows comes before a bad security control (DESIGN CHOICE, notes/assumptions/35.md). -/
def readWrapper (apdu : Bytes) : Except Nat Wrapper :=
  match apdu with
  | [] => .error 0x40
  | t :: r =>
    if 2048 < apdu.length then .error 0x47
    else if t.toNat ≠ 0xDB ∧ t.toNat ≠ 0xDC then .error 0x40
    else match axLen r with
      | .error e => .error e
      | .ok (n, r) =>
        if n ≠ 8 then .error 0x40
        else if r.length < 8 then .error 0x47
        else match axLen (r.drop 8) with
          | .error e => .error e
          | .ok (k, c) =>
            let sc := fld c 0 1
            if c.length ≠ k then .error 0x47
            else if k < 17 ∨ 1 < sc % 16 ∨ !bit sc 4 ∨ bit sc 6 ∨ bit sc 7 then .error 0x40
            else .ok { title := r.take 8, sc := sc, ic := beNat ((c.drop 1).take 4), body := (c.drop 5).take (k - 17)
                       tag := c.drop (k - 12) }

/-- Open a wrapper under EK and AK (R92). -/
def Wrapper.open_ (w : Wrapper) (ek ak : Bytes) : Option Bytes :=
  let iv := w.title ++ natBE 4 w.ic
  let sc := natLE 1 w.sc
  if bit w.sc 5 then Crypto.gcmOpen ek iv (sc ++ ak) w.body w.tag
  else (Crypto.gcmOpen ek iv (sc ++ ak ++ w.body) [] w.tag).map fun _ => w.body

/-- Seal a downlink APDU as R284 has it: general-glo-ciphering, security control 0x30. -/
def sealWrapper (title ek ak : Bytes) (ic : Nat) (plain : Bytes) : Bytes :=
  let c := Crypto.gcmSeal ek (title ++ natBE 4 ic) ([0x30] ++ ak) plain 12
  let body := [0x30] ++ natBE 4 ic ++ c.1 ++ c.2
  let len := if body.length < 0x80 then natBE 1 body.length
    else if body.length < 0x100 then [0x81] ++ natBE 1 body.length else [0x82] ++ natBE 2 body.length
  [0xDB, 0x08] ++ title ++ len ++ body

/-! ### Plaintext APDUs (R97) -/

/-- The rows of a plaintext APDU, still to be judged: the shape of its data, then EMPTY and ROWS on the number of rows that the
array declares (R98). -/
def axRows (b : Bytes) : Except Nat (List AxVal) :=
  let rows := fun (single : Bool) (v : AxVal) => match v with
    | .arr n l => if n = 0 then .error 0x49 else if 96 < n then .error 0x48 else .ok l
    | .str n l => if single then .ok [.str n l] else .error 0x42
    | _ => .error 0x42
  let whole := fun (single : Bool) (r : Bytes) => match axData (2 * r.length + 2) r with
    | .ok (v, left) => if left.getD [] = [] then rows single v else Except.error 0x47
    | .error e => .error e
  if 2048 < b.length then .error 0x47
  else match b with
  | 0x0F :: r =>
    if r.length < 4 then .error 0x47
    else match axLen (r.drop 4) with
      | .error e => .error e
      | .ok (n, r) => if n ≠ 0 ∧ n ≠ 12 then .error 0x41 else if r.length < n then .error 0x47 else whole true (r.drop n)
  | 0xC4 :: 0x01 :: _ :: c :: r => if c ≠ 0 then .error 0x41 else whole false r
  | 0xC4 :: 0x01 :: _ => .error 0x47
  | 0xC4 :: 0x02 :: r =>
    if r.length < 7 then .error 0x47
    else if fld r 1 1 = 0 ∨ beNat ((r.drop 2).take 4) ≠ 1 then .error 0x46
    else if fld r 6 1 ≠ 0 then .error 0x41
    else match axLen (r.drop 7) with
      | .error e => .error e
      | .ok (n, r) => if r.length ≠ n then .error 0x47 else whole false r
  | _ => .error 0x41

/-! ### Capture times (R100, R101) -/

/-- A capture: TAI time in units of 10 ms, the clock status, and whether it is suspect. -/
structure Capture where
  cs : Int
  status : Nat
  suspect : Bool
  deriving DecidableEq, Repr

/-- Convert a capture time. -/
def State.capture (s : State) (t : TileId) (b : Bytes) : Except Nat Capture :=
  let f := fun i => fld b i 1
  let y := beNat (b.take 2)
  let status := f 11
  let cc := if f 8 = 0xFF then 0 else f 8
  let dev := toSigned 16 (beNat ((b.drop 9).take 2))
  let leap := decide (f 7 = 60)
  if y = 0xFFFF ∨ f 2 = 0 ∨ 12 < f 2 ∨ f 3 = 0 ∨ monthDays y (f 2) < f 3 ∨ 23 < f 5 ∨ 59 < f 6 ∨ 60 < f 7 ∨ 99 < cc then
    .error 0x43
  else
    let l := daysFromCivil y (f 2) (f 3) * 86400 + f 5 * 3600 + f 6 * 60 + (if leap then 59 else f 7)
    let u : Int × Bool :=
      if dev = -0x8000 then utcOfLocal (s.calendar t) l status
      else (if s.rd Reg.gather_deviation_invert t = 1 then l + 60 * dev else l - 60 * dev, false)
    let suspect := u.2 || (decide (status ≠ 0xFF) && decide (status % 8 ≠ 0))
    if leap then
      match s.leapTai u.1 with
      | some tai => .ok { cs := tai * 100 + cc, status := status, suspect := suspect }
      | none => .error 0x43
    else .ok { cs := (u.1 + s.offsetAtUtc u.1) * 100 + cc, status := status, suspect := suspect }

/-- The nearest grid point of a duration, the earlier one midway (R101), in units of 10 ms. -/
def snap (cs : Int) (idur phase : Nat) : Int :=
  let span : Int := max idur 1 * 100
  let rel := (cs - phase * 100) % span
  if span < 2 * rel then cs - rel + span else cs - rel

/-! ### Rows (R98, R99, R102, R103) -/

/-- The values of a row in order: null-data, then type, then range (R98). -/
def rowVals : List AxVal → Except Nat (List Int)
  | [] => .ok []
  | v :: r =>
    match v with
    | .null => .error 0x45
    | .int x =>
      if x < -(2 ^ 39 : Int) ∨ (2 ^ 39 : Int) ≤ x then .error 0x44
      else match rowVals r with
        | .ok l => .ok (x :: l)
        | .error e => .error e
    | _ => .error 0x42

/-- Judge every row of a frame, in row order (R98). An element of the array that is no structure fails in its row's turn (DESIGN
CHOICE, notes/assumptions/35.md). -/
def State.judgeRows (s : State) (t : TileId) (regCount : Nat) : List AxVal → Except Nat (List (Capture × List Int))
  | [] => .ok []
  | v :: r =>
    let one : Except Nat (Capture × List Int) :=
      match v with
      | .str n (.time b :: l) =>
        if n ≠ regCount + 1 then .error 0x42
        else match s.capture t b with
          | .error e => .error e
          | .ok c => match rowVals l with
            | .ok x => .ok (c, x)
            | .error e => .error e
      | _ => .error 0x42
    match one with
    | .error e => .error e
    | .ok x => match s.judgeRows t regCount r with
      | .ok l => .ok (x :: l)
      | .error e => .error e

/-- G5 for a plaintext APDU of a meter: its opened readings (R97 to R103). A capture before the TIME80 epoch gives TEND 0 (DESIGN
CHOICE, notes/assumptions/35.md). -/
def State.openRows (s : State) (t : TileId) (slot : Nat) (source ctr arrival : Nat) (plain : Bytes) : Except Nat (List Opened) :=
  let m := s.meter t slot
  match axRows plain with
  | .error e => .error e
  | .ok l =>
    match s.judgeRows t (s.clsRegs t m.cls) l with
      | .error e => .error e
      | .ok rows =>
        let phase := s.rd Reg.gather_grid_phase t
        let tol := min (s.rd Reg.gather_align_tol t) (m.idur / 4)
        .ok ((rows.zip (List.range rows.length)).map fun x =>
          let c := x.1.1
          let fold := decide (s.rd Reg.gather_dst_fold t = 1) && decide (m.idur = 86400) && decide (c.status ≠ 0xFF) && bit c.status 7
          let cs := if fold then c.cs + 360000 else c.cs
          let g := snap cs m.idur phase
          let off := cs - g
          let tend := (g / 100).toNat
          let late := decide ((tend : Int) * 1000000000 + (s.rd Reg.gather_late_window t : Int) * 1000000000 < (arrival : Int))
          { midx := s.midxOf t slot, source := source, tend := tend, capOfs := max (-32767) (min 32767 off), idur := m.idur
            qual := 2 ^ 10 * b2n (decide (source ≤ 2)) + 2 ^ 8 * b2n (c.suspect || decide (100 * tol < off.natAbs)) +
              2 ^ 9 * b2n (decide (m.phase % 4 = 0)) + 2 ^ 4 * b2n late
            row := x.2, rows := rows.length, ctr := ctr, arrival := arrival, regs := (x.1.2 ++ List.replicate 6 0).take 6 })

/-- The 64 bytes of an opened reading (R103), and back. -/
def openedBytes (o : Opened) : Bytes :=
  natLE 3 o.midx ++ natLE 1 o.source ++ natLE 6 o.tend ++ intLE 2 o.capOfs ++ natLE 4 o.idur ++ natLE 2 o.qual ++
  natLE 1 o.row ++ natLE 1 o.rows ++ natLE 4 o.ctr ++ time80 o.arrival ++ regsBytes o.regs
def openedOf (b : Bytes) : Opened where
  midx := fld b 0 3 % 2 ^ 22
  source := fld b 3 1
  tend := fld b 4 6
  capOfs := toSigned 16 (fld b 10 2)
  idur := fld b 12 4
  qual := fld b 16 2
  row := fld b 18 1
  rows := fld b 19 1
  ctr := fld b 20 4
  arrival := time80ns ((b.drop 24).take 10)
  regs := regsOf b 34

end Sys2Proof.Machine
end

