-- ==== Sys2Proof/Machine/Meters.lean ====
section
/-! DEFINITION. Meters.lean: chapter 2: the checks of meter records, the class table, the hash table, journal and load. -/

namespace Sys2Proof.Machine

open Crypto

/-! ### The hash table (R55 to R58) -/

/-- SipHash-2-4 of KIND and KEY under the table key. -/
def hashOf (key kind id : Nat) : Nat := siphash key (natLE 1 kind ++ natLE 8 id)

/-- Buckets h0 and h1 (R56). -/
def bucketsOf (key kind id : Nat) : Nat × Nat :=
  let h := hashOf key kind id
  let h0 := h % 2 ^ 19
  let h1 := h / 2 ^ 32 % 2 ^ 19
  (h0, if h1 = h0 then h0 ^^^ 1 else h1)

/-- Entries in a bucket, and in the stash. -/
def inBucket (l : List HashEnt) (b : Option Nat) : Nat := l.countP fun e => decide (e.bucket = b)

/-- Place an entry in bucket `b`, displacing at most `fuel` entries between their two buckets; the last one displaced goes to
the stash; none when the stash is full (R57). The entry displaced is the oldest of its bucket (DESIGN CHOICE,
notes/assumptions/12.md). -/
def hashPlace (key : Nat) : Nat → List HashEnt → HashEnt → Nat → Option (List HashEnt)
  | 0, l, e, _ => if inBucket l none < 64 then some (l ++ [{ e with bucket := none }]) else none
  | fuel + 1, l, e, b =>
    if inBucket l (some b) < 4 then some (l ++ [{ e with bucket := some b }])
    else match l.find? fun x => decide (x.bucket = some b) with
      | some v =>
        let p := bucketsOf key v.kind v.key
        hashPlace key fuel (l.filter (fun x => x != v) ++ [{ e with bucket := some b }]) v (if p.1 = b then p.2 else p.1)
      | none => none

/-- Insert an identity. -/
def hashInsert (key : Nat) (l : List HashEnt) (kind id midx : Nat) : Option (List HashEnt) :=
  let p := bucketsOf key kind id
  let e : HashEnt := { kind := kind, key := id, midx := midx, bucket := none }
  if inBucket l (some p.1) < 4 then hashPlace key 1 l e p.1
  else if inBucket l (some p.2) < 4 then hashPlace key 1 l e p.2
  else hashPlace key 128 l e p.1

/-- Insert several identities; none when one does not fit, and then nothing is inserted. -/
def hashInsertAll (key midx : Nat) : List HashEnt → List (Nat × Nat) → Option (List HashEnt)
  | l, [] => some l
  | l, (k, id) :: r => (hashInsert key l k id midx).bind fun l => hashInsertAll key midx l r

/-- The slot that an identity names (R56). -/
def Meters.lookup (m : Meters) (kind id : Nat) : Option Nat :=
  (m.hash.find? fun e => decide (e.kind = kind) && decide (e.key = id)).map HashEnt.midx

/-- The identities of a record that are entered in the hash table (R53): an EUI64 of all ones is none. -/
def MeterRec.ids (r : MeterRec) : List (Nat × Nat) :=
  let e := if r.eui64 = 2 ^ 64 - 1 then [] else [(1, r.eui64)]
  match r.path with
  | 0 => (0, r.sysTitle) :: e ++ (if r.shortAddr = 0xFFFF then [] else [(2, r.shortAddr)])
  | 1 => (0, r.sysTitle) :: e
  | 2 => [(0, r.sysTitle)]
  | _ => []

/-- Remove a meter's hash entries. -/
def State.hashRemove (s : State) (t : TileId) (midx : Nat) : State :=
  s.onMeters t fun m => { m with hash := m.hash.filter fun e => e.midx != midx }

/-- Enter a meter's identities; false when one does not fit (R57), counted and undone. -/
def State.hashEnter (s : State) (t : TileId) (midx : Nat) (ids : List (Nat × Nat)) : State × Bool :=
  let m := (s.vol t).meters
  match hashInsertAll m.hashKey midx m.hash ids with
  | some l => (s.onMeters t fun m => { m with hash := l }, true)
  | none => (s.bump Reg.meters_hash_insert_fail t, false)

/-! ### Checks of R61 and R690 -/

/-- A LOCAL record's class maps only the quantities of R237. -/
def localMapOk (m : RegMap) : Bool :=
  let c := (m.obis.getD 2 0).toNat
  let okName := decide (m.obis.take 2 = [1, 0]) && decide ((m.obis.getD 4 0).toNat = 0) && decide ((m.obis.getD 5 0).toNat = 255)
  let d := (m.obis.getD 3 0).toNat
  let energy := [1, 2, 21, 41, 61, 22, 42, 62].contains c
  let react := [5, 6, 7, 8].contains c
  decide (m.classId = 3) && decide (m.attr = 2) && okName &&
  (if d = 8 then
     ((energy && decide (m.unit = 30)) || (react && decide (m.unit = 32))) && (decide (m.rkind = 0) || decide (m.rkind = 2)) &&
     decide (-3 ≤ m.scaler) && decide (m.scaler ≤ 3)
   else
     decide (d = 7) &&
     (([32, 52, 72].contains c && decide (m.unit = 35)) || ([31, 51, 71, 91].contains c && decide (m.unit = 33)) ||
      (decide (c = 14) && decide (m.unit = 44))) &&
     (decide (m.rkind = 1) || decide (m.rkind = 3)) && decide (-3 ≤ m.scaler) && decide (m.scaler ≤ 0))

/-- The fingerprint entry of a satellite is in use. -/
def State.satUsed (s : State) (t : TileId) (sat : Nat) : Bool :=
  decide (sat < 1024) && decide (s.rdF Reg.meters_sat_table t (32 * sat) 32 ≠ 0)

/-- R61 orders 3 to 6 on a record image; `self` is the MIDX whose own entries do not count. Only IN_SERVICE records count toward the limits of a path (DESIGN
CHOICE, notes/assumptions/32.md). -/
def imageCheck (s : State) (t : TileId) (img : MeterRec) (mode : Nat) (self : Nat) : Option Status :=
  let kind := s.clsKind t img.cls
  let count := fun (p : Nat) =>
    (s.slotsOf t fun r => decide (r.state = 1) && decide (r.path = p)).countP fun i => decide (s.midxOf t i ≠ self)
  if 63 < img.cls ∨ kind = 0xFF ∨ 3 < img.path ∨ (img.idur ≠ 0 ∧ !idurValid img.idur) ∨ (img.path = 3 ∧ kind ≠ 3) ∨
      (img.path = 1 ∧ img.eui64 = 2 ^ 64 - 1) ∨ (img.path = 3 ∧ !(s.maps t img.cls).all localMapOk) then some .invalid
  else if (img.path = 0 ∧ 4096 ≤ count 0) ∨ (img.path = 1 ∧ 8192 ≤ count 1) ∨ (img.path = 3 ∧ 1 ≤ count 3) ∨
      (img.path = 2 ∧ !s.satUsed t img.satId) then some .limit
  else if ({ img with shortAddr := 0xFFFF } : MeterRec).ids.any (fun p =>
      match (s.vol t).meters.lookup p.1 p.2 with
      | some m => m != self
      | none => false) then some .duplicateId
  else if mode = 1 ∧ (img.creditHeld ≠ 0 ∨ img.relayCmd ≠ img.relayRpt) then some .invalid
  else none

/-- The journal ring takes no entry: the next page opens a block whose old content the newest checkpoint still needs (R70). -/
def Media.journalFull (m : Media) : Bool :=
  let j0 := match m.ckA, m.ckB with
    | some a, some b => if b.start < a.start then a.j0 else b.j0
    | some a, none => a.j0
    | none, some b => b.j0
    | none, none => 0
  let k := m.jPos / 512
  decide (m.jPos % 512 = 0) && decide (2 ≤ k) && decide (j0 < (k - 1) * 512)

/-- The staging block and its target MIDX (R61). -/
def State.staging (s : State) (t : TileId) : Bytes := s.rdAll Reg.meters_staging t

/-- MIDX of a group that waits at G8. -/
def Group.midx? : Group → Option Nat
  | .meter m _ _ _ _ _ _ _ => some m
  | .restate m _ _ _ _ _ => some m
  | _ => none

/-- No reading of the MIDX is between G1 and the end of G8 (R65, R86). -/
def State.idleMidx (s : State) (t : TileId) (midx : Nat) : Bool :=
  let v := s.vol t
  !(v.gather.waiting.any fun f => decide (f.midx = midx)) &&
  !(v.gather.rows.any fun r => decide (r.rd.midx = midx)) && !(v.marver.inq.any fun r => decide (r.rd.midx = midx)) &&
  !(v.lehr.inq.any fun g => decide (g.midx? = some midx))

/-! ### The class table (R51, R689) -/

/-- R689 step 1 for one template of 128 bytes. -/
def templateOk (b : Bytes) : Bool :=
  let kind := fld b 0 1
  let n := fld b 1 1
  if kind = 0xFF then true
  else
    decide (kind ≤ 3) && decide (1 ≤ n) && decide (n ≤ 6) && decide (fld b 2 2 < 32) && idurValid (fld b 4 4) &&
    (decide (fld b 0x0E 1 ≤ 63) || decide (fld b 0x0E 1 = 0xFF)) && decide (fld b 0x0F 1 = 0) &&
    decide (leNat ((b.drop 0x70).take 16) = 0) &&
    ((List.range n).all fun i =>
      let m := (b.drop (0x10 + 16 * i)).take 16
      decide (fld m 11 1 ≤ 3) && decide (fld m 12 1 ≤ 12) && decide (fld m 13 1 ≤ 4)) &&
    (List.range 6).all fun i => decide (fld b (0x10 + 16 * i + 14) 2 = 0)

/-- The part of a template that R51 fixes while the class is in use: KIND, REG_COUNT, PROFILE_OBIS and the maps. -/
def templateFixed (b : Bytes) : Bytes := b.take 2 ++ (b.drop 8).take 6 ++ (b.drop 0x10).take 96

/-- Classes with a record in IN_SERVICE or MOVING_OUT. -/
def State.classUsed (s : State) (t : TileId) (c : Nat) : Bool :=
  (s.vol t).meters.recs.any fun e => decide (e.2.cls = c) && (decide (e.2.state = 1) || decide (e.2.state = 2))

/-- The tile is the standby of a redundant bay, which refuses writes of entries that the CONFIG snapshot carries (R657). -/
def State.refusesConfig (s : State) (t : TileId) : Bool :=
  !s.independent t && !decide (s.role t = 0) && !decide (s.role t = 255)

/-- A write of the class table (R689). -/
def writeClassTable (t : TileId) (off : Nat) (data : Bytes) (s : State) : State × Status :=
  if s.refusesConfig t then (s, .notActive)
  else if 8192 < off + data.length then (s, .length)
  else
    let n := s.wrB Reg.meters_class_table t off data
    let at_ := fun (x : State) c => x.rdB Reg.meters_class_table t (128 * c) 128
    if !(List.range 64).all fun c => templateOk (at_ n c) then (s, .invalid)
    else if (List.range 64).any fun c => s.classUsed t c && decide (templateFixed (at_ s c) ≠ templateFixed (at_ n c)) then
      (s, .conflict)
    else (s.wrBM Reg.meters_class_table t off data, .ok)

/-- CLASS_TABLE_WRITE (R689). -/
def execClassTableWrite (t : TileId) (off : Nat) (data : Bytes) (s : State) : Host.Outcome State Fault Refusal :=
  finish (fun s => let r := writeClassTable t off data s; r.1.answer t r.2) s

/-! ### The journal (R70) -/

/-- JOURNAL_PAGE_PROGRAM (R70): a page of 256 entries, or 10 ms after its first entry, goes to the FTL. -/
def journalPageProgram (t : TileId) (s : State) : State :=
  let m := (s.vol t).meters
  match m.jFirst with
  | some x =>
    if 256 ≤ m.jPage.length ∨ x + 10000000 ≤ s.now then
      let rest := m.jPage.drop 256
      let s := s.onMeters t fun m => { m with jPage := rest, jFirst := if rest = [] then none else some s.now }
      s.queueJob t (.journal (m.jPage.take 256))
    else s
  | none => s

/-- JOURNAL_PAGE_PROGRAM (R70). -/
def execJournalPageProgram (t : TileId) (s : State) : Host.Outcome State Fault Refusal := finish (journalPageProgram t) s

/-! ### Load (R71) -/

/-- Whether a journal entry is newer than the record (R71 step 2, R588). -/
def JEntry.newer (e : JEntry) (r : MeterRec) : Bool :=
  let ge := e.gen / 2 ^ 22
  let gr := r.midxGen / 2 ^ 22
  serialGt 10 ge gr || (decide (ge = gr) && serialGt 32 e.upd r.updCnt) ||
  (decide (e.op = .release) && decide (ge = gr) && (decide (r.state = 2) || decide (r.state = 3)))

/-- A journal entry applied to a record: the fields that R69 journals. -/
def JEntry.apply (e : JEntry) (r : MeterRec) : MeterRec :=
  let n := e.snap
  match e.op with
  | .enrol => n
  | .release => n
  | _ =>
    let r : MeterRec :=
      { n with
        icUpHw := if e.op = .keys then n.icUpHw else r.icUpHw
        fcUpHw := if e.op = .keys then n.fcUpHw else r.fcUpHw
        icDown := r.icDown, lastTend := r.lastTend, dupMap := r.dupMap, lastSeq := r.lastSeq, clkOfs := r.clkOfs
        lastReg := r.lastReg, gapRun := r.gapRun, tou := r.tou, credit := r.credit, billSeq := r.billSeq }
    let r := { r with credit := sat64 (r.credit + e.amount) }
    if e.op = .edit ∧ n.dupMap = 0xFFFF ∧ n.gapRun = 0 then { r with dupMap := 0xFFFF, gapRun := 0 } else r

/-- The newest complete checkpoint. -/
def Media.newestCk (m : Media) : Option Checkpoint :=
  match m.ckA, m.ckB with
  | some a, some b => if b.start < a.start then some a else some b
  | some a, none => some a
  | none, b => b

/-- A promotion guard (R507): every ceiling rises by 2^16, those of the tile's own counters too. -/
def raiseCeils (l : Tbl Nat) : Tbl Nat :=
  let l := [ctrSlot 0, ctrSlot 1, ctrSlot 2].foldl (fun l k => if (Tbl.get l k).isSome then l else Tbl.put l k 0) l
  l.map fun x => (x.1, min (x.2 + 65536) 0xFFFFFFFF)

/-- The table after steps 1 to 3 of R71: checkpoint, newer journal entries in order, and every IC_DOWN at its journalled
ceiling, with 2^16 more for each promotion guard after it (R507). -/
def Media.loadTable (m : Media) : Tbl MeterRec × Tbl Nat :=
  let c := m.newestCk
  let j0 := (c.map Checkpoint.j0).getD 0
  let base : Tbl MeterRec := (c.map Checkpoint.recs).getD []
  let ents := m.journal.filter fun e => decide (j0 * 256 ≤ e.1)
  let recs := ents.foldl (fun (l : Tbl MeterRec) p =>
    let e := p.2
    let r := (Tbl.get l e.slot).getD (MeterRec.free (e.gen % 2 ^ 22))
    if decide (e.slot < 2 ^ 18) && e.newer r then Tbl.put l e.slot (e.apply r) else l) base
  let ceils0 : Tbl Nat := (c.map Checkpoint.ceils).getD []
  let ceils := ents.foldl (fun (l : Tbl Nat) p => match p.2.op with
    | .ceiling => Tbl.put l p.2.slot p.2.ceil
    | .keys => if (Tbl.get l p.2.slot).isSome then Tbl.put l p.2.slot p.2.ceil else l
    | .release => Tbl.del l p.2.slot
    | .guard => raiseCeils l
    | _ => l) ceils0
  (recs.map fun e => (e.1, { e.2 with icDown := (Tbl.get ceils e.1).getD e.2.icDown }), ceils)

/-- Step 4 of R71: archive records from S0 on update the records behind them, those that the slot's former meter left too (DESIGN CHOICE,
notes/assumptions/32.md). -/
def replayArchive (phase : Nat) (recs : Tbl MeterRec) (l : List ArchRec) : Tbl MeterRec :=
  l.foldl (fun recs a =>
    match a.body with
    | .meter _ _ _ _ _ =>
      Tbl.upd recs (midxSlot a.who) fun r => if r.lastSeq < a.seq then r.applyRecord phase a else r
    | _ => recs) recs

/-- Build the hash table from the records under a fresh key from the DRBG (R58). -/
def State.buildHash (s : State) (t : TileId) : State :=
  let key := leNat ((Config.drbg t (s.tile t).draws).take 16)
  let s := s.onTile t fun x => { x with draws := x.draws + 1 }
  let recs := (s.vol t).meters.recs
  let h := recs.foldl (fun (l : List HashEnt) e =>
    if e.2.state = 1 then (hashInsertAll key (s.midxOf t e.1) l e.2.ids).getD l else l) []
  s.onMeters t fun m => { m with hash := h, hashKey := key }

/-- The die as the load reads it: nothing can be read while it is not mounted (R573). -/
def State.readable (s : State) (t : TileId) : Media := if s.rd Reg.media_state t = 3 then (s.tile t).media else Media.init

/-- The whole load (R71): returns the archive records that Ephemeris applies again. -/
def State.loadMeters (s : State) (t : TileId) : State × List ArchRec :=
  let m := s.readable t
  let p := m.loadTable
  let s0 := (m.newestCk.map Checkpoint.s0).getD 0
  let l := ((m.arch0 ++ m.arch1).filter fun e => decide (s0 ≤ e.1)).map fun e => e.2.ent
  let recs := replayArchive (s.rd Reg.gather_grid_phase t) p.1 l
  let s := s.onMeters t fun x =>
    { Meters.init with recs := recs, ceils := p.2, jCount := x.jCount, jDone := x.jCount,
                       ckptNext := s.now + s.rd Reg.meters_checkpoint_interval t * 1000000000 }
  let again := l.filter fun a => match Tbl.get recs (midxSlot a.who), a.body with
    | some r, .meter _ _ _ _ _ => decide (r.billSeq < a.seq)
    | _, _ => false
  (s.buildHash t, again)

/-- Key blobs left of slots that are FREE or RETIRED are destroyed: an action that ends there may have been cut short between its journal entry and its
last step (R63, R64). -/
def State.dropLeftKeys (s : State) (t : TileId) : State :=
  let gone := fun (slot : Nat) => let r := s.meter t slot; decide (r.state = 0) || decide (r.state = 3)
  let slots := (((s.vol t).vault.blobs.filter fun e => decide (e.1 / 2 ^ 24 = 0)).map fun e => e.1 / 4).eraseDups
  let owners := ((s.vol t).vault.blobs.filter fun e => decide (e.1 / 2 ^ 24 = 1)).map fun e => fld e.2 4 4
  let own := (owners.filter fun m => s.ownMidx t m).map midxSlot
  ((slots ++ own).eraseDups.filter gone).foldl (fun s i =>
    let s := s.destroyKeys t i
    if (s.meter t i).keyMap = 0 then s else s.fieldsMeter t i fun r => { r with keyMap := 0 }) s

/-- A record of the slot fails CHECK: counted, raised, and restored in the background (R72). -/
def State.recordBad (s : State) (t : TileId) (slot : Nat) : State :=
  let s := s.setMeter t slot { s.meter t slot with checkGood := false }
  let s := (s.bump Reg.meters_record_errors t).event t 1 0x1001 (s.midxOf t slot)
  s.onMeters t fun m => { m with restoring := m.restoring ++ [slot] }

/-- A slot is being restored or is marked damaged: its readings end UNKNOWN_METER and its downlink commands are held (R72). -/
def State.unsound (s : State) (t : TileId) (slot : Nat) : Bool :=
  let m := (s.vol t).meters
  !(s.meter t slot).checkGood || m.restoring.contains slot || m.damaged.contains slot

end Sys2Proof.Machine
end

