-- ==== Sys2Proof/Machine/VaultOps.lean ====
section
/-! DEFINITION. VaultOps.lean: chapter 14: roots, the key page, derivation, blobs, general slots and delivery, which the
other units use. -/

namespace Sys2Proof.Machine

open Crypto

/-! ### Roots, key page, derivation (R447 to R458) -/

/-- The test root T (R449). -/
def testRoot : Bytes := sha256 (ascii "DK216 TEST ROOT")

/-- The copy in force of the key page: a good CRC and the higher WRITE_COUNT (R453). -/
def Tile.keyPage (x : Tile) : KeyPage :=
  if x.page0.good && (!x.page1.good || decide (x.page1.count ≤ x.page0.count)) then x.page0
  else if x.page1.good then x.page1 else KeyPage.blank

/-- Write the key page: into the copy not in force, with WRITE_COUNT one higher (R453). -/
def State.writePage (s : State) (t : TileId) (f : KeyPage → KeyPage) : State :=
  s.onTile t fun x =>
    let k := x.keyPage
    let n := { f k with count := (k.count + 1) % 65536, good := true }
    if x.page0.good && (!x.page1.good || decide (x.page1.count ≤ x.page0.count)) then { x with page1 := n }
    else { x with page0 := n }

/-- Lifecycle as `tile.vault.lifecycle` codes it. -/
def State.lifecycle (s : State) (t : TileId) : Nat := if (s.tile t).retired then 4 else (s.tile t).keyPage.life

/-- Roots F and P in use (R449): both T in DEBUG. -/
def State.roots (s : State) (t : TileId) : Option Bytes × Option Bytes :=
  if s.lifecycle t = 3 then (some testRoot, some testRoot)
  else (if (s.tile t).fuseState < 2 then some (Config.fuseRoot t) else none, some (Config.pufRoot t))

/-- SEAL of a root with a context (R458). -/
def sealKey (root : Bytes) (ctx : String) : Bytes := kdf root (ascii "SEAL") (ascii ctx) 256

/-- An envelope of a KEK; erased when the root is not available. -/
def envelope (root : Option Bytes) (ctx : String) (kek : Bytes) : Bytes :=
  match root with
  | some r => kwWrap (sealKey r ctx) kek
  | none => List.replicate 40 0

/-- Open an envelope; an erased one opens under no root. -/
def envOpen (root : Option Bytes) (ctx : String) (env : Bytes) : Option Bytes :=
  if leNat env = 0 then none else root.bind fun r => kwUnwrap (sealKey r ctx) env

/-- Private keys and symmetric keys derived from the KEKs (R458). -/
def deriveD (kek : Bytes) (label : String) : Nat := privOf (kdf kek (ascii label) [] 320)
def deriveK (kek : Bytes) (label : String) : Bytes := kdf kek (ascii label) [] 256

/-- BAY_KCV (R458). -/
def kcvOf (bayKek : Bytes) : Bytes := kdf bayKek (ascii "KCV") [] 32

/-- A device host key (R459): HOSTKEY from D, or from T on a DK216-ES. -/
def State.hostKeyD (s : State) (g : Nat) : Nat :=
  privOf (kdf (if s.pier.es then testRoot else Config.deviceRoot) (ascii "HOSTKEY") (natLE 1 g) 320)

/-- Set a general slot. -/
def State.setSlot (s : State) (t : TileId) (n : Nat) (key : Bytes) : State :=
  s.onVault t fun v => { v with slots := Tbl.put v.slots n { key := key, bad := false } }

/-- Derive the keys of general slots 0 to 5 (R464). -/
def State.deriveSlots (s : State) (t : TileId) : State :=
  let v := (s.vol t).vault
  let s := match v.tileKek with
    | some k =>
      (((s.setSlot t 0 (natBE 32 (deriveD k "TILE-ID"))).setSlot t 1 (natBE 32 (deriveD k "LINK-ID"))).setSlot t 4
        (deriveK k "SLOTCHK")).setSlot t 5 (deriveK k "LEGALLOG")
    | none => s
  match v.bayKek with
  | some k => (s.setSlot t 2 (natBE 32 (deriveD k "IMPORT"))).setSlot t 3 (deriveK k "CULLET")
  | none => s

/-- A general slot's key, when it holds a good one. -/
def State.slotKey (s : State) (t : TileId) (n : Nat) : Option Bytes :=
  (Tbl.get (s.vol t).vault.slots n).bind fun x => if x.bad then none else some x.key

/-- A general slot's secret key. -/
def State.slotD (s : State) (t : TileId) (n : Nat) : Option Nat := (s.slotKey t n).map beNat

/-! ### Blobs (R460 to R463) -/

/-- Length, MASK and permitted USAGE of a KIND (R461). -/
def kindLen (k : Nat) : Nat := if k = 4 ∨ k = 5 then 32 else 16
def kindMask (k : Nat) : Nat := [1, 1, 2, 1, 4, 8, 2, 2, 1].getD k 0
def kindUsage (k : Nat) : Nat := [3, 3, 3, 3, 3, 4, 3, 11, 2].getD k 0

/-- Fields of ATTR. -/
def blobKind (b : Bytes) : Nat := fld b 1 1
def blobMask (b : Bytes) : Nat := fld b 2 1
def blobUsage (b : Bytes) : Nat := fld b 3 1
def blobOwner (b : Bytes) : Nat := fld b 4 4
def blobExpiry (b : Bytes) : Nat := fld b 8 4

/-- The OWNER of a bay key of generation `g`. -/
def bayOwner (g : Nat) : Nat := 0x3FFFFF + g * 2 ^ 22

/-- Open a blob under a bay KEK. -/
def blobOpen (kek b : Bytes) : Option Bytes :=
  (gcmOpen kek ((b.drop 12).take 8 ++ ascii "BLOB") (b.take 20) ((b.drop 20).take 32) ((b.drop 52).take 12)).map
    fun p => p.take (kindLen (blobKind b))

/-- Form a blob (R460). -/
def blobForm (kek : Bytes) (id kind usage owner expiry : Nat) (key : Bytes) : Bytes :=
  let attr := [1] ++ natLE 1 kind ++ natLE 1 (kindMask kind) ++ natLE 1 usage ++ natLE 4 owner ++ natLE 4 expiry ++ natLE 8 id
  let c := gcmSeal kek (natLE 8 id ++ ascii "BLOB") attr (fit 32 key) 12
  attr ++ c.1 ++ c.2

/-- Take the next BLOB_ID: the ceiling is written before the counter passes it. -/
def State.blobId (s : State) (t : TileId) : State × Nat :=
  let n := (s.vol t).vault.blobNext
  let s := if n < (s.tile t).keyPage.ceil then s else s.writePage t fun k => { k with ceil := n + 65536 }
  (s.onVault t fun v => { v with blobNext := n + 1 }, t.val * 2 ^ 60 + n)

/-- Wrap a key and write the blob at a place; nothing while the bay KEK is not open. -/
def State.wrapBlob (s : State) (t : TileId) (place kind usage owner expiry : Nat) (key : Bytes) : State :=
  match (s.vol t).vault.bayKek with
  | some kek =>
    let p := s.blobId t
    p.1.setBlob t place (some (blobForm kek p.2 kind usage owner expiry key))
  | none => s

/-- The archive key generation that the bay key table holds as current: that of the signing key at position 7 (DEDUCED,
notes/assumptions/13.md). -/
def State.archGen (s : State) (t : TileId) : Option Nat :=
  (s.blob t (blobPlace 2 7)).map fun b => blobOwner b / 2 ^ 22 % 16

/-- Place of the archive key of a generation. -/
def archPlace (g : Nat) : Nat := blobPlace 2 (64 + g)

/-- Open the blob at a place. -/
def State.openPlace (s : State) (t : TileId) (place : Nat) : Option Bytes :=
  (s.vol t).vault.bayKek.bind fun k => (s.blob t place).bind (blobOpen k)

/-- Fill the general slot of a bay key from its blob; the slot empties with it (R464). -/
def State.loadSlot (s : State) (t : TileId) (n place : Nat) : State :=
  match s.openPlace t place with
  | some k => (s.bump Reg.vault_unwraps t).setSlot t n k
  | none => s.onVault t fun v => { v with slots := Tbl.del v.slots n }

/-- Load every bay key of a tile that serves the bay's slots (R464). -/
def State.loadBaySlots (s : State) (t : TileId) : State :=
  let s := match s.archGen t with
    | some g => (s.loadSlot t 6 (archPlace g)).loadSlot t 7 (blobPlace 2 7)
    | none => s
  s.each ([9, 10] ++ (List.range 48).map (16 + ·)) fun s n =>
    if (s.blob t (blobPlace 2 n)).isSome then s.loadSlot t n (blobPlace 2 n) else s

/-! ### Delivery (R462, R466) -/

/-- EXPIRY permits the delivery now. -/
def State.notExpired (s : State) (t : TileId) (expiry : Nat) : Bool :=
  decide (expiry = 0) || (s.hasTime t && decide (s.timeSec t % 2 ^ 32 < expiry))

/-- Outcome of a fetch from a blob. -/
inductive Fetch
  | key (k : Bytes)
  | bad
  | denied
  deriving DecidableEq, Repr

/-- Unwrap the blob at a place for an engine of MASK bit `m` and a use of USAGE bit `u`; refusals are counted. -/
def State.fetchKey (s : State) (t : TileId) (place m u : Nat) : State × Fetch :=
  let s := s.bump Reg.vault_unwraps t
  match s.blob t place, s.openPlace t place with
  | some b, some k =>
    if !bit (blobMask b) m ∨ !bit (blobUsage b) u then (s.bump Reg.vault_mask_refused t, .denied)
    else if !s.notExpired t (blobExpiry b) then (s.bump Reg.vault_expired_refused t, .denied)
    else (s, .key k)
  | _, _ => (s, .bad)

/-- Refill a general slot once after its integrity word failed: a bay key from its blob, a derived key by derivation. Slot 6 keeps the
archive key generation that Lehr uses (R159). -/
def State.refillSlot (s : State) (t : TileId) (n : Nat) : State :=
  if n < 6 then s.deriveSlots t
  else if n = 6 then if (s.archGen t).isSome then s.loadSlot t 6 (archPlace (s.vol t).lehr.archGen) else s
  else if n = 8 then s.onVault t fun v => { v with slots := Tbl.del v.slots 8 }
  else s.loadSlot t n (blobPlace 2 n)

/-- Deliver a general slot's key (R466): a BAD slot delivers nothing, counts, raises INTEGRITY and is refilled once, which then delivers. -/
def State.useSlot (s : State) (t : TileId) (n : Nat) : State × Option Bytes :=
  match Tbl.get (s.vol t).vault.slots n with
  | some x =>
    if x.bad then
      let s := ((s.bump Reg.vault_integrity_fail t).event t 1 0x1A02 n).refillSlot t n
      (s, s.slotKey t n)
    else (s, some x.key)
  | none => (s, none)

/-- Deliver a bay key of slots 9, 10 and 16 to 63 for a use of USAGE bit `u` (R462): its blob's USAGE and EXPIRY permit it, or the refusal is counted. -/
def State.useBayKey (s : State) (t : TileId) (n u : Nat) : State × Option Bytes :=
  let r := s.useSlot t n
  match r.2, s.blob t (blobPlace 2 n) with
  | some k, some b =>
    if !bit (blobUsage b) u then (r.1.bump Reg.vault_mask_refused t, none)
    else if !s.notExpired t (blobExpiry b) then (r.1.bump Reg.vault_expired_refused t, none)
    else (r.1, some k)
  | _, _ => (r.1, none)

/-! ### The DRBG (R479, R480) -/

/-- The DRBG is ready. -/
def State.drbgReady (s : State) (t : TileId) : Bool := decide (s.rd Reg.vault_drbg_state t = 1)

/-- Reseed. -/
def State.drbgSeed (s : State) (t : TileId) : State :=
  (s.onVault t fun v => { v with drbgReqs := 0, drbgSeeded := some s.now }).bump Reg.vault_reseeds t

/-- Draw 32 bytes; the DRBG reseeds after 2^20 requests. -/
def State.draw (s : State) (t : TileId) : State × Bytes :=
  let b := Config.drbg t (s.tile t).draws
  let s := (s.onTile t fun x => { x with draws := x.draws + 1 }).onVault t fun v => { v with drbgReqs := v.drbgReqs + 1 }
  (if 2 ^ 20 ≤ (s.vol t).vault.drbgReqs then s.drbgSeed t else s, b)

/-- A request refused for NOT_READY is counted. -/
def State.drbgRefuse (s : State) (t : TileId) : State := s.bump Reg.vault_not_ready t

/-- Bit 1 (ROOT) of `tile.status.missing` (R451, R480): Gather service needs FIELD or DEBUG, both KEKs open, and a DRBG that
has become ready since start. -/
def State.settleRoot (s : State) (t : TileId) : State :=
  let v := (s.vol t).vault
  let ok := (decide (s.lifecycle t = 2) || decide (s.lifecycle t = 3)) && v.tileKek.isSome && v.bayKek.isSome && v.drbgOnce
  s.setMissing t 1 (!ok)

/-! ### Opening the KEKs at start (R455) -/

/-- Open one KEK: the key, whether each envelope opened, and which are to be sealed again. -/
def openKek (f p : Option Bytes) (ctx : String) (ef ep : Bytes) : Option Bytes × Bool × Bool :=
  let kf := envOpen f ctx ef
  let kp := envOpen p ctx ep
  (kf.or kp, kf.isNone && f.isSome && kp.isSome, kp.isNone && p.isSome && kf.isSome)

/-- Start of the vault: the KEKs open under the roots, a failing envelope whose KEK opened under the other root is sealed again,
and the derived keys are derived. A retired tile opens nothing. -/
def State.vaultStart (s : State) (t : TileId) : State :=
  let s := s.onVault t fun v => { v with blobs := [], blobNext := (s.tile t).keyPage.ceil
                                         debugOpen := decide (s.lifecycle t = 3), drbgTry := some (v.drbgTry.getD s.now) }
  if (s.tile t).retired then s
  else
    let r := s.roots t
    let k := (s.tile t).keyPage
    let a := openKek r.1 r.2 "TILEKEK" k.tkF k.tkP
    let b := openKek r.1 r.2 "BAYKEK" k.bkF k.bkP
    let one := fun (s : State) (n : Nat) (x : Option Bytes × Bool × Bool) (ef ep : Bytes) =>
      match x.1 with
      | some _ =>
        let c := b2n x.2.1 + b2n x.2.2
        let s := if c = 0 then s else (s.bump Reg.vault_reseals t 0 c).event t 1 0x1A04 n
        s.wr Reg.vault_envelopes t (s.rd Reg.vault_envelopes t + (b2n r.1.isSome + 2 * b2n r.2.isSome) * 4 ^ n)
      | none => if leNat (ef ++ ep) = 0 then s else s.event t 3 0x1A01 n
    let s := one (one s 0 a k.tkF k.tkP) 1 b k.bkF k.bkP
    let redo := fun (x : Option Bytes × Bool × Bool) => x.2.1 || x.2.2
    let s := if redo a || redo b then s.writePage t fun k =>
        { k with
          tkF := if a.2.1 then envelope r.1 "TILEKEK" (a.1.getD []) else k.tkF
          tkP := if a.2.2 then envelope r.2 "TILEKEK" (a.1.getD []) else k.tkP
          bkF := if b.2.1 then envelope r.1 "BAYKEK" (b.1.getD []) else k.bkF
          bkP := if b.2.2 then envelope r.2 "BAYKEK" (b.1.getD []) else k.bkP }
      else s
    let puf := r.1.isNone || a.2.1 || b.2.1
    let s := s.wr Reg.vault_root_used t (if s.lifecycle t = 3 then 3 else if puf then 2 else 1)
    (s.onVault t fun v => { v with tileKek := a.1, bayKek := b.1 }).deriveSlots t

/-! ### Generations and attestation (R471, R472) -/

/-- Attest the public key of a generation and show it. -/
def State.attest (s : State) (t : TileId) (g : Nat) (pub : Bytes) : State :=
  match s.slotD t 0 with
  | some d =>
    let s := s.wrB Reg.vault_sign_pubkeys t (65 * g) pub
    s.wrB Reg.vault_sign_attest t (64 * g) (ecdsaSign d (ascii "ARCHSIGN" ++ natLE 1 (t.val / 2) ++ natLE 1 g ++ pub))
  | none => s

/-- Create a generation of both archive keys (R471): drawn, wrapped and shown. General slots 6 and 7
keep the old generation until Lehr has closed its batch (R159). -/
def State.newGeneration (s : State) (t : TileId) (g : Nat) : State :=
  let a := s.draw t
  let b := a.1.draw t
  let c := b.1.draw t
  let d := privOf ((b.2 ++ c.2).take 40)
  let s := c.1.wrapBlob t (archPlace g) 4 3 (bayOwner g) 0 a.2
  let s := s.wrapBlob t (blobPlace 2 7) 5 4 (bayOwner g) 0 (natBE 32 d)
  s.attest t g (pubKey p256 d)

/-- A drained or transferred signing blob is attested by the tile that now holds it (R472). -/
def State.attestBlob (s : State) (t : TileId) : State :=
  match s.archGen t, s.openPlace t (blobPlace 2 7) with
  | some g, some k => s.attest t g (pubKey p256 (beNat k))
  | _, _ => s

/-! ### Acknowledgement of key actions (R463) -/

/-- A tile reset of cause VAULT is due at once (R451, R602). -/
def State.vaultReset (s : State) (t : TileId) : State := s.onVol t fun v => { v with boot := { v.boot with resetAt := some (s.now, 7) } }

/-- Answer the oldest key action whose changes are durable and placed in the mirror stream; a tile reset that follows the last one is due then. -/
def State.releaseVault (s : State) (t : TileId) : State :=
  let keysDone := !(s.tile t).media.jobs.any fun j => match j.2 with
    | .keys _ => true
    | _ => false
  match (s.vol t).vault.held with
  | h :: r =>
    if keysDone ∧ h.1 ≤ (s.vol t).meters.jDone ∧ s.mirrored t h.2.1 then
      let due := (s.vol t).vault.resetDue && r.isEmpty
      let s := (s.onVault t fun v => { v with held := r, rotating := v.rotating && decide (r ≠ []) }).answerFor h.2.2 t .ok
      if due then s.vaultReset t else s
    else s
  | [] => s

/-- Order the acknowledgement of a key action. -/
def State.vaultLater (s : State) (t : TileId) : State :=
  let s := s.wr Reg.vault_last_result t 0
  s.onVault t fun v => { v with held := v.held ++ [((s.vol t).meters.jCount, s.mirrorMark t, s.acts.now)] }

/-- Refuse a vault action. -/
def State.vaultRefuse (s : State) (t : TileId) (st : Status) : State := (s.wr Reg.vault_last_result t st.code).answer t st

/-- Complete a vault action that writes no blob. -/
def State.vaultOk (s : State) (t : TileId) : State := (s.wr Reg.vault_last_result t 0).answer t .ok

end Sys2Proof.Machine
end

