-- ==== Sys2Proof/Machine/SwitchOps.lean ====
section
/-! DEFINITION. SwitchOps.lean: chapter 11: the buffer pool, admission, port-downs, the gate of the intake on P5, and the sealing and
acceptance of satellite link frames. -/

namespace Sys2Proof.Machine

open Crypto

/-- Change a tile's switch core. -/
def State.onSw (s : State) (t : TileId) (f : Switch → Switch) : State := s.onVol t fun v => { v with sw := f v.sw }

/-- A tile's switch core. -/
def State.sw (s : State) (t : TileId) : Switch := (s.vol t).sw

/-- Add to and take from one place of a list of counts. -/
def addAt (l : List Nat) (i k : Nat) : List Nat := l.set i (l.getD i 0 + k)
def subAt (l : List Nat) (i k : Nat) : List Nat := l.set i (l.getD i 0 - k)

/-! ### Whether ports are up (R295, R338, R364, R378, R40, R83, R181) -/

/-- The tile serves in RUN, and no promotion has yet to reach step 10 of R506, which opens D0 and D1 and starts PLC and RF. -/
def State.linksMay (s : State) (t : TileId) : Bool := s.serves t && s.inRun t && (s.bay (bayOf t)).promo.isNone

/-- The PLC modem runs (R295); the transceiver runs (R338). -/
def State.plcOn (s : State) (t : TileId) : Bool := s.linksMay t && (s.tile t).vanaOk && decide (s.rd Reg.plc_pan_id t ≠ 0xFFFF)
def State.rfOn (s : State) (t : TileId) : Bool :=
  s.linksMay t && (s.tile t).vanaOk && decide ((s.vol t).radio.pan ≠ 0xFFFF) && decide ((s.vol t).radio.eui ≠ 0)

/-- The intake on P5 is open: the tile serves its slots, nothing of the missing word is, TIME included (R39, R431), Lehr takes groups,
no hand-over runs, and a promotion has passed step 9 (R506). -/
def State.intakeOpen (s : State) (t : TileId) : Bool :=
  s.serves t && s.inRun t && decide (s.rd Reg.status_missing t % 32 = 0) && !(s.vol t).lehr.stopped &&
  ((s.bay (bayOf t)).promo.all fun p => decide (p.step = 10)) && !(s.bay (bayOf t)).handover && decide (2 ≤ (s.vol t).boot.step)

/-- K of each output (R364). -/
def outCap (o : Nat) : Nat := [64, 64, 1024, 64, 64, 512, 1024, 0].getD o 0

/-- An armed tile control (R632): 0 EGRESS_DELAY, 1 CREDIT_STARVE, 2 NAND_FAIL. -/
def State.tileArm (s : State) (t : TileId) (k : Nat) : Option Arm := ((s.vol t).diag.arms[k]?).getD none

/-- How long EGRESS_DELAY holds a frame of class `c` toward output `o` (R632): none when it does not. -/
def State.egressWait (s : State) (t : TileId) (o c : Nat) : Option Nat :=
  (s.tileArm t 0).bind fun a => if a.p1 = o ∧ bit a.p3 c then some (a.p2 * 1000) else none

/-- Hold back the credits of an output that pass the ceiling of an armed CREDIT_STARVE (R632). -/
def State.starve (s : State) (t : TileId) : State :=
  match s.tileArm t 1 with
  | some a =>
    s.onVol t fun v =>
      let c := v.sw.credit.getD a.p1 0
      let n := c - a.p2
      { v with sw := { v.sw with credit := v.sw.credit.set a.p1 (c - n) }, diag := { v.diag with back := v.diag.back.set a.p1 (v.diag.back.getD a.p1 0 + n) } }
  | none => s

/-- The credits of an output are set anew: nothing is held back any more but what an armed CREDIT_STARVE takes at once. -/
def State.setCredit (s : State) (t : TileId) (o n : Nat) : State :=
  (s.onVol t fun v => { v with sw := { v.sw with credit := v.sw.credit.set o n }, diag := { v.diag with back := v.diag.back.set o 0 } }).starve t

/-- A frame toward output `o` is taken on entry: P2, P6 and P7 never go down (R364). -/
def State.portTakes (s : State) (t : TileId) (o : Nat) : Bool :=
  let w := s.sw t
  if o = 2 ∨ 6 ≤ o then true
  else if o < 2 then decide (2 ≤ w.port.getD o 0) else decide (w.credit.getD o 0 + w.held.getD o 0 + (s.vol t).diag.back.getD o 0 ≠ 0)

/-! ### The pool (R368 to R373) -/

/-- Cells of a frame. -/
def cellsOf (len : Nat) : Nat := (len + 255) / 256

/-- Free cells, reserves and shared. -/
def Switch.free (w : Switch) : Nat := 8192 - w.rsv.sum - w.shr.sum

/-- Where `n` cells for input `i` come from: reserve (false), shared pool (true), nowhere. -/
def Switch.room (w : Switch) (i n sharedMax : Nat) : Option Bool :=
  if w.rsv.getD i 0 + n ≤ w.reserve then some false
  else if w.shr.sum + n ≤ 8192 - 8 * w.reserve ∧ w.shr.getD i 0 + n ≤ sharedMax then some true
  else none

/-- Allocate and release cells. -/
def Switch.alloc (w : Switch) (i n : Nat) (shared : Bool) : Switch :=
  if shared then { w with shr := addAt w.shr i n } else { w with rsv := addAt w.rsv i n }
def Switch.release (w : Switch) (i n : Nat) (shared : Bool) : Switch :=
  if shared then { w with shr := subAt w.shr i n } else { w with rsv := subAt w.rsv i n }

/-- Key of a VOQ. -/
def voqKey (i o c : Nat) : Nat := 32 * i + 4 * o + c

/-- Frames of a VOQ. -/
def Switch.voq (w : Switch) (i o c : Nat) : List SwFrame := (Tbl.get w.voqs (voqKey i o c)).getD []

/-- Set the frames of a VOQ. -/
def Switch.setVoq (w : Switch) (i o c : Nat) (l : List SwFrame) : Switch :=
  { w with voqs := if l = [] then Tbl.del w.voqs (voqKey i o c) else Tbl.put w.voqs (voqKey i o c) l }

/-- Append a frame to a VOQ with its cells. -/
def Switch.push (w : Switch) (i o : Nat) (f : SwFrame) (shared : Bool) : Switch :=
  let n := if f.cls = 0 then 0 else f.cells
  (w.alloc i n shared).setVoq i o f.cls (w.voq i o f.cls ++ [{ f with shared := shared, cells := n }])

/-- A frame of unit `i` waits for cells (R369): the unit sends nothing further into the pool before it. -/
def Switch.waits (w : Switch) (i : Nat) : Bool := w.waiting.any fun e => decide (e.1 = i)

/-- Frames of P5 and P6 that waited take cells as they become free, each unit's in its order. -/
def Switch.retry (w : Switch) (sharedMax : Nat) : Switch :=
  w.waiting.foldl (fun w e =>
    match if w.waits e.1 then none else w.room e.1 e.2.2.cells sharedMax with
    | some sh => w.push e.1 e.2.1 e.2.2 sh
    | none => { w with waiting := w.waiting ++ [e] }) { w with waiting := [] }

/-- Release cells and let waiting frames in. -/
def State.swRelease (s : State) (t : TileId) (i n : Nat) (shared : Bool) : State :=
  s.onSw t fun w => (w.release i n shared).retry (s.rd Reg.sw_shared_max t)

/-- Ingress and egress constants (ns) of a 10GBASE-R port, which every lane is, and of a 1000BASE-X port (R426). -/
def portConsts (speed : Nat) : Int × Int := if speed = 0 then (58, 36) else (226, 152)

/-- The corrections of D0 or D1: the constants of its speed with the board's delays (R426, R427). -/
def State.portCorr (s : State) (t : TileId) (p : Nat) : Int × Int :=
  let k := portConsts ((s.vol t).sw.speed.getD p 0)
  (k.1 + s.rdI Reg.time_port_corr_ns t (2 * p), k.2 + s.rdI Reg.time_port_corr_ns t (2 * p + 1))

/-- The corrected timestamp of a frame that enters at input `i` now (R425): Meridian's time, on D0 and D1 less the ingress correction. -/
def State.arrivalAt (s : State) (t : TileId) (i : Nat) : Nat :=
  if i < 2 && s.hasTime t then ((s.whenNs t : Int) - (s.portCorr t i).1).toNat else s.whenNs t

/-- A frame enters at input `i` (R376): counted, and copied when the sampler's turn has come. -/
def State.swCount (s : State) (t : TileId) (i cls : Nat) (b : Bytes) (len : Nat) : State :=
  let s := (s.bump Reg.sw_frames_in t i).bump Reg.sw_bytes_in t i len
  let n := s.rd Reg.sw_sample_n t
  if n = 0 ∨ !bit (s.rd Reg.sw_sample_ports t) i then s
  else if (s.sw t).sampled.getD i 0 + 1 < n then s.onSw t fun w => { w with sampled := addAt w.sampled i 1 }
  else
    let s := s.onSw t fun w => { w with sampled := w.sampled.set i 0 }
    s.qWrite t 5 (.sample (natLE 1 i ++ natLE 1 cls ++ natLE 2 len ++ time80 (s.arrivalAt t i) ++ [0, 0] ++ fit 128 b))

/-- A frame crosses the switch core within its command (R371): counted at its input and its output, its cells and credits back at once. -/
def State.swPass (s : State) (t : TileId) (i o cls : Nat) (b : Bytes) (len : Nat) : State :=
  ((s.swCount t i cls b len).bump Reg.sw_frames_out t o).bump Reg.sw_bytes_out t o len

/-- The class a frame is carried in (R367). -/
def swClass (cls len : Nat) : Nat := if cls = 0 ∧ 256 < len then 1 else cls

/-- Store a frame at input `i` for output `o` (R367 to R370, R379). -/
def State.swStore (s : State) (t : TileId) (i o : Nat) (f : SwFrame) : State :=
  let c := swClass f.cls f.len
  let s := if c = f.cls then s else s.bump Reg.sw_express_demoted t
  let f := { f with cls := c, cells := cellsOf f.len }
  if !s.portTakes t o then s.bump Reg.sw_drop_port_down t o
  else if c = 0 then
    if ((s.sw t).voq i o 0).length < 2 then s.onSw t fun w => w.push i o f false else s.bump Reg.sw_express_drop t
  else match if (s.sw t).waits i then none else (s.sw t).room i f.cells (s.rd Reg.sw_shared_max t) with
    | some sh => s.onSw t fun w => w.push i o f sh
    | none =>
      if i = 5 ∨ i = 6 then s.onSw t fun w => { w with waiting := w.waiting ++ [(i, o, f)] }
      else s.bump Reg.sw_drop_buffer t (4 * i + c)

/-- Length of a PTP frame: its Ethernet header and the message of IEEE 1588 (PRESUMED, notes/assumptions/3.md). -/
def PtpMsg.len : PtpMsg → Nat
  | .sync .. => 58
  | .followUp .. => 58
  | .announce .. => 78
  | .pdelayReq _ => 68
  | .pdelayResp .. => 68
  | .pdelayFollow .. => 68

/-- Length of a stored frame: a link frame with its header and, when protected, its tag. -/
def SwBody.len : SwBody → Nat
  | .link _ _ p => 14 + 20 + p.length + 16
  | .plain _ _ p => 14 + 20 + p.length
  | .ptp m => m.len
  | .mac _ _ _ a => a.length
  | .intake l => (l.map fun f => f.apdu.length).sum
  | .eph f => f.apdu.length
  | .other b => b.length

/-- The 20-byte header. -/
def linkHead (type session ctr len : Nat) : Bytes :=
  [1] ++ natLE 1 type ++ [0, 0] ++ natLE 4 session ++ natLE 8 ctr ++ natLE 2 len ++ [0, 0]

/-- Addresses and EtherType of a frame toward a satellite; with a VLAN tag when one is set. -/
def State.linkEther (s : State) (t : TileId) (port : Nat) (mac : Bytes) : Bytes × Bytes :=
  let ad := mac ++ Config.mac t port ++ [0x88, 0xB5]
  let v := s.rd Reg.sw_vlan t
  (ad, if v = 0 then ad else mac ++ Config.mac t port ++ [0x81, 0x00] ++ natBE 2 v ++ [0x88, 0xB5])

/-- What the sampler copies of a frame that enters toward output `o` (R376): a link frame as it waits, with its headers and not yet sealed (R385); of a PTP message
only what the command names is known, the rest is free. -/
def State.swBytes (s : State) (t : TileId) (o : Nat) : SwBody → Bytes
  | .link v ty p =>
    let mac := ((s.sw t).sess.find? fun e => decide (e.2.value = v) && decide (e.2.port = o)).map fun e => e.2.mac
    (s.linkEther t o (mac.getD (List.replicate 6 0))).1 ++ linkHead ty v 0 p.length ++ p
  | .plain mac ty p => (s.linkEther t o mac).1 ++ linkHead ty 0 0 p.length ++ p
  | .ptp m => fit m.len (Config.ptpFrame t o s.now)
  | .mac _ _ _ a => a
  | .intake l => (l.map fun f => f.apdu).flatten
  | .eph f => f.apdu
  | .other b => b

/-- A frame of one of the tile's own units enters the switch core. -/
def State.swSend (s : State) (t : TileId) (i o cls : Nat) (body : SwBody) : State :=
  (s.swCount t i cls (s.swBytes t o body) body.len).swStore t i o
    { cls := cls, len := body.len, cells := 0, shared := false, body := body }

/-- Change a tile's Gather. -/
def State.onGather (s : State) (t : TileId) (f : Gather → Gather) : State := s.onVol t fun v => { v with gather := f v.gather }

/-! ### Acknowledgements (R80, R81, R108) -/

/-- The 24 bytes of an acknowledgement. -/
def ackBytes (hint seq : Nat) (ended : List (Option Bool)) : Bytes :=
  let st := (ended.zip (List.range ended.length)).foldl (fun a x => a + (if x.1 = some true then 4 ^ x.2 else 0)) 0
  [1] ++ natLE 1 ended.length ++ natLE 2 hint ++ natLE 4 seq ++ natLE 16 st

/-- An envelope whose entries have all ended is acknowledged: an inject gives its result, the others queue a RELAY_ACK. -/
def State.settleEnv (s : State) (t : TileId) (uid : Nat) : State :=
  match (s.vol t).gather.envs.find? fun e => decide (e.uid = uid) with
  | some e =>
    if e.ended.all Option.isSome then
      let b := ackBytes (s.rd Reg.gather_retry_hint t) e.seq e.ended
      let s := s.onGather t fun g => { g with envs := g.envs.filter fun x => x.uid != uid }
      if e.source = 2 then
        ((s.onGather t fun g => { g with injecting := none }).wrB Reg.gather_inject_result t 0 b).answerFor e.act t .ok
      else s.qWrite t 4 (.ack e.source e.peer (if s.rd Reg.gather_ack_point t = 0 then e.mirror else 0) b)
    else s
  | none => s

/-! ### Frames toward a meter that leaves (R46) -/

/-- A frame is a downlink command toward a meter: through P3 or P4, or in a DOWN frame (R381). -/
def SwBody.isFor (midx title : Nat) : SwBody → Bool
  | .mac m _ _ _ => decide (m = midx)
  | .link _ ty p => decide (ty = 0x12) && decide (fld p 0 8 = title)
  | .plain .. => false
  | .ptp _ => false
  | .intake _ => false
  | .eph _ => false
  | .other _ => false

/-- Frames toward a meter that the switch core and the MACs still hold are dropped, their cells freed and their credit returned. -/
def State.swForget (s : State) (t : TileId) (midx title : Nat) : State :=
  let gone := fun (f : SwFrame) => f.body.isFor midx title
  let back := fun (w : Switch) (o : Nat) (l : List SwFrame) =>
    let n := (l.map SwFrame.cells).sum
    { w with credit := addAt w.credit o n, held := subAt w.held o n }
  let w := s.sw t
  let del := (s.vol t).diag.delayed.filter fun x => gone x.2.2.2
  let w := w.voqs.foldl (fun (w : Switch) e =>
    let w := (e.2.filter gone).foldl (fun w f => w.release (e.1 / 32) f.cells f.shared) w
    let l := e.2.filter fun f => !gone f
    { w with voqs := if l = [] then Tbl.del w.voqs e.1 else Tbl.put w.voqs e.1 l }) w
  let w := del.foldl (fun w x => back (w.release x.2.1 x.2.2.2.cells x.2.2.2.shared) x.1 [x.2.2.2]) w
  let w := w.unit.foldl (fun w e =>
    { back w e.1 (e.2.filter gone) with unit := Tbl.put w.unit e.1 (e.2.filter fun f => !gone f) }) w
  let w := { w with waiting := w.waiting.filter fun e => !gone e.2.2 }
  let s := s.onVol t fun v => { v with diag := { v.diag with delayed := v.diag.delayed.filter fun x => !gone x.2.2.2 } }
  (s.onSw t fun _ => w.retry (s.rd Reg.sw_shared_max t)).starve t

/-! ### Port-downs (R379) -/

/-- The input of a SOURCE of R75, and the SOURCE of an input. -/
def srcInput (src : Nat) : Nat := [0, 1, 6, 3, 4].getD src 0

/-- The frames of a stored READING frame. -/
def SwBody.frames : SwBody → List Frame
  | .intake l => l
  | _ => []

/-- What becomes of the envelopes that wait toward P5 when it goes down: the entries of an inject read RETRY (R81), a satellite's envelope has no acknowledgement
any more (R379). An envelope that Gather has begun to take completes (R387). -/
def State.flushIntake (s : State) (t : TileId) : State :=
  let w := s.sw t
  let fr := (w.voqs.filter fun e => decide (e.1 / 4 % 8 = 5)).flatMap (fun e => e.2.flatMap fun f => f.body.frames) ++
    (w.waiting.filter fun e => decide (e.2.1 = 5)).flatMap fun e => e.2.2.body.frames
  let s := s.onGather t fun g => { g with
    envs := (g.envs.filter fun e => decide (e.source = 2) || !fr.any fun f => decide (f.env = e.uid)).map fun e =>
      { e with ended := (List.range e.ended.length).map fun k =>
          if (fr.any fun f => decide (f.env = e.uid) && decide (f.entry = k)) then some true else e.ended.getD k none } }
  match (s.vol t).gather.injecting with
  | some u => s.settleEnv t u
  | none => s

/-- The frames that wait at P5 and P6 for cells toward output `o`: they find the port down on entry. -/
def State.dropWaiting (s : State) (t : TileId) (o : Nat) : State :=
  let n := (s.sw t).waiting.countP fun e => decide (e.2.1 = o)
  (s.bump Reg.sw_drop_port_down t o n).onSw t fun w => { w with waiting := w.waiting.filter fun e => e.2.1 != o }

/-- The frames that EGRESS_DELAY holds after their dispatch toward output `o` (R632) are discarded with those of the VOQs. -/
def State.dropDelayed (s : State) (t : TileId) (o : Nat) : State :=
  let fr := (s.vol t).diag.delayed.filter fun x => decide (x.1 = o)
  let s := s.onVol t fun v => { v with diag := { v.diag with delayed := v.diag.delayed.filter fun x => x.1 != o } }
  s.each fr fun s x => (s.bump Reg.sw_flushed t (4 * o + x.2.2.2.cls)).swRelease t x.2.1 x.2.2.2.cells x.2.2.2.shared

/-- A port-down of output `o`. -/
def State.portDown (s : State) (t : TileId) (o : Nat) : State :=
  let s := (if o = 5 then s.flushIntake t else s).dropWaiting t o
  let s := s.dropDelayed t o
  let s := s.each (List.range 8) fun s i => s.each (List.range 4) fun s c =>
    let l := (s.sw t).voq i o c
    if l = [] then s
    else
      let s := s.bump Reg.sw_flushed t (4 * o + c) l.length
      let s := s.onSw t fun w => w.setVoq i o c []
      l.foldl (fun s f => s.swRelease t i f.cells f.shared) s
  let s := (s.setCredit t o 0).onSw t fun w =>
    { w with held := w.held.set o 0, unit := Tbl.del w.unit o, stopped := w.stopped.set o false, miss := w.miss.set o 0
             sess := w.sess.filter fun e => e.2.port != o || decide (1 < o) }
  if o < 2 then s.bump Reg.sw_port_downs t o else s

/-! ### The modem and the transceiver start and stop (R295, R299, R307, R336, R338, R344, R361) -/

/-- Change a tile's PLC modem, its transceiver. -/
def State.plc (s : State) (t : TileId) : Plc := (s.vol t).plc
def State.onPlc (s : State) (t : TileId) (f : Plc → Plc) : State := s.onVol t fun v => { v with plc := f v.plc }
def State.rf (s : State) (t : TileId) : Rf := (s.vol t).rf
def State.onRf (s : State) (t : TileId) (f : Rf → Rf) : State := s.onVol t fun v => { v with rf := f v.rf }

/-- The PLC stack starts with a new EPOCH; its frame counter goes on at the reserved ceiling. -/
def State.plcStart (s : State) (t : TileId) : State :=
  let s := s.onTile t fun x => { x with plcEpoch := (x.plcEpoch + 1) % 256 }
  let c := s.ceil t (ctrSlot 0)
  let s := s.onVol t fun v =>
    { v with plc := { Plc.init with up := true, live := c, below := s.now, routeAt := s.now, queryAt := s.now }, mer := { v.mer with pollSec := s.timeSec t }, drive := { v.drive with plc := true } }
  s.wr Reg.plc_mode_now t (if s.rd Reg.plc_mode t = 2 then 1 else 0)

/-- The modem stops: it holds no neighbour, route or tone-map state, and drives nothing. -/
def State.plcStop (s : State) (t : TileId) : State :=
  let s := s.onVol t fun v => { v with plc := Plc.init, drive := { v.drive with plc := false, txen := false, psel := 3 } }
  ((((s.wr Reg.plc_zc_state t 0).wr Reg.plc_mains_period_us t 0).wr Reg.plc_mode_now t 0).wr Reg.plc_joined t 0).wr Reg.plc_ext_peers t 0

/-- Duty band `i`: edges in kHz, budget in ns per 3 600 s, enable (R358). -/
def State.rfBand (s : State) (t : TileId) (i : Nat) : Nat × Nat × Nat × Bool :=
  let b := s.rdAll Reg.rf_duty_band t i
  (fld b 0 4, fld b 4 4, fld b 8 2 * 360000000, decide (fld b 10 1 = 1))

/-- The radio's clock: the clock count, one hour ahead so that a whole window lies before power-on. -/
def State.rfNow (s : State) : Nat := s.now + 3600 * 1000000000

/-- Airtime of a band in the window of 360 buckets that ends with the present one, and its push part (R359). -/
def Rf.used (r : Rf) (i now : Nat) : Nat × Nat :=
  let b := now / 10000000000
  let l := (r.bands.getD i []).filter fun x => decide (x.1 ≤ b ∧ b < x.1 + 360)
  ((l.map fun x => x.2.1).sum, (l.map fun x => x.2.2).sum)

/-- Add airtime and push airtime to a bucket of a band. -/
def Rf.charge (r : Rf) (i bucket a push : Nat) : Rf :=
  let m := r.bands.getD i []
  let o := (Tbl.get m bucket).getD (0, 0)
  { r with bands := r.bands.set i (Tbl.put (m.filter fun x => decide (bucket < x.1 + 720)) bucket (o.1 + a, o.2 + push)) }

/-- The charge of R361 for one band: continuous transmission from `known` to `now`, the newest bucket first, until U is the budget. -/
def Rf.chargeSpan (r : Rf) (i budget now : Nat) : Rf :=
  ((List.range 360).foldl (fun (x : Rf × Nat) k =>
    let b := now / 10000000000 - k
    let lo := max (b * 10000000000) r.known
    let hi := min ((b + 1) * 10000000000) now
    let a := min (hi - lo) x.2
    if a = 0 then x else (x.1.charge i b a 0, x.2 - a)) (r, budget - (r.used i now).1)).1

/-- The charges of R361: every enabled band for the span not known, and every channel for one dwell window. -/
def State.rfCharge (s : State) (t : TileId) : Rf :=
  let now := s.rfNow
  let r := (List.range 4).foldl (fun (r : Rf) i =>
    let b := s.rfBand t i
    if b.2.2.2 then r.chargeSpan i b.2.2.1 now else r) (s.rf t)
  { r with charged := true, known := now, mirrored := now / 10000000000, full := now + s.rd Reg.rf_dwell_window_s t * 1000000000 }

/-- The transceiver starts: after a reset, a promotion or a power-on with the charges of R361, and its frame counter at the reserved ceiling. -/
def State.rfStart (s : State) (t : TileId) : State :=
  let r := if (s.rf t).charged then s.rf t else s.rfCharge t
  let c := s.ceil t (ctrSlot 1)
  s.onVol t fun v => { v with rf := { r with up := true, fc := c }, drive := { v.drive with rf := true } }

/-- The transceiver stops; a frame that a loss of ownership cuts is counted. The airtime it has used stays known while the tile serves (R361). -/
def State.rfStop (s : State) (t : TileId) : State :=
  let r := s.rf t
  let cut := (r.txs.any fun x => decide (x.start ≤ s.now ∧ s.now < x.start + x.air)) && !s.serves t
  let s := if cut then s.bump Reg.rf_tx_cut t else s
  s.onVol t fun v =>
    { v with rf := { Rf.init with charged := r.charged && s.serves t, bands := r.bands, known := s.rfNow, mirrored := r.mirrored, dwell := r.dwell,
                                  full := r.full, air := r.air }
             drive := { v.drive with rf := false, paen := false, trsw := false } }

/-- Bring the ports of a tile in line with its role, power and settings: D0 and D1 (R378), P3 and P4 (R364), P5 (R40, R83, R181). -/
def State.followTile (s : State) (t : TileId) : State :=
  let s := s.each (List.range 2) fun s p =>
    let want := s.linksMay t && decide (s.rd Reg.sw_port_disable t p = 0)
    let st := (s.sw t).port.getD p 0
    if st = 0 ∧ want then s.onSw t fun w => { w with port := w.port.set p 1, speed := w.speed.set p (s.rd Reg.sw_port_speed t p) }
    else if st ≠ 0 ∧ !want then (s.portDown t p).onSw t fun w => { w with port := w.port.set p 0 }
    else s
  s.each [(3, s.plcOn t), (4, s.rfOn t), (5, s.intakeOpen t)] fun s x =>
    if x.2 ∧ !s.portTakes t x.1 then
      let s := s.setCredit t x.1 (outCap x.1)
      if x.1 = 3 then s.plcStart t else if x.1 = 4 then s.rfStart t else s
    else if !x.2 ∧ s.portTakes t x.1 then
      let s := s.portDown t x.1
      if x.1 = 3 then s.plcStop t else if x.1 = 4 then s.rfStop t else s
    else s

/-! ### Satellite link frames (R380, R381) -/

/-- The types a satellite may send, and those that are protected. -/
def linkUp (type : Nat) : Bool := [1, 3, 6, 7, 0x10, 0x13].contains type
def linkSealed (type : Nat) : Bool := !([1, 2, 3, 5].contains type)

/-- Class of a link type (R366, R381). -/
def linkClass (type : Nat) : Nat := if type = 0x10 then 2 else 1

/-- An unprotected link frame leaves. -/
def State.linkPlain (s : State) (t : TileId) (port : Nat) (mac : Bytes) (type : Nat) (payload : Bytes) : State :=
  s.emit (.link t port ((s.linkEther t port mac).2 ++ linkHead type 0 0 payload.length ++ payload))

/-- A link frame of session index `k` is sealed as it leaves (R385). -/
def State.linkSeal (s : State) (t : TileId) (k : Nat) (type : Nat) (payload : Bytes) : State :=
  match Tbl.get (s.sw t).sess k with
  | some x =>
    let ctr := x.tx + 1
    let e := s.linkEther t x.port x.mac
    let h := linkHead type x.value ctr payload.length
    let c := gcmSeal x.keyTx (natLE 4 x.value ++ natLE 8 ctr) (e.1 ++ h) payload 16
    let s := s.onSw t fun w => { w with sess := Tbl.put w.sess k { x with tx := ctr, sentAt := s.now } }
    s.emit (.link t x.port (e.2 ++ h ++ c.1 ++ c.2))
  | none => s

/-- A received link frame: TYPE, source address, session index for a protected one, payload. -/
structure LinkIn where
  type : Nat
  mac : Bytes
  sess : Option Nat
  payload : Bytes
  deriving DecidableEq, Repr

/-- Split the Ethernet header: source address and EtherType with the rest, none when the tag does not match (R377). -/
def State.etherIn (s : State) (t : TileId) (b : Bytes) : Option (Bytes × Nat × Bytes) :=
  let v := s.rd Reg.sw_vlan t
  let ty := beNat ((b.drop 12).take 2)
  let src := (b.drop 6).take 6
  if ty = 0x8100 then
    if v ≠ 0 ∧ beNat ((b.drop 14).take 2) % 4096 = v then some (src, beNat ((b.drop 16).take 2), b.drop 18) else none
  else if v = 0 then some (src, ty, b.drop 14) else none

/-- Receive a link frame on D0 or D1: counting, sampling, the checks of R377, R380 and R381. What follows the LENGTH bytes and the tag
pads a short Ethernet frame. A frame arrives only on a port that is UP, and no port carries one of more than 9 216 bytes (R365, R378). A session in VERIFY still holds
its keys: what it sends is accepted as R380 says. -/
def State.linkRx (s : State) (t : TileId) (p : Fin 2) (b : Bytes) : State × Option LinkIn :=
  if (s.sw t).port.getD p 0 ≠ 2 ∨ 9216 < b.length then (s, none)
  else
    let e := s.etherIn t b
    let type := match e with
      | some x => fld x.2.2 1 1
      | none => 0
    let s := s.swCount t p (linkClass type) b b.length
    match e with
    | none => (s.bump Reg.sw_rx_unknown t, none)
    | some (src, ety, r) =>
      let len := fld r 0x10 2
      let sealed := linkSealed type
      let n := 20 + len + (if sealed then 16 else 0)
      if ety ≠ 0x88B5 ∨ r.length < 20 ∨ fld r 0 1 ≠ 1 ∨ !linkUp type ∨ 9142 < len ∨ r.length < n then
        (s.bump Reg.sw_rx_unknown t, none)
      else if !sealed then (s, some { type := type, mac := src, sess := none, payload := (r.drop 20).take len })
      else
        let val := fld r 4 4
        let ctr := fld r 8 8
        match (s.sw t).sess.find? fun x => decide (x.2.value = val) && decide (x.2.port = p.val) && decide (x.2.mac = src) &&
            (decide (x.2.st = 2) || decide (x.2.st = 3)) with
        | none => (s.bump Reg.sw_link_auth_fail t, none)
        | some (k, x) =>
          let ad := b.take 12 ++ [0x88, 0xB5] ++ r.take 20
          match gcmOpen x.keyRx (natLE 4 val ++ natLE 8 ctr) ad ((r.drop 20).take len) ((r.drop (20 + len)).take 16) with
          | none => (s.bump Reg.sw_link_auth_fail t, none)
          | some pt =>
            if ctr ≤ x.rx then (s.bump Reg.sw_link_auth_fail t, none)
            else
              let y := { x with rx := ctr, gotAt := s.now, gotNs := s.arrivalAt t p }
              (s.onSw t fun w => { w with sess := Tbl.put w.sess k y },
               some { type := type, mac := src, sess := some k, payload := pt })

/-- End a session: its entry is released (R384). -/
def State.endSess (s : State) (t : TileId) (k : Nat) : State := s.onSw t fun w => { w with sess := Tbl.del w.sess k }

/-- SAT_ID of a certificate fingerprint (R382): its place in the satellite table. -/
def State.satOf (s : State) (t : TileId) (print : Bytes) : Nat :=
  ((List.range 1024).find? fun i => decide (s.rdB Reg.meters_sat_table t (32 * i) 32 = print)).getD 0xFFFF

/-- Look the SAT_ID of every session up again (R383). -/
def State.satLookup (s : State) (t : TileId) : State :=
  s.onSw t fun w => { w with sess := w.sess.map fun e => (e.1, { e.2 with sat := if e.2.st = 1 then e.2.sat else s.satOf t e.2.print }) }

/-- The session of a satellite that frames may be queued for (R385). -/
def State.satSess (s : State) (t : TileId) (sat : Nat) : Option Sess :=
  ((s.sw t).sess.find? fun e => decide (e.2.sat = sat) && decide (sat < 1024) && (decide (e.2.st = 2) || decide (e.2.st = 3))).map Prod.snd

/-- Queue a link frame of the tile's own: one of a session tagged with its SESSION value, or an unprotected one (R381, R385). It comes from the processor cluster
behind P6 (DEDUCED, notes/assumptions/25.md). -/
def State.sendLink (s : State) (t : TileId) (x : Sess) (type : Nat) (payload : Bytes) : State :=
  s.swSend t 6 x.port (linkClass type) (if linkSealed type then .link x.value type payload else .plain x.mac type payload)

/-- Queue a DOWN frame for a satellite (R381, R385). -/
def State.sendDown (s : State) (t : TileId) (sat cls : Nat) (title : Nat) (apdu : Bytes) : State :=
  match s.satSess t sat with
  | some x => s.swSend t 6 x.port cls (.link x.value 0x12 (natLE 8 title ++ [0, 0, 0, 0] ++ apdu))
  | none => s.bump Reg.sw_no_session t

end Sys2Proof.Machine
end

