-- ==== Sys2Proof/Machine/GatherOps.lean ====
section
/-! DEFINITION. GatherOps.lean: what ends frames and readings (R107, R108, R137), the session keys (R87 to R90), and the
acceptance of a ciphered frame, which Ephemeris uses for responses too (R284). -/

namespace Sys2Proof.Machine

open Crypto

/-- Change a tile's Marver. -/
def State.onMarver (s : State) (t : TileId) (f : Marver → Marver) : State := s.onVol t fun v => { v with marver := f v.marver }

/-! ### Cullet entries (R135 to R140) -/

/-- The outcome code of a detail code of R107 (R135), and its place in `tile.gather.outcomes`. -/
def outcomeOf (detail : Nat) : Nat := [0x10, 0x11, 0x12, 0x13, 0x15, 0x14].getD (detail / 16) 0x16
def outcomeIdx (detail : Nat) : Nat := [0, 1, 2, 3, 5, 4].getD (detail / 16) 0

/-- Details whose entry status is RETRY (R80, R107). -/
def retryDetail (d : Nat) : Bool := [1, 2, 4, 0x10, 0x11, 0x12, 0x13, 0x14].contains d

/-- Write a Cullet entry without its tag into the staging queue (R137, R140). -/
def State.cullet (s : State) (t : TileId) (outcome detail form ruleset ver mask gen : Nat) (body : Bytes) : State :=
  let e := [0x81] ++ natLE 1 outcome ++ natLE 1 detail ++ natLE 1 form ++ natLE 1 t.val ++ natLE 1 ruleset ++ natLE 2 ver ++
    natLE 4 mask ++ natLE 4 gen ++ time80 (s.whenNs t) ++ List.replicate 6 0 ++ fit 64 body ++ List.replicate 16 0
  let a := (s.vol t).marver.stage.write 64 129 e
  let s := s.onMarver t fun m => { m with stage := a.q }
  if a.lost = 0 then s else s.bump Reg.queue_lost t 0 a.lost

/-- Count an end in Gather. -/
def State.countEnd (s : State) (t : TileId) (detail : Nat) : State :=
  (s.bump Reg.gather_outcomes t (outcomeIdx detail)).wr Reg.gather_last_detail t detail

/-- An entry of an envelope has ended. -/
def State.endEntry (s : State) (t : TileId) (uid entry : Nat) (retry : Bool) : State :=
  (s.onGather t fun g => { g with envs := g.envs.map fun e =>
    if e.uid = uid then { e with ended := e.ended.set entry (some retry) } else e }).settleEnv t uid

/-- The descriptor of a frame (R77). -/
def descriptor (f : Frame) : Bytes :=
  natLE 1 f.source ++ natLE 1 f.addrKind ++ natLE 2 f.satId ++ natLE 2 f.apdu.length ++
  natLE 1 (b2n f.forceOld + 2 * b2n f.rfSecured) ++ natLE 1 f.entry ++ natLE 8 f.addr ++ time80 f.arrival ++ natLE 4 f.envSeq ++ [0, 0]

/-- A frame ends with a detail code before any reading was produced (R107, R136). -/
def State.endFrame (s : State) (t : TileId) (f : Frame) (gen detail : Nat) : State :=
  ((s.cullet t (outcomeOf detail) detail 0 0xFF 0 0 gen (descriptor f ++ fit 32 f.apdu)).countEnd t detail).endEntry t f.env
    f.entry (retryDetail detail)

/-- The high-water deltas of a frame that passed G4 (R109), with LAST_TEND and LAST_SEQ as its records left them (R44, R493; DEDUCED,
notes/assumptions/32.md). -/
def State.mirrorWaters (s : State) (t : TileId) (midx : Nat) (ic fc : Option (Nat × Nat)) : State :=
  let r := s.meter t (midxSlot midx)
  let o := { r.unseen with icUpHw := (ic.map Prod.fst).getD r.icUpHw, fcUpHw := (fc.map Prod.fst).getD r.fcUpHw }
  let n := { r with icUpHw := (ic.map Prod.snd).getD r.icUpHw, fcUpHw := (fc.map Prod.snd).getD r.fcUpHw }
  if o = n then s else s.mirrorFields t (midxSlot midx) o n

/-- The deltas of a frame that ends without a record: they go with those of the newest frame of the meter that still has readings under way, so that no delta lowers
a high-water already placed, nor raises it past readings that are not mirrored (R109, R110). -/
def State.deferWaters (s : State) (t : TileId) (midx : Nat) (ic fc : Option (Nat × Nat)) : State :=
  let join := fun (a b : Option (Nat × Nat)) => match a, b with
    | some x, some y => some (x.1, y.2)
    | none, b => b
    | a, none => a
  match ((s.vol t).gather.frames.filter fun f => decide (f.midx = midx)).getLast? with
  | some f => s.onGather t fun g => { g with frames := g.frames.map fun x =>
      if x.fid = f.fid then { x with ic := join x.ic ic, fc := join x.fc fc } else x }
  | none => s.mirrorWaters t midx ic fc

/-- A reading of frame `fid` has ended; with the last one the frame's deltas are placed and its entry is DONE (R107 to R109).
`mark` is the newest mirror item of the records that it produced, none when it produced no record; the acknowledgement of its
envelope waits for that. -/
def State.endReading (s : State) (t : TileId) (fid : Nat) (mark : Option Nat) : State :=
  match (s.vol t).gather.frames.find? fun f => decide (f.fid = fid) with
  | some f =>
    let s := s.onGather t fun g => { g with envs := g.envs.map fun e => if e.uid = f.env then { e with mirror := mark.getD e.mirror } else e }
    if 1 < f.left then
      s.onGather t fun g => { g with frames := g.frames.map fun x => if x.fid = fid then { x with left := x.left - 1 } else x }
    else
      let s := s.onGather t fun g => { g with frames := g.frames.filter fun x => x.fid != fid }
      (s.mirrorWaters t f.midx f.ic f.fc).endEntry t f.env f.entry false
  | none => s

/-! ### Session keys (R87 to R90, R465, R466) -/

/-- Load a key into the slot file from its blob for a use of USAGE bit `use` (R88, R462). -/
def State.loadSession (s : State) (t : TileId) (midx kind use : Nat) : State × Except Nat Bytes :=
  let slot := midxSlot midx
  let r := s.fetchKey t (blobPlace 0 (4 * slot + kind)) (if kind = 2 then 1 else 0) use
  match r.2 with
  | .key k =>
    let b := (s.blob t (blobPlace 0 (4 * slot + kind))).getD []
    let e : SlotEnt := { midx := midx, kind := kind, keyGen := (s.meter t slot).keyGen, key := k, usage := blobUsage b, expiry := blobExpiry b }
    (r.1.onGather t fun g => { g with slots := (if g.slots.length < 1024 then g.slots else g.slots.drop 1) ++ [e] }, .ok k)
  | .bad => ((r.1.bump Reg.gather_unwrap_fail t).event t 1 0x1002 midx kind, .error 0x11)
  | .denied => (r.1.event t 1 0x1003 midx kind, .error 0x12)

/-- How often the slot of a key kind fails its integrity check at this use: the kind's digit of a frame's operand (R89). -/
def badUses (bad kind : Nat) : Nat := bad / 4 ^ kind % 4

/-- A key of a meter from the slot file, or loaded, for a use of USAGE bit `use` (R462: 0 OPEN, 1 SEAL). `bad` says how often the slot's integrity check fails at
this use. -/
def State.sessionKey (s : State) (t : TileId) (midx kind bad : Nat) (use : Nat := 0) : State × Except Nat Bytes :=
  let r := s.meter t (midxSlot midx)
  let mine := fun (e : SlotEnt) => decide (e.midx = midx) && decide (e.kind = kind) && decide (e.keyGen = r.keyGen)
  let drop := fun (s : State) => s.onGather t fun g => { g with slots := g.slots.filter fun e => !mine e }
  let got : State × Except Nat Bytes :=
    if !bit r.keyMap kind then (s, .error 0x10)
    else match (s.vol t).gather.slots.find? mine with
      | some e =>
        if !bit e.usage use then ((s.bump Reg.vault_mask_refused t).event t 1 0x1003 midx kind, .error 0x12)
        else if s.notExpired t e.expiry then
          (((drop s).bump Reg.gather_slot_hits t).onGather t fun g => { g with slots := g.slots ++ [e] }, .ok e.key)
        else ((((drop s).bump Reg.vault_expired_refused t).event t 1 0x1003 midx kind), .error 0x12)
      | none => (s.bump Reg.gather_slot_misses t).loadSession t midx kind use
  match got.2 with
  | .error d => (got.1, .error d)
  | .ok k =>
    if bad = 0 then (got.1, .ok k)
    else
      let s := (((drop got.1).bump Reg.vault_integrity_fail t).event t 1 0x1A02 midx).loadSession t midx kind use
      match s.2 with
      | .error d => (s.1, .error d)
      | .ok k =>
        if bad = 1 then (s.1, .ok k)
        else ((((drop s.1).bump Reg.vault_integrity_fail t).event t 1 0x1A02 midx).bump Reg.gather_slot_bad t, .error 0x14)

/-! ### G2 to G4 (R87 to R96) -/

/-- What an opened frame carries: plaintext, and its counters. -/
structure Plain where
  apdu : Bytes
  ic : Option Nat
  fc : Option Nat
  deriving DecidableEq, Repr

/-- Next EK becomes EK (R93): the blob is wrapped again as KIND 0, the old one and that of next EK are destroyed, and the record
changes in one journalled update. -/
def State.takeNextEk (s : State) (t : TileId) (midx : Nat) (key : Bytes) : State :=
  let slot := midxSlot midx
  let b := (s.blob t (blobPlace 0 (4 * slot + 3))).getD []
  let s := s.wrapBlob t (blobPlace 0 (4 * slot)) 0 (blobUsage b) (blobOwner b) (blobExpiry b) key
  let s := (s.setBlob t (blobPlace 0 (4 * slot + 3)) none).dropSlots t midx none
  (s.fieldsMeter t slot (fun r => { r with keyMap := setBit r.keyMap 3 false, keyGen := (r.keyGen + 1) % 65536, icUpHw := 0 }) .keys).bump
    Reg.gather_next_ek_taken t

/-- Fetch EK and AK and open a wrapper; a tag that fails under EK is tried under next EK (R92, R93). Both keys are served (R88);
where both fail the frame ends with the detail of EK (DESIGN CHOICE, notes/assumptions/35.md). -/
def State.openWrapper (s : State) (t : TileId) (midx : Nat) (apdu : Bytes) (bad : Nat) : State × Except Nat (Bytes × Nat) :=
  let e := s.sessionKey t midx 0 (badUses bad 0)
  let a := e.1.sessionKey t midx 1 (badUses bad 1)
  match e.2 with
  | .error d => (a.1, .error d)
  | .ok ek =>
    match a.2 with
    | .error d => (a.1, .error d)
    | .ok ak =>
      match readWrapper apdu with
      | .error d => (a.1, .error d)
      | .ok w =>
        if w.title ≠ natLE 8 (a.1.meter t (midxSlot midx)).sysTitle then (a.1, .error 0x21)
        else match w.open_ ek ak with
          | some p => (a.1, .ok (p, w.ic))
          | none =>
            if bit (a.1.meter t (midxSlot midx)).keyMap 3 then
              let n := a.1.sessionKey t midx 3 (badUses bad 3)
              match n.2 with
              | .error d => (n.1, .error d)
              | .ok nk =>
                match w.open_ nk ak with
                | some p => (n.1.takeNextEk t midx nk, .ok (p, w.ic))
                | none => (n.1, .error 0x22)
            else (a.1, .error 0x22)

/-- G2 and G3 of a frame (R87 to R94). The auxiliary security header is read in its form of 6 bytes (R345) whatever bits 3 to 7 of its security control say
(DESIGN CHOICE, notes/assumptions/35.md); `State.rfRx` has discarded a frame of the tile's own radio in another form. -/
def State.openFrame (s : State) (t : TileId) (midx : Nat) (f : Frame) (bad : Nat) : State × Except Nat Plain :=
  if f.rfSecured then
    let aux := f.apdu.take 6
    if f.apdu.length < 6 then (s, .error 0x47)
    else if fld aux 5 1 ≠ (s.meter t (midxSlot midx)).rfKeyId then (s, .error 0x13)
    else
      let k := s.sessionKey t midx 2 (badUses bad 2)
      match k.2 with
      | .error d => (k.1, .error d)
      | .ok key =>
        let level := fld aux 0 1 % 8
        let mic := if level = 5 then 4 else if level = 6 then 8 else 16
        let fc := fld aux 1 4
        if level < 5 then (k.1, .error 0x20)
        else if f.apdu.length < 6 + mic then (k.1, .error 0x47)
        else
          let body := f.apdu.drop 6
          let ct := body.take (body.length - mic)
          match ccmOpen key (natBE 8 f.addr ++ natBE 4 fc ++ natBE 1 level) (f.aad ++ aux) ct (body.drop ct.length) with
          | none => (k.1, .error 0x23)
          | some inner =>
            if isWrapper inner then
              let r := k.1.openWrapper t midx inner bad
              match r.2 with
              | .error d => (r.1, .error d)
              | .ok p => (r.1, .ok { apdu := p.1, ic := some p.2, fc := some fc })
            else (k.1, .ok { apdu := inner, ic := none, fc := some fc })
  else if isWrapper f.apdu then
    let r := s.openWrapper t midx f.apdu bad
    match r.2 with
    | .error d => (r.1, .error d)
    | .ok p => (r.1, .ok { apdu := p.1, ic := some p.2, fc := none })
  else (s, .error 0x20)

/-- G4: each counter against its high-water, FC first; raised in one record update (R95, R96). The result gives the old and new
values. -/
def State.passCounters (s : State) (t : TileId) (midx : Nat) (p : Plain) :
    State × Except Nat (Option (Nat × Nat) × Option (Nat × Nat)) :=
  let slot := midxSlot midx
  let r := s.meter t slot
  if p.fc.any fun c => decide (c ≤ r.fcUpHw) then (s, .error 0x31)
  else if p.ic.any fun c => decide (c ≤ r.icUpHw) then (s, .error 0x30)
  else
    (s.setMeter t slot { r with icUpHw := p.ic.getD r.icUpHw, fcUpHw := p.fc.getD r.fcUpHw },
     .ok (p.ic.map fun c => (r.icUpHw, c), p.fc.map fun c => (r.fcUpHw, c)))

end Sys2Proof.Machine
end

