-- ==== Sys2Proof/Machine/Meridian.lean ====
section
/-! DEFINITION. Meridian.lean: chapter 13: the time reference of the device and of each tile. -/

namespace Sys2Proof.Machine

open Crypto

/-! ### The UTC offset (R420) -/

/-- The offset of the first source available, and that source's code. -/
def State.utcSource (s : State) : Int × Nat :=
  let d := s.pier.time
  match d.source, d.best, d.todUtc with
  | 0, some m, _ => if m.utcValid then (m.utc, 0) else (s.rdI Reg.device_time_utc_offset_cfg 0, 2)
  | 1, _, some u => (u, 1)
  | _, _, _ => (s.rdI Reg.device_time_utc_offset_cfg 0, 2)

/-- Enter a change in the history: the newest 4 stand, unused places read zero. -/
def State.utcEnter (s : State) (sec : Nat) (v : Int) : State :=
  let l := s.utcPlaces ++ [(sec, v)]
  let l := keepLast 4 l
  s.wrB Reg.device_time_utc_history 0 0 (fit 32 (l.map fun e => natLE 6 e.1 ++ intLE 2 e.2).flatten)

/-- The offset in force is that of the first available source. -/
def State.takeUtc (s : State) : State :=
  s.onPier fun x => { x with time := { x.time with utc := s.utcSource.1, utcSrc := s.utcSource.2 } }

/-- Take the offset of the first available source (R420): a change takes effect at once, is entered and raises a device
event. -/
def State.refreshUtc (s : State) : State :=
  let v := s.utcSource.1
  if v = s.pier.time.utc then s.takeUtc
  else (s.takeUtc.utcEnter (s.pierNs / 1000000000) v).pierEvent 0xFF 0 0x0107 0 (v % 65536).toNat

/-- The TAI instant, in seconds, that ends the last UTC minute of the current UTC day when a leap of `leap` is pending. -/
def leapInstant (sec : Nat) (utc leap : Int) : Nat :=
  let u := (sec : Int) - utc
  ((u / 86400 + 1) * 86400 + utc + leap).toNat

/-- Keep the instant at which the pending leap takes effect: the end of the present UTC day, 0 while there is no leap or no tile provides time. One that has come stands. -/
def State.placeLeap (s : State) : State :=
  let sec := s.pierNs / 1000000000
  let leap := s.rdI Reg.device_time_leap_pending 0
  let at_ := s.pier.time.leapAt
  let at_ := if sec = 0 ∨ leap = 0 then 0 else if at_ ≠ 0 ∧ at_ ≤ sec then at_ else leapInstant sec s.pier.time.utc leap
  s.onPier fun x => { x with time := { x.time with leapAt := at_ } }

/-- A leap second signalled by the source (R420): −1, 0 or +1. -/
def State.signalLeap (s : State) (leap : Int) : State :=
  if s.rdI Reg.device_time_leap_pending 0 = leap then s.placeLeap
  else ((s.wrI Reg.device_time_leap_pending 0 leap).onPier fun x => { x with time := { x.time with leapAt := 0 } }).placeLeap

/-- LEAP_SECOND (R420): at the end of the last UTC minute of the day the offset changes by the pending leap. -/
def leapSecond (s : State) : State :=
  let s := s.placeLeap
  let at_ := s.pier.time.leapAt
  if at_ ≠ 0 ∧ at_ ≤ s.pierNs / 1000000000 then
    let v := s.pier.time.utc + s.rdI Reg.device_time_leap_pending 0
    let s := (s.utcEnter at_ v).wrI Reg.device_time_leap_pending 0 0
    s.onPier fun x => { x with time := { x.time with utc := v, leapAt := 0 } }
  else s

/-- LEAP_SECOND (R420). -/
def execLeapSecond (s : State) : Host.Outcome State Fault Refusal := finish leapSecond s

/-! ### Meridian's counter -/

/-- Change the frequency correction at this instant, keeping the time continuous (R428). -/
def Mer.setFreq (m : Mer) (now : Nat) (f : Int) : Mer :=
  { m with baseTime := m.time now, baseNow := now, freq := f, freqAt := now }

/-- Load a time at this instant. -/
def Mer.load (m : Mer) (now : Nat) (ns : Int) : Mer := { m with baseTime := ns, baseNow := now }

/-- Change a tile's Meridian. -/
def State.onMer (s : State) (t : TileId) (f : Mer → Mer) : State := s.onVol t fun v => { v with mer := f v.mer }

/-- Limit to ±b. -/
def clampI (b v : Int) : Int := max (-b) (min b v)

/-- Set the frequency correction and its entry; ±100 ppm (R428). -/
def State.setFreq (s : State) (t : TileId) (f : Int) : State :=
  let f := clampI 100000 f
  (s.onMer t fun m => m.setFreq s.now f).wrI Reg.time_freq_ppb t f

/-- The frequency correction follows what the servo wants by 20 ppm/s at most (R428): 1 ppb each 50 µs. -/
def State.slew (s : State) (t : TileId) : State :=
  let m := (s.vol t).mer
  let steps := (s.now - m.freqAt) / 50000
  if m.goal = m.freq ∨ steps = 0 ∨ !s.inRun t then s
  else (s.setFreq t (m.freq + clampI steps (m.goal - m.freq))).onMer t fun x => { x with freqAt := m.freqAt + steps * 50000 }

/-- Servo update (R428): the wanted correction is a free value within ±100 ppm, toward which the frequency begins to move. -/
def State.servo (s : State) (t : TileId) (o : Int) : State :=
  let s := s.slew t
  s.onMer t fun m => { m with goal := clampI 100000 (Config.servo o m.freq), freqAt := if m.goal = m.freq then s.now else m.freqAt }

/-- Enter a state of the machine of R430 and keep `tile.status.missing` bit 4 (R431). The Balance engine notes the span of a holdover, REFUSING included (R209, R431), and
the first step makes a synchronising reset of the metrology due (R226). -/
def State.setMer (s : State) (t : TileId) (st : Nat) : State :=
  let s := s.onMer t fun m =>
    { m with leftLocked := if st = 2 then none else if s.rd Reg.time_state t = 2 then some s.now else m.leftLocked
             manual := if st = 2 then false else m.manual
             goal := if st = 2 then m.goal else m.freq
             since := if 2 ≤ st ∧ s.rd Reg.time_state t < 2 then s.timeSec t else m.since }
  let old := s.rd Reg.time_state t
  let sec := s.timeSec t
  let s := s.onVol t fun v =>
    let held := if old < 3 ∧ 3 ≤ st then v.bal.suspect ++ [(sec, none)]
      else if 3 ≤ old ∧ st < 3 then v.bal.suspect.map fun x => if x.2.isNone then (x.1, some sec) else x
      else v.bal.suspect
    { v with bal := { v.bal with suspect := keepLast 64 held } }
  let s := if old < 2 ∧ 2 ≤ st then s.askSync t else s
  (s.wr Reg.time_state t st).setMissing t 4 (decide (st < 2))

/-- Source code of the reference in force (R446). -/
def State.refCode (s : State) : Nat := s.pier.time.source + 1

/-- Record a step of `d` nanoseconds (R430, R436) and raise STEP. -/
def State.noteStep (s : State) (t : TileId) (d : Int) : State :=
  let s := (s.bump Reg.time_steps t).wr Reg.time_last_step t (s.timeNs t).toNat
  (s.wrI Reg.time_last_step_ns t d).event t 0 0x1903

/-! ### Qualification (R429) -/

/-- Least-squares line through points (x, y): the mean of y (rounded down) and the slope in ppb (rounded toward zero),
when every residual lies within ±spread and the slope within ±100 ppm. Exact integer arithmetic on n·Sxx. -/
def fitLine (pts : List (Int × Int)) (spread : Int) : Option (Int × Int) :=
  let n : Int := pts.length
  let x0 := (pts.head?.getD (0, 0)).1
  let pts := pts.map fun p => (p.1 - x0, p.2)
  let sx := (pts.map Prod.fst).sum
  let sy := (pts.map Prod.snd).sum
  let sxx := n * (pts.map fun p => p.1 * p.1).sum - sx * sx
  let sxy := n * (pts.map fun p => p.1 * p.2).sum - sx * sy
  if sxx ≤ 0 then none
  else if (pts.all fun p => decide ((n * sxx * p.2 - sxx * sy - sxy * (n * p.1 - sx)).natAbs ≤ (spread * n * sxx).natAbs))
      && decide (sxy.natAbs * 10000 ≤ sxx.natAbs) then
    some (sy / n, (sxy * 1000000000).tdiv sxx)
  else none

/-- The re-step table (R437): the seconds entered. -/
def State.restepTable (s : State) (t : TileId) : List Nat :=
  (List.range 4).filterMap fun i =>
    let v := s.rdF Reg.time_restep_table t (8 * i) 6
    if v = 0 then none else some v

/-- Store the re-step table, used entries first. -/
def State.setRestepTable (s : State) (t : TileId) (l : List Nat) : State :=
  s.wrB Reg.time_restep_table t 0 (fit 32 (l.map fun v => natLE 8 v).flatten)

/-- A tile has stepped under a re-step order (R436): table entry, mirror item, synchronising reset. -/
def State.restepped (s : State) (t : TileId) : State :=
  let sec := s.timeSec t
  let s := (s.setRestepTable t (s.restepTable t ++ [sec])).mirror t (.restep sec)
  (s.onVol t fun v => { v with bal := { v.bal with suspect := keepLast 64 (v.bal.suspect ++ [(sec, some sec)]) } }).askSync t

/-- Result of a re-step order: the first of LIMIT and CONFLICT that applies (R435). -/
def RestepRun.result (r : RestepRun) : Status :=
  if r.full then .limit else if r.failed = [] then .ok else .conflict

/-- Complete a re-step order when no selected tile is left (R435). -/
def State.restepDone (s : State) : State :=
  match s.pier.time.restep with
  | some r =>
    if r.waiting = [] then
      let s := s.onPier fun p => { p with time := { p.time with restep := none } }
      let s := s.wr Reg.device_time_restep_result 0 r.result.code
      (s.wr Reg.device_time_restep_failed 0 (r.failed.foldl (fun a t => setBit a t true) 0)).answerFor r.act 255 r.result
    else s
  | none => s

/-- Take a tile off the list of those still to step. -/
def State.restepTileDone (s : State) (t : TileId) (failed : Bool) : State :=
  let s := s.onMer t fun m => { m with restepSince := none, restepMeas := [] }
  let s := s.onPier fun p => { p with time := { p.time with restep := p.time.restep.map fun r =>
    { r with waiting := r.waiting.filter (· != t.val), failed := if failed then r.failed ++ [t.val] else r.failed } } }
  s.restepDone

/-- A time is loaded: what was measured before it says nothing of the new one. -/
def Mer.anew (m : Mer) (now : Nat) (ns : Int) : Mer :=
  { m.load now ns with formed := [], meas := [], restepMeas := [], outRun := 0, goodRun := 0 }

/-- Step by the mean offset with the frequency from the slope (R430); `told` is what `last_step_ns` takes. -/
def State.stepTo (s : State) (t : TileId) (fit_ : Int × Int) (told : Int) : State :=
  let f := (s.vol t).mer.freq + fit_.2
  let s := s.onMer t fun m => m.anew s.now (m.time s.now + fit_.1)
  let s := ((s.setFreq t f).onMer t fun m => { m with goal := m.freq }).noteStep t told
  (s.setMer t 2).wr Reg.time_source_now t s.refCode

/-- One measurement under a MODE 0 re-step (R436), made at clock count `c`: fresh measurements, no outlier rule. -/
def restepMeasure (s : State) (t : TileId) (c : Nat) (o : Int) : State :=
  let n := s.rd Reg.device_time_qualify_count 0
  let pts := keepLast n ((s.vol t).mer.restepMeas ++ [((c : Int), o)])
  if pts.length < n then s.onMer t fun m => { m with restepMeas := pts }
  else match fitLine pts (s.rd Reg.device_time_qualify_spread_ns 0) with
    | some f =>
      let told := if s.hasTime t then f.1 else 0
      ((s.stepTo t f told).restepped t).restepTileDone t false
    | none => s.onMer t fun m => { m with restepMeas := pts.tail }

/-- One measurement in UNSET or QUALIFYING (R430), made at clock count `c`: the newest `qualify_count` are tested (R429). -/
def qualifyMeasure (s : State) (t : TileId) (c : Nat) (o : Int) : State :=
  let s := if s.rd Reg.time_state t = 0 then s.setMer t 1 else s
  let n := s.rd Reg.device_time_qualify_count 0
  let pts := keepLast n ((s.vol t).mer.meas ++ [((c : Int), o)])
  if pts.length < n then s.onMer t fun m => { m with meas := pts }
  else match fitLine pts (s.rd Reg.device_time_qualify_spread_ns 0) with
    | some f => s.stepTo t f f.1
    | none => s.onMer t fun m => { m with meas := pts.tail }

/-- An outlier (R429, R430): never used by the servo; R consecutive ones make LOCKED and HOLDOVER refuse. -/
def outlierMeasure (s : State) (t : TileId) : State :=
  let s := (s.bump Reg.time_outliers t).onMer t fun m => { m with outRun := m.outRun + 1, goodRun := 0 }
  if s.rd Reg.time_state t ≠ 4 ∧ s.rd Reg.device_time_refuse_count 0 ≤ (s.vol t).mer.outRun then
    (((s.bump Reg.time_refusals t).event t 2 0x1901).setMer t 4).onMer t fun m => { m with goodRun := 0 }
  else s

/-- A measurement that is not an outlier (R430): servo in LOCKED and HOLDOVER; R consecutive ones end REFUSING. -/
def goodMeasure (s : State) (t : TileId) (o : Int) : State :=
  let s := s.onMer t fun m => { m with outRun := 0, goodRun := m.goodRun + 1 }
  if s.rd Reg.time_state t = 4 then
    if s.rd Reg.device_time_refuse_count 0 ≤ (s.vol t).mer.goodRun then
      ((s.event t 0 0x1902).setMer t 2).wr Reg.time_source_now t s.refCode
    else s
  else ((s.servo t o).setMer t 2).wr Reg.time_source_now t s.refCode

/-- No measurement has arrived for `device.time.loss_ms`: the reference is lost (R429, R430). -/
def referenceLoss (t : TileId) (s : State) : State :=
  if (s.vol t).mer.lastMeas + s.rd Reg.device_time_loss_ms 0 * 1000000 ≤ s.now then
    let s := s.onMer t fun m => { m with restepMeas := [] }
    if s.rd Reg.time_state t = 1 then (s.onMer t fun m => { m with meas := [], formed := [] }).setMer t 0
    else if s.rd Reg.time_state t = 2 then s.setMer t 3
    else s
  else s

/-- REFERENCE_LOSS (R429). -/
def execReferenceLoss (t : TileId) (s : State) : Host.Outcome State Fault Refusal := finish (referenceLoss t) s

/-- An offset is above the jump threshold J (R429). -/
def State.isOutlier (s : State) (o : Int) : Bool := decide (s.rd Reg.device_time_jump_threshold_ns 0 < o.natAbs)

/-- A MODE 0 order stands, and a measurement made at clock count `c` is fresh under it (R436). -/
def Mer.fresh (m : Mer) (c : Nat) : Bool := m.restepSince.any fun x => decide (x ≤ c)

/-- The machine of R430 for one offset measurement, made at clock count `c`. Under a MODE 0 order, which knows no outlier, a tile without valid time qualifies beside it. -/
def judgeMeasure (s : State) (t : TileId) (c : Nat) (o : Int) : State :=
  let s := s.wrI Reg.time_offset_ns t o
  let unset := fun (s : State) => decide (s.rd Reg.time_state t < 2)
  if (s.vol t).mer.fresh c then
    let s := restepMeasure s t c o
    if unset s && (s.vol t).mer.restepSince.isSome then qualifyMeasure s t c o else s
  else if unset s then qualifyMeasure (if s.isOutlier o then s.bump Reg.time_outliers t else s) t c o
  else if s.isOutlier o then outlierMeasure s t
  else goodMeasure s t o

/-- Take the oldest measurement formed and judge it. -/
def meridianMeasurement (t : TileId) (s : State) : State :=
  match (s.vol t).mer.formed with
  | x :: r => judgeMeasure (s.onMer t fun m => { m with formed := r }) t x.1 x.2
  | [] => s

/-- MERIDIAN_MEASUREMENT (R430). -/
def execMeridianMeasurement (t : TileId) (s : State) : Host.Outcome State Fault Refusal := finish (meridianMeasurement t) s

/-- A tile takes measurements from step T3 on, in RUN, at most 128 a second (R422, R605). One that comes after the loss of the reference finds it lost (R429). -/
def State.formMeasure (s : State) (t : TileId) (o : Int) : State :=
  let m := (s.vol t).mer
  let sec := s.now / 1000000000
  let cnt := if m.secCount.1 = sec then m.secCount.2 else 0
  if s.inRun t && decide (3 ≤ (s.vol t).boot.step) && decide (cnt < 128) then
    (referenceLoss t s).onMer t fun m => { m with formed := m.formed ++ [(s.now, o)], secCount := (sec, cnt + 1), lastMeas := s.now }
  else s

/-! ### Reference inputs -/

/-- No message arrives on a lane that is down, or while the Pier is in reset (R39). -/
def State.laneDown (s : State) (lane : Fin 2) : Bool := !s.pier.up || !s.pier.hub.laneUp.getD lane false

/-- Lanes that the best master clock algorithm considers (R422): the active one, or both in ACTIVE_ACTIVE. -/
def State.laneHeard (s : State) (lane : Nat) : Bool := decide (s.pier.hub.cfg.mode = 1) || decide (lane = s.pier.activeLane)

/-- Half of what the responder of a Pdelay exchange did not hold, from its timestamps and the port's corrections: the ingress constant is
subtracted from t4, the egress constant added to t1 (R422, R426, R427). -/
def meanLinkDelay (ingress egress : Int) (x : Nat × Nat × Nat × Nat) : Nat :=
  ((((x.2.2.2 : Int) - ingress) - (x.1 + egress) - ((x.2.2.1 : Int) - x.2.1)) / 2).toNat

/-- The hub forwards a message of the selected master to P2 of every tile in RUN, in the EXPRESS class: once through each switch core to P6 (R366, R422). -/
def State.ptpForward (s : State) (len : Nat) : State :=
  (s.bump Reg.device_time_ptp_rx 0).each (allTiles.filter fun t => s.inRun t) fun s t => s.swPass t 2 6 0 (fit len (Config.ptpFrame t 2 s.now)) len

/-- A Sync of the selected master (R422), with its Follow_Up when it is two-step: forwarded with the lane's meanLinkDelay, it forms one measurement in each
tile, o = originTimestamp + correctionField − corrected ingress time (R426: 82 ns at P2, R427: the lane's board
delay). Messages of any other port or domain are discarded. -/
def ptpSync (lane : Fin 2) (sender : PtpSender) (originNs : Nat) (corrNs : Int) (s : State) : State :=
  match s.pier.time.best with
  | some m =>
    if s.laneDown lane = false ∧ sender.domain = s.rd Reg.device_time_ptp_domain 0 ∧ s.pier.time.source = 0 ∧ m.port = sender.port ∧ m.lane = lane.val ∧ s.laneHeard lane.val then
      let s := s.ptpForward 60
      let s := if sender.followUp then s.ptpForward 60 else s
      let base : Int := originNs + corrNs + s.rd Reg.device_time_link_delay_ns 0 lane
      let k : Int := 82 + s.rdI Reg.device_time_lane_corr_ns 0 lane
      s.each allTiles fun s t => s.formMeasure t (base - (s.timeNs t - k))
    else s
  | none => s

/-- PTP_SYNC (R422). -/
def execPtpSync (lane : Fin 2) (sender : PtpSender) (originNs : Nat) (corrNs : Int) (s : State) :
    Host.Outcome State Fault Refusal := finish (ptpSync lane sender originNs corrNs) s

/-- The Pdelay exchanges of a second on a lane (R422): the hub's request goes out, that of the other end is answered. t1 and t4 are the hub counter's own timestamps,
t2 and t3 the responder's. -/
def pdelay (lane : Fin 2) (t1 t2 t3 t4 : Nat) (s : State) : State :=
  if s.laneDown lane ∨ s.pier.time.source ≠ 0 then s
  else
    let k := portConsts 0
    let c := s.rdI Reg.device_time_lane_corr_ns 0 lane
    ((s.emit (.lanePdelay lane false)).emit (.lanePdelay lane true)).wr Reg.device_time_link_delay_ns 0 (meanLinkDelay (k.1 + c) (k.2 + c) (t1, t2, t3, t4)) lane

/-- PDELAY (R422). -/
def execPdelay (lane : Fin 2) (t1 t2 t3 t4 : Nat) (s : State) : Host.Outcome State Fault Refusal :=
  finish (pdelay lane t1 t2 t3 t4) s

/-- Key by which data sets are compared (IEEE 1588 data set comparison, PRESUMED, notes/assumptions/3.md): priority 1,
class, accuracy, variance, priority 2, grandmaster identity, steps, port; the lower is the better. -/
def Master.rank (m : Master) : List Nat :=
  [m.prio1, m.cls, m.acc, m.var, m.prio2, beNat m.gm, m.steps, beNat m.port]

/-- Lexicographic order of equally long lists. -/
def lexLt : List Nat → List Nat → Bool
  | a :: r, b :: q => decide (a < b) || (decide (a = b) && lexLt r q)
  | _, _ => false

/-- The best of the masters heard. -/
def bestMaster : List Master → Option Master
  | [] => none
  | m :: r => match bestMaster r with
    | some b => some (if lexLt b.rank m.rank then b else m)
    | none => some m

/-- An Announce message of a master still counts: 3 s after it, the master has lapsed (PRESUMED, notes/assumptions/3.md). -/
def State.stillHeard (s : State) (m : Master) : Bool := decide (s.now < m.seen + 3000000000)

/-- The best master clock algorithm (R422): of the masters that have not lapsed, on the lanes considered, the best is selected; a change is counted (R430). What it says of
UTC takes effect (R420). -/
def State.chooseMaster (s : State) : State :=
  let d := s.pier.time
  let l := d.masters.filter s.stillHeard
  let best := bestMaster (l.filter fun x => s.laneHeard x.lane)
  let same := best.map (fun b => (b.port, b.gm, b.lane)) = d.best.map (fun b => (b.port, b.gm, b.lane))
  let s := s.onPier fun p => { p with time := { p.time with masters := l, best := best } }
  let s := if same then s else s.bump Reg.device_time_master_changes 0
  let b := best.map fun b => (b.gm, b.port, b.leap)
  let s := (s.wrB Reg.device_time_gm_identity 0 0 (fit 8 (b.elim [] (·.1)))).wrB Reg.device_time_master_port 0 0 (fit 10 (b.elim [] (·.2.1)))
  (b.elim s fun x => s.signalLeap x.2.2).refreshUtc

/-- Choose anew when a master has lapsed. -/
def State.masterLapse (s : State) : State := if s.pier.time.masters.all s.stillHeard then s else s.chooseMaster

/-- An Announce message (R422) takes part in the choice; that of the master selected is forwarded. -/
def ptpAnnounce (m : Master) (s : State) : State :=
  let s := (s.onPier fun p => { p with time := { p.time with
    masters := m :: p.time.masters.filter fun x => !(x.port == m.port && x.lane == m.lane) } }).chooseMaster
  if s.pier.time.best = some m then s.ptpForward 78 else s

/-- PTP_ANNOUNCE (R422): one of another domain, and every one while the source is not PTP, is discarded. -/
def execPtpAnnounce (lane : Fin 2) (sender : PtpSender) (gm : Bytes) (prio1 cls acc var prio2 steps src : Nat) (utc : Int)
    (utcValid : Bool) (leap : Int) (s : State) : Host.Outcome State Fault Refusal :=
  finish (fun s =>
    let m : Master :=
      { lane := lane, port := sender.port, gm := gm, prio1 := prio1, cls := cls, acc := acc, var := var, prio2 := prio2
        steps := steps, src := src, utc := utc, utcValid := utcValid, leap := clampI 1 leap, seen := s.now }
    if s.laneDown lane = true ∨ sender.domain ≠ s.rd Reg.device_time_ptp_domain 0 ∨ s.pier.time.source ≠ 0 then s else ptpAnnounce m s) s

/-- An edge of TIN_PPS (R423): the level is repeated by Transit; the active edge of a pulse of at least 100 ns, not
within 0.5 s of the edge before it, forms a measurement when a valid message named it. -/
def ppsEdge (rising : Bool) (widthNs : Nat) (s : State) : State :=
  if !s.pier.up then s else
  let s := s.onPier fun p => { p with time := { p.time with ppsLevel := rising } }
  let active := decide (rising = decide (s.rd Reg.device_time_pps_polarity 0 = 0))
  let early := match s.pier.time.lastEdge with
    | some e => decide (s.now < e + 500000000)
    | none => false
  if !active || decide (widthNs < 100) || early then s
  else
    let named := s.pier.time.todNamed
    let s := s.onPier fun p => { p with time := { p.time with lastEdge := some s.now, todNamed := none } }
    match named with
    | some sec =>
      if s.pier.time.source = 1 then
        s.each allTiles fun s t => s.formMeasure t ((sec : Int) * 1000000000 - s.timeNs t)
      else s
    | none => if s.pier.time.source = 1 then s.bump Reg.device_time_tod_errors 0 else s

/-- PPS_EDGE (R423). -/
def execPpsEdge (rising : Bool) (widthNs : Nat) (s : State) : Host.Outcome State Fault Refusal :=
  finish (ppsEdge rising widthNs) s

/-- A decimal field with an optional minus sign. -/
def decimalI (b : Bytes) : Option Int :=
  match b with
  | c :: r => if c = 45 then (decimal r).map fun v => -(v : Int) else (decimal b).map fun v => (v : Int)
  | [] => none

/-- Split at every occurrence of a byte. -/
def splitAt_ (x : Byte) : Bytes → List Bytes
  | [] => [[]]
  | c :: r =>
    match splitAt_ x r with
    | h :: q => if c = x then [] :: h :: q else (c :: h) :: q
    | [] => [[]]

/-- Value of an upper-case hexadecimal digit. -/
def hexDigit (c : Byte) : Option Nat :=
  if 48 ≤ c.toNat ∧ c.toNat ≤ 57 then some (c.toNat - 48)
  else if 65 ≤ c.toNat ∧ c.toNat ≤ 70 then some (c.toNat - 55) else none

/-- The fields of a valid TIN_TOD message (R424): SEC, UTC_OFS, LEAP; none for a wrong checksum, a field out of form, or
Q = 2. -/
def parseTod (m : Bytes) : Option (Nat × Int × Nat) :=
  match m with
  | d :: r =>
    let body := r.takeWhile fun c => c != 42
    let rest := (r.drop (body.length + 1))
    let ck := match rest with
      | [h, l, cr, lf] => if cr = 13 ∧ lf = 10 then (hexDigit h).bind fun a => (hexDigit l).map fun b => a * 16 + b else none
      | _ => none
    if d = 36 ∧ ck = some (body.foldl (· ^^^ ·) 0).toNat then
      match splitAt_ 44 body with
      | [w, sec, utc, leap, q] =>
        if w = ascii "WTOD" then
          match decimal sec, decimalI utc, decimal leap, decimal q with
          | some a, some u, some l, some k => if l ≤ 2 ∧ k ≤ 1 ∧ sec.length ≤ 15 then some (a, u, l) else none
          | _, _, _, _ => none
        else none
      | _ => none
    else none
  | [] => none

/-- A TIN_TOD message (R424): valid, and ended 100 ms to 900 ms after the previous edge, it names the next edge. -/
def todMessage (msg : Bytes) (s : State) : State :=
  let inTime := match s.pier.time.lastEdge with
    | some e => decide (e + 100000000 ≤ s.now) && decide (s.now ≤ e + 900000000)
    | none => true
  match parseTod msg with
  | some (sec, u, l) =>
    if inTime then
      let s := s.onPier fun p => { p with time := { p.time with todNamed := some sec, todUtc := some u } }
      let s := if s.pier.time.source = 1 then s.signalLeap (if l = 1 then 1 else if l = 2 then -1 else 0) else s
      s.refreshUtc
    else s
  | none => s

/-- TOD_MESSAGE (R424). -/
def execTodMessage (msg : Bytes) (s : State) : Host.Outcome State Fault Refusal := finish (todMessage msg) s

/-! ### Stepping again (R435 to R438) -/

/-- The parameters of `device.time.restep`: MASK, MODE, TIME in nanoseconds; none when they are bad. -/
def restepParams (p : Bytes) : Option (Nat × Nat × Nat) :=
  let mode := fld p 2 1
  let tm := (p.drop 6).take 10
  if p.length = 16 ∧ mode ≤ 1 ∧ fld p 3 3 = 0 ∧ fld tm 6 4 < 1000000000 ∧ (mode = 1 ∨ leNat tm = 0) then
    some (fld p 0 2, mode, time80ns tm)
  else none

/-- Order one tile to re-step (R436, R438). -/
def restepTile (mode ns : Nat) (s : State) (t : TileId) : State :=
  if !s.inRun t then (s.wr Reg.time_restep_pending t 1).restepTileDone t false
  else if 4 ≤ (s.restepTable t).length then
    let s := s.onPier fun p => { p with time := { p.time with restep := p.time.restep.map fun r => { r with full := true } } }
    s.restepTileDone t true
  else if mode = 1 then
    let told : Int := if s.hasTime t then (ns : Int) - s.timeNs t else 0
    let s := s.onMer t fun m => { m.anew s.now ns with manual := true }
    let s := ((s.noteStep t told).setMer t 3).wr Reg.time_source_now t 3
    (s.restepped t).restepTileDone t false
  else s.onMer t fun m => { m with restepSince := some s.now, restepMeas := [] }

/-- `device.time.restep` (R435). -/
def restep (params : Bytes) (s : State) : State :=
  match restepParams params with
  | none => (s.wr Reg.device_time_restep_result 0 Status.invalid.code).answer 255 .invalid
  | some (mask, mode, ns) =>
    if s.pier.time.restep.isSome then (s.wr Reg.device_time_restep_result 0 Status.busy.code).answer 255 .busy
    else
      let sel : List TileId := allTiles.filter fun t => bit mask t.val
      let run : RestepRun := { mode := mode, waiting := sel.map Fin.val, failed := [], full := false, start := s.now, act := s.acts.now }
      let s := s.onPier fun p => { p with time := { p.time with restep := some run } }
      let s := s.each sel (restepTile mode ns)
      if sel = [] then s.restepDone else s

/-- RESTEP (R435). -/
def execRestep (params : Bytes) (s : State) : Host.Outcome State Fault Refusal := finish (restep params) s

/-- RESTEP_TIMEOUT (R435): a tile that found no qualifying reference within 60 s fails; the order completes after 70 s. -/
def restepTimeout (s : State) : State :=
  match s.pier.time.restep with
  | some r =>
    let late := fun (t : TileId) => r.waiting.contains t.val &&
      (decide (r.start + 70000000000 ≤ s.now) ||
        (match (s.vol t).mer.restepSince with
         | some x => decide (x + 60000000000 ≤ s.now)
         | none => false))
    s.each (allTiles.filter late) fun s t => s.restepTileDone t true
  | none => s

/-- RESTEP_TIMEOUT (R435). -/
def execRestepTimeout (s : State) : Host.Outcome State Fault Refusal := finish restepTimeout s

/-- RESTEP_ENTRY_EXPIRY (R437): entries older than 16 × 86 400 s leave the table. -/
def restepEntryExpiry (t : TileId) (s : State) : State :=
  s.setRestepTable t ((s.restepTable t).filter fun v => decide (s.timeSec t < v + 16 * 86400))

/-- RESTEP_ENTRY_EXPIRY (R437). -/
def execRestepEntryExpiry (t : TileId) (s : State) : Host.Outcome State Fault Refusal := finish (restepEntryExpiry t) s

/-! ### Outputs (R439 to R441) -/

/-- The driving tile of TOUT in DISCIPLINED mode (R439). -/
def State.toutTile (s : State) (b : BayId) : Option TileId :=
  let e := tileOf b false
  let o := tileOf b true
  if s.independent e then
    if s.role e = 5 && s.hasTime e && s.inRun e then some e
    else if s.role o = 5 && s.hasTime o && s.inRun o then some o else none
  else if s.owns e && s.hasTime e then some e
  else if s.owns o && s.hasTime o then some o else none

/-- TOUT of a bay at this instant (R439): a whole second of the driving tile gives one edge, on time where another tile drove before. While the Pier is in reset nothing
drives it (R4, R607). -/
def toutEdge (b : BayId) (s : State) : State :=
  if !s.pier.up then s else
  let drive := fun (s : State) (lvl : Bool) (src : Nat) (pulse : Bool) =>
    let s := if lvl = (s.bay b).toutLevel then s else s.emit (.tout b lvl)
    let s := (s.onBay b fun x => { x with toutLevel := lvl }).wr Reg.bay_time_tout_source b src
    if pulse then s.bump Reg.bay_time_tout_pulses b else s
  match s.rd Reg.bay_time_tout_mode b with
  | 0 =>
    match s.toutTile b with
    | some t =>
      let ns := s.timeNs t
      let sec := ns / 1000000000
      let high := decide (ns % 1000000000 < (s.rd Reg.bay_time_tout_width_us b * 1000 : Nat))
      let same := decide ((s.bay b).toutOf = some t.val)
      let new := if same then decide ((s.bay b).toutSec < sec) else decide (ns % 1000000000 < 1000)
      let s := s.onBay b fun x => { x with toutSec := if same then max x.toutSec sec else sec, toutOf := some t.val }
      drive s (high && (new || (s.bay b).toutLevel)) (if t.val % 2 = 0 then 1 else 2) (high && new)
    | none => drive s false 0 false
  | 1 =>
    let lvl := s.pier.time.ppsLevel
    let onTime := decide (lvl = decide (s.rd Reg.device_time_pps_polarity 0 = 0)) && decide (lvl ≠ (s.bay b).toutLevel)
    drive s lvl 3 onTime
  | _ => drive s false 0 false

/-- TOUT_EDGE (R439). -/
def execToutEdge (b : BayId) (s : State) : Host.Outcome State Fault Refusal := finish (toutEdge b) s

/-- Seconds since the tile last left LOCKED (R433). -/
def State.holdoverS (s : State) (t : TileId) : Nat :=
  if s.rd Reg.time_state t = 2 then 0
  else match (s.vol t).mer.leftLocked with
    | some x => (s.now - x) / 1000000000
    | none => 0

/-- clockClass, timeSource and stepsRemoved of Announce (R441); none when no PTP message is sent. -/
def State.announceOf (s : State) (t : TileId) : Option (Nat × Nat × Nat) :=
  if !s.hasTime t then none
  else if s.rd Reg.time_state t = 2 then
    if s.rd Reg.time_source_now t = 1 then
      s.pier.time.best.map fun m => (m.cls, m.src, m.steps + 1)
    else some (6, 0x90, 0)
  else if s.rd Reg.time_state t = 3 ∧ s.rd Reg.time_source_now t = 3 then some (248, 0x60, 0)
  else if s.holdoverS t ≤ s.rd Reg.device_time_holdover_spec_s 0 then some (7, 0xA0, 0)
  else some (52, 0xA0, 0)

/-- clockIdentity of a port of a tile (R441): the EUI-64 formed from its MAC address. -/
def clockIdentity (tile port : Nat) : Bytes :=
  let m := fit 6 (Config.mac tile port)
  m.take 3 ++ [0xFF, 0xFE] ++ m.drop 3

/-- meanLinkDelay of a Pdelay exchange on D0 or D1, whose t1 and t4 are Meridian's own timestamps (R426, R427, R441). -/
def State.peerDelay (s : State) (t : TileId) (p : Nat) (x : Nat × Nat × Nat × Nat) : Nat :=
  meanLinkDelay (s.portCorr t p).1 (s.portCorr t p).2 x

/-- Once per second an ACTIVE or INDEPENDENT tile that provides time sends Sync, Follow_Up, Announce and a Pdelay request on each enabled port, in the EXPRESS
class through its switch core (R366), and keeps the peer delay measured there (R441). -/
def ptpMasterTx (t : TileId) (d0 d1 : Option (Nat × Nat × Nat × Nat)) (s : State) : State :=
  let sec := s.timeNs t / 1000000000
  let en := s.rd Reg.time_ptp_master_enable t
  if !s.serves t || !s.inRun t then s.clr Reg.time_clock_class t
  else match s.announceOf t with
    | none => s.clr Reg.time_clock_class t
    | some (cls, src, steps) =>
      if sec = (s.vol t).ptpSec then s
      else
        let s := (s.onVol t fun v => { v with ptpSec := sec }).wr Reg.time_clock_class t (if en = 0 then 255 else cls)
        s.each [(0, d0), (1, d1)] fun s p =>
          if !bit en p.1 then s
          else
            let s := s.swSend t 6 p.1 0 (.ptp (.sync (s.rd Reg.device_time_ptp_domain 0) sec.toNat cls src steps))
            match p.2 with
            | some x => s.wr Reg.time_peer_delay_ns t (s.peerDelay t p.1 x) p.1
            | none => s

/-- PTP_MASTER_TX (R441). -/
def execPtpMasterTx (t : TileId) (d0 d1 : Option (Nat × Nat × Nat × Nat)) (s : State) : Host.Outcome State Fault Refusal :=
  finish (ptpMasterTx t d0 d1) s

end Sys2Proof.Machine
end

