-- ==== Sys2Proof/Machine/LehrOps.lean ====
section
/-! DEFINITION. LehrOps.lean: chapter 5: archive records as bytes, SEQ streams, tags, batches, closures and what a tile holds. -/

namespace Sys2Proof.Machine

open Crypto

/-! ### Records as bytes (R148 to R151) -/

/-- KIND, OUT and the bytes 0x0A to 0x33. -/
def recKind : RecBody → Nat
  | .meter _ _ _ _ _ => 0
  | .link _ _ _ _ => 1
  | .book _ _ => 3
  | _ => 2
def recOut : RecBody → Nat
  | .meter out _ _ _ _ => out
  | .link _ _ _ _ => 0xFF
  | .header _ _ _ _ _ _ => 0x80
  | .sigR _ _ => 0x81
  | .sigS _ _ => 0x82
  | .book out _ => out
def recData : RecBody → Bytes
  | .meter _ tend idur qual regs => natLE 6 tend ++ natLE 4 idur ++ natLE 2 qual ++ regsBytes regs
  | .link tend prior tag reason => natLE 6 tend ++ natLE 6 prior ++ fit 12 tag ++ natLE 1 reason ++ List.replicate 17 0
  | .header first count cause keyGen signer root =>
    natLE 6 first ++ natLE 2 (count + 2 ^ 13 * cause) ++ natLE 1 keyGen ++ natLE 1 signer ++ fit 32 root
  | .sigR close r => time80 close ++ fit 32 r
  | .sigS hdr sv => natLE 6 hdr ++ [0, 0, 0, 0] ++ fit 32 sv
  | .book _ data => fit 42 data

/-- Bytes 0x00 to 0x33 of a record. -/
def recHead (seq who : Nat) (b : RecBody) : Bytes :=
  natLE 6 seq ++ natLE 3 (who % 2 ^ 22 + recKind b * 2 ^ 22) ++ natLE 1 (recOut b) ++ recData b

/-- The 64 bytes of a record. -/
def recBytes (r : ArchRec) : Bytes := recHead r.seq r.who r.body ++ fit 12 r.tag

/-- TAG under an archive key (R158). -/
def tagWith (key : Bytes) (bay : Nat) (head : Bytes) : Bytes :=
  (gcmTag key (head.take 6 ++ natLE 1 bay ++ [0, 0, 0, 0, 0]) head []).take 12

/-! ### Merkle trees (R163, R169) -/

/-- Hash of a leaf and of an interior node. -/
def leafHash (b : Bytes) : Bytes := sha256 (0 :: b)
def nodeHash (l r : Bytes) : Bytes := sha256 (1 :: (l ++ r))

/-- The largest power of two below `n` (for n of at least 2). -/
def splitAt2 (n : Nat) : Nat := 2 ^ Nat.log2 (n - 1)

/-- Tree hash of leaf hashes; `fuel` bounds the depth. -/
def treeHash : Nat → List Bytes → Bytes
  | _, [] => sha256 []
  | _, [x] => x
  | 0, _ => []
  | fuel + 1, l =>
    let k := splitAt2 l.length
    nodeHash (treeHash fuel (l.take k)) (treeHash fuel (l.drop k))

/-- Inclusion path of leaf `i`, from the leaf upward. -/
def treePath : Nat → Nat → List Bytes → List Bytes
  | _, _, [] => []
  | _, _, [_] => []
  | 0, _, _ => []
  | fuel + 1, i, l =>
    let k := splitAt2 l.length
    if i < k then treePath fuel i (l.take k) ++ [treeHash fuel (l.drop k)]
    else treePath fuel (i - k) (l.drop k) ++ [treeHash fuel (l.take k)]

/-! ### Streams (R152) -/

/-- Change a tile's Lehr. -/
def State.onLehr (s : State) (t : TileId) (f : Lehr → Lehr) : State := s.onVol t fun v => { v with lehr := f v.lehr }

/-- The stream that a tile issues when it serves: 1 for the odd tile of an independent bay. -/
def State.streamOf (s : State) (t : TileId) : Nat := if s.independent t then t.val % 2 else 0

/-- Starting value of a stream, and the stream of a SEQ. -/
def streamStart (k : Nat) : Nat := if k = 0 then 1 else 2 ^ 47 + 1
def seqStream (q : Nat) : Nat := q / 2 ^ 47 % 2

/-- A stream of a tile. -/
def Lehr.stream (l : Lehr) (k : Nat) : StreamSt := if k = 0 then l.stream0 else l.stream1

/-- Change a stream. -/
def State.onStream (s : State) (t : TileId) (k : Nat) (f : StreamSt → StreamSt) : State :=
  s.onLehr t fun l => if k = 0 then { l with stream0 := f l.stream0 } else { l with stream1 := f l.stream1 }

/-- Archive records of a stream on the tile's ring. -/
def Media.arch (m : Media) (k : Nat) : Tbl ArchEnt := if k = 0 then m.arch0 else m.arch1

/-- Discarded ranges of a stream, and its retained floor. -/
def Media.disc (m : Media) (k : Nat) : List (Nat × Nat) := if k = 0 then m.disc0 else m.disc1
def Media.floor (m : Media) (k : Nat) : Nat := if k = 0 then m.floor0 else m.floor1

/-- A SEQ has been discarded. -/
def Media.discarded (m : Media) (q : Nat) : Bool := (m.disc (seqStream q)).any fun d => decide (d.1 ≤ q) && decide (q ≤ d.2)

/-- Every record of a stream that the tile holds, in SEQ order: on the ring, queued at the FTL, in Lehr's page buffer. -/
def State.held (s : State) (t : TileId) (k : Nat) : List ArchRec :=
  let m := (s.tile t).media
  let jobs := m.jobs.flatMap fun j => match j.2 with
    | .archive _ l => l
    | _ => []
  let late := (jobs ++ (s.vol t).lehr.page).filter fun r => decide (seqStream r.seq = k)
  ((late.foldl (fun (l : Tbl ArchRec) r => Tbl.put l r.seq r) ((m.arch k).map fun e => (e.1, e.2.ent))).vals).filter fun r => !m.discarded r.seq

/-- A record held under a SEQ. -/
def State.heldRec (s : State) (t : TileId) (q : Nat) : Option ArchRec :=
  let m := (s.tile t).media
  if m.discarded q then none
  else match Tbl.get (m.arch (seqStream q)) q with
    | some e => some e.ent
    | none =>
      match (s.vol t).lehr.page.find? fun r => decide (r.seq = q) with
      | some r => some r
      | none => m.jobs.findSome? fun j => match j.2 with
        | .archive _ l => l.find? fun r => decide (r.seq = q)
        | _ => none

/-- A complete closure group: HEADER, SIG_R and SIG_S. -/
structure Closure where
  h : ArchRec
  r : ArchRec
  s : ArchRec
  first : Nat
  count : Nat
  cause : Nat
  keyGen : Nat
  signer : Nat
  root : Bytes
  deriving DecidableEq, Repr

/-- The closure group that a HEADER record begins, when its three members are held. -/
def closureAt (find : Nat → Option ArchRec) (h : ArchRec) : Option Closure :=
  match h.body, find (h.seq + 1), find (h.seq + 2) with
  | .header first count cause kg sg root, some r, some x =>
    match r.body, x.body with
    | .sigR _ _, .sigS _ _ => some { h := h, r := r, s := x, first := first, count := count, cause := cause, keyGen := kg, signer := sg
                                     root := root }
    | _, _ => none
  | _, _, _ => none

/-- The complete closure groups that a tile holds of a stream, by SEQ. -/
def State.closures (s : State) (t : TileId) (k : Nat) : List Closure :=
  let l := s.held t k
  l.filterMap fun r => closureAt (fun q => l.find? fun x => decide (x.seq = q)) r

/-- A SEQ lies in a gap that a HEADER declares (R156). -/
def inGap (cs : List Closure) (q : Nat) : Bool := cs.any fun c => decide (c.first + c.count ≤ q) && decide (q < c.h.seq)

/-- Strays of a stream (R168). -/
def State.strays (s : State) (t : TileId) (k : Nat) : Nat :=
  let cs := s.closures t k
  (s.held t k).countP fun r => inGap cs r.seq

/-- The records held of a stream that are no strays: those that may be mirrored and fed to G9 (R168). -/
def State.archived (s : State) (t : TileId) (k : Nat) : List ArchRec :=
  let cs := s.closures t k
  (s.held t k).filter fun r => !inGap cs r.seq

/-- The records held of a stream but for the members of a closure group that was only partly programmed (R167). -/
def State.whole (s : State) (t : TileId) (k : Nat) : List ArchRec :=
  let l := s.held t k
  let cs := s.closures t k
  l.filter fun r => match r.body with
    | .header _ _ _ _ _ _ => cs.any fun c => decide (c.h.seq = r.seq)
    | .sigR _ _ => cs.any fun c => decide (c.h.seq + 1 = r.seq)
    | .sigS _ _ => cs.any fun c => decide (c.h.seq + 2 = r.seq)
    | _ => true

/-- H of R155: the highest SEQ of a stream that a tile holds. -/
def State.highSeq (s : State) (t : TileId) (k : Nat) : Nat := (s.whole t k).foldl (fun a r => max a r.seq) 0

/-! ### Issuing (R153, R154, R158, R163, R178, R180) -/

/-- Queue the page buffer to the FTL. -/
def State.flushPage (s : State) (t : TileId) : State :=
  match (s.vol t).lehr.page with
  | [] => s
  | r :: l =>
    let s := s.onLehr t fun x => { x with page := [], pageFirst := none }
    s.queueJob t (.archive (seqStream r.seq) (r :: l))

/-- Archive one record under the next SEQ of a stream: tagged, hashed, placed in the page buffer, delivered at G9, and placed in the
mirror stream. -/
def State.issue (s : State) (t : TileId) (k who : Nat) (b : RecBody) : State × ArchRec :=
  let q := ((s.vol t).lehr.stream k).next
  let head := recHead q who b
  let u := s.useSlot t 6
  let tag := match u.2 with
    | some key => tagWith key (t.val / 2) head
    | none => (Config.noKeyTag head).take 12
  let r : ArchRec := { seq := q, who := who, body := b, tag := tag }
  let s := u.1.onStream t k fun x => { x with next := q + 1, leaves := x.leaves ++ [leafHash (recBytes r)] }
  let s := s.onLehr t fun l => { l with page := l.page ++ [r], pageFirst := if l.page = [] then some s.now else l.pageFirst }
  let s := if 256 ≤ (s.vol t).lehr.page.length then s.flushPage t else s
  let s := (((s.qWrite t 1 (.record r)).qWrite t 2 (.record r)).qWrite t 3 (.record r)).bump Reg.lehr_records_out t
  (s.mirror t (.record r), r)

/-- Close the open batch of a stream (R160 to R166): the closure group takes the SEQs from `start` on and becomes the first three
leaves of the next batch. COUNT runs from FIRST_SEQ to the highest SEQ, ROOT over the leaves held. -/
def State.closeAt (s : State) (t : TileId) (k start cause : Nat) : State :=
  let x := (s.vol t).lehr.stream k
  let who := (t.val / 2) * 2 ^ 19 + k * 2 ^ 18
  let kg := (s.vol t).lehr.archGen % 16 + 16 * ((s.vol t).lehr.signGen % 16)
  let root := treeHash 16 x.leaves
  let close := s.whenNs t
  let count := x.next - x.openFirst
  let head := recHead start who (.header x.openFirst count cause kg t.val root)
  let u := s.useSlot t 7
  let sg := match u.2 with
    | some d => ecdsaSign (beNat d) (head ++ time80 close)
    | none => fit 64 (Config.noKeyTag head)
  let s := u.1.onStream t k fun y => { y with next := start, openFirst := start, carried := 3, leaves := [] }
  let s := (s.issue t k who (.header x.openFirst count cause kg t.val root)).1
  let s := (s.issue t k who (.sigR close (sg.take 32))).1
  let s := (s.issue t k who (.sigS start (sg.drop 32))).1
  s.bump Reg.lehr_batches_closed t

/-- Close the open batch at the next SEQ. -/
def State.closeBatch (s : State) (t : TileId) (k cause : Nat) : State :=
  s.closeAt t k ((s.vol t).lehr.stream k).next cause

/-- The open batch holds a leaf other than carried leaves. -/
def StreamSt.used (x : StreamSt) : Bool := decide (x.carried < x.leaves.length)

/-! ### Taking up a stream (R155, R166, R167, R691) -/

/-- The Punty's mark of a stream (R691). -/
def Tile.mark (x : Tile) (k : Nat) : Nat := if k = 0 then x.marks.1 else x.marks.2

/-- Set the retained floor of a stream. -/
def State.setFloor (s : State) (t : TileId) (k q : Nat) : State :=
  s.onMedia t fun m => if k = 0 then { m with floor0 := q } else { m with floor1 := q }

/-- TAG of a record verifies under a generation of the archive key. -/
def State.tagGood (s : State) (t : TileId) (g : Nat) (r : ArchRec) : Bool :=
  match s.openPlace t (archPlace g) with
  | some k => decide (tagWith k (t.val / 2) (recHead r.seq r.who r.body) = fit 12 r.tag)
  | none => false

/-- The generation that tagged the leaves of an open batch: that under which its first leaf behind the carried ones verifies, else
the current one (R159). -/
def State.openGen (s : State) (t : TileId) (leaves : List ArchRec) : Nat :=
  let cur := (s.archGen t).getD (s.vol t).lehr.archGen
  match leaves.head? with
  | some r => if s.tagGood t cur r then cur else ((List.range 16).find? fun g => s.tagGood t g r).getD cur
  | none => cur

/-- Close an orphan batch past H under the generation that tagged it; the current generation is used from the next record on
(R159, R166). -/
def State.closeOrphan (s : State) (t : TileId) (k high cause : Nat) (leaves : List ArchRec) : State :=
  let cur := (s.vol t).lehr.archGen
  let g := s.openGen t leaves
  let close := fun (s : State) => ((s.closeAt t k (high + 32769) cause).bump Reg.lehr_orphan_closes t).event t 0 0x1203 0 (high + 32769)
  if g = cur then close s
  else (close ((s.loadSlot t 6 (archPlace g)).onLehr t fun x => { x with archGen := g }) |>.loadSlot t 6 (archPlace cur)).onLehr t
    fun x => { x with archGen := cur }

/-- Take up issuing on a stream: CAUSE `cause` names an orphan closure; 2 stands for a change of mode, after which a stream whose open batch holds only carried leaves goes on
without a new closure (R157). -/
def State.takeUp (s : State) (t : TileId) (k cause : Nat) : State :=
  let cs := s.closures t k
  let whole := s.whole t k
  let s := s.onLehr t fun x => { x with archGen := (s.archGen t).getD x.archGen, signGen := (s.archGen t).getD x.signGen }
  match whole.getLast? with
  | none =>
    let mark := (s.tile t).mark k
    let start := if mark = 0 then streamStart k else mark + 32768
    let s := if mark = 0 then s else s.setFloor t k start
    s.onStream t k fun _ => { next := start, openFirst := start, carried := 0, leaves := [], issuing := true }
  | some top =>
    let h := top.seq
    let last := cs.getLast?
    let first := match last with
      | some c => c.h.seq
      | none => (whole.head?.map ArchRec.seq).getD h
    let open_ := whole.filter fun r => decide (first ≤ r.seq)
    let leaves := open_.map fun r => leafHash (recBytes r)
    let carried := if last.isSome then 3 else 0
    let st : StreamSt := { next := h + 1, openFirst := first, carried := carried, leaves := leaves, issuing := true }
    let s := s.onStream t k fun _ => st
    match last with
    | some c =>
      if (c.cause = 2 ∨ cause = 2) ∧ c.s.seq = h then s
      else s.closeOrphan t k h cause (open_.drop 3)
    | none => s.closeOrphan t k h cause open_

/-- Stop issuing on every stream. -/
def State.stopIssuing (s : State) (t : TileId) : State :=
  (s.onStream t 0 fun x => { x with issuing := false }).onStream t 1 fun x => { x with issuing := false }

/-- The stream that a tile issues, when it does. -/
def State.issuing (s : State) (t : TileId) : Option Nat :=
  if (s.vol t).lehr.stream0.issuing then some 0 else if (s.vol t).lehr.stream1.issuing then some 1 else none

/-- The current generations of the archive key and of the signing key: those that Lehr uses while it issues, else those of the bay
key table. -/
def State.lehrGens (s : State) (t : TileId) : Nat × Nat :=
  if (s.issuing t).isSome then ((s.vol t).lehr.archGen, (s.vol t).lehr.signGen)
  else ((s.archGen t).getD 0, (s.archGen t).getD 0)

end Sys2Proof.Machine
end

