-- ==== Sys2Proof/Machine/Queues.lean ====
section
/-! DEFINITION. Queues.lean: chapter 18: the queue accesses as commands, the event logs, and the legal log. -/

namespace Sys2Proof.Machine

open Crypto

/-! ### Queue accesses (R578 to R586) -/

/-- QUEUE_WRITE (R579, R581, R582). -/
def execQueueWrite (t : TileId) (code : Fin 7) (item : QItem) (s : State) : Host.Outcome State Fault Refusal :=
  finish (fun s => s.qWrite t code item) s

/-- The 64 bytes of an event entry (R592), unused positions zero. -/
def eventBytes (e : Event) : Bytes :=
  [0x81, BitVec.ofNat 8 e.sev, BitVec.ofNat 8 e.wher, 0] ++ natLE 2 e.code ++ natLE 2 0 ++ natLE 8 e.eseq ++ time80 e.whenNs ++
    natLE 6 e.uptime ++ natLE 8 e.obj ++ natLE 8 e.a ++ natLE 8 e.b ++ natLE 8 0

/-- The bytes of a queue item. -/
def itemBytes : QItem → Bytes
  | .cullet b => fit 128 b
  | .record r => recBytes r
  | .ack _ _ _ b => fit 32 b
  | .sample b => fit 144 b
  | .event e => eventBytes e

/-- Item size per queue (R586). -/
def itemSize (code : Fin 7) : Nat := [128, 64, 64, 64, 32, 144, 64].getD code 0

/-- Read an item; an empty queue gives an item of zeros, whose VALID indication is clear (R580). -/
def queueRead (t : TileId) (code : Fin 7) (s : State) : State :=
  let r := s.qRead t code
  r.1.emit (.bytes t (match r.2 with
    | some x => itemBytes x
    | none => List.replicate (itemSize code) 0))

/-- QUEUE_READ (R579, R580). -/
def execQueueRead (t : TileId) (code : Fin 7) (s : State) : Host.Outcome State Fault Refusal := finish (queueRead t code) s

/-- Read the watermark status word and clear what the read clears (R585). -/
def State.wmRead (s : State) (t : TileId) (code : Fin 7) : State × Nat :=
  let q := s.queue t code
  (s.setQueue t code q.seen, q.word)

/-- The word returned. -/
def wmStatusRead (t : TileId) (code : Fin 7) (s : State) : State :=
  let r := s.wmRead t code
  r.1.emit (.value t r.2)

/-- WM_STATUS_READ (R584, R585). -/
def execWmStatusRead (t : TileId) (code : Fin 7) (s : State) : Host.Outcome State Fault Refusal := finish (wmStatusRead t code) s

/-! ### The event logs (R591 to R595) -/

/-- Take an event into a log of `cap` entries at clock count `now` with sequence number `eseq`: the log, whether it was suppressed, and
whether an entry not yet read was overwritten. Events of source DIAG are never suppressed (R639). -/
def EventLog.take (l : EventLog) (cap now eseq : Nat) (e : Event) : EventLog × Bool × Bool :=
  let recent := l.recent.filter fun x => decide (now < x.2.2.2 + 1000000000)
  if e.code / 256 ≠ 0x1E ∧ (recent.any fun x => x.1 == e.wher && x.2.1 == e.code && x.2.2.1 == e.obj) = true then ({ l with recent := recent }, true, false)
  else
    let e := { e with eseq := eseq, taken := now }
    let full := decide (cap ≤ l.entries.length)
    let lost := full && (match l.entries with
      | x :: _ => decide (l.readTo < x.eseq)
      | [] => false)
    ({ l with entries := (if full then l.entries.tail else l.entries) ++ [e],
              recent := recent ++ [(e.wher, e.code, e.obj, now)], unsent := l.unsent ++ [e] }, false, lost)

/-- The tile's log takes the next event of the tile event queue. -/
def tileEventLog (t : TileId) (s : State) : State :=
  let r := s.qRead t 6
  match r.2 with
  | some (.event e) =>
    let s := r.1
    let x := (s.vol t).elog.take 65536 s.now (s.rd Reg.events_next_eseq t) e
    let s := s.onVol t fun v => { v with elog := x.1 }
    if x.2.1 then s.bump Reg.events_suppressed t
    else
      let s := s.wr Reg.events_next_eseq t (s.rd Reg.events_next_eseq t + 1)
      if x.2.2 then s.bump Reg.events_overwritten t else s
  | _ => r.1

/-- The Pier's log takes the next event of the Pier event queue. -/
def pierEventLog (s : State) : State :=
  let a := s.pier.evq.read 96
  let s := s.onPier fun p => { p with evq := a.q }
  let s := if a.lost = 0 then s else s.bump Reg.device_events_queue_lost 0 0 a.lost
  match a.item with
  | some e =>
    let x := s.pier.elog.take 4096 s.now (s.rd Reg.device_events_next_eseq 0) e
    let s := s.onPier fun p => { p with elog := x.1 }
    if x.2.1 then s.bump Reg.device_events_suppressed 0
    else
      let s := s.wr Reg.device_events_next_eseq 0 (s.rd Reg.device_events_next_eseq 0 + 1)
      if x.2.2 then s.bump Reg.device_events_overwritten 0 else s
  | none => s

/-- One event is logged: of a tile, or of the Pier. -/
def eventLog (w : Option TileId) (s : State) : State := match w with
  | some t => tileEventLog t s
  | none => pierEventLog s

/-- EVENT_LOG (R591, R592, R594). -/
def execEventLog (w : Option TileId) (s : State) : Host.Outcome State Fault Refusal := finish (eventLog w) s

/-- The entries of a block read: at most 16, in ESEQ order, from the oldest whose ESEQ is at least `start` (R595). -/
def EventLog.block (l : EventLog) (start : Nat) : List Event := (l.entries.filter fun e => decide (start ≤ e.eseq)).take 16

/-- Note the highest ESEQ that a read returned: an entry above it is unread (R591). -/
def EventLog.noteRead (l : EventLog) (b : List Event) : EventLog := { l with readTo := b.foldl (fun m e => max m e.eseq) l.readTo }

/-- Form the bytes of an event block and note what was read. -/
def State.eventsBlock (s : State) (w : Option TileId) : State × Bytes :=
  match w with
  | some t =>
    let b := (s.vol t).elog.block (s.rd Reg.events_read_from t)
    (s.onVol t fun v => { v with elog := v.elog.noteRead b }, fit 1024 (b.map eventBytes).flatten)
  | none =>
    let b := s.pier.elog.block (s.rd Reg.device_events_read_from 0)
    (s.onPier fun p => { p with elog := p.elog.noteRead b }, fit 1024 (b.map eventBytes).flatten)

/-- Unit number of an answer: a tile, or 255 for the device. -/
def unitOf : Option TileId → Nat
  | some t => t
  | none => 255

/-- The block returned. -/
def eventsReadBlock (w : Option TileId) (s : State) : State :=
  let r := s.eventsBlock w
  r.1.emit (.bytes (unitOf w) r.2)

/-- EVENTS_READ_BLOCK (R595). -/
def execEventsReadBlock (w : Option TileId) (s : State) : Host.Outcome State Fault Refusal := finish (eventsReadBlock w) s

/-! ### The legal log (R596 to R599) -/

/-- Bytes 0x00 to 0x2F of a legal log entry. -/
def legalHead (tile code lseq whenNs cnt : Nat) (data : Bytes) : Bytes :=
  [0x81, BitVec.ofNat 8 code, BitVec.ofNat 8 tile, 0] ++ natLE 4 lseq ++ time80 whenNs ++ natLE 2 cnt ++ fit 28 data

/-- The 64 bytes of an entry. -/
def legalBytes (tile : Nat) (e : LegalEnt) : Bytes := legalHead tile e.code e.lseq e.whenNs e.sealCnt e.data ++ fit 16 e.tag

/-- Write an entry: the caller has seen to it that the log holds fewer than 4 096. -/
def State.legalPut (s : State) (t : TileId) (code : Nat) (data : Bytes) : State :=
  let lseq := s.rd Reg.legal_next_lseq t
  let cnt := s.rd Reg.metro_seal_count t
  let head := legalHead t code lseq (s.whenNs t) cnt data
  let u := s.useSlot t 5
  let tag := match u.2 with
    | some k => cmac k head
    | none => fit 16 (Config.noKeyTag head)
  let e : LegalEnt := { code := code, lseq := lseq, whenNs := s.whenNs t, sealCnt := cnt, data := fit 28 data, tag := tag }
  (u.1.onTile t fun x => { x with legal := x.legal ++ [e] }).wr Reg.legal_next_lseq t (lseq + 1)

/-- The log is full (R598). -/
def State.legalFull (s : State) (t : TileId) : Bool := decide (4096 ≤ (s.tile t).legal.length)

/-- A legal event: an entry, or, on a full log, a count and EVENT_FLAGS bit 5 of the LOCAL record (R598). -/
def State.legalLog (s : State) (t : TileId) (code : Nat) (data : Bytes) : State :=
  if s.legalFull t then (s.bump Reg.legal_unlogged t).latchLocal t 5 else s.legalPut t code data

/-- LEGAL_EVENT (R598). -/
def execLegalEvent (t : TileId) (code : Nat) (data : Bytes) (s : State) : Host.Outcome State Fault Refusal :=
  finish (fun s => s.legalLog t code data) s

/-- `tile.legal.ack` (R599): one write of the head pointer, to the older of its two copies, releases the entries. An OVERFLOW entry can fill the log again:
the LOG_ACK is then an event that a full log counts (R598). -/
def legalAckDo (t : TileId) (lseq : Nat) (tag : Bytes) (s : State) : State × Status :=
  match (s.tile t).legal.find? fun e => decide (e.lseq = lseq) with
  | some e =>
    if e.tag ≠ tag then (s, .invalid)
    else
      let n := (s.tile t).legal.countP fun x => decide (x.lseq ≤ lseq)
      let s := s.onTile t fun x => { x with legal := x.legal.filter fun y => decide (lseq < y.lseq), legalHead := (x.legalHead.2, lseq) }
      let lost := s.rd Reg.legal_unlogged t
      let s := if lost = 0 then s else (s.legalPut t 0x0B (natLE 4 lost)).wr Reg.legal_unlogged t 0
      (s.legalLog t 0x0A (natLE 4 lseq ++ natLE 2 n), .ok)
  | none => (s, .invalid)

/-- The acknowledgement and its answer. -/
def legalAck (t : TileId) (lseq : Nat) (tag : Bytes) (s : State) : State :=
  let r := legalAckDo t lseq tag s
  r.1.answer t r.2

/-- LEGAL_ACK (R599). -/
def execLegalAck (t : TileId) (lseq : Nat) (tag : Bytes) (s : State) : Host.Outcome State Fault Refusal := finish (legalAck t lseq tag) s

/-- The legal log block from an LSEQ: at most 16 entries (R600). -/
def State.legalBlock (s : State) (t : TileId) : Bytes :=
  fit 1024 ((((s.tile t).legal.filter fun e => decide (s.rd Reg.legal_read_from t ≤ e.lseq)).take 16).map (legalBytes t)).flatten

end Sys2Proof.Machine
end

