-- ==== Sys2Proof/Machine/BalOps.lean ====
section
/-! DEFINITION. BalOps.lean: chapter 6: the segment tree, placement, energy of records by phase, BOOK records and theft evidence. -/

namespace Sys2Proof.Machine

/-- Change the Balance engine. -/
def State.onBal (s : State) (t : TileId) (f : Bal → Bal) : State := s.onVol t fun v => { v with bal := f v.bal }

/-! ### The segment tree (R196) -/

/-- A node entry. -/
structure TNode where
  parent : Nat
  flags : Nat
  phases : Nat
  rseg : Nat
  p0 : Nat
  head : Nat
  anchor : Nat
  vnom : Nat
  res : Nat
  deriving DecidableEq, Repr

/-- Read node `n` of a tree of bytes that differ from the default tree. -/
def treeNode (c : Cells) (n : Nat) : TNode :=
  let f := fun a len => leNat ((List.range len).map fun k => Cells.read (Reg.balance_tree.dflt.byteAt 0) c (32 * n + a + k))
  { parent := f 0 2, flags := f 2 1, phases := f 3 1, rseg := f 4 4, p0 := f 8 4, head := f 0x0C 4, anchor := f 0x10 8,
    vnom := f 0x18 2, res := f 0x1C 4 }

/-- IN_USE, HEAD, NO_PLACE. -/
def TNode.used (x : TNode) : Bool := bit x.flags 0
def TNode.isHead (x : TNode) : Bool := bit x.flags 1

/-- The nodes in use, rising: node 0 and those with a byte that differs from the default. -/
def treeNodes (c : Cells) : List Nat :=
  ((0 :: c.map fun e => e.1 / 32).eraseDups).filter fun n => (treeNode c n).used

/-- A node and its ancestors up to node 0, at most 16 of them. -/
def treeChain (c : Cells) : Nat → Nat → List Nat
  | 0, _ => []
  | fuel + 1, n => if n = 0 then [0] else n :: treeChain c fuel ((treeNode c n).parent % 4096)

/-- The head node of the zone of a node (R187). -/
def zoneOf (c : Cells) (n : Nat) : Nat :=
  ((treeChain c 16 n).find? fun m => decide (m = 0) || (treeNode c m).isHead).getD 0

/-- The zone heads. -/
def zoneHeads (c : Cells) : List Nat := (treeNodes c).filter fun n => decide (n = 0) || (treeNode c n).isHead

/-- The newest committed tree. -/
def State.tree (s : State) (t : TileId) : Cells := s.cells Reg.balance_tree t 0

/-- The tree of a book of B seconds that ends at T (R197). -/
def State.treeAt (s : State) (t : TileId) (T b : Nat) : Cells :=
  match (s.vol t).bal.oldTree with
  | some (c, g) => if T < g + b then c else s.tree t
  | none => s.tree t

/-- The tree in force: the newest one once it has taken effect. -/
def State.treeInForce (s : State) (t : TileId) : Cells :=
  match (s.vol t).bal.oldTree, (s.vol t).bal.effect with
  | some (c, _), some _ => c
  | _, _ => s.tree t

/-! ### Placement (R198) -/

/-- The node that R198 gives a meter in a tree, the automatic placement held aside. -/
def State.nodeIn (s : State) (t : TileId) (c : Cells) (midx : Nat) : Nat :=
  let r := s.meter t (midxSlot midx)
  if r.segment ≠ 0xFFFF then (if (treeNode c r.segment).used then r.segment else 0)
  else if r.path % 4 = 0 then
    match Tbl.get (s.vol t).bal.meters (midxSlot midx) with
    | some m => if (treeNode c m.node).used then m.node else 0
    | none => 0
  else 0

/-- The node in the newest tree. -/
def State.nodeOf (s : State) (t : TileId) (midx : Nat) : Nat := s.nodeIn t (s.tree t) midx

/-- The candidate node of a meter with a PLC route: the first device whose EUI-64 is the ANCHOR of a node in use without NO_PLACE. -/
def State.candidate (s : State) (t : TileId) (midx : Nat) : Nat :=
  let c := s.tree t
  let route := (Tbl.get (s.vol t).plc.route (midxSlot midx)).getD []
  let hit := fun eui => (treeNodes c).find? fun n =>
    decide ((treeNode c n).anchor = eui) && decide (eui ≠ 0) && !bit (treeNode c n).flags 2
  (route.findSome? hit).getD 0

/-! ### Energy of a record (R191, R192) -/

/-- The usable maps of a class for a BAL value: their places (R191). -/
def balMaps (maps : List RegMap) (bal : Nat) : List Nat :=
  (List.range maps.length).filter fun i => match maps[i]? with
    | some m => decide (m.bal = bal) && decide (m.unit = 30) && (decide (m.rkind = 0) || decide (m.rkind = 2))
    | none => false

/-- An energy class has a usable BAL 1 map. -/
def State.energyClass (s : State) (t : TileId) (c : Nat) : Bool := !(balMaps (s.maps t c) 1).isEmpty

/-- A raw value in mWh, truncated toward zero. -/
def milliWh (v scaler : Int) : Int :=
  if -3 ≤ scaler then v * 10 ^ (scaler + 3).toNat else v.tdiv (10 ^ (-(scaler + 3)).toNat)

/-- The phase of a single map (R192): 1 to 3, or 0 for thirds. -/
def State.singlePhase (s : State) (t : TileId) (r : MeterRec) : Nat :=
  if s.clsKind t r.cls = 1 then 0
  else if r.phase % 4 ≠ 0 ∧ (bit r.phase 3 = true ∨ s.rd Reg.balance_phase_conf_min t ≤ r.phaseConf) then r.phase % 4
  else 0

/-- A meter splits energy of BAL 1 or BAL 2 into thirds although its class is not three-phase: it counts as unphased. -/
def State.unphased (s : State) (t : TileId) (r : MeterRec) : Bool :=
  let single := fun bal =>
    let l := balMaps (s.maps t r.cls) bal
    !l.isEmpty && decide (l.length ≠ 3)
  (single 1 || single 2) && !decide (s.clsKind t r.cls = 1) && decide (s.singlePhase t r = 0)

/-- Split an amount over L1 to L3: a phase, or thirds with the remainder to L1. -/
def phaseSplit (ph : Nat) (v : Int) : List Int :=
  if ph = 1 then [v, 0, 0] else if ph = 2 then [0, v, 0] else if ph = 3 then [0, 0, v]
  else [v - 2 * v.tdiv 3, v.tdiv 3, v.tdiv 3]

/-- Add two lists of three. -/
def add3 (a b : List Int) : List Int := (List.range 3).map fun i => a.getD i 0 + b.getD i 0
def neg3 (a : List Int) : List Int := a.map fun x => -x

/-- Net energy by phase (mWh) of amounts given per map place, over maps of one RKIND (R191, R192). -/
def State.netEnergy (s : State) (t : TileId) (r : MeterRec) (rkind : Nat) (amount : Nat → Int) : List Int :=
  let maps := s.maps t r.cls
  let side := fun bal =>
    let l := balMaps maps bal
    let mwh := fun i => match maps[i]? with
      | some m => if m.rkind = rkind then milliWh (amount i) m.scaler else 0
      | none => 0
    match l with
    | [a, b, c] => [mwh a, mwh b, mwh c]
    | a :: _ => phaseSplit (s.singlePhase t r) (mwh a)
    | [] => [0, 0, 0]
  add3 (side 1) (neg3 (side 2))

/-! ### BOOK records (R207, R208) -/

/-- Bytes 0x0A on of a BOOK record of a kind. -/
def bookOf (out : Nat) (r : ArchRec) : Option Bytes := match r.body with
  | .book o d => if o = out then some d else none
  | _ => none

/-- TEND and IDUR of the newest TICK record that a tile holds of a stream. -/
def State.newestTick (s : State) (t : TileId) (k : Nat) : Option (Nat × Nat) :=
  ((s.archived t k).filterMap (bookOf 0x83)).getLast?.map fun d => (fld d 0 6, fld d 6 4)

/-- B of the books in force: before the rebuild that of the newest TICK record, else the setting (R219). -/
def State.bookB (s : State) (t : TileId) : Nat :=
  if (s.vol t).bal.ready then (s.vol t).bal.b
  else ((s.newestTick t (s.streamOf t)).map Prod.snd).getD (s.rd Reg.balance_interval t)

/-- The tree of now becomes the previous one: books begun before the first grid point that follows keep it, where the new one takes effect
(R197, R217). -/
def State.treeChange (s : State) (t : TileId) : State :=
  let g := gridAbove (s.rd Reg.gather_grid_phase t) (s.bookB t) (s.timeSec t)
  s.onBal t fun x => { x with oldTree := some (s.tree t, g), effect := some g }

/-- WHO[21:0] of a BOOK record. -/
def bookWho (t : TileId) (stream ph node : Nat) : Nat := (t.val / 2) * 2 ^ 19 + stream * 2 ^ 18 + ph * 2 ^ 16 + node

/-- Bytes 0x0A to 0x33 of a BOOK record. -/
def bookData (tend idur qual : Nat) (rest : Bytes) : Bytes := natLE 6 tend ++ natLE 4 idur ++ natLE 2 qual ++ fit 30 rest

/-- Hand Lehr a BOOK record as a group of its own (R201). -/
def State.book (s : State) (t : TileId) (ph node out tend b qual : Nat) (rest : Bytes) : State :=
  s.onLehr t fun l => { l with inq := l.inq ++ [.book (bookWho t (s.streamOf t) ph node) out (bookData tend b qual rest)] }

/-! ### Evidence (R214, R215) -/

/-- What a node holds. -/
def State.bnode (s : State) (t : TileId) (n : Nat) : BNode := (Tbl.get (s.vol t).bal.nodes n).getD BNode.zero

/-- Change a node. -/
def State.onNode (s : State) (t : TileId) (n : Nat) (f : BNode → BNode) : State :=
  s.onBal t fun b => { b with nodes := Tbl.put b.nodes n (f ((Tbl.get b.nodes n).getD BNode.zero)) }

/-- Whole points of a node. -/
def BNode.points (x : BNode) : Nat := min (x.ev / 256) 65535

/-- The grid point at or above a second. -/
def gridAt (phase idur sec : Nat) : Nat := if onGrid phase idur sec then sec else gridAbove phase idur sec

/-- B of the book interval that a second lies in: a change of grid has the old grid up to T_x (R219). -/
def State.bookBAt (s : State) (t : TileId) (sec : Nat) : Nat :=
  match (s.vol t).bal.grid with
  | some g => if sec ≤ g.tx then g.bOld else s.bookB t
  | none => s.bookB t

/-- End of the book interval that a time lies in. -/
def State.bookEnd (s : State) (t : TileId) (sec : Nat) : Nat := gridAt (s.rd Reg.gather_grid_phase t) (s.bookBAt t sec) sec

/-- What an EVIDENCE record tells of its occurrence: EKIND, the meter, device or relay, and TEND. -/
def seenIn (r : ArchRec) : Option (Nat × Nat × Nat) :=
  (bookOf 0x86 r).map fun d =>
    let k := fld d 15 1
    (k, if k = 5 then fld d 22 8 else if k = 6 then fld d 18 4 else fld d 12 3, fld d 0 6)

/-- An occurrence of evidence: it adds WEIGHT points and archives one EVIDENCE record; a repeat of the same kind for the same meter or device in the
same book interval does neither; before its rebuild the engine knows it from the archive. `who` names the meter (0x3FFFFF for none), `device` the EUI-64
of EKIND 5. -/
def State.evidence (s : State) (t : TileId) (ekind node who value device : Nat) : State :=
  let b := s.bookBAt t (s.timeSec t)
  let T := s.bookEnd t (s.timeSec t)
  let obj := if ekind = 5 then device else if ekind = 6 then value else who
  let x := (s.vol t).bal
  let held := if x.ready then [] else (s.archived t (s.streamOf t)).filterMap seenIn
  let seen := (x.seen ++ held).filter fun x => decide (x.2.2 = T)
  if !s.serves t then s
  else if seen.any fun x => x.1 == ekind && x.2.1 == obj then s
  else
    let w := s.rd Reg.balance_weight t ekind
    let s := s.onBal t fun b => { b with seen := seen ++ [(ekind, obj, T)] }
    let s := s.onNode t node fun x => { x with ev := min (x.ev + 256 * w) (2 ^ 32 - 1) }
    let rest := natLE 3 who ++ natLE 1 ekind ++ natLE 2 w ++ natLE 4 value ++ natLE 8 (if ekind = 5 then device else 0) ++
      natLE 2 (s.bnode t node).points
    (s.book t 0 node 0x86 T b 1 rest).bump Reg.balance_evidence_records t

/-- Evidence about a meter, charged to its node. -/
def State.meterEvidence (s : State) (t : TileId) (ekind midx value : Nat) : State :=
  s.evidence t ekind (s.nodeOf t midx) midx value 0

/-- A meter reports a magnetic event (0) or a cover or terminal opening (1): TAMPER_CNT, EVENT_FLAGS and evidence (R214, R248). -/
def State.meterTamper (s : State) (t : TileId) (midx kind : Nat) : State :=
  let slot := midxSlot midx
  let s := s.fieldsMeter t slot fun r => { r with tamperCnt := min (r.tamperCnt + 1) 255, eventFlags := setBit r.eventFlags kind true }
  s.meterEvidence t (1 + kind) midx (s.meter t slot).tamperCnt

/-- The events that an opened frame of a meter reports: bit 0 magnetic, bit 1 cover. -/
def State.meterReports (s : State) (t : TileId) (midx report : Nat) : State :=
  let s := if bit report 0 then s.meterTamper t midx 0 else s
  if bit report 1 then s.meterTamper t midx 1 else s

end Sys2Proof.Machine
end

