-- ==== Sys2Proof/Machine/Judge.lean ====
section
/-! DEFINITION. Judge.lean: Marver's pass as a function of its inputs alone (R115 to R133, R146), which the shadow audit runs a
second time. -/

namespace Sys2Proof.Machine

/-- A rule entry (R118). -/
structure Rule where
  raw : Nat
  kind : Nat
  action : Nat
  regA : Nat
  regB : Nat
  opt : Nat
  src : Nat
  p1 : Int
  p2 : Int
  deriving DecidableEq, Repr

/-- Read a rule entry of 16 bytes. -/
def Rule.parse (b : Bytes) : Rule :=
  let v := fld b 0 16
  { raw := v, kind := v / 2 ^ 124, action := v / 2 ^ 122 % 4, regA := v / 2 ^ 119 % 8, regB := v / 2 ^ 116 % 8
    opt := v / 2 ^ 114 % 4, src := v / 2 ^ 104 % 64, p1 := toSigned 40 (v / 2 ^ 40 % 2 ^ 40), p2 := toSigned 40 (v % 2 ^ 40) }

/-- What a commit requires of an entry (R118, R119, R122). -/
def Rule.ok (r : Rule) : Bool :=
  let le := fun (a b : Int) => decide (a ≤ b)
  if r.kind = 0 then decide (r.raw = 0)
  else
    decide (r.kind ≤ 7) && decide (r.raw / 2 ^ 110 % 16 = 0) && decide (r.raw / 2 ^ 80 % 2 ^ 24 = 0) &&
    (if r.kind = 4 ∨ r.kind = 5 then decide (r.regA = 0) else decide (r.regA ≤ 5)) &&
    (if r.kind = 7 then decide (r.regB ≤ 5) && decide (r.opt ≤ 2)
     else decide (r.regB = 0) && (if r.kind = 5 then decide (r.opt ≤ 1) else decide (r.opt = 0))) &&
    (match r.kind with
     | 1 => decide (r.action ≤ 1) && le r.p1 r.p2
     | 2 => decide (r.action ≤ 2) && le r.p1 r.p2 && le 0 r.p2
     | 3 => decide (r.action ≤ 2) && le 0 r.p1 && le 0 r.p2
     | 4 => (decide (r.action = 1) || decide (r.action = 2)) && le 0 r.p1 && le r.p1 96 && decide (r.p2 = 0)
     | 5 => decide (r.action ≤ 1) && le (-32767) r.p1 && le r.p1 r.p2 && le r.p2 32767
     | 6 => decide (r.action ≤ 1) && le 0 r.p1 && le r.p1 1000000 && le 0 r.p2 && le r.p2 1000000
     | _ => decide (r.action ≤ 1) && decide (r.p2 = 0) && (decide (r.opt = 0) || le 0 r.p1))

/-- The 32 entries of a rule set; none for RULESET 0xFF (R117). -/
def State.rules (s : State) (t : TileId) (set : Nat) : List Rule :=
  if set ≤ 63 then (List.range 32).map fun i => Rule.parse (s.rdB Reg.marver_rule_table t (512 * set + 16 * i) 16) else []

/-- The inputs of R115. -/
structure JudgeIn where
  rd : Opened
  lastTend : Nat
  lastReg : List Int
  phase : Nat
  rc : Nat
  maps : List RegMap
  rules : List Rule
  vf : Option Nat

/-- What the pass yields: failing rules by rising index, skips, what it counted, outcome, detail, the group, and the rollover
bit of each register (R270). -/
structure Judged where
  fails : List Nat
  skips : Nat
  fillRefused : Nat
  spikes : Nat
  rollovers : Nat
  outcome : Nat
  detail : Nat
  group : List PreRec
  rolls : Nat
  deriving DecidableEq, Repr

/-- Map `i` of a class. -/
def JudgeIn.map_ (j : JudgeIn) (i : Nat) : RegMap :=
  j.maps.getD i { classId := 0, obis := [], attr := 0, scaler := 0, unit := 0, rkind := 0, roll := 0, bal := 0 }

/-- Register values, archived and before. -/
def JudgeIn.v (j : JudgeIn) (i : Nat) : Int := j.rd.regs.getD i 0
def JudgeIn.l (j : JudgeIn) (i : Nat) : Int := j.lastReg.getD i 0

/-- History, n and g of R121. -/
def JudgeIn.hist (j : JudgeIn) : Bool := decide (j.lastTend ≠ 0) && decide (j.lastTend < j.rd.tend)
def JudgeIn.n (j : JudgeIn) : Nat :=
  if j.hist then min 65535 (max 1 ((j.rd.tend - j.lastTend) / j.rd.idur)) else 1
def JudgeIn.g (j : JudgeIn) : Option Nat :=
  if j.hist && decide ((j.rd.tend - j.lastTend) % j.rd.idur = 0) then some (j.n - 1) else none

/-- The rules that apply to the reading's source, with their indices (R118, R125). -/
def JudgeIn.live (j : JudgeIn) : List (Nat × Rule) :=
  ((List.range 32).zip j.rules).filter fun p => decide (p.2.kind ≠ 0) && bit p.2.src j.rd.source

/-- The index of the rule that recognises a rollover of register `a` (R123). -/
def JudgeIn.rolled (j : JudgeIn) (a : Nat) : Option Nat :=
  let m := j.map_ a
  if decide (a < j.rc) && decide (m.rkind = 0) && decide (0 < m.roll) && j.hist then
    match j.live.find? fun p => decide (p.2.kind = 3) && decide (p.2.action = 2) && decide (p.2.regA = a) with
    | some p =>
      let d := j.v a - j.l a
      let e := d + (10 ^ m.roll : Nat)
      if d < -p.2.p1 ∧ 0 ≤ e ∧ e ≤ p.2.p2 * j.n then some p.1 else none
    | none => none
  else none

/-- d and q of R121. -/
def JudgeIn.d (j : JudgeIn) (a : Nat) : Int :=
  j.v a - j.l a + (if (j.rolled a).isSome then ((10 ^ (j.map_ a).roll : Nat) : Int) else 0)
def JudgeIn.q (j : JudgeIn) (a : Nat) : Int := if (j.map_ a).rkind = 0 then j.d a else j.v a

/-- Vm in mV, truncated toward zero (R124). -/
def milliVolts (v scaler : Int) : Int :=
  let e := scaler + 3
  if 0 ≤ e then v * (10 ^ e.toNat : Nat) else v.tdiv (10 ^ (-e).toNat : Nat)

/-- A rule that applies: skipped (none), or whether it failed (R122 to R125). -/
def JudgeIn.eval (j : JudgeIn) (i : Nat) (r : Rule) : Option Bool :=
  let a := r.regA
  let rk := fun x => (j.map_ x).rkind
  let need := decide (r.kind = 2) || decide (r.kind = 3) || decide (r.kind = 4) ||
    (decide (r.kind = 7) && (decide (rk a = 0) || decide (rk r.regB = 0)))
  if decide (j.rc ≤ a) || (decide (r.kind = 7) && decide (j.rc ≤ r.regB)) || (need && !j.hist) ||
      (decide (r.kind = 3) && decide (rk a ≠ 0)) then none
  else match r.kind with
    | 1 => some (decide (j.v a < r.p1) || decide (r.p2 < j.v a))
    | 2 => some (if rk a = 0 then decide (j.d a < r.p1 * j.n) || decide (r.p2 * j.n < j.d a)
                 else decide (r.p2 < (j.v a - j.l a).natAbs))
    | 3 => some (match j.rolled a with
        | some k => decide (k = i)
        | none => decide (j.d a < -r.p1))
    | 4 => some (match j.g with
        | some g => decide (1 ≤ g)
        | none => true)
    | 5 => some (decide (j.rd.capOfs < r.p1) || decide (r.p2 < j.rd.capOfs) || (bit r.opt 0 && bit j.rd.qual 8))
    | 6 =>
      match j.vf with
      | some vf =>
        if j.phase % 4 = 0 ∨ (j.map_ a).unit ≠ 35 ∨ (j.map_ a).bal ≠ 3 then none
        else
          let vm := milliVolts (j.v a) (j.map_ a).scaler
          some (decide ((vf : Int) + r.p1 < vm) || decide (vm < (vf : Int) - r.p2))
      | none => none
    | _ =>
      some (match r.opt with
        | 0 => decide (j.q r.regB + r.p1 < j.q a)
        | 1 => decide (r.p1 < (j.q a - j.q r.regB).natAbs)
        | _ => decide (r.p1 * j.n < j.q a + j.q r.regB))

/-- A failing rule that counts as REJECT (R122, R127). -/
def JudgeIn.rejects (j : JudgeIn) (i : Nat) (r : Rule) : Bool :=
  decide (r.action = 0) ||
  (decide (r.action = 2) && ((decide (r.kind = 2) && decide ((j.map_ r.regA).rkind = 0)) ||
    (decide (r.kind = 3) && !decide (j.rolled r.regA = some i))))

/-- One register of estimated record `k` of `g` (R131). -/
def JudgeIn.estimate (j : JudgeIn) (v : List Int) (g k x : Nat) : Int :=
  let m := j.map_ x
  if j.rc ≤ x then 0
  else match m.rkind with
    | 0 =>
      let e := j.l x + (j.d x * k) / (g + 1)
      if 0 < m.roll then e % (10 ^ m.roll : Nat) else e
    | 2 => (j.l x + v.getD x 0) / 2
    | _ => j.l x + ((v.getD x 0 - j.l x) * k) / (g + 1)

/-- The whole pass (R127 to R133). -/
def judge (j : JudgeIn) : Judged :=
  let ev := j.live.map fun p => (p, j.eval p.1 p.2)
  let bad := (ev.filter fun x => x.2 == some true).map Prod.fst
  let fails := bad.map Prod.fst
  let skips := ev.countP fun x => x.2.isNone
  let rolls := (List.range 6).foldl (fun a x => setBit a x (j.rolled x).isSome) 0
  match bad.find? fun p => j.rejects p.1 p.2 with
  | some p =>
    { fails := fails, skips := skips, fillRefused := 0, spikes := 0, rollovers := 0, outcome := 0x16, detail := 0x60 + p.1
      group := [], rolls := 0 }
  | none =>
    let spiked := (List.range 6).filter fun x =>
      decide ((j.map_ x).rkind ≠ 0) && bad.any fun p => decide (p.2.kind = 2) && decide (p.2.action = 2) && decide (p.2.regA = x)
    let v := (List.range 6).map fun x => if spiked.contains x then j.l x else j.v x
    let rolled := (List.range 6).countP fun x => (j.rolled x).isSome
    let fill := match bad.find? fun p => decide (p.2.kind = 4) && decide (p.2.action = 2) with
      | some p =>
        match j.g with
        | some g => if 1 ≤ g ∧ (g : Int) ≤ p.2.p1 then (g, 0) else (0, 1)
        | none => (0, 1)
      | none => (0, 0)
    let est := (List.range fill.1).map fun k =>
      ({ out := 1, tend := j.lastTend + (k + 1) * j.rd.idur, idur := j.rd.idur, qual := 2 + 2 ^ 9 * b2n (bit j.rd.qual 9)
         regs := (List.range 6).map (j.estimate v fill.1 (k + 1)) } : PreRec)
    let edited := !spiked.isEmpty || decide (0 < rolled)
    let valid := !bad.any fun p => decide (p.2.kind ≠ 4)
    let qual := j.rd.qual / 8 * 8 + b2n valid + 4 * b2n edited
    let out := if edited then 2 else 0
    { fails := fails, skips := skips, fillRefused := fill.2, spikes := spiked.length, rollovers := rolled, outcome := out
      detail := 0
      group := est ++ [{ out := out, tend := j.rd.tend, idur := j.rd.idur, qual := qual, regs := v }], rolls := rolls }

/-! ### The opened reading and the audit context as bytes (R103, R146) -/

/-- The audit context (R146). -/
def contextBytes (lastTend phase : Nat) (vf : Option Nat) (restate : Bool) (set cls ver : Nat) (lastReg : List Int) : Bytes :=
  natLE 6 lastTend ++ natLE 1 phase ++ natLE 1 (b2n vf.isSome + 2 * b2n restate) ++ natLE 1 set ++ natLE 1 cls ++
  natLE 2 ver ++ natLE 4 (vf.getD 0) ++ regsBytes lastReg ++ List.replicate 18 0

end Sys2Proof.Machine
end

