-- ==== Sys2Proof/Machine/Gather.lean ====
section
/-! DEFINITION. Gather.lean: chapter 3: relay envelopes, the intake, identification, the readings of a frame, the duplicate check,
and the acknowledgement of envelopes. -/

namespace Sys2Proof.Machine

/-! ### Envelopes (R78, R79, R81) -/

/-- The entries of an envelope: SYS_TITLE and APDU of each; none when the envelope fails the checks of R79. -/
def envEntries : Nat → Bytes → Option (List (Nat × Bytes))
  | 0, _ => some []
  | n + 1, b =>
    let len := fld b 8 2
    let pad := (12 + len + 3) / 4 * 4
    if b.length < 12 ∨ len = 0 ∨ 2048 < len ∨ b.length < pad then none
    else (envEntries n (b.drop pad)).map fun l => (fld b 0 8, (b.drop 12).take len) :: l

/-- A whole envelope: ENV_SEQ, FORCE_OLD and its entries. -/
def envParse (b : Bytes) : Option (Nat × Bool × List (Nat × Bytes)) :=
  let n := fld b 1 1
  if b.length < 16 ∨ 8192 < b.length ∨ fld b 0 1 ≠ 1 ∨ n = 0 ∨ 64 < n then none
  else (envEntries n (b.drop 16)).map fun l => (fld b 4 4, bit (fld b 2 2) 0, l)

/-- A READING frame of `len` bytes enters the pool for P5, with the frames that Gather will take from it; false when it was dropped (R369, R379). -/
def State.toGather (s : State) (t : TileId) (src len : Nat) (fr : List Frame) : State × Bool :=
  let i := srcInput src
  let w := s.sw t
  let ok := decide (i = 6) || (!w.waits i && (w.room i (cellsOf len) (s.rd Reg.sw_shared_max t)).isSome)
  (s.swStore t i 5 { cls := 2, len := len, cells := 0, shared := false, body := .intake fr }, s.portTakes t 5 && ok)

/-- Open an envelope that passed its checks and put its entries into the VOQ. -/
def State.openEnvelope (s : State) (t : TileId) (src sat peer len : Nat) (seq : Nat) (force : Bool) (l : List (Nat × Bytes)) : State :=
  let uid := (s.vol t).gather.nextEnv
  let fr := (l.zip (List.range l.length)).map fun x =>
    ({ source := src, addrKind := 0, satId := sat, forceOld := force, rfSecured := false, entry := x.2, addr := x.1.1
       arrival := s.arrivalAt t src, envSeq := seq, aad := [], apdu := x.1.2, env := uid } : Frame)
  let r := s.toGather t src len fr
  if r.2 then
    let e : EnvSt := { uid := uid, source := src, peer := peer, seq := seq, ended := l.map fun _ => none, mirror := 0, act := s.acts.now }
    r.1.onGather t fun g => { g with envs := g.envs ++ [e], nextEnv := uid + 1, injecting := if src = 2 then some uid else g.injecting }
  else r.1

/-- An ENVELOPE frame of a satellite link session arrives (R79, R381). -/
def envelope_ (t : TileId) (p : Fin 2) (frame : Bytes) (s : State) : State :=
  let r := s.linkRx t p frame
  match r.2 with
  | some x =>
    if x.type ≠ 0x10 then s
    else match x.sess.bind (Tbl.get (r.1.sw t).sess) with
      | none => r.1
      | some e =>
        if !r.1.portTakes t 5 then r.1.bump Reg.sw_drop_port_down t 5
        else match envParse x.payload with
          | none => r.1.bump Reg.gather_envelope_errors t
          | some (seq, force, l) =>
            let s := if force then r.1.bump Reg.gather_force_old_ignored t else r.1
            s.openEnvelope t p e.sat e.value frame.length seq false l
  | none => r.1

/-- ENVELOPE (R79). -/
def execEnvelope (t : TileId) (p : Fin 2) (frame : Bytes) (s : State) : Host.Outcome State Fault Refusal :=
  finish (envelope_ t p frame) s

/-- `tile.gather.inject` (R81). -/
def gatherInject (t : TileId) (s : State) : State :=
  if !s.serves t then s.answer t .notActive
  else if (s.vol t).gather.injecting.isSome ∨ !s.intakeOpen t then s.answer t .busy
  else
    let b := s.rdAll Reg.gather_inject_buffer t
    match envParse b with
    | none => (s.bump Reg.gather_envelope_errors t).answer t .invalid
    | some (seq, force, l) =>
      let len := l.foldl (fun a e => a + (12 + e.2.length + 3) / 4 * 4) 16
      (s.swCount t 6 2 (b.take len) len).openEnvelope t 2 0xFFFF 0 len seq force l

/-- GATHER_INJECT (R81). -/
def execGatherInject (t : TileId) (s : State) : Host.Outcome State Fault Refusal := finish (consuming t [Reg.gather_inject_buffer] (gatherInject t)) s

/-! ### G1 (R82, R85) -/

/-- The first READING frame that waits in a source's VOQ toward P5 for Gather: its place and itself. -/
def Switch.intakeHead (w : Switch) (src : Nat) : Option (Nat × SwFrame) :=
  let l := w.voq (srcInput src) 5 2
  (l.findIdx? fun f => !f.body.frames.isEmpty).bind fun k => (l[k]?).map fun f => (k, f)

/-- Gather may take from a source now: entries of a frame already taken, or, while the intake is open, a frame that has its credit (R371, R387). -/
def State.mayTake (s : State) (t : TileId) (src : Nat) : Bool :=
  !((s.vol t).gather.voq.getD src []).isEmpty ||
  (s.intakeOpen t && !(s.sw t).stopped.getD 5 false && ((s.sw t).intakeHead src).any fun x => decide (x.2.cells ≤ (s.sw t).credit.getD 5 0))

/-- The source that the weighted round robin takes next, with its place in the round (R82). -/
def Gather.pick (g : Gather) (has : Nat → Bool) (weight : Nat → Nat) : Option (Nat × Nat) :=
  if 0 < g.rrLeft ∧ has g.rrPos then some (g.rrPos, g.rrLeft - 1)
  else (((List.range 5).map fun k => (g.rrPos + 1 + k) % 5).find? has).map fun k => (k, weight k - 1)

/-- The conditions of R85: the slot's MIDX, or the detail of the first condition that fails. -/
def identify (s : State) (t : TileId) (f : Frame) : Except Nat Nat :=
  match (s.vol t).meters.lookup f.addrKind f.addr with
  | none => .error 0x01
  | some midx =>
    let r := s.meter t (midxSlot midx)
    if s.unsound t (midxSlot midx) then .error 0x02
    else if !(decide (f.source = 2) || (match r.path with
        | 0 => decide (f.source = 3)
        | 1 => decide (f.source = 4)
        | 2 => decide (f.source ≤ 1)
        | _ => false)) then .error 0x03
    else if f.source ≤ 1 ∧ f.satId = 0xFFFF then .error 0x04
    else if f.source ≤ 1 ∧ f.satId ≠ r.satId then .error 0x05
    else .ok midx

/-- MIDX_GEN for a Cullet entry: of the record that G1 found, if any. -/
def genOf (s : State) (t : TileId) (f : Frame) : Nat :=
  match (s.vol t).meters.lookup f.addrKind f.addr with
  | some m => (s.meter t (midxSlot m)).midxGen
  | none => 0xFFFFFFFF

/-- A reading of the MIDX is between the duplicate check and the end of G8. -/
def State.midxBusy (s : State) (t : TileId) (midx : Nat) : Bool :=
  let v := s.vol t
  (v.marver.inq.any fun r => decide (r.rd.midx = midx)) || v.lehr.inq.any fun g => decide (g.midx? = some midx)

/-- Queue a row for its duplicate check; a row behind another of its MIDX counts a wait (R86). -/
def State.queueRow (s : State) (t : TileId) (r : Row) : State :=
  let wait := s.midxBusy t r.rd.midx || (s.vol t).gather.rows.any fun x => decide (x.rd.midx = r.rd.midx)
  let s := if wait then s.bump Reg.gather_midx_waits t else s
  s.onGather t fun g => { g with rows := g.rows ++ [r] }

/-- A response to a collection request over PLC or RF adapts the meter's row limit (R309, R357): one that ends with DATABLOCK, else a single APDU. -/
def State.collected (s : State) (t : TileId) (slot source : Nat) (apdu : Bytes) (datablock : Bool) : State :=
  let kind := if fld apdu 0 1 = 0xC4 ∧ fld apdu 2 1 % 16 < 8 then (if datablock then 2 else 1) else 0
  if source = 3 then
    let s := s.onVol t fun v => { v with plc := { v.plc with collect := v.plc.collect.heard slot (s.rd Reg.plc_rows_per_request t) kind } }
    if kind = 2 then s.bump Reg.plc_narrowed t else s
  else if source = 4 then
    s.onVol t fun v => { v with rf := { v.rf with collect := v.rf.collect.heard slot (s.rd Reg.rf_rows_per_request t) kind } }
  else s

/-- G2 to G5 of a frame that passed G1; RULESET and FLAGS of the class are those that G5 finds (R51). -/
def runFrame (s : State) (t : TileId) (x : Flight) : State :=
  let slot := midxSlot x.midx
  let rule := s.clsRuleset t (s.meter t slot).cls
  let flags := s.clsFlags t (s.meter t slot).cls
  let o := s.openFrame t x.midx x.frame x.slotBad
  match o.2 with
  | .error d => o.1.endFrame t x.frame x.gen d
  | .ok p =>
    let c := o.1.passCounters t x.midx p
    match c.2 with
    | .error d => c.1.endFrame t x.frame x.gen d
    | .ok w =>
      let rows := c.1.openRows t slot x.frame.source (p.ic.getD (p.fc.getD 0)) x.frame.arrival p.apdu
      let c := ((c.1.meterReports t x.midx x.report).collected t slot x.frame.source p.apdu (decide (rows = .error 0x46)), c.2)
      match rows with
      | .error d => (c.1.deferWaters t x.midx w.1 w.2).endFrame t x.frame x.gen d
      | .ok rows =>
        let fid := (c.1.vol t).gather.nextFrame
        let st : FrameSt := { fid := fid, midx := x.midx, env := x.frame.env, entry := x.frame.entry, left := rows.length, ic := w.1
                              fc := w.2 }
        let s := c.1.onGather t fun g => { g with frames := g.frames ++ [st], nextFrame := fid + 1 }
        s.each rows fun s r =>
          s.queueRow t { rd := r, direct := false, forceOld := x.frame.forceOld && decide (x.frame.source = 2), fid := fid, gen := x.gen
                         restate := none, replay := none, rule := rule, flags := flags }

/-- A frame toward P5 is dispatched for a source whose last frame Gather has taken whole: it leaves the pool, takes its credit (R371), and hands its entries over. Under
EGRESS_DELAY on P5 it waits first (R632). -/
def State.intakeFetch (s : State) (t : TileId) (src : Nat) : State :=
  if !((s.vol t).gather.voq.getD src []).isEmpty then s
  else match (s.sw t).intakeHead src with
    | none => s
    | some (k, f) =>
      let held : Bool := match (s.vol t).diag.p5, s.egressWait t 5 2 with
        | some x, _ => decide (s.now < x)
        | none, some _ => true
        | none, none => false
      if held then s.onVol t fun v => { v with diag := { v.diag with p5 := v.diag.p5.or ((s.egressWait t 5 2).map fun d => s.now + d) } }
      else
        let i := srcInput src
        let s := s.onVol t fun v => { v with diag := { v.diag with p5 := none } }
        let s := s.onSw t fun w => { w.setVoq i 5 2 ((w.voq i 5 2).eraseIdx k) with credit := subAt w.credit 5 f.cells, held := addAt w.held 5 f.cells }
        let s := ((s.swRelease t i f.cells f.shared).bump Reg.sw_frames_out t 5).bump Reg.sw_bytes_out t 5 f.len
        s.onGather t fun g => { g with voq := g.voq.set src f.body.frames }

/-- Gather takes a frame and runs it through G0 to G5 (R82 to R103). With `overlap` another frame of the MIDX lies between G2
and G4, so this one waits (R86). -/
def frameIntake (t : TileId) (overlap : Bool) (slotBad report : Nat) (s : State) : State :=
  if 256 ≤ (s.vol t).gather.waiting.length then s
  else match (s.vol t).gather.pick (s.mayTake t) fun k => s.rd Reg.gather_intake_weight t k with
    | none => s
    | some (k, left) =>
      let s := s.intakeFetch t k
      match (s.vol t).gather.voq.getD k [] with
      | [] => s
      | f :: rest =>
        let g := (s.vol t).gather
        let s := s.onGather t fun g => { g with voq := g.voq.set k rest, rrPos := k, rrLeft := left }
        let s := s.bump Reg.gather_frames_in t k
        let s := s.wr Reg.gather_in_flight_peak t (max (s.rd Reg.gather_in_flight_peak t) (g.waiting.length + 1))
        match identify s t f with
        | .error d =>
          let s := match (s.vol t).meters.lookup f.addrKind f.addr with
            | some m =>
              if d = 2 ∧ !(s.vol t).meters.restoring.contains (midxSlot m) ∧ !(s.vol t).meters.damaged.contains (midxSlot m) then
                s.recordBad t (midxSlot m)
              else s
            | none => s
          s.endFrame t f (genOf s t f) d
        | .ok midx =>
          let x : Flight := { frame := f, midx := midx, gen := genOf s t f, slotBad := slotBad, report := report }
          if overlap ∨ (s.vol t).gather.waiting.any (fun y => decide (y.midx = midx)) then
            let s := (s.bump Reg.gather_midx_waits t).onGather t fun g => { g with waiting := g.waiting ++ [x] }
            s.wr Reg.gather_in_flight t (s.vol t).gather.waiting.length
          else runFrame s t x

/-- FRAME_INTAKE (R82). -/
def execFrameIntake (t : TileId) (overlap : Bool) (found : IntakeFound) (s : State) : Host.Outcome State Fault Refusal :=
  finish (frameIntake t overlap found.slotBad found.report) s

/-- The first frame that waits behind another of its MIDX goes on (R86). -/
def midxWaitRelease (t : TileId) (midx : Nat) (s : State) : State :=
  let l := (s.vol t).gather.waiting
  match l.find? fun x => decide (x.midx = midx) with
  | some x =>
    let i := l.findIdx fun x => decide (x.midx = midx)
    let s := s.onGather t fun g => { g with waiting := g.waiting.eraseIdx i }
    runFrame (s.wr Reg.gather_in_flight t (s.vol t).gather.waiting.length) t x
  | none => s

/-- MIDX_WAIT_RELEASE (R86). -/
def execMidxWaitRelease (t : TileId) (midx : Nat) (s : State) : Host.Outcome State Fault Refusal := finish (midxWaitRelease t midx) s

/-! ### The duplicate check (R104, R144) -/

/-- The table of R104: none when the reading passes, else its detail. -/
def dupCheck (l t idur dupMap : Nat) (forceOld : Bool) : Option Nat :=
  let i := max idur 1
  if l = 0 ∨ l < t then none
  else if t = l then some 0x50
  else if (l - t) % i ≠ 0 ∨ 16 * i < l - t then (if forceOld then none else some 0x51)
  else if bit dupMap ((l - t) / i - 1) then some 0x50
  else none

/-- An item of a running replay has ended (R145); the replay completes with the last one. -/
def State.endReplay (s : State) (t : TileId) (item : Option Nat) (code : Nat) : State :=
  match item, (s.vol t).marver.replay with
  | some i, some r =>
    let l := r.results.set i (some code)
    if l.all Option.isSome then
      let s := s.onMarver t fun m => { m with replay := none }
      (s.wrB Reg.marver_replay_result t 0 (fit 64 (l.map fun x => BitVec.ofNat 8 (x.getD 0)))).answerFor r.act t .ok
    else s.onMarver t fun m => { m with replay := some { r with results := l } }
  | _, _ => s

/-- Lehr's checks of a RESTATE item (R144, R173): the code of the first that applies. -/
def restateCheck (s : State) (t : TileId) (o : Opened) (seq : Nat) : Option Nat :=
  match s.heldRec t seq with
  | none => some 0x20
  | some r =>
    match r.body with
    | .meter out tend idur qual _ =>
      if r.who ≠ o.midx ∨ tend ≠ o.tend then some 0x21
      else if out ≠ 1 then some 0x22
      else if bit qual 3 ∨ idur ≠ o.idur ∨ seqStream seq ≠ s.streamOf t then some 0x23
      else none
    | .link tend _ _ _ => if r.who ≠ o.midx ∨ tend ≠ o.tend then some 0x21 else some 0x22
    | _ => some 0x21

/-- A reading is handed to G6 with what its meter record holds now. -/
def State.passRow (s : State) (t : TileId) (row : Row) : State :=
  let m := s.meter t (midxSlot row.rd.midx)
  let p : Passed := { rd := row.rd, fid := row.fid, gen := row.gen, restate := row.restate, replay := row.replay
                      lastTend := m.lastTend, lastReg := m.lastReg, phase := m.phase, cls := m.cls, rule := row.rule, flags := row.flags }
  s.onMarver t fun v => { v with inq := v.inq ++ [p] }

/-- A reading of a LOCAL record enters G6 directly (R116, R236), behind a reading of its MIDX that is still under way. -/
def State.localRow (s : State) (t : TileId) (row : Row) : State :=
  if s.midxBusy t row.rd.midx || (s.vol t).gather.rows.any fun x => decide (x.rd.midx = row.rd.midx) then
    s.onGather t fun g => { g with rows := g.rows ++ [row] }
  else s.passRow t row

/-- The first row whose MIDX has no reading on its way to the archive and no row before it meets the duplicate check. A reading of
a LOCAL record that waited enters G6 without the check. -/
def duplicateCheck (t : TileId) (s : State) : State :=
  let l := (s.vol t).gather.rows
  let ready := fun (i : Nat) (r : Row) => !s.midxBusy t r.rd.midx && !(l.take i).any fun x => decide (x.rd.midx = r.rd.midx)
  match (l.zip (List.range l.length)).find? fun x => ready x.2 x.1 with
  | none => s
  | some (row, i) =>
    let s := s.onGather t fun g => { g with rows := g.rows.eraseIdx i }
    let m := s.meter t (midxSlot row.rd.midx)
    match row.restate with
    | some seq =>
      match restateCheck s t row.rd seq with
      | some c => (if c = 0x23 then s.bump Reg.lehr_restate_refused t else s).endReplay t row.replay c
      | none => (s.passRow t row).bump Reg.gather_readings_out t
    | none =>
      if row.direct then s.passRow t row
      else match dupCheck m.lastTend row.rd.tend row.rd.idur m.dupMap row.forceOld with
      | none => (s.passRow t row).bump Reg.gather_readings_out t
      | some d =>
        let s := (s.cullet t 0x14 d 1 0xFF 0 0 row.gen (openedBytes row.rd)).countEnd t d
        (s.endReading t row.fid none).endReplay t row.replay 2

/-- DUPLICATE_CHECK (R104). -/
def execDuplicateCheck (t : TileId) (s : State) : Host.Outcome State Fault Refusal := finish (duplicateCheck t) s

/-! ### RELAY_ACK (R108, R385) -/

/-- The acknowledgement at the front of the queue leaves once its point is reached, for MIRRORED at once in a bay without a
synchronised standby: as a RELAY_ACK frame tagged with the session
that delivered the envelope. -/
def envelopeAck (t : TileId) (s : State) : State :=
  match (s.queue t 4).take.2 with
  | some (.ack src peer mark b) =>
    if mark = 0 ∨ s.mirrored t mark ∨ s.rd Reg.bay_mirror_sync (bayOf t) ≠ 0 then
      let s := (s.qRead t 4).1
      s.swSend t 5 src 1 (.link peer 0x11 b)
    else s
  | _ => s

/-- ENVELOPE_ACK (R108). -/
def execEnvelopeAck (t : TileId) (s : State) : Host.Outcome State Fault Refusal := finish (envelopeAck t) s

end Sys2Proof.Machine
end

