-- ==== Sys2Proof/Machine/Marver.lean ====
section
/-! DEFINITION. Marver.lean: chapter 4: the pass over a reading, rule sets, replay, and the Cullet queue. -/

namespace Sys2Proof.Machine

open Crypto

/-! ### The pass (R115 to R133) -/

/-- Vf in mV over the minutes that end in (t − len, t], truncated (DESIGN CHOICE, notes/assumptions/35.md): none when one is
missing, incomplete or invalid (R124). -/
def feederMean (h : Tbl Minute) (ph t len : Nat) : Option Nat :=
  let ends := (List.range (len / 60)).map fun k => t - 60 * k
  let ms := ends.filterMap fun e => (Tbl.get h e).bind fun m => if m.valid then some m else none
  let n := (ms.map Minute.count).sum
  if ms.length = ends.length ∧ 0 < n then some ((ms.map fun m => m.sums.getD (ph - 1) 0).sum / n) else none

/-- The inputs of R115 for a reading; a RESTATE reading has no history (R146). -/
def State.judgeIn (s : State) (t : TileId) (x : Passed) : JudgeIn :=
  let rules := s.rules t x.rule
  let maps := s.maps t x.cls
  let vf :=
    match (rules.filter fun r => decide (r.kind = 6) && bit r.src x.rd.source).head? with
    | some r =>
      let rk := (maps.getD r.regA { classId := 0, obis := [], attr := 0, scaler := 0, unit := 0, rkind := 0, roll := 0, bal := 0 }).rkind
      if x.phase % 4 = 0 then none
      else feederMean (s.vol t).marver.history (x.phase % 4) x.rd.tend (if rk = 1 then 60 else x.rd.idur)
    | none => none
  { rd := x.rd, lastTend := if x.restate.isSome then 0 else x.lastTend, lastReg := x.lastReg, phase := x.phase
    rc := s.clsRegs t x.cls, maps := maps, rules := rules, vf := vf }

/-- The version of a class's rule set. -/
def State.setVersion (s : State) (t : TileId) (set : Nat) : Nat := if set ≤ 63 then s.rd Reg.marver_ruleset_version t set else 0

/-- Marver judges the reading at the front of G6 (R126, R127); while Lehr is stopped it waits (R36). -/
def marverPass (t : TileId) (s : State) : State :=
  if (s.vol t).lehr.stopped then s
  else match (s.vol t).marver.inq with
  | [] => s
  | x :: rest =>
    let j := s.judgeIn t x
    let o := judge j
    let set := x.rule
    let s := s.onMarver t fun m => { m with inq := rest }
    let s := s.bump Reg.marver_readings_in t
    let s := o.fails.foldl (fun s i => s.bump Reg.marver_rule_fails t i) s
    let s := (s.bump Reg.marver_rule_skips t 0 o.skips).bump Reg.marver_fill_refused t 0 o.fillRefused
    let s := (s.bump Reg.marver_spike_edits t 0 o.spikes).bump Reg.marver_rollovers t 0 o.rollovers
    let ver := s.setVersion t set
    if o.outcome = 0x16 then
      let mask := o.fails.foldl (fun a i => a + 2 ^ i) 0
      let s := (s.cullet t 0x16 o.detail 1 set ver mask x.gen (openedBytes x.rd)).bump Reg.marver_cullet_rule t
      (s.endReading t x.fid none).endReplay t x.replay 2
    else
      let s := if o.outcome = 2 then s.bump Reg.marver_accept_edit t else s.bump Reg.marver_accept t
      let s := s.bump Reg.marver_accept_est t 0 (o.group.length - 1)
      let ctx := contextBytes j.lastTend x.phase j.vf x.restate.isSome set x.cls ver x.lastReg
      let g : Group := match x.restate, o.group.getLast? with
        | some q, some r => .restate x.rd.midx x.replay q 1 x.flags r
        | _, _ => .meter x.rd.midx x.fid x.replay o.group o.rolls x.flags (if x.replay.isNone then some x.rd else none) ctx
      s.onLehr t fun l => { l with inq := l.inq ++ [g] }

/-- MARVER_PASS (R126). -/
def execMarverPass (t : TileId) (s : State) : Host.Outcome State Fault Refusal := finish (marverPass t) s

/-! ### Rule sets (R119) -/

/-- `tile.marver.ruleset_commit` (R119). -/
def rulesetCommit (t : TileId) (s : State) : State :=
  let stage := s.rdAll Reg.marver_ruleset_stage t
  let set := s.rd Reg.marver_ruleset_select t
  let refuse := fun (s : State) (st : Status) => (s.wr Reg.marver_last_result t st.code).answer t st
  if !s.serves t then refuse s .notActive
  else if 63 < set then refuse s .invalid
  else match (List.range 32).find? fun i => !(Rule.parse ((stage.drop (16 * i)).take 16)).ok with
    | some i => refuse (s.wr Reg.marver_last_bad_entry t i) .invalid
    | none =>
      let s := (s.wr Reg.marver_last_bad_entry t 0xFF).wrBM Reg.marver_rule_table t (512 * set) stage
      let s := s.wrM Reg.marver_ruleset_version t ((s.rd Reg.marver_ruleset_version t set + 1) % 65536) set
      refuse s .ok

/-- RULESET_COMMIT (R119). -/
def execRulesetCommit (t : TileId) (s : State) : Host.Outcome State Fault Refusal := finish (consuming t [Reg.marver_ruleset_stage] (rulesetCommit t)) s

/-! ### Replay (R142 to R145) -/

/-- The checks of R143 on one item of 136 bytes: the code of the first that fails. -/
def replayCheck (s : State) (t : TileId) (key : Option Bytes) (b : Bytes) : Option Nat :=
  let mode := fld b 0 1
  let e := b.drop 8
  let o := openedOf ((e.drop 0x20).take 64)
  let r := s.meter t (midxSlot o.midx)
  let good := match key with
    | some k => decide (cmac k (e.take 0x70) = (e.drop 0x70).take 16)
    | none => false
  if !good then some 0x10
  else if fld e 0 1 ≠ 0x81 ∨ 2 < mode ∨ (mode ≠ 2 ∧ fld b 2 6 ≠ 0) ∨ fld b 1 1 ≠ 0 ∨ fld e 0x1A 6 ≠ 0 ∨ fld e 0x60 16 ≠ 0 then
    some 0x11
  else if fld e 3 1 ≠ 1 ∨ (fld e 1 1 ≠ 0x16 ∧ fld e 1 1 ≠ 0x14) then some 0x12
  else if !s.ownMidx t o.midx then some 0x13
  else if r.state ≠ 1 ∨ r.midxGen ≠ fld e 0x0C 4 then some 0x14
  else none

/-- One item of a replay: ended with its code, or a reading under the ordering of R86. -/
def replayItem (t : TileId) (buf : Bytes) (s : State) (i : Nat) : State :=
  let b := (buf.drop (8 + 136 * i)).take 136
  let u := s.useSlot t 3
  match replayCheck u.1 t u.2 b with
  | some c => u.1.endReplay t (some i) c
  | none =>
    let mode := fld b 0 1
    let o := openedOf ((b.drop 40).take 64)
    (u.1.bump Reg.marver_replay_items t).queueRow t
      { rd := o, direct := false, forceOld := decide (mode = 1), fid := 0, gen := fld b 20 4
        restate := if mode = 2 then some (fld b 2 6) else none, replay := some i
        rule := s.clsRuleset t (s.meter t (midxSlot o.midx)).cls, flags := s.clsFlags t (s.meter t (midxSlot o.midx)).cls }

/-- `tile.marver.replay` (R143). -/
def marverReplay (t : TileId) (s : State) : State :=
  let buf := s.rdAll Reg.marver_replay_buffer t
  let n := fld buf 0 1
  let refuse := fun (st : Status) => (s.wr Reg.marver_last_result t st.code).answer t st
  if !s.serves t then refuse .notActive
  else if (s.vol t).marver.replay.isSome then refuse .busy
  else if n = 0 ∨ 64 < n ∨ fld buf 1 7 ≠ 0 then refuse .invalid
  else
    let s := (s.wr Reg.marver_last_result t 0).onMarver t fun m => { m with replay := some { results := List.replicate n none, act := s.acts.now } }
    s.each (List.range n) (replayItem t buf)

/-- MARVER_REPLAY (R143). -/
def execMarverReplay (t : TileId) (s : State) : Host.Outcome State Fault Refusal := finish (consuming t [Reg.marver_replay_buffer] (marverReplay t)) s

/-! ### The Cullet queue (R138 to R140) -/

/-- The vault tags the next staged entry and writes it to the Cullet queue. -/
def culletTag (t : TileId) (s : State) : State :=
  let a := (s.vol t).marver.stage.read 129
  let s := s.onMarver t fun m => { m with stage := a.q }
  match a.item with
  | some e =>
    let u := s.useSlot t 3
    let tag := match u.2 with
      | some k => cmac k e
      | none => fit 16 (Config.noKeyTag e)
    (u.1.qWrite t 0 (.cullet (e ++ tag))).bump Reg.cullet_written t
  | none => s

/-- CULLET_TAG (R140). -/
def execCulletTag (t : TileId) (s : State) : Host.Outcome State Fault Refusal := finish (culletTag t) s

/-- Remove one entry: 128 zero bytes at an empty position (R139). -/
def State.culletTake (s : State) (t : TileId) : State × Bytes :=
  let r := s.qRead t 0
  (r.1, match r.2 with
        | some (.cullet b) => b
        | _ => List.replicate 128 0)

/-- `tile.cullet.read`. -/
def culletRead (t : TileId) (s : State) : State :=
  let r := s.culletTake t
  r.1.emit (.bytes t r.2)

/-- CULLET_READ (R139). -/
def execCulletRead (t : TileId) (s : State) : Host.Outcome State Fault Refusal := finish (culletRead t) s

/-- `tile.cullet.read_block`: eight positions, in queue order. -/
def culletReadBlock (t : TileId) (s : State) : State :=
  let r := (List.range 8).foldl (fun (a : State × Bytes) _ =>
    let r := a.1.culletTake t
    (r.1, a.2 ++ r.2)) (s, [])
  r.1.emit (.bytes t r.2)

/-- CULLET_READ_BLOCK (R139). -/
def execCulletReadBlock (t : TileId) (s : State) : Host.Outcome State Fault Refusal := finish (culletReadBlock t) s

end Sys2Proof.Machine
end

