-- ==== Sys2Proof/Machine/MediaOps.lean ====
section
/-! DEFINITION. MediaOps.lean: chapter 17: physical blocks, the archive ring, the journal ring, the key store, discards, and what a
completed page program makes durable. -/

namespace Sys2Proof.Machine

/-! ### Blocks (R555, R557, R568) -/

/-- Blocks of the die. -/
def dieBlocks : Nat := 5461

/-- A physical block. -/
def Media.blk (m : Media) (pb : Nat) : Blk :=
  (Tbl.get m.blocks pb).getD
    { st := if m.factory.contains pb then .bad else .erased, erases := m.formats, region := 0, lb := 0, ver := 0, pages := 0, held := 0 }

/-- Change a physical block. -/
def Media.setBlk (m : Media) (pb : Nat) (b : Blk) : Media := { m with blocks := Tbl.put m.blocks pb b }

/-- Blocks listed in a state. -/
def Media.countSt (m : Media) (st : BlkSt) : Nat := m.blocks.countP fun e => decide (e.2.st = st)

/-- Good blocks, B_arch (R555) and the ring's blocks in use. -/
def Media.good (m : Media) : Nat := dieBlocks - m.factory.length - m.countSt .retired
def Media.bArch (m : Media) : Nat := m.good - 797
def Media.ringUsed (m : Media) : Nat := m.blocks.countP fun e => decide (e.2.st = .mapped) && decide (e.2.region = 0)

/-- Erased blocks of the pool. -/
def Media.erased (m : Media) : Nat :=
  dieBlocks - m.factory.length - m.blocks.countP fun e => decide (e.2.st ≠ .erased) && !m.factory.contains e.1

/-- The erased block of least erase count (R570): a block never used has the least. -/
def Media.leastWorn (m : Media) : Option Nat :=
  match (List.range dieBlocks).find? fun pb => (Tbl.get m.blocks pb).isNone && !m.factory.contains pb with
  | some pb => some pb
  | none =>
    ((m.blocks.filter fun e => decide (e.2.st = .erased)).foldl (fun (a : Option (Nat × Nat)) e => match a with
      | some x => if e.2.erases < x.2 then some (e.1, e.2.erases) else some x
      | none => some (e.1, e.2.erases)) none).map Prod.fst

/-- The physical block of a logical block. -/
def Media.physOf (m : Media) (region lb : Nat) : Option Nat :=
  (m.blocks.find? fun e => decide (e.2.st = .mapped) && decide (e.2.region = region) && decide (e.2.lb = lb)).map Prod.fst

/-- A block goes to the eraser. -/
def Media.release (m : Media) (pb : Nat) : Media :=
  { m.setBlk pb { m.blk pb with st := .dirty } with eraseQ := m.eraseQ ++ [pb] }

/-- Log a map-journal entry that has taken effect. -/
def Media.logMap (m : Media) (e : MapEnt) : Media :=
  match m.mapLog.getLast? with
  | some l => { m with mapLog := m.mapLog.dropLast ++ [l ++ [e]] }
  | none => { m with mapLog := [[e]] }

/-- Map a logical block to a physical one. -/
def Media.mapBlk (m : Media) (region lb pb ver now : Nat) : Media :=
  m.setBlk pb { m.blk pb with st := .mapped, region := region, lb := lb, ver := ver, pages := 0, held := now }

/-- A block is erased and used again in place (journal, key store, map journal, checkpoint). -/
def Media.reuse (m : Media) (region lb : Nat) : Media :=
  match m.physOf region lb with
  | some pb => m.setBlk pb { m.blk pb with erases := (m.blk pb).erases + 1 }
  | none => m

/-! ### Discards (R566, R179) -/

/-- Add a range to a sorted list of ranges, merging what touches or overlaps. -/
def mergeRange : List (Nat × Nat) → Nat × Nat → List (Nat × Nat)
  | [], r => [r]
  | x :: l, r =>
    if r.2 + 1 < x.1 then r :: x :: l
    else if x.2 + 1 < r.1 then x :: mergeRange l r
    else mergeRange l (min x.1 r.1, max x.2 r.2)

/-- Ranges that count toward the limit of 4 096: those that reach the retained floor or lie above it. -/
def Media.rangesCounted (m : Media) (k : Nat) (l : List (Nat × Nat)) : Nat := l.countP fun r => decide (m.floor k ≤ r.2)

/-- Set the discarded ranges of a stream. -/
def Media.setDisc (m : Media) (k : Nat) (l : List (Nat × Nat)) : Media := if k = 0 then { m with disc0 := l } else { m with disc1 := l }

/-- A snapshot of the map journal leaves out what of the discarded ranges lies below the retained floors (R566). -/
def Media.trimDisc (m : Media) : Media :=
  let keep := fun (k : Nat) => ((m.disc k).filter fun r => decide (m.floor k ≤ r.2)).map fun r => (max (m.floor k) r.1, r.2)
  (m.setDisc 0 (keep 0)).setDisc 1 (keep 1)

/-- Set the archive of a stream. -/
def Media.setArch (m : Media) (k : Nat) (a : Tbl ArchEnt) : Media := if k = 0 then { m with arch0 := a } else { m with arch1 := a }

/-- The head archive block. -/
def Media.head (m : Media) : Nat := m.archNext - 1

/-- Archive blocks that hold a record neither discarded nor overwritten; the head always counts (R181). -/
def Media.ringFill (m : Media) : Nat :=
  m.blocks.countP fun e => decide (e.2.st = .mapped) && decide (e.2.region = 0) &&
    (decide (e.2.lb = m.head) || [0, 1].any fun k => (m.arch k).any fun a => decide (a.2.lb = e.2.lb) && !m.discarded a.1)

/-- `tile.lehr.fill`: per mille of B_arch. -/
def Media.fillPm (m : Media) : Nat := m.ringFill * 1000 / max m.bArch 1

/-- Drop the records of an archive block. -/
def Media.dropLb (m : Media) (lb : Nat) : Media :=
  { m with arch0 := m.arch0.filter fun e => e.2.lb != lb, arch1 := m.arch1.filter fun e => e.2.lb != lb
           badPages := m.badPages.filter fun p => p.1 != lb }

/-- Raise FULL_WATERMARK when the fill rises above the level, and note when it has fallen (R181). -/
def State.fillEvent (s : State) (t : TileId) : State :=
  let high := decide (s.rd Reg.lehr_full_watermark t * 10 < (s.tile t).media.fillPm)
  if high ∧ !(s.vol t).lehr.fillHigh then (s.onLehr t fun l => { l with fillHigh := true }).event t 1 0x1201
  else s.onLehr t fun l => { l with fillHigh := high }

/-- Lehr resumes once the ring has a free block (R181). -/
def State.resumeLehr (s : State) (t : TileId) : State :=
  let m := (s.tile t).media
  if (s.vol t).lehr.stopped ∧ m.ringUsed < m.bArch then (s.onLehr t fun l => { l with stopped := false }).followTile t else s

/-- Free an archive block: a relocation of it that is not committed is abandoned (R575). -/
def State.freeLb (s : State) (t : TileId) (lb : Nat) : State :=
  match (s.tile t).media.physOf 0 lb with
  | none => s
  | some pb =>
    let s := match (s.tile t).media.reloc with
      | some r =>
        if r.region = 0 ∧ r.lb = lb then
          (s.onMedia t fun m => { (m.release r.new) with reloc := none }).bump Reg.media_relocations_abandoned t
        else s
      | none => s
    s.onMedia t fun m => { ((m.dropLb lb).release pb) with relocQ := m.relocQ.filter fun q => q.1 != pb }

/-- Free every archive block but the head whose SEQs are all discarded, and the closure reserve (R179, R563). -/
def State.reclaim (s : State) (t : TileId) : State :=
  let m := (s.tile t).media
  let lbs := (m.blocks.filter fun e => decide (e.2.st = .mapped) && decide (e.2.region = 0) && decide (e.2.lb ≠ m.head)).map fun e => e.2.lb
  let kept := fun lb => [0, 1].any fun k => (m.arch k).any fun a => decide (a.2.lb = lb) && !m.discarded a.1
  let s := (lbs.filter fun lb => !kept lb).foldl (fun s lb => s.freeLb t lb) s
  let s := if 0 < m.reservePages ∧ !kept (2 ^ 32) then
      s.onMedia t fun m => { ((m.dropLb (2 ^ 32)).reuse 5 0) with reservePages := 0 }
    else s
  (s.fillEvent t).resumeLehr t

/-- A DISCARD takes effect. -/
def State.applyDiscard (s : State) (t : TileId) (k a b : Nat) : State :=
  (s.onMedia t fun m => m.setDisc k (mergeRange (m.disc k) (a, b))).reclaim t

/-- Queue a map-journal entry (R558). -/
def State.queueMap (s : State) (t : TileId) (e : MapEnt) : State :=
  s.onMedia t fun m => { m with mapQ := m.mapQ ++ [e], mapQAt := if m.mapQ = [] then s.now else m.mapQAt }

/-! ### The ring full (R181) -/

/-- The head block is full and no block is free. -/
def Media.full (m : Media) : Bool :=
  (decide (m.archNext = 0) || decide (m.headPages = 1536)) && decide (m.bArch ≤ m.ringUsed)

/-- Lehr follows `tile.lehr.full_policy`. -/
def State.ringFull (s : State) (t : TileId) : State :=
  let m := (s.tile t).media
  if !m.full then s
  else if s.rd Reg.lehr_full_policy t = 0 then
    if (s.vol t).lehr.stopped then s
    else (((s.onLehr t fun l => { l with stopped := true }).bump Reg.lehr_full_stops t).event t 2 0x1202).followTile t
  else
    let lbs := (m.blocks.filter fun e => decide (e.2.st = .mapped) && decide (e.2.region = 0) && decide (e.2.lb ≠ m.head)).map fun e => e.2.lb
    match lbs with
    | [] => s
    | x :: l =>
      let lb := l.foldl min x
      let lost := fun (k : Nat) => (m.arch k).filter fun a => decide (a.2.lb = lb)
      let s := [0, 1].foldl (fun s k =>
        let n := (lost k).countP fun a => !m.discarded a.1
        let s := s.bump Reg.lehr_overwritten t 0 n
        match (lost k).getLast? with
        | some a => s.setFloor t k (max (m.floor k) (a.1 + 1))
        | none => s) s
      (s.freeLb t lb).resumeLehr t

/-! ### What a page program makes durable (R562 to R566) -/

/-- Open the next archive block on the least-worn erased block (R562). -/
def Media.openHead (m : Media) (now : Nat) : Media :=
  match m.leastWorn with
  | some pb => { ((m.mapBlk 0 m.archNext pb 1 now).logMap (.map 0 m.archNext pb none 1)) with archNext := m.archNext + 1, headPages := 0 }
  | none => m

/-- Store the records of an archive page, each under its own stream. -/
def Media.putPage (m : Media) (lb page : Nat) (recs : List ArchRec) : Media :=
  recs.foldl (fun m r => m.setArch (seqStream r.seq) (Tbl.put (m.arch (seqStream r.seq)) r.seq { ent := r, lb := lb, page := page })) m

/-- Append a page at the head of the ring, whose block counts it. -/
def Media.appendPage (m : Media) (recs : List ArchRec) : Media :=
  let x := { (m.putPage m.head m.headPages recs) with headPages := m.headPages + 1 }
  match x.physOf 0 x.head with
  | some pb => x.setBlk pb { x.blk pb with pages := x.headPages }
  | none => x

/-- Program an archive page: at the head, in a new block, or, while Lehr is stopped, in the closure reserve; false while it finds no
place. -/
def State.progArchive (s : State) (t : TileId) (recs : List ArchRec) : State × Bool :=
  let s := if (s.tile t).media.full ∧ !(s.vol t).lehr.stopped then s.ringFull t else s
  let m := (s.tile t).media
  if 0 < m.archNext ∧ m.headPages < 1536 then
    (s.onMedia t fun m => m.appendPage recs, true)
  else if m.ringUsed < m.bArch then
    (s.onMedia t fun m => (m.openHead s.now).appendPage recs, true)
  else if (s.vol t).lehr.stopped ∧ m.reservePages < 1536 then
    (s.onMedia t fun m => { (m.putPage (2 ^ 32) m.reservePages recs) with reservePages := m.reservePages + 1 }, true)
  else (s, false)

/-- Pages that configuration values take. -/
def configPages (l : List (Nat × Option Val)) : Nat :=
  let n := (l.map fun x => match x.2 with
    | some (.oct c) => 8 + c.length
    | _ => 16).sum
  max 1 ((n + 16383) / 16384)

/-- Take the next page of the journal ring: a block that opens is erased first, after the configuration values whose newest copy lies
in it have been copied to the head (R70, R564). -/
def Media.journalPage (m : Media) : Media × Nat :=
  let k := m.jPos / 512
  if m.jPos % 512 = 0 ∧ 2 ≤ k then
    let lo := (k - 2) * 512
    let hi := (k - 1) * 512
    let moved := m.configAt.filter fun e => decide (lo ≤ e.2) && decide (e.2 < hi)
    let n := if moved = [] then 0 else configPages (moved.map fun e => (e.1, Tbl.get m.config e.1))
    let at_ := moved.foldl (fun a e => Tbl.put a e.1 m.jPos) m.configAt
    let m := { m with journal := m.journal.filter fun e => !(decide (lo * 256 ≤ e.1) && decide (e.1 < hi * 256)), configAt := at_ }
    ({ m.reuse 2 (k % 2) with jPos := m.jPos + n + 1 }, m.jPos + n)
  else ({ m with jPos := m.jPos + 1 }, m.jPos)

/-- A page of the journal ring whose program failed is left behind; page 0 of a block opens the block as any other use of it does. -/
def Media.skipPage (m : Media) : Media := if m.journalFull then m else m.journalPage.1

/-- The ring after `n` more pages of it, none when one of them would open a block that may not be erased yet (R70). -/
def Media.journalPages : Nat → Media → Option Media
  | 0, m => some m
  | n + 1, m => if m.journalFull then none else Media.journalPages n m.journalPage.1

/-- Append places to the key-store log: a page takes 128 entries, a block 65 536 (R565). Padding counts as place 2^32. -/
def Media.logKeys (m : Media) (l : List Nat) : Media :=
  let l := l ++ List.replicate ((128 - l.length % 128) % 128) (2 ^ 32)
  match m.keyLog.getLast? with
  | some b =>
    if b.length + l.length ≤ 65536 then { m with keyLog := m.keyLog.dropLast ++ [b ++ l] }
    else { m with keyLog := m.keyLog ++ [l], keyHead := (m.keyHead + 1) % 24 }
  | none => { m with keyLog := [l] }

/-- The logical block of the oldest block of the key-store log. -/
def Media.keyOldest (m : Media) : Nat := (m.keyHead + 25 - m.keyLog.length) % 24

/-- The next block of the map journal opens with a snapshot of 8 pages (R558): the block that follows is erased for it. -/
def Media.snapshot (m : Media) : Media :=
  let h := (m.mapHead + 1) % 4
  { m.reuse 4 h with mapHead := h, mapPages := 8, mapLog := (m.mapLog ++ [[]]).drop (m.mapLog.length - 3) }

/-- The newest page of the journal ring, the key store or the map journal: logical block and page. -/
def Media.newestPage (m : Media) (region : Nat) : Nat × Nat :=
  if region = 2 then ((m.jPos - 1) / 512 % 2, (m.jPos - 1) % 512)
  else if region = 3 then (m.keyHead, ((m.keyLog.getLast?.getD []).length - 1) / 128)
  else (m.mapHead, m.mapPages - 1)

/-- Pages of a block that hold data and that a relocation copies. -/
def Media.validPages (m : Media) (b : Blk) : Nat :=
  if b.region = 0 then b.pages
  else if b.region = 1 then 1366
  else if b.region = 5 then m.reservePages
  else if (m.newestPage b.region).1 = b.lb then (m.newestPage b.region).2 + 1 else 512

/-- Entries used of the key-store log. -/
def Media.keysUsed (m : Media) : Nat := (m.keyLog.map List.length).sum

/-- A MAP, FREE, RETIRE or DISCARD entry takes effect (R557). -/
def State.applyMap (s : State) (t : TileId) (e : MapEnt) : State :=
  let s := s.onMedia t fun m => m.logMap e
  match e with
  | .discard k a b ack =>
    let s := s.applyDiscard t k a b
    match ack with
    | some act => s.answerFor act t .ok
    | none => s
  | .free pb n => s.onMedia t fun m => m.setBlk pb { m.blk pb with st := .erased, erases := n }
  | .retire pb => s.onMedia t fun m => m.setBlk pb { m.blk pb with st := .retired }
  | .map region lb pb old ver =>
    match (s.tile t).media.reloc with
    | some r =>
      if r.new = pb ∧ r.lb = lb ∧ r.region = region then
        let pages := ((s.tile t).media.blk r.old).pages
        let s := s.onMedia t fun m =>
          let m := m.mapBlk region lb pb ver s.now
          let m := m.setBlk pb { m.blk pb with pages := pages }
          { m with reloc := none }
        let s := s.bump Reg.media_relocations t
        match old with
        | some o =>
          if r.retire then
            ((s.onMedia t fun m => m.setBlk o { m.blk o with st := .dirty }).bump Reg.media_retired t).queueMap t (.retire o)
          else s.onMedia t fun m => m.release o
        | none => s
      else s
    | none => s

/-- The spares fall below 0: the die is worn (R568). -/
def State.wornCheck (s : State) (t : TileId) : State :=
  if (s.tile t).media.bArch < s.rd Reg.media_arch_floor t ∧ s.rd Reg.media_worn t = 0 then
    (s.wr Reg.media_worn t 1).event t 2 0x1B02
  else s

/-- Which three blocks the next checkpoint takes, true the second three: those of the older or missing one (R68, R564). -/
def Media.ckSide (m : Media) : Bool :=
  match m.ckA, m.ckB with
  | some a, some b => decide (b.start < a.start)
  | some _, none => true
  | none, _ => false

/-- Before a checkpoint starts, its three blocks are erased (R564). -/
def Media.eraseCk (m : Media) : Media :=
  if m.ckSide then { ([3, 4, 5].foldl (fun m i => m.reuse 1 i) m) with ckB := none }
  else { ([0, 1, 2].foldl (fun m i => m.reuse 1 i) m) with ckA := none }

/-- Take the next page of the map journal: a full block is followed by a new one, which opens with its snapshot (R558). -/
def Media.mapPage (m : Media) : Media :=
  let m := if m.mapPages < 512 then m else m.trimDisc.snapshot
  { m with mapPages := m.mapPages + 1 }

/-- The contents of a completed page program become durable; false when the program cannot start yet. -/
def State.progDone (s : State) (t : TileId) (j : PageJob) : State × Bool :=
  match j with
  | .archive _ recs => let r := s.progArchive t recs; (if r.2 then r.1.fillEvent t else r.1, r.2)
  | .journal ents =>
    if (s.tile t).media.journalFull then (s, false)
    else
      let p := (s.tile t).media.journalPage
      let put := fun (a : Tbl JEntry) (x : JEntry × Nat) => Tbl.put a (p.2 * 256 + x.2) x.1
      let ids := keepLast 4096 (p.1.topups ++ (ents.filter fun e => decide (e.op = .topup)).map JEntry.tid)
      let s := s.onMedia t fun _ => { p.1 with journal := (ents.zip (List.range ents.length)).foldl put p.1.journal, topups := ids }
      (s.onMeters t fun m => { m with jDone := m.jDone + ents.length }, true)
  | .config vals =>
    match (s.tile t).media.journalPages (configPages vals) with
    | none => (s, false)
    | some m =>
      let at_ := (s.tile t).media.journalPage.2
      (s.onMedia t fun _ => { m with config := putRuns m.config vals, configAt := vals.foldl (fun c x => Tbl.put c x.1 at_) m.configAt }, true)
  | .keys ents =>
    (s.onMedia t fun m =>
      { (m.logKeys (ents.map fun e => blobPlace e.1 e.2.1)) with
        keys := ents.foldl (fun k e => match e.2.2 with
          | some b => Tbl.put k (blobPlace e.1 e.2.1) b
          | none => Tbl.del k (blobPlace e.1 e.2.1)) m.keys }, true)
  | .mapJ ents =>
    let s := s.onMedia t Media.mapPage
    (ents.foldl (fun s e => s.applyMap t e) s, true)
  | .media vals => (s.onMedia t fun m => { m.mapPage with config := putRuns m.config vals }, true)
  | .checkpoint c =>
    (s.onMedia t fun m => if m.ckSide then { m with ckB := some c } else { m with ckA := some c }, true)

/-! ### What stands on the die (R556, R557, R565) -/

/-- The tag of a programmed page. FLAGS: FIRST, COMPLETE (the last page of a relocated block), PADDED and UNREADABLE; COUNT is the records of an archive page,
of other regions the bytes used. -/
def Media.pageTag (m : Media) (pb page used : Nat) : Bytes :=
  let b := m.blk pb
  let bad := decide (b.region = 0) && m.badPages.contains (b.lb, page)
  let seqs := if b.region = 0 then ([0, 1].flatMap fun k => ((m.arch k).filter fun e => decide (e.2.lb = b.lb) && decide (e.2.page = page)).map Prod.fst) else []
  let count := if b.region = 0 then seqs.length else used
  let flags := b2n (decide (page = 0)) + 2 * b2n (decide (1 < b.ver) && decide (page + 1 = b.pages)) +
    4 * b2n (decide (b.region = 0) && !bad && decide (count < 256)) + 8 * b2n bad
  let x := natLE 1 b.region ++ natLE 1 flags ++ natLE 2 page ++ natLE 4 b.lb ++ natLE 4 b.ver ++ natLE 6 (seqs.foldl min (seqs.headD 0)) ++ natLE 2 count ++
    natLE 4 b.erases ++ [0, 0, 0, 0]
  x ++ natLE 4 (Crypto.crc32 x)

/-- A map-journal entry as it is written. A block that is erased or retired belongs to no region any more: REGION and LB read 0. -/
def MapEnt.bytes (e : MapEnt) : Bytes :=
  let row := fun (ty region lb pb old ver : Nat) (data : Bytes) =>
    natLE 1 ty ++ natLE 1 region ++ [0, 0] ++ natLE 4 lb ++ natLE 2 pb ++ natLE 2 old ++ natLE 4 ver ++ fit 12 data
  let x := match e with
    | .map region lb pb old ver => row 1 region lb pb (old.getD 0xFFFF) ver []
    | .free pb n => row 2 0 0 pb 0 0 (natLE 4 n)
    | .retire pb => row 3 0 0 pb 0 0 []
    | .discard _ a b _ => row 4 0 0 0 0 0 (natLE 6 a ++ natLE 6 b)
  x ++ natLE 4 (Crypto.crc32 x)

/-- The SNAPSHOT entry that opens a block of the map journal; 8 pages follow it (R558). -/
def snapshotEntry : Bytes :=
  let x := fit 28 (natLE 1 5 ++ List.replicate 15 0 ++ natLE 2 8)
  x ++ natLE 4 (Crypto.crc32 x)

/-- An entry of the key-store log: WRITE with the blob, or DESTROY. -/
def keyEntry (table position : Nat) (blob : Option Bytes) : Bytes :=
  let x := natLE 1 table ++ natLE 1 (if blob.isSome then 1 else 2) ++ [0, 0] ++ natLE 4 position ++ fit 64 (blob.getD []) ++ List.replicate 52 0
  x ++ natLE 4 (Crypto.crc32 x)

/-- Pages that a completed job has programmed, in the media before and after it: with those copied forward in the journal ring and a snapshot of the map
journal. -/
def PageJob.pages (j : PageJob) (m m' : Media) : Nat := match j with
  | .checkpoint _ => 4098
  | .config _ => m'.jPos - m.jPos
  | .journal _ => m'.jPos - m.jPos
  | .mapJ _ => if m'.mapHead = m.mapHead then 1 else 9
  | .media _ => if m'.mapHead = m.mapHead then 1 else 9
  | _ => 1

/-! ### Mount (R563, R571 to R573) -/

/-- Format the die (R573): every good block is erased, the regions take their blocks, a first snapshot is written. -/
def Media.format (m : Media) (now : Nat) (keep : Tbl Val) : Media :=
  let good := ((List.range (37 + m.factory.length + m.countSt .retired)).filter fun pb =>
    !m.factory.contains pb && (m.blk pb).st != .retired).take 37
  let places : List (Nat × Nat) := (List.range 4).map (fun i => (4, i)) ++ (List.range 6).map (fun i => (1, i)) ++
    (List.range 2).map (fun i => (2, i)) ++ (List.range 24).map (fun i => (3, i)) ++ [(5, 0)]
  let erased := { Media.init with
    factory := m.factory, formatted := true, formats := m.formats + 1, tempAcc := m.tempAcc, tempNow := m.tempNow, tempAt := m.tempAt
    jobCount := m.jobCount, config := keep
    blocks := m.blocks.map fun e => (e.1, { e.2 with
      st := if e.2.st = .retired ∨ e.2.st = .bad then e.2.st else .erased, erases := e.2.erases + 1 })
    mapLog := [[]], mapPages := 8 }
  (good.zip places).foldl (fun x e => x.mapBlk e.2.1 e.2.2 e.1 1 now) erased

/-- Programmed blocks that the table does not map are erased; the others go to the pool. -/
def Media.mounted (m : Media) : Media :=
  { m with reloc := none, relocQ := [], mapQ := []
           eraseQ := (m.blocks.filter fun e => decide (e.2.st = .dirty) || decide (e.2.st = .erasing)).map Prod.fst }

/-- The wordline being programmed is damaged (R554, R563): its earlier pages are lost. -/
def Media.damage (m : Media) (tile : Nat) : Media :=
  let lo := m.headPages / 3 * 3
  match m.jobs with
  | (n, .archive _ _) :: _ =>
    if m.busy ∧ lo < m.headPages ∧ Config.wordlineDamaged tile n then
      let keep := fun (a : Tbl ArchEnt) => a.filter fun e => !(decide (e.2.lb = m.head) && decide (lo ≤ e.2.page))
      { m with arch0 := keep m.arch0, arch1 := keep m.arch1 }
    else m
  | _ => m

/-- Rebuild the discard list from the DISCARD entries that remain in the map journal (R572). -/
def Media.recovered (m : Media) : Media :=
  let l := m.mapLog.flatten
  let disc := fun (k : Nat) => l.foldl (fun a e => match e with
    | .discard k' x y _ => if k' = k then mergeRange a (x, y) else a
    | _ => a) ([] : List (Nat × Nat))
  { m.snapshot with disc0 := disc 0, disc1 := disc 1 }

end Sys2Proof.Machine
end

