-- ==== Sys2Proof/Machine/Lehr.lean ====
section
/-! DEFINITION. Lehr.lean: chapter 5: archiving of groups, splits, closures, proofs, verification and discards. -/

namespace Sys2Proof.Machine

open Crypto

/-! ### Split pairs (R171, R270, R437) -/

/-- The pair that replaces a record of a meter at split instant `s`; `l` precedes it when `hist`. -/
def splitPair (maps : List RegMap) (idur s rolls : Nat) (hist : Bool) (l : List Int) (p : PreRec) : PreRec × PreRec :=
  let i1 := s - (p.tend - idur)
  let one := fun (x : Nat) =>
    let v := p.regs.getD x 0
    match maps[x]? with
    | none => (v, v)
    | some m =>
      if m.rkind = 0 then
        if hist then
          let d := v - l.getD x 0 + (if bit rolls x then ((10 ^ m.roll : Nat) : Int) else 0)
          let a := l.getD x 0 + (d * i1) / (max idur 1 : Nat)
          (if 0 < m.roll then a % (10 ^ m.roll : Nat) else a, v)
        else (v, v)
      else if m.rkind = 2 then
        let a := (v * i1) / (max idur 1 : Nat)
        (a, v - a)
      else (v, v)
  let r := (List.range 6).map one
  let q := setBit p.qual 3 true
  ({ p with tend := s, idur := i1, qual := q, regs := r.map Prod.fst },
   { p with idur := p.tend - s, qual := q, regs := r.map Prod.snd })

/-- The split instant for a record that ends at `g`: that of the standing request, else of a re-step entry (R437). -/
def State.splitAt (s : State) (t : TileId) (midx g : Nat) : Option Nat :=
  let m := s.meter t (midxSlot midx)
  let phase := s.rd Reg.gather_grid_phase t
  match (s.vol t).eph.splits.find? fun e => decide (e.midx = midx) && decide (e.g = g) with
  | some e => some e.s
  | none =>
    let i := max m.idur 1
    let done := decide (g = m.lastTend) || (decide (g < m.lastTend) && decide ((m.lastTend - g) % i = 0) &&
      decide ((m.lastTend - g) / i ≤ 16) && bit m.dupMap ((m.lastTend - g) / i - 1))
    (s.restepTable t).find? fun x => !onGrid phase i x && decide (gridAbove phase i x = g) && !done

/-- Records of a meter group after splits, the split instants used, and the requests served. -/
structure Expanded where
  recs : List PreRec
  pairs : List Nat
  served : List Nat
  last : List Int
  hist : Bool

/-- Replace records of a group by split pairs (R270): each request applies to the first record that ends at its G. -/
def State.expand (s : State) (t : TileId) (midx rolls : Nat) (recs : List PreRec) : Expanded :=
  let m := s.meter t (midxSlot midx)
  let maps := s.maps t m.cls
  recs.foldl (fun e p =>
    let hist := e.hist && decide (m.lastTend < p.tend)
    let next := { e with last := p.regs, hist := true }
    match if e.served.contains p.tend then none else s.splitAt t midx p.tend with
    | some x =>
      if p.tend - m.idur < x ∧ x < p.tend then
        let q := splitPair maps m.idur x rolls hist e.last p
        { next with recs := e.recs ++ [q.1, q.2], pairs := e.pairs ++ [x], served := e.served ++ [p.tend] }
      else { next with recs := e.recs ++ [p] }
    | none => { next with recs := e.recs ++ [p] })
    { recs := [], pairs := [], served := [], last := m.lastReg, hist := decide (m.lastTend ≠ 0) }

/-! ### Archiving a group (R153, R162, R47) -/

/-- The meter is placed at a flagged node (R216). -/
def State.tamperNear (s : State) (t : TileId) (midx : Nat) : Bool :=
  (s.vol t).bal.flags.contains (s.nodeOf t midx)

/-- Close before a group of `n` records that would pass `tile.lehr.batch_max` (R162). -/
def State.roomFor (s : State) (t : TileId) (k n : Nat) : State :=
  let x := (s.vol t).lehr.stream k
  if s.rd Reg.lehr_batch_max t < x.leaves.length + n ∧ x.used then s.closeBatch t k 0 else s

/-- Issue METER records and apply them to the meter record (R47, R175); the billing takes each with the class FLAGS of its reading (R51). -/
def State.issueMeter (s : State) (t : TileId) (k midx flags : Nat) (l : List PreRec) (near : Bool) : State × List ArchRec :=
  let s0 := s
  l.foldl (fun a p =>
    let q := setBit p.qual 6 near
    let r := a.1.issue t k midx (.meter p.out p.tend p.idur q p.regs)
    let slot := midxSlot midx
    let s := r.1.onVol t fun v => { v with eph := { v.eph with flagsAt := Tbl.put v.eph.flagsAt r.2.seq (flags, s0.now) } }
    (s.setMeter t slot ((r.1.meter t slot).applyRecord (r.1.rd Reg.gather_grid_phase t) r.2), a.2 ++ [r.2])) (s, [])

/-- The shadow-audit items of a group (R501); while the audit is off nothing is counted. -/
def State.audit (s : State) (t : TileId) (o : Opened) (ctx : Bytes) (recs : List ArchRec) (near : Bool) (pairs : List Nat) : State :=
  let b := bayOf t
  let n := s.rd Reg.bay_audit_n b
  let s := s.onBay b fun x => { x with auditCount := if n = 0 then 0 else x.auditCount + 1 }
  if n = 0 ∨ (s.bay b).auditCount < n ∨ 1 < pairs.length ∨ !(decide (s.role t = 0) && s.hasStandby b) then s
  else
    let s := s.onBay b fun x => { x with auditCount := 0 }
    let kg := (s.vol t).lehr.archGen
    let dg := sha256 (recs.map recBytes).flatten
    let s := s.mirror t (.auditHead ((recs.head?.map ArchRec.seq).getD 0) recs.length kg near (!pairs.isEmpty) (pairs.headD 0) dg)
    (s.mirror t (.auditIn o)).mirror t (.auditCtx ctx)

/-- Lehr archives the group at the front of G8. -/
def lehrArchiveGroup (t : TileId) (s : State) : State :=
  match (s.vol t).lehr.inq, s.issuing t with
  | g :: rest, some k =>
    if (s.vol t).lehr.stopped then s
    else
      let s := s.onLehr t fun l => { l with inq := rest }
      match g with
      | .meter midx fid replay recs rolls flags opened ctx =>
        let e := s.expand t midx rolls recs
        let s := s.roomFor t k e.recs.length
        let near := s.tamperNear t midx
        let gone := (s.vol t).eph.splits.filter fun x => decide (x.midx = midx) && e.served.contains x.g
        let s := s.onVol t fun v => { v with eph := { v.eph with splits := v.eph.splits.filter fun x => !gone.contains x } }
        let r := s.issueMeter t k midx flags e.recs near
        let mark := r.1.mirrorMark t
        let s := gone.foldl (fun s x => s.mirror t (.split false x.midx x.g x.s)) r.1
        let s := s.bump Reg.lehr_splits t 0 e.pairs.length
        let s := match opened with
          | some o => s.audit t o ctx r.2 near e.pairs
          | none => s
        let edit := match recs.getLast? with
          | some p => decide (p.out = 2)
          | none => false
        let s := if (s.vol t).gather.frames.any fun f => decide (f.fid = fid) then s else s.mirrorNewest t (midxSlot midx)
        (s.endReading t fid (some mark)).endReplay t replay (b2n edit)
      | .restate midx replay prior reason flags p =>
        match s.heldRec t prior with
        | some x =>
          let s := s.roomFor t k 2
          let s := (s.issue t k midx (.link p.tend prior x.tag reason)).1
          let r := s.issueMeter t k midx flags [{ p with qual := setBit p.qual 7 true }] (s.tamperNear t midx)
          ((r.1.mirrorNewest t (midxSlot midx)).bump Reg.lehr_restatements t).endReplay t replay (b2n (decide (p.out = 2)))
        | none => s.endReplay t replay 0x20
      | .book who out data => ((s.roomFor t k 1).issue t k who (.book out data)).1
      | .bookRestate who out prior data =>
        match s.heldRec t prior with
        | some x =>
          let s := s.roomFor t k 2
          let s := (s.issue t k who (.link (fld (recData x.body) 0 6) prior x.tag 2)).1
          (s.issue t k who (.book out data)).1.bump Reg.lehr_restatements t
        | none => s
  | _, _ => s

/-- LEHR_ARCHIVE_GROUP (R153). -/
def execLehrArchiveGroup (t : TileId) (s : State) : Host.Outcome State Fault Refusal := finish (lehrArchiveGroup t) s

/-! ### Closures (R159, R162, R180, R181) -/

/-- Meridian reaches a close instant. -/
def batchCloseTime (t : TileId) (s : State) : State :=
  match s.issuing t, s.gridDue t (s.rd Reg.lehr_batch_period t) (s.vol t).mer.closeSec with
  | some k, some g =>
    let s := s.onMer t fun m => { m with closeSec := g }
    if ((s.vol t).lehr.stream k).used then s.closeBatch t k 1 else s
  | _, _ => s

/-- BATCH_CLOSE_TIME (R162). -/
def execBatchCloseTime (t : TileId) (s : State) : Host.Outcome State Fault Refusal := finish (batchCloseTime t) s

/-- A new generation of the archive keys whose blobs are durable comes into use after the open batch has been closed under
the old one. -/
def keyChange (t : TileId) (s : State) : State :=
  let busy := (s.tile t).media.jobs.any fun j => match j.2 with
    | .keys _ => true
    | _ => false
  match s.archGen t with
  | some g =>
    if g = (s.vol t).lehr.archGen ∨ busy then s
    else
      let s := match s.issuing t with
        | some k => if ((s.vol t).lehr.stream k).leaves = [] then s else s.closeBatch t k 5
        | none => s
      let s := (s.loadSlot t 6 (archPlace g)).loadSlot t 7 (blobPlace 2 7)
      s.onLehr t fun l => { l with archGen := g, signGen := g }
  | none => s

/-- KEY_CHANGE (R159). -/
def execKeyChange (t : TileId) (s : State) : Host.Outcome State Fault Refusal := finish (keyChange t) s

/-- A page is programmed `tile.lehr.flush_time` after its first record. -/
def pageFlush (t : TileId) (s : State) : State :=
  match (s.vol t).lehr.pageFirst with
  | some x => if x + s.rd Reg.lehr_flush_time t * 1000000 ≤ s.now then s.flushPage t else s
  | none => s

/-- PAGE_FLUSH (R180). -/
def execPageFlush (t : TileId) (s : State) : Host.Outcome State Fault Refusal := finish (pageFlush t) s

/-- RING_FULL (R181). -/
def execRingFull (t : TileId) (s : State) : Host.Outcome State Fault Refusal := finish (fun s => s.ringFull t) s

/-! ### Proofs and verification (R169, R170) -/

/-- The leaves of a closed batch, none when one is not held. -/
def leavesOf (l : List ArchRec) (c : Closure) : Option (List ArchRec) :=
  let x := l.filter fun r => decide (c.first ≤ r.seq) && decide (r.seq < c.first + c.count)
  if x.length = c.count then some x else none

/-- `tile.lehr.proof`. -/
def lehrProof (t : TileId) (s : State) : State :=
  let q := s.rd Reg.lehr_proof_seq t
  let k := seqStream q
  let l := s.held t k
  let cs := s.closures t k
  let done := fun (s : State) (r : Nat) => (s.wr Reg.lehr_proof_result t r).answer t .ok
  match l.find? fun r => decide (r.seq = q) with
  | none => done s 1
  | some r =>
    if inGap cs q then done s 1
    else match cs.find? fun c => decide (c.first ≤ q) && decide (q < c.first + c.count) with
      | some c =>
        match leavesOf l c with
        | some leaves =>
          let path := treePath 16 (q - c.first) (leaves.map fun x => leafHash (recBytes x))
          let b := [1] ++ natLE 1 path.length ++ natLE 2 (q - c.first) ++ natLE 2 c.count ++ [0, 0] ++ recBytes r ++ recBytes c.h ++
            recBytes c.r ++ recBytes c.s ++ fit 384 path.flatten
          done (s.wrB Reg.lehr_proof_block t 0 b) 0
        | none => done s 1
      | none =>
        match cs.getLast? with
        | some c => done s (if c.h.seq ≤ q then 2 else 1)
        | none => done s 2

/-- LEHR_PROOF (R169). -/
def execLehrProof (t : TileId) (s : State) : Host.Outcome State Fault Refusal := finish (lehrProof t) s

/-- The generation of the archive key that tagged a record: that of its closure group, else `g` (R159). -/
def genAt (cs : List Closure) (g q : Nat) : Nat :=
  match cs.find? fun d => decide (d.h.seq ≤ q) && decide (q ≤ d.h.seq + 2) with
  | some d => d.keyGen % 16
  | none => g

/-- The first failure inside a closed batch: result code and SEQ. A leaf not held or with a bad TAG comes in its place; a wrong root or signature has the
HEADER's SEQ (DESIGN CHOICE, notes/assumptions/35.md). -/
def verifyBatch (s : State) (t : TileId) (l : List ArchRec) (cs : List Closure) (c : Closure) : Option (Nat × Nat) :=
  let bad := (l.filter fun r => decide (c.first ≤ r.seq) && decide (r.seq < c.first + c.count)).find? fun r =>
    !s.tagGood t (genAt cs (c.keyGen % 16) r.seq) r
  match leavesOf l c with
  | none =>
    let q := ((List.range c.count).map (c.first + ·)).find? (fun q => !l.any fun r => decide (r.seq = q)) |>.getD c.first
    (match bad with
     | some r => some (if r.seq < q then (1, r.seq) else (4, q))
     | none => some (4, q))
  | some leaves =>
    match bad with
    | some r => some (1, r.seq)
    | none =>
      if treeHash 16 (leaves.map fun x => leafHash (recBytes x)) ≠ fit 32 c.root then some (2, c.h.seq)
      else
        let pub := s.rdB Reg.vault_sign_pubkeys t (65 * (c.keyGen / 16)) 65
        let msg := recHead c.h.seq c.h.who c.h.body ++ (recData c.r.body).take 10
        let sig := (recData c.r.body).drop 10 ++ (recData c.s.body).drop 10
        if ecdsaVerify pub msg sig then none else some (3, c.h.seq)

/-- Verify the closed batches from `q` on up to `b`: the first failure, else the first SEQ behind the last closed batch. A SEQ in no
batch that the tile can check is NOT_HELD; one in a declared gap lies in no batch. -/
def verifyClosed (s : State) (t : TileId) (l : List ArchRec) (cs : List Closure) (b : Nat) : Nat → List Closure → Except (Nat × Nat) Nat
  | q, [] => .ok q
  | q, c :: r =>
    if b < q then .ok q
    else if c.h.seq ≤ q then verifyClosed s t l cs b q r
    else if q < c.first then .error (4, q)
    else match if q < c.first + c.count then verifyBatch s t l cs c else none with
      | some e => .error e
      | none => verifyClosed s t l cs b c.h.seq r

/-- Verify the leaves of the open batch from `q` to `b`: every SEQ is held, and its TAG is good. -/
def verifyOpen (s : State) (t : TileId) (cs : List Closure) (g b : Nat) : Nat → List ArchRec → Option (Nat × Nat)
  | q, [] => if q ≤ b then some (4, q) else none
  | q, r :: l =>
    if b < q then none
    else if r.seq < q then verifyOpen s t cs g b q l
    else if r.seq ≠ q then some (4, q)
    else if s.tagGood t (genAt cs g q) r then verifyOpen s t cs g b (q + 1) l
    else some (1, q)

/-- `tile.lehr.verify`, with the archive key of an older generation loaded into general slot 8 (R464). A range that ends before it begins, and a SEQ that has not been issued, are NOT_HELD (DESIGN CHOICE,
notes/assumptions/35.md). -/
def lehrVerify (t : TileId) (s : State) : State :=
  let a := s.rd Reg.lehr_verify_first t
  let b := s.rd Reg.lehr_verify_last t
  let l := s.held t (seqStream a)
  let cs := s.closures t (seqStream a)
  let now := (s.lehrGens t).1
  let bad := if b < a then some (4, a)
    else match verifyClosed s t l cs b a cs with
      | .error e => some e
      | .ok q => verifyOpen s t cs now b q l
  let last := bad.elim b Prod.snd
  let older := (cs.filter fun c => decide (a < c.first + c.count) && decide (c.first ≤ last) && decide (c.keyGen % 16 ≠ now)).map fun c => c.keyGen % 16
  let s := older.eraseDups.foldl (fun s g => s.loadSlot t 8 (archPlace g)) s
  match bad with
  | some (code, q) =>
    let s := if code = 1 then s.bump Reg.lehr_tag_fail t else s
    ((s.wr Reg.lehr_verify_result t code).wr Reg.lehr_verify_bad_seq t q).answer t .ok
  | none => (s.wr Reg.lehr_verify_result t 0).answer t .ok

/-- LEHR_VERIFY (R170). -/
def execLehrVerify (t : TileId) (s : State) : Host.Outcome State Fault Refusal := finish (lehrVerify t) s

/-! ### Fetch and discard (R176, R179) -/

/-- A range that FETCH and ACK_DISCARD refuse with INVALID. -/
def badRange (a b : Nat) : Bool := decide (b < a) || decide (seqStream a ≠ seqStream b)

/-- The slots of a FETCH. -/
def State.fetchSlots (s : State) (t : TileId) (a b : Nat) : Bytes :=
  ((List.range (b + 1 - a)).map fun i => match s.heldRec t (a + i) with
    | some r => recBytes r
    | none => List.replicate 64 0).flatten

/-- A FETCH counts the records asked for, and the pages of the die that it reads (R177, R577). -/
def State.countFetch (s : State) (t : TileId) (a b : Nat) : State :=
  let at_ := ((List.range (b + 1 - a)).filterMap fun i => Tbl.get ((s.tile t).media.arch (seqStream (a + i))) (a + i)).map fun e => (e.lb, e.page)
  (s.bump Reg.lehr_fetch_records t 0 (b + 1 - a)).bump Reg.media_bytes_read t 0 (16384 * at_.eraseDups.length)

/-- ACK_DISCARD. -/
def ackDiscard (t : TileId) (first last : Nat) (s : State) : State :=
  let k := seqStream first
  let m := (s.tile t).media
  let hdr := (s.held t k).foldl (fun a r => match r.body with
    | .header _ _ _ _ _ _ => max a (r.seq + 1)
    | _ => a) 0
  let queued := (m.jobs.flatMap fun j => match j.2 with
    | .mapJ l => l
    | _ => []) ++ m.mapQ
  let list := queued.foldl (fun a e => match e with
    | .discard k' x y _ => if k' = k then mergeRange a (x, y) else a
    | _ => a) (m.disc k)
  if !s.serves t then s.answer t .notActive
  else if badRange first last then s.answer t .invalid
  else if hdr ≤ last + 1 then s.answer t .conflict
  else if 4096 < m.rangesCounted k (mergeRange list (first, last)) then s.answer t .limit
  else (s.queueMap t (.discard k first last (some s.acts.now))).mirror t (.discard k first last)


end Sys2Proof.Machine
end

