-- ==== Sys2Proof/Machine/Balance.lean ====
section
/-! DEFINITION. Balance.lean: chapter 6: taking the feed, closing the books, localisation, alarms, restatement, rebuild and change of grid.
Real amounts are exact rationals, rounded where the manual rounds. -/

namespace Sys2Proof.Machine

/-! ### Taking the feed (R185, R193, R194, R202 to R205) -/

/-- The book that a second belongs to: its end, its B, and whether its tick has closed it; none for a book that never existed: up to the
first one, between two grids, and, after the closing tick, on the old grid (R219). -/
def State.bookFor (s : State) (t : TileId) (sec : Nat) : Option (Nat × Nat × Bool) :=
  let x := (s.vol t).bal
  let ph := s.rd Reg.gather_grid_phase t
  let new := if sec ≤ x.start then none else some (gridAt ph x.b sec, x.b, decide (gridAt ph x.b sec ≤ x.tick))
  match x.grid with
  | some g => if sec ≤ g.tx then some (gridAt ph g.bOld sec, g.bOld, decide (gridAt ph g.bOld sec ≤ g.tc)) else new
  | none => new

/-- A remote head named by a node is usable (R190). -/
def State.headUsable (s : State) (t : TileId) (node midx b : Nat) : Bool :=
  let r := s.meter t (midxSlot midx)
  decide (midx < 2 ^ 22) && s.ownMidx t midx && decide (r.state = 1) && decide (s.clsKind t r.cls = 3) && decide (r.segment = node) &&
    decide (0 < r.idur) && decide (b % max r.idur 1 = 0)

/-- The zone heads for which the record of a meter is the usable remote head of a book. -/
def State.headsOf (s : State) (t : TileId) (tree : Cells) (b midx : Nat) : List Nat :=
  (zoneHeads tree).filter fun h =>
    decide ((treeNode tree h).head = midx) && (decide (h ≠ 0) || decide (s.rd Reg.balance_head_source t = 1)) && s.headUsable t h midx b

/-- The zones whose E_MET the energy of a meter goes to, in the books of a tree and B: that of its node; for a remote head the parent
zone (R190). -/
def State.metZones (s : State) (t : TileId) (tree : Cells) (b midx : Nat) : List Nat :=
  if s.clsKind t (s.meter t (midxSlot midx)).cls = 3 then
    ((s.headsOf t tree b midx).filter fun h => decide (h ≠ 0)).map fun h => zoneOf tree ((treeNode tree h).parent % 4096)
  else [zoneOf tree (s.nodeIn t tree midx)]

/-- The zones whose E_HEAD it goes to. -/
def State.headZones (s : State) (t : TileId) (tree : Cells) (b midx : Nat) : List Nat :=
  if s.clsKind t (s.meter t (midxSlot midx)).cls = 3 then s.headsOf t tree b midx else []

/-- What of an amount by phase lies above the cut of the record in force of some of the zones; a rebuild skips a book whose record it has
not found (R203, R218). -/
def BClosed.aboveCut (c : BClosed) (ready : Bool) (seq : Nat) (zones : List Nat) (e : List Int) : List Int :=
  (List.range 3).map fun p =>
    let late := fun z => match c.recs.find? fun r => decide (r.zone = z) && decide (r.ph = p + 1) with
      | some r => decide (r.cut < seq)
      | none => ready
    if zones.any late then e.getD p 0 else 0

/-- Add a share to an open book. -/
def addShare (l : List BShare) (n : BShare) : List BShare :=
  if l.any fun x => decide (x.midx = n.midx) then
    l.map fun x => if x.midx = n.midx then
      { x with e := add3 x.e n.e, ends := x.ends ++ n.ends, est := x.est || n.est, unph := x.unph || n.unph }
    else x
  else l ++ [n]

/-- A contribution to the book that holds second `sec`: to the open book, to the pending adjustment of a closed one, or counted (R202 to R204). `energy`
says whether it carries energy. -/
def State.contribute (s : State) (t : TileId) (seq sec : Nat) (energy : Bool) (n : BShare) : State :=
  let x := (s.vol t).bal
  let beyond := fun (s : State) =>
    if energy && x.ready then (s.wrI Reg.balance_beyond_horizon_mwh t (s.rdI Reg.balance_beyond_horizon_mwh t + n.e.sum)).bump Reg.balance_beyond_horizon t
    else s
  match s.bookFor t sec with
  | none => beyond s
  | some (T, b, shut) =>
    let horizon := s.rd Reg.balance_restate_horizon t
    if s.timeSec t + b < T - b then (if energy then s.bump Reg.balance_future t else s)
    else if shut then
      match x.closed.find? fun c => decide (c.t = T) with
      | some c =>
        let met := c.aboveCut x.ready seq (s.metZones t c.tree c.b n.midx) n.e
        let hd := c.aboveCut x.ready seq (s.headZones t c.tree c.b n.midx) n.e
        if (met ++ hd).all fun v => decide (v = 0) then s
        else if 0 < horizon ∧ x.tick ≤ T + horizon * c.b then
          let e : BPend := { seq := seq, midx := n.midx, met := met, head := hd }
          s.onBal t fun y => { y with closed := y.closed.map fun z => if z.t = T then { z with pend := z.pend ++ [e] } else z }
        else beyond s
      | none => beyond s
    else s.onBal t fun y => { y with books := Tbl.put y.books T (addShare ((Tbl.get y.books T).getD []) n) }

/-- The METER fields of a record. -/
structure MRec where
  seq : Nat
  midx : Nat
  out : Nat
  tend : Nat
  idur : Nat
  qual : Nat
  regs : List Int
  deriving DecidableEq, Repr

/-- Voltage values of a record by phase (R210). -/
def State.voltsOf (s : State) (t : TileId) (r : MeterRec) (m : MRec) : List (Nat × Nat) :=
  if bit m.qual 1 || bit m.qual 8 then []
  else
    let maps := s.maps t r.cls
    let l := (List.range maps.length).filterMap fun i => match maps[i]? with
      | some x => if x.bal = 3 ∧ x.unit = 35 ∧ x.rkind = 1 then some (milliVolts (m.regs.getD i 0) x.scaler).toNat else none
      | none => none
    match l with
    | [a, b, c] => [(1, a), (2, b), (3, c)]
    | a :: _ => if s.singlePhase t r = 0 then [] else [(s.singlePhase t r, a)]
    | [] => []

/-- Note the voltage values of a record whose TEND ends an open book (R210). -/
def State.takeVolts (s : State) (t : TileId) (m : MRec) : State :=
  let l := (s.voltsOf t (s.meter t (midxSlot m.midx)) m).map fun v => (m.midx, v)
  match s.bookFor t m.tend with
  | some (T, _, false) =>
    if T ≠ m.tend ∨ l = [] then s else s.onBal t fun y => { y with volts := Tbl.put y.volts T ((Tbl.get y.volts T).getD [] ++ l) }
  | _ => s

/-- The engine takes one METER record (R193, R194). Of a class with BAL 2 maps and no usable BAL 1 map it takes nothing: no energy class has its
export in the books (DESIGN CHOICE, notes/assumptions/30.md). -/
def State.takeMeter (s : State) (t : TileId) (m : MRec) (prior : Option (List Int)) : State :=
  let s := s.takeVolts t m
  let slot := midxSlot m.midx
  let r := s.meter t slot
  let b := (s.vol t).bal.b
  let bm := (Tbl.get (s.vol t).bal.meters slot).getD { tend := 0, regs := [], node := 0, cand := 0, cnt := 0 }
  let base := fun (s : State) (tend : Nat) (regs : List Int) => s.onBal t fun x => { x with meters := Tbl.put x.meters slot { bm with tend := tend, regs := regs } }
  let bGrid := match (s.vol t).bal.grid with
    | some g => if m.tend ≤ g.tx then g.bOld else b
    | none => b
  let takes := s.energyClass t r.cls && decide (0 < r.idur) && decide (bGrid % max r.idur 1 = 0)
  let est := decide (m.out = 1) || bit m.qual 1
  let ph := s.rd Reg.gather_grid_phase t
  let give := fun (s : State) (sec : Nat) (e : List Int) (ends : List Nat) =>
    if !takes then s
    else
      let s := s.contribute t m.seq sec true { midx := m.midx, e := e, ends := ends, est := est, unph := s.unphased t r }
      if 0 < e.sum ∧ r.relayRpt = 0 ∧ (s.vol t).bal.ready = true then s.meterEvidence t 4 m.midx (min (e.sum.toNat / 1000) (2 ^ 32 - 1)) else s
  let mEnd := gridAt ph (max r.idur 1) m.tend
  let has := fun rk => (s.maps t r.cls).any fun x => (decide (x.bal = 1) || decide (x.bal = 2)) && decide (x.unit = 30) && decide (x.rkind = rk)
  let rk2 := s.netEnergy t r 2 fun i => m.regs.getD i 0
  if bit m.qual 7 then
    match prior with
    | some l =>
      let d := fun i => m.regs.getD i 0 - l.getD i 0
      let e0 := s.netEnergy t r 0 d
      let s := give s m.tend (add3 (s.netEnergy t r 2 d) e0) []
      let s := if m.tend < bm.tend then give s (m.tend + m.idur) (neg3 e0) [] else s
      if bm.tend = m.tend then base s m.tend m.regs else s
    | none => s
  else if bm.tend ≠ 0 ∧ m.tend ≤ bm.tend then
    let s := if has 2 then give s m.tend rk2 [mEnd] else s
    if has 0 then s.bump Reg.balance_hole_ignored t else s
  else
    let s1 := base s m.tend m.regs
    let s2 := if has 2 then give s1 m.tend rk2 [mEnd] else s1
    if bm.tend = 0 ∨ !has 0 = true then s2
    else
      let maps := s.maps t r.cls
      let d := fun i =>
        let x := m.regs.getD i 0 - bm.regs.getD i 0
        let roll := (maps[i]?.map RegMap.roll).getD 0
        if x < 0 ∧ 0 < roll ∧ bit m.qual 2 = true then x + 10 ^ roll else x
      let n := (m.tend - bm.tend) / max m.idur 1
      if (m.tend - bm.tend) % max m.idur 1 ≠ 0 ∨ n = 0 ∨ (n ≠ 1 ∧ s.rd Reg.balance_spread_max t < n) then s2.bump Reg.balance_unpaired t
      else
        (List.range n).foldl (fun s j =>
          let back := n - 1 - j
          let at_ := m.tend - back * m.idur
          let amount := fun i => if back = 0 then d i - (n - 1 : Nat) * (d i / (n : Int)) else d i / (n : Int)
          give s at_ (s.netEnergy t r 0 amount) [gridAt ph (max r.idur 1) at_]) s2

/-- Amounts pending for a book of a zone and phase: for E_MET, and for E_HEAD of a remote head. The placement is that of now, the tree that of
the book (R197, R199). -/
def State.pendingOf (s : State) (t : TileId) (c : BClosed) (z p : Nat) : Int × Int :=
  c.pend.foldl (fun a e =>
    (a.1 + (if (s.metZones t c.tree c.b e.midx).contains z then e.met.getD p 0 else 0),
     a.2 + (if (s.headZones t c.tree c.b e.midx).contains z then e.head.getD p 0 else 0))) (0, 0)

/-- A restating record of a zone and phase is archived: what it has taken, from records up to its cut, waits no more, nor what reaches no book. -/
def State.clearPending (s : State) (t : TileId) (T z p cut : Nat) : State :=
  s.onBal t fun x => { x with closed := x.closed.map fun c => if c.t ≠ T then c else
    let take := fun (l : List Nat) (a : List Int) => if l.contains z || l.isEmpty then a.set p 0 else a
    let rest := c.pend.map fun e => if cut < e.seq then e else
      { e with met := take (s.metZones t c.tree c.b e.midx) e.met, head := take (s.headZones t c.tree c.b e.midx) e.head }
    { c with pend := rest.filter fun e => (e.met ++ e.head).any fun v => decide (v ≠ 0) } }

/-- A PHASE_BOOK record comes through the feed: it is the record in force of its book from now on, and a restating one clears what it has
taken (R203). -/
def State.takeBook (s : State) (t : TileId) (r : ArchRec) (data : Bytes) : State :=
  let T := fld data 0 6
  let q := fld data 10 2
  let x := (s.vol t).bal
  let s := if bit q 7 ∧ x.ready = true then
      (s.clearPending t T (r.who % 4096) (r.who / 2 ^ 16 % 4 - 1) x.cut).bump Reg.balance_restatements t
    else s
  let f := fun a => toSigned 64 (fld data (12 + a) 8)
  let absent := decide (fld data 12 8 = 2 ^ 63)
  let n : BRec := { zone := r.who % 4096, ph := r.who / 2 ^ 16 % 4, seq0 := if bit q 7 then x.link else r.seq, cut := x.cut,
                    eHead := if absent then none else some (f 0), eMet := f 8, eTech := f 16, cover := fld data 36 2, est := fld data 38 2,
                    unph := fld data 40 2, qual := q }
  let place := fun (l : List BRec) => if l.any fun y => decide (y.zone = n.zone) && decide (y.ph = n.ph) then
      l.map fun y => if y.zone = n.zone ∧ y.ph = n.ph then n else y
    else l ++ [n]
  s.onBal t fun y =>
    { y with closed := if y.closed.any fun c => decide (c.t = T) then y.closed.map fun c => if c.t = T then { c with recs := place c.recs } else c
                       else y.closed ++ [{ t := T, b := fld data 6 4, tree := s.treeAt t T (fld data 6 4), recs := [n], pend := [] }] }

/-- The engine takes the next record of its feed. -/
def State.takeRecord (s : State) (t : TileId) (r : ArchRec) : State :=
  match r.body with
  | .meter out tend idur qual regs =>
    let prior := if bit qual 7 then
        match s.heldRec t (s.vol t).bal.link with
        | some p => match p.body with
          | .meter _ _ _ _ l => some l
          | _ => none
        | none => none
      else none
    s.takeMeter t { seq := r.seq, midx := r.who % 2 ^ 22, out := out, tend := tend, idur := idur, qual := qual, regs := regs } prior
  | .link _ prior _ _ => s.onBal t fun x => { x with link := prior }
  | .book out data =>
    if out = 0x83 then s.onBal t fun x => { x with cut := r.seq }
    else if out = 0x84 then s.takeBook t r data
    else s
  | _ => s

/-- Take one record off the feed queue, missing SEQs first from the archive (R185). -/
def State.feedStep (s : State) (t : TileId) : State × Bool :=
  if !(s.vol t).bal.ready then (s, false)
  else
    let r := s.qRead t 2
    match r.2 with
    | some (.record x) =>
      let s := r.1
      let n := (s.vol t).bal.next
      if x.seq < n then (s, true)
      else
        let s := if n ≠ 0 ∧ n < x.seq then
            ((s.archived t (seqStream x.seq)).filter fun y => decide (n ≤ y.seq) && decide (y.seq < x.seq)).foldl (fun s y => s.takeRecord t y)
              (s.bump Reg.balance_feed_gaps t)
          else s
        ((s.takeRecord t x).onBal t fun y => { y with next := x.seq + 1 }, true)
    | _ => (r.1, false)

/-- BALANCE_FEED (R185). -/
def execBalanceFeed (t : TileId) (s : State) : Host.Outcome State Fault Refusal := finish (fun s => (s.feedStep t).1) s

/-- Take the whole feed. -/
def State.feedAll (s : State) (t : TileId) : State :=
  (List.range (s.queue t 2).fill_).foldl (fun s _ => (s.feedStep t).1) s

/-! ### Forming the books (R189, R190, R195, R199, R200) -/

/-- Round to the nearest integer, halves away from zero. -/
def roundQ (x : ℚ) : Int := if 0 ≤ x then (x + 1 / 2).floor else -((-x + 1 / 2).floor)

/-- What a tick works from: tree, B, T, its shares with node and kind, its voltage values with node, phase and mV. -/
structure BookIn where
  tree : Cells
  b : Nat
  T : Nat
  nodes : List Nat
  shares : List (BShare × Nat × Bool)
  volts : List (Nat × Nat × Nat)

/-- The input of the book that ends at T. -/
def State.bookIn (s : State) (t : TileId) (T b : Nat) : BookIn :=
  let c := s.treeAt t T b
  { tree := c, b := b, T := T, nodes := treeNodes c,
    shares := ((Tbl.get (s.vol t).bal.books T).getD []).map fun x =>
      (x, s.nodeIn t c x.midx, decide (s.clsKind t (s.meter t (midxSlot x.midx)).cls = 3))
    volts := ((Tbl.get (s.vol t).bal.volts T).getD []).map fun x => (s.nodeIn t c x.1, x.2) }

/-- Energy of a meter in a book on phase index `p`. -/
def BookIn.energyOf (x : BookIn) (midx p : Nat) : Int :=
  ((x.shares.filter fun y => decide (y.1.midx = midx)).map fun y => y.1.e.getD p 0).sum

/-- E_HEAD of a zone on phase index `p` (R190), and whether a remote head was found unusable. -/
def State.headOf (s : State) (t : TileId) (x : BookIn) (z p : Nat) : Option Int × Bool :=
  let src := s.rd Reg.balance_head_source t
  if z = 0 ∧ src = 0 then
    (match Tbl.get (s.vol t).bal.heads x.T with
     | some (some l, _) => some (l.getD p 0)
     | _ => none, false)
  else if z = 0 ∧ src = 2 then (none, false)
  else
    let h := (treeNode x.tree z).head
    if s.headUsable t z h x.b then (some (x.energyOf h p), false) else (none, true)

/-- The nested zones whose parent zone is `z`. -/
def nestedIn (c : Cells) (z : Nat) : List Nat :=
  (zoneHeads c).filter fun h => decide (h ≠ 0) && decide (zoneOf c ((treeNode c h).parent % 4096) = z)

/-- Energy of the meters placed in a zone and satisfying `p` of their node. A record of a class with KIND 3 is no meter: one that is no usable head
of a zone adds to no E_MET and no E_HEAD (DESIGN CHOICE, notes/assumptions/30.md). -/
def BookIn.metered (x : BookIn) (p : Nat) (sel : Nat → Bool) : Int :=
  ((x.shares.filter fun y => !y.2.2 && sel y.2.1).map fun y => y.1.e.getD p 0).sum

/-- What a nested zone adds to E_DOWN above it: its E_HEAD; without one, its meters and what its own nested zones add. `fuel` bounds the
levels of nesting. -/
def State.zoneDown (s : State) (t : TileId) (x : BookIn) (p : Nat) : Nat → Nat → Int
  | 0, _ => 0
  | fuel + 1, z =>
    match (s.headOf t x z p).1 with
    | some v => v
    | none =>
      x.metered p (fun m => decide (zoneOf x.tree m = z)) + ((nestedIn x.tree z).map fun h => s.zoneDown t x p fuel h).sum

/-- E_DOWN of a node (R200). -/
def State.eDown (s : State) (t : TileId) (x : BookIn) (n p : Nat) : Int :=
  let c := x.tree
  let z := if n = 0 then 0 else if (treeNode c n).isHead then zoneOf c ((treeNode c n).parent % 4096) else zoneOf c n
  let under := fun m => (treeChain c 16 m).contains n
  x.metered p (fun m => under m && decide (zoneOf c m = z)) +
    (((nestedIn c z).filter under).map (s.zoneDown t x p 16)).sum

/-- Voltage of a node in mV when it is observable, with the number of its values (R210, R211). -/
def State.nodeVolt (s : State) (t : TileId) (x : BookIn) (n p : Nat) : Option ℚ × Nat :=
  if n = 0 ∧ s.rd Reg.balance_head_source t = 0 then
    (match feederMean (s.vol t).marver.history (p + 1) x.T 60 with
     | some v => some (v : ℚ)
     | none => none, 0)
  else
    let l : List Nat := (x.volts.filter fun v => decide (v.1 = n) && decide (v.2.1 = p + 1)).map fun v => v.2.2
    (if l.length < s.rd Reg.balance_v_min_meters t ∨ l = [] then none else some ((l.sum : ℚ) / (l.length : ℚ)), l.length)

/-- What localisation uses of a node on a phase. -/
structure NodeQ where
  n : Nat
  down : Int
  watt : ℚ
  volt : ℚ
  seen : Bool
  count : Nat
  rseg : ℚ
  loss : Int

/-- Form a node's quantities (R200). -/
def State.nodeQ (s : State) (t : TileId) (x : BookIn) (p n : Nat) : NodeQ :=
  let d := s.eDown t x n p
  let e := treeNode x.tree n
  let nv := s.nodeVolt t x n p
  let v : ℚ := match nv.1 with
    | some v => v / 1000
    | none => ((if e.vnom = 0 then s.rd Reg.balance_v_nominal t else e.vnom : Nat) : ℚ) / 100
  let w : ℚ := (d : ℚ) * 18 / (5 * (x.b : ℚ))
  let i : ℚ := if v = 0 then 0 else |w| / (v * ((s.rd Reg.balance_pf_assumed t : ℚ) / 1000))
  let r : ℚ := (e.rseg : ℚ) / 1000000
  let loss := if n = 0 ∨ e.rseg = 0 ∨ !bit e.phases p = true then 0
    else roundQ (i * i * r * ((s.rd Reg.balance_shape_factor t : ℚ) / 1000) * (x.b : ℚ) * 5 / 18)
  { n := n, down := d, watt := w, volt := v, seen := nv.1.isSome, count := nv.2, rseg := r, loss := loss }

/-- E_TECH of a zone on a phase (R200). -/
def eTech (x : BookIn) (l : List NodeQ) (z p : Nat) : Int :=
  let c := x.tree
  let seg := ((l.filter fun q => decide (q.n ≠ 0) && decide (q.n ≠ z) && decide (zoneOf c ((treeNode c q.n).parent % 4096) = z)).map NodeQ.loss).sum
  let idle := ((x.nodes.filter fun n => decide (zoneOf c n = z) && bit (treeNode c n).phases p).map fun n =>
    let e := treeNode c n
    let k := b2n (bit e.phases 0) + b2n (bit e.phases 1) + b2n (bit e.phases 2)
    roundQ ((e.p0 : ℚ) / 1000 * (x.b : ℚ) * 5 / (18 * (k : ℚ)))).sum
  seg + idle

/-- The span (a, b] of seconds holds a re-step or part of a holdover (R205, R209). -/
def Bal.suspectIn (x : Bal) (a b : Nat) : Bool :=
  x.suspect.any fun y => decide (y.1 ≤ b) && (match y.2 with
    | some e => decide (a < e)
    | none => true)

/-- Energy of a meter goes to phase index `p`, by a map of import or of export (R192, R195). -/
def State.feedsPhase (s : State) (t : TileId) (r : MeterRec) (p : Nat) : Bool :=
  let k := s.singlePhase t r
  [1, 2].any fun bal =>
    let n := (balMaps (s.maps t r.cls) bal).length
    decide (n = 3) || (decide (n ≠ 0) && (decide (k = 0) || decide (k = p + 1)))

/-- COVER, EST and UNPH of a zone and phase, with no expected meter all 0 (R195). -/
def State.coverage (s : State) (t : TileId) (x : BookIn) (z p : Nat) : Nat × Nat × Nat :=
  let ph := s.rd Reg.gather_grid_phase t
  let expected := (s.slotsOf t fun r => decide (r.state = 1) && decide (0 < r.idur) && decide (x.b % max r.idur 1 = 0)).filter fun slot =>
    let r := s.meter t slot
    let m := s.midxOf t slot
    s.energyClass t r.cls && decide (zoneOf x.tree (s.nodeIn t x.tree m) = z) && s.feedsPhase t r p
  let got := fun slot => x.shares.find? fun y => decide (y.1.midx = s.midxOf t slot)
  let n := expected.length
  let covered := expected.countP fun slot =>
    let i := (s.meter t slot).idur
    match got slot with
    | some y => (List.range (x.b / i)).all fun j => y.1.ends.contains (gridAt ph i (x.T - j * i))
    | none => false
  let est := expected.countP fun slot => match got slot with
    | some y => y.1.est
    | none => false
  let un := expected.countP fun slot => s.unphased t (s.meter t slot)
  (covered * 1000 / max n 1, est * 1000 / max n 1, un * 1000 / max n 1)

/-- E_HEAD as the record holds it. -/
def headBytes : Option Int → Bytes
  | some v => intLE 8 v
  | none => natLE 8 (2 ^ 63)

/-- Bytes 0x16 on of a PHASE_BOOK record. -/
def phaseBook (eHead : Option Int) (eMet eTech : Int) (cover est unph : Nat) : Bytes :=
  headBytes eHead ++ intLE 8 eMet ++ intLE 8 eTech ++ natLE 2 cover ++ natLE 2 est ++ natLE 2 unph

/-- Step 3 of R201 for one zone and phase. A book interval that the metrology has not delivered was not measured to its end: it carries INTERP
(R209, R229). -/
def State.closePhase (s : State) (t : TileId) (x : BookIn) (l : List NodeQ) (z p : Nat) : State :=
  let hd := s.headOf t x z p
  let nested := ((nestedIn x.tree z).map fun h => ((s.headOf t x h p).1).getD 0).sum
  let met := x.metered p (fun m => decide (zoneOf x.tree m = z)) + nested
  let tech := eTech x l z p
  let cv := s.coverage t x z p
  let b := (s.vol t).bal
  let interp := decide (z = 0) && decide (s.rd Reg.balance_head_source t = 0) && (match Tbl.get b.heads x.T with
    | some h => h.2
    | none => true)
  let near := x.nodes.any fun n => decide (zoneOf x.tree n = z) && b.flags.contains n
  let q := b2n (hd.1.isSome && decide (s.rd Reg.balance_cover_min t ≤ cv.1)) + 2 * b2n (decide (0 < cv.2.1)) + 0x20 * b2n interp +
    0x40 * b2n near + 0x100 * b2n (b.suspectIn (x.T - x.b) x.T) + 0x200 * b2n (decide (0 < cv.2.2))
  let s := if hd.2 then s.bump Reg.balance_head_unusable t else s
  let s := if z = 0 then s.wrI Reg.balance_root_nontech t (match hd.1 with
      | some h => h - met - tech
      | none => -(2 ^ 63)) p else s
  s.book t (p + 1) z 0x84 x.T x.b q (phaseBook hd.1 met tech cv.1 cv.2.1 cv.2.2)

/-! ### Localisation (R211 to R213) -/

/-- The comparison node of an observable node: its nearest observable ancestor, with the path below it, when every segment of the path has a resistance. -/
def comparison (x : BookIn) (l : List NodeQ) (n : Nat) : Option (NodeQ × List NodeQ) :=
  let q := fun m => l.find? fun y => decide (y.n = m)
  let chain := (treeChain x.tree 16 n).drop 1
  match chain.find? fun m => (q m).any NodeQ.seen with
  | some a =>
    let path := (n :: chain.takeWhile fun m => decide (m ≠ a)).filterMap q
    match q a with
    | some qa => if path.all fun y => decide (0 < y.rseg) then some (qa, path) else none
    | none => none
  | none => none

/-- Residual (V), unmetered current and comparison node of each compared node on a phase (R212). -/
def compareAll (x : BookIn) (l : List NodeQ) : List (NodeQ × Nat × ℚ × ℚ) :=
  (l.filter fun q => decide (q.n ≠ 0) && q.seen).filterMap fun q =>
    match comparison x l q.n with
    | some (a, path) =>
      let r := (path.map NodeQ.rseg).sum
      let dve := (path.map fun k => if k.volt = 0 then 0 else k.rseg * k.watt / k.volt).sum
      let rho := (a.volt - q.volt) - dve
      some (q, a.n, rho, rho / r)
    | none => none

/-- The sink power of a compared node, in W to the nearest (R212). -/
def sinkOf (l : List (NodeQ × Nat × ℚ × ℚ)) (e : NodeQ × Nat × ℚ × ℚ) : Int :=
  let sub := ((l.filter fun y => decide (y.2.1 = e.1.n)).map fun y => y.2.2.2).sum
  roundQ ((e.2.2.2 - sub) * e.1.volt)

/-- Limit to 32 signed bits. -/
def lim32 (v : Int) : Int := max (-(2 ^ 31)) (min (2 ^ 31 - 1) v)

/-- The score update of R213. -/
def BPhase.score (y : BPhase) (x : Int) (tau floor_ : Nat) : BPhase :=
  let dOld : Int := (x - y.s).natAbs
  let s := lim32 (y.s + (x - y.s).tdiv tau)
  let d := lim32 (y.d + (dOld - y.d).tdiv tau)
  { y with s := s, d := d, x := x, conf := min 255 (32 * s.natAbs / (max d (floor_ : Int)).toNat) }

/-- The score part of a phase, and C of a node with its deciding phase (R217). -/
def BPhase.part (y : BPhase) (unit : Nat) : Nat := y.s.toNat * y.conf / (255 * unit)
def BNode.composite (x : BNode) (unit : Nat) : Nat × Nat :=
  let parts := x.ph.map fun y => y.part unit
  let best := parts.foldl max 0
  (min (best + x.points) 65535, parts.idxOf best)

/-- Change a phase of a node. -/
def State.onPhase (s : State) (t : TileId) (n p : Nat) (f : BPhase → BPhase) : State :=
  s.onNode t n fun x => { x with ph := x.ph.set p (f (x.ph.getD p BPhase.zero)) }

/-- Step 4 of R201 on one phase: scores, node voltages and E_DOWN. -/
def State.localise (s : State) (t : TileId) (x : BookIn) (l : List NodeQ) (p : Nat) : State :=
  let cmp := compareAll x l
  let s := l.foldl (fun s q =>
    let v := if q.seen then (q.volt * 1000).floor.toNat else 0
    let y := (s.bnode t q.n).ph.getD p BPhase.zero
    if y.down = q.down ∧ y.volt = v then s else s.onPhase t q.n p fun y => { y with down := q.down, volt := v }) s
  cmp.foldl (fun s e => s.onPhase t e.1.n p fun y =>
    y.score (sinkOf cmp e) (s.rd Reg.balance_score_tau t) (s.rd Reg.balance_conf_floor_w t)) s

/-- A node and its comparison node are observable (R209), whether or not the path between them is modelled. -/
def observed (x : BookIn) (l : List NodeQ) (n : Nat) : Bool :=
  let seen := fun m => (l.find? fun y => decide (y.n = m)).any NodeQ.seen
  seen n && ((treeChain x.tree 16 n).drop 1).any seen

/-- The SEGMENT records of a tick (R213), of all phases. A phase that a node does not have is scored and never archived, and E_UNMET is rounded down
(DESIGN CHOICE, notes/assumptions/30.md). -/
def State.segments (s : State) (t : TileId) (x : BookIn) (ls : List (List NodeQ)) : State :=
  let unit := s.rd Reg.balance_score_unit_w t
  let b := (s.vol t).bal
  let all := ((s.vol t).bal.nodes.filter fun e => decide (e.1 ≠ 0)).flatMap fun e => (List.range 3).filterMap fun p =>
    let y := e.2.ph.getD p BPhase.zero
    if (s.rd Reg.balance_report_floor_w t ≤ y.s.natAbs ∨ e.2.raised = true) ∧ bit (treeNode x.tree e.1).phases p = true then
      some (e.1, p, (e.2.composite unit).1)
    else none
  let cap := s.rd Reg.balance_segment_records_max t
  let sorted := all.mergeSort fun a c => decide (c.2.2 ≤ a.2.2)
  let keep := sorted.take cap
  let interp := match Tbl.get (s.vol t).marver.history x.T with
    | some m => m.settle || m.interp || !m.complete
    | none => true
  let s := (all.filter fun e => keep.contains e).foldl (fun s e =>
    let n := s.bnode t e.1
    let y := n.ph.getD e.2.1 BPhase.zero
    let l := ls.getD e.2.1 []
    let q := l.find? fun z => decide (z.n = e.1)
    let c := (compareAll x l).find? fun z => decide (z.1.n = e.1)
    let rho := match c with
      | some z => max (-32767) (min 32767 (roundQ (z.2.2.1 * 100)))
      | none => 0
    let qual := b2n (observed x l e.1) + 0x20 * b2n (interp && decide (s.rd Reg.balance_head_source t = 0)) + 0x40 * b2n (b.flags.contains e.1) +
      0x100 * b2n (b.suspectIn (x.T - x.b) x.T)
    s.book t (e.2.1 + 1) e.1 0x85 x.T x.b qual
      (intLE 8 y.down ++ intLE 8 (y.x * x.b * 5 / 18) ++ intLE 4 y.s ++ natLE 2 n.points ++ natLE 1 y.conf ++
        natLE 1 (min 255 ((q.map NodeQ.count).getD 0)) ++ intLE 2 rho ++ natLE 1 (b2n n.raised))) s
  if cap < all.length then s.bump Reg.balance_segment_records_cut t else s

/-! ### Evidence decay and alarms (R215, R217) -/

/-- Archive an ALARM record: STATE 1 RAISED, 0 CLEARED, 2 RESET. -/
def State.alarmRecord (s : State) (t : TileId) (n T b st : Nat) : State :=
  let x := s.bnode t n
  let c := x.composite (s.rd Reg.balance_score_unit_w t)
  s.book t (c.2 + 1) n 0x87 T b 1 (natLE 2 c.1 ++ intLE 4 (x.ph.getD c.2 BPhase.zero).s ++ natLE 2 x.points ++ natLE 1 st)

/-- Step 5 of R201 for one node. -/
def State.alarmStep (s : State) (t : TileId) (T b n : Nat) : State :=
  let tau := max (s.rd Reg.balance_evidence_tau t) 1
  let s := s.onNode t n fun x => { x with ev := x.ev - x.ev / tau }
  if n = 0 then s
  else
    let x := s.bnode t n
    let c := (x.composite (s.rd Reg.balance_score_unit_w t)).1
    let go := if x.raised then decide (c < s.rd Reg.balance_alarm_off t) else decide (s.rd Reg.balance_alarm_on t ≤ c)
    if !go then s.onNode t n fun y => { y with k := 0 }
    else if x.k + 1 < s.rd Reg.balance_alarm_confirm t then s.onNode t n fun y => { y with k := y.k + 1 }
    else
      let s := s.alarmRecord t n T b (b2n !x.raised)
      let s := s.onNode t n fun y => { y with k := 0, raised := !x.raised }
      s.event t (if x.raised then 0 else 2) (if x.raised then 0x1302 else 0x1301) n c

/-- Count the nodes in RAISED. -/
def State.countRaised (s : State) (t : TileId) : State :=
  s.wr Reg.balance_alarms_raised t ((s.vol t).bal.nodes.countP fun e => e.2.raised)

/-! ### Restatement (R203) -/

/-- Step 6 of R201, oldest book first: every book that ends by `full` (R219), and at most `tile.balance.restate_max` of the others. The restating
record clears what it takes when it is archived (`State.takeBook`). -/
def State.restate (s : State) (t : TileId) (full : Nat) : State :=
  let all := ((s.vol t).bal.closed.mergeSort fun a c => decide (a.t ≤ c.t)).flatMap fun c => c.recs.map fun r => (c, r)
  let due := all.filter fun x => decide (s.pendingOf t x.1 x.2.zone (x.2.ph - 1) ≠ (0, 0))
  let late := due.filter fun x => decide (full < x.1.t)
  ((due.filter fun x => decide (x.1.t ≤ full)) ++ late.take (s.rd Reg.balance_restate_max t)).foldl (fun s x =>
    let c := x.1
    let r := x.2
    let a := s.pendingOf t c r.zone (r.ph - 1)
    let hd := r.eHead.map fun h => h + a.2
    let data := bookData c.t c.b (setBit r.qual 7 true) (phaseBook hd (r.eMet + a.1) r.eTech r.cover r.est r.unph)
    s.onLehr t fun l => { l with inq := l.inq ++ [.bookRestate (bookWho t (s.streamOf t) r.ph r.zone) 0x84 r.seq0 data] }) s

/-! ### Flags and placement (R198, R216) -/

/-- Step 7 of R201. A meter whose SEGMENT names no node in use counts in `tile.balance.bad_segment` at every tick (DESIGN CHOICE,
notes/assumptions/30.md). -/
def State.flagNodes (s : State) (t : TileId) : State :=
  let c := s.tree t
  let lvl := s.rd Reg.balance_tamper_near_level t
  let hot := fun n => decide (lvl ≤ (s.bnode t n).points)
  let flags := ((treeNodes c).filter fun n => hot n || (decide (n ≠ 0) && hot ((treeNode c n).parent % 4096))).mergeSort fun a b => decide (a ≤ b)
  let s := s.onBal t fun x => { x with flags := flags }
  let bits : Bytes := (List.range 512).map fun i => BitVec.ofNat 8 (((List.range 8).filter fun k => flags.contains (8 * i + k)).map fun k => 2 ^ k).sum
  let s := s.mirror t (.tamperNear bits)
  let confirm := s.rd Reg.balance_move_confirm t
  (s.slotsOf t fun r => decide (r.state = 1)).foldl (fun s slot =>
    let r := s.meter t slot
    if r.segment ≠ 0xFFFF then
      if (treeNode c r.segment).used then s else s.bump Reg.balance_bad_segment t
    else if r.path % 4 ≠ 0 then s
    else
      let m := (Tbl.get (s.vol t).bal.meters slot).getD { tend := 0, regs := [], node := 0, cand := 0, cnt := 0 }
      let k := s.candidate t (s.midxOf t slot)
      let put := fun (s : State) (m : BMeter) => s.onBal t fun x => { x with meters := Tbl.put x.meters slot m }
      if k = m.node then (if m.cnt = 0 then s else put s { m with cnt := 0 })
      else
        let n := if k = m.cand then m.cnt + 1 else 1
        if confirm ≤ n then (put s { m with node := k, cand := k, cnt := 0 }).bump Reg.balance_placement_moves t
        else put s { m with cand := k, cnt := n }) s

/-! ### The close tick (R201) -/

/-- Archive what waits at G8 (the tick's TICK record stands last). -/
def State.lehrAll (s : State) (t : TileId) : State :=
  (List.range (s.vol t).lehr.inq.length).foldl (fun s _ => lehrArchiveGroup t s) s

/-- Close the books of one interval: steps 3 and 4. -/
def State.closeBook (s : State) (t : TileId) (T b : Nat) : State :=
  let x := s.bookIn t T b
  let ls := (List.range 3).map fun p => x.nodes.map (s.nodeQ t x p)
  let s := (zoneHeads x.tree).foldl (fun s z => (List.range 3).foldl (fun s p => s.closePhase t x (ls.getD p []) z p) s) s
  let s := (List.range 3).foldl (fun s p => s.localise t x (ls.getD p []) p) s
  let s := s.segments t x ls
  let horizon := s.rd Reg.balance_restate_horizon t
  let fresh : BClosed := { t := T, b := b, tree := x.tree, recs := [], pend := [] }
  s.onBal t fun y =>
    Bal.shedTree
      { y with tick := max y.tick T, books := Tbl.del y.books T, volts := Tbl.del y.volts T, heads := Tbl.del y.heads T
               closed := (y.closed ++ [fresh]).filter fun c =>
                 decide (max y.tick T ≤ c.t + horizon * c.b) || !c.pend.isEmpty }

/-- A tick: the TICK record, the feed up to it, the books, alarms, restatements (those that end by `full` without limit), flags. -/
def State.tick (s : State) (t : TileId) (Ts : List Nat) (T b full : Nat) : State :=
  let c := s.treeAt t T b
  let ver := (s.rd Reg.balance_tree_version t + 65536 - b2n ((s.vol t).bal.oldTree.any fun o => decide (T < o.2 + b))) % 65536
  let s := s.book t 0 0 0x83 T b 1 (natLE 2 ver ++ natLE 1 (zoneHeads c).length)
  let s := (s.lehrAll t).feedAll t
  let s := Ts.foldl (fun s T => s.closeBook t T b) s
  let s := ((0 :: (s.vol t).bal.nodes.keys).eraseDups).foldl (fun s n => s.alarmStep t T b n) s
  ((s.countRaised t).restate t full).flagNodes t |>.bump Reg.balance_books_closed t

/-- CLOSE_TICK: due at T + `tile.balance.close_window` × B. -/
def closeTick (t : TileId) (s : State) : State :=
  let x := (s.vol t).bal
  let T := if x.tick = 0 ∨ x.tick < x.first then x.first else x.tick + x.b
  if !x.ready || !s.hasTime t || (s.vol t).lehr.stopped || (s.issuing t).isNone ||
      decide (s.timeSec t < T + s.rd Reg.balance_close_window t * x.b) then s
  else s.tick t [T] T x.b 0

/-- CLOSE_TICK (R201). -/
def execCloseTick (t : TileId) (s : State) : Host.Outcome State Fault Refusal := finish (closeTick t) s

/-- GRID_CHANGE_TICK: the closing tick of the old grid (R219). -/
def gridChangeTick (t : TileId) (s : State) : State :=
  let x := (s.vol t).bal
  match x.grid with
  | some g =>
    if !x.ready || !s.hasTime t || (s.vol t).lehr.stopped || (s.issuing t).isNone || decide (s.timeSec t < g.at_) then s
    else
      let n := (g.tx - g.tc) / max g.bOld 1
      let s := s.tick t ((List.range n).map fun i => g.tc + (i + 1) * g.bOld) g.tx g.bOld g.tx
      s.onBal t fun y =>
        Bal.shedTree { y with grid := none, closed := y.closed.filter fun c => decide (g.tx < c.t)
                              books := y.books.filter fun e => decide (g.tx < e.1), volts := y.volts.filter fun e => decide (g.tx < e.1) }
  | none => s

/-- GRID_CHANGE_TICK (R219). -/
def execGridChangeTick (t : TileId) (s : State) : Host.Outcome State Fault Refusal := finish (gridChangeTick t) s

/-! ### The tree (R197, R217) -/

/-- The tree that the staging entry holds, as bytes that differ from the default tree. -/
def State.stagedTree (s : State) (t : TileId) : Cells :=
  let c := s.cells Reg.balance_tree_stage t 0
  let keys := (List.range 32 ++ c.map Prod.fst).eraseDups
  keys.foldl (fun m a => Cells.write (Reg.balance_tree.dflt.byteAt 0) m a (Cells.read (fun _ => 0) c a)) []

/-- The first node that fails a check of R197. -/
def State.badNode (s : State) (t : TileId) (c : Cells) : Option Nat :=
  let listed := ((0 :: c.map fun e => e.1 / 32).eraseDups).mergeSort fun a b => decide (a ≤ b)
  let used := listed.filter fun n => (treeNode c n).used
  let heads := used.filter fun n => decide (n = 0) || (treeNode c n).isHead
  let bad := fun n =>
    let x := treeNode c n
    let head := decide (x.head < 2 ^ 22) || (!x.isHead && decide (x.head = 2 ^ 32 - 1))
    let res := decide (x.flags / 8 ≠ 0) || decide (x.phases / 8 ≠ 0) || decide (x.res ≠ 0) || !head || (decide (n ≠ 0) && decide (4096 ≤ x.parent))
    if n = 0 then res || !x.used || decide (x.parent ≠ 0xFFFF)
    else if !x.used then res
    else
      let ch := treeChain c 16 n
      res || !(treeNode c (x.parent % 4096)).used || decide (ch.getLast? ≠ some 0) ||
      (x.isHead && !(decide (x.head < 2 ^ 22) && s.ownMidx t x.head)) ||
      (decide (x.anchor ≠ 0) && used.any fun m => decide (m < n) && decide ((treeNode c m).anchor = x.anchor)) ||
      (x.isHead && decide (64 ≤ heads.idxOf n))
  let head0 := (treeNode c 0).isHead && !(decide ((treeNode c 0).head < 2 ^ 22) && s.ownMidx t (treeNode c 0).head)
  if head0 || bad 0 then some 0 else listed.find? bad

/-- `tile.balance.tree_commit` (R197). -/
def treeCommit (t : TileId) (s : State) : State :=
  let result := fun (s : State) (st : Status) => (s.wr Reg.balance_last_result t st.code).answer t st
  if !s.serves t then result s .notActive
  else if (s.vol t).bal.oldTree.isSome then result s .busy
  else
    let c := s.stagedTree t
    match s.badNode t c with
    | some n => result (s.wr Reg.balance_tree_bad_node t n) .invalid
    | none =>
      let s := s.treeChange t
      let s := { s with regs := if c = [] then Tbl.del s.regs (Reg.balance_tree.key t 0) else Tbl.put s.regs (Reg.balance_tree.key t 0) (.oct c) }
      let s := s.mirror t (.config [(Reg.balance_tree.runKey 0, .oct c)] (s.tile t).calSince) (7 + c.length)
      let s := s.wr Reg.balance_tree_version t (s.rd Reg.balance_tree_version t + 1)
      result (s.wr Reg.balance_tree_bad_node t 0xFFFF) .ok

/-- TREE_COMMIT (R197). -/
def execTreeCommit (t : TileId) (s : State) : Host.Outcome State Fault Refusal := finish (consuming t [Reg.balance_tree_stage] (treeCommit t)) s

/-- TREE_TAKES_EFFECT: at the first grid point after a commit every S and D is 0, and RAISED nodes archive an ALARM record with STATE 2 (R213, R217).
TEND of that record is the grid point (DESIGN CHOICE, notes/assumptions/30.md). -/
def treeTakesEffect (t : TileId) (s : State) : State :=
  match (s.vol t).bal.effect with
  | some g =>
    if !(s.vol t).bal.ready || !s.hasTime t || decide (s.timeSec t < g) then s
    else
      let s := ((s.vol t).bal.nodes.filter fun e => e.2.raised).foldl (fun s e => s.alarmRecord t e.1 g (s.bookBAt t g) 2) s
      let s := s.onBal t fun x =>
        { x with effect := none
                 nodes := x.nodes.map fun e => (e.1, { e.2 with k := 0, raised := false, ph := e.2.ph.map fun y => { y with s := 0, d := 0 } }) }
      s.countRaised t
  | none => s

/-- TREE_TAKES_EFFECT (R217). -/
def execTreeTakesEffect (t : TileId) (s : State) : Host.Outcome State Fault Refusal := finish (treeTakesEffect t) s

/-! ### Rebuild (R218, R219) -/

/-- Read the archive from the scan start on (R218): the records in force of the closed books first, which may lie before it, then baselines,
contributions, evidence and alarm states; last the evidence that still waits to be archived. -/
def State.rebuildScan (s : State) (t : TileId) (all : List ArchRec) (start : Nat) : State :=
  let scan := all.filter fun r => decide (start ≤ r.seq)
  let books := all.foldl (fun s r => match r.body with
    | .meter _ _ _ _ _ => s
    | _ => s.takeRecord t r) s
  let points := fun (s : State) (who : Nat) (d : Bytes) => s.onNode t (who % 4096) fun x => { x with ev := min (x.ev + 256 * fld d 16 2) (2 ^ 32 - 1) }
  let s := (books.onBal t fun x => { x with link := 0, seen := x.seen ++ scan.filterMap seenIn }) |> scan.foldl (fun s r => match r.body with
    | .meter _ _ _ _ _ => s.takeRecord t r
    | .link _ prior _ _ => s.onBal t fun x => { x with link := prior }
    | .book out d =>
      if out = 0x83 then
        let tau := max (s.rd Reg.balance_evidence_tau t) 1
        s.onBal t fun x => { x with nodes := x.nodes.map fun e => (e.1, { e.2 with ev := e.2.ev - e.2.ev / tau }) }
      else if out = 0x86 then points s r.who d
      else if out = 0x87 then s.onNode t (r.who % 4096) fun x => { x with raised := decide (fld d 20 1 = 1) }
      else s
    | _ => s)
  (s.vol t).lehr.inq.foldl (fun s g => match g with
    | .book who 0x86 d => points s who d
    | _ => s) s

/-- Where a rebuild starts (R218, R219): the engine before the scan, and the scan start. A tree has taken effect when a tick has run since. Without a TICK record the first book is the next
one, and everything held is read (DESIGN CHOICE, notes/assumptions/36.md). -/
def State.rebuildFrom (s : State) (t : TileId) (k : Nat) : Bal × Nat :=
  let ph := s.rd Reg.gather_grid_phase t
  let bNew := s.rd Reg.balance_interval t
  let now := s.timeSec t
  let keep := (s.vol t).bal
  let base : Bal := { keep.restart with b := bNew, seen := keep.seen }
  match s.newestTick t k with
  | none =>
    let first := gridAbove ph bNew now
    ({ base with first := first, start := first - bNew }, 0)
  | some (tc, bOld) =>
    let from_ := tc + bOld / 2 - s.rd Reg.balance_rebuild_lookback t
    let cs := s.closures t k
    let base := { base with effect := base.effect.filter fun g => decide (tc + s.rd Reg.balance_close_window t * bOld < g) }
    let start := match cs.find? fun c => (match c.r.body with
        | .sigR ns _ => decide (from_ ≤ ns / 1000000000)
        | _ => false) with
      | some c => c.first
      | none => (cs.getLast?.map fun c => c.h.seq).getD 0
    if bNew = bOld then (Bal.shedTree { base with first := tc + bOld, tick := tc }, start)
    else
      let tx := gridAt ph bOld now
      let tn := gridAt ph bNew (tx + bNew)
      let grid : BGrid := { bOld := bOld, tc := tc, tx := tx, at_ := tx + s.rd Reg.balance_close_window t * bOld }
      (Bal.shedTree { base with first := tn, start := tn - bNew, tick := tc, grid := some grid }, start)

/-- BALANCE_REBUILD: when the tile begins issuing, before the feed is taken. -/
def balanceRebuild (t : TileId) (s : State) : State :=
  match s.issuing t with
  | none => s
  | some k =>
    if (s.vol t).bal.ready || !s.serves t || !s.hasTime t then s
    else
      let l := s.archived t k
      let next := (l.getLast?.map fun r => r.seq + 1).getD ((s.vol t).lehr.stream k).next
      let x := s.rebuildFrom t k
      let s := (s.onBal t fun _ => x.1).rebuildScan t l x.2
      let s := s.onBal t fun x => { x with ready := true, rebuilt := true, next := next }
      ((s.countRaised t).bump Reg.balance_rebuilds t).wr Reg.balance_rebuild_time t (Config.measured 1 t s.now)

/-- BALANCE_REBUILD (R218). -/
def execBalanceRebuild (t : TileId) (s : State) : Host.Outcome State Fault Refusal := finish (balanceRebuild t) s

/-! ### Reading (R220) -/

/-- `tile.balance.node_status`. -/
def State.nodeStatus (s : State) (t : TileId) : Bytes :=
  let sel := s.rd Reg.balance_node_select t
  let n := sel % 4096
  let p := sel / 4096 % 4 - 1
  let x := s.bnode t n
  let y := x.ph.getD p BPhase.zero
  let placed := (s.slotsOf t fun r => decide (r.state = 1)).countP fun slot => decide (s.nodeOf t (s.midxOf t slot) = n)
  fit 64 (intLE 4 y.s ++ intLE 4 y.d ++ intLE 4 y.x ++ natLE 1 y.conf ++ natLE 1 (b2n x.raised) ++ natLE 1 x.k ++
    natLE 1 (b2n ((s.vol t).bal.flags.contains n)) ++ natLE 2 x.points ++ natLE 2 (x.composite (s.rd Reg.balance_score_unit_w t)).1 ++
    natLE 4 placed ++ intLE 8 y.down ++ natLE 4 y.volt)

/-- Pending adjustments: the sum of what waits for the records in force, and the books that it waits for. -/
def State.pendingBooks (s : State) (t : TileId) : Int × Nat :=
  let l := ((s.vol t).bal.closed.flatMap fun c => c.recs.map fun r => s.pendingOf t c r.zone (r.ph - 1)).filter fun a => decide (a ≠ (0, 0))
  ((l.map fun a => a.1 + a.2).sum, l.length)

end Sys2Proof.Machine
end

