-- ==== Sys2Proof/Machine/DiagOps.lean ====
section
/-! DEFINITION. DiagOps.lean: chapter 20: how perturbation controls and the unlock of a bay end. -/

namespace Sys2Proof.Machine

/-- An armed bay control (R633): 0 MIRROR_DELAY, 1 PMBUS_DELAY, 2 AUDIT_MISMATCH. -/
def State.bayArm (s : State) (b : BayId) (k : Nat) : Option BayArm := ((s.bay b).arms[k]?).getD none

/-- A control of a bay or of its tiles is armed (R636); a one-shot control never is. -/
def State.bayArmed (s : State) (b : BayId) : Bool :=
  (List.range 3).any fun k => (s.bayArm b k).isSome || (s.tileArm (tileOf b false) k).isSome || (s.tileArm (tileOf b true) k).isSome

/-- Entry index and sub-index of a control, as OBJ of its events (R639). -/
def diagObjT (t : TileId) (k : Nat) : Nat := (Reg.diag_egress_delay.index t.val) * 256 + k
def diagObjB (b : BayId) (k : Nat) : Nat := (Reg.bay_diag_mirror_delay.index b.val) * 256 + k

/-- The credits that CREDIT_STARVE holds back are returned. -/
def State.returnCredits (s : State) (t : TileId) : State :=
  s.onVol t fun v =>
    let sw := { v.sw with credit := List.zipWith (· + ·) v.sw.credit v.diag.back }
    { v with sw := sw, diag := { v.diag with back := List.replicate 8 0 } }

/-- A tile control ends (R637): credits that CREDIT_STARVE held are returned, frames that EGRESS_DELAY held go at once. -/
def State.endTileArm (s : State) (t : TileId) (k reason : Nat) : State :=
  match s.tileArm t k with
  | none => s
  | some _ =>
    let s := s.onVol t fun v => { v with diag := { v.diag with arms := v.diag.arms.set k none } }
    let s := if k = 0 then s.onVol t fun v => { v with diag := { v.diag with delayed := v.diag.delayed.map (fun x => (x.1, x.2.1, s.now, x.2.2.2)), p5 := none } }
      else if k = 1 then s.returnCredits t
      else s
    s.event t 0 0x1E04 (diagObjT t k) reason

/-- A bay control ends: items that MIRROR_DELAY held go at once. -/
def State.endBayArm (s : State) (b : BayId) (k reason : Nat) : State :=
  match s.bayArm b k with
  | none => s
  | some _ =>
    let s := s.onBay b fun x =>
      let x := { x with arms := x.arms.set k none }
      if k = 0 then { x with link := x.mdelay.map Prod.fst ++ x.link, mdelay := [] } else x
    s.pierEvent (0x80 + b.val) 0 0x1E04 (diagObjB b k) reason

/-- Every control of a tile ends; every control of a bay and its tiles ends (R629). -/
def State.endTileArms (s : State) (t : TileId) (reason : Nat) : State :=
  (List.range 3).foldl (fun s k => s.endTileArm t k reason) s
def State.endBayArms (s : State) (b : BayId) (reason : Nat) : State :=
  let s := (List.range 3).foldl (fun s k => s.endBayArm b k reason) s
  (s.endTileArms (tileOf b false) reason).endTileArms (tileOf b true) reason

/-- A bay is unlocked (R628). -/
def State.unlocked (s : State) (b : BayId) : Bool := decide (s.now < (s.bay b).unlockTo)

/-- A bay's unlock ends (R628, R629). -/
def State.endUnlock (s : State) (b : BayId) : State :=
  if (s.bay b).unlockTo = 0 then s
  else (s.onBay b fun x => { x with unlockTo := 0 }).endBayArms b 2

/-- A legal operation runs on the tile: a calibration commit, a register restore or a legal install. -/
def State.legalRuns (s : State) (t : TileId) : Bool := decide (s.now < (s.vol t).legalUntil)

/-- A legal operation starts on a tile of the bay (R637). It takes at most `most` ns; what of them it takes is free (R242, R624). -/
def State.legalStarts (s : State) (t : TileId) (most : Nat) : State :=
  (s.onVol t fun v => { v with legalUntil := s.now + min most (Config.measured 7 t s.now) }).endBayArms (bayOf t) 3

end Sys2Proof.Machine
end

