-- ==== Sys2Proof/Machine/Signal.lean ====
section
/-! DEFINITION. Signal.lean: the arithmetic of the feeder metrology on the codes of a block: clipping, calibration, products, rms (R223, R230, R231, R241).
A channel delivers 1 088 codes for a block: its 1 024 samples with the 32 before and the 32 after them that a filter of 65 taps needs. -/

namespace Sys2Proof.Machine

/-- Full scale in codes (R223). -/
def fullCode : Nat := 8388607

/-- A sample at either limiting code counts as an overload (R223). -/
def overloaded (c : Int) : Bool := decide (fullCode ≤ c.natAbs)

/-- A sample as every computation takes it: at its clipped value (R223). -/
def clipCode (c : Int) : Int := max (-8388607) (min 8388607 c)

/-- The channels that carry a voltage (R223). -/
def voltCh (c : Nat) : Bool := decide (c < 3) || decide (c = 7)

/-- The constants of a channel (R241). -/
structure ChCal where
  gain : Nat
  ofs : Int
  phase : Int
  scale : Nat
  deriving DecidableEq, Repr

/-- The constants in force for channel `c` under a calibration block; an uncalibrated tile has constants of its own (R241). -/
def chCal (b : Bytes) (c : Nat) : ChCal :=
  if fld b 1 1 = 1 then
    let a := 0x10 + 16 * c
    { gain := fld b a 4, ofs := toSigned 32 (fld b (a + 4) 4), phase := toSigned 16 (fld b (a + 8) 2), scale := fld b (a + 0xC) 4 }
  else { gain := 0x40000000, ofs := 0, phase := 0, scale := if voltCh c then 57500 else 100000 }

/-- A sample less its OFFSET, times GAIN, in codes × 2³⁰ (R230). -/
def ChCal.fix (k : ChCal) (c : Int) : Int := (clipCode c - k.ofs) * k.gain

/-- The stretch of 65 samples around each sample of the block. -/
def windows65 : List Int → List (List Int)
  | [] => []
  | x :: l => (x :: l.take 64) :: windows65 l

/-- The samples of the block, corrected and shifted by PHASE (R230). -/
def ChCal.samples (k : ChCal) (codes : List Int) : List Int :=
  let l := codes.map k.fix
  if k.phase = 0 then (l.drop 32).take 1024 else (windows65 l).take 1024 |>.map (Config.fracDelay k.phase)

/-- The 90°-shifted copy of the block's samples, in codes × 2⁶⁰ (R230): its group delay is that of the samples themselves. -/
def ChCal.shifted (k : ChCal) (codes : List Int) : List Int :=
  (windows65 (codes.map k.fix)).take 1024 |>.map fun w => (w.zipIdx.map fun x => Config.hilbertTap x.2 * x.1).sum

/-- Sum of products of two runs of samples. -/
def dot (a b : List Int) : Int := (List.zipWith (· * ·) a b).sum

/-- Units of power that one µW·sample makes: the sums below are kept exact. -/
def powerUnit : Int := 8388607 * 8388607 * 2 ^ 90

/-- Units of energy that one µWh makes (R231): 29 491 200 µW·samples, over a mean of 1 024 samples for held power (R228). -/
def energyUnit : Int := 29491200 * 1024 * powerUnit

/-- A block after calibration: the samples of the eight channels, and the shifted copies of V1 to V3. -/
structure Block where
  ch : List (List Int)
  quad : List (List Int)
  cals : List ChCal
  overs : Nat

/-- The block that the codes of the eight channels make under a calibration block. -/
def blockOf (cal : Bytes) (codes : List (List Int)) : Block :=
  let cals := (List.range 8).map (chCal cal)
  { ch := List.zipWith ChCal.samples cals codes
    quad := (List.zipWith ChCal.shifted cals codes).take 3
    cals := cals
    overs := (codes.map fun l => ((l.drop 32).take 1024).countP overloaded).sum }

/-- SCALE of a channel. -/
def Block.scale (x : Block) (c : Nat) : Nat := (x.cals.map ChCal.scale).getD c 1

/-- Samples `a` to `a + n` of channel `c`. -/
def Block.run (x : Block) (c a n : Nat) : List Int := ((x.ch.getD c []).drop a).take n

/-- Sums of the active power of each phase over those samples: v · i in primary units (R230). -/
def Block.active (x : Block) (a n : Nat) : List Int :=
  (List.range 3).map fun p => dot (x.run p a n) (x.run (p + 3) a n) * 2 ^ 30 * (x.scale p * x.scale (p + 3) * 10 : Nat)

/-- Sums of the reactive power: the shifted copy of v · i (R230). -/
def Block.reactive (x : Block) (a n : Nat) : List Int :=
  (List.range 3).map fun p => dot (((x.quad.getD p []).drop a).take n) (x.run (p + 3) a n) * (x.scale p * x.scale (p + 3) * 10 : Nat)

/-- Sum of the squares of channel `c`. -/
def Block.square (x : Block) (c a n : Nat) : Nat := (dot (x.run c a n) (x.run c a n)).toNat

/-- Integer square root of a number below 2¹²⁸. -/
def isqrt (n : Nat) : Nat :=
  (List.range 64).reverse.foldl (fun r k => if (r + 2 ^ k) * (r + 2 ^ k) ≤ n then r + 2 ^ k else r) 0

/-- rms of a channel in its unit from the sum of squares times SCALE², over `n` samples; truncated (DESIGN CHOICE, notes/assumptions/37.md). -/
def rmsOf (sq n : Nat) : Nat := isqrt (sq / (n * fullCode * fullCode * 2 ^ 60))

/-- The rms of `n` samples of a current channel lies below 0.0005 In (R231): 12.5 µV of a full scale of 500 mV. -/
def quiet (sq n : Nat) : Bool := decide (sq * 40000 * 40000 < n * fullCode * fullCode * 2 ^ 60)

/-- The rms of `n` samples of a voltage channel lies below 10 % of Vn (R232): 20 mV of a full scale of 500 mV. -/
def faint (sq n : Nat) : Bool := decide (sq * 25 * 25 < n * fullCode * fullCode * 2 ^ 60)

/-- Sample `i` of a block that begins `at_` ns into its second, in ns of the second. -/
def sampleNs (at_ i : Nat) : Nat := at_ + i * 125000000 / 1024

/-- A sample of a voltage channel is taken: it ends a rising crossing when it is the first at or above zero (R232). -/
def ZeroX.take (z : ZeroX) (ns : Nat) (v : Int) : ZeroX :=
  match z.prev with
  | some p => if p < 0 ∧ 0 ≤ v then { n := z.n + 1, first := if z.n = 0 then ns else z.first, last := ns, prev := some v } else { z with prev := some v }
  | none => { z with prev := some v }

/-- Samples `skip` on of a block are taken. -/
def ZeroX.block (z : ZeroX) (at_ skip : Nat) (l : List Int) : ZeroX :=
  ((l.zipIdx).drop skip).foldl (fun z x => z.take (sampleNs at_ x.2) x.1) z

/-- Frequency in mHz of `n` whole periods between two instants in ns. -/
def frequencyOf (n first last : Nat) : Nat := n * 10 ^ 12 / (last - first)

/-- An instant lies between a sample and the one before it. -/
def between (ns at_ : Nat) : Bool := decide (ns ≤ at_) && decide (at_ ≤ ns + sampleNs 0 1 + 1)

/-- The frequency of a second: the whole periods between its first and last crossing. Where a crossing lies between two samples the manual leaves open: it is
measured there as `n`, `first` and `last` say when they agree with the samples, and else lies at the sample (DESIGN CHOICE, notes/assumptions/37.md). -/
def ZeroX.frequency (z : ZeroX) (n first last : Nat) : Nat :=
  if n + 1 = z.n ∧ between first z.first = true ∧ between last z.last = true then frequencyOf n first last
  else frequencyOf (z.n - 1) z.first z.last

/-- Sums added phase by phase. -/
def addI (a b : List Int) : List Int := List.zipWith (· + ·) a b

end Sys2Proof.Machine
end

