-- ==== Sys2Proof/Machine/Metrology.lean ====
section
/-! DEFINITION. Metrology.lean: chapter 7: the feeder metrology, its legal part, magnetic tamper, the local relays and the display. A block arrives as the codes of
the eight channels; what is done with them is in Signal.lean. -/

namespace Sys2Proof.Machine

open Crypto

/-- Change the metrology. -/
def State.onMetro (s : State) (t : TileId) (f : Metro → Metro) : State := s.onVol t fun v => { v with metro := f v.metro }

/-- The metrology of a tile. -/
def State.metro (s : State) (t : TileId) : Metro := (s.vol t).metro

/-- The metrology may measure (R222, R243, R244, R674). -/
def State.metroOn (s : State) (t : TileId) : Bool :=
  s.serves t && s.inRun t && decide (2 ≤ s.rd Reg.time_state t) && decide ((s.metro t).halted = 0) && (s.tile t).vanaOk

/-- The metrology stops: nothing measured stays, and no relay is driven. -/
def State.stopMetro (s : State) (t : TileId) : State :=
  let s := s.onVol t fun v => { v with metro := { Metro.init with halted := v.metro.halted }
                                       drive := { v.drive with relay0 := 0, relay1 := 0, disp := false } }
  (s.wr Reg.metro_state t (if (s.metro t).halted = 0 then 0 else 4)).wr Reg.metro_mag_status t 0

/-! ### The legal registers (R233 to R235) -/

/-- End of the newest block, in ns of Meridian time. -/
def Metro.blockEnd (m : Metro) : Nat := m.sync * 1000000000 + m.blk * 125000000

/-- Unmeasured time inside an interval of ns (R229). -/
def Tile.unmeasured (x : Tile) (a b : Nat) : Nat := (x.gaps.map fun g => min b g.2 - max a g.1).sum

/-- An interval of seconds (a, b] holds a SETTLE sample (R228). -/
def State.settleIn (s : State) (t : TileId) (a b : Nat) : Bool := (s.metro t).settles.any fun x => decide (a ≤ x) && decide (x < b)

/-- An interval of seconds (a, b] holds part of an unmeasured stretch (R229). -/
def State.gapIn (s : State) (t : TileId) (a b : Nat) : Bool := decide (0 < (s.tile t).unmeasured (a * 1000000000) (b * 1000000000))

/-- An interval of seconds (a, b] carries INTERP (R228, R229). -/
def State.interp (s : State) (t : TileId) (a b : Nat) : Bool := s.settleIn t a b || s.gapIn t a b

/-- Add an unmeasured stretch. -/
def Tile.addGap (x : Tile) (a b : Nat) : Tile := if a < b then { x with gaps := keepLast 256 (x.gaps ++ [(a, b)]) } else x

/-- The legal registers (R233). -/
def State.legalRegs (s : State) (t : TileId) : List Nat := (List.range 12).map fun i => s.rd Reg.metro_legal_regs t i

/-- The copy of the legal registers in force: the valid one with the higher sequence number (R233). -/
def Tile.legalCopy (x : Tile) : Option LegalCopy :=
  match x.legalA.good, x.legalB.good with
  | true, true => some (if x.legalA.seq < x.legalB.seq then x.legalB else x.legalA)
  | true, false => some x.legalA
  | false, true => some x.legalB
  | false, false => none

/-- Write a copy of the legal registers over the one that is not in force; `both` writes the two of them (R242, step 2). -/
def Tile.putLegal (x : Tile) (l : List Nat) (endNs : Nat) (both : Bool) : Tile :=
  let c : LegalCopy := { seq := (x.legalCopy.map LegalCopy.seq).getD 0 + 1, regs := l, endNs := endNs, good := true }
  if both then { x with legalA := c, legalB := { c with seq := c.seq + 1 } }
  else if x.legalCopy = some x.legalA then { x with legalB := c } else { x with legalA := c }

/-- The registers that the tile counts on with, and the end of the block they hold. -/
def State.useRegs (s : State) (t : TileId) (l : List Nat) (endNs : Nat) : State :=
  let s := (List.range 12).foldl (fun s i => s.wr Reg.metro_legal_regs t (l.getD i 0) i) s
  s.onTile t fun x => { x with legalEnd := endNs }

/-- Write the legal registers with the end of the block they hold. -/
def State.setLegalRegs (s : State) (t : TileId) (l : List Nat) (endNs : Nat) (both : Bool) : State :=
  (s.useRegs t l endNs).onTile t fun x => x.putLegal l endNs both

/-- Net energy of each phase in the legal registers, µWh. -/
def netOf (l : List Nat) : List Int := (List.range 3).map fun i => (l.getD (2 + i) 0 : Int) - (l.getD (5 + i) 0 : Int)

/-- Energies of a stretch: remainder and sum × `k` in the unit of `energyUnit`, truncated toward zero; the rest carries on. -/
def energyStep (rem p : List Int) (k : Int) : List Int × List Int :=
  let l := (List.range 3).map fun i => rem.getD i 0 + p.getD i 0 * k
  (l.map fun v => v.tdiv energyUnit, l.map fun v => v.tmod energyUnit)

/-- Add energies by phase to the twelve registers (R231, steps 3 to 5); the signs of P and Q choose the quadrant. -/
def addEnergies (l : List Nat) (e q : List Int) (pPos qPos : Bool) : List Nat :=
  let put := fun (l : List Nat) (i : Nat) (v : Int) => l.set i (l.getD i 0 + v.toNat)
  let l := (List.range 3).foldl (fun l i => put (put l (2 + i) (e.getD i 0)) (5 + i) (-(e.getD i 0))) l
  let tot := e.sum
  let l := put (put l 0 tot) 1 (-tot)
  let k := if pPos then (if qPos then 8 else 11) else (if qPos then 9 else 10)
  put l k (q.sum.natAbs : Int)

/-- Apply sums of power to the legal registers. -/
def State.accumulate (s : State) (t : TileId) (p q : List Int) (k : Int) (endNs : Nat) : State :=
  let m := s.metro t
  let e := energyStep m.remP p k
  let r := energyStep m.remQ q k
  let s := s.onMetro t fun m => { m with remP := e.2, remQ := r.2 }
  s.setLegalRegs t (addEnergies (s.legalRegs t) e.1 r.1 (decide (0 ≤ p.sum)) (decide (0 ≤ q.sum))) endNs false

/-- B of the book interval that ends at second `T`, if one does. -/
def State.headGrid (s : State) (t : TileId) (T : Nat) : Option Nat :=
  let b := s.bookBAt t T
  if onGrid (s.rd Reg.gather_grid_phase t) b T then some b else none

/-- Start of the book interval that runs at second `sec`. -/
def State.bookStart (s : State) (t : TileId) (sec : Nat) : Nat :=
  let b := max 1 (s.bookB t)
  sec - (sec + b - s.rd Reg.gather_grid_phase t % b) % b

/-- Deliver the book interval of `b` seconds that ends at second `T` to the Balance engine (R235); one whose start is not known is absent. -/
def State.deliverHead (s : State) (t : TileId) (T b : Nat) : State :=
  let x := s.tile t
  let net := netOf (s.legalRegs t)
  let amount := (List.range 3).map fun i => (net.getD i 0 - x.bookBase.2.getD i 0).tdiv 1000
  let un := x.unmeasured ((T - b) * 1000000000) (T * 1000000000) / 1000000
  let v := if s.rd Reg.metro_head_gap_max_ms t < un ∨ x.bookBase.1 ≠ T - b then none else some amount
  let flag := s.interp t (T - b) T
  let s := s.onTile t fun x => { x with bookBase := (T, net) }
  s.onBal t fun x => { x with heads := keepLast 64 (Tbl.put x.heads T (v, flag)) }

/-- The book intervals that end in an unmeasured stretch of ns are delivered with it: their registers are those that it begins with (R229, R235).
Of more than 64 only the newest are, which the engine keeps. -/
def State.deliverMissed (s : State) (t : TileId) (from_ to_ : Nat) : State :=
  let b := max 1 (s.bookBAt t (to_ / 1000000000))
  let last := s.bookStart t (to_ / 1000000000)
  let n := min 64 ((last - from_ / 1000000000 + b - 1) / b)
  (List.range n).foldl (fun s i => s.deliverHead t (last - (n - 1 - i) * b) b) s

/-- A halt of the metrology of kind `k` (bit 0 registers, 1 module) is over. -/
def State.legalMended (s : State) (t : TileId) (k : Nat) : State :=
  if bit (s.tile t).legalBad k then
    let s := (s.onTile t fun x => { x with legalBad := x.legalBad - 2 ^ k }).onMetro t fun m => { m with halted := m.halted - 2 ^ k }
    if (s.metro t).halted = 0 then s.wr Reg.metro_state t 0 else s
  else s

/-- Step 3 of R242: the seal counter rises (R240). -/
def State.countSeal (s : State) (t : TileId) : State := s.wr Reg.metro_seal_count t (s.rd Reg.metro_seal_count t + 1)

/-- Steps 2 to 4 of a register restore: both copies, seal counter, log entry (R244). What the restore adds or takes is no energy of the book or
LOCAL interval under way. -/
def State.applyRestore (s : State) (t : TileId) (l : List Nat) (endNs : Nat) : State :=
  let old := s.legalRegs t
  let s := s.onTile t fun x => { x with bookBase := (x.bookBase.1, List.zipWith (· + ·) x.bookBase.2 (List.zipWith (· - ·) (netOf l) (netOf old))) }
  let s := ((s.setLegalRegs t l endNs true).countSeal t).legalMended t 0
  s.legalLog t 0x07 (natLE 8 (l.getD 0 0) ++ natLE 8 (l.getD 1 0) ++ natLE 2 (s.rd Reg.metro_seal_count t))

/-- A standby drains the legal registers (R233): of a block (0), of a snapshot (1) or of a restore (2). A block that does not follow on the one before shows an
unmeasured stretch, and the book intervals that end by it are delivered to the standby's engine (DEDUCED from R229 and R235, notes/assumptions/37.md). -/
def State.applyLegal (s : State) (d : TileId) (kind : Nat) (l : List Nat) (endNs : Nat) : State :=
  if kind = 2 ∧ s.rd Reg.metro_seal_count d < 65535 then s.applyRestore d l endNs
  else
    let was := (s.tile d).legalEnd
    let s := if kind = 0 ∧ was ≠ 0 then (s.onTile d fun x => x.addGap was (endNs - 125000000)).deliverMissed d was (endNs - 125000000) else s
    let s := (s.setLegalRegs d l endNs false).legalMended d 0
    let T := endNs / 1000000000
    match if kind = 0 ∧ endNs % 1000000000 = 0 then s.headGrid d T else none with
    | some b => s.deliverHead d T b
    | none => s

/-! ### The synchronising reset (R225 to R229) -/

/-- The INIT writes of the sensors that are present (R246). -/
def State.sensorInit (s : State) (t : TileId) : State :=
  s.each (List.range 2) fun s i =>
    let d := s.rdAll Reg.metro_mag_desc t i
    if fld d 0 1 = 0 then s
    else s.each (List.range (fld d 3 1)) fun s k => s.emit (.i2c t (fld d 0 1) (fld d (0x10 + 2 * k) 1) (fld d (0x11 + 2 * k) 1))

/-- The registers at a minute grid point, or where the metrology starts, are kept for the LOCAL intervals of a day (R237). -/
def State.markRegs (s : State) (t : TileId) (sec : Nat) : State :=
  s.onMetro t fun m => { m with marks := keepLast 1442 (Tbl.put m.marks sec (s.legalRegs t, [])) }

/-- SYNC_RESET: at the second `at_`, the first whole one that begins at least 1 ms after a trigger the decimators restart (R226 to R229). The calibration block comes into
force with it (R242). -/
def syncReset (t : TileId) (at_ : Nat) (s : State) : State :=
  let sec := s.timeSec t
  let begins : Int := s.now - (s.timeNs t - sec * 1000000000)
  let due := (s.vol t).syncWanted.any fun x => decide ((x : Int) + 1000000 ≤ begins)
  if !due || !s.metroOn t || sec != at_ then s
  else
    let m := s.metro t
    let bridged := m.run && decide (2 ≤ m.blk)
    let from_ := (s.tile t).legalEnd
    let to_ := sec * 1000000000
    let lost := !m.run && decide (0 < from_) && decide (from_ < to_)
    let s := s.onVol t fun v => { v with syncWanted := none }
    let s := if bridged then s.accumulate t m.lastP m.lastQ 35 to_ else s
    let s := if lost then
        let ms := (to_ - from_) / 1000000
        (s.bump Reg.metro_unmeasured_ms t 0 ms).legalLog t 0x05 (time80 from_ ++ natLE 6 ms)
      else s
    let start := s.bookStart t sec
    let s := if m.run then s
      else
        let s := s.onTile t fun x => x.addGap from_ to_
        let s := if lost then s.deliverMissed t from_ to_ else s
        let s := if (s.tile t).bookBase.1 = start then s
          else (s.onTile t fun x => x.addGap (start * 1000000000) (min from_ to_)).onTile t fun x => { x with bookBase := (start, netOf (s.legalRegs t)) }
        s.sensorInit t
    let cal := s.rdAll Reg.metro_cal_block t
    let s := s.onMetro t fun m =>
      { m with run := true, sync := sec, blk := 0, cal := cal, hold := !bridged, slips := 0, syncNow := begins
               settles := keepLast 256 (m.settles ++ [sec]) }
    let s := if m.run then s else (s.onMetro t fun m => { m with since := sec }).markRegs t sec
    (s.bump Reg.metro_resyncs t).wr Reg.metro_state t 1

/-- SYNC_RESET (R226). -/
def execSyncReset (t : TileId) (sec : Nat) (s : State) : Host.Outcome State Fault Refusal := finish (syncReset t sec) s

/-- `tile.metro.resync` (R226). -/
def metroResync (t : TileId) (s : State) : State := (s.askSync t).answer t .ok

/-- METRO_RESYNC (R226). -/
def execMetroResync (t : TileId) (s : State) : Host.Outcome State Fault Refusal := finish (metroResync t) s

/-! ### The local relays (R249 to R252) -/

/-- A relay. -/
def State.relay (s : State) (t : TileId) (k : Fin 2) : Relay := (s.metro t).relays.getD k Relay.init

/-- Change a relay. -/
def State.onRelay (s : State) (t : TileId) (k : Fin 2) (f : Relay → Relay) : State :=
  s.onMetro t fun m => { m with relays := m.relays.set k (f (m.relays.getD k Relay.init)) }

/-- The stored command of a relay: the entry holds it plus 1, so that 0 says that none was ever stored. -/
def State.relayCmd (s : State) (t : TileId) (k : Fin 2) : Option Nat :=
  let v := s.rd Reg.metro_relay_state t k
  if v = 0 then none else some (v - 1)

/-- Drive a relay pair (0 none, 1 SET, 2 CLR). -/
def State.drivePair (s : State) (t : TileId) (k : Fin 2) (d : Nat) : State :=
  s.onVol t fun v => { v with drive := if k = 0 then { v.drive with relay0 := d } else { v.drive with relay1 := d } }

/-- RLY_FB reads closed, by its level and the polarity set for it (R250). -/
def State.contact (s : State) (t : TileId) (k : Fin 2) : Bool :=
  let low := (s.tile t).fbLow.getD k true
  if bit (s.rd Reg.metro_fb_polarity t) k then low else !low

/-- Whether the feedback of a relay matches a state (R250). -/
def State.fbMatches (s : State) (t : TileId) (k : Fin 2) (c : Nat) : Bool :=
  let r := s.relay t k
  let m := s.metro t
  let present := decide (s.rd Reg.metro_vx_present t ≤ m.vx)
  let absent := decide (m.vx ≤ s.rd Reg.metro_vx_absent t)
  let refGone := decide (m.volts.getD (s.rd Reg.metro_vx_phase t - 1) 0 < s.rd Reg.metro_vx_absent t)
  match s.rd Reg.metro_fb_mode t k with
  | 0 => decide (r.reported = some c)
  | 1 => s.contact t k == decide (c = 1)
  | 2 => s.contact t k == decide (c = 1) && (refGone || if c = 1 then present else absent)
  | _ => if c = 1 then present else absent && !refGone

/-- The state that the feedback shows, when it is determined. -/
def State.observed (s : State) (t : TileId) (k : Fin 2) : Option Nat :=
  if s.fbMatches t k 1 then some 1 else if s.fbMatches t k 0 then some 0 else none

/-- Energy that the bank of a bay has spent in the rolling 60 s, mJ rounded up (R541). -/
def State.bankUsed (s : State) (b : BayId) : Nat :=
  ((((s.bay b).pulses.filter fun x => decide (s.now / 1000000000 < x.1 + 60)).map Prod.snd).sum + 999) / 1000

/-- Start the pulse of a relay in PULSE when nothing holds it back: its command in the mirror stream, BAY_OWN high for 10 µs, no pulse of the other relay, 10 ms after a pulse on the other pair, PFAIL_N
high, and the bank's budget, whose first refusal is counted (R249, R252, R541, R547). -/
def State.tryPulse (s : State) (t : TileId) (k : Fin 2) : State :=
  let r := s.relay t k
  let dir := if s.relayCmd t k = some 1 then 1 else 2
  let other := s.relay t (if k = 0 then 1 else 0)
  let gap := match r.pulsed with
    | some (e, d) => decide (d = dir) || decide (e + 10000000 ≤ s.now)
    | none => true
  if r.st ≠ 1 ∨ r.drive.isSome = true ∨ !s.mirrored t r.mark = true ∨ (s.fieldPin t).isNone = true ∨ s.pier.pfail = true ∨ !gap = true ∨
      (other.st = 1 ∧ other.drive.isSome = true) then s
  else
    let b := bayOf t
    if s.rd Reg.bay_energy_bank_budget_mj b < s.bankUsed b + s.rd Reg.bay_energy_pulse_mj b then
      if r.counted then s else (s.onRelay t k fun r => { r with counted := true }).bump Reg.bay_energy_budget_holds b
    else (s.onRelay t k fun r => { r with drive := some s.now, counted := false }).drivePair t k dir

/-- Store the commanded state of a relay: mirrored, and for relay 0 in RELAY_CMD of the LOCAL record (R251, R252). -/
def State.relayStore (s : State) (t : TileId) (k : Fin 2) (c : Nat) : State :=
  let s := s.wr Reg.metro_relay_state t (c + 1) k
  let s := s.mirror t (.localRelay (s.rd Reg.metro_relay_state t 0) (s.rd Reg.metro_relay_state t 1))
  match s.localSlot t with
  | some i => if k = 0 then s.fieldsMeter t i fun r => { r with relayCmd := c } else s
  | none => s

/-- Store a command and start a sequence, whose first pulse waits for the mirror to have it (R251, R252). -/
def State.relaySequence (s : State) (t : TileId) (k : Fin 2) (c : Nat) : State :=
  let s := s.relayStore t k c
  let mark := s.mirrorMark t
  (s.onRelay t k fun r => { r with st := 1, a := 1, drive := none, counted := false, off := none, mark := mark }).tryPulse t k

/-- A command that finds its relay in CONFIRMED or MISMATCH (R251). -/
def State.relayTake (s : State) (t : TileId) (k : Fin 2) (c : Nat) : State :=
  if (s.relay t k).st = 0 ∧ s.relayCmd t k = some c then s.onRelay t k fun r => { r with outcome := 1 } else s.relaySequence t k c

/-- Set the reported state, and RELAY_RPT of a LOCAL record for relay 0. -/
def State.relayReport (s : State) (t : TileId) (k : Fin 2) (c : Nat) : State :=
  let s := s.onRelay t k fun r => { r with reported := some c }
  match s.localSlot t with
  | some i => if k = 0 ∧ (s.meter t i).relayRpt ≠ c then s.fieldsMeter t i fun r => { r with relayRpt := c } else s
  | none => s

/-- Take the waiting command of a relay that has reached CONFIRMED or MISMATCH. -/
def State.relayNext (s : State) (t : TileId) (k : Fin 2) : State :=
  match (s.relay t k).wait with
  | some c => (s.onRelay t k fun r => { r with wait := none }).relayTake t k c
  | none => s

/-- Enter MISMATCH (R251): EVENT_FLAGS bit 3 or 4, the counter, the event and EKIND 6 evidence. -/
def State.relayMismatch (s : State) (t : TileId) (k : Fin 2) : State :=
  let s := match s.observed t k with
    | some c => s.relayReport t k c
    | none => s
  let s := ((s.onRelay t k fun r => { r with st := 3, drive := none, off := none }).latchLocal t (3 + k)).bump Reg.metro_relay_mismatches t
  ((s.event t 2 0x1402 k).evidence t 6 0 0x3FFFFF k 0).relayNext t k

/-- Judge the feedback of a relay in WAIT, CONFIRMED or MISMATCH (R251). -/
def State.relayJudge (s : State) (t : TileId) (k : Fin 2) : State :=
  let r := s.relay t k
  match s.relayCmd t k with
  | none => s
  | some c =>
    let ok := s.fbMatches t k c
    let w := s.rd Reg.metro_relay_confirm_ms t * 1000000
    if r.st = 2 then
      if ok && decide (s.now < r.drive.getD 0 + w) then
        ((s.relayReport t k c).onRelay t k fun r => { r with st := 0, drive := none, off := none, outcome := 2 }).relayNext t k
      else s
    else if r.st = 3 then
      if ok then (((s.relayReport t k c).onRelay t k fun r => { r with st := 0, off := none }).event t 0 0x1403 k).relayNext t k else s
    else if r.st = 0 then
      s.onRelay t k fun r => { r with off := if ok then none else if r.off.isSome then r.off else some s.now }
    else s

/-- The judgement of a tile that has started or become ACTIVE (R252). -/
def State.relayStart (s : State) (t : TileId) (k : Fin 2) : State :=
  match s.relayCmd t k with
  | some c =>
    if s.fbMatches t k c || decide (s.rd Reg.metro_fb_mode t k = 0) then
      ((s.relayReport t k c).onRelay t k fun r => { r with st := 0 }).relayNext t k
    else s.relaySequence t k c
  | none =>
    match s.observed t k with
    | some c => ((s.relayStore t k c).relayReport t k c).relayNext t k
    | none => s.relayNext t k

/-- Both relays in turn. -/
def State.bothRelays (s : State) (f : State → Fin 2 → State) : State := f (f s 0) 1

/-- LOCAL_RELAY_CMD: a command from the host or from Ephemeris (R251). -/
def localRelayCmd (t : TileId) (k : Fin 2) (c : Nat) (s : State) : State × Status :=
  if 1 < c then (s, .invalid)
  else if !s.serves t then (s, .notActive)
  else if !(s.metro t).judged ∨ (s.relay t k).st = 1 ∨ (s.relay t k).st = 2 then (s.onRelay t k fun r => { r with wait := some c }, .ok)
  else (s.relayTake t k c, .ok)

/-- LOCAL_RELAY_CMD (R251). -/
def execLocalRelayCmd (t : TileId) (k : Fin 2) (c : Nat) (s : State) : Host.Outcome State Fault Refusal :=
  finish (fun s => let r := localRelayCmd t k c s; r.1.answer t r.2) s

/-- RELAY_PULSE_END: the pulse has reached its length, or the limiter has cut it; `uj` is the energy it took, in µJ (R249, R540, R541). -/
def relayPulseEnd (t : TileId) (k : Fin 2) (uj : Nat) (cut : Bool) (s : State) : State :=
  let r := s.relay t k
  match r.drive with
  | some at_ =>
    if r.st ≠ 1 ∨ (cut = false ∧ s.now < at_ + s.rd Reg.metro_relay_pulse_ms t * 1000000) then s
    else
      let b := bayOf t
      let dir := if s.relayCmd t k = some 1 then 1 else 2
      let s := s.onBay b fun y =>
        { y with pulses := (y.pulses.filter fun x => decide (s.now / 1000000000 < x.1 + 60)) ++ [(s.now / 1000000000, uj)] }
      let s := s.wr Reg.bay_energy_last_pulse_uj b uj
      let s := (s.drivePair t k 0).onRelay t k fun r => { r with st := 2, pulsed := some (s.now, dir) }
      let s := if cut then s.bump Reg.metro_pulses_cut t else s
      let s := if s.rd Reg.metro_fb_mode t k = 0 then s.onRelay t k fun r => { r with reported := s.relayCmd t k } else s
      (s.relayJudge t k).bothRelays fun s j => s.tryPulse t j
  | none => s

/-- RELAY_PULSE_END (R251). -/
def execRelayPulseEnd (t : TileId) (k : Fin 2) (uj : Nat) (cut : Bool) (s : State) : Host.Outcome State Fault Refusal :=
  finish (relayPulseEnd t k uj cut) s

/-- RELAY_FEEDBACK_CHANGE: the level of RLY_FB after its debounce (R250). -/
def relayFeedbackChange (t : TileId) (k : Fin 2) (low : Bool) (s : State) : State :=
  let s := s.onTile t fun x => { x with fbLow := x.fbLow.set k low }
  if (s.metro t).judged then s.relayJudge t k else s

/-- RELAY_FEEDBACK_CHANGE (R251). -/
def execRelayFeedbackChange (t : TileId) (k : Fin 2) (low : Bool) (s : State) : Host.Outcome State Fault Refusal :=
  finish (relayFeedbackChange t k low) s

/-- RELAY_CONFIRM_TIMEOUT: W has elapsed after the start of the drive, or since the feedback differs (R251). -/
def relayConfirmTimeout (t : TileId) (k : Fin 2) (s : State) : State :=
  let r := s.relay t k
  let w := s.rd Reg.metro_relay_confirm_ms t * 1000000
  if r.st = 2 ∧ r.drive.getD 0 + w ≤ s.now then
    if r.a ≤ s.rd Reg.metro_relay_retries t then
      (s.onRelay t k fun r => { r with st := 1, a := r.a + 1, drive := none, counted := false }).tryPulse t k
    else (s.onRelay t k fun r => { r with outcome := 3 }).relayMismatch t k
  else if r.st = 0 then
    match r.off with
    | some x => if x + w ≤ s.now then s.relayMismatch t k else s
    | none => s
  else s

/-- RELAY_CONFIRM_TIMEOUT (R251). -/
def execRelayConfirmTimeout (t : TileId) (k : Fin 2) (s : State) : Host.Outcome State Fault Refusal :=
  finish (relayConfirmTimeout t k) s

/-! ### Blocks, seconds, minutes -/

/-- The check value of the module in force, computed over it as stored (R243). -/
def Code.module (c : Code) : LegalMod := if c.modActive = 0 then c.modA else c.modB
def LegalMod.value (m : LegalMod) : Nat := leNat ((sha256 m.body).take 4)

/-- An installed legal module takes over: its check value is computed, and a halt for the old one is over (R243, R624). -/
def State.takeModule (s : State) (t : TileId) : State :=
  let s := s.onVol t fun v => { v with modDue := false }
  (s.onTile t fun x => { x with legalCheck := x.code.module.value }).legalMended t 1

/-- BLOCK_END: the codes of the eight channels for the block (R223, R230, R231): its energies go to the accumulators and the legal registers. Samples 0 to 34 after a
reset are SETTLE and enter nothing (R227); held power that the reset could not take is added after the first 1 024 valid samples (R228). -/
def blockEnd (t : TileId) (codes : List (List Int)) (s : State) : State :=
  let m := s.metro t
  if !m.run || !s.metroOn t then s
  else
    let x := blockOf m.cal codes
    let skip := if m.blk = 0 then 35 else 0
    let n := 1024 - skip
    let p := x.active skip n
    let q := x.reactive skip n
    let sq := (List.range 8).map fun c => x.square c skip n * x.scale c * x.scale c
    let off := (List.range 3).map fun i => quiet (x.square (3 + i) skip n) n
    let live := fun (l : List Int) => List.zipWith (fun (o : Bool) v => if o then 0 else v) off l
    let due := m.hold && decide (m.blk = 1)
    let at_ := m.blk % 8 * 125000000
    let held := (addI m.lastP (x.active 0 35), addI m.lastQ (x.reactive 0 35))
    let s := s.onMetro t fun m =>
      { m with blk := m.blk + 1, remP := live m.remP, remQ := live m.remQ, lastP := p, lastQ := q
               secP := addI m.secP p, secQ := addI m.secQ q, secSq := List.zipWith (· + ·) m.secSq sq, secV1 := m.secV1 + x.square 0 skip n, secN := m.secN + n
               zeros := (m.zeros.1.block at_ skip (x.run 0 0 1024), m.zeros.2.block at_ skip (x.run 1 0 1024))
               vx := rmsOf (sq.getD 7 0) n, volts := (sq.take 3).map fun v => rmsOf v n }
    let e := (s.metro t).blockEnd
    let s := s.accumulate t (live p) (live q) 1024 e
    let s := if due then (s.accumulate t held.1 held.2 35 e).onMetro t fun m => { m with hold := false } else s
    let s := s.bump Reg.metro_overloads t 0 x.overs
    let s := if m.blk = 0 then s.wr Reg.metro_state t (if fld m.cal 1 1 = 1 then 2 else 3) else s
    let s := s.mirror t (.legalRegs 0 (s.legalRegs t) e)
    let s := if (s.vol t).modDue then s.takeModule t else s
    let T := e / 1000000000
    let s := match if e % 1000000000 = 0 then s.headGrid t T else none with
      | some b => s.deliverHead t T b
      | none => s
    let s := if e % 1000000000 = 0 ∧ onGrid (s.rd Reg.gather_grid_phase t) 60 T = true then s.markRegs t T else s
    if m.judged then (s.bothRelays fun s k => s.relayJudge t k).bothRelays fun s k => s.tryPulse t k
    else if (s.fieldPin t).isSome then
      (s.onMetro t fun m => { m with judged := true }).bothRelays fun s k => s.relayStart t k
    else s

/-- BLOCK_END (R231). -/
def execBlockEnd (t : TileId) (v1 v2 v3 i1 i2 i3 : List Int) (inVx : List Int × List Int) (s : State) : Host.Outcome State Fault Refusal :=
  finish (blockEnd t [v1, v2, v3, i1, i2, i3, inVx.1, inVx.2]) s

/-- Modulator periods of 244.140625 ns by which Meridian time has drifted against the modulator clock since the reset (R225). -/
def State.slipTarget (s : State) (t : TileId) : Int :=
  let m := s.metro t
  ((s.timeNs t - m.sync * 1000000000 - (s.now - m.syncNow)) * 64).tdiv 15625

/-- At a minute grid point the largest per-second values of the minute join its registers (R237). -/
def State.closeMinute (s : State) (t : TileId) (sec : Nat) : State :=
  if !onGrid (s.rd Reg.gather_grid_phase t) 60 sec then s
  else s.onMetro t fun m => { m with marks := m.marks.map fun e => if e.1 = sec then (e.1, (e.2.1, m.max8)) else e, max8 := [] }

/-- SECOND_UPDATE: as the Meridian second `sec` begins, what the valid samples of the one before give, and the decimators follow Meridian time (R225, R232). `x1` and `x2`
are the whole periods on V1 and on V2 and the instants of their first and last crossing as the hardware measures them between its samples
(`ZeroX.frequency`). -/
def secondUpdate (t : TileId) (sec : Nat) (x1 x2 : Nat × Nat × Nat) (s : State) : State :=
  let m := s.metro t
  if !m.run || !s.metroOn t || decide (m.secN = 0) || decide (m.blockEnd ≠ sec * 1000000000) then s
  else
    let rms := m.secSq.map fun v => rmsOf v m.secN
    let watts := fun (v : Int) => v.tdiv (m.secN * powerUnit * 1000000)
    let s := (List.range 8).foldl (fun s i => s.wr Reg.metro_rms t (rms.getD i 0) i) s
    let s := (List.range 3).foldl (fun s i => (s.wrI Reg.metro_p t (watts (m.secP.getD i 0)) i).wrI Reg.metro_q t (watts (m.secQ.getD i 0)) i) s
    let f := if faint m.secV1 m.secN then m.zeros.2.frequency x2.1 x2.2.1 x2.2.2 else m.zeros.1.frequency x1.1 x1.2.1 x1.2.2
    let s := s.wr Reg.metro_frequency t f
    let now8 := rms.take 7 ++ [f]
    let mv := (m.secSq.take 3).map fun v => rmsOf (v * 100) m.secN
    let goal := s.slipTarget t
    let s := s.onMetro t fun m =>
      { m with sums := List.zipWith (· + ·) m.sums mv, count := m.count + 1
               max8 := (List.range 8).map fun i => max (m.max8.getD i 0) (now8.getD i 0)
               secP := [0, 0, 0], secQ := [0, 0, 0], secSq := List.replicate 8 0, secV1 := 0, secN := 0, zeros := (ZeroX.init, ZeroX.init), slips := goal }
    let s := s.closeMinute t sec
    s.bump Reg.metro_slip_adjusts t 0 (goal - m.slips).natAbs

/-- SECOND_UPDATE (R232). -/
def execSecondUpdate (t : TileId) (sec n1 first1 last1 n2 first2 last2 : Nat) (s : State) : Host.Outcome State Fault Refusal :=
  finish (secondUpdate t sec (n1, first1, last1) (n2, first2, last2)) s

/-- MINUTE_RECORD (R234): at a minute grid point. -/
def minuteRecord (t : TileId) (s : State) : State :=
  let m := s.metro t
  let T := s.timeSec t
  if !m.run || !s.metroOn t || !onGrid (s.rd Reg.gather_grid_phase t) 60 T then s
  else
    let gap := s.gapIn t (T - 60) T
    let rec_ : Minute :=
      { sums := m.sums, count := m.count, settle := s.settleIn t (T - 60) T, interp := s.interp t (T - 60) T, complete := decide (m.count = 60) && !gap }
    let s := s.onMetro t fun m => { m with sums := [0, 0, 0], count := 0 }
    s.onMarver t fun x => { x with history := (Tbl.put x.history T rec_).filter fun e => decide (T < e.1 + 172800) }

/-- MINUTE_RECORD (R234). -/
def execMinuteRecord (t : TileId) (s : State) : Host.Outcome State Fault Refusal := finish (minuteRecord t) s

/-! ### The LOCAL reading (R236, R237) -/

/-- Register of R233 that an OBIS code C.8.0 names. -/
def legalIndex (c : Nat) : Nat := [1, 2, 21, 41, 61, 22, 42, 62, 5, 6, 7, 8].idxOf c

/-- Value of a map of a LOCAL class from the registers, those at the interval's start, the newest and the largest per-second values. -/
def localValue (m : RegMap) (regs start now8 max8 : List Nat) : Int :=
  let c := (m.obis.getD 2 0).toNat
  if (m.obis.getD 3 0).toNat = 8 then
    let i := legalIndex c
    let v := if m.rkind = 2 then regs.getD i 0 - start.getD i 0 else regs.getD i 0
    (v / 10 ^ (6 + m.scaler).toNat : Nat)
  else
    let i := [32, 52, 72, 31, 51, 71, 91, 14].idxOf c
    let v := (if m.rkind = 3 then max8 else now8).getD i 0
    (v * 10 ^ (-m.scaler).toNat / (if i < 3 then 100 else 1000) : Nat)

/-- The registers with which a LOCAL interval from second `a` on began, and the largest per-second values of the one that ends at `T`. -/
def Metro.regsAt (m : Metro) (a : Nat) : List Nat := (((m.marks.filter fun e => decide (e.1 ≤ a)).getLast?).map fun e => e.2.1).getD []
def Metro.maxOver (m : Metro) (a T : Nat) : List Nat :=
  (List.range 8).map fun i => ((m.marks.filter fun e => decide (a < e.1) && decide (e.1 ≤ T)).map fun e => e.2.2.getD i 0).foldl max 0

/-- LOCAL_READING: at a grid point of the LOCAL record's IDUR, after the last block of the interval and the values of its last second. The interval in progress when the
metrology started gives none, nor one with too much unmeasured time; one of a record that fails CHECK ends UNKNOWN_METER (R72, R236). -/
def localReading (t : TileId) (s : State) : State :=
  let m := s.metro t
  match s.localSlot t with
  | some slot =>
    let r := s.meter t slot
    let T := m.blockEnd / 1000000000
    if !m.run || !s.metroOn t || decide (m.blk % 8 ≠ 0) || decide (m.localAt = T) || !onGrid (s.rd Reg.gather_grid_phase t) r.idur T then s
    else match Tbl.get m.marks T with
    | some (regs, _ :: _) =>
      let now8 := (List.range 8).map fun i => if i = 7 then s.rd Reg.metro_frequency t else s.rd Reg.metro_rms t i
      let un := (s.tile t).unmeasured ((T - r.idur) * 1000000000) (T * 1000000000) / 1000000
      let s' := s.onMetro t fun m => { m with localAt := T }
      if T < m.since + r.idur ∨ s.rd Reg.metro_head_gap_max_ms t < un then s'
      else
        let rd : Opened := { midx := s.midxOf t slot, source := 5, tend := T, capOfs := 0, idur := r.idur,
                             qual := if s.interp t (T - r.idur) T then 0x20 else 0, row := 0, rows := 1, ctr := 0,
                             arrival := (s.timeNs t).toNat,
                             regs := (s.maps t r.cls).map fun x => localValue x regs (m.regsAt (T - r.idur)) now8 (m.maxOver (T - r.idur) T) }
        let rd := { rd with regs := (List.range 6).map fun i => rd.regs.getD i 0 }
        if s.unsound t slot then (s'.cullet t 0x10 0x02 1 0xFF 0 0 r.midxGen (openedBytes rd)).countEnd t 0x02
        else s'.localRow t { rd := rd, direct := true, forceOld := false, fid := 0, gen := r.midxGen, restate := none, replay := none
                             rule := s.clsRuleset t r.cls, flags := s.clsFlags t r.cls }
    | _ => s
  | none => s

/-- LOCAL_READING (R236). -/
def execLocalReading (t : TileId) (s : State) : Host.Outcome State Fault Refusal := finish (localReading t) s

/-! ### The seal, calibration and the legal registers (R239 to R245) -/

/-- LEGAL_EN_N of a bay has been low for 100 ms, or reads high (R239): every tile of the bay in RUN logs the change. -/
def sealChange (b : BayId) (on : Bool) (s : State) : State :=
  if (s.bay b).legalEn = on || !s.pier.up then s
  else
    let s := ((s.onBay b fun x => { x with legalEn := on }).wr Reg.bay_legal_en b (b2n on)).pierEvent (0x80 + b) 0 0x0209 0 (b2n on)
    let s := if on then s.endUnlock b else s
    s.each ([false, true].map (tileOf b)) fun s t => if s.inRun t then s.legalLog t (if on then 0x03 else 0x04) [] else s

/-- SEAL_ASSERT (R239). -/
def execSealAssert (b : BayId) (s : State) : Host.Outcome State Fault Refusal := finish (sealChange b true) s

/-- SEAL_RELEASE (R239). -/
def execSealRelease (b : BayId) (s : State) : Host.Outcome State Fault Refusal := finish (sealChange b false) s

/-- Conditions of R242 in their order; `bad` is the third. -/
def State.legalCheck (s : State) (t : TileId) (bad : Bool) : Option Status :=
  if !s.serves t then some .notActive
  else if !(s.bay (bayOf t)).legalEn then some .noSeal
  else if s.legalRuns t then some .busy
  else if bad then some .invalid
  else if 65535 ≤ s.rd Reg.metro_seal_count t then some .sealExhausted
  else if s.legalFull t then some .legalFull
  else none

/-- A calibration block is in range (R241). -/
def calOk (b : Bytes) : Bool :=
  let zero := fun a n => decide (fld b a n = 0)
  decide (fld b 0 1 = 1) && decide (fld b 1 1 ≤ 1) && zero 2 14 && zero 0x9C 96 && decide (fld b 0xFC 4 = crc32 (b.take 0xFC)) &&
  (List.range 8).all fun c =>
    let a := 0x10 + 16 * c
    let ofs := toSigned 32 (fld b (a + 4) 4)
    let ph := toSigned 16 (fld b (a + 8) 2)
    decide (0x20000000 ≤ fld b a 4) && decide (fld b a 4 ≤ 0x60000000) && decide (-65536 ≤ ofs) && decide (ofs ≤ 65536) &&
    decide (-16384 ≤ ph) && decide (ph ≤ 16384) && (!voltCh c || decide (ph = 0)) && zero (a + 0xA) 2 && decide (1 ≤ fld b (a + 0xC) 4)

/-- The calibration block that a tile measures by from its next synchronising reset on. -/
def State.useCal (s : State) (t : TileId) (b : Bytes) : State := if s.rdAll Reg.metro_cal_block t = b then s else s.wrB Reg.metro_cal_block t 0 b

/-- Steps 2 to 4 of a calibration commit: both copies, seal counter, log entry (R242). -/
def State.applyCal (s : State) (t : TileId) (b : Bytes) : State :=
  let s := ((s.useCal t b).onTile t fun x => { x with calA := b, calB := b }).countSeal t
  s.legalLog t 0x01 ((b.drop 0x9A).take 2 ++ (b.drop 0xFC).take 4 ++ natLE 2 (s.rd Reg.metro_seal_count t))

/-- A standby drains a calibration block: one that it does not hold yet is applied by steps 2 to 4, and no commit passes the limit of the seal counter
(R240, R242). -/
def State.mirroredCal (s : State) (t : TileId) (b : Bytes) : State :=
  if s.rdAll Reg.metro_cal_block t = b ∨ 65535 ≤ s.rd Reg.metro_seal_count t then s else s.applyCal t b

/-- Give the result of a legal operation. -/
def State.metroResult (s : State) (t : TileId) (st : Status) : State := (s.wr Reg.metro_last_result t st.code).answer t st

/-- `tile.metro.cal_commit` (R242). `cut`: 0 nothing happens meanwhile; 1 the seal is released before step 2; 2 the power fails during step 2, with
one copy written. -/
def calCommit (t : TileId) (cut : Nat) (s : State) : State :=
  let st := s.rdAll Reg.metro_cal_stage t
  match s.legalCheck t (!calOk st) with
  | some e => s.metroResult t e
  | none =>
    let s := s.legalStarts t 50000000
    let n := s.rdF Reg.metro_cal_block t 0x9A 2 + 1
    let body := st.take 0x90 ++ time80 (s.whenNs t) ++ natLE 2 n ++ List.replicate 96 0
    let b := body ++ natLE 4 (crc32 body)
    if cut = 1 then (sealChange (bayOf t) false s).metroResult t .noSeal
    else if cut = 2 then s.onTile t fun x => { x with calA := b }
    else (((s.applyCal t b).mirror t (.calBlock b)).askSync t).metroResult t .ok

/-- CAL_COMMIT (R242). -/
def execCalCommit (o : LegalOp) (s : State) : Host.Outcome State Fault Refusal := finish (consuming o.tile [Reg.metro_cal_stage] (calCommit o.tile o.cut)) s

/-- `tile.metro.reg_restore` (R244), by the checks and steps of R242. -/
def regRestore (t : TileId) (cut : Nat) (s : State) : State :=
  match s.legalCheck t false with
  | some e => s.metroResult t e
  | none =>
    let s := s.legalStarts t 50000000
    let st := s.rdAll Reg.metro_reg_stage t
    let l := (List.range 12).map fun i => fld st (8 * i) 8
    let e := (s.tile t).legalEnd
    if cut = 1 then (sealChange (bayOf t) false s).metroResult t .noSeal
    else if cut = 2 then s.onTile t fun x => x.putLegal l e false
    else (((s.applyRestore t l e).mirror t (.legalRegs 2 l e)).askSync t).metroResult t .ok

/-- REG_RESTORE (R244). -/
def execRegRestore (o : LegalOp) (s : State) : Host.Outcome State Fault Refusal := finish (consuming o.tile [Reg.metro_reg_stage] (regRestore o.tile o.cut)) s

/-- A calibration copy with a good CRC. -/
def calGood (b : Bytes) : Bool := decide (fld b 0xFC 4 = crc32 (b.take 0xFC))

/-- The calibration copy taken at start: the higher CAL_COUNT and a good CRC (R242); with neither good, the block as shipped (DESIGN CHOICE,
notes/assumptions/37.md). -/
def Tile.calCopy (x : Tile) : Bytes :=
  match calGood x.calA, calGood x.calB with
  | true, true => if fld x.calA 0x9A 2 < fld x.calB 0x9A 2 then x.calB else x.calA
  | true, false => x.calA
  | false, true => x.calB
  | false, false => calDefault

/-- What a power failure or wear has damaged in the legal region before a start: bits 0 and 1 the copies of the registers, 2 and 3 those of the calibration
block, 4 the module in force. -/
def Tile.damagedBy (x : Tile) (mask : Nat) : Tile :=
  let spoil := fun (b : Bytes) => b.take 0x10 ++ [b.getD 0x10 0 ^^^ 1] ++ b.drop 0x11
  let mod := fun (m : LegalMod) => { m with body := 0 :: m.body }
  let c := x.code
  { x with
    legalA := { x.legalA with good := x.legalA.good && !bit mask 0 }, legalB := { x.legalB with good := x.legalB.good && !bit mask 1 }
    calA := if bit mask 2 then spoil x.calA else x.calA, calB := if bit mask 3 then spoil x.calB else x.calB
    code := if !bit mask 4 then c else if c.modActive = 0 then { c with modA := mod c.modA } else { c with modB := mod c.modB } }

/-- The legal region at start (R233, R242, R243, R244): the copies in force are taken, the check value is computed, and damaged registers or a module that does not
match its header halt the metrology. -/
def State.metroCheck (s : State) (t : TileId) (mask : Nat) : State :=
  let s := s.onTile t fun x => x.damagedBy mask
  let x := s.tile t
  let s := match x.legalCopy with
    | some c => if s.legalRegs t = c.regs ∧ x.legalEnd = c.endNs then s else s.useRegs t c.regs c.endNs
    | none => s
  let s := s.useCal t x.calCopy
  let v := x.code.module.value
  let bad := b2n x.legalCopy.isNone + 2 * b2n (decide (v ≠ x.code.module.check))
  let s := (s.onTile t fun x => { x with legalCheck := v, legalBad := bad }).onMetro t fun m => { m with halted := bad }
  if bad = 0 then s
  else
    let s := s.wr Reg.metro_state t 4
    let s := if bit bad 0 then s.legalLog t 0x06 [] else s
    let s := if bit bad 1 then s.legalLog t 0x08 (natLE 4 v ++ natLE 4 x.code.module.check) else s
    s.event t 3 0x1404 0 bad

/-! ### Magnetic tamper (R246, R247) -/

/-- A 32-byte episode of the log. -/
def episodeBytes (sensor axis : Nat) (e : Episode) (ended : Option Nat) : Bytes :=
  let fl := b2n ended.isNone + 2 * b2n e.sat + 4 * b2n (decide (e.peak < 0))
  [BitVec.ofNat 8 sensor, BitVec.ofNat 8 axis, BitVec.ofNat 8 fl, 0] ++ natLE 4 e.peak.natAbs ++ time80 e.start ++
    (match ended with
     | some x => time80 x
     | none => List.replicate 10 0) ++ natLE 4 0

/-- Entries of the log in use, oldest first. -/
def State.magLog (s : State) (t : TileId) : List Bytes :=
  let b := s.rdAll Reg.metro_mag_log t
  ((List.range 16).map fun i => (b.drop (32 * i)).take 32).filter fun e => decide (fld e 8 6 ≠ 0) || decide (fld e 4 4 ≠ 0)

/-- Put an episode into the log: over its open entry, else as the newest of 16. -/
def State.putEpisode (s : State) (t : TileId) (sensor axis : Nat) (e : Episode) (ended : Option Nat) : State :=
  let l := s.magLog t
  let b := episodeBytes sensor axis e ended
  let mine := fun (x : Bytes) => decide (fld x 0 1 = sensor) && decide (fld x 1 1 = axis) && bit (fld x 2 1) 0
  let l := if l.any mine then l.map fun x => if mine x then b else x else (l ++ [b]).drop (l.length + 1 - 16)
  s.wrB Reg.metro_mag_log t 0 (fit 512 l.flatten)

/-- Judge one axis of a sensor (R247): `v` is the reading in nT. -/
def State.judgeAxis (s : State) (t : TileId) (sensor axis : Nat) (v : Int) : State :=
  let d := s.rdAll Reg.metro_mag_desc t sensor
  let range : Int := fld d 8 2 * 100000
  let hit := decide (range ≤ v.natAbs)
  let v := if hit then (if v < 0 then -range else range) else v
  let thr := s.rd Reg.metro_mag_threshold t * 100000
  let now := s.whenNs t
  let cur := (((s.metro t).mags.getD sensor MagSensor.init).axes.getD axis none)
  let put := fun (s : State) (e : Option Episode) => s.onMetro t fun m =>
    { m with mags := m.mags.set sensor (let x := m.mags.getD sensor MagSensor.init; { x with axes := x.axes.set axis e }) }
  let evid := fun (s : State) (e : Episode) => s.evidence t 0 0 0x3FFFFF (e.peak.natAbs / 100) 0
  match cur with
  | none =>
    if v.natAbs < thr then s
    else
      let e : Episode := { peak := v.tdiv 1000, start := now, sat := hit, low := 0, lowAt := 0 }
      evid (((put s (some e)).putEpisode t sensor axis e none).bump Reg.metro_mag_episodes t) e
  | some e =>
    let e := { e with peak := if e.peak.natAbs < (v.tdiv 1000).natAbs then v.tdiv 1000 else e.peak, sat := e.sat || hit }
    let below := decide (v.natAbs * 10 < thr * 8)
    let e := { e with lowAt := if below && decide (e.low = 0) then now else e.lowAt, low := if below then e.low + 1 else 0 }
    if e.low < 10 then evid ((put s (some e)).putEpisode t sensor axis e none) e
    else
      let s := (put s none).putEpisode t sensor axis e (some e.lowAt)
      let data := [BitVec.ofNat 8 sensor, BitVec.ofNat 8 axis] ++ time80 e.start ++ time80 e.lowAt ++ intLE 4 e.peak
      evid ((s.legalLog t 0x09 data).latchLocal t 0) e

/-- `tile.metro.mag_status` follows the sensors. -/
def State.magStatus (s : State) (t : TileId) : State :=
  let f := fun i => (s.metro t).mags.getD i MagSensor.init
  let open_ := fun i => (f i).axes.any Option.isSome
  s.wr Reg.metro_mag_status t (b2n (f 0).failed + 2 * b2n (f 1).failed + 4 * b2n (open_ 0) + 8 * b2n (open_ 1))

/-- X, Y and Z as six bytes of a sensor hold them in its FORMAT (R246). -/
def magAxes (format : Nat) (b : Bytes) : List Int :=
  (List.range 3).map fun i =>
    let w := fit 2 (b.drop (2 * i))
    toSigned 16 (leNat (if format = 1 then w.reverse else w))

/-- One read of a present sensor from its DATA_REG on: six bytes, or no acknowledgement. -/
def State.readSensor (s : State) (t : TileId) (sensor : Nat) (v : Option Bytes) : State :=
  let d := s.rdAll Reg.metro_mag_desc t sensor
  let s := s.emit (.i2cRead t (fld d 0 1) (fld d 1 1) 6)
  let set := fun (s : State) (f : MagSensor → MagSensor) => s.onMetro t fun m => { m with mags := m.mags.set sensor (f (m.mags.getD sensor MagSensor.init)) }
  match v with
  | some l =>
    let s := set s fun x => { x with miss := 0, failed := false }
    s.each (List.range 3) fun s a => s.judgeAxis t sensor a ((magAxes (fld d 2 1) l).getD a 0 * (fld d 4 4 : Int))
  | none =>
    let x := (s.metro t).mags.getD sensor MagSensor.init
    if x.miss + 1 < 3 ∨ x.failed = true then set s fun x => { x with miss := x.miss + 1 }
    else (((set s fun x => { x with miss := 3, failed := true }).event t 1 0x1401 sensor).latchLocal t 2)

/-- MAG_READ: every 100 ms each present sensor that has not failed is read (R246, R247). -/
def magRead (t : TileId) (v : List (Option Bytes)) (s : State) : State :=
  if !(s.metro t).run || !s.metroOn t then s
  else
    (s.each (List.range 2) fun s i =>
      if fld (s.rdAll Reg.metro_mag_desc t i) 0 1 = 0 ∨ ((s.metro t).mags.getD i MagSensor.init).failed = true then s
      else s.readSensor t i (v.getD i none)).magStatus t

/-- MAG_READ (R247). -/
def execMagRead (t : TileId) (v : List (Option Bytes)) (s : State) : Host.Outcome State Fault Refusal := finish (magRead t v) s

/-- SENSOR_RETRY: a failed sensor is tried again (R246). -/
def sensorRetry (t : TileId) (i : Fin 2) (v : Option Bytes) (s : State) : State :=
  if !(s.metro t).run || !s.metroOn t || !((s.metro t).mags.getD i MagSensor.init).failed then s
  else (s.readSensor t i v).magStatus t

/-- SENSOR_RETRY (R246). -/
def execSensorRetry (t : TileId) (i : Fin 2) (v : Option Bytes) (s : State) : Host.Outcome State Fault Refusal := finish (sensorRetry t i v) s

/-! ### The display (R253, R254) -/

/-- A number in decimal with at least `w` digits. -/
def decDigits : Nat → Nat → List Char
  | 0, _ => []
  | w + 1, n => decDigits w (n / 10) ++ [Char.ofNat (48 + n % 10)]
def decStr (n : Nat) : List Char := (Nat.toDigits 10 n)

/-- `n` thousandths, with `k` of the decimals shown after at least `w` integer digits (0: as many as needed). -/
def fixed (unit k w n : Nat) : List Char :=
  let i := n / unit
  (if w = 0 then decStr i else decDigits w i) ++ ['.'] ++ decDigits k (n % unit * 10 ^ k / unit)

/-- An upper-case hexadecimal digit, and a byte as two. -/
def hexChar (n : Nat) : Char := if n < 10 then Char.ofNat (48 + n) else Char.ofNat (55 + n)
def hexByte (n : Nat) : List Char := [hexChar (n / 16 % 16), hexChar (n % 16)]

/-- A line of R253. -/
def dispLine (pos : Nat) (id value unit : List Char) (legal : Bool) : Bytes :=
  let body := decDigits 2 pos ++ [';'] ++ id ++ [';'] ++ value ++ [';'] ++ unit ++ [';'] ++ [if legal then 'L' else '-'] ++ [';']
  let ck := body.foldl (fun a c => a ^^^ c.toNat) 0
  (body ++ hexByte ck ++ [Char.ofNat 13, Char.ofNat 10]).map fun c => BitVec.ofNat 8 c.toNat

/-- The line of a position for a tile; none while the position is not shown. -/
def State.dispItem (s : State) (t : TileId) (pos : Nat) : Option Bytes :=
  let reg := fun i => fixed 1000000000 3 10 (s.rd Reg.metro_legal_regs t i)
  let txt := fun (x : String) => x.toList
  let err := fun (on : Bool) (x : String) => if on then some (dispLine pos (txt "ERR") (txt x) [] false) else none
  if pos = 0 then some (dispLine 0 (txt "1.8.0") (reg 0) (txt "kWh") true)
  else if pos = 1 then some (dispLine 1 (txt "2.8.0") (reg 1) (txt "kWh") true)
  else if pos = 2 then some (dispLine 2 (txt "CHK") (((natLE 4 (s.tile t).legalCheck).map fun b => hexByte b.toNat).flatten) [] true)
  else if pos = 3 then some (dispLine 3 (txt "SEAL") (decDigits 5 (s.rd Reg.metro_seal_count t)) [] true)
  else if pos = 90 then err (s.legalFull t) "E-LGL-FULL"
  else if pos = 91 then err (bit (s.metro t).halted 1) "E-LGL-CHK"
  else if pos = 92 then err (bit (s.metro t).halted 0) "E-LGL-REG"
  else
    let c := ((s.rdAll Reg.bay_disp_items (bayOf t)).getD (pos - 4) 255).toNat
    let ids := ["21.8.0", "41.8.0", "61.8.0", "22.8.0", "42.8.0", "62.8.0", "5.8.0", "6.8.0", "7.8.0", "8.8.0", "32.7.0", "52.7.0",
      "72.7.0", "31.7.0", "51.7.0", "71.7.0", "91.7.0", "14.7.0", "TIME", "RLY0", "RLY1"]
    let id := txt (ids.getD c "")
    let relay := fun (k : Fin 2) => if (s.relay t k).st = 3 then txt "MISMATCH"
      else if (s.relay t k).reported = some 1 then txt "ON" else txt "OFF"
    if 0x14 < c then none
    else if c < 10 then some (dispLine pos id (reg (c + 2)) (txt (if c < 6 then "kWh" else "kvarh")) false)
    else if c < 0x0D then some (dispLine pos id (fixed 100 1 0 (s.rd Reg.metro_rms t (c - 0x0A))) (txt "V") false)
    else if c < 0x11 then some (dispLine pos id (fixed 1000 2 0 (s.rd Reg.metro_rms t (c - 0x0A))) (txt "A") false)
    else if c = 0x11 then some (dispLine pos id (fixed 1000 3 0 (s.rd Reg.metro_frequency t)) (txt "Hz") false)
    else if c = 0x12 then
      let d := ((s.utcOfTai (s.timeSec t)) % 86400).toNat
      some (dispLine pos id (decDigits 2 (d / 3600) ++ [':'] ++ decDigits 2 (d / 60 % 60) ++ [':'] ++ decDigits 2 (d % 60)) [] false)
    else some (dispLine pos id (relay (if c = 0x13 then 0 else 1)) [] false)

/-- The cycle of R254. -/
def dispCycle : List Nat := [0, 1, 2, 3, 90, 91, 92] ++ (List.range 28).map fun i => i + 4

/-- DISP_LINE: at the start of a dwell every serving tile of the bay sends the next item that is shown. -/
def dispSend (b : BayId) (s : State) : State :=
  let tiles := ([false, true].map (tileOf b)).filter fun t => s.serves t && s.inRun t
  match tiles with
  | [] => s
  | t0 :: _ =>
    if s.now < (s.bay b).dispAt then s
    else
      let pos := (s.bay b).dispPos
      let order := (dispCycle.zipIdx.drop pos) ++ dispCycle.zipIdx.take pos
      let errs := b2n (s.dispItem t0 90).isSome + 2 * b2n (s.dispItem t0 91).isSome + 4 * b2n (s.dispItem t0 92).isSome
      let s := s.wr Reg.bay_disp_errors b errs
      match order.find? fun x => (s.dispItem t0 x.1).isSome with
      | some x =>
        let s := tiles.foldl (fun s t => match s.dispItem t x.1 with
          | some l => s.emit (.bytes t l)
          | none => s) s
        (s.onBay b fun y => { y with dispPos := (x.2 + 1) % 35, dispAt := s.now + s.rd Reg.bay_disp_dwell b * 1000000000 }).bump
          Reg.bay_disp_lines_sent b
      | none => s

/-- DISP_LINE (R254). -/
def execDispLine (b : BayId) (s : State) : Host.Outcome State Fault Refusal := finish (dispSend b) s

end Sys2Proof.Machine
end

