-- ==== Sys2Proof/Machine/EphOps.lean ====
section
/-! DEFINITION. EphOps.lean: chapter 8: DLMS/COSEM requests, invocation counters, downlink requests, relay commands, prepayment decisions
and clock adjustments. The DLMS encodings are PRESUMED (notes/assumptions/15.md). -/

namespace Sys2Proof.Machine

open Crypto

/-- Ephemeris of a tile, and a change of it. -/
def State.eph (s : State) (t : TileId) : Eph := (s.vol t).eph
def State.onEph (s : State) (t : TileId) (f : Eph → Eph) : State := s.onVol t fun v => { v with eph := f v.eph }

/-- Refuse an action of Ephemeris; complete one. -/
def State.ephRefuse (s : State) (t : TileId) (st : Status) : State := (s.wr Reg.eph_last_result t st.code).answer t st
def State.ephOk (s : State) (t : TileId) : State := (s.wr Reg.eph_last_result t 0).answer t .ok

/-! ### DLMS requests and responses (R278, R287, R290) -/

/-- An attribute or method of an object. -/
structure Cosem where
  cls : Nat
  obis : Bytes
  attr : Nat
  deriving DecidableEq, Repr

/-- The descriptor of an attribute or method. -/
def Cosem.bytes (o : Cosem) : Bytes := natBE 2 o.cls ++ o.obis ++ natBE 1 o.attr

/-- The objects of this chapter. -/
def disconnectCtl (attr : Nat) : Cosem := ⟨70, [0, 0, 96, 3, 10, 255], attr⟩
def clockObj (attr : Nat) : Cosem := ⟨8, [0, 0, 1, 0, 0, 255], attr⟩
def activityCal (attr : Nat) : Cosem := ⟨20, [0, 0, 13, 0, 0, 255], attr⟩
def specialDays (attr : Nat) : Cosem := ⟨11, [0, 0, 11, 0, 0, 255], attr⟩
def imageTransfer (attr : Nat) : Cosem := ⟨18, [0, 0, 44, 0, 0, 255], attr⟩

/-- GET, SET and ACTION requests. -/
def dlmsGet (o : Cosem) (inv : Nat) : Bytes := [0xC0, 1] ++ natBE 1 (0x40 + inv) ++ o.bytes ++ [0]
def dlmsSet (o : Cosem) (d : Bytes) (inv : Nat) : Bytes := [0xC1, 1] ++ natBE 1 (0x40 + inv) ++ o.bytes ++ [0] ++ d
def dlmsAct (o : Cosem) (d : Bytes) (inv : Nat) : Bytes := [0xC3, 1] ++ natBE 1 (0x40 + inv) ++ o.bytes ++ [1] ++ d

/-- Data elements. -/
def dInt8 (v : Int) : Bytes := 0x0F :: intLE 1 v
def dU8 (v : Nat) : Bytes := 0x11 :: natBE 1 v
def dU16 (v : Nat) : Bytes := 0x12 :: natBE 2 v
def dU32 (v : Nat) : Bytes := 0x06 :: natBE 4 v
def dInt16 (v : Int) : Bytes := 0x10 :: (intLE 2 v).reverse
def dBool (b : Bool) : Bytes := [0x03, if b then 1 else 0]
def axLenOf (n : Nat) : Bytes :=
  if n < 0x80 then natBE 1 n else if n < 0x100 then [0x81] ++ natBE 1 n else [0x82] ++ natBE 2 n
def dOct (b : Bytes) : Bytes := 0x09 :: (axLenOf b.length ++ b)
def dStr (l : List Bytes) : Bytes := 0x02 :: (axLenOf l.length ++ l.flatten)
def dArr (l : List Bytes) : Bytes := 0x01 :: (axLenOf l.length ++ l.flatten)

/-- A date-time: local second, hundredths, deviation in minutes, clock status. -/
def dlmsTime (l : Int) (cs : Nat) (dev : Int) (status : Nat) : Bytes :=
  let day := l / 86400
  let d := civilFromDays day
  let sec := (l % 86400).toNat
  natBE 2 d.1.toNat ++ natBE 1 d.2.1 ++ natBE 1 d.2.2 ++ natBE 1 (weekday day) ++ natBE 1 (sec / 3600) ++ natBE 1 (sec / 60 % 60) ++
    natBE 1 (sec % 60) ++ natBE 1 cs ++ (intLE 2 dev).reverse ++ natBE 1 status

/-- A response: its invoke-id and its data, none for an error result. -/
def dlmsRsp (b : Bytes) : Option (Nat × Option Bytes) :=
  match b with
  | 0xC4 :: 1 :: i :: 0 :: d => some (i.toNat % 16, some d)
  | 0xC4 :: _ :: i :: _ => some (i.toNat % 16, none)
  | 0xC5 :: 1 :: i :: r :: _ => some (i.toNat % 16, if r = 0 then some [] else none)
  | 0xC5 :: _ :: i :: _ => some (i.toNat % 16, none)
  | 0xC7 :: 1 :: i :: r :: _ => some (i.toNat % 16, if r = 0 then some [] else none)
  | 0xC7 :: _ :: i :: _ => some (i.toNat % 16, none)
  | _ => none

/-- A number in a response: enum, boolean, unsigned. -/
def dlmsNat (d : Bytes) : Option Nat :=
  match d with
  | tag :: r => if [0x16, 0x03, 0x11, 0x12, 0x06].contains tag.toNat then some (beNat r) else none
  | [] => none

/-! ### Invocation counters (R69, R284, R285, R507) -/

/-- Whether IC_DOWN of a meter may be used. -/
inductive IcSt | ready | wait | exhausted
  deriving DecidableEq, Repr

/-- IC_DOWN passes a ceiling only once the next one is durable, and a promotion guard must be durable first. -/
def State.icState (s : State) (t : TileId) (slot : Nat) : IcSt :=
  let c := (s.meter t slot).icDown
  if 0xFFFFFFFF ≤ c then .exhausted
  else if (s.vol t).meters.jDone < (s.eph t).guard then .wait
  else if c < s.ceil t slot ∧ c < (Tbl.get (s.tile t).media.loadTable.2 slot).getD 0 then .ready else .wait

/-- Reserve 4 096 values of counter `k`, which stands at `live`. -/
def State.reserveCtr (s : State) (t : TileId) (k live : Nat) : State :=
  let c := min (max (s.ceil t (ctrSlot k)) live + 4096) 0xFFFFFFFF
  let s := s.onMeters t fun m => { m with ceils := Tbl.put m.ceils (ctrSlot k) c }
  let s := s.journal t { op := .ceiling, slot := ctrSlot k, gen := 0, upd := 0, snap := MeterRec.free 0, amount := 0, ceil := c }
  s.mirror t (.ceilings (s.ceil t (ctrSlot 1)) (s.ceil t (ctrSlot 2)) (s.ceil t (ctrSlot 0)))

/-- Counter `k` at `live` may be used: below its end, below a durable ceiling, the promotion guard durable. -/
def State.ctrReady (s : State) (t : TileId) (k live : Nat) : Bool :=
  decide (live < 0xFFFFFFFF) && decide ((s.eph t).guard ≤ (s.vol t).meters.jDone) && decide (live < s.ceil t (ctrSlot k)) &&
  decide (live < (Tbl.get (s.tile t).media.loadTable.2 (ctrSlot k)).getD 0)

/-- Counter `k` stands at `live` after a use, or is to be used: reserve when the ceiling is reached. -/
def State.ctrEnsure (s : State) (t : TileId) (k live : Nat) : State :=
  if s.ceil t (ctrSlot k) ≤ live ∧ live < 0xFFFFFFFF then s.reserveCtr t k live else s

/-- Counter `k` restarts at 0 under a new key or source address (R285, R589). -/
def State.ctrRestart (s : State) (t : TileId) (k : Nat) : State :=
  let s := s.onMeters t fun m => { m with ceils := Tbl.put m.ceils (ctrSlot k) 0 }
  let s := s.journal t { op := .ceiling, slot := ctrSlot k, gen := 0, upd := 0, snap := MeterRec.free 0, amount := 0, ceil := 0 }
  s.mirror t (.ceilings (s.ceil t (ctrSlot 1)) (s.ceil t (ctrSlot 2)) (s.ceil t (ctrSlot 0)))

/-- IC_DOWN stands at its end: EVENT_FLAGS bit 16, and the event once (R285). -/
def State.icExhausted (s : State) (t : TileId) (slot : Nat) : State :=
  if bit (s.meter t slot).eventFlags 16 then s else (s.latchFlag t slot 16).event t 2 0x1506 (s.midxOf t slot)

/-- Seal a plaintext APDU toward a meter under its EK and AK with IC_DOWN, which is then incremented (R284): none when a key is
missing. -/
def State.sealDown (s : State) (t : TileId) (slot : Nat) (plain : Bytes) : State × Option Bytes :=
  let e := s.sessionKey t (s.midxOf t slot) 0 0 1
  match e.2 with
  | .error _ => (e.1, none)
  | .ok ek =>
    let a := e.1.sessionKey t (s.midxOf t slot) 1 0 1
    match a.2 with
    | .error _ => (a.1, none)
    | .ok ak =>
      let r := a.1.meter t slot
      let s := a.1.setMeter t slot { r with icDown := r.icDown + 1 }
      let s := if r.icDown + 1 = 0xFFFFFFFF then s.icExhausted t slot
        else if s.ceil t slot ≤ r.icDown + 1 then s.reserveIc t slot else s
      (s, some (sealWrapper (fit 8 (Config.systemTitle t)) ek ak r.icDown plain))

/-! ### Requests (R284, R286, R310) -/

/-- Queue a request: it takes the lowest invoke-id of 8 to 15 that no other request of the meter holds. -/
def State.request (s : State) (t : TileId) (slot : Nat) (job : EJob) (kind cls : Nat) (body : Nat → Bytes) : State :=
  let used := ((s.eph t).reqs.filter fun r => decide (r.slot = slot)).map EReq.inv
  let inv := (((List.range 8).map (8 + ·)).find? fun i => !used.contains i).getD 15
  s.onEph t fun e => { e with reqs := e.reqs ++
    [({ slot := slot, job := job, body := body inv, kind := kind, cls := cls, inv := inv, tries := 0, sent := none } : EReq)] }

/-- Drop requests of a meter. -/
def State.unrequest (s : State) (t : TileId) (slot : Nat) (p : EJob → Bool) : State :=
  s.onEph t fun e => { e with reqs := e.reqs.filter fun r => !(decide (r.slot = slot) && p r.job) }

/-- A request of a meter is under way. -/
def State.asking (s : State) (t : TileId) (slot : Nat) (p : EJob → Bool) : Bool :=
  (s.eph t).reqs.any fun r => decide (r.slot = slot) && p r.job

/-- Kinds of jobs. -/
def EJob.isPush : EJob → Bool
  | .push _ => true
  | _ => false
def EJob.isCal : EJob → Bool
  | .cal _ _ => true
  | _ => false
def EJob.isClock : EJob → Bool
  | .clockGet _ => true
  | .clockSet => true
  | _ => false
def EJob.isRelay : EJob → Bool
  | .relayAct => true
  | .relayGet => true
  | _ => false

/-! ### Relay commands and their reconciliation (R278 to R282) -/

/-- The reported state meets the command. -/
def relayMeets (cmd rpt : Nat) : Bool :=
  decide (cmd = 0xFF) || decide (cmd = rpt ∧ cmd ≤ 2) || (decide (cmd = 2) && decide (rpt = 1))

/-- A meter with a relay in service. -/
def State.relayMeter (s : State) (t : TileId) (r : MeterRec) : Bool := decide (r.state = 1) && bit (s.clsFlags t r.cls) 1

/-- The machine of a relay meter, and a change of it. -/
def State.erelay (s : State) (t : TileId) (slot : Nat) : ERelay :=
  (Tbl.get (s.eph t).relays slot).getD { st := 0, a := 0, getAt := none, auditAt := 0 }
def State.onERelay (s : State) (t : TileId) (slot : Nat) (f : ERelay → ERelay) : State :=
  s.onEph t fun e => { e with relays := Tbl.put e.relays slot (f (s.erelay t slot)) }

/-- The part of a period that a slot not yet asked waits: consecutive slots spread evenly over it (R280, R442; which meter is asked when is a
DESIGN CHOICE, notes/assumptions/17.md). -/
def turnIn (period slot : Nat) : Nat := period * (slot * 40503 % 65536 + 1) / 65536

/-- The turn of a slot in the audit period. -/
def State.auditTurn (s : State) (t : TileId) (slot : Nat) : Nat := turnIn (s.rd Reg.eph_relay_audit_h t * 3600 * 1000000000) slot

/-- A relay meter that has no machine yet (enrolled, or edited into a relay class, while the tile serves) is MATCHED, its first audit placed in the period. -/
def State.auditPlan (s : State) (t : TileId) (slot : Nat) : State :=
  let r := s.meter t slot
  if s.relayMeter t r = true ∧ r.path ≠ 3 ∧ (Tbl.get (s.eph t).relays slot).isNone = true then
    s.onERelay t slot fun x => { x with auditAt := s.now + s.auditTurn t slot }
  else s

/-- Δ in nanoseconds. -/
def State.relayDelay (s : State) (t : TileId) : Nat := s.rd Reg.eph_relay_check_delay_s t * 1000000000

/-- Issue a relay command (R278): record, journal and mirror first, then the ACTION. -/
def State.relayIssue (s : State) (t : TileId) (slot c a : Nat) : State :=
  let s := s.unrequest t slot EJob.isRelay
  let s := s.fieldsMeter t slot fun r => { r with relayCmd := c, relayCmdTime := s.timeSec t % 2 ^ 32 }
  let s := s.onERelay t slot fun x => { x with st := 1, a := a, getAt := none }
  s.request t slot .relayAct 0 0 (dlmsAct (disconnectCtl (if c = 0 then 1 else 2)) (dInt8 0))

/-- A relay command of the host or of R276: none when it is refused with INVALID. -/
def State.relayCommand (s : State) (t : TileId) (slot c : Nat) : Option State :=
  let r := s.meter t slot
  if !s.relayMeter t r ∨ 2 < c then none
  else if r.path = 3 then
    let s := s.fieldsMeter t slot fun r => { r with relayCmd := c, relayCmdTime := s.timeSec t % 2 ^ 32 }
    match localRelayCmd t 0 (min c 1) s with
    | (s, .ok) => some s
    | _ => none
  else if (s.erelay t slot).st = 0 ∧ relayMeets c r.relayRpt then
    some (s.fieldsMeter t slot fun r => { r with relayCmd := c })
  else some (s.relayIssue t slot c 1)

/-- A reconciliation failure (R279). -/
def State.relayFail (s : State) (t : TileId) (slot : Nat) : State :=
  let r := s.meter t slot
  let s := ((s.onERelay t slot fun x => { x with st := 3, getAt := none }).latchFlag t slot 8).bump Reg.eph_relay_mismatches t
  (s.event t 2 0x1501 (s.midxOf t slot) r.relayCmd r.relayRpt).meterEvidence t 3 (s.midxOf t slot) (r.relayCmd * 256 + r.relayRpt)

/-- W has passed since RELAY_CMD_TIME. -/
def State.relayLate (s : State) (t : TileId) (slot : Nat) : Bool :=
  let r := s.meter t slot
  decide (s.rd Reg.eph_relay_confirm_s t ≤ (s.timeSec t % 2 ^ 32 + 2 ^ 32 - r.relayCmdTime % 2 ^ 32) % 2 ^ 32)

/-- CHECK finds no match (R279). -/
def State.relayDiffers (s : State) (t : TileId) (slot : Nat) : State :=
  if !s.relayLate t slot then s.onERelay t slot fun x => { x with getAt := some (s.now + s.relayDelay t) }
  else if (s.erelay t slot).a ≤ s.rd Reg.eph_relay_retries t then
    s.relayIssue t slot (s.meter t slot).relayCmd ((s.erelay t slot).a + 1)
  else (s.unrequest t slot EJob.isRelay).relayFail t slot

/-- Set RELAY_RPT from a GET response for control_state, journalled. -/
def State.relayReported (s : State) (t : TileId) (slot v : Nat) : State :=
  if (s.meter t slot).relayRpt = v then s else s.fieldsMeter t slot fun r => { r with relayRpt := v }

/-- The GET of CHECK has ended. -/
def State.relayChecked (s : State) (t : TileId) (slot : Nat) (v : Option Nat) : State :=
  if (s.erelay t slot).st ≠ 2 then s
  else match v with
    | some v =>
      let s := s.relayReported t slot v
      if relayMeets (s.meter t slot).relayCmd v then s.onERelay t slot fun x => { x with st := 0, getAt := none }
      else s.relayDiffers t slot
    | none => s.relayDiffers t slot

/-- The GET of an audit has ended (R280). -/
def State.relayAudited (s : State) (t : TileId) (slot : Nat) (v : Option Nat) : State :=
  match v with
  | some v =>
    let s := s.relayReported t slot v
    let ok := relayMeets (s.meter t slot).relayCmd v
    match (s.erelay t slot).st with
    | 0 => if ok then s else s.relayFail t slot
    | 3 => if ok then (s.onERelay t slot fun x => { x with st := 0 }).event t 0 0x1502 (s.midxOf t slot) else s
    | _ => s
  | none => s

/-! ### Prepayment (R271, R272, R275, R276) -/

/-- A prepayment profile. -/
structure Profile where
  prices : List Nat
  standing : Nat
  flags : Nat
  start : Nat
  stop : Nat
  days : Nat
  emergency : Int
  reconnect : Int
  deriving DecidableEq, Repr

/-- Profile `p` of a tile. -/
def State.profile (s : State) (t : TileId) (p : Nat) : Profile :=
  let b := s.rdB Reg.eph_profiles t (64 * p) 64
  { prices := (List.range 8).map fun i => fld b (4 * i) 4, standing := fld b 0x20 4, flags := fld b 0x24 2, start := fld b 0x26 2
    stop := fld b 0x28 2, days := fld b 0x2A 1, emergency := toSigned 64 (fld b 0x30 8), reconnect := toSigned 64 (fld b 0x38 8) }

/-- The ACTIVE profile that a record names. -/
def State.profileOf (s : State) (t : TileId) (r : MeterRec) : Option Profile :=
  if r.prepayProfile < 16 ∧ bit (s.profile t r.prepayProfile).flags 0 = true then some (s.profile t r.prepayProfile) else none

/-- The profile of a prepayment meter whose class FLAGS are `flags` (R271). -/
def State.prepayUnder (s : State) (t : TileId) (r : MeterRec) (flags : Nat) : Option Profile :=
  if bit flags 0 then s.profileOf t r else none

/-- The profile of a prepayment meter (R271). -/
def State.prepay (s : State) (t : TileId) (r : MeterRec) : Option Profile := s.prepayUnder t r (s.clsFlags t r.cls)

/-- Local second of the present instant, by the calendar in force (R261). -/
def State.localNow (s : State) (t : TileId) : Int := localOf (s.calendar t) (s.utcOfTai (s.timeSec t))

/-- A local instant is friendly for a profile (R275). -/
def State.friendly (s : State) (t : TileId) (p : Profile) (l : Int) : Bool :=
  let day := l / 86400
  let d := civilFromDays day
  let m := (l % 86400 / 60).toNat
  bit p.days (weekday day - 1) ||
  (bit p.flags 2 && (specialProfile (s.calendar t) d.1 d.2.1 d.2.2).isSome) ||
  (if p.start < p.stop then decide (p.start ≤ m ∧ m < p.stop) else if p.stop < p.start then decide (p.start ≤ m ∨ m < p.stop) else false)

/-- Remove or set the deferred mark. -/
def State.defer (s : State) (t : TileId) (slot : Nat) (on : Bool) : State :=
  s.onEph t fun e => { e with deferred := (e.deferred.filter (· != slot)) ++ (if on then [slot] else []) }

/-- Evaluate a prepayment meter (R276). -/
def State.prepayEval (s : State) (t : TileId) (slot : Nat) : State :=
  let r := s.meter t slot
  match s.prepay t r with
  | none => s.defer t slot false
  | some p =>
    let c := r.credit + r.creditHeld
    let s := if c < 0 then s.latchFlag t slot 9 else s
    let s := if c < -p.emergency then s.latchFlag t slot 10 else s
    if bit p.flags 3 then s
    else if c < -p.emergency ∧ r.relayCmd ≠ 0 then
      if s.friendly t p (s.localNow t) then (s.defer t slot true).latchFlag t slot 11
      else match (s.defer t slot false).relayCommand t slot 0 with
        | some s => s.bump Reg.eph_disconnects t
        | none => s.defer t slot false
    else if p.reconnect ≤ c ∧ r.relayCmd = 0 then
      match (s.defer t slot false).relayCommand t slot (if bit p.flags 1 then 2 else 1) with
      | some s => s.bump Reg.eph_reconnects t
      | none => s.defer t slot false
    else s.defer t slot false

/-! ### Clock adjustments and split requests (R268, R269) -/

/-- The meter already has a record that ends at `g`. -/
def hasTend (m : MeterRec) (g : Nat) : Bool :=
  let i := max m.idur 1
  decide (g = m.lastTend) || (decide (g < m.lastTend) && decide ((m.lastTend - g) % i = 0) && decide ((m.lastTend - g) / i ≤ 16) &&
    bit m.dupMap ((m.lastTend - g) / i - 1))

/-- Request a split at a second. -/
def State.splitRequest (s : State) (t : TileId) (slot sec : Nat) : State :=
  let m := s.meter t slot
  let midx := s.midxOf t slot
  let ph := s.rd Reg.gather_grid_phase t
  let g := gridAbove ph m.idur sec
  let l := (s.eph t).splits
  if onGrid ph m.idur sec ∨ 4096 ≤ l.length ∨ (l.any fun e => decide (e.midx = midx ∧ e.g = g)) ∨ hasTend m g then
    (s.bump Reg.eph_splits_refused t).event t 1 0x1504 midx sec
  else (s.onEph t fun e => { e with splits := e.splits ++ [({ midx := midx, g := g, s := sec } : SplitEnt)] }).mirror t (.split true midx g sec)

/-- A meter clock has been adjusted by `ms` at a TAI second. CLK_OFS counts units of 10 ms. -/
def State.clockAdjust (s : State) (t : TileId) (slot : Nat) (ms : Int) (sec : Nat) : State :=
  let s := s.stateMeter t slot fun r => { r with clkOfs := max (-32768) (min 32767 (ms.tdiv 10)) }
  let s := s.event t 0 0x1503 (s.midxOf t slot) (ms % 2 ^ 32).toNat
  if s.rd Reg.eph_clock_split_limit t * 1000 < ms.natAbs then (s.latchFlag t slot 12).splitRequest t slot sec else s

end Sys2Proof.Machine
end

