-- ==== Sys2Proof/Machine/EphPush.lean ====
section
/-! DEFINITION. EphPush.lean: chapter 8: pushes of calendars and of images to meters (R286 to R293). -/

namespace Sys2Proof.Machine

open Crypto

/-! ### Calendar push (R287) -/

/-- The newest committed calendar. -/
def State.newestCal (s : State) (t : TileId) : Bytes :=
  let p := s.rdAll Reg.eph_cal_passive t
  if fld p 0 1 = 0 then s.calendar t else p

/-- The sign that a meter's deviation carries. -/
def State.devSign (s : State) (t : TileId) : Int := if s.rd Reg.gather_deviation_invert t = 1 then -1 else 1

/-- Used seasons of a calendar: number, month, day, week. -/
def calSeasons (c : Bytes) : List (Nat × Nat × Nat × Nat) :=
  ((List.range 8).filter fun i => bit (fld c (0x43 + 4 * i) 1) 0).map fun i =>
    (i, fld c (0x40 + 4 * i) 1, fld c (0x41 + 4 * i) 1, fld c (0x42 + 4 * i) 1)

/-- Weeks that the used seasons name, and day profiles that these weeks and the valid special days name. -/
def calWeeks (c : Bytes) : List Nat := (List.range 8).filter fun w => (calSeasons c).any fun x => decide (x.2.2.2 = w)
def calSpecials (c : Bytes) : List (Nat × Nat) :=
  ((List.range 256).map fun i => (i, fld c (0x220 + 4 * i) 4)).filter fun x => bit x.2 4
def calDays (c : Bytes) : List Nat :=
  (List.range 16).filter fun d => ((calWeeks c).any fun w => ((List.range 7).any fun k => decide (fld c (0x60 + 8 * w + k) 1 = d))) ||
    (calSpecials c).any fun x => decide (x.2 % 16 = d)

/-- Valid switch points of a day profile: minute and rate. -/
def calPoints (c : Bytes) (d : Nat) : List (Nat × Nat) :=
  (((List.range 12).map fun i => fld c (0xA0 + 24 * d + 2 * i) 2).filter fun x => bit x 15).map fun x => (x % 2 ^ 11, x / 2 ^ 12 % 8)

/-- Steps of a calendar push: 5 SETs of the clock, 5 SETs of the activity calendar, 256 actions on the special days, the GET. -/
def calSteps : Nat := 267

/-- The request of step `k`. -/
def State.calRequest (s : State) (t : TileId) (c : Bytes) (version k inv : Nat) : Bytes :=
  let std := calStd c
  let year := (civilFromDays (s.localNow t / 86400)).1
  let tz := s.devSign t * std
  match k with
  | 0 => dlmsSet (clockObj 3) (dInt16 (if s.rd Reg.gather_deviation_invert t = 1 then -std else std)) inv
  | 1 => dlmsSet (clockObj 5) (dOct (dlmsTime (ruleInstant (fld c 0x16 4) year) 0 (-tz) 0)) inv
  | 2 => dlmsSet (clockObj 6) (dOct (dlmsTime (ruleInstant (fld c 0x1A 4) year) 0 (-(tz + s.devSign t * calDst c)) 0x80)) inv
  | 3 => dlmsSet (clockObj 7) (dInt8 (calDst c)) inv
  | 4 => dlmsSet (clockObj 8) (dBool (calDstOn c)) inv
  | 5 => dlmsSet (activityCal 6) (dOct ((c.drop 2).take 6 ++ natBE 1 version)) inv
  | 6 => dlmsSet (activityCal 7) (dArr ((calSeasons c).map fun x =>
      dStr [dOct (natBE 1 x.1), dOct ([0xFF, 0xFF] ++ natBE 1 x.2.1 ++ natBE 1 x.2.2.1 ++ [0xFF, 0, 0, 0, 0, 0x80, 0, 0xFF]),
            dOct (natBE 1 x.2.2.2)])) inv
  | 7 => dlmsSet (activityCal 8) (dArr ((calWeeks c).map fun w =>
      dStr (dOct (natBE 1 w) :: (List.range 7).map fun i => dU8 (fld c (0x60 + 8 * w + i) 1)))) inv
  | 8 => dlmsSet (activityCal 9) (dArr ((calDays c).map fun d =>
      dStr [dU8 d, dArr ((calPoints c d).map fun x =>
        dStr [dOct (natBE 1 (x.1 / 60) ++ natBE 1 (x.1 % 60) ++ [0, 0]), dOct [0, 0, 10, 0, 100, 255], dU16 (x.2 + 1)])])) inv
  | 9 =>
    let a := calActivateNs c
    let sec := if a = 0 then (s.tile t).calSince.1 else a / 1000000000
    let u := s.utcOfTai sec
    let l := localOf c u
    dlmsSet (activityCal 10) (dOct (dlmsTime l (if a = 0 then 0 else a % 1000000000 / 10000000) (-(s.devSign t * ((l - u) / 60)))
      (if dstAt c u then 0x80 else 0))) inv
  | 266 => dlmsGet (activityCal 6) inv
  | k + 10 =>
    match (calSpecials c).find? fun x => decide (x.1 = k) with
    | some (i, e) => dlmsAct (specialDays 1) (dStr [dU16 i,
        dOct (natBE 2 (e / 2 ^ 16) ++ natBE 1 (e / 2 ^ 12 % 16) ++ natBE 1 (e / 2 ^ 7 % 32) ++ [0xFF]), dU8 (e % 16)]) inv
    | none => dlmsAct (specialDays 2) (dU16 k) inv

/-- The meter takes part in calendar pushes. -/
def State.calMeter (s : State) (t : TileId) (r : MeterRec) : Bool := decide (r.state = 1) && bit (s.clsFlags t r.cls) 2 && decide (r.path ≤ 2)

/-- Set the calendar state, PUSH_STATE[7:4]. -/
def State.setCalState (s : State) (t : TileId) (slot st : Nat) : State :=
  if (s.meter t slot).pushState / 16 = st then s
  else s.fieldsMeter t slot fun r => { r with pushState := r.pushState % 16 + 16 * st }

/-- A step has failed under R284. -/
def State.calFailed (s : State) (t : TileId) (slot : Nat) : State :=
  let s := s.onEph t fun e => { e with cal := Tbl.del e.cal slot, calRetry := Tbl.put e.calRetry slot (s.now + 86400 * 1000000000) }
  (s.setCalState t slot 3).latchFlag t slot 13

/-- The response to a step: the next step is due, or the push has ended. An error result counts as a failure (DESIGN CHOICE, notes/assumptions/17.md),
but for a deletion of a special day that the meter does not hold. -/
def State.calAnswered (s : State) (t : TileId) (slot step version : Nat) (d : Option Bytes) : State :=
  match Tbl.get (s.eph t).cal slot with
  | some (k, v) =>
    if k ≠ step ∨ v ≠ version then s
    else match d with
      | some d =>
        if step = 266 then
          if d = dOct (((s.newestCal t).drop 2).take 6 ++ natBE 1 version) then
            let s := s.onEph t fun e => { e with cal := Tbl.del e.cal slot }
            s.fieldsMeter t slot fun r => { r with calVersion := version, pushState := r.pushState % 16 }
          else s.calFailed t slot
        else s.onEph t fun e => { e with cal := Tbl.put e.cal slot (step + 1, v) }
      | none =>
        if 10 ≤ step ∧ step < 266 ∧ !((calSpecials (s.newestCal t)).any fun x => decide (x.1 = step - 10)) then
          s.onEph t fun e => { e with cal := Tbl.put e.cal slot (step + 1, v) }
        else s.calFailed t slot
  | none => s

/-- CALENDAR_PUSH: the next step of the push to a meter whose CAL_VERSION differs. -/
def calendarPush (t : TileId) (slot : Nat) (s : State) : State :=
  let r := s.meter t slot
  let v := s.rd Reg.eph_cal_version t
  if !s.serves t ∨ s.rd Reg.eph_cal_push_enable t = 0 ∨ !s.calMeter t r ∨ r.calVersion = v ∨ s.asking t slot EJob.isCal ∨
      s.now < (Tbl.get (s.eph t).calRetry slot).getD 0 then s
  else
    let k := match Tbl.get (s.eph t).cal slot with
      | some (k, w) => if w = v then k else 0
      | none => 0
    let s := (s.onEph t fun e => { e with cal := Tbl.put e.cal slot (k, v), calRetry := Tbl.del e.calRetry slot }).setCalState t slot 2
    s.request t slot (.cal k v) 2 3 (s.calRequest t (s.newestCal t) v k)

/-- CALENDAR_PUSH (R287). -/
def execCalendarPush (t : TileId) (slot : Nat) (s : State) : Host.Outcome State Fault Refusal := finish (calendarPush t slot) s

/-! ### The campaign (R288, R289, R293) -/

/-- The descriptor loaded, and fields of a descriptor. -/
def State.campaign (s : State) (t : TileId) : Bytes := s.rdAll Reg.eph_push_descriptor t
def campId (d : Bytes) : Nat := fld d 0 4
def campSize (d : Bytes) : Nat := fld d 4 4
def campBlock (d : Bytes) : Nat := fld d 8 2
def campRounds (d : Bytes) : Nat := fld d 0x0A 1
def campTries (d : Bytes) : Nat := fld d 0x0B 1
def campKey (d : Bytes) : Nat := fld d 0x0C 1
def campIdent (d : Bytes) : Bytes := (d.drop 0x10).take (fld d 0x0D 1)
def campActivate (d : Bytes) : Nat := time80ns ((d.drop 0x30).take 10)

/-- K. -/
def campBlocks (d : Bytes) : Nat := (campSize d + campBlock d - 1) / max (campBlock d) 1

/-- The campaign state. The stored value of a NO_IMAGE state keeps the former one in its upper digit, which no read shows (DESIGN CHOICE,
notes/assumptions/17.md). -/
def State.campState (s : State) (t : TileId) : Nat := s.rd Reg.eph_push_state t % 16

/-- The members: slots whose IMG_ID is the campaign's. -/
def State.members (s : State) (t : TileId) : List Nat :=
  let id := campId (s.campaign t)
  if id = 0 then [] else s.slotsOf t fun r => decide (r.imgId = id) && decide (r.pushState % 16 ≠ 0)

/-- Members that are neither DONE nor FAILED nor CANCELLED. -/
def State.openMembers (s : State) (t : TileId) : List Nat := (s.members t).filter fun i => decide ((s.meter t i).pushState % 16 < 7)

/-- The campaign becomes DONE with its last member. -/
def State.pushSettle (s : State) (t : TileId) : State :=
  if (s.campState t = 2 ∨ s.campState t = 3) ∧ s.members t ≠ [] ∧ s.openMembers t = [] then s.wrM Reg.eph_push_state t 5 else s

/-- A member in DRAM, and a change of it. -/
def State.member (s : State) (t : TileId) (slot : Nat) : EMember := (Tbl.get (s.eph t).members slot).getD (EMember.init false)
def State.onMember (s : State) (t : TileId) (slot : Nat) (f : EMember → EMember) : State :=
  s.onEph t fun e => { e with members := Tbl.put e.members slot (f (s.member t slot)) }

/-- Move a member to a state, PUSH_STATE[3:0]. -/
def State.pushTo (s : State) (t : TileId) (slot st : Nat) : State :=
  let s := s.fieldsMeter t slot fun r => { r with pushState := r.pushState / 16 * 16 + st }
  (s.onMember t slot fun m => { m with sub := 0, todo := [], idle := 0, waitTo := 0 }).pushSettle t

/-- A member fails for a reason. -/
def State.pushFail (s : State) (t : TileId) (slot reason : Nat) : State :=
  let s := ((s.unrequest t slot EJob.isPush).latchFlag t slot 14).event t 1 0x1505 (s.midxOf t slot) reason
  (s.bump Reg.eph_push_fail t reason).pushTo t slot 8

/-- The descriptor of R288 is in order. -/
def campOk (d : Bytes) : Bool :=
  decide (campId d ≠ 0) && decide (1 ≤ campSize d ∧ campSize d ≤ 4194304) && decide (64 ≤ campBlock d ∧ campBlock d ≤ 1024) &&
  decide (campRounds d ≤ 4) && decide (1 ≤ campTries d ∧ campTries d ≤ 16) && decide (campKey d ≤ 63 ∨ campKey d = 0xFF) &&
  decide (1 ≤ fld d 0x0D 1 ∧ fld d 0x0D 1 ≤ 32) && decide (fld d 0x0E 2 = 0) &&
  decide (leNat ((d.drop (0x10 + fld d 0x0D 1)).take (32 - fld d 0x0D 1)) = 0) && decide (fld d 0x36 4 < 1000000000) && decide (fld d 0x3A 6 = 0)

/-- `tile.eph.push_load`. The image of a campaign in NO_IMAGE returns it to its former state; the 600 s of members in ACTIVATING, whose ACTION the
tile does not remember, run anew (R293; DESIGN CHOICE, notes/assumptions/17.md). -/
def pushLoad (t : TileId) (s : State) : State :=
  let d := s.rdAll Reg.eph_push_stage t
  let st := s.campState t
  if !s.serves t then s.ephRefuse t .notActive
  else if st = 2 ∨ st = 3 then s.ephRefuse t .busy
  else if !campOk d then s.ephRefuse t .invalid
  else if sha256 (s.rdB Reg.eph_image t 0 (campSize d)) ≠ (d.drop 0x40).take 32 then s.ephRefuse t .hash
  else if st = 4 ∧ (s.campaign t).drop 0x40 = d.drop 0x40 then
    let s := ((s.members t).filter fun i => decide ((s.meter t i).pushState % 16 = 6)).foldl
      (fun s i => s.onMember t i fun m => { m with actAt := s.now, heard := false }) s
    ((s.wrM Reg.eph_push_state t (s.rd Reg.eph_push_state t / 16)).pushSettle t).ephOk t
  else
    let s := s.onEph t fun e => { e with members := [], mcast := none, mcastDone := false, activate := false
                                         reqs := e.reqs.filter fun r => !r.job.isPush }
    ((s.wrBM Reg.eph_push_descriptor t 0 d).wrM Reg.eph_push_state t 1).ephOk t

/-- PUSH_LOAD (R288). -/
def execPushLoad (t : TileId) (s : State) : Host.Outcome State Fault Refusal := finish (consuming t [Reg.eph_push_stage, Reg.eph_image] (pushLoad t)) s

/-- Change the campaign state when it stands in one of `from_`; else CONFLICT. -/
def State.campTo (s : State) (t : TileId) (from_ : List Nat) (goal : Nat) (f : State → State) : State :=
  if !s.serves t then s.ephRefuse t .notActive
  else if !from_.contains (s.campState t) then s.ephRefuse t .conflict
  else (f (s.wrM Reg.eph_push_state t goal)).ephOk t

/-- PUSH_START (R288): a LOADED campaign starts, a PAUSED one goes on. -/
def execPushStart (t : TileId) (s : State) : Host.Outcome State Fault Refusal :=
  finish (fun s => s.campTo t [1, 3] 2 fun s => s.pushSettle t) s

/-- PUSH_PAUSE (R288). -/
def execPushPause (t : TileId) (s : State) : Host.Outcome State Fault Refusal := finish (fun s => s.campTo t [2] 3 fun s => s) s

/-- `tile.eph.push_cancel`: every member but DONE and FAILED is CANCELLED (R290). -/
def pushCancel (t : TileId) (s : State) : State :=
  s.campTo t [1, 2, 3, 4] 6 fun s =>
    ((s.members t).filter fun i => !decide ((s.meter t i).pushState % 16 = 7) && !decide ((s.meter t i).pushState % 16 = 8)).foldl
      (fun s i => (s.unrequest t i EJob.isPush).pushTo t i 9) s

/-- PUSH_CANCEL (R290). -/
def execPushCancel (t : TileId) (s : State) : Host.Outcome State Fault Refusal := finish (pushCancel t) s

/-- `tile.eph.push_add`. -/
def pushAdd (t : TileId) (s : State) : State :=
  let id := campId (s.campaign t)
  if !s.serves t then s.ephRefuse t .notActive
  else if !([1, 2, 3].contains (s.campState t)) then s.ephRefuse t .conflict
  else
    let l := ((List.range 256).map fun i => s.rdF Reg.eph_push_members t (4 * i) 4).filter (· != 0xFFFFFFFF)
    (l.foldl (fun s m =>
      let slot := midxSlot m
      let r := s.meter t slot
      if s.ownMidx t m ∧ r.state = 1 ∧ bit (s.clsFlags t r.cls) 3 = true ∧ [0, 7, 8, 9].contains (r.pushState % 16) = true then
        let late := (s.eph t).mcast.isSome || (s.eph t).mcastDone
        (s.fieldsMeter t slot fun r => { r with imgId := id, imgBlocks := 0, pushState := r.pushState / 16 * 16 + 1 }).onMember t slot fun _ =>
          EMember.init late
      else s.bump Reg.eph_push_add_refused t) s).ephOk t

/-- PUSH_ADD (R289). -/
def execPushAdd (t : TileId) (s : State) : Host.Outcome State Fault Refusal := finish (consuming t [Reg.eph_push_members] (pushAdd t)) s

/-! ### The member machine (R290 to R292) -/

/-- Multicast applies to a member (R291, R285). -/
def State.mcastFor (s : State) (t : TileId) (slot : Nat) : Bool :=
  let d := s.campaign t
  let k := campKey d
  decide (1 ≤ campRounds d) && decide (k ≤ 63) && (s.slotKey t k).isSome &&
  ((s.blob t (blobPlace 2 k)).any fun b => bit (blobMask b) 0) && decide ((s.meter t slot).path ≤ 1) && !(s.member t slot).unicast &&
  decide ((s.eph t).bcast < 0xFFFFFFFF)

/-- A push request. -/
def State.pushAsk (s : State) (t : TileId) (slot ask : Nat) (body : Nat → Bytes) : State := s.request t slot (.push ask) 3 3 body

/-- An image block with its number, as method 2 takes it. -/
def State.blockData (s : State) (t : TileId) (n : Nat) : Bytes :=
  let d := s.campaign t
  let b := campBlock d
  dStr [dU32 n, dOct (s.rdB Reg.eph_image t (b * n) (min b (campSize d - b * n)))]

/-- PUSH_MEMBER_STEP: the member's turn outside FILLING (R290). -/
def pushMemberStep (t : TileId) (slot : Nat) (s : State) : State :=
  let r := s.meter t slot
  let m := s.member t slot
  let d := s.campaign t
  if !s.serves t ∨ s.campState t ≠ 2 ∨ !(s.members t).contains slot ∨ s.asking t slot EJob.isPush ∨ s.now < m.waitTo then s
  else match r.pushState % 16 with
    | 1 =>
      if m.sub = 0 then s.pushAsk t slot 2 (dlmsGet (imageTransfer 2))
      else if m.sub = 1 then s.pushAsk t slot 5 (dlmsGet (imageTransfer 5))
      else s.pushAsk t slot 11 (dlmsAct (imageTransfer 1) (dStr [dOct (campIdent d), dU32 (campSize d)]))
    | 2 => if (s.eph t).mcastDone ∨ !s.mcastFor t slot then s.pushTo t slot 3 else s
    | 4 =>
      if m.sub = 0 then s.pushAsk t slot 13 (dlmsAct (imageTransfer 3) (dInt8 0)) else s.pushAsk t slot 6 (dlmsGet (imageTransfer 6))
    | 5 =>
      if (s.eph t).activate ∨ (campActivate d ≠ 0 ∧ s.hasTime t ∧ (campActivate d : Int) ≤ s.timeNs t) then
        let s := (s.pushTo t slot 6).onMember t slot fun m => { m with actAt := s.now, heard := false }
        s.pushAsk t slot 14 (dlmsAct (imageTransfer 4) (dInt8 0))
      else s
    | 6 => s.pushAsk t slot 16 (dlmsGet (imageTransfer 6))
    | _ => s

/-- PUSH_MEMBER_STEP (R290). -/
def execPushMemberStep (t : TileId) (slot : Nat) (s : State) : Host.Outcome State Fault Refusal := finish (pushMemberStep t slot) s

/-- FILL_PASS: the next request of a fill pass (R292): the block status, a missing block, or the count afterwards. -/
def fillPass (t : TileId) (slot : Nat) (s : State) : State :=
  let m := s.member t slot
  let k := campBlocks (s.campaign t)
  if !s.serves t ∨ s.campState t ≠ 2 ∨ !(s.members t).contains slot ∨ (s.meter t slot).pushState % 16 ≠ 3 ∨ s.asking t slot EJob.isPush ∨
      s.now < m.waitTo then s
  else if m.sub = 0 then s.pushAsk t slot 3 (dlmsGet (imageTransfer (if 15872 < k then 4 else 3)))
  else match m.todo with
    | n :: _ => s.pushAsk t slot 12 (dlmsAct (imageTransfer 2) (s.blockData t n))
    | [] => s.pushAsk t slot 4 (dlmsGet (imageTransfer 4))

/-- FILL_PASS (R292). -/
def execFillPass (t : TileId) (slot : Nat) (s : State) : Host.Outcome State Fault Refusal := finish (fillPass t slot) s

/-- Missing blocks by a block status: a bit string of attribute 3, or the first number of attribute 4. -/
def missingBlocks (k : Nat) (d : Bytes) : List Nat :=
  match d with
  | 0x04 :: r =>
    match axLen r with
    | .ok (_, b) => (List.range k).filter fun i => !bit ((b.getD (i / 8) 0).toNat) (7 - i % 8)
    | .error _ => []
  | _ => match dlmsNat d with
    | some n => (List.range (k - n)).map (n + ·)
    | none => []

/-- Poll image_transfer_status again after the response timeout. -/
def State.pushAgain (s : State) (t : TileId) (slot : Nat) : State :=
  s.onMember t slot fun m => { m with sub := 1, waitTo := s.now + s.rd Reg.eph_resp_timeout_ms t * 1000000 }

/-- A push request has ended: with data, an error result, or unanswered (R290). An error result counts as no response
(DESIGN CHOICE, notes/assumptions/17.md). While the campaign is not RUNNING the machine stands still: the answer is left, and the step is asked again when the
campaign goes on. -/
def State.pushAnswered (s : State) (t : TileId) (slot ask : Nat) (d : Option Bytes) : State :=
  let k := campBlocks (s.campaign t)
  let m := s.member t slot
  if s.campState t ≠ 2 ∨ (s.openMembers t).contains slot = false then s
  else if ask = 14 then s.onMember t slot fun m => { m with sub := 1 }
  else if ask = 16 then
    match d with
    | some d =>
      if dlmsNat d = some 6 then s.pushTo t slot 7
      else if dlmsNat d = some 7 then s.pushFail t slot 4
      else (s.pushAgain t slot).onMember t slot fun m => { m with heard := true }
    | none => s.pushAgain t slot
  else match d with
    | none => s.pushFail t slot 5
    | some d =>
      match ask with
      | 2 => if dlmsNat d = some (campBlock (s.campaign t)) then s.onMember t slot fun m => { m with sub := 1 } else s.pushFail t slot 0
      | 5 => if dlmsNat d = some 1 then s.onMember t slot fun m => { m with sub := 2 } else s.pushFail t slot 1
      | 11 => s.pushTo t slot 2
      | 3 => s.onMember t slot fun m => { m with sub := 1, todo := missingBlocks k d }
      | 12 => s.onMember t slot fun m => { m with todo := m.todo.tail }
      | 4 =>
        let n := min ((dlmsNat d).getD 0) k
        let old := (s.meter t slot).imgBlocks
        let s := if n = old then s else s.fieldsMeter t slot fun r => { r with imgBlocks := n }
        if k ≤ n then s.pushTo t slot 4
        else if n ≤ old ∧ campTries (s.campaign t) ≤ m.idle + 1 then s.pushFail t slot 2
        else s.onMember t slot fun x =>
          { x with sub := 0, todo := [], idle := if n ≤ old then m.idle + 1 else 0, waitTo := s.now + s.rd Reg.eph_resp_timeout_ms t * 1000000 }
      | 13 => s.onMember t slot fun m => { m with sub := 1 }
      | 6 =>
        if dlmsNat d = some 3 then s.pushTo t slot 5
        else if dlmsNat d = some 4 then s.pushFail t slot 3
        else s.pushAgain t slot
      | _ => s

/-- `tile.eph.push_activate`: VERIFIED members are activated. -/
def pushActivate (t : TileId) (s : State) : State :=
  if !s.serves t then s.ephRefuse t .notActive
  else if s.campState t ≠ 2 then s.ephRefuse t .conflict
  else
    let s := s.onEph t fun e => { e with activate := true }
    (((s.members t).filter fun i => decide ((s.meter t i).pushState % 16 = 5)).foldl (fun s i => pushMemberStep t i s) s).ephOk t

/-- PUSH_ACTIVATE (R290). -/
def execPushActivate (t : TileId) (s : State) : Host.Outcome State Fault Refusal := finish (pushActivate t) s

/-- IMAGE_ACTIVATE_TIME: Meridian reaches ACTIVATE (R290). -/
def imageActivateTime (t : TileId) (s : State) : State :=
  let a := campActivate (s.campaign t)
  if !s.serves t ∨ s.campState t ≠ 2 ∨ a = 0 ∨ !s.hasTime t ∨ s.timeNs t < (a : Int) then s
  else ((s.members t).filter fun i => decide ((s.meter t i).pushState % 16 = 5)).foldl (fun s i => pushMemberStep t i s) s

/-- IMAGE_ACTIVATE_TIME (R290). -/
def execImageActivateTime (t : TileId) (s : State) : Host.Outcome State Fault Refusal := finish (imageActivateTime t) s

/-- ACTIVATING_TIMEOUT: 600 s after the ACTION without an answer of image_transfer_status (R290). -/
def activatingTimeout (t : TileId) (slot : Nat) (s : State) : State :=
  let m := s.member t slot
  if s.serves t ∧ s.campState t = 2 ∧ (s.members t).contains slot = true ∧ (s.meter t slot).pushState % 16 = 6 ∧ m.heard = false ∧ m.actAt + 600 * 1000000000 ≤ s.now then
    s.pushFail t slot 5
  else s

/-- ACTIVATING_TIMEOUT (R290). -/
def execActivatingTimeout (t : TileId) (slot : Nat) (s : State) : Host.Outcome State Fault Refusal := finish (activatingTimeout t slot) s

/-- The MIDX that stands for every meter in a broadcast. -/
def allMeters : Nat := 2 ^ 22

/-- MULTICAST_ROUND: the next block goes to every meter, under the broadcast key (R291). The associated data names no AK: none is common
to the meters (DESIGN CHOICE, notes/assumptions/17.md). -/
def multicastRound (t : TileId) (s : State) : State :=
  let d := s.campaign t
  let open_ := s.members t
  let st := fun i => (s.meter t i).pushState % 16
  let dst := open_.filter fun i => decide (st i = 2) && s.mcastFor t i
  let x := (s.eph t).mcast.getD (0, 0)
  if !s.serves t ∨ s.campState t ≠ 2 ∨ (s.eph t).mcastDone ∨ (open_.any fun i => decide (st i = 1)) ∨ dst = [] then s
  else if !s.ctrReady t 2 (s.eph t).bcast then s.ctrEnsure t 2 (s.eph t).bcast
  else
    let u := s.useBayKey t (campKey d) 1
    match u.2 with
    | none => u.1
    | some key =>
      let ic := (u.1.eph t).bcast
      let plain := [0xC3, 1, 0] ++ (imageTransfer 2).bytes ++ [1] ++ u.1.blockData t x.2
      let title := fit 8 (Config.systemTitle t)
      let c := gcmSeal (key.take 16) (title ++ natBE 4 ic) [0x70] plain 12
      let body := [0x70] ++ natBE 4 ic ++ c.1 ++ c.2
      let apdu := [0xDB, 0x08] ++ title ++ axLenOf body.length ++ body
      let last := decide (campBlocks d ≤ x.2 + 1)
      let done := last && decide (campRounds d ≤ x.1 + 1)
      let s := u.1.onEph t fun e => { e with
        bcast := ic + 1, mcastDone := done
        mcast := if done then none else if last then some (x.1 + 1, 0) else some (x.1, x.2 + 1) }
      let path := fun p => dst.any fun i => decide ((s.meter t i).path = p)
      let s := if path 0 then s.swSend t 6 3 3 (.mac allMeters 3 0 apdu) else s
      let s := if path 1 then s.swSend t 6 4 3 (.mac allMeters 3 0 apdu) else s
      s.ctrEnsure t 2 (ic + 1)

/-- MULTICAST_ROUND (R291). -/
def execMulticastRound (t : TileId) (s : State) : Host.Outcome State Fault Refusal := finish (multicastRound t) s

end Sys2Proof.Machine
end

