-- ==== Sys2Proof/Machine/Ephemeris.lean ====
section
/-! DEFINITION. Ephemeris.lean: chapter 8: calendars, billing, top-ups, relay commands, the exchange of requests with meters, and the check of
meter clocks (R442). -/

namespace Sys2Proof.Machine

/-! ### Calendars (R258 to R263) -/

/-- First offset of a list of checks that fails. -/
def firstBad (l : List (Bool × Nat)) : Option Nat := (l.find? fun x => !x.1).map Prod.snd

/-- A DST rule is in range. -/
def dstRuleOk (r : Nat) : Bool :=
  decide (1 ≤ r / 2 ^ 28 ∧ r / 2 ^ 28 ≤ 12) && decide (1 ≤ r / 2 ^ 25 % 8 ∧ r / 2 ^ 25 % 8 ≤ 5) && decide (1 ≤ r / 2 ^ 22 % 8) &&
  decide (r / 2 ^ 11 % 2 ^ 11 ≤ 1439)

/-- Condition 4 for a day profile: the offset of the first point that breaks it. -/
def profileBad (c : Bytes) (p : Nat) : Option Nat :=
  let pt := fun i => fld c (0xA0 + 24 * p + 2 * i) 2
  firstBad ((List.range 12).map fun i =>
    (if i = 0 then bit (pt 0) 15 && decide (pt 0 % 2 ^ 11 = 0)
     else !bit (pt i) 15 || (bit (pt (i - 1)) 15 && decide (pt (i - 1) % 2 ^ 11 < pt i % 2 ^ 11)), 0xA0 + 24 * p + 2 * i))

/-- The conditions of R262 in order: the offset named at the first that fails. -/
def calBad (c : Bytes) (timeNs : Int) : Option Nat :=
  let z := fun a n => decide (leNat ((c.drop a).take n) = 0)
  let season := fun i => (bit (fld c (0x43 + 4 * i) 1) 0, fld c (0x40 + 4 * i) 2)
  let sp := fun i => fld c (0x220 + 4 * i) 4
  let week := fun i => fld c (0x60 + 8 * (i / 7) + i % 7) 1
  let c1 := [(decide (fld c 0 1 = 1), 0), (decide (Crypto.crc32 (c.take 0x63C) = fld c 0x63C 4), 0x63C), (decide (fld c 1 1 < 2), 1),
      (decide (fld c 0x16 4 % 2 ^ 11 = 0), 0x16), (decide (fld c 0x1A 4 % 2 ^ 11 = 0), 0x1A), (z 0x1E 34, 0x1E)] ++
    ((List.range 8).map fun i => (decide (fld c (0x43 + 4 * i) 1 < 2), 0x43 + 4 * i)) ++
    ((List.range 8).map fun i => (z (0x67 + 8 * i) 1, 0x67 + 8 * i)) ++
    ((List.range 192).map fun i => (!bit (fld c (0xA0 + 2 * i) 2) 11, 0xA0 + 2 * i)) ++
    ((List.range 256).map fun i => (decide (sp i / 2 ^ 5 % 4 = 0), 0x220 + 4 * i)) ++ [(z 0x620 28, 0x620)]
  let c2 := [(decide (-720 ≤ calStd c ∧ calStd c ≤ 840), 0x12), (decide (0 ≤ calDst c ∧ calDst c ≤ 120), 0x14),
    (dstRuleOk (fld c 0x16 4), 0x16), (dstRuleOk (fld c 0x1A 4), 0x1A)]
  let c3 := [((List.range 8).any fun i => (season i).1, 0x40)] ++
    ((List.range 8).map fun i => (!(season i).1 || !(List.range i).any fun j => (season j).1 && decide ((season j).2 = (season i).2), 0x40 + 4 * i)) ++
    ((List.range 8).map fun i => (!(season i).1 || decide (fld c (0x42 + 4 * i) 1 ≤ 7), 0x42 + 4 * i))
  let named := (List.range 16).filter fun p => ((List.range 56).any fun i => decide (week i = p)) ||
    (List.range 256).any fun i => bit (sp i) 4 && decide (sp i % 16 = p)
  let c4 := firstBad ((List.range 56).map fun i => (decide (week i ≤ 15), 0x60 + 8 * (i / 7) + i % 7))
  let c5 := (List.range 256).map fun i =>
    (!bit (sp i) 4 || !(List.range i).any fun j => bit (sp j) 4 && decide (sp j / 2 ^ 7 = sp i / 2 ^ 7), 0x220 + 4 * i)
  let a := calActivateNs c
  (((((firstBad c1).or (firstBad c2)).or (firstBad c3)).or (c4.or (named.findSome? (profileBad c)))).or (firstBad c5)).or
    (if a = 0 ∨ timeNs ≤ a then none else some 8)

/-- A calendar comes into force; the one in force becomes the previous one. -/
def State.calInForce (s : State) (t : TileId) (c : Bytes) (sec : Nat) : State :=
  let s := s.onTile t fun x => { x with calSince := (sec, x.calSince.1) }
  (s.wrBM Reg.eph_cal_previous t 0 (s.calendar t)).wrBM Reg.eph_calendar t 0 c

/-- `tile.eph.cal_commit`. -/
def ephCalCommit (t : TileId) (s : State) : State :=
  let c := s.rdAll Reg.eph_cal_stage t
  if !s.serves t then s.ephRefuse t .notActive
  else match calBad c (s.whenNs t) with
    | some off => (s.wr Reg.eph_cal_bad_offset t off).ephRefuse t .invalid
    | none =>
      let v := s.rd Reg.eph_cal_version t
      let v := if v = 255 then 1 else v + 1
      let s := (s.wr Reg.eph_cal_bad_offset t 0xFFFF).wrM Reg.eph_cal_version t v
      let s := if calActivateNs c = 0 then (s.wrBM Reg.eph_cal_passive t 0 (List.replicate 1600 0)).calInForce t c (s.timeSec t)
        else s.wrBM Reg.eph_cal_passive t 0 c
      let s := s.onEph t fun e => { e with calRetry := [], cal := [], reqs := e.reqs.filter fun r => !r.job.isCal }
      ((s.slotsOf t fun r => s.calMeter t r && decide (r.calVersion ≠ v)).foldl (fun s i => s.setCalState t i 1) s).ephOk t

/-- EPH_CAL_COMMIT (R262). -/
def execEphCalCommit (t : TileId) (s : State) : Host.Outcome State Fault Refusal := finish (consuming t [Reg.eph_cal_stage] (ephCalCommit t)) s

/-- CALENDAR_ACTIVATE: the passive calendar comes into force at its ACTIVATE (R262). -/
def calendarActivate (t : TileId) (s : State) : State :=
  let c := s.rdAll Reg.eph_cal_passive t
  if s.serves t ∧ fld c 0 1 ≠ 0 ∧ s.hasTime t ∧ (calActivateNs c : Int) ≤ s.timeNs t then
    (s.calInForce t c (calActivateNs c / 1000000000)).wrBM Reg.eph_cal_passive t 0 (List.replicate 1600 0)
  else s

/-- CALENDAR_ACTIVATE (R262). -/
def execCalendarActivate (t : TileId) (s : State) : Host.Outcome State Fault Refusal := finish (calendarActivate t) s

/-! ### Billing (R263 to R266, R271 to R274) -/

/-- The rate of a second, under the calendar in force at it, and whether it lies before the previous calendar (R263). -/
def State.rateOf (s : State) (t : TileId) (sec : Nat) : Nat × Bool :=
  let x := (s.tile t).calSince
  let u := s.utcOfTai sec
  if x.1 ≤ sec then (rateAt (s.calendar t) u, false) else (rateAt (s.rdAll Reg.eph_cal_previous t) u, decide (sec < x.2))

/-- Energy in mWh of amounts given per map place, over maps of one RKIND, by `tile.eph.bill_basis`: the usable maps of a BAL value are summed, since R192
does not apply (R264). -/
def State.billEnergy (s : State) (t : TileId) (r : MeterRec) (rkind : Nat) (amount : Nat → Int) : Int :=
  let maps := s.maps t r.cls
  let mwh := fun i => match maps[i]? with
    | some m => if m.rkind = rkind then milliWh (amount i) m.scaler else 0
    | none => 0
  let side := fun bal => ((balMaps maps bal).map mwh).sum
  if s.rd Reg.eph_bill_basis t = 1 then side 1 - side 2 else side 1

/-- The fields of a METER record. -/
structure BillRec where
  tend : Nat
  idur : Nat
  qual : Nat
  regs : List Int
  deriving DecidableEq, Repr

/-- The contributions of a record: ends of the meter intervals that receive energy, with the energy (R191, R193, R194, R264). -/
def State.contributions (s : State) (t : TileId) (r : MeterRec) (m : BillRec) (prior : Option (List Int)) (base : Nat × List Int) :
    List (Nat × Int) :=
  let maps := s.maps t r.cls
  let has := fun rk => maps.any fun x => (decide (x.bal = 1) || decide (x.bal = 2)) && decide (x.unit = 30) && decide (x.rkind = rk)
  let rk2 := s.billEnergy t r 2 fun i => m.regs.getD i 0
  if !s.energyClass t r.cls ∨ m.idur = 0 then []
  else if bit m.qual 7 then
    match prior with
    | some l =>
      let d := fun i => m.regs.getD i 0 - l.getD i 0
      let e0 := s.billEnergy t r 0 d
      [(m.tend, s.billEnergy t r 2 d + e0)] ++ (if m.tend < base.1 then [(m.tend + m.idur, -e0)] else [])
    | none => []
  else if base.1 ≠ 0 ∧ m.tend ≤ base.1 then (if has 2 then [(m.tend, rk2)] else [])
  else
    let d := fun i =>
      let x := m.regs.getD i 0 - base.2.getD i 0
      let roll := (maps[i]?.map RegMap.roll).getD 0
      if x < 0 ∧ 0 < roll ∧ bit m.qual 2 = true then x + 10 ^ roll else x
    let n := (m.tend - base.1) / m.idur
    let spread : List (Nat × Int) :=
      if base.1 = 0 ∨ !has 0 = true ∨ (m.tend - base.1) % m.idur ≠ 0 ∨ 96 < n then []
      else (List.range n).map fun j =>
        let back := n - 1 - j
        (m.tend - back * m.idur, s.billEnergy t r 0 fun i => if back = 0 then d i - (n - 1 : Nat) * (d i / (n : Int)) else d i / (n : Int))
    (if has 2 then [(m.tend, rk2)] else []) ++ spread

/-- Shares of a contribution per rate (R266): ⌊e × s_r ÷ IDUR⌋ each, the remainder to the rate of the last second; and whether a second was too
old. -/
def State.rateShares (s : State) (t : TileId) (T idur : Nat) (e : Int) : List Int × Bool :=
  let rs := (List.range idur).map fun k => s.rateOf t (T - k)
  let sh := (List.range 8).map fun q => e * (rs.countP fun x => decide (x.1 = q) : Nat) / (max idur 1 : Nat)
  let last := (s.rateOf t T).1
  (sh.set last (sh.getD last 0 + (e - sh.sum)), rs.any Prod.snd)

/-- Charges of the shares under a profile (R273). -/
def energyCharge (p : Profile) (sh : List Int) : Int := ((sh.zip p.prices).map fun x => x.1 * (x.2 : Int) / 1000000).sum

/-- Two's complement of 64 bits. -/
def wrap64 (v : Int) : Int := toSigned 64 (v % 2 ^ 64).toNat

/-- Ephemeris applies a METER record against its baseline (R264 to R266, R271, R273, R274), under the class FLAGS that the reading entered G5 with (R51); how long it waited
since G9 shows in `tile.eph.lag_max_ms` (R267). `keepHeld` says that CREDIT_HELD already contains the
record (a load, R71). -/
def State.billRecord (s : State) (t : TileId) (seq slot : Nat) (m : BillRec) (prior : Option (List Int)) (base : Nat × List Int)
    (keepHeld : Bool) : State :=
  let r := s.meter t slot
  let restate := bit m.qual 7
  let adv := !restate && (decide (base.1 = 0) || decide (base.1 < m.tend))
  let sh := (s.contributions t r m prior base).map fun x => s.rateShares t x.1 m.idur x.2
  let s := if sh.any Prod.snd then s.bump Reg.eph_cal_too_old t else s
  let s := if r.prepayProfile ≠ 0xFFFF ∧ (s.profileOf t r).isNone = true then s.bump Reg.eph_bad_profile t else s
  let s := s.onEph t fun e => { e with base :=
    if adv || (restate && decide (base.1 = m.tend)) then Tbl.put e.base slot (m.tend, m.regs) else Tbl.put e.base slot base }
  let tou := (List.range 8).map fun q => wrap64 (r.tou.getD q 0 + (sh.map fun x => x.1.getD q 0).sum)
  let prov := bit m.qual 1 || bit m.qual 8 || !bit m.qual 0
  let fed := Tbl.get (s.eph t).flagsAt seq
  let flags := (fed.map Prod.fst).getD (s.clsFlags t r.cls)
  let s := s.onEph t fun e => { e with flagsAt := Tbl.del e.flagsAt seq }
  let s := match fed with
    | some x => s.wr Reg.eph_lag_max_ms t (max (s.rd Reg.eph_lag_max_ms t) (min ((s.now - x.2) / 1000000) 0xFFFFFFFF))
    | none => s
  let cost : Int := match s.prepayUnder t r flags with
    | some p => (sh.map fun x => energyCharge p x.1).sum +
        (if adv && decide (base.1 ≠ 0) then ((p.standing * (m.tend - base.1) / 86400 : Nat) : Int) else 0)
    | none => 0
  let held := if keepHeld then r.creditHeld else if prov then sat64 (r.creditHeld + cost) else 0
  let f := fun (r : MeterRec) => { r with tou := tou, credit := sat64 (r.credit - cost), creditHeld := held, billSeq := seq }
  (if held = r.creditHeld then s.stateMeter t slot f else s.fieldsMeter t slot f).bump Reg.eph_applied t

/-- The values of the record at PRIOR_SEQ of the LINK that precedes a restating record (R194). -/
def State.priorRegs (s : State) (t : TileId) (a : ArchRec) : Option (List Int) :=
  match a.body, (s.heldRec t (a.seq - 1)).map ArchRec.body with
  | .meter _ _ _ qual _, some (.link _ prior _ _) =>
    if bit qual 7 then match (s.heldRec t prior).map ArchRec.body with
      | some (.meter _ _ _ _ l) => some l
      | _ => none
    else none
  | _, _ => none

/-- Ephemeris takes the next record of its feed; a prepayment meter is evaluated after it (R276). -/
def State.billTake (s : State) (t : TileId) (a : ArchRec) : State :=
  match a.body with
  | .meter _ tend idur qual regs =>
    let slot := midxSlot a.who
    let base := (Tbl.get (s.eph t).base slot).getD (0, [])
    (s.billRecord t a.seq slot { tend := tend, idur := idur, qual := qual, regs := regs } (s.priorRegs t a) base false).prepayEval t slot
  | _ => s

/-- BILLING_APPLY: the next record of the feed, missing SEQs first from the archive. -/
def billingApply (t : TileId) (s : State) : State :=
  if !s.serves t then s
  else
    let r := s.qRead t 3
    match r.2 with
    | some (.record x) =>
      let s := r.1
      let n := (s.eph t).next
      if x.seq < n then s
      else
        let s := if n ≠ 0 ∧ n < x.seq then
            ((s.archived t (seqStream x.seq)).filter fun y => decide (n ≤ y.seq) && decide (y.seq < x.seq)).foldl (fun s y => s.billTake t y)
              (s.bump Reg.eph_feed_gaps t)
          else s
        (s.billTake t x).onEph t fun e => { e with next := x.seq + 1 }
    | _ => r.1

/-- BILLING_APPLY (R264). -/
def execBillingApply (t : TileId) (s : State) : Host.Outcome State Fault Refusal := finish (billingApply t) s

/-! ### Load and start (R71, R265, R281, R293) -/

/-- Apply archive records `again`, each with the LAST_TEND and LAST_REG before its own update (R265): `l` in SEQ order over a table of records, which follows.
CREDIT_HELD of a slot stands as its newest journal entry left it (R71). -/
def State.replayBills (s : State) (t : TileId) (m : Media) (table : Tbl MeterRec) (l : List ArchRec) (again : ArchRec → Bool) : State × Tbl MeterRec :=
  let phase := s.rd Reg.gather_grid_phase t
  let heldSeq := fun slot => (m.journal.filter fun e => decide (e.2.slot = slot) && decide (e.2.op ≠ .ceiling)).foldl (fun a e => max a e.2.snap.billSeq) 0
  l.foldl (fun (x : State × Tbl MeterRec) a =>
    let slot := midxSlot a.who
    match a.body, Tbl.get x.2 slot with
    | .meter _ tend idur qual regs, some m =>
      let s := if again a then
          x.1.billRecord t a.seq slot { tend := tend, idur := idur, qual := qual, regs := regs } (x.1.priorRegs t a) (m.lastTend, m.lastReg)
            (decide (a.seq ≤ heldSeq slot))
        else x.1
      (s, if m.lastSeq < a.seq then Tbl.put x.2 slot (m.applyRecord phase a) else x.2)
    | _, _ => x) (s, table)

/-- Apply archive records again at a load (R71 step 4). -/
def State.ephReplay (s : State) (t : TileId) (again : List ArchRec) : State :=
  let m := (s.tile t).media
  let s0 := (m.newestCk.map Checkpoint.s0).getD 0
  let l := ((m.arch0 ++ m.arch1).filter fun e => decide (s0 ≤ e.1)).map fun e => e.2.ent
  let r := (s.replayBills t m m.loadTable.1 l again.contains).1
  r.onEph t fun e => { e with base := (r.vol t).meters.recs.map fun x => (x.1, (x.2.lastTend, x.2.lastReg)) }

/-- A RUNNING or PAUSED campaign goes to NO_IMAGE (R293). -/
def State.campNoImage (s : State) (t : TileId) : State :=
  let st := s.rd Reg.eph_push_state t
  if st = 2 ∨ st = 3 then s.wr Reg.eph_push_state t (4 + 16 * st) else s

/-- Ephemeris after the load of the meter table. -/
def State.ephLoad (s : State) (t : TileId) (again : List ArchRec) : State :=
  let s := s.onEph t fun e => { e with topups := (s.readable t).topups, bcast := s.ceil t (ctrSlot 2) }
  (s.ephReplay t again).campNoImage t

/-- Ephemeris starts in a tile that serves from now on: exhausted counters, relays and prepayment meters (R276, R281, R285), audits spread over their period (R280). -/
def State.ephStart (s : State) (t : TileId) : State :=
  let l := s.slotsOf t fun r => s.relayMeter t r && decide (r.path ≠ 3)
  let period := s.rd Reg.eph_relay_audit_h t * 3600 * 1000000000
  let s := (l.zip (List.range l.length)).foldl (fun s x =>
    let r := s.meter t x.1
    let at_ := s.now + period * (x.2 + 1) / max l.length 1
    s.onERelay t x.1 fun _ =>
      if relayMeets r.relayCmd r.relayRpt then { st := 0, a := 0, getAt := none, auditAt := at_ }
      else { st := 2, a := 1, getAt := some s.now, auditAt := at_ }) s
  let s := (s.slotsOf t fun r => decide (r.state = 1) && decide (r.icDown = 0xFFFFFFFF)).foldl (fun s i => s.icExhausted t i) s
  (s.slotsOf t fun r => decide (r.state = 1) && (s.prepay t r).isSome).foldl (fun s i => s.prepayEval t i) s

/-- A tile that stops serving keeps what its feed still holds as a backlog of records not yet billed (R265, DEDUCED, notes/assumptions/17.md), the feed being
empty from then on: it starts afresh with the tile's next turn. -/
def State.ephToBacklog (s : State) (t : TileId) : State :=
  let q := s.queue t 3
  let l := (q.drain ++ q.fill).filterMap fun i => match i with
    | .record r => match r.body with
      | .meter _ tend _ qual regs => some (r, tend, qual, regs)
      | _ => none
    | _ => none
  let r := l.foldl (fun (x : List (ArchRec × Nat × List Int) × Tbl (Nat × List Int)) y =>
    let slot := midxSlot y.1.who
    let base := (Tbl.get x.2 slot).getD (0, [])
    let next := !bit y.2.2.1 7 && (decide (base.1 = 0) || decide (base.1 < y.2.1))
    (x.1 ++ [(y.1, base)], if next || (bit y.2.2.1 7 && decide (base.1 = y.2.1)) then Tbl.put x.2 slot (y.2.1, y.2.2.2) else x.2)) ([], (s.eph t).base)
  let s := (s.setQueue t 3 { q with drain := [], fill := [], above := false }).onEph t fun e => { e with backlog := e.backlog ++ r.1, next := 0, flagsAt := [] }
  s.wr Reg.eph_backlog t (s.eph t).backlog.length

/-- The backlog of a promoted standby is applied in SEQ order before anything else (R265). -/
def State.ephBacklog (s : State) (t : TileId) : State :=
  let l := (s.eph t).backlog
  let first := fun slot => l.find? fun x => decide (midxSlot x.1.who = slot)
  let s := s.onEph t fun e => { e with backlog := [], base := (s.vol t).meters.recs.map fun x =>
    (x.1, match first x.1 with
      | some y => y.2
      | none => (x.2.lastTend, x.2.lastReg)) }
  (l.foldl (fun s x => match x.1.body with
    | .meter _ tend idur qual regs =>
      let slot := midxSlot x.1.who
      s.billRecord t x.1.seq slot { tend := tend, idur := idur, qual := qual, regs := regs } (s.priorRegs t x.1) x.2 false
    | _ => s) s).wr Reg.eph_backlog t 0

/-! ### Top-ups, held credit, profiles (R272, R274, R277) -/

/-- A prepayment profile of 64 bytes is in order (R272). -/
def profileOk (b : Bytes) : Bool :=
  decide (fld b 0x24 2 < 16) && decide (fld b 0x26 2 ≤ 1439) && decide (fld b 0x28 2 ≤ 1439) && decide (fld b 0x2A 1 < 128) &&
  decide (fld b 0x2B 5 = 0) && decide (0 ≤ toSigned 64 (fld b 0x30 8)) && decide (-(toSigned 64 (fld b 0x30 8)) ≤ toSigned 64 (fld b 0x38 8))

/-- A write of `tile.eph.profiles`. -/
def profileWrite (t : TileId) (off : Nat) (data : Bytes) (s : State) : State × Status :=
  if s.refusesConfig t then (s, .notActive)
  else if 1024 < off + data.length then (s, .length)
  else
    let n := s.wrB Reg.eph_profiles t off data
    if (List.range 16).all fun p => profileOk (n.rdB Reg.eph_profiles t (64 * p) 64) then (s.wrBM Reg.eph_profiles t off data, .ok)
    else (s, .invalid)

/-- PROFILE_WRITE (R272). -/
def execProfileWrite (t : TileId) (off : Nat) (data : Bytes) (s : State) : Host.Outcome State Fault Refusal :=
  finish (fun s => let r := profileWrite t off data s; r.1.answer t r.2) s

/-- `tile.eph.topup`. -/
def topup (t : TileId) (s : State) : State :=
  let b := s.rdAll Reg.eph_topup_stage t
  let midx := fld b 0 4
  let slot := midxSlot midx
  let id := fld b 8 8
  let r := s.meter t slot
  if !s.serves t ∨ !s.ownMidx t midx then s.ephRefuse t .notActive
  else if r.state ≠ 1 ∨ (s.prepay t r).isNone ∨ fld b 4 4 ≠ 0 ∨ fld b 0x18 8 ≠ 0 then s.ephRefuse t .invalid
  else if (s.eph t).topups.contains id then s.ephRefuse t .duplicateId
  else if (s.tile t).media.journalFull then s.ephRefuse t .busy
  else
    let amount := toSigned 64 (fld b 0x10 8)
    let n := { r with credit := sat64 (r.credit + amount) }
    let s := (s.journalMeter t slot n .topup amount id).onEph t fun e => { e with topups := keepLast 4096 (e.topups ++ [id]) }
    let s := (s.mirrorFields t slot r (s.meter t slot)).mirror t (.topupId (natLE 8 id))
    s.onMeters t fun m =>
      { m with pend := m.pend ++ [({ slot := slot, jpos := m.jCount, mirror := s.mirrorMark t, drain := false, topup := true, act := s.acts.now } : PendAct)] }

/-- TOPUP (R277). -/
def execTopup (t : TileId) (s : State) : Host.Outcome State Fault Refusal := finish (consuming t [Reg.eph_topup_stage] (topup t)) s

/-- The slot that `tile.eph.select` names: none unless the tile serves it and a record stands there. -/
def State.ephSelected (s : State) (t : TileId) : Option Nat :=
  let m := s.rd Reg.eph_select t
  if s.ownMidx t m ∧ (s.meter t (midxSlot m)).state = 1 then some (midxSlot m) else none

/-- `tile.eph.confirm_held`. -/
def confirmHeld (t : TileId) (s : State) : State :=
  if !s.serves t then s.ephRefuse t .notActive
  else match s.ephSelected t with
    | none => s.ephRefuse t .invalid
    | some i => (if (s.meter t i).creditHeld = 0 then s else s.fieldsMeter t i fun r => { r with creditHeld := 0 }).ephOk t

/-- CONFIRM_HELD (R274). -/
def execConfirmHeld (t : TileId) (s : State) : Host.Outcome State Fault Refusal := finish (confirmHeld t) s

/-- PREPAY_EVALUATE: a local minute begins; deferred meters are evaluated (R276). -/
def prepayEvaluate (t : TileId) (s : State) : State :=
  let m := s.localNow t / 60
  if !s.serves t ∨ !s.hasTime t ∨ (s.eph t).minute = m then s
  else (s.eph t).deferred.foldl (fun s i => s.prepayEval t i) (s.onEph t fun e => { e with minute := m })

/-- PREPAY_EVALUATE (R276). -/
def execPrepayEvaluate (t : TileId) (s : State) : Host.Outcome State Fault Refusal := finish (prepayEvaluate t) s

/-! ### Relay commands, flags, clock events, splits (R268 to R270, R278 to R283) -/

/-- A write of `tile.eph.relay_cmd`. -/
def ephRelayCmd (t : TileId) (c : Nat) (s : State) : State × Status :=
  if !s.serves t then (s, .notActive)
  else match (s.ephSelected t).bind fun i => s.relayCommand t i c with
    | some s => (s, .ok)
    | none => (s, .invalid)

/-- EPH_RELAY_CMD (R278). -/
def execEphRelayCmd (t : TileId) (c : Nat) (s : State) : Host.Outcome State Fault Refusal :=
  finish (fun s => let r := ephRelayCmd t c s; r.1.answer t r.2) s

/-- RELAY_CHECK_GET: Δ has passed in CHECK (R279). -/
def relayCheckGet (t : TileId) (slot : Nat) (s : State) : State :=
  match (s.erelay t slot).getAt with
  | some x =>
    if s.serves t ∧ (s.erelay t slot).st = 2 ∧ x ≤ s.now then
      (s.onERelay t slot fun y => { y with getAt := none }).request t slot .relayGet 1 1 (dlmsGet (disconnectCtl 3))
    else s
  | none => s

/-- RELAY_CHECK_GET (R279). -/
def execRelayCheckGet (t : TileId) (slot : Nat) (s : State) : Host.Outcome State Fault Refusal := finish (relayCheckGet t slot) s

/-- RELAY_CONFIRM_EXPIRY: W has passed in CHECK (R279). -/
def relayConfirmExpiry (t : TileId) (slot : Nat) (s : State) : State :=
  if s.serves t ∧ (s.erelay t slot).st = 2 ∧ s.relayLate t slot = true then s.relayDiffers t slot else s

/-- RELAY_CONFIRM_EXPIRY (R279). -/
def execRelayConfirmExpiry (t : TileId) (slot : Nat) (s : State) : Host.Outcome State Fault Refusal := finish (relayConfirmExpiry t slot) s

/-- RELAY_AUDIT: the audit of a meter is due (R280); for a relay meter that has none placed yet, it is placed in the period. -/
def relayAudit (t : TileId) (slot : Nat) (s : State) : State :=
  let r := s.meter t slot
  if s.serves t ∧ s.relayMeter t r = true ∧ r.path ≠ 3 ∧ (s.erelay t slot).auditAt = 0 then s.onERelay t slot fun y => { y with auditAt := s.now + s.auditTurn t slot }
  else if s.serves t ∧ s.relayMeter t r = true ∧ r.path ≠ 3 ∧ (s.erelay t slot).auditAt ≤ s.now ∧ s.asking t slot (fun j => decide (j = .auditGet)) = false then
    (s.onERelay t slot fun y => { y with auditAt := s.now + s.rd Reg.eph_relay_audit_h t * 3600 * 1000000000 }).request t slot .auditGet 1 1
      (dlmsGet (disconnectCtl 3))
  else s

/-- RELAY_AUDIT (R280). -/
def execRelayAudit (t : TileId) (slot : Nat) (s : State) : Host.Outcome State Fault Refusal := finish (relayAudit t slot) s

/-- Conditions of EVENT_FLAGS that still hold (R248, R283). -/
def State.flagsHeld (s : State) (t : TileId) (slot : Nat) : List Nat :=
  let r := s.meter t slot
  let loc := decide (r.path = 3)
  let m := (s.vol t).metro
  let p := s.prepay t r
  let c := r.credit + r.creditHeld
  ((if loc && m.mags.any MagSensor.failed then [2] else []) ++
   (if loc && decide ((m.relays.getD 0 Relay.init).st = 3) then [3] else []) ++
   (if loc && decide ((m.relays.getD 1 Relay.init).st = 3) then [4] else []) ++
   (if loc && s.legalFull t then [5] else []) ++
   (if decide ((s.erelay t slot).st = 3) then [8] else []) ++
   (if p.isSome && decide (c < 0) then [9] else []) ++
   (if p.any fun p => decide (c < -p.emergency) then [10] else []) ++
   (if (s.eph t).deferred.contains slot then [11] else []) ++
   (if decide (r.pushState % 16 = 8) then [14] else []) ++
   (if decide (r.icDown = 0xFFFFFFFF) then [16] else []))

/-- A write of `tile.eph.flags_clear`. -/
def flagsClear (t : TileId) (mask : Nat) (s : State) : State × Status :=
  if !s.serves t then (s, .notActive)
  else match s.ephSelected t with
    | none => (s, .invalid)
    | some i =>
      let keep := (List.range 32).foldl (fun a k =>
        if bit (s.meter t i).eventFlags k && (!bit mask k || (s.flagsHeld t i).contains k) then a + 2 ^ k else a) 0
      (if keep = (s.meter t i).eventFlags then s else s.fieldsMeter t i fun r => { r with eventFlags := keep }, .ok)

/-- FLAGS_CLEAR (R283). -/
def execFlagsClear (t : TileId) (mask : Nat) (s : State) : Host.Outcome State Fault Refusal :=
  finish (fun s => let r := flagsClear t mask s; r.1.answer t r.2) s

/-- `tile.eph.clock_event`. -/
def clockEvent (t : TileId) (s : State) : State :=
  let b := s.rdAll Reg.eph_clock_stage t
  let midx := fld b 0 4
  if !s.serves t then s.ephRefuse t .notActive
  else if fld b 14 2 ≠ 0 ∨ !s.ownMidx t midx ∨ (s.meter t (midxSlot midx)).state ≠ 1 then s.ephRefuse t .invalid
  else (s.clockAdjust t (midxSlot midx) (toSigned 32 (fld b 10 4)) (fld b 4 6)).ephOk t

/-- CLOCK_EVENT (R268). -/
def execClockEvent (t : TileId) (s : State) : Host.Outcome State Fault Refusal := finish (consuming t [Reg.eph_clock_stage] (clockEvent t)) s

/-- SPLIT_EXPIRE: entries whose G lies more than 16 intervals behind LAST_TEND (R270). -/
def splitExpire (t : TileId) (s : State) : State :=
  if !s.serves t then s
  else
    let old := (s.eph t).splits.filter fun e => decide (e.g + 16 * (s.meter t (midxSlot e.midx)).idur < (s.meter t (midxSlot e.midx)).lastTend)
    old.foldl (fun s e =>
      ((s.bump Reg.eph_splits_expired t).latchFlag t (midxSlot e.midx) 15).mirror t (.split false e.midx e.g e.s))
      (s.onEph t fun x => { x with splits := x.splits.filter fun e => !old.contains e })

/-- SPLIT_EXPIRE (R270). -/
def execSplitExpire (t : TileId) (s : State) : Host.Outcome State Fault Refusal := finish (splitExpire t) s

/-! ### The check of meter clocks (R442) -/

/-- The clock check of a meter, and a change of it. -/
def State.eclock (s : State) (t : TileId) (slot : Nat) : EClock :=
  (Tbl.get (s.eph t).clocks slot).getD { nextAt := 0, trips := [], setAt := 0, ofs := 0 }
def State.onEClock (s : State) (t : TileId) (slot : Nat) (f : EClock → EClock) : State :=
  s.onEph t fun e => { e with clocks := Tbl.put e.clocks slot (f (s.eclock t slot)) }

/-- Insert into a rising list. -/
def insertUp (x : Int) : List Int → List Int
  | [] => [x]
  | y :: r => if x ≤ y then x :: y :: r else y :: insertUp x r

/-- Half the median of the round trips (ns). -/
def pathDelay (l : List Int) : Int :=
  let x := l.foldl (fun a v => insertUp v a) []
  let n := x.length
  if n = 0 then 0 else (x.getD ((n - 1) / 2) 0 + x.getD (n / 2) 0) / 4

/-- The period of the clock checks, in ns. -/
def State.checkPeriod (s : State) (t : TileId) : Nat := s.rd Reg.time_meter_check_h t * 3600 * 1000000000

/-- METER_CLOCK_CHECK: the check of a meter is due. A meter that has no turn yet gets one in the period, which spreads the checks over it. -/
def meterClockCheck (t : TileId) (slot : Nat) (s : State) : State :=
  let r := s.meter t slot
  if !(s.serves t && decide (s.rd Reg.time_meter_set_enable t = 1) && decide (r.state = 1) && decide (r.path ≤ 2) && s.hasTime t) then s
  else if (s.eclock t slot).nextAt = 0 then s.onEClock t slot fun c => { c with nextAt := s.now + turnIn (s.checkPeriod t) slot }
  else if (s.eclock t slot).nextAt ≤ s.now ∧ s.asking t slot EJob.isClock = false then
    let s := s.bump Reg.time_meter_checks t
    (s.onEClock t slot fun c => { c with nextAt := s.now + s.checkPeriod t }).request t slot
      (.clockGet false) 1 1 (dlmsGet (clockObj 2))
  else s

/-- METER_CLOCK_CHECK (R442). -/
def execMeterClockCheck (t : TileId) (slot : Nat) (s : State) : Host.Outcome State Fault Refusal := finish (meterClockCheck t slot) s

/-- The meter's time in a response, in ns of TAI. -/
def State.meterTime (s : State) (t : TileId) (d : Bytes) : Option Int :=
  let b := match d with
    | 0x09 :: 0x0C :: b => b
    | 0x19 :: b => b
    | _ => []
  if b.length = 12 then match s.capture t b with
    | .ok c => some (c.cs * 10000000)
    | .error _ => none
  else none

/-- Steps 2 to 4 and 6: a reading of the clock has ended. -/
def State.clockRead (s : State) (t : TileId) (slot : Nat) (again : Bool) (t1 arrival : Int) (d : Option Bytes) : State :=
  match d.bind (s.meterTime t) with
  | none => s.bump Reg.time_meter_set_fail t
  | some x =>
    let s := s.onEClock t slot fun c => { c with trips := keepLast 8 (c.trips ++ [arrival - t1]) }
    let o := x - (t1 + pathDelay (s.eclock t slot).trips)
    let st := s.rd Reg.time_state t
    if o.natAbs ≤ s.rd Reg.time_meter_deadband_ms t * 1000000 then s
    else if again then s.bump Reg.time_meter_set_fail t
    else if st = 4 ∨ (st = 3 ∧ (s.vol t).mer.manual = true) then s
    else (s.onEClock t slot fun c => { c with ofs := o }).request t slot .clockSet 1 1 fun _ => []

/-- The SET of step 4, formed when it is sealed. -/
def State.clockSetting (s : State) (t : TileId) (at_ : Int) (inv : Nat) : Bytes :=
  let cs := (at_ + 5000000) / 10000000
  let u := s.utcOfTai (cs / 100).toNat
  let c := s.calendar t
  let l := localOf c u
  dlmsSet (clockObj 2) (dOct (dlmsTime l (cs % 100).toNat (-(s.devSign t * ((l - u) / 60))) (if dstAt c u then 0x80 else 0))) inv

/-- Round to the nearest, halves away from zero. -/
def roundDiv (v : Int) (d : Nat) : Int := if 0 ≤ v then (v + d / 2) / d else -((-v + d / 2) / d)

/-- Steps 5 and 6: the SET has ended. -/
def State.clockWritten (s : State) (t : TileId) (slot : Nat) (ok : Bool) : State :=
  if ok then
    let c := s.eclock t slot
    let s := s.clockAdjust t slot (roundDiv (-c.ofs) 1000000) (c.setAt / 1000000000).toNat
    (s.bump Reg.time_meter_sets t).request t slot (.clockGet true) 1 1 (dlmsGet (clockObj 2))
  else s.bump Reg.time_meter_set_fail t

/-! ### Exchanges (R284 to R286, R386) -/

/-- A request has ended: failed under R284 (none), or answered with data or an error result. -/
def State.ephDone (s : State) (t : TileId) (r : EReq) (res : Option (Option Bytes)) (arrival : Int) : State :=
  let d : Option Bytes := res.bind fun x => x
  match r.job with
  | .relayAct =>
    if (s.erelay t r.slot).st = 1 then s.onERelay t r.slot fun x => { x with st := 2, getAt := some (s.now + s.relayDelay t) } else s
  | .relayGet => s.relayChecked t r.slot (d.bind dlmsNat)
  | .auditGet => s.relayAudited t r.slot (d.bind dlmsNat)
  | .cal k v => match res with
    | some x => s.calAnswered t r.slot k v x
    | none => if (Tbl.get (s.eph t).cal r.slot) = some (k, v) then s.calFailed t r.slot else s
  | .push ask => s.pushAnswered t r.slot ask d
  | .clockGet again => s.clockRead t r.slot again ((r.sent.map Prod.snd).getD 0) arrival d
  | .clockSet => s.clockWritten t r.slot d.isSome

/-- Take a request off the list. -/
def State.dropReq (s : State) (t : TileId) (r : EReq) : State :=
  s.onEph t fun e => { e with reqs := e.reqs.filter fun x => !(decide (x.slot = r.slot) && decide (x.inv = r.inv)) }

/-- A push toward a satellite must keep within `tile.eph.push_sat_inflight`: one counts from its DOWN until its response, its timeout, or the end of the session that
took it (R386). -/
def State.mayPush (s : State) (t : TileId) (r : EReq) : Bool :=
  let m := s.meter t r.slot
  let live := fun (v : Nat) => (s.sw t).sess.any fun e => decide (e.2.value = v) && (decide (e.2.st = 2) || decide (e.2.st = 3))
  decide (r.kind < 2) || decide (m.path ≠ 2) ||
  decide (((s.eph t).reqs.countP fun x => decide (2 ≤ x.kind) && x.sent.isSome && x.via.any live && decide ((s.meter t x.slot).path = 2) &&
    decide ((s.meter t x.slot).satId = m.satId)) < s.rd Reg.eph_push_sat_inflight t)

/-- EPH_DOWNLINK_APDU: the first waiting request that may go, by precedence (R286), is sealed under IC_DOWN and sent. Commands to a damaged
slot are held (R72), one to a meter out of service is refused (R46). -/
def ephDownlinkApdu (t : TileId) (s : State) : State :=
  if !s.serves t then s
  else
    let l := (s.eph t).reqs.filter fun r => r.sent.isNone
    let can := fun (r : EReq) => decide (s.icState t r.slot ≠ .wait) && s.mayPush t r && !s.unsound t r.slot
    match (List.range 4).findSome? fun k => l.find? fun r => decide (r.kind = k) && can r with
    | none =>
      match l.find? fun r => decide (s.ceil t r.slot ≤ (s.meter t r.slot).icDown) with
      | some r => s.reserveIc t r.slot
      | none => s
    | some r =>
      if (s.meter t r.slot).state ≠ 1 then s.dropReq t r
      else if s.icState t r.slot = .exhausted then ((s.icExhausted t r.slot).dropReq t r).ephDone t r none 0
      else
        let at_ := s.timeNs t
        let d := pathDelay (s.eclock t r.slot).trips
        let body := if r.job = .clockSet then s.clockSetting t (at_ + d) r.inv else r.body
        let x := s.sealDown t r.slot body
        match x.2 with
        | none => (x.1.dropReq t r).ephDone t r none 0
        | some apdu =>
          let s := x.1.onEph t fun e => { e with reqs := e.reqs.map fun y =>
            if y.slot = r.slot ∧ y.inv = r.inv then
              { y with sent := some (s.now, at_), tries := y.tries + 1, via := (s.satSess t (s.meter t r.slot).satId).map fun x => x.value } else y }
          let s := if r.job = .clockSet then s.onEClock t r.slot fun c => { c with setAt := at_ + d } else s
          let m := s.meter t r.slot
          match m.path with
          | 0 => s.swSend t 6 3 r.cls (.mac (s.midxOf t r.slot) r.kind r.inv apdu)
          | 1 => s.swSend t 6 4 r.cls (.mac (s.midxOf t r.slot) r.kind r.inv apdu)
          | _ => s.sendDown t m.satId r.cls m.sysTitle apdu

/-- EPH_DOWNLINK_APDU (R284). -/
def execEphDownlinkApdu (t : TileId) (s : State) : Host.Outcome State Fault Refusal := finish (ephDownlinkApdu t) s

/-- A push waits for its share of its medium (R286): in the switch core, at its modem, or held at its transceiver. -/
def State.pushWaits (s : State) (t : TileId) (slot inv : Nat) : Bool :=
  let r := (s.vol t).rf
  let held := fun (p : RPend) => decide (p.inv = inv ∧ 2 ≤ p.kind) && (p.dutyHeld || p.dwellHeld)
  let w := (s.vol t).sw
  let mine := fun (f : SwFrame) => match f.body with
    | .mac midx kind i _ => decide (midx = s.midxOf t slot ∧ i = inv ∧ 2 ≤ kind)
    | _ => false
  (w.voqs.any fun e => e.2.any mine) || (w.waiting.any fun e => mine e.2.2) || (w.unit.any fun e => e.2.any mine) ||
  ((s.vol t).diag.delayed.any fun x => mine x.2.2.2) ||
  (r.sendq.any fun x => decide (x.1 = slot) && held x.2) || (Tbl.get r.neigh slot).any fun n => n.pend.any held

/-- A push leaves for the medium: the meter's time to answer starts (R284, R286). -/
def State.pushLeft (s : State) (t : TileId) (slot inv kind : Nat) : State :=
  if kind < 2 then s
  else s.onEph t fun e => { e with reqs := e.reqs.map fun r =>
    if r.slot = slot ∧ r.inv = inv ∧ r.sent.isSome then { r with sent := some (s.now, s.timeNs t) } else r }

/-- RESPONSE_TIMEOUT: a request is repeated or fails (R284); the ACTION of R278 goes on to its GET at once (R279). A push that waits for its share of the medium
is not timed (R286). -/
def responseTimeout (t : TileId) (slot inv : Nat) (s : State) : State :=
  match (s.eph t).reqs.find? fun r => decide (r.slot = slot) && decide (r.inv = inv) with
  | some r =>
    match r.sent with
    | some x =>
      if s.now < x.1 + s.rd Reg.eph_resp_timeout_ms t * 1000000 ∨ s.pushWaits t slot inv = true then s
      else if r.tries < s.rd Reg.eph_mgmt_tries t ∧ r.job ≠ .relayAct then
        s.onEph t fun e => { e with reqs := e.reqs.map fun y => if y.slot = slot ∧ y.inv = inv then { y with sent := none } else y }
      else (s.dropReq t r).ephDone t r none 0
    | none => s
  | none => s

/-- RESPONSE_TIMEOUT (R284). -/
def execResponseTimeout (t : TileId) (slot inv : Nat) (s : State) : Host.Outcome State Fault Refusal := finish (responseTimeout t slot inv) s

/-- A response to Ephemeris is opened and judged (R284): one that fails, or answers no request, is dropped and counted. -/
def State.ephResponse (s : State) (t : TileId) (f : Frame) : State :=
  match (s.vol t).meters.lookup f.addrKind f.addr with
  | none => s.bump Reg.eph_resp_dropped t
  | some midx =>
    let o := s.openFrame t midx f 0
    match o.2 with
    | .error _ => o.1.bump Reg.eph_resp_dropped t
    | .ok p =>
      let c := o.1.passCounters t midx p
      match c.2 with
      | .error _ => c.1.bump Reg.eph_resp_dropped t
      | .ok w =>
        let s := c.1.deferWaters t midx w.1 w.2
        match dlmsRsp p.apdu with
        | none => s.bump Reg.eph_resp_dropped t
        | some (inv, d) =>
          match (s.eph t).reqs.find? fun r => decide (r.slot = midxSlot midx) && decide (r.inv = inv) && r.sent.isSome with
          | none => s.bump Reg.eph_resp_dropped t
          | some r => (s.dropReq t r).ephDone t r (some d) f.arrival

/-- EPH_RESPONSE (R284). -/
def execEphResponse (t : TileId) (f : Frame) (s : State) : Host.Outcome State Fault Refusal :=
  finish (fun s => if s.serves t then s.ephResponse t f else s) s

/-- A frame from P3 or P4 carries a response with an invoke-id of 8 to 15 (R310). -/
def State.isEphRsp (s : State) (t : TileId) (f : Frame) : Bool :=
  match (s.vol t).meters.lookup f.addrKind f.addr with
  | some midx => match (s.openFrame t midx f 0).2 with
    | .ok p => match dlmsRsp p.apdu with
      | some (inv, _) => decide (8 ≤ inv)
      | none => false
    | .error _ => false
  | none => false

/-- A request to the meter with a system title has gone out through a satellite and is not answered (R386). -/
def State.downAsked (s : State) (t : TileId) (sat title : Nat) : Bool :=
  match (s.vol t).meters.lookup 0 title with
  | some m => decide ((s.meter t (midxSlot m)).satId = sat) && ((s.eph t).reqs.any fun q => decide (q.slot = midxSlot m) && q.sent.isSome)
  | none => false

/-- A DOWN_RSP of a satellite goes to P6 in the CONTROL class (R381, R386). -/
def downRsp (t : TileId) (p : Fin 2) (frame : Bytes) (s : State) : State :=
  let r := s.linkRx t p frame
  match r.2 with
  | some x =>
    if x.type ≠ 0x13 then s
    else match x.sess.bind (Tbl.get (r.1.sw t).sess) with
      | none => r.1
      | some e =>
        let f : Frame :=
          { source := p, addrKind := 0, satId := e.sat, forceOld := false, rfSecured := false, entry := 0, addr := fld x.payload 0 8
            arrival := r.1.arrivalAt t p, envSeq := 0, aad := [], apdu := x.payload.drop 12, env := 0 }
        r.1.swStore t p 6 { cls := 1, len := frame.length, cells := 0, shared := false, body := .eph f }
  | none => r.1

/-- DOWN_RSP (R386). -/
def execDownRsp (t : TileId) (p : Fin 2) (frame : Bytes) (s : State) : Host.Outcome State Fault Refusal := finish (downRsp t p frame) s

end Sys2Proof.Machine
end

