-- ==== Sys2Proof/Machine/Tiles.lean ====
section
/-! DEFINITION. Tiles.lean: chapter 1: the Pier's clock selection and the enumeration after it, and the writes of a bay's mode and wiring. -/

namespace Sys2Proof.Machine

/-- A window passes when the edge count falls between 24 000 and 27 200 (R19). -/
def windowPasses (edges : Nat) : Bool := decide (24000 ≤ edges) && decide (edges ≤ 27200)

/-- The tiles of the boot plan whose regulator is present, in order (R604). -/
def State.bootOrder (s : State) : List Nat :=
  (allBays.flatMap fun (b : BayId) =>
    let odd := decide (s.rd Reg.bay_mode b = 0) && decide (s.rd Reg.bay_preferred_active b = 1)
    [(tileOf b odd).val, (tileOf b (!odd)).val]).filter fun t => bit s.pier.plan t && bit s.pier.present t

/-- PMBus enumeration, which begins once the clock source is selected (R18, R536): PMBUS_REVISION and VOUT_MODE at each of 16 addresses. An absent
regulator raises an event; the tiles of the boot plan may be powered from now on. -/
def State.enumerate (s : State) : State :=
  if !s.pier.enumDue then s
  else
    let s := s.onPier fun p => { p with enumDue := false, present := p.board, polledAt := s.now }
    let s := allTiles.foldl (fun (s : State) (t : TileId) =>
      if bit s.pier.board t then s else (s.bump Reg.device_pmbus_naks 0 0 2).pierEvent 0xFF 2 0x0104 t) s
    let s := (s.bump Reg.device_pmbus_transactions 0 0 32).wr Reg.device_pmbus_present 0 s.pier.present
    s.onPier fun p => { p with bootQueue := s.bootOrder, bootAt := s.now }

/-- The table of R19 for one qualification window; the first also begins the enumeration (R18). -/
def qualifyWindow (edges : Nat) (s : State) : State :=
  if !s.pier.up then s else
  match s.pier.clock, windowPasses edges with
  | .select, true => ((s.onPier fun p => { p with clock := .onRefclk, passCount := 0 }).wr Reg.pier_clock_source 0 0).enumerate
  | .select, false =>
    (((s.onPier fun p => { p with clock := .onRc, passCount := 0 }).wr Reg.pier_clock_source 0 1).pierEvent 0xFF 1 0x0101).enumerate
  | .onRefclk, _ => s
  | .onRc, true =>
    if s.pier.passCount + 1 < 100 then s.onPier fun p => { p with passCount := p.passCount + 1 }
    else
      (((s.onPier fun p => { p with clock := .onRefclk, passCount := 0 }).wr Reg.pier_clock_source 0 0).bump
        Reg.pier_clock_switches 0).pierEvent 0xFF 0 0x0102
  | .onRc, false => s.onPier fun p => { p with passCount := 0 }

/-- QUALIFICATION_WINDOW (R19). -/
def execQualificationWindow (edges : Nat) (s : State) : Host.Outcome State Fault Refusal := finish (qualifyWindow edges) s

/-- A tile without REFCLK stops: its PLL loses lock, so it serves nothing until it boots again
(the table of shared elements before R16; DEDUCED, notes/assumptions/11.md). -/
def stopTile (s : State) (t : TileId) : State :=
  if s.inRun t then
    s.onVol t fun v => { v with boot := { v.boot with step := 0, running := none }, drive := Drive.idle }
  else s

/-- No REFCLK edge for 4 µs (R19): the Pier switches to the RC oscillator, and every tile stops, its intake and its other ports closed (R40, R364). -/
def loseRefclk (s : State) : State :=
  let s := if s.pier.clock = .onRefclk then
      (((s.onPier fun p => { p with clock := .onRc, passCount := 0 }).wr Reg.pier_clock_source 0 1).bump
        Reg.pier_clock_switches 0).pierEvent 0xFF 1 0x0101
    else s
  s.each allTiles fun s t => if s.inRun t then (((stopTile s t).wr Reg.status_missing t 0x1F).settleService t).followTile t else s

/-- REFCLK_LOSS (R19). -/
def execRefclkLoss (s : State) : Host.Outcome State Fault Refusal := finish loseRefclk s

/-- A write of `bay.mode` or `bay.wiring` (R25): refused with CONFLICT when it would pair independent mode with PARALLEL
wiring, and with INVALID outside its range (R646). -/
def writeBayMode (b : BayId) (wiring : Bool) (value : Nat) (s : State) : State × Status :=
  if 1 < value then (s, .invalid)
  else if wiring then
    if value = 0 ∧ s.rd Reg.bay_mode b = 1 then (s, .conflict) else (s.wr Reg.bay_wiring b value, .ok)
  else if value = 1 ∧ s.rd Reg.bay_wiring b = 0 then (s, .conflict) else (s.wr Reg.bay_mode b value, .ok)

/-- BAY_MODE_WRITE (R25). -/
def execBayModeWrite (b : BayId) (wiring : Bool) (value : Nat) (s : State) : Host.Outcome State Fault Refusal :=
  finish (fun s => let r := writeBayMode b wiring value s; r.1.answer (128 + b) r.2) s

end Sys2Proof.Machine
end

