-- ==== Sys2Proof/Machine/BayOps.lean ====
section
/-! DEFINITION. BayOps.lean: chapters 15 and 16: roles, synchronisation, isolation, triggers of a promotion, tile reset, and the PMBus, which
several chapters use. -/

namespace Sys2Proof.Machine

/-! ### PMBus (R533, R534) -/

/-- A transaction leaves the Pier. A VOUT_COMMAND (0x21) sets the setpoint and starts the time of its acknowledgement. -/
def State.pmSend (s : State) (x : PmTx) : State :=
  let s := (s.onPier fun p => { p with pmbFlight := some x }).bump Reg.device_pmbus_transactions 0
  let s := if h : x.tile < 16 then
      if x.cmd = 0x21 then s.onPower ⟨x.tile, h⟩ fun p => { p with cmdAt := s.now, setMv := x.data } else s
    else s
  s.emit (.pmbus (s.pier.pmbAddr.getD x.tile 0) x.cmd x.data)

/-- Request a transaction: it leaves at once on an idle bus, or waits by precedence class. Nothing is issued while the Pier is DEGRADED (R22), or to an absent regulator. -/
def State.pmbus (s : State) (cls : Nat) (t : TileId) (cmd data : Nat) : State :=
  let x : PmTx := { cls := cls, tile := t, cmd := cmd, data := data, again := false }
  let s := if cmd = 0x21 then s.onPower t fun p => { p with cmdAt := s.now } else s
  if s.pier.degraded ∨ !bit s.pier.present t then s
  else match s.pier.pmbFlight with
    | none => s.pmSend x
    | some _ => s.onPier fun p => { p with pmb := p.pmb.takeWhile (fun y => decide (y.cls ≤ cls)) ++ [x] ++ p.pmb.dropWhile fun y => decide (y.cls ≤ cls) }

/-- The transaction under way is over: the next leaves. -/
def State.pmNext (s : State) : State :=
  let s := s.onPier fun p => { p with pmbFlight := none }
  match s.pier.pmb with
  | x :: r => (s.onPier fun p => { p with pmb := r }).pmSend x
  | [] => s

/-! ### Domain states (R518, R552) -/

/-- Index in `tile.power.time_in_state`. -/
def Pwr.timeIdx : Pwr → Option Nat
  | .run => some 0 | .hold => some 1 | .retain => some 2 | .isolated => some 3 | .off => some 4 | .entering => none | .waking => none

/-- Enter a domain state: the milliseconds spent in the one left are counted. -/
def State.setPwr (s : State) (t : TileId) (st : Pwr) : State :=
  let p := (s.tile t).power
  let s := match p.st.timeIdx with
    | some i => s.bump Reg.power_time_in_state t i ((s.now - p.since) / 1000000)
    | none => s
  s.onPower t fun p => { p with st := st, since := s.now }

/-- Isolation by the Punty (R527): no condition, no abort point; the rail goes to 0.50 V. -/
def State.isolate (s : State) (t : TileId) : State :=
  let p := (s.tile t).power
  if s.pier.degraded ∨ p.st = .isolated ∨ p.st = .off ∨ (p.st = .entering ∧ 3 ≤ p.target) then s
  else
    let s := s.setPwr t .entering
    let s := s.onPower t fun p => { p with target := 3, requester := 2, step := 5, wakeUp := false, forced := false, orderAt := none
                                           hubHold := true, locked := true, countFrom := some (p.countFrom.getD s.now) }
    (s.pmbus 2 t 0x21 500).followTile t

/-- The Punty orders a tile in HOLD or RETAIN to RUN (R530): W1 for a rail at 0.50 V, W3 for HOLD. In DEGRADED only a tile in HOLD can be woken (R23). -/
def State.orderWake (s : State) (t : TileId) (cls : Nat) : State :=
  let p := (s.tile t).power
  let go := fun (s : State) (step : Nat) =>
    (s.setPwr t .waking).onPower t fun p => { p with step := step, orderAt := some (p.orderAt.getD s.now), wakeUp := false }
  match p.st with
  | .hold => go s 3
  | .retain => if s.pier.degraded then s else (go s 1).pmbus cls t 0x21 p.vrunMv
  | _ => s

/-! ### Synchronisation (R498) -/

/-- Set `bay.mirror.sync`; alarm UNSYNCHRONISED follows it. -/
def State.setSync (s : State) (b : BayId) (v : Nat) : State :=
  let old := s.rd Reg.bay_mirror_sync b
  let s := (s.wr Reg.bay_mirror_sync b v).alarm b 1 (decide (v = 1 ∨ v = 2))
  if old = v then s
  else if v = 1 then s.pierEvent (0x80 + b.val) 1 0x0204
  else if v = 0 then s.pierEvent (0x80 + b.val) 0 0x0205
  else s

/-- The bay becomes UNSYNCHRONISED; a resync under way starts again later. -/
def State.unsync (s : State) (b : BayId) : State :=
  let s := s.onBay b fun x => { x with resync := none }
  if s.rd Reg.bay_mirror_sync b = 3 then s else s.setSync b 1

/-- `bay.mirror.sync` follows whether the bay has an active tile and a standby; without one nothing is sent and nothing waits (R490). -/
def State.linkUpdate (s : State) (b : BayId) : State :=
  if s.hasStandby b && (s.activeOf b).isSome then
    if s.rd Reg.bay_mirror_sync b = 3 then s.setSync b 1 else s
  else
    let s := s.onBay b fun x => { x with link := [], mdelay := [], reported := x.placed, resync := none, tries := 0 }
    s.setSync b 3

/-- `n` items of the mirror stream are lost (R489, R498). -/
def State.mirrorLost (s : State) (b : BayId) (n : Nat) : State :=
  if n = 0 then s else (s.bump Reg.bay_mirror_lost b 0 n).unsync b

/-! ### Beginning and ending to serve -/

/-- A tile no longer serves: it issues nothing, its metrology, books and downlink machines stop, its ports go down. -/
def State.quitServing (s : State) (t : TileId) : State :=
  let s := ((s.stopIssuing t).stopMetro t).ephToBacklog t
  let s := s.onVol t fun v => { v with bal := { v.bal.restart with meters := [], heads := [] }, syncWanted := none }
  let s := s.onEph t fun e => { e with relays := [], reqs := [], cal := [], calRetry := [], members := [], mcast := none, mcastDone := false
                                       activate := false, clocks := [], deferred := [] }
  let s := s.onGather t fun g => { g with voq := List.replicate 5 [], waiting := [], rows := [], frames := [] }
  s.followTile t

/-- A tile that becomes ACTIVE without having stopped starts its PLC stack anew (R336): it stops here, and `State.followTile` starts it. -/
def State.plcAnew (s : State) (t : TileId) : State := if s.portTakes t 3 then (s.portDown t 3).plcStop t else s

/-- A tile serves from now on: bay keys (R464), its stream (R155, R166), Balance, metrology and Ephemeris start, its ports open. -/
def State.startServing (s : State) (t : TileId) (cause : Nat) : State :=
  let s := ((s.loadBaySlots t).takeUp t (s.streamOf t) cause).onMer t fun m => { m with closeSec := s.timeSec t }
  let s := ((s.stopMetro t).onVol t fun v => { v with bal := v.bal.restart, syncWanted := none }).askSync t
  let s := (((s.onEph t fun e => { e with next := ((s.vol t).lehr.stream (s.streamOf t)).next }).ephBacklog t).ephStart t).campNoImage t
  let s := s.dropLeftKeys t
  let s := s.onBay (bayOf t) fun b =>
    { b with lastBeat := if t.val % 2 = 0 then (s.now, b.lastBeat.2) else (b.lastBeat.1, s.now) }
  s.followTile t

/-- A tile becomes FAULTED, with an alarm, and is isolated. In DEGRADED the roles stay (R22). -/
def State.faultTile (s : State) (t : TileId) (k : Nat) : State :=
  let s := s.alarm (bayOf t) k true
  if s.pier.degraded then s
  else
    let s := (((s.releaseOwn t).setRole t 4).quitServing t).isolate t
    s.linkUpdate (bayOf t)

/-! ### Promotion triggers (R485 to R487, R511) -/

/-- The standby of a bay is promotable (R486). -/
def State.promotable (s : State) (b : BayId) : Option TileId :=
  match s.standbyOf b with
  | some t => if s.role t = 1 ∧ s.rd Reg.bay_mirror_sync b = 0 ∧ s.rd Reg.status_missing t = 0 ∧ !s.pier.degraded then some t else none
  | none => none

/-- Cullet entries left unread, staged ones too, are lost and not counted (R141). -/
def State.culletDrop (s : State) (t : TileId) : State :=
  let q := s.queue t 0
  (s.setQueue t 0 { q with drain := [], fill := [], above := false }).onVol t fun v => { v with marver := { v.marver with stage := PPQ.empty } }

/-- Step 1 of R506. -/
def State.beginPromotion (s : State) (b : BayId) (cause : Nat) (src dst : TileId) : State :=
  let st := (s.tile dst).power.st
  let s := (s.setRole src (if cause = 4 then 1 else 4)).setRole dst 3
  let s := s.onBay b fun x =>
    { x with promo := some { step := 1, at_ := s.now, t0 := s.now, cause := cause, src := src, dst := dst, wasRun := decide (st = .run), wasHold := decide (st = .hold), high := 0, next := 0 }
             handover := false, tie := none, groups := [], resync := none }
  let s := (s.quitServing src).culletDrop src
  -- what was not sent is lost with the former active; items in the link count as reported, none being awaited
  let s := s.onBay b fun x => { x with link := [], mdelay := [], reported := x.placed }
  if cause = 4 then s else if s.rd Reg.bay_mirror_sync b = 0 then s.setSync b 3 else s

/-- A promotion fails: the standby is isolated too (R485, R511). -/
def State.failPromotion (s : State) (b : BayId) : State :=
  match (s.bay b).promo with
  | some p =>
    let s := (s.onBay b fun x => { x with promo := none }).bump Reg.bay_promotion_failed b
    let s := s.pierEvent (0x80 + b.val) 3 0x0202 0 p.cause p.dst
    let s := if h : p.src < 16 then s.releaseOwn ⟨p.src, h⟩ else s
    if h : p.dst < 16 then s.faultTile ⟨p.dst, h⟩ 2 else s
  | none => s

/-- A trigger of R487 for the active tile of a bay. -/
def State.trigger (s : State) (b : BayId) (cause : Nat) : State :=
  match s.activeOf b with
  | none => s
  | some a =>
    if (s.bay b).promo.isSome then s
    else match s.promotable b with
      | some d => s.beginPromotion b cause a d
      | none => if cause ≤ 1 then s.faultTile a 2 else s.alarm b 3 true

/-! ### Tile reset (R10, R485, R602, R607) -/

/-- Requests that wait in the hub for a tile are discarded and counted (R409). -/
def State.hubDrop (s : State) (t : TileId) : State :=
  let n := s.pier.hub.waits.countP fun w => decide (w.target = t.val)
  let s := s.onPier fun p => { p with hub := { p.hub with waits := p.hub.waits.filter fun w => decide (w.target ≠ t.val)
                                                          execs := p.hub.execs.filter fun w => decide (w.target ≠ t.val)
                                                          sets := p.hub.sets.filter fun w => decide (w.tile ≠ t.val) } }
  if n = 0 then s else s.bump Reg.device_host_hub_drop_in 0 t n

/-- What a tile shows until its boot has progressed (R605): every element is missing, no firmware runs. -/
def State.bootAgain (s : State) (t : TileId) : State :=
  let s := (s.wr Reg.status_missing t 0x1F).settleService t
  (s.wr Reg.device_fw_tile_phase 0 (if (s.tile t).power.st = .off then 0 else 1) t).wr Reg.device_fw_tile_version 0 0 t

/-- Entries of a tile that stand at their value after power-on once its core rail has been off (R652); those of offsets 0x000 to 0x00F and 0x2E0 to 0x2FF are
the Pier's (R531, R644). -/
def State.coldClear (s : State) (t : TileId) : State :=
  { s with regs := s.regs.filter fun x => !(inTile t x.1 && match entryOf x.1 with
      | some e => decide (e.cls = .powerOn) && decide (0x010 ≤ e.off) && !(decide (0x2E0 ≤ e.off) && decide (e.off < 0x300))
      | none => false) }

/-- A reset confined to one tile, with its cause; the tile boots again (R605). The pin of an ACTIVE tile falls as its promotion or its fault lowers it (R31);
a tile that steps 9 and 10 of R506 still concern fails the promotion. -/
def State.tileReset (s : State) (t : TileId) (cause : Nat) : State :=
  let b := bayOf t
  let armed := (List.range 3).filter fun k => (s.tileArm t k).isSome
  let s := (((s.hubDrop t).onMedia t fun m => m.damage t).tileClear t cause).bootAgain t
  let s := armed.foldl (fun s k => s.event t 0 0x1E04 (diagObjT t k) 4) s
  match s.role t with
  | 0 => if (s.bay b).promo.isSome then s.failPromotion b else s.trigger b 1
  | 1 => s.unsync b
  | 2 => s.unsync b
  | 3 => s.failPromotion b
  | 5 => (s.releaseOwn t).setRole t 255
  | _ => s

end Sys2Proof.Machine
end

