-- ==== Sys2Proof/Machine/Media.lean ====
section
/-! DEFINITION. Media.lean: chapter 17: the commands of the archive media. -/

namespace Sys2Proof.Machine

/-- The FTL may start work: mounted, tile in RUN, PFAIL_N high (R574, R575). -/
def State.ftlRuns (s : State) (t : TileId) : Bool :=
  s.inRun t && decide (s.rd Reg.media_state t = 3) && !s.pier.pfail

/-! ### Page programs (R562 to R568, R634) -/

/-- The first queued program that can complete does so; the jobs before it wait. -/
def State.completeFrom (s : State) (t : TileId) : Nat → Nat → State × Option PageJob
  | 0, _ => (s, none)
  | fuel + 1, k =>
    match ((s.tile t).media.jobs)[k]? with
    | none => (s, none)
    | some j =>
      let r := s.progDone t j.2
      if r.2 then (r.1.onMedia t fun m => { m with jobs := m.jobs.eraseIdx k }, some j.2)
      else r.1.completeFrom t fuel (k + 1)

/-- The region that a program goes to (R555). -/
def PageJob.region : PageJob → Nat
  | .archive _ _ => 0
  | .checkpoint _ => 1
  | .journal _ => 2
  | .config _ => 2
  | .keys _ => 3
  | .mapJ _ => 4
  | .media _ => 4

/-- Retire a block, or queue its relocation first when it holds data (R568); an injected failure does not retire it (R634). -/
def State.retireLb (s : State) (t : TileId) (region lb : Nat) (injected : Bool) : State :=
  match (s.tile t).media.physOf region lb with
  | some pb => s.onMedia t fun m =>
      { m with relocQ := (m.relocQ.filter fun q => q.1 != pb) ++ [(pb, !injected || m.relocQ.any fun q => decide (q.1 = pb) && q.2)] }
  | none => s

/-- The program under way fails: its page is abandoned, and its contents go to the next page; a real failure can damage the earlier pages of its wordline
(R554), an injected one damages nothing (R634). -/
def State.programFailed (s : State) (t : TileId) (injected : Bool) : State :=
  let s := if injected then s.bump Reg.diag_nand_injected t else s.bump Reg.media_program_fail t
  match (s.tile t).media.jobs with
  | [] => s
  | (_, j) :: _ =>
    match j with
    | .archive _ _ =>
      let s := if (s.tile t).media.archNext = 0 ∨ (s.tile t).media.headPages = 1536 then
          if (s.tile t).media.full then s else s.onMedia t fun m => m.openHead s.now
        else s
      let s := if injected then s else s.onMedia t fun m => m.damage t
      let s := s.onMedia t fun m => if m.headPages < 1536 then m.appendPage [] else m
      s.retireLb t 0 (s.tile t).media.head injected
    | .journal _ => (s.onMedia t Media.skipPage).retireLb t 2 ((s.tile t).media.jPos / 512 % 2) injected
    | .config _ => (s.onMedia t Media.skipPage).retireLb t 2 ((s.tile t).media.jPos / 512 % 2) injected
    | .keys _ =>
      let s := s.onMedia t fun m => m.logKeys [2 ^ 32]
      s.retireLb t 3 (s.tile t).media.keyHead injected
    | .mapJ _ => (s.onMedia t fun m => { m with mapPages := m.mapPages + 1 }).retireLb t 4 (s.tile t).media.mapHead injected
    | .media _ => (s.onMedia t fun m => { m with mapPages := m.mapPages + 1 }).retireLb t 4 (s.tile t).media.mapHead injected
    | .checkpoint _ => s.retireLb t 1 (if (s.tile t).media.ckSide then 3 else 0) injected

/-- A NAND_FAIL control that is armed for a region (R632). -/
def State.nandArmed (s : State) (t : TileId) (region : Nat) : Bool :=
  match ((s.vol t).diag.arms[2]?).getD none with
  | some a => decide (a.p1 = region) && decide (0 < a.count)
  | none => false

/-- One failure of a NAND_FAIL control is spent; the control ends with its count (R632). -/
def State.nandSpend (s : State) (t : TileId) : State :=
  let spend := fun (a : Arm) => { a with count := a.count - 1 }
  match s.tileArm t 2 with
  | some a =>
    if a.count ≤ 1 then s.endTileArm t 2 0
    else s.onVol t fun v => { v with diag := { v.diag with arms := v.diag.arms.modify 2 (Option.map spend) } }
  | none => s

/-- PAGE_PROGRAM_COMPLETE: what the page holds becomes durable, the acknowledgements that wait on it go out, and the next queued program starts. -/
def pageProgramComplete (t : TileId) (s : State) : State :=
  let m := (s.tile t).media
  if !m.busy then s
  else
    let region := (m.jobs.head?.map fun j => j.2.region).getD 9
    let again := fun (s : State) => s.onMedia t fun m => { m with busy := !m.jobs.isEmpty && !s.pier.pfail }
    if s.nandArmed t region then again ((s.nandSpend t).programFailed t true)
    else
      let r := s.completeFrom t m.jobs.length 0
      let s := match r.2 with
        | some j => r.1.bump Reg.media_bytes_programmed t 0 (16384 * j.pages m (r.1.tile t).media)
        | none => r.1
      again ((s.releaseVault t).wornCheck t)

/-- PAGE_PROGRAM_COMPLETE (R564). -/
def execPageProgramComplete (t : TileId) (s : State) : Host.Outcome State Fault Refusal := finish (pageProgramComplete t) s

/-- PROGRAM_FAIL: a program fails; with `copy` it is one in the destination of a copy, which is retired, and the copy starts again elsewhere (R575). -/
def programFail (t : TileId) (copy : Bool) (s : State) : State :=
  let m := (s.tile t).media
  if copy then
    match m.reloc with
    | some r =>
      if r.committed then s
      else
        let s := ((s.bump Reg.media_program_fail t).bump Reg.media_retired t).onMedia t fun m =>
          { (m.setBlk r.new { m.blk r.new with st := .dirty }) with reloc := none, relocQ := (r.old, r.retire) :: m.relocQ }
        (s.queueMap t (.retire r.new)).wornCheck t
    | none => s
  else if m.busy then (s.programFailed t false).onMedia t fun m => { m with busy := !m.jobs.isEmpty && !s.pier.pfail }
  else s

/-- PROGRAM_FAIL (R568). -/
def execProgramFail (t : TileId) (copy : Bool) (s : State) : Host.Outcome State Fault Refusal := finish (programFail t copy) s

/-- MAP_JOURNAL_PAGE: entries queued within 1 ms share one page of at most 512 entries. -/
def mapJournalPage (t : TileId) (s : State) : State :=
  let m := (s.tile t).media
  if m.mapQ = [] ∨ s.now < m.mapQAt + 1000000 then s
  else (s.onMedia t fun m => { m with mapQ := m.mapQ.drop 512, mapQAt := s.now }).queueJob t (.mapJ (m.mapQ.take 512))

/-- MAP_JOURNAL_PAGE (R558). -/
def execMapJournalPage (t : TileId) (s : State) : Host.Outcome State Fault Refusal := finish (mapJournalPage t) s

/-! ### Relocation and erase (R559 to R561, R568) -/

/-- The block whose relocation begins next: the first that is queued or, below 8 erased blocks, the first that is retired (R575). -/
def Media.nextReloc (m : Media) : Option (Nat × Bool) := m.relocQ.find? fun q => q.2 || decide (8 ≤ m.erased)

/-- RELOCATION: the next step: a queued block begins its copy, or a finished copy is committed by a MAP entry. -/
def relocation (t : TileId) (s : State) : State :=
  let m := (s.tile t).media
  if !s.ftlRuns t then s
  else match m.reloc with
    | some r =>
      if r.committed then s
      else
        let s := s.onMedia t fun m => { m with reloc := some { r with committed := true } }
        (s.bump Reg.media_bytes_programmed t 0 (16384 * m.validPages (m.blk r.old))).queueMap t
          (.map r.region r.lb r.new (some r.old) r.ver)
    | none => match m.nextReloc with
      | none => s
      | some (pb, retire) =>
        let b := m.blk pb
        let rest := m.relocQ.erase (pb, retire)
        if b.st ≠ .mapped then s.onMedia t fun m => { m with relocQ := rest }
        else match m.leastWorn with
          | none => s
          | some new => s.onMedia t fun m =>
            let r : Reloc := { region := b.region, lb := b.lb, old := pb, new := new, ver := b.ver + 1, committed := false, retire := retire }
            { (m.setBlk new { m.blk new with st := .dirty }) with relocQ := rest, reloc := some r }

/-- RELOCATION (R559). -/
def execRelocation (t : TileId) (s : State) : Host.Outcome State Fault Refusal := finish (relocation t) s

/-- ERASE_COMPLETE: the oldest queued erase ends; `fail`: it failed. A block that the table maps is refused. -/
def eraseComplete (t : TileId) (fail : Bool) (s : State) : State :=
  let m := (s.tile t).media
  if !s.ftlRuns t then s
  else match m.eraseQ with
    | [] => s
    | pb :: rest =>
      let s := s.onMedia t fun m => { m with eraseQ := rest }
      let b := m.blk pb
      if b.st = .mapped then (s.bump Reg.media_erase_refused t).event t 3 0x1B01 pb
      else if fail then
        (((s.bump Reg.media_erase_fail t).bump Reg.media_retired t).queueMap t (.retire pb)).wornCheck t
      else (s.onMedia t fun m => m.setBlk pb { b with st := .erasing }).queueMap t (.free pb (b.erases + 1))

/-- ERASE_COMPLETE (R559). -/
def execEraseComplete (t : TileId) (fail : Bool) (s : State) : Host.Outcome State Fault Refusal := finish (eraseComplete t fail) s

/-- Queue a block for relocation once. -/
def State.wantReloc (s : State) (t : TileId) (pb : Nat) (retire : Bool) : State :=
  s.onMedia t fun m =>
    if m.relocQ.any fun q => decide (q.1 = pb) then { m with relocQ := m.relocQ.map fun q => if q.1 = pb then (pb, q.2 || retire) else q }
    else if m.reloc.any fun r => decide (r.old = pb) then m
    else { m with relocQ := m.relocQ ++ [(pb, retire)] }

/-- A recovery mount (R572). -/
def State.recoverMedia (s : State) (t : TileId) : State :=
  ((s.onMedia t Media.recovered).bump Reg.media_recoveries t).event t 1 0x1B03

/-- A page of an archive block is unreadable: its records are treated as not held (R567). -/
def State.unreadable (s : State) (t : TileId) (lb page : Nat) : State :=
  let keep := fun (a : Tbl ArchEnt) => a.filter fun e => !(decide (e.2.lb = lb) && decide (e.2.page = page))
  (s.onMedia t fun m => { m with arch0 := keep m.arch0, arch1 := keep m.arch1, badPages := m.badPages ++ [(lb, page)] }).bump
    Reg.media_unreadable_pages t

/-- The patrol reads the middle page of every wordline of a programmed block: a block in TLC mode has 512 wordlines of three pages, one in pSLC mode (map
journal, journal, key store) pages of one bit per cell (R553, R555). Of an archive block only the pages programmed so far hold anything. -/
def Blk.patrolled (b : Blk) (page : Nat) : Bool :=
  if b.region = 2 ∨ b.region = 3 ∨ b.region = 4 then decide (page < 512)
  else decide (page % 3 = 1) && decide (page < if b.region = 0 then b.pages else 1536)

/-- The patrol goes through the die in ascending order, and begins again `tile.media.patrol_days` after the pass before began (R569; the order is a DESIGN
CHOICE, notes/assumptions/38.md). -/
def State.patrolDue (s : State) (t : TileId) (pos : Nat) : Bool :=
  let m := (s.tile t).media
  decide (m.patrolPos ≤ pos) || decide (m.patrolFrom + s.rd Reg.media_patrol_days t * 86400 * 1000000000 ≤ s.now)

/-- PATROL reads one page of a programmed block, when the FTL has nothing else to do: the most corrections in a codeword, all corrections, codewords that stay
undecodable. A page of a block that has had an unreadable page before retires the block (R568). An unreadable checkpoint page shows when a record is restored
from it (R72). -/
def patrol (t : TileId) (pb page worst total fails : Nat) (s : State) : State :=
  let m := (s.tile t).media
  let b := m.blk pb
  let pos := pb * 1536 + page
  if !s.ftlRuns t ∨ b.st ≠ .mapped ∨ m.busy = true ∨ !b.patrolled page ∨ !s.patrolDue t pos then s
  else
    let s := (s.bump Reg.media_ecc_corrected t 0 total).bump Reg.media_ecc_uncorrectable t 0 fails
    let s := s.bump Reg.media_bytes_read t 0 16384
    let s := s.onMedia t fun m => { m with patrolPos := pos + 1, patrolFrom := if pos < m.patrolPos then s.now else m.patrolFrom }
    let old := decide (b.held + 365 * 86400 * 1000000000 ≤ s.now)
    let s := if s.rd Reg.media_refresh_bits t ≤ worst ∨ old then s.wantReloc t pb false else s
    if fails = 0 then s
    else if b.region = 0 then
      let s := if m.badPages.contains (b.lb, page) then s else s.unreadable t b.lb page
      if m.badPages.any fun x => decide (x.1 = b.lb) then s.wantReloc t pb true else s
    else if b.region ≠ 1 ∧ b.region ≠ 5 ∧ m.newestPage b.region ≠ (b.lb, page) then s.recoverMedia t
    else s

/-- PATROL (R569). -/
def execPatrol (t : TileId) (pb page worst total fails : Nat) (s : State) : Host.Outcome State Fault Refusal :=
  finish (patrol t pb page worst total fails) s

/-- Erase counts of the good blocks: largest, mean, smallest (R570, R577). -/
def Media.wear (m : Media) : Nat × Nat × Nat :=
  let l := (m.blocks.filter fun e => decide (e.2.st ≠ .retired) && !m.factory.contains e.1).map fun e => e.2.erases
  let rest := m.good - l.length
  let lo := if rest = 0 then l.foldl min (l.headD 0) else l.foldl min m.formats
  let hi := if rest = 0 then l.foldl max 0 else l.foldl max m.formats
  (hi, (l.sum + rest * m.formats) / max m.good 1, lo)

/-- WEAR_LEVEL: the block of lowest erase count is relocated when the counts differ by more than 300. -/
def wearLevel (t : TileId) (s : State) : State :=
  let m := (s.tile t).media
  let w := m.wear
  if !s.ftlRuns t ∨ w.1 ≤ w.2.2 + 300 then s
  else match (m.blocks.filter fun e => decide (e.2.st = .mapped)).foldl (fun (a : Option (Nat × Nat)) e => match a with
      | some x => if e.2.erases < x.2 then some (e.1, e.2.erases) else some x
      | none => some (e.1, e.2.erases)) none with
    | some (pb, n) => if n + 300 < w.1 then s.wantReloc t pb false else s
    | none => s

/-- WEAR_LEVEL (R570). -/
def execWearLevel (t : TileId) (s : State) : Host.Outcome State Fault Refusal := finish (wearLevel t) s

/-- KEYSTORE_COMPACT: with fewer than 131 072 free entries, the standing entries of the oldest block go to the head and the block is erased (R565). -/
def keystoreCompact (t : TileId) (s : State) : State :=
  let m := (s.tile t).media
  if !s.ftlRuns t ∨ m.keysUsed + 131072 ≤ 24 * 65536 then s
  else match m.keyLog with
    | [] => s
    | old :: rest =>
      let later := rest.flatten
      let standing := (old.eraseDups).filter fun p => (Tbl.get m.keys p).isSome && !later.contains p
      (s.onMedia t fun m => ({ m with keyLog := rest }.logKeys standing).reuse 3 m.keyOldest).bump Reg.media_bytes_programmed t 0
        (16384 * ((standing.length + 127) / 128))

/-- KEYSTORE_COMPACT (R565). -/
def execKeystoreCompact (t : TileId) (s : State) : Host.Outcome State Fault Refusal := finish (keystoreCompact t) s

/-! ### Temperature and format (R573, R576) -/

/-- The band of a temperature. -/
def tempBand (c : Int) : Nat :=
  if c < 0 then 0 else if c < 25 then 1 else if c < 50 then 2 else if c < 70 then 3 else if c < 85 then 4 else if c < 95 then 5
  else if c < 105 then 6 else 7

/-- TEMPERATURE_SAMPLE, every 60 s: 60 s more in the band of the die's temperature. -/
def temperatureSample (t : TileId) (c : Int) (s : State) : State :=
  if s.now < (s.tile t).media.tempAt then s else
  let k := tempBand c
  let a := (s.tile t).media.tempAcc.getD k 0 + 60
  let s := s.wrI Reg.media_temp_now t c
  let s := s.onMedia t fun m => { m with tempAcc := m.tempAcc.set k (a % 3600), tempNow := c, tempAt := s.now + 60000000000 }
  if 3600 ≤ a then s.bump Reg.media_temp_hours t k else s

/-- TEMPERATURE_SAMPLE (R576). -/
def execTemperatureSample (t : TileId) (c : Int) (s : State) : Host.Outcome State Fault Refusal := finish (temperatureSample t c) s

/-- Format the die: the stored `tile.media` entries go into the first snapshot, every entry of the configuration pages returns to its default (R656). -/
def State.formatMedia (s : State) (t : TileId) : State :=
  let keep := (s.tile t).media.config.filter fun e => mediaRun e.1
  let s := { s with regs := s.regs.filter fun e => !(inTile t e.1 && nandKey e.1 && !mediaRun (keyRun e.1)) }
  (s.onMedia t fun m => m.format s.now keep).wr Reg.media_state t 3

/-- `tile.media.format`. -/
def mediaFormat (t : TileId) (s : State) : State :=
  if s.serves t then s.answer t .conflict else ((s.formatMedia t).setMissing t 3 false).answer t .ok

/-- MEDIA_FORMAT (R573). -/
def execMediaFormat (t : TileId) (s : State) : Host.Outcome State Fault Refusal := finish (mediaFormat t) s

end Sys2Proof.Machine
end

