-- ==== Sys2Proof/Machine/PlcOps.lean ====
section
/-! DEFINITION. PlcOps.lean: chapter 9: the arithmetic of the slotted tone-map extension, of impulse blanking and of phase detection, and the
collection requests that the PLC and RF MACs share. -/

namespace Sys2Proof.Machine

open Crypto

/-! ### Slots, maps and capacities (R296, R316 to R320) -/

/-- Carriers of a band, and the index of the carrier at a position. -/
def plcCarriers (band : Nat) : Nat := if band = 0 then 36 else 72
def carrierIndex (band c : Nat) : Nat := (if band = 0 then 23 else 33) + c

/-- Samples per second of a band, by which factor the ADC's 1.2 MS/s are decimated and the DAC's interpolated, and the samples of a symbol: 256 with a cyclic prefix of
30, overlapping by 8. -/
def plcRate (band : Nat) : Nat := if band = 0 then 400000 else 1200000
def plcDecim (band : Nat) : Nat := 1200000 / plcRate band
def symbolSamples : Nat := 256 + 30 - 8

/-- The symbol period in 1/6 µs. -/
def plcSymbol (band : Nat) : Nat := symbolSamples * 6000000 / plcRate band

/-- Every `k`-th sample (R296; which filter goes before is not given, notes/assumptions/18.md). -/
def decimate (k : Nat) (l : List Int) : List Int := (l.zipIdx.filter fun x => decide (x.2 % max k 1 = 0)).map Prod.fst

/-- CRC-8 of R316 over the bits of a number, msb first. -/
def crc8 (bits v : Nat) : Nat :=
  (List.range bits).foldl (fun c i =>
    let fb := (c / 128 + v / 2 ^ (bits - 1 - i)) % 2
    (c * 2 % 256) ^^^ (if fb = 1 then 7 else 0)) 0

/-- The fields of a slot header. -/
structure SlotHdr where
  msid : Nat
  slot0 : Nat
  sofs : Nat
  perd : Nat
  resp : Bool
  deriving DecidableEq, Repr

/-- Form a slot header. -/
def SlotHdr.word (h : SlotHdr) : Nat :=
  let v := (h.msid % 16 * 2 ^ 34 + h.slot0 % 8 * 2 ^ 31 + h.sofs % 512 * 2 ^ 22 + h.perd % 2 ^ 14 * 2 ^ 8 + b2n h.resp * 2 ^ 7)
  v * 256 + crc8 40 v

/-- Read a slot header; none when its CRC fails. -/
def slotHdrOf (w : Nat) : Option SlotHdr :=
  let v := w / 256 % 2 ^ 40
  if crc8 40 v ≠ w % 256 then none
  else some { msid := v / 2 ^ 34 % 16, slot0 := v / 2 ^ 31 % 8, sofs := v / 2 ^ 22 % 512, perd := v / 2 ^ 8 % 2 ^ 14, resp := v / 2 ^ 7 % 2 = 1 }

/-- The slot of data symbol `n` (R318). -/
def slotOfSymbol (h : SlotHdr) (band n : Nat) : Nat := (h.slot0 + (60 * h.sofs + n * plcSymbol band) / (h.perd + 12000)) % 6

/-- Groups of a band, carriers per group. -/
def plcGroups (band : Nat) : Nat := if band = 0 then 6 else 24
def plcGroupSize (band : Nat) : Nat := if band = 0 then 6 else 3

/-- Carriers of a mask. -/
def maskCarriers (band mask : Nat) : Nat := plcGroupSize band * (List.range (plcGroups band)).countP fun g => bit mask g

/-- Bits that a symbol carries under a map (R320). -/
def mapBits (band : Nat) (m : Nat × Nat) : Nat :=
  let a := maskCarriers band m.2
  match m.1 with
  | 0 => a / 4
  | 1 => a
  | 2 => 2 * a
  | 3 => 3 * a
  | _ => 0

/-- The carrier that bit `i` of a symbol goes to, as a position among `a` active carriers (R320). -/
def bitCarrier (a i : Nat) : Nat := ((if a % 7 = 0 then 11 else 7) * (i % a) + i / a) % a

/-- Check and read a MAP_RSP payload (R319); `most` is the receiver's MAX_MAPS. -/
def mapRspOf (band most : Nat) (b : Bytes) : Option MapSet :=
  let msid := fld b 1 1 % 16
  let n := fld b 1 1 / 16
  let sm := fld b 2 3
  let slots := (List.range 6).map fun k => sm / 8 ^ k % 8
  let maps := (List.range n).map fun i => let v := fld b (6 + 4 * i) 4; (v / 2 ^ 29, v / 2 ^ 24 % 32, v % 2 ^ 24)
  if b.length = 6 + 4 * n ∧ fld b 0 1 = 1 ∧ (if msid = 0 then n = 0 else 1 ≤ n ∧ n ≤ 6) ∧ n ≤ most ∧ sm < 2 ^ 18 ∧ fld b 5 1 = 0 ∧
      (slots.all fun k => decide (k < max n 1)) = true ∧
      (maps.all fun m => decide (m.1 ≤ 4 ∧ m.2.1 = 0 ∧ m.2.2 < 2 ^ plcGroups band)) = true then
    some { msid := msid, slotMap := slots, maps := maps.map fun m => (m.1, m.2.2) }
  else none

/-- The MAP_RSP payload of a set. -/
def MapSet.bytes (m : MapSet) : Bytes :=
  let sm := (m.slotMap.zip (List.range 6)).foldl (fun a x => a + x.1 * 8 ^ x.2) 0
  [1] ++ natLE 1 (m.msid + 16 * m.maps.length) ++ natLE 3 sm ++ [0] ++ (m.maps.map fun x => natLE 4 (x.1 * 2 ^ 29 + x.2)).flatten

/-- The map of a slot. -/
def MapSet.mapOf (m : MapSet) (slot : Nat) : Nat × Nat := m.maps.getD (m.slotMap.getD slot 0) (4, 0)

/-- Mean of integers, rounded toward minus infinity; 0 for none. -/
def meanI (l : List Int) : Int := l.sum / (max l.length 1 : Nat)

/-- Per-carrier SNR of slot `k` averaged over the frames of a window that have it: sums and count. -/
def slotSnr (win : List (List (List Int))) (k carriers : Nat) : List Int × Nat :=
  let fr := (win.filterMap fun f => f[k]?).filter fun l => decide (l.length = carriers)
  ((List.range carriers).map fun c => (fr.map fun l => l.getD c 0).sum, fr.length)

/-- The best map of a slot (R323 steps 2 and 3): for each MOD the groups whose mean SNR reaches its threshold (dB); the largest capacity, on a tie the
lower MOD; SKIP when nothing is carried. -/
def bestMap (band : Nat) (snr : List Int × Nat) (thr : Nat → Nat) : Nat × Nat :=
  let g := plcGroupSize band
  let mask := fun mod => (List.range (plcGroups band)).foldl (fun a i =>
    let sum := ((snr.1.drop (g * i)).take g).sum
    if 0 < snr.2 ∧ (4 * thr mod * g * snr.2 : Nat) ≤ sum then a + 2 ^ i else a) 0
  let best := [0, 1, 2, 3].foldl (fun (b : Nat × Nat) mod => if mapBits band b < mapBits band (mod, mask mod) then (mod, mask mod) else b) (4, 0)
  best

/-- The common map of a pair (R323 step 5). -/
def commonMap (band : Nat) (a b : Nat × Nat) : Nat × Nat :=
  let m := (min a.1 b.1, a.2 &&& b.2)
  if m.2 = 0 ∨ mapBits band m = 0 then (4, 0) else m

/-- Pairs of a list, earlier element first. -/
def pairs {α : Type} : List α → List (α × α)
  | [] => []
  | x :: r => r.map (fun y => (x, y)) ++ pairs r

/-- Merge maps until at most `most` differ (R323 steps 4 and 5); on a tie the first pair in slot order (DESIGN CHOICE, notes/assumptions/18.md). -/
def mergeMaps (band most : Nat) : Nat → List (Nat × Nat) → List (Nat × Nat)
  | 0, l => l
  | fuel + 1, l =>
    let ds := l.eraseDups
    if ds.length ≤ most then l
    else
      let loss := fun (p : (Nat × Nat) × (Nat × Nat)) =>
        (l.map fun m => if m = p.1 ∨ m = p.2 then mapBits band m - mapBits band (commonMap band p.1 p.2) else 0).sum
      match pairs ds with
      | [] => l
      | p :: ps =>
        let q := ps.foldl (fun b x => if loss x < loss b then x else b) p
        mergeMaps band most fuel (l.map fun m => if m = q.1 ∨ m = q.2 then commonMap band q.1 q.2 else m)

/-- The set of maps for six slots under a MSID. -/
def setOfMaps (msid : Nat) (l : List (Nat × Nat)) : MapSet :=
  let ds := l.eraseDups
  { msid := msid, slotMap := l.map fun m => (ds.idxOf? m).getD 0, maps := ds }

/-! ### Impulsive-noise blanking (R325, R326) -/

/-- The blanking of one frame as it runs: impulses found so far (newest first), the squares of the newest samples not blanked with their places, the place up to which the
guard of an impulse reaches, and the next place. -/
structure Blanker where
  hits : List Bool
  win : List (Nat × Nat)
  upto : Nat
  at_ : Nat

/-- A sample is compared with the RMS of the window, whatever it holds (DESIGN CHOICE, notes/assumptions/18.md). An impulse leaves the RMS together with its guard on
either side. -/
def Blanker.take (k window guard : Nat) (a : Blanker) (x : Int) : Blanker :=
  let q := x.natAbs * x.natAbs
  if k * k * (a.win.map Prod.snd).sum < 100 * q * a.win.length then
    { hits := true :: a.hits, win := a.win.filter fun e => decide (e.1 + guard < a.at_), upto := a.at_ + guard, at_ := a.at_ + 1 }
  else { a with hits := false :: a.hits, win := if a.at_ ≤ a.upto then a.win else ((a.at_, q) :: a.win).take window, at_ := a.at_ + 1 }

/-- Samples of one frame, with the squares of the newest samples before it that were not blanked: which samples are blanked, and the squares afterwards. -/
def blank (k window guard : Nat) (xs : List Int) (noise : List Nat) : List Bool × List Nat :=
  let r := xs.foldl (Blanker.take k window guard) { hits := [], win := noise.map fun q => (0, q), upto := guard, at_ := guard + 1 }
  let h := r.hits.reverse
  ((List.range h.length).map fun i =>
    (List.range (2 * guard + 1)).any fun d => decide (guard ≤ i + d) && h.getD (i + d - guard) false, r.win.map Prod.snd)

/-- Runs of consecutive true values. -/
def runsOf : Bool → List Bool → Nat
  | _, [] => 0
  | prev, b :: r => (if b && !prev then 1 else 0) + runsOf b r

/-- Decimate the samples of a frame, blank them and count. It also says whether every symbol is an erasure, of which the decoder makes nothing, and whether every sample
is blanked, of which no SNR is formed (R326); of any other frame the receiver delivers what its decoder makes with the erasures. -/
def State.blankFrame (s : State) (t : TileId) (syms : List (List Int)) : State × Bool × Bool :=
  let k := s.rd Reg.plc_blank_k t
  let syms := syms.map (decimate (plcDecim (s.vol t).radio.band))
  if k = 0 ∨ syms = [] then (s, false, false)
  else
    let r := blank k (s.rd Reg.plc_blank_window t) (s.rd Reg.plc_blank_guard t) syms.flatten (s.plc t).noise
    let s := s.onPlc t fun p => { p with noise := r.2 }
    let cut := syms.foldl (fun (a : List Bool × Nat) l =>
      (a.1.drop l.length, a.2 + if l.length < 4 * ((a.1.take l.length).countP id) then 1 else 0)) (r.1, 0)
    let s := s.bump Reg.plc_blanked_samples t 0 (r.1.countP id)
    ((s.bump Reg.plc_blank_events t 0 (runsOf false r.1)).bump Reg.plc_erased_symbols t 0 cut.2, decide (cut.2 = syms.length), r.1.all id)

/-! ### Phase detection (R327 to R330) -/

/-- θ in 0.1°: `tl`, `tr` in ns × 6, P in ns, the bias in 0.1°. -/
def thetaOf (tl tr : Int) (p : Nat) (bias : Int) : Nat :=
  let d := (tl - tr) % ((6 * p : Nat) : Int)
  ((3600 * d / ((6 * p : Nat) : Int) + bias) % 3600).toNat

/-- The unit vectors of all multiples of 0.1° in 2^40, by repeated rotation. -/
def unitVecs : List (Int × Int) :=
  ((List.range 3599).foldl (fun (a : List (Int × Int)) _ =>
    let v := a.headD (0, 0)
    let c : Int := 1099509953124
    let d : Int := 1919008833
    ((v.1 * c - v.2 * d + 2 ^ 39) / 2 ^ 40, (v.1 * d + v.2 * c + 2 ^ 39) / 2 ^ 40) :: a) [(2 ^ 40, 0)]).reverse

/-- Circular mean in 0.1° and mean resultant length × 2^20 of angles in 0.1° (R330), in fixed point (DESIGN CHOICE, notes/assumptions/18.md). -/
def circMean (l : List Nat) : Nat × Nat :=
  let vs := unitVecs
  let x := (l.map fun k => (vs.getD k (0, 0)).1).sum
  let y := (l.map fun k => (vs.getD k (0, 0)).2).sum
  let best := (vs.zip (List.range 3600)).foldl (fun (b : Int × Nat) v =>
    let d := v.1.1 * x + v.1.2 * y
    if b.1 < d then (d, v.2) else b) (-1, 0)
  let n := 2 ^ 20 * max l.length 1
  (best.2, min ((Nat.sqrt ((x * x + y * y).toNat) + n / 2) / n) (2 ^ 20))

/-- Distance of two angles in 0.1°. -/
def angleDist (a b : Nat) : Nat := let d := (a + 3600 - b % 3600) % 3600; min d (3600 - d)

/-- The sector of an angle, its centre in steps of 60° (R328). -/
def sectorOf (theta : Nat) : Nat := (theta + 300) / 600 % 6

/-- PHASE[2:0] of a sector. -/
def sectorPhase (k : Nat) : Nat := [1, 7, 2, 5, 3, 6].getD k 0

/-- The confidence (R330) of a mean with R̄ × 2^20. -/
def phaseConf (theta r : Nat) : Nat := 255 * r * (300 - angleDist theta (600 * sectorOf theta)) / 300 / 2 ^ 20

/-! ### Collection requests (R98, R308, R309, R310, R357) -/

/-- A capture time of a request, in UTC. -/
def State.askTime (s : State) (sec : Nat) : Bytes := dOct (dlmsTime (s.utcOfTai sec) 0 0 0)

/-- An object of the selected columns. -/
def columnOf (cls : Nat) (obis : Bytes) (attr : Nat) : Bytes := dStr [dU16 cls, dOct obis, dInt8 attr, dU16 0]

/-- The get-request-normal with selective access by range, from the interval that ends at `a` to the one that ends at `b`. Its encoding is PRESUMED
(notes/assumptions/15.md). -/
def State.collectBody (s : State) (t : TileId) (c inv a b : Nat) : Bytes :=
  let clock := columnOf 8 [0, 0, 1, 0, 0, 255] 2
  let cols := clock :: (s.maps t c).map fun m => columnOf m.classId m.obis m.attr
  let obis := (s.rdB Reg.meters_class_table t (128 * c + 8) 6)
  [0xC0, 1] ++ natBE 1 (0x40 + inv) ++ (⟨7, obis, 2⟩ : Cosem).bytes ++ [1, 1] ++ dStr [clock, s.askTime a, s.askTime b, dArr cols]

/-- Ends of the intervals that are still open in DUP_MAP (R106, R309). -/
def openHoles (m : MeterRec) : List Nat :=
  ((List.range 16).filter fun i => !bit m.dupMap i && decide ((i + 1) * m.idur < m.lastTend)).map fun i => m.lastTend - (i + 1) * m.idur

/-- What is to be asked of a meter: the rows after LAST_TEND when `due` says so and no request has gone out within the response time; after that
request, and not while `later` says that it is still to come, a hole not yet asked for. -/
def State.collectWhat (s : State) (t : TileId) (c : Collect) (slot rows : Nat) (fill due later : Bool) : Option (Nat × Nat × Bool) :=
  let m := s.meter t slot
  let wait := s.rd Reg.eph_resp_timeout_ms t * 1000000
  let asked := (Tbl.get c.askedAt slot).any fun a => decide (s.now < a + wait)
  if due && !asked then some (m.lastTend + m.idur, m.lastTend + (c.limitOf slot rows).1 * m.idur, false)
  else if fill && (asked || !later) then ((openHoles m).find? fun h => !((Tbl.get c.holes slot).getD []).contains h).map fun h => (h, h, true)
  else none

/-- Send a collection request through port `o` (P3 or P4) when IC_DOWN may be used: the collection state after it. -/
def State.collectSend (s : State) (t : TileId) (o slot : Nat) (c : Collect) (q : Nat × Nat × Bool) : State × Collect :=
  match s.icState t slot with
  | .exhausted => (s.icExhausted t slot, c)
  | .wait => (if s.ceil t slot ≤ (s.meter t slot).icDown then s.reserveIc t slot else s, c)
  | .ready =>
    let inv := c.inv % 8
    let x := s.sealDown t slot (s.collectBody t (s.meter t slot).cls inv q.1 q.2.1)
    let open_ := openHoles (s.meter t slot)
    let c := { c with
      inv := (inv + 1) % 8
      askedAt := if q.2.2 then c.askedAt else Tbl.put c.askedAt slot s.now
      holes := if q.2.2 then Tbl.put c.holes slot (q.1 :: ((Tbl.get c.holes slot).getD []).filter open_.contains) else c.holes }
    match x.2 with
    | none => (x.1, c)
    | some apdu => (x.1.swSend t 6 o 2 (.mac (s.midxOf t slot) 1 inv apdu), c)

end Sys2Proof.Machine
end

