-- ==== Sys2Proof/Machine/PlcTx.lean ====
section
/-! DEFINITION. PlcTx.lean: chapter 9: how a frame is put on the medium: its MAC security (R297), and the slot header and data symbols of an extended frame, carrier
by carrier (R316, R317, R320, R321). What the chapter leaves to G.9903 is free (Config). -/

namespace Sys2Proof.Machine

open Crypto

/-! ### The MAC frame -/

/-- The network group master key and its key index: the first of slots 9 and 10 that is filled (R464; notes/assumptions/18.md). -/
def State.gmk (s : State) (t : TileId) : Option (Nat × Bytes) :=
  match s.slotKey t 9 with
  | some k => some (0, k)
  | none => (s.slotKey t 10).map fun k => (1, k)

/-- The network group master key is delivered for a use of USAGE bit `u` (R462: 0 OPEN, 1 SEAL). -/
def State.useGmk (s : State) (t : TileId) (u : Nat) : State × Bool :=
  match s.gmk t with
  | some g =>
    let r := s.useBayKey t (9 + g.1) u
    (r.1, r.2.isSome)
  | none => (s, false)

/-- A DLMS/COSEM APDU in its wrapper, in a UDP datagram to port 4059 of a short address (R297). -/
def dlmsDatagram (dst : Nat) (apdu : Bytes) : Bytes :=
  Config.g3Datagram dst 4059 ([0, 1] ++ Config.wPorts ++ natBE 2 apdu.length ++ apdu)

/-- A MAC frame to `hop` under security level 5 (R297, R313): header, auxiliary security header, the command identifier in clear, payload and MIC of 4 bytes.
Its layout is that of IEEE 802.15.4 (PRESUMED, notes/assumptions/18.md). -/
def macFrame (gmk : Nat × Bytes) (pan hop counter cmd : Nat) (payload : Bytes) : Bytes :=
  let control := (if cmd = 0 then 0x8849 else 0x884B) + (if hop = 0xFFFF then 0 else 0x20)
  let head := natLE 2 control ++ natLE 1 counter ++ natLE 2 pan ++ natLE 2 hop ++ natLE 2 0 ++ natLE 1 0x0D ++ natLE 4 counter ++ natLE 1 gmk.1 ++
    (if cmd = 0 then [] else natLE 1 cmd)
  let x := ccmSeal gmk.2 (Config.plcNonce pan counter) head payload 4
  head ++ x.1 ++ x.2

/-! ### The slot header on the medium (R317) -/

/-- Bits of a number, msb first. -/
def bitsMsb (n v : Nat) : List Bool := (List.range n).map fun i => v.testBit (n - 1 - i)

/-- The rate-1/2 code: each bit enters a register of 7, which gives two. -/
def convCode : Nat → List Bool → List Bool
  | _, [] => []
  | reg, b :: l =>
    let reg := (2 * reg + b2n b) % 128
    (Config.g3Conv reg).1 :: (Config.g3Conv reg).2 :: convCode reg l

/-- The 432 bits of a slot header: 48 bits and 6 zero tail bits, coded to 108, repeated four times. -/
def shBlock (w : Nat) : List Bool :=
  let c := convCode 0 (bitsMsb 48 w ++ List.replicate 6 false)
  c ++ c ++ c ++ c

/-- One symbol after the phases `ref`: each carrier steps by its label under a modulation. -/
def stepPhases (mod : Nat) (ref : List Nat) (labels : List (List Bool)) : List Nat :=
  List.zipWith (fun r l => (r + Config.g3Phase mod l) % 8) ref labels

/-- The symbols of a slot header after the last FCH symbol: DBPSK on every carrier, in ascending carrier order. -/
def shSymbols (carriers : Nat) : Nat → List Nat → List Bool → List (List Nat)
  | 0, _, _ => []
  | n + 1, ref, bits =>
    let x := stepPhases 1 ref ((bits.take carriers).map fun b => [b])
    x :: shSymbols carriers n x (bits.drop carriers)

/-! ### The data symbols (R318, R320, R321) -/

/-- Coded bits of a MAC frame of `n` bytes: with its FCS of 2 bytes, 16 parity bytes and 6 tail bits, at rate 1/2 (PRESUMED, notes/assumptions/18.md). -/
def codedLen (n : Nat) : Nat := 2 * (8 * (n + 2 + 16) + 6)

/-- Bytes of a MAC frame that carries `n` bytes under a command identifier (`macFrame`). -/
def macLen (cmd n : Nat) : Nat := 19 + n + b2n (decide (cmd ≠ 0))

/-- The header of a part of a datagram of `size` bytes that begins at byte `off` (PRESUMED: the 6LoWPAN fragment headers, notes/assumptions/18.md). -/
def fragHead (size tag off : Nat) : Bytes :=
  if off = 0 then natBE 2 (0xC000 + size % 2 ^ 11) ++ natBE 2 tag else natBE 2 (0xE000 + size % 2 ^ 11) ++ natBE 2 tag ++ natBE 1 (off / 8)

/-- The most data symbols that the FCH's frame-length field can name (PRESUMED, notes/assumptions/18.md). -/
def mostSymbols (band : Nat) : Nat := if band = 0 then 252 else 511

/-- Data symbols that `bits` coded bits need from symbol `n` on, within `fuel` of them. -/
def symbolsFor (band : Nat) (h : SlotHdr) (map : Nat → Nat × Nat) : Nat → Nat → Nat → Option Nat
  | 0, _, bits => if bits = 0 then some 0 else none
  | fuel + 1, n, bits =>
    if bits = 0 then some 0 else (symbolsFor band h map fuel (n + 1) (bits - mapBits band (map (slotOfSymbol h band n)))).map (· + 1)

/-- How much of a datagram goes into one MAC frame, from byte `off` on: the rest of it, or the largest multiple of 8 bytes whose symbols the FCH can name; none when
not even 8 bytes fit (R320). -/
def fitPart (band : Nat) (h : SlotHdr) (map : Nat → Nat × Nat) (cmd size off : Nat) : Option Nat :=
  let fits := fun n => (symbolsFor band h map (mostSymbols band) 0 (codedLen (macLen cmd (n + (if n = size then 0 else (fragHead size 0 off).length))))).isSome
  let rest := size - off
  if fits rest then some rest
  else if cmd = 0 then (((List.range (rest / 8 + 1)).reverse.map (8 * ·)).filter fun n => decide (0 < n ∧ n < rest)).find? fits
  else none

/-- The bits of a symbol that the active carrier at position `a` of `k` carries: all of its label in bit-plane order, or its copy of a ROBO bit. -/
def labelAt (mod k c a : Nat) (bits : List Bool) : List Bool :=
  if mod = 0 then (if a < 4 * c then [bits.getD (a % c) false] else [])
  else ((List.range c).filter fun i => decide (bitCarrier k i = a)).map fun i => bits.getD i false

/-- Data symbol `n` under its map: carriers with bits step from their phase in the previous symbol, every other carrier has the phase of the pilot sequence. -/
def dataSymbol (band n : Nat) (m : Nat × Nat) (ref : List Nat) (bits : List Bool) : List Nat :=
  let c := mapBits band m
  let on_ := fun i => decide (m.1 < 4) && bit m.2 (i / plcGroupSize band)
  (ref.zipIdx).map fun x =>
    let a := (List.range x.2).countP on_
    let l := if on_ x.2 then labelAt m.1 (maskCarriers band m.2) c a bits else []
    if c = 0 ∨ l = [] then (if Config.g3Pilot n (carrierIndex band x.2) then 4 else 0)
    else (x.1 + Config.g3Phase (max m.1 1) l) % 8

/-- The data symbols from symbol `n` on; `bits` gives coded bit `i`. -/
def dataSymbols (band : Nat) (h : SlotHdr) (map : Nat → Nat × Nat) (bits : Nat → Bool) : Nat → Nat → Nat → List Nat → List (List Nat)
  | 0, _, _, _ => []
  | k + 1, n, i, ref =>
    let m := map (slotOfSymbol h band n)
    let c := mapBits band m
    let x := dataSymbol band n m ref ((List.range c).map fun j => bits (i + j))
    x :: dataSymbols band h map bits k (n + 1) (i + c) x

/-- Slot header and data symbols of an extended frame; the first symbol takes the last FCH symbol as its reference, the first data symbol the last of the slot header. -/
def extSymbols (band : Nat) (h : SlotHdr) (map : Nat → Nat × Nat) (fch : List Nat) (syms : Nat) (mac : Bytes) : List (List Nat) :=
  let carriers := plcCarriers band
  let sh := shSymbols carriers (432 / carriers) ((List.range carriers).map fun c => Config.g3Fch fch (carrierIndex band c) % 8) (shBlock h.word)
  let len := codedLen mac.length
  sh ++ dataSymbols band h map (fun i => if i < len then Config.g3Coded mac i else Config.g3Pad (i - len)) syms 0 0 (sh.getLastD [])

end Sys2Proof.Machine
end

