-- ==== Sys2Proof/Machine/PlcNet.lean ====
section
/-! DEFINITION. PlcNet.lean: chapter 9: neighbours, routes, detected phases and what every received PLC frame does. -/

namespace Sys2Proof.Machine

/-! ### Devices and routes (R305, R329, R332 to R334) -/

/-- The band in force. -/
def State.plcBand (s : State) (t : TileId) : Nat := (s.vol t).radio.band

/-- P in ns: the mean interval of the last 8 accepted edges (R303). -/
def Plc.period (p : Plc) : Nat :=
  match p.zc with
  | [] => 0
  | e :: _ => if p.zc.length < 2 then 0 else (e - p.zc.getLastD e) / (p.zc.length - 1)

/-- Queue a frame. -/
def State.plcQueue (s : State) (t : TileId) (dst cmd : Nat) (body : Bytes) : State :=
  s.onPlc t fun p => { p with txq := p.txq ++ [({ dst := dst, cmd := cmd, body := body, slot := 0, kind := 1, inv := 0 } : PTx)] }

/-- The slot of the PATH 0 meter with a short address. -/
def State.shortSlot (s : State) (t : TileId) (short : Nat) : Option Nat := ((s.vol t).meters.lookup 2 short).map midxSlot

/-- EUI-64 of a device: of one that has joined, of the meter that holds the short address, of the repeater that keeps it (R305). -/
def State.euiOf (s : State) (t : TileId) (short : Nat) : Nat :=
  match Tbl.get (s.plc t).joined short, s.shortSlot t short with
  | some e, _ => e
  | none, some slot => (s.meter t slot).eui64
  | none, none => (((s.tile t).plcShorts.find? fun e => decide (e.2 = short)).map Prod.fst).getD 0

/-- Form the EUI-64 routes of R334 anew. -/
def State.routesToBalance (s : State) (t : TileId) : State :=
  let r := (s.plc t).routes.foldl (fun (m : Tbl (List Nat)) e => match s.shortSlot t e.1 with
    | some slot => Tbl.put m slot (e.2.map (s.euiOf t))
    | none => m) []
  s.onPlc t fun p => { p with route := r }

/-- Put a route into use: the device first, the tile's neighbour last. A route of more than `tile.plc.max_hops` hops is not used. -/
def State.setRoute (s : State) (t : TileId) (path : List Nat) : State :=
  match path with
  | d :: _ =>
    if Tbl.get (s.plc t).routes d = some path ∨ s.rd Reg.plc_max_hops t < path.length then s
    else (s.onPlc t fun p => { p with routes := Tbl.put p.routes d path, queryAt := s.now }).routesToBalance t
  | [] => s

/-- A device is joined. -/
def State.noteJoined (s : State) (t : TileId) (short eui : Nat) : State :=
  if Tbl.get (s.plc t).joined short = some eui then s
  else
    let s := s.onPlc t fun p => { p with joined := Tbl.put p.joined short eui }
    let n := (s.plc t).joined.length
    (if 448 < n then s.onPlc t fun p => { p with below := s.now } else s).wr Reg.plc_joined t n

/-- EUI-64 values of `tile.plc.repeater_table`. -/
def State.repeaters (s : State) (t : TileId) : List Nat := (List.range 256).map fun i => s.rdF Reg.plc_repeater_table t (8 * i) 8

/-- The short address of a repeater: the one it was given before, else 0x7F00 plus its place in the table, or the next from there on that no other holds
(DESIGN CHOICE, notes/assumptions/18.md). -/
def State.repeaterShort (s : State) (t : TileId) (eui : Nat) : Option Nat :=
  if eui = 0 then none
  else ((s.repeaters t).idxOf? eui).bind fun i =>
    let held := (s.tile t).plcShorts
    match Tbl.get held eui with
    | some a => some a
    | none => ((List.range 256).map fun k => 0x7F00 + (i + k) % 256).find? fun a => !held.any fun e => decide (e.2 = a)

/-- A repeater joins under its short address, which it keeps (R305). -/
def State.joinRepeater (s : State) (t : TileId) (eui a : Nat) : State :=
  (s.onTile t fun x => { x with plcShorts := Tbl.put x.plcShorts eui a }).noteJoined t a eui

/-- The route that a received frame has come by goes into use, unless the tile has written one itself (R333). -/
def State.heardRoute (s : State) (t : TileId) (path : List Nat) : State :=
  if path.head?.any fun d => (s.plc t).imposed.contains d then s else s.setRoute t path

/-- The route to a device that may be used now: one of at most `tile.plc.max_hops` hops (R332). -/
def State.routeTo (s : State) (t : TileId) (short : Nat) : Option (List Nat) :=
  (Tbl.get (s.plc t).routes short).filter fun p => decide (p.length ≤ s.rd Reg.plc_max_hops t)

/-- A frame under the GMK shows that a known device is joined (R336): a listed device keeps the short address it has. -/
def State.seenDevice (s : State) (t : TileId) (short eui : Nat) : State :=
  match s.shortSlot t short with
  | some slot => s.noteJoined t short (s.meter t slot).eui64
  | none => if eui ≠ 0 ∧ (s.repeaters t).contains eui = true then s.joinRepeater t eui short else s

/-! ### Capabilities (R314, R315) -/

/-- The tile's own CAP payload; SLOTTED only while the extension may be used at either end (R315). -/
def State.capBytes (s : State) (t : TileId) : Bytes :=
  [1] ++ natLE 1 (6 + s.rd Reg.plc_ext_enable t) ++ [6, 3] ++ natLE 1 (s.tile t).plcEpoch ++ natLE 1 (b2n (s.plc t).valid) ++ [0, 0]

/-- Send CAP. -/
def State.sendCap (s : State) (t : TileId) (short : Nat) : State := s.plcQueue t short 0xE0 (s.capBytes t)

/-- A neighbour just created. -/
def PNeigh.new (eui framing now : Nat) : PNeigh where
  eui := eui
  framing := framing
  std := (0, 2 ^ 24 - 1)
  cost := 255
  theta := []
  snr := []
  mean := []
  meanFrom := now
  meanAt := now
  tx := none
  asked := false
  rxCur := none
  rxPrev := none
  dropAt := none
  rxAt := now
  rxCap := []
  unacked := 0

/-- Change a neighbour. -/
def State.onNeigh (s : State) (t : TileId) (short : Nat) (f : PNeigh → PNeigh) : State :=
  s.onPlc t fun p => { p with neigh := Tbl.upd p.neigh short f }

/-- The extension is used on the link from the tile to a neighbour (R315): both have advertised SLOTTED. -/
def State.extLink (s : State) (t : TileId) (short : Nat) : Bool :=
  match Tbl.get (s.plc t).caps short with
  | some c => (Tbl.get (s.plc t).told short).getD false && bit c.caps 0 && bit c.bands (s.plcBand t) && (s.plc t).valid && decide (s.rd Reg.plc_ext_enable t = 1)
  | none => false

/-! ### Detected phases (R327 to R331) -/

/-- Mean phase of the link that `b` measures on frames from `a` (0 is the tile), R̄ × 2^20, and whether it holds 4 values or more; none while no one measures it. -/
def State.linkPhase (s : State) (t : TileId) (a b : Nat) : Option (Nat × Nat × Bool) :=
  if b = 0 then
    match Tbl.get (s.plc t).neigh a with
    | some n => if n.theta = [] then none else let m := circMean n.theta; some (m.1, m.2, decide (4 ≤ n.theta.length))
    | none => none
  else match (s.plc t).links.find? fun l => decide (l.1 = a ∧ l.2.1 = b) with
    | some (_, _, l) => if l.theta = 65535 then none else some (l.theta, l.rbar * 2 ^ 20 / 255, decide (4 ≤ l.nfr))
    | none => none

/-- Links of a route that ends at the tile. -/
def routeLinks (path : List Nat) : List (Nat × Nat) := path.zip (path.drop 1 ++ [0])

/-- Mean angle and confidence of a device by its route (R329, R330). -/
def State.phaseOf (s : State) (t : TileId) (path : List Nat) : Option (Nat × Nat) :=
  let l := (routeLinks path).map fun e => s.linkPhase t e.1 e.2
  if path = [] ∨ l.any Option.isNone then none
  else
    let v := l.filterMap id
    let theta := (v.map fun x => x.1).sum % 3600
    let r := v.foldl (fun a x => a * x.2.1 / 2 ^ 20) (2 ^ 20)
    some (theta, if v.all fun x => x.2.2 then phaseConf theta r else 0)

/-- Judge the detected phase of a meter (R330, R331). -/
def State.phaseJudge (s : State) (t : TileId) (short : Nat) : State :=
  match s.shortSlot t short, s.phaseOf t ((Tbl.get (s.plc t).routes short).getD []) with
  | some slot, some (theta, conf) =>
    let m := s.meter t slot
    let ph := sectorPhase (sectorOf theta)
    let differs := decide (ph ≠ m.phase % 8)
    if bit m.phase 3 then
      if differs ∧ 128 ≤ conf then
        let s := s.bump Reg.plc_phase_conflicts t
        if (Tbl.get (s.plc t).conflicts slot).any fun a => decide (s.now < a + 86400 * 1000000000) then s
        else (s.onPlc t fun p => { p with conflicts := Tbl.put p.conflicts slot s.now }).event t 1 0x1601 (s.midxOf t slot) m.phase ph
      else s
    else if (differs ∧ 64 ≤ conf) ∨ 16 ≤ ((conf : Int) - (m.phaseConf : Int)).natAbs then
      (s.fieldsMeter t slot fun m => { m with phase := ph, phaseConf := conf }).bump Reg.plc_phase_updates t
    else s
  | _, _ => s

/-- Judge every meter whose route passes a device. -/
def State.phaseAll (s : State) (t : TileId) (dev : Nat) : State :=
  ((s.plc t).routes.filter fun e => e.2.contains dev).foldl (fun s e => s.phaseJudge t e.1) s

/-! ### Channel change (R335) -/

/-- The node that EKIND 5 is charged to (R214), and the meter. -/
def State.deviceNode (s : State) (t : TileId) (eui : Nat) : Nat × Nat :=
  let midx := (s.vol t).meters.lookup 1 eui
  let node := match (treeNodes (s.tree t)).find? fun n => decide ((treeNode (s.tree t) n).anchor = eui ∧ eui ≠ 0) with
    | some n => n
    | none => (midx.map (s.nodeOf t)).getD 0
  (node, midx.getD 0x3FFFFF)

/-- Per-carrier SNR of one frame: the mean over its slots. -/
def frameSnr (f : List (List Int)) (carriers : Nat) : List Int :=
  let l := f.filter fun x => decide (x.length = carriers)
  if l = [] then [] else (List.range carriers).map fun c => meanI (l.map fun x => x.getD c 0)

/-- A quotient rounded to the nearest integer. -/
def divNear (a b : Int) : Int := (2 * a + b) / (2 * b)

/-- Enter a frame's SNR into the windows of a neighbour and judge the change metric. -/
def State.noteSnr (s : State) (t : TileId) (short : Nat) (snr : List (List Int)) : State :=
  let carriers := plcCarriers (s.plcBand t)
  let x := frameSnr snr carriers
  match Tbl.get (s.plc t).neigh short with
  | some n =>
    if x = [] then s
    else
      let win := (snr :: n.snr).take (s.rd Reg.plc_map_window t)
      let dt : Int := ((s.now - n.meanAt : Nat) : Int)
      let tau : Int := 86400 * 1000000000
      let mean := if n.mean = [] then x.map (· * 2 ^ 48)
        else (n.mean.zip x).map fun e => e.1 + divNear ((e.2 * 2 ^ 48 - e.1) * dt) (dt + tau)
      let s := s.onNeigh t short fun n =>
        { n with snr := win, mean := mean, meanAt := s.now, meanFrom := if n.mean = [] then s.now else n.meanFrom }
      let now_ := (win.map fun f => frameSnr f carriers).filter (· ≠ [])
      let m := (((List.range carriers).map fun c =>
        (divNear (2 ^ 48 * (now_.map fun l => l.getD c 0).sum) (max now_.length 1 : Nat) - mean.getD c 0).natAbs).sum) / 2 ^ 48
      if n.mean ≠ [] ∧ n.meanFrom + 86400 * 1000000000 ≤ s.now ∧ s.rd Reg.plc_chg_threshold t ≤ m then
        let d := s.deviceNode t n.eui
        s.evidence t 5 d.1 d.2 m n.eui
      else s
  | none => s

/-! ### Reception (R297, R315 to R317, R322, R325 to R327) -/

/-- The MAP_RSP of the set in force toward a neighbour. -/
def State.sendMaps (s : State) (t : TileId) (short : Nat) : State :=
  match (Tbl.get (s.plc t).neigh short).bind fun n => n.rxCur with
  | some m => s.plcQueue t short 0xE2 m.bytes
  | none => s

/-- The modulation and mask that a tone-map request is answered with: a coherent scheme gives way to the differential one of as many bits per carrier (R297). -/
def answered (x : Nat × Nat × Bool) : Nat × Nat := (min x.1 3, x.2.1)

/-- A frame from a neighbour gives a phase differential (R327), while the zero-crossing reference is VALID. -/
def State.phaseIn (s : State) (t : TileId) (nb : Nat) (p : PlcPhy) (hdr : Option SlotHdr) : State :=
  let per := (s.plc t).period
  if !(s.plc t).valid ∨ per = 0 then s
  else
    let tl : Int := 6 * ((p.lag : Int) + s.rdI Reg.plc_zc_delay_us t * 1000)
    let tr : Int := match hdr with
      | some x => ((x.slot0 * per + 60000 * x.sofs : Nat) : Int)
      | none => ((6 * p.own : Nat) : Int)
    let th := thetaOf tl tr per (s.rdI Reg.plc_phase_bias t)
    (s.onNeigh t nb fun n => { n with theta := (th :: n.theta).take (s.rd Reg.plc_phase_window t) }).phaseAll t nb

/-- The MSID of a slot header names neither set that the neighbour was given (R322). -/
def State.msidUnknown (s : State) (t : TileId) (nb : Nat) (hdr : Option SlotHdr) : Bool :=
  match hdr, Tbl.get (s.plc t).neigh nb with
  | some x, some n => decide (x.msid ≠ 0) && !(n.rxCur.any fun m => decide (m.msid = x.msid)) && !(n.rxPrev.any fun m => decide (m.msid = x.msid))
  | some x, none => decide (x.msid ≠ 0)
  | none, _ => false

/-- What every received frame does: blanking, slot header, FCS, security, the neighbour's windows and map sets; whether its data are decoded. An extended frame is not
received while the extension is off (R315), no MIC is good without the GMK, and of a frame under an unknown MSID the slot header alone is used (R322). -/
def State.plcRx (s : State) (t : TileId) (p : PlcPhy) : State × Bool :=
  let nb := p.path.getLastD 0xFFFF
  if !(s.plc t).up ∨ p.path = [] ∨ (s.plc t).busy.any (fun b => decide (b.step = 2)) ∨ (p.sh.isSome = true ∧ s.rd Reg.plc_ext_enable t = 0) then (s, false)
  else
    let z := s.blankFrame t p.samples
    let s := z.1
    let h := p.sh.map slotHdrOf
    let hdr := h.bind id
    if h = some none then (s.bump Reg.plc_sh_crc_fail t, false)
    else if s.msidUnknown t nb hdr then (((s.phaseIn t nb p hdr).bump Reg.plc_msid_unknown t).sendMaps t nb, false)
    else if !p.fcsOk ∨ z.2.1 = true then (s, false)
    else
      let g := (s.bump Reg.plc_frames_rx t).useGmk t 0
      let s := g.1
      if !p.micOk ∨ p.level < 5 ∨ g.2 = false then (s.bump Reg.plc_mac_sec_fail t, false)
      else
        let s := p.path.foldl (fun s d => s.seenDevice t d (if p.path.head? = some d then p.eui else s.euiOf t d)) s
        let eui := s.euiOf t nb
        let s := if (Tbl.get (s.plc t).neigh nb).isSome then s
          else (s.onPlc t fun x => { x with neigh := Tbl.put x.neigh nb (PNeigh.new eui p.framing s.now) }).sendCap t nb
        let s := s.onNeigh t nb fun n =>
          { n with framing := p.framing, cost := p.cost, eui := if n.eui = 0 then eui else n.eui, std := (p.asks.map answered).getD n.std }
        let s := (s.heardRoute t p.path).phaseIn t nb p hdr
        let s := if z.2.2 then s else s.noteSnr t nb p.snr
        let n := (Tbl.get (s.plc t).neigh nb).getD (PNeigh.new 0 0 0)
        let current := hdr.any fun x => n.rxCur.any fun m => decide (m.msid = x.msid)
        (if current ∧ n.rxPrev.isSome ∧ n.dropAt = none then s.onNeigh t nb fun n => { n with dropAt := some (s.now + 10000000000) } else s, true)

end Sys2Proof.Machine
end

