-- ==== Sys2Proof/Machine/Plc.lean ====
section
/-! DEFINITION. Plc.lean: chapter 9: the commands of the PLC modem. -/

namespace Sys2Proof.Machine

/-! ### PLC_FRAME_RX (R297, R306, R309, R310) -/

/-- The frame that goes to Gather or Ephemeris (R75, R77); it arrived with its first FCH symbol (R425). -/
def plcFrame (s : State) (t : TileId) (p : PlcPhy) (apdu : Bytes) : Frame :=
  { source := 3, addrKind := if p.short then 2 else 1, satId := 0xFFFF, forceOld := false, rfSecured := false, entry := 0
    addr := if p.short then p.path.headD 0xFFFF else p.eui, arrival := s.whenNs t - p.age, envSeq := 0, aad := [], apdu := apdu
    env := 0 }

/-- A data-notification outside a slot that the tile opened, in POLLED mode (R306). -/
def State.plcUnsolicited (s : State) (t : TileId) (f : Frame) (short : Nat) : Bool :=
  decide (s.rd Reg.plc_mode_now t = 1) && !((s.plc t).opened.any fun o => decide (o.1 = short ∧ s.now < o.2)) &&
  (match (s.vol t).meters.lookup f.addrKind f.addr with
   | some midx => match (s.openFrame t midx f 0).2 with
     | .ok p => decide (fld p.apdu 0 1 = 0x0F)
     | .error _ => false
   | none => decide (fld f.apdu 0 1 = 0x0F))

/-- A data frame is received: a response to Ephemeris goes to P6 in the CONTROL class, any other to P5 as READING (R310, R366). -/
def plcFrameRx (t : TileId) (p : PlcPhy) (apdu : Bytes) (s : State) : State :=
  let r := s.plcRx t p
  if !r.2 then r.1
  else
    let s := r.1
    let f := plcFrame s t p apdu
    if s.isEphRsp t f then s.swSend t 3 6 1 (.eph f)
    else
      let s := s.swCount t 3 2 apdu apdu.length
      let s := if s.plcUnsolicited t f (p.path.headD 0xFFFF) then s.bump Reg.plc_unsolicited t else s
      (s.toGather t 3 apdu.length [f]).1

/-- PLC_FRAME_RX (R297). -/
def execPlcFrameRx (t : TileId) (p : PlcPhy) (apdu : Bytes) (s : State) : Host.Outcome State Fault Refusal :=
  finish (plcFrameRx t p apdu) s

/-! ### The zero-crossing reference (R303, R315) -/

/-- The own ZC bit changes: it is shown, and CAP goes to every neighbour. -/
def State.setZc (s : State) (t : TileId) (v : Bool) : State :=
  if (s.plc t).valid = v then s
  else
    let s := (s.onPlc t fun p => { p with valid := v }).wr Reg.plc_zc_state t (b2n v)
    (Tbl.keys (s.plc t).neigh).foldl (fun s k => s.sendCap t k) s

/-- A rising edge of PLC_ZC. -/
def zcEdge (t : TileId) (s : State) : State :=
  let p := s.plc t
  if !p.up ∨ p.zc.any (fun e => decide (s.now < e + 2000000)) then s
  else
    let iv := match p.zc with
      | e :: _ => s.now - e
      | [] => 0
    let ok := decide (15385000 ≤ iv ∧ iv ≤ 22222000)
    let run := if ok then p.zcRun + 1 else 0
    let s := s.onPlc t fun p => { p with zc := (s.now :: p.zc).take 8, zcRun := run, zcNs := s.timeNs t - s.rdI Reg.plc_zc_delay_us t * 1000 }
    let s := s.wr Reg.plc_mains_period_us t ((s.plc t).period / 1000)
    if !ok then s.setZc t false else if 8 ≤ run then s.setZc t true else s

/-- ZC_EDGE (R303). -/
def execZcEdge (t : TileId) (s : State) : Host.Outcome State Fault Refusal := finish (zcEdge t) s

/-- 25 ms without an edge. -/
def zcLost (t : TileId) (s : State) : State :=
  match (s.plc t).zc with
  | e :: _ => if e + 25000000 ≤ s.now then (s.onPlc t fun p => { p with zcRun := 0 }).setZc t false else s
  | [] => s

/-- ZC_LOST (R303). -/
def execZcLost (t : TileId) (s : State) : Host.Outcome State Fault Refusal := finish (zcLost t) s

/-! ### Joining and the mode (R304 to R307) -/

/-- The lowest short address of 0x0001 to 0x7EFF that no record holds. -/
def State.freeShort (s : State) (t : TileId) : Option Nat :=
  let used := ((s.vol t).meters.recs.filter fun e => decide (e.2.path = 0)).map fun e => e.2.shortAddr
  ((List.range 0x7EFF).map (· + 1)).find? fun a => !used.contains a

/-- Admit a device that may join: a meter gets its short address, written to its record, or a repeater its own. -/
def State.admitJoin (s : State) (t : TileId) (eui : Nat) : State :=
  match ((s.vol t).meters.lookup 1 eui).map midxSlot with
  | some slot =>
    let m := s.meter t slot
    if m.shortAddr ≠ 0xFFFF then s.noteJoined t m.shortAddr eui
    else match s.freeShort t with
      | none => s.bump Reg.plc_join_refused t
      | some a =>
        let h := s.hashEnter t (s.midxOf t slot) [(2, a)]
        if h.2 then (h.1.fieldsMeter t slot fun m => { m with shortAddr := a }).noteJoined t a eui
        else h.1.bump Reg.plc_join_refused t
  | none => match s.repeaterShort t eui with
    | some a => s.joinRepeater t eui a
    | none => s.bump Reg.plc_join_refused t

/-- A slot of the present POLLED cycle: its number, none outside a cycle (R308). -/
def State.plcSlot (s : State) (t : TileId) : Option Nat :=
  match (s.plc t).cycle with
  | some (start, total, len, _) => let j := (s.now - start) / max len 1; if j < total then some j else none
  | none => none

/-- Join slots are every ⌊1 000 ÷ join_share⌋-th, by the share with which the cycle began (R308, R337). -/
def State.joinSlot (s : State) (t : TileId) (j : Nat) : Bool := decide (j % max (s.plc t).joinEvery 1 = 0)

/-- The place of a device's EAP-PSK in the PLC key table (R463). -/
def State.pskPlace (s : State) (t : TileId) (eui : Nat) : Option Nat :=
  match (s.vol t).meters.lookup 1 eui with
  | some midx => s.plcKeyPlace t midx
  | none => ((s.repeaters t).idxOf? eui).map fun i => blobPlace 1 (4096 + i)

/-- LBP takes the EAP-PSK key of a device, to derive from (R297, R461, R462). -/
def State.takePsk (s : State) (t : TileId) (eui : Nat) : State × Option Bytes :=
  match s.pskPlace t eui with
  | some p =>
    if (s.blob t p).isNone then (s, none)
    else
      let r := s.fetchKey t p 1 3
      (r.1, match r.2 with
        | .key k => some k
        | _ => none)
  | none => (s, none)

/-- The LBP server answers a device (R297): it is accepted with its short address and the GMK, or declined. The message goes to its EUI-64. -/
def State.lbpAnswer (s : State) (t : TileId) (ok : Bool) (eui : Nat) (psk : Bytes) : State :=
  let short := (((s.plc t).joined.find? fun e => decide (e.2 = eui)).map Prod.fst).getD 0xFFFF
  s.plcQueue t 0xFFFF 0x100 (Config.g3Lbp ok eui short psk (if ok then ((s.gmk t).map Prod.snd).getD [] else []))

/-- A join is refused (R304). -/
def State.joinRefused (s : State) (t : TileId) (eui : Nat) : State := (s.bump Reg.plc_join_refused t).lbpAnswer t false eui []

/-- A device is admitted under its EAP-PSK key, and answered. -/
def State.joinWith (s : State) (t : TileId) (eui : Nat) (psk : Bytes) : State :=
  let s := s.admitJoin t eui
  s.lbpAnswer t ((s.plc t).joined.any fun e => decide (e.2 = eui)) eui psk

/-- A device asks to join; `authOk` is the outcome of EAP-PSK, which needs the device's key. The exchange of EAP-PSK itself is not in the manual. -/
def plcJoin (t : TileId) (eui : Nat) (authOk : Bool) (s : State) : State :=
  let p := s.plc t
  let polled := decide (s.rd Reg.plc_mode_now t = 1)
  let slot := ((s.vol t).meters.lookup 1 eui).map midxSlot
  let known := (slot.any fun i => decide ((s.meter t i).state = 1 ∧ (s.meter t i).path = 0)) || (s.repeaterShort t eui).isSome
  let again := p.joined.any fun e => decide (e.2 = eui)
  if !p.up ∨ (polled ∧ !(s.plcSlot t).any (s.joinSlot t)) then s
  else if !known then s.joinRefused t eui
  else if !authOk then s.lbpAnswer t false eui []
  else
    let k := s.takePsk t eui
    let s := k.1
    match k.2 with
    | none => s.lbpAnswer t false eui []
    | some psk =>
      if again then s.joinWith t eui psk
      else if polled ∧ 4096 ≤ p.joined.length then s.joinRefused t eui
      else if !polled ∧ 512 ≤ p.joined.length then
        if s.rd Reg.plc_mode t = 0 then s.onPlc t fun p => { p with heldJoin := p.heldJoin.filter (· != eui) ++ [eui] }
        else s.joinRefused t eui
      else s.joinWith t eui psk

/-- JOIN (R304). -/
def execJoin (t : TileId) (eui : Nat) (authOk : Bool) (s : State) : Host.Outcome State Fault Refusal := finish (plcJoin t eui authOk) s

/-- Attempts of the last 900 s. -/
def Plc.recent (p : Plc) (now : Nat) : List (Nat × Bool) := p.tries.filter fun x => decide (now < x.1 + 900 * 1000000000)

/-- The mode that the table of R307 asks for, with the mark of a failure switch. -/
def State.plcWant (s : State) (t : TileId) : Option (Nat × Bool) :=
  let p := s.plc t
  let mode := s.rd Reg.plc_mode_now t
  let set_ := s.rd Reg.plc_mode t
  let r := p.recent s.now
  if set_ = 1 then if mode = 0 then none else some (0, false)
  else if set_ = 2 then if mode = 1 then none else some (1, false)
  else if mode = 0 then
    if p.heldJoin ≠ [] then some (1, false)
    else if r ≠ [] ∧ s.rd Reg.plc_switch_fail_pm t * r.length ≤ 1000 * (r.countP fun x => x.2) ∧ 64 ≤ p.joined.length then some (1, true)
    else none
  else if p.joined.length ≤ 448 ∧ p.below + 3600 * 1000000000 ≤ s.now ∧
      !(p.failSwitch.any fun f => decide (s.now < f + 86400 * 1000000000)) then some (0, false)
  else none

/-- PLC_MODE_SWITCH: the change is noted; it takes effect at the next beacon or cycle start. -/
def plcModeSwitch (t : TileId) (s : State) : State :=
  if !(s.plc t).up then s else s.onPlc t fun p => { p with pend := s.plcWant t, tries := p.recent s.now }

/-- PLC_MODE_SWITCH (R307). -/
def execPlcModeSwitch (t : TileId) (s : State) : Host.Outcome State Fault Refusal := finish (plcModeSwitch t) s

/-- An exchange is in progress: a frame on its way, or a slot that the tile has opened. -/
def State.plcExchange (s : State) (t : TileId) : Bool := (s.plc t).busy.isSome || (s.plc t).opened.any fun o => decide (s.now < o.2)

/-- A pending change of mode takes effect. -/
def State.plcApplyMode (s : State) (t : TileId) : State :=
  match (s.plc t).pend with
  | none => s
  | some (m, fail) =>
    let held := (s.plc t).heldJoin
    let s := s.onPlc t fun p =>
      { p with pend := none, heldJoin := [], failSwitch := if fail then some s.now else p.failSwitch, cycle := none, sched := [], taken := []
               overrun := false, push := 0 }
    let s := ((s.wr Reg.plc_mode_now t m).bump Reg.plc_mode_switches t).onMer t fun x => { x with pollSec := s.timeSec t }
    held.foldl (fun s e => let k := s.takePsk t e; k.1.joinWith t e (k.2.getD [])) s

/-! ### The polling schedule and collection (R308, R309) -/

/-- Length of a slot in ms. -/
def State.plcSlotMs (s : State) (t : TileId) : Nat :=
  let v := s.rd Reg.plc_slot_ms t
  if v = 0 then (if s.plcBand t = 0 then 100 else 40) else v

/-- Hops of a meter's route; 1 while none is known (DESIGN CHOICE, notes/assumptions/18.md). -/
def State.plcHops (s : State) (t : TileId) (short : Nat) : Nat := max ((Tbl.get (s.plc t).routes short).getD []).length 1

/-- The meter is due in a POLLED cycle. -/
def State.plcDue (s : State) (t : TileId) (m : MeterRec) : Bool :=
  decide (m.state = 1 ∧ m.path = 0) && decide (m.lastTend + m.idur + s.rd Reg.plc_poll_delay_s t ≤ s.timeSec t) && decide (0 < m.idur)

/-- First slot from `j` on with `h` consecutive slots that are no join slots, within a cycle of `total`. -/
def State.fitSlots (s : State) (t : TileId) (total h : Nat) : Nat → Nat → Option Nat
  | 0, _ => none
  | fuel + 1, j =>
    if total < j + h then none
    else if (List.range h).any fun k => s.joinSlot t (j + k) then s.fitSlots t total h fuel (j + 1)
    else some j

/-- Place exchanges of meters in their order from slot `j` on, none before its old place: those that fit, and whether one does not. -/
def State.placeSlots (s : State) (t : TileId) (total j : Nat) (l : List (Nat × Nat × Nat)) : List (Nat × Nat × Nat) × Bool :=
  let r := l.foldl (fun (a : List (Nat × Nat × Nat) × Nat × Bool) e =>
    match s.fitSlots t total e.2.1 total (max a.2.1 e.1) with
    | some j => ((j, e.2.1, e.2.2) :: a.1, j + e.2.1, a.2.2)
    | none => (a.1, a.2.1, true)) ([], j, false)
  (r.1.reverse, r.2.2)

/-- Fill the schedule: every due meter in ascending MIDX order; those that do not fit are carried. -/
def State.fillSlots (s : State) (t : TileId) (total : Nat) : List (Nat × Nat × Nat) × Bool :=
  s.placeSlots t total 0 ((s.slotsOf t (s.plcDue t)).map fun slot => (0, s.plcHops t (s.meter t slot).shortAddr, slot))

/-- The cycle could not hold every due meter: counted once. -/
def State.plcOverrun (s : State) (t : TileId) (more : Bool) : State :=
  if more && !(s.plc t).overrun then (s.onPlc t fun p => { p with overrun := true }).bump Reg.plc_schedule_overrun t else s

/-- A POLLED cycle begins, at its grid point or, when a step skips it, at once (R434); a change of mode waits for the exchange in progress (R307). -/
def pollCycleStart (t : TileId) (s : State) : State :=
  let n := max (s.rd Reg.plc_poll_cycle_s t) 1
  match s.gridDue t n (s.vol t).mer.pollSec with
  | none => s
  | some sec =>
  let at_ := if sec = s.timeSec t then s.now - ((s.timeNs t) % 1000000000).toNat else s.now
  if !(s.plc t).up ∨ s.rd Reg.plc_mode_now t ≠ 1 ∨ ((s.plc t).pend.isSome = true ∧ s.plcExchange t = true) then s
  else
    let s := (s.plcApplyMode t).onMer t fun m => { m with pollSec := sec }
    if s.rd Reg.plc_mode_now t ≠ 1 then s
    else
      let len := s.plcSlotMs t
      let total := n * 1000 / len
      let s := s.onPlc t fun p => { p with joinEvery := 1000 / max (s.rd Reg.plc_join_share t) 1, cycleS := n }
      let f := s.fillSlots t total
      (s.onPlc t fun p => { p with cycle := some (at_, total, len * 1000000, sec), sched := f.1, overrun := false, taken := [], push := 0 }).plcOverrun t f.2

/-- POLL_CYCLE_START (R308). -/
def execPollCycleStart (t : TileId) (s : State) : Host.Outcome State Fault Refusal := finish (pollCycleStart t) s

/-- A collection request to a meter: in POLLED mode once its slot has come, in BEACON mode `tile.plc.pull_after_s` after its interval; then its open holes. -/
def collectionRequest (t : TileId) (slot : Nat) (s : State) : State :=
  let m := s.meter t slot
  let polled := decide (s.rd Reg.plc_mode_now t = 1)
  let due := if polled then (s.plc t).sched.any fun e => decide (e.2.2 = slot) && ((s.plcSlot t).any fun j => decide (e.1 ≤ j)) && s.plcDue t m
    else decide (m.lastTend + m.idur + s.rd Reg.plc_pull_after_s t ≤ s.timeSec t)
  let later := polled && s.plcDue t m && !due
  if !(s.plc t).up ∨ !s.hasTime t ∨ m.state ≠ 1 ∨ m.path ≠ 0 ∨ m.shortAddr = 0xFFFF ∨ m.idur = 0 then s
  else match s.collectWhat t (s.plc t).collect slot (s.rd Reg.plc_rows_per_request t) (decide (s.rd Reg.plc_fill_holes t = 1)) due later with
    | none => s
    | some q =>
      let r := s.collectSend t 3 slot (s.plc t).collect q
      r.1.onPlc t fun p => { p with collect := r.2 }

/-- COLLECTION_REQUEST (R309). -/
def execCollectionRequest (t : TileId) (slot : Nat) (s : State) : Host.Outcome State Fault Refusal := finish (collectionRequest t slot) s

/-! ### The cycle beacon (R312, R443) -/

/-- A cycle beacon without its elements; CYCLE_REM is that of the running cycle (R337). -/
def State.beaconBody (s : State) (t : TileId) : Bytes :=
  let polled := decide (s.rd Reg.plc_mode_now t = 1)
  let n := max (s.plc t).cycleS 1
  let rem := n - (s.timeSec t + n - s.rd Reg.gather_grid_phase t % n) % n
  [1] ++ natLE 1 (s.rd Reg.plc_beacon_seq t) ++ natLE 1 (b2n polled) ++ [1] ++ natLE 2 (if polled then rem else 0)

/-- The zero-crossing time element: `ofs` ns from the newest edge to the first FCH symbol. -/
def State.zcElement (s : State) (t : TileId) (ofs : Nat) : Bytes :=
  if (s.plc t).valid ∧ s.hasTime t = true ∧ (s.vol t).mer.manual = false then
    [1, 20] ++ time80 (s.plc t).zcNs.toNat ++ natLE 4 (ofs / 10) ++ natLE 4 (s.plc t).period ++
      natLE 1 (b2n (decide (s.rd Reg.time_state t = 3)) + 2 * b2n (decide (s.rdI Reg.device_time_leap_pending 0 ≠ 0))) ++
      intLE 1 s.pier.time.utc
  else []

/-- CYCLE_BEACON: queued when the period has passed, or in POLLED mode at each join slot; a change of mode from BEACON takes effect with it. -/
def cycleBeacon (t : TileId) (s : State) : State :=
  let p := s.plc t
  let polled := decide (s.rd Reg.plc_mode_now t = 1)
  let place := match p.cycle, s.plcSlot t with
    | some c, some j => if s.joinSlot t j then some (c.2.2.2, j) else none
    | _, _ => none
  let due := if polled then place.isSome && decide (p.beaconSlot ≠ place)
    else !(p.beaconAt.any fun a => decide (s.now < a + s.rd Reg.plc_beacon_period_s t * 1000000000))
  if !p.up ∨ !due ∨ (!polled ∧ p.pend.isSome ∧ s.plcExchange t) then s
  else
    let s := if polled then s else s.plcApplyMode t
    let s := s.wr Reg.plc_beacon_seq t ((s.rd Reg.plc_beacon_seq t + 1) % 256)
    let s := s.onPlc t fun p => { p with beaconAt := some s.now, beaconSlot := if polled then place else p.beaconSlot }
    s.plcQueue t 0xFFFF 0xE5 (s.beaconBody t)

/-- CYCLE_BEACON (R312). -/
def execCycleBeacon (t : TileId) (s : State) : Host.Outcome State Fault Refusal := finish (cycleBeacon t) s

/-! ### Transmission (R298, R301, R302, R308, R311, R316, R322, R542) -/

/-- Slots `j` to `j + h` lie in the cycle of `total`, are no join slots, and no exchange has used them. -/
def State.slotsFree (s : State) (t : TileId) (total j h : Nat) : Bool :=
  decide (j + h ≤ total) && (List.range h).all fun k => !s.joinSlot t (j + k) && !(s.plc t).taken.any fun e => decide (e.1 ≤ j + k ∧ j + k < e.1 + e.2)

/-- Collection reserves one of these slots. -/
def State.slotsReserved (s : State) (t : TileId) (j h : Nat) : Bool := (s.plc t).sched.any fun e => decide (e.1 < j + h ∧ j < e.1 + e.2.1)

/-- Push share in per mille, and the airtime of pushes over 900 s (R311). -/
def Plc.pushAirtime (p : Plc) (now : Nat) : Nat := ((p.pushAir.filter fun x => decide (now < x.1 + 900 * 1000000000)).map Prod.snd).sum

/-- `tile.plc.push_airtime_pm` (R311). -/
def State.plcPushPm (s : State) (t : TileId) : Nat :=
  if s.rd Reg.plc_mode_now t = 1 then
    match (s.plc t).cycle with
    | some (_, total, _, _) => (s.plc t).push * 1000 / max total 1
    | none => 0
  else (s.plc t).pushAirtime s.now * 1000 / (900 * 1000000000)

/-- A frame may take the medium now: the slots it would use (0 in BEACON mode, for an LBP answer in a join slot, and for a later part of a datagram), none when it waits. A relay command takes the next free slot, which
collection then gives up; a scheduled collection request may start from its slot on; anything else takes what collection leaves (R308). -/
def State.plcMay (s : State) (t : TileId) (x : PTx) (dur : Nat) : Option Nat :=
  let share := s.rd Reg.eph_push_plc_share t
  if s.rd Reg.plc_mode_now t = 1 then
    if x.cmd = 0xE5 ∨ x.off ≠ 0 then some 0
    else if x.cmd = 0x100 then (s.plcSlot t).bind fun j => if s.joinSlot t j then some 0 else none
    else match (s.plc t).cycle, s.plcSlot t with
      | some (_, total, _, _), some j =>
        let h := s.plcHops t x.dst
        if !s.slotsFree t total j h then none
        else if x.cmd = 0 ∧ (x.kind = 0 ∨ (x.kind = 1 ∧ x.inv < 8 ∧ ((s.plc t).sched.any fun e => decide (e.2.2 = x.slot ∧ e.1 ≤ j)) = true)) then some h
        else if s.slotsReserved t j h then none
        else if x.cmd = 0 ∧ 2 ≤ x.kind ∧ share * total < 1000 * ((s.plc t).push + h) then none
        else some h
      | _, _ => none
  else if x.cmd = 0 ∧ 2 ≤ x.kind ∧ share * 900 * 1000000000 < 1000 * ((s.plc t).pushAirtime s.now + dur) then none
  else some 0

/-- The data frames that the modem holds for the switch core, by precedence. -/
def State.plcData (s : State) (t : TileId) : List (SwFrame × PTx) :=
  let l := ((Tbl.get (s.sw t).unit 3).getD []).filterMap fun f => match f.body with
    | .mac midx kind inv apdu =>
      let slot := midxSlot midx
      let dst := if midx = allMeters then 0xFFFF else (s.meter t slot).shortAddr
      some (f, ({ dst := dst, cmd := 0, body := apdu, slot := if midx = allMeters then 2 ^ 22 else slot, kind := kind, inv := inv } : PTx))
    | _ => none
  (List.range 4).flatMap fun k => l.filter fun x => decide (x.2.kind = k)

/-- The next frame that may go: a MAC command first (DESIGN CHOICE, notes/assumptions/18.md), then data by precedence. -/
def State.plcPick (s : State) (t : TileId) (dur : Nat) : Option (Option SwFrame × PTx × Nat) :=
  match (s.plc t).txq.findSome? fun x => (s.plcMay t x dur).map fun h => (x, h) with
  | some (x, h) => some (none, x, h)
  | none => (s.plcData t).findSome? fun x => (s.plcMay t x.2 dur).map fun h => (some x.1, x.2, h)

/-- Take a chosen frame off its queue. -/
def State.plcTake (s : State) (t : TileId) (from_ : Option SwFrame) (x : PTx) : State :=
  match from_ with
  | some f => s.onSw t fun w => { w with unit := Tbl.put w.unit 3 (((Tbl.get w.unit 3).getD []).erase f) }
  | none => s.onPlc t fun p => { p with txq := p.txq.erase x }

/-- PLC_PSEL for a next hop (R302): 65535 for a broadcast. -/
def State.pselFor (s : State) (t : TileId) (hop : Nat) : Nat :=
  if s.rd Reg.plc_psel_mode t = 0 then s.rd Reg.plc_psel_fixed t
  else match Tbl.get (s.plc t).neigh hop with
    | some n =>
      let m := circMean n.theta
      let conf := if 4 ≤ n.theta.length then phaseConf m.1 m.2 else 0
      if n.theta ≠ [] ∧ s.rd Reg.plc_psel_conf_min t ≤ conf then sectorPhase (sectorOf m.1) % 4 - 1 else 3
    | none => 3

/-- PLC_TXEN time inside the last 10 s. -/
def Plc.dutyUsed (p : Plc) (now : Nat) : Nat := (p.duty.map fun x => x.1 - max (x.1 - x.2) (now - 10000000000)).sum

/-- The attenuation in dB below full scale (R301, R542). -/
def State.plcAtten (s : State) (t : TileId) : Nat := max (s.rd Reg.plc_tx_level t) (s.rd Reg.bay_energy_plc_atten_min_db (bayOf t).val)

/-- Drive the PLC balls. -/
def State.drivePlc (s : State) (t : TileId) (psel : Nat) (txen : Bool) : State :=
  s.onVol t fun v => { v with drive := { v.drive with psel := psel, txen := txen } }

/-- The MAC frame counter can be used; its end raises an event once. -/
def State.plcCounter (s : State) (t : TileId) : State × Bool :=
  let p := s.plc t
  if 0xFFFFFFFF ≤ p.live then
    (if p.exhausted then s else (s.onPlc t fun p => { p with exhausted := true }).event t 3 0x1602, false)
  else if s.ctrReady t 0 p.live then (s, true) else (s.ctrEnsure t 0 p.live, false)

/-- A frame that the limiter holds back is counted once (R301, R542). -/
def State.plcHold (s : State) (t : TileId) (x : PTx) : State :=
  if (s.plc t).held.contains x then s else (s.onPlc t fun p => { p with held := p.held ++ [x] }).bump Reg.plc_tx_held t

/-- A frame takes `h` slots from the present one: collection moves behind them, and what no longer fits is carried (R308). -/
def State.plcUse (s : State) (t : TileId) (x : PTx) (h : Nat) : State :=
  match (s.plc t).cycle, s.plcSlot t with
  | some (_, total, len, _), some j =>
    if h = 0 then s
    else
      let rest := if x.cmd = 0 ∧ x.kind = 1 ∧ x.inv < 8 then (s.plc t).sched.filter fun e => e.2.2 != x.slot else (s.plc t).sched
      let r := s.placeSlots t total (j + h) rest
      (s.onPlc t fun p =>
        { p with sched := r.1, taken := p.taken ++ [(j, h)], push := if x.cmd = 0 ∧ 2 ≤ x.kind then p.push + h else p.push
                 opened := some (x.dst, s.now + h * len) }).plcOverrun t r.2
  | _, _ => s

/-- Start a frame: `dur` its duration in ns, `fail` that the channel could not be accessed, `route` what LOADng finds for a device without a route. Without the
GMK nothing is sent. -/
def State.plcBegin (s : State) (t : TileId) (dur : Nat) (fail : Bool) (route : List Nat) : State :=
  let g := if (s.plcPick t dur).isSome then s.useGmk t 1 else (s, false)
  let s := g.1
  match if g.2 then s.plcPick t dur else none with
  | some (from_, x, h) =>
    let have_ := if x.dst = 0xFFFF then some [] else if (Tbl.get (s.plc t).neigh x.dst).isSome ∧ (Tbl.get (s.plc t).routes x.dst).isNone then some [x.dst]
      else s.routeTo t x.dst
    let s := if have_.isSome then s else (s.bump Reg.plc_route_discoveries t).setRoute t (if route.head? = some x.dst then route else [])
    match have_.orElse fun _ => s.routeTo t x.dst with
    | none => s.plcTake t from_ x
    | some path =>
      let c := s.plcCounter t
      if !c.2 then c.1
      else
        let s := c.1
        if 10000000 * s.rd Reg.bay_energy_plc_duty_pm (bayOf t).val < (s.plc t).dutyUsed s.now + dur then s.plcHold t x
        else
          let s := s.onPlc t fun p => { p with tries := p.recent s.now ++ [(s.now, fail)] }
          if fail then s.bump Reg.plc_csma_fail t
          else
            let hop := if x.dst = 0xFFFF then 0xFFFF else path.getLastD x.dst
            let s := ((s.plcTake t from_ x).pushLeft t x.slot x.inv (if x.cmd = 0 then x.kind else 0)).drivePlc t (s.pselFor t hop) false
            (s.plcUse t x h).onPlc t fun p =>
              { p with busy := some { step := 1, at_ := s.now, tx := x, hop := hop, dur := dur }, held := p.held.erase x }
  | none => s

/-- The slot header of a data frame on an extended link whose first data symbol starts `ofs` ns after the newest edge, from which `tile.plc.zc_delay_us` is
subtracted (R303, R316). -/
def State.shFor (s : State) (t : TileId) (hop ofs : Nat) : SlotHdr :=
  let per := (s.plc t).period
  let o := (((ofs : Int) + s.rdI Reg.plc_zc_delay_us t * 1000) % (max per 1 : Nat)).toNat
  let k := 6 * o / max per 1 % 6
  let n := (Tbl.get (s.plc t).neigh hop).bind fun n => n.tx
  { msid := (n.map MapSet.msid).getD 0, slot0 := k, sofs := (6 * o - k * per) / 60000, perd := per / 1000 - 12000, resp := true }

/-- The modulation and mask of a standard frame to a neighbour: what its tone-map response asks for, ROBO on every group before. -/
def State.stdMap (s : State) (t : TileId) (hop : Nat) : Nat × Nat := ((Tbl.get (s.plc t).neigh hop).map PNeigh.std).getD (0, 2 ^ 24 - 1)

/-- The map of each slot toward a neighbour: of the set in use, or for MSID 0 the FCH's (R316). -/
def State.slotMaps (s : State) (t : TileId) (hop : Nat) : Nat → Nat × Nat :=
  match (Tbl.get (s.plc t).neigh hop).bind fun n => n.tx with
  | some m => if m.msid = 0 then fun _ => s.stdMap t hop else m.mapOf
  | none => fun _ => s.stdMap t hop

/-- Framing of a frame (R298): that of the newest frame received from the neighbour; for a broadcast, and before any, that of the setting. -/
def State.plcFraming (s : State) (t : TileId) (hop : Nat) : Nat :=
  if hop = 0xFFFF then s.rd Reg.plc_framing t else ((Tbl.get (s.plc t).neigh hop).map PNeigh.framing).getD (s.rd Reg.plc_framing t)

/-- A frame as it goes on the medium: an extended frame when the link uses the extension, of as much of its datagram as the FCH can name, else a standard frame
(R296, R315, R316, R320, R324); and how far the datagram is then carried, 0 for to its end. -/
def State.plcForm (s : State) (t : TileId) (b : PBusy) (ofs : Nat) : PlcOut × Nat :=
  let band := s.plcBand t
  let counter := (s.plc t).live
  let body := if b.tx.cmd = 0xE5 then b.tx.body ++ s.zcElement t ofs else b.tx.body
  let whole := if b.tx.cmd = 0 then dlmsDatagram b.tx.dst body else body
  let h := s.shFor t b.hop ofs
  let maps := s.slotMaps t b.hop
  let ext := decide (b.tx.cmd = 0) && decide (b.tx.dst ≠ 0xFFFF) && s.extLink t b.hop && !(s.plc t).recode.contains b.tx
  let part := if ext then fitPart band h maps b.tx.cmd whole.length b.tx.off else none
  let n := part.getD (whole.length - b.tx.off)
  let load := if n = whole.length then whole else fragHead whole.length (b.tx.inv + 16 * b.tx.slot) b.tx.off ++ (whole.drop b.tx.off).take n
  let mac := if b.tx.cmd = 0x100 then load else macFrame ((s.gmk t).getD (0, [])) (s.rd Reg.plc_pan_id t) b.hop counter b.tx.cmd load
  let std := s.stdMap t b.hop
  let dt := if part.isSome then 4 else if b.tx.dst = 0xFFFF then 0 else 1
  let pdc := Config.g3Pdc ofs (s.plc t).period
  let extSyms := (symbolsFor band h maps (mostSymbols band) 0 (codedLen mac.length)).getD 0
  let free := (Config.g3Std [dt, std.1, std.2, pdc] mac).map fun l => (List.range (plcCarriers band)).map fun c => l.getD c 0 % 8
  ({ psel := (s.vol t).drive.psel, hop := b.hop, dst := b.tx.dst, cmd := b.tx.cmd, framing := s.plcFraming t b.hop, dt := dt, sh := if part.isSome then h.word else 0
     syms := if part.isSome then extSyms else free.length, atten := s.plcAtten t, counter := counter, body := body, mac := mac, fch := (std.1, std.2, pdc)
     phases := if part.isSome then extSymbols band h maps [dt, std.1, std.2, pdc, extSyms] extSyms mac else free, interp := plcDecim band },
   if b.tx.off + n < whole.length then b.tx.off + n else 0)

/-- Ask a neighbour for its map set (R322). -/
def State.askMaps (s : State) (t : TileId) (hop : Nat) : State :=
  let inUse := (((Tbl.get (s.plc t).neigh hop).bind fun n => n.tx).map MapSet.msid).getD 0
  (s.onNeigh t hop fun n => { n with asked := true }).plcQueue t hop 0xE1 ([1] ++ natLE 1 inUse)

/-- PLC_TXEN rises and the frame goes out. -/
def State.plcSend (s : State) (t : TileId) (b : PBusy) (ofs : Nat) : State :=
  let s := s.drivePlc t (s.vol t).drive.psel true
  let y := s.plcForm t b ofs
  let x := y.1
  let s := s.emit (.plc t x)
  let lead := s.rd Reg.plc_txen_lead_us t * 1000
  let s := s.onPlc t fun p =>
    { p with live := if b.tx.cmd = 0x100 then p.live else p.live + 1, busy := some { b with step := 2, at_ := s.now, lead := lead, next := y.2 }
             told := if b.tx.cmd = 0xE0 then Tbl.put p.told b.tx.dst (bit (fld b.tx.body 1 1) 0) else p.told
             recode := if y.2 = 0 then p.recode.erase b.tx else p.recode }
  let s := s.ctrEnsure t 0 (s.plc t).live
  let s := if b.tx.cmd = 0xE4 then s.bump Reg.plc_prefer_sent t else s
  if x.dt = 4 ∧ ((Tbl.get (s.plc t).neigh b.hop).any fun n => n.tx.isNone && !n.asked) = true then s.askMaps t b.hop else s

/-- PLC_TXEN falls. The rest of a datagram goes next, in a MAC frame of its own. A link that fails three times loses the routes that the tile has written over it (DESIGN CHOICE,
notes/assumptions/18.md). -/
def State.plcEnd (s : State) (t : TileId) (b : PBusy) (acked : Bool) : State :=
  let on_ := b.lead + b.dur + 10000
  let s := (s.drivePlc t (s.vol t).drive.psel false).bump Reg.plc_frames_tx t
  let s := s.onPlc t fun p =>
    { p with busy := some { b with step := 3, at_ := s.now }
             txq := if b.next = 0 then p.txq else { b.tx with off := b.next } :: p.txq
             recode := if b.next ≠ 0 ∧ p.recode.contains b.tx = true then p.recode.erase b.tx ++ [{ b.tx with off := b.next }] else p.recode
             duty := (p.duty.filter fun x => decide (s.now < x.1 + 10000000000)) ++ [(s.now, on_)]
             pushAir := if b.tx.cmd = 0 ∧ 2 ≤ b.tx.kind ∧ s.rd Reg.plc_mode_now t = 0 then
                 (p.pushAir.filter fun x => decide (s.now < x.1 + 900 * 1000000000)) ++ [(s.now, b.dur)] else p.pushAir }
  if b.tx.dst = 0xFFFF then s
  else if acked then s.onNeigh t b.hop fun n => { n with unacked := 0 }
  else
    let s := s.onNeigh t b.hop fun n => { n with unacked := n.unacked + 1 }
    let s := if ((Tbl.get (s.plc t).neigh b.hop).any fun n => decide (n.unacked % 3 = 0)) = true then
        s.onPlc t fun p => { p with imposed := p.imposed.filter fun d => !((Tbl.get p.routes d).getD []).getLast?.any fun h => decide (h = b.hop) }
      else s
    if s.extLink t b.hop ∧ ((Tbl.get (s.plc t).neigh b.hop).any fun n => decide (n.unacked % 3 = 0)) = true then s.askMaps t b.hop else s

/-- PLC_TRANSMIT: the next step of the transmission under way that is due, or the start of one. -/
def plcTransmit (t : TileId) (dur ofs : Nat) (fail acked : Bool) (route : List Nat) (s : State) : State :=
  if !(s.plc t).up then s
  else match (s.plc t).busy with
    | none => if s.pier.pfail then s else s.plcBegin t dur fail route
    | some b => match b.step with
      | 1 => if b.at_ + 50000 ≤ s.now ∧ s.pier.pfail = false then s.plcSend t b ofs else s
      | 2 => if b.at_ + b.lead + b.dur + 10000 ≤ s.now then s.plcEnd t b acked else s
      | _ => if b.at_ + 50000 ≤ s.now then (s.drivePlc t 3 false).onPlc t fun p => { p with busy := none } else s

/-- PLC_TRANSMIT (R301). -/
def execPlcTransmit (t : TileId) (dur ofs : Nat) (fail acked : Bool) (route : List Nat) (s : State) : Host.Outcome State Fault Refusal :=
  finish (plcTransmit t dur ofs fail acked route) s

/-- PLC_DUTY_FREE: PLC_TXEN time that has left the window of 10 s is dropped; a held frame may start. -/
def plcDutyFree (t : TileId) (s : State) : State :=
  s.onPlc t fun p => { p with duty := p.duty.filter fun x => decide (s.now < x.1 + 10000000000) }

/-- PLC_DUTY_FREE (R542). -/
def execPlcDutyFree (t : TileId) (s : State) : Host.Outcome State Fault Refusal := finish (plcDutyFree t) s

/-! ### MAC commands of the extension (R313 to R324, R329) -/

/-- Receive a MAC command and act on its payload. -/
def State.plcCommand (s : State) (t : TileId) (p : PlcPhy) (f : State → Nat → State) : State :=
  let r := s.plcRx t p
  if r.2 then f r.1 (p.path.headD 0xFFFF) else r.1

/-- The data frames that wait for a neighbour whose map sets are gone are coded again as standard frames (R324). -/
def State.recodeFor (s : State) (t : TileId) (a : Nat) : State :=
  let mine := fun (x : PTx) => decide (x.cmd = 0) && decide ((((s.routeTo t x.dst).getD []).getLastD x.dst) = a)
  let now_ := ((s.plc t).busy.filter fun b => decide (b.step = 1)).toList.map PBusy.tx
  s.onPlc t fun p => { p with recode := (p.recode ++ ((now_ ++ p.txq ++ (s.plcData t).map Prod.snd).filter mine)).eraseDups }

/-- A CAP is received. -/
def cap (t : TileId) (p : PlcPhy) (b : Bytes) (s : State) : State :=
  s.plcCommand t p fun s a =>
    if b.length ≠ 8 ∨ fld b 0 1 ≠ 1 then s
    else
      let c : PCap := { caps := fld b 1 1 % 8, maxMaps := fld b 2 1, bands := fld b 3 1 % 4, epoch := fld b 4 1, zc := bit (fld b 5 1) 0 }
      let old := Tbl.get (s.plc t).caps a
      let s := s.onPlc t fun x => { x with caps := Tbl.put x.caps a c }
      let s := s.wr Reg.plc_ext_peers t ((s.plc t).caps.countP fun e => bit e.2.caps 0)
      match old with
      | none => s.sendCap t a
      | some o =>
        if o.epoch = c.epoch then s
        else ((s.recodeFor t a).onNeigh t a fun n => { n with tx := none, asked := false, rxCur := none, rxPrev := none, dropAt := none, rxCap := [] }).sendCap t a

/-- CAP (R315). -/
def execCap (t : TileId) (p : PlcPhy) (b : Bytes) (s : State) : Host.Outcome State Fault Refusal := finish (cap t p b) s

/-- Six maps for a neighbour's frames (R323 steps 1 to 5). -/
def State.formMaps (s : State) (t : TileId) (n : PNeigh) (most : Nat) : List (Nat × Nat) :=
  let band := s.plcBand t
  let l := (List.range 6).map fun k => bestMap band (slotSnr (n.snr.filter fun f => decide (f.length = 6)) k (plcCarriers band)) fun m => s.rd Reg.plc_snr_thr t m
  mergeMaps band (max most 1) 6 l

/-- Give a neighbour a new set: MSID 0 when every slot would be SKIP. -/
def State.giveMaps (s : State) (t : TileId) (a : Nat) (l : List (Nat × Nat)) : State :=
  let n := (Tbl.get (s.plc t).neigh a).getD (PNeigh.new 0 0 0)
  let next := (n.rxCur.map MapSet.msid).getD 0 % 15 + 1
  let m : MapSet := if l.all fun x => decide (x.1 = 4) then { msid := 0, slotMap := List.replicate 6 0, maps := [] } else setOfMaps next l
  (s.onNeigh t a fun n =>
    { n with rxPrev := n.rxCur, rxCur := some m, dropAt := none, rxAt := s.now, rxCap := l.map (mapBits (s.plcBand t)) }).sendMaps t a

/-- A MAP_REQ is answered with the set in force, or with a first one. -/
def mapReq (t : TileId) (p : PlcPhy) (b : Bytes) (s : State) : State :=
  s.plcCommand t p fun s a =>
    if b.length ≠ 2 ∨ fld b 0 1 ≠ 1 ∨ s.rd Reg.plc_ext_enable t = 0 then s
    else match Tbl.get (s.plc t).neigh a with
      | some n => if n.rxCur.isSome then s.sendMaps t a
        else s.giveMaps t a (s.formMaps t n (((Tbl.get (s.plc t).caps a).map PCap.maxMaps).getD 1))
      | none => s

/-- MAP_REQ (R322). -/
def execMapReq (t : TileId) (p : PlcPhy) (b : Bytes) (s : State) : Host.Outcome State Fault Refusal := finish (mapReq t p b) s

/-- A MAP_RSP is checked and applied to later frames. -/
def mapRsp (t : TileId) (p : PlcPhy) (b : Bytes) (s : State) : State :=
  s.plcCommand t p fun s a =>
    match mapRspOf (s.plcBand t) 6 b with
    | some m => s.onNeigh t a fun n => { n with tx := some m, asked := false }
    | none => s.bump Reg.plc_map_rsp_bad t

/-- MAP_RSP (R319). -/
def execMapRsp (t : TileId) (p : PlcPhy) (b : Bytes) (s : State) : Host.Outcome State Fault Refusal := finish (mapRsp t p b) s

/-- MAP_REFRESH: a new set when a slot's capacity has changed enough, or the refresh time has passed. -/
def mapRefresh (t : TileId) (a : Nat) (s : State) : State :=
  match Tbl.get (s.plc t).neigh a, Tbl.get (s.plc t).caps a with
  | some n, some c =>
    if !(s.plc t).up ∨ !bit c.caps 0 ∨ !bit c.bands (s.plcBand t) ∨ s.rd Reg.plc_ext_enable t = 0 ∨ n.snr = [] then s
    else
      let l := s.formMaps t n c.maxMaps
      let cur := l.map (mapBits (s.plcBand t))
      let moved := (cur.zip n.rxCap).any fun x =>
        decide (x.1 ≠ x.2) && decide (s.rd Reg.plc_map_hyst_pm t * x.2 ≤ 1000 * ((x.1 : Int) - (x.2 : Int)).natAbs)
      if n.rxCur.isNone ∨ moved ∨ n.rxAt + s.rd Reg.plc_map_refresh_s t * 1000000000 ≤ s.now then s.giveMaps t a l else s
  | _, _ => s

/-- MAP_REFRESH (R323). -/
def execMapRefresh (t : TileId) (a : Nat) (s : State) : Host.Outcome State Fault Refusal := finish (mapRefresh t a) s

/-- The previous set is dropped. -/
def mapSetDrop (t : TileId) (a : Nat) (s : State) : State :=
  s.onNeigh t a fun n => if n.dropAt.any fun d => decide (d ≤ s.now) then { n with rxPrev := none, dropAt := none } else n

/-- MAP_SET_DROP (R322). -/
def execMapSetDrop (t : TileId) (a : Nat) (s : State) : Host.Outcome State Fault Refusal := finish (mapSetDrop t a) s

/-- The tile's own NEIGH_REPORT answer: its first 16 neighbours. -/
def State.ownReport (s : State) (t : TileId) : Bytes :=
  let l := (s.plc t).neigh.take 16
  [1] ++ natLE 1 l.length ++ (l.map fun e =>
    let m := circMean e.2.theta
    natLE 2 e.1 ++ natLE 1 e.2.cost ++ natLE 1 (m.2 * 255 / 2 ^ 20) ++ natLE 2 (if e.2.theta = [] then 0xFFFF else m.1) ++
      natLE 1 e.2.theta.length ++ [0]).flatten

/-- A NEIGH_REPORT: an empty payload asks, another answers. -/
def neighReport (t : TileId) (p : PlcPhy) (b : Bytes) (s : State) : State :=
  s.plcCommand t p fun s a =>
    if b = [] then if (s.plc t).neigh = [] then s else s.plcQueue t a 0xE3 (s.ownReport t)
    else
      let n := fld b 1 1
      if fld b 0 1 ≠ 1 ∨ n < 1 ∨ 16 < n ∨ b.length ≠ 2 + 8 * n then s
      else
        let new := (List.range n).map fun i =>
          let e := (b.drop (2 + 8 * i)).take 8
          (fld e 0 2, a, ({ cost := fld e 2 1, rbar := fld e 3 1, theta := if fld e 4 2 = 0xFFFF then 0xFFFF else fld e 4 2 % 4096, nfr := fld e 6 1 } : PLink))
        let s := s.onPlc t fun x => { x with links := (x.links.filter fun l => !(new.any fun m => decide (m.1 = l.1 ∧ m.2.1 = l.2.1))) ++ new }
        s.phaseAll t a

/-- NEIGH_REPORT (R329). -/
def execNeighReport (t : TileId) (p : PlcPhy) (b : Bytes) (s : State) : Host.Outcome State Fault Refusal := finish (neighReport t p b) s

/-- PHASE_QUERY: every PHASE_REPORT device on a route is asked, after each route change and every `tile.plc.phase_query_h`. -/
def phaseQuery (t : TileId) (s : State) : State :=
  if !(s.plc t).up ∨ s.now < (s.plc t).queryAt then s
  else
    let devs := (((s.plc t).routes.flatMap fun e => e.2).eraseDups).filter fun d => (Tbl.get (s.plc t).caps d).any fun c => bit c.caps 2
    let s := devs.foldl (fun s d => s.plcQueue t d 0xE3 []) s
    s.onPlc t fun p => { p with queryAt := s.now + s.rd Reg.plc_phase_query_h t * 3600 * 1000000000 }

/-- PHASE_QUERY (R329). -/
def execPhaseQuery (t : TileId) (s : State) : Host.Outcome State Fault Refusal := finish (phaseQuery t) s

/-! ### Routes (R333) -/

/-- The table of link costs: (device, the next device toward the tile, cost). -/
def Plc.costs (p : Plc) : List (Nat × Nat × Nat) :=
  (p.neigh.map fun e => (e.1, 0, e.2.cost)) ++ p.links.map fun l => (l.1, l.2.1, l.2.2.cost)

/-- Least-cost routes, ties by fewer hops: one more hop each round. -/
def leastRoutes (costs : List (Nat × Nat × Nat)) (hops : Nat) : Tbl (Nat × List Nat) :=
  (List.range hops).foldl (fun (m : Tbl (Nat × List Nat)) _ =>
    costs.foldl (fun m e =>
      let from_ : Option (Nat × List Nat) := if e.2.1 = 0 then some (0, []) else Tbl.get m e.2.1
      match from_ with
      | none => m
      | some (c, path) =>
        if e.1 = 0 ∨ path.contains e.1 ∨ hops ≤ path.length then m
        else match Tbl.get m e.1 with
          | some (c', path') =>
            if c + e.2.2 < c' ∨ (c + e.2.2 = c' ∧ path.length + 1 < path'.length) then Tbl.put m e.1 (c + e.2.2, e.1 :: path) else m
          | none => Tbl.put m e.1 (c + e.2.2, e.1 :: path)) m) []

/-- Cost of a route, none when a link has none. -/
def routeCost (costs : List (Nat × Nat × Nat)) (path : List Nat) : Option Nat :=
  (routeLinks path).foldl (fun a l => a.bind fun x => ((costs.find? fun e => decide (e.1 = l.1 ∧ e.2.1 = l.2)).map fun e => x + e.2.2)) (some 0)

/-- ROUTE_RECOMPUTE: every 600 s; a route cheaper by the margin is put into use, with a PREFER to each extended device on it. -/
def routeRecompute (t : TileId) (s : State) : State :=
  if !(s.plc t).up ∨ s.now < (s.plc t).routeAt + 600 * 1000000000 then s
  else
    let s := s.onPlc t fun p => { p with routeAt := s.now }
    let costs := (s.plc t).costs
    let best := leastRoutes costs (s.rd Reg.plc_max_hops t)
    let margin := s.rd Reg.plc_reroute_margin_pm t
    (Tbl.keys (s.plc t).joined).foldl (fun s d =>
      match Tbl.get best d, (Tbl.get (s.plc t).routes d).bind (routeCost costs) with
      | some (c, path), some old =>
        if margin < 1000 ∧ c < old ∧ 1000 * c ≤ old * (1000 - margin) then
          let s := (s.setRoute t path).onPlc t fun p => { p with imposed := p.imposed.filter (· != d) ++ [d] }
          (routeLinks path).foldl (fun s l =>
            if (Tbl.get (s.plc t).caps l.1).isSome then
              s.plcQueue t l.1 0xE4 ([1, 0, 0, 0] ++ natLE 2 l.2 ++ natLE 2 (s.rd Reg.plc_prefer_lifetime_min t))
            else s) s
        else s
      | _, _ => s) s

/-- ROUTE_RECOMPUTE (R333). -/
def execRouteRecompute (t : TileId) (s : State) : Host.Outcome State Fault Refusal := finish (routeRecompute t) s

/-- `tile.plc.route` (R334): the route of the MIDX in `tile.plc.route_select`. -/
def State.plcRoute (s : State) (t : TileId) : Bytes :=
  let midx := s.rd Reg.plc_route_select t
  let r := if s.ownMidx t midx then ((Tbl.get (s.plc t).route (midxSlot midx)).getD []).take 15 else []
  fit 128 (natLE 1 r.length ++ List.replicate 7 0 ++ (r.map (natLE 8)).flatten)

end Sys2Proof.Machine
end

