-- ==== Sys2Proof/Machine/Rf.lean ====
section
/-! DEFINITION. Rf.lean: chapter 10: the commands of the sub-GHz transceiver. -/

namespace Sys2Proof.Machine

open Crypto

/-! ### Channels and airtime (R339 to R341, R356, R358 to R360) -/

/-- Bit rate and channel spacing (kHz) of a rate. -/
def rfBitRate (rate : Nat) : Nat := [50000, 100000, 150000, 200000].getD rate 100000
def rfSpacing (rate : Nat) : Nat := if rate < 2 then 200 else 400

/-- The grid of a regime at a spacing: CH0 in kHz, spacing, channels. -/
def rfGridOf (regime spacing : Nat) (custom : Bytes) : Nat × Nat × Nat :=
  let w := decide (spacing = 400)
  match regime with
  | 0 => (if w then 863200 else 863100, spacing, if w then 17 else 35)
  | 1 => (if w then 902400 else 902200, spacing, if w then 64 else 129)
  | 2 => (if w then 920800 else 920600, spacing, if w then 18 else 37)
  | 3 => (if w then 470400 else 470200, spacing, if w then 99 else 199)
  | 4 => (if w then 865200 else 865100, spacing, if w then 5 else 10)
  | _ => (fld custom 0 4, fld custom 4 2, fld custom 6 2)

/-- The grid in force. -/
def State.rfGrid (s : State) (t : TileId) : Nat × Nat × Nat :=
  let c := (s.vol t).radio
  rfGridOf c.regime (rfSpacing c.rate) (s.rdAll Reg.rf_custom_grid t)

/-- Channels of a receive set at the spacing of its grid. -/
def rfSetSize (spacing : Nat) : Nat := if spacing < 400 then 8 else 4

/-- The receive set. -/
def State.rfSet (s : State) (t : TileId) : List Nat :=
  let g := s.rfGrid t
  let n := rfSetSize g.2.1
  if g.2.2 < n then List.range g.2.2 else (List.range n).map (s.rd Reg.rf_rx_base_channel t + ·)

/-- Airtime in ns of a frame of `n` PSDU octets. -/
def State.rfAir (s : State) (t : TileId) (n : Nat) : Nat :=
  (s.rd Reg.rf_preamble_octets t + 4 + n) * 8 * 1000000000 / rfBitRate (s.vol t).radio.rate

/-- The duty band of a channel: its number and budget in ns. -/
def State.rfBandOf (s : State) (t : TileId) (ch : Nat) : Option (Nat × Nat) :=
  let g := s.rfGrid t
  let f := g.1 + ch * g.2.1
  ((List.range 4).find? fun i => let b := s.rfBand t i; b.2.2.2 && decide (b.1 ≤ f ∧ f ≤ b.2.1)).map fun i => (i, (s.rfBand t i).2.2.1)

/-- R359: a frame of precedence `kind` (0: EXPRESS, acknowledgement or NONE; 2 and 3: a push) may start. -/
def State.rfDutyOk (s : State) (t : TileId) (ch kind air : Nat) : Bool :=
  match s.rfBandOf t ch with
  | none => true
  | some (i, bd) =>
    let u := (s.rf t).used i s.rfNow
    if kind = 0 then decide (u.1 + air ≤ bd)
    else decide (1000 * (u.1 + air) ≤ bd * (1000 - s.rd Reg.rf_express_reserve_pm t)) &&
      (decide (kind < 2) || decide (1000 * (u.2 + air) ≤ bd * s.rd Reg.eph_push_rf_share t))

/-- Airtime of a channel in its dwell window. -/
def State.rfDwell (s : State) (t : TileId) (ch : Nat) : Nat :=
  if s.rfNow < (s.rf t).full then s.rd Reg.rf_dwell_ms t * 1000000
  else
    let b := s.rfNow / 100000000
    ((((Tbl.get (s.rf t).dwell ch).getD []).filter fun x => decide (b < x.1 + 10 * s.rd Reg.rf_dwell_window_s t)).map Prod.snd).sum

/-- R360: the dwell limit lets a frame start. -/
def State.rfDwellOk (s : State) (t : TileId) (ch air : Nat) : Bool :=
  decide (s.rd Reg.rf_dwell_enable t = 0) || decide (s.rfDwell t ch + air ≤ s.rd Reg.rf_dwell_ms t * 1000000)

/-- The channel of R356 for a broadcast or a meter not yet heard: the most remaining dwell, or duty budget; a tie goes to the lowest. -/
def State.rfBestChannel (s : State) (t : TileId) : Nat :=
  let left := fun ch => if s.rd Reg.rf_dwell_enable t = 1 then s.rd Reg.rf_dwell_ms t * 1000000 - s.rfDwell t ch
    else match s.rfBandOf t ch with
      | some (i, bd) => bd - ((s.rf t).used i s.rfNow).1
      | none => 3600 * 1000000000
  match s.rfSet t with
  | [] => 0
  | c :: r => r.foldl (fun b c => if left b < left c then c else b) c

/-! ### Frames (R345, R348, R349) -/

/-- FCS over MHR and payload: the CRC-32 of IEEE 802.15.4's 4-octet FCS (PRESUMED, notes/assumptions/19.md). -/
def rfFcs (b : Bytes) : Bytes := natLE 4 (crc32 b)

/-- Frame control of version 2 with extended addresses. -/
def rfControl (type : Nat) (sec pend ar : Bool) : Bytes :=
  natLE 2 (type + 8 * b2n sec + 16 * b2n pend + 32 * b2n ar + 0x0C00 + 0x2000 + 0xC000)

/-- The PHR of a PSDU: FCS type 0 and data whitening on, its length in bits [10:0], as IEEE 802.15.4 lays it out (R339; PRESUMED, notes/assumptions/19.md). -/
def rfPhr (n : Nat) : Bytes := natBE 2 (0x0800 + n)

/-- The whitening sequence of IEEE 802.15.4, newest of its nine bits first: each bit is the sum of those 4 and 9 before it (PRESUMED, notes/assumptions/19.md). -/
def pn9Next (r : List Bool) : List Bool := (r.getD 3 false ^^ r.getD 8 false) :: r.take 8

/-- A PSDU octet as it is sent: its least significant bit first, whitened, and written with the bit sent first as the most significant. -/
def whiteOctet (r : List Bool) (b : Byte) : List Bool × Byte :=
  (List.range 8).foldl (fun (x : List Bool × Byte) i => (pn9Next x.1, x.2 * 2 + BitVec.ofNat 8 (b2n (bit b.toNat i ^^ x.1.getD 8 false)))) (r, 0)

/-- A PSDU whitened, from the first nine bits 000011110 of the sequence. -/
def whiten (psdu : Bytes) : Bytes :=
  (psdu.foldl (fun (x : List Bool × Bytes) b => let y := whiteOctet x.1 b; (y.1, y.2 :: x.2))
    ([false, true, true, true, true, false, false, false, false], [])).2.reverse

/-- What goes on the air for a PSDU: preamble, the uncoded SFD of phySunFskSfd 0, PHR and the whitened PSDU, each octet with the bit sent first as its most
significant (R339). -/
def rfPpdu (preamble : Nat) (psdu : Bytes) : Bytes := List.replicate preamble 0x55 ++ [0x90, 0x4E] ++ rfPhr psdu.length ++ whiten psdu

/-- The downlink counter can be used; its end raises an event once. -/
def State.rfCounter (s : State) (t : TileId) : State × Bool :=
  let r := s.rf t
  if 0xFFFFFFFF ≤ r.fc then
    (if r.exhausted then s else (s.onRf t fun r => { r with exhausted := true }).event t 3 0x1701, false)
  else if s.ctrReady t 1 r.fc then (s, true) else (s.ctrEnsure t 1 r.fc, false)

/-- MIC octets of a level. -/
def micLen (level : Nat) : Nat := if level = 5 then 4 else if level = 6 then 8 else 16

/-- A data frame to a meter: secured when it has an RF link key. None when the counter or the key cannot be used. -/
def State.rfData (s : State) (t : TileId) (slot : Nat) (pend ar : Bool) (apdu : Bytes) : State × Option Bytes :=
  let seq := (s.rf t).seq
  let cfg := (s.vol t).radio
  let bcast := decide (slot = 2 ^ 22)
  let m := s.meter t slot
  let sec := !bcast && bit m.keyMap 2
  let hdr := rfControl 1 sec pend ar ++ natLE 1 seq ++ natLE 2 cfg.pan ++ (if bcast then List.replicate 8 0xFF else natLE 8 m.eui64) ++ natLE 8 cfg.eui
  let next := fun (s : State) => s.onRf t fun r => { r with seq := (r.seq + 1) % 256 }
  if !sec then (next s, some (hdr ++ apdu ++ rfFcs (hdr ++ apdu)))
  else
    let c := s.rfCounter t
    if !c.2 then (c.1, none)
    else
      let k := c.1.sessionKey t (s.midxOf t slot) 2 0 1
      match k.2 with
      | .error _ => (k.1, none)
      | .ok key =>
        let level := s.rd Reg.rf_sec_level t
        let fc := (s.rf t).fc
        let aux := natLE 1 (level + 8) ++ natLE 4 fc ++ natLE 1 m.rfKeyId
        let x := ccmSeal key (natBE 8 cfg.eui ++ natBE 4 fc ++ natBE 1 level) (hdr ++ aux) apdu (micLen level)
        let body := hdr ++ aux ++ x.1 ++ x.2
        let s := next (k.1.onRf t fun r => { r with fc := fc + 1 })
        (s.ctrEnsure t 1 (fc + 1), some (body ++ rfFcs body))

/-- PSDU octets of a data frame to a meter. -/
def State.rfLen (s : State) (t : TileId) (slot n : Nat) : Nat :=
  21 + n + 4 + (if slot ≠ 2 ^ 22 ∧ bit (s.meter t slot).keyMap 2 = true then 6 + micLen (s.rd Reg.rf_sec_level t) else 0)

/-- A frame to a meter keeps within the 2 047 octets of R339. One that would be longer is never sent (DESIGN CHOICE, notes/assumptions/19.md). -/
def State.rfFits (s : State) (t : TileId) (slot : Nat) (p : RPend) : Bool := decide (s.rfLen t slot p.apdu.length ≤ 2047)

/-! ### Transmission (R343, R346, R353, R355, R359, R360) -/

/-- When the next first preamble symbol may start: RF_PAEN falls with the frame before it and rises its lead ahead (R343). -/
def State.rfFreeAt (s : State) (t : TileId) : Nat :=
  if (s.rf t).txs = [] then 0 else (s.rf t).txs.foldl (fun m x => max m (x.start + x.air)) 0 + s.rd Reg.rf_pa_lead_us t * 1000

/-- On the air at `now`. -/
def Rf.sending (r : Rf) (now : Nat) : Bool := r.txs.any fun x => decide (x.start ≤ now ∧ now < x.start + x.air)

/-- Put a transmission on the transceiver's list and charge its airtime; a push then leaves. -/
def State.rfPut (s : State) (t : TileId) (x : RTx) (kind : Nat) : State :=
  let at_ := x.start + 3600 * 1000000000
  let s := match s.rfBandOf t x.chan with
    | some (i, _) => s.onRf t fun r => r.charge i (at_ / 10000000000) x.air (if 2 ≤ kind then x.air else 0)
    | none => s
  let s := s.onRf t fun r =>
    { r with txs := r.txs ++ [x], air := r.air + x.air
             dwell := Tbl.put r.dwell x.chan (((Tbl.get r.dwell x.chan).getD []) ++ [(at_ / 100000000, x.air)]) }
  let s := s.wr Reg.rf_airtime_ms t ((s.rf t).air / 1000000)
  match x.item with
  | some p => s.pushLeft t x.slot p.inv p.kind
  | none => s

/-- RF_TRSW is high from 20 µs before the first RF_PAEN to 20 µs after the last, RF_PAEN while a frame is sent. -/
def State.rfPins (s : State) (t : TileId) : State :=
  s.onVol t fun v => { v with drive := { v.drive with trsw := v.rf.txs.any fun x => decide (1 ≤ x.step), paen := v.rf.txs.any fun x => decide (x.step = 2) } }

/-- A transmission has ended: an answered pending frame leaves its queue; a unicast CSMA frame waits 2 ms for its acknowledgement. A frame that was cut is
not counted as sent. -/
def State.rfSent (s : State) (t : TileId) (x : RTx) : State :=
  let s := if x.what = 4 then s else s.bump Reg.rf_frames_tx t
  match x.what, x.item with
  | 1, some p => s.onRf t fun r => { r with neigh := Tbl.upd r.neigh x.slot fun n => { n with pend := n.pend.erase p } }
  | 2, some p =>
    if x.slot = 2 ^ 22 then s.onRf t fun r => { r with sendq := r.sendq.erase (x.slot, p) }
    else s.onRf t fun r => { r with wait := some (fld x.psdu 2 1, x.start + x.air + 2000000, x.slot, p) }
  | _, _ => s

/-- The neighbour entry of a meter. -/
def State.rfNeigh (s : State) (t : TileId) (slot : Nat) : RNeigh :=
  (Tbl.get (s.rf t).neigh slot).getD { chan := 0, rssi := 0, pollAt := none, phw := (s.meter t slot).fcUpHw, pend := [] }

/-- Change a neighbour entry, making it. -/
def State.onRNeigh (s : State) (t : TileId) (slot : Nat) (f : RNeigh → RNeigh) : State :=
  s.onRf t fun r => { r with neigh := Tbl.put r.neigh slot (f (s.rfNeigh t slot)) }

/-- The PSDU of a transmission at its start. An answer to a poll is formed here: the frame chosen at the poll, or NONE, with frame pending set when the
meter's queue holds a further frame; beside NONE, one that has come since the poll (R354, R362). -/
def State.rfForm (s : State) (t : TileId) (x : RTx) : State × Option Bytes :=
  let n := s.rfNeigh t x.slot
  match x.what, x.item with
  | 1, some p => s.rfData t x.slot (decide (n.pend.erase p ≠ [])) false p.apdu
  | 3, _ => s.rfData t x.slot (n.pend.any fun p => n.pollAt.any fun a => decide (a < p.at_)) false []
  | _, _ => (s, some x.psdu)

/-- The next edge of a transmission, when it is due. An answer that can no longer be protected is not sent (R353). -/
def State.rfEdge (s : State) (t : TileId) (x : RTx) : State :=
  let lead := s.rd Reg.rf_pa_lead_us t * 1000
  let to_ := fun (s : State) (k : Nat) => s.onRf t fun r => { r with txs := r.txs.map fun y => if y = x then { x with step := k } else y }
  let gone := fun (s : State) => s.onRf t fun r => { r with txs := r.txs.erase x }
  match x.step with
  | 0 => if x.start ≤ s.now + lead + 20000 then to_ s 1 else s
  | 1 =>
    if s.now + lead < x.start then s
    else if s.pier.pfail then gone s
    else
      let f := s.rfForm t x
      match f.2 with
      | some psdu => (to_ f.1 2).emit (.rf t x.chan (s.rdI Reg.rf_tx_power t) (rfPpdu (s.rd Reg.rf_preamble_octets t) psdu))
      | none => (gone f.1).bump Reg.rf_poll_missed t
  | 2 => if x.start + x.air ≤ s.now then to_ s 3 else s
  | _ => if x.start + x.air + 20000 ≤ s.now then (gone s).rfSent t x else s

/-- Every edge that is due, of every transmission. -/
def State.rfAdvance (s : State) (t : TileId) : State :=
  if (s.rf t).txs = [] then s
  else ((List.range 4).foldl (fun s _ => (s.rf t).txs.foldl (fun s x => s.rfEdge t x) s) s).rfPins t

/-- An acknowledgement, 1 000 µs after the frame. One that its limit holds is not sent. -/
def State.rfAck (s : State) (t : TileId) (ch seq : Nat) : State :=
  let b := rfControl 2 false false false ++ natLE 1 seq
  let psdu := b ++ rfFcs b
  let air := s.rfAir t psdu.length
  let start := s.now + 1000000
  if start < s.rfFreeAt t then s
  else if !s.rfDutyOk t ch 0 air then s.bump Reg.rf_duty_held t
  else if !s.rfDwellOk t ch air then s.bump Reg.rf_dwell_held t
  else s.rfPut t { start := start, air := air, step := 0, chan := ch, psdu := psdu, what := 0, slot := 0, item := none } 0

/-! ### Reception (R341, R346, R347, R351) -/

/-- A received frame that is not discarded. -/
structure RfIn where
  type : Nat
  sec : Bool
  ar : Bool
  bcast : Bool
  seq : Nat
  src : Nat
  mhr : Bytes
  body : Bytes
  deriving DecidableEq, Repr

/-- Receive a PSDU on a channel: nothing while the transceiver is off, transmits, or does not listen there; the discards of R346. An acknowledgement has no
addresses. A frame with PAN identifier compression, without a sequence number or with information elements is no frame of R345 and is discarded too, and so
is a secured data frame with another key identifier mode than 1 or without its frame counter (DEDUCED, notes/assumptions/19.md). -/
def State.rfRx (s : State) (t : TileId) (ch : Nat) (psdu : Bytes) : State × Option RfIn :=
  let n := psdu.length
  let b := psdu.take (n - 4)
  let fc := fld b 0 2
  if !(s.rf t).up ∨ (s.rf t).sending s.now ∨ !(s.rfSet t).contains ch ∨ 2047 < n then (s, none)
  else if n < 7 ∨ psdu.drop (n - 4) ≠ rfFcs b then (s.bump Reg.rf_rx_discard t, none)
  else
    let s := s.bump Reg.rf_frames_rx t
    let x : RfIn := { type := fc % 8, sec := bit fc 3, ar := bit fc 5, bcast := decide (fld b 5 8 = 2 ^ 64 - 1), seq := fld b 2 1, src := fld b 13 8
                      mhr := b.take 21, body := b.drop 21 }
    let plain := decide (fc / 2 ^ 12 % 4 = 2) && !bit fc 6 && !bit fc 8 && !bit fc 9
    if !plain ∨ fc / 2 ^ 10 % 4 ≠ 3 ∨ fc / 2 ^ 14 ≠ 3 ∨ (fc % 8 = 1 ∧ bit fc 3 = true ∧ fld b 21 1 / 8 ≠ 1) then (s.bump Reg.rf_rx_discard t, none)
    else if fc % 8 = 2 ∧ n = 7 then (s, some x)
    else if n < 25 ∨ fld b 3 2 ≠ (s.vol t).radio.pan ∨
        (fld b 5 8 ≠ (s.vol t).radio.eui ∧ fld b 5 8 ≠ 2 ^ 64 - 1) then (s.bump Reg.rf_rx_discard t, none)
    else (s, some x)

/-- The PATH 1 meter in service with an EUI-64. -/
def State.rfMeter (s : State) (t : TileId) (eui : Nat) : Option Nat :=
  match ((s.vol t).meters.lookup 1 eui).map midxSlot with
  | some slot => if (s.meter t slot).state = 1 ∧ (s.meter t slot).path = 1 then some slot else none
  | none => none

/-- A meter is SLEEPY. -/
def State.rfSleepy (s : State) (t : TileId) (n : RNeigh) : Bool :=
  n.pollAt.any fun a => decide (s.now ≤ a + s.rd Reg.rf_sleepy_hold_s t * 1000000000)

/-- A data frame or an acknowledgement is received. It ends now; its ARRIVAL is the end of its SFD (R425). -/
def rfFrameRx (t : TileId) (ch : Nat) (rssi : Int) (psdu : Bytes) (s : State) : State :=
  let r := s.rfRx t ch psdu
  match r.2 with
  | none => r.1
  | some x =>
    let s := r.1
    if x.type = 2 then
      match (s.rf t).wait with
      | some (seq, until_, slot, p) =>
        if seq = x.seq ∧ s.now ≤ until_ then s.onRf t fun r => { r with wait := none, sendq := r.sendq.erase (slot, p) } else s
      | none => s
    else if x.type ≠ 1 then s
    else
      let slot := s.rfMeter t x.src
      let s := match slot with
        | some i => s.onRNeigh t i fun n => { n with chan := ch, rssi := rssi }
        | none => s
      let s := if x.ar && !x.bcast then s.rfAck t ch x.seq else s
      let f : Frame :=
        { source := 4, addrKind := 1, satId := 0xFFFF, forceOld := false, rfSecured := x.sec, entry := 0, addr := x.src
          arrival := s.whenNs t - (2 + psdu.length) * 8 * 1000000000 / rfBitRate (s.vol t).radio.rate, envSeq := 0, aad := if x.sec then x.mhr else [], apdu := x.body, env := 0 }
      if s.isEphRsp t f then s.swSend t 4 6 1 (.eph f)
      else ((s.swCount t 4 2 x.body x.body.length).toGather t 4 x.body.length [f]).1

/-- RF_FRAME_RX (R346). -/
def execRfFrameRx (t : TileId) (ch : Nat) (rssi : Int) (psdu : Bytes) (s : State) : Host.Outcome State Fault Refusal :=
  finish (rfFrameRx t ch rssi psdu) s

/-! ### Polls (R352 to R354) -/

/-- A poll that is accepted: the meter's slot and the counter. -/
def State.pollCheck (s : State) (t : TileId) (x : RfIn) : State × Option (Nat × Nat) :=
  match s.rfMeter t x.src with
  | none => (s, none)
  | some slot =>
    let m := s.meter t slot
    let level := fld x.body 0 1 % 8
    let fc := fld x.body 1 4
    if !x.sec ∨ level < 5 ∨ fld x.body 0 1 / 8 ≠ 1 ∨ x.body.length ≠ 7 + micLen level ∨ fld x.body 5 1 ≠ m.rfKeyId ∨ !bit m.keyMap 2 ∨
        fc ≤ m.fcUpHw ∨ fc ≤ (s.rfNeigh t slot).phw then (s, none)
    else
      let k := s.sessionKey t (s.midxOf t slot) 2 0
      match k.2 with
      | .error _ => (k.1, none)
      | .ok key =>
        let aux := x.body.take 6
        match ccmOpen key (natBE 8 x.src ++ natBE 4 fc ++ natBE 1 level) (x.mhr ++ aux) ((x.body.drop 6).take 1) (x.body.drop 7) with
        | some [4] => (k.1, some (slot, fc))
        | _ => (k.1, none)

/-- Mark and count the holds of a pending frame: by R359, by R360; each once. -/
def State.pendHeld (s : State) (t : TileId) (slot : Nat) (duty dwell : Bool) (p : RPend) : State :=
  let q := { p with dutyHeld := p.dutyHeld || duty, dwellHeld := p.dwellHeld || dwell }
  let s := s.onRNeigh t slot fun n => { n with pend := n.pend.map fun x => if x = p then q else x }
  (s.bump Reg.rf_duty_held t 0 (b2n q.dutyHeld - b2n p.dutyHeld)).bump Reg.rf_dwell_held t 0 (b2n q.dwellHeld - b2n p.dwellHeld)

/-- The duty budget of a channel and R339 allow a frame to a meter; dwell does. -/
def State.pendDuty (s : State) (t : TileId) (ch slot : Nat) (p : RPend) : Bool :=
  s.rfDutyOk t ch p.kind (s.rfAir t (s.rfLen t slot p.apdu.length))
def State.pendDwell (s : State) (t : TileId) (ch slot : Nat) (p : RPend) : Bool :=
  s.rfDwellOk t ch (s.rfAir t (s.rfLen t slot p.apdu.length))

/-- Secured frames to a meter can be sent: its counter and its key can be used. -/
def State.rfKeyOk (s : State) (t : TileId) (slot : Nat) : State × Bool :=
  let c := s.rfCounter t
  if c.2 then
    let k := c.1.sessionKey t (s.midxOf t slot) 2 0 1
    (k.1, match k.2 with | .ok _ => true | .error _ => false)
  else (c.1, false)

/-- Answer an accepted poll on its channel: its first pending frame that R359 allows, or NONE. The PSDU is formed when the answer starts. -/
def State.pollAnswer (s : State) (t : TileId) (ch slot : Nat) : State :=
  let start := max (s.now + 1000000) (s.rfFreeAt t)
  let miss := fun (s : State) => s.bump Reg.rf_poll_missed t
  let key := s.rfKeyOk t slot
  if s.now + 1500000 < start then miss s
  else if !key.2 then miss key.1
  else
    let s := key.1
    let q := (s.rfNeigh t slot).pend.filter fun p => s.rfFits t slot p
    let s := s.each (q.takeWhile fun p => !s.pendDuty t ch slot p) fun x p => x.pendHeld t slot true false p
    let put := fun (s : State) (n what kind : Nat) (item : Option RPend) =>
      s.rfPut t { start := start, air := s.rfAir t (s.rfLen t slot n), step := 0, chan := ch, psdu := [], what := what, slot := slot, item := item } kind
    match q.find? fun p => s.pendDuty t ch slot p with
    | some p => if s.pendDwell t ch slot p then put s p.apdu.length 1 p.kind (some p) else miss (s.pendHeld t slot false true p)
    | none =>
      let a := s.rfAir t (s.rfLen t slot 0)
      if s.rfDutyOk t ch 0 a && s.rfDwellOk t ch a then put s 0 3 0 none else miss s

/-- A poll is received. -/
def rfPoll (t : TileId) (ch : Nat) (rssi : Int) (psdu : Bytes) (s : State) : State :=
  let r := s.rfRx t ch psdu
  match r.2 with
  | none => r.1
  | some x =>
    if x.type ≠ 3 then r.1
    else
      let c := r.1.pollCheck t x
      match c.2 with
      | none => c.1.bump Reg.rf_poll_refused t
      | some (slot, fc) =>
        let s := c.1.onRNeigh t slot fun n => { n with chan := ch, rssi := rssi, pollAt := some c.1.now, phw := fc }
        (s.bump Reg.rf_polls t).pollAnswer t ch slot

/-- RF_POLL (R353). -/
def execRfPoll (t : TileId) (ch : Nat) (rssi : Int) (psdu : Bytes) (s : State) : Host.Outcome State Fault Refusal :=
  finish (rfPoll t ch rssi psdu) s

/-! ### Downlink (R355, R356) -/

/-- Frames pending in all queues. -/
def Rf.pending (r : Rf) : Nat := (r.neigh.map fun e => e.2.pend.length).sum

/-- Put a frame into a pending queue (R355): false when a frame was dropped. -/
def pendPut (q : List RPend) (p : RPend) (room : Bool) : List RPend × Bool :=
  if 8 ≤ p.inv ∧ (q.any fun x => decide (x.inv = p.inv)) = true then (q.map fun x => if x.inv = p.inv then p else x, true)
  else if q.length < 4 ∧ room then (q ++ [p], true)
  else
    let l := q ++ [p]
    let worst := l.foldl (fun k x => max k x.kind) 0
    match l.find? fun x => decide (x.kind = worst) with
    | some x => (l.erase x, false)
    | none => (l, false)

/-- The channel of a CSMA frame (R356), always one of the receive set (R341). -/
def State.rfChannel (s : State) (t : TileId) (slot : Nat) : Nat :=
  match Tbl.get (s.rf t).neigh slot with
  | some n => if (s.rfSet t).contains n.chan then n.chan else s.rfBestChannel t
  | none => s.rfBestChannel t

/-- A frame that has entered a pending queue and that the budget of the meter's channel holds is counted there and then (R359). -/
def State.rfQueued (s : State) (t : TileId) (slot : Nat) (p : RPend) : State :=
  s.pendHeld t slot ((s.rfNeigh t slot).pend.contains p && !s.pendDuty t (s.rfChannel t slot) slot p) false p

/-- Take the frames that the switch core has handed over. -/
def State.rfTake (s : State) (t : TileId) : State :=
  let l := (Tbl.get (s.sw t).unit 4).getD []
  let s := s.onSw t fun w => { w with unit := Tbl.del w.unit 4 }
  l.foldl (fun s f => match f.body with
    | .mac midx kind inv apdu =>
      let slot := if midx = allMeters then 2 ^ 22 else midxSlot midx
      let p : RPend := { apdu := apdu, kind := kind, inv := inv, at_ := s.now, tries := 0, dutyHeld := false, dwellHeld := false }
      let send := fun (s : State) => s.onRf t fun r => { r with sendq := r.sendq ++ [(slot, p)] }
      if !s.rfFits t slot p then s
      else match Tbl.get (s.rf t).neigh slot with
        | some n =>
          if s.rfSleepy t n then
            let r := pendPut n.pend p (decide ((s.rf t).pending < 16384))
            let s := (s.onRNeigh t slot fun n => { n with pend := r.1 }).rfQueued t slot p
            if r.2 then s else s.bump Reg.rf_pending_dropped t
          else send s
        | none => send s
    | _ => s) s

/-- One more attempt of a CSMA frame has failed: after 3 it is dropped. -/
def State.rfRetry (s : State) (t : TileId) (slot : Nat) (p : RPend) : State :=
  s.onRf t fun r =>
    { r with wait := none
             sendq := if p.tries + 1 < 3 then r.sendq.map fun x => if x = (slot, p) then (slot, { p with tries := p.tries + 1 }) else x
               else r.sendq.erase (slot, p) }

/-- Mark holds of CSMA frames and count them. -/
def State.markHeld (s : State) (t : TileId) (x : Nat × RPend) : State :=
  let ch := s.rfChannel t x.1
  let a := s.rfAir t (s.rfLen t x.1 x.2.apdu.length)
  let d := !s.rfDutyOk t ch x.2.kind a && !x.2.dutyHeld
  let w := !s.rfDwellOk t ch a && !x.2.dwellHeld
  let s := if d then s.bump Reg.rf_duty_held t else s
  let s := if w then s.bump Reg.rf_dwell_held t else s
  if d || w then s.onRf t fun r => { r with sendq := r.sendq.map fun y =>
    if y = x then (x.1, { x.2 with dutyHeld := x.2.dutyHeld || d, dwellHeld := x.2.dwellHeld || w }) else y } else s

/-- The first CSMA frame that its limits allow, by precedence. -/
def State.rfNext (s : State) (t : TileId) : Option (Nat × RPend) :=
  (List.range 4).findSome? fun k => (s.rf t).sendq.find? fun x => decide (x.2.kind = k) && s.rfFits t x.1 x.2 &&
    (let ch := s.rfChannel t x.1
     let a := s.rfAir t (s.rfLen t x.1 x.2.apdu.length)
     s.rfDutyOk t ch x.2.kind a && s.rfDwellOk t ch a)

/-- RF_DOWNLINK: frames go to the pending queues or are sent by CSMA/CA; `fail`: the channel could not be accessed. -/
def rfDownlink (t : TileId) (fail : Bool) (s : State) : State :=
  if !(s.rf t).up then s
  else
    let s := (s.rfAdvance t).rfTake t
    let s := match (s.rf t).wait with
      | some (_, until_, slot, p) => if until_ < s.now then s.rfRetry t slot p else s
      | none => s
    if (s.rf t).txs ≠ [] ∨ (s.rf t).wait.isSome ∨ s.pier.pfail = true then s
    else
      let s := (s.rf t).sendq.foldl (fun s x => s.markHeld t x) s
      match s.rfNext t with
      | none => s
      | some (slot, p) =>
        if fail then (s.bump Reg.rf_csma_fail t).rfRetry t slot p
        else
          let ch := s.rfChannel t slot
          let d := s.rfData t slot false (decide (slot ≠ 2 ^ 22)) p.apdu
          match d.2 with
          | none => d.1
          | some psdu =>
            let start := s.now + s.rd Reg.rf_pa_lead_us t * 1000 + 20000
            (d.1.rfPut t { start := start, air := d.1.rfAir t psdu.length, step := 0, chan := ch, psdu := psdu, what := 2, slot := slot, item := some p }
              p.kind).rfAdvance t

/-- RF_DOWNLINK (R355). -/
def execRfDownlink (t : TileId) (fail : Bool) (s : State) : Host.Outcome State Fault Refusal := finish (rfDownlink t fail) s

/-- PENDING_EXPIRE: frames older than `tile.rf.pending_ttl_s` leave the queue of a meter. -/
def pendingExpire (t : TileId) (slot : Nat) (s : State) : State :=
  match Tbl.get (s.rf t).neigh slot with
  | some n =>
    let ttl := s.rd Reg.rf_pending_ttl_s t * 1000000000
    let keep := n.pend.filter fun p => decide (s.now < p.at_ + ttl)
    (s.onRNeigh t slot fun n => { n with pend := keep }).bump Reg.rf_pending_expired t 0 (n.pend.length - keep.length)
  | none => s

/-- PENDING_EXPIRE (R355). -/
def execPendingExpire (t : TileId) (slot : Nat) (s : State) : Host.Outcome State Fault Refusal := finish (pendingExpire t slot) s

/-- RF_COLLECTION: a request for an interval that is late by `tile.rf.pull_after_s`, then for open holes. -/
def rfCollection (t : TileId) (slot : Nat) (s : State) : State :=
  let m := s.meter t slot
  let due := decide (m.lastTend + m.idur + s.rd Reg.rf_pull_after_s t ≤ s.timeSec t)
  if !(s.rf t).up ∨ !s.hasTime t ∨ m.state ≠ 1 ∨ m.path ≠ 1 ∨ m.idur = 0 then s
  else match s.collectWhat t (s.rf t).collect slot (s.rd Reg.rf_rows_per_request t) (decide (s.rd Reg.rf_fill_holes t = 1)) due false with
    | none => s
    | some q =>
      let r := s.collectSend t 4 slot (s.rf t).collect q
      r.1.onRf t fun p => { p with collect := r.2 }

/-- RF_COLLECTION (R357). -/
def execRfCollection (t : TileId) (slot : Nat) (s : State) : Host.Outcome State Fault Refusal := finish (rfCollection t slot) s

/-! ### Buckets (R359 to R361) -/

/-- DUTY_BUCKET: the totals of the completed buckets of every enabled band go to the mirror stream. -/
def dutyBucket (t : TileId) (s : State) : State :=
  let cur := s.rfNow / 10000000000
  let first := max (s.rf t).mirrored (cur - 360)
  if !(s.rf t).up then s
  else
    let s := ((List.range (cur - first)).map (first + ·)).foldl (fun s b =>
      ((List.range 4).filter fun i => (s.rfBand t i).2.2.2).foldl (fun s i =>
        let v := (Tbl.get ((s.rf t).bands.getD i []) b).getD (0, 0)
        s.mirror t (.duty i b v.1 v.2)) s) s
    s.onRf t fun r => { r with mirrored := cur, bands := r.bands.map fun m => m.filter fun x => decide (cur < x.1 + 360) }

/-- DUTY_BUCKET (R359). -/
def execDutyBucket (t : TileId) (s : State) : Host.Outcome State Fault Refusal := finish (dutyBucket t) s

/-- DWELL_BUCKET: the buckets of a channel that have left its window are dropped. -/
def dwellBucket (t : TileId) (ch : Nat) (s : State) : State :=
  let b := s.rfNow / 100000000
  s.onRf t fun r => match Tbl.get r.dwell ch with
    | some l => { r with dwell := Tbl.put r.dwell ch (l.filter fun x => decide (b < x.1 + 10 * s.rd Reg.rf_dwell_window_s t)) }
    | none => r

/-- DWELL_BUCKET (R360). -/
def execDwellBucket (t : TileId) (ch : Nat) (s : State) : Host.Outcome State Fault Refusal := finish (dwellBucket t ch) s

/-! ### What the settings allow (R340, R341, R358) -/

/-- A custom grid of R340 for a rate. -/
def customGridOk (b : Bytes) (rate : Nat) : Bool :=
  let n := fld b 6 2
  decide (470000 ≤ fld b 0 4) && decide (fld b 0 4 + (n - 1) * fld b 4 2 ≤ 960000) && decide (rfSpacing rate ≤ fld b 4 2)

/-- A receive base of R341 for the regime and rate set. -/
def State.rxBaseOk (s : State) (t : TileId) (base regime rate : Nat) : Bool :=
  let g := rfGridOf regime (rfSpacing rate) (s.rdAll Reg.rf_custom_grid t)
  decide (g.2.2 < rfSetSize g.2.1) || decide (base + rfSetSize g.2.1 ≤ g.2.2)

/-- A duty band of R358 at place `i`, beside the others. -/
def State.dutyBandOk (s : State) (t : TileId) (i : Nat) (b : Bytes) : Bool :=
  let lo := fld b 0 4
  let hi := fld b 4 4
  decide (lo < hi) && decide (1 ≤ fld b 8 2 ∧ fld b 8 2 ≤ 10000) && decide (fld b 10 1 ≤ 1) && decide (fld b 11 1 = 0) &&
  (decide (fld b 10 1 = 0) || (List.range 4).all fun j =>
    let o := s.rfBand t j
    decide (j = i) || !o.2.2.2 || decide (hi ≤ o.1 ∨ o.2.1 ≤ lo))

end Sys2Proof.Machine
end

