-- ==== Sys2Proof/Machine/Power.lean ====
section
/-! DEFINITION. Power.lean: chapter 16: domain states, entry, waking, the regulators, the energy limits and PFAIL_N. One step of an
entry is taken per clock tick (notes/assumptions/20.md). -/

namespace Sys2Proof.Machine

/-! ### Refusals and aborts (R532) -/

/-- A refused or abandoned entry. -/
def State.refuseEntry (s : State) (t : TileId) (target refuser step requester : Nat) : State :=
  (s.bump Reg.power_refused t refuser).wrB Reg.power_last_refusal t 0
    (time80 s.pierNs ++ natLE 1 target ++ natLE 1 refuser ++ natLE 1 step ++ natLE 1 requester ++ [0, 0])

/-! ### Waking (R530, R432) -/

/-- The Pier stops the REFCLK count: Meridian's retained time advances by the count × 40 ns, corrected, and goes on from here. -/
def State.stopCount (s : State) (t : TileId) : State :=
  match (s.tile t).power.countFrom with
  | none => s
  | some x =>
    let n := (s.now - x) / 40
    let s := s.onPower t fun p => { p with countFrom := none, refclkCount := n }
    s.onMer t fun m => m.load s.now (m.time x + (n * 40 : Nat) + (n * 40 : Nat) * m.freq / 1000000000)

/-- A re-step came while the tile was not in RUN: it discards its carried time and enters UNSET (R438). -/
def State.discardTime (s : State) (t : TileId) : State :=
  let s := (s.setMer t 0).onMer t fun _ => Mer.init s.now
  (s.wr Reg.time_source_now t 0).wr Reg.time_restep_pending t 0

/-- W4: the tile is in RUN; frames that the hub holds go on; a tile that was LOCKED resumes in HOLDOVER. -/
def State.wakeDone (s : State) (t : TileId) : State :=
  let s := s.stopCount t
  let s := s.onPower t fun p => { p with step := 0, wakeUp := false, hubHold := false, locked := false, orderAt := none }
  let s := (s.setPwr t .run).bump Reg.power_wakes t
  let s := if s.rd Reg.time_restep_pending t = 1 then s.discardTime t
    else if s.rd Reg.time_state t = 2 ∧ 2 ≤ (s.vol t).boot.step then s.setMer t 3 else s
  let s := s.onMer t fun m => { m with freqAt := s.now }
  s.followTile t

/-- WAKE: W3 and W4 are over. -/
def wake (t : TileId) (s : State) : State :=
  let p := (s.tile t).power
  if p.st = .waking ∧ 2 ≤ p.step then s.wakeDone t else s

/-- A wake event (R526): it abandons an entry at its next abort point, or wakes a tile in HOLD or RETAIN, which is counted for a standby. An isolation by the Punty has no
abort point (R527). In DEGRADED a tile in RETAIN gets no wake order (R23). -/
def State.wakeEvent (s : State) (t : TileId) : State :=
  let p := (s.tile t).power
  if p.st = .entering then (if p.requester = 2 then s else s.onPower t fun p => { p with wakeUp := true })
  else
    let s := if (p.st = .hold ∨ (p.st = .retain ∧ s.pier.degraded = false)) ∧ s.standbyOf (bayOf t) = some t then s.bump Reg.bay_mirror_wakes (bayOf t) else s
    s.orderWake t 3

/-- WAKE_EVENT (R526). -/
def execWakeEvent (t : TileId) (s : State) : Host.Outcome State Fault Refusal := finish (fun s => s.wakeEvent t) s

/-! ### Entry (R524 to R529) -/

/-- A Trakmer request or EXEC to the tile is in progress. -/
def State.hubBusy (s : State) (t : TileId) : Bool :=
  (s.pier.hub.execs.any fun x => decide (x.target = t.val)) || s.pier.hub.sets.any fun x => decide (x.tile = t.val)

/-- The tile's hub buffer, mirror FIFO or a VOQ holds an item (condition 5). The mirror FIFO is the bay's, and only its standby takes from it. -/
def State.queuesHold (s : State) (t : TileId) : Bool :=
  (s.pier.hub.waits.any fun x => decide (x.target = t.val)) ||
  (decide (s.standbyOf (bayOf t) = some t) && decide ((s.bay (bayOf t)).fifo.fill_ ≠ 0)) ||
  !(s.vol t).sw.voqs.isEmpty || !(s.vol t).sw.waiting.isEmpty

/-- The first condition of R525 that holds; PFAIL_N low refuses every entry (R547). -/
def State.entryRefuser (s : State) (t : TileId) (target : Nat) (forced : Bool) : Option Nat :=
  if s.pier.degraded ∨ s.pier.pfail = true then some 4
  else if s.legalRuns t then some 3
  else if target ≤ 2 ∧ s.rd Reg.bay_mirror_sync (bayOf t).val ≠ 0 then some 2
  else if s.rd Reg.power_keep_run t = 1 ∨ s.hubBusy t = true then some 5
  else if s.queuesHold t = true ∧ !forced then some 0
  else none

/-- Request an entry from RUN: E1. -/
def State.requestEntry (s : State) (t : TileId) (target requester : Nat) : State :=
  let forced := decide (requester = 1) && decide (s.rd Reg.power_force t = 1)
  match s.entryRefuser t target forced with
  | some r => s.refuseEntry t target r 1 requester
  | none =>
    (s.setPwr t .entering).onPower t fun p => { p with target := target, requester := requester, step := 1, wakeUp := false, forced := forced }

/-- An entry ends without reaching its target; the completed steps are undone. -/
def State.abandonEntry (s : State) (t : TileId) (refuser step : Nat) : State :=
  let p := (s.tile t).power
  let s := s.refuseEntry t p.target refuser step p.requester
  let s := s.onPower t fun p => { p with step := 0, wakeUp := false, forced := false, hubHold := false }
  (s.setPwr t .run).followTile t

/-- A forced entry discards what the hub holds for the tile and its VOQs (R527). -/
def State.forceFlush (s : State) (t : TileId) : State :=
  let w := (s.vol t).sw
  let n := (s.pier.hub.waits.countP fun x => decide (x.target = t.val)) + (w.voqs.map fun e => e.2.length).sum + w.waiting.length
  let s := s.onPier fun p => { p with hub := { p.hub with waits := p.hub.waits.filter fun x => decide (x.target ≠ t.val) } }
  let free := fun (w : Switch) (e : Nat × List SwFrame) => e.2.foldl (fun w f => w.release (e.1 / 32) f.cells f.shared) w
  let s := s.onVol t fun v => { v with sw := { w.voqs.foldl free w with voqs := [], waiting := [] } }
  if n = 0 then s else s.bump Reg.power_forced_flush t 0 n

/-- The open journal page goes to the FTL (E2, R70). -/
def State.closeJournal (s : State) (t : TileId) : State :=
  let m := (s.vol t).meters
  if m.jPage = [] then s
  else (s.onMeters t fun m => { m with jPage := [], jFirst := none }).queueJob t (.journal m.jPage)

/-- Every FTL program and erase is finished. -/
def Media.idle (m : Media) : Bool := m.jobs.isEmpty && !m.busy && decide (m.countSt .erasing = 0)

/-- The target of an entry is reached. OFF is reached through ISOLATED: OPERATION off (R522). -/
def State.reachTarget (s : State) (t : TileId) : State :=
  let p := (s.tile t).power
  let s := s.onPower t fun p => { p with step := 0, forced := false, locked := decide (3 ≤ p.target) }
  let s := match p.target with
    | 1 => s.setPwr t .hold
    | 2 => s.setPwr t .retain
    | 3 => s.setPwr t .isolated
    | _ => ((s.pmbus 2 t 0x01 0).setPwr t .off).onPower t fun p => { p with countFrom := none, railMv := 0 }
  (s.bump Reg.power_entries t).followTile t

/-- One step of an entry under way: E2 to E5 with the abort points before them. An entry under way when the Pier enters DEGRADED goes on: one to HOLD completes, and one
whose PMBus command is dropped stays unacknowledged, as a wake does (DESIGN CHOICE, notes/assumptions/33.md). -/
def State.entryStep (s : State) (t : TileId) : State :=
  let p := (s.tile t).power
  if p.st ≠ .entering then s
  else match p.step with
    | 1 =>
      if p.wakeUp then s.abandonEntry t 1 0x11
      else
        let s := s.onPower t fun p => { p with step := 2, hubHold := true }
        let s := if p.forced then s.forceFlush t else s
        s.closeJournal t
    | 2 =>
      if !(s.tile t).media.idle then (if p.since + 5000000 ≤ s.now then s.abandonEntry t 6 2 else s)
      else if p.wakeUp then s.abandonEntry t 1 0x12
      else s.onPower t fun p => { p with step := 3 }
    | 3 => if p.wakeUp then s.abandonEntry t 1 0x13 else s.onPower t fun p => { p with step := 4 }
    | 4 =>
      if p.wakeUp then s.abandonEntry t 1 0x14
      else if p.target = 1 then (s.onPower t fun p => { p with countFrom := some s.now }).reachTarget t
      else
        let s := s.onPower t fun p => { p with step := 5, countFrom := some s.now, locked := decide (3 ≤ p.target) }
        s.pmbus (if 3 ≤ p.target then 2 else 4) t 0x21 500
    | _ => s

/-- The roles that R520 permits for a state (0 RUN, 1 HOLD, 2 RETAIN, 3 ISOLATED, 4 OFF). -/
def rolePermits (role target : Nat) : Bool :=
  match role, target with
  | 1, _ => true
  | 4, t => decide (3 ≤ t)
  | _, t => decide (t = 0)

/-- `tile.power.request` (R520, R522). A state held already is answered OK; a request while an entry or a wake is under way BUSY; from HOLD or RETAIN the rail falls to ISOLATED
or RETAIN without E2 to E4; any other move between states that are not RUN has no path and is answered CONFLICT (notes/assumptions/20.md). In DEGRADED every
entry is refused, and the role and the state stay (R22, R23). -/
def powerRequest (t : TileId) (target : Nat) (s : State) : State × Status :=
  let p := (s.tile t).power
  if 4 < target then (s, .invalid)
  else if !rolePermits (s.role t) target then (s, .conflict)
  else if target = 0 then
    (match p.st with
     | .run => (s, .ok)
     | .entering => (s.wakeEvent t, .ok)
     | .waking => (s, .ok)
     | .hold => (s.wakeEvent t, .ok)
     | .retain => (s.wakeEvent t, .ok)
     | _ => (s, .conflict))
  else if p.st.code = target then (s, .ok)
  else if p.st = .entering ∨ p.st = .waking then (s, .busy)
  else if p.st = .off ∨ (p.st = .isolated ∧ target ≠ 4) ∨ (p.st = .retain ∧ target = 1) then (s, .conflict)
  else if s.pier.degraded then (s.refuseEntry t target 4 1 1, .ok)
  else
    let s := if 3 ≤ target ∧ s.role t = 1 then (s.setRole t 4).alarm (bayOf t) 0 true else s
    let s := if 3 ≤ target then s.linkUpdate (bayOf t) else s
    match p.st with
    | .run => (s.requestEntry t target 1, .ok)
    | .isolated => ((s.onPower t fun p => { p with target := 4 }).reachTarget t, .ok)
    | _ =>
      match s.entryRefuser t target (decide (s.rd Reg.power_force t = 1)) with
      | some r => (s.refuseEntry t target r 1 1, .ok)
      | none =>
        let s := (s.setPwr t .entering).onPower t fun p =>
          { p with target := target, requester := 1, step := 5, wakeUp := false, countFrom := some (p.countFrom.getD s.now), locked := decide (3 ≤ target) }
        (s.pmbus (if 3 ≤ target then 2 else 4) t 0x21 500, .ok)

/-- A request and its answer. -/
def powerAnswer (t : TileId) (target : Nat) (s : State) : State :=
  let r := powerRequest t target s
  r.1.answer t r.2

/-- POWER_REQUEST_RUN (R522). -/
def execPowerRequestRun (t : TileId) (s : State) : Host.Outcome State Fault Refusal := finish (powerAnswer t 0) s

/-- POWER_REQUEST_HOLD (R522). -/
def execPowerRequestHold (t : TileId) (s : State) : Host.Outcome State Fault Refusal := finish (powerAnswer t 1) s

/-- POWER_REQUEST_RETAIN (R522). -/
def execPowerRequestRetain (t : TileId) (s : State) : Host.Outcome State Fault Refusal := finish (powerAnswer t 2) s

/-- POWER_REQUEST_ISOLATED (R522). -/
def execPowerRequestIsolated (t : TileId) (s : State) : Host.Outcome State Fault Refusal := finish (powerAnswer t 3) s

/-- POWER_REQUEST_OFF (R522). -/
def execPowerRequestOff (t : TileId) (s : State) : Host.Outcome State Fault Refusal := finish (powerAnswer t 4) s

/-- Since when the archive-record rate of a bay has been below 80 per cent of `bay.mirror.stay_run_rate` (R497), none when it is not. -/
def State.rateLowSince (s : State) (b : BayId) : Option Nat :=
  let x := s.bay b
  match x.rateLow with
  | some n => some n
  | none => if x.rate.1 + 1000000000 ≤ s.now then some (x.rate.1 + 1000000000) else none

/-- A record drained counts into the rate of its second; a second that ends below 80 per cent of the rate begins the time below. -/
def State.rateCount (s : State) (b : BayId) : State :=
  let lim := 8 * s.rd Reg.bay_mirror_stay_run_rate b / 10
  s.onBay b fun x =>
    if s.now < x.rate.1 + 1000000000 then
      { x with rate := (x.rate.1, x.rate.2 + 1), rateLow := if lim ≤ x.rate.2 + 1 then none else x.rateLow }
    else
      let low := if x.rate.2 < lim then some (x.rateLow.getD x.rate.1) else none
      { x with rate := (s.now, 1), rateLow := if lim ≤ 1 then none else low }

/-- IDLE_ENTRY: the standby's firmware requests `tile.power.idle_state` once the FIFO is drained, its FTL has no program pending and the record rate allows it. -/
def idleEntry (t : TileId) (s : State) : State :=
  let b := bayOf t
  let low := match s.rateLowSince b with
    | some x => decide (x = 0) || decide (x + 10000000000 ≤ s.now)
    | none => false
  if s.role t = 1 ∧ s.inRun t = true ∧ 6 ≤ (s.vol t).boot.step ∧ (s.bay b).fifo.fill_ = 0 ∧ (s.tile t).media.idle = true ∧ low = true then
    s.requestEntry t (s.rd Reg.power_idle_state t) 0
  else s

/-- IDLE_ENTRY (R497, R521, R524). -/
def execIdleEntry (t : TileId) (s : State) : Host.Outcome State Fault Refusal := finish (idleEntry t) s

/-- ISOLATION: the Punty isolates a FAULTED tile (R485, R527). -/
def isolation (t : TileId) (s : State) : State := if s.role t = 4 then s.isolate t else s

/-- ISOLATION (R527). -/
def execIsolation (t : TileId) (s : State) : Host.Outcome State Fault Refusal := finish (isolation t) s

/-! ### The regulators (R529, R533 to R536) -/

/-- Bits of STATUS_WORD that stand for a fault: VOUT_OV, IOUT_OC, VIN_UV, TEMPERATURE, CML of PMBus 1.3 (PRESUMED, notes/assumptions/21.md). -/
def pmbFault : Nat := 0x3E

/-- READ_VOUT and STATUS_WORD show an acknowledgement of a setpoint. -/
def acknowledged (set mv status : Nat) : Bool :=
  decide (set ≤ mv + 15) && decide (mv ≤ set + 15) && decide (status &&& (0x0840 + pmbFault) = 0)

/-- The delay that an armed PMBUS_DELAY adds to an acknowledgement: class bit 0 entry, 1 wake (R633). -/
def State.pmbDelay (s : State) (t : TileId) (k : Nat) : Nat :=
  match s.bayArm (bayOf t) 1 with
  | some a => if bit a.p2 k then a.p1 * 1000 else 0
  | none => 0

/-- A reading of READ_VOUT and STATUS_WORD. -/
def State.readRail (s : State) (t : TileId) (mv status : Nat) : State :=
  (((s.onPower t fun p => { p with railMv := mv }).wr Reg.power_rail_mv t mv).wr Reg.device_pmbus_status 0 status t).bump
    Reg.device_pmbus_transactions 0 0 2

/-- The bay's promotion is raising this tile's rail: its transactions are of class 1, which no control delays. -/
def State.promoting (s : State) (t : TileId) : Bool :=
  match (s.bay (bayOf t)).promo with
  | some p => decide (p.dst = t.val)
  | none => false

/-- REGULATOR_ACK: the readings 50 µs apart show the setpoint (R535): an entry reaches its target, a wake its second step; a tile that is to boot (R604, R605) runs its boot
ROM and, being UNSET, has no re-step pending any more (R438), and the stagger before the next tile of the plan begins. Later than 1 ms after the command it counts as missing. -/
def regulatorAck (t : TileId) (mv status : Nat) (s : State) : State :=
  if s.pier.degraded ∨ !bit s.pier.present t ∨ !s.pier.up then s
  else
    let s := s.readRail t mv status
    let p := (s.tile t).power
    let late := fun (k : Nat) => decide (s.now < p.cmdAt + s.pmbDelay t k)
    let wait := if p.st = .entering then s.pmbDelay t 0 else if s.promoting t then 0 else s.pmbDelay t 1
    if !acknowledged p.setMv mv status ∨ p.cmdAt + wait + 1000000 < s.now then s
    else if p.st = .entering ∧ 5 ≤ p.step ∧ p.setMv = 500 then
      if p.target ≤ 2 ∧ late 0 = true then s
      else
        let s := s.reachTarget t
        if p.wakeUp ∧ p.target ≤ 2 then s.orderWake t 3 else s
    else if p.st = .waking ∧ p.step = 1 ∧ p.setMv = p.vrunMv ∧ (s.vol t).boot.step = 0 then
      let s := (s.onPower t fun p => { p with step := 0, orderAt := none, hubHold := false, locked := false, countFrom := none }).setPwr t .run
      let s := s.wr Reg.time_restep_pending t 0
      if s.pier.bootQueue.head? = some t.val then
        s.onPier fun x => { x with bootQueue := x.bootQueue.tail, bootAt := s.now + s.rd Reg.device_boot_stagger_us 0 * 1000 }
      else s
    else if p.st = .waking ∧ p.step = 1 ∧ p.setMv = p.vrunMv then
      if late 1 = true ∧ !s.promoting t then s else (s.onPower t fun p => { p with step := 2 }).stopCount t
    else s

/-- REGULATOR_ACK (R535). -/
def execRegulatorAck (t : TileId) (mv status : Nat) (s : State) : Host.Outcome State Fault Refusal := finish (regulatorAck t mv status) s

/-- REGULATOR_ACK_TIMEOUT: 1 ms after the command (R529, R535). A tile of the boot plan whose regulator refuses stays OFF (R36; DEDUCED, notes/assumptions/22.md). -/
def regulatorAckTimeout (t : TileId) (s : State) : State :=
  let p := (s.tile t).power
  if s.pier.bootQueue.head? = some t.val ∧ p.st = .waking ∧ p.cmdAt + 1000000 ≤ s.now then
    (s.setPwr t .off).onPier fun x => { x with bootQueue := x.bootQueue.tail, bootAt := s.now }
  else if p.st ≠ .entering ∨ p.step < 5 ∨ s.now < p.cmdAt + 1000000 then s
  else
    let s := s.refuseEntry t p.target 4 6 p.requester
    if 3 ≤ p.target then
      let s := ((s.onPower t fun p => { p with step := 0, locked := true }).setPwr t .isolated).pmbus 2 t 0x21 p.vrunMv
      let s := (s.onPower t fun x => { x with railMv := p.vrunMv }).wr Reg.power_rail_mv t p.vrunMv
      if p.target = 4 then (((s.pmbus 2 t 0x01 0).setPwr t .off).onPower t fun p => { p with countFrom := none, railMv := 0 }).wr Reg.power_rail_mv t 0 else s
    else
      let s := (s.setPwr t .waking).onPower t fun p => { p with step := 1, orderAt := some s.now, wakeUp := false }
      s.pmbus 3 t 0x21 p.vrunMv

/-- REGULATOR_ACK_TIMEOUT (R529). -/
def execRegulatorAckTimeout (t : TileId) (s : State) : Host.Outcome State Fault Refusal := finish (regulatorAckTimeout t) s

/-- The Pier reads STATUS_WORD of every present regulator: a fault bit that was not there raises an event and is a trigger for the active tile, unless the supply fails. -/
def State.readStatus (s : State) (words : List Nat) : State :=
  if s.pier.degraded ∨ !s.pier.up then s
  else (allTiles.filter fun t => bit s.pier.present t.val).foldl (fun (s : State) (t : TileId) =>
    let w := words.getD t.val 0
    let old := s.rd Reg.device_pmbus_status 0 t
    let s := (s.wr Reg.device_pmbus_status 0 w t).bump Reg.device_pmbus_transactions 0
    if w &&& pmbFault = 0 ∨ old &&& pmbFault ≠ 0 then s
    else
      let s := s.pierEvent 0xFF 2 0x0105 t w
      if s.role t = 0 ∧ s.pier.pfail = false then s.trigger (bayOf t) 1 else s) s

/-- STATUS_POLL: every 10 ms; the words read, by tile. -/
def statusPoll (words : List Nat) (s : State) : State :=
  if s.now < s.pier.polledAt + 10000000 then s else (s.onPier fun p => { p with polledAt := s.now }).readStatus words

/-- STATUS_POLL (R536). -/
def execStatusPoll (words : List Nat) (s : State) : Host.Outcome State Fault Refusal := finish (statusPoll words) s

/-- PMB_ALERT: PMB_ALERT_N falls and every STATUS_WORD is read. -/
def pmbAlert (words : List Nat) (s : State) : State :=
  if s.pier.up then (s.bump Reg.device_pmbus_alerts 0).readStatus words else s

/-- PMB_ALERT (R536). -/
def execPmbAlert (words : List Nat) (s : State) : Host.Outcome State Fault Refusal := finish (pmbAlert words) s

/-! ### PFAIL_N (R546 to R548) -/

/-- The frames being sent are lost; PLC_TXEN and RF_PAEN fall, and RF_TRSW 20 µs after RF_PAEN (R343). -/
def State.cutFrames (s : State) (t : TileId) : State :=
  let s := match (s.plc t).busy with
    | some b => if b.step = 2 then (s.drivePlc t (s.vol t).drive.psel false).onPlc t fun p => { p with busy := some { b with step := 3, at_ := s.now } } else s
    | none => s
  match (s.rf t).txs.find? fun x => decide (x.step = 2) with
  | some x =>
    let s := (s.onRf t fun r => { r with txs := r.txs.map fun y => if y = x then { x with step := 3, air := s.now - x.start, what := 4 } else y }).rfPins t
    match x.what, x.item with
    | 1, some p => s.onRf t fun r => { r with neigh := Tbl.upd r.neigh x.slot fun n => { n with pend := n.pend.erase p } }
    | 2, some p => s.onRf t fun r => { r with sendq := r.sendq.erase (x.slot, p) }
    | _, _ => s
  | none => s

/-- PFAIL_N falls, for the cause as `device.supply.pfail_source` codes it. -/
def State.assertPfail (s : State) (source : Nat) : State :=
  let s := (s.onPier fun p => { p with pfail := true, pfailOkAt := none }).wr Reg.device_supply_pfail 0 1
  let s := (s.bump Reg.device_supply_pfail_events 0).pierEvent 0xFF 1 0x0106 0 source
  s.each allTiles fun s t => s.cutFrames t

/-- The Pier has left reset: with a cause of R546 that still stands PFAIL_N falls again (R684). -/
def State.pfailAgain (s : State) : State :=
  let source := if s.pier.boardPull then 3 else if s.pier.rails ≠ 0 then 2 else 1
  if s.pier.pfail then
    let s := (s.wr Reg.device_supply_vsys_mv 0 s.pier.vsysMv).wr Reg.device_supply_rail_faults 0 s.pier.rails
    (s.wr Reg.device_supply_pfail_source 0 source).assertPfail source
  else s

/-- PFAIL_ASSERT: cause 1 VSYS with its millivolts, 2 a shared rail with the rails that are outside their windows, 3 the board. An erase in progress waits with the queue.
While PFAIL_N is low a further cause is recorded and counts no assertion; cause 2 with no rail tells that the rails are back in their windows. -/
def pfailAssert (cause : Fin 3) (mv rails : Nat) (s : State) : State :=
  if !s.pier.up ∨ (cause = 0 ∧ 2350 ≤ mv) then s
  else
    let s := s.onPier fun p => { p with vsysMv := if cause = 0 then mv else p.vsysMv, rails := if cause = 1 then rails % 64 else p.rails
                                        boardPull := p.boardPull || decide (cause = 2) }
    let s := (s.wr Reg.device_supply_vsys_mv 0 s.pier.vsysMv).wr Reg.device_supply_rail_faults 0 s.pier.rails
    let new := decide (cause ≠ 1 ∨ rails % 64 ≠ 0)
    let s := if new then s.wr Reg.device_supply_pfail_source 0 (cause.val + 1) else s
    if s.pier.pfail || !new then s else s.assertPfail (cause.val + 1)

/-- PFAIL_ASSERT (R546, R547). -/
def execPfailAssert (cause : Fin 3) (mv rails : Nat) (s : State) : Host.Outcome State Fault Refusal := finish (pfailAssert cause mv rails) s

/-- A relay pulse that waits may start. -/
def State.tryPulses (s : State) (t : TileId) : State := (s.tryPulse t 0).tryPulse t 1

/-- PFAIL_RELEASE: every condition has cleared and VSYS has stayed above 2.45 V for 10 ms: programs, erases and field outputs resume. -/
def pfailRelease (mv : Nat) (s : State) : State :=
  if !s.pier.pfail ∨ mv ≤ 2450 then s
  else
    let s := s.onPier fun p => { p with pfail := false, vsysMv := mv, rails := 0, boardPull := false, pfailOkAt := some s.now }
    let s := ((s.wr Reg.device_supply_pfail 0 0).wr Reg.device_supply_vsys_mv 0 mv).wr Reg.device_supply_rail_faults 0 0
    s.each allTiles fun s t =>
      if s.inRun t then (s.onMedia t fun m => { m with busy := m.busy || !m.jobs.isEmpty }).tryPulses t else s

/-- PFAIL_RELEASE (R548). -/
def execPfailRelease (mv : Nat) (s : State) : Host.Outcome State Fault Refusal := finish (pfailRelease mv) s

/-! ### The energy limits (R541 to R543) -/

/-- BANK_BUDGET_FREE: buckets that have left the window are dropped; a held pulse may start. -/
def bankBudgetFree (b : BayId) (s : State) : State :=
  let s := s.onBay b fun x => { x with pulses := x.pulses.filter fun y => decide (s.now / 1000000000 < y.1 + 60) }
  (s.tryPulses (tileOf b false)).tryPulses (tileOf b true)

/-- BANK_BUDGET_FREE (R541). -/
def execBankBudgetFree (b : BayId) (s : State) : Host.Outcome State Fault Refusal := finish (bankBudgetFree b) s

/-- Write a `bay.energy` setting: 0 pulse_mj, 1 bank_budget_mj, 2 plc_atten_min_db, 3 plc_duty_pm. Rights below SECURE are refused; the device event's OBJ is the bay, its A the setting, its B the value. -/
def energySetting (b : BayId) (which : Fin 4) (value rights : Nat) (s : State) : State × Status :=
  let e := [Reg.bay_energy_pulse_mj, Reg.bay_energy_bank_budget_mj, Reg.bay_energy_plc_atten_min_db, Reg.bay_energy_plc_duty_pm].getD which.val Reg.bay_energy_pulse_mj
  if rights < 3 then (s, .rights)
  else if value < e.lo.toNat ∨ e.hi.toNat < value then (s, .invalid)
  else ((s.wr e b value).pierEvent 0xFF 0 0x0108 b which.val value, .ok)

/-- ENERGY_SETTING_WRITE (R540 to R543). -/
def execEnergySettingWrite (b : BayId) (which : Fin 4) (value rights : Nat) (s : State) : Host.Outcome State Fault Refusal :=
  finish (fun s => let r := energySetting b which value rights s; r.1.answer (128 + b) r.2) s

/-- VANA_OUT_OF_RANGE: VANA leaves its window, or (`back`) has held within it for 10 ms. -/
def vanaOutOfRange (t : TileId) (back : Bool) (s : State) : State :=
  if back then
    if (s.tile t).vanaOk then s
    else ((s.onTile t fun x => { x with vanaOk := true }).askSync t).followTile t
  else ((s.onTile t fun x => { x with vanaOk := false }).stopMetro t).followTile t

/-- VANA_OUT_OF_RANGE (R674). -/
def execVanaOutOfRange (t : TileId) (back : Bool) (s : State) : Host.Outcome State Fault Refusal := finish (vanaOutOfRange t back) s

end Sys2Proof.Machine
end

