-- ==== Sys2Proof/Machine/X509.lean ====
section
/-! DEFINITION. X509.lean: DER elements and what the device takes from an X.509 v3 certificate: its length, its P-256 key, its validity, the
organizationalUnitName of its subject and its ECDSA-with-SHA-256 signature (R401, R473, R475, R615).
PRESUMED: the manual names the format only; the layout is that of RFC 5280 (notes/assumptions/3.md). -/

namespace Sys2Proof.Machine

open Crypto

/-- A DER element: its tag byte, its contents, and all its bytes. -/
structure Tlv where
  tag : Nat
  body : Bytes
  whole : Bytes
  deriving DecidableEq, Repr

/-- Length of the head of the element at the front of `b` and of its contents: lengths of at most two bytes in their shortest form. -/
def tlvLen (b : Bytes) : Option (Nat × Nat) :=
  let l := fld b 1 1
  let one := fld b 2 1
  let two := beNat ((b.drop 2).take 2)
  if b.length < 2 ∨ fld b 0 1 % 32 = 31 then none
  else if l < 128 then some (2, l)
  else if l = 0x81 ∧ 128 ≤ one then some (3, one)
  else if l = 0x82 ∧ 256 ≤ two then some (4, two)
  else none

/-- The element at the front, and what follows it. -/
def tlvHead (b : Bytes) : Option (Tlv × Bytes) :=
  match tlvLen b with
  | some (h, n) =>
    if b.length < h + n then none
    else some ({ tag := fld b 0 1, body := (b.drop h).take n, whole := b.take (h + n) }, b.drop (h + n))
  | none => none

/-- The elements that fill `b`; `fuel` bounds how many. -/
def tlvsAux : Nat → Bytes → Option (List Tlv)
  | _, [] => some []
  | 0, _ => none
  | f + 1, b => match tlvHead b with
    | some (x, r) => (tlvsAux f r).map fun l => x :: l
    | none => none

/-- The elements that fill `b`, none when they do not. -/
def tlvs (b : Bytes) : Option (List Tlv) := tlvsAux b.length b

/-- The elements inside the one element, of the given tag, that `b` is. -/
def tlvInside (tag : Nat) (b : Bytes) : Option (List Tlv) :=
  match tlvs b with
  | some [x] => if x.tag = tag then tlvs x.body else none
  | _ => none

/-- AlgorithmIdentifier of ecdsa-with-SHA256. -/
def ecdsaSha256 : Bytes := ofNats [0x30, 0x0A, 0x06, 0x08, 0x2A, 0x86, 0x48, 0xCE, 0x3D, 0x04, 0x03, 0x02]

/-- AlgorithmIdentifier of a P-256 key: id-ecPublicKey with prime256v1. -/
def ecP256 : Bytes :=
  ofNats [0x30, 0x13, 0x06, 0x07, 0x2A, 0x86, 0x48, 0xCE, 0x3D, 0x02, 0x01, 0x06, 0x08, 0x2A, 0x86, 0x48, 0xCE, 0x3D, 0x03, 0x01, 0x07]

/-- Object identifier of organizationalUnitName, as an element. -/
def oidUnit : Bytes := ofNats [0x06, 0x03, 0x55, 0x04, 0x0B]

/-- What a certificate says: the signed part, its signature algorithm and signature, validity, subject and public key. -/
structure Cert where
  signed : Bytes
  alg : Bytes
  sig : Bytes
  validity : Bytes
  subject : Bytes
  key : Bytes
  deriving DecidableEq, Repr

/-- The uncompressed point of a SubjectPublicKeyInfo for P-256. -/
def certPoint (b : Bytes) : Option Bytes :=
  match tlvInside 0x30 b with
  | some [alg, key] =>
    let p := key.body.drop 1
    if alg.whole = ecP256 ∧ key.tag = 3 ∧ key.body.headD 1 = 0 ∧ (decodePoint p256 p).isSome then some p else none
  | _ => none

/-- A v3 certificate with a P-256 key: the two signature algorithms agree, what follows the key is unique identifiers and extensions. -/
def certParse (b : Bytes) : Option Cert :=
  match tlvInside 0x30 b with
  | some [tbs, alg, sig] =>
    if tbs.tag ≠ 0x30 ∨ alg.tag ≠ 0x30 ∨ sig.tag ≠ 3 ∨ sig.body.headD 1 ≠ 0 then none
    else match tlvs tbs.body with
      | some (ver :: serial :: alg' :: issuer :: validity :: subject :: key :: rest) =>
        if ver.whole = ofNats [0xA0, 3, 2, 1, 2] ∧ serial.tag = 2 ∧ alg'.whole = alg.whole ∧ issuer.tag = 0x30 ∧ validity.tag = 0x30 ∧
            subject.tag = 0x30 ∧ (rest.all fun x => [0x81, 0x82, 0xA3].contains x.tag) = true then
          (certPoint key.whole).map fun p =>
            { signed := tbs.whole, alg := alg.whole, sig := sig.body.drop 1, validity := validity.body, subject := subject.body, key := p }
        else none
      | _ => none
  | _ => none

/-- Bytes that the certificate at the front of a zero-padded entry occupies: its outer SEQUENCE. -/
def certLength (b : Bytes) : Option Nat :=
  match tlvHead b with
  | some (x, _) => if (certParse x.whole).isSome then some x.whole.length else none
  | none => none

/-- The public key of a certificate; none when the bytes are not one with a P-256 key. -/
def certKey (b : Bytes) : Option Bytes := (certParse b).map Cert.key

/-- A positive INTEGER of at most 32 bytes, as 32 bytes. -/
def derInt (x : Tlv) : Option Bytes :=
  if x.tag = 2 ∧ x.body ≠ [] ∧ fld x.body 0 1 < 128 ∧ beNat x.body < 2 ^ 256 then some (natBE 32 (beNat x.body)) else none

/-- A certificate is signed by a public key with ECDSA and SHA-256. -/
def certSignedBy (b pub : Bytes) : Bool :=
  match certParse b with
  | some c =>
    decide (c.alg = ecdsaSha256) && (match tlvInside 0x30 c.sig with
      | some [r, s] => (match derInt r, derInt s with
        | some r, some s => ecdsaVerify pub c.signed (r ++ s)
        | _, _ => false)
      | _ => false)
  | none => false

/-- The UTC second of a UTCTime or GeneralizedTime in the form that DER gives them. -/
def derTime (x : Tlv) : Option Int :=
  let n := if x.tag = 0x17 then 2 else 4
  let part := fun (i : Nat) => decimal ((x.body.drop (n + 2 * i)).take 2)
  if (x.tag ≠ 0x17 ∧ x.tag ≠ 0x18) ∨ x.body.length ≠ n + 11 ∨ x.body.getLastD 0 ≠ 0x5A then none
  else match decimal (x.body.take n), part 0, part 1, part 2, part 3, part 4 with
    | some y, some mo, some d, some h, some mi, some s =>
      let y := if n = 4 then y else if y < 50 then 2000 + y else 1900 + y
      if 1 ≤ mo ∧ mo ≤ 12 ∧ 1 ≤ d ∧ d ≤ monthDays y mo ∧ h < 24 ∧ mi < 60 ∧ s < 60 then
        some (daysFromCivil y mo d * 86400 + h * 3600 + mi * 60 + s)
      else none
    | _, _, _, _, _, _ => none

/-- A UTC second lies in the validity period of a certificate. -/
def Cert.validAt (c : Cert) (utc : Int) : Bool :=
  match tlvs c.validity with
  | some [a, b] => (match derTime a, derTime b with
    | some x, some y => decide (x ≤ utc) && decide (utc ≤ y)
    | _, _ => false)
  | _ => false

/-- The organizationalUnitNames of the subject. -/
def Cert.units (c : Cert) : List Bytes :=
  let attrs := ((tlvs c.subject).getD []).flatMap fun set => (tlvs set.body).getD []
  attrs.filterMap fun a => match tlvs a.body with
    | some [oid, name] => if oid.whole = oidUnit then some name.body else none
    | _ => none

/-- The rights that a certificate names: its one organizationalUnitName, exactly as R401 writes it. -/
def Cert.rights (c : Cert) : Option Nat :=
  match c.units with
  | [u] => [ascii "VIEW", ascii "OPERATE", ascii "CONFIGURE", ascii "SECURE", ascii "LEGAL"].findIdx? fun n => decide (n = u)
  | _ => none

/-- The certificate in a zero-padded entry: none for zeros or a bad form (R473). -/
def certIn (b : Bytes) : Option Bytes :=
  (certLength b).bind fun n => if n ≤ 1024 ∧ leNat (b.drop n) = 0 then some (b.take n) else none

/-- The public key of a certificate entry. -/
def certPub (b : Bytes) : Option Bytes := if leNat b = 0 then none else (certIn b).bind certKey

end Sys2Proof.Machine
end

