-- ==== Sys2Proof/Machine/Vault.lean ====
section
/-! DEFINITION. Vault.lean: chapter 14: lifecycle actions, key import, archive generations, certificates and anchors, the DRBG. -/

namespace Sys2Proof.Machine

open Crypto

/-! ### What the vault shows (R472, R473) -/

/-- A public key derived in a general slot, when the slot holds one. -/
def State.slotPub (s : State) (t : TileId) (n : Nat) : Option Bytes := (s.slotD t n).map (pubKey p256)

/-- `tile.vault.import_pub` and `tile.vault.import_attest`: zeros while the keys are not there. -/
def State.importPub (s : State) (t : TileId) : Bytes := (s.slotPub t 2).getD (List.replicate 65 0)
def State.importAttest (s : State) (t : TileId) : Bytes :=
  match s.slotD t 0, s.slotPub t 2 with
  | some d, some p => ecdsaSign d (ascii "IMPORT" ++ natLE 1 (t.val / 2) ++ p)
  | _, _ => List.replicate 64 0

/-- `tile.vault.enrol_record` (R473): zeros while the tile has no identity. -/
def State.enrolRecord (s : State) (t : TileId) : Bytes :=
  match s.slotD t 0, s.slotPub t 0, s.slotPub t 1 with
  | some d, some i, some l =>
    let b := fit 8 (Config.serial t) ++ natLE 1 t ++ natLE 1 (s.lifecycle t) ++ List.replicate 6 0 ++ i ++ l ++ [0, 0]
    b ++ ecdsaSign d b
  | _, _, _ => List.replicate 212 0

/-! ### Enrolment (R454, R456) -/

/-- Seal both KEKs and write the key page, with room for the blobs that follow; the derived keys come into their slots. -/
def State.sealKeks (s : State) (t : TileId) (tk bk : Bytes) : State :=
  let r := s.roots t
  let debug := decide (s.lifecycle t = 3)
  let s := s.writePage t fun k =>
    { k with life := if debug then 3 else 1, kcv := kcvOf bk, tkF := envelope r.1 "TILEKEK" tk, tkP := envelope r.2 "TILEKEK" tk
             bkF := envelope r.1 "BAYKEK" bk, bkP := envelope r.2 "BAYKEK" bk, ceil := max k.ceil (s.vol t).vault.blobNext + 65536 }
  let s := (s.wr Reg.vault_bay_kcv t (leNat (kcvOf bk))).wr Reg.vault_envelopes t (if r.1.isSome then 15 else 10)
  let s := s.wr Reg.vault_root_used t (if debug then 3 else if r.1.isSome then 1 else 2)
  let s := s.onVault t fun v => { v with tileKek := some tk, bayKek := some bk, slots := [] }
  s.deriveSlots t

/-- The bay KEK as the joiner receives it (R456): wrapped by the offerer under the ECDH of both identities; none when it does not match BAY_KCV. -/
def bayTransfer (dO dJ : Nat) (kek kcv : Bytes) : Option Bytes :=
  let pO := pubKey p256 dO
  let pJ := pubKey p256 dJ
  match ecdh p256 dO pJ, ecdh p256 dJ pO with
  | some zO, some zJ =>
    let wrapped := kwWrap (kdf zO (ascii "BAYXFER") (pO ++ pJ) 256) kek
    (kwUnwrap (kdf zJ (ascii "BAYXFER") (pO ++ pJ) 256) wrapped).bind fun k => if kcvOf k = kcv then some k else none
  | _, _ => none

/-- `tile.vault.enrol` (R454). -/
def vaultEnrol (t : TileId) (s : State) : State :=
  let m := mate t
  let life := s.lifecycle t
  let join := decide (s.rd Reg.vault_enrol_mode t = 1)
  let mateHolds := !(s.tile m).retired && decide (leNat ((s.tile m).keyPage.bkF ++ (s.tile m).keyPage.bkP) ≠ 0)
  let offered := ((s.vol m).vault.offerUntil.map fun u => decide (s.now < u)).getD false
  if life ≠ 0 ∧ life ≠ 3 then s.vaultRefuse t .conflict
  else if !s.drbgReady t then (s.drbgRefuse t).vaultRefuse t .busy
  else if !join ∧ mateHolds = true then s.vaultRefuse t .conflict
  else if join ∧ (!offered ∨ (decide (s.lifecycle m = 3) ≠ decide (life = 3))) then s.vaultRefuse t .conflict
  else if join then
    let a := s.draw t
    let s1 := a.1
    match s1.slotD m 0, (s1.vol m).vault.bayKek with
    | some dO, some kek =>
      match bayTransfer dO (deriveD a.2 "TILE-ID") kek (s1.tile m).keyPage.kcv with
      | none => s1.vaultRefuse t .invalid
      | some bk =>
        let s := (s1.onVault m fun v => { v with offerUntil := none }).sealKeks t a.2 bk
        let blobs := (s.vol m).vault.blobs.filter fun e => decide (e.1 / 2 ^ 24 = 2)
        let s := blobs.foldl (fun s e => s.setBlob t e.1 (some e.2)) s
        (((s.attestBlob t).settleRoot t).vaultLater t).releaseVault t
    | _, _ => s1.vaultRefuse t .conflict
  else
    let a := s.draw t
    let b := a.1.draw t
    let s := ((b.1.sealKeks t a.2 b.2).newGeneration t 0).loadBaySlots t
    ((s.settleRoot t).vaultLater t).releaseVault t

/-- VAULT_ENROL (R454). -/
def execVaultEnrol (t : TileId) (s : State) : Host.Outcome State Fault Refusal := finish (vaultEnrol t) s

/-- `tile.vault.bay_offer` (R456). -/
def bayOffer (t : TileId) (s : State) : State :=
  let l := s.lifecycle t
  if (l ≠ 1 ∧ l ≠ 2 ∧ l ≠ 3) ∨ (s.vol t).vault.bayKek = none then s.vaultRefuse t .conflict
  else (s.onVault t fun v => { v with offerUntil := some (s.now + 60 * 10 ^ 9) }).vaultOk t

/-- BAY_OFFER (R456). -/
def execBayOffer (t : TileId) (s : State) : Host.Outcome State Fault Refusal := finish (bayOffer t) s

/-- The window closes 60 s after the offer. -/
def bayOfferExpiry (t : TileId) (s : State) : State :=
  match (s.vol t).vault.offerUntil with
  | some u => if u ≤ s.now then s.onVault t fun v => { v with offerUntil := none } else s
  | none => s

/-- BAY_OFFER_EXPIRY (R456). -/
def execBayOfferExpiry (t : TileId) (s : State) : Host.Outcome State Fault Refusal := finish (bayOfferExpiry t) s

/-! ### Certificates and anchors (R473, R475) -/

/-- A certificate is held: present, and its key equals the present one (R473). -/
def State.certHeld (s : State) (t : TileId) (e : Entry) (slot : Nat) : Bool :=
  match certPub (s.rdAll e t), s.slotPub t slot with
  | some k, some p => decide (k = p)
  | _, _ => false

/-- Public key of the device host key of a generation. -/
def State.hostPub (s : State) (g : Nat) : Bytes := pubKey p256 (s.hostKeyD g)

/-- A write to a certificate entry, judged on the whole entry that would result: 0 `cert_id`, 1 `cert_link`, 2 `sat_anchor`, 3 `host_cert`,
4 `host_next_cert`. -/
def certWriteDo (t : TileId) (which : Fin 5) (off : Nat) (data : Bytes) (s : State) : State × Status :=
  let e := [Reg.vault_cert_id, Reg.vault_cert_link, Reg.vault_sat_anchor, Reg.device_sec_host_cert, Reg.device_sec_host_next_cert].getD which Reg.vault_cert_id
  let n := if which.val < 3 then t.val else 0
  let old := s.rdAll e n
  let b := fit 1024 (old.take off ++ data ++ old.drop (off + data.length))
  if 1024 < off + data.length then (s, .length)
  else
    let store := if which.val = 2 then s.wrBM e t off data else s.wrB e n off data
    if leNat b = 0 then (store, .ok)
    else match certPub b with
      | none => (s, .invalid)
      | some k =>
        if (which.val = 0 ∧ s.slotPub t 0 ≠ some k) ∨ (which.val = 1 ∧ s.slotPub t 1 ≠ some k) then (s, .conflict)
        else (store, .ok)

/-- `certWriteDo`, answered by the unit that holds the entry. -/
def certWrite (t : TileId) (which : Fin 5) (off : Nat) (data : Bytes) (s : State) : State :=
  let r := certWriteDo t which off data s
  r.1.answer (if which.val < 3 then t.val else 255) r.2

/-- CERT_WRITE (R473). -/
def execCertWrite (t : TileId) (which : Fin 5) (off : Nat) (data : Bytes) (s : State) : Host.Outcome State Fault Refusal :=
  finish (certWrite t which off data) s

/-- The operator anchors held. -/
def State.anchors (s : State) : List Bytes :=
  ((List.range 8).map fun i => s.rdAll Reg.device_sec_anchor 0 i).filter fun b => decide (leNat b ≠ 0)

/-- A certificate is signed directly by one of the operator trust anchors (R401, R616). -/
def State.anchored (s : State) (cert : Bytes) : Bool := s.anchors.any fun a => (certPub a).any (certSignedBy cert)

/-- A write to `device.sec.anchor` (R475): a write that would leave no anchor is refused. -/
def anchorWriteDo (i : Fin 8) (off : Nat) (data : Bytes) (s : State) : State × Status :=
  let old := s.rdAll Reg.device_sec_anchor 0 i
  let b := fit 1024 (old.take off ++ data ++ old.drop (off + data.length))
  let store := s.wrB Reg.device_sec_anchor 0 off data i
  if 1024 < off + data.length then (s, .length)
  else if leNat b = 0 then (if store.anchors = [] then (s, .conflict) else (store, .ok))
  else match certPub b with
    | none => (s, .invalid)
    | some _ => (store, .ok)

/-- `anchorWriteDo`, answered by the Pier. -/
def anchorWrite (i : Fin 8) (off : Nat) (data : Bytes) (s : State) : State :=
  let r := anchorWriteDo i off data s
  r.1.answer 255 r.2

/-- ANCHOR_WRITE (R475). -/
def execAnchorWrite (i : Fin 8) (off : Nat) (data : Bytes) (s : State) : Host.Outcome State Fault Refusal := finish (anchorWrite i off data) s

/-- `device.sec.host_rekey` (R459). -/
def hostRekey (s : State) : State :=
  let g := s.rd Reg.device_sec_host_key_gen 0
  let next := s.rdAll Reg.device_sec_host_next_cert 0
  if 255 ≤ g then s.answer 255 .limit
  else if certPub next ≠ some (s.hostPub (g + 1)) then s.answer 255 .conflict
  else
    let s := (s.wr Reg.device_sec_host_key_gen 0 (g + 1)).wrB Reg.device_sec_host_cert 0 0 next
    (s.clr Reg.device_sec_host_next_cert 0).answer 255 .ok

/-- HOST_REKEY (R459). -/
def execHostRekey (s : State) : Host.Outcome State Fault Refusal := finish hostRekey s

/-! ### Lifecycle (R451, R452, R474 to R478) -/

/-- `tile.vault.go_field` (R474). -/
def goField (t : TileId) (s : State) : State :=
  if s.lifecycle t ≠ 1 ∨ !s.certHeld t Reg.vault_cert_id 0 ∨ !s.certHeld t Reg.vault_cert_link 1 ∨ s.archGen t = none then s.vaultRefuse t .conflict
  else ((s.writePage t fun k => { k with life := 2 }).settleRoot t).vaultOk t

/-- GO_FIELD (R474). -/
def execGoField (t : TileId) (s : State) : Host.Outcome State Fault Refusal := finish (goField t) s

/-- Erase the envelopes, and clear every slot and the KEKs; the key page takes the lifecycle given. -/
def State.eraseKeks (s : State) (t : TileId) (life : Nat) : State :=
  let z := List.replicate 40 (0 : Byte)
  let s := s.writePage t fun k => { k with life := life, tkF := z, tkP := z, bkF := z, bkP := z, kcv := List.replicate 4 0 }
  let s := (s.wr Reg.vault_bay_kcv t 0).wr Reg.vault_envelopes t 0
  let s := s.onVault t fun v => { v with tileKek := none, bayKek := none, slots := [], offerUntil := none }
  (s.onGather t fun g => { g with slots := [] }).settleRoot t

/-- Destroy the bay key table of the tile. -/
def State.destroyBayTable (s : State) (t : TileId) : State :=
  ((s.vol t).vault.blobs.filter fun e => decide (e.1 / 2 ^ 24 = 2)).foldl (fun s e => s.setBlob t e.1 none) s

/-- `tile.vault.erase` (R451, R452). -/
def vaultErase (t : TileId) (s : State) : State :=
  let l := s.lifecycle t
  if s.serves t ∨ l = 4 then s.vaultRefuse t .conflict
  else if l = 0 then s.vaultOk t
  else
    let es := s.pier.es
    let s := (s.eraseKeks t (if l = 3 ∧ es then 3 else 0)).destroyBayTable t
    let s := if l = 3 ∧ !es then s.onVault t fun v => { v with resetDue := true } else s
    (s.vaultLater t).releaseVault t

/-- VAULT_ERASE (R451). -/
def execVaultErase (t : TileId) (s : State) : Host.Outcome State Fault Refusal := finish (vaultErase t) s

/-- A read of `tile.vault.debug_challenge` (R476): none while the DRBG is not ready. -/
def State.debugChallenge (s : State) (t : TileId) : State × Option Bytes :=
  if !s.drbgReady t then (s.drbgRefuse t, none)
  else
    let d := s.draw t
    let c := d.2.take 16
    (d.1.onVault t fun v => { v with challenge := some (c, s.now + 600 * 10 ^ 9) }, some c)

/-- The read answered. -/
def debugChallengeRead (t : TileId) (s : State) : State :=
  let r := s.debugChallenge t
  match r.2 with
  | some b => r.1.emit (.bytes t b)
  | none => r.1.answer t .busy

/-- DEBUG_CHALLENGE (R476). -/
def execDebugChallenge (t : TileId) (s : State) : Host.Outcome State Fault Refusal := finish (debugChallengeRead t) s

/-- The debug token matches the tile and the current challenge, and its signature verifies. -/
def State.tokenOk (s : State) (t : TileId) : Bool :=
  let b := s.rdAll Reg.vault_debug_token t
  match (s.vol t).vault.challenge with
  | some (c, to_) =>
    decide (fld b 1 1 = t.val) && decide ((b.drop 4).take 8 = fit 8 (Config.serial t)) && decide ((b.drop 0xC).take 16 = c) &&
    decide (s.now < to_) && ecdsaVerify384 Config.debugKey (b.take 0x34) ((b.drop 0x34).take 96)
  | none => false

/-- `tile.vault.debug_unlock` (R477). -/
def debugUnlock (t : TileId) (s : State) : State :=
  if s.serves t ∨ 3 ≤ s.lifecycle t then s.vaultRefuse t .conflict
  else if !s.tokenOk t then s.vaultRefuse t .invalid
  else ((s.eraseKeks t 3).onVault t fun v => { v with challenge := none }).vaultOk t |>.vaultReset t

/-- DEBUG_UNLOCK (R477). -/
def execDebugUnlock (t : TileId) (s : State) : Host.Outcome State Fault Refusal := finish (consuming t [Reg.vault_debug_token] (debugUnlock t)) s

/-- `tile.vault.retire` (R451, R478). -/
def vaultRetire (t : TileId) (s : State) : State :=
  if s.serves t ∨ s.lifecycle t = 4 then s.vaultRefuse t .conflict
  else
    let s := (s.eraseKeks t (s.lifecycle t)).destroyBayTable t
    let s := ((s.onTile t fun x => { x with retired := true }).wr Reg.vault_root_used t 0).settleRoot t
    (s.vaultLater t).releaseVault t

/-- VAULT_RETIRE (R478). -/
def execVaultRetire (t : TileId) (s : State) : Host.Outcome State Fault Refusal := finish (vaultRetire t) s

/-! ### Import (R467 to R470) -/

/-- Check 1: fields, and EXPIRY. -/
def State.importFields (s : State) (t : TileId) (e : Bytes) : Bool :=
  let kind := fld e 0 1
  let usage := fld e 2 1
  let id := fld e 3 1
  let owner := fld e 4 4
  let expiry := fld e 8 4
  [0, 1, 2, 3, 6, 7, 8].contains kind && decide (fld e 1 1 = kindMask kind) && decide (usage / 16 % 8 = 0) &&
  decide ((usage % 16) &&& kindUsage kind = usage % 16) &&
  (match kind with
   | 2 => true
   | 6 => decide (id ≤ 1)
   | 8 => decide (16 ≤ id ∧ id ≤ 63)
   | _ => decide (id = 0)) &&
  decide (owner < 2 ^ 22) && (!(decide (kind = 6) || decide (kind = 8)) || decide (owner = 0x3FFFFF)) &&
  (decide (expiry = 0) || !s.hasTime t || decide (s.timeSec t % 2 ^ 32 < expiry)) &&
  (decide (usage < 128) || decide (leNat ((e.drop 0xC).take 40) = 0)) && decide (fld e 0x34 12 = 0)

/-- Check 2: the OWNER. -/
def State.importOwner (s : State) (t : TileId) (e : Bytes) : Bool :=
  let kind := fld e 0 1
  let owner := fld e 4 4
  let r := s.meter t (midxSlot owner)
  let mine := s.ownMidx t owner && decide (r.state = 1)
  match kind with
  | 6 => true
  | 8 => true
  | 7 => if 0x3FFF00 ≤ owner then decide ((s.repeaters t).getD (owner - 0x3FFF00) 0 ≠ 0) else mine && decide (r.path = 0)
  | 2 => mine && decide (r.path = 1)
  | 3 => mine && (decide (128 ≤ fld e 2 1) || bit r.keyMap 0)
  | _ => mine

/-- The key of an entry (check 3). -/
def importKey (kek e : Bytes) : Option Bytes :=
  let n := kindLen (fld e 0 1)
  (kwUnwrap kek ((e.drop 0xC).take 40)).bind fun p => if leNat (p.drop n) = 0 then some (p.take n) else none

/-- Where the blob of an entry is held: a free place of the PLC key table for a new EAP-PSK. -/
def State.importPlace (s : State) (t : TileId) (e : Bytes) : Nat :=
  let kind := fld e 0 1
  let owner := fld e 4 4
  match kind with
  | 6 => blobPlace 2 (9 + fld e 3 1)
  | 8 => blobPlace 2 (fld e 3 1)
  | 7 =>
    if 0x3FFF00 ≤ owner then blobPlace 1 (4096 + (owner - 0x3FFF00))
    else match s.plcKeyPlace t owner with
      | some p => p
      | none => blobPlace 1 (((List.range 4096).find? fun i => (s.blob t (blobPlace 1 i)).isNone).getD 4095)
  | k => blobPlace 0 (4 * midxSlot owner + k)

/-- IC_DOWN of a meter is exhausted (R285). -/
def MeterRec.icSpent (r : MeterRec) : Bool := decide (0xFFFFFFFF ≤ r.icDown)

/-- The broadcast counter restarts at 0 when it is exhausted and the campaign's slot gets a new key (R285). -/
def State.bcastRestart (s : State) (t : TileId) (n : Nat) : State :=
  if (s.eph t).bcast < 0xFFFFFFFF ∨ campKey (s.campaign t) ≠ n then s
  else (s.onEph t fun e => { e with bcast := 0 }).ctrRestart t 2

/-- A new GMK restarts the MAC frame counter at 0 (R589). -/
def State.macRestart (s : State) (t : TileId) : State :=
  (s.onPlc t fun p => { p with live := 0, exhausted := false }).ctrRestart t 0

/-- The record update of R469 for a key written, in one step: the entry carries the reserved ceiling too. -/
def State.importRecord (s : State) (t : TileId) (kind id slot : Nat) : State :=
  let had := bit (s.meter t slot).keyMap 0
  let spent := decide (kind = 0) && (s.meter t slot).icSpent
  let s := if spent then s.onMeters t fun m => { m with ceils := Tbl.put m.ceils slot 0 } else s
  let s := s.fieldsMeter t slot (fun r =>
    let r := { r with keyMap := setBit r.keyMap kind true }
    let r := if spent then { r with icDown := 0, eventFlags := setBit r.eventFlags 16 false } else r
    if kind = 0 ∧ had then { r with keyGen := (r.keyGen + 1) % 65536, icUpHw := 0 }
    else if kind = 2 then { r with rfKeyId := id, fcUpHw := 0 } else r) .keys
  if kind = 2 then s.onRf t fun f => { f with neigh := Tbl.upd f.neigh slot fun x => { x with phw := 0 } } else s

/-- Every frame of a meter that has passed G1 goes first (R470). -/
def State.passWaiting (s : State) (t : TileId) (midx : Nat) : State :=
  (List.range ((s.vol t).gather.waiting.countP fun x => decide (x.midx = midx))).foldl (fun s _ => midxWaitRelease t midx s) s

/-- One entry: its result code. -/
def State.importEntry (s : State) (t : TileId) (kek e : Bytes) : State × Nat :=
  let kind := fld e 0 1
  let usage := fld e 2 1 % 16
  let id := fld e 3 1
  let owner := fld e 4 4
  let meter := decide (kind ≤ 3)
  let place := s.importPlace t e
  if !s.importFields t e then (s, 3)
  else if !s.importOwner t e then (s, 1)
  else if 128 ≤ fld e 2 1 then
    if (s.blob t place).isNone then (s, 0)
    else
      let s := if meter then s.passWaiting t owner else s
      let s := s.setBlob t place none
      let s := if kind = 6 then s.loadSlot t (9 + id) place else if kind = 8 then s.loadSlot t id place else s
      (if meter then (s.dropSlots t owner (some kind)).fieldsMeter t (midxSlot owner) (fun r => { r with keyMap := setBit r.keyMap kind false }) .keys else s, 0)
  else match importKey kek e with
    | none => (s, 3)
    | some key =>
      let s := if meter then s.passWaiting t owner else s
      let s := s.wrapBlob t place kind usage owner (fld e 8 4) key
      let s := match kind with
        | 6 => (s.loadSlot t (9 + id) place).macRestart t
        | 8 => (s.loadSlot t id place).bcastRestart t id
        | 7 => s
        | k => (s.dropSlots t owner (some k)).importRecord t k id (midxSlot owner)
      (s, 0)

/-- `tile.vault.import` (R468). -/
def vaultImport (t : TileId) (s : State) : State :=
  let b := s.rdAll Reg.vault_import_stage t
  let n := fld b 1 1
  let pub := (b.drop 4).take 65
  if !s.serves t then s.vaultRefuse t .notActive
  else if fld b 0 1 ≠ 1 ∨ n = 0 ∨ 16 < n ∨ fld b 2 2 ≠ 0 ∨ fld b 69 3 ≠ 0 ∨ decodePoint p256 pub = none then s.vaultRefuse t .invalid
  else
    let u := s.useSlot t 2
    match u.2 with
    | none => u.1.vaultRefuse t .conflict
    | some d =>
      let kek := match ecdh p256 (beNat d) pub with
        | some z => kdf z (ascii "KEYLOAD") pub 256
        | none => []
      let r := (List.range n).foldl (fun (a : State × List Nat) i =>
        let x := a.1.importEntry t kek ((b.drop (72 + 64 * i)).take 64)
        (x.1, a.2 ++ [x.2])) (u.1, [])
      ((r.1.wrB Reg.vault_import_result t 0 (fit 16 (ofNats r.2))).vaultLater t).releaseVault t

/-- VAULT_IMPORT (R468). -/
def execVaultImport (t : TileId) (s : State) : Host.Outcome State Fault Refusal := finish (consuming t [Reg.vault_import_stage] (vaultImport t)) s

/-- `tile.vault.archive_rotate` (R471). -/
def archiveRotate (t : TileId) (s : State) : State :=
  if !s.serves t then s.vaultRefuse t .notActive
  else if !s.drbgReady t then (s.drbgRefuse t).vaultRefuse t .busy
  else if (s.vol t).vault.rotating then s.vaultRefuse t .busy
  else match (s.vol t).vault.bayKek, s.archGen t with
    | some _, some g =>
      let s := (s.newGeneration t ((g + 1) % 16)).onVault t fun v => { v with rotating := true }
      (s.vaultLater t).releaseVault t
    | _, _ => s.vaultRefuse t .conflict

/-- ARCHIVE_ROTATE (R471). -/
def execArchiveRotate (t : TileId) (s : State) : Host.Outcome State Fault Refusal := finish (archiveRotate t) s

/-! ### The DRBG (R479, R480) -/

/-- The DRBG reseeds 10 s after its last seed, or after 2^20 requests. -/
def drbgReseed (t : TileId) (s : State) : State :=
  let v := (s.vol t).vault
  let due := match v.drbgSeeded with
    | some x => decide (x + 10 * 10 ^ 9 ≤ s.now)
    | none => false
  if s.drbgReady t && (due || decide (2 ^ 20 ≤ v.drbgReqs)) then s.drbgSeed t else s

/-- DRBG_RESEED (R479). -/
def execDrbgReseed (t : TileId) (s : State) : Host.Outcome State Fault Refusal := finish (drbgReseed t) s

/-- A health test of the TRNG fails. -/
def healthFail (t : TileId) (s : State) : State :=
  if (s.vol t).vault.drbgTry = none then s
  else
    let s := if s.drbgReady t then s.onVault t fun v => { v with drbgTry := some s.now } else s
    (s.bump Reg.vault_health_fail t).wr Reg.vault_drbg_state t 0

/-- HEALTH_FAIL (R479). -/
def execHealthFail (t : TileId) (s : State) : Host.Outcome State Fault Refusal := finish (healthFail t) s

/-- The tests have passed on 1 024 samples and the DRBG is seeded; the seed after the first counts as a reseed. -/
def drbgReadyEvent (t : TileId) (s : State) : State :=
  let v := (s.vol t).vault
  if v.drbgTry = none ∨ s.drbgReady t then s
  else
    let s := if v.drbgOnce then s.drbgSeed t else s.onVault t fun v => { v with drbgReqs := 0, drbgSeeded := some s.now }
    ((s.wr Reg.vault_drbg_state t 1).onVault t fun v => { v with drbgOnce := true }).settleRoot t

/-- DRBG_READY (R479). -/
def execDrbgReady (t : TileId) (s : State) : Host.Outcome State Fault Refusal := finish (drbgReadyEvent t) s

/-- The DRBG is not ready 100 ms after the start of an attempt. -/
def drbgStartTimeout (t : TileId) (s : State) : State :=
  match (s.vol t).vault.drbgTry with
  | some x =>
    if s.rd Reg.vault_drbg_state t = 0 ∧ x + 100000000 ≤ s.now then (s.wr Reg.vault_drbg_state t 2).event t 3 0x1A03 else s
  | none => s

/-- DRBG_START_TIMEOUT (R479). -/
def execDrbgStartTimeout (t : TileId) (s : State) : Host.Outcome State Fault Refusal := finish (drbgStartTimeout t) s

end Sys2Proof.Machine
end

