-- ==== Sys2Proof/Machine/BaySync.lean ====
section
/-! DEFINITION. BaySync.lean: chapter 15: the mirror link, the standby that applies its items, resync, and the shadow audit. -/

namespace Sys2Proof.Machine

open Crypto

/-! ### The link (R489, R490, R510, R633) -/

/-- Items that MIRROR_DELAY holds before they are sent: all that wait enter the buffer of 4 096, which discards its oldest when it is full. -/
def State.delayItems (s : State) (b : BayId) : State :=
  match s.bayArm b 0 with
  | none => s
  | some a =>
    let x := s.bay b
    let l := x.mdelay ++ x.link.map fun i => (i, s.now + a.p1 * 1000)
    let excess := l.length - 4096
    let s := s.onBay b fun x => { x with link := [], mdelay := l.drop excess, reported := x.reported + excess }
    s.mirrorLost b excess

/-- The next item that the link may send. -/
def State.nextItem (s : State) (b : BayId) : Option (MItem × State) :=
  let s := s.delayItems b
  let x := s.bay b
  match x.mdelay, x.link with
  | (i, due) :: r, _ => if s.now < due then none else some (i, s.onBay b fun x => { x with mdelay := r })
  | [], i :: r => some (i, s.onBay b fun x => { x with link := r })
  | [], [] => none

/-- An item whose report ends a lag window: a RECORD item, or a delta that carries a high-water. -/
def MItem.lagging : MItem → Bool
  | .record _ => true
  | .meterFields _ _ _ _ => true
  | _ => false

/-- An item is written into the FIFO and reported; steps held back for it go on. -/
def State.deliver (s : State) (b : BayId) (i : MItem) : State :=
  let a := (s.bay b).fifo.write 1024 (s.rd Reg.bay_mirror_wake_level b) i
  let head := match i with
    | .auditHead _ _ _ _ _ _ _ => true
    | _ => false
  let s := s.onBay b fun x => { x with fifo := a.q, reported := x.reported + 1, auditAt := if head && x.auditAt.isNone then some s.now else x.auditAt }
  let s := (s.bump Reg.bay_mirror_items b).wr Reg.bay_mirror_fill b a.q.fill_
  let s := if a.lost = 0 ∧ a.reset then s.unsync b else s.mirrorLost b a.lost
  let s := match (s.bay b).lagFrom with
    | some f =>
      if (s.bay b).link.any MItem.lagging || (s.bay b).mdelay.any (fun x => x.1.lagging) then s
      else (s.wr Reg.bay_mirror_lag_max_us b (max (s.rd Reg.bay_mirror_lag_max_us b) (min ((s.now - f) / 1000) 0xFFFFFFFF))).onBay b fun x => { x with lagFrom := none }
    | none => s
  let s := match s.standbyOf b with
    | some d => if (s.tile d).power.st = Pwr.entering ∧ s.rd Reg.bay_mirror_wake_level b ≤ a.q.fill_ then s.wakeEvent d else s
    | none => s
  match s.activeOf b with
  | some t => s.releaseVault t
  | none => s

/-- MIRROR_ITEM: the next item of the link is delivered after `resent` frames were sent again. -/
def mirrorItem (b : BayId) (resent : Nat) (s : State) : State :=
  if !s.hasStandby b then s
  else match s.nextItem b with
    | some (i, s) => (if resent = 0 then s else s.bump Reg.bay_mirror_retransmits b 0 resent).deliver b i
    | none => s.delayItems b

/-- MIRROR_ITEM (R489, R490). -/
def execMirrorItem (b : BayId) (resent : Nat) (s : State) : Host.Outcome State Fault Refusal := finish (mirrorItem b resent) s

/-- MIRROR_FRAME_LOST: the next item's frame fails 3 times. -/
def mirrorFrameLost (b : BayId) (s : State) : State :=
  if !s.hasStandby b then s
  else match s.nextItem b with
    | some (_, s) =>
      let s := (s.onBay b fun x => { x with reported := x.reported + 1 }).bump Reg.bay_mirror_retransmits b 0 2
      let s := s.mirrorLost b 1
      (match s.activeOf b with
       | some t => s.releaseVault t
       | none => s)
    | none => s

/-- MIRROR_FRAME_LOST (R489). -/
def execMirrorFrameLost (b : BayId) (s : State) : Host.Outcome State Fault Refusal := finish (mirrorFrameLost b) s

/-! ### Applying items (R493, R494, R496) -/

/-- A field that a FIELDS delta changed takes its new value, another keeps its own. -/
def pick {α : Type} [DecidableEq α] (old new own : α) : α := if old = new then own else new

/-- A record with the fields of a delta. -/
def MeterRec.patch (r o n : MeterRec) : MeterRec :=
  { r with
    sysTitle := pick o.sysTitle n.sysTitle r.sysTitle, eui64 := pick o.eui64 n.eui64 r.eui64
    shortAddr := pick o.shortAddr n.shortAddr r.shortAddr, cls := pick o.cls n.cls r.cls, path := pick o.path n.path r.path
    phase := pick o.phase n.phase r.phase, satId := pick o.satId n.satId r.satId, keyMap := pick o.keyMap n.keyMap r.keyMap
    rfKeyId := pick o.rfKeyId n.rfKeyId r.rfKeyId, keyGen := pick o.keyGen n.keyGen r.keyGen
    icUpHw := pick o.icUpHw n.icUpHw r.icUpHw, fcUpHw := pick o.fcUpHw n.fcUpHw r.fcUpHw, idur := pick o.idur n.idur r.idur
    lastTend := pick o.lastTend n.lastTend r.lastTend, lastSeq := pick o.lastSeq n.lastSeq r.lastSeq
    dupMap := if o.idur = n.idur then r.dupMap else 0xFFFF, gapRun := if o.idur = n.idur then r.gapRun else 0
    clkOfs := pick o.clkOfs n.clkOfs r.clkOfs, tou := pick o.tou n.tou r.tou, credit := pick o.credit n.credit r.credit
    creditHeld := pick o.creditHeld n.creditHeld r.creditHeld, relayCmd := pick o.relayCmd n.relayCmd r.relayCmd
    relayRpt := pick o.relayRpt n.relayRpt r.relayRpt, prepayProfile := pick o.prepayProfile n.prepayProfile r.prepayProfile
    relayCmdTime := pick o.relayCmdTime n.relayCmdTime r.relayCmdTime, segment := pick o.segment n.segment r.segment
    phaseConf := pick o.phaseConf n.phaseConf r.phaseConf, tamperCnt := pick o.tamperCnt n.tamperCnt r.tamperCnt
    eventFlags := pick o.eventFlags n.eventFlags r.eventFlags, imgId := pick o.imgId n.imgId r.imgId
    imgBlocks := pick o.imgBlocks n.imgBlocks r.imgBlocks, pushState := pick o.pushState n.pushState r.pushState
    calVersion := pick o.calVersion n.calVersion r.calVersion, label := pick o.label n.label r.label
    billSeq := pick o.billSeq n.billSeq r.billSeq, state := pick o.state n.state r.state }

/-- A FIELDS delta whose credit moved without BILL_SEQ is that of a top-up; with it, that of a billing. -/
def topupOf (o n : MeterRec) : Int := if o.billSeq = n.billSeq then n.credit - o.credit else 0

/-- A delta that carries billing only, and neither a top-up nor a change of CREDIT_HELD, is not journalled (R69). -/
def billingOnly (o n : MeterRec) : Bool :=
  let m := { n with tou := o.tou, credit := o.credit, billSeq := o.billSeq, clkOfs := o.clkOfs, icUpHw := o.icUpHw, fcUpHw := o.fcUpHw
                    lastTend := o.lastTend, lastSeq := o.lastSeq }
  decide (o.patch o m = o) && decide (topupOf o n = 0)

/-- A ceiling that the mirror stream brings: journalled when it is new. -/
def State.takeCeil (s : State) (d : TileId) (slot ceil : Nat) : State := if s.ceil d slot = ceil then s else s.setCeil d slot ceil

/-- Keep the hash entries of a slot in step with its record (R58). -/
def State.rehash (s : State) (d : TileId) (slot : Nat) (old : MeterRec) : State :=
  let r := s.meter d slot
  let ids := fun (r : MeterRec) => if r.state = 1 then r.ids else []
  if ids r = ids old then s
  else
    let m := s.midxOf d slot
    ((s.hashRemove d m).hashEnter d m (ids r)).1

/-- A drained billing delta, or a RECORD image, covers the backlog items of the slot up to its BILL_SEQ (R265). -/
def State.billed (s : State) (d : TileId) (slot upTo : Nat) : State :=
  let s := s.onEph d fun e => { e with backlog := e.backlog.filter fun x => !(decide (midxSlot x.1.who = slot) && decide (x.1.seq ≤ upTo)) }
  s.wr Reg.eph_backlog d (s.eph d).backlog.length

/-- Apply a FIELDS delta: IC_DOWN takes the ceiling; a drained billing delta shortens the backlog (R265). -/
def State.applyFields (s : State) (d : TileId) (slot : Nat) (o n : MeterRec) (ceil : Nat) : State :=
  let own := s.meter d slot
  let s := s.takeCeil d slot ceil
  let r := { own.patch o n with icDown := ceil, updCnt := (s.meter d slot).updCnt }
  let s := if billingOnly o n then s.setMeter d slot r else s.journalMeter d slot r .fields (topupOf o n)
  let s := s.rehash d slot own
  if o.billSeq = n.billSeq then s else s.billed d slot n.billSeq

/-- Apply a RECORD image: that of a FREE record is a release (R64, R69). -/
def State.applyImage (s : State) (d : TileId) (slot : Nat) (r : MeterRec) (ceil : Nat) : State :=
  let own := s.meter d slot
  let s := if r.state = 0 then s.freeMeter d slot r.midxGen
    else (s.journalMeter d slot { r with icDown := ceil, updCnt := own.updCnt } .enrol).takeCeil d slot ceil
  (s.rehash d slot own).billed d slot (if r.state = 0 then own.lastSeq else r.billSeq)

/-- LAST_TEND and LAST_REG that a meter record held just before the record at SEQ `q` updated it, from the records held. -/
def State.baseBefore (s : State) (d : TileId) (slot q : Nat) : Nat × List Int :=
  (((s.archived d (seqStream q)).filter fun a => decide (a.seq < q) && decide (midxSlot a.who = slot)).mergeSort fun x y => decide (x.seq ≤ y.seq)).foldl
    (fun b a => match a.body with
      | .meter _ tend _ qual regs => if !bit qual 7 && decide (b.1 < tend) then (tend, regs) else b
      | _ => b) (0, List.replicate 6 0)

/-- A METER record above the meter's BILL_SEQ goes into the backlog with its baseline, once (R265); a full backlog makes the bay UNSYNCHRONISED. -/
def State.keepUnbilled (s : State) (d : TileId) (a : ArchRec) (base : Nat × List Int) : State :=
  if (s.eph d).backlog.any (fun x => decide (x.1.seq = a.seq)) then s
  else if 16384 ≤ (s.eph d).backlog.length then s.unsync (bayOf d)
  else
    let s := s.onEph d fun e => { e with backlog := e.backlog ++ [(a, base)] }
    s.wr Reg.eph_backlog d (s.eph d).backlog.length

/-- Drain a RECORD item: queued to the FTL in its page, applied by R47 to a record that has not seen it, kept in the backlog above BILL_SEQ. A record that a
RECORD image has shown already (R499) has its baseline from the records held. -/
def State.applyRec (s : State) (d : TileId) (a : ArchRec) : State :=
  let b := bayOf d
  let s := s.rateCount b
  let s := if (s.heldRec d a.seq).isSome then s
    else
      let s := s.onLehr d fun l => { l with page := l.page ++ [a], pageFirst := if l.page = [] then some s.now else l.pageFirst }
      if 256 ≤ (s.vol d).lehr.page.length then s.flushPage d else s
  match a.body with
  | .meter _ _ _ _ _ =>
    let slot := midxSlot a.who
    let r := s.meter d slot
    if r.state = 0 then s
    else if a.seq ≤ r.lastSeq then (if a.seq ≤ r.billSeq then s else s.keepUnbilled d a (s.baseBefore d slot a.seq))
    else
      let s := if a.seq ≤ r.billSeq then s else s.keepUnbilled d a (r.lastTend, r.lastReg)
      s.setMeter d slot (r.applyRecord (s.rd Reg.gather_grid_phase d) a)
  | _ => s

/-- The entry of a tile under a key: of the map, or of its running image (R666). -/
def State.entryAt (s : State) (t : TileId) (key : Nat) : Option Entry :=
  (entryOf key).orElse fun _ => (s.vol t).boot.defs.find? fun e => decide (e.off = keyRun key / 256) && decide (e.sub ≤ key % 256) && decide (key % 256 < e.sub + e.cnt)

/-- Apply one run of a CONFIG item; one that no entry of this tile matches in type is discarded. The calendar in force comes with the seconds since which
it and the one before it are in force (R262, R263). A segment tree committed meanwhile leaves the standby's books of before the tree that they have
(R197). -/
def State.applyRun (s : State) (d : TileId) (since : Nat × Nat) (run : Nat × Val) : State :=
  let key := (0x4000 + 0x400 * d.val) * 256 + run.1
  let b := bayOf d
  let good := match s.entryAt d key, run.2 with
    | some e, .num v => !e.ty.cells && decide (v < e.span)
    | some e, .oct _ => e.ty.cells
    | none, _ => false
  if !good then (s.bump Reg.bay_mirror_schema_discards b).alarm b 4 true
  else match s.entryAt d key, run.2 with
    | some e, .num v =>
      let i := key % 256 - e.sub
      if e = Reg.fw_schema then s else s.wr e d v i
    | _, .oct c =>
      let s := if run.1 = Reg.balance_tree.runKey 0 ∧ (s.bay b).resync.isNone = true then s.treeChange d else s
      let s := { s with regs := if c = [] then Tbl.del s.regs key else Tbl.put s.regs key (.oct c) }
      if run.1 = Reg.eph_calendar.runKey 0 then s.onTile d fun x => { x with calSince := since } else s
    | _, _ => s

/-- The group being taken from the FIFO. -/
def State.onLastGroup (s : State) (b : BayId) (f : AuditGroup → AuditGroup) : State :=
  s.onBay b fun x => { x with groups := match x.groups.reverse with
                                        | g :: r => (f g :: r).reverse
                                        | [] => [] }

/-- The CONFIG keys that the stream carries (R494). -/
def Entry.carried (e : Entry) : Bool :=
  decide (e.area = .tile) && ((decide (e.acc = .rws) && decide (0x040 ≤ e.off) && decide (e.off ≤ 0x25F)) ||
  [Reg.marver_rule_table, Reg.marver_ruleset_version, Reg.balance_tree, Reg.balance_tree_version, Reg.eph_calendar, Reg.eph_cal_passive
   , Reg.eph_cal_previous, Reg.eph_cal_version, Reg.eph_push_state, Reg.eph_push_descriptor, Reg.vault_sat_anchor].contains e)

/-- Apply one item at the standby; `judge` says whether audit groups are kept for their check. -/
def State.applyItem (s : State) (b : BayId) (d : TileId) (judge : Bool) (i : MItem) : State :=
  match i with
  | .record a => s.applyRec d a
  | .meterRec slot r c => s.applyImage d slot r c
  | .meterFields slot o n c => s.applyFields d slot o n c
  | .config runs since => runs.foldl (fun s r => s.applyRun d since r) s
  | .legalRegs k l e => s.applyLegal d k l e
  | .calBlock c => s.mirroredCal d c
  | .keyBlob place x =>
    let s := s.setBlob d place x
    if place = blobPlace 2 7 then s.attestBlob d else s
  | .split add midx g sec =>
    let e : SplitEnt := { midx := midx, g := g, s := sec }
    s.onEph d fun x => { x with splits := if add then (x.splits.filter fun y => y != e) ++ [e] else x.splits.filter fun y => y != e }
  | .topupId id =>
    let n := leNat id
    let add := fun (l : List Nat) => if l.contains n then l else keepLast 4096 (l ++ [n])
    (s.onEph d fun e => { e with topups := add e.topups }).onMedia d fun m => { m with topups := add m.topups }
  | .ceilings rf bcast plc => ((s.takeCeil d (ctrSlot 1) rf).takeCeil d (ctrSlot 2) bcast).takeCeil d (ctrSlot 0) plc
  | .duty band bucket a p =>
    s.onRf d fun r => { r with bands := r.bands.set band (Tbl.put (r.bands.getD band []) bucket (a, p)), known := max r.known ((bucket + 1) * 10000000000) }
  | .restep sec =>
    if (s.restepTable d).contains sec then s
    else (s.setRestepTable d (keepLast 4 (s.restepTable d ++ [sec]))).onBal d fun x => { x with suspect := keepLast 64 (x.suspect ++ [(sec, some sec)]) }
  | .tamperNear bits =>
    let l := (List.range 4096).filter fun n => bit (bits.getD (n / 8) 0).toNat (n % 8)
    s.onBal d fun x => { x with flags := l }
  | .discard k f l => s.queueMap d (.discard k f l none)
  | .localRelay c0 c1 => (s.wr Reg.metro_relay_state d c0 0).wr Reg.metro_relay_state d c1 1
  | .auditHead q n kg near split sp dg =>
    let s := s.onBay b fun x => { x with auditAt := if x.fifo.drain.any (fun y => match y with
                                                        | .auditHead _ _ _ _ _ _ _ => true
                                                        | _ => false) then some s.now else none }
    let g : AuditGroup := { seq := q, count := n, keyGen := kg, near := near, splitS := if split then sp else 0, digest := dg, inp := none, ctx := [], at_ := s.now }
    if judge then s.onBay b fun x => { x with groups := x.groups ++ [g] } else s.bump Reg.bay_audit_inconclusive b
  | .auditIn o => if judge then s.onLastGroup b fun g => { g with inp := some o } else s
  | .auditCtx c => if judge then s.onLastGroup b fun g => { g with ctx := c } else s
  | .markBegin _ => s
  | .markEnd =>
    let later := (s.bay b).fifo.drain ++ (s.bay b).fifo.fill ++ (s.bay b).mdelay.map Prod.fst ++ (s.bay b).link
    (match (s.bay b).resync with
     | some r =>
       if r.phase = 3 ∧ later.all (fun y => match y with
           | .markEnd => false
           | _ => true) = true then
         let s := (s.onBay b fun x => { x with resync := none }).bump Reg.bay_mirror_resyncs b
         (s.wr Reg.bay_mirror_resync_progress b 0).setSync b 0
       else s
     | none => s)
  | .cont => s

/-- A standby that applies items: in RUN, loaded (T6). -/
def State.drains (s : State) (d : TileId) : Bool := s.inRun d && decide (6 ≤ (s.vol d).boot.step)

/-- Take the next item of the FIFO and apply it. -/
def State.drainOne (s : State) (b : BayId) (d : TileId) (judge : Bool) : State :=
  let a := (s.bay b).fifo.read (s.rd Reg.bay_mirror_wake_level b)
  let s := (s.onBay b fun x => { x with fifo := a.q }).wr Reg.bay_mirror_fill b a.q.fill_
  let s := if a.reset ∧ a.lost = 0 then s.unsync b else s.mirrorLost b a.lost
  match a.item with
  | some i => s.applyItem b d judge i
  | none => s

/-- An audit group waits for its check. -/
def State.groupReady (s : State) (b : BayId) : Bool :=
  match (s.bay b).groups with
  | g :: _ => g.inp.isSome && !g.ctx.isEmpty
  | [] => false

/-- STANDBY_DRAIN: the next item is applied; a complete audit group is checked before the items behind it. During a promotion the FIFO is the promoted tile's, which
empties it in step 5 of R506, until step 8. -/
def standbyDrain (b : BayId) (s : State) : State :=
  match s.standbyOf b with
  | some d =>
    if !s.drains d ∨ (s.bay b).promo.any (fun p => decide (p.step < 9)) = true ∨ (s.role d = 1 ∧ s.groupReady b = true) then s else s.drainOne b d true
  | none => s

/-- STANDBY_DRAIN (R496). -/
def execStandbyDrain (b : BayId) (s : State) : Host.Outcome State Fault Refusal := finish (standbyDrain b) s

/-- Apply every item left in the FIFO (step 5 of R506): audit groups count as inconclusive. -/
def State.drainAll (s : State) (b : BayId) (d : TileId) : State :=
  let open_ := (s.bay b).groups.length
  let s := (if open_ = 0 then s else s.bump Reg.bay_audit_inconclusive b 0 open_).onBay b fun x => { x with groups := [] }
  (List.range (s.bay b).fifo.fill_).foldl (fun s _ => s.drainOne b d false) s

/-- STANDBY_WAKE: the FIFO holds the wake level, or an audit group has waited its timer. -/
def standbyWake (b : BayId) (s : State) : State :=
  let x := s.bay b
  let old := match x.auditAt with
    | some a => decide (a + s.rd Reg.bay_audit_timer_ms b * 1000000 ≤ s.now)
    | none => false
  match s.standbyOf b with
  | some d => if x.promo.isNone ∧ (s.rd Reg.bay_mirror_wake_level b ≤ x.fifo.fill_ ∨ old = true) then s.wakeEvent d else s
  | none => s

/-- STANDBY_WAKE (R497). -/
def execStandbyWake (b : BayId) (s : State) : Host.Outcome State Fault Refusal := finish (standbyWake b) s

/-! ### Resync (R499) -/

/-- H_s: the highest SEQ of stream 0 that the standby holds outside declared gaps. -/
def State.highHeld (s : State) (d : TileId) : Nat :=
  let cs := s.closures d 0
  ((s.whole d 0).filter fun r => !inGap cs r.seq).foldl (fun a r => max a r.seq) 0

/-- The CONFIG snapshot: the schema version and every carried entry, those that the running image defines included. -/
def State.snapshot (s : State) (t : TileId) : List (Nat × Val) :=
  (Reg.fw_schema.runKey 0, .num (s.rd Reg.fw_schema t)) :: ((tileEntries ++ (s.vol t).boot.defs).filter Entry.carried).flatMap fun e =>
    (List.range e.cnt).map fun i => (e.runKey i, if e.ty.cells then .oct (s.cells e t i) else .num (s.rd e t i))

/-- Bytes of a run. -/
def State.runBytes (s : State) (t : TileId) (r : Nat × Val) : Nat :=
  7 + match s.entryAt t ((0x4000 + 0x400 * t.val) * 256 + r.1) with
    | some e => e.size
    | none => 0

/-- Step 3: everything but the records. -/
def State.placeSnapshot (s : State) (t : TileId) : State :=
  let v := s.vol t
  let runs := s.snapshot t
  let s := s.mirror t (.config runs (s.tile t).calSince) (2 + (runs.map (s.runBytes t)).sum)
  let s := s.mirror t (.calBlock (s.rdAll Reg.metro_cal_block t))
  let s := s.mirror t (.legalRegs 1 (s.legalRegs t) (s.tile t).legalEnd)
  let s := s.mirror t (.ceilings (s.ceil t (ctrSlot 1)) (s.ceil t (ctrSlot 2)) (s.ceil t (ctrSlot 0)))
  let s := (List.range 4).foldl (fun s i => (v.rf.bands.getD i []).foldl (fun s x =>
    if x.1 < s.rfNow / 10000000000 then s.mirror t (.duty i x.1 x.2.1 x.2.2) else s) s) s
  let s := s.mirror t (.localRelay (s.rd Reg.metro_relay_state t 0) (s.rd Reg.metro_relay_state t 1))
  let s := s.mirror t (.tamperNear ((List.range 512).map fun i =>
    BitVec.ofNat 8 (((List.range 8).filter fun k => v.bal.flags.contains (8 * i + k)).map fun k => 2 ^ k).sum))
  let s := v.eph.splits.foldl (fun s e => s.mirror t (.split true e.midx e.g e.s)) s
  let s := (s.restepTable t).foldl (fun s x => s.mirror t (.restep x)) s
  let s := v.eph.topups.foldl (fun s x => s.mirror t (.topupId (natLE 8 x))) s
  let s := (s.slotsOf t fun r => decide (r.state ≠ 0)).foldl (fun s i => s.mirrorRec t i) s
  v.vault.blobs.foldl (fun s e => s.mirror t (.keyBlob e.1 (some e.2))) s

/-- RESYNC: the next step: BEGIN, the snapshot, or the catch-up with END. A standby in HOLD or RETAIN is woken for it (DEDUCED from R499 step 1, notes/assumptions/26.md). -/
def resync (b : BayId) (s : State) : State :=
  match s.activeOf b, s.standbyOf b with
  | some t, some d =>
    if !s.hasStandby b ∨ !s.inRun t ∨ (s.bay b).promo.isSome = true ∨ (s.bay b).handover = true then s
    else match (s.bay b).resync with
      | none =>
        if s.rd Reg.bay_mirror_sync b ≠ 1 ∧ s.rd Reg.bay_mirror_sync b ≠ 2 then s
        else if !s.drains d then (if (s.tile d).power.st = .hold ∨ (s.tile d).power.st = .retain then s.wakeEvent d else s)
        else
          let h := s.highHeld d + 1
          let s := (s.onBay b fun x => { x with resync := some { first := h, next := h, phase := 1 } }).mirror t (.markBegin h)
          ((s.alarm b 4 false).wr Reg.bay_mirror_resync_progress b 0).setSync b 2
      | some r =>
        if r.phase = 1 then
          let s := (s.placeSnapshot t).onBay b fun x => { x with resync := some { r with phase := 2 } }
          s.wr Reg.bay_mirror_resync_progress b 33
        else if r.phase = 2 then
          let l := ((s.archived t 0).filter fun a => decide (r.first ≤ a.seq)).mergeSort fun x y => decide (x.seq ≤ y.seq)
          let s := s.onBay b fun x => { x with resync := some { r with phase := 3, next := (l.getLast?.map fun a => a.seq + 1).getD r.first } }
          let s := (l.foldl (fun s a => s.mirror t (.record a)) s).mirror t .markEnd
          s.wr Reg.bay_mirror_resync_progress b 66
        else s
  | _, _ => s

/-- RESYNC (R499). -/
def execResync (b : BayId) (s : State) : Host.Outcome State Fault Refusal := finish (resync b) s

/-! ### The shadow audit (R502 to R504, R635) -/

/-- The records of an audited group as tile `t` forms them from its own copy of the rule set, with their TAGs; none when it holds another rule-set version or not the key. -/
def State.formGroup (s : State) (t : TileId) (g : AuditGroup) : Option (List ArchRec) :=
  let set := fld g.ctx 8 1
  let cls := fld g.ctx 9 1
  match g.inp, s.openPlace t (archPlace (g.keyGen % 16)) with
  | some o, some key =>
    if s.setVersion t set ≠ fld g.ctx 0x0A 2 then none
    else
      let maps := s.maps t cls
      let last := fld g.ctx 0 6
      let regs := regsOf g.ctx 0x10
      let j := judge { rd := o, lastTend := last, lastReg := regs, phase := fld g.ctx 6 1, rc := s.clsRegs t cls, maps := maps
                       rules := s.rules t set, vf := if bit (fld g.ctx 7 1) 0 then some (fld g.ctx 0x0C 4) else none }
      let out := j.group.foldl (fun (a : List PreRec × List Int × Bool) p =>
        let hist := a.2.2 && decide (last < p.tend)
        if g.splitS ≠ 0 ∧ p.tend - p.idur < g.splitS ∧ g.splitS < p.tend then
          let q := splitPair maps p.idur g.splitS j.rolls hist a.2.1 p
          (a.1 ++ [q.1, q.2], p.regs, true)
        else (a.1 ++ [p], p.regs, true)) ([], regs, decide (last ≠ 0))
      some ((out.1.zip (List.range out.1.length)).map fun x =>
        let body : RecBody := .meter x.1.out x.1.tend x.1.idur (setBit x.1.qual 6 g.near) x.1.regs
        { seq := g.seq + x.2, who := o.midx, body := body, tag := tagWith key (t.val / 2) (recHead (g.seq + x.2) o.midx body) })
  | _, _ => none

/-- The digest that a tile computes; `upset` is what a fault of its own adds to it (zeros: none). -/
def groupDigest (l : List ArchRec) (upset : Bytes) : Bytes := xorB (sha256 (l.map recBytes).flatten) (fit 32 upset)

/-- Bit `k` of byte 0 inverted (X′, X″ of R635). -/
def flipBit (x : Bytes) (k : Nat) : Bytes := xorB x (fit 32 [BitVec.ofNat 8 (2 ^ k)])

/-- One count of an armed AUDIT_MISMATCH is spent. -/
def State.spendAudit (s : State) (b : BayId) : State :=
  match s.bayArm b 2 with
  | some a =>
    if a.count ≤ 1 then s.endBayArm b 2 0
    else s.onBay b fun x => { x with arms := x.arms.set 2 (some { a with count := a.count - 1 }) }
  | none => s

/-- AUDIT_CHECK: the standby checks the oldest group; `upset` is what a fault of the standby adds to its digest. In DEGRADED no tie-break starts, since no
role changes (R22). -/
def auditCheck (b : BayId) (upset : Bytes) (s : State) : State :=
  match s.standbyOf b, (s.bay b).groups with
  | some d, g :: rest =>
    if s.role d ≠ 1 ∨ !s.drains d ∨ !s.groupReady b ∨ (s.bay b).tie.isSome = true then s
    else
      let s := (s.onBay b fun x => { x with groups := rest }).loadSlot d 8 (archPlace (g.keyGen % 16))
      let own := (List.range g.count).map fun i => s.heldRec d (g.seq + i)
      match s.formGroup d g with
      | none => s.bump Reg.bay_audit_inconclusive b
      | some l =>
        if own.any Option.isNone then s.bump Reg.bay_audit_inconclusive b
        else
          let s0 := groupDigest l upset
          let start := fun (s : State) (x : Bytes) (inj : Option Nat) =>
            if s.pier.degraded then s else (s.setRole d 2).onBay b fun y => { y with tie := some { grp := g, a0 := g.digest, s0 := x, a1 := none, s1 := none, start := s.now, inj := inj } }
          if s0 = g.digest ∧ own = l.map some then
            match s.bayArm b 2 with
            | some a => start (s.spendAudit b) (flipBit s0 0) (some (if a.p1 = 2 ∧ (s.promotable b).isNone then 0 else a.p1))
            | none => (s.bump Reg.bay_audit_checked b).wr Reg.bay_audit_last_match_seq b g.seq
          else start (s.bump Reg.bay_audit_mismatches b) s0 none
  | _, _ => s

/-- AUDIT_CHECK (R502). -/
def execAuditCheck (b : BayId) (upset : Bytes) (s : State) : Host.Outcome State Fault Refusal := finish (auditCheck b upset) s

/-- The verdict code for four digests (0 ACTIVE_FAULT, 1 STANDBY_FAULT, 2 BOTH_FAULT); a tile that did not report (an empty digest) disagrees with itself. -/
def verdictOf (a0 s0 a1 s1 : Bytes) : Nat :=
  let sEq := decide (s0 = s1) && !s1.isEmpty
  let aEq := decide (a0 = a1) && !a1.isEmpty
  if sEq && !aEq then 0 else if !sEq && !aEq then 2 else 1

/-- The verdict is given once both tiles have reported or failed to. -/
def State.verdict (s : State) (b : BayId) : State :=
  match (s.bay b).tie, s.standbyOf b with
  | some t, some d =>
    match t.a1, t.s1 with
    | some a1, some s1 =>
      let v := verdictOf t.a0 t.s0 a1 s1
      let s := (s.onBay b fun x => { x with tie := none }).setRole d 1
      let s := s.pierEvent (0x80 + b.val) 2 0x0203 t.grp.seq v (b2n t.inj.isSome)
      let s := match t.inj with
        | some _ => s.bump Reg.bay_diag_audit_injected b
        | none =>
          let s := s.bump Reg.bay_audit_verdicts b v
          if v = 1 then s
          else
            let last := match s.activeOf b with
              | some a => ((s.vol a).lehr.stream 0).next - 1
              | none => t.grp.seq
            (s.wr Reg.bay_audit_suspect_first b (s.rd Reg.bay_audit_last_match_seq b + 1)).wr Reg.bay_audit_suspect_last b last
      if v = 0 then s.trigger b 2
      else
        let s := s.faultTile d 0
        if v = 2 then s.alarm b 3 true else s
    | _, _ => s
  | _, _ => s

/-- TIE_BREAK: a tile reports the digest of the group formed again: the standby S1, or the active A1. -/
def tieBreak (b : BayId) (active : Bool) (upset : Bytes) (s : State) : State :=
  match (s.bay b).tie, if active then s.activeOf b else s.standbyOf b with
  | some t, some u =>
    if !s.inRun u ∨ (if active then t.a1.isSome else t.s1.isSome) = true then s
    else
      let x := match s.formGroup u t.grp with
        | some l => groupDigest l upset
        | none => []
      let true_ := t.a0
      let x := match t.inj, active with
        | none, _ => x
        | some 0, _ => true_
        | some 1, a => if a then true_ else flipBit true_ 0
        | some 2, _ => flipBit true_ 0
        | some _, a => if a then flipBit true_ 0 else flipBit true_ 1
      (s.onBay b fun y => { y with tie := some (if active then { t with a1 := some x } else { t with s1 := some x }) }).verdict b
  | _, _ => s

/-- TIE_BREAK (R503). -/
def execTieBreak (b : BayId) (active : Bool) (upset : Bytes) (s : State) : Host.Outcome State Fault Refusal := finish (tieBreak b active upset) s

/-- TIE_BREAK_TIMEOUT: a tile that has not reported 100 ms after the order counts as disagreeing with itself. -/
def tieBreakTimeout (b : BayId) (s : State) : State :=
  match (s.bay b).tie with
  | some t =>
    if s.now < t.start + 100000000 then s
    else (s.onBay b fun y => { y with tie := some { t with a1 := some (t.a1.getD []), s1 := some (t.s1.getD []) } }).verdict b
  | none => s

/-- TIE_BREAK_TIMEOUT (R503). -/
def execTieBreakTimeout (b : BayId) (s : State) : Host.Outcome State Fault Refusal := finish (tieBreakTimeout b) s

end Sys2Proof.Machine
end

