-- ==== Sys2Proof/Machine/Diag.lean ====
section
/-! DEFINITION. Diag.lean: chapter 20: the diagnostic unlock of a bay and the perturbation controls as commands. -/

namespace Sys2Proof.Machine

/-! ### Unlock and lock (R628, R629) -/

/-- Entry index and sub-index of `device.diag.unlock` and `device.diag.lock`, as OBJ (R639). -/
def unlockObj (k : Nat) : Nat := Reg.device_diag_unlock.index 0 * 256 + k

/-- `device.diag.unlock`: each named bay is unlocked for `secs` seconds from now; the unlock of a bay whose LEGAL_EN_N counts as asserted ends at
once (DEDUCED, notes/assumptions/24.md). -/
def diagUnlockDo (bays secs : Nat) (s : State) : State × Status :=
  if 255 < bays ∨ secs < 60 ∨ 86400 < secs then (s, .invalid)
  else
    let s := allBays.foldl (fun (s : State) (b : BayId) =>
      if bit bays b.val && !(s.bay b).legalEn then s.onBay b fun x => { x with unlockTo := s.now + secs * 1000000000 } else s) s
    (s.pierEvent 0xFF 1 0x1E01 (unlockObj 0) secs bays, .ok)

/-- DIAG_UNLOCK (R628). -/
def execDiagUnlock (bays secs : Nat) (s : State) : Host.Outcome State Fault Refusal :=
  finish (fun s => let r := diagUnlockDo bays secs s; r.1.answer 255 r.2) s

/-- `device.diag.lock`. -/
def diagLockDo (bays : Nat) (s : State) : State × Status :=
  if 255 < bays then (s, .invalid)
  else
    let s := allBays.foldl (fun (s : State) (b : BayId) => if bit bays b.val then s.endUnlock b else s) s
    (s.pierEvent 0xFF 0 0x1E02 (unlockObj 1) 0 bays, .ok)

/-- DIAG_LOCK (R628, R629). -/
def execDiagLock (bays : Nat) (s : State) : Host.Outcome State Fault Refusal :=
  finish (fun s => let r := diagLockDo bays s; r.1.answer 255 r.2) s

/-- UNLOCK_EXPIRY: the time of a bay's unlock has run out. -/
def unlockExpiry (b : BayId) (s : State) : State :=
  if (s.bay b).unlockTo ≠ 0 ∧ s.unlocked b = false then s.endUnlock b else s

/-- UNLOCK_EXPIRY (R628). -/
def execUnlockExpiry (b : BayId) (s : State) : Host.Outcome State Fault Refusal := finish (unlockExpiry b) s

/-! ### Arm records (R630, R631) -/

/-- The arm record as written: DURATION_S, P1, P2, P3, and whether STATE and the reserved byte are 0. -/
structure ArmIn where
  dur : Nat
  p1 : Nat
  p2 : Nat
  p3 : Nat
  rest : Bool
  deriving DecidableEq, Repr

/-- Read an arm record. -/
def ArmIn.parse (b : Bytes) : ArmIn where
  dur := fld b 0 4
  p1 := fld b 4 4
  p2 := fld b 8 4
  p3 := fld b 12 2
  rest := decide (fld b 14 2 = 0)

/-- DURATION_S, P1, P2, P3 and STATE as a GET gives them. -/
def armBytes (left p1 p2 p3 : Nat) : Bytes := natLE 4 left ++ natLE 4 p1 ++ natLE 4 p2 ++ natLE 2 p3 ++ [1, 0]

/-- Seconds that remain until clock count `to_`, rounded up. -/
def secsLeft (now to_ : Nat) : Nat := (to_ - now + 999999999) / 1000000000

/-- The arm record of a tile control, of a bay control: zeros while it is not armed. -/
def State.tileArmBytes (s : State) (t : TileId) (k : Nat) : Bytes :=
  match s.tileArm t k with
  | some a => armBytes (secsLeft s.now a.until_) a.p1 a.p2 a.p3
  | none => List.replicate 16 0
def State.bayArmBytes (s : State) (b : BayId) (k : Nat) : Bytes :=
  match s.bayArm b k with
  | some a => armBytes (secsLeft s.now a.until_) a.p1 a.p2 0
  | none => List.replicate 16 0

/-- The limits of R632 for the tile controls 0 to 3. -/
def tileArmOk (k : Nat) (a : ArmIn) : Bool := match k with
  | 0 => decide (a.p1 ≤ 6) && decide (1 ≤ a.p2) && decide (a.p2 ≤ 100000) && decide (a.p3 ≤ 15)
  | 1 => decide (a.p1 ≤ 6) && decide (a.p2 < outCap a.p1) && decide (a.p3 = 0)
  | 2 => decide (a.p1 ≤ 3) && decide (1 ≤ a.p2) && decide (a.p2 ≤ 16) && decide (a.p3 = 0)
  | _ => decide (a.p1 ≤ 6) && decide (1 ≤ a.p2) && decide (a.p2 ≤ 65535) && decide (a.p3 = 0)

/-- The limits of R633 for the bay controls 0 to 3. -/
def bayArmOk (k : Nat) (a : ArmIn) : Bool := match k with
  | 0 => decide (1 ≤ a.p1) && decide (a.p1 ≤ 100000) && decide (a.p2 = 0) && decide (a.p3 = 0)
  | 1 => decide (10 ≤ a.p1) && decide (a.p1 ≤ 5000) && decide (a.p2 ≤ 3) && decide (a.p3 = 0)
  | 2 => decide (a.p1 ≤ 3) && decide (1 ≤ a.p2) && decide (a.p2 ≤ 16) && decide (a.p3 = 0)
  | _ => decide (1 ≤ a.p1) && decide (a.p1 ≤ 2048) && decide (a.p2 = 0) && decide (a.p3 = 0)

/-- Orders 1 to 4 of R630: the refusal, or none. `one` says that the control is one-shot, `fits` that its limits hold, `okay` that its condition
under order 4 does. -/
def State.armCheck (s : State) (b : BayId) (a : ArmIn) (one fits okay : Bool) : Option Status :=
  let time := if one then decide (a.dur = 0)
    else decide (1 ≤ a.dur) && decide (a.dur ≤ 86400) && decide (s.now + a.dur * 1000000000 ≤ (s.bay b).unlockTo)
  if !s.unlocked b then some .conflict
  else if !(a.rest && fits && time) then some .invalid
  else if s.legalRuns (tileOf b false) || s.legalRuns (tileOf b true) then some .busy
  else if !okay then some .conflict
  else none

/-- LOST_INJECT acts: the oldest `k` items of the fill bank of a queue are lost (R632). -/
def State.lostInject (s : State) (t : TileId) (code : Fin 7) (k : Nat) : State :=
  let q := s.queue t code
  let n := min k q.fill.length
  let s := s.setQueue t code (({ q with fill := q.fill.drop n } : PPQ QItem).note (s.level t code))
  if n = 0 then s else s.bump Reg.queue_lost t code n

/-- A write of a tile control's arm record. -/
def armTile (t : TileId) (k : Fin 4) (rec : Bytes) (s : State) : State × Status :=
  let a := ArmIn.parse rec
  let obj := diagObjT t k
  if rec.length ≠ 16 then (s, .length)
  else if leNat rec = 0 then (s.endTileArm t k 1, .ok)
  else match s.armCheck (bayOf t) a (decide (k.val = 3)) (tileArmOk k a) (decide (k.val ≠ 2) || decide (s.rd Reg.media_state t = 3)) with
    | some st => (s.event t 0 0x1E05 obj st.code, st)
    | none =>
      let s := (s.bump Reg.device_diag_arms 0).event t 1 0x1E03 obj a.dur a.p1
      if k.val = 3 then ((s.lostInject t ⟨a.p1 % 7, by omega⟩ a.p2).event t 0 0x1E04 obj 0, .ok)
      else
        let s := if k.val = 1 then s.returnCredits t else s
        let x : Arm := { p1 := a.p1, p2 := a.p2, p3 := a.p3, until_ := s.now + a.dur * 1000000000, count := a.p2 }
        let s := s.onVol t fun v => { v with diag := { v.diag with arms := v.diag.arms.set k (some x) } }
        (if k.val = 1 then s.starve t else s, .ok)

/-- The command: the write and its answer. -/
def armTileCmd (t : TileId) (k : Fin 4) (rec : Bytes) (s : State) : State := let r := armTile t k rec s; r.1.answer t r.2

/-- EGRESS_DELAY (R632). -/
def execEgressDelay (t : TileId) (rec : Bytes) (s : State) : Host.Outcome State Fault Refusal := finish (armTileCmd t 0 rec) s

/-- CREDIT_STARVE (R632). -/
def execCreditStarve (t : TileId) (rec : Bytes) (s : State) : Host.Outcome State Fault Refusal := finish (armTileCmd t 1 rec) s

/-- NAND_FAIL (R632, R634). -/
def execNandFail (t : TileId) (rec : Bytes) (s : State) : Host.Outcome State Fault Refusal := finish (armTileCmd t 2 rec) s

/-- LOST_INJECT (R632). -/
def execLostInject (t : TileId) (rec : Bytes) (s : State) : Host.Outcome State Fault Refusal := finish (armTileCmd t 3 rec) s

/-- MIRROR_LOST acts on the mirror FIFO (R633). -/
def State.mirrorInject (s : State) (b : BayId) (k : Nat) : State :=
  let q := (s.bay b).fifo
  let n := min k q.fill.length
  let q : PPQ MItem := ({ q with fill := q.fill.drop n } : PPQ MItem).note (s.rd Reg.bay_mirror_wake_level b)
  ((s.onBay b fun x => { x with fifo := q }).wr Reg.bay_mirror_fill b q.fill_).mirrorLost b n

/-- A write of a bay control's arm record. -/
def armBay (b : BayId) (k : Fin 4) (rec : Bytes) (s : State) : State × Status :=
  let a := ArmIn.parse rec
  let obj := diagObjB b k
  let whr := 0x80 + b.val
  let okay := decide ((s.bay b).modeNow = 0) && (decide (k.val ≠ 2) || decide (a.p1 < 2) || (s.promotable b).isSome) &&
    (decide (k.val ≠ 3) || s.hasStandby b)
  if rec.length ≠ 16 then (s, .length)
  else if leNat rec = 0 then (s.endBayArm b k 1, .ok)
  else match s.armCheck b a (decide (k.val = 3)) (bayArmOk k a) okay with
    | some st => (s.pierEvent whr 0 0x1E05 obj st.code, st)
    | none =>
      let s := (s.bump Reg.device_diag_arms 0).pierEvent whr 1 0x1E03 obj a.dur a.p1
      if k.val = 3 then ((s.mirrorInject b a.p1).pierEvent whr 0 0x1E04 obj 0, .ok)
      else
        let x : BayArm := { p1 := a.p1, p2 := a.p2, until_ := s.now + a.dur * 1000000000, count := a.p2 }
        (s.onBay b fun y => { y with arms := y.arms.set k (some x) }, .ok)

/-- The command: the write and its answer. -/
def armBayCmd (b : BayId) (k : Fin 4) (rec : Bytes) (s : State) : State := let r := armBay b k rec s; r.1.answer (128 + b.val) r.2

/-- MIRROR_DELAY (R633). -/
def execMirrorDelay (b : BayId) (rec : Bytes) (s : State) : Host.Outcome State Fault Refusal := finish (armBayCmd b 0 rec) s

/-- PMBUS_DELAY (R633). -/
def execPmbusDelay (b : BayId) (rec : Bytes) (s : State) : Host.Outcome State Fault Refusal := finish (armBayCmd b 1 rec) s

/-- AUDIT_MISMATCH (R633, R635). -/
def execAuditMismatch (b : BayId) (rec : Bytes) (s : State) : Host.Outcome State Fault Refusal := finish (armBayCmd b 2 rec) s

/-- MIRROR_LOST (R633). -/
def execMirrorLost (b : BayId) (rec : Bytes) (s : State) : Host.Outcome State Fault Refusal := finish (armBayCmd b 3 rec) s

/-! ### The end of a control (R637) -/

/-- CONTROL_DISARM: 16 zero bytes are written to the record of a control of tile `t`, or, with `ofBay`, of its bay. -/
def controlDisarm (t : TileId) (ofBay : Bool) (k : Fin 4) (s : State) : State :=
  if ofBay then armBayCmd (bayOf t) k (List.replicate 16 0) s else armTileCmd t k (List.replicate 16 0) s

/-- CONTROL_DISARM (R630, R637). -/
def execControlDisarm (t : TileId) (ofBay : Bool) (k : Fin 4) (s : State) : Host.Outcome State Fault Refusal := finish (controlDisarm t ofBay k) s

/-- CONTROL_EXPIRY: the duration has run out, or the count is spent. -/
def controlExpiry (t : TileId) (ofBay : Bool) (k : Fin 4) (s : State) : State :=
  if ofBay then
    match s.bayArm (bayOf t) k with
    | some a => if a.until_ ≤ s.now ∨ (k.val = 2 ∧ a.count = 0) then s.endBayArm (bayOf t) k 0 else s
    | none => s
  else
    match s.tileArm t k with
    | some a => if a.until_ ≤ s.now ∨ (k.val = 2 ∧ a.count = 0) then s.endTileArm t k 0 else s
    | none => s

/-- CONTROL_EXPIRY (R637). -/
def execControlExpiry (t : TileId) (ofBay : Bool) (k : Fin 4) (s : State) : Host.Outcome State Fault Refusal := finish (controlExpiry t ofBay k) s

end Sys2Proof.Machine
end

