-- ==== Sys2Proof/Machine/Flags.lean ====
section
/-! DEFINITION. Flags.lean: the status words and masks that the manual forms from the state: service level, lanes, roles, pins, unlocks, armed
controls. -/

namespace Sys2Proof.Machine

/-- A number of flags, the first in bit 0. -/
def mask (l : List Bool) : Nat := (l.zip (List.range l.length)).foldl (fun a x => a + (if x.1 then 2 ^ x.2 else 0)) 0

/-- What a tile that must be active adds to R42: 0 when it is FAULTED, isolated or off. -/
def State.required (s : State) (t : TileId) : Nat :=
  let p := (s.tile t).power.st
  if s.role t = 4 ∨ p = Pwr.isolated ∨ p = Pwr.off then 0 else s.rd Reg.status_service t

/-- `device.service_level` (R42); 0 when no bay counts. -/
def State.serviceLevel (s : State) : Nat :=
  let bays := allBays.filter fun b => bit s.pier.plan (2 * b.val) || bit s.pier.plan (2 * b.val + 1)
  let l := bays.flatMap fun b =>
    if (s.bay b).modeNow = 1 then [s.required (tileOf b false), s.required (tileOf b true)]
    else [match s.activeOf b with
          | some t => s.required t
          | none => 0]
  match l with
  | [] => 0
  | x :: r => r.foldl min x

/-- `device.host.lane_state` (R417). -/
def State.laneState (s : State) : Nat :=
  let h := s.pier.hub
  mask [h.laneUp.getD 0 false, h.laneUp.getD 1 false, decide (h.active = 1)]

/-- `bay.own_pins` (R43). -/
def State.ownPins (s : State) (b : BayId) : Nat := mask [s.ownPin (tileOf b false), s.ownPin (tileOf b true)]

/-- `device.diag.unlocked` (R641). -/
def State.unlockedMask (s : State) : Nat := mask (allBays.map s.unlocked)

/-- `tile.diag.armed` (R641); a one-shot control is never armed. -/
def State.tileArmed (s : State) (t : TileId) : Nat := mask ((List.range 3).map fun k => (s.tileArm t k).isSome)

/-- `device.diag.armed`. -/
def State.armedMask (s : State) : Nat := mask (allBays.map s.bayArmed)

/-- `tile.vault.slots_used` (R482). -/
def State.slotsUsed (s : State) (t : TileId) : Nat :=
  mask ((List.range 64).map fun n => (Tbl.get (s.vol t).vault.slots n).isSome)

/-- `tile.meters.classes_used` (R74). -/
def State.classesUsed (s : State) (t : TileId) : Nat := mask ((List.range 64).map fun c => s.classUsed t c)

/-- `device.sec.lifecycles` (R483): four bits per tile. -/
def State.lifecycles (s : State) : Nat := (allTiles.map fun t => s.lifecycle t * 16 ^ t.val).sum

/-- `tile.metro.relay_state` (R255): command, reported state, machine state, attempts. -/
def State.relayState (s : State) (t : TileId) (k : Nat) : Nat :=
  let r := (s.vol t).metro.relays.getD k Relay.init
  let code := fun (o : Option Nat) => o.getD 255
  code (s.relayCmd t (if k = 0 then 0 else 1)) + 2 ^ 8 * code r.reported + 2 ^ 16 * r.st + 2 ^ 24 * r.a

end Sys2Proof.Machine
end

