-- ==== Sys2Proof/Machine/Bay.lean ====
section
/-! DEFINITION. Bay.lean: chapter 15: roles, heartbeats, promotion, hand-over, clearing a fault, and the change of a bay's mode. -/

namespace Sys2Proof.Machine

/-! ### Roles (R485) -/

/-- A booting tile has reached service level 3. -/
def State.readyForRole (s : State) (t : TileId) : Bool :=
  decide (s.role t = 255) && s.inRun t && decide (s.rd Reg.status_service t = 3) && !s.pier.degraded && s.pier.up

/-- A tile begins to serve: its BAY_OWN rises. CAUSE 4 is ORPHAN_RESTART (R162). -/
def State.beginServing (s : State) (t : TileId) (role : Nat) : State :=
  let s := ((s.setRole t role).setOwn t true).startServing t 4
  (s.alarm (bayOf t) 2 false).linkUpdate (bayOf t)

/-- A tile becomes STANDBY: the bay is UNSYNCHRONISED until a resync. -/
def State.beginStandby (s : State) (t : TileId) : State :=
  let b := bayOf t
  let s := ((s.setRole t 1).alarm b 0 false).linkUpdate b
  (s.unsync b).followTile t

/-- The bay's tile that `bay.preferred_active` names. -/
def State.preferred (s : State) (b : BayId) : TileId := tileOf b (decide (s.rd Reg.bay_preferred_active b = 1))

/-- ROLE_ASSIGN: a tile that reaches level 3 gets its role; ownership passes to it no sooner than 10 µs after the other pin fell (R32). In DEGRADED a
tile that was reset keeps its role (R22) and takes up serving again (DEDUCED, notes/assumptions/26.md). -/
def roleAssign (t : TileId) (s : State) : State :=
  let b := bayOf t
  if s.pier.degraded = true ∧ s.serves t = true ∧ s.inRun t = true ∧ s.rd Reg.status_service t = 3 ∧ (s.issuing t).isNone = true then s.startServing t 4
  else if !s.readyForRole t then s
  else if s.independent t then s.beginServing t 5
  else if s.role (mate t) = 0 then s.beginStandby t
  else if (s.bay b).promo.isSome then s
  else if s.ownSettled b = true ∧ (s.preferred b = t ∨ s.role (mate t) = 4) then s.beginServing t 0
  else s

/-- ROLE_ASSIGN (R485). -/
def execRoleAssign (t : TileId) (s : State) : Host.Outcome State Fault Refusal := finish (roleAssign t) s

/-- PREFERRED_TIMEOUT: 10 s after the Pier left reset, the other tile becomes ACTIVE. -/
def preferredTimeout (b : BayId) (s : State) : State :=
  let p := s.preferred b
  let o := mate p
  if s.now < s.pier.upSince + 10000000000 ∨ (s.activeOf b).isSome = true ∨ (s.bay b).promo.isSome = true ∨ s.independent p = true ∨
      s.readyForRole p = true ∨ !s.readyForRole o ∨ !s.ownSettled b then s
  else s.beginServing o 0

/-- PREFERRED_TIMEOUT (R485). -/
def execPreferredTimeout (b : BayId) (s : State) : Host.Outcome State Fault Refusal := finish (preferredTimeout b) s

/-! ### Heartbeats (R487, R505, R691) -/

/-- The stream's mark follows the highest SEQ that a heartbeat reports, each time it passes a multiple of 16 384. -/
def State.noteMark (s : State) (t : TileId) : State :=
  match s.issuing t with
  | none => s
  | some k =>
    let q := ((s.vol t).lehr.stream k).next
    let up := fun (s : State) (u : TileId) => s.onTile u fun x =>
      let m := x.mark k
      if m / 16384 < q / 16384 then { x with marks := if k = 0 then (q, x.marks.2) else (x.marks.1, q) } else x
    up (up s t) (mate t)

/-- HEARTBEAT: every 10 ms; missing bits 0 to 3 are a trigger. -/
def heartbeat (t : TileId) (s : State) : State :=
  if !s.serves t ∨ !s.inRun t ∨ (s.vol t).boot.step < 2 then s
  else
    let s := s.onBay (bayOf t) fun b => { b with lastBeat := if t.val % 2 = 0 then (s.now, b.lastBeat.2) else (b.lastBeat.1, s.now) }
    let s := s.noteMark t
    if s.role t = 0 ∧ s.rd Reg.status_missing t % 16 ≠ 0 then s.trigger (bayOf t) 3 else s

/-- HEARTBEAT (R505). -/
def execHeartbeat (t : TileId) (s : State) : Host.Outcome State Fault Refusal := finish (heartbeat t) s

/-- HEARTBEAT_LOSS: 30 ms without one. During a tie-break the active cannot report A1 (R511). -/
def heartbeatLoss (t : TileId) (s : State) : State :=
  let b := bayOf t
  let last := if t.val % 2 = 0 then (s.bay b).lastBeat.1 else (s.bay b).lastBeat.2
  if !s.serves t ∨ s.now < last + 30000000 ∨ s.pier.degraded = true then s
  else
    let s := s.bump Reg.bay_heartbeat_losses b
    let s := s.onBay b fun x => { x with lastBeat := if t.val % 2 = 0 then (s.now, x.lastBeat.2) else (x.lastBeat.1, s.now) }
    if s.role t = 5 then s.faultTile t 0
    else match (s.bay b).tie with
      | some y => (s.onBay b fun x => { x with tie := some { y with a1 := some [] } }).verdict b
      | none => s.trigger b 0

/-- HEARTBEAT_LOSS (R505). -/
def execHeartbeatLoss (t : TileId) (s : State) : Host.Outcome State Fault Refusal := finish (heartbeatLoss t) s

/-! ### Promotion (R506 to R508) -/

/-- The promotion guard: 2^16 more on IC_DOWN of every record and on the tile's own counters, as one journal entry. -/
def State.promotionGuard (s : State) (t : TileId) : State :=
  let m := (s.vol t).meters
  let sat := (m.recs.any fun e => decide (0xFFFFFFFF < max e.2.icDown (s.ceil t e.1) + 65536)) ||
    [ctrSlot 0, ctrSlot 1, ctrSlot 2].any fun k => decide (0xFFFFFFFF < s.ceil t k + 65536)
  let recs := m.recs.map fun e => (e.1, { e.2 with icDown := min (max e.2.icDown (s.ceil t e.1) + 65536) 0xFFFFFFFF })
  let ceils := m.recs.foldl (fun l e => if (Tbl.get l e.1).isSome then l else Tbl.put l e.1 0) m.ceils
  let s := s.onMeters t fun m => { m with recs := recs, ceils := raiseCeils ceils }
  let s := s.journal t { op := .guard, slot := 2 ^ 19, gen := 0, upd := 0, snap := MeterRec.free 0, amount := 0, ceil := 0 }
  let s := s.onEph t fun e => { e with guard := (s.vol t).meters.jCount, bcast := s.ceil t (ctrSlot 2) }
  if sat then s.alarm (bayOf t) 5 true else s

/-- What `bay.last_promotion` holds (R517). -/
def lastPromotion (t0Ns cause src dst us h next : Nat) : Bytes :=
  time80 t0Ns ++ natLE 1 cause ++ natLE 1 src ++ natLE 1 dst ++ [0] ++ natLE 4 us ++ natLE 6 h ++ natLE 6 next ++ [0, 0]

/-- The former active and the tile being promoted. -/
def Promo.tiles (p : Promo) : TileId × TileId := (⟨p.src % 16, by omega⟩, ⟨p.dst % 16, by omega⟩)

/-- Step 8: the tile is ACTIVE and issues; its ports stay closed until steps 9 and 10. -/
def State.finishPromotion (s : State) (b : BayId) (p : Promo) : State :=
  let d := p.tiles.2
  let h := s.highSeq d 0
  let s := (s.setRole d 0).startServing d 3
  let st := (s.vol d).lehr.stream 0
  let next := if h < st.openFirst then st.openFirst else st.next
  let s := s.onBay b fun x => { x with promo := some { p with step := 9, at_ := s.now, high := h, next := next } }
  let s := (s.bump Reg.bay_promotions b).pierEvent (0x80 + b.val) 2 0x0201 p.src p.cause p.dst
  let s := (s.alarm b 3 false).linkUpdate b
  if p.cause = 4 then s.unsync b else s

/-- Step 9: P5 opens and Gather resumes; `bay.last_promotion` is written with the time that took (R517). -/
def State.resumeGather (s : State) (b : BayId) (p : Promo) : State :=
  let s := s.onBay b fun x => { x with promo := some { p with step := 10, at_ := s.now } }
  let t0Ns := s.pierNs - (s.now - p.t0)
  (s.wrB Reg.bay_last_promotion b 0 (lastPromotion t0Ns p.cause p.src p.dst ((s.now - p.t0) / 1000) p.high p.next)).followTile p.tiles.2

/-- Step 10: D0 and D1 leave DISABLED, the PLC stack and the RF transceiver start: the promotion is over. -/
def State.endPromotion (s : State) (b : BayId) (p : Promo) : State :=
  (s.onBay b fun x => { x with promo := none }).followTile p.tiles.2

/-- The instant until which the step that is due may complete (R506). The commands of step 2 leave as step 1 completes, within 200 µs of t0; steps 3 and 4 are
one here; step 8 has no bound of its own. -/
def Promo.bound (p : Promo) : Option Nat :=
  match p.step with
  | 1 => some (p.t0 + 200000)
  | 2 => some (p.t0 + 1200000)
  | 4 => some (p.at_ + 1040000)
  | 5 => some (p.at_ + 2000000)
  | 6 => some (p.at_ + 1000000)
  | 7 => some (p.at_ + 5000000)
  | 9 => some (p.t0 + 50000000)
  | 10 => some (p.t0 + 500000000)
  | _ => none

/-- A step of a promotion; `ok` is false when the step that is due fails. A step later than its bound fails too, but in a bay with an armed control (R636). -/
def State.promotionStep (s : State) (b : BayId) (p : Promo) (ok : Bool) : State :=
  let src := p.tiles.1
  let d := p.tiles.2
  let pw := (s.tile d).power
  let to_ := fun (s : State) (n : Nat) => s.onBay b fun x => { x with promo := some { p with step := n, at_ := s.now } }
  if !ok ∨ (!s.bayArmed b && p.bound.any fun x => decide (x < s.now)) = true then s.failPromotion b
  else match p.step with
    | 1 =>
      if s.now < p.t0 + 20000 then s
      else
        let s := if s.owns src then s.setOwn src false else s
        let s := if pw.st = .entering then s.wakeEvent d else s.orderWake d 1
        to_ (if p.cause = 4 then s else s.isolate src) 2
    | 2 => if pw.st = .run ∨ (pw.st = .waking ∧ 2 ≤ pw.step) then to_ s 4 else s
    | 4 => to_ (if pw.st = .waking then s.wakeDone d else s) 5
    | 5 => to_ (s.drainAll b d) 6
    | 6 => if s.now < (s.bay b).ownFell + 10000 then s else to_ (s.setOwn d true) 7
    | 7 => to_ ((s.promotionGuard d).loadBaySlots d) 8
    | 9 => s.resumeGather b p
    | 10 => s.endPromotion b p
    | _ => s.finishPromotion b p

/-! ### Hand-over (R509) -/

/-- Steps 1 and 2 of R509: frames that Gather has taken and every reading behind them finish G9. Each round lets the readings at the front of G8, G6 and the
duplicate check go on, so that a reading that waits for one of its MIDX follows it (R86). -/
def State.finishIntake (s : State) (t : TileId) : State :=
  let s := (s.vol t).gather.voq.flatten.foldl (fun s _ => frameIntake t false 0 0 s) s
  let s := ((s.vol t).gather.waiting.map Flight.midx).foldl (fun s m => midxWaitRelease t m s) s
  let n := (s.vol t).gather.rows.length + (s.vol t).marver.inq.length + (s.vol t).lehr.inq.length
  (List.range n).foldl (fun s _ => lehrArchiveGroup t (marverPass t (duplicateCheck t s))) s

/-- Nothing taken into Gather is still on its way through G9; while the archive is stopped readings wait (R36, R181). -/
def State.intakeDone (s : State) (t : TileId) : Bool :=
  (s.vol t).gather.voq.flatten.isEmpty && (s.vol t).gather.waiting.isEmpty && (s.vol t).gather.rows.isEmpty && (s.vol t).marver.inq.isEmpty && (s.vol t).lehr.inq.isEmpty

/-- Steps 2 and 3 of R509: the readings in flight go on, and once none is left the batch closes with CAUSE HANDOVER (2). -/
def State.closeHandover (s : State) (a : TileId) : State :=
  let s := s.finishIntake a
  if !s.intakeDone a || ((s.vol a).lehr.stream 0).leaves.isEmpty then s else s.closeBatch a 0 2

/-- The answer of a bay action, kept in `bay.last_result`. -/
def State.bayResult (s : State) (b : BayId) (st : Status) : State := (s.wr Reg.bay_last_result b st.code).answer (128 + b.val) st

/-- A promotion, hand-over, change of mode, resync or tie-break runs. -/
def State.bayBusy (s : State) (b : BayId) : Bool :=
  let x := s.bay b
  x.promo.isSome || x.handover || x.modeTo || x.resync.isSome || x.tie.isSome

/-- `bay.promote`: Gather stops, readings in flight finish, and the batch closes; answered when the hand-over has been ordered. Readings that wait for
a stopped archive finish later, before the promotion begins. -/
def bayPromote (b : BayId) (force : Nat) (s : State) : State :=
  if s.bayBusy b then s.bayResult b .busy
  else match s.activeOf b, s.promotable b with
    | some a, some _ =>
      if (s.bay b).modeNow = 1 ∨ (bit (s.rd Reg.bay_alarm b) 4 = true ∧ force ≠ 1) then s.bayResult b .conflict
      else
        (((s.closeHandover a).onBay b fun x => { x with handover := true }).followTile a).bayResult b .ok
    | _, _ => s.bayResult b .conflict

/-- BAY_PROMOTE (R509). -/
def execBayPromote (b : BayId) (force : Nat) (s : State) : Host.Outcome State Fault Refusal := finish (bayPromote b force) s

/-! ### Clearing a fault (R485, R522) -/

/-- `bay.clear_fault`: the tile resets; a rail that was lowered is raised, a domain that was OFF powered up. -/
def clearFault (b : BayId) (odd : Nat) (s : State) : State :=
  let t := tileOf b (decide (odd = 1))
  if 1 < odd then s.bayResult b .invalid
  else if s.role t ≠ 4 ∨ s.pier.degraded = true then s.bayResult b .conflict
  else
    let p := (s.tile t).power
    let s := if p.st = .off then s.coldClear t else s
    let s := ((s.tileReset t 6).setRole t 255).linkUpdate b
    let s := s.wr Reg.device_fw_tile_phase 0 1 t
    let s := if p.st = .run then s
      else
        let s := (s.setPwr t .waking).onPower t fun p => { p with step := 1, orderAt := none, countFrom := none, locked := false, hubHold := false, wakeUp := false }
        let s := if p.st = .off then s.pmbus 3 t 0x01 0x80 else s
        s.pmbus 3 t 0x21 p.vrunMv
    s.bayResult b .ok

/-- CLEAR_FAULT (R485). -/
def execClearFault (b : BayId) (odd : Nat) (s : State) : Host.Outcome State Fault Refusal := finish (clearFault b odd) s

/-- WAKE_ORDER_TIMEOUT: a STANDBY not in RUN 10 ms after a wake order. -/
def wakeOrderTimeout (t : TileId) (s : State) : State :=
  match (s.tile t).power.orderAt with
  | some x =>
    if s.inRun t ∨ s.now < x + 10000000 ∨ s.role t ≠ 1 ∨ s.pier.degraded = true then s
    else (s.onPower t fun p => { p with orderAt := none }).faultTile t 0
  | none => s

/-- WAKE_ORDER_TIMEOUT (R485). -/
def execWakeOrderTimeout (t : TileId) (s : State) : Host.Outcome State Fault Refusal := finish (wakeOrderTimeout t) s

/-- TILE_STATUS_REPORT: a STANDBY that reports its code bank, root, DRAM or NAND lost (missing bits 0 to 3) becomes FAULTED. -/
def tileStatusReport (t : TileId) (s : State) : State :=
  if s.inRun t ∧ s.role t = 1 ∧ 6 ≤ (s.vol t).boot.step ∧ s.rd Reg.status_missing t % 16 ≠ 0 then s.faultTile t 0 else s

/-- TILE_STATUS_REPORT (R485, R644). -/
def execTileStatusReport (t : TileId) (s : State) : Host.Outcome State Fault Refusal := finish (tileStatusReport t) s

/-! ### Changing the mode of a bay (R514, R515, R157) -/

/-- A stream whose open batch holds a leaf other than carried leaves is closed at H + 32 769 with CAUSE HANDOVER. -/
def State.closeForMode (s : State) (t : TileId) : State :=
  match s.issuing t with
  | some k => if ((s.vol t).lehr.stream k).used then s.closeAt t k (((s.vol t).lehr.stream k).next + 32768) 2 else s
  | none => s

/-- Every item of the link is delivered and applied. -/
def State.settleMirror (s : State) (b : BayId) (d : TileId) : State :=
  let l := (s.bay b).mdelay.map Prod.fst ++ (s.bay b).link
  let s := s.onBay b fun x => { x with link := [], mdelay := [] }
  (l.foldl (fun s i => (s.deliver b i).drainOne b d true) s).drainAll b d

/-- The meter table of a tile is cleared to FREE, its hash table emptied, and its radio and modem lose their identities at once (R514). -/
def State.clearMeters (s : State) (t : TileId) : State :=
  let s := (s.slotsOf t fun r => decide (r.state ≠ 0)).foldl (fun s i => s.freeMeter t i (s.meter t i).midxGen) s
  let s := s.onMeters t fun m => { m with hash := [] }
  let s := s.onVol t fun v => { v with radio := { v.radio with eui := 0 } }
  (s.wr Reg.rf_eui64 t 0).wr Reg.plc_pan_id t 0xFFFF

/-- The change to independent, with no reading in flight: the odd tile's copy is cleared, both tiles serve; a pin that is high stays so. -/
def State.splitBay (s : State) (b : BayId) (a d : TileId) : State :=
  let s := (s.closeForMode a).settleMirror b d
  let odd := tileOf b true
  let even := tileOf b false
  let s := s.clearMeters odd
  let s := if a = even then s.setRole even 5 else (s.quitServing a).setRole even 5
  let s := s.onBay b fun x => { x with modeNow := 1 }
  let s := (s.setRole odd 5).linkUpdate b
  let s := if a = even then s else (s.setOwn even true).startServing even 2
  (((if a = even then s.setOwn odd true else s).startServing odd 2).followTile even)

/-- The change to redundant begins: both tiles close their batches, the odd one becomes STANDBY and releases its outputs. -/
def State.joinBegin (s : State) (b : BayId) : State :=
  let odd := tileOf b true
  let s := (s.closeForMode odd).closeForMode (tileOf b false)
  ((s.releaseOwn odd).setRole odd 1).quitServing odd

/-- The pin of the odd tile has fallen: the bay is redundant, and the even tile is ACTIVE with a modem started anew (R336). -/
def State.joinBay (s : State) (b : BayId) : State :=
  let odd := tileOf b true
  let even := tileOf b false
  let s := s.onBay b fun x => { x with modeNow := 0, placed := x.reported }
  let s := (if s.role even = 5 then s.setRole even 0 else s).linkUpdate b
  (((s.plcAnew even).unsync b).followTile even).followTile odd

/-- The answer of the change of mode under way. -/
def State.modeResult (s : State) (b : BayId) (st : Status) : State := s.acting (s.bay b).modeAct fun s => s.bayResult b st

/-- A change of mode is carried out and answered. -/
def State.modeDone (s : State) (b : BayId) (mode : Nat) : State :=
  let s := ((s.wr Reg.bay_mode b mode).endBayArms b 4).pierEvent (0x80 + b.val) 0 0x0208 0 mode
  s.modeResult b .ok

/-- Both tiles of a bay at service level 3 and its wiring SEPARATE. -/
def State.maySplit (s : State) (b : BayId) : Bool :=
  decide (s.rd Reg.bay_wiring b = 1) && decide (s.rd Reg.status_service (tileOf b false) = 3) && decide (s.rd Reg.status_service (tileOf b true) = 3)

/-- A change of mode under way goes on. One to independent waits until the standby is in RUN and the readings in flight have finished G9, and is refused when the standby
is not promotable any more; one to redundant waits for the readings of both tiles, then for the odd tile's pin to fall. DEGRADED ends it with CONFLICT
(notes/assumptions/26.md). -/
def State.modeReady (s : State) (b : BayId) : State :=
  let odd := tileOf b true
  let even := tileOf b false
  let stop := fun (s : State) => s.onBay b fun x => { x with modeTo := false }
  if !(s.bay b).modeTo then s
  else if s.pier.degraded then (stop s).modeResult b .conflict
  else if (s.bay b).modeNow = 1 then
    if s.role odd = 1 then (if s.owns odd then s else ((stop s).joinBay b).modeDone b 0)
    else if s.role odd ≠ 5 ∨ s.role even ≠ 5 then (stop s).modeResult b .conflict
    else
      let s := (s.finishIntake odd).finishIntake even
      if s.intakeDone odd && s.intakeDone even then s.joinBegin b else s
  else match s.activeOf b, s.promotable b with
    | some a, some d =>
      if !s.inRun d then s
      else
        let s := s.finishIntake a
        if !s.intakeDone a then s
        else if s.maySplit b then ((stop s).splitBay b a d).modeDone b 1
        else (stop s).modeResult b .conflict
    | _, _ => (stop s).modeResult b .conflict

/-- `bay.mode_change`. A change to the mode in force is answered OK; a standby in HOLD or RETAIN is woken first (notes/assumptions/26.md). -/
def bayModeChange (b : BayId) (mode : Nat) (s : State) : State :=
  let odd := tileOf b true
  let even := tileOf b false
  if 1 < mode then s.bayResult b .invalid
  else if s.bayBusy b then s.bayResult b .busy
  else if s.pier.degraded then s.bayResult b .conflict
  else if mode = (s.bay b).modeNow then s.bayResult b .ok
  else if mode = 1 then
    (match s.activeOf b, s.promotable b with
     | some _, some d =>
       if !s.maySplit b then s.bayResult b .conflict
       else
         let s := s.onBay b fun x => { x with modeTo := true, modeAct := s.acts.now }
         (if s.inRun d then s else if (s.tile d).power.st = .entering then s.wakeEvent d else s.orderWake d 1).modeReady b
     | _, _ => s.bayResult b .conflict)
  else
    let kept := (s.slotsOf odd fun r => decide (r.state = 1) || decide (r.state = 2)).isEmpty
    if !kept ∨ s.role odd ≠ 5 ∨ s.role even ≠ 5 then s.bayResult b .conflict
    else (s.onBay b fun x => { x with modeTo := true, modeAct := s.acts.now }).modeReady b

/-- BAY_MODE_CHANGE (R514, R515). -/
def execBayModeChange (b : BayId) (mode : Nat) (s : State) : Host.Outcome State Fault Refusal := finish (bayModeChange b mode) s

/-- PROMOTION: the next step of a promotion or of an ordered change of mode; a hand-over whose last item has been reported begins (R509 step 5), or is given up when the standby is no longer promotable. -/
def promotion (b : BayId) (ok : Bool) (s : State) : State :=
  if s.pier.degraded then s
  else match (s.bay b).promo with
    | some p => s.promotionStep b p ok
    | none =>
      if !(s.bay b).handover then s.modeReady b
      else match s.activeOf b, s.promotable b with
        | some a, some d =>
          let s := s.closeHandover a
          if s.intakeDone a = true ∧ (s.bay b).placed ≤ (s.bay b).reported then s.beginPromotion b 4 a d else s
        | some a, none => (s.onBay b fun x => { x with handover := false }).followTile a
        | none, _ => s.onBay b fun x => { x with handover := false }

/-- PROMOTION (R506). -/
def execPromotion (b : BayId) (ok : Bool) (s : State) : Host.Outcome State Fault Refusal := finish (promotion b ok) s

/-! ### Waking (R530) -/

/-- WAKE (R530); a change of mode that waits for the tile goes on. -/
def execWake (t : TileId) (s : State) : Host.Outcome State Fault Refusal := finish (fun s => (wake t s).modeReady (bayOf t)) s

/-! ### Lock-step (R21, R22) -/

/-- A bay as the Pier enters DEGRADED (R22, R511): a hand-over or a change of mode that waits is given up and the intake opens again; a promotion stays
where it stands, and with no tile ACTIVE the bay is down. -/
def State.degradeBay (s : State) (b : BayId) : State :=
  let s := match (s.bay b).handover, s.activeOf b with
    | true, some a => (s.onBay b fun x => { x with handover := false }).followTile a
    | true, none => s.onBay b fun x => { x with handover := false }
    | false, _ => s
  let s := s.modeReady b
  if (s.bay b).promo.isSome && (s.activeOf b).isNone then s.alarm b 2 true else s

/-- A lock-step miscompare (R21, R22): counted, and the copies reload, which `pier.lockstep_state` shows for 20 µs; a PMBus transaction in flight is
reissued once; the third within any 1 s makes the Pier DEGRADED. Roles and pins keep their values. -/
def miscompare (s : State) : State :=
  if !s.pier.up then s else
  let s := s.bump Reg.pier_lockstep_miscompares 0
  let recent := (s.pier.misc.filter fun x => s.now < x + 1000000000) ++ [s.now]
  let s := s.onPier fun p => { p with misc := recent }
  let s := if s.pier.degraded then s else s.wr Reg.pier_lockstep_state 0 1
  let s := match s.pier.pmbFlight with
    | some x => if x.again then s.onPier fun p => { p with pmbFlight := none }
                else s.onPier fun p => { p with pmbFlight := none, pmb := { x with again := true } :: p.pmb }
    | none => s
  if 3 ≤ recent.length && !s.pier.degraded then
    let s := s.onPier fun p => { p with degraded := true, pmb := [], pmbFlight := none }
    let s := (s.wr Reg.pier_lockstep_state 0 2).pierEvent 0xFF 3 0x0103
    s.each allBays fun s b => s.degradeBay b
  else s

/-- LOCKSTEP_MISCOMPARE (R21, R22). -/
def execLockstepMiscompare (s : State) : Host.Outcome State Fault Refusal := finish miscompare s

/-- The reload of R21 is over 20 µs after the newest miscompare. -/
def State.relock (s : State) : State :=
  if s.rd Reg.pier_lockstep_state 0 = 1 ∧ s.pier.misc.all (fun x => decide (x + 20000 ≤ s.now)) = true then s.wr Reg.pier_lockstep_state 0 0 else s

end Sys2Proof.Machine
end

