-- ==== Sys2Proof/Machine/Startup.lean ====
section
/-! DEFINITION. Startup.lean: chapter 19: resets of the device and of a tile, boot, code banks, staging and legal images. -/

namespace Sys2Proof.Machine

open Crypto

/-! ### Resets of device scope (R602, R603) -/

/-- Keys that a reset of device scope returns to their default: everything that is not stored (R652). -/
def clearedByDeviceReset (key : Nat) : Bool := match entryOf key with
  | some e => !decide (e.cls = .stored)
  | none => true

/-- Everything resets: the Pier, the hub and every tile; what the stores hold stays. A stored setting whose page still waits is lost with the power alone (R653):
causes 0 and 1. Every cause is a reset of the Pier's power-on logic and so leaves DEGRADED (notes/assumptions/33.md). -/
def State.deviceDown (s : State) (cause : Nat) : State :=
  let s := { s with regs := s.regs.filter fun e => !clearedByDeviceReset e.1 }
  let s := s.onPier fun p => { Pier.init with es := p.es, rootState := p.rootState, draws := p.draws, vsysMv := p.vsysMv,
                                                pfail := p.pfail && decide (2 ≤ cause), rails := if cause < 2 then 0 else p.rails,
                                                boardPull := p.boardPull && decide (2 ≤ cause) }
  let s := allBays.foldl (fun (s : State) (b : BayId) => s.onBay b fun _ => Bay.init) s
  let s := allTiles.foldl (fun (s : State) (t : TileId) =>
    let m := (s.tile t).media.damage t
    let m := if cause < 2 then m else m.keepConfig
    let p := (s.tile t).power
    let s := s.onTile t fun x =>
      { x with vol := { Vol.init s.now with bal := s.balKept t }, upSince := s.now, media := m.interrupt, power := { Power.init with vrunMv := p.vrunMv, since := s.now, railMv := p.railMv } }
    let s := s.reloadConfig t
    let s := s.onVol t fun v => { v with sw := Switch.init (s.rd Reg.sw_reserve_cells t), radio := s.radioNow t }
    s.wr Reg.fw_last_reset t cause) s
  s.wr Reg.device_reset_cause 0 cause

/-- An entry of the Pier store whose two copies fail takes its default (R654). -/
def State.storeDefaulted (s : State) (key : Nat) : State :=
  if (Tbl.get s.regs key).isNone then s
  else
    let s := { s with regs := Tbl.del s.regs key }
    (s.bump Reg.device_config_store_defaulted 0).pierEvent 0xFF 1 0x0109 key

/-- The Pier leaves reset: the boot is counted, the store read, the modes and the time source applied (R24, R421). `present` are the regulators
that will answer the enumeration, which the clock selection begins (R18, R603), `lost` the keys of the store whose copies both fail. -/
def State.deviceUp (s : State) (present : Nat) (lost : List Nat) : State :=
  let s := s.onPier fun p => { p with up := true, upSince := s.now, polledAt := s.now, board := present % 65536, enumDue := true }
  let s := (lost.filter inPierStore).foldl (fun s k => s.storeDefaulted k) s
  let s := s.wr Reg.device_host_boot_count 0 ((s.rd Reg.device_host_boot_count 0 + 1) % 2 ^ 32)
  let s := allBays.foldl (fun (s : State) (b : BayId) => s.onBay b fun x => { x with modeNow := s.rd Reg.bay_mode b, ownFell := s.now, lastBeat := (s.now, s.now), rate := (s.now, 0) }) s
  let s := allTiles.foldl (fun (s : State) (t : TileId) => s.bootAgain t) s
  let s := s.onPier fun p => { p with time := { p.time with source := s.rd Reg.device_time_source 0 } }
  let s := s.takeUtc.pfailAgain
  s.onPier fun p =>
    let first := s.rd Reg.device_host_lane_primary 0
    let cfg : HubCfg :=
      { mode := s.rd Reg.device_host_lane_mode 0, primary := first, holdMs := s.rd Reg.device_host_lane_hold_ms 0
        revertS := s.rd Reg.device_host_lane_revert_s 0, addr := s.rd Reg.device_svc_address 0, vlan := s.rd Reg.device_host_vlan 0
        port := s.rd Reg.device_host_udp_port 0, ip := s.rdAll Reg.device_host_ipv6_addr 0, ipB := s.rdAll Reg.device_host_ipv6_addr_b 0 }
    { p with plan := s.rd Reg.device_boot_plan 0, activeLane := first, pmbAddr := (s.rdAll Reg.device_pmbus_addr 0).map BitVec.toNat, hub := { p.hub with cfg := cfg, active := first } }

/-- POWER_ON: VSYS rises. After a brown-out the cause stays BROWN_OUT. -/
def powerOn (present : Nat) (lost : List Nat) (s : State) : State :=
  if s.pier.up then s else (s.deviceDown (s.rd Reg.device_reset_cause 0)).deviceUp present lost

/-- POWER_ON (R602, R603). -/
def execPowerOn (present : Nat) (lost : List Nat) (s : State) : Host.Outcome State Fault Refusal := finish (powerOn present lost) s

/-- BROWN_OUT: VSYS below 2.2 V; the rails are off until VSYS returns. -/
def brownOut (s : State) : State :=
  let s := s.deviceDown 1
  allTiles.foldl (fun (s : State) (t : TileId) => s.onPower t fun p => { p with railMv := 0 }) (s.onPier fun p => { p with vsysMv := 0 })

/-- BROWN_OUT (R547, R602). -/
def execBrownOut (s : State) : Host.Outcome State Fault Refusal := finish brownOut s

/-- SYS_RST_N held low for at least 1 µs and released. -/
def sysRstN (present : Nat) (lost : List Nat) (s : State) : State := if s.pier.up then (s.deviceDown 2).deviceUp present lost else s

/-- SYS_RST_N (R602). -/
def execSysRstN (present : Nat) (lost : List Nat) (s : State) : Host.Outcome State Fault Refusal := finish (sysRstN present lost) s

/-- `device.reset`: the device resets 10 ms after the response. -/
def deviceReset (s : State) : State := (s.onPier fun p => { p with resetAt := some (s.now + 10000000) }).answer 255 .ok

/-- DEVICE_RESET (R602). -/
def execDeviceReset (s : State) : Host.Outcome State Fault Refusal := finish deviceReset s

/-- TILE_POWER_UP: the next tile of the boot plan is powered once the stagger is over, and not while PFAIL_N is low (R684). -/
def tilePowerUp (s : State) : State :=
  match s.pier.bootQueue with
  | n :: _ =>
    if h : n < 16 then
      let t : TileId := ⟨n, h⟩
      let p := (s.tile t).power
      if s.now < s.pier.bootAt ∨ s.pier.degraded = true ∨ s.pier.pfail = true ∨ p.st ≠ .off then s
      else
        let s := (s.setPwr t .waking).onPower t fun p => { p with step := 1, orderAt := none }
        let s := ((s.pmbus 3 t 0x01 0x80).pmbus 3 t 0x21 p.vrunMv).wr Reg.device_fw_tile_phase 0 1 t
        s.onTile t fun x => { x with upSince := s.now }
    else s
  | [] => s

/-- TILE_POWER_UP (R604). -/
def execTilePowerUp (s : State) : Host.Outcome State Fault Refusal := finish tilePowerUp s

/-! ### Filnor images (R614 to R616) -/

/-- Bytes of a bank or stage. -/
def cellBytes (c : Cells) (a n : Nat) : Bytes := (List.range n).map fun i => Cells.read (fun _ => 0) c (a + i)

/-- A field of the header. -/
def imgF (c : Cells) (a n : Nat) : Nat := leNat (cellBytes c a n)

/-- Sections in use: TYPE, OFFSET, LENGTH. -/
def imgSections (c : Cells) : List (Nat × Nat × Nat) :=
  (List.range (min (imgF c 0x12 1) 16)).map fun i => (imgF c (0x40 + 16 * i) 1, imgF c (0x44 + 16 * i) 4, imgF c (0x48 + 16 * i) 4)

/-- Conditions of order 2 of R610, for KIND 0 TILE or 1 LEGAL. -/
def imgFormat (c : Cells) (kind : Nat) : Bool :=
  let n := imgF c 0x12 1
  let so := imgF c 0x14 4
  let len := imgF c 0x18 4
  let cs := bit (imgF c 6 2) 0
  let secs := imgSections c
  let zero := fun a k => decide (imgF c a k = 0)
  let apart := fun (x y : Nat × Nat × Nat) => decide (x.2.1 + x.2.2 ≤ y.2.1) || decide (y.2.1 + y.2.2 ≤ x.2.1)
  decide (imgF c 4 1 = 1) && decide (imgF c 5 1 = kind) && decide (imgF c 6 2 ≤ 1) && decide (1 ≤ n) && decide (n ≤ 16) &&
  zero 0x13 1 && zero 0x26 2 && zero 0x34 12 && decide (cellBytes c 0x28 8 = ascii "DK216" ++ [0, 0, 0]) &&
  decide (so % 16 = 0) && decide (0x140 ≤ so) && decide (len ≤ if kind = 0 then 4194304 else 262144) &&
  (if cs then decide (imgF c (so + 96) 2 ≤ 1024) && decide (len = so + 162 + imgF c (so + 96) 2) else decide (len = so + 96)) &&
  secs.all (fun x => decide (x.2.1 % 16 = 0) && decide (0x140 ≤ x.2.1) && decide (1 ≤ x.2.2) && decide (x.2.1 + x.2.2 ≤ so)) &&
  decide (secs.Pairwise fun x y => apart x y = true) &&
  (List.range 16).all (fun i => if i < n then zero (0x41 + 16 * i) 3 && zero (0x4C + 16 * i) 4 else zero (0x40 + 16 * i) 16) &&
  (if kind = 0 then
     secs.all (fun x => decide (1 ≤ x.1) && decide (x.1 ≤ 3)) && secs.any (fun x => decide (x.1 = 1)) && zero 0x30 4 && !zero 0x10 2
   else decide (secs.map Prod.fst = [4]) && zero 0x10 2)

/-- A valid countersignature. -/
def State.countersigned (s : State) (c : Cells) : Bool :=
  let so := imgF c 0x14 4
  let n := imgF c (so + 96) 2
  let cert := cellBytes c (so + 98) n
  bit (imgF c 6 2) 0 &&
  (match certKey cert with
   | some k => s.anchored cert && ecdsaVerify k (cellBytes c 0 (so + 96)) (cellBytes c (so + 98 + n) 64)
   | none => false)

/-- The check of an image (R610): 0, or the reason of the first condition that fails. -/
def State.imgCheck (s : State) (c : Cells) (kind low : Nat) : Nat :=
  let so := imgF c 0x14 4
  if cellBytes c 0 4 ≠ ascii "FLNR" then 1
  else if !imgFormat c kind then 2
  else if !ecdsaVerify384 Config.imageKey (cellBytes c 0 so) (cellBytes c so 96) then 3
  else if (bit (imgF c 6 2) 0 || decide (s.rd Reg.device_fw_require_countersign 0 = 1)) && !s.countersigned c then 4
  else if imgF c 0x0C 4 < low then 5
  else 0

/-! ### The boot record (R608, R609, R611) -/

/-- The copy in force; with neither good the boot ROM acts as if SELECTED were A and both banks CONFIRMED. -/
def Code.record (c : Code) : BootRec :=
  match c.rec0.good, c.rec1.good with
  | true, true => if c.rec0.count < c.rec1.count then c.rec1 else c.rec0
  | true, false => c.rec0
  | false, true => c.rec1
  | false, false => { BootRec.init with stA := 4, stB := 4 }

/-- A write goes to the copy that is not in force. -/
def Code.writeRecord (c : Code) (r : BootRec) : Code :=
  let old := c.record
  let r := { r with count := (old.count + 1) % 65536, good := true }
  if old = c.rec0 then { c with rec1 := r } else { c with rec0 := r }

/-- The 64 bytes of a copy. -/
def BootRec.bytes (r : BootRec) : Bytes :=
  let x := [1] ++ natLE 1 r.selected ++ natLE 1 r.stA ++ natLE 1 r.stB ++ natLE 2 r.count ++ natLE 1 r.reasonA ++ natLE 1 r.reasonB ++ natLE 4 r.floor ++
    natLE 4 r.verA ++ natLE 4 r.verB ++ natLE 4 r.legalFloor ++ List.replicate 36 0
  x ++ natLE 4 (crc32 x)

/-- State, reason and VERSION of a bank. -/
def BootRec.st (r : BootRec) (b : Nat) : Nat := if b = 0 then r.stA else r.stB
def BootRec.reason (r : BootRec) (b : Nat) : Nat := if b = 0 then r.reasonA else r.reasonB
def BootRec.ver (r : BootRec) (b : Nat) : Nat := if b = 0 then r.verA else r.verB
def BootRec.setSt (r : BootRec) (b st : Nat) : BootRec := if b = 0 then { r with stA := st } else { r with stB := st }
def BootRec.setVer (r : BootRec) (b v : Nat) : BootRec := if b = 0 then { r with verA := v } else { r with verB := v }
def BootRec.reject (r : BootRec) (b why : Nat) : BootRec :=
  if b = 0 then { r with stA := 5, reasonA := why } else { r with stB := 5, reasonB := why }

/-- Contents of a bank. -/
def Code.bank (c : Code) (b : Nat) : Cells := if b = 0 then c.bankA else c.bankB
def Code.setBank (c : Code) (b : Nat) (x : Cells) (len : Nat) : Code :=
  if b = 0 then { c with bankA := x, lenA := len } else { c with bankB := x, lenB := len }
def Code.len (c : Code) (b : Nat) : Nat := if b = 0 then c.lenA else c.lenB

/-- The decision of R609: the record after it, the bank handed over to, and the rejections. SELECTED names the bank handed over to
(DEDUCED, notes/assumptions/23.md). `fuel` bounds the candidates. -/
def bootDecide (chk : Nat → Nat) : Nat → BootRec → Nat → List (Nat × Nat) → BootRec × Option Nat × List (Nat × Nat)
  | 0, r, _, l => (r, none, l)
  | fuel + 1, r, b, l =>
    let o := 1 - b
    let next := fun (why : Nat) (ok : Nat → Bool) =>
      let r' := r.reject b why
      if ok (r'.st o) then bootDecide chk fuel r' o (l ++ [(b, why)]) else (r', none, l ++ [(b, why)])
    match r.st b with
    | 2 => if chk b = 0 then ({ r.setSt b 3 with selected := b }, some b, l) else next (chk b) fun x => decide (x = 3) || decide (x = 4)
    | 3 => next 6 fun x => decide (x = 4)
    | 4 => if chk b = 0 then ({ r with selected := b }, some b, l) else next (chk b) fun x => decide (x = 4)
    | _ => (r, none, l)

/-- The first candidate. -/
def BootRec.candidate (r : BootRec) : Nat := if r.stA = 2 then 0 else if r.stB = 2 then 1 else r.selected

/-! ### Boot (R605, R612, R622) -/

/-- Change what the boot holds. -/
def State.onBoot (s : State) (t : TileId) (f : Boot → Boot) : State := s.onVol t fun v => { v with boot := f v.boot }

/-- Change the code array. -/
def State.onCode (s : State) (t : TileId) (f : Code → Code) : State := s.onTile t fun x => { x with code := f x.code }

/-- T2: the boot ROM decides, writes the record when it changed, and hands over or enters RECOVERY. -/
def State.bootRom (s : State) (t : TileId) : State :=
  let c := (s.tile t).code
  let r0 := c.record
  let d := bootDecide (fun b => s.imgCheck (c.bank b) 0 r0.floor) 2 r0 r0.candidate []
  let r := d.1
  let verRej := ((d.2.2.getLast?).map fun x => r0.ver x.1).getD 0
  let ver := match d.2.1 with
    | some b => imgF (c.bank b) 8 4
    | none => 0
  let rep := natLE 1 (d.2.1.getD 0xFF) ++ natLE 1 (b2n (!d.2.2.isEmpty)) ++ natLE 1 r.reasonA ++ natLE 1 r.reasonB ++ natLE 4 ver ++ natLE 4 verRej ++ [0, 0, 0, 0]
  let s := s.onCode t fun c => { (if r = r0 then c else c.writeRecord r) with report := rep }
  let s := d.2.2.foldl (fun s x => s.pierEvent t 1 0x1D01 0 x.1 x.2) s
  match d.2.1 with
  | none => (s.wr Reg.device_fw_tile_phase 0 2 t).pierEvent t 3 0x1D02
  | some b =>
    let trial := if r.st b = 3 then some (s.now + s.rd Reg.fw_trial_s t * 1000000000) else none
    let s := s.onBoot t fun x =>
      { x with running := some b, step := 2, trialEnd := trial, dogEnd := some (s.now + s.rd Reg.fw_watchdog_ms t * 1000000)
               version := ver, schema := imgF (c.bank b) 0x10 2 }
    let s := (s.wr Reg.device_fw_tile_phase 0 3 t).wr Reg.device_fw_tile_version 0 ver t
    s.setMissing t 0 false

/-- RWS entries that a change of schema returns to their default (R622). -/
def Entry.reverts (e : Entry) : Bool :=
  decide (e.area = .tile) && decide (e.acc = .rws) && decide (e.cls = .stored) && !(decide (0x2E0 ≤ e.off) && decide (e.off < 0x300)) &&
  !(decide (e.write = some .secure) || decide (e.write = some .legal)) &&
  !([Reg.meters_class_table, Reg.meters_sat_table, Reg.plc_repeater_table, Reg.plc_pan_id, Reg.rf_pan_id, Reg.rf_eui64, Reg.eph_profiles].contains e)

/-- The schema check of T5. -/
def State.schemaCheck (s : State) (t : TileId) : State :=
  let new := (s.vol t).boot.schema
  let old := s.rd Reg.fw_schema t
  if new = old then s
  else
    let s := { s with regs := s.regs.filter fun x => !(inTile t x.1 && match entryOf x.1 with
      | some e => e.reverts
      | none => true) }
    ((s.wr Reg.fw_schema t new).bump Reg.fw_schema_resets t).event t 1 0x1D03 0 old new

/-- T5: the mount: 0 normal, 1 a recovery mount, 2 one that fails; and the stored settings. -/
def State.mount (s : State) (t : TileId) (how : Nat) : State :=
  let m := (s.tile t).media
  let defaults := fun (s : State) => { s with regs := s.regs.filter fun x => !(inTile t x.1 && nandKey x.1) }
  if !m.formatted then
    if s.lifecycle t = 0 then (s.formatMedia t).schemaCheck t else (defaults s).wr Reg.media_state t 5
  else if 2 ≤ how then (defaults s).wr Reg.media_state t 4
  else
    let s := if how = 1 then ((s.onMedia t fun m => m.recovered).bump Reg.media_recoveries t).event t 1 0x1B03 else s
    (((s.onMedia t fun m => m.mounted).wr Reg.media_state t 3).wr Reg.media_mount_ms t (Config.measured 2 t s.now)).schemaCheck t

/-- The tile reports to the Pier the entries that its running image defines beyond the map (R662, R666). -/
def State.takeDefs (s : State) (t : TileId) : State :=
  s.onBoot t fun b => { b with defs := if b.running.isSome then (Config.imageEntries b.version).filter Entry.beyond else [] }

/-- A new `tile.rf.eui64` restarts `tile.rf.fc_down` at 0 (R589). -/
def State.newEui (s : State) (t : TileId) : State :=
  if s.rd Reg.rf_eui64 t = (s.tile t).fcEui then s else (s.onTile t fun x => { x with fcEui := s.rd Reg.rf_eui64 t }).ctrRestart t 1

/-- T6: key store, meter table and hash table; Ephemeris' load, the legal checks; the link engine starts (R380). -/
def State.bootLoad (s : State) (t : TileId) (legal : Nat) : State :=
  let s := s.onVault t fun v => { v with blobs := (s.readable t).keys }
  let r := s.loadMeters t
  let s := ((((r.1.newEui t).ephLoad t r.2).dropLeftKeys t).metroCheck t legal).wr Reg.meters_load_time t (Config.measured 3 t s.now)
  let s := s.wr Reg.sw_link_epoch t (s.rd Reg.sw_link_epoch t + 1)
  if s.rd Reg.media_state t = 3 then s.setMissing t 3 false else s

/-- TILE_BOOT: the next step of R605 is complete. `how` says how the mount went; `trained` whether DRAM training succeeded; `legal` what has been damaged in the legal region (bits as `Tile.damagedBy` names them). Without REFCLK a tile stays at T1; T6 draws the hash key and so waits
for the DRBG. -/
def tileBoot (t : TileId) (trained : Bool) (how legal : Nat) (s : State) : State :=
  if !s.inRun t ∨ !s.pier.up then s
  else
    let to_ := fun (s : State) (k : Nat) => s.onBoot t fun b => { b with step := k }
    match (s.vol t).boot.step with
    | 0 => if s.pier.clock = .onRefclk then to_ (s.onVault t fun v => { v with drbgTry := some s.now }) 1 else s
    | 1 => if s.rd Reg.device_fw_tile_phase 0 t = 2 then s else s.bootRom t
    | 2 => to_ ((s.vaultStart t).settleRoot t) 3
    | 3 => if trained then to_ ((s.setMissing t 2 false).wr Reg.media_state t 1) 4 else s
    | 4 => to_ ((s.mount t how).takeDefs t) 5
    | 5 => if s.drbgReady t then ((to_ (s.bootLoad t legal) 6).wr Reg.device_fw_tile_phase 0 4 t).followTile t else s
    | _ => s

/-- TILE_BOOT (R605). -/
def execTileBoot (t : TileId) (trained : Bool) (found : BootFound) (s : State) : Host.Outcome State Fault Refusal :=
  finish (tileBoot t trained found.how found.legal) s

/-- WATCHDOG: the firmware has not serviced its watchdog for `tile.fw.watchdog_ms`, which have passed since it was armed. -/
def watchdog (t : TileId) (s : State) : State :=
  if s.inRun t && (s.vol t).boot.dogEnd.any (fun x => decide (x ≤ s.now)) then (s.tileReset t 5).pierEvent t 2 0x1D05 else s

/-- WATCHDOG (R613). -/
def execWatchdog (t : TileId) (s : State) : Host.Outcome State Fault Refusal := finish (watchdog t) s

/-- TRIAL_TIMEOUT: a trial not confirmed in time. -/
def trialTimeout (t : TileId) (s : State) : State :=
  match (s.vol t).boot.trialEnd with
  | some x => if x ≤ s.now ∧ s.inRun t = true then s.tileReset t 8 else s
  | none => s

/-- TRIAL_TIMEOUT (R611). -/
def execTrialTimeout (t : TileId) (s : State) : Host.Outcome State Fault Refusal := finish (trialTimeout t) s

/-- Confirmation of the trial that runs: FLOOR rises to the image's ROLLBACK, and a bank whose image is below it is rejected. -/
def State.confirmTrial (s : State) (t : TileId) : State :=
  let c := (s.tile t).code
  let r := c.record
  match (s.vol t).boot.running with
  | some b =>
    if r.st b ≠ 3 then s
    else
      let low := imgF (c.bank b) 0x0C 4
      let r : BootRec := { r.setSt b 4 with floor := low }
      let o : Nat := 1 - b
      let used := decide (r.st o = 2) || decide (r.st o = 3) || decide (r.st o = 4)
      let r : BootRec := if used && decide (imgF (c.bank o) 0x0C 4 < low) then r.reject o 5 else r
      let s := (s.onCode t fun c => c.writeRecord r).onBoot t fun x => { x with trialEnd := none }
      s.event t 0 0x1D04 0 (s.vol t).boot.version
  | none => s

/-- TRIAL_CONFIRM: missing bits 0 to 3 are clear. -/
def trialConfirm (t : TileId) (s : State) : State := if s.rd Reg.status_missing t % 16 = 0 then s.confirmTrial t else s

/-- TRIAL_CONFIRM (R611). -/
def execTrialConfirm (t : TileId) (s : State) : Host.Outcome State Fault Refusal := finish (trialConfirm t) s

/-! ### Staging (R617 to R621) -/

/-- The tile takes staging: its firmware runs, or the boot ROM is in RECOVERY (R612). -/
def State.takesStaging (s : State) (t : TileId) : Bool :=
  s.inRun t && (decide (2 ≤ (s.vol t).boot.step) || decide (s.rd Reg.device_fw_tile_phase 0 t = 2))

/-- Answer of a firmware action. -/
def State.fwResult (s : State) (t : TileId) (st : Status) : State := (s.wr Reg.fw_last_result t st.code).answer t st

/-- `tile.fw.confirm`: outside a trial a running bank is confirmed already; in RECOVERY there is none. -/
def fwConfirm (t : TileId) (s : State) : State :=
  if !s.takesStaging t then s.answer t .unreachable
  else if (s.vol t).boot.running.isNone then s.fwResult t .conflict
  else (s.confirmTrial t).fwResult t .ok

/-- FW_CONFIRM (R611). -/
def execFwConfirm (t : TileId) (s : State) : Host.Outcome State Fault Refusal := finish (fwConfirm t) s

/-- `tile.fw.stage_begin`: the bank is filled with zeros, which takes at most 500 ms. -/
def stageBegin (t : TileId) (bank len : Nat) (s : State) : State :=
  if !s.takesStaging t then s.answer t .unreachable
  else if (s.vol t).boot.running = some bank then s.fwResult t .bankBusy
  else if 1 < bank ∨ len = 0 ∨ 4194304 < len then s.fwResult t .invalid
  else if s.now < (s.vol t).boot.stageUntil then s.fwResult t .busy
  else
    let s := s.onBoot t fun b => { b with stageUntil := s.now + min 500000000 (Config.measured 4 t s.now) }
    let s := s.onCode t fun c => (c.setBank bank [] len).writeRecord ((c.record.setSt bank 1).setVer bank 0)
    s.fwResult t .ok

/-- STAGE_BEGIN (R617). -/
def execStageBegin (t : TileId) (bank len : Nat) (s : State) : Host.Outcome State Fault Refusal := finish (stageBegin t bank len) s

/-- A write of block bytes to a bank (R617, R618). -/
def bankWriteDo (t : TileId) (bank : Fin 2) (off : Nat) (data : Bytes) (s : State) : State × Status :=
  let c := (s.tile t).code
  if (s.vol t).boot.running = some bank.val then (s, .bankBusy)
  else if c.record.st bank ≠ 1 then (s, .conflict)
  else if 1024 < data.length ∨ c.len bank < off + data.length then (s, .length)
  else (s.onCode t fun c => c.setBank bank (Cells.writeAll (fun _ => 0) (c.bank bank) off data) (c.len bank), .ok)

/-- `tile.fw.stage_commit`: the bank that is STAGING (the running bank's other, or the first in RECOVERY). -/
def stageCommit (t : TileId) (digest : Bytes) (s : State) : State :=
  let c := (s.tile t).code
  let r := c.record
  let run := (s.vol t).boot.running
  let bank := [0, 1].find? fun b => decide (r.st b = 1) && decide (run ≠ some b)
  let trial := match run with
    | some b => decide (r.st b = 3)
    | none => false
  if !s.takesStaging t then s.answer t .unreachable
  else if trial then s.fwResult t .conflict
  else match bank with
    | none => s.fwResult t .conflict
    | some b =>
      if digest.length ≠ 48 then s.fwResult t .length
      else if sha384 (cellBytes (c.bank b) 0 (c.len b)) ≠ digest then s.fwResult t .hash
      else (s.onCode t fun c => c.writeRecord ((c.record.setSt b 2).setVer b (imgF (c.bank b) 8 4))).fwResult t .ok

/-- STAGE_COMMIT (R617). -/
def execStageCommit (t : TileId) (digest : Bytes) (s : State) : Host.Outcome State Fault Refusal := finish (consuming t [Reg.fw_bank_a, Reg.fw_bank_b] (stageCommit t digest)) s

/-- `tile.fw.reset`: the tile resets 10 ms after the response. -/
def tileFwReset (t : TileId) (force : Nat) (s : State) : State :=
  if !s.takesStaging t then s.answer t .unreachable
  else if s.role t = 0 ∧ force ≠ 1 then s.fwResult t .conflict
  else if s.legalRuns t then s.fwResult t .busy
  else (s.onBoot t fun b => { b with resetAt := some (s.now + 10000000, 4) }).fwResult t .ok

/-- TILE_FW_RESET (R621). -/
def execTileFwReset (t : TileId) (force : Nat) (s : State) : Host.Outcome State Fault Refusal := finish (tileFwReset t force) s

/-! ### Legal images (R624) -/

/-- The module of a LEGAL image. -/
def imgModule (c : Cells) : Bytes :=
  match imgSections c with
  | (_, a, n) :: _ => cellBytes c a n
  | [] => []

/-- The staged image passes R610 with KIND 1, and LEGAL_CHECK is the check value of its module. -/
def State.legalImage (s : State) (c : Cells) : Bool :=
  decide (s.imgCheck c 1 0 = 0) && decide (imgSections c ≠ []) && decide (cellBytes c 0x30 4 = (sha256 (imgModule c)).take 4)

/-- `tile.fw.legal_install`. `cut`: 0 nothing happens meanwhile; 1 the seal is released, 2 the power fails before step 2, so the old module stays in
force. Without a running metrology there is no block boundary to wait for (DEDUCED, notes/assumptions/37.md). -/
def legalInstall (t : TileId) (cut : Nat) (s : State) : State :=
  let c := (s.tile t).code
  let img := c.legalStage
  if !s.takesStaging t then s.answer t .unreachable
  else if !(s.bay (bayOf t)).legalEn then s.fwResult t .noSeal
  else if s.legalRuns t then s.fwResult t .busy
  else if !s.legalImage img then s.fwResult t .invalid
  else if imgF img 0x0C 4 < c.record.legalFloor then s.fwResult t .conflict
  else if 65535 ≤ s.rd Reg.metro_seal_count t then s.fwResult t .sealExhausted
  else if s.legalFull t then s.fwResult t .legalFull
  else
    let s := s.legalStarts t 2000000000
    if cut = 1 then (sealChange (bayOf t) false s).fwResult t .noSeal
    else if cut = 2 then s
    else
    let v := imgF img 8 4
    let m : LegalMod := { version := v, body := imgModule img, check := imgF img 0x30 4 }
    let s := s.onCode t fun c =>
      let c := if c.modActive = 0 then { c with modB := m, modActive := 1 } else { c with modA := m, modActive := 0 }
      c.writeRecord { c.record with legalFloor := imgF img 0x0C 4 }
    let s := (s.countSeal t).wr Reg.fw_legal_version t v
    let s := s.legalLog t 0x02 (natLE 4 m.check ++ natLE 2 (s.rd Reg.metro_seal_count t))
    let s := if (s.metro t).run then s.onVol t fun v => { v with modDue := true } else s.takeModule t
    (s.event t 0 0x1D06 0 v).fwResult t .ok

/-- LEGAL_INSTALL (R624). -/
def execLegalInstall (o : LegalOp) (s : State) : Host.Outcome State Fault Refusal := finish (consuming o.tile [Reg.fw_legal_stage] (legalInstall o.tile o.cut)) s

end Sys2Proof.Machine
end

