-- ==== Sys2Proof/Machine/Entries.lean ====
section
/-! DEFINITION. Entries.lean: chapter 21, reading: how a target and an index find an entry, what an entry reads, what a read changes, and the descriptor of
an entry. -/

namespace Sys2Proof.Machine

open Crypto

/-! ### Finding an entry (R642, R643) -/

/-- What a TARGET names (R393). -/
inductive Tgt
  | dev
  | bay (b : BayId)
  | tile (t : TileId)
  deriving DecidableEq, Repr

/-- The target of a TARGET byte. -/
def tgtOf (n : Nat) : Option Tgt :=
  if h : n < 16 then some (.tile ⟨n, h⟩)
  else if h : 128 ≤ n ∧ n < 136 then some (.bay ⟨n - 128, by omega⟩)
  else if n = 255 then some .dev
  else none

/-- The number of the unit among its like. -/
def Tgt.unit : Tgt → Nat
  | .dev => 0
  | .bay b => b
  | .tile t => t

/-- The TARGET byte. -/
def Tgt.number : Tgt → Nat
  | .dev => 255
  | .bay b => 128 + b
  | .tile t => t

/-- The tile; T0 where the target is none. -/
def Tgt.tileId : Tgt → TileId
  | .tile t => t
  | _ => 0

/-- The bay; for a tile its own, B0 for the device. -/
def Tgt.bayId : Tgt → BayId
  | .dev => 0
  | .bay b => b
  | .tile t => bayOf t

/-- Lowest index and number of indices of the area. -/
def Tgt.span : Tgt → Nat × Nat
  | .dev => (0x1000, 0x700)
  | .bay b => (0x2000 + 0x100 * b, 0x100)
  | .tile t => (0x4000 + 0x400 * t, 0x400)

/-- The entries of the area: those of the map and, in a tile area, those that the running image defines (R662, R666). -/
def State.entries (s : State) : Tgt → List Entry
  | .dev => deviceEntries
  | .bay _ => bayEntries
  | .tile t => tileEntries ++ (s.vol t).boot.defs

/-- Index of an entry in the area. -/
def Tgt.indexOf (g : Tgt) (e : Entry) : Nat := e.index g.unit

/-- The entry at an index and sub-index of the area, with the place among its sub-indices. -/
def State.findEntry (s : State) (g : Tgt) (index sub : Nat) : Option (Entry × Nat) :=
  ((s.entries g).find? fun e => decide (g.indexOf e = index) && decide (e.sub ≤ sub) && decide (sub < e.sub + e.cnt)).map fun e => (e, sub - e.sub)

/-- Orders 1 and 2 of R398. -/
def State.lookup (s : State) (target index sub : Nat) : Except Status (Tgt × Entry × Nat) :=
  match tgtOf target with
  | none => .error .target
  | some g =>
    if index < g.span.1 ∨ g.span.1 + g.span.2 ≤ index then .error .target
    else match s.findEntry g index sub with
      | none => .error .noEntry
      | some x => .ok (g, x)

/-- Operations on an entry (R647). -/
inductive DOp | get | set | getBlock | setBlock | exec | watch
  deriving DecidableEq, Repr

/-- FLAGS bit 2: the entry removes what it returns (R649). -/
def Entry.removes (e : Entry) : Bool := bit e.flags 2

/-- What the access code permits (R647, R649). -/
def Entry.permits (e : Entry) (o : DOp) : Bool :=
  let oct := decide (e.ty = .octet)
  match e.acc, o with
  | .ex, .exec => true
  | .ex, _ => false
  | _, .exec => false
  | .rc, .get => true
  | .rc, _ => false
  | .wo, .set => true
  | .wo, .setBlock => oct
  | .wo, _ => false
  | _, .get => true
  | _, .getBlock => oct && !e.removes
  | _, .watch => !e.removes
  | .ro, _ => false
  | _, .set => true
  | _, .setBlock => oct

/-- The code of a rights level (R401). -/
def Right.code : Right → Nat
  | .view => 0 | .operate => 1 | .configure => 2 | .secure => 3 | .legal => 4

/-- Rights that an operation needs. -/
def Entry.need (e : Entry) (o : DOp) : Nat :=
  let code := fun (r : Option Right) => (r.map Right.code).getD 0
  match o with
  | .get | .getBlock | .watch => code e.read
  | _ => code e.write

/-- Rights as they count for a target: LEGAL is SECURE on a tile whose bay's seal is not asserted (R401). -/
def State.rightsFor (s : State) (g : Tgt) (rights : Nat) : Nat :=
  match g with
  | .tile t => if rights = 4 ∧ (s.bay (bayOf t)).legalEn = false then 3 else rights
  | _ => rights

/-- Orders 1 to 4 of R398, and LENGTH of R396 and R650 for entries above 1 024 bytes. -/
def State.checkItem (s : State) (target index sub rights : Nat) (o : DOp) : Except Status (Tgt × Entry × Nat) :=
  match s.lookup target index sub with
  | .error st => .error st
  | .ok (g, e, i) =>
    if !e.permits o then .error .access
    else if s.rightsFor g rights < e.need o then .error .rights
    else if (o = .get ∨ o = .set ∨ o = .watch) ∧ 1024 < e.size then .error .length
    else .ok (g, e, i)

/-! ### Entries that stand for one value (R586) -/

/-- Where the value of an entry is held: two entries may stand for one stored value or counter. -/
def Entry.home (e : Entry) (i : Nat) : Entry × Nat :=
  if e = Reg.cullet_lost then (Reg.queue_lost, 0)
  else if e = Reg.cullet_resets then (Reg.queue_resets, 0)
  else if e = Reg.gather_ack_lost then (Reg.queue_lost, 4)
  else if e = Reg.sw_sample_lost then (Reg.queue_lost, 5)
  else if e = Reg.queue_wm_level ∧ i = 0 then (Reg.cullet_watermark, 0)
  else (e, i)

/-! ### Values formed by the units -/

/-- A value of one byte, two, four, eight. -/
def u8 (v : Nat) : Bytes := natLE 1 v
def u16 (v : Nat) : Bytes := natLE 2 v
def u32 (v : Nat) : Bytes := natLE 4 v
def u64 (v : Nat) : Bytes := natLE 8 v

/-- The stream whose state `tile.lehr` shows: the one issued, else that of the tile's place. -/
def State.shownStream (s : State) (t : TileId) : Nat := (s.issuing t).getD (s.streamOf t)

/-- The newest HEADER held of the shown stream. -/
def State.newestHeader (s : State) (t : TileId) : Nat :=
  (s.held t (s.shownStream t)).foldl (fun a r => match r.body with
    | .header _ _ _ _ _ _ => max a r.seq
    | _ => a) 0

/-- CLOSE of the batch of the newest HEADER: it stands in the record after it. -/
def State.newestClose (s : State) (t : TileId) : Nat :=
  let h := s.newestHeader t
  match (s.heldRec t (h + 1)).map ArchRec.body with
  | some (.sigR c _) => if h = 0 then 0 else c
  | _ => 0

/-- The lowest SEQ not discarded. -/
def State.discardFloor (s : State) (t : TileId) : Nat :=
  let k := s.shownStream t
  let m := (s.tile t).media
  let f := max (m.floor k) (streamStart k)
  match (m.disc k).find? fun d => decide (d.1 ≤ f) && decide (f ≤ d.2) with
  | some d => d.2 + 1
  | none => f

/-- `tile.sw.session_status` (R388). -/
def State.linkStatus (s : State) (t : TileId) : Bytes :=
  let w := s.sw t
  match Tbl.get w.sess (s.rd Reg.sw_session_select t) with
  | none => fit 96 [0, 0, 0xFF, 0xFF]
  | some x =>
    let cells := ((w.voqs.flatMap fun v => v.2).map fun f => match f.body with
      | .link v _ _ => if v = x.value then f.cells else 0
      | _ => 0).sum
    fit 96 (u8 x.st ++ u8 x.port ++ u16 x.sat ++ u32 x.value ++ fit 6 x.mac ++ u16 0 ++ u32 x.epoch ++ u32 0 ++ u64 x.tx ++ u64 x.rx ++
      fit 32 x.print ++ u32 cells ++ time80 x.gotNs)

/-- Time spent in a domain state: the stays that have ended and the present one (R552). -/
def State.timeInState (s : State) (t : TileId) (i : Nat) : Nat :=
  let p := (s.tile t).power
  s.rd Reg.power_time_in_state t i + (if p.st.timeIdx = some i then (s.now - p.since) / 1000000 else 0)

/-- `tile.metro.state`: SETTLING ends with the 35 SETTLE samples (R227, R255). -/
def State.metroState (s : State) (t : TileId) : Nat :=
  let m := s.metro t
  let v := s.rd Reg.metro_state t
  if v = 1 ∧ m.syncNow + 4272461 ≤ (s.now : Int) then (if fld m.cal 1 1 = 1 then 2 else 3) else v

/-- Valid minutes of the feeder history. -/
def State.feederMinutes (s : State) (t : TileId) : Nat := (s.vol t).marver.history.countP fun e => e.2.valid

/-- Journal entries since the J0 of the newest checkpoint, those not yet programmed included. -/
def State.journalFill (s : State) (t : TileId) : Nat :=
  let m := (s.tile t).media
  let j0 := (m.newestCk.map Checkpoint.j0).getD 0
  let queued := (m.jobs.map fun j => match j.2 with
    | .journal l => l.length
    | _ => 0).sum
  m.journal.countP (fun e => decide (j0 * 256 ≤ e.1)) + queued + (s.vol t).meters.jPage.length

/-- Records of the population by a condition. -/
def State.countRecs (s : State) (t : TileId) (p : MeterRec → Bool) : Nat := (s.slotsOf t p).length

/-- Entries of a tile area that units form when they are read, of chapters 1 to 6: `f s t i` is the value of sub-index `i`. `tile.meters.record` shows the slot
of this tile that the low half of the select names, whatever its upper half (DESIGN CHOICE, notes/assumptions/32.md). -/
def tileFormedLow : List (Entry × (State → TileId → Nat → Bytes)) :=
  [(Reg.id_number, fun _ t _ => u8 t),
   (Reg.id_bay, fun _ t _ => u8 (bayOf t)),
   (Reg.id_role, fun s t _ => u8 (s.role t)),
   (Reg.id_dram, fun _ t _ => u8 (16 * (t % 4).val + t.val / 4)),
   (Reg.id_nand, fun _ t _ => u8 (16 * (t % 2).val + t.val / 2)),
   (Reg.status_uptime_ms, fun s t _ => u64 (if (s.tile t).power.st = Pwr.off then 0 else s.uptimeMs t)),
   (Reg.meters_in_service, fun s t _ => u32 (s.countRecs t fun r => decide (r.state = 1))),
   (Reg.meters_direct_plc, fun s t _ => u16 (s.countRecs t fun r => decide (r.state = 1) && decide (r.path = 0))),
   (Reg.meters_direct_rf, fun s t _ => u16 (s.countRecs t fun r => decide (r.state = 1) && decide (r.path = 1))),
   (Reg.meters_relayed, fun s t _ => u32 (s.countRecs t fun r => decide (r.state = 1) && decide (r.path = 2))),
   (Reg.meters_retired, fun s t _ => u32 (s.countRecs t fun r => decide (r.state = 2) || decide (r.state = 3))),
   (Reg.meters_damaged, fun s t _ => u32 (s.vol t).meters.damaged.length),
   (Reg.meters_record, fun s t _ => (s.meter t (midxSlot (s.rd Reg.meters_select t))).bytes),
   (Reg.meters_classes_used, fun s t _ => u64 (s.classesUsed t)),
   (Reg.meters_hash_load, fun s t _ => u16 ((s.vol t).meters.hash.length * 1000 / 2097152)),
   (Reg.meters_hash_stash, fun s t _ => u8 (inBucket (s.vol t).meters.hash none)),
   (Reg.meters_checkpoint_last, fun s t _ => time80 (((s.tile t).media.newestCk.map Checkpoint.start).getD 0)),
   (Reg.meters_checkpoint_s0, fun s t _ => u64 (((s.tile t).media.newestCk.map Checkpoint.s0).getD 0)),
   (Reg.meters_journal_fill, fun s t _ => u32 (s.journalFill t)),
   (Reg.marver_feeder_minutes, fun s t _ => u16 (s.feederMinutes t)),
   (Reg.cullet_fill, fun s t _ => u16 (s.queue t 0).fill_),
   (Reg.lehr_stream, fun s t _ => u8 ((s.issuing t).getD 255)),
   (Reg.lehr_seq_next, fun s t _ => u64 ((s.vol t).lehr.stream (s.shownStream t)).next),
   (Reg.lehr_seq_held_high, fun s t _ => u64 (s.highSeq t (s.shownStream t))),
   (Reg.lehr_retained_floor, fun s t _ => u64 (max ((s.tile t).media.floor (s.shownStream t)) (streamStart (s.shownStream t)))),
   (Reg.lehr_discard_floor, fun s t _ => u64 (s.discardFloor t)),
   (Reg.lehr_last_header_seq, fun s t _ => u64 (s.newestHeader t)),
   (Reg.lehr_last_close, fun s t _ => time80 (s.newestClose t)),
   (Reg.lehr_strays, fun s t _ => u32 (s.strays t 0 + s.strays t 1)),
   (Reg.lehr_sign_pubkey, fun s t _ => s.rdB Reg.vault_sign_pubkeys t (65 * (s.lehrGens t).2) 65),
   (Reg.lehr_key_gen, fun s t _ => u8 ((s.lehrGens t).1 + 16 * (s.lehrGens t).2)),
   (Reg.lehr_archive_blocks, fun s t _ => u16 (s.tile t).media.bArch),
   (Reg.lehr_fill, fun s t _ => u16 (s.tile t).media.fillPm),
   (Reg.balance_node_status, fun s t _ => s.nodeStatus t),
   (Reg.balance_zones, fun s t _ => u8 (zoneHeads (s.treeInForce t)).length),
   (Reg.balance_pending_mwh, fun s t _ => intLE 8 (s.pendingBooks t).1),
   (Reg.balance_pending_books, fun s t _ => u32 (s.pendingBooks t).2),
   (Reg.eph_push_state, fun s t _ => u8 (s.campState t)),
   (Reg.metro_state, fun s t _ => u8 (s.metroState t))]

/-- The same of chapters 7 to 16. -/
def tileFormedHigh : List (Entry × (State → TileId → Nat → Bytes)) :=
  [(Reg.metro_legal_check, fun s t _ => u32 (s.tile t).legalCheck),
   (Reg.metro_relay_state, fun s t i => u32 (s.relayState t i)),
   (Reg.eph_splits_pending, fun s t _ => u16 (s.eph t).splits.length),
   (Reg.eph_deferred, fun s t _ => u32 (s.eph t).deferred.length),
   (Reg.eph_bcast_ic, fun s t _ => u32 (s.eph t).bcast),
   (Reg.eph_push_counts, fun s t i => u32 ((s.members t).countP fun slot => decide ((s.meter t slot).pushState % 16 = i))),
   (Reg.plc_push_airtime_pm, fun s t _ => u16 (s.plcPushPm t)),
   (Reg.plc_route, fun s t _ => fit 128 (s.plcRoute t)),
   (Reg.rf_fc_down, fun s t _ => u32 (if (s.rf t).up then (s.rf t).fc else s.ceil t (ctrSlot 1))),
   (Reg.rf_neighbours, fun s t _ => u16 (s.rf t).neigh.length),
   (Reg.rf_sleepy, fun s t _ => u16 ((s.rf t).neigh.countP fun e => s.rfSleepy t e.2)),
   (Reg.rf_pending, fun s t _ => u16 (s.rf t).pending),
   (Reg.rf_duty_used_ms, fun s t i => u32 (((s.rf t).used i s.rfNow).1 / 1000000)),
   (Reg.sw_port_state, fun s t i => u8 ((s.sw t).port.getD i 0)),
   (Reg.sw_pool_free, fun s t _ => u16 (s.sw t).free),
   (Reg.sw_credits, fun s t i => u16 ((s.sw t).credit.getD i 0)),
   (Reg.sw_sessions, fun s t _ => u16 ((s.sw t).sess.countP fun e => decide (e.2.st = 2) || decide (e.2.st = 3))),
   (Reg.sw_session_status, fun s t _ => s.linkStatus t),
   (Reg.time_now, fun s t _ => time80 (s.timeNs t).toNat),
   (Reg.time_holdover_s, fun s t _ => u32 (s.holdoverS t)),
   (Reg.vault_lifecycle, fun s t _ => u8 (s.lifecycle t)),
   (Reg.vault_fuse_state, fun s t _ => u8 (s.tile t).fuseState),
   (Reg.vault_serial, fun _ t _ => fit 8 (Config.serial t)),
   (Reg.vault_enrol_record, fun s t _ => fit 212 (s.enrolRecord t)),
   (Reg.vault_import_pub, fun s t _ => s.importPub t),
   (Reg.vault_import_attest, fun s t _ => fit 64 (s.importAttest t)),
   (Reg.vault_slots_used, fun s t _ => u64 (s.slotsUsed t)),
   (Reg.vault_slot_file_used, fun s t _ => u16 (s.vol t).gather.slots.length),
   (Reg.power_state, fun s t _ => u8 (s.tile t).power.st.code),
   (Reg.power_vrun_mv, fun s t _ => u16 (s.tile t).power.vrunMv),
   (Reg.power_rail_mv, fun s t _ => u16 (s.tile t).power.railMv),
   (Reg.power_time_in_state, fun s t i => u64 (s.timeInState t i))]

/-- The same of chapters 17 to 20. -/
def tileFormedTop : List (Entry × (State → TileId → Nat → Bytes)) :=
  [(Reg.media_good_blocks, fun s t _ => u16 (s.tile t).media.good),
   (Reg.media_factory_bad, fun s t _ => u16 (s.tile t).media.factory.length),
   (Reg.media_spares, fun s t _ => intLE 2 (((s.tile t).media.bArch : Int) - s.rd Reg.media_arch_floor t)),
   (Reg.media_pool_free, fun s t _ => u16 (s.tile t).media.erased),
   (Reg.media_erase_max, fun s t _ => u32 (s.tile t).media.wear.1),
   (Reg.media_erase_mean, fun s t _ => u32 (s.tile t).media.wear.2.1),
   (Reg.media_erase_min, fun s t _ => u32 (s.tile t).media.wear.2.2),
   (Reg.media_temp_now, fun s t _ => intLE 2 (s.tile t).media.tempNow),
   (Reg.media_discard_ranges, fun s t _ =>
     let m := (s.tile t).media
     u16 (m.rangesCounted 0 m.disc0 + m.rangesCounted 1 m.disc1)),
   (Reg.media_keystore_fill, fun s t _ => u16 ((s.tile t).media.keysUsed * 1000 / (24 * 65536))),
   (Reg.queue_fill, fun s t i => u16 (if h : i < 7 then (s.queue t ⟨i, h⟩).fill_ else 0)),
   (Reg.legal_read_block, fun s t _ => s.legalBlock t),
   (Reg.legal_held, fun s t _ => u16 (s.tile t).legal.length),
   (Reg.fw_bank_state, fun s t i => u8 ((s.tile t).code.record.st i)),
   (Reg.fw_bank_version, fun s t i => u32 ((s.tile t).code.record.ver i)),
   (Reg.fw_running_bank, fun s t _ => u8 ((s.vol t).boot.running.getD 255)),
   (Reg.fw_floor, fun s t _ => u32 (s.tile t).code.record.floor),
   (Reg.fw_boot_report, fun s t _ => fit 16 (s.tile t).code.report),
   (Reg.fw_legal_floor, fun s t _ => u32 (s.tile t).code.record.legalFloor),
   (Reg.diag_egress_delay, fun s t _ => s.tileArmBytes t 0),
   (Reg.diag_credit_starve, fun s t _ => s.tileArmBytes t 1),
   (Reg.diag_nand_fail, fun s t _ => s.tileArmBytes t 2),
   (Reg.diag_lost_inject, fun s t _ => s.tileArmBytes t 3),
   (Reg.diag_armed, fun s t _ => u8 (s.tileArmed t))]

/-- Entries of a tile area that units form when they are read. -/
def tileFormed : List (Entry × (State → TileId → Nat → Bytes)) := tileFormedLow ++ (tileFormedHigh ++ tileFormedTop)

/-- Entries of a bay area that are formed when they are read. -/
def bayFormed : List (Entry × (State → BayId → Nat → Bytes)) :=
  [(Reg.bay_role_even, fun s b _ => u8 (s.bay b).roleE),
   (Reg.bay_role_odd, fun s b _ => u8 (s.bay b).roleO),
   (Reg.bay_own_pins, fun s b _ => u8 (s.ownPins b)),
   (Reg.bay_legal_en, fun s b _ => u8 (b2n (s.bay b).legalEn)),
   (Reg.bay_energy_bank_used_mj, fun s b _ => u16 (s.bankUsed b)),
   (Reg.bay_diag_mirror_delay, fun s b _ => s.bayArmBytes b 0),
   (Reg.bay_diag_pmbus_delay, fun s b _ => s.bayArmBytes b 1),
   (Reg.bay_diag_audit_mismatch, fun s b _ => s.bayArmBytes b 2),
   (Reg.bay_diag_mirror_lost, fun s b _ => s.bayArmBytes b 3)]

/-- The session at a place of `device.host.session_select`: 0 to 7 host sessions, 8 the serial one, with the key under which the hub holds it. -/
def Hub.place (h : Hub) (k : Nat) : Option (Nat × HSess) := h.sess.find? fun e => decide (e.2.slot = some k)

/-- The time in which AUTH must follow HELLO_RSP (R401): 1 s. -/
def authNs : Nat := 1000000000

/-- The handshakes of the lanes, or of the service bus, whose AUTH may still come, oldest first. -/
def Hub.shakes (h : Hub) (serial : Bool) (now : Nat) : List (Nat × HSess) :=
  h.sess.filter fun e => e.2.slot.isNone && (decide (e.2.chan = 2) == serial) && decide (now ≤ e.2.since + authNs)

/-- What `device.host.session_select` names: the session at the place, else a handshake in progress: the lanes' stand at their free places in the order of their
HELLOs, the service bus's at place 8 (DESIGN CHOICE, notes/assumptions/26.md). -/
def Hub.shown (h : Hub) (k now : Nat) : Option HSess :=
  match h.place k with
  | some x => some x.2
  | none =>
    let free := (List.range k).countP fun j => (h.place j).isNone
    if k = 8 then (h.shakes true now).getLast?.map Prod.snd else ((h.shakes false now)[free]?).map Prod.snd

/-- `device.host.session_status` (R418). -/
def State.hostStatus (s : State) : Bytes :=
  match s.pier.hub.shown (s.rd Reg.device_host_session_select 0) s.now with
  | none => List.replicate 96 0
  | some x =>
    fit 96 (u8 (if x.slot.isSome then 2 else 1) ++ u8 x.chan ++ u8 x.rights ++ u8 x.subs.length ++ u32 x.id ++ u32 x.rx ++ u32 x.tx ++ fit 32 x.print ++ time80 x.opened ++
      time80 x.lastNs ++ fit 16 (if x.chan = 2 then [] else x.peer))

/-! ### The descriptor (R662, R663) -/

/-- TCODE. -/
def Ty.code : Ty → Nat
  | .bool => 0 | .u8 => 1 | .u16 => 2 | .u32 => 3 | .u64 => 4 | .i32 => 5 | .i64 => 6 | .time80 => 7 | .octet => 8 | .string => 9
  | .record => 10 | .i8 => 11 | .i16 => 12 | .action => 255

/-- The type is an integer, which has a range. -/
def Ty.integer : Ty → Bool
  | .u8 | .u16 | .u32 | .u64 | .i8 | .i16 | .i32 | .i64 => true
  | _ => false

/-- The type is a signed integer. -/
def Ty.signed : Ty → Bool
  | .i8 | .i16 | .i32 | .i64 => true
  | _ => false

/-- The type is held as a number. -/
def Ty.number : Ty → Bool
  | .bool | .time80 => true
  | t => t.integer

/-- ACCESS code of R663. -/
def Access.code : Access → Nat
  | .ro => 0 | .rw => 1 | .rws => 2 | .wo => 3 | .rc => 4 | .ex => 5

/-- RESET code of R663. -/
def Cls.code : Cls → Nat
  | .computed => 0 | .powerOn => 1 | .both => 2 | .plain => 3 | .stored => 4 | .perSession => 5

/-- The area that an index lies in. -/
def areaOf (index : Nat) : Option Tgt :=
  if 0x1000 ≤ index ∧ index < 0x1700 then some .dev
  else if h : 0x2000 ≤ index ∧ index < 0x2800 then some (.bay ⟨(index - 0x2000) / 0x100, by omega⟩)
  else if h : 0x4000 ≤ index ∧ index < 0x8000 then some (.tile ⟨(index - 0x4000) / 0x400, by omega⟩)
  else none

/-- Order of the entries of an area: ascending index, then sub-index. -/
def Tgt.keyOf (g : Tgt) (e : Entry) : Nat := g.indexOf e * 256 + e.sub

/-- The next entry after an index and sub-index: its key, none at the end of the area. -/
def State.nextEntry (s : State) (g : Tgt) (e : Entry) (i : Nat) : Option Nat :=
  if i + 1 < e.cnt then some (g.keyOf e + i + 1)
  else ((s.entries g).map g.keyOf).foldl (fun a k =>
    if k ≤ g.keyOf e + i then a
    else some (match a with
      | some x => min x k
      | none => k)) none

/-- Whether SET, SET_BLOCK or EXEC is possible. -/
def Access.writes : Access → Bool
  | .rw | .rws | .wo | .ex => true
  | _ => false

/-- Whether a read is possible. -/
def Access.reads : Access → Bool
  | .ro | .rw | .rws | .rc => true
  | _ => false

/-- The 32 bytes of R663 for an index and sub-index. MIN and MAX are 0 for an entry that no SET accepts a value of. -/
def State.describe (s : State) (index sub : Nat) : Bytes :=
  let no := [0, 0, 0, (0xFE : Byte)] ++ List.replicate 28 0
  match areaOf index with
  | none => no
  | some g =>
    match s.findEntry g index sub with
    | none => no
    | some (e, i) =>
      let code := fun (ok : Bool) (r : Option Right) => if ok then (r.map Right.code).getD 0xFF else 0xFF
      let nxt := s.nextEntry g e i
      let range := e.ty.integer && (decide (e.acc = .rw) || decide (e.acc = .rws) || decide (e.acc = .wo))
      u16 index ++ u8 sub ++ u8 e.ty.code ++ u32 e.size ++ u8 e.acc.code ++ u8 (code e.acc.reads e.read) ++ u8 (code e.acc.writes e.write) ++
        u8 e.flags ++ u8 e.cls.code ++ u8 ((nxt.map fun k => k % 256).getD 0xFF) ++ u16 ((nxt.map fun k => k / 256).getD 0xFFFF) ++
        intLE 8 (if range then e.lo else 0) ++ intLE 8 (if range then e.hi else 0)

/-- `device.dict.describe`. -/
def State.dictDescribe (s : State) : Bytes :=
  let v := s.rd Reg.device_dict_select 0
  s.describe (v / 65536) (v / 256 % 256)

/-- `device.service_level` as the service bus reads it: 0 while no lane of the hub is up (R42). -/
def State.levelFor (s : State) (serial : Bool) : Nat :=
  if serial && !s.pier.hub.laneUp.any id then 0 else s.serviceLevel

/-- Entries of the device area that are formed when they are read. `pier.clock_source` reads 1 while no source is selected yet, before the first window
(DESIGN CHOICE, notes/assumptions/1.md). -/
def devFormed : List (Entry × (State → Nat → Bytes)) :=
  [(Reg.pier_clock_source, fun s _ => u8 (if s.pier.clock = .onRefclk then 0 else 1)),
   (Reg.device_service_level, fun s _ => u8 s.serviceLevel),
   (Reg.device_supply_vsys_mv, fun s _ => u16 s.pier.vsysMv),
   (Reg.device_diag_unlocked, fun s _ => u8 s.unlockedMask),
   (Reg.device_diag_armed, fun s _ => u8 s.armedMask),
   (Reg.device_diag_unlock_remaining_s, fun s i => u32 (if h : i < 8 then secsLeft s.now (s.bay ⟨i, h⟩).unlockTo else 0)),
   (Reg.device_host_lane_state, fun s _ => u8 s.laneState),
   (Reg.device_host_sessions, fun s _ => u8 (s.pier.hub.sess.countP fun e => match e.2.slot with
     | some k => decide (k < 8)
     | none => false)),
   (Reg.device_host_session_status, fun s _ => s.hostStatus),
   (Reg.device_time_utc_offset, fun s _ => intLE 2 s.pier.time.utc),
   (Reg.device_time_utc_offset_source, fun s _ => u8 s.pier.time.utcSrc),
   (Reg.device_sec_anchors, fun s _ => u8 s.anchors.length),
   (Reg.device_sec_host_pub, fun s _ => fit 65 (s.hostPub (s.rd Reg.device_sec_host_key_gen 0))),
   (Reg.device_sec_host_next_pub, fun s _ => fit 65 (s.hostPub (s.rd Reg.device_sec_host_key_gen 0 + 1))),
   (Reg.device_sec_test_root, fun s _ => u8 (b2n s.pier.es)),
   (Reg.device_sec_root_state, fun s _ => u8 s.pier.rootState),
   (Reg.device_sec_lifecycles, fun s _ => u64 s.lifecycles),
   (Reg.device_id_order_code, fun s _ => ascii (if s.pier.es then "DK216-ES" else "DK216-AE")),
   (Reg.device_id_serial, fun _ _ => fit 8 (Config.serial 16)),
   (Reg.device_id_stepping, fun _ _ => u16 (Config.identity 0)),
   (Reg.device_id_date_code, fun _ _ => u16 (Config.identity 1)),
   (Reg.device_fw_rom_version, fun _ _ => u32 (Config.identity 2)),
   (Reg.device_dict_describe, fun s _ => s.dictDescribe)]

/-! ### Reading -/

/-- Drop zeros at the end: a STRING travels without them. -/
def trimZeros (b : Bytes) : Bytes := (b.reverse.dropWhile fun x => decide (x = 0)).reverse

/-- A part of a value: from an offset, at most so many bytes. -/
def cut (rng : Option (Nat × Nat)) (b : Bytes) : Bytes := match rng with
  | some (a, n) => (b.drop a).take n
  | none => b

/-- The value held for an entry, or a part of an OCTET one. -/
def State.heldValue (s : State) (n : Nat) (e : Entry) (i : Nat) (rng : Option (Nat × Nat)) : Bytes :=
  if e.ty = .time80 then time80 (s.rd e n i)
  else if e.ty.number then natLE e.size (s.rd e n i)
  else if e.ty = .string then trimZeros (s.rdAll e n i)
  else match rng with
    | some (a, k) => s.rdB e n a (min k (e.size - a)) i
    | none => s.rdAll e n i

/-- Find what forms an entry. -/
def formedBy {α : Type} (l : List (Entry × α)) (e : Entry) : Option α := (l.find? fun x => decide (x.1 = e)).map Prod.snd

/-- The value of an entry, or a part of it; `serial`: read over the service bus. -/
def State.value (s : State) (g : Tgt) (e : Entry) (i : Nat) (serial : Bool := false) (rng : Option (Nat × Nat) := none) : Bytes :=
  let h := e.home i
  let held := s.heldValue g.unit h.1 h.2 rng
  match g with
  | .tile t => match formedBy tileFormed e with
    | some f => cut rng (f s t i)
    | none => held
  | .bay b => match formedBy bayFormed e with
    | some f => cut rng (f s b i)
    | none => held
  | .dev =>
    if e = Reg.device_service_level then u8 (s.levelFor serial)
    else match formedBy devFormed e with
      | some f => cut rng (f s i)
      | none => held

/-- The tile's stored settings cannot be reached: before step T5 (R656). -/
def State.settingsAway (s : State) (t : TileId) (e : Entry) : Bool := e.inNand && decide ((s.vol t).boot.step < 5)

/-- The mirror FIFO's watermark status word (R584), which a read clears. -/
def State.fifoStatus (s : State) (b : BayId) : State × Nat :=
  let q := (s.bay b).fifo
  (s.onBay b fun x => { x with fifo := x.fifo.seen }, q.word)

/-- A GET of an entry: the state after it and its value, or the entry's refusal. A standby first applies what its FIFO holds (R658); an RC entry is cleared
(R587); an entry that removes does so (R649). -/
def State.readEntry (s : State) (g : Tgt) (e : Entry) (i : Nat) (serial : Bool := false) (rng : Option (Nat × Nat) := none) :
    State × Except Status Bytes :=
  let n := g.unit
  let plain := fun (s : State) =>
    let v := s.value g e i serial rng
    let h := e.home i
    (if e.acc = .rc then s.wr h.1 n 0 h.2 else s, (Except.ok v : Except Status Bytes))
  match g with
  | .tile t =>
    if s.settingsAway t e then (s, .error .busy)
    else
      let s := if e.carried && s.standbyOf (bayOf t) == some t && !s.independent t then s.drainAll (bayOf t) t else s
      if e = Reg.cullet_read then (let r := s.culletTake t; (r.1, .ok (fit 128 r.2)))
      else if e = Reg.cullet_read_block then
        (let r := (List.range 8).foldl (fun (a : State × Bytes) _ => if (a.1.queue t 0).fill_ = 0 then a
            else let x := a.1.culletTake t; (x.1, a.2 ++ x.2)) (s, [])
         (r.1, .ok (fit 1024 r.2)))
      else if e = Reg.sw_sample_read then
        (let r := s.qRead t 5
         (r.1, .ok (fit 144 (match r.2 with
           | some x => itemBytes x
           | none => []))))
      else if e = Reg.queue_wm_status then
        (if h : i < 7 then (let r := s.wmRead t ⟨i, h⟩; (r.1, .ok (u64 r.2))) else (s, .error .noEntry))
      else if e = Reg.cullet_wm_status then (let r := s.wmRead t 0; (r.1, .ok (u64 r.2)))
      else if e = Reg.events_read_block then (let r := s.eventsBlock (some t); (r.1, .ok (cut rng r.2)))
      else if e = Reg.vault_debug_challenge then
        (let r := s.debugChallenge t
         match r.2 with
         | some c => (r.1, .ok (cut rng (fit 16 c)))
         | none => (r.1, .error .busy))
      else plain s
  | .bay b => if e = Reg.bay_mirror_wm_status then (let r := s.fifoStatus b; (r.1, .ok (u64 r.2))) else plain s
  | .dev => if e = Reg.device_events_read_block then (let r := s.eventsBlock none; (r.1, .ok (cut rng r.2))) else plain s

/-- A byte range of an OCTET entry (R399). -/
def State.readBlock (s : State) (g : Tgt) (e : Entry) (i off len : Nat) (serial : Bool := false) : State × Except Status Bytes :=
  if e.size ≤ off then (s, .error .length)
  else s.readEntry g e i serial (some (off, len))

end Sys2Proof.Machine
end

