-- ==== Sys2Proof/Machine/MeterActs.lean ====
section
/-! DEFINITION. MeterActs.lean: chapter 2: the actions on meter records, which run one at a time, their acknowledgement, the checkpoint, and the end of a
record's restoration. -/

namespace Sys2Proof.Machine

/-! ### The record that an action writes (R62, R690) -/

/-- The record that enrolment writes (R62). RELAY_CMD_TIME, which R62 does not name, is 0 in MODE 0 and from the image in MODE 1; ENROL_TIME is 0 while the tile
provides no time (DESIGN CHOICE, notes/assumptions/32.md). -/
def enrolRecord (s : State) (t : TileId) (img old : MeterRec) (mode : Nat) : MeterRec :=
  let base : MeterRec :=
    { img with
      state := 1, shortAddr := 0xFFFF, keyMap := 0, rfKeyId := 0, keyGen := 0, creditHeld := 0, lastSeq := 0, billSeq := 0
      imgId := 0, imgBlocks := 0, pushState := 0, relayCmdTime := 0
      midxGen := (old.midxGen + 2 ^ 22) % 2 ^ 32
      idur := if img.idur = 0 then s.clsIdur t img.cls else img.idur
      enrolTime := s.whenNs t / 1000000000 % 2 ^ 32
      updCnt := old.updCnt, checkGood := true }
  if mode = 1 then { base with relayCmdTime := img.relayCmdTime }
  else
    { base with
      phase := if bit img.phase 3 then img.phase else 0
      phaseConf := 0, tamperCnt := 0, eventFlags := 0, fcUpHw := 0, relayCmd := 0xFF, relayRpt := 0xFF
      tou := List.replicate 8 0, lastTend := 0, dupMap := 0, lastReg := List.replicate 6 0, gapRun := 0, clkOfs := 0
      calVersion := 0 }

/-- The E fields that an edit replaces (R44, R690): those that an enrolment takes from the image. STATE, MIDX_GEN and ENROL_TIME, which enrolment itself sets,
stay (DESIGN CHOICE, notes/assumptions/32.md). -/
def editRecord (s : State) (t : TileId) (img old : MeterRec) : MeterRec :=
  let idur := if img.idur = 0 then s.clsIdur t img.cls else img.idur
  let r := { old with sysTitle := img.sysTitle, eui64 := img.eui64, cls := img.cls, path := img.path, satId := img.satId,
                      idur := idur, prepayProfile := img.prepayProfile, segment := img.segment, label := img.label }
  if idur = old.idur then r else { r with dupMap := 0xFFFF, gapRun := 0 }

/-- A member of an image campaign that leaves is CANCELLED (R289). -/
def MeterRec.leaveCampaign (r : MeterRec) : MeterRec :=
  if 1 ≤ r.pushState % 16 ∧ r.pushState % 16 ≤ 6 then { r with pushState := r.pushState / 16 * 16 + 9 } else r

/-! ### Acknowledgement and order (R60, R63, R65) -/

/-- Order an acknowledgement for when the journal entry is durable and mirrored (R63), and earlier readings have left G8 when hash entries were removed
(R65); `keys`: the slot's keys are then destroyed. -/
def State.ackLater (s : State) (t : TileId) (slot : Nat) (drain keys : Bool) : State :=
  s.onMeters t fun m => { m with pend := m.pend ++ [{ slot := slot, jpos := m.jCount, mirror := s.mirrorMark t, drain := drain, keys := keys, act := s.acts.now }] }

/-- Refuse an action on meter records. -/
def State.meterRefuse (s : State) (t : TileId) (st : Status) : State :=
  (s.wr Reg.meters_last_result t st.code).answer t st

/-- What a meter that leaves takes with it: the frames toward it, its radio neighbour, its machines in Ephemeris, and its place in a campaign
(R46, R289, R290, R362). -/
def State.leaveUnits (s : State) (t : TileId) (slot : Nat) : State :=
  (((s.swForget t (s.midxOf t slot) (s.meter t slot).sysTitle).rfForget t slot).ephForget t slot).pushSettle t

/-- R690 orders 1 to 3 for an action on the slot at staging 0x100. BUSY of a full journal ring (R70), to which the spec gives no place, follows them
(DESIGN CHOICE, notes/assumptions/32.md). -/
def slotAction (s : State) (t : TileId) (b : Bytes) (rest : Bool) (states : List Nat) : Option Status :=
  let midx := fld b 0x100 4
  if !s.serves t then some .notActive
  else if !s.ownMidx t midx ∨ (rest ∧ leNat (b.drop 0x104) ≠ 0) then some .invalid
  else if !states.contains (s.meter t (midxSlot midx)).state then some .conflict
  else if (s.tile t).media.journalFull then some .busy
  else none

/-! ### What each action does (R61 to R67, R690) -/

/-- Enrolment (R61, R62) of the staging block `b`. BUSY of a full journal ring (R70) follows R61 order 6 (DESIGN CHOICE, notes/assumptions/32.md). The
slot's baselines of billing and of the books start anew (R193, R265). -/
def runEnrol (t : TileId) (b : Bytes) (s : State) : State :=
  let img := MeterRec.parse b
  let midx := fld b 0x100 4
  let mode := fld b 0x104 1
  let slot := midxSlot midx
  if !s.serves t then s.meterRefuse t .notActive
  else if 1 < mode ∨ leNat (b.drop 0x105) ≠ 0 ∨ !s.ownMidx t midx then s.meterRefuse t .invalid
  else if (s.meter t slot).state ≠ 0 then s.meterRefuse t .conflict
  else match imageCheck s t img mode (2 ^ 22) with
    | some st => s.meterRefuse t st
    | none =>
      if (s.tile t).media.journalFull then s.meterRefuse t .busy
      else
        let r := enrolRecord s t img (s.meter t slot) mode
        let h := s.hashEnter t midx r.ids
        if !h.2 then h.1.meterRefuse t .tableFull
        else
          let s := h.1.onMeters t fun m => { m with ceils := Tbl.put m.ceils slot r.icDown, damaged := m.damaged.filter (· != slot) }
          let s := s.onVol t fun v => { v with
            eph := { v.eph with base := Tbl.put v.eph.base slot (r.lastTend, r.lastReg) }
            bal := { v.bal with meters := Tbl.del v.bal.meters slot } }
          let s := (s.journalMeter t slot r .enrol).reserveIc t slot
          ((s.mirrorRec t slot).auditPlan t slot).ackLater t slot false false

/-- Edit (R690, R47): the hash entries follow the new identities; a change of class raises CLASS_EDIT. -/
def runEdit (t : TileId) (b : Bytes) (s : State) : State :=
  let midx := fld b 0x100 4
  let slot := midxSlot midx
  match slotAction s t b true [1] with
  | some st => s.meterRefuse t st
  | none =>
    let old := s.meter t slot
    let img := MeterRec.parse b
    match imageCheck s t img 0 midx with
    | some st => s.meterRefuse t st
    | none =>
      let r := editRecord s t img old
      let h := (s.hashRemove t midx).hashEnter t midx r.ids
      if !h.2 then (s.bump Reg.meters_hash_insert_fail t).meterRefuse t .tableFull
      else
        let s := h.1.journalMeter t slot r .edit
        let s := s.mirrorFields t slot old (s.meter t slot)
        let s := if r.cls = old.cls then s else s.event t 0 0x1102 midx (old.cls * 256 + r.cls) old.lastSeq
        (s.auditPlan t slot).ackLater t slot false false

/-- Move-out (R66, R67): downlink commands to the meter are refused from here on. -/
def runMoveOut (t : TileId) (b : Bytes) (s : State) : State :=
  let midx := fld b 0x100 4
  let slot := midxSlot midx
  match slotAction s t b false [1] with
  | some st => s.meterRefuse t st
  | none =>
    let r := s.meter t slot
    if r.creditHeld ≠ 0 ∨ r.relayCmd ≠ r.relayRpt then s.meterRefuse t .busy
    else
      let s := (s.hashRemove t midx).journalMeter t slot { r.leaveCampaign with state := 2, icDown := s.ceil t slot } .moveOut
      ((s.mirrorRec t slot).leaveUnits t slot).ackLater t slot true false

/-- Retirement (R64). Its keys go at the acknowledgement, once its journal entry is durable and every reading that passed G1 has completed with the old
record (R63, R65). -/
def runRetire (t : TileId) (b : Bytes) (s : State) : State :=
  let midx := fld b 0x100 4
  let slot := midxSlot midx
  match slotAction s t b false [1, 2] with
  | some st => s.meterRefuse t st
  | none =>
    let r := s.meter t slot
    let s := (s.hashRemove t midx).onMeters t fun m =>
      { m with damaged := m.damaged.filter (· != slot), restoring := m.restoring.filter (· != slot) }
    let s := s.journalMeter t slot { r.leaveCampaign with state := 3, checkGood := true } .retire
    (((s.mirrorRec t slot).event t 0 0x1101 midx r.midxGen r.lastSeq).leaveUnits t slot).ackLater t slot true true

/-- Release (R64, R66): FREE, every field but MIDX_GEN cleared; the keys are destroyed. -/
def runRelease (t : TileId) (b : Bytes) (s : State) : State :=
  let midx := fld b 0x100 4
  let slot := midxSlot midx
  match slotAction s t b false [2, 3] with
  | some st => s.meterRefuse t st
  | none =>
    let s := (s.leaveUnits t slot).freeMeter t slot (s.meter t slot).midxGen
    (s.mirrorRec t slot).ackLater t slot false true

/-- An action with its staging block. -/
def MeterOp.run : MeterOp → TileId → Bytes → State → State
  | .enrol => runEnrol
  | .edit => runEdit
  | .moveOut => runMoveOut
  | .retire => runRetire
  | .release => runRelease

/-- An action on meter records of the tile has not completed. -/
def State.actionRuns (s : State) (t : TileId) : Bool := (s.vol t).meters.pend.any fun p => !p.topup

/-- Actions on one tile run one at a time, in the order received (R60): one that finds another running waits, with the staging block as it stood when
the action was received (DESIGN CHOICE, notes/assumptions/32.md). -/
def meterAction (op : MeterOp) (t : TileId) (s : State) : State :=
  if s.actionRuns t then s.onMeters t fun m => { m with waits := m.waits ++ [(op, s.staging t, s.acts.now)] } else op.run t (s.staging t) s

/-- Run waiting actions until one does not complete at once. -/
def State.nextActions (s : State) (t : TileId) : List (MeterOp × Bytes × Act) → State
  | [] => s.onMeters t fun m => { m with waits := [] }
  | x :: l => if s.actionRuns t then s.onMeters t fun m => { m with waits := x :: l } else (s.acting x.2.2 (x.1.run t x.2.1)).nextActions t l

/-- METERS_ENROL (R61). -/
def execMetersEnrol (t : TileId) (s : State) : Host.Outcome State Fault Refusal := finish (consuming t [Reg.meters_staging] (meterAction .enrol t)) s

/-- METERS_EDIT (R690). -/
def execMetersEdit (t : TileId) (s : State) : Host.Outcome State Fault Refusal := finish (consuming t [Reg.meters_staging] (meterAction .edit t)) s

/-- METERS_MOVE_OUT (R66). -/
def execMetersMoveOut (t : TileId) (s : State) : Host.Outcome State Fault Refusal := finish (consuming t [Reg.meters_staging] (meterAction .moveOut t)) s

/-- METERS_RETIRE (R64). -/
def execMetersRetire (t : TileId) (s : State) : Host.Outcome State Fault Refusal := finish (consuming t [Reg.meters_staging] (meterAction .retire t)) s

/-- METERS_RELEASE (R64). -/
def execMetersRelease (t : TileId) (s : State) : Host.Outcome State Fault Refusal := finish (consuming t [Reg.meters_staging] (meterAction .release t)) s

/-- The keys of a slot that retires or is released are destroyed (R64): blobs, slot-file entries, and what KEY_MAP shows of them. -/
def State.endKeys (s : State) (t : TileId) (slot : Nat) : State :=
  let s := s.destroyKeys t slot
  if (s.meter t slot).keyMap = 0 then s else s.fieldsMeter t slot fun r => { r with keyMap := 0 }

/-- The oldest action on a meter record is acknowledged once its entry is durable and placed, and earlier readings have left G8 (R63, R65); the action
behind it runs. The meter of a top-up is then evaluated (R277), while the tile serves (R257). -/
def meterActionAck (t : TileId) (s : State) : State :=
  match (s.vol t).meters.pend with
  | p :: r =>
    if p.jpos ≤ (s.vol t).meters.jDone ∧ s.mirrored t p.mirror ∧ (!p.drain ∨ s.idleMidx t (s.midxOf t p.slot)) then
      let s := s.onMeters t fun m => { m with pend := r }
      if p.topup then
        let s := s.acting p.act fun s => s.ephOk t
        if s.serves t then s.prepayEval t p.slot else s
      else
        let s := if p.keys then s.endKeys t p.slot else s
        let s := (s.wr Reg.meters_last_result t 0).answerFor p.act t .ok
        s.nextActions t (s.vol t).meters.waits
    else s
  | [] => s

/-- METER_ACTION_ACK (R63, R65). -/
def execMeterActionAck (t : TileId) (s : State) : Host.Outcome State Fault Refusal := finish (meterActionAck t) s

/-! ### The checkpoint (R68) -/

/-- SEQs of the records that wait for Ephemeris: in its feed, in the backlog of a standby, or, from the SEQ that it expects on, in the archive, from where it
fetches what the feed lost (R68, R265). -/
def State.unbilled (s : State) (t : TileId) : List Nat :=
  let q := s.queue t 3
  let n := (s.eph t).next
  let late := if n = 0 then [] else (s.archived t (seqStream n)).filter fun r => decide (n ≤ r.seq) && match r.body with
    | .meter _ _ _ _ _ => true
    | _ => false
  ((q.drain ++ q.fill).filterMap fun i => match i with
    | .record r => match r.body with
      | .meter _ _ _ _ _ => if r.seq < n then none else some r.seq
      | _ => none
    | _ => none) ++ (s.eph t).backlog.map (fun x => x.1.seq) ++ late.map ArchRec.seq

/-- S0: the oldest SEQ whose billing has not reached its record, or the SEQ after the highest issued or drained. -/
def State.billFloor (s : State) (t : TileId) : Nat :=
  match s.unbilled t with
  | x :: r => r.foldl min x
  | [] =>
    let top := fun (l : Tbl ArchEnt) => match l.getLast? with
      | some e => e.1 + 1
      | none => 0
    let drained := (s.held t 0 ++ s.held t 1).foldl (fun a r => max a (r.seq + 1)) 0
    max (max drained (max (top (s.tile t).media.arch0) (top (s.tile t).media.arch1)))
      (if (s.vol t).lehr.stream0.issuing then (s.vol t).lehr.stream0.next
       else if (s.vol t).lehr.stream1.issuing then (s.vol t).lehr.stream1.next else 0)

/-- Copy the waiting records whose BILL_SEQ has reached their LAST_SEQ; complete when none waits (R68). -/
def copyRecords (s : State) (t : TileId) (c : Checkpoint) (wait : List Nat) : State :=
  let ready := fun i => let r := s.meter t i; decide (r.billSeq = r.lastSeq)
  let c := (wait.filter ready).foldl (fun c i =>
    { c with recs := Tbl.put c.recs i (s.meter t i), ceils := Tbl.put c.ceils i (s.ceil t i) }) c
  let rest := wait.filter fun i => !ready i
  if rest = [] then (s.onMeters t fun m => { m with ckptRun := none }).queueJob t (.checkpoint c)
  else s.onMeters t fun m => { m with ckptRun := some (c, rest) }

/-- A checkpoint may start: the tile's firmware runs on a mounted die, PFAIL_N is high and no other checkpoint is being written. -/
def State.mayCheckpoint (s : State) (t : TileId) : Bool :=
  s.inRun t && decide (s.rd Reg.media_state t = 3) && decide (6 ≤ (s.vol t).boot.step) && !s.pier.pfail &&
  !(s.tile t).media.jobs.any fun j => match j.2 with
    | .checkpoint _ => true
    | _ => false

/-- CHECKPOINT (R68): started when the interval has passed, or early when the journal ring cannot take an entry, once its blocks are erased (R564); a
running one copies the records that have become ready. -/
def checkpoint (t : TileId) (s : State) : State :=
  match (s.vol t).meters.ckptRun with
  | some (c, wait) => copyRecords s t c wait
  | none =>
    if s.mayCheckpoint t ∧ ((s.vol t).meters.ckptNext ≤ s.now ∨ (s.tile t).media.journalFull = true) then
      let top := (s.vol t).meters.ceils.filter fun e => decide (2 ^ 18 ≤ e.1)
      let c : Checkpoint := { start := s.whenNs t, j0 := (s.tile t).media.jPos, s0 := s.billFloor t, recs := [], ceils := top }
      let s := s.onMeters t fun m => { m with ckptNext := s.now + s.rd Reg.meters_checkpoint_interval t * 1000000000 }
      copyRecords (s.onMedia t Media.eraseCk) t c (Tbl.keys (s.vol t).meters.recs)
    else s

/-- CHECKPOINT (R68). -/
def execCheckpoint (t : TileId) (s : State) : Host.Outcome State Fault Refusal := finish (checkpoint t) s

/-! ### The end of a restoration (R72) -/

/-- The media with the journal entries that are not programmed yet behind those that are. -/
def State.liveMedia (s : State) (t : TileId) : Media :=
  let m := (s.tile t).media
  let l := (m.jobs.flatMap fun j => match j.2 with
    | .journal e => e
    | _ => []) ++ (s.vol t).meters.jPage
  { m with journal := m.journal ++ (l.zip (List.range l.length)).map fun x => (m.jPos * 256 + x.2, x.1) }

/-- One record is restored by the method of R71: checkpoint, journal, and the archive records held. Ephemeris applies those above its BILL_SEQ again, but
for the ones that still wait for it. -/
def State.restoreMeter (s : State) (t : TileId) (slot : Nat) : State :=
  let m := s.liveMedia t
  let p := m.loadTable
  let l := (s.held t 0 ++ s.held t 1).filter fun a => decide (midxSlot a.who = slot)
  let r := (Tbl.get (replayArchive (s.rd Reg.gather_grid_phase t) p.1 l) slot).getD (MeterRec.free (s.midxOf t slot))
  let s := s.setMeter t slot { r with checkGood := true }
  let wait := s.unbilled t
  let x := s.replayBills t m p.1 (l.filter fun a => !wait.contains a.seq) fun a => decide (r.billSeq < a.seq)
  match Tbl.get x.2 slot with
  | some b => x.1.onEph t fun e => { e with base := Tbl.put e.base slot (b.lastTend, b.lastReg) }
  | none => x.1

/-- RECORD_RESTORE (R72). A record of the slot fails CHECK; for a slot already being restored, the restoration ends: from the checkpoint, journal and archive,
or marked damaged when the checkpoint copy is bad too. -/
def recordRestore (t : TileId) (slot : Nat) (copyBad : Bool) (s : State) : State :=
  if (s.vol t).meters.restoring.contains slot then
    let s := s.onMeters t fun m => { m with restoring := m.restoring.filter (· != slot) }
    if copyBad then s.onMeters t fun m => { m with damaged := m.damaged.filter (· != slot) ++ [slot] }
    else s.restoreMeter t slot
  else s.recordBad t slot

/-- RECORD_RESTORE (R72). -/
def execRecordRestore (t : TileId) (slot : Nat) (copyBad : Bool) (s : State) : Host.Outcome State Fault Refusal :=
  finish (recordRestore t slot copyBad) s

end Sys2Proof.Machine
end

