-- ==== Sys2Proof/Machine/SwitchCore.lean ====
section
/-! DEFINITION. SwitchCore.lean: chapter 11: admission of frames, the choice of the frame that an output serves, credits, the link machine of D0 and D1,
and the satellite sessions. -/

namespace Sys2Proof.Machine

open Crypto

/-! ### Admission (R366 to R370, R376, R377) -/

/-- A wire frame carries PTP: EtherType 0x88F7, or UDP port 319 or 320 over IPv4 or IPv6 (R377). -/
def isPtp (ety : Nat) (r : Bytes) : Bool :=
  let udp := fun (b : Bytes) => decide (beNat ((b.drop 2).take 2) = 319 ∨ beNat ((b.drop 2).take 2) = 320)
  decide (ety = 0x88F7) ||
  (decide (ety = 0x0800) && decide (fld r 9 1 = 17) && udp (r.drop (4 * (fld r 0 1 % 16)))) ||
  (decide (ety = 0x86DD) && decide (fld r 6 1 = 17) && udp (r.drop 40))

/-- A frame arrives at input `i`. On D0 and D1 the bytes are those of the wire: PTP goes to P6 in the EXPRESS class and a
KEEPALIVE is accepted; link frames of the other types are commands of their own. No port carries a frame of more than 9 216 bytes (R365), and
P7 takes copies only (R364, R376). -/
def frameAdmit (t : TileId) (i o : Fin 8) (cls : Fin 4) (data : Bytes) (fcsBad : Bool) (s : State) : State :=
  if i.val = 7 ∨ 9216 < data.length ∨ (2 ≤ i.val ∧ o.val = 7) then s
  else if h : i.val < 2 then
    let p : Fin 2 := ⟨i.val, h⟩
    if (s.sw t).port.getD p 0 ≠ 2 then s
    else if fcsBad then s.bump Reg.sw_fcs_errors t p
    else match s.etherIn t data with
      | none => (s.swCount t i cls data data.length).bump Reg.sw_rx_unknown t
      | some (_, ety, r) =>
        if isPtp ety r then
          (s.swCount t i 0 data data.length).swStore t i 6
            { cls := 0, len := data.length, cells := 0, shared := false, body := .other data }
        else if ety = 0x88B5 ∧ linkUp (fld r 1 1) ∧ fld r 1 1 ≠ 7 then s
        else (s.linkRx t p data).1
  else s.swSend t i o cls (.other data)

/-- FRAME_ADMIT (R369). -/
def execFrameAdmit (t : TileId) (i o : Fin 8) (cls : Fin 4) (data : Bytes) (fcsBad : Bool) (s : State) :
    Host.Outcome State Fault Refusal := finish (frameAdmit t i o cls data fcsBad) s

/-! ### Dispatch (R371, R372, R385) -/

/-- The state of the session with a SESSION value on a port: 0 for none. -/
def Switch.sessState (w : Switch) (port value : Nat) : Nat :=
  match w.sess.find? fun e => decide (e.2.value = value) && decide (e.2.port = port) && decide (1 < e.2.st) with
  | some e => e.2.st
  | none => 0

/-- A frame may leave now: frames of sessions in VERIFY are not served (R378), and what Gather takes from P5 leaves by its own round robin (R82). -/
def Switch.servable (w : Switch) (o : Nat) (f : SwFrame) : Bool :=
  match f.body with
  | .link v _ _ => !(decide (o < 2) && decide (w.sessState o v = 3))
  | .intake _ => false
  | _ => true

/-- The frame that output `o` would take next from class `c`: its input, its place in the VOQ, itself. -/
def Switch.head (w : Switch) (o c : Nat) : Option (Nat × Nat × SwFrame) :=
  let last := (Tbl.get w.rr (4 * o + c)).getD 7
  ((List.range 8).map fun k => (last + 1 + k) % 8).findSome? fun i =>
    let l := w.voq i o c
    (l.findIdx? (w.servable o)).bind fun k => (l[k]?).map fun f => (i, k, f)

/-- Deficit weighted round robin over CONTROL, READING and BULK (R372): the class that sends, and the deficits. `len c` is the length
of the class's frame when it may go. -/
def drr (quantum : Nat → Nat) (len : Nat → Option Nat) : Nat → Nat → (Nat → Nat) → Option (Nat × (Nat → Nat))
  | 0, _, _ => none
  | fuel + 1, c, d =>
    let next := if c = 3 then 1 else c + 1
    match len c with
    | some n =>
      if n ≤ d c then some (c, fun x => if x = c then d c - n else d x)
      else drr quantum len fuel next fun x => if x = next then d x + quantum x else d x
    | none => drr quantum len fuel next fun x => if x = c then 0 else if x = next then d x + quantum x else d x

/-- The class that output `o` serves next, and the switch core after the choice. -/
def Switch.choose (w : Switch) (o : Nat) (weight : Nat → Nat) : Option (Nat × Switch) :=
  if (w.head o 0).isSome then some (0, w)
  else
    let len := fun c => match w.head o c with
      | some (_, _, f) => if f.cells ≤ w.credit.getD o 0 then some f.len else none
      | none => none
    let d0 := fun c => (Tbl.get w.deficit (4 * o + c)).getD 0
    (drr (fun c => 256 * weight c) len 256 (w.cur.getD o 1) d0).map fun r =>
      (r.1, { w with cur := w.cur.set o r.1
                     deficit := [1, 2, 3].foldl (fun m c => Tbl.put m (4 * o + c) (r.2 c)) w.deficit })

/-! ### Credits (R371, R374) -/

/-- The unit behind output `o` frees `n` cells; CREDIT_STARVE holds back what passes its ceiling (R632). -/
def creditReturn (t : TileId) (o : Fin 8) (n : Nat) (s : State) : State :=
  let k := min n ((s.sw t).held.getD o 0)
  let top := match s.tileArm t 1 with
    | some a => if a.p1 = o.val then a.p2 else 1024
    | none => 1024
  let up := min k (top - (s.sw t).credit.getD o 0)
  let s := s.onSw t fun w => { w with credit := addAt w.credit o up, held := subAt w.held o k }
  s.onVol t fun v => { v with diag := { v.diag with back := addAt v.diag.back o (k - up) } }

/-- CREDIT_RETURN (R371). -/
def execCreditReturn (t : TileId) (o : Fin 8) (n : Nat) (s : State) : Host.Outcome State Fault Refusal :=
  finish (creditReturn t o n) s

/-- Cells in transfer to output `o`: those of the frames that EGRESS_DELAY holds after their dispatch (R632). Every other transfer is
complete with its command. -/
def State.inTransfer (s : State) (t : TileId) (o : Nat) : Nat :=
  (((s.vol t).diag.delayed.filter fun x => decide (x.1 = o)).map fun x => x.2.2.2.cells).sum

/-- The repair of R374: dispatching to `o` stops until nothing is in transfer to it; then C_o is K_o less the `seen` cells that the
unit holds, and dispatching resumes. -/
def State.repairCredit (s : State) (t : TileId) (o seen : Nat) : State :=
  if s.inTransfer t o = 0 then
    (s.onSw t fun w => { w with miss := w.miss.set o 0, stopped := w.stopped.set o false, held := w.held.set o (min seen (outCap o)) }).setCredit t o
      (outCap o - seen)
  else s.onSw t fun w => { w with stopped := w.stopped.set o true }

/-- The aligned snapshot of R374: the unit behind `o` holds `seen` cells, returns under way included. -/
def creditCheck (t : TileId) (o : Fin 8) (seen : Nat) (s : State) : State :=
  let w := s.sw t
  if o.val = 7 ∨ !s.portTakes t o then s
  else
    let s := if w.credit.getD o 0 + (s.vol t).diag.back.getD o 0 + s.inTransfer t o + seen = outCap o then
        s.onSw t fun w => { w with miss := w.miss.set o 0 }
      else ((s.bump Reg.sw_credit_faults t o).event t 1 0x1801 o (w.credit.getD o 0) seen).onSw t fun w => { w with miss := addAt w.miss o 1 }
    if w.stopped.getD o false ∨ 3 ≤ (s.sw t).miss.getD o 0 then s.repairCredit t o seen else s

/-- CREDIT_CHECK (R374). -/
def execCreditCheck (t : TileId) (o : Fin 8) (seen : Nat) (s : State) : Host.Outcome State Fault Refusal :=
  finish (creditCheck t o seen) s

/-! ### The link machine (R378) -/

/-- H in nanoseconds. -/
def State.holdNs (s : State) (t : TileId) : Nat := s.rd Reg.sw_link_hold_ms t * 1000000

/-- H has elapsed while the port is in HOLD: the port goes down. -/
def holdExpiry (t : TileId) (p : Fin 2) (s : State) : State :=
  if (s.sw t).port.getD p 0 = 3 ∧ (s.sw t).hold.getD p 0 + s.holdNs t ≤ s.now then
    (s.portDown t p).onSw t fun w => { w with port := w.port.set p 1 }
  else s

/-- HOLD_EXPIRY (R378). -/
def execHoldExpiry (t : TileId) (p : Fin 2) (s : State) : Host.Outcome State Fault Refusal := finish (holdExpiry t p) s

/-- Draw 16 bytes for a nonce when the DRBG is ready. -/
def State.nonce (s : State) (t : TileId) : State × Option Bytes :=
  if s.drbgReady t then
    let r := s.draw t
    (r.1, some (r.2.take 16))
  else (s.drbgRefuse t, none)

/-- Every UP session of a port enters VERIFY with a CHALLENGE (R384). Without a DRBG there is no NONCE_D: no CHALLENGE leaves, and no RESUME
answers one. -/
def State.challengePort (s : State) (t : TileId) (p : Nat) : State :=
  (Tbl.keys ((s.sw t).sess.filter fun e => decide (e.2.port = p) && decide (e.2.st = 2))).foldl (fun s k =>
    let r := s.nonce t
    let s := r.1.onSw t fun w => { w with sess := Tbl.upd w.sess k fun x => { x with st := 3, nonce := r.2.getD [], since := r.1.now } }
    match Tbl.get (s.sw t).sess k, r.2 with
    | some x, some n => s.sendLink t x 5 (natLE 4 (s.rd Reg.sw_link_epoch t) ++ n)
    | _, _ => s) s

/-- The link is up. -/
def linkUpEvent (t : TileId) (p : Fin 2) (s : State) : State :=
  let back := (s.sw t).hold.getD p 0 + s.holdNs t
  let s := if s.now ≤ back then s else holdExpiry t p s
  match (s.sw t).port.getD p 0 with
  | 1 => (s.onSw t fun w => { w with port := w.port.set p 2 }).setCredit t p (outCap p)
  | 3 => (s.onSw t fun w => { w with port := w.port.set p 2 }).challengePort t p
  | _ => s

/-- LINK_UP (R378). -/
def execLinkUp (t : TileId) (p : Fin 2) (s : State) : Host.Outcome State Fault Refusal := finish (linkUpEvent t p) s

/-- The link is lost. -/
def linkLost (t : TileId) (p : Fin 2) (s : State) : State :=
  if (s.sw t).port.getD p 0 ≠ 2 then s
  else if s.rd Reg.sw_link_hold_ms t = 0 then (s.portDown t p).onSw t fun w => { w with port := w.port.set p 1 }
  else (s.bump Reg.sw_hold_events t p).onSw t fun w => { w with port := w.port.set p 3, hold := w.hold.set p s.now }

/-- LINK_LOST (R378). -/
def execLinkLost (t : TileId) (p : Fin 2) (s : State) : Host.Outcome State Fault Refusal := finish (linkLost t p) s

/-- A write of `tile.sw.port_disable` (R378): a BOOL. -/
def portDisable (t : TileId) (p : Fin 2) (value : Nat) (s : State) : State :=
  if 1 < value then s.answer t .invalid else ((s.wr Reg.sw_port_disable t value p).followTile t).answer t .ok

/-- PORT_DISABLE (R378). -/
def execPortDisable (t : TileId) (p : Fin 2) (value : Nat) (s : State) : Host.Outcome State Fault Refusal :=
  finish (portDisable t p value) s

/-! ### Sessions (R382 to R384) -/

/-- Sessions of a port and peer. -/
def Switch.peers (w : Switch) (p : Nat) (mac : Bytes) : List (Nat × Sess) :=
  w.sess.filter fun e => decide (e.2.port = p) && decide (e.2.mac = mac)

/-- HELLO_REQ (R382 steps 1 and 2, R384). -/
def helloReq (t : TileId) (p : Fin 2) (frame : Bytes) (s : State) : State :=
  let r := s.linkRx t p frame
  match r.2 with
  | some x =>
    if x.type ≠ 1 then s
    else
      let s := ((r.1.sw t).peers p x.mac).foldl (fun s e =>
        (if e.2.st = 3 then s.bump Reg.sw_resume_fail t else s).endSess t e.1) r.1
      let busy := (s.sw t).sess.countP fun e => decide (e.2.st = 1)
      match (List.range 1024).find? fun k => (Tbl.get (s.sw t).sess k).isNone with
      | none => s.bump Reg.sw_handshake_fail t
      | some k =>
        let n := s.nonce t
        match n.2, s.slotKey t 1 with
        | some nonce, some _ =>
          if x.payload.length ≠ 20 ∨ 64 ≤ busy then s.bump Reg.sw_handshake_fail t
          else
            let s := n.1
            let cert := s.rdAll Reg.vault_cert_link t
            let cert := cert.take ((certLength cert).getD 0)
            let hello := natLE 4 (s.rd Reg.sw_link_epoch t) ++ nonce ++ natLE 2 cert.length ++ cert
            let e : Sess :=
              { st := 1, port := p, mac := x.mac, sat := 0xFFFF, value := 0, epoch := fld x.payload 0 4, tx := 0, rx := 0
                keyTx := [], keyRx := [], print := [], sentAt := s.now, gotAt := s.now, gotNs := s.whenNs t
                hello := x.payload ++ hello, nonce := [], since := s.now }
            (s.onSw t fun w => { w with sess := Tbl.put w.sess k e }).sendLink t e 2 hello
        | _, _ => n.1.bump Reg.sw_handshake_fail t
  | none => r.1

/-- HELLO_REQ (R382). -/
def execHelloReq (t : TileId) (p : Fin 2) (frame : Bytes) (s : State) : Host.Outcome State Fault Refusal :=
  finish (helloReq t p frame) s

/-- SAT_ID of a peer certificate (R382 step 4): none when it neither stands in the table nor verifies under the satellite trust
anchor. -/
def State.peerSat (s : State) (t : TileId) (cert : Bytes) : Option Nat :=
  let i := s.satOf t (sha256 cert)
  if i ≠ 0xFFFF then some i
  else
    match (certPub (s.rdAll Reg.vault_sat_anchor t)).map (certSignedBy cert) with
    | some true => some 0xFFFF
    | _ => none

/-- HELLO_RSP (R382 steps 3 to 7, R383). -/
def helloRsp (t : TileId) (p : Fin 2) (frame : Bytes) (s : State) : State :=
  let r := s.linkRx t p frame
  match r.2 with
  | some x =>
    if x.type ≠ 3 then s
    else
      let s := r.1
      let fail := s.bump Reg.sw_handshake_fail t
      match ((s.sw t).peers p x.mac).find? fun e => decide (e.2.st = 1) && decide (s.now < e.2.since + 100000000) with
      | none => fail
      | some (k, e) =>
        let eph := x.payload.take 65
        let n := fld x.payload 65 2
        let cert := (x.payload.drop 67).take n
        let sig := x.payload.drop (67 + n)
        if 1024 < n ∨ x.payload.length ≠ 131 + n then fail
        else match s.peerSat t cert with
          | none => fail.endSess t k
          | some sat =>
            let msg := e.hello ++ eph ++ cert
            match certKey cert, s.slotD t 1 with
            | some pub, some d =>
              match ecdsaVerify pub msg sig, ecdh p256 d eph with
              | true, some z =>
                let key := kdf z (ascii "SATLINK") (sha256 msg) 512
                let print := sha256 cert
                let s := ((s.sw t).sess.filter fun f => decide (f.2.print = print) && decide (1 < f.2.st)).foldl
                  (fun s f => s.endSess t f.1) s
                let v := (s.sw t).nextSess
                let y := { e with st := 2, sat := sat, value := v, keyTx := key.take 32, keyRx := key.drop 32, print := print
                                  gotAt := s.now, gotNs := s.whenNs t, hello := [] }
                let s := s.onSw t fun w => { w with sess := Tbl.put w.sess k y, nextSess := v + 1 }
                (s.sendLink t y 4 (natLE 2 sat ++ [0, 0])).bump Reg.sw_handshakes t
              | _, _ => fail
            | _, _ => fail
  | none => r.1

/-- HELLO_RSP (R382). -/
def execHelloRsp (t : TileId) (p : Fin 2) (frame : Bytes) (s : State) : Host.Outcome State Fault Refusal :=
  finish (helloRsp t p frame) s

/-- A handshake not finished within 100 ms is abandoned (R382). -/
def handshakeTimeout (t : TileId) (k : Nat) (s : State) : State :=
  match Tbl.get (s.sw t).sess k with
  | some e => if e.st = 1 ∧ e.since + 100000000 ≤ s.now then s.endSess t k else s
  | none => s

/-- HANDSHAKE_TIMEOUT (R382). -/
def execHandshakeTimeout (t : TileId) (k : Nat) (s : State) : Host.Outcome State Fault Refusal := finish (handshakeTimeout t k) s

/-- RESUME (R384). -/
def resume (t : TileId) (p : Fin 2) (frame : Bytes) (s : State) : State :=
  let r := s.linkRx t p frame
  match r.2 with
  | some x =>
    if x.type ≠ 6 then s
    else match x.sess with
      | some k =>
        match Tbl.get (r.1.sw t).sess k with
        | some e =>
          if e.st ≠ 3 then r.1
          else if e.nonce ≠ [] ∧ x.payload = natLE 4 e.epoch ++ e.nonce ++ e.print then
            (r.1.onSw t fun w => { w with sess := Tbl.put w.sess k { e with st := 2 } }).bump Reg.sw_resumes t
          else (r.1.bump Reg.sw_resume_fail t).endSess t k
        | none => r.1
      | none => r.1
  | none => r.1

/-- RESUME (R384). -/
def execResume (t : TileId) (p : Fin 2) (frame : Bytes) (s : State) : Host.Outcome State Fault Refusal := finish (resume t p frame) s

/-- V elapses in VERIFY (R384). -/
def verifyTimeout (t : TileId) (k : Nat) (s : State) : State :=
  match Tbl.get (s.sw t).sess k with
  | some e =>
    if e.st = 3 ∧ e.since + s.rd Reg.sw_verify_ms t * 1000000 ≤ s.now then (s.bump Reg.sw_resume_fail t).endSess t k else s
  | none => s

/-- VERIFY_TIMEOUT (R384). -/
def execVerifyTimeout (t : TileId) (k : Nat) (s : State) : Host.Outcome State Fault Refusal := finish (verifyTimeout t k) s

/-- A KEEPALIVE of a session waits to leave. -/
def Switch.keepaliveWaits (w : Switch) (value : Nat) : Bool :=
  let mine := fun (f : SwFrame) => match f.body with
    | .link v ty _ => decide (v = value) && decide (ty = 7)
    | _ => false
  (w.voqs.any fun e => e.2.any mine) || w.waiting.any fun e => mine e.2.2

/-- Nothing was sent on an UP session for A (R384): a KEEPALIVE is queued, one at a time. -/
def keepalive (t : TileId) (k : Nat) (s : State) : State :=
  match Tbl.get (s.sw t).sess k with
  | some e =>
    if e.st = 2 ∧ (s.sw t).port.getD e.port 0 = 2 ∧ e.sentAt + s.rd Reg.sw_keepalive_ms t * 1000000 ≤ s.now ∧ !(s.sw t).keepaliveWaits e.value then
      s.sendLink t e 7 []
    else s
  | none => s

/-- KEEPALIVE (R384). -/
def execKeepalive (t : TileId) (k : Nat) (s : State) : Host.Outcome State Fault Refusal := finish (keepalive t k) s

/-- Nothing was accepted on an UP session for X while the port is UP (R384). -/
def satDead (t : TileId) (k : Nat) (s : State) : State :=
  match Tbl.get (s.sw t).sess k with
  | some e =>
    if e.st = 2 ∧ (s.sw t).port.getD e.port 0 = 2 ∧ e.gotAt + s.rd Reg.sw_sat_dead_ms t * 1000000 ≤ s.now then s.endSess t k
    else s
  | none => s

/-- SAT_DEAD (R384). -/
def execSatDead (t : TileId) (k : Nat) (s : State) : Host.Outcome State Fault Refusal := finish (satDead t k) s

/-- `tile.sw.session_reset` ends the selected session (R384). -/
def sessionReset (t : TileId) (s : State) : State := (s.endSess t (s.rd Reg.sw_session_select t)).answer t .ok

/-- SESSION_RESET (R384). -/
def execSessionReset (t : TileId) (s : State) : Host.Outcome State Fault Refusal := finish (sessionReset t) s

end Sys2Proof.Machine
end

