-- ==== Sys2Proof/Machine/Dictionary.lean ====
section
/-! DEFINITION. Dictionary.lean: chapter 21, writing: what a SET checks and changes, staging locks, actions, the return to defaults, and the commands that reach
single entries. -/

namespace Sys2Proof.Machine

open Crypto

/-! ### Sessions and staging locks (R399, R405, R651) -/

/-- Change the hub. -/
def State.onHub (s : State) (f : Hub → Hub) : State := s.onPier fun p => { p with hub := f p.hub }

/-- A key of `State.regs` whose entry holds a value per session (R651). -/
def perSession (key : Nat) : Bool := match entryOf key with
  | some e => decide (e.cls = .perSession)
  | none => false

/-- Put settings over others. -/
def putAll (l base : Tbl Val) : Tbl Val := l.foldl (fun r e => Tbl.put r e.1 e.2) base

/-- Do something as session `k` (by its key in the hub): its own values of the per-session entries stand in place of those of the directly commanding host; a
key that the hub does not hold sees the defaults (R415, R651). -/
def State.asSession {α : Type} (s : State) (k : Nat) (f : State → State × α) : State × α :=
  let mine := ((Tbl.get s.pier.hub.sess k).map HSess.vals).getD []
  let keep := s.regs.filter fun e => perSession e.1
  let s := { s with regs := putAll mine (s.regs.filter fun e => !perSession e.1) }
  let r := f s
  let vals := r.1.regs.filter fun e => perSession e.1
  let s := { r.1 with regs := putAll keep (r.1.regs.filter fun e => !perSession e.1) }
  (s.onHub fun h => { h with sess := Tbl.upd h.sess k fun x => { x with vals := vals } }, r.2)

/-- A session ends (R405): its answers, subscriptions, staging locks and requests that have not been passed on are dropped; actions that run complete, and
their responses find no session. -/
def State.endSession (s : State) (k : Nat) : State :=
  s.onHub fun h =>
    { h with sess := Tbl.del h.sess k, locks := h.locks.filter fun e => decide (e.2.1 ≠ k)
             sets := h.sets.filter fun x => decide (x.sess ≠ k), waits := h.waits.filter fun x => decide (x.sess ≠ k)
             outbox := h.outbox.filter fun x => decide (x.2.1 ≠ k) }

/-- An image bank: stored in MRAM. -/
def Entry.isBank (e : Entry) : Bool := decide (e = Reg.fw_bank_a) || decide (e = Reg.fw_bank_b)

/-- A WO staging entry (R399). -/
def Entry.staging (e : Entry) : Bool := decide (e.acc = .wo) && decide (e.ty = .octet)

/-- How long a lock stands without a write (R399): 60 s. -/
def lockNs : Nat := 60000000000

/-- Whether the staging entry under a key is locked. -/
def State.lockOf (s : State) (key : Nat) : Option Nat :=
  match Tbl.get s.pier.hub.locks key with
  | some (k, at_) => if s.now < at_ + lockNs then some k else none
  | none => none

/-- Take or renew the lock; the staged bytes of a lock that has ended go with the first write of the next. -/
def State.lock (s : State) (t : TileId) (e : Entry) (i who : Nat) : State :=
  let key := e.key t i
  let s := if (s.lockOf key).isSome ∨ e.isBank = true then s
    else if e = Reg.fw_legal_stage then s.onCode t fun c => { c with legalStage := [] }
    else s.clr e t i
  s.onHub fun h => { h with locks := Tbl.put h.locks key (who, s.now) }

/-- A write to a staging entry. -/
def State.stage (s : State) (t : TileId) (e : Entry) (i off : Nat) (v : Bytes) (who : Nat) : State × Status :=
  match s.lockOf (e.key t i) with
  | some k => if k ≠ who then (s, .busy) else go s
  | none => go s
where
  go (s : State) : State × Status :=
    if e.isBank then
      if !s.takesStaging t then (s, .unreachable)
      else
        let r := bankWriteDo t (if e = Reg.fw_bank_a then 0 else 1) off v s
        (if r.2 = .ok then r.1.lock t e i who else r.1, r.2)
    else
      let s := s.lock t e i who
      if e = Reg.fw_legal_stage then (s.onCode t fun c => { c with legalStage := Cells.writeAll (fun _ => 0) c.legalStage off v }, .ok)
      else (s.wrB e t off v i, .ok)

/-- BANK_WRITE: a write to a bank by the host that stands beside the tile, which has no session. -/
def bankWrite (t : TileId) (bank : Fin 2) (off : Nat) (data : Bytes) (s : State) : State :=
  let r := s.stage t (if bank = 0 then Reg.fw_bank_a else Reg.fw_bank_b) 0 off data 0
  r.1.answer t r.2

/-- BANK_WRITE (R399, R617, R618). -/
def execBankWrite (t : TileId) (bank : Fin 2) (off : Nat) (data : Bytes) (s : State) : Host.Outcome State Fault Refusal :=
  finish (bankWrite t bank off data) s

/-! ### Checks of a SET (R396, R646) -/

/-- The number that a value of an integer type stands for. -/
def Entry.intOf (e : Entry) (v : Bytes) : Int := if e.ty.signed then toSigned (8 * e.size) (leNat v) else (leNat v : Int)

/-- Length and form of a whole value. -/
def Entry.formBad (e : Entry) (v : Bytes) : Option Status :=
  if e.ty = .string then
    (if e.size < v.length then some .length
     else if v.all fun c => decide (0x20 ≤ c.toNat) && decide (c.toNat ≤ 0x7E) then none else some .invalid)
  else if v.length ≠ e.size then some .length
  else if e.ty = .bool then (if leNat v ≤ 1 then none else some .invalid)
  else if e.ty = .time80 then (if fld v 6 4 < 1000000000 then none else some .invalid)
  else if e.ty.integer then (if e.lo ≤ e.intOf v ∧ e.intOf v ≤ e.hi then none else some .invalid)
  else none

/-- A sensor description of R246. -/
def magDescOk (b : Bytes) : Bool :=
  decide (fld b 0 1 < 128) && decide (fld b 2 1 ≤ 1) && decide (fld b 3 1 ≤ 4) && decide (fld b 0x0A 6 = 0) &&
  (decide (fld b 0 1 = 0) || (decide (1 ≤ fld b 4 4) && decide (fld b 4 4 ≤ 10000000)))

/-- Checks of an entry's own chapter, against the values in force; `x` is the number, `b` the whole value that would result. -/
def State.linkOk (s : State) (n : Nat) (e : Entry) (i x : Nat) (b : Bytes) : Bool :=
  let rd := fun (e : Entry) => s.rd e n
  if e = Reg.device_dict_select then decide (x % 256 = 0)
  else if e = Reg.device_time_tod_baud then [9600, 19200, 38400, 57600, 115200].contains x
  else if e = Reg.device_pmbus_addr then b.all fun c => decide (c.toNat < 128)
  else if e = Reg.bay_disp_items then b.all fun c => decide (c.toNat ≤ 0x14) || decide (c.toNat = 0xFF)
  else if e = Reg.balance_interval then [300, 600, 900, 1800, 3600].contains x
  else if e = Reg.balance_node_select then decide (1 ≤ x / 4096)
  else if e = Reg.balance_alarm_on then decide (rd Reg.balance_alarm_off ≤ x)
  else if e = Reg.balance_alarm_off then decide (x ≤ rd Reg.balance_alarm_on)
  else if e = Reg.metro_vx_present then decide (rd Reg.metro_vx_absent ≤ x)
  else if e = Reg.metro_vx_absent then decide (x ≤ rd Reg.metro_vx_present)
  else if e = Reg.metro_fb_mode then decide (i = 0) || decide (x ≤ 1)
  else if e = Reg.metro_mag_desc then magDescOk b
  else if e = Reg.plc_slot_ms then decide (x = 0) || decide (20 ≤ x)
  else if e = Reg.plc_blank_k then decide (x = 0) || decide (20 ≤ x)
  else if e = Reg.sw_keepalive_ms then decide (3 * x ≤ rd Reg.sw_sat_dead_ms)
  else if e = Reg.sw_sat_dead_ms then decide (3 * rd Reg.sw_keepalive_ms ≤ x)
  else if e = Reg.queue_wm_level then (if h : i < 7 then decide (x ≤ 2 * bankSize ⟨i, h⟩) else false)
  else if e = Reg.rf_rate then decide (rd Reg.rf_regime ≠ 5) || customGridOk (s.rdAll Reg.rf_custom_grid n) x
  else if e = Reg.rf_custom_grid then customGridOk b (rd Reg.rf_rate)
  else if e = Reg.rf_regime then decide (x ≠ 5) || customGridOk (s.rdAll Reg.rf_custom_grid n) (rd Reg.rf_rate)
  else if e = Reg.rf_rx_base_channel then (if h : n < 16 then s.rxBaseOk ⟨n, h⟩ x (rd Reg.rf_regime) (rd Reg.rf_rate) else false)
  else if e = Reg.rf_duty_band then (if h : n < 16 then s.dutyBandOk ⟨n, h⟩ i b else false)
  else true

/-! ### Storing -/

/-- Store a value where it differs from the one held: into the CONFIG stream too when the snapshot carries the entry (R494, R653). -/
def State.store (s : State) (g : Tgt) (e : Entry) (i off : Nat) (v : Bytes) : State :=
  let n := g.unit
  if e.ty.number then
    let x := if e.ty = .time80 then time80ns v else leNat v
    if s.rd e n i = x then s
    else match g with
      | .tile t => if e.carried then s.wrM e t x i else s.wr e n x i
      | _ => s.wr e n x i
  else
    let v := if e.ty = .string then fit e.size v else v
    if s.rdB e n off v.length i = v then s
    else match g with
      | .tile t => if e.carried then s.wrBM e t off v i else s.wrB e n off v i
      | _ => s.wrB e n off v i

/-- Default duty bands, dwell setting and receive base of a regime (R340). -/
def regimeBands (regime : Nat) : List Bytes :=
  let b := fun (lo hi share : Nat) => u32 lo ++ u32 hi ++ u16 share ++ [1, 0]
  if regime = 0 then [b 863000 868000 100, b 868000 868600 100, b 868700 869200 10, b 869400 869650 1000]
  else if regime = 2 then [b 920500 928100 1000]
  else []

/-- A write of `tile.rf.regime` loads the regime's defaults (R340). -/
def State.setRegime (s : State) (t : TileId) (x : Nat) : State :=
  let g := Tgt.tile t
  let s := s.store g Reg.rf_regime 0 0 (u8 x)
  let s := (List.range 4).foldl (fun (s : State) i => s.store g Reg.rf_duty_band i 0 ((regimeBands x).getD i (List.replicate 12 0))) s
  let s := s.store g Reg.rf_dwell_enable 0 0 (u8 (if x = 1 then 1 else 0))
  s.store g Reg.rf_rx_base_channel 0 0 (u8 (if x = 0 then (if rfSpacing (s.rd Reg.rf_rate t) = 200 then 27 else 13) else 0))

/-- A checked write to a tile entry. -/
def State.setTile (s : State) (t : TileId) (e : Entry) (i off x : Nat) (v b : Bytes) : State × Status :=
  let put := s.store (.tile t) e i off v
  let arm := fun (k : Fin 4) => armTile t k b s
  if e = Reg.meters_class_table then writeClassTable t off v s
  else if e = Reg.meters_sat_table then (put.satLookup t, .ok)
  else if e = Reg.eph_profiles then profileWrite t off v s
  else if e = Reg.vault_cert_id then certWriteDo t 0 off v s
  else if e = Reg.vault_cert_link then certWriteDo t 1 off v s
  else if e = Reg.vault_sat_anchor then certWriteDo t 2 off v s
  else if e = Reg.sw_port_disable ∨ e = Reg.plc_pan_id then (put.followTile t, .ok)
  else if e = Reg.rf_regime then (s.setRegime t x, .ok)
  else if e = Reg.metro_relay_cmd then localRelayCmd t (if i = 0 then 0 else 1) x s
  else if e = Reg.eph_relay_cmd then ephRelayCmd t x s
  else if e = Reg.eph_flags_clear then flagsClear t x s
  else if e = Reg.power_request then powerRequest t x s
  else if e = Reg.media_arch_floor then (put.wornCheck t, .ok)
  else if e = Reg.diag_egress_delay then arm 0
  else if e = Reg.diag_credit_starve then arm 1
  else if e = Reg.diag_nand_fail then arm 2
  else if e = Reg.diag_lost_inject then arm 3
  else (put, .ok)

/-- A checked write to a bay entry. -/
def State.setBay (s : State) (b : BayId) (e : Entry) (i off x rights : Nat) (v w : Bytes) : State × Status :=
  let arm := fun (k : Fin 4) => armBay b k w s
  if e = Reg.bay_mode then writeBayMode b false x s
  else if e = Reg.bay_wiring then writeBayMode b true x s
  else if e = Reg.bay_energy_pulse_mj then energySetting b 0 x rights s
  else if e = Reg.bay_energy_bank_budget_mj then energySetting b 1 x rights s
  else if e = Reg.bay_energy_plc_atten_min_db then energySetting b 2 x rights s
  else if e = Reg.bay_energy_plc_duty_pm then energySetting b 3 x rights s
  else if e = Reg.bay_diag_mirror_delay then arm 0
  else if e = Reg.bay_diag_pmbus_delay then arm 1
  else if e = Reg.bay_diag_audit_mismatch then arm 2
  else if e = Reg.bay_diag_mirror_lost then arm 3
  else (s.store (.bay b) e i off v, .ok)

/-- A checked write to a device entry. -/
def State.setDevice (s : State) (e : Entry) (i off : Nat) (v : Bytes) : State × Status :=
  if e = Reg.device_sec_anchor then (if h : i < 8 then anchorWriteDo ⟨i, h⟩ off v s else (s, .noEntry))
  else if e = Reg.device_sec_host_cert then certWriteDo 0 3 off v s
  else if e = Reg.device_sec_host_next_cert then certWriteDo 0 4 off v s
  else if e = Reg.device_time_utc_offset_cfg then ((s.store .dev e i off v).refreshUtc, .ok)
  else (s.store .dev e i off v, .ok)

/-- Reasons why a tile does not take a write now: its settings cannot be reached (R656), or it is the standby and the snapshot carries the entry (R657). -/
def State.tileAway (s : State) (g : Tgt) (e : Entry) : Option Status :=
  match g with
  | .tile t =>
    let m := s.rd Reg.media_state t
    if s.settingsAway t e ∨ (e.inNand = true ∧ (m = 4 ∨ m = 5)) then some .busy
    else if e.carried && s.refusesConfig t then some .notActive
    else none
  | _ => none

/-- A SET (`blk` none) or SET_BLOCK (at `blk`) of an entry that the access code and the rights permit; `who` is the session's key in the hub, 0 without one. -/
def State.setEntry (s : State) (g : Tgt) (e₀ : Entry) (i₀ : Nat) (blk : Option Nat) (v : Bytes) (rights who : Nat) : State × Status :=
  let e := (e₀.home i₀).1
  let i := (e₀.home i₀).2
  let off := blk.getD 0
  if blk.isSome = true ∧ (e.size ≤ off ∨ e.size < off + v.length) then (s, .length)
  else
    let bad := if blk.isSome then none else e.formBad v
    match bad with
    | some st => (s, st)
    | none =>
      match g, e.staging with
      | .tile t, true => s.stage t e i off v who
      | _, _ =>
        match s.tileAway g e with
        | some st => (s, st)
        | none =>
          let whole := if blk.isSome && decide (e.size ≤ 1024) then
              let old := s.value g e i
              old.take off ++ v ++ old.drop (off + v.length)
            else v
          let x := leNat v
          if e₀ = Reg.queue_wm_level ∧ s.linkOk g.unit e₀ i₀ x v = false then (s, .invalid)
          else if s.linkOk g.unit e i x whole = false then (s, .invalid)
          else match g with
            | .tile t => s.setTile t e i off x v whole
            | .bay b => s.setBay b e i off x rights v whole
            | .dev => s.setDevice e i off v

/-! ### Actions -/

/-- The tile's actions: the entry, the staging entries that it consumes, and what it does with its parameter block. -/
def tileActions : List (Entry × List Entry × (TileId → Bytes → State → State)) :=
  [(Reg.fw_stage_begin, [], fun t p s => if fld p 1 3 ≠ 0 then s.fwResult t .invalid else stageBegin t (fld p 0 1) (fld p 4 4) s),
   (Reg.fw_stage_commit, [Reg.fw_bank_a, Reg.fw_bank_b], fun t p => stageCommit t p),
   (Reg.fw_confirm, [], fun t _ => fwConfirm t),
   (Reg.fw_reset, [], fun t p => tileFwReset t (fld p 0 1)),
   (Reg.fw_legal_install, [Reg.fw_legal_stage], fun t _ => legalInstall t 0),
   (Reg.meters_enrol, [Reg.meters_staging], fun t _ => meterAction .enrol t),
   (Reg.meters_move_out, [Reg.meters_staging], fun t _ => meterAction .moveOut t),
   (Reg.meters_retire, [Reg.meters_staging], fun t _ => meterAction .retire t),
   (Reg.meters_release, [Reg.meters_staging], fun t _ => meterAction .release t),
   (Reg.meters_edit, [Reg.meters_staging], fun t _ => meterAction .edit t),
   (Reg.gather_inject, [Reg.gather_inject_buffer], fun t _ => gatherInject t),
   (Reg.marver_ruleset_commit, [Reg.marver_ruleset_stage], fun t _ => rulesetCommit t),
   (Reg.marver_replay, [Reg.marver_replay_buffer], fun t _ => marverReplay t),
   (Reg.lehr_proof, [], fun t _ => lehrProof t),
   (Reg.lehr_verify, [], fun t _ => lehrVerify t),
   (Reg.balance_tree_commit, [Reg.balance_tree_stage], fun t _ => treeCommit t),
   (Reg.metro_resync, [], fun t _ => metroResync t),
   (Reg.metro_cal_commit, [Reg.metro_cal_stage], fun t _ => calCommit t 0),
   (Reg.metro_reg_restore, [Reg.metro_reg_stage], fun t _ => regRestore t 0),
   (Reg.eph_cal_commit, [Reg.eph_cal_stage], fun t _ => ephCalCommit t),
   (Reg.eph_clock_event, [Reg.eph_clock_stage], fun t _ => clockEvent t),
   (Reg.eph_topup, [Reg.eph_topup_stage], fun t _ => topup t),
   (Reg.eph_confirm_held, [], fun t _ => confirmHeld t),
   (Reg.eph_push_load, [Reg.eph_push_stage, Reg.eph_image], fun t _ => pushLoad t),
   (Reg.eph_push_add, [Reg.eph_push_members], fun t _ => pushAdd t),
   (Reg.eph_push_start, [], fun t _ s => s.campTo t [1, 3] 2 fun s => s.pushSettle t),
   (Reg.eph_push_pause, [], fun t _ s => s.campTo t [2] 3 fun s => s),
   (Reg.eph_push_activate, [], fun t _ => pushActivate t),
   (Reg.eph_push_cancel, [], fun t _ => pushCancel t),
   (Reg.sw_session_reset, [], fun t _ => sessionReset t),
   (Reg.vault_enrol, [], fun t _ => vaultEnrol t),
   (Reg.vault_bay_offer, [], fun t _ => bayOffer t),
   (Reg.vault_go_field, [], fun t _ => goField t),
   (Reg.vault_erase, [], fun t _ => vaultErase t),
   (Reg.vault_retire, [], fun t _ => vaultRetire t),
   (Reg.vault_import, [Reg.vault_import_stage], fun t _ => vaultImport t),
   (Reg.vault_archive_rotate, [], fun t _ => archiveRotate t),
   (Reg.vault_debug_unlock, [Reg.vault_debug_token], fun t _ => debugUnlock t),
   (Reg.media_format, [], fun t _ => mediaFormat t),
   (Reg.legal_ack, [], fun t p => legalAck t (fld p 0 4) (p.drop 4))]

/-- The bay's actions. -/
def bayActions : List (Entry × (BayId → Bytes → State → State)) :=
  [(Reg.bay_promote, fun b p => bayPromote b (fld p 0 1)),
   (Reg.bay_clear_fault, fun b p => clearFault b (fld p 0 1)),
   (Reg.bay_mode_change, fun b p => bayModeChange b (fld p 0 1))]

/-- Entries that RESTORE_DEFAULTS returns (R659): every RWS entry but the exceptions. -/
def Entry.restored (e : Entry) : Bool :=
  decide (e.acc = .rws) && !([0x1200, 0x1201].contains e.off && decide (e.area = .dev)) && !decide (e = Reg.device_svc_address) &&
  !(decide (e.area = .dev) && decide (0x1500 ≤ e.off) && decide (e.off < 0x1600)) && !decide (e = Reg.device_id_label) &&
  !decide (e = Reg.device_id_location)

/-- Return the entries of an area to their defaults. -/
def State.clearArea (s : State) (l : List Entry) (n : Nat) : State :=
  (l.filter Entry.restored).foldl (fun (s : State) e => (List.range e.cnt).foldl (fun (s : State) i => s.clr e n i) s) s

/-- Bays that a MASK of R659 selects. -/
def maskBays (mask : Nat) : List BayId := allBays.filter fun b => bit mask (b.val + 1)

/-- `device.config.restore_defaults`. -/
def restoreDefaultsDo (mask : Nat) (s : State) : State × Status :=
  if 512 ≤ mask then (s, .invalid)
  else if (maskBays mask).any fun b => s.bayBusy b || s.legalRuns (tileOf b false) || s.legalRuns (tileOf b true) then (s, .busy)
  else
    let s := if bit mask 0 then (s.clearArea deviceEntries 0).refreshUtc else s
    let s := (maskBays mask).foldl (fun (s : State) (b : BayId) => s.clearArea bayEntries b) s
    (s.pierEvent 0xFF 0 0x010A 0 mask, .ok)

/-- The device's actions. -/
def devActions : List (Entry × (Bytes → State → State)) :=
  [(Reg.device_reset, fun _ => deviceReset),
   (Reg.device_time_restep, fun p => restep p),
   (Reg.device_sec_host_rekey, fun _ => hostRekey),
   (Reg.device_config_restore_defaults, fun p s => let r := restoreDefaultsDo (fld p 0 2) s; r.1.answer 255 r.2),
   (Reg.device_diag_unlock, fun p s =>
     if fld p 1 3 ≠ 0 then s.answer 255 .invalid else (let r := diagUnlockDo (fld p 0 1) (fld p 4 4) s; r.1.answer 255 r.2)),
   (Reg.device_diag_lock, fun p s => let r := diagLockDo (fld p 0 1) s; r.1.answer 255 r.2),
   (Reg.device_host_session_end, fun _ s =>
     let s := s.answer 255 .ok
     match s.pier.hub.place (s.rd Reg.device_host_session_select 0) with
     | some (k, _) => s.endSession k
     | none => s)]

/-- Carry out an action with its parameter block: a longer block is refused, the bytes a shorter one leaves out are zeros (DESIGN CHOICE, notes/assumptions/26.md);
the action's own answer comes as an `Out.answer` of the unit. -/
def State.runAction (s : State) (g : Tgt) (e : Entry) (p : Bytes) : State :=
  let p := p ++ List.replicate (e.size - p.length) 0
  if e.size < p.length ∧ e ≠ Reg.device_time_restep then s.answer g.number .invalid
  else match g with
    | .tile t => match formedBy tileActions e with
      | some (_, f) => f t p s
      | none => s
    | .bay b => match formedBy bayActions e with
      | some f => f b p s
      | none => s
    | .dev => match formedBy devActions e with
      | some f => f p s
      | none => s

/-- Keys of the staging entries that an action consumes. -/
def consumed (g : Tgt) (e : Entry) : List Nat := match g with
  | .tile t => (((formedBy tileActions e).map Prod.fst).getD []).map fun e => e.key t 0
  | _ => []

/-! ### Commands -/

/-- A write to an entry by a host with the given rights. -/
def entryWrite (target index sub : Nat) (value : Bytes) (rights : Nat) (s : State) : State :=
  match s.checkItem target index sub rights .set with
  | .error st => s.answer target st
  | .ok (g, e, i) =>
    let r := s.setEntry g e i none value rights 0
    r.1.answer target r.2

/-- ENTRY_WRITE (R646). -/
def execEntryWrite (target index sub : Nat) (value : Bytes) (rights : Nat) (s : State) : Host.Outcome State Fault Refusal :=
  finish (entryWrite target index sub value rights) s

/-- A read of an RC entry: its value is put out and it is cleared. -/
def rcCounterRead (index sub : Nat) (s : State) : State :=
  match areaOf index with
  | none => s.answer 255 .target
  | some g =>
    match s.checkItem g.number index sub 0 .get with
    | .error st => s.answer g.number st
    | .ok (g, e, i) =>
      if e.acc ≠ .rc then s.answer g.number .access
      else
        let r := s.readEntry g e i
        match r.2 with
        | .ok b => r.1.emit (.value g.number (leNat b))
        | .error st => r.1.answer g.number st

/-- RC_COUNTER_READ (R587). -/
def execRcCounterRead (index sub : Nat) (s : State) : Host.Outcome State Fault Refusal := finish (rcCounterRead index sub) s

/-- RESTORE_DEFAULTS (R659). -/
def execRestoreDefaults (mask : Nat) (s : State) : Host.Outcome State Fault Refusal :=
  finish (fun s => let r := restoreDefaultsDo mask s; r.1.answer 255 r.2) s

/-- DICT_DESCRIBE (R662, R663). -/
def execDictDescribe (s : State) : Host.Outcome State Fault Refusal := finish (fun s => s.emit (.bytes 255 s.dictDescribe)) s

end Sys2Proof.Machine
end

