-- ==== Sys2Proof/Machine/HostPort.lean ====
section
/-! DEFINITION. HostPort.lean: chapter 12: the host port: sessions, messages, subscriptions, lanes and the service bus. -/

namespace Sys2Proof.Machine

open Crypto

/-! ### Messages (R393 to R397) -/

/-- The 20 bytes of a header. -/
def hdrBytes (type target status session seq ref len flags : Nat) : Bytes :=
  [1] ++ u8 type ++ u8 target ++ u8 status ++ u32 session ++ u32 seq ++ u32 ref ++ u16 len ++ u16 flags

/-- Header of a received frame. -/
def msgHeader (type : Nat) (m : HostMsg) : Bytes := hdrBytes type m.target m.status m.session m.seq m.ref m.len m.flags

/-- IV of a protected message (R403): SESSION, SEQ and the direction word, 0 from the host, 1 from the DK216. -/
def msgIv (session seq dir : Nat) : Bytes := u32 session ++ u32 seq ++ u32 dir

/-- An IPv6 peer has no place on the service bus, whose channel number is 2. -/
def serialChan : Nat := 2

/-- FCS-16 of RFC 1662 over bytes: register preset to ones, reflected polynomial 0x8408, complemented. -/
def fcs16 (b : Bytes) : Nat :=
  let step := fun (c : Nat) (_ : Nat) => if c % 2 = 1 then (c / 2) ^^^ 0x8408 else c / 2
  (b.foldl (fun c x => (List.range 8).foldl step (c ^^^ x.toNat)) 0xFFFF) ^^^ 0xFFFF

/-- Byte stuffing between the flags (R412). -/
def stuff (b : Bytes) : Bytes :=
  (b.map fun x => if x = 0x7E ∨ x = 0x7D then [(0x7D : Byte), x ^^^ 0x20] else [x]).flatten

/-- Undo the stuffing; none when an escape ends the frame or a flag stands inside. -/
def unstuff : Bytes → Option Bytes
  | [] => some []
  | [x] => if x = 0x7D ∨ x = 0x7E then none else some [x]
  | x :: y :: r =>
    if x = 0x7D then (unstuff r).map fun l => (y ^^^ 0x20) :: l
    else if x = 0x7E then none
    else (unstuff (y :: r)).map fun l => x :: l

/-- A frame of the service bus around a message. -/
def serialFrameOf (addr : Nat) (msg : Bytes) : Bytes :=
  let body := u8 addr ++ msg
  [0x7E] ++ stuff (body ++ u16 (fcs16 body)) ++ [0x7E]

/-- A received request that has been accepted: the session by its key in the hub, SEQ, tag, TYPE, TARGET, payload; whether it has come to its tile through P2. -/
structure HReq where
  sess : Nat
  seq : Nat
  tag : Bytes
  type : Nat
  target : Nat
  payload : Bytes
  p2 : Bool := false
  deriving DecidableEq, Repr

/-! ### Frames on P2 (R366, R392, R394) -/

/-- Class of a message by its TYPE, of a request and of its response alike (R394). -/
def trakmerClass (type : Nat) : Nat := if type = 0x90 then 2 else if [3, 4, 7].contains (type % 128) then 3 else 1

/-- A message as it stands on P2: the header and the payload in plaintext. The hub numbers and seals what goes to the host, so SEQ is 0 in what a tile sends
(DESIGN CHOICE, notes/assumptions/26.md). -/
def p2Bytes (type target status session seq ref : Nat) (p : Bytes) : Bytes := hdrBytes type target status session seq ref p.length 1 ++ p

/-- SESSION of a session of the hub. -/
def State.sessId (s : State) (k : Nat) : Nat := ((Tbl.get s.pier.hub.sess k).map HSess.id).getD 0

/-- P6, behind which the cluster takes what comes from the hub, has credit for a request (R371, R392). -/
def State.p2Open (s : State) (t : TileId) (r : HReq) : Bool :=
  !(s.sw t).stopped.getD 6 false && decide (cellsOf (20 + r.payload.length) ≤ (s.sw t).credit.getD 6 0)

/-- A request enters its tile at P2 and leaves at P6; none where the pool has no cells for it, so that it is dropped (R369). -/
def State.p2In (s : State) (t : TileId) (r : HReq) : State × Bool :=
  let b := p2Bytes r.type r.target 0 (s.sessId r.sess) r.seq 0 r.payload
  let c := trakmerClass r.type
  if (s.sw t).waits 2 || ((s.sw t).room 2 (cellsOf b.length) (s.rd Reg.sw_shared_max t)).isNone then
    ((s.swCount t 2 c b b.length).bump Reg.sw_drop_buffer t (8 + c), false)
  else (s.swPass t 2 6 c b b.length, true)

/-- A message of a tile enters at P6 and leaves at P2, where the hub takes it. -/
def State.p2Out (s : State) (target type status session ref : Nat) (p : Bytes) : State :=
  if h : target < 16 then
    let b := p2Bytes type target status session 0 ref p
    s.swPass ⟨target, h⟩ 6 2 (trakmerClass type) b b.length
  else s

/-! ### Sending (R391, R392, R403, R404) -/

/-- The link-local address of a lane (R390): fe80::/64 with the modified EUI-64 of the lane's MAC address. -/
def linkLocal (lane : Nat) : Bytes :=
  let m := fit 6 (Config.mac 16 lane)
  [0xFE, 0x80, 0, 0, 0, 0, 0, 0] ++ (m.take 1).map (fun x => x ^^^ 0x02) ++ (m.drop 1).take 2 ++ [0xFF, 0xFE] ++ m.drop 3

/-- The source address on a lane (R390, R391): the shared one, HB's own in ACTIVE_ACTIVE, the link-local one where it is all zero. -/
def HubCfg.source (c : HubCfg) (lane : Nat) : Bytes :=
  let a := if c.mode = 1 ∧ lane = 1 then c.ipB else c.ip
  if leNat a = 0 then linkLocal lane else a

/-- Put a frame on a channel, with the 802.1Q tag, the UDP port and the source address that the hub read at power-on (R390, R391, R417). -/
def State.putFrame (s : State) (chan : Nat) (peer b : Bytes) : State :=
  if chan = serialChan then
    let s := s.bump Reg.device_svc_frames_out 0
    s.emit (.dgram serialChan 0 0 [] [] (serialFrameOf s.pier.hub.cfg.addr b))
  else
    let c := s.pier.hub.cfg
    (s.bump Reg.device_host_frames_out 0 chan).emit (.dgram chan c.vlan c.port (c.source chan) peer b)

/-- The lane that carries what goes to a channel: the active lane, or in ACTIVE_ACTIVE the session's own. -/
def Hub.laneFor (h : Hub) (chan : Nat) : Nat := if chan = serialChan then serialChan else if h.cfg.mode = 0 then h.active else chan

/-- A channel can carry a frame now. -/
def Hub.carries (h : Hub) (chan : Nat) : Bool := decide (chan = serialChan) || h.laneUp.getD chan false

/-- Bytes that wait for a tile in the outbound buffer. -/
def Hub.outFill (h : Hub) (tile : Nat) : Nat := ((h.outbox.map fun x => if x.1 = tile then x.2.2.length else 0)).sum

/-- Size of the hub's buffer per tile and direction (R392). -/
def hubBuffer : Nat := 262144

/-- Send a frame of a session: one of a tile waits in the tile's outbound buffer while no lane can carry it, one of the Pier is lost then. -/
def State.sendFrame (s : State) (k target : Nat) (b : Bytes) : State :=
  match Tbl.get s.pier.hub.sess k with
  | none => s
  | some x =>
    let h := s.pier.hub
    let chan := h.laneFor x.chan
    if h.carries chan then s.putFrame chan x.peer b
    else if 16 ≤ target then s
    else if hubBuffer < h.outFill target + b.length then s.bump Reg.device_host_hub_drop_out 0 target
    else s.onHub fun h => { h with outbox := h.outbox ++ [(target, k, b)] }

/-- RENEW is due (R403). -/
def HSess.renew (x : HSess) : Bool := decide (0xF0000000 < x.rx) || decide (0xF0000000 < x.tx)

/-- Seal and send one protected message of a session; the frame sent. A session ends where its SEQ would pass the limit (R403). -/
def State.message (s : State) (k type target status ref : Nat) (last : Bool) (payload : Bytes) : State × Bytes :=
  match Tbl.get s.pier.hub.sess k with
  | none => (s, [])
  | some x =>
    if 0xFFFFFFFF < x.tx + 1 then (s.endSession k, [])
    else
      let x := { x with tx := x.tx + 1 }
      let hdr := hdrBytes type target status x.id x.tx ref payload.length (b2n last + 2 * b2n x.renew)
      let c := gcmSeal x.keyTx (msgIv x.id x.tx 1) hdr payload 16
      let b := hdr ++ c.1 ++ c.2
      let s := s.onHub fun h => { h with sess := Tbl.put h.sess k x }
      (s.sendFrame k target b, b)

/-- Number of answers kept per session (R404). -/
def cacheSize : Nat := 32

/-- Keep the answer of a request. -/
def State.cacheAnswer (s : State) (r : HReq) (b : Bytes) : State :=
  s.onHub fun h => { h with sess := Tbl.upd h.sess r.sess fun x => { x with cache := keepLast cacheSize (x.cache ++ [(r.seq, r.tag, [b])]) } }

/-- Answer a request with one message and keep it for retransmissions, that of a FETCH excepted (R404). The answer of a tile comes through P2. -/
def State.replyCode (s : State) (r : HReq) (st : Nat) (payload : Bytes) : State :=
  let s := if r.p2 then s.p2Out r.target (r.type + 128) st (s.sessId r.sess) r.seq payload else s
  let x := s.message r.sess (r.type + 128) r.target st r.seq true payload
  if r.type = 7 then x.1 else x.1.cacheAnswer r x.2

/-- `replyCode` of a STATUS. -/
def State.reply (s : State) (r : HReq) (st : Status) (payload : Bytes) : State := s.replyCode r st.code payload

/-- Send an unprotected message to a peer. -/
def State.sendPlain (s : State) (chan : Nat) (peer b : Bytes) : State :=
  let chan := s.pier.hub.laneFor chan
  if s.pier.hub.carries chan then s.putFrame chan peer b else s

/-- NO_SESSION (R406): at most 100 per second over all lanes. -/
def State.noSession (s : State) (chan : Nat) (peer : Bytes) (m : HostMsg) : State :=
  let recent := s.pier.hub.noSess.filter fun x => decide (s.now < x + 1000000000)
  let s := s.onHub fun h => { h with noSess := recent }
  if 100 ≤ recent.length then s
  else
    let s := (s.onHub fun h => { h with noSess := recent ++ [s.now] }).bump Reg.device_host_no_session_sent 0
    s.sendPlain chan peer (hdrBytes 0xFE m.target 0 m.session 0 m.seq 4 1 ++ u32 (s.rd Reg.device_host_boot_count 0))

/-! ### Where a request goes (R409, R413, R644) -/

/-- What becomes of a request to a tile. -/
inductive Reach
  | go
  | wait
  | deny (detail : Nat)
  deriving DecidableEq, Repr

/-- Entries of a tile area that the Pier holds. -/
def pierHeld (off : Nat) : Bool := decide (off < 0x10) || (decide (0x2E0 ≤ off) && decide (off < 0x300))

/-- Whether a tile's cluster can answer about its code: service level 1, or RECOVERY for the entries at offsets 0x010 to 0x01F. -/
def State.clusterUp (s : State) (t : TileId) (codeOnly : Bool) : Bool :=
  (decide (2 ≤ (s.vol t).boot.step) && decide (1 ≤ s.rd Reg.status_service t)) || (codeOnly && decide (s.rd Reg.device_fw_tile_phase 0 t = 2))

/-- Handling of a request to a tile's cluster by the state of the tile. A FAULTED tile whose isolation has not lowered its rail yet counts as lowered; one whose
regulator refused keeps the run setpoint and is ISOLATED (R518, R529). -/
def State.reach (s : State) (t : TileId) (serial codeOnly : Bool) : Reach :=
  let w := (s.tile t).power
  let p := w.st
  if p = .off ∨ (s.role t = 4 ∧ (p = .entering ∨ (p = .isolated ∧ w.railMv < w.vrunMv))) then .deny 3
  else if p = .isolated then .deny 2
  else if p = .run then (if s.clusterUp t codeOnly then .go else .deny 1)
  else if (p = .waking ∧ (s.vol t).boot.step < 2) ∨ serial then .deny 1
  else if p = .retain ∧ s.pier.degraded = true then .deny 5
  else .wait

/-- Index numbers that a request names. -/
def reqIndices (type : Nat) (p : Bytes) : List Nat :=
  if type = 1 then (List.range (fld p 0 1)).map fun i => fld p (4 + 4 * i) 2
  else if type = 2 then (go (fld p 0 1) (p.drop 4))
  else if type = 3 ∨ type = 4 ∨ type = 9 then [fld p 0 2]
  else if type = 5 ∧ fld p 0 1 = 2 then [fld p 4 2]
  else []
where
  go : Nat → Bytes → List Nat
    | 0, _ => []
    | n + 1, p => fld p 0 2 :: go n (p.drop (8 + fld p 4 2))

/-- Offsets in the target's block that a request names. -/
def reqOffsets (g : Tgt) (type : Nat) (p : Bytes) : List Nat := (reqIndices type p).map fun i => i - g.span.1

/-- The Pier can answer the whole request. -/
def forPier (g : Tgt) (type : Nat) (p : Bytes) : Bool := match g with
  | .tile _ =>
    let l := reqOffsets g type p
    !l.isEmpty && l.all pierHeld
  | _ => true

/-- The request names code entries only. -/
def forCode (g : Tgt) (type : Nat) (p : Bytes) : Bool :=
  let l := reqOffsets g type p
  !l.isEmpty && l.all fun o => decide (0x10 ≤ o) && decide (o < 0x20)

/-! ### Carrying out requests (R395, R398, R399) -/

/-- Rights of a session. -/
def State.rightsOf (s : State) (k : Nat) : Nat := ((Tbl.get s.pier.hub.sess k).map HSess.rights).getD 0

/-- The session is that of the service bus. -/
def State.isSerial (s : State) (k : Nat) : Bool := decide (((Tbl.get s.pier.hub.sess k).map HSess.chan).getD 0 = serialChan)

/-- TCODE of an item's result; for an item that names no entry the manual states none. -/
def State.tcodeOf (s : State) (target index sub : Nat) : Nat := match s.lookup target index sub with
  | .ok (_, e, _) => e.ty.code
  | .error _ => Config.measured 6 target (index * 256 + sub) % 256

/-- The result of one item of a GET, as bytes. -/
def State.getItem (s : State) (target index sub rights : Nat) (serial : Bool) : State × Bytes :=
  let head := fun (st : Status) (n : Nat) => u8 st.code ++ u8 (s.tcodeOf target index sub) ++ u16 n
  match s.checkItem target index sub rights .get with
  | .error st => (s, head st 0)
  | .ok (g, e, i) =>
    let r := s.readEntry g e i serial
    match r.2 with
    | .ok v => (r.1, head .ok v.length ++ v)
    | .error st => (r.1, head st 0)

/-- A request with COUNT, 3 reserved bytes and COUNT items of 4 bytes, as index and sub-index. -/
def parseGet (p : Bytes) : Option (List (Nat × Nat)) :=
  let n := fld p 0 1
  if n = 0 ∨ 32 < n ∨ fld p 1 3 ≠ 0 ∨ p.length ≠ 4 + 4 * n then none
  else
    let l := (List.range n).map fun i => (fld p (4 + 4 * i) 2, fld p (6 + 4 * i) 1, fld p (7 + 4 * i) 1)
    if l.any fun x => decide (x.2.2 ≠ 0) then none else some (l.map fun x => (x.1, x.2.1))

/-- Payload of a GET response, and its header STATUS: a response that would be too long refuses the request whole, and nothing has been read. -/
def State.getAll (s : State) (target rights : Nat) (serial : Bool) (items : List (Nat × Nat)) : State × Status × Bytes :=
  let r := items.foldl (fun (a : State × Bytes) x =>
    let y := a.1.getItem target x.1 x.2 rights serial
    (y.1, a.2 ++ y.2)) (s, [])
  if 1416 < r.2.length then (s, .length, []) else (r.1, .ok, r.2)

/-- The items of a SET: index, sub-index, value. -/
def parseSet (p : Bytes) : Option (List (Nat × Nat × Bytes)) :=
  let n := fld p 0 1
  if p.length < 4 ∨ n = 0 ∨ 32 < n ∨ fld p 1 3 ≠ 0 then none else go n (p.drop 4)
where
  go : Nat → Bytes → Option (List (Nat × Nat × Bytes))
    | 0, p => if p = [] then some [] else none
    | n + 1, p =>
      let len := fld p 4 2
      if p.length < 8 + len ∨ fld p 3 1 ≠ 0 ∨ fld p 6 2 ≠ 0 then none
      else (go n (p.drop (8 + len))).map fun l => (fld p 0 2, fld p 2 1, (p.drop 8).take len) :: l

/-- One item of a SET. -/
def State.setItem (s : State) (target index sub rights who : Nat) (v : Bytes) : State × Status :=
  match s.checkItem target index sub rights .set with
  | .error st => (s, st)
  | .ok (g, e, i) => s.setEntry g e i none v rights who

/-- The statuses of a SET, in order. -/
def State.setAll (s : State) (target rights who : Nat) (items : List (Nat × Nat × Bytes)) : State × Bytes :=
  items.foldl (fun (a : State × Bytes) x =>
    let y := a.1.setItem target x.1 x.2.1 rights who x.2.2
    (y.1, a.2 ++ u8 y.2.code)) (s, [])

/-- The stored settings that a tile's NAND holds, as they stand: in configuration pages, or in the block-table snapshot. -/
def State.nandRegs (s : State) (t : TileId) (media : Bool) : Tbl Val :=
  s.regs.filter fun e => inTile t e.1 && nandKey e.1 && mediaRun (keyRun e.1) == media

/-- Pages that will be queued for the stored settings changed since `old`. -/
def State.nandPages (s old : State) (t : TileId) : Nat :=
  b2n (decide (s.nandRegs t false ≠ old.nandRegs t false)) + b2n (decide (s.nandRegs t true ≠ old.nandRegs t true))

/-- Answer a request that has written: at once where nothing durable or mirrored has changed since `old`, else when it is (R653). -/
def State.replyWhenDone (s old : State) (g : Tgt) (r : HReq) (st : Status) (payload : Bytes) : State :=
  match g with
  | .tile t =>
    let nand := s.nandPages old t
    let jobs := (s.tile t).media.jobCount
    if decide (nand = 0) && decide (jobs = (old.tile t).media.jobCount) && decide (s.mirrorMark t = old.mirrorMark t) then s.reply r st payload
    else
      let w : HSet := { tile := t, sess := r.sess, seq := r.seq, tag := r.tag, type := r.type, target := r.target, body := u8 st.code ++ payload,
                        job := jobs + nand, mirror := s.mirrorMark t, since := s.now, p2 := r.p2 }
      s.onHub fun h => { h with sets := h.sets ++ [w] }
  | _ => s.reply r st payload

/-- GET. -/
def State.doGet (s : State) (r : HReq) : State :=
  match parseGet r.payload with
  | none => s.reply r .invalid []
  | some items =>
    let x := s.asSession r.sess fun s => s.getAll r.target (s.rightsOf r.sess) (s.isSerial r.sess) items
    x.1.reply r x.2.1 x.2.2

/-- SET. -/
def State.doSet (s : State) (g : Tgt) (r : HReq) : State :=
  match parseSet r.payload with
  | none => s.reply r .invalid []
  | some items =>
    let x := s.asSession r.sess fun s => s.setAll r.target (s.rightsOf r.sess) r.sess items
    x.1.replyWhenDone s g r .ok x.2

/-- The fields of a block request: index, sub-index, OFFSET, LENGTH. -/
def parseBlock (p : Bytes) : Option (Nat × Nat × Nat × Nat) :=
  let n := fld p 8 2
  if p.length < 12 ∨ fld p 3 1 ≠ 0 ∨ fld p 10 2 ≠ 0 ∨ n = 0 ∨ 1024 < n then none else some (fld p 0 2, fld p 2 1, fld p 4 4, n)

/-- The limit of a block on the service bus (R413). -/
def serialBlock : Nat := 256

/-- GET_BLOCK. -/
def State.doGetBlock (s : State) (r : HReq) : State :=
  match parseBlock r.payload with
  | none => s.reply r .invalid []
  | some (index, sub, off, len) =>
    if r.payload.length ≠ 12 then s.reply r .invalid []
    else if s.isSerial r.sess ∧ serialBlock < len then s.reply r .limit []
    else
      let x := s.asSession r.sess fun s =>
        match s.checkItem r.target index sub (s.rightsOf r.sess) .getBlock with
        | .error st => (s, Except.error st)
        | .ok (g, e, i) =>
          if e.size ≤ off then (s, Except.error .length) else s.readEntry g e i (s.isSerial r.sess) (some (off, len))
      match x.2 with
      | .error st => x.1.reply r st []
      | .ok v => x.1.reply r .ok (r.payload.take 8 ++ u16 v.length ++ [0, 0] ++ v)

/-- SET_BLOCK. -/
def State.doSetBlock (s : State) (g : Tgt) (r : HReq) : State :=
  match parseBlock r.payload with
  | none => s.reply r .invalid []
  | some (index, sub, off, len) =>
    if r.payload.length ≠ 12 + len then s.reply r .invalid []
    else if s.isSerial r.sess ∧ serialBlock < len then s.reply r .limit []
    else
      let x := s.asSession r.sess fun s =>
        let rights := s.rightsOf r.sess
        match s.checkItem r.target index sub rights .setBlock with
        | .error st => (s, st)
        | .ok (g, e, i) => s.setEntry g e i (some off) (r.payload.drop 12) rights r.sess
      if x.2 = .ok then x.1.replyWhenDone s g r .ok (r.payload.take 10) else x.1.reply r x.2 []

/-- The request that an open EXEC answers. -/
def HExec.req (w : HExec) : HReq := { sess := w.sess, seq := w.seq, tag := w.tag, type := w.type, target := w.target, payload := [], p2 := w.p2 }

/-- The request that a waiting response answers. -/
def HSet.req (w : HSet) : HReq := { sess := w.sess, seq := w.seq, tag := w.tag, type := w.type, target := w.target, payload := [], p2 := w.p2 }

/-- An action of a session has completed: its response, and the instant from which the session counts as idle (R405). -/
def State.execAnswer (s : State) (r : HReq) (st : Status) : State :=
  (s.onHub fun h => { h with sess := Tbl.upd h.sess r.sess fun x => { x with busyAt := s.now } }).reply r st []

/-- The status that the action `n` has answered with. -/
def Acts.fin (a : Acts) (n : Nat) : Option Status := (a.fins.find? fun x => decide (x.1 = n)).map Prod.snd

/-- Answers of actions that have completed since the hub last looked, each to its own EXEC (R410). -/
def State.hubAnswers (s : State) : State :=
  let s := s.pier.hub.execs.foldl (fun (s : State) w => match s.acts.fin w.act with
    | none => s
    | some st => (s.onHub fun h => { h with execs := h.execs.filter fun v => decide (v.act ≠ w.act) }).execAnswer w.req st) s
  { s with acts := { s.acts with fins := [] } }

/-- Run an action for a request: answered at once where the action answers, else when it does. -/
def State.runExec (s : State) (r : HReq) (frees : List Nat) (f : State → State) : State :=
  let s := s.hubAnswers
  let n := s.acts.last + 1
  let s := State.acting { s with acts := { s.acts with last := n } } { exec := n, frees := frees } f
  match s.acts.fin n with
  | some st => s.execAnswer r st
  | none =>
    let w : HExec := { sess := r.sess, seq := r.seq, tag := r.tag, type := r.type, target := r.target, p2 := r.p2, act := n, since := s.now }
    s.onHub fun h => { h with execs := h.execs ++ [w] }

/-- EXEC. The answer of `device.host.session_end` leaves before its session does. -/
def State.doExec (s : State) (r : HReq) : State :=
  let p := r.payload
  let n := fld p 4 2
  if p.length < 8 ∨ fld p 3 1 ≠ 0 ∨ fld p 6 2 ≠ 0 ∨ 1024 < n ∨ p.length ≠ 8 + n then s.reply r .invalid []
  else match s.checkItem r.target (fld p 0 2) (fld p 2 1) (s.rightsOf r.sess) .exec with
    | .error st => s.reply r st []
    | .ok (g, e, _) =>
      if e = Reg.device_host_session_end then
        let gone := (s.asSession r.sess fun s => (s, s.pier.hub.place (s.rd Reg.device_host_session_select 0))).2
        if n ≠ 0 then s.reply r .invalid []
        else
          let s := s.reply r .ok []
          match gone with
          | some (k, _) => s.endSession k
          | none => s
      else s.runExec r (consumed g e) fun s => (s.asSession r.sess fun s => (s.runAction g e (p.drop 8), ())).1

/-! ### FETCH and ACK_DISCARD (R176, R179, R395) -/

/-- Slots per message of a FETCH response. -/
def fetchSlotsPer : Nat := 20

/-- A range that FETCH refuses: as ACK_DISCARD's, or 65 536 and more apart. -/
def fetchBad (a b : Nat) : Bool := badRange a b || decide (65536 ≤ b - a)

/-- The messages of a FETCH response: FIRST_HERE, COUNT, a reserved byte, the slots. -/
def State.fetchParts (s : State) (t : TileId) (a b : Nat) : List Bytes :=
  let n := b + 1 - a
  (List.range ((n + fetchSlotsPer - 1) / fetchSlotsPer)).map fun i =>
    let first := a + fetchSlotsPer * i
    let last := min b (first + fetchSlotsPer - 1)
    natLE 6 first ++ u8 (last + 1 - first) ++ [0] ++ s.fetchSlots t first last

/-- FETCH of a session. Its responses are not kept. -/
def State.doFetch (s : State) (r : HReq) : State :=
  let a := fld r.payload 0 6
  let b := fld r.payload 6 6
  match tgtOf r.target with
  | some (.tile t) =>
    if s.isSerial r.sess then s.reply r .limit []
    else if r.payload.length ≠ 12 ∨ fetchBad a b = true then s.reply r .invalid []
    else
      let parts := s.fetchParts t a b
      let s := s.countFetch t a b
      (parts.zip (List.range parts.length)).foldl (fun (s : State) x =>
        let s := if r.p2 then s.p2Out r.target (r.type + 128) 0 (s.sessId r.sess) r.seq x.1 else s
        (s.message r.sess (r.type + 128) r.target 0 r.seq (decide (x.2 + 1 = parts.length)) x.1).1) s
  | _ => s.reply r .target []

/-- ACK_DISCARD of a session. -/
def State.doAckDiscard (s : State) (r : HReq) : State :=
  match tgtOf r.target with
  | some (.tile t) =>
    if r.payload.length ≠ 12 then s.reply r .invalid []
    else if s.rightsOf r.sess < Right.configure.code then s.reply r .rights []
    else s.runExec r [] (ackDiscard t (fld r.payload 0 6) (fld r.payload 6 6))
  | _ => s.reply r .target []

/-! ### Subscriptions (R407, R408, R650) -/

/-- Most subscriptions of a session. -/
def subsMax : Nat := 32

/-- Compare a watched entry and send it when it differs from what was last sent. A tile that does not answer is not woken. -/
def State.watchCompare (s : State) (k : Nat) (w : HSub) : State :=
  let away := match tgtOf w.target with
    | some (.tile t) => !pierHeld (w.index - (Tgt.tile t).span.1) && decide (s.reach t true false ≠ Reach.go)
    | _ => false
  if away then s
  else
    let x := s.asSession k fun s => s.getItem w.target w.index w.sub (s.rightsOf k) (s.isSerial k)
    let s := x.1.onHub fun h => { h with sess := Tbl.upd h.sess k fun y =>
      { y with subs := y.subs.map fun v => if v.id = w.id then { v with last := x.2, at_ := s.now } else v } }
    let p := u16 w.index ++ u8 w.sub ++ [0] ++ x.2
    if x.2 = w.last then s
    else
      let s := if pierHeld (w.index - 0x4000 - 0x400 * w.target) then s else s.p2Out w.target 0x90 0 (s.sessId k) w.id p
      (s.message k 0x90 w.target 0 w.id true p).1

/-- What a stream produces next: the SEQs of a tile's two archive streams, or the ESEQ of its log or the Pier's. -/
def State.nextItems (s : State) (stream target : Nat) : List Nat :=
  if h : target < 16 then
    let t : TileId := ⟨target, h⟩
    if stream = 0 then [((s.vol t).lehr.stream 0).next, ((s.vol t).lehr.stream 1).next] else [s.rd Reg.events_next_eseq t]
  else [s.rd Reg.device_events_next_eseq 0]

/-- SUBSCRIBE. -/
def State.doSubscribe (s : State) (r : HReq) : State :=
  let p := r.payload
  let stream := fld p 0 1
  let index := fld p 4 2
  let sub := fld p 6 1
  let ms := fld p 8 4
  let form := decide (p.length = 12) || (decide (p.length = 8) && decide (stream ≠ 2))
  let tile := decide (r.target < 16)
  let subs := ((Tbl.get s.pier.hub.sess r.sess).map HSess.subs).getD []
  let add := fun (s : State) =>
    let id := s.pier.hub.nextSub
    let w : HSub :=
      { id := id, stream := stream, target := r.target, index := index, sub := sub, minMs := ms, last := [], at_ := 0, first := s.nextItems stream r.target }
    let s := s.onHub fun h => { h with nextSub := h.nextSub + 1, sess := Tbl.upd h.sess r.sess fun x => { x with subs := x.subs ++ [w] } }
    (s.reply r .ok (u32 id), w)
  if s.isSerial r.sess then s.reply r .limit []
  else if form = false ∨ fld p 1 3 ≠ 0 ∨ fld p 7 1 ≠ 0 ∨ 2 < stream then s.reply r .invalid []
  else if subsMax ≤ subs.length then s.reply r .limit []
  else if stream = 2 then
    match s.checkItem r.target index sub (s.rightsOf r.sess) .watch with
    | .error st => s.reply r st []
    | .ok _ =>
      if ms < 10 ∨ 3600000 < ms then s.reply r .invalid []
      else
        let x := add s
        x.1.watchCompare r.sess x.2
  else if index ≠ 0 ∨ sub ≠ 0 ∨ ms ≠ 0 ∨ (stream = 0 ∧ tile = false) then s.reply r .invalid []
  else (add s).1

/-- UNSUBSCRIBE. -/
def State.doUnsubscribe (s : State) (r : HReq) : State :=
  let id := fld r.payload 0 4
  let subs := ((Tbl.get s.pier.hub.sess r.sess).map HSess.subs).getD []
  if r.payload.length ≠ 4 then s.reply r .invalid []
  else if subs.any fun w => decide (w.id = id) then
    (s.onHub fun h => { h with sess := Tbl.upd h.sess r.sess fun x => { x with subs := x.subs.filter fun w => decide (w.id ≠ id) } }).reply r .ok []
  else s.reply r .noSubscription []

/-- COUNT, 3 reserved bytes and the items of a NOTIFY. -/
def streamPayload (l : List Bytes) : Bytes := u8 l.length ++ [0, 0, 0] ++ l.flatten

/-- An item of a stream: for ARCHIVE the stream of its SEQ and that SEQ, for EVENT 0 and its ESEQ; its bytes. -/
structure StreamItem where
  part : Nat
  num : Nat
  bytes : Bytes
  deriving DecidableEq, Repr

/-- The items of a list that a subscription had begun for (R408). -/
def HSub.takes (w : HSub) (l : List StreamItem) : List Bytes := (l.filter fun x => decide (w.first.getD x.part 0 ≤ x.num)).map StreamItem.bytes

/-- The hub copies items of a stream to every session subscribed to it and its target, from where the subscription began. -/
def State.notifyAll (s : State) (stream target : Nat) (l : List StreamItem) : State :=
  s.pier.hub.sess.foldl (fun (s : State) e => e.2.subs.foldl (fun (s : State) w =>
    if w.stream = stream ∧ w.target = target ∧ w.takes l ≠ [] then (s.message e.1 0x90 target 0 w.id true (streamPayload (w.takes l))).1 else s) s) s

/-- A tile sends items of a stream once, through P2 (R392, R408). -/
def State.notifyTile (s : State) (stream : Nat) (t : TileId) (l : List StreamItem) : State :=
  (s.p2Out t 0x90 0 0 0 (streamPayload (l.map StreamItem.bytes))).notifyAll stream t l

/-- A logged event as an item of a stream. -/
def eventItem (e : Event) : StreamItem := { part := 0, num := e.eseq, bytes := eventBytes e }

/-- A tile puts at most 20 records of its host notification queue into one NOTIFY. -/
def State.notifyArchive (s : State) (t : TileId) : State :=
  let r := (List.range 20).foldl (fun (a : State × List Bytes) _ =>
    if (a.1.queue t 1).fill_ = 0 then a
    else
      let x := a.1.qRead t 1
      (x.1, a.2 ++ (match x.2 with
        | some y => [itemBytes y]
        | none => []))) (s, [])
  if r.2 = [] then r.1 else r.1.notifyTile 0 t (r.2.map fun b => { part := seqStream (fld b 0 6), num := fld b 0 6, bytes := b })

/-- A tile puts at most 16 logged events into one NOTIFY. -/
def State.notifyTileEvents (s : State) (t : TileId) : State :=
  let l := (s.vol t).elog.unsent
  let s := s.onVol t fun v => { v with elog := { v.elog with unsent := l.drop 16 } }
  if l = [] then s else s.notifyTile 1 t ((l.take 16).map eventItem)

/-- The Pier sends at most 16 logged events: all of them to the device's subscribers, those that a bay raised to the bay's. -/
def State.notifyPierEvents (s : State) : State :=
  let l := s.pier.elog.unsent
  let s := s.onPier fun p => { p with elog := { p.elog with unsent := l.drop 16 } }
  let m := l.take 16
  if m = [] then s
  else
    let s := s.notifyAll 1 255 (m.map eventItem)
    allBays.foldl (fun (s : State) (b : BayId) =>
      let x := m.filter fun e => decide (e.wher = 128 + b.val)
      s.notifyAll 1 (128 + b.val) (x.map eventItem)) s

/-- NOTIFY: a unit sends the next items of a stream; targets of 16 and more stand for the Pier. -/
def notify (target stream : Nat) (s : State) : State :=
  if s.pier.up = false then s
  else if h : target < 16 then
    let t : TileId := ⟨target, h⟩
    if s.inRun t = false then s
    else if stream = 0 then s.notifyArchive t
    else if stream = 1 then s.notifyTileEvents t
    else s
  else if stream = 1 then s.notifyPierEvents
  else s

/-- NOTIFY (R178, R408). -/
def execNotify (target stream : Nat) (s : State) : Host.Outcome State Fault Refusal := finish (notify target stream) s

/-- An established session by its SESSION identifier. -/
def Hub.find (h : Hub) (session : Nat) : Option (Nat × HSess) := h.sess.find? fun e => decide (e.2.id = session) && e.2.slot.isSome

/-- WATCH_COMPARE: no more often than once every MIN_MS; a value not sent yet is due at once. -/
def watchDue (session sub : Nat) (s : State) : State :=
  match s.pier.hub.find session with
  | none => s
  | some (k, x) =>
    match x.subs.find? fun w => decide (w.id = sub) && decide (w.stream = 2) with
    | none => s
    | some w => if w.last = [] ∨ w.at_ + w.minMs * 1000000 ≤ s.now then s.watchCompare k w else s

/-- WATCH_COMPARE (R650). -/
def execWatchCompare (session sub : Nat) (s : State) : Host.Outcome State Fault Refusal := finish (watchDue session sub) s

/-! ### Receiving (R394, R398, R403, R404, R409, R410) -/

/-- Carry out a request that has reached its unit. -/
def State.perform (s : State) (g : Tgt) (r : HReq) : State :=
  match r.type with
  | 1 => s.doGet r
  | 2 => s.doSet g r
  | 3 => s.doGetBlock r
  | 4 => s.doSetBlock g r
  | 5 => s.doSubscribe r
  | 6 => s.doUnsubscribe r
  | 7 => s.doFetch r
  | 8 => s.doAckDiscard r
  | 9 => s.doExec r
  | _ => s

/-- Hold a request in the hub: for a tile, in the buffer toward it. -/
def State.hold (s : State) (r : HReq) : State :=
  let used := (s.pier.hub.waits.map fun w => if w.target = r.target then 36 + w.payload.length else 0).sum
  if r.target < 16 ∧ hubBuffer < used + 36 + r.payload.length then s.bump Reg.device_host_hub_drop_in 0 r.target
  else
    let w : HWait := { target := r.target, sess := r.sess, seq := r.seq, tag := r.tag, type := r.type, payload := r.payload }
    s.onHub fun h => { h with waits := h.waits ++ [w] }

/-- Hand a request to a tile that runs: over P2, or over the Pier's management path on the service bus (R413). -/
def State.toTile (s : State) (t : TileId) (r : HReq) : State :=
  if s.isSerial r.sess then s.perform (.tile t) r
  else
    let x := s.p2In t r
    if x.2 then x.1.perform (.tile t) { r with p2 := true } else x.1

/-- A request whose turn it is: the hub itself deals with CLOSE, the Pier with what it holds, and a tile's requests go by its state, as P2 has credit. -/
def State.carry (s : State) (g : Tgt) (r : HReq) : State :=
  if r.type = 10 then (if r.payload = [] then (s.reply r .ok []).endSession r.sess else s.reply r .invalid [])
  else match g with
    | .tile t =>
      if forPier g r.type r.payload then s.perform g r
      else match s.reach t (s.isSerial r.sess) (forCode g r.type r.payload) with
        | .deny d => s.reply r .unreachable (u8 d)
        | .go => if s.isSerial r.sess || s.p2Open t r then s.toTile t r else s.hold r
        | .wait => (s.wakeEvent t).hold r
    | _ => s.perform g r

/-- A request of the session to the target has been begun and not answered. -/
def Hub.begun (h : Hub) (k target : Nat) : Bool :=
  (h.execs.any fun w => decide (w.sess = k) && decide (w.target = target)) || h.sets.any fun w => decide (w.sess = k) && decide (w.target = target)

/-- A list of waiting requests holds one of the session to the target. -/
def waitsFor (l : List HWait) (k target : Nat) : Bool := l.any fun w => decide (w.sess = k) && decide (w.target = target)

/-- The hub answers by itself a request of this type to a tile that cannot be reached: no earlier request holds it up. -/
def State.denied (s : State) (k type : Nat) (g : Tgt) (p : Bytes) : Bool :=
  match g with
  | .tile t =>
    if type = 10 ∨ forPier g type p = true then false
    else match s.reach t (s.isSerial k) (forCode g type p) with
      | .deny _ => !s.inRun t && decide ((s.tile t).power.st ≠ .waking)
      | _ => false
  | _ => false

/-- Hand an accepted request to the unit that it is for, after the earlier ones of its session to the same target (R410). -/
def State.dispatchReq (s : State) (bad : Bool) (r : HReq) : State :=
  if bad then s.reply r .invalid []
  else match tgtOf r.target with
    | none => s.reply r .target []
    | some g =>
      let s := s.hubAnswers
      if (s.pier.hub.begun r.sess r.target || waitsFor s.pier.hub.waits r.sess r.target) && !s.denied r.sess r.type g r.payload then s.hold r else s.carry g r

/-- The receive window after a SEQ is accepted. -/
def HSess.accept (x : HSess) (seq : Nat) : HSess :=
  if x.rx < seq then { x with rx := seq, seen := (if 64 ≤ seq - x.rx then 1 else (x.seen * 2 ^ (seq - x.rx)) % 2 ^ 64 ||| 1) }
  else { x with seen := x.seen ||| 2 ^ (x.rx - seq) }

/-- A SEQ above the window, or inside it and not seen. -/
def HSess.fresh (x : HSess) (seq : Nat) : Bool := decide (x.rx < seq) || (decide (x.rx - seq < 64) && !x.seen.testBit (x.rx - seq))

/-- A request that is still being carried out. -/
def Hub.inProgress (h : Hub) (k seq : Nat) (tag : Bytes) : Bool :=
  (h.execs.any fun w => decide (w.sess = k) && decide (w.seq = seq) && decide (w.tag = tag)) ||
  (h.sets.any fun w => decide (w.sess = k) && decide (w.seq = seq) && decide (w.tag = tag)) ||
  h.waits.any fun w => decide (w.sess = k) && decide (w.seq = seq) && decide (w.tag = tag)

/-- A protected message arrives on a channel. -/
def State.receive (s : State) (chan : Nat) (peer : Bytes) (type : Nat) (m : HostMsg) : State :=
  match s.pier.hub.find m.session with
  | none => s.noSession chan peer m
  | some (k, x) =>
    if (x.chan = serialChan) ≠ (chan = serialChan) then s.noSession chan peer m
    else
      let n := m.body.length - 16
      let tag := m.body.drop n
      match if m.body.length < 16 then none else gcmOpen x.keyRx (msgIv m.session m.seq 0) (msgHeader type m) (m.body.take n) tag with
      | none => s.bump Reg.device_host_auth_fail 0
      | some p =>
        match x.cache.find? fun c => decide (c.1 = m.seq) && decide (c.2.1 = tag) && decide (x.rx - m.seq < 64) with
        | some c => (c.2.2.foldl (fun (s : State) b => s.sendFrame k m.target b) s).bump Reg.device_host_retransmits_answered 0
        | none =>
          if s.pier.hub.inProgress k m.seq tag then s
          else if x.fresh m.seq = false ∨ m.seq = 0 then s.bump Reg.device_host_replay_discard 0
          else
            let s := s.onHub fun h => { h with sess := Tbl.put h.sess k { x.accept m.seq with lastReq := s.now, lastNs := s.pierNs } }
            s.dispatchReq (decide (m.status ≠ 0 ∨ m.ref ≠ 0 ∨ 4 ≤ m.flags ∨ m.len ≠ p.length))
              { sess := k, seq := m.seq, tag := tag, type := type, target := m.target, payload := p }

/-- Send an ICMPv6 message to a peer, over the lane that carries what the hub sends (R390, R391). -/
def State.icmp (s : State) (lane : Nat) (peer : Bytes) (type : Nat) (b : Bytes) : State :=
  let h := s.pier.hub
  let l := h.laneFor lane
  if h.carries l then (s.bump Reg.device_host_frames_out 0 l).emit (.icmp l h.cfg.vlan type (h.cfg.source l) peer b) else s

/-- An address is the device's own on a lane. -/
def HubCfg.owns (c : HubCfg) (lane : Nat) (a : Bytes) : Bool := decide (a = linkLocal lane) || decide (a = c.source lane)

/-- A datagram arrives on a lane (R390): a Trakmer message for its own meaning, an echo request for its reply (type 129), a solicitation of an own address for
its advertisement (type 136); the others are discarded. -/
def arrive (lane : Fin 2) (peer : Bytes) (m : HostMsg) (f : State → State) (s : State) : State :=
  if s.laneDown lane then s
  else
    let s := s.bump Reg.device_host_frames_in 0 lane
    match m.form with
    | .trakmer => f s
    | .otherPort => s.bump Reg.device_host_rx_discard 0
    | .fragment => s.bump Reg.device_host_rx_discard 0
    | .echo => s.icmp lane peer 129 m.body
    | .solicit => if s.pier.hub.cfg.owns lane m.body then s.icmp lane peer 136 m.body else s

/-- A protected message arrives on a lane. -/
def hostRequest (lane : Fin 2) (peer : Bytes) (type : Nat) (m : HostMsg) (s : State) : State := arrive lane peer m (fun s => s.receive lane peer type m) s

/-- GET (R395, R398). -/
def execGet (lane : Fin 2) (peer : Bytes) (m : HostMsg) (s : State) : Host.Outcome State Fault Refusal := finish (hostRequest lane peer 1 m) s

/-- SET (R395, R398, R653). -/
def execSet (lane : Fin 2) (peer : Bytes) (m : HostMsg) (s : State) : Host.Outcome State Fault Refusal := finish (hostRequest lane peer 2 m) s

/-- GET_BLOCK (R399). -/
def execGetBlock (lane : Fin 2) (peer : Bytes) (m : HostMsg) (s : State) : Host.Outcome State Fault Refusal := finish (hostRequest lane peer 3 m) s

/-- SET_BLOCK (R399). -/
def execSetBlock (lane : Fin 2) (peer : Bytes) (m : HostMsg) (s : State) : Host.Outcome State Fault Refusal := finish (hostRequest lane peer 4 m) s

/-- SUBSCRIBE (R407). -/
def execSubscribe (lane : Fin 2) (peer : Bytes) (m : HostMsg) (s : State) : Host.Outcome State Fault Refusal := finish (hostRequest lane peer 5 m) s

/-- UNSUBSCRIBE (R407). -/
def execUnsubscribe (lane : Fin 2) (peer : Bytes) (m : HostMsg) (s : State) : Host.Outcome State Fault Refusal :=
  finish (hostRequest lane peer 6 m) s

/-- EXEC (R395, R410). -/
def execExec (lane : Fin 2) (peer : Bytes) (m : HostMsg) (s : State) : Host.Outcome State Fault Refusal := finish (hostRequest lane peer 9 m) s

/-- CLOSE (R405). -/
def execClose (lane : Fin 2) (peer : Bytes) (m : HostMsg) (s : State) : Host.Outcome State Fault Refusal := finish (hostRequest lane peer 10 m) s

/-- FETCH by the host that stands beside the tile: the slots of the range. A tile in HOLD or RETAIN is woken by it (R409). -/
def fetchDirect (t : TileId) (first last : Nat) (s : State) : State :=
  match s.reach t false false with
  | .deny _ => s.answer t .unreachable
  | .wait => (s.wakeEvent t).answer t .unreachable
  | .go =>
    if fetchBad first last then s.answer t .invalid
    else (s.countFetch t first last).emit (.bytes t (s.fetchSlots t first last))

/-- FETCH (R176). -/
def execFetch (r : RangeReq) (s : State) : Host.Outcome State Fault Refusal :=
  match r with
  | .direct t first last => finish (fetchDirect t first last) s
  | .host lane peer m => finish (hostRequest lane peer 7 m) s

/-- ACK_DISCARD (R179). -/
def execAckDiscard (r : RangeReq) (s : State) : Host.Outcome State Fault Refusal :=
  match r with
  | .direct t first last => finish (ackDiscard t first last) s
  | .host lane peer m => finish (hostRequest lane peer 8 m) s

/-! ### Sessions (R400 to R402, R405) -/

/-- Most handshakes in progress. -/
def handshakesMax : Nat := 16

/-- Host sessions established. -/
def Hub.hostSessions (h : Hub) : Nat := h.sess.countP fun e => match e.2.slot with
  | some k => decide (k < 8)
  | none => false

/-- Handshakes on the lanes whose AUTH may still come. -/
def Hub.handshakes (h : Hub) (now : Nat) : Nat := (h.shakes false now).length

/-- The hub's random source is ready: within 5 ms of the start; the manual gives the bound only. -/
def State.hubRandom (s : State) : Bool := decide (s.pier.upSince + min (Config.measured 5 16 s.pier.upSince) 5000000 ≤ s.now)

/-- A draw of the hub's random source. -/
def State.hubDraw (s : State) : State × Bytes := (s.onPier fun p => { p with draws := p.draws + 1 }, Config.drbg 16 s.pier.draws)

/-- The certificate that the hub sends. -/
def State.hostCert (s : State) : Bytes := (certIn (s.rdAll Reg.device_sec_host_cert 0)).getD []

/-- Answer a HELLO. -/
def State.helloAnswer (s : State) (chan : Nat) (peer : Bytes) (m : HostMsg) (id : Nat) (st : Status) (p : Bytes) : State :=
  s.sendPlain chan peer (hdrBytes 0xF0 m.target st.code id 0 m.seq p.length 1 ++ p)

/-- A HELLO arrives on a channel: on the service bus it ends the session that stands (R413). Where the Pier's fuse bank fails no session is established (R450): nothing answers. -/
def State.hello (s : State) (chan : Nat) (peer : Bytes) (m : HostMsg) : State :=
  let serial := decide (chan = serialChan)
  let p := m.body
  let s := if serial then (s.pier.hub.sess.filter fun e => decide (e.2.chan = serialChan)).foldl (fun (s : State) e => s.endSession e.1) s else s
  if s.pier.rootState = 2 then s
  else if m.session ≠ 0 ∨ m.status ≠ 0 ∨ m.ref ≠ 0 ∨ 4 ≤ m.flags ∨ m.len ≠ p.length ∨ p.length ≠ 81 then s.helloAnswer chan peer m 0 .invalid []
  else if !serial && (decide (8 ≤ s.pier.hub.hostSessions) || decide (handshakesMax ≤ s.pier.hub.handshakes s.now)) then
    s.helloAnswer chan peer m 0 .limit []
  else if s.hubRandom = false then s.helloAnswer chan peer m 0 .busy []
  else
      let n := s.pier.hub.next
      let boot := s.rd Reg.device_host_boot_count 0
      let id := (boot % 65536) * 65536 + n
      let a := s.hubDraw
      let b := a.1.hubDraw
      let s := b.1
      let d := privOf (b.2 ++ List.replicate 8 0)
      let cert := s.hostCert
      let front := a.2.take 16 ++ pubKey p256 d ++ u32 boot ++ u16 cert.length ++ cert
      let sig := ecdsaSign (s.hostKeyD (s.rd Reg.device_sec_host_key_gen 0)) (p ++ front)
      let rsp := front ++ sig
      let x : HSess :=
        { id := id, slot := none, chan := chan, peer := peer, rights := 0, subs := [], rx := 0, seen := 0, tx := 0, keyRx := [], keyTx := []
          print := [], opened := 0, eph := d, hello := p, rsp := rsp, since := s.now, lastReq := s.now, lastNs := 0, cache := [], vals := [] }
      let s := s.onHub fun h => { h with next := n + 1, sess := Tbl.put h.sess n x }
      s.helloAnswer chan peer m id .ok rsp

/-- HELLO (R400, R402). -/
def execHello (lane : Fin 2) (peer : Bytes) (m : HostMsg) (s : State) : Host.Outcome State Fault Refusal :=
  finish (arrive lane peer m fun s => s.hello lane peer m) s

/-- Rights and public key that a host certificate gives, after every check of R401. -/
def State.certGrants (s : State) (c : Bytes) : Option (Nat × Bytes) :=
  match certParse c with
  | none => none
  | some x =>
    if s.anchored c && (decide (s.pierNs = 0) || x.validAt (s.utcOfTai (s.pierNs / 1000000000))) then x.rights.map fun r => (r, x.key) else none

/-- Rights, Z-derived keys and fingerprint of an AUTH payload; none where a check fails. -/
def State.authOpen (s : State) (x : HSess) (p : Bytes) : Option (Nat × Bytes × Bytes) :=
  let n := fld p 0 2
  let c := (p.drop 2).take n
  if n = 0 ∨ 1024 < n ∨ p.length ≠ 2 + n + 64 then none
  else
    let pre := x.hello ++ x.rsp ++ c
    let th := sha256 pre
    match s.certGrants c, ecdh p256 x.eph (x.hello.drop 16) with
    | some (r, pub), some z =>
      if ecdsaVerify pub pre (p.drop (2 + n)) then some (r, kdf z (ascii "TRAKMER") th 512, sha256 c) else none
    | _, _ => none

/-- The lowest place that no session has. -/
def Hub.freeSlot (h : Hub) (serial : Bool) : Option Nat :=
  if serial then some 8 else (List.range 8).find? fun k => (h.place k).isNone

/-- An AUTH arrives on a channel: FINISH, or the handshake ends without reply. -/
def State.auth (s : State) (chan : Nat) (m : HostMsg) : State :=
  let serial := decide (chan = serialChan)
  match s.pier.hub.sess.find? fun e => decide (e.2.id = m.session) && e.2.slot.isNone && (decide (e.2.chan = serialChan) == serial) with
  | none => s
  | some (k, x) =>
    let late := decide (x.since + authNs < s.now)
    let form := decide (m.status = 0) && decide (m.ref = 0) && decide (m.flags < 4) && decide (m.len = m.body.length)
    match if late || !form then none else s.authOpen x m.body, s.pier.hub.freeSlot serial with
    | some (r, keys, print), some slot =>
      let x := { x with slot := some slot, rights := r, keyRx := keys.take 32, keyTx := keys.drop 32, print := print, opened := s.pierNs, lastReq := s.now
                        eph := 0, hello := [], rsp := [] }
      let s := (s.onHub fun h => { h with sess := Tbl.put h.sess k x }).bump Reg.device_host_handshakes 0
      (s.message k 0xF1 m.target 0 m.seq true (u8 r ++ [0, 0, 0] ++ u32 (s.rd Reg.device_host_session_idle_s 0))).1
    | _, _ => (s.endSession k).bump Reg.device_host_handshake_fail 0

/-- AUTH (R400, R401). -/
def execAuth (lane : Fin 2) (peer : Bytes) (m : HostMsg) (s : State) : Host.Outcome State Fault Refusal :=
  finish (arrive lane peer m fun s => s.auth lane m) s

/-- A message by its TYPE (R394): a HELLO, an AUTH, a request, or one that is discarded. -/
def State.hostMsg (s : State) (chan : Nat) (peer : Bytes) (type : Nat) (m : HostMsg) : State :=
  if type = 0x70 then s.hello chan peer m
  else if type = 0x71 then s.auth chan m
  else if 1 ≤ type ∧ type ≤ 10 then s.receive chan peer type m
  else s.bump Reg.device_host_rx_discard 0

/-- NO_SESSION (R406): a message of any TYPE arrives; a request may have no session. -/
def execNoSession (lane : Fin 2) (peer : Bytes) (type : Nat) (m : HostMsg) (s : State) : Host.Outcome State Fault Refusal :=
  finish (arrive lane peer m fun s => s.hostMsg lane peer type m) s

/-- SESSION_IDLE: a session without an accepted request for the idle time, and without an EXEC in progress in it. -/
def sessionIdle (session : Nat) (s : State) : State :=
  match s.pier.hub.find session with
  | none => s
  | some (k, x) =>
    if max x.lastReq x.busyAt + s.rd Reg.device_host_session_idle_s 0 * 1000000000 ≤ s.now ∧ (s.pier.hub.execs.any fun w => decide (w.sess = k)) = false then
      s.endSession k
    else s

/-- SESSION_IDLE (R405). -/
def execSessionIdle (session : Nat) (s : State) : Host.Outcome State Fault Refusal := finish (sessionIdle session) s

/-- SESSION_END (R405): `device.host.session_end` for the selected session. -/
def execSessionEnd (s : State) : Host.Outcome State Fault Refusal := finish (fun s => s.runAction .dev Reg.device_host_session_end []) s

/-- STAGING_LOCK_TIMEOUT: 60 s have passed without a write by the holder. -/
def stagingLockTimeout (index sub : Nat) (s : State) : State :=
  let key := index * 256 + sub
  match Tbl.get s.pier.hub.locks key with
  | some (_, at_) => if at_ + lockNs ≤ s.now then s.onHub fun h => { h with locks := Tbl.del h.locks key } else s
  | none => s

/-- STAGING_LOCK_TIMEOUT (R399). -/
def execStagingLockTimeout (index sub : Nat) (s : State) : Host.Outcome State Fault Refusal := finish (stagingLockTimeout index sub) s

/-! ### Lanes (R391, R392) -/

/-- The other lane. -/
def otherLane (l : Nat) : Nat := 1 - l

/-- Frames that waited for a lane go on. -/
def State.flushOut (s : State) : State :=
  let l := s.pier.hub.outbox
  l.foldl (fun (s : State) x => s.sendFrame x.2.1 x.1 x.2.2) (s.onHub fun h => { h with outbox := [] })

/-- A change of the active lane. -/
def State.laneSwitch (s : State) (l : Nat) : State :=
  let s := s.onPier fun p => { p with activeLane := l, hub := { p.hub with active := l } }
  let s := if s.pier.time.source = 0 then s.chooseMaster else s
  ((s.bump Reg.device_host_lane_switches 0).pierEvent 0xFF 1 0x0301 0 l).flushOut

/-- Every session on a lane moves to the other one (ACTIVE_ACTIVE). -/
def State.moveSessions (s : State) (l : Nat) : State :=
  let o := otherLane l
  let moved := s.pier.hub.sess.filter fun e => decide (e.2.chan = l) && e.2.slot.isSome
  let s := moved.foldl (fun (s : State) e =>
    let s := s.onHub fun h => { h with sess := Tbl.put h.sess e.1 { e.2 with chan := o } }
    (s.bump Reg.device_host_lane_switches 0).pierEvent 0xFF 1 0x0301 0 o) s
  s.flushOut

/-- A lane has been down for the hold time while the other is up: traffic moves. -/
def State.laneHeld (s : State) (l : Nat) : State :=
  let h := s.pier.hub
  let down := !h.laneUp.getD l false && decide (h.laneAt.getD l 0 + h.cfg.holdMs * 1000000 ≤ s.now)
  if !down || !h.laneUp.getD (otherLane l) false then s
  else if h.cfg.mode = 0 then (if h.active = l then s.laneSwitch (otherLane l) else s)
  else s.moveSessions l

/-- A lane comes up or goes down. -/
def State.setLane (s : State) (l : Nat) (upNow : Bool) : State :=
  s.onHub fun h => { h with laneUp := h.laneUp.set l upNow, laneAt := h.laneAt.set l s.now }

/-- Both lanes have been down for longer than the idle time: every host session ends. -/
def State.lanesDead (s : State) : State :=
  let h := s.pier.hub
  let since := max (h.laneAt.getD 0 0) (h.laneAt.getD 1 0)
  if h.laneUp.any id || decide (s.now ≤ since + s.rd Reg.device_host_session_idle_s 0 * 1000000000) then s
  else (h.sess.filter fun e => decide (e.2.chan ≠ serialChan)).foldl (fun (s : State) e => s.endSession e.1) s

/-- LANE_DOWN: 0 the lane's link comes up, 1 it goes down, 2 it has been down for the hold time, 3 both have been down for the idle time. -/
def laneDown (lane : Fin 2) (ev : Fin 4) (s : State) : State :=
  if s.pier.up = false then s
  else if ev = 0 then ((s.setLane lane true).laneHeld (otherLane lane)).flushOut
  else if ev = 1 then s.setLane lane false
  else if ev = 2 then s.laneHeld lane
  else s.lanesDead

/-- LANE_DOWN (R391, R405). -/
def execLaneDown (lane : Fin 2) (ev : Fin 4) (s : State) : Host.Outcome State Fault Refusal := finish (laneDown lane ev) s

/-- LANE_REVERT: the primary lane has been up for the revert time. -/
def laneRevert (s : State) : State :=
  let h := s.pier.hub
  let l := h.cfg.primary
  if h.cfg.mode = 0 ∧ h.cfg.revertS ≠ 0 ∧ h.laneUp.getD l false = true ∧ h.active ≠ l ∧ h.laneAt.getD l 0 + h.cfg.revertS * 1000000000 ≤ s.now then
    s.laneSwitch l
  else s

/-- LANE_REVERT (R391). -/
def execLaneRevert (s : State) : Host.Outcome State Fault Refusal := finish laneRevert s

/-! ### The service bus (R412 to R415, R475) -/

/-- Answer an unprotected request of the service bus. -/
def State.openAnswer (s : State) (type : Nat) (m : HostMsg) (st : Status) (p : Bytes) : State :=
  s.putFrame serialChan [] (hdrBytes (type + 128) m.target st.code 0 0 m.seq p.length 1 ++ p)

/-- Header checks of an unprotected request. -/
def openForm (m : HostMsg) : Bool := decide (m.status = 0) && decide (m.ref = 0) && decide (m.flags < 4) && decide (m.len = m.body.length)

/-- GET with SESSION 0 at VIEW rights, for device and bay entries (R415). -/
def State.openGet (s : State) (m : HostMsg) : State :=
  match if openForm m then parseGet m.body else none with
  | none => s.openAnswer 1 m .invalid []
  | some items =>
    let x := s.asSession 0 fun s => s.getAll m.target 0 true items
    x.1.openAnswer 1 m x.2.1 x.2.2

/-- The one unprotected SET, of the first trust anchor (R475). -/
def State.openAnchor (s : State) (m : HostMsg) : State :=
  match if openForm m then parseSet m.body else none with
  | some [(_, _, v)] =>
    let x := s.setItem 255 (Reg.device_sec_anchor.index 0) 0 Right.secure.code 0 v
    x.1.openAnswer 2 m .ok (u8 x.2.code)
  | _ => s.openAnswer 2 m .invalid []

/-- A SET of exactly the first trust anchor. -/
def anchorSet (m : HostMsg) : Bool := decide (m.target = 255) && match parseSet m.body with
  | some [(i, sub, _)] => decide (i = Reg.device_sec_anchor.index 0) && decide (sub = Reg.device_sec_anchor.sub)
  | _ => false

/-- Split a message into TYPE, header fields and body; none unless VERSION is 1. -/
def parseMsg (b : Bytes) : Option (Nat × HostMsg) :=
  if b.length < 20 ∨ 1452 < b.length ∨ fld b 0 1 ≠ 1 then none
  else some (fld b 1 1, { target := fld b 2 1, status := fld b 3 1, session := fld b 4 4, seq := fld b 8 4, ref := fld b 12 4, len := fld b 16 2
                          flags := fld b 18 2, body := b.drop 20 })

/-- A message with good FCS for this address. -/
def State.serialMsg (s : State) (b : Bytes) : State :=
  match parseMsg b with
  | none => s.bump Reg.device_host_rx_discard 0
  | some (type, m) =>
    if type = 1 ∧ m.session = 0 ∧ s.rd Reg.device_svc_open_view 0 = 1 ∧ 128 ≤ m.target then s.openGet m
    else if type = 2 ∧ m.session = 0 ∧ s.pier.rootState ≠ 2 ∧ s.anchors = [] ∧ (s.bay 0).legalEn = true ∧ anchorSet m = true then s.openAnchor m
    else s.hostMsg serialChan [] type m

/-- SERIAL_FRAME: what stands between the flags. The service bus answers once the Pier has selected its clock source (R603). -/
def serialFrame (frame : Bytes) (s : State) : State :=
  if s.pier.up = false ∨ s.pier.clock = .select then s
  else
    let b := (unstuff frame).getD []
    let n := b.length - 2
    if b.length < 3 ∨ fld b n 2 ≠ fcs16 (b.take n) then s.bump Reg.device_svc_fcs_errors 0
    else
      let s := s.bump Reg.device_svc_frames_in 0
      if fld b 0 1 ≠ s.pier.hub.cfg.addr then s else s.serialMsg ((b.take n).drop 1)

/-- SERIAL_FRAME (R412, R413, R415). -/
def execSerialFrame (frame : Bytes) (s : State) : Host.Outcome State Fault Refusal := finish (serialFrame frame) s

/-- How long the Pier waits for a tile that a request of the service bus was forwarded to (R413): 200 ms. -/
def serialWaitNs : Nat := 200000000

/-- SERIAL_TILE_TIMEOUT: the tile has not answered for 200 ms the oldest request that the Pier forwarded to it. An action that still runs
answers unheard: no session has key 0. -/
def serialTileTimeout (s : State) : State :=
  let h := s.pier.hub
  match h.execs.find? fun w => s.isSerial w.sess && decide (w.target < 16) && decide (w.since + serialWaitNs ≤ s.now) with
  | some w =>
    (s.onHub fun h => { h with execs := h.execs.map fun v => if v = w then { v with sess := 0 } else v }).reply w.req .unreachable (u8 4)
  | none =>
    match h.sets.find? fun w => s.isSerial w.sess && decide (w.since + serialWaitNs ≤ s.now) with
    | some w =>
      (s.onHub fun h => { h with sets := h.sets.filter fun v => decide (v ≠ w) }).reply w.req .unreachable (u8 4)
    | none => s

/-- SERIAL_TILE_TIMEOUT (R413). -/
def execSerialTileTimeout (s : State) : Host.Outcome State Fault Refusal := finish serialTileTimeout s

/-! ### What the hub does as time passes -/

/-- Answers of writes that are durable and placed (R653). -/
def State.hubSets (s : State) : State :=
  s.pier.hub.sets.foldl (fun (s : State) w =>
    if h : w.tile < 16 then
      let t : TileId := ⟨w.tile, h⟩
      if ((s.tile t).media.jobs.any fun j => decide (j.1 < w.job)) || !s.mirrored t w.mirror then s
      else
        (s.onHub fun h => { h with sets := h.sets.filter fun v => decide (v ≠ w) }).replyCode w.req (fld w.body 0 1) (w.body.drop 1)
    else s) s

/-- Requests whose turn has come and whose tile now runs are carried out in order; those of a tile that can no longer be reached are answered. -/
def State.hubWaits (s : State) : State :=
  s.pier.hub.waits.foldl (fun (s : State) w =>
    let before := s.pier.hub.waits.takeWhile fun v => decide (v ≠ w)
    let r : HReq := { sess := w.sess, seq := w.seq, tag := w.tag, type := w.type, target := w.target, payload := w.payload }
    let drop := fun (s : State) => s.onHub fun h => { h with waits := h.waits.filter fun v => decide (v ≠ w) }
    let held := s.pier.hub.begun w.sess w.target || waitsFor before w.sess w.target
    if held && !(match tgtOf w.target with
      | some g => s.denied w.sess w.type g w.payload
      | none => false) then s
    else match tgtOf w.target with
      | none => s
      | some (.tile t) =>
        if w.type = 10 ∨ forPier (.tile t) w.type w.payload = true then (drop s).carry (.tile t) r
        else match s.reach t (s.isSerial w.sess) (forCode (.tile t) w.type w.payload) with
          | .wait => s
          | .go => if s.isSerial w.sess || s.p2Open t r then (drop s).toTile t r else s
          | .deny d => if s.inRun t || decide ((s.tile t).power.st = .waking) then s else (drop s).reply r .unreachable (u8 d)
      | some g => (drop s).carry g r) s

end Sys2Proof.Machine
end

