-- ==== Sys2Proof/Machine/Clock.lean ====
section
/-! DEFINITION. Clock.lean: what happens as time passes while no command waits (notes/assumptions/5.md). -/

namespace Sys2Proof.Machine

/-- Nanoseconds that pass when the block idles for one step. -/
def tickNs : Nat := 1000

/-- A reset of a tile that is due (R485, R621, R641). -/
def State.dueTileReset (s : State) (t : TileId) : State :=
  match (s.vol t).boot.resetAt with
  | some (at_, cause) => if at_ ≤ s.now then s.tileReset t cause else s
  | none => s

/-- A reset of the device that is due (R602). -/
def State.dueDeviceReset (s : State) : State :=
  match s.pier.resetAt with
  | some at_ => if at_ ≤ s.now then (s.deviceDown 3).deviceUp s.pier.board [] else s
  | none => s

/-- What a tile does on its own: its frequency follows the servo (R428), its pin falls when that is due (R488), the edges of its radio, one step of an entry under way (R524), a reset that is due. -/
def State.tileTick (s : State) (t : TileId) : State := ((((s.slew t).dropDue t).rfAdvance t).entryStep t).dueTileReset t

/-- TOUT of a bay whose driving tile is gone is low (R439, R440). -/
def State.toutLow (s : State) (b : BayId) : State :=
  if (s.bay b).toutLevel && decide (s.rd Reg.bay_time_tout_mode b = 0) && (s.toutTile b).isNone then toutEdge b s else s

/-- Everything that is due at the clock count reached. -/
def State.elapse (s : State) : State :=
  if s.pier.up = false then s
  else
    let s := allTiles.foldl (fun (s : State) (t : TileId) => s.tileTick t) s
    let s := s.masterLapse.pmNext.relock
    let s := allBays.foldl (fun (s : State) (b : BayId) => ((s.delayItems b).modeReady b).toutLow b) s
    let s := ((s.hubAnswers).hubSets).hubWaits
    s.dueDeviceReset

/-- The block idles: time passes, and what is due happens. -/
def idle (s : State) : Host.Outcome State Fault Refusal :=
  let s := { s with now := s.now + tickNs }
  finish State.elapse s

end Sys2Proof.Machine
end

