-- ==== Sys2Proof/Machine/Egress.lean ====
section
/-! DEFINITION. Egress.lean: the dispatch of frames (R371, R372, R385): what becomes of each when its transfer starts. -/

namespace Sys2Proof.Machine

/-! ### PTP (R441) -/

/-- Emit a PTP message on D0 or D1, with the tag of R377. -/
def State.ptpOut (s : State) (t : TileId) (p : Nat) (m : PtpMsg) : State := s.emit (.ptp t p (s.rd Reg.sw_vlan t) (clockIdentity t p) m)

/-- A PTP message leaves on D0 or D1. Sync is two-step: Follow_Up carries its egress timestamp (R425 to R427). The messages of a second leave one behind the other, so
that the EXPRESS lane holds them (R370). -/
def State.ptpEgress (s : State) (t : TileId) (p : Nat) (m : PtpMsg) : State :=
  let s := s.ptpOut t p m
  let next := fun (s : State) (m : PtpMsg) => s.swSend t 6 p 0 (.ptp m)
  match m with
  | .sync dom _ cls src steps => next (s.bump Reg.time_sync_tx t p) (.followUp dom (s.timeNs t + (s.portCorr t p).2) cls src steps)
  | .followUp dom _ cls src steps => next s (.announce dom cls src steps)
  | .announce dom .. => next s (.pdelayReq dom)
  | .pdelayResp dom req => next s (.pdelayFollow dom req)
  | .pdelayReq _ => s
  | .pdelayFollow .. => s

/-- A PTP frame from D0 or D1 reaches Meridian: a Pdelay_Req of the domain over Ethernet is answered while the tile is a master there; every other is ignored (R441). -/
def State.ptpIn (s : State) (t : TileId) (p : Nat) (b : Bytes) : State :=
  match s.etherIn t b with
  | some (_, 0x88F7, r) =>
    let dom := s.rd Reg.device_time_ptp_domain 0
    if fld r 0 1 % 16 = 2 ∧ fld r 4 1 = dom ∧ bit (s.rd Reg.time_ptp_master_enable t) p ∧ (s.announceOf t).isSome ∧ s.serves t then
      s.swSend t 6 p 0 (.ptp (.pdelayResp dom (r.take 44)))
    else s
  | _ => s

/-! ### Transfer -/

/-- A response reaches Ephemeris (R284). A DOWN_RSP that answers no outstanding request of its SAT_ID is dropped (R386). -/
def State.ephTake (s : State) (t : TileId) (f : Frame) : State :=
  if !s.serves t then s
  else if f.source ≤ 1 && !s.downAsked t f.satId f.addr then s.bump Reg.sw_down_rsp_dropped t
  else s.ephResponse t f

/-- A frame's transfer on output `o` starts: its cells are freed, and it goes to the link or to the unit behind the output. -/
def State.transfer (s : State) (t : TileId) (o : Fin 8) (c i : Nat) (f : SwFrame) : State :=
  let s := s.swRelease t i f.cells f.shared
  let out := (s.bump Reg.sw_frames_out t o).bump Reg.sw_bytes_out t o f.len
  match f.body with
  | .link v ty p =>
    match (s.sw t).sess.find? fun e => decide (e.2.value = v) && decide (e.2.port = o.val) && decide (e.2.st = 2) with
    | some e => out.linkSeal t e.1 ty p
    | none => (s.bump Reg.sw_stale_discard t c).onSw t fun w => { w with credit := addAt w.credit o f.cells, held := subAt w.held o f.cells }
  | .plain mac ty p => out.linkPlain t o mac ty p
  | .ptp m => out.ptpEgress t o m
  | .mac _ _ _ _ => out.onSw t fun w => { w with unit := Tbl.put w.unit o (((Tbl.get w.unit o).getD []) ++ [f]) }
  | .eph r => out.ephTake t r
  | .intake _ => out
  | .other b =>
    let v := out.rd Reg.sw_vlan t
    if o.val < 2 then out.emit (.link t o (if v = 0 then b else b.take 12 ++ [0x81, 0x00] ++ natBE 2 v ++ b.drop 12))
    else if o.val = 6 ∧ i < 2 then out.ptpIn t i b
    else out

/-- The frame toward output `o` that EGRESS_DELAY holds longest and that may go: its time has come, and the port serves it. -/
def State.delayedDue (s : State) (t : TileId) (o : Nat) : Option (Nat × Nat × Nat × SwFrame) :=
  (s.vol t).diag.delayed.find? fun x => decide (x.1 = o) && decide (x.2.2.1 ≤ s.now) && (s.sw t).servable o x.2.2.2 &&
    (decide (2 ≤ o) || decide ((s.sw t).port.getD o 0 = 2))

/-- One frame leaves toward output `o`: a delayed one whose time has come goes first. The READING frames toward P5 leave by FRAME_INTAKE (R82). -/
def frameDispatch (t : TileId) (o : Fin 8) (s : State) : State :=
  let w := s.sw t
  match s.delayedDue t o with
  | some x =>
    let s := s.onVol t fun v => { v with diag := { v.diag with delayed := v.diag.delayed.erase x } }
    s.transfer t o x.2.2.2.cls x.2.1 x.2.2.2
  | none =>
  if o.val = 7 ∨ w.stopped.getD o false ∨ (o.val < 2 ∧ w.port.getD o 0 ≠ 2) ∨ !s.portTakes t o then s
  else match w.choose o fun c => s.rd Reg.sw_class_weight t (c - 1) with
    | none => s
    | some (c, w) =>
      match w.head o c with
      | none => s
      | some (i, k, f) =>
        let s := s.onSw t fun _ => { w.setVoq i o c ((w.voq i o c).eraseIdx k) with rr := Tbl.put w.rr (4 * o + c) i }
        let s := s.onSw t fun w => { w with credit := subAt w.credit o f.cells, held := addAt w.held o f.cells }
        match s.egressWait t o c with
        | some d =>
          let x : Nat × Nat × Nat × SwFrame := (o.val, i, s.now + d, f)
          s.onVol t fun v => { v with diag := { v.diag with delayed := v.diag.delayed ++ [x] } }
        | none => s.transfer t o c i f

/-- FRAME_DISPATCH (R372). -/
def execFrameDispatch (t : TileId) (o : Fin 8) (s : State) : Host.Outcome State Fault Refusal := finish (frameDispatch t o) s

end Sys2Proof.Machine
end

