-- ==== Sys2Proof/Machine/Dispatch.lean ====
section
/-! DEFINITION. Dispatch.lean: the meaning of each command, one arm per constructor of Instr. -/

namespace Sys2Proof.Machine

def exec (i : Instr) (s : State) : Host.Outcome State Fault Refusal :=
  match i with
  | .powerOn present lost => Sys2Proof.Machine.execPowerOn present lost s
  | .brownOut => Sys2Proof.Machine.execBrownOut s
  | .sysRstN present lost => Sys2Proof.Machine.execSysRstN present lost s
  | .deviceReset => Sys2Proof.Machine.execDeviceReset s
  | .qualificationWindow edges => Sys2Proof.Machine.execQualificationWindow edges s
  | .refclkLoss => Sys2Proof.Machine.execRefclkLoss s
  | .lockstepMiscompare => Sys2Proof.Machine.execLockstepMiscompare s
  | .tilePowerUp => Sys2Proof.Machine.execTilePowerUp s
  | .tileBoot t trained found => Sys2Proof.Machine.execTileBoot t trained found s
  | .watchdog t => Sys2Proof.Machine.execWatchdog t s
  | .trialTimeout t => Sys2Proof.Machine.execTrialTimeout t s
  | .trialConfirm t => Sys2Proof.Machine.execTrialConfirm t s
  | .fwConfirm t => Sys2Proof.Machine.execFwConfirm t s
  | .stageBegin t bank len => Sys2Proof.Machine.execStageBegin t bank len s
  | .bankWrite t bank off data => Sys2Proof.Machine.execBankWrite t bank off data s
  | .stageCommit t digest => Sys2Proof.Machine.execStageCommit t digest s
  | .tileFwReset t force => Sys2Proof.Machine.execTileFwReset t force s
  | .legalInstall o => Sys2Proof.Machine.execLegalInstall o s
  | .bayModeWrite b wiring value => Sys2Proof.Machine.execBayModeWrite b wiring value s
  | .metersEnrol t => Sys2Proof.Machine.execMetersEnrol t s
  | .metersEdit t => Sys2Proof.Machine.execMetersEdit t s
  | .metersMoveOut t => Sys2Proof.Machine.execMetersMoveOut t s
  | .metersRetire t => Sys2Proof.Machine.execMetersRetire t s
  | .metersRelease t => Sys2Proof.Machine.execMetersRelease t s
  | .meterActionAck t => Sys2Proof.Machine.execMeterActionAck t s
  | .classTableWrite t off data => Sys2Proof.Machine.execClassTableWrite t off data s
  | .checkpoint t => Sys2Proof.Machine.execCheckpoint t s
  | .journalPageProgram t => Sys2Proof.Machine.execJournalPageProgram t s
  | .recordRestore t slot copyBad => Sys2Proof.Machine.execRecordRestore t slot copyBad s
  | .envelope t p frame => Sys2Proof.Machine.execEnvelope t p frame s
  | .gatherInject t => Sys2Proof.Machine.execGatherInject t s
  | .frameIntake t overlap found => Sys2Proof.Machine.execFrameIntake t overlap found s
  | .midxWaitRelease t midx => Sys2Proof.Machine.execMidxWaitRelease t midx s
  | .duplicateCheck t => Sys2Proof.Machine.execDuplicateCheck t s
  | .envelopeAck t => Sys2Proof.Machine.execEnvelopeAck t s
  | .marverPass t => Sys2Proof.Machine.execMarverPass t s
  | .rulesetCommit t => Sys2Proof.Machine.execRulesetCommit t s
  | .marverReplay t => Sys2Proof.Machine.execMarverReplay t s
  | .culletTag t => Sys2Proof.Machine.execCulletTag t s
  | .culletRead t => Sys2Proof.Machine.execCulletRead t s
  | .culletReadBlock t => Sys2Proof.Machine.execCulletReadBlock t s
  | .lehrArchiveGroup t => Sys2Proof.Machine.execLehrArchiveGroup t s
  | .batchCloseTime t => Sys2Proof.Machine.execBatchCloseTime t s
  | .keyChange t => Sys2Proof.Machine.execKeyChange t s
  | .pageFlush t => Sys2Proof.Machine.execPageFlush t s
  | .ringFull t => Sys2Proof.Machine.execRingFull t s
  | .lehrProof t => Sys2Proof.Machine.execLehrProof t s
  | .lehrVerify t => Sys2Proof.Machine.execLehrVerify t s
  | .fetch r => Sys2Proof.Machine.execFetch r s
  | .ackDiscard r => Sys2Proof.Machine.execAckDiscard r s
  | .balanceFeed t => Sys2Proof.Machine.execBalanceFeed t s
  | .closeTick t => Sys2Proof.Machine.execCloseTick t s
  | .treeCommit t => Sys2Proof.Machine.execTreeCommit t s
  | .balanceRebuild t => Sys2Proof.Machine.execBalanceRebuild t s
  | .gridChangeTick t => Sys2Proof.Machine.execGridChangeTick t s
  | .syncReset t sec => Sys2Proof.Machine.execSyncReset t sec s
  | .metroResync t => Sys2Proof.Machine.execMetroResync t s
  | .blockEnd t v1 v2 v3 i1 i2 i3 inVx => Sys2Proof.Machine.execBlockEnd t v1 v2 v3 i1 i2 i3 inVx s
  | .secondUpdate t sec n1 first1 last1 n2 first2 last2 => Sys2Proof.Machine.execSecondUpdate t sec n1 first1 last1 n2 first2 last2 s
  | .minuteRecord t => Sys2Proof.Machine.execMinuteRecord t s
  | .localReading t => Sys2Proof.Machine.execLocalReading t s
  | .sealAssert b => Sys2Proof.Machine.execSealAssert b s
  | .sealRelease b => Sys2Proof.Machine.execSealRelease b s
  | .calCommit o => Sys2Proof.Machine.execCalCommit o s
  | .regRestore o => Sys2Proof.Machine.execRegRestore o s
  | .magRead t v => Sys2Proof.Machine.execMagRead t v s
  | .sensorRetry t n v => Sys2Proof.Machine.execSensorRetry t n v s
  | .localRelayCmd t k c => Sys2Proof.Machine.execLocalRelayCmd t k c s
  | .relayPulseEnd t k uj cut => Sys2Proof.Machine.execRelayPulseEnd t k uj cut s
  | .relayFeedbackChange t k low => Sys2Proof.Machine.execRelayFeedbackChange t k low s
  | .relayConfirmTimeout t k => Sys2Proof.Machine.execRelayConfirmTimeout t k s
  | .dispLine b => Sys2Proof.Machine.execDispLine b s
  | .ephCalCommit t => Sys2Proof.Machine.execEphCalCommit t s
  | .calendarActivate t => Sys2Proof.Machine.execCalendarActivate t s
  | .billingApply t => Sys2Proof.Machine.execBillingApply t s
  | .clockEvent t => Sys2Proof.Machine.execClockEvent t s
  | .splitExpire t => Sys2Proof.Machine.execSplitExpire t s
  | .profileWrite t off data => Sys2Proof.Machine.execProfileWrite t off data s
  | .topup t => Sys2Proof.Machine.execTopup t s
  | .confirmHeld t => Sys2Proof.Machine.execConfirmHeld t s
  | .prepayEvaluate t => Sys2Proof.Machine.execPrepayEvaluate t s
  | .ephRelayCmd t c => Sys2Proof.Machine.execEphRelayCmd t c s
  | .relayCheckGet t slot => Sys2Proof.Machine.execRelayCheckGet t slot s
  | .relayConfirmExpiry t slot => Sys2Proof.Machine.execRelayConfirmExpiry t slot s
  | .relayAudit t slot => Sys2Proof.Machine.execRelayAudit t slot s
  | .flagsClear t mask => Sys2Proof.Machine.execFlagsClear t mask s
  | .ephDownlinkApdu t => Sys2Proof.Machine.execEphDownlinkApdu t s
  | .ephResponse t f => Sys2Proof.Machine.execEphResponse t f s
  | .responseTimeout t slot inv => Sys2Proof.Machine.execResponseTimeout t slot inv s
  | .calendarPush t slot => Sys2Proof.Machine.execCalendarPush t slot s
  | .pushLoad t => Sys2Proof.Machine.execPushLoad t s
  | .pushStart t => Sys2Proof.Machine.execPushStart t s
  | .pushPause t => Sys2Proof.Machine.execPushPause t s
  | .pushActivate t => Sys2Proof.Machine.execPushActivate t s
  | .pushCancel t => Sys2Proof.Machine.execPushCancel t s
  | .pushAdd t => Sys2Proof.Machine.execPushAdd t s
  | .pushMemberStep t slot => Sys2Proof.Machine.execPushMemberStep t slot s
  | .multicastRound t => Sys2Proof.Machine.execMulticastRound t s
  | .fillPass t slot => Sys2Proof.Machine.execFillPass t slot s
  | .plcFrameRx t p apdu => Sys2Proof.Machine.execPlcFrameRx t p apdu s
  | .plcTransmit t dur ofs fail acked route => Sys2Proof.Machine.execPlcTransmit t dur ofs fail acked route s
  | .zcEdge t => Sys2Proof.Machine.execZcEdge t s
  | .zcLost t => Sys2Proof.Machine.execZcLost t s
  | .join t eui authOk => Sys2Proof.Machine.execJoin t eui authOk s
  | .plcModeSwitch t => Sys2Proof.Machine.execPlcModeSwitch t s
  | .pollCycleStart t => Sys2Proof.Machine.execPollCycleStart t s
  | .collectionRequest t slot => Sys2Proof.Machine.execCollectionRequest t slot s
  | .cycleBeacon t => Sys2Proof.Machine.execCycleBeacon t s
  | .cap t p b => Sys2Proof.Machine.execCap t p b s
  | .mapReq t p b => Sys2Proof.Machine.execMapReq t p b s
  | .mapRsp t p b => Sys2Proof.Machine.execMapRsp t p b s
  | .mapRefresh t a => Sys2Proof.Machine.execMapRefresh t a s
  | .neighReport t p b => Sys2Proof.Machine.execNeighReport t p b s
  | .phaseQuery t => Sys2Proof.Machine.execPhaseQuery t s
  | .routeRecompute t => Sys2Proof.Machine.execRouteRecompute t s
  | .rfFrameRx t ch rssi psdu => Sys2Proof.Machine.execRfFrameRx t ch rssi psdu s
  | .rfPoll t ch rssi psdu => Sys2Proof.Machine.execRfPoll t ch rssi psdu s
  | .rfDownlink t fail => Sys2Proof.Machine.execRfDownlink t fail s
  | .pendingExpire t slot => Sys2Proof.Machine.execPendingExpire t slot s
  | .rfCollection t slot => Sys2Proof.Machine.execRfCollection t slot s
  | .dutyBucket t => Sys2Proof.Machine.execDutyBucket t s
  | .frameAdmit t n o cls data fcsBad => Sys2Proof.Machine.execFrameAdmit t n o cls data fcsBad s
  | .frameDispatch t o => Sys2Proof.Machine.execFrameDispatch t o s
  | .creditReturn t o n => Sys2Proof.Machine.execCreditReturn t o n s
  | .creditCheck t o seen => Sys2Proof.Machine.execCreditCheck t o seen s
  | .linkUp t p => Sys2Proof.Machine.execLinkUp t p s
  | .linkLost t p => Sys2Proof.Machine.execLinkLost t p s
  | .holdExpiry t p => Sys2Proof.Machine.execHoldExpiry t p s
  | .portDisable t p value => Sys2Proof.Machine.execPortDisable t p value s
  | .helloReq t p frame => Sys2Proof.Machine.execHelloReq t p frame s
  | .helloRsp t p frame => Sys2Proof.Machine.execHelloRsp t p frame s
  | .handshakeTimeout t k => Sys2Proof.Machine.execHandshakeTimeout t k s
  | .resume t p frame => Sys2Proof.Machine.execResume t p frame s
  | .verifyTimeout t k => Sys2Proof.Machine.execVerifyTimeout t k s
  | .keepalive t k => Sys2Proof.Machine.execKeepalive t k s
  | .satDead t k => Sys2Proof.Machine.execSatDead t k s
  | .sessionReset t => Sys2Proof.Machine.execSessionReset t s
  | .downRsp t p frame => Sys2Proof.Machine.execDownRsp t p frame s
  | .hello lane peer m => Sys2Proof.Machine.execHello lane peer m s
  | .auth lane peer m => Sys2Proof.Machine.execAuth lane peer m s
  | .get lane peer m => Sys2Proof.Machine.execGet lane peer m s
  | .set lane peer m => Sys2Proof.Machine.execSet lane peer m s
  | .getBlock lane peer m => Sys2Proof.Machine.execGetBlock lane peer m s
  | .setBlock lane peer m => Sys2Proof.Machine.execSetBlock lane peer m s
  | .subscribe lane peer m => Sys2Proof.Machine.execSubscribe lane peer m s
  | .unsubscribe lane peer m => Sys2Proof.Machine.execUnsubscribe lane peer m s
  | .exec lane peer m => Sys2Proof.Machine.execExec lane peer m s
  | .close lane peer m => Sys2Proof.Machine.execClose lane peer m s
  | .notify target stream => Sys2Proof.Machine.execNotify target stream s
  | .watchCompare session sub => Sys2Proof.Machine.execWatchCompare session sub s
  | .noSession lane peer type m => Sys2Proof.Machine.execNoSession lane peer type m s
  | .sessionIdle session => Sys2Proof.Machine.execSessionIdle session s
  | .sessionEnd => Sys2Proof.Machine.execSessionEnd s
  | .stagingLockTimeout index sub => Sys2Proof.Machine.execStagingLockTimeout index sub s
  | .laneDown lane ev => Sys2Proof.Machine.execLaneDown lane ev s
  | .laneRevert => Sys2Proof.Machine.execLaneRevert s
  | .serialFrame frame => Sys2Proof.Machine.execSerialFrame frame s
  | .ptpSync lane sender originNs corrNs => Sys2Proof.Machine.execPtpSync lane sender originNs corrNs s
  | .pdelay lane t1 t2 t3 t4 => Sys2Proof.Machine.execPdelay lane t1 t2 t3 t4 s
  | .ppsEdge rising widthNs => Sys2Proof.Machine.execPpsEdge rising widthNs s
  | .todMessage msg => Sys2Proof.Machine.execTodMessage msg s
  | .meridianMeasurement t => Sys2Proof.Machine.execMeridianMeasurement t s
  | .referenceLoss t => Sys2Proof.Machine.execReferenceLoss t s
  | .leapSecond => Sys2Proof.Machine.execLeapSecond s
  | .restep params => Sys2Proof.Machine.execRestep params s
  | .restepTimeout => Sys2Proof.Machine.execRestepTimeout s
  | .toutEdge b => Sys2Proof.Machine.execToutEdge b s
  | .ptpMasterTx t d0 d1 => Sys2Proof.Machine.execPtpMasterTx t d0 d1 s
  | .meterClockCheck t slot => Sys2Proof.Machine.execMeterClockCheck t slot s
  | .vaultEnrol t => Sys2Proof.Machine.execVaultEnrol t s
  | .bayOffer t => Sys2Proof.Machine.execBayOffer t s
  | .bayOfferExpiry t => Sys2Proof.Machine.execBayOfferExpiry t s
  | .goField t => Sys2Proof.Machine.execGoField t s
  | .vaultErase t => Sys2Proof.Machine.execVaultErase t s
  | .debugUnlock t => Sys2Proof.Machine.execDebugUnlock t s
  | .debugChallenge t => Sys2Proof.Machine.execDebugChallenge t s
  | .vaultRetire t => Sys2Proof.Machine.execVaultRetire t s
  | .vaultImport t => Sys2Proof.Machine.execVaultImport t s
  | .archiveRotate t => Sys2Proof.Machine.execArchiveRotate t s
  | .hostRekey => Sys2Proof.Machine.execHostRekey s
  | .certWrite t which off data => Sys2Proof.Machine.execCertWrite t which off data s
  | .anchorWrite n off data => Sys2Proof.Machine.execAnchorWrite n off data s
  | .drbgReseed t => Sys2Proof.Machine.execDrbgReseed t s
  | .healthFail t => Sys2Proof.Machine.execHealthFail t s
  | .drbgReady t => Sys2Proof.Machine.execDrbgReady t s
  | .roleAssign t => Sys2Proof.Machine.execRoleAssign t s
  | .preferredTimeout b => Sys2Proof.Machine.execPreferredTimeout b s
  | .heartbeat t => Sys2Proof.Machine.execHeartbeat t s
  | .heartbeatLoss t => Sys2Proof.Machine.execHeartbeatLoss t s
  | .promotion b ok => Sys2Proof.Machine.execPromotion b ok s
  | .bayPromote b force => Sys2Proof.Machine.execBayPromote b force s
  | .clearFault b odd => Sys2Proof.Machine.execClearFault b odd s
  | .mirrorItem b resent => Sys2Proof.Machine.execMirrorItem b resent s
  | .mirrorFrameLost b => Sys2Proof.Machine.execMirrorFrameLost b s
  | .standbyDrain b => Sys2Proof.Machine.execStandbyDrain b s
  | .standbyWake b => Sys2Proof.Machine.execStandbyWake b s
  | .auditCheck b upset => Sys2Proof.Machine.execAuditCheck b upset s
  | .tieBreak b active upset => Sys2Proof.Machine.execTieBreak b active upset s
  | .tieBreakTimeout b => Sys2Proof.Machine.execTieBreakTimeout b s
  | .resync b => Sys2Proof.Machine.execResync b s
  | .bayModeChange b mode => Sys2Proof.Machine.execBayModeChange b mode s
  | .powerRequestRun t => Sys2Proof.Machine.execPowerRequestRun t s
  | .powerRequestHold t => Sys2Proof.Machine.execPowerRequestHold t s
  | .powerRequestRetain t => Sys2Proof.Machine.execPowerRequestRetain t s
  | .powerRequestIsolated t => Sys2Proof.Machine.execPowerRequestIsolated t s
  | .powerRequestOff t => Sys2Proof.Machine.execPowerRequestOff t s
  | .idleEntry t => Sys2Proof.Machine.execIdleEntry t s
  | .isolation t => Sys2Proof.Machine.execIsolation t s
  | .wakeEvent t => Sys2Proof.Machine.execWakeEvent t s
  | .wake t => Sys2Proof.Machine.execWake t s
  | .regulatorAck t mv status => Sys2Proof.Machine.execRegulatorAck t mv status s
  | .regulatorAckTimeout t => Sys2Proof.Machine.execRegulatorAckTimeout t s
  | .pmbAlert words => Sys2Proof.Machine.execPmbAlert words s
  | .statusPoll words => Sys2Proof.Machine.execStatusPoll words s
  | .pfailAssert cause mv rails => Sys2Proof.Machine.execPfailAssert cause mv rails s
  | .pfailRelease mv => Sys2Proof.Machine.execPfailRelease mv s
  | .bankBudgetFree b => Sys2Proof.Machine.execBankBudgetFree b s
  | .energySettingWrite b which value rights => Sys2Proof.Machine.execEnergySettingWrite b which value rights s
  | .vanaOutOfRange t back => Sys2Proof.Machine.execVanaOutOfRange t back s
  | .mediaFormat t => Sys2Proof.Machine.execMediaFormat t s
  | .relocation t => Sys2Proof.Machine.execRelocation t s
  | .programFail t copy => Sys2Proof.Machine.execProgramFail t copy s
  | .eraseComplete t fail => Sys2Proof.Machine.execEraseComplete t fail s
  | .patrol t pb page worst total fails => Sys2Proof.Machine.execPatrol t pb page worst total fails s
  | .wearLevel t => Sys2Proof.Machine.execWearLevel t s
  | .mapJournalPage t => Sys2Proof.Machine.execMapJournalPage t s
  | .keystoreCompact t => Sys2Proof.Machine.execKeystoreCompact t s
  | .temperatureSample t c => Sys2Proof.Machine.execTemperatureSample t c s
  | .queueWrite t code item => Sys2Proof.Machine.execQueueWrite t code item s
  | .queueRead t code => Sys2Proof.Machine.execQueueRead t code s
  | .wmStatusRead t code => Sys2Proof.Machine.execWmStatusRead t code s
  | .rcCounterRead index sub => Sys2Proof.Machine.execRcCounterRead index sub s
  | .eventLog w => Sys2Proof.Machine.execEventLog w s
  | .eventsReadBlock w => Sys2Proof.Machine.execEventsReadBlock w s
  | .legalEvent t code data => Sys2Proof.Machine.execLegalEvent t code data s
  | .legalAck t lseq tag => Sys2Proof.Machine.execLegalAck t lseq tag s
  | .diagUnlock bays secs => Sys2Proof.Machine.execDiagUnlock bays secs s
  | .diagLock bays => Sys2Proof.Machine.execDiagLock bays s
  | .unlockExpiry b => Sys2Proof.Machine.execUnlockExpiry b s
  | .egressDelay t rec => Sys2Proof.Machine.execEgressDelay t rec s
  | .creditStarve t rec => Sys2Proof.Machine.execCreditStarve t rec s
  | .nandFail t rec => Sys2Proof.Machine.execNandFail t rec s
  | .lostInject t rec => Sys2Proof.Machine.execLostInject t rec s
  | .mirrorDelay b rec => Sys2Proof.Machine.execMirrorDelay b rec s
  | .pmbusDelay b rec => Sys2Proof.Machine.execPmbusDelay b rec s
  | .auditMismatch b rec => Sys2Proof.Machine.execAuditMismatch b rec s
  | .mirrorLost b rec => Sys2Proof.Machine.execMirrorLost b rec s
  | .controlDisarm t ofBay k => Sys2Proof.Machine.execControlDisarm t ofBay k s
  | .controlExpiry t ofBay k => Sys2Proof.Machine.execControlExpiry t ofBay k s
  | .restoreDefaults mask => Sys2Proof.Machine.execRestoreDefaults mask s
  | .dictDescribe => Sys2Proof.Machine.execDictDescribe s
  | .entryWrite target index sub value rights => Sys2Proof.Machine.execEntryWrite target index sub value rights s
  | .wakeOrderTimeout t => Sys2Proof.Machine.execWakeOrderTimeout t s
  | .tileStatusReport t => Sys2Proof.Machine.execTileStatusReport t s
  | .serialTileTimeout => Sys2Proof.Machine.execSerialTileTimeout s
  | .restepEntryExpiry t => Sys2Proof.Machine.execRestepEntryExpiry t s
  | .drbgStartTimeout t => Sys2Proof.Machine.execDrbgStartTimeout t s
  | .treeTakesEffect t => Sys2Proof.Machine.execTreeTakesEffect t s
  | .imageActivateTime t => Sys2Proof.Machine.execImageActivateTime t s
  | .activatingTimeout t slot => Sys2Proof.Machine.execActivatingTimeout t slot s
  | .dwellBucket t ch => Sys2Proof.Machine.execDwellBucket t ch s
  | .plcDutyFree t => Sys2Proof.Machine.execPlcDutyFree t s
  | .mapSetDrop t a => Sys2Proof.Machine.execMapSetDrop t a s
  | .ptpAnnounce lane sender gm prio1 cls acc var prio2 steps src utc utcValid leap => Sys2Proof.Machine.execPtpAnnounce lane sender gm prio1 cls acc var prio2 steps src utc utcValid leap s
  | .pageProgramComplete t => Sys2Proof.Machine.execPageProgramComplete t s

end Sys2Proof.Machine
end

