-- ==== Sys2Proof/Safety.lean ====
section
/-! DEFINITION. Safety.lean: what a safe state of the device is, in the terms that the statements use. -/

namespace Sys2Proof.Machine

open Crypto

/-- The state after a command whose effect leads from `s` to `x`: the queue and the clock count stay, changed settings go to the NAND queues, the gates are formed anew. -/
def State.done (s x : State) : State := State.settle (persist s { x with pending := s.pending, now := s.now })

/-- Level of a tile's BAY_OWN ball. -/
def State.ownLevel (s : State) (t : TileId) : Bool := s.pins.own.getD t false

/-- What a tile drives at its field balls; none is high impedance. -/
def State.fieldLevel (s : State) (t : TileId) : Option Drive := (s.pins.field.getD t none)

/-- At no time are both BAY_OWN pins of a redundant bay high (R32). -/
def State.oneOwner (s : State) : Prop :=
  ∀ b : BayId, s.independent (tileOf b false) = false → (s.ownLevel (tileOf b false) && s.ownLevel (tileOf b true)) = false

/-- A tile drives its field balls only while its BAY_OWN ball is high, has been high for 10 µs, and the tile runs (R33); none keys a transmitter while PFAIL_N is
asserted (R547). -/
def State.fieldGated (s : State) : Prop :=
  ∀ t : TileId, ∀ d : Drive, s.fieldLevel t = some d →
    s.ownLevel t = true ∧ s.inRun t = true ∧ (s.pins.pfailN = false → d.txen = false ∧ d.paen = false)

/-- The gates follow the state (R31, R33, R488). -/
def State.gated (s : State) : Prop := s.pins = s.pinsOf

/-- A protected Trakmer message of TYPE `type` arrives on a lane that is up for the session `x`, which the hub holds under `k`, and opens to the payload `p`: every check of
R394, R398, R403 and R404 passes, and it is neither a retransmission nor under way. -/
def State.opened (s : State) (lane : Fin 2) (type : Nat) (m : HostMsg) (k : Nat) (x : HSess) (p : Bytes) : Prop :=
  s.laneDown lane = false ∧ m.form = .trakmer ∧ s.pier.hub.find m.session = some (k, x) ∧ x.chan ≠ serialChan ∧ 16 ≤ m.body.length ∧
  gcmOpen x.keyRx (msgIv m.session m.seq 0) (msgHeader type m) (m.body.take (m.body.length - 16)) (m.body.drop (m.body.length - 16)) = some p ∧
  (x.cache.find? fun c => decide (c.1 = m.seq) && decide (c.2.1 = m.body.drop (m.body.length - 16)) && decide (x.rx - m.seq < 64)) = none ∧
  s.pier.hub.inProgress k m.seq (m.body.drop (m.body.length - 16)) = false ∧ x.fresh m.seq = true ∧ m.seq ≠ 0 ∧
  m.status = 0 ∧ m.ref = 0 ∧ m.flags < 4 ∧ m.len = p.length

/-- The same, and nothing of an earlier request is under way in the hub. -/
def State.requested (s : State) (lane : Fin 2) (type : Nat) (m : HostMsg) (k : Nat) (x : HSess) (p : Bytes) : Prop :=
  s.opened lane type m k x p ∧ x.cache = [] ∧ s.pier.hub.execs = [] ∧ s.pier.hub.sets = [] ∧ s.pier.hub.waits = [] ∧ s.acts.fins = []

/-- The request as the hub hands it on. -/
def requestOf (type : Nat) (m : HostMsg) (k : Nat) (p : Bytes) : HReq :=
  { sess := k, seq := m.seq, tag := m.body.drop (m.body.length - 16), type := type, target := m.target, payload := p }

/-- The state once the request has been taken: the frame is counted, the SEQ is seen and the session's idle time begins anew. -/
def State.taken (s : State) (lane : Fin 2) (m : HostMsg) (k : Nat) (x : HSess) : State :=
  let y := s.bump Reg.device_host_frames_in 0 lane
  y.onHub fun h => { h with sess := Tbl.put h.sess k { x.accept m.seq with lastReq := y.now, lastNs := y.pierNs } }

/-- A safe run of `n` steps: no step of it stops. -/
def safeRun : Nat → State → Prop
  | 0, _ => True
  | n + 1, s => ∃ t, step s = .next t ∧ safeRun n t

end Sys2Proof.Machine
end

