-- ==== Sys2Proof/WellFormed.lean ====
section
/-! DEFINITION. WellFormed.lean: which operands a command may carry: each number within the width that the rule of its row gives it, each record of its
length. The meanings are total and do not rely on it. -/

namespace Sys2Proof

/-- A number of so many bits. -/
def fits (bits v : Nat) : Bool := decide (v < 2 ^ bits)

/-- A piece of a buffer of `size` bytes. -/
def blockOk (size off : Nat) (data : Bytes) : Bool := decide (data ≠ []) && decide (off + data.length ≤ size)

/-- A peer on a lane is an IPv6 address (R418). -/
def peerOk (peer : Bytes) : Bool := decide (peer.length = 16)

/-- Header fields within their widths, payload at most 1 416 bytes with a tag of 16 (R393). -/
def msgOk (m : HostMsg) : Bool :=
  fits 8 m.target && fits 8 m.status && fits 32 m.session && fits 32 m.seq && fits 32 m.ref && fits 16 m.len && fits 16 m.flags &&
  decide (m.body.length ≤ 1432)

/-- FIRST and LAST of 6 bytes, or a message (R395). -/
def rangeOk : RangeReq → Bool
  | .direct _ first last => fits 48 first && fits 48 last
  | .host _ peer m => peerOk peer && msgOk m

/-- The kind of item that a queue holds (R586). -/
def itemOk (code : Fin 7) : QItem → Bool
  | .cullet b => decide (code = 0) && decide (b.length = 128)
  | .record _ => decide (1 ≤ code.val ∧ code.val ≤ 3)
  | .ack _ _ _ b => decide (code = 4) && decide (b.length ≤ 32)
  | .sample b => decide (code = 5) && decide (b.length ≤ 144)
  | .event _ => decide (code = 6)

/-- Six bytes per sensor that answered (R246). -/
def magOk (l : List (Option Bytes)) : Bool := l.all fun x => match x with
  | some v => decide (v.length = 6)
  | none => true

/-- One status word per tile (R535). -/
def wordsOk (l : List Nat) : Bool := decide (l.length = 16) && l.all (fits 16)

/-- What the PLC receiver says of a frame: EUI-64, a known framing, short addresses. -/
def phyOk (p : PlcPhy) : Bool := fits 64 p.eui && decide (p.framing ≤ 1) && p.path.all (fits 16)

/-- An intake descriptor (R77). -/
def frameOk (f : Frame) : Bool := decide (f.source ≤ 4) && fits 16 f.satId

/-- The operands of a command are in range. -/
def Instr.wf : Instr → Bool
  | .powerOn present _ => fits 16 present
  | .brownOut => true
  | .sysRstN present _ => fits 16 present
  | .deviceReset => true
  | .qualificationWindow _ => true
  | .refclkLoss => true
  | .lockstepMiscompare => true
  | .tilePowerUp => true
  | .tileBoot _ _ found => decide (found.legal < 32)
  | .watchdog _ => true
  | .trialTimeout _ => true
  | .trialConfirm _ => true
  | .fwConfirm _ => true
  | .stageBegin _ bank len => fits 8 bank && fits 32 len
  | .bankWrite _ _ off data => blockOk 4194304 off data
  | .stageCommit _ digest => decide (digest.length = 48)
  | .tileFwReset _ force => fits 8 force
  | .legalInstall o => decide (o.cut ≤ 2)
  | .bayModeWrite _ _ value => fits 8 value
  | .metersEnrol _ => true
  | .metersEdit _ => true
  | .metersMoveOut _ => true
  | .metersRetire _ => true
  | .metersRelease _ => true
  | .meterActionAck _ => true
  | .classTableWrite _ off data => blockOk 8192 off data
  | .checkpoint _ => true
  | .journalPageProgram _ => true
  | .recordRestore _ slot _ => fits 18 slot
  | .envelope _ _ _ => true
  | .gatherInject _ => true
  | .frameIntake _ _ _ => true
  | .midxWaitRelease _ midx => fits 22 midx
  | .duplicateCheck _ => true
  | .envelopeAck _ => true
  | .marverPass _ => true
  | .rulesetCommit _ => true
  | .marverReplay _ => true
  | .culletTag _ => true
  | .culletRead _ => true
  | .culletReadBlock _ => true
  | .lehrArchiveGroup _ => true
  | .batchCloseTime _ => true
  | .keyChange _ => true
  | .pageFlush _ => true
  | .ringFull _ => true
  | .lehrProof _ => true
  | .lehrVerify _ => true
  | .fetch r => rangeOk r
  | .ackDiscard r => rangeOk r
  | .balanceFeed _ => true
  | .closeTick _ => true
  | .treeCommit _ => true
  | .balanceRebuild _ => true
  | .gridChangeTick _ => true
  | .syncReset _ _ => true
  | .metroResync _ => true
  | .blockEnd _ v1 v2 v3 i1 i2 i3 inVx =>
    [v1, v2, v3, i1, i2, i3, inVx.1, inVx.2].all fun l => decide (l.length = 1088) && l.all fun c => decide (c.natAbs < 2 ^ 23)
  | .secondUpdate _ _ _ first1 last1 _ first2 last2 => decide (first1 ≤ last1) && decide (first2 ≤ last2)
  | .minuteRecord _ => true
  | .localReading _ => true
  | .sealAssert _ => true
  | .sealRelease _ => true
  | .calCommit o => decide (o.cut ≤ 2)
  | .regRestore o => decide (o.cut ≤ 2)
  | .magRead _ v => magOk v
  | .sensorRetry _ _ v => magOk [v]
  | .localRelayCmd _ _ c => fits 8 c
  | .relayPulseEnd _ _ _ _ => true
  | .relayFeedbackChange _ _ _ => true
  | .relayConfirmTimeout _ _ => true
  | .dispLine _ => true
  | .ephCalCommit _ => true
  | .calendarActivate _ => true
  | .billingApply _ => true
  | .clockEvent _ => true
  | .splitExpire _ => true
  | .profileWrite _ off data => blockOk 1024 off data
  | .topup _ => true
  | .confirmHeld _ => true
  | .prepayEvaluate _ => true
  | .ephRelayCmd _ c => fits 8 c
  | .relayCheckGet _ slot => fits 18 slot
  | .relayConfirmExpiry _ slot => fits 18 slot
  | .relayAudit _ slot => fits 18 slot
  | .flagsClear _ mask => fits 32 mask
  | .ephDownlinkApdu _ => true
  | .ephResponse _ f => frameOk f
  | .responseTimeout _ slot inv => fits 18 slot && fits 8 inv
  | .calendarPush _ slot => fits 18 slot
  | .pushLoad _ => true
  | .pushStart _ => true
  | .pushPause _ => true
  | .pushActivate _ => true
  | .pushCancel _ => true
  | .pushAdd _ => true
  | .pushMemberStep _ slot => fits 18 slot
  | .multicastRound _ => true
  | .fillPass _ slot => fits 18 slot
  | .plcFrameRx _ p _ => phyOk p
  | .plcTransmit _ _ _ _ _ route => route.all (fits 16)
  | .zcEdge _ => true
  | .zcLost _ => true
  | .join _ eui _ => fits 64 eui
  | .plcModeSwitch _ => true
  | .pollCycleStart _ => true
  | .collectionRequest _ slot => fits 18 slot
  | .cycleBeacon _ => true
  | .cap _ p _ => phyOk p
  | .mapReq _ p _ => phyOk p
  | .mapRsp _ p _ => phyOk p
  | .mapRefresh _ a => fits 16 a
  | .neighReport _ p _ => phyOk p
  | .phaseQuery _ => true
  | .routeRecompute _ => true
  | .rfFrameRx _ _ _ psdu => decide (psdu.length ≤ 2047)
  | .rfPoll _ _ _ psdu => decide (psdu.length ≤ 2047)
  | .rfDownlink _ _ => true
  | .pendingExpire _ slot => fits 18 slot
  | .rfCollection _ slot => fits 18 slot
  | .dutyBucket _ => true
  | .frameAdmit _ _ _ _ _ _ => true
  | .frameDispatch _ _ => true
  | .creditReturn _ _ _ => true
  | .creditCheck _ _ _ => true
  | .linkUp _ _ => true
  | .linkLost _ _ => true
  | .holdExpiry _ _ => true
  | .portDisable _ _ value => fits 8 value
  | .helloReq _ _ _ => true
  | .helloRsp _ _ _ => true
  | .handshakeTimeout _ _ => true
  | .resume _ _ _ => true
  | .verifyTimeout _ _ => true
  | .keepalive _ _ => true
  | .satDead _ _ => true
  | .sessionReset _ => true
  | .downRsp _ _ _ => true
  | .hello _ peer m => peerOk peer && msgOk m
  | .auth _ peer m => peerOk peer && msgOk m
  | .get _ peer m => peerOk peer && msgOk m
  | .set _ peer m => peerOk peer && msgOk m
  | .getBlock _ peer m => peerOk peer && msgOk m
  | .setBlock _ peer m => peerOk peer && msgOk m
  | .subscribe _ peer m => peerOk peer && msgOk m
  | .unsubscribe _ peer m => peerOk peer && msgOk m
  | .exec _ peer m => peerOk peer && msgOk m
  | .close _ peer m => peerOk peer && msgOk m
  | .notify target stream => fits 8 target && decide (stream ≤ 1)
  | .watchCompare session sub => fits 32 session && fits 32 sub
  | .noSession _ peer type m => fits 8 type && peerOk peer && msgOk m
  | .sessionIdle session => fits 32 session
  | .sessionEnd => true
  | .stagingLockTimeout index sub => fits 16 index && fits 8 sub
  | .laneDown _ _ => true
  | .laneRevert => true
  | .serialFrame frame => decide (frame.length ≤ 2 * 1455)
  | .ptpSync _ sender _ _ => fits 8 sender.domain && decide (sender.port.length = 10)
  | .pdelay _ _ _ _ _ => true
  | .ppsEdge _ _ => true
  | .todMessage _ => true
  | .meridianMeasurement _ => true
  | .referenceLoss _ => true
  | .leapSecond => true
  | .restep params => decide (params.length ≤ 1024)
  | .restepTimeout => true
  | .toutEdge _ => true
  | .ptpMasterTx _ _ _ => true
  | .meterClockCheck _ slot => fits 18 slot
  | .vaultEnrol _ => true
  | .bayOffer _ => true
  | .bayOfferExpiry _ => true
  | .goField _ => true
  | .vaultErase _ => true
  | .debugUnlock _ => true
  | .debugChallenge _ => true
  | .vaultRetire _ => true
  | .vaultImport _ => true
  | .archiveRotate _ => true
  | .hostRekey => true
  | .certWrite _ _ off data => blockOk 1024 off data
  | .anchorWrite _ off data => blockOk 1024 off data
  | .drbgReseed _ => true
  | .healthFail _ => true
  | .drbgReady _ => true
  | .roleAssign _ => true
  | .preferredTimeout _ => true
  | .heartbeat _ => true
  | .heartbeatLoss _ => true
  | .promotion _ _ => true
  | .bayPromote _ force => fits 8 force
  | .clearFault _ odd => fits 8 odd
  | .mirrorItem _ _ => true
  | .mirrorFrameLost _ => true
  | .standbyDrain _ => true
  | .standbyWake _ => true
  | .auditCheck _ _ => true
  | .tieBreak _ _ _ => true
  | .tieBreakTimeout _ => true
  | .resync _ => true
  | .bayModeChange _ mode => fits 8 mode
  | .powerRequestRun _ => true
  | .powerRequestHold _ => true
  | .powerRequestRetain _ => true
  | .powerRequestIsolated _ => true
  | .powerRequestOff _ => true
  | .idleEntry _ => true
  | .isolation _ => true
  | .wakeEvent _ => true
  | .wake _ => true
  | .regulatorAck _ mv status => fits 16 mv && fits 16 status
  | .regulatorAckTimeout _ => true
  | .pmbAlert words => wordsOk words
  | .statusPoll words => wordsOk words
  | .pfailAssert _ mv rails => fits 16 mv && fits 8 rails
  | .pfailRelease mv => fits 16 mv
  | .bankBudgetFree _ => true
  | .energySettingWrite _ _ value rights => fits 16 value && decide (rights ≤ 4)
  | .vanaOutOfRange _ _ => true
  | .mediaFormat _ => true
  | .relocation _ => true
  | .programFail _ _ => true
  | .eraseComplete _ _ => true
  | .patrol _ pb page _ _ _ => fits 16 pb && fits 16 page
  | .wearLevel _ => true
  | .mapJournalPage _ => true
  | .keystoreCompact _ => true
  | .temperatureSample _ _ => true
  | .queueWrite _ code item => itemOk code item
  | .queueRead _ _ => true
  | .wmStatusRead _ _ => true
  | .rcCounterRead index sub => fits 16 index && fits 8 sub
  | .eventLog _ => true
  | .eventsReadBlock _ => true
  | .legalEvent _ code _ => fits 16 code
  | .legalAck _ lseq tag => fits 32 lseq && decide (tag.length = 16)
  | .diagUnlock bays secs => fits 8 bays && fits 32 secs
  | .diagLock bays => fits 8 bays
  | .unlockExpiry _ => true
  | .egressDelay _ rec => decide (rec.length = 16)
  | .creditStarve _ rec => decide (rec.length = 16)
  | .nandFail _ rec => decide (rec.length = 16)
  | .lostInject _ rec => decide (rec.length = 16)
  | .mirrorDelay _ rec => decide (rec.length = 16)
  | .pmbusDelay _ rec => decide (rec.length = 16)
  | .auditMismatch _ rec => decide (rec.length = 16)
  | .mirrorLost _ rec => decide (rec.length = 16)
  | .controlDisarm _ _ _ => true
  | .controlExpiry _ _ _ => true
  | .restoreDefaults mask => fits 16 mask
  | .dictDescribe => true
  | .entryWrite target index sub _ rights => fits 8 target && fits 16 index && fits 8 sub && decide (rights ≤ 4)
  | .wakeOrderTimeout _ => true
  | .tileStatusReport _ => true
  | .serialTileTimeout => true
  | .restepEntryExpiry _ => true
  | .drbgStartTimeout _ => true
  | .treeTakesEffect _ => true
  | .imageActivateTime _ => true
  | .activatingTimeout _ slot => fits 18 slot
  | .dwellBucket _ _ => true
  | .plcDutyFree _ => true
  | .mapSetDrop _ a => fits 16 a
  | .ptpAnnounce _ sender gm prio1 cls acc var prio2 steps src _ _ _ => fits 8 sender.domain && decide (sender.port.length = 10) && decide (gm.length = 8) && fits 8 prio1 && fits 8 cls && fits 8 acc && fits 16 var && fits 8 prio2 && fits 16 steps && fits 8 src
  | .pageProgramComplete _ => true

end Sys2Proof
end

