-- ==== Sys2Proof/Certificates/Slice0/Obligations.lean ====
section
/-! DEFINITION. Obligations.lean: the statements about the block, for the provers. Most say of some commands that they complete, on hypotheses about the state and
the operands alone, and what the next state holds then; the first four say what a step is, what every step keeps and what commands leave alone. `State.done` is the
state after the effect of a command: the queue and the clock count stay, changed settings go to the NAND queues, the gated pins are formed anew. -/

open Sys2Proof Sys2Proof.Machine

/-- A step carries out the command at the front of the queue on the state with the rest of the queue; on an empty queue the block idles, and one microsecond
passes (the model's choice: notes/assumptions/5.md). -/
def Obligations.StepRunsFront : Prop :=
  (∀ (s : State) (c : Instr) (rest : List Instr), s.pending = c :: rest → step s = exec c { s with pending := rest }) ∧
  (∀ s : State, s.pending = [] → ∃ x, step s = .next x ∧ x.pending = [] ∧ x.now = s.now + 1000)

/-- After reset no command waits, the Pier is in reset with VSYS absent, every entry of the dictionary reads its default, no tile owns its bay or drives a field
ball, every domain is OFF, and the gates agree with the state. That the machine begins with VSYS absent and as shipped is the model's choice
(notes/assumptions/6.md). Rules R31, R33, R602. -/
def Obligations.ResetState : Prop :=
  State.reset.pending = [] ∧ State.reset.pier.up = false ∧ State.reset.pier.vsysMv = 0 ∧ (∀ (e : Entry) (n i : Nat), State.reset.rd e n i = e.dflt.numAt i) ∧
    (∀ t : TileId, State.reset.ownLevel t = false ∧ State.reset.fieldLevel t = none ∧ (State.reset.tile t).power.st = .off) ∧
    State.reset.gated ∧ State.reset.oneOwner ∧ State.reset.fieldGated

/-- Every command completes in every state, with every operand: none stops. It leaves the queue of commands and the clock count as they are. -/
def Obligations.CommandsComplete : Prop :=
  ∀ (c : Instr) (s : State), ∃ x, exec c s = .next x ∧ x.pending = s.pending ∧ x.now = s.now

/-- After every step the levels of BAY_OWN, of the field balls, of TOUT and of PFAIL_N are the ones the state gives; the two BAY_OWN pins of a redundant bay are
never both high; a tile drives its field balls only while its BAY_OWN is high and its domain runs, and drives TXEN and PAEN low while PFAIL_N is low. Rules
R31, R32, R33, R488, R547. -/
def Obligations.StepKeepsGates : Prop :=
  ∀ s x : State, step s = .next x → x.gated ∧ x.oneOwner ∧ x.fieldGated

/-- At power-on the Pier comes up with its enumeration due, not DEGRADED; a brown-out takes the Pier down, every bay to its initial state, cause 1; SYS_RST_N
restarts the Pier with its clock selection begun anew; the reset action is answered OK and set for 10 ms later. Where the manual leaves a point of it open,
the choice is the model's: notes/assumptions/33.md. Rules R547, R602, R603. -/
def Obligations.DeviceResets : Prop :=
  (∀ (s : State) (present : Nat) (lost : List Nat), s.pier.up = false →
    ∃ x, exec (.powerOn present lost) s = .next x ∧ x.pier.up = true ∧ x.pier.upSince = s.now ∧ x.pier.board = present % 65536 ∧ x.pier.enumDue = true ∧ x.pier.degraded = false ∧
      x.out = s.out) ∧
  (∀ s : State, ∃ x, exec .brownOut s = .next x ∧ x.pier.up = false ∧ x.pier.vsysMv = 0 ∧ (∀ b : BayId, x.bay b = Bay.init) ∧ x.rd Reg.device_reset_cause 0 = 1) ∧
  (∀ (s : State) (present : Nat) (lost : List Nat), s.pier.up = true →
    ∃ x, exec (.sysRstN present lost) s = .next x ∧ x.pier.up = true ∧ x.pier.upSince = s.now ∧ x.pier.clock = .select ∧ x.pier.degraded = false) ∧
  (∀ s : State, ∃ x, exec .deviceReset s = .next x ∧ x.pier.resetAt = some (s.now + 10000000) ∧ x.out = s.out ++ [.answer 255 .ok] ∧ (∀ u, x.vol u = s.vol u))

/-- A first window with 24 000 to 27 200 edges selects REFCLK, any other the RC oscillator; on the RC oscillator the hundredth passing window in a row selects
REFCLK and counts a switch, a failing one starts the count again; a loss of REFCLK selects the RC oscillator and counts a switch. The first window also begins
the PMBus enumeration; without REFCLK every tile that runs stops. Rules R18, R19. -/
def Obligations.ClockSelection : Prop :=
  (∀ (s : State) (edges : Nat), s.pier.up = true → s.pier.clock = .select → 24000 ≤ edges → edges ≤ 27200 →
    ∃ x, exec (.qualificationWindow edges) s = .next x ∧ x.pier.clock = .onRefclk ∧ x.rd Reg.pier_clock_source 0 = 0) ∧
  (∀ (s : State) (edges : Nat), s.pier.up = true → s.pier.clock = .select → edges < 24000 ∨ 27200 < edges →
    ∃ x, exec (.qualificationWindow edges) s = .next x ∧ x.pier.clock = .onRc ∧ x.rd Reg.pier_clock_source 0 = 1) ∧
  (∀ (s : State) (edges : Nat), s.pier.up = true → s.pier.clock = .onRc → s.pier.passCount = 99 → 24000 ≤ edges → edges ≤ 27200 →
    s.rd Reg.pier_clock_switches 0 + 1 < Reg.pier_clock_switches.span →
    ∃ x, exec (.qualificationWindow edges) s = .next x ∧ x.pier.clock = .onRefclk ∧ x.rd Reg.pier_clock_source 0 = 0 ∧
      x.rd Reg.pier_clock_switches 0 = s.rd Reg.pier_clock_switches 0 + 1) ∧
  (∀ (s : State) (edges : Nat), s.pier.up = true → s.pier.clock = .onRc → edges < 24000 ∨ 27200 < edges →
    ∃ x, exec (.qualificationWindow edges) s = .next x ∧ x.pier.clock = .onRc ∧ x.pier.passCount = 0) ∧
  (∀ s : State, s.pier.clock = .onRefclk → s.rd Reg.pier_clock_switches 0 + 1 < Reg.pier_clock_switches.span →
    ∃ x, exec .refclkLoss s = .next x ∧ x.pier.clock = .onRc ∧ x.pier.passCount = 0 ∧ x.rd Reg.pier_clock_source 0 = 1 ∧
      x.rd Reg.pier_clock_switches 0 = s.rd Reg.pier_clock_switches 0 + 1) ∧
  (∀ (s : State) (edges : Nat), s.pier.up = true → s.pier.clock = .onRc → s.pier.passCount + 1 < 100 → 24000 ≤ edges → edges ≤ 27200 →
    ∃ x, exec (.qualificationWindow edges) s = .next x ∧ x.pier.clock = .onRc ∧ x.pier.passCount = s.pier.passCount + 1 ∧ x.regs = s.regs ∧ x.out = s.out) ∧
  (∀ (s : State) (edges : Nat), s.pier.up = true → s.pier.clock = .select → s.pier.enumDue = true → s.pier.board < 65536 →
    ∃ x, exec (.qualificationWindow edges) s = .next x ∧ x.pier.enumDue = false ∧ x.pier.present = s.pier.board ∧ x.rd Reg.device_pmbus_present 0 = s.pier.board ∧
      x.pier.bootAt = s.now ∧ x.out = s.out) ∧
  (∀ s : State, s.pier.clock ≠ .onRefclk →
    exec .refclkLoss s = .next (s.done (s.each allTiles fun y t =>
      if y.inRun t then (((stopTile y t).wr Reg.status_missing t 0x1F).settleService t).followTile t else y)))

/-- Each miscompare is counted and its instant kept, and the copies reload; the third within one second makes the Pier DEGRADED, and its pending PMBus
transactions are dropped. Rules R21, R22. -/
def Obligations.Lockstep : Prop :=
  (∀ s : State, s.pier.up = true → s.pier.misc = [] → s.rd Reg.pier_lockstep_miscompares 0 + 1 < Reg.pier_lockstep_miscompares.span →
    ∃ x, exec .lockstepMiscompare s = .next x ∧ x.rd Reg.pier_lockstep_miscompares 0 = s.rd Reg.pier_lockstep_miscompares 0 + 1 ∧ x.pier.misc = [s.now] ∧
      x.pier.degraded = s.pier.degraded) ∧
  (∀ (s : State) (a b : Nat), s.pier.up = true → s.pier.degraded = false → s.pier.misc = [a, b] → s.now < a + 1000000000 → s.now < b + 1000000000 →
    ∃ x, exec .lockstepMiscompare s = .next x ∧ x.pier.degraded = true ∧ x.pier.pmb = [] ∧ x.pier.pmbFlight = none ∧ x.rd Reg.pier_lockstep_state 0 = 2 ∧
      x.pier.misc = [a, b, s.now]) ∧
  (∀ s : State, s.pier.up = true → s.pier.degraded = true ∨ (s.pier.misc.filter fun x => decide (s.now < x + 1000000000)).length < 2 →
    s.rd Reg.pier_lockstep_miscompares 0 + 1 < Reg.pier_lockstep_miscompares.span →
    ∃ x, exec .lockstepMiscompare s = .next x ∧ x.rd Reg.pier_lockstep_miscompares 0 = s.rd Reg.pier_lockstep_miscompares 0 + 1 ∧
      x.pier.misc = (s.pier.misc.filter fun x => decide (s.now < x + 1000000000)) ++ [s.now] ∧ x.pier.degraded = s.pier.degraded ∧ x.pier.pmbFlight = none ∧
      (s.pier.degraded = false → x.rd Reg.pier_lockstep_state 0 = 1) ∧ x.bays = s.bays ∧ x.out = s.out) ∧
  (∀ s : State, s.pier.up = true → s.pier.degraded = false → 2 ≤ (s.pier.misc.filter fun x => decide (s.now < x + 1000000000)).length →
    ∃ x, exec .lockstepMiscompare s = .next x ∧ x.pier.degraded = true ∧ x.rd Reg.pier_lockstep_state 0 = 2 ∧
      x.pier.misc = (s.pier.misc.filter fun x => decide (s.now < x + 1000000000)) ++ [s.now])

/-- The next tile of the boot plan enters WAKING and its reset time is now; the boot ROM's first step begins the start of the random source, and a trained DRAM
clears bit 2 of MISSING; the watchdog and a trial not confirmed in time reset the tile with causes 5 and 8. A step of the boot follows the one before: the
decision of the boot ROM, the vault's start, the mount, the load that ends it. Where the manual leaves a point of it open, the choice is the model's:
notes/assumptions/23.md, notes/assumptions/37.md. Rules R604, R605, R611, R613. -/
def Obligations.TileBoot : Prop :=
  (∀ (s : State) (t : TileId) (r : List Nat), s.pier.bootQueue = t.val :: r → s.pier.bootAt ≤ s.now → s.pier.degraded = false → s.pier.pfail = false → (s.tile t).power.st = .off →
    ∃ x, exec .tilePowerUp s = .next x ∧ (x.tile t).power.st = .waking ∧ (x.tile t).power.step = 1 ∧ (x.tile t).upSince = s.now ∧
      x.rd Reg.device_fw_tile_phase 0 t = 1) ∧
  (∀ (s : State) (t : TileId) (trained : Bool) (how legal : Nat), s.inRun t = true → s.pier.up = true → (s.vol t).boot.step = 0 → s.pier.clock = .onRefclk →
    ∃ x, exec (.tileBoot t trained ⟨how, legal⟩) s = .next x ∧ (x.vol t).boot.step = 1 ∧ (x.vol t).vault.drbgTry = some s.now) ∧
  (∀ (s : State) (t : TileId) (how legal : Nat), s.inRun t = true → s.pier.up = true → (s.vol t).boot.step = 3 →
    ∃ x, exec (.tileBoot t true ⟨how, legal⟩) s = .next x ∧ (x.vol t).boot.step = 4 ∧ x.rd Reg.status_missing t = setBit (s.rd Reg.status_missing t) 2 false % 256 ∧
      x.rd Reg.media_state t = 1) ∧
  (∀ (s : State) (t : TileId) (d : Nat), (s.vol t).boot.dogEnd = some d → d ≤ s.now → s.inRun t = true →
    exec (.watchdog t) s = .next (s.done ((s.tileReset t 5).pierEvent t 2 0x1D05))) ∧
  (∀ (s : State) (t : TileId) (d : Nat), (s.vol t).boot.trialEnd = some d → d ≤ s.now → s.inRun t = true →
    exec (.trialTimeout t) s = .next (s.done (s.tileReset t 8))) ∧
  (∀ (s : State) (t : TileId) (trained : Bool) (how legal : Nat), s.inRun t = true → s.pier.up = true → (s.vol t).boot.step = 1 → s.rd Reg.device_fw_tile_phase 0 t ≠ 2 →
    exec (.tileBoot t trained ⟨how, legal⟩) s = .next (s.done (s.bootRom t))) ∧
  (∀ (s : State) (t : TileId) (trained : Bool) (how legal : Nat), s.inRun t = true → s.pier.up = true → (s.vol t).boot.step = 2 →
    ∃ x, exec (.tileBoot t trained ⟨how, legal⟩) s = .next x ∧ (x.vol t).boot.step = 3 ∧ x = s.done (((s.vaultStart t).settleRoot t).onBoot t fun b => { b with step := 3 })) ∧
  (∀ (s : State) (t : TileId) (trained : Bool) (how legal : Nat), s.inRun t = true → s.pier.up = true → (s.vol t).boot.step = 4 →
    ∃ x, exec (.tileBoot t trained ⟨how, legal⟩) s = .next x ∧ (x.vol t).boot.step = 5 ∧ x = s.done (((s.mount t how).takeDefs t).onBoot t fun b => { b with step := 5 })) ∧
  (∀ (s : State) (t : TileId) (trained : Bool) (how legal : Nat), s.inRun t = true → s.pier.up = true → (s.vol t).boot.step = 5 → s.drbgReady t = true →
    exec (.tileBoot t trained ⟨how, legal⟩) s =
      .next (s.done ((((s.bootLoad t legal).onBoot t fun b => { b with step := 6 }).wr Reg.device_fw_tile_phase 0 4 t).followTile t)))

/-- A begin empties the bank and takes the length; a write puts its bytes in and no others; a commit whose digest agrees makes the bank PENDING with the image's
version; a reset of the tile is set for 10 ms after the answer; a legal install counts the seal and takes the image's version; a trial of the running bank is
confirmed by the firmware's own condition or by command, and no longer ends. Where the manual leaves a point of it open, the choice is the model's:
notes/assumptions/20.md, notes/assumptions/37.md. Rules R611, R617, R621, R624. -/
def Obligations.Staging : Prop :=
  (∀ (s : State) (t : TileId) (bank : Fin 2) (len : Nat), s.takesStaging t = true → (s.vol t).boot.running ≠ some bank.val → 0 < len → len ≤ 4194304 →
    (s.vol t).boot.stageUntil ≤ s.now →
    ∃ x, exec (.stageBegin t bank len) s = .next x ∧ (x.tile t).code.bank bank = [] ∧ (x.tile t).code.len bank = len ∧ x.rd Reg.fw_last_result t = 0 ∧
      x.out = s.out ++ [.answer t .ok]) ∧
  (∀ (s : State) (t : TileId) (bank : Fin 2) (off : Nat) (data : Bytes), s.takesStaging t = true → (s.vol t).boot.running ≠ some bank.val →
    (s.tile t).code.record.st bank = 1 → data.length ≤ 1024 → off + data.length ≤ (s.tile t).code.len bank →
    (∀ k, s.lockOf ((if bank = 0 then Reg.fw_bank_a else Reg.fw_bank_b).key t 0) = some k → k = 0) →
    ∃ x, exec (.bankWrite t bank off data) s = .next x ∧ x.out = s.out ++ [.answer t .ok] ∧
      x.lockOf ((if bank = 0 then Reg.fw_bank_a else Reg.fw_bank_b).key t 0) = some 0 ∧
      ∀ k, Cells.read (fun _ => 0) ((x.tile t).code.bank bank) k =
        if off ≤ k ∧ k < off + data.length then data.getD (k - off) 0 else Cells.read (fun _ => 0) ((s.tile t).code.bank bank) k) ∧
  (∀ (s : State) (t : TileId) (digest : Bytes), s.takesStaging t = true → (s.vol t).boot.running = none → (s.tile t).code.record.st 0 = 1 → digest.length = 48 →
    Crypto.sha384 (cellBytes ((s.tile t).code.bank 0) 0 ((s.tile t).code.len 0)) = digest →
    ∃ x, exec (.stageCommit t digest) s = .next x ∧ x.rd Reg.fw_last_result t = 0 ∧ x.out = s.out ++ [.answer t .ok] ∧
      (x.tile t).code = (s.tile t).code.writeRecord (((s.tile t).code.record.setSt 0 2).setVer 0 (imgF ((s.tile t).code.bank 0) 8 4))) ∧
  (∀ (s : State) (t : TileId), s.takesStaging t = true → s.legalRuns t = false →
    ∃ x, exec (.tileFwReset t 1) s = .next x ∧ (x.vol t).boot.resetAt = some (s.now + 10000000, 4) ∧ x.rd Reg.fw_last_result t = 0 ∧
      x.out = s.out ++ [.answer t .ok]) ∧
  (∀ (s : State) (t : TileId), s.takesStaging t = true → (s.bay (bayOf t)).legalEn = true → s.legalRuns t = false → s.legalImage (s.tile t).code.legalStage = true →
    (s.tile t).code.record.legalFloor ≤ imgF (s.tile t).code.legalStage 0x0C 4 → s.rd Reg.metro_seal_count t < 65535 → s.legalFull t = false →
    ∃ x, exec (.legalInstall ⟨t, 0⟩) s = .next x ∧ x.rd Reg.metro_seal_count t = s.rd Reg.metro_seal_count t + 1 ∧
      x.rd Reg.fw_legal_version t = imgF (s.tile t).code.legalStage 8 4 % 2 ^ 32 ∧ x.rd Reg.fw_last_result t = 0 ∧ x.out = s.out ++ [.answer t .ok]) ∧
  (∀ (s : State) (t : TileId) (b : Nat), (s.vol t).boot.running = some b → (s.tile t).code.record.st b = 3 → s.rd Reg.status_missing t % 16 = 0 →
    ∃ x, exec (.trialConfirm t) s = .next x ∧ (x.vol t).boot.trialEnd = none ∧ (x.vol t).boot.running = some b) ∧
  (∀ (s : State) (t : TileId) (b : Nat), (s.vol t).boot.running = some b → (s.tile t).code.record.st b = 3 → s.takesStaging t = true →
    ∃ x, exec (.fwConfirm t) s = .next x ∧ (x.vol t).boot.trialEnd = none ∧ x.rd Reg.fw_last_result t = 0 ∧ x.out = s.out ++ [.answer t .ok]) ∧
  (∀ (s : State) (t : TileId) (digest : Bytes) (b : Nat), s.takesStaging t = true → (∀ k, (s.vol t).boot.running = some k → (s.tile t).code.record.st k ≠ 3) →
    ([0, 1].find? fun k => decide ((s.tile t).code.record.st k = 1) && decide ((s.vol t).boot.running ≠ some k)) = some b → digest.length = 48 →
    Crypto.sha384 (cellBytes ((s.tile t).code.bank b) 0 ((s.tile t).code.len b)) = digest →
    ∃ x, exec (.stageCommit t digest) s = .next x ∧ x.rd Reg.fw_last_result t = 0 ∧ x.out = s.out ++ [.answer t .ok] ∧
      (x.tile t).code = (s.tile t).code.writeRecord (((s.tile t).code.record.setSt b 2).setVer b (imgF ((s.tile t).code.bank b) 8 4))) ∧
  (∀ (s : State) (t : TileId) (force : Nat), s.takesStaging t = true → (s.role t = 0 → force = 1) → s.legalRuns t = false →
    ∃ x, exec (.tileFwReset t force) s = .next x ∧ (x.vol t).boot.resetAt = some (s.now + 10000000, 4) ∧ x.rd Reg.fw_last_result t = 0 ∧
      x.out = s.out ++ [.answer t .ok]) ∧
  (∀ (s : State) (t : TileId) (b : Nat), (s.vol t).boot.running = some b → s.takesStaging t = true →
    ∃ x, exec (.fwConfirm t) s = .next x ∧ x.rd Reg.fw_last_result t = 0 ∧ x.out = s.out ++ [.answer t .ok])

/-- A write of mode or wiring that is permitted is stored and answered OK; mode 1 while the wiring reads 0, and wiring 0 while the mode reads 1, are refused with
CONFLICT and the stored value is left. Rules R25. -/
def Obligations.BayModeWrite : Prop :=
  (∀ (s : State) (b : BayId) (v : Nat), v ≤ 1 → v = 0 ∨ s.rd Reg.bay_wiring b ≠ 0 →
    ∃ x, exec (.bayModeWrite b false v) s = .next x ∧ x.rd Reg.bay_mode b = v ∧ x.out = s.out ++ [.answer (128 + b) .ok] ∧ x.bays = s.bays) ∧
  (∀ (s : State) (b : BayId) (v : Nat), v ≤ 1 → v = 1 ∨ s.rd Reg.bay_mode b ≠ 1 →
    ∃ x, exec (.bayModeWrite b true v) s = .next x ∧ x.rd Reg.bay_wiring b = v ∧ x.out = s.out ++ [.answer (128 + b) .ok] ∧ x.bays = s.bays) ∧
  (∀ (s : State) (b : BayId), s.rd Reg.bay_wiring b = 0 →
    ∃ x, exec (.bayModeWrite b false 1) s = .next x ∧ x.rd Reg.bay_mode b = s.rd Reg.bay_mode b ∧ x.out = s.out ++ [.answer (128 + b) .conflict]) ∧
  (∀ (s : State) (b : BayId), s.rd Reg.bay_mode b = 1 →
    ∃ x, exec (.bayModeWrite b true 0) s = .next x ∧ x.rd Reg.bay_wiring b = s.rd Reg.bay_wiring b ∧ x.out = s.out ++ [.answer (128 + b) .conflict])

/-- An accepted enrolment puts the record IN_SERVICE in one step under a new MIDX generation, without a short address; an accepted edit puts the edited record in
under the next update count; either orders one acknowledgement. An action that finds another running waits behind it. Where the manual leaves a point of it
open, the choice is the model's: notes/assumptions/32.md. Rules R60, R61, R690. -/
def Obligations.MeterEnrolment : Prop :=
  (∀ (s : State) (t : TileId) (midx mode : Nat), fld (s.staging t) 0x100 4 = midx → fld (s.staging t) 0x104 1 = mode → s.actionRuns t = false → s.serves t = true → mode ≤ 1 →
    leNat ((s.staging t).drop 0x105) = 0 → s.ownMidx t midx = true → (s.meter t (midxSlot midx)).state = 0 →
    imageCheck s t (MeterRec.parse (s.staging t)) mode (2 ^ 22) = none → (s.tile t).media.journalFull = false →
    (s.hashEnter t midx (enrolRecord s t (MeterRec.parse (s.staging t)) (s.meter t (midxSlot midx)) mode).ids).2 = true →
    ∃ x, exec (.metersEnrol t) s = .next x ∧ (x.meter t (midxSlot midx)).state = 1 ∧
      (x.meter t (midxSlot midx)).midxGen = ((s.meter t (midxSlot midx)).midxGen + 2 ^ 22) % 2 ^ 32 ∧ (x.meter t (midxSlot midx)).shortAddr = 0xFFFF ∧
      (x.vol t).meters.pend.length = (s.vol t).meters.pend.length + 1 ∧ x.out = s.out) ∧
  (∀ (s : State) (t : TileId) (midx : Nat), fld (s.staging t) 0x100 4 = midx → s.actionRuns t = false → slotAction s t (s.staging t) true [1] = none →
    imageCheck s t (MeterRec.parse (s.staging t)) 0 midx = none →
    ((s.hashRemove t midx).hashEnter t midx (editRecord s t (MeterRec.parse (s.staging t)) (s.meter t (midxSlot midx))).ids).2 = true →
    ∃ x, exec (.metersEdit t) s = .next x ∧
      x.meter t (midxSlot midx) = { editRecord s t (MeterRec.parse (s.staging t)) (s.meter t (midxSlot midx)) with
        updCnt := ((s.meter t (midxSlot midx)).updCnt + 1) % 2 ^ 32 } ∧
      (x.vol t).meters.pend.length = (s.vol t).meters.pend.length + 1 ∧ x.out = s.out) ∧
  (∀ (s : State) (t : TileId), s.actionRuns t = true →
    ∃ x, exec (.metersEnrol t) s = .next x ∧ (x.vol t).meters.waits = (s.vol t).meters.waits ++ [(.enrol, s.staging t, { frees := [Reg.meters_staging.key t 0] })] ∧
      (x.vol t).meters.recs = (s.vol t).meters.recs ∧ x.regs = s.regs ∧ x.out = s.out) ∧
  (∀ (s : State) (t : TileId), s.actionRuns t = true →
    ∃ x, exec (.metersEdit t) s = .next x ∧ (x.vol t).meters.waits = (s.vol t).meters.waits ++ [(.edit, s.staging t, { frees := [Reg.meters_staging.key t 0] })] ∧
      (x.vol t).meters.recs = (s.vol t).meters.recs ∧ x.regs = s.regs ∧ x.out = s.out)

/-- A move-out makes the state MOVING_OUT, a retirement RETIRED, and both take the meter's identities out of the hash table; the keys of a retired meter go with
its acknowledgement, after the drain; a release frees the record and its counter ceiling; each orders one acknowledgement, or waits while another action runs.
Where the manual leaves a point of it open, the choice is the model's: notes/assumptions/32.md. Rules R60, R64, R65, R66. -/
def Obligations.MeterLeaving : Prop :=
  (∀ (s : State) (t : TileId) (midx : Nat), fld (s.staging t) 0x100 4 = midx → s.actionRuns t = false → s.serves t = true → s.ownMidx t midx = true →
    (s.meter t (midxSlot midx)).state = 1 → (s.tile t).media.journalFull = false → (s.meter t (midxSlot midx)).creditHeld = 0 →
    (s.meter t (midxSlot midx)).relayCmd = (s.meter t (midxSlot midx)).relayRpt →
    ∃ x, exec (.metersMoveOut t) s = .next x ∧ (x.meter t (midxSlot midx)).state = 2 ∧ (∀ e ∈ (x.vol t).meters.hash, e.midx ≠ midx) ∧
      (x.vol t).meters.pend.length = (s.vol t).meters.pend.length + 1 ∧ x.out = s.out) ∧
  (∀ (s : State) (t : TileId) (midx : Nat), fld (s.staging t) 0x100 4 = midx → s.actionRuns t = false → s.serves t = true → s.ownMidx t midx = true →
    (s.meter t (midxSlot midx)).state = 1 ∨ (s.meter t (midxSlot midx)).state = 2 → (s.tile t).media.journalFull = false →
    ∃ x, exec (.metersRetire t) s = .next x ∧ (x.meter t (midxSlot midx)).state = 3 ∧
      (x.vol t).meters.pend.getLast?.map (fun p => (p.slot, p.drain, p.keys)) = some (midxSlot midx, true, true) ∧
      (∀ e ∈ (x.vol t).meters.hash, e.midx ≠ midx) ∧ (x.vol t).meters.pend.length = (s.vol t).meters.pend.length + 1 ∧ x.out = s.out) ∧
  (∀ (s : State) (t : TileId) (midx : Nat), fld (s.staging t) 0x100 4 = midx → s.actionRuns t = false → s.serves t = true → s.ownMidx t midx = true →
    (s.meter t (midxSlot midx)).state = 2 ∨ (s.meter t (midxSlot midx)).state = 3 → (s.tile t).media.journalFull = false →
    ∃ x, exec (.metersRelease t) s = .next x ∧ x.meter t (midxSlot midx) = MeterRec.free (s.meter t (midxSlot midx)).midxGen ∧
      Tbl.get (x.vol t).meters.ceils (midxSlot midx) = none ∧ (x.vol t).meters.pend.length = (s.vol t).meters.pend.length + 1 ∧ x.out = s.out) ∧
  (∀ (s : State) (t : TileId), s.actionRuns t = true →
    ∃ x, exec (.metersMoveOut t) s = .next x ∧ (x.vol t).meters.waits = (s.vol t).meters.waits ++ [(.moveOut, s.staging t, { frees := [Reg.meters_staging.key t 0] })] ∧
      (x.vol t).meters.recs = (s.vol t).meters.recs ∧ x.regs = s.regs ∧ x.out = s.out) ∧
  (∀ (s : State) (t : TileId), s.actionRuns t = true →
    ∃ x, exec (.metersRetire t) s = .next x ∧ (x.vol t).meters.waits = (s.vol t).meters.waits ++ [(.retire, s.staging t, { frees := [Reg.meters_staging.key t 0] })] ∧
      (x.vol t).meters.recs = (s.vol t).meters.recs ∧ x.regs = s.regs ∧ x.out = s.out) ∧
  (∀ (s : State) (t : TileId), s.actionRuns t = true →
    ∃ x, exec (.metersRelease t) s = .next x ∧ (x.vol t).meters.waits = (s.vol t).meters.waits ++ [(.release, s.staging t, { frees := [Reg.meters_staging.key t 0] })] ∧
      (x.vol t).meters.recs = (s.vol t).meters.recs ∧ x.regs = s.regs ∧ x.out = s.out)

/-- A write of the class table whose 64 templates stay well formed and unused puts its bytes in; a checkpoint begun when due sets the next one; a journal page is
programmed 10 ms after its first entry; a record whose check failed is counted and set to be restored; the oldest acknowledgement is given once its journal
entry is durable and mirrored. A checkpoint copies the records that are ready; the restoration of a record ends with the record restored or marked damaged.
Where the manual leaves a point of it open, the choice is the model's: notes/assumptions/12.md, notes/assumptions/32.md. Rules R63, R65, R68, R70, R72, R689. -/
def Obligations.MeterStore : Prop :=
  (∀ (s : State) (t : TileId) (off : Nat) (data : Bytes), s.refusesConfig t = false → off + data.length ≤ 8192 →
    (∀ c < 64, templateOk ((s.wrB Reg.meters_class_table t off data).rdB Reg.meters_class_table t (128 * c) 128) = true) → (∀ c < 64, s.classUsed t c = true →
      templateFixed (s.rdB Reg.meters_class_table t (128 * c) 128) = templateFixed ((s.wrB Reg.meters_class_table t off data).rdB Reg.meters_class_table t (128 * c) 128)) →
    ∃ x, exec (.classTableWrite t off data) s = .next x ∧ x.rdB Reg.meters_class_table t off data.length = data ∧ x.out = s.out ++ [.answer t .ok] ∧
      x.pier = (s.answer t .ok).pier) ∧
  (∀ (s : State) (t : TileId), (s.vol t).meters.ckptRun = none → s.mayCheckpoint t = true → (s.vol t).meters.ckptNext ≤ s.now →
    ∃ x, exec (.checkpoint t) s = .next x ∧ (x.vol t).meters.ckptNext = s.now + s.rd Reg.meters_checkpoint_interval t * 1000000000 ∧
      (x.vol t).meters.recs = (s.vol t).meters.recs ∧ x.regs = s.regs ∧ x.out = s.out) ∧
  (∀ (s : State) (t : TileId) (i : Nat), (s.vol t).meters.jFirst = some i → 256 ≤ (s.vol t).meters.jPage.length ∨ i + 10000000 ≤ s.now →
    ∃ x, exec (.journalPageProgram t) s = .next x ∧ (x.vol t).meters.jPage = (s.vol t).meters.jPage.drop 256 ∧
      (x.tile t).media.jobs = (s.tile t).media.jobs ++ [((s.tile t).media.jobCount, .journal ((s.vol t).meters.jPage.take 256))] ∧ x.regs = s.regs) ∧
  (∀ (s : State) (t : TileId) (slot : Nat), (s.vol t).meters.restoring.contains slot = false →
    s.rd Reg.meters_record_errors t + 1 < Reg.meters_record_errors.span →
    ∃ x, exec (.recordRestore t slot false) s = .next x ∧ (x.vol t).meters.restoring = (s.vol t).meters.restoring ++ [slot] ∧
      x.rd Reg.meters_record_errors t = s.rd Reg.meters_record_errors t + 1 ∧ (x.meter t slot).checkGood = false) ∧
  (∀ (s : State) (t : TileId) (p : PendAct) (r : List PendAct), (s.vol t).meters.pend = p :: r → p.jpos ≤ (s.vol t).meters.jDone →
    s.mirrored t p.mirror = true → p.drain = false → p.topup = false →
    p.keys = false → (s.vol t).meters.waits = [] →
    ∃ x, exec (.meterActionAck t) s = .next x ∧ (x.vol t).meters.pend = r ∧ x.rd Reg.meters_last_result t = 0 ∧ x.out = s.out ++ [.answer t .ok]) ∧
  (∀ (s : State) (t : TileId), (s.vol t).meters.ckptRun = none → s.mayCheckpoint t = true →
    (s.vol t).meters.ckptNext ≤ s.now ∨ (s.tile t).media.journalFull = true →
    (∀ i ∈ Tbl.keys (s.vol t).meters.recs, (s.meter t i).billSeq = (s.meter t i).lastSeq) →
    ∃ x, exec (.checkpoint t) s = .next x ∧ (x.vol t).meters.ckptRun = none ∧ (x.tile t).media.jobs.length = (s.tile t).media.jobs.length + 1 ∧
      (x.vol t).meters.ckptNext = s.now + s.rd Reg.meters_checkpoint_interval t * 1000000000 ∧ (x.vol t).meters.recs = (s.vol t).meters.recs ∧
      x.regs = s.regs ∧ x.out = s.out) ∧
  (∀ (s : State) (t : TileId) (c : Machine.Checkpoint) (wait : List Nat), (s.vol t).meters.ckptRun = some (c, wait) →
    exec (.checkpoint t) s = .next (s.done (copyRecords s t c wait))) ∧
  (∀ (s y : State) (t : TileId) (p : PendAct) (r : List PendAct), (s.vol t).meters.pend = p :: r → p.jpos ≤ (s.vol t).meters.jDone → s.mirrored t p.mirror = true →
    (p.drain = true → s.idleMidx t (s.midxOf t p.slot) = true) → p.topup = false →
    y = (((if p.keys then (s.onMeters t fun m => { m with pend := r }).endKeys t p.slot else s.onMeters t fun m => { m with pend := r }).wr
      Reg.meters_last_result t 0).answerFor p.act t .ok) →
    exec (.meterActionAck t) s = .next (s.done (y.nextActions t (y.vol t).meters.waits))) ∧
  (∀ (s : State) (t : TileId) (p : PendAct) (r : List PendAct), (s.vol t).meters.pend = p :: r → p.jpos ≤ (s.vol t).meters.jDone → s.mirrored t p.mirror = true →
    (p.drain = true → s.idleMidx t (s.midxOf t p.slot) = true) → p.topup = true → s.serves t = true →
    exec (.meterActionAck t) s = .next (s.done (((s.onMeters t fun m => { m with pend := r }).acting p.act fun s => s.ephOk t).prepayEval t p.slot))) ∧
  (∀ (s : State) (t : TileId) (slot : Nat), (s.vol t).meters.restoring.contains slot = true →
    ∃ x, exec (.recordRestore t slot true) s = .next x ∧ (x.vol t).meters.restoring = (s.vol t).meters.restoring.filter (· != slot) ∧
      (x.vol t).meters.damaged = (s.vol t).meters.damaged.filter (· != slot) ++ [slot] ∧ x.regs = s.regs ∧ x.out = s.out) ∧
  (∀ (s : State) (t : TileId) (slot : Nat), (s.vol t).meters.restoring.contains slot = true →
    exec (.recordRestore t slot false) s = .next (s.done ((s.onMeters t fun m => { m with restoring := m.restoring.filter (· != slot) }).restoreMeter t slot)))

/-- An envelope of a session that parses is opened for its satellite; an inject opens its envelope under the next number, stored at P6 or waiting there for room,
and the inject runs under that number. FORCE_OLD of a satellite's envelope is ignored and counted. Rules R79, R81. -/
def Obligations.EnvelopeIntake : Prop :=
  (∀ (s : State) (t : TileId) (p : Fin 2) (frame : Bytes) (r : LinkIn) (e : Sess) (seq : Nat) (l : List (Nat × Bytes)), (s.linkRx t p frame).2 = some r → r.type = 0x10 →
    r.sess.bind (Tbl.get ((s.linkRx t p frame).1.sw t).sess) = some e → (s.linkRx t p frame).1.portTakes t 5 = true → envParse r.payload = some (seq, false, l) →
    exec (.envelope t p frame) s = .next (s.done ((s.linkRx t p frame).1.openEnvelope t p e.sat e.value frame.length seq false l))) ∧
  (∀ (s : State) (t : TileId) (seq : Nat) (l : List (Nat × Bytes)), s.serves t = true → (s.vol t).gather.injecting = none → s.intakeOpen t = true →
    envParse (s.rdAll Reg.gather_inject_buffer t) = some (seq, false, l) → s.rd Reg.sw_sample_n t = 0 → s.portTakes t 5 = true →
    ∃ x, exec (.gatherInject t) s = .next x ∧ (x.vol t).gather.injecting = some (s.vol t).gather.nextEnv ∧
      (x.vol t).gather.nextEnv = (s.vol t).gather.nextEnv + 1 ∧ x.out = s.out) ∧
  (∀ (s : State) (t : TileId) (seq n : Nat) (force : Bool) (l : List (Nat × Bytes)), s.serves t = true → (s.vol t).gather.injecting = none → s.intakeOpen t = true →
    envParse (s.rdAll Reg.gather_inject_buffer t) = some (seq, force, l) → n = l.foldl (fun a e => a + (12 + e.2.length + 3) / 4 * 4) 16 →
    exec (.gatherInject t) s =
      .next (s.done (consuming t [Reg.gather_inject_buffer]
        (fun y => (y.swCount t 6 2 ((s.rdAll Reg.gather_inject_buffer t).take n) n).openEnvelope t 2 0xFFFF 0 n seq force l) s))) ∧
  (∀ (s y : State) (t : TileId) (p : Fin 2) (frame : Bytes) (r : LinkIn) (e : Sess) (seq : Nat) (l : List (Nat × Bytes)), (s.linkRx t p frame).2 = some r → r.type = 0x10 →
    r.sess.bind (Tbl.get ((s.linkRx t p frame).1.sw t).sess) = some e → (s.linkRx t p frame).1.portTakes t 5 = true → envParse r.payload = some (seq, true, l) →
    y = (s.linkRx t p frame).1.bump Reg.gather_force_old_ignored t →
    exec (.envelope t p frame) s = .next (s.done (y.openEnvelope t p e.sat e.value frame.length seq false l)))

/-- A frame that is identified leaves its source and waits under its MIDX behind another, or goes through the pipeline; a frame taken anew from the switch takes
its credit and holds its cells; a waiting frame goes on; the acknowledgement of an envelope is sent once its point is reached; the first reading whose meter
is free, and to which no rule of the duplicate check applies, goes to Marver with the record's newest interval, a duplicate ends in the Cullet queue. Where
the manual leaves a point of it open, the choice is the model's: notes/assumptions/35.md, notes/assumptions/36.md. Rules R82, R86, R104, R108. -/
def Obligations.FrameIntake : Prop :=
  (∀ (s : State) (t : TileId) (bad k left midx report : Nat) (f : Frame) (rest : List Frame), (s.vol t).gather.waiting.length < 256 →
    (s.vol t).gather.pick (s.mayTake t) (fun j => s.rd Reg.gather_intake_weight t j) = some (k, left) → (s.vol t).gather.voq.getD k [] = f :: rest →
    identify s t f = .ok midx →
    ∃ x, exec (.frameIntake t true ⟨bad, report⟩) s = .next x ∧ (x.vol t).gather.voq = (s.vol t).gather.voq.set k rest ∧
      (x.vol t).gather.waiting = (s.vol t).gather.waiting ++ [{ frame := f, midx := midx, gen := genOf s t f, slotBad := bad, report := report }] ∧
      x.rd Reg.gather_in_flight t = ((s.vol t).gather.waiting.length + 1) % Reg.gather_in_flight.span ∧ x.out = s.out) ∧
  (∀ (s : State) (t : TileId) (bad k left i midx report : Nat) (w : SwFrame) (f : Frame) (rest : List Frame), (s.vol t).gather.waiting.length < 256 →
    (s.vol t).gather.voq.length = 5 → k < 5 → (s.sw t).credit.length = 8 → (s.sw t).held.length = 8 →
    (s.vol t).gather.pick (s.mayTake t) (fun j => s.rd Reg.gather_intake_weight t j) = some (k, left) → (s.vol t).gather.voq.getD k [] = [] →
    (s.sw t).intakeHead k = some (i, w) → w.body.frames = f :: rest → (s.vol t).diag.p5 = none → s.egressWait t 5 2 = none → identify s t f = .ok midx →
    ∃ x, exec (.frameIntake t true ⟨bad, report⟩) s = .next x ∧ (x.vol t).gather.voq = (s.vol t).gather.voq.set k rest ∧
      (x.sw t).credit.getD 5 0 = (s.sw t).credit.getD 5 0 - w.cells ∧ (x.sw t).held.getD 5 0 = (s.sw t).held.getD 5 0 + w.cells ∧
      (x.vol t).gather.waiting = (s.vol t).gather.waiting ++ [{ frame := f, midx := midx, gen := genOf s t f, slotBad := bad, report := report }] ∧ x.out = s.out) ∧
  (∀ (s : State) (t : TileId) (f : Flight), (s.vol t).gather.waiting = [f] →
    exec (.midxWaitRelease t f.midx) s =
      .next (s.done (runFrame ((s.onGather t fun g => { g with waiting := g.waiting.eraseIdx 0 }).wr Reg.gather_in_flight t 0) t f))) ∧
  (∀ (s : State) (t : TileId) (src peer mark : Nat) (b : Bytes), (s.queue t 4).take.2 = some (.ack src peer mark b) → s.mirrored t mark = true →
    exec (.envelopeAck t) s = .next (s.done ((s.qRead t 4).1.swSend t 5 src 1 (.link peer 0x11 b)))) ∧
  (∀ (s : State) (t : TileId) (row : Row), (s.vol t).gather.rows = [row] → s.midxBusy t row.rd.midx = false → row.restate = none → row.direct = false →
    dupCheck (s.meter t (midxSlot row.rd.midx)).lastTend row.rd.tend row.rd.idur (s.meter t (midxSlot row.rd.midx)).dupMap row.forceOld = none →
    ∃ x, exec (.duplicateCheck t) s = .next x ∧ (x.vol t).gather.rows = [] ∧ x.out = s.out ∧
      (x.vol t).marver.inq = (s.vol t).marver.inq ++
        [{ rd := row.rd, fid := row.fid, gen := row.gen, restate := none, replay := row.replay,
           lastTend := (s.meter t (midxSlot row.rd.midx)).lastTend, lastReg := (s.meter t (midxSlot row.rd.midx)).lastReg,
           phase := (s.meter t (midxSlot row.rd.midx)).phase, cls := (s.meter t (midxSlot row.rd.midx)).cls, rule := row.rule, flags := row.flags }]) ∧
  (∀ (s w y z : State) (t : TileId) (bad k left midx report : Nat) (f : Frame) (rest : List Frame), (s.vol t).gather.waiting.length < 256 →
    (s.vol t).gather.pick (s.mayTake t) (fun j => s.rd Reg.gather_intake_weight t j) = some (k, left) → w = s.intakeFetch t k →
    (w.vol t).gather.voq.getD k [] = f :: rest →
    y = ((w.onGather t fun g => { g with voq := g.voq.set k rest, rrPos := k, rrLeft := left }).bump Reg.gather_frames_in t k) →
    z = y.wr Reg.gather_in_flight_peak t (max (y.rd Reg.gather_in_flight_peak t) ((w.vol t).gather.waiting.length + 1)) →
    identify z t f = .ok midx → ((z.vol t).gather.waiting.any fun w => decide (w.midx = midx)) = false →
    exec (.frameIntake t false ⟨bad, report⟩) s = .next (s.done (runFrame z t { frame := f, midx := midx, gen := genOf z t f, slotBad := bad, report := report }))) ∧
  (∀ (s : State) (t : TileId) (f : Flight), (s.vol t).gather.waiting.find? (fun x => decide (x.midx = f.midx)) = some f →
    ∃ y : State, exec (.midxWaitRelease t f.midx) s = .next (s.done (runFrame (y.wr Reg.gather_in_flight t (y.vol t).gather.waiting.length) t f)) ∧
      y = s.onGather t fun g => { g with waiting := g.waiting.eraseIdx ((s.vol t).gather.waiting.findIdx fun x => decide (x.midx = f.midx)) }) ∧
  (∀ (s : State) (t : TileId) (src peer mark : Nat) (b : Bytes), (s.queue t 4).take.2 = some (.ack src peer mark b) →
    mark = 0 ∨ s.mirrored t mark = true ∨ s.rd Reg.bay_mirror_sync (bayOf t) ≠ 0 →
    exec (.envelopeAck t) s = .next (s.done ((s.qRead t 4).1.swSend t 5 src 1 (.link peer 0x11 b)))) ∧
  (∀ (s : State) (t : TileId) (row : Row) (l : List Row), (s.vol t).gather.rows = row :: l → s.midxBusy t row.rd.midx = false → row.restate = none → row.direct = false →
    dupCheck (s.meter t (midxSlot row.rd.midx)).lastTend row.rd.tend row.rd.idur (s.meter t (midxSlot row.rd.midx)).dupMap row.forceOld = none →
    exec (.duplicateCheck t) s = .next (s.done (((s.onGather t fun g => { g with rows := l }).passRow t row).bump Reg.gather_readings_out t))) ∧
  (∀ (s : State) (t : TileId) (row : Row) (l : List Row) (d : Nat), (s.vol t).gather.rows = row :: l → s.midxBusy t row.rd.midx = false → row.restate = none →
    row.direct = false →
    dupCheck (s.meter t (midxSlot row.rd.midx)).lastTend row.rd.tend row.rd.idur (s.meter t (midxSlot row.rd.midx)).dupMap row.forceOld = some d →
    exec (.duplicateCheck t) s = .next (s.done ((((((s.onGather t fun g => { g with rows := l }).cullet t 0x14 d 1 0xFF 0 0 row.gen (openedBytes row.rd)).countEnd
      t d).endReading t row.fid none).endReplay t row.replay 2))))

/-- Marver's pass takes the oldest reading and hands one that is not refused to Lehr; a commit of 32 well-formed rules is answered OK without a bad entry; a
replay of 1 to 64 items takes them in turn. A reading that a rule refuses goes to the Cullet queue and is counted. Where the manual leaves a point of it open,
the choice is the model's: notes/assumptions/35.md. Rules R119, R126, R127, R143. -/
def Obligations.Marver : Prop :=
  (∀ (s : State) (t : TileId) (r : Passed) (rest : List Passed), (s.vol t).lehr.stopped = false → (s.vol t).marver.inq = r :: rest →
    (judge (s.judgeIn t r)).outcome ≠ 0x16 →
    ∃ x, exec (.marverPass t) s = .next x ∧ (x.vol t).marver.inq = rest ∧ (x.vol t).lehr.inq.length = (s.vol t).lehr.inq.length + 1 ∧ x.out = s.out) ∧
  (∀ (s : State) (t : TileId) (set : Nat), s.serves t = true → s.rd Reg.marver_ruleset_select t = set → set ≤ 63 →
    (∀ i < 32, (Rule.parse (((s.rdAll Reg.marver_ruleset_stage t).drop (16 * i)).take 16)).ok = true) →
    ∃ x, exec (.rulesetCommit t) s = .next x ∧ x.rd Reg.marver_last_result t = 0 ∧ x.rd Reg.marver_last_bad_entry t = 0xFF ∧
      x.out = s.out ++ [.answer t .ok]) ∧
  (∀ (s : State) (t : TileId) (n : Nat), s.serves t = true → (s.vol t).marver.replay = none → fld (s.rdAll Reg.marver_replay_buffer t) 0 1 = n → 1 ≤ n → n ≤ 64 →
    fld (s.rdAll Reg.marver_replay_buffer t) 1 7 = 0 →
    exec (.marverReplay t) s = .next (s.done (consuming t [Reg.marver_replay_buffer] (fun y => ((y.wr Reg.marver_last_result t 0).onMarver t fun m =>
      { m with replay := some { results := List.replicate n none, act := y.acts.now } }).each (List.range n) (replayItem t (s.rdAll Reg.marver_replay_buffer t))) s))) ∧
  (∀ (s : State) (t : TileId) (r : Passed) (rest : List Passed), (s.vol t).lehr.stopped = false → (s.vol t).marver.inq = r :: rest →
    (judge (s.judgeIn t r)).outcome = 0x16 → s.rd Reg.marver_cullet_rule t + 1 < Reg.marver_cullet_rule.span →
    ∃ x, exec (.marverPass t) s = .next x ∧ (x.vol t).marver.inq = rest ∧ (x.vol t).lehr.inq = (s.vol t).lehr.inq ∧
      x.rd Reg.marver_cullet_rule t = s.rd Reg.marver_cullet_rule t + 1)

/-- An entry is tagged with the key of slot 3, queued and counted; a read takes the oldest entry and gives its bytes; a block read with one entry gives it and
zeros for the other seven positions. Rules R139, R140. -/
def Obligations.Cullet : Prop :=
  (∀ (s : State) (t : TileId) (e k : Bytes) (x : GenSlot), ((s.vol t).marver.stage.read 129).item = some e → Tbl.get (s.vol t).vault.slots 3 = some x → x.bad = false →
    x.key = k →
    exec (.culletTag t) s = .next (s.done (((s.onMarver t fun m => { m with stage := ((s.vol t).marver.stage.read 129).q }).qWrite t 0
      (.cullet (e ++ Crypto.cmac k e))).bump Reg.cullet_written t))) ∧
  (∀ (s : State) (t : TileId) (b : Bytes) (r : List QItem), (s.queue t 0).split = none → (s.queue t 0).drain = .cullet b :: r →
    ∃ x, exec (.culletRead t) s = .next x ∧ x.out = s.out ++ [.bytes t b] ∧ (x.queue t 0).drain = r ∧ (x.queue t 0).fill = (s.queue t 0).fill) ∧
  (∀ (s : State) (t : TileId) (b : Bytes), (s.queue t 0).split = none → (s.queue t 0).drain = [.cullet b] → (s.queue t 0).fill = [] →
    ∃ x, exec (.culletReadBlock t) s = .next x ∧ x.out = s.out ++ [.bytes t (b ++ List.replicate 896 0)] ∧ (x.queue t 0).drain = [] ∧ (x.queue t 0).fill = []) ∧
  (∀ (s u : State) (t : TileId) (e k : Bytes), ((s.vol t).marver.stage.read 129).item = some e →
    (s.onMarver t fun m => { m with stage := ((s.vol t).marver.stage.read 129).q }).useSlot t 3 = (u, some k) →
    exec (.culletTag t) s = .next (s.done ((u.qWrite t 0 (.cullet (e ++ Crypto.cmac k e))).bump Reg.cullet_written t))) ∧
  (∀ (s : State) (t : TileId), (s.queue t 0).split = none → (s.queue t 0).drain = [] → (s.queue t 0).fill = [] →
    ∃ x, exec (.culletRead t) s = .next x ∧ x.out = s.out ++ [.bytes t (List.replicate 128 0)] ∧ (x.queue t 0).drain = [] ∧ (x.queue t 0).fill = []) ∧
  (∀ (s : State) (t : TileId) (y : State × Bytes), y = (List.range 8).foldl (fun (a : State × Bytes) _ =>
      ((a.1.culletTake t).1, a.2 ++ (a.1.culletTake t).2)) (s, []) →
    exec (.culletReadBlock t) s = .next (s.done (y.1.emit (.bytes t y.2))))

/-- A group takes the next SEQs of the stream that the tile issues, one for each record, LINKs among them; a batch with own records is closed at the grid of its
period with cause 1 and before a key change with cause 5; a tile without a stream takes a new key at once; a page that has waited its flush time is queued
whole; a full ring under policy 0 stops Lehr and counts it. Under policy 1 the oldest block of the ring is freed, and what it loses is counted. Where the
manual leaves a point of it open, the choice is the model's: notes/assumptions/35.md. Rules R153, R159, R162, R180, R181. -/
def Obligations.LehrArchive : Prop :=
  (∀ (s : State) (t : TileId) (k who out : Nat) (d : Bytes) (rest : List Group), (s.vol t).lehr.inq = .book who out d :: rest → s.issuing t = some k →
    (s.vol t).lehr.stopped = false → ((s.vol t).lehr.stream k).leaves.length + 1 ≤ s.rd Reg.lehr_batch_max t →
    exec (.lehrArchiveGroup t) s = .next (s.done ((s.onLehr t fun l => { l with inq := rest }).issue t k who (.book out d)).1)) ∧
  (∀ (s : State) (t : TileId) (k who out : Nat) (d : Bytes) (rest : List Group), (s.vol t).lehr.inq = .book who out d :: rest → s.issuing t = some k →
    (s.vol t).lehr.stopped = false → s.rd Reg.lehr_batch_max t < ((s.vol t).lehr.stream k).leaves.length + 1 →
    ((s.vol t).lehr.stream k).carried < ((s.vol t).lehr.stream k).leaves.length →
    exec (.lehrArchiveGroup t) s = .next (s.done (((s.onLehr t fun l => { l with inq := rest }).closeBatch t k 0).issue t k who (.book out d)).1)) ∧
  (∀ (s : State) (t : TileId) (k g : Nat), s.issuing t = some k → s.hasTime t = true →
    g = gridFloor (s.rd Reg.gather_grid_phase t) (s.rd Reg.lehr_batch_period t) (s.timeSec t) → (s.vol t).mer.since < g → (s.vol t).mer.closeSec < g →
    ((s.vol t).lehr.stream k).carried < ((s.vol t).lehr.stream k).leaves.length →
    exec (.batchCloseTime t) s = .next (s.done ((s.onMer t fun m => { m with closeSec := g }).closeBatch t k 1))) ∧
  (∀ (s : State) (t : TileId) (g : Nat), (s.tile t).media.jobs = [] → s.archGen t = some g → g ≠ (s.vol t).lehr.archGen → s.issuing t = none →
    ∃ x, exec (.keyChange t) s = .next x ∧ (x.vol t).lehr.archGen = g ∧ (x.vol t).lehr.signGen = g) ∧
  (∀ (s : State) (t : TileId) (g k : Nat), (s.tile t).media.jobs = [] → s.archGen t = some g → g ≠ (s.vol t).lehr.archGen → s.issuing t = some k →
    ((s.vol t).lehr.stream k).leaves ≠ [] →
    exec (.keyChange t) s = .next (s.done ((((s.closeBatch t k 5).loadSlot t 6 (archPlace g)).loadSlot t 7 (blobPlace 2 7)).onLehr t fun l =>
      { l with archGen := g, signGen := g }))) ∧
  (∀ (s : State) (t : TileId) (i : Nat) (r : ArchRec) (l : List ArchRec), (s.vol t).lehr.pageFirst = some i → i + s.rd Reg.lehr_flush_time t * 1000000 ≤ s.now →
    (s.vol t).lehr.page = r :: l →
    ∃ x, exec (.pageFlush t) s = .next x ∧ (x.vol t).lehr.page = [] ∧ (x.vol t).lehr.pageFirst = none ∧
      (x.tile t).media.jobs = (s.tile t).media.jobs ++ [((s.tile t).media.jobCount, .archive (seqStream r.seq) (r :: l))] ∧ x.regs = s.regs ∧ x.out = s.out) ∧
  (∀ (s : State) (t : TileId), (s.tile t).media.full = true → s.rd Reg.lehr_full_policy t = 0 → (s.vol t).lehr.stopped = false →
    exec (.ringFull t) s =
      .next (s.done ((((s.onLehr t fun l => { l with stopped := true }).bump Reg.lehr_full_stops t).event t 2 0x1202).followTile t))) ∧
  (∀ (s : State) (t : TileId) (k midx fid rolls flags : Nat) (replay : Option Nat) (recs : List PreRec) (opened : Option Opened) (ctx : Bytes) (rest : List Group),
    (s.vol t).lehr.inq = .meter midx fid replay recs rolls flags opened ctx :: rest → s.issuing t = some k → (s.vol t).lehr.stopped = false →
    ((s.vol t).lehr.stream k).leaves.length + (s.expand t midx rolls recs).recs.length ≤ s.rd Reg.lehr_batch_max t →
    ∃ x, exec (.lehrArchiveGroup t) s = .next x ∧ (x.vol t).lehr.inq = rest ∧
      ((x.vol t).lehr.stream k).next = ((s.vol t).lehr.stream k).next + (s.expand t midx rolls recs).recs.length) ∧
  (∀ (s : State) (t : TileId) (k midx prior reason flags : Nat) (replay : Option Nat) (p : PreRec) (r : ArchRec) (rest : List Group),
    (s.vol t).lehr.inq = .restate midx replay prior reason flags p :: rest → s.issuing t = some k → (s.vol t).lehr.stopped = false → s.heldRec t prior = some r →
    ((s.vol t).lehr.stream k).leaves.length + 2 ≤ s.rd Reg.lehr_batch_max t →
    ∃ x, exec (.lehrArchiveGroup t) s = .next x ∧ (x.vol t).lehr.inq = rest ∧ ((x.vol t).lehr.stream k).next = ((s.vol t).lehr.stream k).next + 2) ∧
  (∀ (s : State) (t : TileId) (k who out prior : Nat) (d : Bytes) (r : ArchRec) (rest : List Group), (s.vol t).lehr.inq = .bookRestate who out prior d :: rest →
    s.issuing t = some k → (s.vol t).lehr.stopped = false → s.heldRec t prior = some r →
    ((s.vol t).lehr.stream k).leaves.length + 2 ≤ s.rd Reg.lehr_batch_max t →
    ∃ x, exec (.lehrArchiveGroup t) s = .next x ∧ (x.vol t).lehr.inq = rest ∧ ((x.vol t).lehr.stream k).next = ((s.vol t).lehr.stream k).next + 2) ∧
  (∀ (s : State) (t : TileId) (g : Nat), (∀ j ∈ (s.tile t).media.jobs, ∀ l, j.2 ≠ .keys l) → s.archGen t = some g → g ≠ (s.vol t).lehr.archGen →
    (∀ k, s.issuing t = some k → ((s.vol t).lehr.stream k).leaves = []) →
    exec (.keyChange t) s = .next (s.done (((s.loadSlot t 6 (archPlace g)).loadSlot t 7 (blobPlace 2 7)).onLehr t fun l => { l with archGen := g, signGen := g }))) ∧
  (∀ (s : State) (t : TileId) (g k : Nat), (∀ j ∈ (s.tile t).media.jobs, ∀ l, j.2 ≠ .keys l) → s.archGen t = some g → g ≠ (s.vol t).lehr.archGen →
    s.issuing t = some k → ((s.vol t).lehr.stream k).leaves ≠ [] →
    exec (.keyChange t) s = .next (s.done ((((s.closeBatch t k 5).loadSlot t 6 (archPlace g)).loadSlot t 7 (blobPlace 2 7)).onLehr t fun l =>
      { l with archGen := g, signGen := g }))) ∧
  (∀ (s y : State) (t : TileId) (x : Nat) (l : List Nat), (s.tile t).media.full = true → s.rd Reg.lehr_full_policy t ≠ 0 →
    ((s.tile t).media.blocks.filter fun e => decide (e.2.st = .mapped) && decide (e.2.region = 0) && decide (e.2.lb ≠ (s.tile t).media.head)).map (fun e => e.2.lb) =
      x :: l →
    y = [0, 1].foldl (fun (z : State) k =>
      let lost := ((s.tile t).media.arch k).filter fun a => decide (a.2.lb = l.foldl min x);
      let z := z.bump Reg.lehr_overwritten t 0 (lost.countP fun a => !(s.tile t).media.discarded a.1);
      match lost.getLast? with
      | some a => z.setFloor t k (max ((s.tile t).media.floor k) (a.1 + 1))
      | none => z) s →
    exec (.ringFull t) s = .next (s.done ((y.freeLb t (l.foldl min x)).resumeLehr t)))

/-- One record is archived under the next SEQ of its stream with its leaf added, and the stream goes on at the SEQ after it; the record is tagged under the
archive key in slot 6. Rules R152, R158, R163. -/
def Obligations.IssueOne : Prop :=
  ∀ (s : State) (t : TileId) (k who : Nat) (b : RecBody) (slot : GenSlot), k ≤ 1 → Tbl.get (s.vol t).vault.slots 6 = some slot → slot.bad = false →
    (s.issue t k who b).2 = { seq := ((s.vol t).lehr.stream k).next, who := who, body := b,
                              tag := tagWith slot.key (t.val / 2) (recHead ((s.vol t).lehr.stream k).next who b) } ∧
    (((s.issue t k who b).1.vol t).lehr.stream k).next = ((s.vol t).lehr.stream k).next + 1 ∧
    (((s.issue t k who b).1.vol t).lehr.stream k).leaves = ((s.vol t).lehr.stream k).leaves ++ [leafHash (recBytes (s.issue t k who b).2)]

/-- A proof gives the record, its path and the members of its closure; a range whose batches and open leaves verify gives result 0, another its first failure;
FETCH gives the bytes of each SEQ; ACK_DISCARD places the range in the map queue and the mirror stream. Where the manual leaves a point of it open, the choice
is the model's: notes/assumptions/35.md. Rules R169, R170, R176, R179. -/
def Obligations.LehrRanges : Prop :=
  (∀ (s : State) (t : TileId) (q : Nat) (r : ArchRec) (c : Closure) (leaves : List ArchRec), s.rd Reg.lehr_proof_seq t = q →
    (s.held t (seqStream q)).find? (fun r => decide (r.seq = q)) = some r → inGap (s.closures t (seqStream q)) q = false →
    (s.closures t (seqStream q)).find? (fun c => decide (c.first ≤ q) && decide (q < c.first + c.count)) = some c → leavesOf (s.held t (seqStream q)) c = some leaves →
    exec (.lehrProof t) s = .next (s.done (((s.wrB Reg.lehr_proof_block t 0
      ([1] ++ natLE 1 (treePath 16 (q - c.first) (leaves.map fun x => leafHash (recBytes x))).length ++ natLE 2 (q - c.first) ++ natLE 2 c.count ++ [0, 0] ++
        recBytes r ++ recBytes c.h ++ recBytes c.r ++ recBytes c.s ++
        fit 384 (treePath 16 (q - c.first) (leaves.map fun x => leafHash (recBytes x))).flatten)).wr Reg.lehr_proof_result t 0).answer t .ok))) ∧
  (∀ (s : State) (t : TileId) (a b : Nat) (c : Closure), s.rd Reg.lehr_verify_first t = a → s.rd Reg.lehr_verify_last t = b →
    s.closures t (seqStream a) = [c] → c.first ≤ a → a ≤ b → b < c.first + c.count → c.first + c.count ≤ c.h.seq →
    verifyBatch s t (s.held t (seqStream a)) [c] c = none →
    ∃ x, exec (.lehrVerify t) s = .next x ∧ x.rd Reg.lehr_verify_result t = 0 ∧ x.out = s.out ++ [.answer t .ok]) ∧
  (∀ (s : State) (t : TileId) (first last : Nat), s.reach t false false = .go → first ≤ last → seqStream first = seqStream last → last < first + 65536 →
    ∃ x, exec (.fetch (.direct t first last)) s = .next x ∧ x.out = s.out ++ [.bytes t (s.fetchSlots t first last)] ∧ (∀ u, x.vol u = s.vol u)) ∧
  (∀ (s : State) (t : TileId) (first last : Nat) (h : ArchRec) (a b cause kg sg : Nat) (root : Bytes), s.serves t = true → first ≤ last → seqStream first = seqStream last →
    s.held t (seqStream first) = [h] → h.body = .header a b cause kg sg root → last ≤ h.seq - 1 → 0 < h.seq → (s.tile t).media.jobs = [] → (s.tile t).media.mapQ = [] →
    (s.tile t).media.disc (seqStream first) = [] → (s.tile t).media.rangesCounted (seqStream first) (mergeRange [] (first, last)) ≤ 4096 →
    exec (.ackDiscard (.direct t first last)) s =
      .next (s.done ((s.queueMap t (.discard (seqStream first) first last (some s.acts.now))).mirror t (.discard (seqStream first) first last)))) ∧
  (∀ (s : State) (t : TileId) (a b q : Nat), s.rd Reg.lehr_verify_first t = a → s.rd Reg.lehr_verify_last t = b → a ≤ b →
    verifyClosed s t (s.held t (seqStream a)) (s.closures t (seqStream a)) b a (s.closures t (seqStream a)) = .ok q →
    verifyOpen s t (s.closures t (seqStream a)) (s.lehrGens t).1 b q (s.held t (seqStream a)) = none →
    ∃ x, exec (.lehrVerify t) s = .next x ∧ x.rd Reg.lehr_verify_result t = 0 ∧ x.out = s.out ++ [.answer t .ok]) ∧
  (∀ (s : State) (t : TileId) (a b code q : Nat), s.rd Reg.lehr_verify_first t = a → s.rd Reg.lehr_verify_last t = b → a ≤ b → q < Reg.lehr_verify_bad_seq.span →
    verifyClosed s t (s.held t (seqStream a)) (s.closures t (seqStream a)) b a (s.closures t (seqStream a)) = .error (code, q) → 1 < code → code < 5 →
    ∃ x, exec (.lehrVerify t) s = .next x ∧ x.rd Reg.lehr_verify_result t = code ∧ x.rd Reg.lehr_verify_bad_seq t = q ∧ x.out = s.out ++ [.answer t .ok]) ∧
  (∀ (s : State) (t : TileId) (first last : Nat) (h : ArchRec) (a b cause kg sg : Nat) (root : Bytes), s.serves t = true → first ≤ last →
    seqStream first = seqStream last → h ∈ s.held t (seqStream first) → h.body = .header a b cause kg sg root → last < h.seq → (s.tile t).media.jobs = [] →
    (s.tile t).media.mapQ = [] →
    (s.tile t).media.rangesCounted (seqStream first) (mergeRange ((s.tile t).media.disc (seqStream first)) (first, last)) ≤ 4096 →
    exec (.ackDiscard (.direct t first last)) s =
      .next (s.done ((s.queueMap t (.discard (seqStream first) first last (some s.acts.now))).mirror t (.discard (seqStream first) first last)))) ∧
  (∀ (s : State) (t : TileId), (s.held t (seqStream (s.rd Reg.lehr_proof_seq t))).find? (fun r => decide (r.seq = s.rd Reg.lehr_proof_seq t)) = none →
    ∃ x, exec (.lehrProof t) s = .next x ∧ x.rd Reg.lehr_proof_result t = 1 ∧ x.out = s.out ++ [.answer t .ok])

/-- The balance takes the record of its feed that comes next in SEQ order, fills a gap of the feed from the archive and counts it, and passes over what it has
taken; a tick is closed when its close window has passed; at a change of grid the ticks of the old grid are closed and the old books go. Where the manual
leaves a point of it open, the choice is the model's: notes/assumptions/30.md, notes/assumptions/36.md. Rules R185, R201, R219. -/
def Obligations.BalanceFeed : Prop :=
  (∀ (s : State) (t : TileId) (r : ArchRec), (s.vol t).bal.ready = true → (s.qRead t 2).2 = some (.record r) → (((s.qRead t 2).1).vol t).bal.next = r.seq →
    exec (.balanceFeed t) s = .next (s.done (((s.qRead t 2).1.takeRecord t r).onBal t fun y => { y with next := r.seq + 1 }))) ∧
  (∀ (s : State) (t : TileId) (k : Nat), (s.vol t).bal.ready = true → s.hasTime t = true → (s.vol t).lehr.stopped = false → s.issuing t = some k →
    (s.vol t).bal.tick ≠ 0 → (s.vol t).bal.first ≤ (s.vol t).bal.tick →
    (s.vol t).bal.tick + (s.vol t).bal.b + s.rd Reg.balance_close_window t * (s.vol t).bal.b ≤ s.timeSec t →
    exec (.closeTick t) s =
      .next (s.done (s.tick t [(s.vol t).bal.tick + (s.vol t).bal.b] ((s.vol t).bal.tick + (s.vol t).bal.b) (s.vol t).bal.b 0))) ∧
  (∀ (s : State) (t : TileId) (k : Nat) (g : BGrid), (s.vol t).bal.grid = some g → (s.vol t).bal.ready = true → s.hasTime t = true → (s.vol t).lehr.stopped = false →
    s.issuing t = some k → g.at_ ≤ s.timeSec t → g.tx = g.tc + g.bOld → 0 < g.bOld →
    exec (.gridChangeTick t) s = .next (s.done ((s.tick t [g.tx] g.tx g.bOld g.tx).onBal t fun y =>
      Bal.shedTree { y with grid := none, closed := y.closed.filter fun c => decide (g.tx < c.t), books := y.books.filter fun e => decide (g.tx < e.1),
                            volts := y.volts.filter fun e => decide (g.tx < e.1) }))) ∧
  (∀ (s : State) (t : TileId) (k T : Nat), (s.vol t).bal.ready = true → s.hasTime t = true → (s.vol t).lehr.stopped = false → s.issuing t = some k →
    T = (if (s.vol t).bal.tick = 0 ∨ (s.vol t).bal.tick < (s.vol t).bal.first then (s.vol t).bal.first else (s.vol t).bal.tick + (s.vol t).bal.b) →
    T + s.rd Reg.balance_close_window t * (s.vol t).bal.b ≤ s.timeSec t →
    exec (.closeTick t) s = .next (s.done (s.tick t [T] T (s.vol t).bal.b 0))) ∧
  (∀ (s : State) (t : TileId) (k : Nat) (g : BGrid), (s.vol t).bal.grid = some g → (s.vol t).bal.ready = true → s.hasTime t = true → (s.vol t).lehr.stopped = false →
    s.issuing t = some k → g.at_ ≤ s.timeSec t → 0 < g.bOld →
    ∃ x y, exec (.gridChangeTick t) s = .next x ∧ (x.vol t).bal.grid = none ∧
      y = s.tick t ((List.range ((g.tx - g.tc) / g.bOld)).map fun i => g.tc + (i + 1) * g.bOld) g.tx g.bOld g.tx ∧ (x.vol t).lehr = (y.vol t).lehr ∧
      (∀ e ∈ (x.vol t).bal.books, g.tx < e.1) ∧ (∀ c ∈ (x.vol t).bal.closed, g.tx < c.t)) ∧
  (∀ (s : State) (t : TileId) (r : ArchRec), (s.vol t).bal.ready = true → (s.qRead t 2).2 = some (.record r) → r.seq < ((s.qRead t 2).1.vol t).bal.next →
    exec (.balanceFeed t) s = .next (s.done (s.qRead t 2).1)) ∧
  (∀ (s y : State) (t : TileId) (r : ArchRec) (n : Nat), (s.vol t).bal.ready = true → (s.qRead t 2).2 = some (.record r) → ((s.qRead t 2).1.vol t).bal.next = n →
    n ≠ 0 → n < r.seq →
    y = (((s.qRead t 2).1.archived t (seqStream r.seq)).filter fun y => decide (n ≤ y.seq) && decide (y.seq < r.seq)).foldl (fun s y => s.takeRecord t y)
      ((s.qRead t 2).1.bump Reg.balance_feed_gaps t) →
    exec (.balanceFeed t) s = .next (s.done ((y.takeRecord t r).onBal t fun y => { y with next := r.seq + 1 })))

/-- A staged tree without a bad node is committed under the next version and answered OK; it takes effect at its tick, with no alarm left; a rebuild reads the
archive from where it starts, and a balance of a tile that holds no record is ready with the interval of the settings. Where the manual leaves a point of it
open, the choice is the model's: notes/assumptions/36.md. Rules R197, R217, R218. -/
def Obligations.BalanceTree : Prop :=
  (∀ (s : State) (t : TileId), s.serves t = true → (s.vol t).bal.oldTree = none → s.badNode t (s.stagedTree t) = none →
    s.rd Reg.balance_tree_version t + 1 < Reg.balance_tree_version.span →
    ∃ x, exec (.treeCommit t) s = .next x ∧ x.rd Reg.balance_tree_version t = s.rd Reg.balance_tree_version t + 1 ∧ x.rd Reg.balance_last_result t = 0 ∧
      x.rd Reg.balance_tree_bad_node t = 0xFFFF ∧ x.cells Reg.balance_tree t 0 = s.stagedTree t ∧ x.out = s.out ++ [.answer t .ok]) ∧
  (∀ (s : State) (t : TileId) (g : Nat), (s.vol t).bal.effect = some g → (s.vol t).bal.ready = true → s.hasTime t = true → g ≤ s.timeSec t → (s.vol t).bal.nodes = [] →
    ∃ x, exec (.treeTakesEffect t) s = .next x ∧ (x.vol t).bal.effect = none ∧ x.rd Reg.balance_alarms_raised t = 0 ∧ x.out = s.out) ∧
  (∀ (s : State) (t : TileId) (k : Nat), s.issuing t = some k → (s.vol t).bal.ready = false → s.serves t = true → s.hasTime t = true → s.held t k = [] →
    s.rd Reg.balance_rebuilds t + 1 < Reg.balance_rebuilds.span →
    ∃ x, exec (.balanceRebuild t) s = .next x ∧ (x.vol t).bal.ready = true ∧ (x.vol t).bal.b = s.rd Reg.balance_interval t ∧ (x.vol t).bal.next = ((s.vol t).lehr.stream k).next ∧
      x.rd Reg.balance_rebuilds t = s.rd Reg.balance_rebuilds t + 1 ∧ x.out = s.out) ∧
  (∀ (s : State) (t : TileId) (g : Nat), (s.vol t).bal.effect = some g → (s.vol t).bal.ready = true → s.hasTime t = true → g ≤ s.timeSec t →
    exec (.treeTakesEffect t) s = .next (s.done (((((s.vol t).bal.nodes.filter fun e => e.2.raised).foldl (fun s e => s.alarmRecord t e.1 g (s.bookBAt t g) 2) s).onBal t
      fun x => { x with effect := none,
                        nodes := x.nodes.map fun e => (e.1, { e.2 with k := 0, raised := false, ph := e.2.ph.map fun y => { y with s := 0, d := 0 } }) }).countRaised t))) ∧
  (∀ (s y : State) (t : TileId) (k : Nat), s.issuing t = some k → (s.vol t).bal.ready = false → s.serves t = true → s.hasTime t = true →
    y = (((s.onBal t fun _ => (s.rebuildFrom t k).1).rebuildScan t (s.archived t k) (s.rebuildFrom t k).2).onBal t fun x =>
      { x with ready := true, rebuilt := true, next := ((s.archived t k).getLast?.map fun r => r.seq + 1).getD ((s.vol t).lehr.stream k).next }) →
    exec (.balanceRebuild t) s =
      .next (s.done (((y.countRaised t).bump Reg.balance_rebuilds t).wr Reg.balance_rebuild_time t (Config.measured 1 t s.now))))

/-- A resync is ordered and answered; a synchronising reset starts the blocks at the present second; a block in which every current is below its starting current
counts and leaves the legal registers; every block keeps its active and reactive powers, formed with the calibration in force; a second sets the rms values
and the frequency and adds to the minute; a minute on the grid enters the history and starts the sums anew; the first LOCAL reading at the end of its interval
takes the legal registers as its base, and each that follows on enters Marver directly. Where the manual leaves a point of it open, the choice is the model's:
notes/assumptions/7.md, notes/assumptions/37.md. Rules R116, R226, R230, R231, R232, R234, R236. -/
def Obligations.MetrologyMeasures : Prop :=
  (∀ (s : State) (t : TileId), (s.vol t).syncWanted = none → (s.metro t).run = false →
    ∃ x, exec (.metroResync t) s = .next x ∧ (x.vol t).syncWanted = some s.now ∧ x.regs = s.regs ∧ x.out = s.out ++ [.answer t .ok]) ∧
  (∀ (s : State) (t : TileId) (w : Nat), (s.vol t).syncWanted = some w → s.metroOn t = true → (s.metro t).run = false → (s.tile t).legalEnd = 0 →
    (w : Int) + 1000000 ≤ s.now - (s.timeNs t - s.timeSec t * 1000000000) → s.rd Reg.metro_resyncs t + 1 < Reg.metro_resyncs.span →
    ∃ x, exec (.syncReset t (s.timeSec t)) s = .next x ∧ (x.metro t).run = true ∧ (x.metro t).sync = s.timeSec t ∧ (x.metro t).blk = 0 ∧ (x.vol t).syncWanted = none ∧
      x.rd Reg.metro_state t = 1 ∧ x.rd Reg.metro_resyncs t = s.rd Reg.metro_resyncs t + 1 ∧ ∀ i < 12, x.rd Reg.metro_legal_regs t i = s.rd Reg.metro_legal_regs t i) ∧
  (∀ (s : State) (t : TileId) (v1 v2 v3 i1 i2 i3 : List Int) (inVx : List Int × List Int) (codes : List (List Int)), codes = [v1, v2, v3, i1, i2, i3, inVx.1, inVx.2] → (s.metro t).run = true → s.metroOn t = true → 0 < (s.metro t).blk → (s.metro t).hold = false →
    (∀ i < 3, quiet ((blockOf (s.metro t).cal codes).square (3 + i) 0 1024) 1024 = true) → s.fieldPin t = none → (s.metro t).judged = false →
    (s.vol t).modDue = false → ((s.metro t).blk + 1) % 8 ≠ 0 → (∀ i < 12, s.rd Reg.metro_legal_regs t i < Reg.metro_legal_regs.span) →
    ∃ x, exec (.blockEnd t v1 v2 v3 i1 i2 i3 inVx) s = .next x ∧ (x.metro t).blk = (s.metro t).blk + 1 ∧ x.out = s.out ∧
      ∀ i < 12, x.rd Reg.metro_legal_regs t i = s.rd Reg.metro_legal_regs t i) ∧
  (∀ (s : State) (t : TileId) (sec n1 a1 b1 n2 a2 b2 : Nat), (s.metro t).run = true → s.metroOn t = true → (s.metro t).secN ≠ 0 → (s.metro t).blockEnd = sec * 1000000000 →
    faint (s.metro t).secV1 (s.metro t).secN = false → (s.metro t).secSq.length = 8 → (s.metro t).zeros.1.frequency n1 a1 b1 < Reg.metro_frequency.span →
    (∀ i < 8, rmsOf ((s.metro t).secSq.getD i 0) (s.metro t).secN < Reg.metro_rms.span) →
    ∃ x, exec (.secondUpdate t sec n1 a1 b1 n2 a2 b2) s = .next x ∧ x.rd Reg.metro_frequency t = (s.metro t).zeros.1.frequency n1 a1 b1 ∧ (x.metro t).count = (s.metro t).count + 1 ∧ (x.metro t).secN = 0 ∧
      (∀ i < 8, x.rd Reg.metro_rms t i = rmsOf ((s.metro t).secSq.getD i 0) (s.metro t).secN) ∧ x.out = s.out ∧
      (x.metro t).sums = List.zipWith (· + ·) (s.metro t).sums (((s.metro t).secSq.take 3).map fun v => rmsOf (v * 100) (s.metro t).secN)) ∧
  (∀ (s : State) (t : TileId), (s.metro t).run = true → s.metroOn t = true → onGrid (s.rd Reg.gather_grid_phase t) 60 (s.timeSec t) = true →
    ∃ x, exec (.minuteRecord t) s = .next x ∧ (x.metro t).sums = [0, 0, 0] ∧ (x.metro t).count = 0 ∧ x.regs = s.regs ∧ x.out = s.out ∧
      (∀ e ∈ (x.vol t).marver.history, s.timeSec t < e.1 + 172800)) ∧
  (∀ (s : State) (t : TileId) (slot T : Nat), s.localSlot t = some slot → (s.metro t).run = true → s.metroOn t = true → (s.metro t).blockEnd / 1000000000 = T →
    (s.metro t).blk % 8 = 0 → (s.metro t).localAt ≠ T → onGrid (s.rd Reg.gather_grid_phase t) (s.meter t slot).idur T = true →
    (Tbl.get (s.metro t).marks T).all (fun e => !e.2.isEmpty) = true → (Tbl.get (s.metro t).marks T).isSome = true → T < (s.metro t).since + (s.meter t slot).idur →
    ∃ x, exec (.localReading t) s = .next x ∧ (x.metro t).localAt = T ∧ (x.vol t).gather = (s.vol t).gather ∧ (x.vol t).marver = (s.vol t).marver ∧ x.regs = s.regs ∧
      x.out = s.out) ∧
  (∀ (s : State) (t : TileId) (w : Nat), (s.vol t).syncWanted = some w → s.metroOn t = true →
    (w : Int) + 1000000 ≤ s.now - (s.timeNs t - s.timeSec t * 1000000000) → s.rd Reg.metro_resyncs t + 1 < Reg.metro_resyncs.span →
    ∃ x, exec (.syncReset t (s.timeSec t)) s = .next x ∧ (x.metro t).run = true ∧ (x.metro t).sync = s.timeSec t ∧ (x.metro t).blk = 0 ∧ (x.vol t).syncWanted = none ∧
      x.rd Reg.metro_state t = 1 ∧ x.rd Reg.metro_resyncs t = s.rd Reg.metro_resyncs t + 1) ∧
  (∀ (s : State) (t : TileId) (v1 v2 v3 i1 i2 i3 : List Int) (inVx : List Int × List Int) (codes : List (List Int)) (k : Nat), codes = [v1, v2, v3, i1, i2, i3, inVx.1, inVx.2] → (s.metro t).run = true → s.metroOn t = true → k = (if (s.metro t).blk = 0 then 35 else 0) →
    ∃ x, exec (.blockEnd t v1 v2 v3 i1 i2 i3 inVx) s = .next x ∧ (x.metro t).blk = (s.metro t).blk + 1 ∧
      (x.metro t).lastP = (blockOf (s.metro t).cal codes).active k (1024 - k) ∧ (x.metro t).lastQ = (blockOf (s.metro t).cal codes).reactive k (1024 - k)) ∧
  (∀ (s : State) (t : TileId) (sec n1 a1 b1 n2 a2 b2 : Nat), (s.metro t).run = true → s.metroOn t = true → (s.metro t).secN ≠ 0 → (s.metro t).blockEnd = sec * 1000000000 →
    ∃ x, exec (.secondUpdate t sec n1 a1 b1 n2 a2 b2) s = .next x ∧ (x.metro t).count = (s.metro t).count + 1 ∧ (x.metro t).secN = 0 ∧ (x.metro t).secP = [0, 0, 0] ∧
      (x.metro t).slips = s.slipTarget t ∧ x.out = s.out) ∧
  (∀ (s : State) (t : TileId) (slot T : Nat), s.localSlot t = some slot → (s.metro t).run = true → s.metroOn t = true → (s.metro t).blockEnd / 1000000000 = T →
    (s.metro t).blk % 8 = 0 → (s.metro t).localAt ≠ T → onGrid (s.rd Reg.gather_grid_phase t) (s.meter t slot).idur T = true →
    (Tbl.get (s.metro t).marks T).all (fun e => !e.2.isEmpty) = true → (Tbl.get (s.metro t).marks T).isSome = true → (s.metro t).since + (s.meter t slot).idur ≤ T →
    s.unsound t slot = false →
    (s.tile t).unmeasured ((T - (s.meter t slot).idur) * 1000000000) (T * 1000000000) / 1000000 ≤ s.rd Reg.metro_head_gap_max_ms t →
    s.midxBusy t (s.midxOf t slot) = false → ((s.vol t).gather.rows.any fun r => decide (r.rd.midx = s.midxOf t slot)) = false →
    ∃ x r, exec (.localReading t) s = .next x ∧ (x.metro t).localAt = T ∧ (x.vol t).marver.inq = (s.vol t).marver.inq ++ [r] ∧ r.rd.midx = s.midxOf t slot ∧
      r.rd.tend = T ∧ r.rd.source = 5 ∧ r.rd.idur = (s.meter t slot).idur) ∧
  (∀ (s : State) (t : TileId) (slot T : Nat), s.localSlot t = some slot → (s.metro t).run = true → s.metroOn t = true → (s.metro t).blockEnd / 1000000000 = T →
    (s.metro t).blk % 8 = 0 → (s.metro t).localAt ≠ T → onGrid (s.rd Reg.gather_grid_phase t) (s.meter t slot).idur T = true →
    (Tbl.get (s.metro t).marks T).all (fun e => !e.2.isEmpty) = true → (Tbl.get (s.metro t).marks T).isSome = true → (s.metro t).since + (s.meter t slot).idur ≤ T →
    (s.tile t).unmeasured ((T - (s.meter t slot).idur) * 1000000000) (T * 1000000000) / 1000000 ≤ s.rd Reg.metro_head_gap_max_ms t →
    s.unsound t slot = true → (s.queue t 0).drain.length + (s.queue t 0).fill.length = 0 →
    ∃ x, exec (.localReading t) s = .next x ∧ (x.metro t).localAt = T ∧ (x.vol t).gather.rows = (s.vol t).gather.rows ∧ (x.vol t).marver.inq = (s.vol t).marver.inq)

/-- The seal follows LEGAL_EN_N, and every tile of the bay in RUN logs the change; a calibration and a register restore with LEGAL_EN_N asserted take their staged
values, count the seal and order a synchronising reset; while a legal operation runs, another is BUSY. Where the manual leaves a point of it open, the choice
is the model's: notes/assumptions/20.md, notes/assumptions/37.md. Rules R239, R242, R244. -/
def Obligations.SealAndLegal : Prop :=
  (∀ (s : State) (b : BayId), s.pier.up = true → (s.bay b).legalEn = false → (∀ o, s.inRun (tileOf b o) = false) → (s.bay b).unlockTo = 0 →
    ∃ x, exec (.sealAssert b) s = .next x ∧ (x.bay b).legalEn = true ∧ x.rd Reg.bay_legal_en b = 1 ∧ (∀ u, x.vol u = s.vol u)) ∧
  (∀ (s : State) (b : BayId), s.pier.up = true → (s.bay b).legalEn = true → (∀ o, s.inRun (tileOf b o) = false) →
    ∃ x, exec (.sealRelease b) s = .next x ∧ (x.bay b).legalEn = false ∧ x.rd Reg.bay_legal_en b = 0 ∧ (∀ u, x.vol u = s.vol u)) ∧
  (∀ (s : State) (t : TileId), s.serves t = true → (s.bay (bayOf t)).legalEn = true → calOk (s.rdAll Reg.metro_cal_stage t) = true →
    s.rd Reg.metro_seal_count t < 65535 → s.legalFull t = false → s.legalRuns t = false →
    (s.vol t).syncWanted = none → (s.metro t).run = false →
    ∃ x, exec (.calCommit ⟨t, 0⟩) s = .next x ∧ x.rd Reg.metro_seal_count t = s.rd Reg.metro_seal_count t + 1 ∧ x.rd Reg.metro_last_result t = 0 ∧
      x.rdB Reg.metro_cal_block t 0 0x90 = s.rdB Reg.metro_cal_stage t 0 0x90 ∧ (x.vol t).syncWanted = some s.now ∧ x.out = s.out ++ [.answer t .ok]) ∧
  (∀ (s : State) (t : TileId), s.serves t = true → (s.bay (bayOf t)).legalEn = true → s.rd Reg.metro_seal_count t < 65535 → s.legalFull t = false → s.legalRuns t = false →
    (s.vol t).syncWanted = none → (s.metro t).run = false →
    ∃ x, exec (.regRestore ⟨t, 0⟩) s = .next x ∧ x.rd Reg.metro_seal_count t = s.rd Reg.metro_seal_count t + 1 ∧ x.rd Reg.metro_last_result t = 0 ∧
      (∀ i < 12, x.rd Reg.metro_legal_regs t i = fld (s.rdAll Reg.metro_reg_stage t) (8 * i) 8) ∧ (x.vol t).syncWanted = some s.now ∧ x.out = s.out ++ [.answer t .ok]) ∧
  (∀ (s : State) (b : BayId), s.pier.up = true → (s.bay b).legalEn = false →
    ∃ x, exec (.sealAssert b) s = .next x ∧ (x.bay b).legalEn = true ∧ x.rd Reg.bay_legal_en b = 1 ∧
      ∀ o, s.inRun (tileOf b o) = true → s.legalFull (tileOf b o) = false → (x.tile (tileOf b o)).legal.getLast?.map LegalEnt.code = some 3) ∧
  (∀ (s : State) (b : BayId), s.pier.up = true → (s.bay b).legalEn = true →
    ∃ x, exec (.sealRelease b) s = .next x ∧ (x.bay b).legalEn = false ∧ x.rd Reg.bay_legal_en b = 0 ∧
      ∀ o, s.inRun (tileOf b o) = true → s.legalFull (tileOf b o) = false → (x.tile (tileOf b o)).legal.getLast?.map LegalEnt.code = some 4) ∧
  (∀ (s : State) (t : TileId), s.serves t = true → (s.bay (bayOf t)).legalEn = true → s.legalRuns t = true →
    ∃ x, exec (.calCommit ⟨t, 0⟩) s = .next x ∧ x.rd Reg.metro_last_result t = Status.busy.code ∧ x.out = s.out ++ [.answer t .busy] ∧ (∀ u, x.vol u = s.vol u)) ∧
  (∀ (s : State) (t : TileId), s.serves t = true → (s.bay (bayOf t)).legalEn = true → s.legalRuns t = true →
    ∃ x, exec (.regRestore ⟨t, 0⟩) s = .next x ∧ x.rd Reg.metro_last_result t = Status.busy.code ∧ x.out = s.out ++ [.answer t .busy] ∧ (∀ u, x.vol u = s.vol u))

/-- A read that a fitted sensor misses is counted for it and leaves the one that is not fitted; a retry that a failed sensor misses leaves it failed and counts
the miss. A read that succeeds clears the misses; the third miss fails the sensor; a retry that succeeds brings it back. Rules R246, R247. -/
def Obligations.MagneticSensors : Prop :=
  (∀ (s : State) (t : TileId), (s.metro t).run = true → s.metroOn t = true → fld (s.rdAll Reg.metro_mag_desc t 0) 0 1 = 0 → fld (s.rdAll Reg.metro_mag_desc t 1) 0 1 ≠ 0 →
    (s.metro t).mags.length = 2 → ((s.metro t).mags.getD 1 MagSensor.init).failed = false → ((s.metro t).mags.getD 1 MagSensor.init).miss = 0 →
    ∃ x, exec (.magRead t [none, none]) s = .next x ∧ ((x.metro t).mags.getD 1 MagSensor.init).miss = 1 ∧
      ((x.metro t).mags.getD 0 MagSensor.init) = ((s.metro t).mags.getD 0 MagSensor.init) ∧
      x.out = s.out ++ [.i2cRead t (fld (s.rdAll Reg.metro_mag_desc t 1) 0 1) (fld (s.rdAll Reg.metro_mag_desc t 1) 1 1) 6]) ∧
  (∀ (s : State) (t : TileId) (i : Fin 2), (s.metro t).run = true → s.metroOn t = true → (s.metro t).mags.length = 2 →
    ((s.metro t).mags.getD i MagSensor.init).failed = true →
    ∃ x, exec (.sensorRetry t i none) s = .next x ∧ ((x.metro t).mags.getD i MagSensor.init).failed = true ∧
      ((x.metro t).mags.getD i MagSensor.init).miss = ((s.metro t).mags.getD i MagSensor.init).miss + 1 ∧
      x.out = s.out ++ [.i2cRead t (fld (s.rdAll Reg.metro_mag_desc t i) 0 1) (fld (s.rdAll Reg.metro_mag_desc t i) 1 1) 6]) ∧
  (∀ (s : State) (t : TileId) (v : List (Option Bytes)) (i : Nat) (l : Bytes), i < 2 → (s.metro t).run = true → s.metroOn t = true → (s.metro t).mags.length = 2 →
    fld (s.rdAll Reg.metro_mag_desc t i) 0 1 ≠ 0 → ((s.metro t).mags.getD i MagSensor.init).failed = false → v.getD i none = some l →
    ∃ x, exec (.magRead t v) s = .next x ∧ ((x.metro t).mags.getD i MagSensor.init).miss = 0 ∧ ((x.metro t).mags.getD i MagSensor.init).failed = false) ∧
  (∀ (s : State) (t : TileId) (v : List (Option Bytes)) (i : Nat), i < 2 → (s.metro t).run = true → s.metroOn t = true → (s.metro t).mags.length = 2 →
    fld (s.rdAll Reg.metro_mag_desc t i) 0 1 ≠ 0 → ((s.metro t).mags.getD i MagSensor.init).failed = false → ((s.metro t).mags.getD i MagSensor.init).miss = 2 →
    v.getD i none = none →
    ∃ x, exec (.magRead t v) s = .next x ∧ ((x.metro t).mags.getD i MagSensor.init).failed = true) ∧
  (∀ (s : State) (t : TileId) (i : Fin 2) (l : Bytes), (s.metro t).run = true → s.metroOn t = true → (s.metro t).mags.length = 2 →
    ((s.metro t).mags.getD i MagSensor.init).failed = true →
    ∃ x, exec (.sensorRetry t i (some l)) s = .next x ∧ ((x.metro t).mags.getD i MagSensor.init).failed = false ∧
      ((x.metro t).mags.getD i MagSensor.init).miss = 0)

/-- A command to a relay under way waits; one to a relay at rest is taken; a pulse that has run its length leaves the pair idle and the relay in WAIT with its
energy counted; the feedback is taken with its polarity; a confirmation that did not come in time pulses again while retries are left; the even tile that
serves and runs sends the item at the bay's position, the position goes on and the dwell begins. A command to a relay that is not judged yet waits; a change
of a judged feedback is judged; with no retry left, and with a feedback that differs for too long, the relay is in MISMATCH; each dwell shows the next item
there is. Rules R250, R251, R254. -/
def Obligations.Relays : Prop :=
  (∀ (s : State) (t : TileId) (k : Fin 2) (c : Nat), c ≤ 1 → s.serves t = true → (s.metro t).relays.length = 2 →
    (s.metro t).judged = false ∨ (s.relay t k).st = 1 ∨ (s.relay t k).st = 2 →
    ∃ x, exec (.localRelayCmd t k c) s = .next x ∧ (x.relay t k).wait = some c ∧ (x.relay t k).st = (s.relay t k).st ∧ x.regs = s.regs ∧
      x.out = s.out ++ [.answer t .ok]) ∧
  (∀ (s : State) (t : TileId) (k : Fin 2) (c : Nat), c ≤ 1 → s.serves t = true → (s.metro t).judged = true → (s.relay t k).st = 0 ∨ (s.relay t k).st = 3 →
    exec (.localRelayCmd t k c) s = .next (s.done ((s.relayTake t k c).answer t .ok))) ∧
  (∀ (s : State) (t : TileId) (k : Fin 2) (uj at_ : Nat), (s.relay t k).drive = some at_ → (s.relay t k).st = 1 →
    at_ + s.rd Reg.metro_relay_pulse_ms t * 1000000 ≤ s.now → s.relayCmd t k = some 1 → s.rd Reg.metro_fb_mode t k ≠ 0 →
    exec (.relayPulseEnd t k uj false) s = .next (s.done (((((((s.onBay (bayOf t) fun y =>
      { y with pulses := (y.pulses.filter fun x => decide (s.now / 1000000000 < x.1 + 60)) ++ [(s.now / 1000000000, uj)] }).wr Reg.bay_energy_last_pulse_uj
      (bayOf t) uj).drivePair t k 0).onRelay t k fun r => { r with st := 2, pulsed := some (s.now, 1) }).relayJudge t k).tryPulse t 0).tryPulse t 1))) ∧
  (∀ (s : State) (t : TileId) (k : Fin 2) (low : Bool), (s.metro t).judged = false → (s.tile t).fbLow.length = 2 →
    ∃ x, exec (.relayFeedbackChange t k low) s = .next x ∧ x.regs = s.regs ∧ x.out = s.out ∧
      (x.contact t k) = (if bit (s.rd Reg.metro_fb_polarity t) k then low else !low)) ∧
  (∀ (s : State) (t : TileId) (k : Fin 2) (at_ : Nat), (s.relay t k).st = 2 → (s.relay t k).drive = some at_ →
    at_ + s.rd Reg.metro_relay_confirm_ms t * 1000000 ≤ s.now → (s.relay t k).a ≤ s.rd Reg.metro_relay_retries t →
    exec (.relayConfirmTimeout t k) s =
      .next (s.done ((s.onRelay t k fun r => { r with st := 1, a := r.a + 1, drive := none, counted := false }).tryPulse t k))) ∧
  (∀ (s : State) (b : BayId) (l : Bytes), s.serves (tileOf b false) = true → s.inRun (tileOf b false) = true → s.serves (tileOf b true) = false →
    (s.bay b).dispAt ≤ s.now → (s.bay b).dispPos = 0 → s.dispItem (tileOf b false) 0 = some l →
    s.rd Reg.bay_disp_lines_sent b + 1 < Reg.bay_disp_lines_sent.span →
    ∃ x, exec (.dispLine b) s = .next x ∧ x.out = s.out ++ [.bytes (tileOf b false) l] ∧ (x.bay b).dispPos = 1 ∧
      (x.bay b).dispAt = s.now + s.rd Reg.bay_disp_dwell b * 1000000000 ∧ x.rd Reg.bay_disp_lines_sent b = s.rd Reg.bay_disp_lines_sent b + 1) ∧
  (∀ (s : State) (t : TileId) (k : Fin 2) (low : Bool), (s.metro t).judged = true →
    exec (.relayFeedbackChange t k low) s = .next (s.done ((s.onTile t fun x => { x with fbLow := x.fbLow.set k low }).relayJudge t k))) ∧
  (∀ (s y z : State) (t : TileId) (k : Fin 2) (uj at_ : Nat) (cut : Bool), (s.relay t k).drive = some at_ → (s.relay t k).st = 1 →
    cut = true ∨ at_ + s.rd Reg.metro_relay_pulse_ms t * 1000000 ≤ s.now →
    y = ((((s.onBay (bayOf t) fun y =>
      { y with pulses := (y.pulses.filter fun x => decide (s.now / 1000000000 < x.1 + 60)) ++ [(s.now / 1000000000, uj)] }).wr Reg.bay_energy_last_pulse_uj
      (bayOf t) uj).drivePair t k 0).onRelay t k fun r => { r with st := 2, pulsed := some (s.now, if s.relayCmd t k = some 1 then 1 else 2) }) →
    z = (if cut then y.bump Reg.metro_pulses_cut t else y) →
    exec (.relayPulseEnd t k uj cut) s = .next (s.done ((((if z.rd Reg.metro_fb_mode t k = 0 then z.onRelay t k fun r => { r with reported := z.relayCmd t k }
      else z).relayJudge t k).tryPulse t 0).tryPulse t 1))) ∧
  (∀ (s : State) (t : TileId) (k : Fin 2), (s.relay t k).st = 2 → (s.relay t k).drive.getD 0 + s.rd Reg.metro_relay_confirm_ms t * 1000000 ≤ s.now →
    s.rd Reg.metro_relay_retries t < (s.relay t k).a →
    exec (.relayConfirmTimeout t k) s = .next (s.done ((s.onRelay t k fun r => { r with outcome := 3 }).relayMismatch t k))) ∧
  (∀ (s : State) (t : TileId) (k : Fin 2) (a : Nat), (s.relay t k).st = 0 → (s.relay t k).off = some a → a + s.rd Reg.metro_relay_confirm_ms t * 1000000 ≤ s.now →
    exec (.relayConfirmTimeout t k) s = .next (s.done (s.relayMismatch t k))) ∧
  (∀ (s : State) (b : BayId) (t : TileId) (r : List TileId) (x : Nat × Nat),
    (([false, true].map (tileOf b)).filter fun t => s.serves t && s.inRun t) = t :: r → (s.bay b).dispAt ≤ s.now →
    ((dispCycle.zipIdx.drop (s.bay b).dispPos) ++ dispCycle.zipIdx.take (s.bay b).dispPos).find? (fun x => (s.dispItem t x.1).isSome) = some x →
    s.rd Reg.bay_disp_lines_sent b + 1 < Reg.bay_disp_lines_sent.span →
    ∃ y, exec (.dispLine b) s = .next y ∧ (y.bay b).dispPos = (x.2 + 1) % 35 ∧ (y.bay b).dispAt = s.now + s.rd Reg.bay_disp_dwell b * 1000000000 ∧
      y.rd Reg.bay_disp_lines_sent b = s.rd Reg.bay_disp_lines_sent b + 1)

/-- A commit puts the staged calendar in as passive under the next version; the passive calendar comes into force at its time and the place is cleared; the record
of the feed that comes next is applied; a clock event is applied to its meter; a split older than 16 intervals is dropped, counted and flagged. A calendar
without ACTIVATE comes into force at once. Where the manual leaves a point of it open, the choice is the model's: notes/assumptions/17.md. Rules R262, R264,
R268, R270. -/
def Obligations.EphemerisBilling : Prop :=
  (∀ (s : State) (t : TileId), s.serves t = true → calBad (s.rdAll Reg.eph_cal_stage t) (s.whenNs t) = none → calActivateNs (s.rdAll Reg.eph_cal_stage t) ≠ 0 →
    s.rd Reg.eph_cal_version t < 255 →
    ∃ x, exec (.ephCalCommit t) s = .next x ∧ x.rd Reg.eph_cal_version t = s.rd Reg.eph_cal_version t + 1 ∧ x.rd Reg.eph_cal_bad_offset t = 0xFFFF ∧
      x.rd Reg.eph_last_result t = 0 ∧ x.rdB Reg.eph_cal_passive t 0 1600 = s.rdB Reg.eph_cal_stage t 0 1600 ∧ x.out = s.out ++ [.answer t .ok]) ∧
  (∀ (s : State) (t : TileId), s.serves t = true → fld (s.rdAll Reg.eph_cal_passive t) 0 1 ≠ 0 → s.hasTime t = true →
    (calActivateNs (s.rdAll Reg.eph_cal_passive t) : Int) ≤ s.timeNs t →
    ∃ x, exec (.calendarActivate t) s = .next x ∧ x.rdB Reg.eph_calendar t 0 1600 = s.rdB Reg.eph_cal_passive t 0 1600 ∧
      x.rdB Reg.eph_cal_passive t 0 1600 = List.replicate 1600 0 ∧ (x.tile t).calSince.1 = calActivateNs (s.rdAll Reg.eph_cal_passive t) / 1000000000 ∧
      (x.tile t).calSince.2 = (s.tile t).calSince.1 ∧ x.out = s.out) ∧
  (∀ (s y : State) (t : TileId) (r : ArchRec), s.serves t = true → s.qRead t 3 = (y, some (.record r)) → (y.eph t).next = r.seq →
    exec (.billingApply t) s = .next (s.done ((y.billTake t r).onEph t fun e => { e with next := r.seq + 1 }))) ∧
  (∀ (s : State) (t : TileId) (midx : Nat), s.serves t = true → fld (s.rdAll Reg.eph_clock_stage t) 0 4 = midx → fld (s.rdAll Reg.eph_clock_stage t) 14 2 = 0 →
    s.ownMidx t midx = true → (s.meter t (midxSlot midx)).state = 1 →
    exec (.clockEvent t) s = .next (s.done (consuming t [Reg.eph_clock_stage] (fun y =>
      (y.clockAdjust t (midxSlot midx) (toSigned 32 (fld (s.rdAll Reg.eph_clock_stage t) 10 4)) (fld (s.rdAll Reg.eph_clock_stage t) 4 6)).ephOk t) s))) ∧
  (∀ (s : State) (t : TileId) (e : SplitEnt), s.serves t = true → (s.eph t).splits = [e] →
    e.g + 16 * (s.meter t (midxSlot e.midx)).idur < (s.meter t (midxSlot e.midx)).lastTend → s.rd Reg.eph_splits_expired t + 1 < Reg.eph_splits_expired.span →
    ∃ x, exec (.splitExpire t) s = .next x ∧ (x.eph t).splits = [] ∧ x.rd Reg.eph_splits_expired t = s.rd Reg.eph_splits_expired t + 1 ∧
      bit (x.meter t (midxSlot e.midx)).eventFlags 15 = true ∧ x.out = s.out) ∧
  (∀ (s : State) (t : TileId), s.serves t = true → calBad (s.rdAll Reg.eph_cal_stage t) (s.whenNs t) = none → calActivateNs (s.rdAll Reg.eph_cal_stage t) = 0 →
    ∃ x, exec (.ephCalCommit t) s = .next x ∧ x.rd Reg.eph_cal_version t = (if s.rd Reg.eph_cal_version t = 255 then 1 else s.rd Reg.eph_cal_version t + 1) ∧
      x.rd Reg.eph_last_result t = 0 ∧ x.rdB Reg.eph_calendar t 0 1600 = s.rdB Reg.eph_cal_stage t 0 1600 ∧ (x.tile t).calSince.1 = s.timeSec t ∧
      x.out = s.out ++ [.answer t .ok]) ∧
  (∀ (s : State) (t : TileId), s.serves t = true →
    ∃ x, exec (.splitExpire t) s = .next x ∧ x.out = s.out ∧ (x.eph t).splits = (s.eph t).splits.filter fun e =>
      !decide (e.g + 16 * (s.meter t (midxSlot e.midx)).idur < (s.meter t (midxSlot e.midx)).lastTend)) ∧
  (∀ (s : State) (t : TileId) (r : ArchRec), s.serves t = true → (s.qRead t 3).2 = some (.record r) → r.seq < (s.eph t).next →
    ∃ x, exec (.billingApply t) s = .next x ∧ (x.eph t).next = (s.eph t).next ∧ (x.vol t).meters.recs = (s.vol t).meters.recs ∧ x.out = s.out)

/-- Profiles are written when all sixteen are well formed; a top-up adds its amount to the credit of a prepayment meter and orders its acknowledgement; held
credit is confirmed; the evaluations put off are done at the next minute; a clear of flags keeps those whose condition lasts. Rules R272, R274, R276, R277,
R283. -/
def Obligations.EphemerisPrepay : Prop :=
  (∀ (s : State) (t : TileId) (off : Nat) (data : Bytes), s.refusesConfig t = false → off + data.length ≤ 1024 →
    (∀ p < 16, profileOk ((s.wrB Reg.eph_profiles t off data).rdB Reg.eph_profiles t (64 * p) 64) = true) →
    ∃ x, exec (.profileWrite t off data) s = .next x ∧ x.rdB Reg.eph_profiles t off data.length = data ∧ x.out = s.out ++ [.answer t .ok]) ∧
  (∀ (s : State) (t : TileId) (midx : Nat) (p : Profile), fld (s.rdAll Reg.eph_topup_stage t) 0 4 = midx → s.serves t = true → s.ownMidx t midx = true →
    (s.meter t (midxSlot midx)).state = 1 → s.prepay t (s.meter t (midxSlot midx)) = some p → fld (s.rdAll Reg.eph_topup_stage t) 4 4 = 0 →
    fld (s.rdAll Reg.eph_topup_stage t) 0x18 8 = 0 → (s.eph t).topups.contains (fld (s.rdAll Reg.eph_topup_stage t) 8 8) = false →
    (s.tile t).media.journalFull = false →
    ∃ x, exec (.topup t) s = .next x ∧
      (x.meter t (midxSlot midx)).credit = sat64 ((s.meter t (midxSlot midx)).credit + toSigned 64 (fld (s.rdAll Reg.eph_topup_stage t) 0x10 8)) ∧
      (x.eph t).topups.getLast? = some (fld (s.rdAll Reg.eph_topup_stage t) 8 8) ∧ (x.vol t).meters.pend.length = (s.vol t).meters.pend.length + 1 ∧ x.out = s.out) ∧
  (∀ (s : State) (t : TileId) (i : Nat), s.serves t = true → s.ephSelected t = some i →
    ∃ x, exec (.confirmHeld t) s = .next x ∧ (x.meter t i).creditHeld = 0 ∧ (x.meter t i).credit = (s.meter t i).credit ∧ x.rd Reg.eph_last_result t = 0 ∧
      x.out = s.out ++ [.answer t .ok]) ∧
  (∀ (s : State) (t : TileId), s.serves t = true → s.hasTime t = true → (s.eph t).minute ≠ s.localNow t / 60 →
    exec (.prepayEvaluate t) s = .next (s.done ((s.eph t).deferred.foldl (fun s i => s.prepayEval t i) (s.onEph t fun e => { e with minute := s.localNow t / 60 })))) ∧
  (∀ (s : State) (t : TileId) (mask i : Nat), s.serves t = true → s.ephSelected t = some i →
    ∃ x, exec (.flagsClear t mask) s = .next x ∧ x.out = s.out ++ [.answer t .ok] ∧
      ∀ k < 32, bit (x.meter t i).eventFlags k = (bit (s.meter t i).eventFlags k && (!bit mask k || (s.flagsHeld t i).contains k)))

/-- A command to a meter that has a relay is issued; the check asks when due; an unconfirmed command is issued again while retries are left; the audit asks when
due and sets the next one. A meter without a place in the period of the audits is given one. Where the manual leaves a point of it open, the choice is the
model's: notes/assumptions/17.md. Rules R278, R279, R280. -/
def Obligations.EphemerisRelays : Prop :=
  (∀ (s : State) (t : TileId) (c i : Nat), s.serves t = true → s.ephSelected t = some i → s.relayMeter t (s.meter t i) = true → c ≤ 2 → (s.meter t i).path ≠ 3 →
    (s.erelay t i).st ≠ 0 →
    exec (.ephRelayCmd t c) s = .next (s.done ((s.relayIssue t i c 1).answer t .ok))) ∧
  (∀ (s : State) (t : TileId) (slot a : Nat), (s.erelay t slot).getAt = some a → s.serves t = true → (s.erelay t slot).st = 2 → a ≤ s.now →
    ∃ x, exec (.relayCheckGet t slot) s = .next x ∧ (x.erelay t slot).getAt = none ∧ (x.eph t).reqs.length = (s.eph t).reqs.length + 1 ∧ x.regs = s.regs ∧
      x.out = s.out) ∧
  (∀ (s : State) (t : TileId) (slot : Nat), s.serves t = true → (s.erelay t slot).st = 2 → s.relayLate t slot = true →
    (s.erelay t slot).a ≤ s.rd Reg.eph_relay_retries t →
    exec (.relayConfirmExpiry t slot) s = .next (s.done (s.relayIssue t slot (s.meter t slot).relayCmd ((s.erelay t slot).a + 1)))) ∧
  (∀ (s : State) (t : TileId) (slot : Nat), s.serves t = true → s.relayMeter t (s.meter t slot) = true → (s.meter t slot).path ≠ 3 →
    (s.erelay t slot).auditAt ≠ 0 → (s.erelay t slot).auditAt ≤ s.now → s.asking t slot (fun j => decide (j = .auditGet)) = false →
    ∃ x, exec (.relayAudit t slot) s = .next x ∧ (x.erelay t slot).auditAt = s.now + s.rd Reg.eph_relay_audit_h t * 3600 * 1000000000 ∧
      (x.eph t).reqs.length = (s.eph t).reqs.length + 1 ∧ x.regs = s.regs ∧ x.out = s.out) ∧
  (∀ (s y : State) (t : TileId) (c i : Nat), s.serves t = true → s.ephSelected t = some i → s.relayCommand t i c = some y →
    exec (.ephRelayCmd t c) s = .next (s.done (y.answer t .ok))) ∧
  (∀ (s : State) (t : TileId) (slot : Nat), s.serves t = true → (s.erelay t slot).st = 2 → s.relayLate t slot = true →
    exec (.relayConfirmExpiry t slot) s = .next (s.done (s.relayDiffers t slot))) ∧
  (∀ (s : State) (t : TileId) (slot : Nat), s.serves t = true → s.relayMeter t (s.meter t slot) = true → (s.meter t slot).path ≠ 3 → (s.erelay t slot).auditAt = 0 →
    ∃ x, exec (.relayAudit t slot) s = .next x ∧ (x.erelay t slot).auditAt = s.now + s.auditTurn t slot ∧ x.regs = s.regs ∧ x.out = s.out)

/-- The request that may go next is sealed and sent on its meter's path; a response of an unknown meter is dropped and counted; a response takes its request out
and completes it; a request unanswered in time is sent again while tries are left, and ended then; a DOWN_RSP goes to Ephemeris; a meter's clock is read when
its check is due. Where the manual leaves a point of it open, the choice is the model's: notes/assumptions/15.md, notes/assumptions/17.md. Rules R284, R386,
R442. -/
def Obligations.EphemerisMessages : Prop :=
  (∀ (s : State) (t : TileId) (r : EReq) (y : State) (apdu : Bytes), s.serves t = true → (s.eph t).reqs = [r] → r.sent = none → r.kind = 1 → s.icState t r.slot = .ready →
    s.mayPush t r = true → s.unsound t r.slot = false → (s.meter t r.slot).state = 1 →
    r.job = .relayGet → s.sealDown t r.slot r.body = (y, some apdu) → (y.meter t r.slot).path = 0 →
    exec (.ephDownlinkApdu t) s = .next (s.done ((y.onEph t fun e => { e with reqs := e.reqs.map fun q =>
      if q.slot = r.slot ∧ q.inv = r.inv then { q with sent := some (s.now, s.timeNs t), tries := q.tries + 1, via := (s.satSess t (s.meter t r.slot).satId).map fun x => x.value } else q }).swSend t 6 3 r.cls
        (.mac (y.midxOf t r.slot) r.kind r.inv apdu)))) ∧
  (∀ (s : State) (t : TileId) (f : Frame), s.serves t = true →
    (s.vol t).meters.lookup f.addrKind f.addr = none → s.rd Reg.eph_resp_dropped t + 1 < Reg.eph_resp_dropped.span →
    ∃ x, exec (.ephResponse t f) s = .next x ∧ x.rd Reg.eph_resp_dropped t = s.rd Reg.eph_resp_dropped t + 1 ∧ (∀ u, x.vol u = s.vol u) ∧ x.out = s.out) ∧
  (∀ (s y z : State) (t : TileId) (f : Frame) (midx inv : Nat) (p : Plain) (w : Option (Nat × Nat) × Option (Nat × Nat))
    (d : Option Bytes) (r : EReq), s.serves t = true →
    (s.vol t).meters.lookup f.addrKind f.addr = some midx → s.openFrame t midx f 0 = (y, .ok p) → y.passCounters t midx p = (z, .ok w) →
    dlmsRsp p.apdu = some (inv, d) →
    ((z.deferWaters t midx w.1 w.2).eph t).reqs.find? (fun r => decide (r.slot = midxSlot midx) && decide (r.inv = inv) && r.sent.isSome) = some r →
    exec (.ephResponse t f) s = .next (s.done (((z.deferWaters t midx w.1 w.2).dropReq t r).ephDone t r (some d) f.arrival))) ∧
  (∀ (s : State) (t : TileId) (r : EReq) (a : Nat × Int), (s.eph t).reqs = [r] → r.sent = some a → a.1 + s.rd Reg.eph_resp_timeout_ms t * 1000000 ≤ s.now →
    s.pushWaits t r.slot r.inv = false →
    r.tries < s.rd Reg.eph_mgmt_tries t → r.job ≠ .relayAct →
    ∃ x, exec (.responseTimeout t r.slot r.inv) s = .next x ∧ (x.eph t).reqs = [{ r with sent := none }] ∧ x.regs = s.regs ∧ x.out = s.out) ∧
  (∀ (s : State) (t : TileId) (p : Fin 2) (frame : Bytes) (m : LinkIn) (e : Sess) (f : Frame), (s.linkRx t p frame).2 = some m → m.type = 0x13 →
    m.sess.bind (Tbl.get ((s.linkRx t p frame).1.sw t).sess) = some e →
    f = { source := p, addrKind := 0, satId := e.sat, forceOld := false, rfSecured := false, entry := 0, addr := fld m.payload 0 8,
          arrival := (s.linkRx t p frame).1.arrivalAt t p, envSeq := 0, aad := [], apdu := m.payload.drop 12, env := 0 } →
    exec (.downRsp t p frame) s =
      .next (s.done ((s.linkRx t p frame).1.swStore t p 6 { cls := 1, len := frame.length, cells := 0, shared := false, body := .eph f }))) ∧
  (∀ (s : State) (t : TileId) (slot : Nat), s.serves t = true → s.rd Reg.time_meter_set_enable t = 1 → (s.meter t slot).state = 1 → (s.meter t slot).path ≤ 2 →
    s.hasTime t = true → (s.eclock t slot).nextAt ≠ 0 → (s.eclock t slot).nextAt ≤ s.now → s.asking t slot EJob.isClock = false →
    s.rd Reg.time_meter_checks t + 1 < Reg.time_meter_checks.span →
    ∃ x, exec (.meterClockCheck t slot) s = .next x ∧ x.rd Reg.time_meter_checks t = s.rd Reg.time_meter_checks t + 1 ∧
      (x.eclock t slot).nextAt = s.now + s.rd Reg.time_meter_check_h t * 3600 * 1000000000 ∧ (x.eph t).reqs.length = (s.eph t).reqs.length + 1 ∧ x.out = s.out) ∧
  (∀ (s y z w : State) (t : TileId) (r : EReq) (apdu body : Bytes), s.serves t = true →
    (List.range 4).findSome? (fun k => ((s.eph t).reqs.filter fun q => q.sent.isNone).find? fun q =>
      decide (q.kind = k) && (decide (s.icState t q.slot ≠ .wait) && s.mayPush t q && !s.unsound t q.slot)) = some r →
    (s.meter t r.slot).state = 1 → s.icState t r.slot = .ready →
    body = (if r.job = .clockSet then s.clockSetting t (s.timeNs t + pathDelay (s.eclock t r.slot).trips) r.inv else r.body) →
    s.sealDown t r.slot body = (y, some apdu) →
    z = (y.onEph t fun e => { e with reqs := e.reqs.map fun q =>
      if q.slot = r.slot ∧ q.inv = r.inv then { q with sent := some (s.now, s.timeNs t), tries := q.tries + 1, via := (s.satSess t (s.meter t r.slot).satId).map fun x => x.value } else q }) →
    w = (if r.job = .clockSet then z.onEClock t r.slot fun c => { c with setAt := s.timeNs t + pathDelay (s.eclock t r.slot).trips } else z) →
    exec (.ephDownlinkApdu t) s = .next (s.done (match (w.meter t r.slot).path with
      | 0 => w.swSend t 6 3 r.cls (.mac (w.midxOf t r.slot) r.kind r.inv apdu)
      | 1 => w.swSend t 6 4 r.cls (.mac (w.midxOf t r.slot) r.kind r.inv apdu)
      | _ => w.sendDown t (w.meter t r.slot).satId r.cls (w.meter t r.slot).sysTitle apdu))) ∧
  (∀ (s : State) (t : TileId) (slot inv : Nat) (r : EReq) (a : Nat × Int), (s.eph t).reqs.find? (fun q => decide (q.slot = slot) && decide (q.inv = inv)) = some r →
    r.sent = some a → a.1 + s.rd Reg.eph_resp_timeout_ms t * 1000000 ≤ s.now → s.pushWaits t slot inv = false →
    s.rd Reg.eph_mgmt_tries t ≤ r.tries ∨ r.job = .relayAct →
    exec (.responseTimeout t slot inv) s = .next (s.done ((s.dropReq t r).ephDone t r none 0))) ∧
  (∀ (s : State) (t : TileId) (slot inv : Nat) (r : EReq) (a : Nat × Int), (s.eph t).reqs.find? (fun q => decide (q.slot = slot) && decide (q.inv = inv)) = some r →
    r.sent = some a → a.1 + s.rd Reg.eph_resp_timeout_ms t * 1000000 ≤ s.now → s.pushWaits t slot inv = false →
    r.tries < s.rd Reg.eph_mgmt_tries t → r.job ≠ .relayAct →
    ∃ x, exec (.responseTimeout t slot inv) s = .next x ∧ x.regs = s.regs ∧ x.out = s.out ∧
      (x.eph t).reqs = (s.eph t).reqs.map (fun y => if y.slot = slot ∧ y.inv = inv then { y with sent := none } else y)) ∧
  (∀ (s : State) (t : TileId) (slot : Nat), s.serves t = true → s.rd Reg.time_meter_set_enable t = 1 → (s.meter t slot).state = 1 → (s.meter t slot).path ≤ 2 →
    s.hasTime t = true → (s.eclock t slot).nextAt = 0 →
    ∃ x, exec (.meterClockCheck t slot) s = .next x ∧ (x.eclock t slot).nextAt = s.now + turnIn (s.checkPeriod t) slot ∧ x.regs = s.regs ∧ x.out = s.out)

/-- A described image whose hash agrees is loaded; a campaign with members to do is started, paused, ordered to activate and cancelled in its states; a listed
meter is added. The image of a campaign without one returns it to its former state; a cancel takes every member that is not done out of the campaign. Where
the manual leaves a point of it open, the choice is the model's: notes/assumptions/17.md. Rules R288, R289, R290, R293. -/
def Obligations.Campaigns : Prop :=
  (∀ (s : State) (t : TileId), s.serves t = true → s.campState t ≠ 2 → s.campState t ≠ 3 → s.campState t ≠ 4 → campOk (s.rdAll Reg.eph_push_stage t) = true →
    Crypto.sha256 (s.rdB Reg.eph_image t 0 (campSize (s.rdAll Reg.eph_push_stage t))) = ((s.rdAll Reg.eph_push_stage t).drop 0x40).take 32 →
    ∃ x, exec (.pushLoad t) s = .next x ∧ x.rd Reg.eph_push_state t = 1 ∧ (x.eph t).members = [] ∧ (x.eph t).mcast = none ∧ (x.eph t).activate = false ∧
      x.rdAll Reg.eph_push_descriptor t = s.rdAll Reg.eph_push_stage t ∧ x.rd Reg.eph_last_result t = 0 ∧ x.out = s.out ++ [.answer t .ok]) ∧
  (∀ (s : State) (t : TileId) (i : Nat) (r : List Nat), s.serves t = true → s.campState t = 1 ∨ s.campState t = 3 →
    (s.wrM Reg.eph_push_state t 2).openMembers t = i :: r →
    ∃ x, exec (.pushStart t) s = .next x ∧ x.rd Reg.eph_push_state t = 2 ∧ x.rd Reg.eph_last_result t = 0 ∧ x.out = s.out ++ [.answer t .ok]) ∧
  (∀ (s : State) (t : TileId), s.serves t = true → s.campState t = 2 →
    ∃ x, exec (.pushPause t) s = .next x ∧ x.rd Reg.eph_push_state t = 3 ∧ x.rd Reg.eph_last_result t = 0 ∧ x.eph t = s.eph t ∧ x.out = s.out ++ [.answer t .ok]) ∧
  (∀ (s : State) (t : TileId), s.serves t = true → s.campState t = 2 → (∀ i ∈ s.members t, (s.meter t i).pushState % 16 ≠ 5) →
    ∃ x, exec (.pushActivate t) s = .next x ∧ (x.eph t).activate = true ∧ x.rd Reg.eph_last_result t = 0 ∧ x.out = s.out ++ [.answer t .ok]) ∧
  (∀ (s : State) (t : TileId), s.serves t = true → s.campState t = 2 → (∀ i ∈ s.members t, (s.meter t i).pushState % 16 = 7 ∨ (s.meter t i).pushState % 16 = 8) →
    ∃ x, exec (.pushCancel t) s = .next x ∧ x.rd Reg.eph_push_state t = 6 ∧ x.rd Reg.eph_last_result t = 0 ∧ x.eph t = s.eph t ∧ x.out = s.out ++ [.answer t .ok]) ∧
  (∀ (s : State) (t : TileId) (m : Nat), s.serves t = true → s.campState t = 1 →
    ((List.range 256).map fun i => s.rdF Reg.eph_push_members t (4 * i) 4).filter (· != 0xFFFFFFFF) = [m] → s.ownMidx t m = true →
    (s.meter t (midxSlot m)).state = 1 → bit (s.clsFlags t (s.meter t (midxSlot m)).cls) 3 = true → (s.meter t (midxSlot m)).pushState % 16 = 0 →
    ∃ x, exec (.pushAdd t) s = .next x ∧ (x.meter t (midxSlot m)).pushState % 16 = 1 ∧ (x.meter t (midxSlot m)).imgId = campId (s.campaign t) ∧
      (x.meter t (midxSlot m)).imgBlocks = 0 ∧ x.rd Reg.eph_last_result t = 0 ∧ x.out = s.out ++ [.answer t .ok]) ∧
  (∀ (s : State) (t : TileId), s.serves t = true → s.campState t = 4 → campOk (s.rdAll Reg.eph_push_stage t) = true →
    Crypto.sha256 (s.rdB Reg.eph_image t 0 (campSize (s.rdAll Reg.eph_push_stage t))) = ((s.rdAll Reg.eph_push_stage t).drop 0x40).take 32 →
    (s.campaign t).drop 0x40 = (s.rdAll Reg.eph_push_stage t).drop 0x40 →
    exec (.pushLoad t) s = .next (s.done (consuming t [Reg.eph_push_stage, Reg.eph_image] (fun z =>
      let y := ((s.members t).filter fun i => decide ((s.meter t i).pushState % 16 = 6)).foldl
        (fun s i => s.onMember t i fun m => { m with actAt := s.now, heard := false }) z
      ((y.wrM Reg.eph_push_state t (y.rd Reg.eph_push_state t / 16)).pushSettle t).ephOk t) s))) ∧
  (∀ (s : State) (t : TileId), s.serves t = true → s.campState t = 1 ∨ s.campState t = 3 →
    exec (.pushStart t) s = .next (s.done (((s.wrM Reg.eph_push_state t 2).pushSettle t).ephOk t))) ∧
  (∀ (s : State) (t : TileId), s.serves t = true → s.campState t = 2 →
    exec (.pushActivate t) s = .next (s.done (((((s.onEph t fun e => { e with activate := true }).members t).filter fun i =>
      decide (((s.onEph t fun e => { e with activate := true }).meter t i).pushState % 16 = 5)).foldl (fun s i => pushMemberStep t i s)
        (s.onEph t fun e => { e with activate := true })).ephOk t))) ∧
  (∀ (s : State) (t : TileId), s.serves t = true → 1 ≤ s.campState t → s.campState t ≤ 4 →
    ∃ x, exec (.pushCancel t) s = .next x ∧ x.rd Reg.eph_push_state t = 6 ∧ x.rd Reg.eph_last_result t = 0 ∧
      (∀ i ∈ s.members t, 7 ≤ (x.meter t i).pushState % 16) ∧ x.out = s.out ++ [.answer t .ok]) ∧
  (∀ (s : State) (t : TileId) (m : Nat), s.serves t = true → 1 ≤ s.campState t → s.campState t ≤ 3 →
    ((List.range 256).map fun i => s.rdF Reg.eph_push_members t (4 * i) 4).filter (· != 0xFFFFFFFF) = [m] → s.ownMidx t m = true →
    (s.meter t (midxSlot m)).state = 1 → bit (s.clsFlags t (s.meter t (midxSlot m)).cls) 3 = true →
    [0, 7, 8, 9].contains ((s.meter t (midxSlot m)).pushState % 16) = true →
    ∃ x, exec (.pushAdd t) s = .next x ∧ (x.meter t (midxSlot m)).pushState % 16 = 1 ∧ (x.meter t (midxSlot m)).imgId = campId (s.campaign t) ∧
      (x.meter t (midxSlot m)).imgBlocks = 0 ∧ x.rd Reg.eph_last_result t = 0 ∧ x.out = s.out ++ [.answer t .ok])

/-- A calendar push places its next request; a member is asked in the order of its machine, and activated once ordered; a multicast round sends the next block,
and ends with its last; a fill pass asks the block status, sends the missing blocks, and asks the count; the verified members are activated at the time; one
that does not come back in 600 s fails. Where the manual leaves a point of it open, the choice is the model's: notes/assumptions/17.md. Rules R287, R290,
R291, R292. -/
def Obligations.CampaignSteps : Prop :=
  (∀ (s : State) (t : TileId) (slot : Nat), s.serves t = true → s.rd Reg.eph_cal_push_enable t = 1 → s.calMeter t (s.meter t slot) = true →
    (s.meter t slot).calVersion ≠ s.rd Reg.eph_cal_version t → s.asking t slot EJob.isCal = false → (Tbl.get (s.eph t).calRetry slot) = none →
    Tbl.get (s.eph t).cal slot = none →
    ∃ x, exec (.calendarPush t slot) s = .next x ∧ (x.eph t).reqs.length = (s.eph t).reqs.length + 1 ∧
      (x.eph t).reqs.getLast?.map EReq.job = some (.cal 0 (s.rd Reg.eph_cal_version t)) ∧ (x.meter t slot).pushState / 16 = 2 ∧ x.out = s.out) ∧
  (∀ (s : State) (t : TileId) (slot : Nat), s.serves t = true → s.campState t = 2 → (s.members t).contains slot = true → s.asking t slot EJob.isPush = false →
    (s.member t slot).waitTo ≤ s.now → (s.meter t slot).pushState % 16 = 1 → (s.member t slot).sub = 0 →
    exec (.pushMemberStep t slot) s = .next (s.done (s.pushAsk t slot 2 (dlmsGet (imageTransfer 2))))) ∧
  (∀ (s : State) (t : TileId) (slot : Nat), s.serves t = true → s.campState t = 2 → (s.members t).contains slot = true → s.asking t slot EJob.isPush = false →
    (s.member t slot).waitTo ≤ s.now → (s.meter t slot).pushState % 16 = 5 → (s.eph t).activate = true →
    exec (.pushMemberStep t slot) s = .next (s.done (((s.pushTo t slot 6).onMember t slot fun m =>
      { m with actAt := s.now, heard := false }).pushAsk t slot 14 (dlmsAct (imageTransfer 4) (dInt8 0))))) ∧
  (∀ (s y : State) (t : TileId) (i : Nat) (key : Bytes), s.serves t = true → s.campState t = 2 → (s.eph t).mcastDone = false → s.members t = [i] →
    (s.meter t i).pushState % 16 = 2 → s.mcastFor t i = true → s.ctrReady t 2 (s.eph t).bcast = true → s.useBayKey t (campKey (s.campaign t)) 1 = (y, some key) →
    (s.eph t).mcast = none → 1 < campBlocks (s.campaign t) →
    ∃ x, exec (.multicastRound t) s = .next x ∧ (x.eph t).mcast = some (0, 1) ∧ (x.eph t).bcast = (s.eph t).bcast + 1 ∧ (x.eph t).mcastDone = false) ∧
  (∀ (s : State) (t : TileId) (slot n : Nat) (r : List Nat), s.serves t = true → s.campState t = 2 → (s.members t).contains slot = true →
    s.asking t slot EJob.isPush = false → (s.member t slot).waitTo ≤ s.now → (s.meter t slot).pushState % 16 = 3 → (s.member t slot).sub = 1 →
    (s.member t slot).todo = n :: r →
    exec (.fillPass t slot) s = .next (s.done (s.pushAsk t slot 12 (dlmsAct (imageTransfer 2) (s.blockData t n))))) ∧
  (∀ (s : State) (t : TileId), s.serves t = true → s.campState t = 2 → campActivate (s.campaign t) ≠ 0 → s.hasTime t = true →
    (campActivate (s.campaign t) : Int) ≤ s.timeNs t →
    exec (.imageActivateTime t) s =
      .next (s.done (((s.members t).filter fun i => decide ((s.meter t i).pushState % 16 = 5)).foldl (fun s i => pushMemberStep t i s) s))) ∧
  (∀ (s : State) (t : TileId) (slot : Nat), s.serves t = true → s.campState t = 2 → (s.members t).contains slot = true → (s.meter t slot).pushState % 16 = 6 →
    (s.member t slot).heard = false → (s.member t slot).actAt + 600 * 1000000000 ≤ s.now →
    exec (.activatingTimeout t slot) s = .next (s.done (s.pushFail t slot 5))) ∧
  (∀ (s : State) (t : TileId) (slot k v : Nat), s.serves t = true → s.rd Reg.eph_cal_push_enable t ≠ 0 → s.calMeter t (s.meter t slot) = true →
    s.rd Reg.eph_cal_version t = v → (s.meter t slot).calVersion ≠ v → s.asking t slot EJob.isCal = false → (Tbl.get (s.eph t).calRetry slot).getD 0 ≤ s.now →
    Tbl.get (s.eph t).cal slot = some (k, v) →
    ∃ x, exec (.calendarPush t slot) s = .next x ∧ (x.eph t).reqs.length = (s.eph t).reqs.length + 1 ∧
      (x.eph t).reqs.getLast?.map EReq.job = some (.cal k v) ∧ (x.meter t slot).pushState / 16 = 2 ∧ x.out = s.out) ∧
  (∀ (s : State) (t : TileId) (slot : Nat), s.serves t = true → s.campState t = 2 → (s.members t).contains slot = true → s.asking t slot EJob.isPush = false →
    (s.member t slot).waitTo ≤ s.now → (s.meter t slot).pushState % 16 = 1 → (s.member t slot).sub = 1 →
    exec (.pushMemberStep t slot) s = .next (s.done (s.pushAsk t slot 5 (dlmsGet (imageTransfer 5))))) ∧
  (∀ (s : State) (t : TileId) (slot : Nat), s.serves t = true → s.campState t = 2 → (s.members t).contains slot = true → s.asking t slot EJob.isPush = false →
    (s.member t slot).waitTo ≤ s.now → (s.meter t slot).pushState % 16 = 1 → 2 ≤ (s.member t slot).sub →
    exec (.pushMemberStep t slot) s = .next (s.done (s.pushAsk t slot 11 (dlmsAct (imageTransfer 1)
      (dStr [dOct (campIdent (s.campaign t)), dU32 (campSize (s.campaign t))]))))) ∧
  (∀ (s : State) (t : TileId) (slot : Nat), s.serves t = true → s.campState t = 2 → (s.members t).contains slot = true → s.asking t slot EJob.isPush = false →
    (s.member t slot).waitTo ≤ s.now → (s.meter t slot).pushState % 16 = 2 →
    (s.eph t).mcastDone = true ∨ s.mcastFor t slot = false → exec (.pushMemberStep t slot) s = .next (s.done (s.pushTo t slot 3))) ∧
  (∀ (s : State) (t : TileId) (slot : Nat), s.serves t = true → s.campState t = 2 → (s.members t).contains slot = true → s.asking t slot EJob.isPush = false →
    (s.member t slot).waitTo ≤ s.now → (s.meter t slot).pushState % 16 = 4 →
    exec (.pushMemberStep t slot) s = .next (s.done (if (s.member t slot).sub = 0 then s.pushAsk t slot 13 (dlmsAct (imageTransfer 3) (dInt8 0))
      else s.pushAsk t slot 6 (dlmsGet (imageTransfer 6))))) ∧
  (∀ (s : State) (t : TileId) (slot : Nat), s.serves t = true → s.campState t = 2 → (s.members t).contains slot = true → s.asking t slot EJob.isPush = false →
    (s.member t slot).waitTo ≤ s.now → (s.meter t slot).pushState % 16 = 6 →
    exec (.pushMemberStep t slot) s = .next (s.done (s.pushAsk t slot 16 (dlmsGet (imageTransfer 6))))) ∧
  (∀ (s y : State) (t : TileId) (key : Bytes) (r k : Nat), s.serves t = true → s.campState t = 2 → (s.eph t).mcastDone = false →
    (∀ i ∈ s.members t, (s.meter t i).pushState % 16 ≠ 1) → (∃ i ∈ s.members t, (s.meter t i).pushState % 16 = 2 ∧ s.mcastFor t i = true) →
    s.ctrReady t 2 (s.eph t).bcast = true → s.useBayKey t (campKey (s.campaign t)) 1 = (y, some key) → (s.eph t).mcast.getD (0, 0) = (r, k) →
    ∃ x, exec (.multicastRound t) s = .next x ∧ (x.eph t).bcast = (s.eph t).bcast + 1 ∧
      (x.eph t).mcastDone = (decide (campBlocks (s.campaign t) ≤ k + 1) && decide (campRounds (s.campaign t) ≤ r + 1)) ∧
      (x.eph t).mcast = (if campBlocks (s.campaign t) ≤ k + 1 then (if campRounds (s.campaign t) ≤ r + 1 then none else some (r + 1, 0)) else some (r, k + 1))) ∧
  (∀ (s : State) (t : TileId) (slot : Nat), s.serves t = true → s.campState t = 2 → (s.members t).contains slot = true → s.asking t slot EJob.isPush = false →
    (s.member t slot).waitTo ≤ s.now → (s.meter t slot).pushState % 16 = 3 → (s.member t slot).sub = 0 →
    exec (.fillPass t slot) s = .next (s.done (s.pushAsk t slot 3 (dlmsGet (imageTransfer (if 15872 < campBlocks (s.campaign t) then 4 else 3)))))) ∧
  (∀ (s : State) (t : TileId) (slot : Nat), s.serves t = true → s.campState t = 2 → (s.members t).contains slot = true → s.asking t slot EJob.isPush = false →
    (s.member t slot).waitTo ≤ s.now → (s.meter t slot).pushState % 16 = 3 → (s.member t slot).sub ≠ 0 →
    (s.member t slot).todo = [] → exec (.fillPass t slot) s = .next (s.done (s.pushAsk t slot 4 (dlmsGet (imageTransfer 4)))))

/-- A received data frame goes to Ephemeris when it answers its request, else to Gather, and an unsolicited one is counted; a transmission begins, keys the line
after its lead, ends and leaves the line; the zero crossing becomes valid with the eighth good interval, is invalid after a bad one and is lost after 25 ms;
airtime older than 10 s and a superseded map set that is due are dropped. Where the manual leaves a point of it open, the choice is the model's:
notes/assumptions/18.md. Rules R297, R301, R303, R322, R542. -/
def Obligations.PlcLink : Prop :=
  (∀ (s y : State) (t : TileId) (p : PlcPhy) (b : Bytes), s.plcRx t p = (y, true) →
    y.isEphRsp t (plcFrame y t p b) = false →
    (y.swCount t 3 2 b b.length).plcUnsolicited t (plcFrame y t p b) (p.path.headD 0xFFFF) = false →
    exec (.plcFrameRx t p b) s = .next (s.done (((y.swCount t 3 2 b b.length).toGather t 3 b.length
      [plcFrame y t p b]).1))) ∧
  (∀ (s : State) (t : TileId) (dur ofs : Nat) (fail acked : Bool) (route : List Nat), (s.plc t).up = true → (s.plc t).busy = none → s.pier.pfail = false →
    exec (.plcTransmit t dur ofs fail acked route) s = .next (s.done (s.plcBegin t dur fail route))) ∧
  (∀ (s : State) (t : TileId) (b : PBusy) (dur ofs : Nat) (fail acked : Bool) (route : List Nat), (s.plc t).up = true → (s.plc t).busy = some b → b.step = 1 →
    b.at_ + 50000 ≤ s.now → s.pier.pfail = false →
    exec (.plcTransmit t dur ofs fail acked route) s = .next (s.done (s.plcSend t b ofs))) ∧
  (∀ (s : State) (t : TileId) (b : PBusy) (dur ofs : Nat) (fail acked : Bool) (route : List Nat), (s.plc t).up = true → (s.plc t).busy = some b → b.step = 2 →
    b.at_ + b.lead + b.dur + 10000 ≤ s.now →
    exec (.plcTransmit t dur ofs fail acked route) s = .next (s.done (s.plcEnd t b acked))) ∧
  (∀ (s : State) (t : TileId) (b : PBusy) (dur ofs : Nat) (fail acked : Bool) (route : List Nat), (s.plc t).up = true → (s.plc t).busy = some b → b.step = 3 →
    b.at_ + 50000 ≤ s.now →
    ∃ x, exec (.plcTransmit t dur ofs fail acked route) s = .next x ∧ (x.plc t).busy = none ∧ (x.vol t).drive.psel = 3 ∧ (x.vol t).drive.txen = false ∧
      x.regs = s.regs ∧ x.out = s.out) ∧
  (∀ (s : State) (t : TileId) (e : Nat) (l : List Nat), (s.plc t).up = true → (s.plc t).zc = e :: l → (∀ e' ∈ (s.plc t).zc, e' + 2000000 ≤ s.now) →
    15385000 ≤ s.now - e → s.now - e ≤ 22222000 → 7 ≤ (s.plc t).zcRun →
    ∃ x, exec (.zcEdge t) s = .next x ∧ (x.plc t).zcRun = (s.plc t).zcRun + 1 ∧ (x.plc t).valid = true ∧ (x.plc t).zc.head? = some s.now ∧ x.out = s.out) ∧
  (∀ (s : State) (t : TileId) (e : Nat) (l : List Nat), (s.plc t).zc = e :: l → e + 25000000 ≤ s.now → (s.plc t).valid = true →
    ∃ x, exec (.zcLost t) s = .next x ∧ (x.plc t).zcRun = 0 ∧ (x.plc t).valid = false ∧ x.rd Reg.plc_zc_state t = 0 ∧ x.out = s.out) ∧
  (∀ (s : State) (t : TileId), ∃ x, exec (.plcDutyFree t) s = .next x ∧ (x.plc t).duty = (s.plc t).duty.filter (fun d => decide (s.now < d.1 + 10000000000)) ∧
    (x.plc t).txq = (s.plc t).txq ∧ x.regs = s.regs ∧ x.out = s.out) ∧
  (∀ (s : State) (t : TileId) (a d : Nat) (n : PNeigh), Tbl.get (s.plc t).neigh a = some n → n.dropAt = some d → d ≤ s.now →
    ∃ x, exec (.mapSetDrop t a) s = .next x ∧ Tbl.get (x.plc t).neigh a = some { n with rxPrev := none, dropAt := none } ∧ x.regs = s.regs ∧ x.out = s.out) ∧
  (∀ (s y : State) (t : TileId) (p : PlcPhy) (b : Bytes), s.plcRx t p = (y, true) →
    y.isEphRsp t (plcFrame y t p b) = true →
    exec (.plcFrameRx t p b) s = .next (s.done (y.swSend t 3 6 1 (.eph (plcFrame y t p b))))) ∧
  (∀ (s y : State) (t : TileId) (p : PlcPhy) (b : Bytes), s.plcRx t p = (y, true) →
    y.isEphRsp t (plcFrame y t p b) = false →
    (y.swCount t 3 2 b b.length).plcUnsolicited t (plcFrame y t p b) (p.path.headD 0xFFFF) = true →
    exec (.plcFrameRx t p b) s = .next (s.done ((((y.swCount t 3 2 b b.length).bump Reg.plc_unsolicited t).toGather t 3 b.length
      [plcFrame y t p b]).1))) ∧
  (∀ (s y : State) (t : TileId) (p : PlcPhy) (b : Bytes), s.plcRx t p = (y, false) → exec (.plcFrameRx t p b) s = .next (s.done y)) ∧
  (∀ (s : State) (t : TileId), (s.plc t).up = true → (s.plc t).zc = [] →
    ∃ x, exec (.zcEdge t) s = .next x ∧ (x.plc t).zc = [s.now] ∧ (x.plc t).zcRun = 0 ∧ (x.plc t).valid = false ∧ x.out = s.out) ∧
  (∀ (s : State) (t : TileId) (e : Nat) (l : List Nat), (s.plc t).up = true → (s.plc t).zc = e :: l → (∀ e' ∈ (s.plc t).zc, e' + 2000000 ≤ s.now) →
    15385000 ≤ s.now - e → s.now - e ≤ 22222000 → (s.plc t).zcRun < 7 →
    ∃ x, exec (.zcEdge t) s = .next x ∧ (x.plc t).zcRun = (s.plc t).zcRun + 1 ∧ (x.plc t).valid = (s.plc t).valid ∧ (x.plc t).zc.head? = some s.now ∧ x.out = s.out) ∧
  (∀ (s : State) (t : TileId) (e : Nat) (l : List Nat), (s.plc t).up = true → (s.plc t).zc = e :: l → (∀ e' ∈ (s.plc t).zc, e' + 2000000 ≤ s.now) →
    s.now - e < 15385000 ∨ 22222000 < s.now - e →
    ∃ x, exec (.zcEdge t) s = .next x ∧ (x.plc t).zcRun = 0 ∧ (x.plc t).valid = false ∧ (x.plc t).zc.head? = some s.now ∧ x.out = s.out) ∧
  (∀ (s : State) (t : TileId) (e : Nat) (l : List Nat), (s.plc t).zc = e :: l → e + 25000000 ≤ s.now → (s.plc t).valid = false →
    ∃ x, exec (.zcLost t) s = .next x ∧ (x.plc t).zcRun = 0 ∧ (x.plc t).valid = false ∧ x.regs = s.regs ∧ x.out = s.out)

/-- A known device that authenticates is admitted and an unknown one refused; the wanted mode is noted; a cycle of polling fills its slots from its second; a
collection request goes out for a meter that is late, or once its slot has come; the beacon goes out under the next number, when its period has passed or at a
join slot; the routes are formed anew every ten minutes; the phase query sets the next one. Where the manual leaves a point of it open, the choice is the
model's: notes/assumptions/18.md. Rules R304, R307, R308, R309, R312, R329, R333. -/
def Obligations.PlcNetwork : Prop :=
  (∀ (s y : State) (t : TileId) (eui midx : Nat) (psk : Bytes), (s.plc t).up = true → s.rd Reg.plc_mode_now t = 0 → (s.vol t).meters.lookup 1 eui = some midx →
    (s.meter t (midxSlot midx)).state = 1 → (s.meter t (midxSlot midx)).path = 0 → s.takePsk t eui = (y, some psk) → (s.plc t).joined.length < 512 →
    ((s.plc t).joined.any fun e => decide (e.2 = eui)) = false → exec (.join t eui true) s = .next (s.done (y.joinWith t eui psk))) ∧
  (∀ (s : State) (t : TileId), (s.plc t).up = true →
    ∃ x, exec (.plcModeSwitch t) s = .next x ∧ (x.plc t).pend = s.plcWant t ∧ (x.plc t).tries = (s.plc t).recent s.now ∧ x.regs = s.regs ∧ x.out = s.out) ∧
  (∀ (s y : State) (t : TileId) (n sec at_ total : Nat), (s.plc t).up = true → s.rd Reg.plc_mode_now t = 1 → s.rd Reg.plc_poll_cycle_s t = n → 1 ≤ n →
    s.gridDue t n (s.vol t).mer.pollSec = some sec → at_ = (if sec = s.timeSec t then s.now - (s.timeNs t % 1000000000).toNat else s.now) →
    (s.plc t).pend = none → total = n * 1000 / s.plcSlotMs t →
    y = (s.onMer t fun m => { m with pollSec := sec }).onPlc t (fun p => { p with joinEvery := 1000 / max (s.rd Reg.plc_join_share t) 1, cycleS := n }) →
    exec (.pollCycleStart t) s = .next (s.done ((y.onPlc t fun p =>
      { p with cycle := some (at_, total, s.plcSlotMs t * 1000000, sec), sched := (y.fillSlots t total).1, overrun := false, taken := [], push := 0 }).plcOverrun
        t (y.fillSlots t total).2))) ∧
  (∀ (s : State) (t : TileId) (slot : Nat) (q : Nat × Nat × Bool), (s.plc t).up = true → s.hasTime t = true → s.rd Reg.plc_mode_now t = 0 →
    (s.meter t slot).state = 1 → (s.meter t slot).path = 0 → (s.meter t slot).shortAddr ≠ 0xFFFF → (s.meter t slot).idur ≠ 0 →
    (s.meter t slot).lastTend + (s.meter t slot).idur + s.rd Reg.plc_pull_after_s t ≤ s.timeSec t →
    s.collectWhat t (s.plc t).collect slot (s.rd Reg.plc_rows_per_request t) (decide (s.rd Reg.plc_fill_holes t = 1)) true false = some q →
    exec (.collectionRequest t slot) s = .next (s.done ((s.collectSend t 3 slot (s.plc t).collect q).1.onPlc t fun p =>
      { p with collect := (s.collectSend t 3 slot (s.plc t).collect q).2 }))) ∧
  (∀ (s : State) (t : TileId), (s.plc t).up = true → s.rd Reg.plc_mode_now t = 0 → (s.plc t).beaconAt = none → (s.plc t).pend = none →
    ∃ x, exec (.cycleBeacon t) s = .next x ∧ x.rd Reg.plc_beacon_seq t = (s.rd Reg.plc_beacon_seq t + 1) % 256 ∧ (x.plc t).beaconAt = some s.now ∧
      ((x.plc t).txq.getLast?.map fun q => (q.dst, q.cmd)) = some (0xFFFF, 0xE5) ∧ x.out = s.out) ∧
  (∀ (s : State) (t : TileId), (s.plc t).up = true → (s.plc t).routeAt + 600 * 1000000000 ≤ s.now →
    ∃ x, exec (.routeRecompute t) s = .next x ∧ (x.plc t).routeAt = s.now ∧ (x.plc t).joined = (s.plc t).joined ∧ (x.plc t).links = (s.plc t).links ∧ x.regs = s.regs ∧
      x.out = s.out) ∧
  (∀ (s : State) (t : TileId), (s.plc t).up = true → (s.plc t).queryAt ≤ s.now →
    ∃ x, exec (.phaseQuery t) s = .next x ∧ (x.plc t).queryAt = s.now + s.rd Reg.plc_phase_query_h t * 3600 * 1000000000 ∧ x.regs = s.regs ∧ x.out = s.out) ∧
  (∀ (s : State) (t : TileId) (eui : Nat) (b : Bool), (s.plc t).up = true → s.rd Reg.plc_mode_now t = 0 → (s.vol t).meters.lookup 1 eui = none →
    s.repeaterShort t eui = none → exec (.join t eui b) s = .next (s.done (s.joinRefused t eui))) ∧
  (∀ (s : State) (t : TileId) (slot : Nat) (q : Nat × Nat × Bool), (s.plc t).up = true → s.hasTime t = true → s.rd Reg.plc_mode_now t = 1 →
    (s.meter t slot).state = 1 → (s.meter t slot).path = 0 → (s.meter t slot).shortAddr ≠ 0xFFFF → (s.meter t slot).idur ≠ 0 → s.plcDue t (s.meter t slot) = true →
    ((s.plc t).sched.any fun e => decide (e.2.2 = slot) && (s.plcSlot t).any fun j => decide (e.1 ≤ j)) = true →
    s.collectWhat t (s.plc t).collect slot (s.rd Reg.plc_rows_per_request t) (decide (s.rd Reg.plc_fill_holes t = 1)) true false = some q →
    exec (.collectionRequest t slot) s = .next (s.done ((s.collectSend t 3 slot (s.plc t).collect q).1.onPlc t fun p =>
      { p with collect := (s.collectSend t 3 slot (s.plc t).collect q).2 }))) ∧
  (∀ (s : State) (t : TileId) (a : Nat), (s.plc t).up = true → s.rd Reg.plc_mode_now t = 0 → (s.plc t).beaconAt = some a →
    a + s.rd Reg.plc_beacon_period_s t * 1000000000 ≤ s.now → (s.plc t).pend = none →
    ∃ x, exec (.cycleBeacon t) s = .next x ∧ x.rd Reg.plc_beacon_seq t = (s.rd Reg.plc_beacon_seq t + 1) % 256 ∧ (x.plc t).beaconAt = some s.now ∧
      ((x.plc t).txq.getLast?.map fun q => (q.dst, q.cmd)) = some (0xFFFF, 0xE5) ∧ x.out = s.out) ∧
  (∀ (s : State) (t : TileId) (c : Nat × Nat × Nat × Nat) (j : Nat), (s.plc t).up = true → s.rd Reg.plc_mode_now t = 1 → (s.plc t).cycle = some c → s.plcSlot t = some j →
    s.joinSlot t j = true → (s.plc t).beaconSlot ≠ some (c.2.2.2, j) →
    ∃ x, exec (.cycleBeacon t) s = .next x ∧ x.rd Reg.plc_beacon_seq t = (s.rd Reg.plc_beacon_seq t + 1) % 256 ∧ (x.plc t).beaconSlot = some (c.2.2.2, j) ∧
      ((x.plc t).txq.getLast?.map fun q => (q.dst, q.cmd)) = some (0xFFFF, 0xE5) ∧ x.out = s.out)

/-- A CAP of an unknown neighbour is noted and answered, and one of a new epoch drops the map sets and is answered; maps are given on request, taken when well
formed, counted when not, and formed for a neighbour that can use them; an empty report is answered with the tile's own; the entries of a report are noted.
Where the manual leaves a point of it open, the choice is the model's: notes/assumptions/18.md. Rules R315, R319, R322, R323, R329. -/
def Obligations.PlcExtension : Prop :=
  (∀ (s y : State) (t : TileId) (p : PlcPhy) (a : Nat) (b : Bytes), s.plcRx t p = (y, true) → p.path.headD 0xFFFF = a → b.length = 8 → fld b 0 1 = 1 →
    Tbl.get (y.plc t).caps a = none →
    ∃ x, exec (.cap t p b) s = .next x ∧ x.out = y.out ∧ ((x.plc t).txq.getLast?.map fun q => (q.dst, q.cmd)) = some (a, 0xE0) ∧
      Tbl.get (x.plc t).caps a =
        some { caps := fld b 1 1 % 8, maxMaps := fld b 2 1, bands := fld b 3 1 % 4, epoch := fld b 4 1, zc := bit (fld b 5 1) 0 }) ∧
  (∀ (s y : State) (t : TileId) (p : PlcPhy) (a : Nat) (n : PNeigh) (m : MapSet) (b : Bytes), s.plcRx t p = (y, true) → p.path.headD 0xFFFF = a → b.length = 2 →
    fld b 0 1 = 1 → y.rd Reg.plc_ext_enable t ≠ 0 → Tbl.get (y.plc t).neigh a = some n → n.rxCur = some m →
    exec (.mapReq t p b) s = .next (s.done (y.sendMaps t a))) ∧
  (∀ (s y : State) (t : TileId) (p : PlcPhy) (a : Nat) (n : PNeigh) (m : MapSet) (b : Bytes), s.plcRx t p = (y, true) → p.path.headD 0xFFFF = a →
    mapRspOf (y.plcBand t) 6 b = some m → Tbl.get (y.plc t).neigh a = some n →
    ∃ x, exec (.mapRsp t p b) s = .next x ∧ Tbl.get (x.plc t).neigh a = some { n with tx := some m, asked := false } ∧ x.out = y.out) ∧
  (∀ (s : State) (t : TileId) (a : Nat) (n : PNeigh) (c : PCap), (s.plc t).up = true → Tbl.get (s.plc t).neigh a = some n → Tbl.get (s.plc t).caps a = some c →
    bit c.caps 0 = true → bit c.bands (s.plcBand t) = true → s.rd Reg.plc_ext_enable t ≠ 0 → n.snr ≠ [] → n.rxCur = none →
    exec (.mapRefresh t a) s = .next (s.done (s.giveMaps t a (s.formMaps t n c.maxMaps)))) ∧
  (∀ (s y : State) (t : TileId) (p : PlcPhy) (a : Nat) (n : Nat × PNeigh) (l : Tbl PNeigh), s.plcRx t p = (y, true) → p.path.headD 0xFFFF = a →
    (y.plc t).neigh = n :: l →
    exec (.neighReport t p []) s = .next (s.done (y.plcQueue t a 0xE3 (y.ownReport t)))) ∧
  (∀ (s y : State) (t : TileId) (p : PlcPhy) (a : Nat) (e : Bytes), s.plcRx t p = (y, true) → p.path.headD 0xFFFF = a → e.length = 8 →
    ∃ x, exec (.neighReport t p ([1, 1] ++ e)) s = .next x ∧ x.out = y.out ∧
      (fld e 0 2, a, ({ cost := fld e 2 1, rbar := fld e 3 1, theta := if fld e 4 2 = 0xFFFF then 0xFFFF else fld e 4 2 % 4096, nfr := fld e 6 1 } : PLink)) ∈
        (x.plc t).links) ∧
  (∀ (s y : State) (t : TileId) (p : PlcPhy) (a : Nat) (o : PCap) (b : Bytes), s.plcRx t p = (y, true) → p.path.headD 0xFFFF = a → b.length = 8 → fld b 0 1 = 1 →
    Tbl.get (y.plc t).caps a = some o → o.epoch = fld b 4 1 →
    ∃ x, exec (.cap t p b) s = .next x ∧ x.out = y.out ∧ (x.plc t).txq = (y.plc t).txq ∧ (x.plc t).neigh = (y.plc t).neigh ∧
      Tbl.get (x.plc t).caps a =
        some { caps := fld b 1 1 % 8, maxMaps := fld b 2 1, bands := fld b 3 1 % 4, epoch := fld b 4 1, zc := bit (fld b 5 1) 0 }) ∧
  (∀ (s y : State) (t : TileId) (p : PlcPhy) (a : Nat) (o : PCap) (n : PNeigh) (b : Bytes), s.plcRx t p = (y, true) → p.path.headD 0xFFFF = a → b.length = 8 →
    fld b 0 1 = 1 → Tbl.get (y.plc t).caps a = some o → o.epoch ≠ fld b 4 1 → Tbl.get (y.plc t).neigh a = some n →
    ∃ x, exec (.cap t p b) s = .next x ∧ x.out = y.out ∧ ((x.plc t).txq.getLast?.map fun q => (q.dst, q.cmd)) = some (a, 0xE0) ∧
      Tbl.get (x.plc t).neigh a = some { n with tx := none, asked := false, rxCur := none, rxPrev := none, dropAt := none, rxCap := [] }) ∧
  (∀ (s y : State) (t : TileId) (p : PlcPhy) (a : Nat) (n : PNeigh) (b : Bytes), s.plcRx t p = (y, true) → p.path.headD 0xFFFF = a → b.length = 2 →
    fld b 0 1 = 1 → y.rd Reg.plc_ext_enable t ≠ 0 → Tbl.get (y.plc t).neigh a = some n → n.rxCur = none →
    exec (.mapReq t p b) s = .next (s.done (y.giveMaps t a (y.formMaps t n (((Tbl.get (y.plc t).caps a).map PCap.maxMaps).getD 1))))) ∧
  (∀ (s y : State) (t : TileId) (p : PlcPhy) (b : Bytes), s.plcRx t p = (y, true) → mapRspOf (y.plcBand t) 6 b = none →
    exec (.mapRsp t p b) s = .next (s.done (y.bump Reg.plc_map_rsp_bad t))) ∧
  (∀ (s : State) (t : TileId) (a : Nat) (n : PNeigh) (c : PCap), (s.plc t).up = true → Tbl.get (s.plc t).neigh a = some n → Tbl.get (s.plc t).caps a = some c →
    bit c.caps 0 = true → bit c.bands (s.plcBand t) = true → s.rd Reg.plc_ext_enable t ≠ 0 → n.snr ≠ [] →
    n.rxAt + s.rd Reg.plc_map_refresh_s t * 1000000000 ≤ s.now →
    exec (.mapRefresh t a) s = .next (s.done (s.giveMaps t a (s.formMaps t n c.maxMaps)))) ∧
  (∀ (s y : State) (t : TileId) (p : PlcPhy) (n : Nat) (e : Bytes), s.plcRx t p = (y, true) → 1 ≤ n → n ≤ 16 → e.length = 8 * n →
    ∃ x, exec (.neighReport t p (1 :: (natLE 1 n ++ e))) s = .next x ∧ x.out = y.out ∧
      ∀ i < n, ∃ f : Bytes, f = (e.drop (8 * i)).take 8 ∧ (fld f 0 2, p.path.headD 0xFFFF,
        ({ cost := fld f 2 1, rbar := fld f 3 1, theta := if fld f 4 2 = 0xFFFF then 0xFFFF else fld f 4 2 % 4096, nfr := fld f 6 1 } : PLink)) ∈ (x.plc t).links)

/-- An acknowledgement ends the wait; a data frame goes to Gather; a poll that passes is answered; the next item of the send queue is put on the air; pending
items, duty buckets and dwell buckets past their time go; a collection request goes out for a meter that is late. Where the manual leaves a point of it open,
the choice is the model's: notes/assumptions/19.md. Rules R346, R353, R355, R357, R359, R360. -/
def Obligations.RadioUnit : Prop :=
  (∀ (s y : State) (t : TileId) (ch : Nat) (rssi : Int) (psdu : Bytes) (m : RfIn) (until_ slot : Nat) (p : RPend), s.rfRx t ch psdu = (y, some m) → m.type = 2 →
    (y.rf t).wait = some (m.seq, until_, slot, p) → y.now ≤ until_ →
    ∃ x, exec (.rfFrameRx t ch rssi psdu) s = .next x ∧ (x.rf t).wait = none ∧ (x.rf t).sendq = (y.rf t).sendq.erase (slot, p) ∧ x.out = y.out) ∧
  (∀ (s y : State) (t : TileId) (ch : Nat) (rssi : Int) (psdu : Bytes) (m : RfIn) (f : Frame), s.rfRx t ch psdu = (y, some m) → m.type = 1 → m.ar = false →
    y.rfMeter t m.src = none →
    f = { source := 4, addrKind := 1, satId := 0xFFFF, forceOld := false, rfSecured := m.sec, entry := 0, addr := m.src,
          arrival := y.whenNs t - (2 + psdu.length) * 8 * 1000000000 / rfBitRate (y.vol t).radio.rate, envSeq := 0,
          aad := if m.sec then m.mhr else [], apdu := m.body, env := 0 } →
    y.isEphRsp t f = false →
    exec (.rfFrameRx t ch rssi psdu) s = .next (s.done ((y.swCount t 4 2 m.body m.body.length).toGather t 4 m.body.length [f]).1)) ∧
  (∀ (s y z : State) (t : TileId) (ch : Nat) (rssi : Int) (psdu : Bytes) (m : RfIn) (slot fc : Nat), s.rfRx t ch psdu = (y, some m) → m.type = 3 →
    y.pollCheck t m = (z, some (slot, fc)) →
    exec (.rfPoll t ch rssi psdu) s = .next (s.done (((z.onRNeigh t slot fun n =>
      { n with chan := ch, rssi := rssi, pollAt := some z.now, phw := fc }).bump Reg.rf_polls t).pollAnswer t ch slot))) ∧
  (∀ (s y z d : State) (t : TileId) (slot : Nat) (p : RPend) (psdu : Bytes), (s.rf t).up = true → (s.rfAdvance t).rfTake t = y → (y.rf t).wait = none →
    (y.rf t).txs = [] → y.pier.pfail = false → (y.rf t).sendq.foldl (fun s x => s.markHeld t x) y = z → z.rfNext t = some (slot, p) →
    z.rfData t slot false (decide (slot ≠ 2 ^ 22)) p.apdu = (d, some psdu) →
    exec (.rfDownlink t false) s = .next (s.done ((d.rfPut t
      { start := z.now + z.rd Reg.rf_pa_lead_us t * 1000 + 20000, air := d.rfAir t psdu.length, step := 0, chan := z.rfChannel t slot, psdu := psdu, what := 2,
        slot := slot, item := some p } p.kind).rfAdvance t))) ∧
  (∀ (s : State) (t : TileId) (slot : Nat) (n : RNeigh), Tbl.get (s.rf t).neigh slot = some n →
    ∃ x, exec (.pendingExpire t slot) s = .next x ∧ x.out = s.out ∧ Tbl.get (x.rf t).neigh slot =
      some { n with pend := n.pend.filter fun p => decide (s.now < p.at_ + s.rd Reg.rf_pending_ttl_s t * 1000000000) }) ∧
  (∀ (s : State) (t : TileId) (slot : Nat) (q : Nat × Nat × Bool), (s.rf t).up = true → s.hasTime t = true → (s.meter t slot).state = 1 → (s.meter t slot).path = 1 →
    (s.meter t slot).idur ≠ 0 → (s.meter t slot).lastTend + (s.meter t slot).idur + s.rd Reg.rf_pull_after_s t ≤ s.timeSec t →
    s.collectWhat t (s.rf t).collect slot (s.rd Reg.rf_rows_per_request t) (decide (s.rd Reg.rf_fill_holes t = 1)) true false = some q →
    exec (.rfCollection t slot) s = .next (s.done ((s.collectSend t 4 slot (s.rf t).collect q).1.onRf t fun p =>
      { p with collect := (s.collectSend t 4 slot (s.rf t).collect q).2 }))) ∧
  (∀ (s : State) (t : TileId), (s.rf t).up = true →
    ∃ x, exec (.dutyBucket t) s = .next x ∧ (x.rf t).mirrored = s.rfNow / 10000000000 ∧
      (x.rf t).bands = (s.rf t).bands.map (fun m => m.filter fun e => decide (s.rfNow / 10000000000 < e.1 + 360)) ∧ x.out = s.out) ∧
  (∀ (s : State) (t : TileId) (ch : Nat) (l : List (Nat × Nat)), Tbl.get (s.rf t).dwell ch = some l →
    ∃ x, exec (.dwellBucket t ch) s = .next x ∧ x.regs = s.regs ∧ x.out = s.out ∧ Tbl.get (x.rf t).dwell ch =
      some (l.filter fun e => decide (s.rfNow / 100000000 < e.1 + 10 * s.rd Reg.rf_dwell_window_s t))) ∧
  (∀ (s y z : State) (t : TileId) (ch : Nat) (rssi : Int) (psdu : Bytes) (m : RfIn) (f : Frame), s.rfRx t ch psdu = (y, some m) → m.type = 1 →
    z = (if m.ar && !m.bcast then (match y.rfMeter t m.src with
      | some i => y.onRNeigh t i fun n => { n with chan := ch, rssi := rssi }
      | none => y).rfAck t ch m.seq else match y.rfMeter t m.src with
      | some i => y.onRNeigh t i fun n => { n with chan := ch, rssi := rssi }
      | none => y) →
    f = { source := 4, addrKind := 1, satId := 0xFFFF, forceOld := false, rfSecured := m.sec, entry := 0, addr := m.src,
          arrival := z.whenNs t - (2 + psdu.length) * 8 * 1000000000 / rfBitRate (z.vol t).radio.rate, envSeq := 0,
          aad := if m.sec then m.mhr else [], apdu := m.body, env := 0 } →
    exec (.rfFrameRx t ch rssi psdu) s = .next (s.done (if z.isEphRsp t f then z.swSend t 4 6 1 (.eph f)
      else ((z.swCount t 4 2 m.body m.body.length).toGather t 4 m.body.length [f]).1))) ∧
  (∀ (s y z : State) (t : TileId) (ch : Nat) (rssi : Int) (psdu : Bytes) (m : RfIn), s.rfRx t ch psdu = (y, some m) → m.type = 3 → y.pollCheck t m = (z, none) →
    exec (.rfPoll t ch rssi psdu) s = .next (s.done (z.bump Reg.rf_poll_refused t))) ∧
  (∀ (s y z d : State) (t : TileId) (slot : Nat) (p : RPend) (psdu : Bytes), (s.rf t).up = true →
    y = (match (((s.rfAdvance t).rfTake t).rf t).wait with
      | some (_, u, k, q) => if u < ((s.rfAdvance t).rfTake t).now then ((s.rfAdvance t).rfTake t).rfRetry t k q else (s.rfAdvance t).rfTake t
      | none => (s.rfAdvance t).rfTake t) →
    (y.rf t).wait = none → (y.rf t).txs = [] → y.pier.pfail = false → (y.rf t).sendq.foldl (fun s x => s.markHeld t x) y = z → z.rfNext t = some (slot, p) →
    z.rfData t slot false (decide (slot ≠ 2 ^ 22)) p.apdu = (d, some psdu) →
    exec (.rfDownlink t false) s = .next (s.done ((d.rfPut t
      { start := z.now + z.rd Reg.rf_pa_lead_us t * 1000 + 20000, air := d.rfAir t psdu.length, step := 0, chan := z.rfChannel t slot, psdu := psdu, what := 2,
        slot := slot, item := some p } p.kind).rfAdvance t))) ∧
  (∀ (s y z : State) (t : TileId) (slot : Nat) (p : RPend), (s.rf t).up = true → (s.rfAdvance t).rfTake t = y → (y.rf t).wait = none →
    (y.rf t).txs = [] → y.pier.pfail = false → (y.rf t).sendq.foldl (fun s x => s.markHeld t x) y = z → z.rfNext t = some (slot, p) →
    exec (.rfDownlink t true) s = .next (s.done ((z.bump Reg.rf_csma_fail t).rfRetry t slot p)))

/-- An internal frame is sent on; a PTP frame of a port goes to P6; a frame with a bad FCS is counted and dropped, one of more than 9 216 bytes is not carried;
the chosen frame is transferred against credit; returned credit is added; a credit count that adds up clears the misses, one that does not is counted, while
the output is stopped too. A frame that was held back goes once its time has come; a third miss repairs the credits. Rules R369, R371, R372, R374. -/
def Obligations.SwitchFrames : Prop :=
  (∀ (s : State) (t : TileId) (n o : Fin 8) (c : Fin 4) (d : Bytes) (b : Bool), 2 ≤ n.val → n.val ≠ 7 → o.val ≠ 7 → d.length ≤ 9216 →
    exec (.frameAdmit t n o c d b) s = .next (s.done (s.swSend t n o c (.other d)))) ∧
  (∀ (s : State) (t : TileId) (n o : Fin 8) (c : Fin 4) (d : Bytes) (b : Bool), n.val = 7 ∨ 9216 < d.length ∨ (2 ≤ n.val ∧ o.val = 7) →
    exec (.frameAdmit t n o c d b) s = .next (s.done s)) ∧
  (∀ (s : State) (t : TileId) (n o : Fin 8) (c : Fin 4) (d r src : Bytes) (ety : Nat), n.val < 2 → (s.sw t).port.getD n 0 = 2 → s.etherIn t d = some (src, ety, r) →
    isPtp ety r = true → d.length ≤ 9216 →
    exec (.frameAdmit t n o c d false) s =
      .next (s.done ((s.swCount t n 0 d d.length).swStore t n 6 { cls := 0, len := d.length, cells := 0, shared := false, body := .other d }))) ∧
  (∀ (s : State) (t : TileId) (n o : Fin 8) (c : Fin 4) (d : Bytes), n.val < 2 → (s.sw t).port.getD n 0 = 2 → d.length ≤ 9216 →
    s.rd Reg.sw_fcs_errors t n + 1 < Reg.sw_fcs_errors.span →
    ∃ x, exec (.frameAdmit t n o c d true) s = .next x ∧ x.rd Reg.sw_fcs_errors t n = s.rd Reg.sw_fcs_errors t n + 1 ∧ (∀ u, x.vol u = s.vol u) ∧ x.out = s.out) ∧
  (∀ (s : State) (t : TileId) (o : Fin 8) (c n k : Nat) (w : Switch) (f : SwFrame), s.delayedDue t o = none → 2 ≤ o.val → o.val ≠ 7 →
    (s.sw t).stopped.getD o false = false → s.portTakes t o = true → (s.sw t).choose o (fun c => s.rd Reg.sw_class_weight t (c - 1)) = some (c, w) →
    w.head o c = some (n, k, f) → s.egressWait t o c = none →
    exec (.frameDispatch t o) s = .next (s.done (((s.onSw t fun _ => { w.setVoq n o c ((w.voq n o c).eraseIdx k) with rr := Tbl.put w.rr (4 * o + c) n }).onSw t
      fun w => { w with credit := subAt w.credit o f.cells, held := addAt w.held o f.cells }).transfer t o c n f))) ∧
  (∀ (s : State) (t : TileId) (o : Fin 8) (n : Nat), s.tileArm t 1 = none → (s.sw t).credit.length = 8 → (s.sw t).held.length = 8 →
    n ≤ (s.sw t).held.getD o 0 → (s.sw t).credit.getD o 0 + n ≤ 1024 →
    ∃ x, exec (.creditReturn t o n) s = .next x ∧ (x.sw t).credit.getD o 0 = (s.sw t).credit.getD o 0 + n ∧ (x.sw t).held.getD o 0 = (s.sw t).held.getD o 0 - n ∧
      x.regs = s.regs ∧ x.out = s.out) ∧
  (∀ (s : State) (t : TileId) (o : Fin 8) (seen : Nat), o.val ≠ 7 → s.portTakes t o = true → (s.sw t).miss.length = 8 → (s.sw t).stopped.getD o false = false →
    (s.sw t).credit.getD o 0 + (s.vol t).diag.back.getD o 0 + s.inTransfer t o + seen = outCap o →
    ∃ x, exec (.creditCheck t o seen) s = .next x ∧ (x.sw t).miss.getD o 1 = 0 ∧ (x.sw t).credit = (s.sw t).credit ∧ x.regs = s.regs ∧ x.out = s.out) ∧
  (∀ (s : State) (t : TileId) (o : Fin 8) (seen : Nat), o.val ≠ 7 → s.portTakes t o = true → (s.sw t).stopped.getD o false = false →
    (s.sw t).credit.getD o 0 + (s.vol t).diag.back.getD o 0 + s.inTransfer t o + seen ≠ outCap o → (s.sw t).miss.length = 8 → (s.sw t).miss.getD o 0 = 0 →
    s.rd Reg.sw_credit_faults t o + 1 < Reg.sw_credit_faults.span →
    ∃ x, exec (.creditCheck t o seen) s = .next x ∧ (x.sw t).miss.getD o 0 = 1 ∧ (x.sw t).credit = (s.sw t).credit ∧
      x.rd Reg.sw_credit_faults t o = s.rd Reg.sw_credit_faults t o + 1) ∧
  (∀ (s : State) (t : TileId) (o : Fin 8) (x : Nat × Nat × Nat × SwFrame), s.delayedDue t o = some x →
    exec (.frameDispatch t o) s = .next (s.done ((s.onVol t fun v => { v with diag := { v.diag with delayed := v.diag.delayed.erase x } }).transfer t o x.2.2.2.cls x.2.1 x.2.2.2))) ∧
  (∀ (s : State) (t : TileId) (o : Fin 8) (c n k : Nat) (w : Switch) (f : SwFrame), s.delayedDue t o = none → o.val < 2 → (s.sw t).port.getD o 0 = 2 →
    (s.sw t).stopped.getD o false = false → s.portTakes t o = true → (s.sw t).choose o (fun c => s.rd Reg.sw_class_weight t (c - 1)) = some (c, w) →
    w.head o c = some (n, k, f) → s.egressWait t o c = none →
    exec (.frameDispatch t o) s = .next (s.done (((s.onSw t fun _ => { w.setVoq n o c ((w.voq n o c).eraseIdx k) with rr := Tbl.put w.rr (4 * o + c) n }).onSw t
      fun w => { w with credit := subAt w.credit o f.cells, held := addAt w.held o f.cells }).transfer t o c n f))) ∧
  (∀ (s : State) (t : TileId) (o : Fin 8) (n : Nat), (s.sw t).credit.length = 8 → (s.sw t).held.length = 8 → (s.vol t).diag.back.length = 8 →
    ∃ x, exec (.creditReturn t o n) s = .next x ∧ x.regs = s.regs ∧ x.out = s.out ∧ (x.sw t).voqs = (s.sw t).voqs ∧
      (x.sw t).held.getD o 0 = (s.sw t).held.getD o 0 - min n ((s.sw t).held.getD o 0) ∧
      (x.sw t).credit.getD o 0 + (x.vol t).diag.back.getD o 0 =
        (s.sw t).credit.getD o 0 + (s.vol t).diag.back.getD o 0 + min n ((s.sw t).held.getD o 0)) ∧
  (∀ (s : State) (t : TileId) (o : Fin 8) (seen : Nat), o.val ≠ 7 → s.portTakes t o = true → (s.sw t).stopped.getD o false = true →
    (s.sw t).credit.getD o 0 + (s.vol t).diag.back.getD o 0 + s.inTransfer t o + seen ≠ outCap o →
    exec (.creditCheck t o seen) s = .next (s.done ((((s.bump Reg.sw_credit_faults t o).event t 1 0x1801 o ((s.sw t).credit.getD o 0) seen).onSw t fun w =>
      { w with miss := addAt w.miss o 1 }).repairCredit t o seen))) ∧
  (∀ (s : State) (t : TileId) (o : Fin 8) (seen : Nat), o.val ≠ 7 → s.portTakes t o = true → (s.sw t).stopped.getD o false = true →
    (s.sw t).credit.getD o 0 + (s.vol t).diag.back.getD o 0 + s.inTransfer t o + seen = outCap o →
    exec (.creditCheck t o seen) s = .next (s.done ((s.onSw t fun w => { w with miss := w.miss.set o 0 }).repairCredit t o seen))) ∧
  (∀ (s : State) (t : TileId) (o : Fin 8) (seen : Nat), o.val ≠ 7 → s.portTakes t o = true → (s.sw t).stopped.getD o false = false →
    (s.sw t).credit.getD o 0 + (s.vol t).diag.back.getD o 0 + s.inTransfer t o + seen ≠ outCap o → 2 ≤ (s.sw t).miss.getD o 0 →
    exec (.creditCheck t o seen) s = .next (s.done ((((s.bump Reg.sw_credit_faults t o).event t 1 0x1801 o ((s.sw t).credit.getD o 0) seen).onSw t fun w =>
      { w with miss := addAt w.miss o 1 }).repairCredit t o seen)))

/-- A port in search comes up; one that loses its link holds, keeping its sessions, and goes down to search when the hold time is over; a port is disabled and
enabled by its entry. A link that comes back within the hold time is UP again and its sessions are challenged. Where the manual leaves a point of it open, the
choice is the model's: notes/assumptions/38.md. Rules R378. -/
def Obligations.SwitchPorts : Prop :=
  (∀ (s : State) (t : TileId) (p : Fin 2), (s.sw t).port.getD p 0 = 1 →
    ∃ x, exec (.linkUp t p) s = .next x ∧ (x.sw t).port.getD p 0 = 2 ∧ (x.sw t).sess = (s.sw t).sess ∧ x.regs = s.regs ∧ x.out = s.out) ∧
  (∀ (s : State) (t : TileId) (p : Fin 2), (s.sw t).port.getD p 0 = 2 → s.rd Reg.sw_link_hold_ms t ≠ 0 → (s.sw t).hold.length = 2 →
    s.rd Reg.sw_hold_events t p + 1 < Reg.sw_hold_events.span →
    ∃ x, exec (.linkLost t p) s = .next x ∧ (x.sw t).port.getD p 0 = 3 ∧ (x.sw t).hold.getD p 0 = s.now ∧
      x.rd Reg.sw_hold_events t p = s.rd Reg.sw_hold_events t p + 1 ∧ (x.sw t).sess = (s.sw t).sess ∧ x.out = s.out) ∧
  (∀ (s : State) (t : TileId) (p : Fin 2), (s.sw t).port.getD p 0 = 3 → (s.sw t).hold.getD p 0 + s.holdNs t ≤ s.now →
    exec (.holdExpiry t p) s = .next (s.done ((s.portDown t p).onSw t fun w => { w with port := w.port.set p 1 }))) ∧
  (∀ (s : State) (t : TileId) (p : Fin 2) (v : Nat), v ≤ 1 →
    exec (.portDisable t p v) s = .next (s.done (((s.wr Reg.sw_port_disable t v p).followTile t).answer t .ok))) ∧
  (∀ (s : State) (t : TileId) (p : Fin 2), (s.sw t).port.getD p 0 = 3 → s.now ≤ (s.sw t).hold.getD p 0 + s.holdNs t →
    exec (.linkUp t p) s = .next (s.done ((s.onSw t fun w => { w with port := w.port.set p 2 }).challengePort t p))) ∧
  (∀ (s : State) (t : TileId) (p : Fin 2), (s.sw t).port.getD p 0 = 2 → s.rd Reg.sw_link_hold_ms t = 0 →
    exec (.linkLost t p) s = .next (s.done ((s.portDown t p).onSw t fun w => { w with port := w.port.set p 1 }))) ∧
  (∀ (s : State) (t : TileId) (p : Fin 2) (v : Nat), 1 < v → exec (.portDisable t p v) s = .next (s.done (s.answer t .invalid)))

/-- HELLO opens a handshake with a nonce; a second message that verifies under the satellite's certificate makes the session with its keys; RESUME with the right
echo restores it; a handshake, a verification and a silent satellite end in time; a keep-alive is queued; a session is reset by command. Where the manual
leaves a point of it open, the choice is the model's: notes/assumptions/3.md, notes/assumptions/25.md. Rules R382, R384. -/
def Obligations.LinkSessions : Prop :=
  (∀ (s y z : State) (t : TileId) (p : Fin 2) (frame nonce key : Bytes) (m : LinkIn), s.linkRx t p frame = (y, some m) → m.type = 1 → (y.sw t).sess = [] →
    y.nonce t = (z, some nonce) → y.slotKey t 1 = some key → m.payload.length = 20 →
    ∃ x e, exec (.helloReq t p frame) s = .next x ∧ Tbl.get (x.sw t).sess 0 = some e ∧ e.st = 1 ∧ e.port = p ∧ e.mac = m.mac ∧ e.epoch = fld m.payload 0 4 ∧
      e.since = z.now ∧ e.hello.take 20 = m.payload) ∧
  (∀ (s y : State) (t : TileId) (p : Fin 2) (frame cert eph sig pub z : Bytes) (m : LinkIn) (k n sat d : Nat) (e v : Sess), s.linkRx t p frame = (y, some m) → m.type = 3 →
    (y.sw t).sess = [(k, e)] → e.port = p → e.mac = m.mac → e.st = 1 → y.now < e.since + 100000000 → m.payload = eph ++ natLE 2 n ++ cert ++ sig →
    eph.length = 65 → cert.length = n → n ≤ 1024 → sig.length = 64 → y.peerSat t cert = some sat → certKey cert = some pub → y.slotD t 1 = some d →
    Crypto.ecdsaVerify pub (e.hello ++ eph ++ cert) sig = true → Crypto.ecdh Crypto.p256 d eph = some z →
    v = { e with st := 2, sat := sat, value := (y.sw t).nextSess,
                 keyTx := (Crypto.kdf z (Crypto.ascii "SATLINK") (Crypto.sha256 (e.hello ++ eph ++ cert)) 512).take 32,
                 keyRx := (Crypto.kdf z (Crypto.ascii "SATLINK") (Crypto.sha256 (e.hello ++ eph ++ cert)) 512).drop 32, print := Crypto.sha256 cert,
                 gotAt := y.now, gotNs := y.whenNs t, hello := [] } →
    exec (.helloRsp t p frame) s = .next (s.done (((y.onSw t fun w =>
      { w with sess := Tbl.put w.sess k v, nextSess := (y.sw t).nextSess + 1 }).sendLink t v 4 (natLE 2 sat ++ [0, 0])).bump Reg.sw_handshakes t))) ∧
  (∀ (s : State) (t : TileId) (k : Nat) (e : Sess), Tbl.get (s.sw t).sess k = some e → e.st = 1 → e.since + 100000000 ≤ s.now →
    exec (.handshakeTimeout t k) s = .next (s.done (s.endSess t k))) ∧
  (∀ (s y : State) (t : TileId) (p : Fin 2) (frame : Bytes) (m : LinkIn) (k : Nat) (e : Sess), s.linkRx t p frame = (y, some m) → m.type = 6 → m.sess = some k →
    Tbl.get (y.sw t).sess k = some e → e.st = 3 → e.nonce ≠ [] → m.payload = natLE 4 e.epoch ++ e.nonce ++ e.print → y.rd Reg.sw_resumes t + 1 < Reg.sw_resumes.span →
    ∃ x, exec (.resume t p frame) s = .next x ∧ Tbl.get (x.sw t).sess k = some { e with st := 2 } ∧ x.rd Reg.sw_resumes t = y.rd Reg.sw_resumes t + 1 ∧ x.out = y.out) ∧
  (∀ (s : State) (t : TileId) (k : Nat) (e : Sess), Tbl.get (s.sw t).sess k = some e → e.st = 3 → e.since + s.rd Reg.sw_verify_ms t * 1000000 ≤ s.now →
    exec (.verifyTimeout t k) s = .next (s.done ((s.bump Reg.sw_resume_fail t).endSess t k))) ∧
  (∀ (s : State) (t : TileId) (k : Nat) (e : Sess), Tbl.get (s.sw t).sess k = some e → e.st = 2 → (s.sw t).port.getD e.port 0 = 2 →
    e.sentAt + s.rd Reg.sw_keepalive_ms t * 1000000 ≤ s.now → (s.sw t).keepaliveWaits e.value = false →
    exec (.keepalive t k) s = .next (s.done (s.sendLink t e 7 []))) ∧
  (∀ (s : State) (t : TileId) (k : Nat) (e : Sess), Tbl.get (s.sw t).sess k = some e → e.st = 2 → (s.sw t).port.getD e.port 0 = 2 →
    e.gotAt + s.rd Reg.sw_sat_dead_ms t * 1000000 ≤ s.now →
    exec (.satDead t k) s = .next (s.done (s.endSess t k))) ∧
  (∀ (s : State) (t : TileId), exec (.sessionReset t) s = .next (s.done ((s.endSess t (s.rd Reg.sw_session_select t)).answer t .ok))) ∧
  (∀ (s y w z : State) (t : TileId) (p : Fin 2) (frame nonce key hello : Bytes) (m : LinkIn) (k : Nat) (e : Sess), s.linkRx t p frame = (y, some m) → m.type = 1 →
    w = ((y.sw t).peers p m.mac).foldl (fun s e => (if e.2.st = 3 then s.bump Reg.sw_resume_fail t else s).endSess t e.1) y →
    (List.range 1024).find? (fun k => (Tbl.get (w.sw t).sess k).isNone) = some k → w.nonce t = (z, some nonce) → w.slotKey t 1 = some key →
    m.payload.length = 20 → ((w.sw t).sess.countP fun e => decide (e.2.st = 1)) < 64 →
    hello = natLE 4 (z.rd Reg.sw_link_epoch t) ++ nonce ++ natLE 2 ((z.rdAll Reg.vault_cert_link t).take ((certLength (z.rdAll Reg.vault_cert_link t)).getD 0)).length ++
      (z.rdAll Reg.vault_cert_link t).take ((certLength (z.rdAll Reg.vault_cert_link t)).getD 0) →
    e = { st := 1, port := p, mac := m.mac, sat := 0xFFFF, value := 0, epoch := fld m.payload 0 4, tx := 0, rx := 0, keyTx := [], keyRx := [], print := [],
          sentAt := z.now, gotAt := z.now, gotNs := z.whenNs t, hello := m.payload ++ hello, nonce := [], since := z.now } →
    exec (.helloReq t p frame) s = .next (s.done ((z.onSw t fun w => { w with sess := Tbl.put w.sess k e }).sendLink t e 2 hello))) ∧
  (∀ (s y u : State) (t : TileId) (p : Fin 2) (frame cert eph sig pub z : Bytes) (m : LinkIn) (k n sat d : Nat) (e v : Sess), s.linkRx t p frame = (y, some m) → m.type = 3 →
    ((y.sw t).peers p m.mac).find? (fun e => decide (e.2.st = 1) && decide (y.now < e.2.since + 100000000)) = some (k, e) → m.payload = eph ++ natLE 2 n ++ cert ++ sig →
    eph.length = 65 → cert.length = n → n ≤ 1024 → sig.length = 64 → y.peerSat t cert = some sat → certKey cert = some pub → y.slotD t 1 = some d →
    Crypto.ecdsaVerify pub (e.hello ++ eph ++ cert) sig = true → Crypto.ecdh Crypto.p256 d eph = some z →
    u = ((y.sw t).sess.filter fun f => decide (f.2.print = Crypto.sha256 cert) && decide (1 < f.2.st)).foldl (fun s f => s.endSess t f.1) y →
    v = { e with st := 2, sat := sat, value := (u.sw t).nextSess,
                 keyTx := (Crypto.kdf z (Crypto.ascii "SATLINK") (Crypto.sha256 (e.hello ++ eph ++ cert)) 512).take 32,
                 keyRx := (Crypto.kdf z (Crypto.ascii "SATLINK") (Crypto.sha256 (e.hello ++ eph ++ cert)) 512).drop 32, print := Crypto.sha256 cert,
                 gotAt := u.now, gotNs := u.whenNs t, hello := [] } →
    exec (.helloRsp t p frame) s = .next (s.done (((u.onSw t fun w =>
      { w with sess := Tbl.put w.sess k v, nextSess := (u.sw t).nextSess + 1 }).sendLink t v 4 (natLE 2 sat ++ [0, 0])).bump Reg.sw_handshakes t))) ∧
  (∀ (s y : State) (t : TileId) (p : Fin 2) (frame : Bytes) (m : LinkIn), s.linkRx t p frame = (y, some m) → m.type = 3 →
    ((y.sw t).peers p m.mac).find? (fun e => decide (e.2.st = 1) && decide (y.now < e.2.since + 100000000)) = none →
    exec (.helloRsp t p frame) s = .next (s.done (y.bump Reg.sw_handshake_fail t))) ∧
  (∀ (s y : State) (t : TileId) (p : Fin 2) (frame : Bytes) (m : LinkIn) (k : Nat) (e : Sess), s.linkRx t p frame = (y, some m) → m.type = 6 → m.sess = some k →
    Tbl.get (y.sw t).sess k = some e → e.st = 3 → m.payload ≠ natLE 4 e.epoch ++ e.nonce ++ e.print →
    exec (.resume t p frame) s = .next (s.done ((y.bump Reg.sw_resume_fail t).endSess t k)))

/-- A request that opens under the session's key and that no earlier one holds up is carried out by the unit of its target: by the Pier for the device, and by a
tile that runs, which the request reaches through P2; CLOSE ends the session and its staging locks. One that an earlier request of its session to the same
target holds up waits in the hub. Rules R176, R179, R395, R399, R405, R407, R410. -/
def Obligations.HostRequests : Prop :=
  (∀ (s : State) (lane : Fin 2) (peer p : Bytes) (m : HostMsg) (k : Nat) (x : HSess), s.requested lane 1 m k x p → tgtOf m.target = some .dev →
    exec (.get lane peer m) s = .next (s.done ((s.taken lane m k x).doGet (requestOf 1 m k p)))) ∧
  (∀ (s : State) (lane : Fin 2) (peer p : Bytes) (m : HostMsg) (k : Nat) (x : HSess), s.requested lane 2 m k x p → tgtOf m.target = some .dev →
    exec (.set lane peer m) s = .next (s.done ((s.taken lane m k x).doSet .dev (requestOf 2 m k p)))) ∧
  (∀ (s : State) (lane : Fin 2) (peer p : Bytes) (m : HostMsg) (k : Nat) (x : HSess), s.requested lane 3 m k x p → tgtOf m.target = some .dev →
    exec (.getBlock lane peer m) s = .next (s.done ((s.taken lane m k x).doGetBlock (requestOf 3 m k p)))) ∧
  (∀ (s : State) (lane : Fin 2) (peer p : Bytes) (m : HostMsg) (k : Nat) (x : HSess), s.requested lane 4 m k x p → tgtOf m.target = some .dev →
    exec (.setBlock lane peer m) s = .next (s.done ((s.taken lane m k x).doSetBlock .dev (requestOf 4 m k p)))) ∧
  (∀ (s : State) (lane : Fin 2) (peer p : Bytes) (m : HostMsg) (k : Nat) (x : HSess) (g : Tgt), s.requested lane 5 m k x p → tgtOf m.target = some g →
    (∀ t, g ≠ .tile t) →
    exec (.subscribe lane peer m) s = .next (s.done ((s.taken lane m k x).doSubscribe (requestOf 5 m k p)))) ∧
  (∀ (s : State) (lane : Fin 2) (peer p : Bytes) (m : HostMsg) (k : Nat) (x : HSess) (g : Tgt), s.requested lane 6 m k x p → tgtOf m.target = some g →
    (∀ t, g ≠ .tile t) →
    exec (.unsubscribe lane peer m) s = .next (s.done ((s.taken lane m k x).doUnsubscribe (requestOf 6 m k p)))) ∧
  (∀ (s z : State) (lane : Fin 2) (peer p : Bytes) (m : HostMsg) (k : Nat) (x : HSess) (t : TileId), s.requested lane 7 m k x p → tgtOf m.target = some (.tile t) →
    (s.taken lane m k x).reach t false false = .go → (s.taken lane m k x).p2Open t (requestOf 7 m k p) = true →
    (s.taken lane m k x).p2In t (requestOf 7 m k p) = (z, true) →
    exec (.fetch (.host lane peer m)) s = .next (s.done (z.doFetch { requestOf 7 m k p with p2 := true }))) ∧
  (∀ (s z : State) (lane : Fin 2) (peer p : Bytes) (m : HostMsg) (k : Nat) (x : HSess) (t : TileId), s.requested lane 8 m k x p → tgtOf m.target = some (.tile t) →
    (s.taken lane m k x).reach t false false = .go → (s.taken lane m k x).p2Open t (requestOf 8 m k p) = true →
    (s.taken lane m k x).p2In t (requestOf 8 m k p) = (z, true) →
    exec (.ackDiscard (.host lane peer m)) s = .next (s.done (z.doAckDiscard { requestOf 8 m k p with p2 := true }))) ∧
  (∀ (s z : State) (lane : Fin 2) (peer p : Bytes) (m : HostMsg) (k type : Nat) (x : HSess) (t : TileId) (c : Instr),
    (type, c) ∈ [(1, .get lane peer m), (2, .set lane peer m), (3, .getBlock lane peer m), (4, .setBlock lane peer m), (5, .subscribe lane peer m),
      (6, .unsubscribe lane peer m), (9, .exec lane peer m)] →
    s.requested lane type m k x p → tgtOf m.target = some (.tile t) → forPier (.tile t) type p = false →
    (s.taken lane m k x).reach t false (forCode (.tile t) type p) = .go → (s.taken lane m k x).p2Open t (requestOf type m k p) = true →
    (s.taken lane m k x).p2In t (requestOf type m k p) = (z, true) →
    exec c s = .next (s.done (z.perform (.tile t) { requestOf type m k p with p2 := true }))) ∧
  (∀ (s : State) (lane : Fin 2) (peer p : Bytes) (m : HostMsg) (k : Nat) (x : HSess), s.requested lane 9 m k x p → tgtOf m.target = some .dev →
    exec (.exec lane peer m) s = .next (s.done ((s.taken lane m k x).doExec (requestOf 9 m k p)))) ∧
  (∀ (s : State) (lane : Fin 2) (peer : Bytes) (m : HostMsg) (k : Nat) (x : HSess) (g : Tgt), s.requested lane 10 m k x [] → tgtOf m.target = some g →
    ∃ y, exec (.close lane peer m) s = .next y ∧ Tbl.get y.pier.hub.sess k = none ∧ y.pier.hub.locks = s.pier.hub.locks.filter (fun e => decide (e.2.1 ≠ k))) ∧
  (∀ (s : State) (lane : Fin 2) (peer p : Bytes) (m : HostMsg) (k type : Nat) (x : HSess) (g : Tgt) (c : Instr),
    (type, c) ∈ [(1, .get lane peer m), (2, .set lane peer m), (3, .getBlock lane peer m), (4, .setBlock lane peer m), (5, .subscribe lane peer m),
      (6, .unsubscribe lane peer m), (7, .fetch (.host lane peer m)), (8, .ackDiscard (.host lane peer m)), (9, .exec lane peer m), (10, .close lane peer m)] →
    s.opened lane type m k x p → tgtOf m.target = some g →
    ((s.taken lane m k x).hubAnswers.pier.hub.begun k m.target || waitsFor (s.taken lane m k x).hubAnswers.pier.hub.waits k m.target) = false →
    exec c s = .next (s.done ((s.taken lane m k x).hubAnswers.carry g (requestOf type m k p)))) ∧
  (∀ (s : State) (lane : Fin 2) (peer p : Bytes) (m : HostMsg) (k type : Nat) (x : HSess) (g : Tgt) (c : Instr),
    (type, c) ∈ [(1, .get lane peer m), (2, .set lane peer m), (3, .getBlock lane peer m), (4, .setBlock lane peer m), (5, .subscribe lane peer m),
      (6, .unsubscribe lane peer m), (7, .fetch (.host lane peer m)), (8, .ackDiscard (.host lane peer m)), (9, .exec lane peer m), (10, .close lane peer m)] →
    s.opened lane type m k x p → tgtOf m.target = some g →
    ((s.taken lane m k x).hubAnswers.pier.hub.begun k m.target || waitsFor (s.taken lane m k x).hubAnswers.pier.hub.waits k m.target) = true →
    (s.taken lane m k x).hubAnswers.denied k type g p = false →
    exec c s = .next (s.done ((s.taken lane m k x).hubAnswers.hold (requestOf type m k p))))

/-- A HELLO on a lane opens a handshake under the next identifier; an AUTH that verifies makes the session; a message of no session is answered so; a session ends
when idle and by command; a staging lock ends after 60 s. NO_SESSION is sent at most 100 times a second; an AUTH that comes too late ends its handshake. A
datagram to another port or a fragment is discarded, an echo and a solicitation are answered. Where the manual leaves a point of it open, the choice is the
model's: notes/assumptions/3.md, notes/assumptions/26.md, notes/assumptions/38.md. Rules R390, R399, R400, R401, R405, R406. -/
def Obligations.HostSessions : Prop :=
  (∀ (s : State) (lane : Fin 2) (peer : Bytes) (m : HostMsg), s.laneDown lane = false → m.form = .trakmer → s.pier.rootState ≠ 2 → m.session = 0 → m.status = 0 → m.ref = 0 → m.flags < 4 → m.len = 81 →
    m.body.length = 81 → s.pier.hub.hostSessions < 8 → s.pier.hub.handshakes s.now < 16 → s.hubRandom = true →
    ∃ x e, exec (.hello lane peer m) s = .next x ∧ Tbl.get x.pier.hub.sess s.pier.hub.next = some e ∧ x.pier.hub.next = s.pier.hub.next + 1 ∧ e.slot = none ∧
      e.chan = lane ∧ e.hello = m.body ∧ e.since = s.now ∧ e.id = (s.rd Reg.device_host_boot_count 0 % 65536) * 65536 + s.pier.hub.next) ∧
  (∀ (s : State) (lane : Fin 2) (peer : Bytes) (m : HostMsg) (k r slot : Nat) (x : HSess) (keys print : Bytes), s.laneDown lane = false → m.form = .trakmer →
    s.pier.hub.sess.find? (fun e => decide (e.2.id = m.session) && e.2.slot.isNone && (decide (e.2.chan = serialChan) == false)) = some (k, x) →
    s.now ≤ x.since + authNs → m.status = 0 → m.ref = 0 → m.flags < 4 → m.len = m.body.length →
    (s.bump Reg.device_host_frames_in 0 lane).authOpen x m.body = some (r, keys, print) → s.pier.hub.freeSlot false = some slot →
    ∃ y z : State, exec (.auth lane peer m) s = .next (s.done (y.message k 0xF1 m.target 0 m.seq true (u8 r ++ [0, 0, 0] ++
      u32 (y.rd Reg.device_host_session_idle_s 0))).1) ∧ z = s.bump Reg.device_host_frames_in 0 lane ∧
      y = (z.onHub fun h => { h with sess := Tbl.put h.sess k { x with
        slot := some slot, rights := r, keyRx := keys.take 32, keyTx := keys.drop 32, print := print, opened := z.pierNs, lastReq := z.now,
        eph := 0, hello := [], rsp := [] } }).bump Reg.device_host_handshakes 0) ∧
  (∀ (s : State) (lane : Fin 2) (peer : Bytes) (type : Nat) (m : HostMsg), s.laneDown lane = false → m.form = .trakmer → 1 ≤ type → type ≤ 10 → s.pier.hub.find m.session = none →
    (s.pier.hub.noSess.filter fun e => decide (s.now < e + 1000000000)).length < 100 →
    s.rd Reg.device_host_no_session_sent 0 + 1 < Reg.device_host_no_session_sent.span →
    ∃ x, exec (.noSession lane peer type m) s = .next x ∧ x.pier.hub.noSess = (s.pier.hub.noSess.filter fun e => decide (s.now < e + 1000000000)) ++ [s.now] ∧
      x.rd Reg.device_host_no_session_sent 0 = s.rd Reg.device_host_no_session_sent 0 + 1 ∧ x.pier.hub.sess = s.pier.hub.sess ∧ (∀ u, x.vol u = s.vol u)) ∧
  (∀ (s : State) (session k : Nat) (x : HSess), s.pier.hub.find session = some (k, x) → (s.pier.hub.execs.any fun w => decide (w.sess = k)) = false →
    max x.lastReq x.busyAt + s.rd Reg.device_host_session_idle_s 0 * 1000000000 ≤ s.now →
    ∃ y, exec (.sessionIdle session) s = .next y ∧ Tbl.get y.pier.hub.sess k = none ∧ y.regs = s.regs ∧ y.out = s.out) ∧
  (∀ (s : State) (k : Nat) (x : HSess), s.pier.hub.place (s.rd Reg.device_host_session_select 0) = some (k, x) →
    ∃ y, exec .sessionEnd s = .next y ∧ Tbl.get y.pier.hub.sess k = none ∧ y.regs = s.regs ∧ y.out = s.out ++ [.answer 255 .ok]) ∧
  (∀ (s : State) (index sub a b : Nat), Tbl.get s.pier.hub.locks (index * 256 + sub) = some (a, b) → b + lockNs ≤ s.now →
    ∃ y, exec (.stagingLockTimeout index sub) s = .next y ∧ Tbl.get y.pier.hub.locks (index * 256 + sub) = none ∧ y.regs = s.regs ∧ y.out = s.out) ∧
  (∀ (s : State) (lane : Fin 2) (peer : Bytes) (type : Nat) (m : HostMsg), s.laneDown lane = false → m.form = .trakmer → 1 ≤ type → type ≤ 10 → s.pier.hub.find m.session = none →
    100 ≤ (s.pier.hub.noSess.filter fun e => decide (s.now < e + 1000000000)).length →
    ∃ x, exec (.noSession lane peer type m) s = .next x ∧ x.pier.hub.sess = s.pier.hub.sess ∧ (∀ u, x.vol u = s.vol u) ∧ x.out = s.out ∧
      x.rd Reg.device_host_no_session_sent 0 = s.rd Reg.device_host_no_session_sent 0) ∧
  (∀ (s : State) (lane : Fin 2) (peer : Bytes) (type : Nat) (m : HostMsg), s.laneDown lane = false → m.form = .trakmer → type = 0 ∨ 10 < type →
    type ≠ 0x70 → type ≠ 0x71 →
    exec (.noSession lane peer type m) s = .next (s.done ((s.bump Reg.device_host_frames_in 0 lane).bump Reg.device_host_rx_discard 0))) ∧
  (∀ (s : State) (lane : Fin 2) (peer : Bytes) (m : HostMsg),
    exec (.noSession lane peer 0x70 m) s = exec (.hello lane peer m) s ∧ exec (.noSession lane peer 0x71 m) s = exec (.auth lane peer m) s) ∧
  (∀ (s : State) (lane : Fin 2) (peer : Bytes) (type : Nat) (m : HostMsg) (c : Instr), s.laneDown lane = false → m.form = .otherPort ∨ m.form = .fragment →
    c ∈ [.hello lane peer m, .auth lane peer m, .noSession lane peer type m, .get lane peer m, .set lane peer m, .getBlock lane peer m, .setBlock lane peer m,
      .subscribe lane peer m, .unsubscribe lane peer m, .exec lane peer m, .close lane peer m] →
    exec c s = .next (s.done ((s.bump Reg.device_host_frames_in 0 lane).bump Reg.device_host_rx_discard 0))) ∧
  (∀ (s : State) (lane : Fin 2) (peer : Bytes) (type : Nat) (m : HostMsg), s.laneDown lane = false → m.form = .echo →
    exec (.noSession lane peer type m) s = .next (s.done ((s.bump Reg.device_host_frames_in 0 lane).icmp lane peer 129 m.body))) ∧
  (∀ (s : State) (lane : Fin 2) (peer : Bytes) (type : Nat) (m : HostMsg), s.laneDown lane = false → m.form = .solicit → s.pier.hub.cfg.owns lane m.body = true →
    exec (.noSession lane peer type m) s = .next (s.done ((s.bump Reg.device_host_frames_in 0 lane).icmp lane peer 136 m.body))) ∧
  (∀ (s : State) (lane : Fin 2) (peer : Bytes) (m : HostMsg) (k : Nat) (x : HSess), s.laneDown lane = false → m.form = .trakmer →
    s.pier.hub.sess.find? (fun e => decide (e.2.id = m.session) && e.2.slot.isNone && (decide (e.2.chan = serialChan) == false)) = some (k, x) →
    x.since + authNs < s.now →
    exec (.auth lane peer m) s = .next (s.done (((s.bump Reg.device_host_frames_in 0 lane).endSession k).bump Reg.device_host_handshake_fail 0)))

/-- Up to 16 unsent events are notified, and the archive stream is; a watch compares when its interval is over; a lane that goes down is noted, and the other
takes over after the hold time; the primary lane is taken again after the revert time; a frame of the service bus with a good check is taken; a request of the
bus to a tile that does not answer is answered UNREACHABLE. Rules R391, R408, R412, R413, R650. -/
def Obligations.HostStreams : Prop :=
  (∀ (s : State) (t : TileId) (e : Event) (l : List Event), s.pier.up = true → s.inRun t = true → (s.vol t).elog.unsent = e :: l →
    exec (.notify t 1) s = .next (s.done ((s.onVol t fun v => { v with elog := { v.elog with unsent := (e :: l).drop 16 } }).notifyTile 1 t
      (((e :: l).take 16).map eventItem)))) ∧
  (∀ (s : State) (t : TileId), s.pier.up = true → s.inRun t = true → exec (.notify t 0) s = .next (s.done (s.notifyArchive t))) ∧
  (∀ (s : State) (session sub k : Nat) (x : HSess) (w : HSub), s.pier.hub.find session = some (k, x) →
    x.subs.find? (fun w => decide (w.id = sub) && decide (w.stream = 2)) = some w → w.at_ + w.minMs * 1000000 ≤ s.now →
    exec (.watchCompare session sub) s = .next (s.done (s.watchCompare k w))) ∧
  (∀ (s : State) (lane : Fin 2), s.pier.up = true → s.pier.hub.laneUp.length = 2 → s.pier.hub.laneAt.length = 2 →
    ∃ y, exec (.laneDown lane 1) s = .next y ∧ y.pier.hub.laneUp.getD lane true = false ∧ y.pier.hub.laneAt.getD lane 0 = s.now ∧ y.pier.hub.active = s.pier.hub.active ∧
      y.regs = s.regs ∧ y.out = s.out) ∧
  (∀ (s : State) (lane : Fin 2), s.pier.up = true → s.pier.hub.cfg.mode = 0 → s.pier.hub.active = lane → s.pier.hub.laneUp.getD lane false = false →
    s.pier.hub.laneAt.getD lane 0 + s.pier.hub.cfg.holdMs * 1000000 ≤ s.now → s.pier.hub.laneUp.getD (otherLane lane) false = true →
    exec (.laneDown lane 2) s = .next (s.done (s.laneSwitch (otherLane lane)))) ∧
  (∀ s : State, s.pier.hub.cfg.mode = 0 → s.pier.hub.cfg.revertS ≠ 0 → s.pier.hub.laneUp.getD s.pier.hub.cfg.primary false = true →
    s.pier.hub.active ≠ s.pier.hub.cfg.primary → s.pier.hub.laneAt.getD s.pier.hub.cfg.primary 0 + s.pier.hub.cfg.revertS * 1000000000 ≤ s.now →
    exec .laneRevert s = .next (s.done (s.laneSwitch s.pier.hub.cfg.primary))) ∧
  (∀ (s : State) (frame b : Bytes), s.pier.up = true → s.pier.clock ≠ .select → unstuff frame = some (u8 s.pier.hub.cfg.addr ++ b ++ u16 (fcs16 (u8 s.pier.hub.cfg.addr ++ b))) →
    s.pier.hub.cfg.addr < 256 →
    exec (.serialFrame frame) s = .next (s.done ((s.bump Reg.device_svc_frames_in 0).serialMsg b))) ∧
  (∀ (s : State) (w : HExec), s.pier.hub.execs.find? (fun w => s.isSerial w.sess && decide (w.target < 16) && decide (w.since + 200000000 ≤ s.now)) = some w →
    exec .serialTileTimeout s = .next (s.done ((s.onHub fun h => { h with execs := h.execs.map fun v => if v = w then { v with sess := 0 } else v }).reply w.req
      .unreachable (u8 4)))) ∧
  (∀ (s : State) (w : HSet), s.pier.hub.execs = [] → s.pier.hub.sets.find? (fun w => s.isSerial w.sess && decide (w.since + 200000000 ≤ s.now)) = some w →
    exec .serialTileTimeout s = .next (s.done ((s.onHub fun h => { h with sets := h.sets.filter fun v => decide (v ≠ w) }).reply w.req
      .unreachable (u8 4)))) ∧
  (∀ s : State, s.pier.up = true → exec (.notify 255 1) s = .next (s.done s.notifyPierEvents)) ∧
  (∀ (s : State) (lane : Fin 2), s.pier.up = true →
    exec (.laneDown lane 0) s = .next (s.done ((s.setLane lane true).laneHeld (otherLane lane)).flushOut) ∧
    exec (.laneDown lane 3) s = .next (s.done s.lanesDead)) ∧
  (∀ (s : State) (frame : Bytes), s.pier.up = true → s.pier.clock ≠ .select → unstuff frame = none →
    exec (.serialFrame frame) s = .next (s.done (s.bump Reg.device_svc_fcs_errors 0)))

/-- The best of the masters heard is shown, and none is heard while the source is not PTP; a synchronisation of the best master is measured by every tile and one
of another domain discarded; a delay measurement sets the lane's delay; the active edge of PPS named by a TOD message is measured by every tile, an unnamed
one is counted; a TOD message in time names the next edge. Where the manual leaves a point of it open, the choice is the model's: notes/assumptions/3.md,
notes/assumptions/38.md. Rules R422, R423, R424. -/
def Obligations.TimeReferences : Prop :=
  (∀ (s : State) (lane : Fin 2) (port gm : Bytes) (prio1 cls acc var prio2 steps src : Nat) (utc leap : Int) (utcValid : Bool), s.laneDown lane = false → s.pier.time.source = 0 →
    s.pier.time.masters = [] → s.pier.time.best = none → s.laneHeard lane = true → s.rd Reg.device_time_master_changes 0 + 1 < Reg.device_time_master_changes.span →
    ∃ x, exec (.ptpAnnounce lane { domain := s.rd Reg.device_time_ptp_domain 0, port := port } gm prio1 cls acc var prio2 steps src utc utcValid leap) s = .next x ∧
      (x.pier.time.best.map fun m => (m.lane, m.port, m.gm, m.cls, m.seen)) = some (lane.val, port, gm, cls, s.now) ∧
      x.rdB Reg.device_time_gm_identity 0 0 8 = fit 8 gm ∧ x.rd Reg.device_time_master_changes 0 = s.rd Reg.device_time_master_changes 0 + 1) ∧
  (∀ (s y : State) (lane : Fin 2) (m : Master) (originNs : Nat) (corrNs : Int) (two : Bool), s.pier.time.best = some m → s.pier.time.source = 0 → m.lane = lane.val →
    s.laneHeard lane = true → s.laneDown lane = false → y = (if two then (s.ptpForward 60).ptpForward 60 else s.ptpForward 60) →
    exec (.ptpSync lane { domain := s.rd Reg.device_time_ptp_domain 0, port := m.port, followUp := two } originNs corrNs) s = .next (s.done (y.each allTiles fun z t => z.formMeasure t
      ((originNs : Int) + corrNs + y.rd Reg.device_time_link_delay_ns 0 lane - (z.timeNs t - (82 + y.rdI Reg.device_time_lane_corr_ns 0 lane)))))) ∧
  (∀ (s : State) (lane : Fin 2) (t1 t2 t3 t4 d : Nat), s.laneDown lane = false → s.pier.time.source = 0 →
    d = meanLinkDelay (58 + s.rdI Reg.device_time_lane_corr_ns 0 lane) (36 + s.rdI Reg.device_time_lane_corr_ns 0 lane) (t1, t2, t3, t4) → d < Reg.device_time_link_delay_ns.span →
    ∃ x, exec (.pdelay lane t1 t2 t3 t4) s = .next x ∧ x.rd Reg.device_time_link_delay_ns 0 lane = d ∧ (∀ u, x.vol u = s.vol u) ∧ x.pier = s.pier ∧
      x.out = s.out ++ [.lanePdelay lane false, .lanePdelay lane true]) ∧
  (∀ (s : State) (width sec : Nat), s.pier.up = true → s.rd Reg.device_time_pps_polarity 0 = 0 → 100 ≤ width → s.pier.time.lastEdge = none → s.pier.time.todNamed = some sec →
    s.pier.time.source = 1 →
    exec (.ppsEdge true width) s = .next (s.done ((s.onPier fun p =>
      { p with time := { p.time with ppsLevel := true, lastEdge := some s.now, todNamed := none } }).each allTiles fun z t =>
        z.formMeasure t ((sec : Int) * 1000000000 - z.timeNs t)))) ∧
  (∀ (s : State) (width : Nat), s.pier.up = true → s.pier.time.source = 1 → s.rd Reg.device_time_pps_polarity 0 = 0 → 100 ≤ width → s.pier.time.lastEdge = none → s.pier.time.todNamed = none →
    s.rd Reg.device_time_tod_errors 0 + 1 < Reg.device_time_tod_errors.span →
    ∃ x, exec (.ppsEdge true width) s = .next x ∧ x.rd Reg.device_time_tod_errors 0 = s.rd Reg.device_time_tod_errors 0 + 1 ∧
      x.pier.time.lastEdge = some s.now ∧ x.pier.time.ppsLevel = true ∧ (∀ u, x.vol u = s.vol u) ∧ x.out = s.out) ∧
  (∀ (s : State) (msg : Bytes) (sec l : Nat) (u : Int), parseTod msg = some (sec, u, l) → s.pier.time.lastEdge = none → s.pier.time.source = 0 →
    ∃ x, exec (.todMessage msg) s = .next x ∧ x.pier.time.todNamed = some sec ∧ x.pier.time.todUtc = some u ∧ x.out = s.out) ∧
  (∀ (s : State) (lane : Fin 2) (port gm : Bytes) (prio1 cls acc var prio2 steps src : Nat) (utc leap : Int) (utcValid : Bool) (m : Master), s.laneDown lane = false → s.pier.time.source = 0 →
    m = { lane := lane, port := port, gm := gm, prio1 := prio1, cls := cls, acc := acc, var := var, prio2 := prio2, steps := steps, src := src, utc := utc,
          utcValid := utcValid, leap := clampI 1 leap, seen := s.now } →
    ∃ x, exec (.ptpAnnounce lane { domain := s.rd Reg.device_time_ptp_domain 0, port := port } gm prio1 cls acc var prio2 steps src utc utcValid leap) s = .next x ∧
      x.pier.time.masters = m :: (s.pier.time.masters.filter fun x => !(x.port == port && x.lane == lane.val)).filter s.stillHeard ∧
      x.pier.time.best = bestMaster (x.pier.time.masters.filter fun x => s.laneHeard x.lane) ∧ (∀ u, (x.vol u).mer = (s.vol u).mer)) ∧
  (∀ (s : State) (lane : Fin 2) (p : PtpSender) (gm : Bytes) (prio1 cls acc var prio2 steps src : Nat) (utc leap : Int) (utcValid : Bool),
    s.pier.time.source ≠ 0 ∨ p.domain ≠ s.rd Reg.device_time_ptp_domain 0 →
    exec (.ptpAnnounce lane p gm prio1 cls acc var prio2 steps src utc utcValid leap) s = .next (s.done s)) ∧
  (∀ (s : State) (lane : Fin 2) (domain originNs : Nat) (port : Bytes) (corrNs : Int), domain ≠ s.rd Reg.device_time_ptp_domain 0 →
    exec (.ptpSync lane { domain := domain, port := port } originNs corrNs) s = .next (s.done s)) ∧
  (∀ (s : State) (rising : Bool) (width sec : Nat), s.pier.up = true → rising = decide (s.rd Reg.device_time_pps_polarity 0 = 0) → 100 ≤ width →
    (s.pier.time.lastEdge.all fun e => decide (e + 500000000 ≤ s.now)) = true → s.pier.time.todNamed = some sec → s.pier.time.source = 1 →
    exec (.ppsEdge rising width) s = .next (s.done ((s.onPier fun p =>
      { p with time := { p.time with ppsLevel := rising, lastEdge := some s.now, todNamed := none } }).each allTiles fun z t =>
        z.formMeasure t ((sec : Int) * 1000000000 - z.timeNs t)))) ∧
  (∀ (s : State) (rising : Bool) (width : Nat), s.pier.up = true →
    rising ≠ decide (s.rd Reg.device_time_pps_polarity 0 = 0) ∨ width < 100 ∨ (s.pier.time.lastEdge.any fun e => decide (s.now < e + 500000000)) = true →
    ∃ x, exec (.ppsEdge rising width) s = .next x ∧ x.pier.time.ppsLevel = rising ∧ x.pier.time.lastEdge = s.pier.time.lastEdge ∧
      x.pier.time.todNamed = s.pier.time.todNamed ∧ x.regs = s.regs ∧ (∀ u, x.vol u = s.vol u)) ∧
  (∀ (s : State) (msg : Bytes) (sec l : Nat) (u : Int), parseTod msg = some (sec, u, l) →
    (s.pier.time.lastEdge.all fun e => decide (e + 100000000 ≤ s.now) && decide (s.now ≤ e + 900000000)) = true →
    ∃ x, exec (.todMessage msg) s = .next x ∧ x.pier.time.todNamed = some sec ∧ x.pier.time.todUtc = some u ∧ x.pier.time.lastEdge = s.pier.time.lastEdge ∧
      (∀ v, x.vol v = s.vol v))

/-- A formed measurement is judged; a locked tile whose reference is lost holds over; a leap second is entered at its instant, the end of the present UTC day; a
re-step is begun, and given up in time with its failed tiles; TOUT and the PTP master follow the tile's seconds; entries of the re-step table older than 16
days go. TOUT repeats PPS, or is low. Where the manual leaves a point of it open, the choice is the model's: notes/assumptions/38.md. Rules R420, R429, R430,
R435, R437, R439, R441. -/
def Obligations.MeridianTime : Prop :=
  (∀ (s : State) (t : TileId) (c : Nat) (o : Int) (r : List (Nat × Int)), (s.vol t).mer.formed = (c, o) :: r →
    exec (.meridianMeasurement t) s = .next (s.done (judgeMeasure (s.onMer t fun m => { m with formed := r }) t c o))) ∧
  (∀ (s : State) (t : TileId), s.rd Reg.time_state t = 2 → (s.vol t).mer.lastMeas + s.rd Reg.device_time_loss_ms 0 * 1000000 ≤ s.now →
    ∃ x, exec (.referenceLoss t) s = .next x ∧ x.rd Reg.time_state t = 3 ∧ (x.vol t).mer.restepMeas = [] ∧ (x.vol t).mer.leftLocked = some s.now ∧ x.out = s.out) ∧
  (∀ s : State, s.rdI Reg.device_time_leap_pending 0 ≠ 0 → s.pier.time.leapAt ≠ 0 → s.pier.time.leapAt ≤ s.pierNs / 1000000000 →
    ∃ x, exec .leapSecond s = .next x ∧ x.rdI Reg.device_time_leap_pending 0 = 0 ∧
      x.pier.time.utc = s.pier.time.utc + s.rdI Reg.device_time_leap_pending 0 ∧ (∀ u, x.vol u = s.vol u) ∧ x.out = s.out) ∧
  (∀ s : State, s.rdI Reg.device_time_leap_pending 0 ≠ 0 → s.pierNs / 1000000000 ≠ 0 → s.pier.time.leapAt = 0 ∨ s.pierNs / 1000000000 < s.pier.time.leapAt →
    s.pierNs / 1000000000 < leapInstant (s.pierNs / 1000000000) s.pier.time.utc (s.rdI Reg.device_time_leap_pending 0) →
    ∃ x, exec .leapSecond s = .next x ∧ x.pier.time.utc = s.pier.time.utc ∧ x.regs = s.regs ∧ (∀ u, x.vol u = s.vol u) ∧ x.out = s.out ∧
      x.pier.time.leapAt = leapInstant (s.pierNs / 1000000000) s.pier.time.utc (s.rdI Reg.device_time_leap_pending 0)) ∧
  (∀ (s : State) (t : TileId) (p : Bytes) (mask : Nat), restepParams p = some (mask, 0, 0) → s.pier.time.restep = none → allTiles.filter (fun t => bit mask t.val) = [t] →
    s.inRun t = true → (s.restepTable t).length < 4 →
    ∃ x, exec (.restep p) s = .next x ∧ x.pier.time.restep = some { mode := 0, waiting := [t.val], failed := [], full := false, start := s.now, act := s.acts.now } ∧
      (x.vol t).mer.restepSince = some s.now ∧ x.regs = s.regs ∧ x.out = s.out) ∧
  (∀ (s : State) (t : TileId) (r : RestepRun), s.pier.time.restep = some r → r.waiting = [t.val] → r.failed = [] → r.start + 70000000000 ≤ s.now →
    ∃ x, exec .restepTimeout s = .next x ∧ x.pier.time.restep = none ∧ x.rd Reg.device_time_restep_failed 0 = 2 ^ t.val ∧ (x.vol t).mer.restepSince = none) ∧
  (∀ (s : State) (b : BayId) (t : TileId), s.pier.up = true → s.rd Reg.bay_time_tout_mode b = 0 → s.toutTile b = some t →
    s.timeNs t % 1000000000 < (s.rd Reg.bay_time_tout_width_us b * 1000 : Nat) →
    ((s.bay b).toutOf = some t.val ∧ (s.bay b).toutSec < s.timeNs t / 1000000000) ∨ ((s.bay b).toutOf ≠ some t.val ∧ s.timeNs t % 1000000000 < 1000) →
    (s.bay b).toutLevel = false →
    s.rd Reg.bay_time_tout_pulses b + 1 < Reg.bay_time_tout_pulses.span →
    ∃ x, exec (.toutEdge b) s = .next x ∧ x.out = s.out ++ [.tout b true] ∧ (x.bay b).toutLevel = true ∧ (x.bay b).toutSec = s.timeNs t / 1000000000 ∧
      x.rd Reg.bay_time_tout_source b = (if t.val % 2 = 0 then 1 else 2) ∧ x.rd Reg.bay_time_tout_pulses b = s.rd Reg.bay_time_tout_pulses b + 1) ∧
  (∀ (s : State) (t : TileId) (cls src steps : Nat), s.serves t = true → s.inRun t = true → s.announceOf t = some (cls, src, steps) → cls < 256 →
    s.timeNs t / 1000000000 ≠ (s.vol t).ptpSec → s.rd Reg.time_ptp_master_enable t = 1 →
    exec (.ptpMasterTx t none none) s = .next (s.done (((s.onVol t fun v => { v with ptpSec := s.timeNs t / 1000000000 }).wr Reg.time_clock_class t cls).swSend t 6 0 0
      (.ptp (.sync (s.rd Reg.device_time_ptp_domain 0) (s.timeNs t / 1000000000).toNat cls src steps))))) ∧
  (∀ (s : State) (t : TileId), exec (.restepEntryExpiry t) s =
    .next (s.done (s.setRestepTable t ((s.restepTable t).filter fun v => decide (s.timeSec t < v + 16 * 86400))))) ∧
  (∀ (s : State) (t : TileId) (cls src steps : Nat) (d0 d1 : Option (Nat × Nat × Nat × Nat)), s.serves t = true → s.inRun t = true → s.announceOf t = some (cls, src, steps) →
    s.timeNs t / 1000000000 ≠ (s.vol t).ptpSec → s.rd Reg.time_ptp_master_enable t = 0 →
    ∃ x, exec (.ptpMasterTx t d0 d1) s = .next x ∧ (x.vol t).ptpSec = s.timeNs t / 1000000000 ∧ x.rd Reg.time_clock_class t = 255 ∧ x.out = s.out) ∧
  (∀ (s : State) (t : TileId) (cls src steps : Nat) (d : Nat × Nat × Nat × Nat) (d1 : Option (Nat × Nat × Nat × Nat)), s.serves t = true → s.inRun t = true →
    s.announceOf t = some (cls, src, steps) → s.timeNs t / 1000000000 ≠ (s.vol t).ptpSec → s.rd Reg.time_ptp_master_enable t = 1 →
    s.peerDelay t 0 d < Reg.time_peer_delay_ns.span →
    ∃ x, exec (.ptpMasterTx t (some d) d1) s = .next x ∧ x.rd Reg.time_peer_delay_ns t 0 = s.peerDelay t 0 d ∧ (x.vol t).ptpSec = s.timeNs t / 1000000000) ∧
  (∀ (s : State) (b : BayId) (t : TileId), s.pier.up = true → s.rd Reg.bay_time_tout_mode b = 0 → s.toutTile b = some t →
    (s.rd Reg.bay_time_tout_width_us b * 1000 : Nat) ≤ s.timeNs t % 1000000000 → (s.bay b).toutLevel = true →
    ∃ x, exec (.toutEdge b) s = .next x ∧ x.out = s.out ++ [.tout b false] ∧ (x.bay b).toutLevel = false ∧ x.rd Reg.bay_time_tout_source b = (if t.val % 2 = 0 then 1 else 2)) ∧
  (∀ (s : State) (b : BayId), s.pier.up = true → s.rd Reg.bay_time_tout_mode b = 1 → (s.bay b).toutLevel ≠ s.pier.time.ppsLevel →
    ∃ x, exec (.toutEdge b) s = .next x ∧ x.out = s.out ++ [.tout b s.pier.time.ppsLevel] ∧ (x.bay b).toutLevel = s.pier.time.ppsLevel ∧ x.rd Reg.bay_time_tout_source b = 3) ∧
  (∀ (s : State) (b : BayId), s.pier.up = true → s.rd Reg.bay_time_tout_mode b ≠ 0 ∧ s.rd Reg.bay_time_tout_mode b ≠ 1 ∨
      s.rd Reg.bay_time_tout_mode b = 0 ∧ s.toutTile b = none →
    ∃ x, exec (.toutEdge b) s = .next x ∧ x.out = s.out ++ (if (s.bay b).toutLevel then [.tout b false] else []) ∧ (x.bay b).toutLevel = false ∧
      x.rd Reg.bay_time_tout_source b = 0) ∧
  (∀ (s : State) (p : Bytes), restepParams p = none →
    exec (.restep p) s = .next (s.done ((s.wr Reg.device_time_restep_result 0 Status.invalid.code).answer 255 .invalid))) ∧
  (∀ (s y : State) (p : Bytes) (mask mode ns : Nat) (r : RestepRun), restepParams p = some (mask, mode, ns) → s.pier.time.restep = none → allTiles.filter (fun t => bit mask t.val) ≠ [] →
    r = { mode := mode, waiting := (allTiles.filter fun t => bit mask t.val).map Fin.val, failed := [], full := false, start := s.now, act := s.acts.now } →
    y = s.onPier (fun q => { q with time := { q.time with restep := some r } }) →
    exec (.restep p) s = .next (s.done (y.each (allTiles.filter fun t => bit mask t.val) (restepTile mode ns)))) ∧
  (∀ (s : State) (r : RestepRun), s.pier.time.restep = some r →
    exec .restepTimeout s = .next (s.done (s.each (allTiles.filter fun t => r.waiting.contains t.val &&
      (decide (r.start + 70000000000 ≤ s.now) || (match (s.vol t).mer.restepSince with
         | some x => decide (x + 60000000000 ≤ s.now)
         | none => false))) fun s t => s.restepTileDone t true)))

/-- The first tile of a bay draws the KEKs and forms generation 0; an offer of the bay KEK stands 60 s; a tile with both certificates and an archive generation
goes to FIELD; erasing and retiring destroy the KEKs and the bay's table; the archive key rotates to the next generation; an import unwraps its entries in
turn. A blank tile has nothing to erase; one in DEBUG is reset after it. Where the manual leaves a point of it open, the choice is the model's:
notes/assumptions/3.md, notes/assumptions/13.md. Rules R451, R454, R456, R468, R471, R474, R478. -/
def Obligations.VaultKeys : Prop :=
  (∀ (s a b : State) (t : TileId) (ka kb : Bytes), s.lifecycle t = 0 ∨ s.lifecycle t = 3 → s.drbgReady t = true → s.rd Reg.vault_enrol_mode t ≠ 1 →
    (s.tile (mate t)).retired = true ∨ leNat ((s.tile (mate t)).keyPage.bkF ++ (s.tile (mate t)).keyPage.bkP) = 0 → s.draw t = (a, ka) → a.draw t = (b, kb) →
    exec (.vaultEnrol t) s =
      .next (s.done ((((((b.sealKeks t ka kb).newGeneration t 0).loadBaySlots t).settleRoot t).vaultLater t).releaseVault t))) ∧
  (∀ (s : State) (t : TileId) (k : Bytes), s.lifecycle t = 1 ∨ s.lifecycle t = 2 ∨ s.lifecycle t = 3 → (s.vol t).vault.bayKek = some k →
    ∃ x, exec (.bayOffer t) s = .next x ∧ (x.vol t).vault.offerUntil = some (s.now + 60 * 10 ^ 9) ∧ x.rd Reg.vault_last_result t = 0 ∧
      (x.vol t).vault.slots = (s.vol t).vault.slots ∧ x.out = s.out ++ [.answer t .ok]) ∧
  (∀ (s : State) (t : TileId) (u : Nat), (s.vol t).vault.offerUntil = some u → u ≤ s.now →
    ∃ x, exec (.bayOfferExpiry t) s = .next x ∧ (x.vol t).vault.offerUntil = none ∧ x.regs = s.regs ∧ x.out = s.out) ∧
  (∀ (s : State) (t : TileId) (g : Nat), s.lifecycle t = 1 → s.certHeld t Reg.vault_cert_id 0 = true → s.certHeld t Reg.vault_cert_link 1 = true → s.archGen t = some g →
    exec (.goField t) s = .next (s.done (((s.writePage t fun k => { k with life := 2 }).settleRoot t).vaultOk t))) ∧
  (∀ (s : State) (t : TileId), s.serves t = false → s.lifecycle t = 1 ∨ s.lifecycle t = 2 →
    exec (.vaultErase t) s = .next (s.done ((((s.eraseKeks t 0).destroyBayTable t).vaultLater t).releaseVault t))) ∧
  (∀ (s : State) (t : TileId), s.serves t = false → s.lifecycle t ≠ 4 →
    exec (.vaultRetire t) s = .next (s.done (((((((s.eraseKeks t (s.lifecycle t)).destroyBayTable t).onTile t fun x => { x with retired := true }).wr
      Reg.vault_root_used t 0).settleRoot t).vaultLater t).releaseVault t))) ∧
  (∀ (s : State) (t : TileId) (k : Bytes) (g : Nat), s.serves t = true → s.drbgReady t = true → (s.vol t).vault.rotating = false →
    (s.vol t).vault.bayKek = some k → s.archGen t = some g →
    exec (.archiveRotate t) s = .next (s.done ((((s.newGeneration t ((g + 1) % 16)).onVault t fun v => { v with rotating := true }).vaultLater t).releaseVault t))) ∧
  (∀ (s u : State) (t : TileId) (b d z : Bytes) (n : Nat) (pt : Nat × Nat), s.serves t = true → s.rdAll Reg.vault_import_stage t = b → fld b 0 1 = 1 → fld b 1 1 = n →
    1 ≤ n → n ≤ 16 → fld b 2 2 = 0 → fld b 69 3 = 0 → Crypto.decodePoint Crypto.p256 ((b.drop 4).take 65) = some pt → s.useSlot t 2 = (u, some d) →
    Crypto.ecdh Crypto.p256 (beNat d) ((b.drop 4).take 65) = some z →
    exec (.vaultImport t) s = .next (s.done (consuming t [Reg.vault_import_stage] (fun y =>
      let r := (List.range n).foldl (fun (a : State × List Nat) i =>
        let x := a.1.importEntry t (Crypto.kdf z (Crypto.ascii "KEYLOAD") ((b.drop 4).take 65) 256) ((b.drop (72 + 64 * i)).take 64)
        (x.1, a.2 ++ [x.2])) ((y.useSlot t 2).1, [])
      ((r.1.wrB Reg.vault_import_result t 0 (fit 16 (Crypto.ofNats r.2))).vaultLater t).releaseVault t) s))) ∧
  (∀ (s : State) (t : TileId), s.serves t = false → s.lifecycle t = 0 → exec (.vaultErase t) s = .next (s.done (s.vaultOk t))) ∧
  (∀ (s : State) (t : TileId), s.serves t = false → s.lifecycle t = 3 → s.pier.es = false →
    exec (.vaultErase t) s = .next (s.done (((((s.eraseKeks t 0).destroyBayTable t).onVault t fun v => { v with resetDue := true }).vaultLater t).releaseVault t)))

/-- A debug unlock needs a good token and erases the KEKs; a challenge is drawn, given and open 600 s; the host key is renewed with its next certificate; a
certificate of the present key and an anchor are stored; the random source becomes ready, reseeds after 10 s, counts a health failure and gives up after 100
ms. A part of a certificate or of an anchor is written where the whole that results is good. Where the manual leaves a point of it open, the choice is the
model's: notes/assumptions/3.md. Rules R459, R473, R475, R476, R477, R479. -/
def Obligations.VaultAccess : Prop :=
  (∀ (s : State) (t : TileId), s.serves t = false → s.lifecycle t < 3 → s.tokenOk t = true →
    exec (.debugUnlock t) s = .next (s.done (consuming t [Reg.vault_debug_token] (fun y =>
      (((y.eraseKeks t 3).onVault t fun v => { v with challenge := none }).vaultOk t).vaultReset t) s))) ∧
  (∀ (s y : State) (t : TileId) (k : Bytes), s.drbgReady t = true → s.draw t = (y, k) →
    ∃ x, exec (.debugChallenge t) s = .next x ∧ x.out = y.out ++ [.bytes t (k.take 16)] ∧ (x.vol t).vault.challenge = some (k.take 16, s.now + 600 * 10 ^ 9)) ∧
  (∀ (s : State) (g : Nat), s.rd Reg.device_sec_host_key_gen 0 = g → g < 255 → certPub (s.rdAll Reg.device_sec_host_next_cert 0) = some (s.hostPub (g + 1)) →
    ∃ x, exec .hostRekey s = .next x ∧ x.rd Reg.device_sec_host_key_gen 0 = g + 1 ∧ x.rdAll Reg.device_sec_host_cert 0 = s.rdAll Reg.device_sec_host_next_cert 0 ∧
      x.out = s.out ++ [.answer 255 .ok]) ∧
  (∀ (s : State) (t : TileId) (data k : Bytes), data.length = 1024 → leNat data ≠ 0 → certPub data = some k → s.slotPub t 0 = some k →
    ∃ x, exec (.certWrite t 0 0 data) s = .next x ∧ x.rdAll Reg.vault_cert_id t = data ∧ x.out = s.out ++ [.answer t .ok]) ∧
  (∀ (s : State) (j : Fin 8) (data k : Bytes), data.length = 1024 → leNat data ≠ 0 → certPub data = some k →
    ∃ x, exec (.anchorWrite j 0 data) s = .next x ∧ x.rdAll Reg.device_sec_anchor 0 j = data ∧ x.out = s.out ++ [.answer 255 .ok]) ∧
  (∀ (s : State) (t : TileId) (a : Nat), s.drbgReady t = true → (s.vol t).vault.drbgSeeded = some a → a + 10 * 10 ^ 9 ≤ s.now →
    s.rd Reg.vault_reseeds t + 1 < Reg.vault_reseeds.span →
    ∃ x, exec (.drbgReseed t) s = .next x ∧ (x.vol t).vault.drbgReqs = 0 ∧ (x.vol t).vault.drbgSeeded = some s.now ∧
      x.rd Reg.vault_reseeds t = s.rd Reg.vault_reseeds t + 1 ∧ x.out = s.out) ∧
  (∀ (s : State) (t : TileId) (a : Nat), (s.vol t).vault.drbgTry = some a → s.rd Reg.vault_health_fail t + 1 < Reg.vault_health_fail.span →
    ∃ x, exec (.healthFail t) s = .next x ∧ x.rd Reg.vault_health_fail t = s.rd Reg.vault_health_fail t + 1 ∧ x.rd Reg.vault_drbg_state t = 0 ∧ x.out = s.out) ∧
  (∀ (s : State) (t : TileId) (a : Nat), (s.vol t).vault.drbgTry = some a → s.drbgReady t = false → (s.vol t).vault.drbgOnce = false →
    ∃ x, exec (.drbgReady t) s = .next x ∧ x.rd Reg.vault_drbg_state t = 1 ∧ (x.vol t).vault.drbgOnce = true ∧ (x.vol t).vault.drbgReqs = 0 ∧
      (x.vol t).vault.drbgSeeded = some s.now ∧ x.out = s.out) ∧
  (∀ (s : State) (t : TileId) (a : Nat), (s.vol t).vault.drbgTry = some a → s.rd Reg.vault_drbg_state t = 0 → a + 100000000 ≤ s.now →
    ∃ x, exec (.drbgStartTimeout t) s = .next x ∧ x.rd Reg.vault_drbg_state t = 2 ∧ x.out = s.out) ∧
  (∀ (s : State) (t : TileId) (which : Fin 5) (off : Nat) (data b : Bytes) (e : Entry) (n : Nat) (k : Bytes), off + data.length ≤ 1024 →
    e = [Reg.vault_cert_id, Reg.vault_cert_link, Reg.vault_sat_anchor, Reg.device_sec_host_cert, Reg.device_sec_host_next_cert].getD which Reg.vault_cert_id →
    n = (if which.val < 3 then t.val else 0) → b = fit 1024 ((s.rdAll e n).take off ++ data ++ (s.rdAll e n).drop (off + data.length)) →
    leNat b = 0 ∨ certPub b = some k ∧ (which.val = 0 → s.slotPub t 0 = some k) ∧ (which.val = 1 → s.slotPub t 1 = some k) →
    exec (.certWrite t which off data) s = .next (s.done ((if which.val = 2 then s.wrBM e t off data else s.wrB e n off data).answer (if which.val < 3 then t.val else 255) .ok))) ∧
  (∀ (s : State) (j : Fin 8) (off : Nat) (data b k : Bytes), off + data.length ≤ 1024 →
    b = fit 1024 ((s.rdAll Reg.device_sec_anchor 0 j).take off ++ data ++ (s.rdAll Reg.device_sec_anchor 0 j).drop (off + data.length)) →
    leNat b = 0 ∧ (s.wrB Reg.device_sec_anchor 0 off data j).anchors ≠ [] ∨ leNat b ≠ 0 ∧ certPub b = some k →
    exec (.anchorWrite j off data) s = .next (s.done ((s.wrB Reg.device_sec_anchor 0 off data j).answer 255 .ok))) ∧
  (∀ (s : State) (t : TileId) (a : Nat), (s.vol t).vault.drbgTry = some a → s.drbgReady t = false → (s.vol t).vault.drbgOnce = true →
    ∃ x, exec (.drbgReady t) s = .next x ∧ x.rd Reg.vault_drbg_state t = 1 ∧ (x.vol t).vault.drbgOnce = true ∧ (x.vol t).vault.drbgReqs = 0 ∧
      (x.vol t).vault.drbgSeeded = some s.now ∧ x.out = s.out)

/-- A ready tile becomes INDEPENDENT, STANDBY or ACTIVE as its bay asks; the other tile serves when the preferred one is not ready 10 s after start; a heartbeat
is noted and the loss of one triggers a promotion; a promotion goes on by its steps and begins after a hand-over; a hand-over is ordered by command; a cleared
fault resets the tile. Ownership passes no sooner than 10 µs after the other pin fell. Where the manual leaves a point of it open, the choice is the model's:
notes/assumptions/26.md. Rules R32, R485, R505, R506, R509. -/
def Obligations.BayRoles : Prop :=
  (∀ (s : State) (t : TileId), s.readyForRole t = true → s.independent t = true → exec (.roleAssign t) s = .next (s.done (s.beginServing t 5))) ∧
  (∀ (s : State) (t : TileId), s.readyForRole t = true → s.independent t = false → s.role (mate t) = 0 →
    exec (.roleAssign t) s = .next (s.done (s.beginStandby t))) ∧
  (∀ (s : State) (t : TileId), s.readyForRole t = true → s.independent t = false → s.role (mate t) ≠ 0 → (s.bay (bayOf t)).promo = none → s.ownSettled (bayOf t) = true →
    s.preferred (bayOf t) = t → exec (.roleAssign t) s = .next (s.done (s.beginServing t 0))) ∧
  (∀ (s : State) (b : BayId), s.pier.upSince + 10000000000 ≤ s.now → s.activeOf b = none → (s.bay b).promo = none → s.independent (s.preferred b) = false →
    s.readyForRole (s.preferred b) = false → s.readyForRole (mate (s.preferred b)) = true → s.ownSettled b = true →
    exec (.preferredTimeout b) s = .next (s.done (s.beginServing (mate (s.preferred b)) 0))) ∧
  (∀ (s : State) (t : TileId), s.role t = 5 → s.inRun t = true → 2 ≤ (s.vol t).boot.step →
    ∃ x, exec (.heartbeat t) s = .next x ∧ x.out = s.out ∧ x.regs = s.regs ∧
      (if t.val % 2 = 0 then (x.bay (bayOf t)).lastBeat.1 else (x.bay (bayOf t)).lastBeat.2) = s.now) ∧
  (∀ (s : State) (t : TileId), s.role t = 0 → (if t.val % 2 = 0 then (s.bay (bayOf t)).lastBeat.1 else (s.bay (bayOf t)).lastBeat.2) + 30000000 ≤ s.now →
    s.pier.degraded = false → (s.bay (bayOf t)).tie = none →
    exec (.heartbeatLoss t) s = .next (s.done (((s.bump Reg.bay_heartbeat_losses (bayOf t)).onBay (bayOf t) fun x =>
      { x with lastBeat := if t.val % 2 = 0 then (s.now, x.lastBeat.2) else (x.lastBeat.1, s.now) }).trigger (bayOf t) 0))) ∧
  (∀ (s : State) (b : BayId) (p : Promo) (ok : Bool), s.pier.degraded = false → (s.bay b).promo = some p →
    exec (.promotion b ok) s = .next (s.done (s.promotionStep b p ok))) ∧
  (∀ (s : State) (b : BayId) (a d : TileId) (ok : Bool), s.pier.degraded = false → (s.bay b).promo = none → (s.bay b).handover = true → s.activeOf b = some a →
    s.promotable b = some d → (s.closeHandover a).intakeDone a = true → ((s.closeHandover a).bay b).placed ≤ ((s.closeHandover a).bay b).reported →
    exec (.promotion b ok) s = .next (s.done ((s.closeHandover a).beginPromotion b 4 a d))) ∧
  (∀ (s : State) (b : BayId) (a d : TileId) (force : Nat), s.bayBusy b = false → s.activeOf b = some a → s.promotable b = some d → (s.bay b).modeNow = 0 →
    bit (s.rd Reg.bay_alarm b) 4 = false ∨ force = 1 →
    exec (.bayPromote b force) s = .next (s.done ((((s.closeHandover a).onBay b fun x => { x with handover := true }).followTile a).bayResult b .ok))) ∧
  (∀ (s : State) (b : BayId), s.role (tileOf b true) = 4 → s.pier.degraded = false → (s.tile (tileOf b true)).power.st = .run →
    exec (.clearFault b 1) s = .next (s.done (((((s.tileReset (tileOf b true) 6).setRole (tileOf b true) 255).linkUpdate b).wr Reg.device_fw_tile_phase 0 1
      (tileOf b true)).bayResult b .ok))) ∧
  (∀ (s : State) (t : TileId), s.pier.degraded = true → s.serves t = true → s.inRun t = true → s.rd Reg.status_service t = 3 → s.issuing t = none →
    exec (.roleAssign t) s = .next (s.done (s.startServing t 4))) ∧
  (∀ (s : State) (t : TileId), s.readyForRole t = true → s.independent t = false → s.role (mate t) = 4 → (s.bay (bayOf t)).promo = none → s.ownSettled (bayOf t) = true →
    exec (.roleAssign t) s = .next (s.done (s.beginServing t 0))) ∧
  (∀ (s : State) (b : BayId) (odd : Nat), odd ≤ 1 → s.role (tileOf b (decide (odd = 1))) = 4 → s.pier.degraded = false →
    (s.tile (tileOf b (decide (odd = 1)))).power.st = .run →
    exec (.clearFault b odd) s = .next (s.done (((((s.tileReset (tileOf b (decide (odd = 1))) 6).setRole (tileOf b (decide (odd = 1))) 255).linkUpdate b).wr
      Reg.device_fw_tile_phase 0 1 (tileOf b (decide (odd = 1)))).bayResult b .ok))) ∧
  (∀ (s : State) (t : TileId), s.role t = 5 → (if t.val % 2 = 0 then (s.bay (bayOf t)).lastBeat.1 else (s.bay (bayOf t)).lastBeat.2) + 30000000 ≤ s.now →
    s.pier.degraded = false →
    exec (.heartbeatLoss t) s = .next (s.done (((s.bump Reg.bay_heartbeat_losses (bayOf t)).onBay (bayOf t) fun x =>
      { x with lastBeat := if t.val % 2 = 0 then (s.now, x.lastBeat.2) else (x.lastBeat.1, s.now) }).faultTile t 0)))

/-- A redundant bay that may split becomes independent, and an independent one without meters of the odd tile becomes redundant; a wake is finished; a standby
that does not wake in 10 ms, or that reports an element missing, is FAULTED. Where the manual leaves a point of it open, the choice is the model's:
notes/assumptions/26.md. Rules R485, R514, R530, R644. -/
def Obligations.BayModes : Prop :=
  (∀ (s y : State) (b : BayId) (a d : TileId), s.bayBusy b = false → s.pier.degraded = false → (s.bay b).modeNow = 0 → s.activeOf b = some a → s.promotable b = some d →
    s.maySplit b = true → s.inRun d = true → y = (s.onBay b fun x => { x with modeTo := true, modeAct := s.acts.now }).finishIntake a → y.intakeDone a = true →
    y.maySplit b = true →
    exec (.bayModeChange b 1) s = .next (s.done (((y.onBay b fun x => { x with modeTo := false }).splitBay b a d).modeDone b 1))) ∧
  (∀ (s y : State) (b : BayId), s.bayBusy b = false → s.pier.degraded = false → (s.bay b).modeNow = 1 →
    (s.slotsOf (tileOf b true) fun r => decide (r.state = 1) || decide (r.state = 2)) = [] → s.role (tileOf b true) = 5 → s.role (tileOf b false) = 5 →
    y = ((s.onBay b fun x => { x with modeTo := true, modeAct := s.acts.now }).finishIntake (tileOf b true)).finishIntake (tileOf b false) →
    y.intakeDone (tileOf b true) = true → y.intakeDone (tileOf b false) = true →
    exec (.bayModeChange b 0) s = .next (s.done (y.joinBegin b))) ∧
  (∀ (s : State) (t : TileId), (s.tile t).power.st = .waking → 2 ≤ (s.tile t).power.step →
    exec (.wake t) s = .next (s.done ((s.wakeDone t).modeReady (bayOf t)))) ∧
  (∀ (s : State) (t : TileId) (a : Nat), (s.tile t).power.orderAt = some a → s.inRun t = false → a + 10000000 ≤ s.now → s.role t = 1 → s.pier.degraded = false →
    exec (.wakeOrderTimeout t) s = .next (s.done ((s.onPower t fun p => { p with orderAt := none }).faultTile t 0))) ∧
  (∀ (s : State) (t : TileId), s.inRun t = true → s.role t = 1 → 6 ≤ (s.vol t).boot.step → s.rd Reg.status_missing t % 16 ≠ 0 →
    exec (.tileStatusReport t) s = .next (s.done (s.faultTile t 0))) ∧
  (∀ (s : State) (b : BayId) (mode : Nat), s.bayBusy b = false → s.pier.degraded = false → mode ≤ 1 → mode = (s.bay b).modeNow →
    exec (.bayModeChange b mode) s = .next (s.done (s.bayResult b .ok))) ∧
  (∀ (s : State) (b : BayId) (a d : TileId), s.bayBusy b = false → s.pier.degraded = false → (s.bay b).modeNow = 0 → s.activeOf b = some a → s.promotable b = some d →
    s.maySplit b = true → s.inRun d = false → (s.tile d).power.st ≠ .entering →
    exec (.bayModeChange b 1) s =
      .next (s.done (((s.onBay b fun x => { x with modeTo := true, modeAct := s.acts.now }).orderWake d 1).modeReady b))) ∧
  (∀ (s : State) (b : BayId) (ok : Bool), s.pier.degraded = false → (s.bay b).promo = none → (s.bay b).handover = false → (s.bay b).modeTo = true → (s.bay b).modeNow = 1 →
    s.role (tileOf b true) = 1 → s.owns (tileOf b true) = false →
    exec (.promotion b ok) s = .next (s.done (((s.onBay b fun x => { x with modeTo := false }).joinBay b).modeDone b 0)))

/-- An item is delivered; a lost frame gives its item up; the standby drains and is woken at its level; a group that agrees is counted; the active's run of a
disagreement is taken into the tie-break, which ends after 100 ms; a stale standby is resynchronised from its highest record. A group that differs starts a
tie-break, in which the standby reports too, and one that cannot be formed is inconclusive; the snapshot follows the start of a resynchronisation. Rules R489,
R496, R497, R499, R502, R503. -/
def Obligations.BayMirror : Prop :=
  (∀ (s y : State) (b : BayId) (i : MItem), s.hasStandby b = true → s.nextItem b = some (i, y) → exec (.mirrorItem b 0) s = .next (s.done (y.deliver b i))) ∧
  (∀ (s y z : State) (b : BayId) (i : MItem) (t : TileId), s.hasStandby b = true → s.nextItem b = some (i, y) →
    ((y.onBay b fun x => { x with reported := x.reported + 1 }).bump Reg.bay_mirror_retransmits b 0 2).mirrorLost b 1 = z → z.activeOf b = some t →
    exec (.mirrorFrameLost b) s = .next (s.done (z.releaseVault t))) ∧
  (∀ (s : State) (b : BayId) (d : TileId), s.standbyOf b = some d → s.drains d = true → (s.bay b).promo = none → s.groupReady b = false →
    exec (.standbyDrain b) s = .next (s.done (s.drainOne b d true))) ∧
  (∀ (s : State) (b : BayId) (d : TileId), s.standbyOf b = some d → (s.bay b).promo = none → s.rd Reg.bay_mirror_wake_level b ≤ (s.bay b).fifo.fill_ →
    exec (.standbyWake b) s = .next (s.done (s.wakeEvent d))) ∧
  (∀ (s y : State) (b : BayId) (d : TileId) (g : AuditGroup) (rest : List AuditGroup) (l : List ArchRec), s.standbyOf b = some d → (s.bay b).groups = g :: rest → s.role d = 1 →
    s.drains d = true → s.groupReady b = true → (s.bay b).tie = none →
    y = (s.onBay b fun x => { x with groups := rest }).loadSlot d 8 (archPlace (g.keyGen % 16)) → y.formGroup d g = some l →
    ((List.range g.count).map fun i => y.heldRec d (g.seq + i)) = l.map some → groupDigest l [] = g.digest → y.bayArm b 2 = none → s.rd Reg.bay_audit_checked b + 1 < Reg.bay_audit_checked.span →
    g.seq < Reg.bay_audit_last_match_seq.span →
    ∃ x, exec (.auditCheck b []) s = .next x ∧ x.rd Reg.bay_audit_checked b = s.rd Reg.bay_audit_checked b + 1 ∧ x.rd Reg.bay_audit_last_match_seq b = g.seq ∧
      (x.bay b).groups = rest ∧ (x.bay b).tie = none ∧ x.out = s.out) ∧
  (∀ (s : State) (b : BayId) (u : TileId) (y : Tie) (l : List ArchRec), (s.bay b).tie = some y → s.activeOf b = some u → s.inRun u = true → y.a1 = none → y.inj = none →
    s.formGroup u y.grp = some l →
    exec (.tieBreak b true []) s = .next (s.done ((s.onBay b fun x => { x with tie := some { y with a1 := some (groupDigest l []) } }).verdict b))) ∧
  (∀ (s : State) (b : BayId) (y : Tie), (s.bay b).tie = some y → y.start + 100000000 ≤ s.now →
    exec (.tieBreakTimeout b) s =
      .next (s.done ((s.onBay b fun x => { x with tie := some { y with a1 := some (y.a1.getD []), s1 := some (y.s1.getD []) } }).verdict b))) ∧
  (∀ (s : State) (b : BayId) (t d : TileId), s.activeOf b = some t → s.standbyOf b = some d → s.hasStandby b = true → s.inRun t = true → (s.bay b).promo = none →
    (s.bay b).handover = false → (s.bay b).resync = none → s.rd Reg.bay_mirror_sync b = 1 → s.drains d = true →
    exec (.resync b) s = .next (s.done ((((((s.onBay b fun x => { x with resync := some { first := s.highHeld d + 1, next := s.highHeld d + 1, phase := 1 } }).mirror t
      (.markBegin (s.highHeld d + 1))).alarm b 4 false).wr Reg.bay_mirror_resync_progress b 0).setSync b 2)))) ∧
  (∀ (s y : State) (b : BayId) (i : MItem) (n : Nat), n ≠ 0 → s.hasStandby b = true → s.nextItem b = some (i, y) →
    exec (.mirrorItem b n) s = .next (s.done ((y.bump Reg.bay_mirror_retransmits b 0 n).deliver b i))) ∧
  (∀ (s : State) (b : BayId) (d : TileId) (a : Nat), s.standbyOf b = some d → (s.bay b).promo = none → (s.bay b).auditAt = some a →
    a + s.rd Reg.bay_audit_timer_ms b * 1000000 ≤ s.now →
    exec (.standbyWake b) s = .next (s.done (s.wakeEvent d))) ∧
  (∀ (s y : State) (b : BayId) (d : TileId) (g : AuditGroup) (rest : List AuditGroup) (l : List ArchRec) (upset : Bytes), s.standbyOf b = some d →
    (s.bay b).groups = g :: rest → s.role d = 1 → s.drains d = true → s.groupReady b = true → (s.bay b).tie = none → s.pier.degraded = false →
    y = (s.onBay b fun x => { x with groups := rest }).loadSlot d 8 (archPlace (g.keyGen % 16)) → y.formGroup d g = some l →
    (((List.range g.count).map fun i => y.heldRec d (g.seq + i)).any Option.isNone) = false →
    groupDigest l upset ≠ g.digest ∨ (List.range g.count).map (fun i => y.heldRec d (g.seq + i)) ≠ l.map some →
    exec (.auditCheck b upset) s = .next (s.done (((y.bump Reg.bay_audit_mismatches b).setRole d 2).onBay b fun x =>
      { x with tie := some { grp := g, a0 := g.digest, s0 := groupDigest l upset, a1 := none, s1 := none, start := s.now, inj := none } }))) ∧
  (∀ (s y : State) (b : BayId) (d : TileId) (g : AuditGroup) (rest : List AuditGroup) (upset : Bytes), s.standbyOf b = some d → (s.bay b).groups = g :: rest → s.role d = 1 →
    s.drains d = true → s.groupReady b = true → (s.bay b).tie = none →
    y = (s.onBay b fun x => { x with groups := rest }).loadSlot d 8 (archPlace (g.keyGen % 16)) → y.formGroup d g = none →
    exec (.auditCheck b upset) s = .next (s.done (y.bump Reg.bay_audit_inconclusive b))) ∧
  (∀ (s : State) (b : BayId) (u : TileId) (y : Tie) (l : List ArchRec) (upset : Bytes), (s.bay b).tie = some y → s.standbyOf b = some u → s.inRun u = true → y.s1 = none →
    y.inj = none → s.formGroup u y.grp = some l →
    exec (.tieBreak b false upset) s = .next (s.done ((s.onBay b fun x => { x with tie := some { y with s1 := some (groupDigest l upset) } }).verdict b))) ∧
  (∀ (s : State) (b : BayId) (t d : TileId) (r : Resync), s.activeOf b = some t → s.standbyOf b = some d → s.hasStandby b = true → s.inRun t = true →
    (s.bay b).promo = none → (s.bay b).handover = false → (s.bay b).resync = some r → r.phase = 1 →
    exec (.resync b) s = .next (s.done (((s.placeSnapshot t).onBay b fun x => { x with resync := some { r with phase := 2 } }).wr Reg.bay_mirror_resync_progress b 33)))

/-- A request that the role permits wakes the domain, begins an entry to HOLD or RETAIN, isolates the tile or turns an isolated one off; an idle standby enters
its idle state; a faulted tile is isolated; a wake event during an entry is kept; the regulator's answer ends an entry, and one that does not come refuses it.
A standby that is isolated or turned off is FAULTED first; the regulator's answer to a wake leads to its next step. Where the manual leaves a point of it
open, the choice is the model's: notes/assumptions/20.md, notes/assumptions/22.md. Rules R522, R524, R526, R527, R529, R535. -/
def Obligations.PowerRequests : Prop :=
  (∀ (s : State) (t : TileId), rolePermits (s.role t) 0 = true → (s.tile t).power.st = .hold ∨ (s.tile t).power.st = .retain →
    exec (.powerRequestRun t) s = .next (s.done ((s.wakeEvent t).answer t .ok))) ∧
  (∀ (s : State) (t : TileId), rolePermits (s.role t) 1 = true → (s.tile t).power.st = .run →
    s.entryRefuser t 1 (decide (s.rd Reg.power_force t = 1)) = none →
    ∃ x, exec (.powerRequestHold t) s = .next x ∧ (x.tile t).power.st = .entering ∧ (x.tile t).power.target = 1 ∧ (x.tile t).power.requester = 1 ∧
      (x.tile t).power.step = 1 ∧ (x.tile t).power.since = s.now ∧ x.out = s.out ++ [.answer t .ok]) ∧
  (∀ (s : State) (t : TileId), rolePermits (s.role t) 2 = true → (s.tile t).power.st = .run →
    s.entryRefuser t 2 (decide (s.rd Reg.power_force t = 1)) = none →
    ∃ x, exec (.powerRequestRetain t) s = .next x ∧ (x.tile t).power.st = .entering ∧ (x.tile t).power.target = 2 ∧ (x.tile t).power.requester = 1 ∧
      (x.tile t).power.step = 1 ∧ (x.tile t).power.since = s.now ∧ x.out = s.out ++ [.answer t .ok]) ∧
  (∀ (s : State) (t : TileId), rolePermits (s.role t) 3 = true → s.role t ≠ 1 → s.pier.degraded = false → (s.tile t).power.st = .run →
    exec (.powerRequestIsolated t) s = .next (s.done (((s.linkUpdate (bayOf t)).requestEntry t 3 1).answer t .ok))) ∧
  (∀ (s : State) (t : TileId), rolePermits (s.role t) 4 = true → s.role t ≠ 1 → s.pier.degraded = false → (s.tile t).power.st = .isolated →
    exec (.powerRequestOff t) s =
      .next (s.done ((((s.linkUpdate (bayOf t)).onPower t fun p => { p with target := 4 }).reachTarget t).answer t .ok))) ∧
  (∀ (s : State) (t : TileId) (a : Nat), s.role t = 1 → s.inRun t = true → 6 ≤ (s.vol t).boot.step → (s.bay (bayOf t)).fifo.fill_ = 0 →
    (s.tile t).media.idle = true → s.rateLowSince (bayOf t) = some a → a + 10000000000 ≤ s.now →
    exec (.idleEntry t) s = .next (s.done (s.requestEntry t (s.rd Reg.power_idle_state t) 0))) ∧
  (∀ (s : State) (t : TileId), s.role t = 4 → exec (.isolation t) s = .next (s.done (s.isolate t))) ∧
  (∀ (s : State) (t : TileId), (s.tile t).power.st = .entering → (s.tile t).power.requester ≠ 2 →
    ∃ x, exec (.wakeEvent t) s = .next x ∧ (x.tile t).power.wakeUp = true ∧ (x.tile t).power.st = .entering ∧ x.regs = s.regs ∧ x.out = s.out) ∧
  (∀ (s : State) (t : TileId) (mv st : Nat), s.pier.degraded = false → bit s.pier.present t = true → s.pier.up = true → (s.tile t).power.st = .entering →
    5 ≤ (s.tile t).power.step → (s.tile t).power.setMv = 500 → 2 < (s.tile t).power.target → acknowledged 500 mv st = true →
    s.now ≤ (s.tile t).power.cmdAt + s.pmbDelay t 0 + 1000000 →
    exec (.regulatorAck t mv st) s = .next (s.done ((s.readRail t mv st).reachTarget t))) ∧
  (∀ (s : State) (t : TileId), s.pier.bootQueue.head? ≠ some t.val → (s.tile t).power.st = .entering → 5 ≤ (s.tile t).power.step →
    (s.tile t).power.cmdAt + 1000000 ≤ s.now → (s.tile t).power.target < 3 →
    exec (.regulatorAckTimeout t) s = .next (s.done ((((s.refuseEntry t (s.tile t).power.target 4 6 (s.tile t).power.requester).setPwr t .waking).onPower t fun p =>
      { p with step := 1, orderAt := some s.now, wakeUp := false }).pmbus 3 t 0x21 (s.tile t).power.vrunMv))) ∧
  (∀ (s : State) (t : TileId), s.role t = 1 → s.pier.degraded = false → (s.tile t).power.st = .run →
    exec (.powerRequestIsolated t) s = .next (s.done (((((s.setRole t 4).alarm (bayOf t) 0 true).linkUpdate (bayOf t)).requestEntry t 3 1).answer t .ok)) ∧
    exec (.powerRequestOff t) s = .next (s.done (((((s.setRole t 4).alarm (bayOf t) 0 true).linkUpdate (bayOf t)).requestEntry t 4 1).answer t .ok))) ∧
  (∀ (s : State) (t : TileId) (mv st : Nat), s.pier.degraded = false → bit s.pier.present t = true → s.pier.up = true → (s.tile t).power.st = .waking →
    (s.tile t).power.step = 1 → (s.tile t).power.setMv = (s.tile t).power.vrunMv → (s.vol t).boot.step ≠ 0 → s.promoting t = false →
    acknowledged (s.tile t).power.vrunMv mv st = true → (s.tile t).power.cmdAt + s.pmbDelay t 1 ≤ s.now →
    s.now ≤ (s.tile t).power.cmdAt + s.pmbDelay t 1 + 1000000 →
    exec (.regulatorAck t mv st) s = .next (s.done (((s.readRail t mv st).onPower t fun p => { p with step := 2 }).stopCount t)))

/-- PFAIL_N is asserted and counted once, and released above 2.45 V; the regulators' status is read on alert and every 10 ms; pulses older than 60 s free the
bank's budget; an energy setting written with the right is stored; the analogue supply stops the metrology and orders its start. A shared rail and the board
assert PFAIL_N too. Where the manual leaves a point of it open, the choice is the model's: notes/assumptions/21.md, notes/assumptions/38.md. Rules R536, R541,
R543, R547, R548, R674. -/
def Obligations.PowerSupply : Prop :=
  (∀ (s : State) (mv : Nat), s.pier.up = true → s.pier.pfail = false → mv < 2350 → s.rd Reg.device_supply_pfail_events 0 + 1 < Reg.device_supply_pfail_events.span →
    ∃ x, exec (.pfailAssert 0 mv 0) s = .next x ∧ x.pier.pfail = true ∧ x.pins.pfailN = false ∧ x.rd Reg.device_supply_pfail 0 = 1 ∧
      x.rd Reg.device_supply_pfail_source 0 = 1 ∧ x.rd Reg.device_supply_pfail_events 0 = s.rd Reg.device_supply_pfail_events 0 + 1 ∧ x.out = s.out) ∧
  (∀ (s : State) (mv : Nat), s.pier.pfail = true → 2450 < mv → mv < Reg.device_supply_vsys_mv.span →
    ∃ x, exec (.pfailRelease mv) s = .next x ∧ x.pier.pfail = false ∧ x.pins.pfailN = true ∧ x.rd Reg.device_supply_pfail 0 = 0 ∧
      x.rd Reg.device_supply_vsys_mv 0 = mv ∧ x.rd Reg.device_supply_rail_faults 0 = 0 ∧ x.out = s.out) ∧
  (∀ (s : State) (words : List Nat), s.pier.up = true →
    exec (.pmbAlert words) s = .next (s.done ((s.bump Reg.device_pmbus_alerts 0).readStatus words))) ∧
  (∀ (s : State) (words : List Nat), s.pier.polledAt + 10000000 ≤ s.now →
    exec (.statusPoll words) s = .next (s.done ((s.onPier fun p => { p with polledAt := s.now }).readStatus words))) ∧
  (∀ (s : State) (b : BayId), exec (.bankBudgetFree b) s = .next (s.done ((((s.onBay b fun x =>
    { x with pulses := x.pulses.filter fun y => decide (s.now / 1000000000 < y.1 + 60) }).tryPulses (tileOf b false)).tryPulses (tileOf b true))))) ∧
  (∀ (s : State) (b : BayId) (v rights : Nat), 3 ≤ rights → Reg.bay_energy_plc_duty_pm.lo.toNat ≤ v → v ≤ Reg.bay_energy_plc_duty_pm.hi.toNat →
    ∃ x, exec (.energySettingWrite b 3 v rights) s = .next x ∧ x.rd Reg.bay_energy_plc_duty_pm b = v ∧ (∀ u, x.vol u = s.vol u) ∧ x.bays = s.bays ∧
      x.out = s.out ++ [.answer (128 + b) .ok]) ∧
  (∀ (s : State) (t : TileId), exec (.vanaOutOfRange t false) s =
    .next (s.done (((s.onTile t fun x => { x with vanaOk := false }).stopMetro t).followTile t))) ∧
  (∀ (s : State) (t : TileId), (s.tile t).vanaOk = false → exec (.vanaOutOfRange t true) s =
    .next (s.done (((s.onTile t fun x => { x with vanaOk := true }).askSync t).followTile t))) ∧
  (∀ (s : State) (mv rails : Nat), s.pier.up = true → s.pier.pfail = false → rails % 64 ≠ 0 →
    ∃ x, exec (.pfailAssert 1 mv rails) s = .next x ∧ x.pier.pfail = true ∧ x.pins.pfailN = false ∧ x.rd Reg.device_supply_pfail 0 = 1 ∧
      x.rd Reg.device_supply_pfail_source 0 = 2 ∧ x.rd Reg.device_supply_rail_faults 0 = rails % 64 ∧ x.out = s.out) ∧
  (∀ (s : State) (mv rails : Nat), s.pier.up = true → s.pier.pfail = false →
    ∃ x, exec (.pfailAssert 2 mv rails) s = .next x ∧ x.pier.pfail = true ∧ x.pins.pfailN = false ∧ x.rd Reg.device_supply_pfail 0 = 1 ∧
      x.rd Reg.device_supply_pfail_source 0 = 3 ∧ x.out = s.out) ∧
  (∀ (s : State) (b : BayId) (which : Fin 4) (v rights : Nat) (e : Entry), 3 ≤ rights →
    e = [Reg.bay_energy_pulse_mj, Reg.bay_energy_bank_budget_mj, Reg.bay_energy_plc_atten_min_db, Reg.bay_energy_plc_duty_pm].getD which.val Reg.bay_energy_pulse_mj →
    e.lo.toNat ≤ v → v ≤ e.hi.toNat →
    ∃ x, exec (.energySettingWrite b which v rights) s = .next x ∧ x.rd e b = v ∧ (∀ u, x.vol u = s.vol u) ∧ x.bays = s.bays ∧ x.out = s.out ++ [.answer (128 + b) .ok])

/-- A format makes the media ready; a relocation is begun and committed; a failed program and an erase are dealt with; the patrol counts what it reads; a
little-worn block is moved; the map journal's page is queued after 1 ms; the key store is compacted; a temperature is taken; a finished program is completed
in queue order. A serving tile is not formatted; an hour in a temperature band is counted. Where the manual leaves a point of it open, the choice is the
model's: notes/assumptions/16.md, notes/assumptions/38.md. Rules R558, R559, R564, R565, R568, R569, R570, R573, R576. -/
def Obligations.ArchiveMedia : Prop :=
  (∀ (s : State) (t : TileId), s.serves t = false →
    ∃ x, exec (.mediaFormat t) s = .next x ∧ x.rd Reg.media_state t = 3 ∧ bit (x.rd Reg.status_missing t) 3 = false ∧ x.out = s.out ++ [.answer t .ok]) ∧
  (∀ (s : State) (t : TileId) (pb new : Nat) (rest : List (Nat × Bool)), s.ftlRuns t = true → (s.tile t).media.reloc = none →
    (s.tile t).media.relocQ = (pb, true) :: rest → ((s.tile t).media.blk pb).st = .mapped → (s.tile t).media.leastWorn = some new →
    ∃ x, exec (.relocation t) s = .next x ∧ x.regs = s.regs ∧ x.out = s.out ∧ (x.tile t).media.relocQ = rest ∧
      (x.tile t).media.reloc = some { region := ((s.tile t).media.blk pb).region, lb := ((s.tile t).media.blk pb).lb, old := pb, new := new,
                                      ver := ((s.tile t).media.blk pb).ver + 1, committed := false, retire := true }) ∧
  (∀ (s : State) (t : TileId) (r : Reloc), s.ftlRuns t = true → (s.tile t).media.reloc = some r → r.committed = false → r.region = 2 →
    exec (.relocation t) s = .next (s.done (((s.onMedia t fun m => { m with reloc := some { r with committed := true } }).bump Reg.media_bytes_programmed t 0
      (16384 * (s.tile t).media.validPages ((s.tile t).media.blk r.old))).queueMap t (.map 2 r.lb r.new (some r.old) r.ver)))) ∧
  (∀ (s : State) (t : TileId), (s.tile t).media.busy = true →
    exec (.programFail t false) s = .next (s.done ((s.programFailed t false).onMedia t fun m =>
      { m with busy := !m.jobs.isEmpty && !s.pier.pfail }))) ∧
  (∀ (s : State) (t : TileId) (pb : Nat) (rest : List Nat), s.ftlRuns t = true → (s.tile t).media.eraseQ = pb :: rest → ((s.tile t).media.blk pb).st ≠ .mapped →
    exec (.eraseComplete t false) s = .next (s.done (((s.onMedia t fun m => { m with eraseQ := rest }).onMedia t fun m =>
      m.setBlk pb { (((s.onMedia t fun m => { m with eraseQ := rest }).tile t).media.blk pb) with st := .erasing }).queueMap t
        (.free pb ((((s.onMedia t fun m => { m with eraseQ := rest }).tile t).media.blk pb).erases + 1))))) ∧
  (∀ (s : State) (t : TileId) (pb page worst total : Nat), s.ftlRuns t = true → ((s.tile t).media.blk pb).st = .mapped → (s.tile t).media.busy = false →
    ((s.tile t).media.blk pb).patrolled page = true → s.patrolDue t (pb * 1536 + page) = true → worst < s.rd Reg.media_refresh_bits t →
    s.now < ((s.tile t).media.blk pb).held + 365 * 86400 * 1000000000 → s.rd Reg.media_ecc_corrected t + total < Reg.media_ecc_corrected.span →
    s.rd Reg.media_bytes_read t + 16384 < Reg.media_bytes_read.span →
    ∃ x, exec (.patrol t pb page worst total 0) s = .next x ∧ x.rd Reg.media_ecc_corrected t = s.rd Reg.media_ecc_corrected t + total ∧
      x.rd Reg.media_bytes_read t = s.rd Reg.media_bytes_read t + 16384 ∧ (x.vol t) = s.vol t ∧ x.out = s.out) ∧
  (∀ (s : State) (t : TileId) (pb : Nat) (k : Blk), s.ftlRuns t = true → (s.tile t).media.wear.2.2 + 300 < (s.tile t).media.wear.1 →
    ((s.tile t).media.blocks.filter fun e => decide (e.2.st = .mapped)) = [(pb, k)] → k.erases + 300 < (s.tile t).media.wear.1 →
    exec (.wearLevel t) s = .next (s.done (s.wantReloc t pb false))) ∧
  (∀ (s : State) (t : TileId), (s.tile t).media.mapQ ≠ [] → (s.tile t).media.mapQAt + 1000000 ≤ s.now →
    ∃ x, exec (.mapJournalPage t) s = .next x ∧ x.regs = s.regs ∧ x.out = s.out ∧ (x.tile t).media.mapQ = (s.tile t).media.mapQ.drop 512 ∧
      (x.tile t).media.jobs = (s.tile t).media.jobs ++ [((s.tile t).media.jobCount, .mapJ ((s.tile t).media.mapQ.take 512))]) ∧
  (∀ (s : State) (t : TileId) (old : List Nat), s.ftlRuns t = true → 24 * 65536 < (s.tile t).media.keysUsed + 131072 → (s.tile t).media.keyLog = [old] →
    exec (.keystoreCompact t) s = .next (s.done ((s.onMedia t fun m => ({ m with keyLog := [] }.logKeys (old.eraseDups.filter fun p =>
      (Tbl.get (s.tile t).media.keys p).isSome)).reuse 3 m.keyOldest).bump Reg.media_bytes_programmed t 0
        (16384 * (((old.eraseDups.filter fun p => (Tbl.get (s.tile t).media.keys p).isSome).length + 127) / 128))))) ∧
  (∀ (s : State) (t : TileId) (c : Int), (s.tile t).media.tempAt ≤ s.now → (s.tile t).media.tempAcc.length = 8 → (s.tile t).media.tempAcc.getD (tempBand c) 0 + 60 < 3600 → -128 ≤ c → c < 128 →
    ∃ x, exec (.temperatureSample t c) s = .next x ∧ x.rdI Reg.media_temp_now t = c ∧ x.vol t = s.vol t ∧ x.out = s.out) ∧
  (∀ (s y : State) (t : TileId) (j : PageJob), (s.tile t).media.busy = true → s.nandArmed t (((s.tile t).media.jobs.head?.map fun j => j.2.region).getD 9) = false →
    s.completeFrom t (s.tile t).media.jobs.length 0 = (y, some j) →
    exec (.pageProgramComplete t) s = .next (s.done ((((y.bump Reg.media_bytes_programmed t 0 (16384 * j.pages (s.tile t).media (y.tile t).media)).releaseVault t).wornCheck t).onMedia t fun m =>
      { m with busy := !m.jobs.isEmpty && !(((y.bump Reg.media_bytes_programmed t 0 (16384 * j.pages (s.tile t).media (y.tile t).media)).releaseVault t).wornCheck t).pier.pfail }))) ∧
  (∀ (s : State) (t : TileId), s.serves t = true → exec (.mediaFormat t) s = .next (s.done (s.answer t .conflict))) ∧
  (∀ (s : State) (t : TileId) (pb new : Nat) (retire : Bool), s.ftlRuns t = true → (s.tile t).media.reloc = none → (s.tile t).media.nextReloc = some (pb, retire) →
    ((s.tile t).media.blk pb).st = .mapped → (s.tile t).media.leastWorn = some new →
    ∃ x, exec (.relocation t) s = .next x ∧ x.regs = s.regs ∧ x.out = s.out ∧ (x.tile t).media.relocQ = (s.tile t).media.relocQ.erase (pb, retire) ∧
      (x.tile t).media.reloc = some { region := ((s.tile t).media.blk pb).region, lb := ((s.tile t).media.blk pb).lb, old := pb, new := new,
                                      ver := ((s.tile t).media.blk pb).ver + 1, committed := false, retire := retire }) ∧
  (∀ (s : State) (t : TileId) (r : Reloc), s.ftlRuns t = true → (s.tile t).media.reloc = some r → r.committed = false →
    exec (.relocation t) s = .next (s.done (((s.onMedia t fun m => { m with reloc := some { r with committed := true } }).bump Reg.media_bytes_programmed t 0
      (16384 * (s.tile t).media.validPages ((s.tile t).media.blk r.old))).queueMap t (.map r.region r.lb r.new (some r.old) r.ver)))) ∧
  (∀ (s : State) (t : TileId) (pb : Nat) (rest : List Nat), s.ftlRuns t = true → (s.tile t).media.eraseQ = pb :: rest → ((s.tile t).media.blk pb).st ≠ .mapped →
    exec (.eraseComplete t true) s = .next (s.done (((((s.onMedia t fun m => { m with eraseQ := rest }).bump Reg.media_erase_fail t).bump Reg.media_retired t).queueMap t
      (.retire pb)).wornCheck t))) ∧
  (∀ (s : State) (t : TileId) (pb page worst total fails : Nat), s.ftlRuns t = true → ((s.tile t).media.blk pb).st = .mapped → (s.tile t).media.busy = false →
    ((s.tile t).media.blk pb).patrolled page = true → s.patrolDue t (pb * 1536 + page) = true →
    s.rd Reg.media_ecc_corrected t + total < Reg.media_ecc_corrected.span → s.rd Reg.media_ecc_uncorrectable t + fails < Reg.media_ecc_uncorrectable.span →
    s.rd Reg.media_bytes_read t + 16384 < Reg.media_bytes_read.span →
    ∃ x, exec (.patrol t pb page worst total fails) s = .next x ∧ x.rd Reg.media_ecc_corrected t = s.rd Reg.media_ecc_corrected t + total ∧
      x.rd Reg.media_ecc_uncorrectable t = s.rd Reg.media_ecc_uncorrectable t + fails ∧ x.rd Reg.media_bytes_read t = s.rd Reg.media_bytes_read t + 16384 ∧
      (x.tile t).media.patrolPos = pb * 1536 + page + 1) ∧
  (∀ (s : State) (t : TileId), s.ftlRuns t = true → (s.tile t).media.wear.1 ≤ (s.tile t).media.wear.2.2 + 300 → exec (.wearLevel t) s = .next (s.done s)) ∧
  (∀ (s : State) (t : TileId) (old : List Nat) (rest : List (List Nat)), s.ftlRuns t = true → 24 * 65536 < (s.tile t).media.keysUsed + 131072 →
    (s.tile t).media.keyLog = old :: rest →
    exec (.keystoreCompact t) s = .next (s.done ((s.onMedia t fun m => ({ m with keyLog := rest }.logKeys (old.eraseDups.filter fun p =>
      (Tbl.get (s.tile t).media.keys p).isSome && !rest.flatten.contains p)).reuse 3 m.keyOldest).bump Reg.media_bytes_programmed t 0
        (16384 * (((old.eraseDups.filter fun p => (Tbl.get (s.tile t).media.keys p).isSome && !rest.flatten.contains p).length + 127) / 128))))) ∧
  (∀ (s : State) (t : TileId) (c : Int) (a : Nat), (s.tile t).media.tempAt ≤ s.now → a = (s.tile t).media.tempAcc.getD (tempBand c) 0 → 3600 ≤ a + 60 →
    s.rd Reg.media_temp_hours t (tempBand c) + 1 < Reg.media_temp_hours.span →
    ∃ x, exec (.temperatureSample t c) s = .next x ∧ x.rd Reg.media_temp_hours t (tempBand c) = s.rd Reg.media_temp_hours t (tempBand c) + 1 ∧
      (x.tile t).media.tempAt = s.now + 60000000000 ∧ x.out = s.out)

/-- A write goes to the fill bank F while it has room; a write that finds F full and the drain bank D non-empty overwrites the oldest item of F and counts it in
LOST, which saturates; a read takes the oldest item of D. The banks swap at a read that finds D empty and F non-empty and at a write that finds F full and D
empty, within that access, and at no other access. A read of the status word gives it and clears what it must. Rules R579, R581. -/
def Obligations.PingPong : Prop :=
  (∀ (s : State) (t : TileId) (c : Fin 7) (d : QItem), (s.queue t c).split = none → (s.queue t c).fill.length < bankSize c →
    ∃ x, exec (.queueWrite t c d) s = .next x ∧ (x.queue t c).fill = (s.queue t c).fill ++ [d] ∧ (x.queue t c).drain = (s.queue t c).drain ∧
      x.regs = s.regs ∧ x.out = s.out) ∧
  (∀ (s : State) (t : TileId) (c : Fin 7) (d : QItem), (s.queue t c).split = none → (s.queue t c).fill.length = bankSize c → (s.queue t c).drain ≠ [] →
    s.rd Reg.queue_lost t c + 1 < Reg.queue_lost.span →
    ∃ x, exec (.queueWrite t c d) s = .next x ∧ (x.queue t c).fill = (s.queue t c).fill.tail ++ [d] ∧ (x.queue t c).drain = (s.queue t c).drain ∧
      x.rd Reg.queue_lost t c = s.rd Reg.queue_lost t c + 1 ∧ x.out = s.out) ∧
  (∀ (s : State) (t : TileId) (c : Fin 7) (d : QItem) (r : List QItem), (s.queue t c).split = none → (s.queue t c).drain = d :: r →
    ∃ x, exec (.queueRead t c) s = .next x ∧ (x.queue t c).drain = r ∧ (x.queue t c).fill = (s.queue t c).fill ∧ x.regs = s.regs ∧
      x.out = s.out ++ [.bytes t (itemBytes d)]) ∧
  (∀ (s : State) (t : TileId) (c : Fin 7), ∃ x, exec (.wmStatusRead t c) s = .next x ∧ (x.queue t c).crossed = false ∧ (x.queue t c).crossedBack = false ∧
    (x.queue t c).peak = (s.queue t c).drain.length + (s.queue t c).fill.length ∧ (x.queue t c).above = (s.queue t c).above ∧
    x.out = s.out ++ [.value t (s.queue t c).word]) ∧
  (∀ (s : State) (t : TileId) (c : Fin 7) (d : QItem), (s.queue t c).split = none → (s.queue t c).fill.length = bankSize c → (s.queue t c).drain = [] →
    ∃ x, exec (.queueWrite t c d) s = .next x ∧ (x.queue t c).drain = (s.queue t c).fill ∧ (x.queue t c).fill = [d] ∧ x.regs = s.regs ∧ x.out = s.out) ∧
  (∀ (s : State) (t : TileId) (c : Fin 7) (d : QItem) (r : List QItem), (s.queue t c).split = none → (s.queue t c).drain = [] → (s.queue t c).fill = d :: r →
    ∃ x, exec (.queueRead t c) s = .next x ∧ (x.queue t c).drain = r ∧ (x.queue t c).fill = [] ∧ x.regs = s.regs ∧ x.out = s.out ++ [.bytes t (itemBytes d)]) ∧
  (∀ (s : State) (t : TileId) (c : Fin 7), (s.queue t c).split = none → (s.queue t c).drain = [] → (s.queue t c).fill = [] →
    ∃ x, exec (.queueRead t c) s = .next x ∧ (x.queue t c).drain = [] ∧ (x.queue t c).fill = [] ∧ x.regs = s.regs) ∧
  (∀ (s : State) (t : TileId) (c : Fin 7) (d : QItem), (s.queue t c).split = none → (s.queue t c).fill.length = bankSize c → (s.queue t c).drain ≠ [] →
    s.rd Reg.queue_lost t c = 0xFFFFFFFF →
    ∃ x, exec (.queueWrite t c d) s = .next x ∧ (x.queue t c).fill = (s.queue t c).fill.tail ++ [d] ∧ (x.queue t c).drain = (s.queue t c).drain ∧
      x.rd Reg.queue_lost t c = 0xFFFFFFFF)

/-- An event leaves its queue for the event log under the next ESEQ; a block of the log is read; a legal event is logged under the next LSEQ with the seal
counter; an acknowledged stretch of the legal log is deleted, with an entry of its own. Rules R592, R595, R598, R599. -/
def Obligations.Logs : Prop :=
  (∀ (s : State) (t : TileId) (e : Event) (r : List QItem), (s.queue t 6).split = none → (s.queue t 6).drain = .event e :: r →
    ((s.vol t).elog.take 65536 s.now (s.rd Reg.events_next_eseq t) e).2 = (false, false) → s.rd Reg.events_next_eseq t + 1 < Reg.events_next_eseq.span →
    ∃ x, exec (.eventLog (some t)) s = .next x ∧ x.rd Reg.events_next_eseq t = s.rd Reg.events_next_eseq t + 1 ∧ (x.queue t 6).drain = r ∧
      (x.vol t).elog = ((s.vol t).elog.take 65536 s.now (s.rd Reg.events_next_eseq t) e).1 ∧ x.out = s.out) ∧
  (∀ (s : State) (t : TileId), ∃ x, exec (.eventsReadBlock (some t)) s = .next x ∧ x.regs = s.regs ∧
    x.out = s.out ++ [.bytes t (fit 1024 (((s.vol t).elog.block (s.rd Reg.events_read_from t)).map eventBytes).flatten)]) ∧
  (∀ (s : State) (t : TileId) (code : Nat) (d : Bytes), (s.tile t).legal.length < 4096 → s.rd Reg.legal_next_lseq t + 1 < Reg.legal_next_lseq.span →
    ∃ x e, exec (.legalEvent t code d) s = .next x ∧ (x.tile t).legal = (s.tile t).legal ++ [e] ∧ e.code = code ∧ e.lseq = s.rd Reg.legal_next_lseq t ∧
      e.data = fit 28 d ∧ e.sealCnt = s.rd Reg.metro_seal_count t ∧ x.rd Reg.legal_next_lseq t = s.rd Reg.legal_next_lseq t + 1 ∧ x.out = s.out) ∧
  (∀ (s : State) (t : TileId) (e : LegalEnt), (s.tile t).legal.find? (fun x => decide (x.lseq = e.lseq)) = some e → s.rd Reg.legal_unlogged t = 0 →
    ∃ x n, exec (.legalAck t e.lseq e.tag) s = .next x ∧ (x.tile t).legal = (s.tile t).legal.filter (fun y => decide (e.lseq < y.lseq)) ++ [n] ∧ n.code = 0x0A ∧
      n.lseq = s.rd Reg.legal_next_lseq t ∧ x.out = s.out ++ [.answer t .ok])

/-- An event equal in WHERE, CODE and OBJ to one that the same log took less than 1 s earlier is not logged and is counted as suppressed, in the log of a tile and
in that of the Pier; the event leaves its queue, and the next ESEQ stays. Rules R594. -/
def Obligations.EventSuppression : Prop :=
  (∀ (s : State) (t : TileId) (e : Event) (r : List QItem) (n : Nat), (s.queue t 6).split = none → (s.queue t 6).drain = .event e :: r →
    (e.wher, e.code, e.obj, n) ∈ (s.vol t).elog.recent → s.now < n + 1000000000 → s.rd Reg.events_suppressed t + 1 < Reg.events_suppressed.span →
    ∃ x, exec (.eventLog (some t)) s = .next x ∧ (x.vol t).elog.entries = (s.vol t).elog.entries ∧ x.rd Reg.events_suppressed t = s.rd Reg.events_suppressed t + 1 ∧
      x.rd Reg.events_next_eseq t = s.rd Reg.events_next_eseq t ∧ (x.queue t 6).drain = r ∧ x.out = s.out) ∧
  (∀ (s : State) (e : Event) (r : List Event) (n : Nat), s.pier.evq.split = none → s.pier.evq.drain = e :: r → (e.wher, e.code, e.obj, n) ∈ s.pier.elog.recent →
    s.now < n + 1000000000 → s.rd Reg.device_events_suppressed 0 + 1 < Reg.device_events_suppressed.span →
    ∃ x, exec (.eventLog none) s = .next x ∧ x.pier.elog.entries = s.pier.elog.entries ∧
      x.rd Reg.device_events_suppressed 0 = s.rd Reg.device_events_suppressed 0 + 1 ∧ x.rd Reg.device_events_next_eseq 0 = s.rd Reg.device_events_next_eseq 0 ∧
      x.pier.evq.drain = r ∧ x.out = s.out)

/-- A counter that clears on read is given and cleared; the description of the selected entry is given; a write that the entry takes is answered OK and stored;
the defaults of the bays named by a mask are restored. Rules R587, R646, R659, R662. -/
def Obligations.DictionaryAccess : Prop :=
  (∀ s : State, s.rd Reg.device_host_rx_discard 0 < 2 ^ 32 →
    ∃ x, exec (.rcCounterRead 0x1203 6) s = .next x ∧ x.rd Reg.device_host_rx_discard 0 = 0 ∧ x.out = s.out ++ [.value 255 (s.rd Reg.device_host_rx_discard 0)] ∧
      (∀ u, x.vol u = s.vol u) ∧ x.pier = s.pier) ∧
  (∀ (s y : State) (index sub k : Nat) (g : Tgt) (e : Entry) (b : Bytes), areaOf index = some g → s.checkItem g.number index sub 0 .get = .ok (g, e, k) → e.acc = .rc →
    s.readEntry g e k = (y, .ok b) → exec (.rcCounterRead index sub) s = .next (s.done (y.emit (.value g.number (leNat b))))) ∧
  (∀ s : State, ∃ x, exec .dictDescribe s = .next x ∧ x.out = s.out ++ [.bytes 255 s.dictDescribe] ∧ x.regs = s.regs ∧ x.tiles = s.tiles ∧ x.pier = s.pier) ∧
  (∀ (s y : State) (target index sub rights k : Nat) (v : Bytes) (g : Tgt) (e : Entry), s.checkItem target index sub rights .set = .ok (g, e, k) →
    s.setEntry g e k none v rights 0 = (y, .ok) → exec (.entryWrite target index sub v rights) s = .next (s.done (y.answer target .ok))) ∧
  (∀ (s : State) (v : Nat), v ≤ 1 → s.rd Reg.device_time_pps_polarity 0 = 1 - v →
    ∃ x, exec (.entryWrite 255 (Reg.device_time_pps_polarity.index 0) Reg.device_time_pps_polarity.sub (natLE 1 v) 3) s = .next x ∧
      x.rd Reg.device_time_pps_polarity 0 = v ∧ x.out = s.out ++ [.answer 255 .ok]) ∧
  (∀ (s : State) (mask : Nat), mask < 512 → bit mask 0 = false → (∀ b : BayId, bit mask (b.val + 1) = true → s.bayBusy b = false ∧
      s.legalRuns (tileOf b false) = false ∧ s.legalRuns (tileOf b true) = false) →
    exec (.restoreDefaults mask) s = .next (s.done (((((maskBays mask).foldl (fun (s : State) (b : BayId) => s.clearArea bayEntries b) s).pierEvent 0xFF 0 0x010A 0
      mask)).answer 255 .ok))) ∧
  (∀ (s : State) (mask : Nat), mask < 512 → (∀ b : BayId, bit mask (b.val + 1) = true → s.bayBusy b = false ∧
      s.legalRuns (tileOf b false) = false ∧ s.legalRuns (tileOf b true) = false) → bit mask 0 = true →
    exec (.restoreDefaults mask) s = .next (s.done (((((maskBays mask).foldl (fun (s : State) (b : BayId) => s.clearArea bayEntries b)
      (s.clearArea deviceEntries 0).refreshUtc).pierEvent 0xFF 0 0x010A 0 mask)).answer 255 .ok))) ∧
  (∀ (s y : State) (target index sub rights k : Nat) (v : Bytes) (g : Tgt) (e : Entry) (r : Status), s.checkItem target index sub rights .set = .ok (g, e, k) →
    s.setEntry g e k none v rights 0 = (y, r) → exec (.entryWrite target index sub v rights) s = .next (s.done (y.answer target r)))

/-- An unlock opens the bays of its mask whose LEGAL_EN_N is not asserted, for its time; a lock and the end of the time close them. Where the manual leaves a
point of it open, the choice is the model's: notes/assumptions/24.md. Rules R628. -/
def Obligations.DiagLock : Prop :=
  (∀ (s : State) (bays secs : Nat), bays ≤ 255 → 60 ≤ secs → secs ≤ 86400 →
    ∃ x, exec (.diagUnlock bays secs) s = .next x ∧ x.out = s.out ++ [.answer 255 .ok] ∧ (∀ u, x.vol u = s.vol u) ∧
      ∀ b : BayId, (x.bay b).unlockTo = if bit bays b.val = true ∧ (s.bay b).legalEn = false then s.now + secs * 1000000000 else (s.bay b).unlockTo) ∧
  (∀ (s : State) (bays : Nat), bays ≤ 255 →
    ∃ x, exec (.diagLock bays) s = .next x ∧ x.out = s.out ++ [.answer 255 .ok] ∧
      ∀ b : BayId, (x.bay b).unlockTo = if bit bays b.val = true then 0 else (s.bay b).unlockTo) ∧
  (∀ (s : State) (b : BayId), (s.bay b).unlockTo ≠ 0 → s.unlocked b = false → exec (.unlockExpiry b) s = .next (s.done (s.endUnlock b)))

/-- When a bay's unlock ends, by a lock, by the end of its time or by the assertion of LEGAL_EN_N, every control of that bay and of its two tiles ends in the same
step. Rules R629. -/
def Obligations.UnlockEndsControls : Prop :=
  (∀ (s : State) (bays : Nat) (b : BayId), bays ≤ 255 → bit bays b.val = true → (s.bay b).unlockTo ≠ 0 →
    ∃ x, exec (.diagLock bays) s = .next x ∧ (x.bay b).unlockTo = 0 ∧ ∀ k, k < 3 → x.bayArm b k = none ∧ ∀ o, x.tileArm (tileOf b o) k = none) ∧
  (∀ (s : State) (b : BayId), (s.bay b).unlockTo ≠ 0 → s.unlocked b = false →
    ∃ x, exec (.unlockExpiry b) s = .next x ∧ (x.bay b).unlockTo = 0 ∧ ∀ k, k < 3 → x.bayArm b k = none ∧ ∀ o, x.tileArm (tileOf b o) k = none) ∧
  (∀ (s : State) (b : BayId), s.pier.up = true → (s.bay b).legalEn = false → (s.bay b).unlockTo ≠ 0 →
    ∃ x, exec (.sealAssert b) s = .next x ∧ (x.bay b).unlockTo = 0 ∧ ∀ k, k < 3 → x.bayArm b k = none ∧ ∀ o, x.tileArm (tileOf b o) k = none)

/-- A control that passes the checks is armed with its parameters until its time and counted; LOST_INJECT and MIRROR_LOST act at once; a disarm ends the control
with reason 1; a control whose time has come ends with reason 0. Rules R630, R632, R633, R634, R635, R637. -/
def Obligations.DiagControls : Prop :=
  (∀ (s : State) (t : TileId) (r : Bytes), r.length = 16 → leNat r ≠ 0 →
    s.armCheck (bayOf t) (ArmIn.parse r) false (tileArmOk 0 (ArmIn.parse r)) true = none → s.rd Reg.device_diag_arms 0 + 1 < Reg.device_diag_arms.span →
    ∃ x, exec (.egressDelay t r) s = .next x ∧ x.out = s.out ++ [.answer t .ok] ∧ x.rd Reg.device_diag_arms 0 = s.rd Reg.device_diag_arms 0 + 1 ∧
      (x.vol t).diag.arms = (s.vol t).diag.arms.set 0 (some { p1 := (ArmIn.parse r).p1, p2 := (ArmIn.parse r).p2, p3 := (ArmIn.parse r).p3, until_ := s.now + (ArmIn.parse r).dur * 1000000000, count := (ArmIn.parse r).p2 })) ∧
  (∀ (s : State) (t : TileId) (r : Bytes), r.length = 16 → leNat r ≠ 0 →
    s.armCheck (bayOf t) (ArmIn.parse r) false (tileArmOk 1 (ArmIn.parse r)) true = none → s.rd Reg.device_diag_arms 0 + 1 < Reg.device_diag_arms.span →
    ∃ x, exec (.creditStarve t r) s = .next x ∧ x.out = s.out ++ [.answer t .ok] ∧ x.rd Reg.device_diag_arms 0 = s.rd Reg.device_diag_arms 0 + 1 ∧
      (x.vol t).diag.arms = (s.vol t).diag.arms.set 1 (some { p1 := (ArmIn.parse r).p1, p2 := (ArmIn.parse r).p2, p3 := (ArmIn.parse r).p3, until_ := s.now + (ArmIn.parse r).dur * 1000000000, count := (ArmIn.parse r).p2 })) ∧
  (∀ (s : State) (t : TileId) (r : Bytes), r.length = 16 → leNat r ≠ 0 → s.rd Reg.media_state t = 3 →
    s.armCheck (bayOf t) (ArmIn.parse r) false (tileArmOk 2 (ArmIn.parse r)) true = none → s.rd Reg.device_diag_arms 0 + 1 < Reg.device_diag_arms.span →
    ∃ x, exec (.nandFail t r) s = .next x ∧ x.out = s.out ++ [.answer t .ok] ∧ x.rd Reg.device_diag_arms 0 = s.rd Reg.device_diag_arms 0 + 1 ∧
      (x.vol t).diag.arms = (s.vol t).diag.arms.set 2 (some { p1 := (ArmIn.parse r).p1, p2 := (ArmIn.parse r).p2, p3 := (ArmIn.parse r).p3, until_ := s.now + (ArmIn.parse r).dur * 1000000000, count := (ArmIn.parse r).p2 })) ∧
  (∀ (s y : State) (t : TileId) (r : Bytes) (a : ArmIn), r.length = 16 → leNat r ≠ 0 → a = ArmIn.parse r →
    s.armCheck (bayOf t) a true (tileArmOk 3 a) true = none → y = (s.bump Reg.device_diag_arms 0).event t 1 0x1E03 (diagObjT t 3) a.dur a.p1 →
    exec (.lostInject t r) s =
      .next (s.done (((y.lostInject t ⟨a.p1 % 7, Nat.mod_lt _ (by decide)⟩ a.p2).event t 0 0x1E04 (diagObjT t 3) 0).answer t .ok))) ∧
  (∀ (s : State) (b : BayId) (r : Bytes), r.length = 16 → leNat r ≠ 0 → (s.bay b).modeNow = 0 →
    s.armCheck b (ArmIn.parse r) false (bayArmOk 0 (ArmIn.parse r)) true = none →
    ∃ x, exec (.mirrorDelay b r) s = .next x ∧ x.out = s.out ++ [.answer (128 + b) .ok] ∧
      (x.bay b).arms = (s.bay b).arms.set 0 (some { p1 := (ArmIn.parse r).p1, p2 := (ArmIn.parse r).p2, until_ := s.now + (ArmIn.parse r).dur * 1000000000, count := (ArmIn.parse r).p2 })) ∧
  (∀ (s : State) (b : BayId) (r : Bytes), r.length = 16 → leNat r ≠ 0 → (s.bay b).modeNow = 0 →
    s.armCheck b (ArmIn.parse r) false (bayArmOk 1 (ArmIn.parse r)) true = none →
    ∃ x, exec (.pmbusDelay b r) s = .next x ∧ x.out = s.out ++ [.answer (128 + b) .ok] ∧
      (x.bay b).arms = (s.bay b).arms.set 1 (some { p1 := (ArmIn.parse r).p1, p2 := (ArmIn.parse r).p2, until_ := s.now + (ArmIn.parse r).dur * 1000000000, count := (ArmIn.parse r).p2 })) ∧
  (∀ (s : State) (b : BayId) (r : Bytes), r.length = 16 → leNat r ≠ 0 → (s.bay b).modeNow = 0 → (ArmIn.parse r).p1 < 2 →
    s.armCheck b (ArmIn.parse r) false (bayArmOk 2 (ArmIn.parse r)) true = none →
    ∃ x, exec (.auditMismatch b r) s = .next x ∧ x.out = s.out ++ [.answer (128 + b) .ok] ∧
      (x.bay b).arms = (s.bay b).arms.set 2 (some { p1 := (ArmIn.parse r).p1, p2 := (ArmIn.parse r).p2, until_ := s.now + (ArmIn.parse r).dur * 1000000000, count := (ArmIn.parse r).p2 })) ∧
  (∀ (s y : State) (b : BayId) (r : Bytes) (a : ArmIn), r.length = 16 → leNat r ≠ 0 → (s.bay b).modeNow = 0 → s.hasStandby b = true → a = ArmIn.parse r →
    s.armCheck b a true (bayArmOk 3 a) true = none → y = (s.bump Reg.device_diag_arms 0).pierEvent (0x80 + b.val) 1 0x1E03 (diagObjB b 3) a.dur a.p1 →
    exec (.mirrorLost b r) s =
      .next (s.done (((y.mirrorInject b a.p1).pierEvent (0x80 + b.val) 0 0x1E04 (diagObjB b 3) 0).answer (128 + b.val) .ok))) ∧
  (∀ (s : State) (t : TileId) (k : Fin 4), exec (.controlDisarm t false k) s = .next (s.done ((s.endTileArm t k 1).answer t .ok))) ∧
  (∀ (s : State) (t : TileId) (k : Fin 4), exec (.controlDisarm t true k) s = .next (s.done ((s.endBayArm (bayOf t) k 1).answer (128 + (bayOf t).val) .ok))) ∧
  (∀ (s : State) (t : TileId) (k : Fin 4) (a : Arm), s.tileArm t k = some a → a.until_ ≤ s.now →
    exec (.controlExpiry t false k) s = .next (s.done (s.endTileArm t k 0))) ∧
  (∀ (s : State) (t : TileId) (k : Fin 4) (a : BayArm), s.bayArm (bayOf t) k = some a → a.until_ ≤ s.now →
    exec (.controlExpiry t true k) s = .next (s.done (s.endBayArm (bayOf t) k 0)))
end

