-- ==== Sys2Proof/Laws/Crypto.lean ====
section
/-! SUPPORT. Laws/Crypto.lean: what is sealed with GCM opens again. -/

namespace Sys2Proof.Machine.Crypto

@[simp] theorem xorB_length (a b : Bytes) : (xorB a b).length = min a.length b.length := List.length_zipWith

/-- Two exclusive ors with one stream that is long enough cancel. -/
theorem xorB_cancel (a k : Bytes) (h : a.length ≤ k.length) : xorB (xorB a k) k = a := by
  induction a generalizing k with
  | nil => rfl
  | cons x a ih =>
    cases k with
    | nil => simp at h
    | cons y k => simp only [xorB, List.zipWith_cons_cons] at ih ⊢; rw [ih k (by simpa using h)]; simp

@[simp] theorem shiftRows_length (s : Bytes) : (shiftRows s).length = 16 := rfl

theorem piecesAux_length (n : Nat) (f : Nat) (b : Bytes) (k : Nat) (hn : 0 < n) (hb : b.length = n * k) (hf : k < f) : (piecesAux n f b).length = k := by
  induction f generalizing b k with
  | zero => omega
  | succ f ih =>
    cases k with
    | zero => have : b = [] := List.length_eq_zero_iff.1 (by simpa using hb)
              subst this; rfl
    | succ k =>
      cases b with
      | nil => simp at hb; omega
      | cons x b =>
        rw [piecesAux, List.length_cons, ih _ k (by rw [List.length_drop, hb]; rw [Nat.mul_succ]; omega) (by omega)]
        simp

@[simp] theorem mixCol_length (m : List Nat) (c : Bytes) : (mixCol m c).length = 4 := by simp [mixCol]

theorem mix_length (m : List Nat) (s : Bytes) (h : s.length = 16) : (mix m s).length = 16 := by
  have hp : (pieces 4 s).length = 4 := piecesAux_length 4 _ s 4 (by omega) (by omega) (by omega)
  unfold mix
  rw [List.length_flatten, List.map_map]
  have : (List.map (List.length ∘ mixCol m) (pieces 4 s)) = List.replicate 4 4 := by
    rw [List.eq_replicate_iff]
    refine ⟨by simpa using hp, fun b hb => ?_⟩
    obtain ⟨c, -, rfl⟩ := List.mem_map.1 hb
    simp
  rw [this]; rfl

theorem encRounds_length (ks : List Bytes) (s : Bytes) (hs : s.length = 16) (hk : ∀ k ∈ ks, k.length = 16) : (encRounds ks s).length = 16 := by
  induction ks generalizing s with
  | nil => simpa [encRounds] using hs
  | cons k ks ih =>
    have h0 : k.length = 16 := hk k (by simp)
    cases ks with
    | nil => simp [encRounds, h0]
    | cons j ks => exact ih _ (by simp [mix_length _ _ (shiftRows_length _), h0]) (fun x hx => hk x (by simp_all))

/-- Under round keys of a block each, a block is encrypted to a block. -/
theorem aesEncK_length (rk : List Bytes) (b : Bytes) (hb : b.length = 16) (hk : ∀ k ∈ rk, k.length = 16) : (aesEncK rk b).length = 16 := by
  cases rk with
  | nil => exact hb
  | cons k ks => exact encRounds_length ks _ (by simp [hb, hk k (by simp)]) (fun x hx => hk x (by simp [hx]))

theorem natLE_length (n v : Nat) : (natLE n v).length = n := by
  induction n generalizing v with
  | zero => rfl
  | succ n ih => simp [natLE, ih]

theorem natBE_length (n v : Nat) : (natBE n v).length = n := by simp [natBE, natLE_length]

theorem ctrStream_length (rk : List Bytes) (pre : Bytes) (c n : Nat) (hp : pre.length = 12) (hk : ∀ k ∈ rk, k.length = 16) :
    (ctrStream rk pre c n).length = 16 * n := by
  unfold ctrStream
  rw [List.length_flatten, List.map_map]
  have : (List.map (List.length ∘ fun i => aesEncK rk (pre ++ natBE 4 (c + i))) (List.range n)) = List.replicate n 16 := by
    rw [List.eq_replicate_iff]
    refine ⟨by simp, fun b hb => ?_⟩
    obtain ⟨i, -, rfl⟩ := List.mem_map.1 hb
    exact aesEncK_length _ _ (by simp [hp, natBE_length]) hk
  rw [this]; simp [Nat.mul_comm]

/-- The tag of GCM is a block. -/
theorem gcmTag_length (key iv aad ct : Bytes) (hi : iv.length = 12) (hk : ∀ k ∈ roundKeys key, k.length = 16) : (gcmTag key iv aad ct).length = 16 := by
  simp [gcmTag, natBE_length, aesEncK_length (roundKeys key) (iv ++ natBE 4 1) (by simp [hi, natBE_length]) hk]

@[simp] theorem gcmCtr_length (key iv d : Bytes) (hi : iv.length = 12) (hk : ∀ k ∈ roundKeys key, k.length = 16) : (gcmCtr key iv d).length = d.length := by
  simp only [gcmCtr, xorB_length, ctrStream_length _ _ _ _ hi hk]; omega

/-- Counter mode undoes itself. -/
theorem gcmCtr_gcmCtr (key iv d : Bytes) (hi : iv.length = 12) (hk : ∀ k ∈ roundKeys key, k.length = 16) : gcmCtr key iv (gcmCtr key iv d) = d := by
  have hl := gcmCtr_length key iv d hi hk
  conv_lhs => rw [gcmCtr, hl]
  exact xorB_cancel _ _ (by rw [ctrStream_length _ _ _ _ hi hk]; omega)

/-- What is sealed with GCM opens to what was sealed. -/
theorem gcmOpen_gcmSeal (key iv aad pt : Bytes) (n : Nat) (hn : 0 < n) (hi : iv.length = 12) (hk : ∀ k ∈ roundKeys key, k.length = 16) :
    gcmOpen key iv aad (gcmSeal key iv aad pt n).1 (gcmSeal key iv aad pt n).2 = some pt := by
  have ht := gcmTag_length key iv aad (gcmCtr key iv pt) hi hk
  have h1 : ((gcmTag key iv aad (gcmCtr key iv pt)).take n).length = min n 16 := by simp [ht]
  have h2 : (gcmTag key iv aad (gcmCtr key iv pt)).take (min n 16) = (gcmTag key iv aad (gcmCtr key iv pt)).take n := by
    rcases Nat.le_total n 16 with h | h
    · rw [Nat.min_eq_left h]
    · rw [Nat.min_eq_right h, List.take_of_length_le (by omega), List.take_of_length_le (by omega)]
  have h3 : ((gcmTag key iv aad (gcmCtr key iv pt)).take n).isEmpty = false := by
    cases e : (gcmTag key iv aad (gcmCtr key iv pt)).take n with
    | nil => rw [e] at h1; simp at h1; omega
    | cons _ _ => rfl
  simp only [gcmOpen, gcmSeal, h1, h2, h3]
  simp [gcmCtr_gcmCtr key iv pt hi hk]

end Sys2Proof.Machine.Crypto
end

