-- ==== Sys2Proof/Laws/State.lean ====
section
/-! SUPPORT. Laws/State.lean: what each update of the state leaves and what it sets, field by field, so that no proof unfolds a record update. -/

namespace Sys2Proof.Machine

/-! ### Fields that an update leaves -/

@[simp] theorem State.wr_pending (s : State) (e : Entry) (n v i : Nat) : (s.wr e n v i).pending = s.pending := rfl
@[simp] theorem State.wr_now (s : State) (e : Entry) (n v i : Nat) : (s.wr e n v i).now = s.now := rfl
@[simp] theorem State.wr_acts (s : State) (e : Entry) (n v i : Nat) : (s.wr e n v i).acts = s.acts := rfl
@[simp] theorem State.wr_tiles (s : State) (e : Entry) (n v i : Nat) : (s.wr e n v i).tiles = s.tiles := rfl
@[simp] theorem State.wr_bays (s : State) (e : Entry) (n v i : Nat) : (s.wr e n v i).bays = s.bays := rfl
@[simp] theorem State.wr_pier (s : State) (e : Entry) (n v i : Nat) : (s.wr e n v i).pier = s.pier := rfl
@[simp] theorem State.wr_out (s : State) (e : Entry) (n v i : Nat) : (s.wr e n v i).out = s.out := rfl
@[simp] theorem State.wr_pins (s : State) (e : Entry) (n v i : Nat) : (s.wr e n v i).pins = s.pins := rfl

@[simp] theorem State.wrB_pending (s : State) (e : Entry) (n a : Nat) (b : Bytes) (i : Nat) : (s.wrB e n a b i).pending = s.pending := rfl
@[simp] theorem State.wrB_now (s : State) (e : Entry) (n a : Nat) (b : Bytes) (i : Nat) : (s.wrB e n a b i).now = s.now := rfl
@[simp] theorem State.wrB_acts (s : State) (e : Entry) (n a : Nat) (b : Bytes) (i : Nat) : (s.wrB e n a b i).acts = s.acts := rfl
@[simp] theorem State.wrB_tiles (s : State) (e : Entry) (n a : Nat) (b : Bytes) (i : Nat) : (s.wrB e n a b i).tiles = s.tiles := rfl
@[simp] theorem State.wrB_bays (s : State) (e : Entry) (n a : Nat) (b : Bytes) (i : Nat) : (s.wrB e n a b i).bays = s.bays := rfl
@[simp] theorem State.wrB_pier (s : State) (e : Entry) (n a : Nat) (b : Bytes) (i : Nat) : (s.wrB e n a b i).pier = s.pier := rfl
@[simp] theorem State.wrB_out (s : State) (e : Entry) (n a : Nat) (b : Bytes) (i : Nat) : (s.wrB e n a b i).out = s.out := rfl
@[simp] theorem State.wrB_pins (s : State) (e : Entry) (n a : Nat) (b : Bytes) (i : Nat) : (s.wrB e n a b i).pins = s.pins := rfl

@[simp] theorem State.clr_pending (s : State) (e : Entry) (n i : Nat) : (s.clr e n i).pending = s.pending := rfl
@[simp] theorem State.clr_now (s : State) (e : Entry) (n i : Nat) : (s.clr e n i).now = s.now := rfl
@[simp] theorem State.clr_acts (s : State) (e : Entry) (n i : Nat) : (s.clr e n i).acts = s.acts := rfl
@[simp] theorem State.clr_tiles (s : State) (e : Entry) (n i : Nat) : (s.clr e n i).tiles = s.tiles := rfl
@[simp] theorem State.clr_bays (s : State) (e : Entry) (n i : Nat) : (s.clr e n i).bays = s.bays := rfl
@[simp] theorem State.clr_pier (s : State) (e : Entry) (n i : Nat) : (s.clr e n i).pier = s.pier := rfl
@[simp] theorem State.clr_out (s : State) (e : Entry) (n i : Nat) : (s.clr e n i).out = s.out := rfl
@[simp] theorem State.clr_pins (s : State) (e : Entry) (n i : Nat) : (s.clr e n i).pins = s.pins := rfl

@[simp] theorem State.wrI_pending (s : State) (e : Entry) (n : Nat) (v : Int) (i : Nat) : (s.wrI e n v i).pending = s.pending := rfl
@[simp] theorem State.wrI_now (s : State) (e : Entry) (n : Nat) (v : Int) (i : Nat) : (s.wrI e n v i).now = s.now := rfl
@[simp] theorem State.wrI_acts (s : State) (e : Entry) (n : Nat) (v : Int) (i : Nat) : (s.wrI e n v i).acts = s.acts := rfl
@[simp] theorem State.wrI_tiles (s : State) (e : Entry) (n : Nat) (v : Int) (i : Nat) : (s.wrI e n v i).tiles = s.tiles := rfl
@[simp] theorem State.wrI_bays (s : State) (e : Entry) (n : Nat) (v : Int) (i : Nat) : (s.wrI e n v i).bays = s.bays := rfl
@[simp] theorem State.wrI_pier (s : State) (e : Entry) (n : Nat) (v : Int) (i : Nat) : (s.wrI e n v i).pier = s.pier := rfl
@[simp] theorem State.wrI_out (s : State) (e : Entry) (n : Nat) (v : Int) (i : Nat) : (s.wrI e n v i).out = s.out := rfl
@[simp] theorem State.wrI_pins (s : State) (e : Entry) (n : Nat) (v : Int) (i : Nat) : (s.wrI e n v i).pins = s.pins := rfl

@[simp] theorem State.wrBit_pending (s : State) (e : Entry) (n k : Nat) (b : Bool) : (s.wrBit e n k b).pending = s.pending := rfl
@[simp] theorem State.wrBit_now (s : State) (e : Entry) (n k : Nat) (b : Bool) : (s.wrBit e n k b).now = s.now := rfl
@[simp] theorem State.wrBit_acts (s : State) (e : Entry) (n k : Nat) (b : Bool) : (s.wrBit e n k b).acts = s.acts := rfl
@[simp] theorem State.wrBit_tiles (s : State) (e : Entry) (n k : Nat) (b : Bool) : (s.wrBit e n k b).tiles = s.tiles := rfl
@[simp] theorem State.wrBit_bays (s : State) (e : Entry) (n k : Nat) (b : Bool) : (s.wrBit e n k b).bays = s.bays := rfl
@[simp] theorem State.wrBit_pier (s : State) (e : Entry) (n k : Nat) (b : Bool) : (s.wrBit e n k b).pier = s.pier := rfl
@[simp] theorem State.wrBit_out (s : State) (e : Entry) (n k : Nat) (b : Bool) : (s.wrBit e n k b).out = s.out := rfl
@[simp] theorem State.wrBit_pins (s : State) (e : Entry) (n k : Nat) (b : Bool) : (s.wrBit e n k b).pins = s.pins := rfl

@[simp] theorem State.bump_pending (s : State) (e : Entry) (n i k : Nat) : (s.bump e n i k).pending = s.pending := rfl
@[simp] theorem State.bump_now (s : State) (e : Entry) (n i k : Nat) : (s.bump e n i k).now = s.now := rfl
@[simp] theorem State.bump_acts (s : State) (e : Entry) (n i k : Nat) : (s.bump e n i k).acts = s.acts := rfl
@[simp] theorem State.bump_tiles (s : State) (e : Entry) (n i k : Nat) : (s.bump e n i k).tiles = s.tiles := rfl
@[simp] theorem State.bump_bays (s : State) (e : Entry) (n i k : Nat) : (s.bump e n i k).bays = s.bays := rfl
@[simp] theorem State.bump_pier (s : State) (e : Entry) (n i k : Nat) : (s.bump e n i k).pier = s.pier := rfl
@[simp] theorem State.bump_out (s : State) (e : Entry) (n i k : Nat) : (s.bump e n i k).out = s.out := rfl
@[simp] theorem State.bump_pins (s : State) (e : Entry) (n i k : Nat) : (s.bump e n i k).pins = s.pins := rfl

@[simp] theorem State.onTile_pending (s : State) (t : TileId) (f : Tile → Tile) : (s.onTile t f).pending = s.pending := rfl
@[simp] theorem State.onTile_now (s : State) (t : TileId) (f : Tile → Tile) : (s.onTile t f).now = s.now := rfl
@[simp] theorem State.onTile_acts (s : State) (t : TileId) (f : Tile → Tile) : (s.onTile t f).acts = s.acts := rfl
@[simp] theorem State.onTile_regs (s : State) (t : TileId) (f : Tile → Tile) : (s.onTile t f).regs = s.regs := rfl
@[simp] theorem State.onTile_bays (s : State) (t : TileId) (f : Tile → Tile) : (s.onTile t f).bays = s.bays := rfl
@[simp] theorem State.onTile_pier (s : State) (t : TileId) (f : Tile → Tile) : (s.onTile t f).pier = s.pier := rfl
@[simp] theorem State.onTile_out (s : State) (t : TileId) (f : Tile → Tile) : (s.onTile t f).out = s.out := rfl
@[simp] theorem State.onTile_pins (s : State) (t : TileId) (f : Tile → Tile) : (s.onTile t f).pins = s.pins := rfl

@[simp] theorem State.onVol_pending (s : State) (t : TileId) (f : Vol → Vol) : (s.onVol t f).pending = s.pending := rfl
@[simp] theorem State.onVol_now (s : State) (t : TileId) (f : Vol → Vol) : (s.onVol t f).now = s.now := rfl
@[simp] theorem State.onVol_acts (s : State) (t : TileId) (f : Vol → Vol) : (s.onVol t f).acts = s.acts := rfl
@[simp] theorem State.onVol_regs (s : State) (t : TileId) (f : Vol → Vol) : (s.onVol t f).regs = s.regs := rfl
@[simp] theorem State.onVol_bays (s : State) (t : TileId) (f : Vol → Vol) : (s.onVol t f).bays = s.bays := rfl
@[simp] theorem State.onVol_pier (s : State) (t : TileId) (f : Vol → Vol) : (s.onVol t f).pier = s.pier := rfl
@[simp] theorem State.onVol_out (s : State) (t : TileId) (f : Vol → Vol) : (s.onVol t f).out = s.out := rfl
@[simp] theorem State.onVol_pins (s : State) (t : TileId) (f : Vol → Vol) : (s.onVol t f).pins = s.pins := rfl

@[simp] theorem State.onPower_pending (s : State) (t : TileId) (f : Power → Power) : (s.onPower t f).pending = s.pending := rfl
@[simp] theorem State.onPower_now (s : State) (t : TileId) (f : Power → Power) : (s.onPower t f).now = s.now := rfl
@[simp] theorem State.onPower_acts (s : State) (t : TileId) (f : Power → Power) : (s.onPower t f).acts = s.acts := rfl
@[simp] theorem State.onPower_regs (s : State) (t : TileId) (f : Power → Power) : (s.onPower t f).regs = s.regs := rfl
@[simp] theorem State.onPower_bays (s : State) (t : TileId) (f : Power → Power) : (s.onPower t f).bays = s.bays := rfl
@[simp] theorem State.onPower_pier (s : State) (t : TileId) (f : Power → Power) : (s.onPower t f).pier = s.pier := rfl
@[simp] theorem State.onPower_out (s : State) (t : TileId) (f : Power → Power) : (s.onPower t f).out = s.out := rfl
@[simp] theorem State.onPower_pins (s : State) (t : TileId) (f : Power → Power) : (s.onPower t f).pins = s.pins := rfl

@[simp] theorem State.onMedia_pending (s : State) (t : TileId) (f : Media → Media) : (s.onMedia t f).pending = s.pending := rfl
@[simp] theorem State.onMedia_now (s : State) (t : TileId) (f : Media → Media) : (s.onMedia t f).now = s.now := rfl
@[simp] theorem State.onMedia_acts (s : State) (t : TileId) (f : Media → Media) : (s.onMedia t f).acts = s.acts := rfl
@[simp] theorem State.onMedia_regs (s : State) (t : TileId) (f : Media → Media) : (s.onMedia t f).regs = s.regs := rfl
@[simp] theorem State.onMedia_bays (s : State) (t : TileId) (f : Media → Media) : (s.onMedia t f).bays = s.bays := rfl
@[simp] theorem State.onMedia_pier (s : State) (t : TileId) (f : Media → Media) : (s.onMedia t f).pier = s.pier := rfl
@[simp] theorem State.onMedia_out (s : State) (t : TileId) (f : Media → Media) : (s.onMedia t f).out = s.out := rfl
@[simp] theorem State.onMedia_pins (s : State) (t : TileId) (f : Media → Media) : (s.onMedia t f).pins = s.pins := rfl

@[simp] theorem State.queueJob_pending (s : State) (t : TileId) (j : PageJob) : (s.queueJob t j).pending = s.pending := rfl
@[simp] theorem State.queueJob_now (s : State) (t : TileId) (j : PageJob) : (s.queueJob t j).now = s.now := rfl
@[simp] theorem State.queueJob_acts (s : State) (t : TileId) (j : PageJob) : (s.queueJob t j).acts = s.acts := rfl
@[simp] theorem State.queueJob_regs (s : State) (t : TileId) (j : PageJob) : (s.queueJob t j).regs = s.regs := rfl
@[simp] theorem State.queueJob_bays (s : State) (t : TileId) (j : PageJob) : (s.queueJob t j).bays = s.bays := rfl
@[simp] theorem State.queueJob_pier (s : State) (t : TileId) (j : PageJob) : (s.queueJob t j).pier = s.pier := rfl
@[simp] theorem State.queueJob_out (s : State) (t : TileId) (j : PageJob) : (s.queueJob t j).out = s.out := rfl
@[simp] theorem State.queueJob_pins (s : State) (t : TileId) (j : PageJob) : (s.queueJob t j).pins = s.pins := rfl

@[simp] theorem State.setQueue_pending (s : State) (t : TileId) (code : Fin 7) (q : PPQ QItem) : (s.setQueue t code q).pending = s.pending := rfl
@[simp] theorem State.setQueue_now (s : State) (t : TileId) (code : Fin 7) (q : PPQ QItem) : (s.setQueue t code q).now = s.now := rfl
@[simp] theorem State.setQueue_acts (s : State) (t : TileId) (code : Fin 7) (q : PPQ QItem) : (s.setQueue t code q).acts = s.acts := rfl
@[simp] theorem State.setQueue_regs (s : State) (t : TileId) (code : Fin 7) (q : PPQ QItem) : (s.setQueue t code q).regs = s.regs := rfl
@[simp] theorem State.setQueue_bays (s : State) (t : TileId) (code : Fin 7) (q : PPQ QItem) : (s.setQueue t code q).bays = s.bays := rfl
@[simp] theorem State.setQueue_pier (s : State) (t : TileId) (code : Fin 7) (q : PPQ QItem) : (s.setQueue t code q).pier = s.pier := rfl
@[simp] theorem State.setQueue_out (s : State) (t : TileId) (code : Fin 7) (q : PPQ QItem) : (s.setQueue t code q).out = s.out := rfl
@[simp] theorem State.setQueue_pins (s : State) (t : TileId) (code : Fin 7) (q : PPQ QItem) : (s.setQueue t code q).pins = s.pins := rfl

@[simp] theorem State.onBay_pending (s : State) (b : BayId) (f : Bay → Bay) : (s.onBay b f).pending = s.pending := rfl
@[simp] theorem State.onBay_now (s : State) (b : BayId) (f : Bay → Bay) : (s.onBay b f).now = s.now := rfl
@[simp] theorem State.onBay_acts (s : State) (b : BayId) (f : Bay → Bay) : (s.onBay b f).acts = s.acts := rfl
@[simp] theorem State.onBay_regs (s : State) (b : BayId) (f : Bay → Bay) : (s.onBay b f).regs = s.regs := rfl
@[simp] theorem State.onBay_tiles (s : State) (b : BayId) (f : Bay → Bay) : (s.onBay b f).tiles = s.tiles := rfl
@[simp] theorem State.onBay_pier (s : State) (b : BayId) (f : Bay → Bay) : (s.onBay b f).pier = s.pier := rfl
@[simp] theorem State.onBay_out (s : State) (b : BayId) (f : Bay → Bay) : (s.onBay b f).out = s.out := rfl
@[simp] theorem State.onBay_pins (s : State) (b : BayId) (f : Bay → Bay) : (s.onBay b f).pins = s.pins := rfl

@[simp] theorem State.setRole_pending (s : State) (t : TileId) (r : Nat) : (s.setRole t r).pending = s.pending := rfl
@[simp] theorem State.setRole_now (s : State) (t : TileId) (r : Nat) : (s.setRole t r).now = s.now := rfl
@[simp] theorem State.setRole_acts (s : State) (t : TileId) (r : Nat) : (s.setRole t r).acts = s.acts := rfl
@[simp] theorem State.setRole_regs (s : State) (t : TileId) (r : Nat) : (s.setRole t r).regs = s.regs := rfl
@[simp] theorem State.setRole_tiles (s : State) (t : TileId) (r : Nat) : (s.setRole t r).tiles = s.tiles := rfl
@[simp] theorem State.setRole_pier (s : State) (t : TileId) (r : Nat) : (s.setRole t r).pier = s.pier := rfl
@[simp] theorem State.setRole_out (s : State) (t : TileId) (r : Nat) : (s.setRole t r).out = s.out := rfl
@[simp] theorem State.setRole_pins (s : State) (t : TileId) (r : Nat) : (s.setRole t r).pins = s.pins := rfl

@[simp] theorem State.setOwn_pending (s : State) (t : TileId) (v : Bool) : (s.setOwn t v).pending = s.pending := rfl
@[simp] theorem State.setOwn_now (s : State) (t : TileId) (v : Bool) : (s.setOwn t v).now = s.now := rfl
@[simp] theorem State.setOwn_acts (s : State) (t : TileId) (v : Bool) : (s.setOwn t v).acts = s.acts := rfl
@[simp] theorem State.setOwn_regs (s : State) (t : TileId) (v : Bool) : (s.setOwn t v).regs = s.regs := rfl
@[simp] theorem State.setOwn_tiles (s : State) (t : TileId) (v : Bool) : (s.setOwn t v).tiles = s.tiles := rfl
@[simp] theorem State.setOwn_pier (s : State) (t : TileId) (v : Bool) : (s.setOwn t v).pier = s.pier := rfl
@[simp] theorem State.setOwn_out (s : State) (t : TileId) (v : Bool) : (s.setOwn t v).out = s.out := rfl
@[simp] theorem State.setOwn_pins (s : State) (t : TileId) (v : Bool) : (s.setOwn t v).pins = s.pins := rfl

@[simp] theorem State.onPier_pending (s : State) (f : Pier → Pier) : (s.onPier f).pending = s.pending := rfl
@[simp] theorem State.onPier_now (s : State) (f : Pier → Pier) : (s.onPier f).now = s.now := rfl
@[simp] theorem State.onPier_acts (s : State) (f : Pier → Pier) : (s.onPier f).acts = s.acts := rfl
@[simp] theorem State.onPier_regs (s : State) (f : Pier → Pier) : (s.onPier f).regs = s.regs := rfl
@[simp] theorem State.onPier_tiles (s : State) (f : Pier → Pier) : (s.onPier f).tiles = s.tiles := rfl
@[simp] theorem State.onPier_bays (s : State) (f : Pier → Pier) : (s.onPier f).bays = s.bays := rfl
@[simp] theorem State.onPier_out (s : State) (f : Pier → Pier) : (s.onPier f).out = s.out := rfl
@[simp] theorem State.onPier_pins (s : State) (f : Pier → Pier) : (s.onPier f).pins = s.pins := rfl

@[simp] theorem State.emit_pending (s : State) (o : Out) : (s.emit o).pending = s.pending := rfl
@[simp] theorem State.emit_now (s : State) (o : Out) : (s.emit o).now = s.now := rfl
@[simp] theorem State.emit_acts (s : State) (o : Out) : (s.emit o).acts = s.acts := rfl
@[simp] theorem State.emit_regs (s : State) (o : Out) : (s.emit o).regs = s.regs := rfl
@[simp] theorem State.emit_tiles (s : State) (o : Out) : (s.emit o).tiles = s.tiles := rfl
@[simp] theorem State.emit_bays (s : State) (o : Out) : (s.emit o).bays = s.bays := rfl
@[simp] theorem State.emit_pier (s : State) (o : Out) : (s.emit o).pier = s.pier := rfl
@[simp] theorem State.emit_pins (s : State) (o : Out) : (s.emit o).pins = s.pins := rfl

@[simp] theorem State.answer_pending (s : State) (n : Nat) (st : Status) : (s.answer n st).pending = s.pending := rfl
@[simp] theorem State.answer_now (s : State) (n : Nat) (st : Status) : (s.answer n st).now = s.now := rfl
@[simp] theorem State.answer_regs (s : State) (n : Nat) (st : Status) : (s.answer n st).regs = s.regs := rfl
@[simp] theorem State.answer_tiles (s : State) (n : Nat) (st : Status) : (s.answer n st).tiles = s.tiles := rfl
@[simp] theorem State.answer_bays (s : State) (n : Nat) (st : Status) : (s.answer n st).bays = s.bays := rfl
@[simp] theorem State.answer_pins (s : State) (n : Nat) (st : Status) : (s.answer n st).pins = s.pins := rfl

@[simp] theorem State.settle_pending (s : State) : (s.settle).pending = s.pending := rfl
@[simp] theorem State.settle_now (s : State) : (s.settle).now = s.now := rfl
@[simp] theorem State.settle_acts (s : State) : (s.settle).acts = s.acts := rfl
@[simp] theorem State.settle_regs (s : State) : (s.settle).regs = s.regs := rfl
@[simp] theorem State.settle_tiles (s : State) : (s.settle).tiles = s.tiles := rfl
@[simp] theorem State.settle_bays (s : State) : (s.settle).bays = s.bays := rfl
@[simp] theorem State.settle_pier (s : State) : (s.settle).pier = s.pier := rfl
@[simp] theorem State.settle_out (s : State) : (s.settle).out = s.out := rfl

/-! ### What an update sets -/

@[simp] theorem State.onPier_eq (s : State) (f : Pier → Pier) : (s.onPier f).pier = f s.pier := rfl
@[simp] theorem State.emit_out_eq (s : State) (o : Out) : (s.emit o).out = s.out ++ [o] := rfl
@[simp] theorem State.answer_out_eq (s : State) (n : Nat) (st : Status) : (s.answer n st).out = s.out ++ [.answer n st] := rfl
/-- An action that consumes no staging entry leaves the Pier. -/
theorem State.answer_pier (s : State) (n : Nat) (st : Status) (h : s.acts.now.frees = []) : (s.answer n st).pier = s.pier := by
  simp [State.answer, State.answerFor, h]
@[simp] theorem State.settle_pins_eq (s : State) : s.settle.pins = s.pinsOf := rfl

/-! ### Tiles -/

/-- Reading the tile that was changed. -/
@[simp] theorem State.tile_onTile_self (s : State) (t : TileId) (f : Tile → Tile) : (s.onTile t f).tile t = f (s.tile t) := by
  simp [State.onTile, State.tile]

/-- Reading another tile. -/
theorem State.tile_onTile_ne (s : State) (t u : TileId) (f : Tile → Tile) (h : u ≠ t) : (s.onTile t f).tile u = s.tile u := by
  have h' : t.val ≠ u.val := fun e => h (Fin.ext e.symm)
  simp [State.onTile, State.tile, h']

@[simp] theorem State.tile_onVol_self (s : State) (t : TileId) (f : Vol → Vol) :
    (s.onVol t f).tile t = { s.tile t with vol := f (s.tile t).vol } := by simp [State.onVol]
@[simp] theorem State.tile_onPower_self (s : State) (t : TileId) (f : Power → Power) :
    (s.onPower t f).tile t = { s.tile t with power := f (s.tile t).power } := by simp [State.onPower]
@[simp] theorem State.tile_onMedia_self (s : State) (t : TileId) (f : Media → Media) :
    (s.onMedia t f).tile t = { s.tile t with media := f (s.tile t).media } := by simp [State.onMedia]
@[simp] theorem State.vol_onVol_self (s : State) (t : TileId) (f : Vol → Vol) : (s.onVol t f).vol t = f (s.vol t) := by simp [State.vol]
@[simp] theorem State.vol_onPower (s : State) (t u : TileId) (f : Power → Power) : (s.onPower t f).vol u = s.vol u := by
  by_cases h : u = t
  · subst h; simp [State.vol]
  · simp [State.vol, State.onPower, State.tile_onTile_ne _ _ _ _ h]
@[simp] theorem State.vol_onMedia (s : State) (t u : TileId) (f : Media → Media) : (s.onMedia t f).vol u = s.vol u := by
  by_cases h : u = t
  · subst h; simp [State.vol]
  · simp [State.vol, State.onMedia, State.tile_onTile_ne _ _ _ _ h]
@[simp] theorem State.vol_queueJob (s : State) (t u : TileId) (j : PageJob) : (s.queueJob t j).vol u = s.vol u := by simp [State.queueJob]

/-- A tile is read from the tiles alone. -/
theorem State.tile_congr {s x : State} (h : s.tiles = x.tiles) (t : TileId) : s.tile t = x.tile t := by simp [State.tile, h]
theorem State.vol_congr {s x : State} (h : s.tiles = x.tiles) (t : TileId) : s.vol t = x.vol t := by simp [State.vol, State.tile_congr h]

@[simp] theorem State.tile_wr (s : State) (e : Entry) (n v i : Nat) (u : TileId) : (s.wr e n v i).tile u = s.tile u := rfl
@[simp] theorem State.vol_wr (s : State) (e : Entry) (n v i : Nat) (u : TileId) : (s.wr e n v i).vol u = s.vol u := rfl
@[simp] theorem State.tile_wrB (s : State) (e : Entry) (n a : Nat) (b : Bytes) (i : Nat) (u : TileId) : (s.wrB e n a b i).tile u = s.tile u := rfl
@[simp] theorem State.vol_wrB (s : State) (e : Entry) (n a : Nat) (b : Bytes) (i : Nat) (u : TileId) : (s.wrB e n a b i).vol u = s.vol u := rfl
@[simp] theorem State.tile_clr (s : State) (e : Entry) (n i : Nat) (u : TileId) : (s.clr e n i).tile u = s.tile u := rfl
@[simp] theorem State.vol_clr (s : State) (e : Entry) (n i : Nat) (u : TileId) : (s.clr e n i).vol u = s.vol u := rfl
@[simp] theorem State.tile_wrI (s : State) (e : Entry) (n : Nat) (v : Int) (i : Nat) (u : TileId) : (s.wrI e n v i).tile u = s.tile u := rfl
@[simp] theorem State.vol_wrI (s : State) (e : Entry) (n : Nat) (v : Int) (i : Nat) (u : TileId) : (s.wrI e n v i).vol u = s.vol u := rfl
@[simp] theorem State.tile_wrBit (s : State) (e : Entry) (n k : Nat) (b : Bool) (u : TileId) : (s.wrBit e n k b).tile u = s.tile u := rfl
@[simp] theorem State.vol_wrBit (s : State) (e : Entry) (n k : Nat) (b : Bool) (u : TileId) : (s.wrBit e n k b).vol u = s.vol u := rfl
@[simp] theorem State.tile_bump (s : State) (e : Entry) (n i k : Nat) (u : TileId) : (s.bump e n i k).tile u = s.tile u := rfl
@[simp] theorem State.vol_bump (s : State) (e : Entry) (n i k : Nat) (u : TileId) : (s.bump e n i k).vol u = s.vol u := rfl
@[simp] theorem State.tile_onBay (s : State) (b : BayId) (f : Bay → Bay) (u : TileId) : (s.onBay b f).tile u = s.tile u := rfl
@[simp] theorem State.vol_onBay (s : State) (b : BayId) (f : Bay → Bay) (u : TileId) : (s.onBay b f).vol u = s.vol u := rfl
@[simp] theorem State.tile_setRole (s : State) (t : TileId) (r : Nat) (u : TileId) : (s.setRole t r).tile u = s.tile u := rfl
@[simp] theorem State.vol_setRole (s : State) (t : TileId) (r : Nat) (u : TileId) : (s.setRole t r).vol u = s.vol u := rfl
@[simp] theorem State.tile_setOwn (s : State) (t : TileId) (v : Bool) (u : TileId) : (s.setOwn t v).tile u = s.tile u := rfl
@[simp] theorem State.vol_setOwn (s : State) (t : TileId) (v : Bool) (u : TileId) : (s.setOwn t v).vol u = s.vol u := rfl
@[simp] theorem State.tile_onPier (s : State) (f : Pier → Pier) (u : TileId) : (s.onPier f).tile u = s.tile u := rfl
@[simp] theorem State.vol_onPier (s : State) (f : Pier → Pier) (u : TileId) : (s.onPier f).vol u = s.vol u := rfl
@[simp] theorem State.tile_emit (s : State) (o : Out) (u : TileId) : (s.emit o).tile u = s.tile u := rfl
@[simp] theorem State.vol_emit (s : State) (o : Out) (u : TileId) : (s.emit o).vol u = s.vol u := rfl
@[simp] theorem State.tile_answer (s : State) (n : Nat) (st : Status) (u : TileId) : (s.answer n st).tile u = s.tile u := rfl
@[simp] theorem State.vol_answer (s : State) (n : Nat) (st : Status) (u : TileId) : (s.answer n st).vol u = s.vol u := rfl
@[simp] theorem State.tile_settle (s : State) (u : TileId) : (s.settle).tile u = s.tile u := rfl
@[simp] theorem State.vol_settle (s : State) (u : TileId) : (s.settle).vol u = s.vol u := rfl

/-! ### Bays and roles -/

/-- Reading the bay that was changed. -/
@[simp] theorem State.bay_onBay_self (s : State) (b : BayId) (f : Bay → Bay) : (s.onBay b f).bay b = f (s.bay b) := by
  simp [State.onBay, State.bay]

/-- Reading another bay. -/
theorem State.bay_onBay_ne (s : State) (b c : BayId) (f : Bay → Bay) (h : c ≠ b) : (s.onBay b f).bay c = s.bay c := by
  have h' : b.val ≠ c.val := fun e => h (Fin.ext e.symm)
  simp [State.onBay, State.bay, h']

@[simp] theorem State.bay_wr (s : State) (e : Entry) (n v i : Nat) (c : BayId) : (s.wr e n v i).bay c = s.bay c := rfl
@[simp] theorem State.bay_wrB (s : State) (e : Entry) (n a : Nat) (b : Bytes) (i : Nat) (c : BayId) : (s.wrB e n a b i).bay c = s.bay c := rfl
@[simp] theorem State.bay_clr (s : State) (e : Entry) (n i : Nat) (c : BayId) : (s.clr e n i).bay c = s.bay c := rfl
@[simp] theorem State.bay_wrI (s : State) (e : Entry) (n : Nat) (v : Int) (i : Nat) (c : BayId) : (s.wrI e n v i).bay c = s.bay c := rfl
@[simp] theorem State.bay_wrBit (s : State) (e : Entry) (n k : Nat) (b : Bool) (c : BayId) : (s.wrBit e n k b).bay c = s.bay c := rfl
@[simp] theorem State.bay_bump (s : State) (e : Entry) (n i k : Nat) (c : BayId) : (s.bump e n i k).bay c = s.bay c := rfl
@[simp] theorem State.bay_onTile (s : State) (t : TileId) (f : Tile → Tile) (c : BayId) : (s.onTile t f).bay c = s.bay c := rfl
@[simp] theorem State.bay_onVol (s : State) (t : TileId) (f : Vol → Vol) (c : BayId) : (s.onVol t f).bay c = s.bay c := rfl
@[simp] theorem State.bay_onPower (s : State) (t : TileId) (f : Power → Power) (c : BayId) : (s.onPower t f).bay c = s.bay c := rfl
@[simp] theorem State.bay_onMedia (s : State) (t : TileId) (f : Media → Media) (c : BayId) : (s.onMedia t f).bay c = s.bay c := rfl
@[simp] theorem State.bay_queueJob (s : State) (t : TileId) (j : PageJob) (c : BayId) : (s.queueJob t j).bay c = s.bay c := rfl
@[simp] theorem State.bay_setQueue (s : State) (t : TileId) (code : Fin 7) (q : PPQ QItem) (c : BayId) : (s.setQueue t code q).bay c = s.bay c := rfl
@[simp] theorem State.bay_onPier (s : State) (f : Pier → Pier) (c : BayId) : (s.onPier f).bay c = s.bay c := rfl
@[simp] theorem State.bay_emit (s : State) (o : Out) (c : BayId) : (s.emit o).bay c = s.bay c := rfl
@[simp] theorem State.bay_answer (s : State) (n : Nat) (st : Status) (c : BayId) : (s.answer n st).bay c = s.bay c := rfl
@[simp] theorem State.bay_settle (s : State) (c : BayId) : (s.settle).bay c = s.bay c := rfl

/-! ### Values of the dictionary are read from `regs` alone -/

@[simp] theorem State.rd_onTile (s : State) (t : TileId) (f : Tile → Tile) (d : Entry) (m k : Nat) : (s.onTile t f).rd d m k = s.rd d m k := rfl
@[simp] theorem State.rdB_onTile (s : State) (t : TileId) (f : Tile → Tile) (d : Entry) (m x l k : Nat) : (s.onTile t f).rdB d m x l k = s.rdB d m x l k := rfl
@[simp] theorem State.rd_onVol (s : State) (t : TileId) (f : Vol → Vol) (d : Entry) (m k : Nat) : (s.onVol t f).rd d m k = s.rd d m k := rfl
@[simp] theorem State.rdB_onVol (s : State) (t : TileId) (f : Vol → Vol) (d : Entry) (m x l k : Nat) : (s.onVol t f).rdB d m x l k = s.rdB d m x l k := rfl
@[simp] theorem State.rd_onPower (s : State) (t : TileId) (f : Power → Power) (d : Entry) (m k : Nat) : (s.onPower t f).rd d m k = s.rd d m k := rfl
@[simp] theorem State.rdB_onPower (s : State) (t : TileId) (f : Power → Power) (d : Entry) (m x l k : Nat) : (s.onPower t f).rdB d m x l k = s.rdB d m x l k := rfl
@[simp] theorem State.rd_onMedia (s : State) (t : TileId) (f : Media → Media) (d : Entry) (m k : Nat) : (s.onMedia t f).rd d m k = s.rd d m k := rfl
@[simp] theorem State.rdB_onMedia (s : State) (t : TileId) (f : Media → Media) (d : Entry) (m x l k : Nat) : (s.onMedia t f).rdB d m x l k = s.rdB d m x l k := rfl
@[simp] theorem State.rd_queueJob (s : State) (t : TileId) (j : PageJob) (d : Entry) (m k : Nat) : (s.queueJob t j).rd d m k = s.rd d m k := rfl
@[simp] theorem State.rdB_queueJob (s : State) (t : TileId) (j : PageJob) (d : Entry) (m x l k : Nat) : (s.queueJob t j).rdB d m x l k = s.rdB d m x l k := rfl
@[simp] theorem State.rd_setQueue (s : State) (t : TileId) (code : Fin 7) (q : PPQ QItem) (d : Entry) (m k : Nat) : (s.setQueue t code q).rd d m k = s.rd d m k := rfl
@[simp] theorem State.rdB_setQueue (s : State) (t : TileId) (code : Fin 7) (q : PPQ QItem) (d : Entry) (m x l k : Nat) : (s.setQueue t code q).rdB d m x l k = s.rdB d m x l k := rfl
@[simp] theorem State.rd_onBay (s : State) (b : BayId) (f : Bay → Bay) (d : Entry) (m k : Nat) : (s.onBay b f).rd d m k = s.rd d m k := rfl
@[simp] theorem State.rdB_onBay (s : State) (b : BayId) (f : Bay → Bay) (d : Entry) (m x l k : Nat) : (s.onBay b f).rdB d m x l k = s.rdB d m x l k := rfl
@[simp] theorem State.rd_setRole (s : State) (t : TileId) (r : Nat) (d : Entry) (m k : Nat) : (s.setRole t r).rd d m k = s.rd d m k := rfl
@[simp] theorem State.rdB_setRole (s : State) (t : TileId) (r : Nat) (d : Entry) (m x l k : Nat) : (s.setRole t r).rdB d m x l k = s.rdB d m x l k := rfl
@[simp] theorem State.rd_setOwn (s : State) (t : TileId) (v : Bool) (d : Entry) (m k : Nat) : (s.setOwn t v).rd d m k = s.rd d m k := rfl
@[simp] theorem State.rdB_setOwn (s : State) (t : TileId) (v : Bool) (d : Entry) (m x l k : Nat) : (s.setOwn t v).rdB d m x l k = s.rdB d m x l k := rfl
@[simp] theorem State.rd_onPier (s : State) (f : Pier → Pier) (d : Entry) (m k : Nat) : (s.onPier f).rd d m k = s.rd d m k := rfl
@[simp] theorem State.rdB_onPier (s : State) (f : Pier → Pier) (d : Entry) (m x l k : Nat) : (s.onPier f).rdB d m x l k = s.rdB d m x l k := rfl
@[simp] theorem State.rd_emit (s : State) (o : Out) (d : Entry) (m k : Nat) : (s.emit o).rd d m k = s.rd d m k := rfl
@[simp] theorem State.rdB_emit (s : State) (o : Out) (d : Entry) (m x l k : Nat) : (s.emit o).rdB d m x l k = s.rdB d m x l k := rfl
@[simp] theorem State.rd_answer (s : State) (n : Nat) (st : Status) (d : Entry) (m k : Nat) : (s.answer n st).rd d m k = s.rd d m k := rfl
@[simp] theorem State.rdB_answer (s : State) (n : Nat) (st : Status) (d : Entry) (m x l k : Nat) : (s.answer n st).rdB d m x l k = s.rdB d m x l k := rfl
@[simp] theorem State.rd_settle (s : State) (d : Entry) (m k : Nat) : (s.settle).rd d m k = s.rd d m k := rfl
@[simp] theorem State.rdB_settle (s : State) (d : Entry) (m x l k : Nat) : (s.settle).rdB d m x l k = s.rdB d m x l k := rfl

end Sys2Proof.Machine
end

