-- ==== Sys2Proof/Laws/Table.lean ====
section
/-! SUPPORT. Laws/Table.lean: the sorted tables and the byte buffers: reading after writing, and the canonical form that every write keeps. -/

namespace Sys2Proof.Machine

/-- Reading the key that was set. -/
@[simp] theorem Tbl.get_put_self {α : Type} (m : Tbl α) (j : Nat) (w : α) : Tbl.get (Tbl.put m j w) j = some w := by
  induction m with
  | nil => simp [Tbl.put, Tbl.get]
  | cons e r ih =>
    obtain ⟨k, v⟩ := e
    unfold Tbl.put
    split
    · simp [Tbl.get]
    · split
      · simp [Tbl.get]
      · have : k ≠ j := fun e => by omega
        simp [Tbl.get, this, ih]

/-- Reading another key. -/
theorem Tbl.get_put_ne {α : Type} (m : Tbl α) {j k : Nat} (w : α) (h : k ≠ j) : Tbl.get (Tbl.put m j w) k = Tbl.get m k := by
  induction m with
  | nil => simp [Tbl.put, Tbl.get, Ne.symm h]
  | cons e r ih =>
    obtain ⟨a, v⟩ := e
    unfold Tbl.put
    split
    · simp [Tbl.get, Ne.symm h]
    · split
      · subst_vars; simp [Tbl.get, Ne.symm h]
      · simp only [Tbl.get, ih]

/-- A removed key is not listed. -/
@[simp] theorem Tbl.get_del_self {α : Type} (m : Tbl α) (j : Nat) : Tbl.get (Tbl.del m j) j = none := by
  induction m with
  | nil => rfl
  | cons e r ih =>
    obtain ⟨k, v⟩ := e
    by_cases h : k = j
    · simp [Tbl.del, h, ih]
    · simp [Tbl.del, Tbl.get, h, ih]

/-- Removing leaves the other keys. -/
theorem Tbl.get_del_ne {α : Type} (m : Tbl α) {j k : Nat} (h : k ≠ j) : Tbl.get (Tbl.del m j) k = Tbl.get m k := by
  induction m with
  | nil => rfl
  | cons e r ih =>
    obtain ⟨a, v⟩ := e
    by_cases ha : a = j
    · have : a ≠ k := fun e => h (by omega)
      simp [Tbl.del, Tbl.get, ha, ih]
      intro hk; exact absurd hk.symm h
    · simp [Tbl.del, Tbl.get, ha, ih]

/-- The keys of a table after setting one. -/
theorem Tbl.mem_put {α : Type} (m : Tbl α) (j : Nat) (w : α) {e : Nat × α} (h : e ∈ Tbl.put m j w) : e = (j, w) ∨ e ∈ m := by
  induction m with
  | nil => simpa [Tbl.put] using h
  | cons x r ih =>
    obtain ⟨k, v⟩ := x
    unfold Tbl.put at h
    split at h
    · simpa using h
    · split at h
      · simp only [List.mem_cons] at h ⊢; tauto
      · simp only [List.mem_cons] at h ⊢
        rcases h with h | h
        · tauto
        · rcases ih h with h | h <;> tauto

theorem Tbl.mem_del {α : Type} (m : Tbl α) (j : Nat) {e : Nat × α} (h : e ∈ Tbl.del m j) : e ∈ m ∧ e.1 ≠ j := by
  induction m with
  | nil => simp [Tbl.del] at h
  | cons x r ih =>
    obtain ⟨k, v⟩ := x
    by_cases hk : k = j
    · simp only [Tbl.del, hk, if_true] at h
      exact ⟨List.mem_cons_of_mem _ (ih h).1, (ih h).2⟩
    · simp only [Tbl.del, hk, if_false, List.mem_cons] at h
      rcases h with h | h
      · subst h; exact ⟨List.mem_cons_self, hk⟩
      · exact ⟨List.mem_cons_of_mem _ (ih h).1, (ih h).2⟩

/-- Setting a key keeps the keys strictly rising. -/
theorem Tbl.sorted_put {α : Type} (m : Tbl α) (j : Nat) (w : α) (h : Tbl.sorted m = true) : Tbl.sorted (Tbl.put m j w) = true := by
  simp only [Tbl.sorted, decide_eq_true_eq] at h ⊢
  induction m with
  | nil => simp [Tbl.put]
  | cons x r ih =>
    obtain ⟨k, v⟩ := x
    rw [List.pairwise_cons] at h
    unfold Tbl.put
    split
    · rename_i hj
      refine List.pairwise_cons.mpr ⟨?_, List.pairwise_cons.mpr h⟩
      intro e he
      rcases List.mem_cons.mp he with he | he
      · subst he; exact hj
      · have := h.1 e he; simp at this ⊢; omega
    · split
      · refine List.pairwise_cons.mpr ⟨?_, h.2⟩
        intro e he
        have := h.1 e he; simp at this ⊢; omega
      · refine List.pairwise_cons.mpr ⟨?_, ih h.2⟩
        intro e he
        rcases Tbl.mem_put _ _ _ he with he | he
        · subst he; simp; omega
        · exact h.1 e he

/-- Removing a key keeps the keys strictly rising. -/
theorem Tbl.sorted_del {α : Type} (m : Tbl α) (j : Nat) (h : Tbl.sorted m = true) : Tbl.sorted (Tbl.del m j) = true := by
  simp only [Tbl.sorted, decide_eq_true_eq] at h ⊢
  induction m with
  | nil => simp [Tbl.del]
  | cons x r ih =>
    obtain ⟨k, v⟩ := x
    rw [List.pairwise_cons] at h
    by_cases hk : k = j
    · simpa [Tbl.del, hk] using ih h.2
    · simp only [Tbl.del, hk, if_false]
      exact List.pairwise_cons.mpr ⟨fun e he => h.1 e (Tbl.mem_del _ _ he).1, ih h.2⟩

/-! ### Byte buffers -/

/-- Reading the byte that was written. -/
@[simp] theorem Cells.read_write_self (d : Nat → Byte) (m : Cells) (a : Nat) (b : Byte) : Cells.read d (Cells.write d m a b) a = b := by
  unfold Cells.write Cells.read
  split
  · simp_all
  · simp

/-- Reading another byte. -/
theorem Cells.read_write_ne (d : Nat → Byte) (m : Cells) {a c : Nat} (b : Byte) (h : c ≠ a) :
    Cells.read d (Cells.write d m a b) c = Cells.read d m c := by
  unfold Cells.write Cells.read
  split
  · simp [Tbl.get_del_ne _ h]
  · simp [Tbl.get_put_ne _ _ h]

/-- A write keeps the canonical form. -/
theorem Cells.wf_write (d : Nat → Byte) (m : Cells) (a : Nat) (b : Byte) (h : Cells.wf d m = true) : Cells.wf d (Cells.write d m a b) = true := by
  simp only [Cells.wf, Bool.and_eq_true, List.all_eq_true, bne_iff_ne] at h ⊢
  unfold Cells.write
  split
  · exact ⟨Tbl.sorted_del _ _ h.1, fun e he => h.2 e (Tbl.mem_del _ _ he).1⟩
  · refine ⟨Tbl.sorted_put _ _ _ h.1, fun e he => ?_⟩
    rcases Tbl.mem_put _ _ _ he with he | he
    · subst he; assumption
    · exact h.2 e he

/-- A run of writes keeps the canonical form. -/
theorem Cells.wf_writeAll (d : Nat → Byte) (m : Cells) (a : Nat) (l : Bytes) (h : Cells.wf d m = true) : Cells.wf d (Cells.writeAll d m a l) = true := by
  induction l generalizing m a with
  | nil => simpa [Cells.writeAll]
  | cons b r ih => simpa [Cells.writeAll] using ih _ _ (Cells.wf_write d m a b h)

/-- A run of writes leaves every byte outside it. -/
theorem Cells.read_writeAll_out (d : Nat → Byte) (m : Cells) (a c : Nat) (l : Bytes) (h : c < a ∨ a + l.length ≤ c) :
    Cells.read d (Cells.writeAll d m a l) c = Cells.read d m c := by
  induction l generalizing m a with
  | nil => rfl
  | cons b r ih =>
    simp only [List.length_cons] at h
    rw [Cells.writeAll, ih _ _ (by omega), Cells.read_write_ne _ _ _ (by omega)]

/-- A run of writes sets every byte of it. -/
theorem Cells.read_writeAll_in (d : Nat → Byte) (m : Cells) (a k : Nat) (l : Bytes) (h : k < l.length) :
    Cells.read d (Cells.writeAll d m a l) (a + k) = l.getD k 0 := by
  induction l generalizing m a k with
  | nil => simp at h
  | cons b r ih =>
    rw [Cells.writeAll]
    cases k with
    | zero => rw [Cells.read_writeAll_out _ _ _ _ _ (by omega)]; simp
    | succ k =>
      have e : a + (k + 1) = a + 1 + k := by omega
      rw [e, ih _ _ _ (by simpa using h)]; simp

end Sys2Proof.Machine
end

