-- ==== Sys2Proof/Laws/Regs.lean ====
section
/-! SUPPORT. Laws/Regs.lean: reading a dictionary value after writing one, and the canonical form of the table of values. -/

namespace Sys2Proof.Machine

/-- A number read where it was written is the number, cut to the entry's size. -/
@[simp] theorem State.rd_wr_self (s : State) (e : Entry) (n v i : Nat) : (s.wr e n v i).rd e n i = v % e.span := by
  unfold State.wr State.rd
  by_cases h : v % e.span = e.dflt.numAt i <;> simp [h]

/-- A write leaves the values under other keys. -/
theorem State.rd_wr_ne (s : State) (e d : Entry) (n m v i j : Nat) (h : d.key m j ≠ e.key n i) : (s.wr e n v i).rd d m j = s.rd d m j := by
  unfold State.wr State.rd
  by_cases hv : v % e.span = e.dflt.numAt i
  · simp only [hv, if_true]; rw [Tbl.get_del_ne _ h]
  · simp only [hv, if_false]; rw [Tbl.get_put_ne _ _ h]

/-- Writing bytes leaves the numbers under other keys. -/
theorem State.rd_wrB_ne (s : State) (e d : Entry) (n m a i j : Nat) (b : Bytes) (h : d.key m j ≠ e.key n i) : (s.wrB e n a b i).rd d m j = s.rd d m j := by
  unfold State.wrB State.rd
  by_cases hc : Cells.writeAll (e.dflt.byteAt i) (s.cells e n i) a b = []
  · simp only [hc, if_true, Tbl.get_del_ne _ h]
  · simp only [hc, if_false, Tbl.get_put_ne _ _ h]

/-- What a counter reads after it has counted. -/
theorem State.rd_bump_self (s : State) (e : Entry) (n i k : Nat) :
    (s.bump e n i k).rd e n i = (if e.size = 8 then s.rd e n i + k else min (s.rd e n i + k) (e.span - 1)) % e.span := by
  simp [State.bump]

/-- Counting leaves the values under other keys. -/
theorem State.rd_bump_ne (s : State) (e d : Entry) (n m i j k : Nat) (h : d.key m j ≠ e.key n i) : (s.bump e n i k).rd d m j = s.rd d m j := by
  simp [State.bump, State.rd_wr_ne _ _ _ _ _ _ _ _ h]

/-- A saturating counter below its largest value counts on. -/
theorem State.rd_bump_lt (s : State) (e : Entry) (n i : Nat) (h : s.rd e n i + 1 < e.span) : (s.bump e n i).rd e n i = s.rd e n i + 1 := by
  rw [State.rd_bump_self]
  split
  · exact Nat.mod_eq_of_lt h
  · rw [Nat.min_eq_left (by omega), Nat.mod_eq_of_lt h]

/-- Writing keeps the table of values in its canonical form. -/
theorem State.sorted_wr (s : State) (e : Entry) (n v i : Nat) (h : Tbl.sorted s.regs = true) : Tbl.sorted (s.wr e n v i).regs = true := by
  unfold State.wr
  by_cases hv : v % e.span = e.dflt.numAt i
  · simpa [hv] using Tbl.sorted_del _ _ h
  · simpa [hv] using Tbl.sorted_put _ _ _ h

theorem State.sorted_wrB (s : State) (e : Entry) (n a i : Nat) (b : Bytes) (h : Tbl.sorted s.regs = true) : Tbl.sorted (s.wrB e n a b i).regs = true := by
  unfold State.wrB
  dsimp only
  split
  · exact Tbl.sorted_del _ _ h
  · exact Tbl.sorted_put _ _ _ h

theorem State.sorted_bump (s : State) (e : Entry) (n i k : Nat) (h : Tbl.sorted s.regs = true) : Tbl.sorted (s.bump e n i k).regs = true :=
  State.sorted_wr _ _ _ _ _ h

end Sys2Proof.Machine
end

