-- ==== Sys2Proof/Laws/Finish.lean ====
section
/-! SUPPORT. Laws/Finish.lean: what stands around the effect of every command: the queue and the clock count stay, changed settings go to the NAND queues, the
gates are formed anew; nothing else changes. -/

namespace Sys2Proof.Machine

/-- Every command answers a next state. -/
theorem finish_eq (f : State → State) (s : State) : finish f s = .next (s.done (f s)) := rfl

/-- What every step of a fold keeps, the fold keeps. -/
theorem State.each_keeps {α β : Type} (g : State → β) (l : List α) (f : State → α → State) (s : State) (h : ∀ x a, g (f x a) = g x) :
    g (s.each l f) = g s := by
  unfold State.each
  induction l generalizing s with
  | nil => rfl
  | cons a r ih => rw [List.foldl_cons, ih, h]

/-- Counting writes to the Pier store changes that counter alone. -/
theorem countStore_keeps {β : Type} (g : State → β) (h : ∀ x e n i k, g (State.bump x e n i k) = g x) (s : State) (l : List Nat) : g (countStore s l) = g s := by
  unfold countStore
  dsimp only
  split
  · rfl
  · exact h _ _ _ _ _

/-- What queueing a page leaves, queueing the pages of changed settings leaves. -/
theorem queueValues_keeps {β : Type} (g : State → β) (hq : ∀ x t j, g (State.queueJob x t j) = g x) (s : State) (t : TileId) (l : List (Nat × Option Val)) :
    g (s.queueValues t l) = g s := by
  unfold State.queueValues
  dsimp only
  split <;> split <;> simp only [hq]

/-- What counting and queueing pages leave, `persist` leaves. -/
theorem persist_keeps {β : Type} (g : State → β) (hb : ∀ x e n i k, g (State.bump x e n i k) = g x) (hq : ∀ x t j, g (State.queueJob x t j) = g x) (o s : State) :
    g (persist o s) = g s := by
  unfold persist
  split
  · rfl
  · dsimp only
    rw [State.each_keeps g]
    · split
      · exact countStore_keeps g hb _ _
      · rfl
    · exact fun x t => queueValues_keeps g hq x t _

@[simp] theorem State.done_pending (s x : State) : (s.done x).pending = s.pending := persist_keeps State.pending (fun _ _ _ _ _ => rfl) (fun _ _ _ => rfl) _ _
@[simp] theorem State.done_now (s x : State) : (s.done x).now = s.now := persist_keeps State.now (fun _ _ _ _ _ => rfl) (fun _ _ _ => rfl) _ _
@[simp] theorem State.done_out (s x : State) : (s.done x).out = x.out := persist_keeps State.out (fun _ _ _ _ _ => rfl) (fun _ _ _ => rfl) _ _
@[simp] theorem State.done_pier (s x : State) : (s.done x).pier = x.pier := persist_keeps State.pier (fun _ _ _ _ _ => rfl) (fun _ _ _ => rfl) _ _
@[simp] theorem State.done_bays (s x : State) : (s.done x).bays = x.bays := persist_keeps State.bays (fun _ _ _ _ _ => rfl) (fun _ _ _ => rfl) _ _
@[simp] theorem State.done_bay (s x : State) (b : BayId) : (s.done x).bay b = x.bay b := by simp [State.bay]
@[simp] theorem State.done_role (s x : State) (t : TileId) : (s.done x).role t = x.role t := by simp [State.role]
@[simp] theorem State.done_owns (s x : State) (t : TileId) : (s.done x).owns t = x.owns t := by simp [State.owns]

/-- A part of a tile other than its media. -/
theorem queueJob_tile {β : Type} (g : Tile → β) (hg : ∀ (x : Tile) m, g { x with media := m } = g x) (s : State) (t u : TileId) (j : PageJob) :
    g ((s.queueJob t j).tile u) = g (s.tile u) := by
  by_cases h : u = t
  · subst h; simp [State.queueJob, hg]
  · simp [State.queueJob, State.onMedia, State.tile_onTile_ne _ _ _ _ h]

theorem State.done_tile {β : Type} (g : Tile → β) (hg : ∀ (x : Tile) m, g { x with media := m } = g x) (s x : State) (t : TileId) :
    g ((s.done x).tile t) = g (x.tile t) :=
  (persist_keeps (fun y : State => g (y.tile t)) (fun _ _ _ _ _ => rfl) (fun _ _ _ => queueJob_tile g hg _ _ _ _) s { x with pending := s.pending, now := s.now })

@[simp] theorem State.done_vol (s x : State) (t : TileId) : (s.done x).vol t = x.vol t := State.done_tile Tile.vol (fun _ _ => rfl) s x t
@[simp] theorem State.done_power (s x : State) (t : TileId) : ((s.done x).tile t).power = (x.tile t).power := State.done_tile Tile.power (fun _ _ => rfl) s x t
@[simp] theorem State.done_legal (s x : State) (t : TileId) : ((s.done x).tile t).legal = (x.tile t).legal := State.done_tile Tile.legal (fun _ _ => rfl) s x t
@[simp] theorem State.done_code (s x : State) (t : TileId) : ((s.done x).tile t).code = (x.tile t).code := State.done_tile Tile.code (fun _ _ => rfl) s x t
@[simp] theorem State.done_page0 (s x : State) (t : TileId) : ((s.done x).tile t).page0 = (x.tile t).page0 := State.done_tile Tile.page0 (fun _ _ => rfl) s x t
@[simp] theorem State.done_vanaOk (s x : State) (t : TileId) : ((s.done x).tile t).vanaOk = (x.tile t).vanaOk := State.done_tile Tile.vanaOk (fun _ _ => rfl) s x t
@[simp] theorem State.done_retired (s x : State) (t : TileId) : ((s.done x).tile t).retired = (x.tile t).retired := State.done_tile Tile.retired (fun _ _ => rfl) s x t
@[simp] theorem State.done_queue (s x : State) (t : TileId) (c : Fin 7) : (s.done x).queue t c = x.queue t c := by simp [State.queue]
@[simp] theorem State.done_inRun (s x : State) (t : TileId) : (s.done x).inRun t = x.inRun t := by simp [State.inRun]

/-- Values of the dictionary, but for the counter of writes to the Pier store. -/
theorem State.done_rd (s x : State) (e : Entry) (n i : Nat) (h : e.key n i ≠ Reg.device_config_writes.key 0 0) : (s.done x).rd e n i = x.rd e n i := by
  refine (?_ : (persist s { x with pending := s.pending, now := s.now }).rd e n i = _)
  unfold persist
  split
  · rfl
  · dsimp only
    rw [State.each_keeps (fun y => y.rd e n i)]
    · split
      · unfold countStore
        dsimp only
        split
        · rfl
        · exact State.rd_bump_ne _ _ _ _ _ _ _ _ h
      · rfl
    · exact fun y t => queueValues_keeps (fun y => y.rd e n i) (fun _ _ _ => rfl) y t _

/-- The gates are formed from what they gate, never from their own levels. -/
theorem State.pinsOf_settle (s : State) : s.settle.pinsOf = s.pinsOf := rfl

theorem State.done_pins (s x : State) : (s.done x).pins = (s.done x).pinsOf := rfl

/-- Every command is an effect with `finish` around it. -/
theorem exec_finish (c : Instr) : ∃ f, ∀ s, exec c s = finish f s := by
  cases c
  case fetch r => cases r <;> exact ⟨_, fun _ => rfl⟩
  case ackDiscard r => cases r <;> exact ⟨_, fun _ => rfl⟩
  all_goals exact ⟨_, fun _ => rfl⟩

/-- Every command answers a next state that is its effect with `finish` around it. -/
theorem exec_done (c : Instr) (s : State) : ∃ x, exec c s = .next (s.done x) := by
  obtain ⟨f, hf⟩ := exec_finish c
  exact ⟨f s, by rw [hf]; rfl⟩

end Sys2Proof.Machine
end

