-- ==== Sys2Proof/Laws/Shared.lean ====
section
/-! SUPPORT. Laws/Shared.lean: what the shared operations (ping-pong queues, events, the mirror stream, the service level) leave, said once. -/

namespace Sys2Proof.Machine

/-! ### Keys of the dictionary -/

/-- Place of a sub-index inside its unit's block. -/
def Entry.place (e : Entry) (i : Nat) : Nat := e.off * 256 + e.sub + i

/-- Equal places of one block. -/
theorem Nat.same_block (u a b c x y z : Nat) (h : (u + a) * 256 + b + c = (u + x) * 256 + y + z) : a * 256 + b + c = x * 256 + y + z := by linarith

/-- Two places of one unit. -/
theorem Entry.key_ne_place (d e : Entry) (n i j : Nat) (ha : d.area = e.area) (h : d.place j ≠ e.place i) : d.key n j ≠ e.key n i := by
  unfold Entry.key Entry.index
  unfold Entry.place at h
  rw [ha]
  intro k
  apply h
  cases hx : e.area <;> simp only [hx] at k
  · exact k
  · exact Nat.same_block _ _ _ _ _ _ _ k
  · exact Nat.same_block _ _ _ _ _ _ _ k

/-- One place of two units. -/
theorem Entry.key_ne_unit (d e : Entry) (m n i j : Nat) (ha : d.area = e.area) (hd : e.area ≠ .dev) (hp : d.place j = e.place i) (h : m ≠ n) :
    d.key m j ≠ e.key n i := by
  unfold Entry.key Entry.index
  unfold Entry.place at hp
  rw [ha]
  cases hx : e.area <;> simp only [hx] at hd ⊢ <;> first | (exact absurd rfl hd) | omega

/-- A place of the device and one of a tile. -/
theorem Entry.key_ne_tile_dev (d e : Entry) (m n i j : Nat) (hd : d.area = .tile) (he : e.area = .dev) (h : e.place i < 0x2000 * 256) : d.key m j ≠ e.key n i := by
  unfold Entry.key Entry.index
  unfold Entry.place at h
  rw [hd, he]
  simp only; omega

/-- A place of the device and one of a bay. -/
theorem Entry.key_ne_bay_dev (d e : Entry) (m n i j : Nat) (hd : d.area = .bay) (he : e.area = .dev) (h : e.place i < 0x2000 * 256) : d.key m j ≠ e.key n i := by
  unfold Entry.key Entry.index
  unfold Entry.place at h
  rw [hd, he]
  simp only; omega

/-- A place of a bay and one of a tile. -/
theorem Entry.key_ne_tile_bay (d e : Entry) (m n i j : Nat) (hd : d.area = .tile) (he : e.area = .bay) (hn : n < 8) (h : e.place i < 0x100 * 256) :
    d.key m j ≠ e.key n i := by
  unfold Entry.key Entry.index
  unfold Entry.place at h
  rw [hd, he]
  simp only; omega

/-- Values that no shared operation counts in: not LOST, the reset counters, the Pier's lost events or the count of writes to its store. -/
def Entry.quiet (d : Entry) (j : Nat) : Bool :=
  match d.area with
  | .tile => decide (d.place j < 0x400 * 256) && !(decide (Reg.queue_lost.place 0 ≤ d.place j) && decide (d.place j < Reg.queue_lost.place 7)) &&
      !(decide (Reg.queue_resets.place 0 ≤ d.place j) && decide (d.place j < Reg.queue_resets.place 7))
  | .bay => decide (d.place j < 0x100 * 256)
  | .dev => decide (d.place j < 0x2000 * 256) && decide (d.place j ≠ Reg.device_events_queue_lost.place 0) &&
      decide (d.place j ≠ Reg.device_config_writes.place 0)

theorem Entry.quiet_lost (d : Entry) (m j : Nat) (t : TileId) (c : Fin 7) (h : d.quiet j = true) (hb : d.area = .bay → m < 8) : d.key m j ≠ Reg.queue_lost.key t c := by
  have ht := t.isLt
  unfold Entry.key Entry.index
  unfold Entry.quiet Entry.place Reg.queue_lost Reg.queue_resets at h
  have hc := c.isLt
  cases hx : d.area <;> simp only [hx, Bool.and_eq_true, decide_eq_true_eq, Bool.not_eq_true', Bool.and_eq_false_iff, decide_eq_false_iff_not] at h hb <;>
    simp only [Reg.queue_lost] <;> first | omega | (have := hb trivial; omega)

theorem Entry.quiet_resets (d : Entry) (m j : Nat) (t : TileId) (c : Fin 7) (h : d.quiet j = true) (hb : d.area = .bay → m < 8) : d.key m j ≠ Reg.queue_resets.key t c := by
  have ht := t.isLt
  unfold Entry.key Entry.index
  unfold Entry.quiet Entry.place Reg.queue_lost Reg.queue_resets at h
  have hc := c.isLt
  cases hx : d.area <;> simp only [hx, Bool.and_eq_true, decide_eq_true_eq, Bool.not_eq_true', Bool.and_eq_false_iff, decide_eq_false_iff_not] at h hb <;>
    simp only [Reg.queue_resets] <;> first | omega | (have := hb trivial; omega)

theorem Entry.quiet_pierLost (d : Entry) (m j : Nat) (h : d.quiet j = true) : d.key m j ≠ Reg.device_events_queue_lost.key 0 0 := by
  unfold Entry.key Entry.index
  unfold Entry.quiet Entry.place Reg.device_events_queue_lost at h
  cases hx : d.area <;> simp only [hx, Bool.and_eq_true, decide_eq_true_eq] at h <;> simp only [Reg.device_events_queue_lost] <;> omega

theorem Entry.quiet_writes (d : Entry) (m j : Nat) (h : d.quiet j = true) : d.key m j ≠ Reg.device_config_writes.key 0 0 := by
  unfold Entry.key Entry.index
  unfold Entry.quiet Entry.place Reg.device_config_writes at h
  cases hx : d.area <;> simp only [hx, Bool.and_eq_true, decide_eq_true_eq] at h <;> simp only [Reg.device_config_writes] <;> omega

/-! ### Reading after other writes -/

theorem State.rd_wrI_ne (s : State) (e d : Entry) (n m i j : Nat) (v : Int) (h : d.key m j ≠ e.key n i) : (s.wrI e n v i).rd d m j = s.rd d m j :=
  State.rd_wr_ne _ _ _ _ _ _ _ _ h
theorem State.rd_wrBit_ne (s : State) (e d : Entry) (n m k j : Nat) (b : Bool) (h : d.key m j ≠ e.key n 0) : (s.wrBit e n k b).rd d m j = s.rd d m j :=
  State.rd_wr_ne _ _ _ _ _ _ _ _ h
theorem State.rd_clr_ne (s : State) (e d : Entry) (n m i j : Nat) (h : d.key m j ≠ e.key n i) : (s.clr e n i).rd d m j = s.rd d m j := by
  unfold State.clr State.rd
  simp only
  rw [Tbl.get_del_ne _ h]
/-- A cleared value reads as its default. -/
@[simp] theorem State.rd_clr_self (s : State) (e : Entry) (n i : Nat) : (s.clr e n i).rd e n i = e.dflt.numAt i := by
  unfold State.clr State.rd
  simp

/-- What one key of the table holds after a write under another key. -/
theorem State.get_wr_ne (s : State) (e : Entry) (n v i k : Nat) (h : k ≠ e.key n i) : Tbl.get (s.wr e n v i).regs k = Tbl.get s.regs k := by
  unfold State.wr
  by_cases hv : v % e.span = e.dflt.numAt i
  · simp only [hv, if_true]; rw [Tbl.get_del_ne _ h]
  · simp only [hv, if_false]; rw [Tbl.get_put_ne _ _ h]

/-- Bytes are read from one key of the table. -/
theorem State.rdB_congr {s x : State} (d : Entry) (m a l j : Nat) (h : Tbl.get s.regs (d.key m j) = Tbl.get x.regs (d.key m j)) :
    s.rdB d m a l j = x.rdB d m a l j := by
  unfold State.rdB State.cells
  rw [h]

theorem State.rdB_wr_ne (s : State) (e d : Entry) (n m v i j a l : Nat) (h : d.key m j ≠ e.key n i) : (s.wr e n v i).rdB d m a l j = s.rdB d m a l j :=
  State.rdB_congr _ _ _ _ _ (State.get_wr_ne _ _ _ _ _ _ h)

/-- What the table of values holds under another key than that of the bytes written. -/
theorem State.get_wrB_ne (s : State) (e : Entry) (n a i k : Nat) (b : Bytes) (h : k ≠ e.key n i) : Tbl.get (s.wrB e n a b i).regs k = Tbl.get s.regs k := by
  unfold State.wrB
  by_cases hc : Cells.writeAll (e.dflt.byteAt i) (s.cells e n i) a b = []
  · simp only [hc, if_true, Tbl.get_del_ne _ h]
  · simp only [hc, if_false, Tbl.get_put_ne _ _ h]

theorem State.rdB_wrB_ne (s : State) (e d : Entry) (n m a i j x l : Nat) (b : Bytes) (h : d.key m j ≠ e.key n i) : (s.wrB e n a b i).rdB d m x l j = s.rdB d m x l j :=
  State.rdB_congr _ _ _ _ _ (State.get_wrB_ne _ _ _ _ _ _ _ h)

/-- The listed bytes after a write of bytes. -/
theorem State.cells_wrB_self (s : State) (e : Entry) (n a i : Nat) (b : Bytes) :
    (s.wrB e n a b i).cells e n i = Cells.writeAll (e.dflt.byteAt i) (s.cells e n i) a b := by
  unfold State.wrB
  by_cases hc : Cells.writeAll (e.dflt.byteAt i) (s.cells e n i) a b = []
  · simp only [hc, if_true]; simp [State.cells]
  · simp only [hc, if_false]; simp [State.cells]

/-- Bytes read where they were written are the bytes. -/
@[simp] theorem State.rdB_wrB_self (s : State) (e : Entry) (n a i : Nat) (b : Bytes) : (s.wrB e n a b i).rdB e n a b.length i = b := by
  unfold State.rdB
  rw [State.cells_wrB_self]
  apply List.ext_getElem
  · simp
  · intro k h1 h2
    simp only [List.getElem_map, List.getElem_range]
    rw [Cells.read_writeAll_in _ _ _ _ _ h2]
    simp [h2]

/-- Bytes outside the written run stay. -/
theorem State.rdB_wrB_out (s : State) (e : Entry) (n a x l i : Nat) (b : Bytes) (h : x + l ≤ a ∨ a + b.length ≤ x) :
    (s.wrB e n a b i).rdB e n x l i = s.rdB e n x l i := by
  unfold State.rdB
  rw [State.cells_wrB_self]
  apply List.map_congr_left
  intro k hk
  rw [List.mem_range] at hk
  exact Cells.read_writeAll_out _ _ _ _ _ (by omega)

/-- A whole entry, of which nothing was listed, after a write from its start: the bytes, then its default. -/
theorem State.rdAll_wrB_new (s : State) (e : Entry) (n i : Nat) (b : Bytes) (hc : s.cells e n i = []) (hl : b.length ≤ e.size) :
    (s.wrB e n 0 b i).rdAll e n i = b ++ (List.range (e.size - b.length)).map fun k => e.dflt.byteAt i (b.length + k) := by
  unfold State.rdAll State.rdB
  rw [State.cells_wrB_self, hc]
  apply List.ext_getElem
  · simp; omega
  · intro k h1 h2
    simp only [List.getElem_map, List.getElem_range]
    by_cases hk : k < b.length
    · rw [Cells.read_writeAll_in _ _ _ _ _ hk, List.getElem_append_left hk]
      simp [hk]
    · rw [Cells.read_writeAll_out _ _ _ _ _ (by omega), List.getElem_append_right (by omega)]
      simp [Cells.read, Tbl.get, Nat.add_sub_cancel' (Nat.le_of_not_lt hk)]

/-! ### Whether an access of a shared operation leaves something -/

theorem State.pierPut_keeps {β : Type} (g : State → β) (hp : ∀ x q, g (State.onPier x fun p => { p with evq := q }) = g x)
    (hb : ∀ x k, g (State.bump x Reg.device_events_queue_lost 0 0 k) = g x) (s : State) (e : Event) : g (s.pierPut e) = g s := by
  unfold State.pierPut
  dsimp only
  split
  · exact hp _ _
  · rw [hb, hp]

theorem State.qDone_keeps {β : Type} (g : State → β) (t : TileId) (c : Fin 7) (hq : ∀ x q, g (State.setQueue x t c q) = g x)
    (hl : ∀ x k, g (State.bump x Reg.queue_lost t c k) = g x) (hr : ∀ x k, g (State.bump x Reg.queue_resets t c k) = g x) (s : State) (a : PPQ.Acc QItem) :
    g (s.qDone t c a) = g s := by
  unfold State.qDone
  dsimp only
  split <;> split <;> simp only [hr, hl, hq]

theorem State.event_keeps {β : Type} (g : State → β) (t : TileId) (hq : ∀ x q, g (State.setQueue x t 6 q) = g x)
    (hl : ∀ x k, g (State.bump x Reg.queue_lost t (6 : Fin 7) k) = g x) (hr : ∀ x k, g (State.bump x Reg.queue_resets t (6 : Fin 7) k) = g x)
    (hp : ∀ x q, g (State.onPier x fun p => { p with evq := q }) = g x) (hb : ∀ x k, g (State.bump x Reg.device_events_queue_lost 0 0 k) = g x)
    (s : State) (sev code obj a b : Nat) : g (s.event t sev code obj a b) = g s := by
  unfold State.event
  dsimp only
  split
  · rw [State.pierPut_keeps g hp hb, State.qDone_keeps g t 6 hq hl hr]
  · exact State.qDone_keeps g t 6 hq hl hr _ _

theorem State.access_keeps {β : Type} (g : State → β) (t : TileId) (c : Fin 7) (hq : ∀ x k q, g (State.setQueue x t k q) = g x)
    (hl : ∀ x (i : Fin 7) k, g (State.bump x Reg.queue_lost t i k) = g x) (hr : ∀ x (i : Fin 7) k, g (State.bump x Reg.queue_resets t i k) = g x)
    (hp : ∀ x q, g (State.onPier x fun p => { p with evq := q }) = g x) (hb : ∀ x k, g (State.bump x Reg.device_events_queue_lost 0 0 k) = g x)
    (s : State) (a : PPQ.Acc QItem) : g ((s.qDone t c a).qEvent t c a.reset) = g s := by
  unfold State.qEvent
  split
  · rw [State.event_keeps g t (hq · 6) (hl · 6) (hr · 6) hp hb, State.qDone_keeps g t c (hq · c) (hl · c) (hr · c)]
  · exact State.qDone_keeps g t c (hq · c) (hl · c) (hr · c) _ _

theorem State.mirror_keeps {β : Type} (g : State → β) (t : TileId) (h : ∀ x (l : Bay → List MItem) (p : Bay → Nat) (f : Bay → Option Nat), g (State.onBay x (bayOf t) fun b => { b with link := l b, placed := p b, lagFrom := f b }) = g x)
    (s : State) (x : MItem) (n : Nat) : g (s.mirror t x n) = g s := by
  unfold State.mirror
  dsimp only
  split
  · exact h s _ _ _
  · rfl

/-! ### Values -/

theorem State.rd_pierPut (s : State) (e : Event) (d : Entry) (m j : Nat) (h : d.quiet j = true) : (s.pierPut e).rd d m j = s.rd d m j :=
  State.pierPut_keeps (fun x => x.rd d m j) (fun _ _ => rfl) (fun _ _ => State.rd_bump_ne _ _ _ _ _ _ _ _ (Entry.quiet_pierLost _ _ _ h)) _ _
theorem State.rd_pierEvent (s : State) (a b c x y z : Nat) (d : Entry) (m j : Nat) (h : d.quiet j = true) : (s.pierEvent a b c x y z).rd d m j = s.rd d m j :=
  State.rd_pierPut _ _ _ _ _ h
theorem State.rd_event (s : State) (t : TileId) (a b x y z : Nat) (d : Entry) (m j : Nat) (h : d.quiet j = true) (hm : d.area = .bay → m < 8) : (s.event t a b x y z).rd d m j = s.rd d m j :=
  State.event_keeps (fun x => x.rd d m j) t (fun _ _ => rfl) (fun _ _ => State.rd_bump_ne _ _ _ _ _ _ _ _ (Entry.quiet_lost _ _ _ _ _ h hm))
    (fun _ _ => State.rd_bump_ne _ _ _ _ _ _ _ _ (Entry.quiet_resets _ _ _ _ _ h hm)) (fun _ _ => rfl)
    (fun _ _ => State.rd_bump_ne _ _ _ _ _ _ _ _ (Entry.quiet_pierLost _ _ _ h)) _ _ _ _ _ _
theorem State.rd_qWrite (s : State) (t : TileId) (c : Fin 7) (x : QItem) (d : Entry) (m j : Nat) (h : d.quiet j = true) (hm : d.area = .bay → m < 8) : (s.qWrite t c x).rd d m j = s.rd d m j :=
  State.access_keeps (fun x => x.rd d m j) t c (fun _ _ _ => rfl) (fun _ _ _ => State.rd_bump_ne _ _ _ _ _ _ _ _ (Entry.quiet_lost _ _ _ _ _ h hm))
    (fun _ _ _ => State.rd_bump_ne _ _ _ _ _ _ _ _ (Entry.quiet_resets _ _ _ _ _ h hm)) (fun _ _ => rfl)
    (fun _ _ => State.rd_bump_ne _ _ _ _ _ _ _ _ (Entry.quiet_pierLost _ _ _ h)) _ _
theorem State.rd_qRead (s : State) (t : TileId) (c : Fin 7) (d : Entry) (m j : Nat) (h : d.quiet j = true) (hm : d.area = .bay → m < 8) : (s.qRead t c).1.rd d m j = s.rd d m j :=
  State.access_keeps (fun x => x.rd d m j) t c (fun _ _ _ => rfl) (fun _ _ _ => State.rd_bump_ne _ _ _ _ _ _ _ _ (Entry.quiet_lost _ _ _ _ _ h hm))
    (fun _ _ _ => State.rd_bump_ne _ _ _ _ _ _ _ _ (Entry.quiet_resets _ _ _ _ _ h hm)) (fun _ _ => rfl)
    (fun _ _ => State.rd_bump_ne _ _ _ _ _ _ _ _ (Entry.quiet_pierLost _ _ _ h)) _ _
theorem State.rd_done (s x : State) (d : Entry) (m j : Nat) (h : d.quiet j = true) : (s.done x).rd d m j = x.rd d m j :=
  State.done_rd _ _ _ _ _ (Entry.quiet_writes _ _ _ h)
@[simp] theorem State.rd_mirror (s : State) (t : TileId) (x : MItem) (n : Nat) (d : Entry) (m j : Nat) : (s.mirror t x n).rd d m j = s.rd d m j :=
  State.mirror_keeps (fun x => x.rd d m j) t (fun _ _ _ _ => rfl) _ _ _
@[simp] theorem State.rdB_mirror (s : State) (t : TileId) (x : MItem) (n : Nat) (d : Entry) (m a l j : Nat) : (s.mirror t x n).rdB d m a l j = s.rdB d m a l j :=
  State.mirror_keeps (fun x => x.rdB d m a l j) t (fun _ _ _ _ => rfl) _ _ _
@[simp] theorem State.rd_wrM_self (s : State) (e : Entry) (t : TileId) (v i : Nat) : (s.wrM e t v i).rd e t i = v % e.span := by simp [State.wrM]
theorem State.rd_wrM_ne (s : State) (e d : Entry) (t : TileId) (m v i j : Nat) (h : d.key m j ≠ e.key t i) : (s.wrM e t v i).rd d m j = s.rd d m j := by
  simp [State.wrM, State.rd_wr_ne _ _ _ _ _ _ _ _ h]
theorem State.rd_wrBM_ne (s : State) (e d : Entry) (t : TileId) (m a i j : Nat) (b : Bytes) (h : d.key m j ≠ e.key t i) : (s.wrBM e t a b i).rd d m j = s.rd d m j := by
  simp [State.wrBM, State.rd_wrB_ne _ _ _ _ _ _ _ _ _ h]
@[simp] theorem State.rdB_wrBM_self (s : State) (e : Entry) (t : TileId) (a i : Nat) (b : Bytes) : (s.wrBM e t a b i).rdB e t a b.length i = b := by simp [State.wrBM]
theorem State.rd_alarm (s : State) (b : BayId) (k : Nat) (on : Bool) (d : Entry) (m j : Nat) (h : d.quiet j = true) (hk : d.key m j ≠ Reg.bay_alarm.key b 0) :
    (s.alarm b k on).rd d m j = s.rd d m j := by
  unfold State.alarm
  dsimp only
  split
  · rfl
  · rw [State.rd_pierEvent _ _ _ _ _ _ _ _ _ _ h, State.rd_wr_ne _ _ _ _ _ _ _ _ hk]
theorem State.rd_settleService (s : State) (t : TileId) (d : Entry) (m j : Nat) (hk : d.key m j ≠ Reg.status_service.key t 0) :
    (s.settleService t).rd d m j = s.rd d m j := State.rd_wr_ne _ _ _ _ _ _ _ _ hk
theorem State.rd_setMissing (s : State) (t : TileId) (k : Nat) (b : Bool) (d : Entry) (m j : Nat) (hk : d.key m j ≠ Reg.status_service.key t 0)
    (hl : d.key m j ≠ Reg.status_missing.key t 0) : (s.setMissing t k b).rd d m j = s.rd d m j := by
  unfold State.setMissing
  rw [State.rd_settleService _ _ _ _ _ hk, State.rd_wrBit_ne _ _ _ _ _ _ _ _ hl]

/-! ### Tiles, bays, the Pier and what was put out -/

theorem State.tile_vol (s : State) (t : TileId) : (s.tile t).vol = s.vol t := rfl
@[simp] theorem State.vol_onTile_self (s : State) (t : TileId) (f : Tile → Tile) : (s.onTile t f).vol t = (f (s.tile t)).vol := by unfold State.vol; rw [State.tile_onTile_self]

/-- Without a changed value nothing is queued for the NAND: the state is that of the effect. -/
theorem State.done_mediaRegs (s x : State) (t : TileId) (h : x.regs = s.regs) : (s.done x).tile t = x.tile t := by
  unfold State.done persist
  rw [if_pos h.symm]
  rfl
theorem State.done_regs (s x : State) (h : x.regs = s.regs) : (s.done x).regs = s.regs := by
  unfold State.done persist
  rw [if_pos h.symm]
  exact h

/-- A quiet entry at every sub-index of a finite range. -/
theorem Entry.quiet_fin {n : Nat} {e : Entry} (h : ∀ k : Fin n, e.quiet k = true) (k : Fin n) : e.quiet k.val = true := h k

@[simp] theorem State.done_page1 (s x : State) (t : TileId) : ((s.done x).tile t).page1 = (x.tile t).page1 := State.done_tile Tile.page1 (fun _ _ => rfl) s x t
@[simp] theorem State.done_fuseState (s x : State) (t : TileId) : ((s.done x).tile t).fuseState = (x.tile t).fuseState := State.done_tile Tile.fuseState (fun _ _ => rfl) s x t
@[simp] theorem State.done_legalEnd (s x : State) (t : TileId) : ((s.done x).tile t).legalEnd = (x.tile t).legalEnd := State.done_tile Tile.legalEnd (fun _ _ => rfl) s x t
@[simp] theorem State.done_legalBad (s x : State) (t : TileId) : ((s.done x).tile t).legalBad = (x.tile t).legalBad := State.done_tile Tile.legalBad (fun _ _ => rfl) s x t
@[simp] theorem State.done_calSince (s x : State) (t : TileId) : ((s.done x).tile t).calSince = (x.tile t).calSince := State.done_tile Tile.calSince (fun _ _ => rfl) s x t
@[simp] theorem State.done_marks (s x : State) (t : TileId) : ((s.done x).tile t).marks = (x.tile t).marks := State.done_tile Tile.marks (fun _ _ => rfl) s x t
@[simp] theorem State.done_upSince (s x : State) (t : TileId) : ((s.done x).tile t).upSince = (x.tile t).upSince := State.done_tile Tile.upSince (fun _ _ => rfl) s x t
@[simp] theorem State.done_plcEpoch (s x : State) (t : TileId) : ((s.done x).tile t).plcEpoch = (x.tile t).plcEpoch := State.done_tile Tile.plcEpoch (fun _ _ => rfl) s x t
@[simp] theorem State.done_draws (s x : State) (t : TileId) : ((s.done x).tile t).draws = (x.tile t).draws := State.done_tile Tile.draws (fun _ _ => rfl) s x t
@[simp] theorem State.tiles_pierPut (s : State) (e : Event) : (s.pierPut e).tiles = s.tiles := State.pierPut_keeps (fun x => x.tiles) (fun _ _ => rfl) (fun _ _ => rfl) _ _
@[simp] theorem State.tile_pierPut (s : State) (e : Event) (u : TileId) : (s.pierPut e).tile u = s.tile u := State.pierPut_keeps (fun x => x.tile u) (fun _ _ => rfl) (fun _ _ => rfl) _ _
@[simp] theorem State.vol_pierPut (s : State) (e : Event) (u : TileId) : (s.pierPut e).vol u = s.vol u := State.pierPut_keeps (fun x => x.vol u) (fun _ _ => rfl) (fun _ _ => rfl) _ _
@[simp] theorem State.out_pierPut (s : State) (e : Event) : (s.pierPut e).out = s.out := State.pierPut_keeps (fun x => x.out) (fun _ _ => rfl) (fun _ _ => rfl) _ _
@[simp] theorem State.bays_pierPut (s : State) (e : Event) : (s.pierPut e).bays = s.bays := State.pierPut_keeps (fun x => x.bays) (fun _ _ => rfl) (fun _ _ => rfl) _ _
@[simp] theorem State.bay_pierPut (s : State) (e : Event) (c0 : BayId) : (s.pierPut e).bay c0 = s.bay c0 := State.pierPut_keeps (fun x => x.bay c0) (fun _ _ => rfl) (fun _ _ => rfl) _ _
@[simp] theorem State.tiles_pierEvent (s : State) (a b c x y z : Nat) : (s.pierEvent a b c x y z).tiles = s.tiles := State.pierPut_keeps (fun x => x.tiles) (fun _ _ => rfl) (fun _ _ => rfl) _ _
@[simp] theorem State.tile_pierEvent (s : State) (a b c x y z : Nat) (u : TileId) : (s.pierEvent a b c x y z).tile u = s.tile u := State.pierPut_keeps (fun x => x.tile u) (fun _ _ => rfl) (fun _ _ => rfl) _ _
@[simp] theorem State.vol_pierEvent (s : State) (a b c x y z : Nat) (u : TileId) : (s.pierEvent a b c x y z).vol u = s.vol u := State.pierPut_keeps (fun x => x.vol u) (fun _ _ => rfl) (fun _ _ => rfl) _ _
@[simp] theorem State.out_pierEvent (s : State) (a b c x y z : Nat) : (s.pierEvent a b c x y z).out = s.out := State.pierPut_keeps (fun x => x.out) (fun _ _ => rfl) (fun _ _ => rfl) _ _
@[simp] theorem State.bays_pierEvent (s : State) (a b c x y z : Nat) : (s.pierEvent a b c x y z).bays = s.bays := State.pierPut_keeps (fun x => x.bays) (fun _ _ => rfl) (fun _ _ => rfl) _ _
@[simp] theorem State.bay_pierEvent (s : State) (a b c x y z : Nat) (c0 : BayId) : (s.pierEvent a b c x y z).bay c0 = s.bay c0 := State.pierPut_keeps (fun x => x.bay c0) (fun _ _ => rfl) (fun _ _ => rfl) _ _
@[simp] theorem State.tiles_mirror (s : State) (t : TileId) (x : MItem) (n : Nat) : (s.mirror t x n).tiles = s.tiles := State.mirror_keeps (fun x => x.tiles) t (fun _ _ _ _ => rfl) _ _ _
@[simp] theorem State.tile_mirror (s : State) (t : TileId) (x : MItem) (n : Nat) (u : TileId) : (s.mirror t x n).tile u = s.tile u := State.mirror_keeps (fun x => x.tile u) t (fun _ _ _ _ => rfl) _ _ _
@[simp] theorem State.vol_mirror (s : State) (t : TileId) (x : MItem) (n : Nat) (u : TileId) : (s.mirror t x n).vol u = s.vol u := State.mirror_keeps (fun x => x.vol u) t (fun _ _ _ _ => rfl) _ _ _
@[simp] theorem State.out_mirror (s : State) (t : TileId) (x : MItem) (n : Nat) : (s.mirror t x n).out = s.out := State.mirror_keeps (fun x => x.out) t (fun _ _ _ _ => rfl) _ _ _
@[simp] theorem State.pier_mirror (s : State) (t : TileId) (x : MItem) (n : Nat) : (s.mirror t x n).pier = s.pier := State.mirror_keeps (fun x => x.pier) t (fun _ _ _ _ => rfl) _ _ _
@[simp] theorem State.tiles_wrM (s : State) (e : Entry) (t : TileId) (v i : Nat) : (s.wrM e t v i).tiles = s.tiles := (State.mirror_keeps (fun x => x.tiles) t (fun _ _ _ _ => rfl) _ _ _)
@[simp] theorem State.tile_wrM (s : State) (e : Entry) (t : TileId) (v i : Nat) (u : TileId) : (s.wrM e t v i).tile u = s.tile u := (State.mirror_keeps (fun x => x.tile u) t (fun _ _ _ _ => rfl) _ _ _)
@[simp] theorem State.vol_wrM (s : State) (e : Entry) (t : TileId) (v i : Nat) (u : TileId) : (s.wrM e t v i).vol u = s.vol u := (State.mirror_keeps (fun x => x.vol u) t (fun _ _ _ _ => rfl) _ _ _)
@[simp] theorem State.out_wrM (s : State) (e : Entry) (t : TileId) (v i : Nat) : (s.wrM e t v i).out = s.out := (State.mirror_keeps (fun x => x.out) t (fun _ _ _ _ => rfl) _ _ _)
@[simp] theorem State.pier_wrM (s : State) (e : Entry) (t : TileId) (v i : Nat) : (s.wrM e t v i).pier = s.pier := (State.mirror_keeps (fun x => x.pier) t (fun _ _ _ _ => rfl) _ _ _)
@[simp] theorem State.tiles_wrBM (s : State) (e : Entry) (t : TileId) (a : Nat) (b : Bytes) (i : Nat) : (s.wrBM e t a b i).tiles = s.tiles := (State.mirror_keeps (fun x => x.tiles) t (fun _ _ _ _ => rfl) _ _ _)
@[simp] theorem State.tile_wrBM (s : State) (e : Entry) (t : TileId) (a : Nat) (b : Bytes) (i : Nat) (u : TileId) : (s.wrBM e t a b i).tile u = s.tile u := (State.mirror_keeps (fun x => x.tile u) t (fun _ _ _ _ => rfl) _ _ _)
@[simp] theorem State.vol_wrBM (s : State) (e : Entry) (t : TileId) (a : Nat) (b : Bytes) (i : Nat) (u : TileId) : (s.wrBM e t a b i).vol u = s.vol u := (State.mirror_keeps (fun x => x.vol u) t (fun _ _ _ _ => rfl) _ _ _)
@[simp] theorem State.out_wrBM (s : State) (e : Entry) (t : TileId) (a : Nat) (b : Bytes) (i : Nat) : (s.wrBM e t a b i).out = s.out := (State.mirror_keeps (fun x => x.out) t (fun _ _ _ _ => rfl) _ _ _)
@[simp] theorem State.pier_wrBM (s : State) (e : Entry) (t : TileId) (a : Nat) (b : Bytes) (i : Nat) : (s.wrBM e t a b i).pier = s.pier := (State.mirror_keeps (fun x => x.pier) t (fun _ _ _ _ => rfl) _ _ _)
@[simp] theorem State.tiles_settleService (s : State) (t : TileId) : (s.settleService t).tiles = s.tiles := rfl
@[simp] theorem State.tile_settleService (s : State) (t : TileId) (u : TileId) : (s.settleService t).tile u = s.tile u := rfl
@[simp] theorem State.vol_settleService (s : State) (t : TileId) (u : TileId) : (s.settleService t).vol u = s.vol u := rfl
@[simp] theorem State.out_settleService (s : State) (t : TileId) : (s.settleService t).out = s.out := rfl
@[simp] theorem State.bays_settleService (s : State) (t : TileId) : (s.settleService t).bays = s.bays := rfl
@[simp] theorem State.bay_settleService (s : State) (t : TileId) (c0 : BayId) : (s.settleService t).bay c0 = s.bay c0 := rfl
@[simp] theorem State.pier_settleService (s : State) (t : TileId) : (s.settleService t).pier = s.pier := rfl
@[simp] theorem State.tiles_setMissing (s : State) (t : TileId) (k : Nat) (b : Bool) : (s.setMissing t k b).tiles = s.tiles := rfl
@[simp] theorem State.tile_setMissing (s : State) (t : TileId) (k : Nat) (b : Bool) (u : TileId) : (s.setMissing t k b).tile u = s.tile u := rfl
@[simp] theorem State.vol_setMissing (s : State) (t : TileId) (k : Nat) (b : Bool) (u : TileId) : (s.setMissing t k b).vol u = s.vol u := rfl
@[simp] theorem State.out_setMissing (s : State) (t : TileId) (k : Nat) (b : Bool) : (s.setMissing t k b).out = s.out := rfl
@[simp] theorem State.bays_setMissing (s : State) (t : TileId) (k : Nat) (b : Bool) : (s.setMissing t k b).bays = s.bays := rfl
@[simp] theorem State.bay_setMissing (s : State) (t : TileId) (k : Nat) (b : Bool) (c0 : BayId) : (s.setMissing t k b).bay c0 = s.bay c0 := rfl
@[simp] theorem State.pier_setMissing (s : State) (t : TileId) (k : Nat) (b : Bool) : (s.setMissing t k b).pier = s.pier := rfl
@[simp] theorem State.tiles_alarm (s : State) (b : BayId) (k : Nat) (on : Bool) : (s.alarm b k on).tiles = s.tiles := by
  unfold State.alarm
  dsimp only
  split
  · rfl
  · simp
@[simp] theorem State.tile_alarm (s : State) (b : BayId) (k : Nat) (on : Bool) (u : TileId) : (s.alarm b k on).tile u = s.tile u := by
  unfold State.alarm
  dsimp only
  split
  · rfl
  · simp
@[simp] theorem State.vol_alarm (s : State) (b : BayId) (k : Nat) (on : Bool) (u : TileId) : (s.alarm b k on).vol u = s.vol u := by
  unfold State.alarm
  dsimp only
  split
  · rfl
  · simp
@[simp] theorem State.out_alarm (s : State) (b : BayId) (k : Nat) (on : Bool) : (s.alarm b k on).out = s.out := by
  unfold State.alarm
  dsimp only
  split
  · rfl
  · simp
@[simp] theorem State.bays_alarm (s : State) (b : BayId) (k : Nat) (on : Bool) : (s.alarm b k on).bays = s.bays := by
  unfold State.alarm
  dsimp only
  split
  · rfl
  · simp
@[simp] theorem State.bay_alarm (s : State) (b : BayId) (k : Nat) (on : Bool) (c0 : BayId) : (s.alarm b k on).bay c0 = s.bay c0 := by
  unfold State.alarm
  dsimp only
  split
  · rfl
  · simp
@[simp] theorem State.pierPut_up (s : State) (e : Event) : (s.pierPut e).pier.up = s.pier.up := State.pierPut_keeps (fun x => x.pier.up) (fun _ _ => rfl) (fun _ _ => rfl) _ _
@[simp] theorem State.pierEvent_up (s : State) (a b c x y z : Nat) : (s.pierEvent a b c x y z).pier.up = s.pier.up := State.pierPut_up _ _
@[simp] theorem State.alarm_up (s : State) (b : BayId) (k : Nat) (on : Bool) : (s.alarm b k on).pier.up = s.pier.up := by
  unfold State.alarm
  dsimp only
  split
  · rfl
  · simp
@[simp] theorem State.pierPut_clock (s : State) (e : Event) : (s.pierPut e).pier.clock = s.pier.clock := State.pierPut_keeps (fun x => x.pier.clock) (fun _ _ => rfl) (fun _ _ => rfl) _ _
@[simp] theorem State.pierEvent_clock (s : State) (a b c x y z : Nat) : (s.pierEvent a b c x y z).pier.clock = s.pier.clock := State.pierPut_clock _ _
@[simp] theorem State.alarm_clock (s : State) (b : BayId) (k : Nat) (on : Bool) : (s.alarm b k on).pier.clock = s.pier.clock := by
  unfold State.alarm
  dsimp only
  split
  · rfl
  · simp
@[simp] theorem State.pierPut_passCount (s : State) (e : Event) : (s.pierPut e).pier.passCount = s.pier.passCount := State.pierPut_keeps (fun x => x.pier.passCount) (fun _ _ => rfl) (fun _ _ => rfl) _ _
@[simp] theorem State.pierEvent_passCount (s : State) (a b c x y z : Nat) : (s.pierEvent a b c x y z).pier.passCount = s.pier.passCount := State.pierPut_passCount _ _
@[simp] theorem State.alarm_passCount (s : State) (b : BayId) (k : Nat) (on : Bool) : (s.alarm b k on).pier.passCount = s.pier.passCount := by
  unfold State.alarm
  dsimp only
  split
  · rfl
  · simp
@[simp] theorem State.pierPut_misc (s : State) (e : Event) : (s.pierPut e).pier.misc = s.pier.misc := State.pierPut_keeps (fun x => x.pier.misc) (fun _ _ => rfl) (fun _ _ => rfl) _ _
@[simp] theorem State.pierEvent_misc (s : State) (a b c x y z : Nat) : (s.pierEvent a b c x y z).pier.misc = s.pier.misc := State.pierPut_misc _ _
@[simp] theorem State.alarm_misc (s : State) (b : BayId) (k : Nat) (on : Bool) : (s.alarm b k on).pier.misc = s.pier.misc := by
  unfold State.alarm
  dsimp only
  split
  · rfl
  · simp
@[simp] theorem State.pierPut_degraded (s : State) (e : Event) : (s.pierPut e).pier.degraded = s.pier.degraded := State.pierPut_keeps (fun x => x.pier.degraded) (fun _ _ => rfl) (fun _ _ => rfl) _ _
@[simp] theorem State.pierEvent_degraded (s : State) (a b c x y z : Nat) : (s.pierEvent a b c x y z).pier.degraded = s.pier.degraded := State.pierPut_degraded _ _
@[simp] theorem State.alarm_degraded (s : State) (b : BayId) (k : Nat) (on : Bool) : (s.alarm b k on).pier.degraded = s.pier.degraded := by
  unfold State.alarm
  dsimp only
  split
  · rfl
  · simp
@[simp] theorem State.pierPut_elog (s : State) (e : Event) : (s.pierPut e).pier.elog = s.pier.elog := State.pierPut_keeps (fun x => x.pier.elog) (fun _ _ => rfl) (fun _ _ => rfl) _ _
@[simp] theorem State.pierEvent_elog (s : State) (a b c x y z : Nat) : (s.pierEvent a b c x y z).pier.elog = s.pier.elog := State.pierPut_elog _ _
@[simp] theorem State.alarm_elog (s : State) (b : BayId) (k : Nat) (on : Bool) : (s.alarm b k on).pier.elog = s.pier.elog := by
  unfold State.alarm
  dsimp only
  split
  · rfl
  · simp
@[simp] theorem State.pierPut_upSince (s : State) (e : Event) : (s.pierPut e).pier.upSince = s.pier.upSince := State.pierPut_keeps (fun x => x.pier.upSince) (fun _ _ => rfl) (fun _ _ => rfl) _ _
@[simp] theorem State.pierEvent_upSince (s : State) (a b c x y z : Nat) : (s.pierEvent a b c x y z).pier.upSince = s.pier.upSince := State.pierPut_upSince _ _
@[simp] theorem State.alarm_upSince (s : State) (b : BayId) (k : Nat) (on : Bool) : (s.alarm b k on).pier.upSince = s.pier.upSince := by
  unfold State.alarm
  dsimp only
  split
  · rfl
  · simp
@[simp] theorem State.pierPut_bootQueue (s : State) (e : Event) : (s.pierPut e).pier.bootQueue = s.pier.bootQueue := State.pierPut_keeps (fun x => x.pier.bootQueue) (fun _ _ => rfl) (fun _ _ => rfl) _ _
@[simp] theorem State.pierEvent_bootQueue (s : State) (a b c x y z : Nat) : (s.pierEvent a b c x y z).pier.bootQueue = s.pier.bootQueue := State.pierPut_bootQueue _ _
@[simp] theorem State.alarm_bootQueue (s : State) (b : BayId) (k : Nat) (on : Bool) : (s.alarm b k on).pier.bootQueue = s.pier.bootQueue := by
  unfold State.alarm
  dsimp only
  split
  · rfl
  · simp
@[simp] theorem State.pierPut_bootAt (s : State) (e : Event) : (s.pierPut e).pier.bootAt = s.pier.bootAt := State.pierPut_keeps (fun x => x.pier.bootAt) (fun _ _ => rfl) (fun _ _ => rfl) _ _
@[simp] theorem State.pierEvent_bootAt (s : State) (a b c x y z : Nat) : (s.pierEvent a b c x y z).pier.bootAt = s.pier.bootAt := State.pierPut_bootAt _ _
@[simp] theorem State.alarm_bootAt (s : State) (b : BayId) (k : Nat) (on : Bool) : (s.alarm b k on).pier.bootAt = s.pier.bootAt := by
  unfold State.alarm
  dsimp only
  split
  · rfl
  · simp
@[simp] theorem State.pierPut_plan (s : State) (e : Event) : (s.pierPut e).pier.plan = s.pier.plan := State.pierPut_keeps (fun x => x.pier.plan) (fun _ _ => rfl) (fun _ _ => rfl) _ _
@[simp] theorem State.pierEvent_plan (s : State) (a b c x y z : Nat) : (s.pierEvent a b c x y z).pier.plan = s.pier.plan := State.pierPut_plan _ _
@[simp] theorem State.alarm_plan (s : State) (b : BayId) (k : Nat) (on : Bool) : (s.alarm b k on).pier.plan = s.pier.plan := by
  unfold State.alarm
  dsimp only
  split
  · rfl
  · simp
@[simp] theorem State.pierPut_resetAt (s : State) (e : Event) : (s.pierPut e).pier.resetAt = s.pier.resetAt := State.pierPut_keeps (fun x => x.pier.resetAt) (fun _ _ => rfl) (fun _ _ => rfl) _ _
@[simp] theorem State.pierEvent_resetAt (s : State) (a b c x y z : Nat) : (s.pierEvent a b c x y z).pier.resetAt = s.pier.resetAt := State.pierPut_resetAt _ _
@[simp] theorem State.alarm_resetAt (s : State) (b : BayId) (k : Nat) (on : Bool) : (s.alarm b k on).pier.resetAt = s.pier.resetAt := by
  unfold State.alarm
  dsimp only
  split
  · rfl
  · simp
@[simp] theorem State.pierPut_pmb (s : State) (e : Event) : (s.pierPut e).pier.pmb = s.pier.pmb := State.pierPut_keeps (fun x => x.pier.pmb) (fun _ _ => rfl) (fun _ _ => rfl) _ _
@[simp] theorem State.pierEvent_pmb (s : State) (a b c x y z : Nat) : (s.pierEvent a b c x y z).pier.pmb = s.pier.pmb := State.pierPut_pmb _ _
@[simp] theorem State.alarm_pmb (s : State) (b : BayId) (k : Nat) (on : Bool) : (s.alarm b k on).pier.pmb = s.pier.pmb := by
  unfold State.alarm
  dsimp only
  split
  · rfl
  · simp
@[simp] theorem State.pierPut_pmbFlight (s : State) (e : Event) : (s.pierPut e).pier.pmbFlight = s.pier.pmbFlight := State.pierPut_keeps (fun x => x.pier.pmbFlight) (fun _ _ => rfl) (fun _ _ => rfl) _ _
@[simp] theorem State.pierEvent_pmbFlight (s : State) (a b c x y z : Nat) : (s.pierEvent a b c x y z).pier.pmbFlight = s.pier.pmbFlight := State.pierPut_pmbFlight _ _
@[simp] theorem State.alarm_pmbFlight (s : State) (b : BayId) (k : Nat) (on : Bool) : (s.alarm b k on).pier.pmbFlight = s.pier.pmbFlight := by
  unfold State.alarm
  dsimp only
  split
  · rfl
  · simp
@[simp] theorem State.pierPut_present (s : State) (e : Event) : (s.pierPut e).pier.present = s.pier.present := State.pierPut_keeps (fun x => x.pier.present) (fun _ _ => rfl) (fun _ _ => rfl) _ _
@[simp] theorem State.pierEvent_present (s : State) (a b c x y z : Nat) : (s.pierEvent a b c x y z).pier.present = s.pier.present := State.pierPut_present _ _
@[simp] theorem State.alarm_present (s : State) (b : BayId) (k : Nat) (on : Bool) : (s.alarm b k on).pier.present = s.pier.present := by
  unfold State.alarm
  dsimp only
  split
  · rfl
  · simp
@[simp] theorem State.pierPut_polledAt (s : State) (e : Event) : (s.pierPut e).pier.polledAt = s.pier.polledAt := State.pierPut_keeps (fun x => x.pier.polledAt) (fun _ _ => rfl) (fun _ _ => rfl) _ _
@[simp] theorem State.pierEvent_polledAt (s : State) (a b c x y z : Nat) : (s.pierEvent a b c x y z).pier.polledAt = s.pier.polledAt := State.pierPut_polledAt _ _
@[simp] theorem State.alarm_polledAt (s : State) (b : BayId) (k : Nat) (on : Bool) : (s.alarm b k on).pier.polledAt = s.pier.polledAt := by
  unfold State.alarm
  dsimp only
  split
  · rfl
  · simp
@[simp] theorem State.pierPut_vsysMv (s : State) (e : Event) : (s.pierPut e).pier.vsysMv = s.pier.vsysMv := State.pierPut_keeps (fun x => x.pier.vsysMv) (fun _ _ => rfl) (fun _ _ => rfl) _ _
@[simp] theorem State.pierEvent_vsysMv (s : State) (a b c x y z : Nat) : (s.pierEvent a b c x y z).pier.vsysMv = s.pier.vsysMv := State.pierPut_vsysMv _ _
@[simp] theorem State.alarm_vsysMv (s : State) (b : BayId) (k : Nat) (on : Bool) : (s.alarm b k on).pier.vsysMv = s.pier.vsysMv := by
  unfold State.alarm
  dsimp only
  split
  · rfl
  · simp
@[simp] theorem State.pierPut_pfail (s : State) (e : Event) : (s.pierPut e).pier.pfail = s.pier.pfail := State.pierPut_keeps (fun x => x.pier.pfail) (fun _ _ => rfl) (fun _ _ => rfl) _ _
@[simp] theorem State.pierEvent_pfail (s : State) (a b c x y z : Nat) : (s.pierEvent a b c x y z).pier.pfail = s.pier.pfail := State.pierPut_pfail _ _
@[simp] theorem State.alarm_pfail (s : State) (b : BayId) (k : Nat) (on : Bool) : (s.alarm b k on).pier.pfail = s.pier.pfail := by
  unfold State.alarm
  dsimp only
  split
  · rfl
  · simp
@[simp] theorem State.pierPut_rails (s : State) (e : Event) : (s.pierPut e).pier.rails = s.pier.rails := State.pierPut_keeps (fun x => x.pier.rails) (fun _ _ => rfl) (fun _ _ => rfl) _ _
@[simp] theorem State.pierEvent_rails (s : State) (a b c x y z : Nat) : (s.pierEvent a b c x y z).pier.rails = s.pier.rails := State.pierPut_rails _ _
@[simp] theorem State.alarm_rails (s : State) (b : BayId) (k : Nat) (on : Bool) : (s.alarm b k on).pier.rails = s.pier.rails := by
  unfold State.alarm
  dsimp only
  split
  · rfl
  · simp
@[simp] theorem State.pierPut_boardPull (s : State) (e : Event) : (s.pierPut e).pier.boardPull = s.pier.boardPull := State.pierPut_keeps (fun x => x.pier.boardPull) (fun _ _ => rfl) (fun _ _ => rfl) _ _
@[simp] theorem State.pierEvent_boardPull (s : State) (a b c x y z : Nat) : (s.pierEvent a b c x y z).pier.boardPull = s.pier.boardPull := State.pierPut_boardPull _ _
@[simp] theorem State.alarm_boardPull (s : State) (b : BayId) (k : Nat) (on : Bool) : (s.alarm b k on).pier.boardPull = s.pier.boardPull := by
  unfold State.alarm
  dsimp only
  split
  · rfl
  · simp
@[simp] theorem State.pierPut_pfailOkAt (s : State) (e : Event) : (s.pierPut e).pier.pfailOkAt = s.pier.pfailOkAt := State.pierPut_keeps (fun x => x.pier.pfailOkAt) (fun _ _ => rfl) (fun _ _ => rfl) _ _
@[simp] theorem State.pierEvent_pfailOkAt (s : State) (a b c x y z : Nat) : (s.pierEvent a b c x y z).pier.pfailOkAt = s.pier.pfailOkAt := State.pierPut_pfailOkAt _ _
@[simp] theorem State.alarm_pfailOkAt (s : State) (b : BayId) (k : Nat) (on : Bool) : (s.alarm b k on).pier.pfailOkAt = s.pier.pfailOkAt := by
  unfold State.alarm
  dsimp only
  split
  · rfl
  · simp
@[simp] theorem State.pierPut_activeLane (s : State) (e : Event) : (s.pierPut e).pier.activeLane = s.pier.activeLane := State.pierPut_keeps (fun x => x.pier.activeLane) (fun _ _ => rfl) (fun _ _ => rfl) _ _
@[simp] theorem State.pierEvent_activeLane (s : State) (a b c x y z : Nat) : (s.pierEvent a b c x y z).pier.activeLane = s.pier.activeLane := State.pierPut_activeLane _ _
@[simp] theorem State.alarm_activeLane (s : State) (b : BayId) (k : Nat) (on : Bool) : (s.alarm b k on).pier.activeLane = s.pier.activeLane := by
  unfold State.alarm
  dsimp only
  split
  · rfl
  · simp
@[simp] theorem State.pierPut_time (s : State) (e : Event) : (s.pierPut e).pier.time = s.pier.time := State.pierPut_keeps (fun x => x.pier.time) (fun _ _ => rfl) (fun _ _ => rfl) _ _
@[simp] theorem State.pierEvent_time (s : State) (a b c x y z : Nat) : (s.pierEvent a b c x y z).pier.time = s.pier.time := State.pierPut_time _ _
@[simp] theorem State.alarm_time (s : State) (b : BayId) (k : Nat) (on : Bool) : (s.alarm b k on).pier.time = s.pier.time := by
  unfold State.alarm
  dsimp only
  split
  · rfl
  · simp
@[simp] theorem State.pierPut_es (s : State) (e : Event) : (s.pierPut e).pier.es = s.pier.es := State.pierPut_keeps (fun x => x.pier.es) (fun _ _ => rfl) (fun _ _ => rfl) _ _
@[simp] theorem State.pierEvent_es (s : State) (a b c x y z : Nat) : (s.pierEvent a b c x y z).pier.es = s.pier.es := State.pierPut_es _ _
@[simp] theorem State.alarm_es (s : State) (b : BayId) (k : Nat) (on : Bool) : (s.alarm b k on).pier.es = s.pier.es := by
  unfold State.alarm
  dsimp only
  split
  · rfl
  · simp
@[simp] theorem State.pierPut_rootState (s : State) (e : Event) : (s.pierPut e).pier.rootState = s.pier.rootState := State.pierPut_keeps (fun x => x.pier.rootState) (fun _ _ => rfl) (fun _ _ => rfl) _ _
@[simp] theorem State.pierEvent_rootState (s : State) (a b c x y z : Nat) : (s.pierEvent a b c x y z).pier.rootState = s.pier.rootState := State.pierPut_rootState _ _
@[simp] theorem State.alarm_rootState (s : State) (b : BayId) (k : Nat) (on : Bool) : (s.alarm b k on).pier.rootState = s.pier.rootState := by
  unfold State.alarm
  dsimp only
  split
  · rfl
  · simp
@[simp] theorem State.pierPut_hub (s : State) (e : Event) : (s.pierPut e).pier.hub = s.pier.hub := State.pierPut_keeps (fun x => x.pier.hub) (fun _ _ => rfl) (fun _ _ => rfl) _ _
@[simp] theorem State.pierEvent_hub (s : State) (a b c x y z : Nat) : (s.pierEvent a b c x y z).pier.hub = s.pier.hub := State.pierPut_hub _ _
@[simp] theorem State.alarm_hub (s : State) (b : BayId) (k : Nat) (on : Bool) : (s.alarm b k on).pier.hub = s.pier.hub := by
  unfold State.alarm
  dsimp only
  split
  · rfl
  · simp
@[simp] theorem State.pierPut_draws (s : State) (e : Event) : (s.pierPut e).pier.draws = s.pier.draws := State.pierPut_keeps (fun x => x.pier.draws) (fun _ _ => rfl) (fun _ _ => rfl) _ _
@[simp] theorem State.pierEvent_draws (s : State) (a b c x y z : Nat) : (s.pierEvent a b c x y z).pier.draws = s.pier.draws := State.pierPut_draws _ _
@[simp] theorem State.alarm_draws (s : State) (b : BayId) (k : Nat) (on : Bool) : (s.alarm b k on).pier.draws = s.pier.draws := by
  unfold State.alarm
  dsimp only
  split
  · rfl
  · simp

/-- A part of a bay that the mirror stream does not change. -/
theorem State.mirror_bay {β : Type} (g : Bay → β) (hg : ∀ b l p f, g { b with link := l, placed := p, lagFrom := f } = g b) (s : State) (t : TileId) (x : MItem) (n : Nat) (c : BayId) :
    g ((s.mirror t x n).bay c) = g (s.bay c) :=
  State.mirror_keeps (fun x => g (x.bay c)) t (fun y _ _ _ => by
    by_cases h : c = bayOf t
    · subst h; simp [hg]
    · simp [State.bay_onBay_ne _ _ _ _ h]) _ _ _

@[simp] theorem State.mirror_modeNow (s : State) (t : TileId) (x : MItem) (n : Nat) (c : BayId) : ((s.mirror t x n).bay c).modeNow = (s.bay c).modeNow := State.mirror_bay Bay.modeNow (fun _ _ _ _ => rfl) _ _ _ _ _
@[simp] theorem State.wrM_modeNow (s : State) (e : Entry) (t : TileId) (v i : Nat) (c : BayId) : ((s.wrM e t v i).bay c).modeNow = (s.bay c).modeNow := State.mirror_modeNow _ _ _ _ _
@[simp] theorem State.wrBM_modeNow (s : State) (e : Entry) (t : TileId) (a : Nat) (b : Bytes) (i : Nat) (c : BayId) : ((s.wrBM e t a b i).bay c).modeNow = (s.bay c).modeNow := State.mirror_modeNow _ _ _ _ _
@[simp] theorem State.mirror_roleE (s : State) (t : TileId) (x : MItem) (n : Nat) (c : BayId) : ((s.mirror t x n).bay c).roleE = (s.bay c).roleE := State.mirror_bay Bay.roleE (fun _ _ _ _ => rfl) _ _ _ _ _
@[simp] theorem State.wrM_roleE (s : State) (e : Entry) (t : TileId) (v i : Nat) (c : BayId) : ((s.wrM e t v i).bay c).roleE = (s.bay c).roleE := State.mirror_roleE _ _ _ _ _
@[simp] theorem State.wrBM_roleE (s : State) (e : Entry) (t : TileId) (a : Nat) (b : Bytes) (i : Nat) (c : BayId) : ((s.wrBM e t a b i).bay c).roleE = (s.bay c).roleE := State.mirror_roleE _ _ _ _ _
@[simp] theorem State.mirror_roleO (s : State) (t : TileId) (x : MItem) (n : Nat) (c : BayId) : ((s.mirror t x n).bay c).roleO = (s.bay c).roleO := State.mirror_bay Bay.roleO (fun _ _ _ _ => rfl) _ _ _ _ _
@[simp] theorem State.wrM_roleO (s : State) (e : Entry) (t : TileId) (v i : Nat) (c : BayId) : ((s.wrM e t v i).bay c).roleO = (s.bay c).roleO := State.mirror_roleO _ _ _ _ _
@[simp] theorem State.wrBM_roleO (s : State) (e : Entry) (t : TileId) (a : Nat) (b : Bytes) (i : Nat) (c : BayId) : ((s.wrBM e t a b i).bay c).roleO = (s.bay c).roleO := State.mirror_roleO _ _ _ _ _
@[simp] theorem State.mirror_ownE (s : State) (t : TileId) (x : MItem) (n : Nat) (c : BayId) : ((s.mirror t x n).bay c).ownE = (s.bay c).ownE := State.mirror_bay Bay.ownE (fun _ _ _ _ => rfl) _ _ _ _ _
@[simp] theorem State.wrM_ownE (s : State) (e : Entry) (t : TileId) (v i : Nat) (c : BayId) : ((s.wrM e t v i).bay c).ownE = (s.bay c).ownE := State.mirror_ownE _ _ _ _ _
@[simp] theorem State.wrBM_ownE (s : State) (e : Entry) (t : TileId) (a : Nat) (b : Bytes) (i : Nat) (c : BayId) : ((s.wrBM e t a b i).bay c).ownE = (s.bay c).ownE := State.mirror_ownE _ _ _ _ _
@[simp] theorem State.mirror_ownO (s : State) (t : TileId) (x : MItem) (n : Nat) (c : BayId) : ((s.mirror t x n).bay c).ownO = (s.bay c).ownO := State.mirror_bay Bay.ownO (fun _ _ _ _ => rfl) _ _ _ _ _
@[simp] theorem State.wrM_ownO (s : State) (e : Entry) (t : TileId) (v i : Nat) (c : BayId) : ((s.wrM e t v i).bay c).ownO = (s.bay c).ownO := State.mirror_ownO _ _ _ _ _
@[simp] theorem State.wrBM_ownO (s : State) (e : Entry) (t : TileId) (a : Nat) (b : Bytes) (i : Nat) (c : BayId) : ((s.wrBM e t a b i).bay c).ownO = (s.bay c).ownO := State.mirror_ownO _ _ _ _ _
@[simp] theorem State.mirror_ownFell (s : State) (t : TileId) (x : MItem) (n : Nat) (c : BayId) : ((s.mirror t x n).bay c).ownFell = (s.bay c).ownFell := State.mirror_bay Bay.ownFell (fun _ _ _ _ => rfl) _ _ _ _ _
@[simp] theorem State.wrM_ownFell (s : State) (e : Entry) (t : TileId) (v i : Nat) (c : BayId) : ((s.wrM e t v i).bay c).ownFell = (s.bay c).ownFell := State.mirror_ownFell _ _ _ _ _
@[simp] theorem State.wrBM_ownFell (s : State) (e : Entry) (t : TileId) (a : Nat) (b : Bytes) (i : Nat) (c : BayId) : ((s.wrBM e t a b i).bay c).ownFell = (s.bay c).ownFell := State.mirror_ownFell _ _ _ _ _
@[simp] theorem State.mirror_roseE (s : State) (t : TileId) (x : MItem) (n : Nat) (c : BayId) : ((s.mirror t x n).bay c).roseE = (s.bay c).roseE := State.mirror_bay Bay.roseE (fun _ _ _ _ => rfl) _ _ _ _ _
@[simp] theorem State.wrM_roseE (s : State) (e : Entry) (t : TileId) (v i : Nat) (c : BayId) : ((s.wrM e t v i).bay c).roseE = (s.bay c).roseE := State.mirror_roseE _ _ _ _ _
@[simp] theorem State.wrBM_roseE (s : State) (e : Entry) (t : TileId) (a : Nat) (b : Bytes) (i : Nat) (c : BayId) : ((s.wrBM e t a b i).bay c).roseE = (s.bay c).roseE := State.mirror_roseE _ _ _ _ _
@[simp] theorem State.mirror_roseO (s : State) (t : TileId) (x : MItem) (n : Nat) (c : BayId) : ((s.mirror t x n).bay c).roseO = (s.bay c).roseO := State.mirror_bay Bay.roseO (fun _ _ _ _ => rfl) _ _ _ _ _
@[simp] theorem State.wrM_roseO (s : State) (e : Entry) (t : TileId) (v i : Nat) (c : BayId) : ((s.wrM e t v i).bay c).roseO = (s.bay c).roseO := State.mirror_roseO _ _ _ _ _
@[simp] theorem State.wrBM_roseO (s : State) (e : Entry) (t : TileId) (a : Nat) (b : Bytes) (i : Nat) (c : BayId) : ((s.wrBM e t a b i).bay c).roseO = (s.bay c).roseO := State.mirror_roseO _ _ _ _ _
@[simp] theorem State.mirror_reported (s : State) (t : TileId) (x : MItem) (n : Nat) (c : BayId) : ((s.mirror t x n).bay c).reported = (s.bay c).reported := State.mirror_bay Bay.reported (fun _ _ _ _ => rfl) _ _ _ _ _
@[simp] theorem State.wrM_reported (s : State) (e : Entry) (t : TileId) (v i : Nat) (c : BayId) : ((s.wrM e t v i).bay c).reported = (s.bay c).reported := State.mirror_reported _ _ _ _ _
@[simp] theorem State.wrBM_reported (s : State) (e : Entry) (t : TileId) (a : Nat) (b : Bytes) (i : Nat) (c : BayId) : ((s.wrBM e t a b i).bay c).reported = (s.bay c).reported := State.mirror_reported _ _ _ _ _
@[simp] theorem State.mirror_tries (s : State) (t : TileId) (x : MItem) (n : Nat) (c : BayId) : ((s.mirror t x n).bay c).tries = (s.bay c).tries := State.mirror_bay Bay.tries (fun _ _ _ _ => rfl) _ _ _ _ _
@[simp] theorem State.wrM_tries (s : State) (e : Entry) (t : TileId) (v i : Nat) (c : BayId) : ((s.wrM e t v i).bay c).tries = (s.bay c).tries := State.mirror_tries _ _ _ _ _
@[simp] theorem State.wrBM_tries (s : State) (e : Entry) (t : TileId) (a : Nat) (b : Bytes) (i : Nat) (c : BayId) : ((s.wrBM e t a b i).bay c).tries = (s.bay c).tries := State.mirror_tries _ _ _ _ _
@[simp] theorem State.mirror_fifo (s : State) (t : TileId) (x : MItem) (n : Nat) (c : BayId) : ((s.mirror t x n).bay c).fifo = (s.bay c).fifo := State.mirror_bay Bay.fifo (fun _ _ _ _ => rfl) _ _ _ _ _
@[simp] theorem State.wrM_fifo (s : State) (e : Entry) (t : TileId) (v i : Nat) (c : BayId) : ((s.wrM e t v i).bay c).fifo = (s.bay c).fifo := State.mirror_fifo _ _ _ _ _
@[simp] theorem State.wrBM_fifo (s : State) (e : Entry) (t : TileId) (a : Nat) (b : Bytes) (i : Nat) (c : BayId) : ((s.wrBM e t a b i).bay c).fifo = (s.bay c).fifo := State.mirror_fifo _ _ _ _ _
@[simp] theorem State.mirror_promo (s : State) (t : TileId) (x : MItem) (n : Nat) (c : BayId) : ((s.mirror t x n).bay c).promo = (s.bay c).promo := State.mirror_bay Bay.promo (fun _ _ _ _ => rfl) _ _ _ _ _
@[simp] theorem State.wrM_promo (s : State) (e : Entry) (t : TileId) (v i : Nat) (c : BayId) : ((s.wrM e t v i).bay c).promo = (s.bay c).promo := State.mirror_promo _ _ _ _ _
@[simp] theorem State.wrBM_promo (s : State) (e : Entry) (t : TileId) (a : Nat) (b : Bytes) (i : Nat) (c : BayId) : ((s.wrBM e t a b i).bay c).promo = (s.bay c).promo := State.mirror_promo _ _ _ _ _
@[simp] theorem State.mirror_handover (s : State) (t : TileId) (x : MItem) (n : Nat) (c : BayId) : ((s.mirror t x n).bay c).handover = (s.bay c).handover := State.mirror_bay Bay.handover (fun _ _ _ _ => rfl) _ _ _ _ _
@[simp] theorem State.wrM_handover (s : State) (e : Entry) (t : TileId) (v i : Nat) (c : BayId) : ((s.wrM e t v i).bay c).handover = (s.bay c).handover := State.mirror_handover _ _ _ _ _
@[simp] theorem State.wrBM_handover (s : State) (e : Entry) (t : TileId) (a : Nat) (b : Bytes) (i : Nat) (c : BayId) : ((s.wrBM e t a b i).bay c).handover = (s.bay c).handover := State.mirror_handover _ _ _ _ _
@[simp] theorem State.mirror_modeTo (s : State) (t : TileId) (x : MItem) (n : Nat) (c : BayId) : ((s.mirror t x n).bay c).modeTo = (s.bay c).modeTo := State.mirror_bay Bay.modeTo (fun _ _ _ _ => rfl) _ _ _ _ _
@[simp] theorem State.wrM_modeTo (s : State) (e : Entry) (t : TileId) (v i : Nat) (c : BayId) : ((s.wrM e t v i).bay c).modeTo = (s.bay c).modeTo := State.mirror_modeTo _ _ _ _ _
@[simp] theorem State.wrBM_modeTo (s : State) (e : Entry) (t : TileId) (a : Nat) (b : Bytes) (i : Nat) (c : BayId) : ((s.wrBM e t a b i).bay c).modeTo = (s.bay c).modeTo := State.mirror_modeTo _ _ _ _ _
@[simp] theorem State.mirror_tie (s : State) (t : TileId) (x : MItem) (n : Nat) (c : BayId) : ((s.mirror t x n).bay c).tie = (s.bay c).tie := State.mirror_bay Bay.tie (fun _ _ _ _ => rfl) _ _ _ _ _
@[simp] theorem State.wrM_tie (s : State) (e : Entry) (t : TileId) (v i : Nat) (c : BayId) : ((s.wrM e t v i).bay c).tie = (s.bay c).tie := State.mirror_tie _ _ _ _ _
@[simp] theorem State.wrBM_tie (s : State) (e : Entry) (t : TileId) (a : Nat) (b : Bytes) (i : Nat) (c : BayId) : ((s.wrBM e t a b i).bay c).tie = (s.bay c).tie := State.mirror_tie _ _ _ _ _
@[simp] theorem State.mirror_groups (s : State) (t : TileId) (x : MItem) (n : Nat) (c : BayId) : ((s.mirror t x n).bay c).groups = (s.bay c).groups := State.mirror_bay Bay.groups (fun _ _ _ _ => rfl) _ _ _ _ _
@[simp] theorem State.wrM_groups (s : State) (e : Entry) (t : TileId) (v i : Nat) (c : BayId) : ((s.wrM e t v i).bay c).groups = (s.bay c).groups := State.mirror_groups _ _ _ _ _
@[simp] theorem State.wrBM_groups (s : State) (e : Entry) (t : TileId) (a : Nat) (b : Bytes) (i : Nat) (c : BayId) : ((s.wrBM e t a b i).bay c).groups = (s.bay c).groups := State.mirror_groups _ _ _ _ _
@[simp] theorem State.mirror_resync (s : State) (t : TileId) (x : MItem) (n : Nat) (c : BayId) : ((s.mirror t x n).bay c).resync = (s.bay c).resync := State.mirror_bay Bay.resync (fun _ _ _ _ => rfl) _ _ _ _ _
@[simp] theorem State.wrM_resync (s : State) (e : Entry) (t : TileId) (v i : Nat) (c : BayId) : ((s.wrM e t v i).bay c).resync = (s.bay c).resync := State.mirror_resync _ _ _ _ _
@[simp] theorem State.wrBM_resync (s : State) (e : Entry) (t : TileId) (a : Nat) (b : Bytes) (i : Nat) (c : BayId) : ((s.wrBM e t a b i).bay c).resync = (s.bay c).resync := State.mirror_resync _ _ _ _ _
@[simp] theorem State.mirror_lastBeat (s : State) (t : TileId) (x : MItem) (n : Nat) (c : BayId) : ((s.mirror t x n).bay c).lastBeat = (s.bay c).lastBeat := State.mirror_bay Bay.lastBeat (fun _ _ _ _ => rfl) _ _ _ _ _
@[simp] theorem State.wrM_lastBeat (s : State) (e : Entry) (t : TileId) (v i : Nat) (c : BayId) : ((s.wrM e t v i).bay c).lastBeat = (s.bay c).lastBeat := State.mirror_lastBeat _ _ _ _ _
@[simp] theorem State.wrBM_lastBeat (s : State) (e : Entry) (t : TileId) (a : Nat) (b : Bytes) (i : Nat) (c : BayId) : ((s.wrBM e t a b i).bay c).lastBeat = (s.bay c).lastBeat := State.mirror_lastBeat _ _ _ _ _
@[simp] theorem State.mirror_auditCount (s : State) (t : TileId) (x : MItem) (n : Nat) (c : BayId) : ((s.mirror t x n).bay c).auditCount = (s.bay c).auditCount := State.mirror_bay Bay.auditCount (fun _ _ _ _ => rfl) _ _ _ _ _
@[simp] theorem State.wrM_auditCount (s : State) (e : Entry) (t : TileId) (v i : Nat) (c : BayId) : ((s.wrM e t v i).bay c).auditCount = (s.bay c).auditCount := State.mirror_auditCount _ _ _ _ _
@[simp] theorem State.wrBM_auditCount (s : State) (e : Entry) (t : TileId) (a : Nat) (b : Bytes) (i : Nat) (c : BayId) : ((s.wrBM e t a b i).bay c).auditCount = (s.bay c).auditCount := State.mirror_auditCount _ _ _ _ _
@[simp] theorem State.mirror_rateLow (s : State) (t : TileId) (x : MItem) (n : Nat) (c : BayId) : ((s.mirror t x n).bay c).rateLow = (s.bay c).rateLow := State.mirror_bay Bay.rateLow (fun _ _ _ _ => rfl) _ _ _ _ _
@[simp] theorem State.wrM_rateLow (s : State) (e : Entry) (t : TileId) (v i : Nat) (c : BayId) : ((s.wrM e t v i).bay c).rateLow = (s.bay c).rateLow := State.mirror_rateLow _ _ _ _ _
@[simp] theorem State.wrBM_rateLow (s : State) (e : Entry) (t : TileId) (a : Nat) (b : Bytes) (i : Nat) (c : BayId) : ((s.wrBM e t a b i).bay c).rateLow = (s.bay c).rateLow := State.mirror_rateLow _ _ _ _ _
@[simp] theorem State.mirror_toutSec (s : State) (t : TileId) (x : MItem) (n : Nat) (c : BayId) : ((s.mirror t x n).bay c).toutSec = (s.bay c).toutSec := State.mirror_bay Bay.toutSec (fun _ _ _ _ => rfl) _ _ _ _ _
@[simp] theorem State.wrM_toutSec (s : State) (e : Entry) (t : TileId) (v i : Nat) (c : BayId) : ((s.wrM e t v i).bay c).toutSec = (s.bay c).toutSec := State.mirror_toutSec _ _ _ _ _
@[simp] theorem State.wrBM_toutSec (s : State) (e : Entry) (t : TileId) (a : Nat) (b : Bytes) (i : Nat) (c : BayId) : ((s.wrBM e t a b i).bay c).toutSec = (s.bay c).toutSec := State.mirror_toutSec _ _ _ _ _
@[simp] theorem State.mirror_toutLevel (s : State) (t : TileId) (x : MItem) (n : Nat) (c : BayId) : ((s.mirror t x n).bay c).toutLevel = (s.bay c).toutLevel := State.mirror_bay Bay.toutLevel (fun _ _ _ _ => rfl) _ _ _ _ _
@[simp] theorem State.wrM_toutLevel (s : State) (e : Entry) (t : TileId) (v i : Nat) (c : BayId) : ((s.wrM e t v i).bay c).toutLevel = (s.bay c).toutLevel := State.mirror_toutLevel _ _ _ _ _
@[simp] theorem State.wrBM_toutLevel (s : State) (e : Entry) (t : TileId) (a : Nat) (b : Bytes) (i : Nat) (c : BayId) : ((s.wrBM e t a b i).bay c).toutLevel = (s.bay c).toutLevel := State.mirror_toutLevel _ _ _ _ _
@[simp] theorem State.mirror_legalEn (s : State) (t : TileId) (x : MItem) (n : Nat) (c : BayId) : ((s.mirror t x n).bay c).legalEn = (s.bay c).legalEn := State.mirror_bay Bay.legalEn (fun _ _ _ _ => rfl) _ _ _ _ _
@[simp] theorem State.wrM_legalEn (s : State) (e : Entry) (t : TileId) (v i : Nat) (c : BayId) : ((s.wrM e t v i).bay c).legalEn = (s.bay c).legalEn := State.mirror_legalEn _ _ _ _ _
@[simp] theorem State.wrBM_legalEn (s : State) (e : Entry) (t : TileId) (a : Nat) (b : Bytes) (i : Nat) (c : BayId) : ((s.wrBM e t a b i).bay c).legalEn = (s.bay c).legalEn := State.mirror_legalEn _ _ _ _ _
@[simp] theorem State.mirror_pulses (s : State) (t : TileId) (x : MItem) (n : Nat) (c : BayId) : ((s.mirror t x n).bay c).pulses = (s.bay c).pulses := State.mirror_bay Bay.pulses (fun _ _ _ _ => rfl) _ _ _ _ _
@[simp] theorem State.wrM_pulses (s : State) (e : Entry) (t : TileId) (v i : Nat) (c : BayId) : ((s.wrM e t v i).bay c).pulses = (s.bay c).pulses := State.mirror_pulses _ _ _ _ _
@[simp] theorem State.wrBM_pulses (s : State) (e : Entry) (t : TileId) (a : Nat) (b : Bytes) (i : Nat) (c : BayId) : ((s.wrBM e t a b i).bay c).pulses = (s.bay c).pulses := State.mirror_pulses _ _ _ _ _
@[simp] theorem State.mirror_dispPos (s : State) (t : TileId) (x : MItem) (n : Nat) (c : BayId) : ((s.mirror t x n).bay c).dispPos = (s.bay c).dispPos := State.mirror_bay Bay.dispPos (fun _ _ _ _ => rfl) _ _ _ _ _
@[simp] theorem State.wrM_dispPos (s : State) (e : Entry) (t : TileId) (v i : Nat) (c : BayId) : ((s.wrM e t v i).bay c).dispPos = (s.bay c).dispPos := State.mirror_dispPos _ _ _ _ _
@[simp] theorem State.wrBM_dispPos (s : State) (e : Entry) (t : TileId) (a : Nat) (b : Bytes) (i : Nat) (c : BayId) : ((s.wrBM e t a b i).bay c).dispPos = (s.bay c).dispPos := State.mirror_dispPos _ _ _ _ _
@[simp] theorem State.mirror_dispAt (s : State) (t : TileId) (x : MItem) (n : Nat) (c : BayId) : ((s.mirror t x n).bay c).dispAt = (s.bay c).dispAt := State.mirror_bay Bay.dispAt (fun _ _ _ _ => rfl) _ _ _ _ _
@[simp] theorem State.wrM_dispAt (s : State) (e : Entry) (t : TileId) (v i : Nat) (c : BayId) : ((s.wrM e t v i).bay c).dispAt = (s.bay c).dispAt := State.mirror_dispAt _ _ _ _ _
@[simp] theorem State.wrBM_dispAt (s : State) (e : Entry) (t : TileId) (a : Nat) (b : Bytes) (i : Nat) (c : BayId) : ((s.wrBM e t a b i).bay c).dispAt = (s.bay c).dispAt := State.mirror_dispAt _ _ _ _ _
@[simp] theorem State.mirror_unlockTo (s : State) (t : TileId) (x : MItem) (n : Nat) (c : BayId) : ((s.mirror t x n).bay c).unlockTo = (s.bay c).unlockTo := State.mirror_bay Bay.unlockTo (fun _ _ _ _ => rfl) _ _ _ _ _
@[simp] theorem State.wrM_unlockTo (s : State) (e : Entry) (t : TileId) (v i : Nat) (c : BayId) : ((s.wrM e t v i).bay c).unlockTo = (s.bay c).unlockTo := State.mirror_unlockTo _ _ _ _ _
@[simp] theorem State.wrBM_unlockTo (s : State) (e : Entry) (t : TileId) (a : Nat) (b : Bytes) (i : Nat) (c : BayId) : ((s.wrBM e t a b i).bay c).unlockTo = (s.bay c).unlockTo := State.mirror_unlockTo _ _ _ _ _
@[simp] theorem State.mirror_arms (s : State) (t : TileId) (x : MItem) (n : Nat) (c : BayId) : ((s.mirror t x n).bay c).arms = (s.bay c).arms := State.mirror_bay Bay.arms (fun _ _ _ _ => rfl) _ _ _ _ _
@[simp] theorem State.wrM_arms (s : State) (e : Entry) (t : TileId) (v i : Nat) (c : BayId) : ((s.wrM e t v i).bay c).arms = (s.bay c).arms := State.mirror_arms _ _ _ _ _
@[simp] theorem State.wrBM_arms (s : State) (e : Entry) (t : TileId) (a : Nat) (b : Bytes) (i : Nat) (c : BayId) : ((s.wrBM e t a b i).bay c).arms = (s.bay c).arms := State.mirror_arms _ _ _ _ _
@[simp] theorem State.mirror_mdelay (s : State) (t : TileId) (x : MItem) (n : Nat) (c : BayId) : ((s.mirror t x n).bay c).mdelay = (s.bay c).mdelay := State.mirror_bay Bay.mdelay (fun _ _ _ _ => rfl) _ _ _ _ _
@[simp] theorem State.wrM_mdelay (s : State) (e : Entry) (t : TileId) (v i : Nat) (c : BayId) : ((s.wrM e t v i).bay c).mdelay = (s.bay c).mdelay := State.mirror_mdelay _ _ _ _ _
@[simp] theorem State.wrBM_mdelay (s : State) (e : Entry) (t : TileId) (a : Nat) (b : Bytes) (i : Nat) (c : BayId) : ((s.wrBM e t a b i).bay c).mdelay = (s.bay c).mdelay := State.mirror_mdelay _ _ _ _ _
@[simp] theorem State.mirror_auditAt (s : State) (t : TileId) (x : MItem) (n : Nat) (c : BayId) : ((s.mirror t x n).bay c).auditAt = (s.bay c).auditAt := State.mirror_bay Bay.auditAt (fun _ _ _ _ => rfl) _ _ _ _ _
@[simp] theorem State.wrM_auditAt (s : State) (e : Entry) (t : TileId) (v i : Nat) (c : BayId) : ((s.wrM e t v i).bay c).auditAt = (s.bay c).auditAt := State.mirror_auditAt _ _ _ _ _
@[simp] theorem State.wrBM_auditAt (s : State) (e : Entry) (t : TileId) (a : Nat) (b : Bytes) (i : Nat) (c : BayId) : ((s.wrBM e t a b i).bay c).auditAt = (s.bay c).auditAt := State.mirror_auditAt _ _ _ _ _
@[simp] theorem State.mirror_rate (s : State) (t : TileId) (x : MItem) (n : Nat) (c : BayId) : ((s.mirror t x n).bay c).rate = (s.bay c).rate := State.mirror_bay Bay.rate (fun _ _ _ _ => rfl) _ _ _ _ _
@[simp] theorem State.wrM_rate (s : State) (e : Entry) (t : TileId) (v i : Nat) (c : BayId) : ((s.wrM e t v i).bay c).rate = (s.bay c).rate := State.mirror_rate _ _ _ _ _
@[simp] theorem State.wrBM_rate (s : State) (e : Entry) (t : TileId) (a : Nat) (b : Bytes) (i : Nat) (c : BayId) : ((s.wrBM e t a b i).bay c).rate = (s.bay c).rate := State.mirror_rate _ _ _ _ _
@[simp] theorem State.role_mirror (s : State) (t : TileId) (x : MItem) (n : Nat) (u : TileId) : (s.mirror t x n).role u = s.role u := by simp [State.role]
@[simp] theorem State.serves_mirror (s : State) (t : TileId) (x : MItem) (n : Nat) (u : TileId) : (s.mirror t x n).serves u = s.serves u := by simp [State.serves]
@[simp] theorem State.role_wrM (s : State) (e : Entry) (t : TileId) (v i : Nat) (u : TileId) : (s.wrM e t v i).role u = s.role u := by simp [State.role]
@[simp] theorem State.serves_wrM (s : State) (e : Entry) (t : TileId) (v i : Nat) (u : TileId) : (s.wrM e t v i).serves u = s.serves u := by simp [State.serves]
@[simp] theorem State.role_wrBM (s : State) (e : Entry) (t : TileId) (a : Nat) (b : Bytes) (i : Nat) (u : TileId) : (s.wrBM e t a b i).role u = s.role u := by simp [State.role]
@[simp] theorem State.serves_wrBM (s : State) (e : Entry) (t : TileId) (a : Nat) (b : Bytes) (i : Nat) (u : TileId) : (s.wrBM e t a b i).serves u = s.serves u := by simp [State.serves]

/-! ### What an access to a tile queue leaves -/

theorem State.setQueue_vol {β : Type} (g : Vol → β) (hg : ∀ v q, g { v with queues := q } = g v) (s : State) (t u : TileId) (c : Fin 7) (q : PPQ QItem) :
    g ((s.setQueue t c q).vol u) = g (s.vol u) := by
  by_cases h : u = t
  · subst h; simp [State.setQueue, hg]
  · simp [State.setQueue, State.vol, State.onVol, State.tile_onTile_ne _ _ _ _ h]

theorem State.setQueue_tile {β : Type} (g : Tile → β) (hg : ∀ x v, g { x with vol := v } = g x) (s : State) (t u : TileId) (c : Fin 7) (q : PPQ QItem) :
    g ((s.setQueue t c q).tile u) = g (s.tile u) := by
  by_cases h : u = t
  · subst h; simp [State.setQueue, hg]
  · simp [State.setQueue, State.onVol, State.tile_onTile_ne _ _ _ _ h]

@[simp] theorem State.event_boot (s : State) (t : TileId) (a b x y z : Nat) (u : TileId) : ((s.event t a b x y z).vol u).boot = (s.vol u).boot := State.event_keeps (fun x => (x.vol u).boot) t (fun _ _ => State.setQueue_vol Vol.boot (fun _ _ => rfl) _ _ _ _ _) (fun _ _ => rfl) (fun _ _ => rfl) (fun _ _ => rfl) (fun _ _ => rfl) _ _ _ _ _ _
@[simp] theorem State.event_mer (s : State) (t : TileId) (a b x y z : Nat) (u : TileId) : ((s.event t a b x y z).vol u).mer = (s.vol u).mer := State.event_keeps (fun x => (x.vol u).mer) t (fun _ _ => State.setQueue_vol Vol.mer (fun _ _ => rfl) _ _ _ _ _) (fun _ _ => rfl) (fun _ _ => rfl) (fun _ _ => rfl) (fun _ _ => rfl) _ _ _ _ _ _
@[simp] theorem State.event_vault (s : State) (t : TileId) (a b x y z : Nat) (u : TileId) : ((s.event t a b x y z).vol u).vault = (s.vol u).vault := State.event_keeps (fun x => (x.vol u).vault) t (fun _ _ => State.setQueue_vol Vol.vault (fun _ _ => rfl) _ _ _ _ _) (fun _ _ => rfl) (fun _ _ => rfl) (fun _ _ => rfl) (fun _ _ => rfl) _ _ _ _ _ _
@[simp] theorem State.event_meters (s : State) (t : TileId) (a b x y z : Nat) (u : TileId) : ((s.event t a b x y z).vol u).meters = (s.vol u).meters := State.event_keeps (fun x => (x.vol u).meters) t (fun _ _ => State.setQueue_vol Vol.meters (fun _ _ => rfl) _ _ _ _ _) (fun _ _ => rfl) (fun _ _ => rfl) (fun _ _ => rfl) (fun _ _ => rfl) _ _ _ _ _ _
@[simp] theorem State.event_gather (s : State) (t : TileId) (a b x y z : Nat) (u : TileId) : ((s.event t a b x y z).vol u).gather = (s.vol u).gather := State.event_keeps (fun x => (x.vol u).gather) t (fun _ _ => State.setQueue_vol Vol.gather (fun _ _ => rfl) _ _ _ _ _) (fun _ _ => rfl) (fun _ _ => rfl) (fun _ _ => rfl) (fun _ _ => rfl) _ _ _ _ _ _
@[simp] theorem State.event_marver (s : State) (t : TileId) (a b x y z : Nat) (u : TileId) : ((s.event t a b x y z).vol u).marver = (s.vol u).marver := State.event_keeps (fun x => (x.vol u).marver) t (fun _ _ => State.setQueue_vol Vol.marver (fun _ _ => rfl) _ _ _ _ _) (fun _ _ => rfl) (fun _ _ => rfl) (fun _ _ => rfl) (fun _ _ => rfl) _ _ _ _ _ _
@[simp] theorem State.event_lehr (s : State) (t : TileId) (a b x y z : Nat) (u : TileId) : ((s.event t a b x y z).vol u).lehr = (s.vol u).lehr := State.event_keeps (fun x => (x.vol u).lehr) t (fun _ _ => State.setQueue_vol Vol.lehr (fun _ _ => rfl) _ _ _ _ _) (fun _ _ => rfl) (fun _ _ => rfl) (fun _ _ => rfl) (fun _ _ => rfl) _ _ _ _ _ _
@[simp] theorem State.event_elog (s : State) (t : TileId) (a b x y z : Nat) (u : TileId) : ((s.event t a b x y z).vol u).elog = (s.vol u).elog := State.event_keeps (fun x => (x.vol u).elog) t (fun _ _ => State.setQueue_vol Vol.elog (fun _ _ => rfl) _ _ _ _ _) (fun _ _ => rfl) (fun _ _ => rfl) (fun _ _ => rfl) (fun _ _ => rfl) _ _ _ _ _ _
@[simp] theorem State.event_sw (s : State) (t : TileId) (a b x y z : Nat) (u : TileId) : ((s.event t a b x y z).vol u).sw = (s.vol u).sw := State.event_keeps (fun x => (x.vol u).sw) t (fun _ _ => State.setQueue_vol Vol.sw (fun _ _ => rfl) _ _ _ _ _) (fun _ _ => rfl) (fun _ _ => rfl) (fun _ _ => rfl) (fun _ _ => rfl) _ _ _ _ _ _
@[simp] theorem State.event_bal (s : State) (t : TileId) (a b x y z : Nat) (u : TileId) : ((s.event t a b x y z).vol u).bal = (s.vol u).bal := State.event_keeps (fun x => (x.vol u).bal) t (fun _ _ => State.setQueue_vol Vol.bal (fun _ _ => rfl) _ _ _ _ _) (fun _ _ => rfl) (fun _ _ => rfl) (fun _ _ => rfl) (fun _ _ => rfl) _ _ _ _ _ _
@[simp] theorem State.event_metro (s : State) (t : TileId) (a b x y z : Nat) (u : TileId) : ((s.event t a b x y z).vol u).metro = (s.vol u).metro := State.event_keeps (fun x => (x.vol u).metro) t (fun _ _ => State.setQueue_vol Vol.metro (fun _ _ => rfl) _ _ _ _ _) (fun _ _ => rfl) (fun _ _ => rfl) (fun _ _ => rfl) (fun _ _ => rfl) _ _ _ _ _ _
@[simp] theorem State.event_plc (s : State) (t : TileId) (a b x y z : Nat) (u : TileId) : ((s.event t a b x y z).vol u).plc = (s.vol u).plc := State.event_keeps (fun x => (x.vol u).plc) t (fun _ _ => State.setQueue_vol Vol.plc (fun _ _ => rfl) _ _ _ _ _) (fun _ _ => rfl) (fun _ _ => rfl) (fun _ _ => rfl) (fun _ _ => rfl) _ _ _ _ _ _
@[simp] theorem State.event_rf (s : State) (t : TileId) (a b x y z : Nat) (u : TileId) : ((s.event t a b x y z).vol u).rf = (s.vol u).rf := State.event_keeps (fun x => (x.vol u).rf) t (fun _ _ => State.setQueue_vol Vol.rf (fun _ _ => rfl) _ _ _ _ _) (fun _ _ => rfl) (fun _ _ => rfl) (fun _ _ => rfl) (fun _ _ => rfl) _ _ _ _ _ _
@[simp] theorem State.event_radio (s : State) (t : TileId) (a b x y z : Nat) (u : TileId) : ((s.event t a b x y z).vol u).radio = (s.vol u).radio := State.event_keeps (fun x => (x.vol u).radio) t (fun _ _ => State.setQueue_vol Vol.radio (fun _ _ => rfl) _ _ _ _ _) (fun _ _ => rfl) (fun _ _ => rfl) (fun _ _ => rfl) (fun _ _ => rfl) _ _ _ _ _ _
@[simp] theorem State.event_diag (s : State) (t : TileId) (a b x y z : Nat) (u : TileId) : ((s.event t a b x y z).vol u).diag = (s.vol u).diag := State.event_keeps (fun x => (x.vol u).diag) t (fun _ _ => State.setQueue_vol Vol.diag (fun _ _ => rfl) _ _ _ _ _) (fun _ _ => rfl) (fun _ _ => rfl) (fun _ _ => rfl) (fun _ _ => rfl) _ _ _ _ _ _
@[simp] theorem State.event_eph (s : State) (t : TileId) (a b x y z : Nat) (u : TileId) : ((s.event t a b x y z).vol u).eph = (s.vol u).eph := State.event_keeps (fun x => (x.vol u).eph) t (fun _ _ => State.setQueue_vol Vol.eph (fun _ _ => rfl) _ _ _ _ _) (fun _ _ => rfl) (fun _ _ => rfl) (fun _ _ => rfl) (fun _ _ => rfl) _ _ _ _ _ _
@[simp] theorem State.event_drive (s : State) (t : TileId) (a b x y z : Nat) (u : TileId) : ((s.event t a b x y z).vol u).drive = (s.vol u).drive := State.event_keeps (fun x => (x.vol u).drive) t (fun _ _ => State.setQueue_vol Vol.drive (fun _ _ => rfl) _ _ _ _ _) (fun _ _ => rfl) (fun _ _ => rfl) (fun _ _ => rfl) (fun _ _ => rfl) _ _ _ _ _ _
@[simp] theorem State.event_syncWanted (s : State) (t : TileId) (a b x y z : Nat) (u : TileId) : ((s.event t a b x y z).vol u).syncWanted = (s.vol u).syncWanted := State.event_keeps (fun x => (x.vol u).syncWanted) t (fun _ _ => State.setQueue_vol Vol.syncWanted (fun _ _ => rfl) _ _ _ _ _) (fun _ _ => rfl) (fun _ _ => rfl) (fun _ _ => rfl) (fun _ _ => rfl) _ _ _ _ _ _
@[simp] theorem State.event_ptpSec (s : State) (t : TileId) (a b x y z : Nat) (u : TileId) : ((s.event t a b x y z).vol u).ptpSec = (s.vol u).ptpSec := State.event_keeps (fun x => (x.vol u).ptpSec) t (fun _ _ => State.setQueue_vol Vol.ptpSec (fun _ _ => rfl) _ _ _ _ _) (fun _ _ => rfl) (fun _ _ => rfl) (fun _ _ => rfl) (fun _ _ => rfl) _ _ _ _ _ _
@[simp] theorem State.event_media (s : State) (t : TileId) (a b x y z : Nat) (u : TileId) : ((s.event t a b x y z).tile u).media = (s.tile u).media := State.event_keeps (fun x => (x.tile u).media) t (fun _ _ => State.setQueue_tile Tile.media (fun _ _ => rfl) _ _ _ _ _) (fun _ _ => rfl) (fun _ _ => rfl) (fun _ _ => rfl) (fun _ _ => rfl) _ _ _ _ _ _
@[simp] theorem State.event_page0 (s : State) (t : TileId) (a b x y z : Nat) (u : TileId) : ((s.event t a b x y z).tile u).page0 = (s.tile u).page0 := State.event_keeps (fun x => (x.tile u).page0) t (fun _ _ => State.setQueue_tile Tile.page0 (fun _ _ => rfl) _ _ _ _ _) (fun _ _ => rfl) (fun _ _ => rfl) (fun _ _ => rfl) (fun _ _ => rfl) _ _ _ _ _ _
@[simp] theorem State.event_page1 (s : State) (t : TileId) (a b x y z : Nat) (u : TileId) : ((s.event t a b x y z).tile u).page1 = (s.tile u).page1 := State.event_keeps (fun x => (x.tile u).page1) t (fun _ _ => State.setQueue_tile Tile.page1 (fun _ _ => rfl) _ _ _ _ _) (fun _ _ => rfl) (fun _ _ => rfl) (fun _ _ => rfl) (fun _ _ => rfl) _ _ _ _ _ _
@[simp] theorem State.event_retired (s : State) (t : TileId) (a b x y z : Nat) (u : TileId) : ((s.event t a b x y z).tile u).retired = (s.tile u).retired := State.event_keeps (fun x => (x.tile u).retired) t (fun _ _ => State.setQueue_tile Tile.retired (fun _ _ => rfl) _ _ _ _ _) (fun _ _ => rfl) (fun _ _ => rfl) (fun _ _ => rfl) (fun _ _ => rfl) _ _ _ _ _ _
@[simp] theorem State.event_fuseState (s : State) (t : TileId) (a b x y z : Nat) (u : TileId) : ((s.event t a b x y z).tile u).fuseState = (s.tile u).fuseState := State.event_keeps (fun x => (x.tile u).fuseState) t (fun _ _ => State.setQueue_tile Tile.fuseState (fun _ _ => rfl) _ _ _ _ _) (fun _ _ => rfl) (fun _ _ => rfl) (fun _ _ => rfl) (fun _ _ => rfl) _ _ _ _ _ _
@[simp] theorem State.event_code (s : State) (t : TileId) (a b x y z : Nat) (u : TileId) : ((s.event t a b x y z).tile u).code = (s.tile u).code := State.event_keeps (fun x => (x.tile u).code) t (fun _ _ => State.setQueue_tile Tile.code (fun _ _ => rfl) _ _ _ _ _) (fun _ _ => rfl) (fun _ _ => rfl) (fun _ _ => rfl) (fun _ _ => rfl) _ _ _ _ _ _
@[simp] theorem State.event_legal (s : State) (t : TileId) (a b x y z : Nat) (u : TileId) : ((s.event t a b x y z).tile u).legal = (s.tile u).legal := State.event_keeps (fun x => (x.tile u).legal) t (fun _ _ => State.setQueue_tile Tile.legal (fun _ _ => rfl) _ _ _ _ _) (fun _ _ => rfl) (fun _ _ => rfl) (fun _ _ => rfl) (fun _ _ => rfl) _ _ _ _ _ _
@[simp] theorem State.event_legalEnd (s : State) (t : TileId) (a b x y z : Nat) (u : TileId) : ((s.event t a b x y z).tile u).legalEnd = (s.tile u).legalEnd := State.event_keeps (fun x => (x.tile u).legalEnd) t (fun _ _ => State.setQueue_tile Tile.legalEnd (fun _ _ => rfl) _ _ _ _ _) (fun _ _ => rfl) (fun _ _ => rfl) (fun _ _ => rfl) (fun _ _ => rfl) _ _ _ _ _ _
@[simp] theorem State.event_legalBad (s : State) (t : TileId) (a b x y z : Nat) (u : TileId) : ((s.event t a b x y z).tile u).legalBad = (s.tile u).legalBad := State.event_keeps (fun x => (x.tile u).legalBad) t (fun _ _ => State.setQueue_tile Tile.legalBad (fun _ _ => rfl) _ _ _ _ _) (fun _ _ => rfl) (fun _ _ => rfl) (fun _ _ => rfl) (fun _ _ => rfl) _ _ _ _ _ _
@[simp] theorem State.event_calSince (s : State) (t : TileId) (a b x y z : Nat) (u : TileId) : ((s.event t a b x y z).tile u).calSince = (s.tile u).calSince := State.event_keeps (fun x => (x.tile u).calSince) t (fun _ _ => State.setQueue_tile Tile.calSince (fun _ _ => rfl) _ _ _ _ _) (fun _ _ => rfl) (fun _ _ => rfl) (fun _ _ => rfl) (fun _ _ => rfl) _ _ _ _ _ _
@[simp] theorem State.event_marks (s : State) (t : TileId) (a b x y z : Nat) (u : TileId) : ((s.event t a b x y z).tile u).marks = (s.tile u).marks := State.event_keeps (fun x => (x.tile u).marks) t (fun _ _ => State.setQueue_tile Tile.marks (fun _ _ => rfl) _ _ _ _ _) (fun _ _ => rfl) (fun _ _ => rfl) (fun _ _ => rfl) (fun _ _ => rfl) _ _ _ _ _ _
@[simp] theorem State.event_power (s : State) (t : TileId) (a b x y z : Nat) (u : TileId) : ((s.event t a b x y z).tile u).power = (s.tile u).power := State.event_keeps (fun x => (x.tile u).power) t (fun _ _ => State.setQueue_tile Tile.power (fun _ _ => rfl) _ _ _ _ _) (fun _ _ => rfl) (fun _ _ => rfl) (fun _ _ => rfl) (fun _ _ => rfl) _ _ _ _ _ _
@[simp] theorem State.event_upSince (s : State) (t : TileId) (a b x y z : Nat) (u : TileId) : ((s.event t a b x y z).tile u).upSince = (s.tile u).upSince := State.event_keeps (fun x => (x.tile u).upSince) t (fun _ _ => State.setQueue_tile Tile.upSince (fun _ _ => rfl) _ _ _ _ _) (fun _ _ => rfl) (fun _ _ => rfl) (fun _ _ => rfl) (fun _ _ => rfl) _ _ _ _ _ _
@[simp] theorem State.event_vanaOk (s : State) (t : TileId) (a b x y z : Nat) (u : TileId) : ((s.event t a b x y z).tile u).vanaOk = (s.tile u).vanaOk := State.event_keeps (fun x => (x.tile u).vanaOk) t (fun _ _ => State.setQueue_tile Tile.vanaOk (fun _ _ => rfl) _ _ _ _ _) (fun _ _ => rfl) (fun _ _ => rfl) (fun _ _ => rfl) (fun _ _ => rfl) _ _ _ _ _ _
@[simp] theorem State.event_plcEpoch (s : State) (t : TileId) (a b x y z : Nat) (u : TileId) : ((s.event t a b x y z).tile u).plcEpoch = (s.tile u).plcEpoch := State.event_keeps (fun x => (x.tile u).plcEpoch) t (fun _ _ => State.setQueue_tile Tile.plcEpoch (fun _ _ => rfl) _ _ _ _ _) (fun _ _ => rfl) (fun _ _ => rfl) (fun _ _ => rfl) (fun _ _ => rfl) _ _ _ _ _ _
@[simp] theorem State.event_draws (s : State) (t : TileId) (a b x y z : Nat) (u : TileId) : ((s.event t a b x y z).tile u).draws = (s.tile u).draws := State.event_keeps (fun x => (x.tile u).draws) t (fun _ _ => State.setQueue_tile Tile.draws (fun _ _ => rfl) _ _ _ _ _) (fun _ _ => rfl) (fun _ _ => rfl) (fun _ _ => rfl) (fun _ _ => rfl) _ _ _ _ _ _
@[simp] theorem State.event_out (s : State) (t : TileId) (a b x y z : Nat) : (s.event t a b x y z).out = s.out := State.event_keeps (fun x => x.out) t (fun _ _ => rfl) (fun _ _ => rfl) (fun _ _ => rfl) (fun _ _ => rfl) (fun _ _ => rfl) _ _ _ _ _ _
@[simp] theorem State.event_bays (s : State) (t : TileId) (a b x y z : Nat) : (s.event t a b x y z).bays = s.bays := State.event_keeps (fun x => x.bays) t (fun _ _ => rfl) (fun _ _ => rfl) (fun _ _ => rfl) (fun _ _ => rfl) (fun _ _ => rfl) _ _ _ _ _ _
@[simp] theorem State.event_bay (s : State) (t : TileId) (a b x y z : Nat) (c0 : BayId) : (s.event t a b x y z).bay c0 = s.bay c0 := State.event_keeps (fun x => x.bay c0) t (fun _ _ => rfl) (fun _ _ => rfl) (fun _ _ => rfl) (fun _ _ => rfl) (fun _ _ => rfl) _ _ _ _ _ _
@[simp] theorem State.event_role (s : State) (t : TileId) (a b x y z : Nat) (u : TileId) : (s.event t a b x y z).role u = s.role u := State.event_keeps (fun x => x.role u) t (fun _ _ => rfl) (fun _ _ => rfl) (fun _ _ => rfl) (fun _ _ => rfl) (fun _ _ => rfl) _ _ _ _ _ _
@[simp] theorem State.event_serves (s : State) (t : TileId) (a b x y z : Nat) (u : TileId) : (s.event t a b x y z).serves u = s.serves u := State.event_keeps (fun x => x.serves u) t (fun _ _ => rfl) (fun _ _ => rfl) (fun _ _ => rfl) (fun _ _ => rfl) (fun _ _ => rfl) _ _ _ _ _ _
@[simp] theorem State.event_inRun (s : State) (t : TileId) (a b x y z : Nat) (u : TileId) : (s.event t a b x y z).inRun u = s.inRun u := by simp [State.inRun]
@[simp] theorem State.event_pier_up (s : State) (t : TileId) (a b x y z : Nat) : (s.event t a b x y z).pier.up = s.pier.up := State.event_keeps (fun x => x.pier.up) t (fun _ _ => rfl) (fun _ _ => rfl) (fun _ _ => rfl) (fun _ _ => rfl) (fun _ _ => rfl) _ _ _ _ _ _
@[simp] theorem State.event_pier_clock (s : State) (t : TileId) (a b x y z : Nat) : (s.event t a b x y z).pier.clock = s.pier.clock := State.event_keeps (fun x => x.pier.clock) t (fun _ _ => rfl) (fun _ _ => rfl) (fun _ _ => rfl) (fun _ _ => rfl) (fun _ _ => rfl) _ _ _ _ _ _
@[simp] theorem State.event_pier_degraded (s : State) (t : TileId) (a b x y z : Nat) : (s.event t a b x y z).pier.degraded = s.pier.degraded := State.event_keeps (fun x => x.pier.degraded) t (fun _ _ => rfl) (fun _ _ => rfl) (fun _ _ => rfl) (fun _ _ => rfl) (fun _ _ => rfl) _ _ _ _ _ _
@[simp] theorem State.event_pier_pfail (s : State) (t : TileId) (a b x y z : Nat) : (s.event t a b x y z).pier.pfail = s.pier.pfail := State.event_keeps (fun x => x.pier.pfail) t (fun _ _ => rfl) (fun _ _ => rfl) (fun _ _ => rfl) (fun _ _ => rfl) (fun _ _ => rfl) _ _ _ _ _ _
@[simp] theorem State.event_pier_time (s : State) (t : TileId) (a b x y z : Nat) : (s.event t a b x y z).pier.time = s.pier.time := State.event_keeps (fun x => x.pier.time) t (fun _ _ => rfl) (fun _ _ => rfl) (fun _ _ => rfl) (fun _ _ => rfl) (fun _ _ => rfl) _ _ _ _ _ _
@[simp] theorem State.event_pier_hub (s : State) (t : TileId) (a b x y z : Nat) : (s.event t a b x y z).pier.hub = s.pier.hub := State.event_keeps (fun x => x.pier.hub) t (fun _ _ => rfl) (fun _ _ => rfl) (fun _ _ => rfl) (fun _ _ => rfl) (fun _ _ => rfl) _ _ _ _ _ _
@[simp] theorem State.qWrite_boot (s : State) (t : TileId) (c : Fin 7) (x : QItem) (u : TileId) : ((s.qWrite t c x).vol u).boot = (s.vol u).boot := State.access_keeps (fun x => (x.vol u).boot) t c (fun _ _ _ => State.setQueue_vol Vol.boot (fun _ _ => rfl) _ _ _ _ _) (fun _ _ _ => rfl) (fun _ _ _ => rfl) (fun _ _ => rfl) (fun _ _ => rfl) _ _
@[simp] theorem State.qWrite_mer (s : State) (t : TileId) (c : Fin 7) (x : QItem) (u : TileId) : ((s.qWrite t c x).vol u).mer = (s.vol u).mer := State.access_keeps (fun x => (x.vol u).mer) t c (fun _ _ _ => State.setQueue_vol Vol.mer (fun _ _ => rfl) _ _ _ _ _) (fun _ _ _ => rfl) (fun _ _ _ => rfl) (fun _ _ => rfl) (fun _ _ => rfl) _ _
@[simp] theorem State.qWrite_vault (s : State) (t : TileId) (c : Fin 7) (x : QItem) (u : TileId) : ((s.qWrite t c x).vol u).vault = (s.vol u).vault := State.access_keeps (fun x => (x.vol u).vault) t c (fun _ _ _ => State.setQueue_vol Vol.vault (fun _ _ => rfl) _ _ _ _ _) (fun _ _ _ => rfl) (fun _ _ _ => rfl) (fun _ _ => rfl) (fun _ _ => rfl) _ _
@[simp] theorem State.qWrite_meters (s : State) (t : TileId) (c : Fin 7) (x : QItem) (u : TileId) : ((s.qWrite t c x).vol u).meters = (s.vol u).meters := State.access_keeps (fun x => (x.vol u).meters) t c (fun _ _ _ => State.setQueue_vol Vol.meters (fun _ _ => rfl) _ _ _ _ _) (fun _ _ _ => rfl) (fun _ _ _ => rfl) (fun _ _ => rfl) (fun _ _ => rfl) _ _
@[simp] theorem State.qWrite_gather (s : State) (t : TileId) (c : Fin 7) (x : QItem) (u : TileId) : ((s.qWrite t c x).vol u).gather = (s.vol u).gather := State.access_keeps (fun x => (x.vol u).gather) t c (fun _ _ _ => State.setQueue_vol Vol.gather (fun _ _ => rfl) _ _ _ _ _) (fun _ _ _ => rfl) (fun _ _ _ => rfl) (fun _ _ => rfl) (fun _ _ => rfl) _ _
@[simp] theorem State.qWrite_marver (s : State) (t : TileId) (c : Fin 7) (x : QItem) (u : TileId) : ((s.qWrite t c x).vol u).marver = (s.vol u).marver := State.access_keeps (fun x => (x.vol u).marver) t c (fun _ _ _ => State.setQueue_vol Vol.marver (fun _ _ => rfl) _ _ _ _ _) (fun _ _ _ => rfl) (fun _ _ _ => rfl) (fun _ _ => rfl) (fun _ _ => rfl) _ _
@[simp] theorem State.qWrite_lehr (s : State) (t : TileId) (c : Fin 7) (x : QItem) (u : TileId) : ((s.qWrite t c x).vol u).lehr = (s.vol u).lehr := State.access_keeps (fun x => (x.vol u).lehr) t c (fun _ _ _ => State.setQueue_vol Vol.lehr (fun _ _ => rfl) _ _ _ _ _) (fun _ _ _ => rfl) (fun _ _ _ => rfl) (fun _ _ => rfl) (fun _ _ => rfl) _ _
@[simp] theorem State.qWrite_elog (s : State) (t : TileId) (c : Fin 7) (x : QItem) (u : TileId) : ((s.qWrite t c x).vol u).elog = (s.vol u).elog := State.access_keeps (fun x => (x.vol u).elog) t c (fun _ _ _ => State.setQueue_vol Vol.elog (fun _ _ => rfl) _ _ _ _ _) (fun _ _ _ => rfl) (fun _ _ _ => rfl) (fun _ _ => rfl) (fun _ _ => rfl) _ _
@[simp] theorem State.qWrite_sw (s : State) (t : TileId) (c : Fin 7) (x : QItem) (u : TileId) : ((s.qWrite t c x).vol u).sw = (s.vol u).sw := State.access_keeps (fun x => (x.vol u).sw) t c (fun _ _ _ => State.setQueue_vol Vol.sw (fun _ _ => rfl) _ _ _ _ _) (fun _ _ _ => rfl) (fun _ _ _ => rfl) (fun _ _ => rfl) (fun _ _ => rfl) _ _
@[simp] theorem State.qWrite_bal (s : State) (t : TileId) (c : Fin 7) (x : QItem) (u : TileId) : ((s.qWrite t c x).vol u).bal = (s.vol u).bal := State.access_keeps (fun x => (x.vol u).bal) t c (fun _ _ _ => State.setQueue_vol Vol.bal (fun _ _ => rfl) _ _ _ _ _) (fun _ _ _ => rfl) (fun _ _ _ => rfl) (fun _ _ => rfl) (fun _ _ => rfl) _ _
@[simp] theorem State.qWrite_metro (s : State) (t : TileId) (c : Fin 7) (x : QItem) (u : TileId) : ((s.qWrite t c x).vol u).metro = (s.vol u).metro := State.access_keeps (fun x => (x.vol u).metro) t c (fun _ _ _ => State.setQueue_vol Vol.metro (fun _ _ => rfl) _ _ _ _ _) (fun _ _ _ => rfl) (fun _ _ _ => rfl) (fun _ _ => rfl) (fun _ _ => rfl) _ _
@[simp] theorem State.qWrite_plc (s : State) (t : TileId) (c : Fin 7) (x : QItem) (u : TileId) : ((s.qWrite t c x).vol u).plc = (s.vol u).plc := State.access_keeps (fun x => (x.vol u).plc) t c (fun _ _ _ => State.setQueue_vol Vol.plc (fun _ _ => rfl) _ _ _ _ _) (fun _ _ _ => rfl) (fun _ _ _ => rfl) (fun _ _ => rfl) (fun _ _ => rfl) _ _
@[simp] theorem State.qWrite_rf (s : State) (t : TileId) (c : Fin 7) (x : QItem) (u : TileId) : ((s.qWrite t c x).vol u).rf = (s.vol u).rf := State.access_keeps (fun x => (x.vol u).rf) t c (fun _ _ _ => State.setQueue_vol Vol.rf (fun _ _ => rfl) _ _ _ _ _) (fun _ _ _ => rfl) (fun _ _ _ => rfl) (fun _ _ => rfl) (fun _ _ => rfl) _ _
@[simp] theorem State.qWrite_radio (s : State) (t : TileId) (c : Fin 7) (x : QItem) (u : TileId) : ((s.qWrite t c x).vol u).radio = (s.vol u).radio := State.access_keeps (fun x => (x.vol u).radio) t c (fun _ _ _ => State.setQueue_vol Vol.radio (fun _ _ => rfl) _ _ _ _ _) (fun _ _ _ => rfl) (fun _ _ _ => rfl) (fun _ _ => rfl) (fun _ _ => rfl) _ _
@[simp] theorem State.qWrite_diag (s : State) (t : TileId) (c : Fin 7) (x : QItem) (u : TileId) : ((s.qWrite t c x).vol u).diag = (s.vol u).diag := State.access_keeps (fun x => (x.vol u).diag) t c (fun _ _ _ => State.setQueue_vol Vol.diag (fun _ _ => rfl) _ _ _ _ _) (fun _ _ _ => rfl) (fun _ _ _ => rfl) (fun _ _ => rfl) (fun _ _ => rfl) _ _
@[simp] theorem State.qWrite_eph (s : State) (t : TileId) (c : Fin 7) (x : QItem) (u : TileId) : ((s.qWrite t c x).vol u).eph = (s.vol u).eph := State.access_keeps (fun x => (x.vol u).eph) t c (fun _ _ _ => State.setQueue_vol Vol.eph (fun _ _ => rfl) _ _ _ _ _) (fun _ _ _ => rfl) (fun _ _ _ => rfl) (fun _ _ => rfl) (fun _ _ => rfl) _ _
@[simp] theorem State.qWrite_drive (s : State) (t : TileId) (c : Fin 7) (x : QItem) (u : TileId) : ((s.qWrite t c x).vol u).drive = (s.vol u).drive := State.access_keeps (fun x => (x.vol u).drive) t c (fun _ _ _ => State.setQueue_vol Vol.drive (fun _ _ => rfl) _ _ _ _ _) (fun _ _ _ => rfl) (fun _ _ _ => rfl) (fun _ _ => rfl) (fun _ _ => rfl) _ _
@[simp] theorem State.qWrite_syncWanted (s : State) (t : TileId) (c : Fin 7) (x : QItem) (u : TileId) : ((s.qWrite t c x).vol u).syncWanted = (s.vol u).syncWanted := State.access_keeps (fun x => (x.vol u).syncWanted) t c (fun _ _ _ => State.setQueue_vol Vol.syncWanted (fun _ _ => rfl) _ _ _ _ _) (fun _ _ _ => rfl) (fun _ _ _ => rfl) (fun _ _ => rfl) (fun _ _ => rfl) _ _
@[simp] theorem State.qWrite_ptpSec (s : State) (t : TileId) (c : Fin 7) (x : QItem) (u : TileId) : ((s.qWrite t c x).vol u).ptpSec = (s.vol u).ptpSec := State.access_keeps (fun x => (x.vol u).ptpSec) t c (fun _ _ _ => State.setQueue_vol Vol.ptpSec (fun _ _ => rfl) _ _ _ _ _) (fun _ _ _ => rfl) (fun _ _ _ => rfl) (fun _ _ => rfl) (fun _ _ => rfl) _ _
@[simp] theorem State.qWrite_media (s : State) (t : TileId) (c : Fin 7) (x : QItem) (u : TileId) : ((s.qWrite t c x).tile u).media = (s.tile u).media := State.access_keeps (fun x => (x.tile u).media) t c (fun _ _ _ => State.setQueue_tile Tile.media (fun _ _ => rfl) _ _ _ _ _) (fun _ _ _ => rfl) (fun _ _ _ => rfl) (fun _ _ => rfl) (fun _ _ => rfl) _ _
@[simp] theorem State.qWrite_page0 (s : State) (t : TileId) (c : Fin 7) (x : QItem) (u : TileId) : ((s.qWrite t c x).tile u).page0 = (s.tile u).page0 := State.access_keeps (fun x => (x.tile u).page0) t c (fun _ _ _ => State.setQueue_tile Tile.page0 (fun _ _ => rfl) _ _ _ _ _) (fun _ _ _ => rfl) (fun _ _ _ => rfl) (fun _ _ => rfl) (fun _ _ => rfl) _ _
@[simp] theorem State.qWrite_page1 (s : State) (t : TileId) (c : Fin 7) (x : QItem) (u : TileId) : ((s.qWrite t c x).tile u).page1 = (s.tile u).page1 := State.access_keeps (fun x => (x.tile u).page1) t c (fun _ _ _ => State.setQueue_tile Tile.page1 (fun _ _ => rfl) _ _ _ _ _) (fun _ _ _ => rfl) (fun _ _ _ => rfl) (fun _ _ => rfl) (fun _ _ => rfl) _ _
@[simp] theorem State.qWrite_retired (s : State) (t : TileId) (c : Fin 7) (x : QItem) (u : TileId) : ((s.qWrite t c x).tile u).retired = (s.tile u).retired := State.access_keeps (fun x => (x.tile u).retired) t c (fun _ _ _ => State.setQueue_tile Tile.retired (fun _ _ => rfl) _ _ _ _ _) (fun _ _ _ => rfl) (fun _ _ _ => rfl) (fun _ _ => rfl) (fun _ _ => rfl) _ _
@[simp] theorem State.qWrite_fuseState (s : State) (t : TileId) (c : Fin 7) (x : QItem) (u : TileId) : ((s.qWrite t c x).tile u).fuseState = (s.tile u).fuseState := State.access_keeps (fun x => (x.tile u).fuseState) t c (fun _ _ _ => State.setQueue_tile Tile.fuseState (fun _ _ => rfl) _ _ _ _ _) (fun _ _ _ => rfl) (fun _ _ _ => rfl) (fun _ _ => rfl) (fun _ _ => rfl) _ _
@[simp] theorem State.qWrite_code (s : State) (t : TileId) (c : Fin 7) (x : QItem) (u : TileId) : ((s.qWrite t c x).tile u).code = (s.tile u).code := State.access_keeps (fun x => (x.tile u).code) t c (fun _ _ _ => State.setQueue_tile Tile.code (fun _ _ => rfl) _ _ _ _ _) (fun _ _ _ => rfl) (fun _ _ _ => rfl) (fun _ _ => rfl) (fun _ _ => rfl) _ _
@[simp] theorem State.qWrite_legal (s : State) (t : TileId) (c : Fin 7) (x : QItem) (u : TileId) : ((s.qWrite t c x).tile u).legal = (s.tile u).legal := State.access_keeps (fun x => (x.tile u).legal) t c (fun _ _ _ => State.setQueue_tile Tile.legal (fun _ _ => rfl) _ _ _ _ _) (fun _ _ _ => rfl) (fun _ _ _ => rfl) (fun _ _ => rfl) (fun _ _ => rfl) _ _
@[simp] theorem State.qWrite_legalEnd (s : State) (t : TileId) (c : Fin 7) (x : QItem) (u : TileId) : ((s.qWrite t c x).tile u).legalEnd = (s.tile u).legalEnd := State.access_keeps (fun x => (x.tile u).legalEnd) t c (fun _ _ _ => State.setQueue_tile Tile.legalEnd (fun _ _ => rfl) _ _ _ _ _) (fun _ _ _ => rfl) (fun _ _ _ => rfl) (fun _ _ => rfl) (fun _ _ => rfl) _ _
@[simp] theorem State.qWrite_legalBad (s : State) (t : TileId) (c : Fin 7) (x : QItem) (u : TileId) : ((s.qWrite t c x).tile u).legalBad = (s.tile u).legalBad := State.access_keeps (fun x => (x.tile u).legalBad) t c (fun _ _ _ => State.setQueue_tile Tile.legalBad (fun _ _ => rfl) _ _ _ _ _) (fun _ _ _ => rfl) (fun _ _ _ => rfl) (fun _ _ => rfl) (fun _ _ => rfl) _ _
@[simp] theorem State.qWrite_calSince (s : State) (t : TileId) (c : Fin 7) (x : QItem) (u : TileId) : ((s.qWrite t c x).tile u).calSince = (s.tile u).calSince := State.access_keeps (fun x => (x.tile u).calSince) t c (fun _ _ _ => State.setQueue_tile Tile.calSince (fun _ _ => rfl) _ _ _ _ _) (fun _ _ _ => rfl) (fun _ _ _ => rfl) (fun _ _ => rfl) (fun _ _ => rfl) _ _
@[simp] theorem State.qWrite_marks (s : State) (t : TileId) (c : Fin 7) (x : QItem) (u : TileId) : ((s.qWrite t c x).tile u).marks = (s.tile u).marks := State.access_keeps (fun x => (x.tile u).marks) t c (fun _ _ _ => State.setQueue_tile Tile.marks (fun _ _ => rfl) _ _ _ _ _) (fun _ _ _ => rfl) (fun _ _ _ => rfl) (fun _ _ => rfl) (fun _ _ => rfl) _ _
@[simp] theorem State.qWrite_power (s : State) (t : TileId) (c : Fin 7) (x : QItem) (u : TileId) : ((s.qWrite t c x).tile u).power = (s.tile u).power := State.access_keeps (fun x => (x.tile u).power) t c (fun _ _ _ => State.setQueue_tile Tile.power (fun _ _ => rfl) _ _ _ _ _) (fun _ _ _ => rfl) (fun _ _ _ => rfl) (fun _ _ => rfl) (fun _ _ => rfl) _ _
@[simp] theorem State.qWrite_upSince (s : State) (t : TileId) (c : Fin 7) (x : QItem) (u : TileId) : ((s.qWrite t c x).tile u).upSince = (s.tile u).upSince := State.access_keeps (fun x => (x.tile u).upSince) t c (fun _ _ _ => State.setQueue_tile Tile.upSince (fun _ _ => rfl) _ _ _ _ _) (fun _ _ _ => rfl) (fun _ _ _ => rfl) (fun _ _ => rfl) (fun _ _ => rfl) _ _
@[simp] theorem State.qWrite_vanaOk (s : State) (t : TileId) (c : Fin 7) (x : QItem) (u : TileId) : ((s.qWrite t c x).tile u).vanaOk = (s.tile u).vanaOk := State.access_keeps (fun x => (x.tile u).vanaOk) t c (fun _ _ _ => State.setQueue_tile Tile.vanaOk (fun _ _ => rfl) _ _ _ _ _) (fun _ _ _ => rfl) (fun _ _ _ => rfl) (fun _ _ => rfl) (fun _ _ => rfl) _ _
@[simp] theorem State.qWrite_plcEpoch (s : State) (t : TileId) (c : Fin 7) (x : QItem) (u : TileId) : ((s.qWrite t c x).tile u).plcEpoch = (s.tile u).plcEpoch := State.access_keeps (fun x => (x.tile u).plcEpoch) t c (fun _ _ _ => State.setQueue_tile Tile.plcEpoch (fun _ _ => rfl) _ _ _ _ _) (fun _ _ _ => rfl) (fun _ _ _ => rfl) (fun _ _ => rfl) (fun _ _ => rfl) _ _
@[simp] theorem State.qWrite_draws (s : State) (t : TileId) (c : Fin 7) (x : QItem) (u : TileId) : ((s.qWrite t c x).tile u).draws = (s.tile u).draws := State.access_keeps (fun x => (x.tile u).draws) t c (fun _ _ _ => State.setQueue_tile Tile.draws (fun _ _ => rfl) _ _ _ _ _) (fun _ _ _ => rfl) (fun _ _ _ => rfl) (fun _ _ => rfl) (fun _ _ => rfl) _ _
@[simp] theorem State.qWrite_out (s : State) (t : TileId) (c : Fin 7) (x : QItem) : (s.qWrite t c x).out = s.out := State.access_keeps (fun x => x.out) t c (fun _ _ _ => rfl) (fun _ _ _ => rfl) (fun _ _ _ => rfl) (fun _ _ => rfl) (fun _ _ => rfl) _ _
@[simp] theorem State.qWrite_bays (s : State) (t : TileId) (c : Fin 7) (x : QItem) : (s.qWrite t c x).bays = s.bays := State.access_keeps (fun x => x.bays) t c (fun _ _ _ => rfl) (fun _ _ _ => rfl) (fun _ _ _ => rfl) (fun _ _ => rfl) (fun _ _ => rfl) _ _
@[simp] theorem State.qWrite_bay (s : State) (t : TileId) (c : Fin 7) (x : QItem) (c0 : BayId) : (s.qWrite t c x).bay c0 = s.bay c0 := State.access_keeps (fun x => x.bay c0) t c (fun _ _ _ => rfl) (fun _ _ _ => rfl) (fun _ _ _ => rfl) (fun _ _ => rfl) (fun _ _ => rfl) _ _
@[simp] theorem State.qWrite_role (s : State) (t : TileId) (c : Fin 7) (x : QItem) (u : TileId) : (s.qWrite t c x).role u = s.role u := State.access_keeps (fun x => x.role u) t c (fun _ _ _ => rfl) (fun _ _ _ => rfl) (fun _ _ _ => rfl) (fun _ _ => rfl) (fun _ _ => rfl) _ _
@[simp] theorem State.qWrite_serves (s : State) (t : TileId) (c : Fin 7) (x : QItem) (u : TileId) : (s.qWrite t c x).serves u = s.serves u := State.access_keeps (fun x => x.serves u) t c (fun _ _ _ => rfl) (fun _ _ _ => rfl) (fun _ _ _ => rfl) (fun _ _ => rfl) (fun _ _ => rfl) _ _
@[simp] theorem State.qWrite_inRun (s : State) (t : TileId) (c : Fin 7) (x : QItem) (u : TileId) : (s.qWrite t c x).inRun u = s.inRun u := by simp [State.inRun]
@[simp] theorem State.qWrite_pier_up (s : State) (t : TileId) (c : Fin 7) (x : QItem) : (s.qWrite t c x).pier.up = s.pier.up := State.access_keeps (fun x => x.pier.up) t c (fun _ _ _ => rfl) (fun _ _ _ => rfl) (fun _ _ _ => rfl) (fun _ _ => rfl) (fun _ _ => rfl) _ _
@[simp] theorem State.qWrite_pier_clock (s : State) (t : TileId) (c : Fin 7) (x : QItem) : (s.qWrite t c x).pier.clock = s.pier.clock := State.access_keeps (fun x => x.pier.clock) t c (fun _ _ _ => rfl) (fun _ _ _ => rfl) (fun _ _ _ => rfl) (fun _ _ => rfl) (fun _ _ => rfl) _ _
@[simp] theorem State.qWrite_pier_degraded (s : State) (t : TileId) (c : Fin 7) (x : QItem) : (s.qWrite t c x).pier.degraded = s.pier.degraded := State.access_keeps (fun x => x.pier.degraded) t c (fun _ _ _ => rfl) (fun _ _ _ => rfl) (fun _ _ _ => rfl) (fun _ _ => rfl) (fun _ _ => rfl) _ _
@[simp] theorem State.qWrite_pier_pfail (s : State) (t : TileId) (c : Fin 7) (x : QItem) : (s.qWrite t c x).pier.pfail = s.pier.pfail := State.access_keeps (fun x => x.pier.pfail) t c (fun _ _ _ => rfl) (fun _ _ _ => rfl) (fun _ _ _ => rfl) (fun _ _ => rfl) (fun _ _ => rfl) _ _
@[simp] theorem State.qWrite_pier_time (s : State) (t : TileId) (c : Fin 7) (x : QItem) : (s.qWrite t c x).pier.time = s.pier.time := State.access_keeps (fun x => x.pier.time) t c (fun _ _ _ => rfl) (fun _ _ _ => rfl) (fun _ _ _ => rfl) (fun _ _ => rfl) (fun _ _ => rfl) _ _
@[simp] theorem State.qWrite_pier_hub (s : State) (t : TileId) (c : Fin 7) (x : QItem) : (s.qWrite t c x).pier.hub = s.pier.hub := State.access_keeps (fun x => x.pier.hub) t c (fun _ _ _ => rfl) (fun _ _ _ => rfl) (fun _ _ _ => rfl) (fun _ _ => rfl) (fun _ _ => rfl) _ _
@[simp] theorem State.qRead_boot (s : State) (t : TileId) (c : Fin 7) (u : TileId) : (((s.qRead t c).1).vol u).boot = (s.vol u).boot := State.access_keeps (fun x => (x.vol u).boot) t c (fun _ _ _ => State.setQueue_vol Vol.boot (fun _ _ => rfl) _ _ _ _ _) (fun _ _ _ => rfl) (fun _ _ _ => rfl) (fun _ _ => rfl) (fun _ _ => rfl) _ _
@[simp] theorem State.qRead_mer (s : State) (t : TileId) (c : Fin 7) (u : TileId) : (((s.qRead t c).1).vol u).mer = (s.vol u).mer := State.access_keeps (fun x => (x.vol u).mer) t c (fun _ _ _ => State.setQueue_vol Vol.mer (fun _ _ => rfl) _ _ _ _ _) (fun _ _ _ => rfl) (fun _ _ _ => rfl) (fun _ _ => rfl) (fun _ _ => rfl) _ _
@[simp] theorem State.qRead_vault (s : State) (t : TileId) (c : Fin 7) (u : TileId) : (((s.qRead t c).1).vol u).vault = (s.vol u).vault := State.access_keeps (fun x => (x.vol u).vault) t c (fun _ _ _ => State.setQueue_vol Vol.vault (fun _ _ => rfl) _ _ _ _ _) (fun _ _ _ => rfl) (fun _ _ _ => rfl) (fun _ _ => rfl) (fun _ _ => rfl) _ _
@[simp] theorem State.qRead_meters (s : State) (t : TileId) (c : Fin 7) (u : TileId) : (((s.qRead t c).1).vol u).meters = (s.vol u).meters := State.access_keeps (fun x => (x.vol u).meters) t c (fun _ _ _ => State.setQueue_vol Vol.meters (fun _ _ => rfl) _ _ _ _ _) (fun _ _ _ => rfl) (fun _ _ _ => rfl) (fun _ _ => rfl) (fun _ _ => rfl) _ _
@[simp] theorem State.qRead_gather (s : State) (t : TileId) (c : Fin 7) (u : TileId) : (((s.qRead t c).1).vol u).gather = (s.vol u).gather := State.access_keeps (fun x => (x.vol u).gather) t c (fun _ _ _ => State.setQueue_vol Vol.gather (fun _ _ => rfl) _ _ _ _ _) (fun _ _ _ => rfl) (fun _ _ _ => rfl) (fun _ _ => rfl) (fun _ _ => rfl) _ _
@[simp] theorem State.qRead_marver (s : State) (t : TileId) (c : Fin 7) (u : TileId) : (((s.qRead t c).1).vol u).marver = (s.vol u).marver := State.access_keeps (fun x => (x.vol u).marver) t c (fun _ _ _ => State.setQueue_vol Vol.marver (fun _ _ => rfl) _ _ _ _ _) (fun _ _ _ => rfl) (fun _ _ _ => rfl) (fun _ _ => rfl) (fun _ _ => rfl) _ _
@[simp] theorem State.qRead_lehr (s : State) (t : TileId) (c : Fin 7) (u : TileId) : (((s.qRead t c).1).vol u).lehr = (s.vol u).lehr := State.access_keeps (fun x => (x.vol u).lehr) t c (fun _ _ _ => State.setQueue_vol Vol.lehr (fun _ _ => rfl) _ _ _ _ _) (fun _ _ _ => rfl) (fun _ _ _ => rfl) (fun _ _ => rfl) (fun _ _ => rfl) _ _
@[simp] theorem State.qRead_elog (s : State) (t : TileId) (c : Fin 7) (u : TileId) : (((s.qRead t c).1).vol u).elog = (s.vol u).elog := State.access_keeps (fun x => (x.vol u).elog) t c (fun _ _ _ => State.setQueue_vol Vol.elog (fun _ _ => rfl) _ _ _ _ _) (fun _ _ _ => rfl) (fun _ _ _ => rfl) (fun _ _ => rfl) (fun _ _ => rfl) _ _
@[simp] theorem State.qRead_sw (s : State) (t : TileId) (c : Fin 7) (u : TileId) : (((s.qRead t c).1).vol u).sw = (s.vol u).sw := State.access_keeps (fun x => (x.vol u).sw) t c (fun _ _ _ => State.setQueue_vol Vol.sw (fun _ _ => rfl) _ _ _ _ _) (fun _ _ _ => rfl) (fun _ _ _ => rfl) (fun _ _ => rfl) (fun _ _ => rfl) _ _
@[simp] theorem State.qRead_bal (s : State) (t : TileId) (c : Fin 7) (u : TileId) : (((s.qRead t c).1).vol u).bal = (s.vol u).bal := State.access_keeps (fun x => (x.vol u).bal) t c (fun _ _ _ => State.setQueue_vol Vol.bal (fun _ _ => rfl) _ _ _ _ _) (fun _ _ _ => rfl) (fun _ _ _ => rfl) (fun _ _ => rfl) (fun _ _ => rfl) _ _
@[simp] theorem State.qRead_metro (s : State) (t : TileId) (c : Fin 7) (u : TileId) : (((s.qRead t c).1).vol u).metro = (s.vol u).metro := State.access_keeps (fun x => (x.vol u).metro) t c (fun _ _ _ => State.setQueue_vol Vol.metro (fun _ _ => rfl) _ _ _ _ _) (fun _ _ _ => rfl) (fun _ _ _ => rfl) (fun _ _ => rfl) (fun _ _ => rfl) _ _
@[simp] theorem State.qRead_plc (s : State) (t : TileId) (c : Fin 7) (u : TileId) : (((s.qRead t c).1).vol u).plc = (s.vol u).plc := State.access_keeps (fun x => (x.vol u).plc) t c (fun _ _ _ => State.setQueue_vol Vol.plc (fun _ _ => rfl) _ _ _ _ _) (fun _ _ _ => rfl) (fun _ _ _ => rfl) (fun _ _ => rfl) (fun _ _ => rfl) _ _
@[simp] theorem State.qRead_rf (s : State) (t : TileId) (c : Fin 7) (u : TileId) : (((s.qRead t c).1).vol u).rf = (s.vol u).rf := State.access_keeps (fun x => (x.vol u).rf) t c (fun _ _ _ => State.setQueue_vol Vol.rf (fun _ _ => rfl) _ _ _ _ _) (fun _ _ _ => rfl) (fun _ _ _ => rfl) (fun _ _ => rfl) (fun _ _ => rfl) _ _
@[simp] theorem State.qRead_radio (s : State) (t : TileId) (c : Fin 7) (u : TileId) : (((s.qRead t c).1).vol u).radio = (s.vol u).radio := State.access_keeps (fun x => (x.vol u).radio) t c (fun _ _ _ => State.setQueue_vol Vol.radio (fun _ _ => rfl) _ _ _ _ _) (fun _ _ _ => rfl) (fun _ _ _ => rfl) (fun _ _ => rfl) (fun _ _ => rfl) _ _
@[simp] theorem State.qRead_diag (s : State) (t : TileId) (c : Fin 7) (u : TileId) : (((s.qRead t c).1).vol u).diag = (s.vol u).diag := State.access_keeps (fun x => (x.vol u).diag) t c (fun _ _ _ => State.setQueue_vol Vol.diag (fun _ _ => rfl) _ _ _ _ _) (fun _ _ _ => rfl) (fun _ _ _ => rfl) (fun _ _ => rfl) (fun _ _ => rfl) _ _
@[simp] theorem State.qRead_eph (s : State) (t : TileId) (c : Fin 7) (u : TileId) : (((s.qRead t c).1).vol u).eph = (s.vol u).eph := State.access_keeps (fun x => (x.vol u).eph) t c (fun _ _ _ => State.setQueue_vol Vol.eph (fun _ _ => rfl) _ _ _ _ _) (fun _ _ _ => rfl) (fun _ _ _ => rfl) (fun _ _ => rfl) (fun _ _ => rfl) _ _
@[simp] theorem State.qRead_drive (s : State) (t : TileId) (c : Fin 7) (u : TileId) : (((s.qRead t c).1).vol u).drive = (s.vol u).drive := State.access_keeps (fun x => (x.vol u).drive) t c (fun _ _ _ => State.setQueue_vol Vol.drive (fun _ _ => rfl) _ _ _ _ _) (fun _ _ _ => rfl) (fun _ _ _ => rfl) (fun _ _ => rfl) (fun _ _ => rfl) _ _
@[simp] theorem State.qRead_syncWanted (s : State) (t : TileId) (c : Fin 7) (u : TileId) : (((s.qRead t c).1).vol u).syncWanted = (s.vol u).syncWanted := State.access_keeps (fun x => (x.vol u).syncWanted) t c (fun _ _ _ => State.setQueue_vol Vol.syncWanted (fun _ _ => rfl) _ _ _ _ _) (fun _ _ _ => rfl) (fun _ _ _ => rfl) (fun _ _ => rfl) (fun _ _ => rfl) _ _
@[simp] theorem State.qRead_ptpSec (s : State) (t : TileId) (c : Fin 7) (u : TileId) : (((s.qRead t c).1).vol u).ptpSec = (s.vol u).ptpSec := State.access_keeps (fun x => (x.vol u).ptpSec) t c (fun _ _ _ => State.setQueue_vol Vol.ptpSec (fun _ _ => rfl) _ _ _ _ _) (fun _ _ _ => rfl) (fun _ _ _ => rfl) (fun _ _ => rfl) (fun _ _ => rfl) _ _
@[simp] theorem State.qRead_media (s : State) (t : TileId) (c : Fin 7) (u : TileId) : (((s.qRead t c).1).tile u).media = (s.tile u).media := State.access_keeps (fun x => (x.tile u).media) t c (fun _ _ _ => State.setQueue_tile Tile.media (fun _ _ => rfl) _ _ _ _ _) (fun _ _ _ => rfl) (fun _ _ _ => rfl) (fun _ _ => rfl) (fun _ _ => rfl) _ _
@[simp] theorem State.qRead_page0 (s : State) (t : TileId) (c : Fin 7) (u : TileId) : (((s.qRead t c).1).tile u).page0 = (s.tile u).page0 := State.access_keeps (fun x => (x.tile u).page0) t c (fun _ _ _ => State.setQueue_tile Tile.page0 (fun _ _ => rfl) _ _ _ _ _) (fun _ _ _ => rfl) (fun _ _ _ => rfl) (fun _ _ => rfl) (fun _ _ => rfl) _ _
@[simp] theorem State.qRead_page1 (s : State) (t : TileId) (c : Fin 7) (u : TileId) : (((s.qRead t c).1).tile u).page1 = (s.tile u).page1 := State.access_keeps (fun x => (x.tile u).page1) t c (fun _ _ _ => State.setQueue_tile Tile.page1 (fun _ _ => rfl) _ _ _ _ _) (fun _ _ _ => rfl) (fun _ _ _ => rfl) (fun _ _ => rfl) (fun _ _ => rfl) _ _
@[simp] theorem State.qRead_retired (s : State) (t : TileId) (c : Fin 7) (u : TileId) : (((s.qRead t c).1).tile u).retired = (s.tile u).retired := State.access_keeps (fun x => (x.tile u).retired) t c (fun _ _ _ => State.setQueue_tile Tile.retired (fun _ _ => rfl) _ _ _ _ _) (fun _ _ _ => rfl) (fun _ _ _ => rfl) (fun _ _ => rfl) (fun _ _ => rfl) _ _
@[simp] theorem State.qRead_fuseState (s : State) (t : TileId) (c : Fin 7) (u : TileId) : (((s.qRead t c).1).tile u).fuseState = (s.tile u).fuseState := State.access_keeps (fun x => (x.tile u).fuseState) t c (fun _ _ _ => State.setQueue_tile Tile.fuseState (fun _ _ => rfl) _ _ _ _ _) (fun _ _ _ => rfl) (fun _ _ _ => rfl) (fun _ _ => rfl) (fun _ _ => rfl) _ _
@[simp] theorem State.qRead_code (s : State) (t : TileId) (c : Fin 7) (u : TileId) : (((s.qRead t c).1).tile u).code = (s.tile u).code := State.access_keeps (fun x => (x.tile u).code) t c (fun _ _ _ => State.setQueue_tile Tile.code (fun _ _ => rfl) _ _ _ _ _) (fun _ _ _ => rfl) (fun _ _ _ => rfl) (fun _ _ => rfl) (fun _ _ => rfl) _ _
@[simp] theorem State.qRead_legal (s : State) (t : TileId) (c : Fin 7) (u : TileId) : (((s.qRead t c).1).tile u).legal = (s.tile u).legal := State.access_keeps (fun x => (x.tile u).legal) t c (fun _ _ _ => State.setQueue_tile Tile.legal (fun _ _ => rfl) _ _ _ _ _) (fun _ _ _ => rfl) (fun _ _ _ => rfl) (fun _ _ => rfl) (fun _ _ => rfl) _ _
@[simp] theorem State.qRead_legalEnd (s : State) (t : TileId) (c : Fin 7) (u : TileId) : (((s.qRead t c).1).tile u).legalEnd = (s.tile u).legalEnd := State.access_keeps (fun x => (x.tile u).legalEnd) t c (fun _ _ _ => State.setQueue_tile Tile.legalEnd (fun _ _ => rfl) _ _ _ _ _) (fun _ _ _ => rfl) (fun _ _ _ => rfl) (fun _ _ => rfl) (fun _ _ => rfl) _ _
@[simp] theorem State.qRead_legalBad (s : State) (t : TileId) (c : Fin 7) (u : TileId) : (((s.qRead t c).1).tile u).legalBad = (s.tile u).legalBad := State.access_keeps (fun x => (x.tile u).legalBad) t c (fun _ _ _ => State.setQueue_tile Tile.legalBad (fun _ _ => rfl) _ _ _ _ _) (fun _ _ _ => rfl) (fun _ _ _ => rfl) (fun _ _ => rfl) (fun _ _ => rfl) _ _
@[simp] theorem State.qRead_calSince (s : State) (t : TileId) (c : Fin 7) (u : TileId) : (((s.qRead t c).1).tile u).calSince = (s.tile u).calSince := State.access_keeps (fun x => (x.tile u).calSince) t c (fun _ _ _ => State.setQueue_tile Tile.calSince (fun _ _ => rfl) _ _ _ _ _) (fun _ _ _ => rfl) (fun _ _ _ => rfl) (fun _ _ => rfl) (fun _ _ => rfl) _ _
@[simp] theorem State.qRead_marks (s : State) (t : TileId) (c : Fin 7) (u : TileId) : (((s.qRead t c).1).tile u).marks = (s.tile u).marks := State.access_keeps (fun x => (x.tile u).marks) t c (fun _ _ _ => State.setQueue_tile Tile.marks (fun _ _ => rfl) _ _ _ _ _) (fun _ _ _ => rfl) (fun _ _ _ => rfl) (fun _ _ => rfl) (fun _ _ => rfl) _ _
@[simp] theorem State.qRead_power (s : State) (t : TileId) (c : Fin 7) (u : TileId) : (((s.qRead t c).1).tile u).power = (s.tile u).power := State.access_keeps (fun x => (x.tile u).power) t c (fun _ _ _ => State.setQueue_tile Tile.power (fun _ _ => rfl) _ _ _ _ _) (fun _ _ _ => rfl) (fun _ _ _ => rfl) (fun _ _ => rfl) (fun _ _ => rfl) _ _
@[simp] theorem State.qRead_upSince (s : State) (t : TileId) (c : Fin 7) (u : TileId) : (((s.qRead t c).1).tile u).upSince = (s.tile u).upSince := State.access_keeps (fun x => (x.tile u).upSince) t c (fun _ _ _ => State.setQueue_tile Tile.upSince (fun _ _ => rfl) _ _ _ _ _) (fun _ _ _ => rfl) (fun _ _ _ => rfl) (fun _ _ => rfl) (fun _ _ => rfl) _ _
@[simp] theorem State.qRead_vanaOk (s : State) (t : TileId) (c : Fin 7) (u : TileId) : (((s.qRead t c).1).tile u).vanaOk = (s.tile u).vanaOk := State.access_keeps (fun x => (x.tile u).vanaOk) t c (fun _ _ _ => State.setQueue_tile Tile.vanaOk (fun _ _ => rfl) _ _ _ _ _) (fun _ _ _ => rfl) (fun _ _ _ => rfl) (fun _ _ => rfl) (fun _ _ => rfl) _ _
@[simp] theorem State.qRead_plcEpoch (s : State) (t : TileId) (c : Fin 7) (u : TileId) : (((s.qRead t c).1).tile u).plcEpoch = (s.tile u).plcEpoch := State.access_keeps (fun x => (x.tile u).plcEpoch) t c (fun _ _ _ => State.setQueue_tile Tile.plcEpoch (fun _ _ => rfl) _ _ _ _ _) (fun _ _ _ => rfl) (fun _ _ _ => rfl) (fun _ _ => rfl) (fun _ _ => rfl) _ _
@[simp] theorem State.qRead_draws (s : State) (t : TileId) (c : Fin 7) (u : TileId) : (((s.qRead t c).1).tile u).draws = (s.tile u).draws := State.access_keeps (fun x => (x.tile u).draws) t c (fun _ _ _ => State.setQueue_tile Tile.draws (fun _ _ => rfl) _ _ _ _ _) (fun _ _ _ => rfl) (fun _ _ _ => rfl) (fun _ _ => rfl) (fun _ _ => rfl) _ _
@[simp] theorem State.qRead_out (s : State) (t : TileId) (c : Fin 7) : ((s.qRead t c).1).out = s.out := State.access_keeps (fun x => x.out) t c (fun _ _ _ => rfl) (fun _ _ _ => rfl) (fun _ _ _ => rfl) (fun _ _ => rfl) (fun _ _ => rfl) _ _
@[simp] theorem State.qRead_bays (s : State) (t : TileId) (c : Fin 7) : ((s.qRead t c).1).bays = s.bays := State.access_keeps (fun x => x.bays) t c (fun _ _ _ => rfl) (fun _ _ _ => rfl) (fun _ _ _ => rfl) (fun _ _ => rfl) (fun _ _ => rfl) _ _
@[simp] theorem State.qRead_bay (s : State) (t : TileId) (c : Fin 7) (c0 : BayId) : ((s.qRead t c).1).bay c0 = s.bay c0 := State.access_keeps (fun x => x.bay c0) t c (fun _ _ _ => rfl) (fun _ _ _ => rfl) (fun _ _ _ => rfl) (fun _ _ => rfl) (fun _ _ => rfl) _ _
@[simp] theorem State.qRead_role (s : State) (t : TileId) (c : Fin 7) (u : TileId) : ((s.qRead t c).1).role u = s.role u := State.access_keeps (fun x => x.role u) t c (fun _ _ _ => rfl) (fun _ _ _ => rfl) (fun _ _ _ => rfl) (fun _ _ => rfl) (fun _ _ => rfl) _ _
@[simp] theorem State.qRead_serves (s : State) (t : TileId) (c : Fin 7) (u : TileId) : ((s.qRead t c).1).serves u = s.serves u := State.access_keeps (fun x => x.serves u) t c (fun _ _ _ => rfl) (fun _ _ _ => rfl) (fun _ _ _ => rfl) (fun _ _ => rfl) (fun _ _ => rfl) _ _
@[simp] theorem State.qRead_inRun (s : State) (t : TileId) (c : Fin 7) (u : TileId) : ((s.qRead t c).1).inRun u = s.inRun u := by simp [State.inRun]
@[simp] theorem State.qRead_pier_up (s : State) (t : TileId) (c : Fin 7) : ((s.qRead t c).1).pier.up = s.pier.up := State.access_keeps (fun x => x.pier.up) t c (fun _ _ _ => rfl) (fun _ _ _ => rfl) (fun _ _ _ => rfl) (fun _ _ => rfl) (fun _ _ => rfl) _ _
@[simp] theorem State.qRead_pier_clock (s : State) (t : TileId) (c : Fin 7) : ((s.qRead t c).1).pier.clock = s.pier.clock := State.access_keeps (fun x => x.pier.clock) t c (fun _ _ _ => rfl) (fun _ _ _ => rfl) (fun _ _ _ => rfl) (fun _ _ => rfl) (fun _ _ => rfl) _ _
@[simp] theorem State.qRead_pier_degraded (s : State) (t : TileId) (c : Fin 7) : ((s.qRead t c).1).pier.degraded = s.pier.degraded := State.access_keeps (fun x => x.pier.degraded) t c (fun _ _ _ => rfl) (fun _ _ _ => rfl) (fun _ _ _ => rfl) (fun _ _ => rfl) (fun _ _ => rfl) _ _
@[simp] theorem State.qRead_pier_pfail (s : State) (t : TileId) (c : Fin 7) : ((s.qRead t c).1).pier.pfail = s.pier.pfail := State.access_keeps (fun x => x.pier.pfail) t c (fun _ _ _ => rfl) (fun _ _ _ => rfl) (fun _ _ _ => rfl) (fun _ _ => rfl) (fun _ _ => rfl) _ _
@[simp] theorem State.qRead_pier_time (s : State) (t : TileId) (c : Fin 7) : ((s.qRead t c).1).pier.time = s.pier.time := State.access_keeps (fun x => x.pier.time) t c (fun _ _ _ => rfl) (fun _ _ _ => rfl) (fun _ _ _ => rfl) (fun _ _ => rfl) (fun _ _ => rfl) _ _
@[simp] theorem State.qRead_pier_hub (s : State) (t : TileId) (c : Fin 7) : ((s.qRead t c).1).pier.hub = s.pier.hub := State.access_keeps (fun x => x.pier.hub) t c (fun _ _ _ => rfl) (fun _ _ _ => rfl) (fun _ _ _ => rfl) (fun _ _ => rfl) (fun _ _ => rfl) _ _

end Sys2Proof.Machine
end

