-- ==== Sys2Proof/Laws/Meters.lean ====
section
/-! SUPPORT. Laws/Meters.lean: what the shared operations on meter records set and leave (R45, R57, R63, R69). -/

namespace Sys2Proof.Machine

/-! ### What a record is read from -/

/-- A record is read from the table and the bay's mode. -/
theorem State.meter_congr {s x : State} (t : TileId) (k : Nat) (h1 : (s.vol t).meters.recs = (x.vol t).meters.recs)
    (h2 : (s.bay (bayOf t)).modeNow = (x.bay (bayOf t)).modeNow) : s.meter t k = x.meter t k := by
  unfold State.meter State.midxOf State.independent
  rw [h1, h2]

theorem State.ceil_congr {s x : State} (t : TileId) (k : Nat) (h : (s.vol t).meters.ceils = (x.vol t).meters.ceils) : s.ceil t k = x.ceil t k := by
  unfold State.ceil
  rw [h]

@[simp] theorem State.meter_wr (s : State) (e : Entry) (n v i : Nat) (t : TileId) (k : Nat) : (s.wr e n v i).meter t k = s.meter t k := rfl
@[simp] theorem State.meter_wrB (s : State) (e : Entry) (n a : Nat) (b : Bytes) (i : Nat) (t : TileId) (k : Nat) : (s.wrB e n a b i).meter t k = s.meter t k := rfl
@[simp] theorem State.meter_bump (s : State) (e : Entry) (n i k : Nat) (t : TileId) (j : Nat) : (s.bump e n i k).meter t j = s.meter t j := rfl
@[simp] theorem State.meter_answer (s : State) (n : Nat) (st : Status) (t : TileId) (k : Nat) : (s.answer n st).meter t k = s.meter t k := rfl
@[simp] theorem State.meter_emit (s : State) (o : Out) (t : TileId) (k : Nat) : (s.emit o).meter t k = s.meter t k := rfl
@[simp] theorem State.meter_onPier (s : State) (f : Pier → Pier) (t : TileId) (k : Nat) : (s.onPier f).meter t k = s.meter t k := rfl
@[simp] theorem State.meter_mirror (s : State) (t u : TileId) (x : MItem) (n k : Nat) : (s.mirror t x n).meter u k = s.meter u k :=
  State.meter_congr _ _ (by simp) (by simp)
@[simp] theorem State.meter_event (s : State) (t u : TileId) (a b x y z k : Nat) : (s.event t a b x y z).meter u k = s.meter u k :=
  State.meter_congr _ _ (by simp) (by simp)
@[simp] theorem State.meter_qWrite (s : State) (t u : TileId) (c : Fin 7) (x : QItem) (k : Nat) : (s.qWrite t c x).meter u k = s.meter u k :=
  State.meter_congr _ _ (by simp) (by simp)
@[simp] theorem State.meter_pierEvent (s : State) (a b c x y z : Nat) (u : TileId) (k : Nat) : (s.pierEvent a b c x y z).meter u k = s.meter u k :=
  State.meter_congr _ _ (by simp) (by simp)
@[simp] theorem State.meter_wrM (s : State) (e : Entry) (t u : TileId) (v i k : Nat) : (s.wrM e t v i).meter u k = s.meter u k :=
  State.meter_congr _ _ (by simp) (by simp)
@[simp] theorem State.meter_done (s x : State) (t : TileId) (k : Nat) : (s.done x).meter t k = x.meter t k :=
  State.meter_congr _ _ (by simp) (by simp)
@[simp] theorem State.ceil_done (s x : State) (t : TileId) (k : Nat) : (s.done x).ceil t k = x.ceil t k := State.ceil_congr _ _ (by simp)
@[simp] theorem State.ceil_mirror (s : State) (t u : TileId) (x : MItem) (n k : Nat) : (s.mirror t x n).ceil u k = s.ceil u k := State.ceil_congr _ _ (by simp)

/-! ### Storing and journalling -/

/-- The part of a tile that holds the meters, after a change of it. -/
@[simp] theorem State.meters_onMeters (s : State) (t : TileId) (f : Meters → Meters) : ((s.onMeters t f).vol t).meters = f (s.vol t).meters := by
  simp [State.onMeters]

/-- A change of the meters' part that leaves the table leaves every record. -/
theorem State.meter_onMeters (s : State) (t : TileId) (f : Meters → Meters) (k : Nat) (h : (f (s.vol t).meters).recs = (s.vol t).meters.recs) :
    (s.onMeters t f).meter t k = s.meter t k := State.meter_congr _ _ (by simp [h]) (by simp [State.onMeters])

/-- The record that was stored. -/
@[simp] theorem State.meter_setMeter_self (s : State) (t : TileId) (k : Nat) (r : MeterRec) : (s.setMeter t k r).meter t k = r := by
  simp [State.setMeter, State.meter]

/-- Another record. -/
theorem State.meter_setMeter_ne (s : State) (t : TileId) (k j : Nat) (r : MeterRec) (h : j ≠ k) : (s.setMeter t k r).meter t j = s.meter t j := by
  have e : Tbl.get ((s.setMeter t k r).vol t).meters.recs j = Tbl.get (s.vol t).meters.recs j := by simp [State.setMeter, Tbl.get_put_ne _ _ h]
  unfold State.meter
  rw [e]
  rfl

@[simp] theorem State.meter_journal (s : State) (t : TileId) (e : JEntry) (k : Nat) : (s.journal t e).meter t k = s.meter t k :=
  State.meter_onMeters _ _ _ _ rfl

/-- A journalled step stores the record with UPD_CNT raised (R69). -/
@[simp] theorem State.meter_journalMeter (s : State) (t : TileId) (k : Nat) (r : MeterRec) (op : JOp) (a : Int) (i : Nat) :
    (s.journalMeter t k r op a i).meter t k = { r with updCnt := (r.updCnt + 1) % 2 ^ 32 } := by
  unfold State.journalMeter
  simp

@[simp] theorem State.meter_ackLater (s : State) (t : TileId) (k j : Nat) (b c : Bool) : (s.ackLater t k b c).meter t j = s.meter t j :=
  State.meter_onMeters _ _ _ _ rfl
@[simp] theorem State.meter_mirrorRec (s : State) (t u : TileId) (k j : Nat) : (s.mirrorRec t k).meter u j = s.meter u j := State.meter_mirror _ _ _ _ _ _
@[simp] theorem State.meter_mirrorFields (s : State) (t u : TileId) (k j : Nat) (o n : MeterRec) : (s.mirrorFields t k o n).meter u j = s.meter u j :=
  State.meter_mirror _ _ _ _ _ _
@[simp] theorem State.meter_hashRemove (s : State) (t : TileId) (m j : Nat) : (s.hashRemove t m).meter t j = s.meter t j := State.meter_onMeters _ _ _ _ rfl

/-- A journalled ceiling leaves the record but for UPD_CNT (R45); from slot 2^18 on it is that of a counter, which has no record. -/
theorem State.meter_setCeil (s : State) (t : TileId) (k c : Nat) :
    (s.setCeil t k c).meter t k = if k < 2 ^ 18 then { s.meter t k with updCnt := ((s.meter t k).updCnt + 1) % 2 ^ 32 } else s.meter t k := by
  have e : (s.onMeters t fun m => { m with ceils := Tbl.put m.ceils k c }).meter t k = s.meter t k := State.meter_onMeters _ _ _ _ rfl
  unfold State.setCeil
  dsimp only
  split
  · rw [State.meter_journalMeter, e]
  · rw [State.meter_journal, e]

/-- A reservation leaves the record but for UPD_CNT. -/
theorem State.meter_reserveIc (s : State) (t : TileId) (k : Nat) (h : k < 2 ^ 18) :
    (s.reserveIc t k).meter t k = { s.meter t k with updCnt := ((s.meter t k).updCnt + 1) % 2 ^ 32 } := by
  unfold State.reserveIc
  dsimp only
  rw [State.meter_mirror, State.meter_setCeil, if_pos h]

/-- A journalled change of fields stores the changed record. -/
@[simp] theorem State.meter_fieldsMeter (s : State) (t : TileId) (k : Nat) (f : MeterRec → MeterRec) (op : JOp) :
    (s.fieldsMeter t k f op).meter t k = { f (s.meter t k) with updCnt := ((f (s.meter t k)).updCnt + 1) % 2 ^ 32 } := by
  unfold State.fieldsMeter
  simp

/-! ### The other parts -/

@[simp] theorem State.out_onMeters (s : State) (t : TileId) (f : Meters → Meters) : (s.onMeters t f).out = s.out := rfl
@[simp] theorem State.pend_setMeter (s : State) (t : TileId) (k : Nat) (r : MeterRec) : ((s.setMeter t k r).vol t).meters.pend = (s.vol t).meters.pend := by simp [State.setMeter]
@[simp] theorem State.hash_setMeter (s : State) (t : TileId) (k : Nat) (r : MeterRec) : ((s.setMeter t k r).vol t).meters.hash = (s.vol t).meters.hash := by simp [State.setMeter]
@[simp] theorem State.ceils_setMeter (s : State) (t : TileId) (k : Nat) (r : MeterRec) : ((s.setMeter t k r).vol t).meters.ceils = (s.vol t).meters.ceils := by simp [State.setMeter]
@[simp] theorem State.pend_journal (s : State) (t : TileId) (e : JEntry) : ((s.journal t e).vol t).meters.pend = (s.vol t).meters.pend := by simp [State.journal]
@[simp] theorem State.hash_journal (s : State) (t : TileId) (e : JEntry) : ((s.journal t e).vol t).meters.hash = (s.vol t).meters.hash := by simp [State.journal]
@[simp] theorem State.ceils_journal (s : State) (t : TileId) (e : JEntry) : ((s.journal t e).vol t).meters.ceils = (s.vol t).meters.ceils := by simp [State.journal]
@[simp] theorem State.pend_journalMeter (s : State) (t : TileId) (k : Nat) (r : MeterRec) (op : JOp) (a : Int) (i : Nat) :
    ((s.journalMeter t k r op a i).vol t).meters.pend = (s.vol t).meters.pend := by simp [State.journalMeter]
@[simp] theorem State.hash_journalMeter (s : State) (t : TileId) (k : Nat) (r : MeterRec) (op : JOp) (a : Int) (i : Nat) :
    ((s.journalMeter t k r op a i).vol t).meters.hash = (s.vol t).meters.hash := by simp [State.journalMeter]
@[simp] theorem State.ceils_journalMeter (s : State) (t : TileId) (k : Nat) (r : MeterRec) (op : JOp) (a : Int) (i : Nat) :
    ((s.journalMeter t k r op a i).vol t).meters.ceils = (s.vol t).meters.ceils := by simp [State.journalMeter]
@[simp] theorem State.out_journal (s : State) (t : TileId) (e : JEntry) : (s.journal t e).out = s.out := rfl
@[simp] theorem State.out_setMeter (s : State) (t : TileId) (k : Nat) (r : MeterRec) : (s.setMeter t k r).out = s.out := rfl
@[simp] theorem State.out_journalMeter (s : State) (t : TileId) (k : Nat) (r : MeterRec) (op : JOp) (a : Int) (i : Nat) : (s.journalMeter t k r op a i).out = s.out := rfl
@[simp] theorem State.out_mirrorRec (s : State) (t : TileId) (k : Nat) : (s.mirrorRec t k).out = s.out := State.out_mirror _ _ _ _
@[simp] theorem State.vol_mirrorRec (s : State) (t u : TileId) (k : Nat) : (s.mirrorRec t k).vol u = s.vol u := State.vol_mirror _ _ _ _ _
@[simp] theorem State.out_mirrorFields (s : State) (t : TileId) (k : Nat) (o n : MeterRec) : (s.mirrorFields t k o n).out = s.out := State.out_mirror _ _ _ _
@[simp] theorem State.vol_mirrorFields (s : State) (t u : TileId) (k : Nat) (o n : MeterRec) : (s.mirrorFields t k o n).vol u = s.vol u := State.vol_mirror _ _ _ _ _
@[simp] theorem State.out_ackLater (s : State) (t : TileId) (k : Nat) (b c : Bool) : (s.ackLater t k b c).out = s.out := rfl
@[simp] theorem State.out_hashRemove (s : State) (t : TileId) (m : Nat) : (s.hashRemove t m).out = s.out := rfl
@[simp] theorem State.pend_hashRemove (s : State) (t : TileId) (m : Nat) : ((s.hashRemove t m).vol t).meters.pend = (s.vol t).meters.pend := by simp [State.hashRemove]
/-- No identity of a meter stays in the hash table. -/
theorem State.hash_hashRemove (s : State) (t : TileId) (m : Nat) : ∀ e ∈ ((s.hashRemove t m).vol t).meters.hash, e.midx ≠ m := by simp [State.hashRemove]
/-- One acknowledgement is ordered. -/
theorem State.pend_ackLater (s : State) (t : TileId) (k : Nat) (b c : Bool) : ((s.ackLater t k b c).vol t).meters.pend.length = (s.vol t).meters.pend.length + 1 := by
  simp [State.ackLater]
@[simp] theorem State.hash_ackLater (s : State) (t : TileId) (k : Nat) (b c : Bool) : ((s.ackLater t k b c).vol t).meters.hash = (s.vol t).meters.hash := by simp [State.ackLater]
@[simp] theorem State.ceils_ackLater (s : State) (t : TileId) (k : Nat) (b c : Bool) : ((s.ackLater t k b c).vol t).meters.ceils = (s.vol t).meters.ceils := by simp [State.ackLater]
@[simp] theorem State.meters_rfForget (s : State) (t : TileId) (k : Nat) : ((s.rfForget t k).vol t).meters = (s.vol t).meters := by simp [State.rfForget]
@[simp] theorem State.meter_rfForget (s : State) (t : TileId) (k j : Nat) : (s.rfForget t k).meter t j = s.meter t j :=
  State.meter_congr _ _ (by simp) (by simp [State.rfForget])
@[simp] theorem State.out_rfForget (s : State) (t : TileId) (k : Nat) : (s.rfForget t k).out = s.out := rfl

end Sys2Proof.Machine
end

