-- ==== Sys2Proof/Machine/Tap.lean ====
section
/-! DEFINITION. Tap.lean: chapter 22: the test access port (R683, R684): its instructions, IDCODE and the scan chain. No command of the table clocks the port,
so it stays in reset in every run (notes/assumptions/34.md); these are its operations. -/

namespace Sys2Proof.Machine

/-- IDCODE for a stepping: the low four bits of its major part, 0xD216, manufacturer 0x5A5, and 1 (R683). -/
def idcodeOf (stepping : Nat) : Nat := stepping / 256 % 16 * 2 ^ 28 + 0xD216 * 2 ^ 12 + 0x5A5 * 2 + 1

/-- The balls that the scan chain holds: FB of each bay, the Pier bank, the VIO bank without the balls of the port (R671, R683). Relay balls are numbered SET_H,
SET_L, CLR_H, CLR_L of relay 0, then of relay 1. -/
inductive ScanBall
  | plcTxen (t : TileId) | plcPselA (t : TileId) | plcPselB (t : TileId) | plcZc (t : TileId)
  | rfPaen (t : TileId) | rfTrsw (t : TileId) | magScl (t : TileId) | magSda (t : TileId) | dispTx (t : TileId)
  | rlyFb (t : TileId) (k : Fin 2) | relay (t : TileId) (k : Fin 8)
  | bayOwn (t : TileId) | legalEnN (b : BayId) | tout (b : BayId)
  | pfailN | pmbScl | pmbSda | pmbAlertN
  | refclk | tinPps | tinTod | sysRstN | svcTxd | svcRxd | svcDe
  deriving DecidableEq, Repr

/-- The balls of a tile in its field bank. -/
def tileBalls (t : TileId) : List ScanBall :=
  [.plcTxen t, .plcPselA t, .plcPselB t, .plcZc t, .rfPaen t, .rfTrsw t, .magScl t, .magSda t, .dispTx t, .rlyFb t 0, .rlyFb t 1] ++
  ((List.finRange 8).map fun k => .relay t k) ++ [.bayOwn t]

/-- The scan chain. The manual gives the balls and no order: bay by bay, then the two other banks as R671 lists them (DESIGN CHOICE,
notes/assumptions/34.md). -/
def scanChain : List ScanBall :=
  (allBays.flatMap fun b => tileBalls (tileOf b false) ++ tileBalls (tileOf b true) ++ [.legalEnN b, .tout b]) ++
  [.pfailN, .pmbScl, .pmbSda, .pmbAlertN, .refclk, .tinPps, .tinTod, .sysRstN, .svcTxd, .svcRxd, .svcDe]

/-- EXTEST may drive the ball: an output that is neither a relay driver nor PLC_TXEN. -/
def ScanBall.drivable : ScanBall → Bool
  | .plcPselA _ | .plcPselB _ | .rfPaen _ | .rfTrsw _ | .magScl _ | .magSda _ | .dispTx _ | .bayOwn _ | .tout _ => true
  | .pfailN | .pmbScl | .pmbSda | .svcTxd | .svcDe => true
  | _ => false

/-- What the device itself drives at a ball: none is high impedance, or an input. -/
def State.ballDrive (s : State) : ScanBall → Option Bool
  | .plcTxen t => (s.fieldPin t).bind fun d => if d.plc then some d.txen else none
  | .plcPselA t => (s.fieldPin t).bind fun d => if d.plc then some (bit d.psel 0) else none
  | .plcPselB t => (s.fieldPin t).bind fun d => if d.plc then some (bit d.psel 1) else none
  | .rfPaen t => (s.fieldPin t).bind fun d => if d.rf then some d.paen else none
  | .rfTrsw t => (s.fieldPin t).bind fun d => if d.rf then some d.trsw else none
  | .dispTx t => (s.fieldPin t).map fun d => d.disp
  | .relay t k => (s.fieldPin t).bind fun d =>
      let r := if k.val < 4 then d.relay0 else d.relay1
      if (r = 1 ∧ k.val % 4 < 2) ∨ (r = 2 ∧ 2 ≤ k.val % 4) then some (decide (k.val % 2 = 0)) else none
  | .bayOwn t => if s.pier.up then some (s.ownPin t) else none
  | .tout b => if s.pier.up then some (s.bay b).toutLevel else none
  | .pfailN => if s.pier.pfail then some false else none
  | _ => none

/-- The instruction that takes effect: SAMPLE/PRELOAD and EXTEST act only while SYS_RST_N is low, as BYPASS otherwise. -/
def Tap.acts (x : Tap) (sysRstLow : Bool) : TapIns :=
  match x.ins with
  | .samplePreload => if sysRstLow then .samplePreload else .bypass
  | .extest => if sysRstLow then .extest else .bypass
  | i => i

/-- An instruction is loaded. -/
def Tap.load (x : Tap) (i : TapIns) : Tap := { x with ins := i }

/-- What the data register captures: 0 for BYPASS, IDCODE, or the balls as they are; `levels` gives those of the inputs and of floating balls. -/
def State.tapDr (s : State) (i : TapIns) (stepping : Nat) (levels : List Bool) : List Bool :=
  match i with
  | .bypass => [false]
  | .idcode => (List.range 32).map fun k => (idcodeOf stepping).testBit k
  | _ => (scanChain.zip (List.range scanChain.length)).map fun x => (s.ballDrive x.1).getD (levels.getD x.2 false)

/-- The data register of the instruction that acts captures. -/
def State.tapCapture (s : State) (sysRstLow : Bool) (stepping : Nat) (levels : List Bool) : State :=
  s.onPier fun p => { p with tap := { p.tap with dr := s.tapDr (p.tap.acts sysRstLow) stepping levels } }

/-- One shift: the bit at TDO, and the register after it. -/
def Tap.shift (x : Tap) (tdi : Bool) : Bool × Tap := (x.dr.headD false, { x with dr := x.dr.tail ++ [tdi] })

/-- The update stage follows for SAMPLE/PRELOAD and EXTEST. -/
def Tap.update (x : Tap) (sysRstLow : Bool) : Tap :=
  match x.acts sysRstLow with
  | .samplePreload => { x with cells := x.dr }
  | .extest => { x with cells := x.dr }
  | _ => x

/-- What stands at a ball: the update stage where EXTEST drives it, else what the device drives. From the release of SYS_RST_N the balls return to the device
(R684). -/
def State.ballShown (s : State) (sysRstLow : Bool) (b : ScanBall) : Option Bool :=
  if s.pier.tap.acts sysRstLow = .extest ∧ b.drivable = true then (s.pier.tap.cells[scanChain.idxOf b]?) else s.ballDrive b

end Sys2Proof.Machine
end

