-- ==== Sys2Proof/Laws/Tap.lean ====
section
/-! SUPPORT. Tap.lean: what the test access port can do to the balls. -/

namespace Sys2Proof.Machine

/-- With SYS_RST_N high every ball is the device's, whatever instruction the port holds (R684). -/
theorem State.ballShown_released (s : State) (b : ScanBall) : s.ballShown false b = s.ballDrive b := by
  unfold State.ballShown Tap.acts
  cases s.pier.tap.ins <;> simp

end Sys2Proof.Machine
end

