-- ==== Sys2Proof/Tests/Slice0.lean ====
section
/-! SUPPORT. Slice0.lean: tests: every check of well-formedness refuses a term; words spell nothing; the public algorithms give the examples of their
standards; a few single steps; and for every clause of every statement that has hypotheses a state and operands that meet them together. Where a clause needs a
value of a constant without a body, the witness takes that value as its premise. -/

namespace Sys2Proof.Machine

set_option maxRecDepth 100000
set_option Elab.async false

/-! ### Well-formed commands: every check refuses a term -/

/-- A message for these tests. -/
def wMsg : HostMsg := { target := 0, status := 0, session := 0, seq := 0, ref := 0, len := 0, flags := 0, body := [] }
/-- What the PLC receiver says, for these tests. -/
def wPhy : PlcPhy := { path := [], eui := 0, short := true, framing := 0, sh := none, lag := 0, own := 0, snr := [], samples := [], cost := 0, asks := none, level := 0, fcsOk := true, micOk := true }
/-- An event, for these tests. -/
def wEvent : Event := { sev := 0, wher := 0, code := 0, obj := 0, a := 0, b := 0, whenNs := 0, uptime := 0, eseq := 0, taken := 0 }
/-- A peer and one that is too short. -/
def wPeer : Bytes := List.replicate 16 0
def wShort : Bytes := List.replicate 15 0

theorem wf_msg_checks : msgOk wMsg = true ∧ msgOk { wMsg with target := 256 } = false ∧ msgOk { wMsg with status := 256 } = false ∧
    msgOk { wMsg with session := 2 ^ 32 } = false ∧ msgOk { wMsg with seq := 2 ^ 32 } = false ∧ msgOk { wMsg with ref := 2 ^ 32 } = false ∧
    msgOk { wMsg with len := 65536 } = false ∧ msgOk { wMsg with flags := 65536 } = false ∧ msgOk { wMsg with body := List.replicate 1433 0 } = false := by decide +kernel
theorem wf_range_checks : (Instr.fetch (.direct 0 0 (2 ^ 48 - 1))).wf = true ∧ (Instr.fetch (.direct 0 (2 ^ 48) 0)).wf = false ∧
    (Instr.ackDiscard (.direct 0 0 (2 ^ 48))).wf = false ∧ (Instr.fetch (.host 0 wShort wMsg)).wf = false ∧
    (Instr.ackDiscard (.host 0 wPeer { wMsg with target := 256 })).wf = false := by decide +kernel
theorem wf_item_checks : (Instr.queueWrite 0 0 (.cullet (List.replicate 128 0))).wf = true ∧ (Instr.queueWrite 0 0 (.cullet [])).wf = false ∧
    (Instr.queueWrite 0 1 (.cullet (List.replicate 128 0))).wf = false ∧
    (Instr.queueWrite 0 0 (.record { seq := 1, who := 0, body := .book 0 [], tag := [] })).wf = false ∧
    (Instr.queueWrite 0 4 (.ack 0 0 0 (List.replicate 33 0))).wf = false ∧ (Instr.queueWrite 0 3 (.ack 0 0 0 [])).wf = false ∧
    (Instr.queueWrite 0 5 (.sample (List.replicate 145 0))).wf = false ∧ (Instr.queueWrite 0 4 (.sample [])).wf = false ∧
    (Instr.queueWrite 0 5 (.event wEvent)).wf = false := by decide +kernel
theorem wf_plc_checks : phyOk wPhy = true ∧ phyOk { wPhy with eui := 2 ^ 64 } = false ∧ phyOk { wPhy with framing := 2 } = false ∧
    phyOk { wPhy with path := [65536] } = false ∧
    ∀ c ∈ [Instr.plcFrameRx 0 { wPhy with framing := 2 } [], .cap 0 { wPhy with framing := 2 } [], .mapReq 0 { wPhy with framing := 2 } [],
      .mapRsp 0 { wPhy with framing := 2 } [], .neighReport 0 { wPhy with framing := 2 } [], .plcTransmit 0 0 0 false false [65536], .join 0 (2 ^ 64) true,
      .mapRefresh 0 65536, .mapSetDrop 0 65536], c.wf = false := by decide +kernel
theorem wf_buffer_checks : (Instr.bankWrite 0 0 4194303 [0]).wf = true ∧
    ∀ c ∈ [Instr.bankWrite 0 0 4194304 [0], .bankWrite 0 0 0 [], .classTableWrite 0 8192 [0], .profileWrite 0 1024 [0], .certWrite 0 0 1024 [0],
      .anchorWrite 0 1024 [0]], c.wf = false := by decide +kernel
theorem wf_list_checks : (Instr.magRead 0 [some [1, 2, 3, 4, 5, 6], none]).wf = true ∧
    ∀ c ∈ [Instr.magRead 0 [some [1, 2]], .sensorRetry 0 0 (some []), .pmbAlert [0], .statusPoll (List.replicate 16 65536), .stageCommit 0 [],
      .blockEnd 0 [] [] [] [] [] [] ([], []), .blockEnd 0 [0] [0] [0] [0] [0] [0] ([0], [0]), .secondUpdate 0 0 50 1 0 50 0 0, .tileBoot 0 true ⟨0, 32⟩, .calCommit ⟨0, 3⟩,
      .regRestore ⟨0, 3⟩, .legalInstall ⟨0, 3⟩, .rfFrameRx 0 0 0 (List.replicate 2048 0), .rfPoll 0 0 0 (List.replicate 2048 0),
      .serialFrame (List.replicate 2911 0), .ptpSync 0 { domain := 0, port := [] } 0 0, .ptpSync 0 { domain := 256, port := wPeer } 0 0, .restep (List.replicate 1025 0), .legalAck 0 0 []], c.wf = false := by decide +kernel
theorem wf_record_checks : (Instr.egressDelay 0 wPeer).wf = true ∧
    ∀ c ∈ [Instr.egressDelay 0 wShort, .creditStarve 0 wShort, .nandFail 0 wShort, .lostInject 0 wShort, .mirrorDelay 0 wShort, .pmbusDelay 0 wShort,
      .auditMismatch 0 wShort, .mirrorLost 0 wShort], c.wf = false := by decide +kernel
theorem wf_slot_checks : (Instr.relayAudit 0 (2 ^ 18 - 1)).wf = true ∧
    ∀ c ∈ [Instr.recordRestore 0 (2 ^ 18) true, .relayCheckGet 0 (2 ^ 18), .relayConfirmExpiry 0 (2 ^ 18), .relayAudit 0 (2 ^ 18), .responseTimeout 0 (2 ^ 18) 0,
      .calendarPush 0 (2 ^ 18), .pushMemberStep 0 (2 ^ 18), .fillPass 0 (2 ^ 18), .collectionRequest 0 (2 ^ 18), .pendingExpire 0 (2 ^ 18), .rfCollection 0 (2 ^ 18),
      .meterClockCheck 0 (2 ^ 18), .activatingTimeout 0 (2 ^ 18), .midxWaitRelease 0 (2 ^ 22)], c.wf = false := by decide +kernel
theorem wf_number_checks : ∀ c ∈ [Instr.powerOn 65536 [], .sysRstN 65536 [], .stageBegin 0 256 0, .stageBegin 0 0 (2 ^ 32), .tileFwReset 0 256, .bayModeWrite 0 false 256,
    .localRelayCmd 0 0 256, .ephRelayCmd 0 256, .flagsClear 0 (2 ^ 32), .responseTimeout 0 0 256, .portDisable 0 0 256, .notify 256 0, .notify 0 2,
    .watchCompare (2 ^ 32) 0, .watchCompare 0 (2 ^ 32), .sessionIdle (2 ^ 32), .stagingLockTimeout 65536 0, .stagingLockTimeout 0 256, .bayPromote 0 256, .clearFault 0 256,
    .bayModeChange 0 256, .regulatorAck 0 65536 0, .regulatorAck 0 0 65536, .pfailAssert 0 65536 0, .pfailAssert 0 0 256, .pfailRelease 65536,
    .energySettingWrite 0 0 65536 0, .energySettingWrite 0 0 0 5, .patrol 0 65536 0 0 0 0, .patrol 0 0 65536 0 0 0, .rcCounterRead 65536 0, .rcCounterRead 0 256,
    .legalEvent 0 65536 [], .legalAck 0 (2 ^ 32) wPeer, .diagUnlock 256 0, .diagUnlock 0 (2 ^ 32), .diagLock 256, .restoreDefaults 65536,
    .entryWrite 256 0 0 [] 0, .entryWrite 0 65536 0 [] 0, .entryWrite 0 0 256 [] 0, .entryWrite 0 0 0 [] 5], c.wf = false := by decide +kernel
theorem wf_frame_checks : ∀ f ∈ [({ source := 5, addrKind := 0, satId := 0, forceOld := false, rfSecured := false, entry := 0, addr := 0, arrival := 0, envSeq := 0, aad := [], apdu := [], env := 0 } : Frame),
    { source := 0, addrKind := 0, satId := 65536, forceOld := false, rfSecured := false, entry := 0, addr := 0, arrival := 0, envSeq := 0, aad := [], apdu := [], env := 0 }], (Instr.ephResponse 0 f).wf = false := by decide +kernel
theorem wf_host_checks : (Instr.get 0 wPeer wMsg).wf = true ∧
    ∀ c ∈ [Instr.hello 0 wShort wMsg, .auth 0 wShort wMsg, .get 0 wShort wMsg, .set 0 wShort wMsg, .getBlock 0 wShort wMsg, .setBlock 0 wShort wMsg,
      .subscribe 0 wShort wMsg, .unsubscribe 0 wShort wMsg, .exec 0 wShort wMsg, .close 0 wShort wMsg, .noSession 0 wShort 1 wMsg, .noSession 0 wPeer 256 wMsg,
      .hello 0 wPeer { wMsg with target := 256 }, .auth 0 wPeer { wMsg with target := 256 }, .get 0 wPeer { wMsg with target := 256 },
      .set 0 wPeer { wMsg with target := 256 }, .getBlock 0 wPeer { wMsg with target := 256 }, .setBlock 0 wPeer { wMsg with target := 256 },
      .subscribe 0 wPeer { wMsg with target := 256 }, .unsubscribe 0 wPeer { wMsg with target := 256 }, .exec 0 wPeer { wMsg with target := 256 },
      .close 0 wPeer { wMsg with target := 256 }, .noSession 0 wPeer 1 { wMsg with target := 256 }], c.wf = false := by decide +kernel
theorem wf_announce_checks : (Instr.ptpAnnounce 0 { domain := 0, port := (List.replicate 10 0) } (List.replicate 8 0) 0 0 0 0 0 0 0 0 true 0).wf = true ∧
    ∀ c ∈ [Instr.ptpAnnounce 0 { domain := 256, port := (List.replicate 10 0) } (List.replicate 8 0) 0 0 0 0 0 0 0 0 true 0, .ptpAnnounce 0 { domain := 0, port := [] } (List.replicate 8 0) 0 0 0 0 0 0 0 0 true 0, .ptpAnnounce 0 { domain := 0, port := (List.replicate 10 0) } [] 0 0 0 0 0 0 0 0 true 0,
      .ptpAnnounce 0 { domain := 0, port := (List.replicate 10 0) } (List.replicate 8 0) 256 0 0 0 0 0 0 0 true 0, .ptpAnnounce 0 { domain := 0, port := (List.replicate 10 0) } (List.replicate 8 0) 0 256 0 0 0 0 0 0 true 0,
      .ptpAnnounce 0 { domain := 0, port := (List.replicate 10 0) } (List.replicate 8 0) 0 0 256 0 0 0 0 0 true 0, .ptpAnnounce 0 { domain := 0, port := (List.replicate 10 0) } (List.replicate 8 0) 0 0 0 65536 0 0 0 0 true 0,
      .ptpAnnounce 0 { domain := 0, port := (List.replicate 10 0) } (List.replicate 8 0) 0 0 0 0 256 0 0 0 true 0, .ptpAnnounce 0 { domain := 0, port := (List.replicate 10 0) } (List.replicate 8 0) 0 0 0 0 0 65536 0 0 true 0,
      .ptpAnnounce 0 { domain := 0, port := (List.replicate 10 0) } (List.replicate 8 0) 0 0 0 0 0 0 256 0 true 0], c.wf = false := by decide +kernel

/-! ### Words and the queue -/

theorem test_no_word_spells_a_command : decodeTableWord 32 0 = none := rfl
theorem test_fetch_word_leaves_the_state (n w : Nat) : State.reset.withFetchWord n w = State.reset := rfl
theorem test_step_takes_the_front : (match step { State.reset with pending := [.deviceReset, .brownOut] } with
    | .next x => decide (x.pending = [.brownOut])
    | _ => false) = true := by decide +kernel

/-! ### The public algorithms, against the examples of their standards -/

/-- CRC-32 of "123456789", the check value of the polynomial. -/
theorem test_crc32_check : Crypto.crc32 (Crypto.ascii "123456789") = 0xCBF43926 := by decide +kernel
/-- FIPS 197, appendix C.1. -/
theorem test_aes128_fips197 : Crypto.aesEnc (natBE 16 0x000102030405060708090a0b0c0d0e0f) (natBE 16 0x00112233445566778899aabbccddeeff) =
    natBE 16 0x69c4e0d86a7b0430d8cdb78070b4c55a := by decide +kernel
/-- FIPS 197, appendix C.3. -/
theorem test_aes256_fips197 : Crypto.aesEnc (natBE 32 0x000102030405060708090a0b0c0d0e0f101112131415161718191a1b1c1d1e1f) (natBE 16 0x00112233445566778899aabbccddeeff) =
    natBE 16 0x8ea2b7ca516745bfeafc49904b496089 := by decide +kernel
/-- FIPS 180-4 example "abc". -/
theorem test_sha256_abc : Crypto.sha256 (Crypto.ascii "abc") = natBE 32 0xba7816bf8f01cfea414140de5dae2223b00361a396177a9cb410ff61f20015ad := by decide +kernel
/-- SP 800-38B, AES-128, the empty message. -/
theorem test_cmac_empty : Crypto.cmac (natBE 16 0x2b7e151628aed2a6abf7158809cf4f3c) [] = natBE 16 0xbb1d6929e95937287fa37d129b756746 := by decide +kernel
/-- The GCM specification, test case 2. -/
theorem test_gcm_case2 : Crypto.gcmSeal (List.replicate 16 0) (List.replicate 12 0) [] (List.replicate 16 0) 16 =
    (natBE 16 0x0388dace60b6a392f328c2b971b2fe78, natBE 16 0xab6e47d42cec13bdf53a67b21257bddf) := by decide +kernel

/-! ### Steps, with the results that the rules give -/

/-- R19: a first window passes from 24 000 to 27 200 edges. -/
theorem test_window_edges : ([23999, 24000, 27200, 27201].map fun e => match exec (.qualificationWindow e) (State.reset.onPier fun p => { p with up := true }) with
    | .next x => x.pier.clock
    | _ => .select) = [.onRc, .onRefclk, .onRefclk, .onRc] := by decide +kernel
/-- R628: an unlock lasts from 60 s to 86 400 s. -/
theorem test_unlock_times : ([59, 60, 86400, 86401].map fun n => match exec (.diagUnlock 1 n) State.reset with
    | .next x => (x.bay 0).unlockTo
    | _ => 1) = [0, 60000000000, 86400000000000, 0] := by decide +kernel

/-! ### Witnesses: for each clause of a statement, a state and operands that meet its hypotheses together -/

/-- `StepKeepsGates`: the empty queue steps. -/
theorem witness_stepKeepsGates : ∃ s x : State, step s = .next x := ⟨State.reset, _, rfl⟩


/-- A state for tests: the Pier runs. -/
def tUp : State := State.reset.onPier fun p => { p with up := true }
/-- A state for tests: tile 0 is the active tile of its redundant bay, in RUN, fully booted. -/
def tAct : State := ((((tUp.wr Reg.status_missing 0 0).wr Reg.status_service 0 3).setRole 0 0).onPower 0 fun p => { p with st := .run }).onVol 0 fun v => { v with boot := { v.boot with step := 6, running := some 0 } }
/-- A state for tests: the pages that tile 0 serves, with a meter record in slot 5. -/
def tMeter (r : MeterRec) : State := tAct.setMeter 0 5 r
/-- A state for tests: the staging block of tile 0 names MIDX 5 and the image given. -/
def State.stage5 (s : State) (img : Bytes) : State := (s.wrB Reg.meters_staging 0 0 img).wrB Reg.meters_staging 0 0x100 [5, 0, 0, 0]
/-- A record for tests: a meter in service. -/
def tRec : MeterRec := { MeterRec.free 5 with state := 1, sysTitle := 7, eui64 := 8, shortAddr := 0xFFFF, idur := 900, keyMap := 1 }
/-- A state for tests: an action on the record of slot 5 has not completed. -/
def tBusyAct : State := tAct.onVol 0 fun v => { v with meters := { v.meters with pend := [{ slot := 5, jpos := 1, mirror := 0, drain := false }] } }
/-- A state for tests: class 0 of tile 0 is an electricity class with one register. -/
def State.class0 (s : State) : State := s.wrB Reg.meters_class_table 0 0 ([0, 1, 0, 0, 0x84, 3] ++ List.replicate 122 0)
/-- A session for tests: an established link session on D0 whose keys are zeros. -/
def tSess : Sess := { st := 2, port := 0, mac := [2, 0, 0, 0, 0, 9], sat := 4, value := 1, epoch := 7, tx := 0, rx := 0, keyTx := List.replicate 32 0, keyRx := List.replicate 32 0, print := List.replicate 32 3, sentAt := 0, gotAt := 0, gotNs := 0, hello := [], nonce := List.replicate 16 5, since := 0 }
/-- Frames for tests of that session's satellite, sealed under its key: an ENVELOPE with one entry, and a DOWN_RSP. -/
def tEnvFrame : Bytes := [0, 0, 0, 0, 0, 0, 2, 0, 0, 0, 0, 9, 136, 181, 1, 16, 0, 0, 1, 0, 0, 0, 1, 0, 0, 0, 0, 0, 0, 0, 32, 0, 0, 0, 228, 50, 196, 161, 251, 3, 214, 81, 115, 209, 24, 185, 85, 104, 24, 240, 17, 160, 69, 120, 102, 96, 82, 117, 184, 26, 142, 135, 188, 120, 109, 55, 42, 195, 224, 73, 31, 90, 213, 241, 75, 226, 150, 127, 0, 17, 54, 23]
def tDownFrame : Bytes := [0, 0, 0, 0, 0, 0, 2, 0, 0, 0, 0, 9, 136, 181, 1, 19, 0, 0, 1, 0, 0, 0, 1, 0, 0, 0, 0, 0, 0, 0, 14, 0, 0, 0, 226, 51, 196, 161, 242, 3, 214, 81, 115, 209, 24, 185, 84, 106, 235, 10, 156, 191, 124, 33, 17, 124, 125, 77, 170, 200, 197, 191, 191, 157]
/-- A state for tests: D0 of tile 0 is UP and holds that session. -/
def tSat : State := tAct.onSw 0 fun w => { w with port := [2, 0], sess := [(0, tSess)], nextSess := 2 }
/-- A frame for tests that waits for Gather. -/
def tFrame : Frame := { source := 3, addrKind := 0, satId := 0xFFFF, forceOld := false, rfSecured := false, entry := 0, addr := 7, arrival := 0, envSeq := 0, aad := [], apdu := [1], env := 0 }
/-- A state for tests: the intake of tile 0 is open, and the meter of slot 5 is known by its system title. -/
def tIn : State := ((tMeter tRec).wr Reg.status_missing 0 0).onVol 0 fun v => { v with meters := { v.meters with hash := [{ kind := 0, key := 7, midx := 5, bucket := some 0 }] }, sw := { v.sw with credit := [64, 64, 1024, 64, 64, 512, 1024, 0] } }
/-- A reading for tests of that meter. -/
def tRead : Opened := { midx := 5, source := 3, tend := 900, capOfs := 0, idur := 900, qual := 0, row := 0, rows := 1, ctr := 1, arrival := 0, regs := [1, 0, 0, 0, 0, 0] }
/-- A reading for tests that has passed the duplicate check. -/
def tPassed : Passed := { rd := tRead, fid := 0, gen := 5, restate := none, replay := none, lastTend := 0, lastReg := [0, 0, 0, 0, 0, 0], phase := 0, cls := 0, rule := 255, flags := 0 }
/-- A row for tests of that reading. -/
def tRow : Row := { rd := tRead, direct := false, forceOld := false, fid := 0, gen := 5, restate := none, replay := none, rule := 255, flags := 0 }
/-- A state for tests: D0 of tile 0 holds the session and has credits; and an ENVELOPE of it that asks for FORCE_OLD. -/
def tSatC : State := tSat.onSw 0 fun w => { w with credit := [64, 64, 1024, 64, 64, 512, 1024, 0] }
def tOldFrame : Bytes := [0, 0, 0, 0, 0, 0, 2, 0, 0, 0, 0, 9, 136, 181, 1, 16, 0, 0, 1, 0, 0, 0, 1, 0, 0, 0, 0, 0, 0, 0, 32, 0, 0, 0, 228, 50, 197, 161, 251, 3, 214, 81, 115, 209, 24, 185, 85, 104, 24, 240, 17, 160, 69, 120, 102, 96, 82, 117, 184, 26, 142, 135, 188, 120, 109, 55, 189, 192, 245, 32, 65, 41, 227, 25, 10, 108, 118, 243, 195, 174, 164, 164]
/-- A state for tests: a frame of the known meter waits in the VOQ of source 3. -/
def tVoq3 : State := tIn.onGather 0 fun g => { g with voq := [[], [], [], [tFrame], []] }
/-- A state for tests: rule 0 of rule set 0 rejects a value of register 0 other than 0 from source 3. -/
def tReject : State := (tIn.class0.wrB Reg.marver_rule_table 0 0 (List.replicate 13 0 ++ [8, 0, 0x10])).onMarver 0 fun m => { m with inq := [{ tPassed with rule := 0 }] }
/-- A state for tests: the Cullet queue holds two entries; and what is left of it after eight reads. -/
def tCul : State := tAct.setQueue 0 0 { (PPQ.empty : PPQ QItem) with drain := [.cullet [1, 2]], fill := [.cullet [3]] }
def tCul8 : State × Bytes := (List.range 8).foldl (fun (a : State × Bytes) _ => ((a.1.culletTake 0).1, a.2 ++ (a.1.culletTake 0).2)) (tCul, [])
/-- A state for tests: tile 0 issues stream 0, whose next SEQ is 10. -/
def tLehr : State := tAct.onLehr 0 fun l => { l with stream0 := { StreamSt.idle with next := 10, openFirst := 9, carried := 0, leaves := [List.replicate 32 1], issuing := true } }
/-- A state for tests: the bay key table names archive key generation `g` as current. -/
def atGen (g : Nat) (s : State) : State := s.onVault 0 fun v => { v with blobs := [(blobPlace 2 7, List.replicate 4 0 ++ natLE 4 (bayOwner g))] }
/-- A state for tests: tile 0 provides time; its time is 37 s. -/
def timed (s : State) : State := (s.wr Reg.time_state 0 2).onVol 0 fun v => { v with mer := { v.mer with baseTime := 37000000000 } }
/-- The generator of P-256, the public key of the private key 1; and a public key with a signature under it. -/
def tPub : Bytes := [4, 107, 23, 209, 242, 225, 44, 66, 71, 248, 188, 230, 229, 99, 164, 64, 242, 119, 3, 125, 129, 45, 235, 51, 160, 244, 161, 57, 69, 216, 152, 194, 150, 79, 227, 66, 226, 254, 26, 127, 155, 142, 231, 235, 74, 124, 15, 158, 22, 43, 206, 51, 87, 107, 49, 94, 206, 203, 182, 64, 104, 55, 191, 81, 245]
def tKey3 : Bytes := [4, 12, 125, 245, 8, 251, 29, 152, 220, 70, 58, 40, 19, 218, 143, 19, 84, 230, 130, 219, 125, 180, 201, 242, 254, 142, 224, 81, 89, 39, 188, 213, 5, 98, 50, 59, 237, 38, 30, 179, 79, 93, 249, 246, 250, 183, 76, 145, 167, 96, 155, 71, 164, 14, 176, 87, 192, 46, 51, 221, 158, 86, 189, 103, 85]
def tSigR : Bytes := [169, 47, 72, 126, 244, 40, 213, 240, 87, 171, 207, 173, 31, 35, 242, 202, 185, 134, 182, 100, 48, 64, 125, 245, 90, 156, 142, 147, 72, 132, 79, 181]
def tSigS : Bytes := [169, 47, 72, 126, 244, 40, 213, 240, 87, 171, 207, 173, 31, 35, 242, 202, 185, 134, 182, 100, 48, 64, 125, 245, 90, 156, 142, 147, 72, 132, 79, 181]
/-- Archive records for tests: a record, and the three of the closure group of its batch. The signature is one under that key over the message of R162. -/
def tR1 : ArchRec := { seq := 1, who := 5, body := .meter 1 900 900 0 [1, 0, 0, 0, 0, 0], tag := [100, 104, 57, 246, 201, 64, 138, 121, 161, 237, 133, 114] }
def tRoot : Bytes := [183, 11, 120, 63, 27, 215, 245, 192, 157, 67, 213, 202, 6, 242, 32, 32, 146, 110, 67, 41, 185, 155, 112, 101, 180, 57, 52, 215, 171, 210, 169, 171]
def tHd : ArchRec := { seq := 2, who := 0, body := .header 1 1 1 0 0 tRoot, tag := List.replicate 12 0 }
def tSr : ArchRec := { seq := 3, who := 0, body := .sigR 0 tSigR, tag := List.replicate 12 0 }
def tSs : ArchRec := { seq := 4, who := 0, body := .sigS 2 tSigS, tag := List.replicate 12 0 }
/-- The closure group of those records. -/
def tClo : Closure := { h := tHd, r := tSr, s := tSs, first := 1, count := 1, cause := 1, keyGen := 0, signer := 0, root := tRoot }
/-- A state for tests: tile 0 holds those records, their archive key of generation 0 and the public key that goes with the signature. -/
def tHeld : State := ((tAct.onLehr 0 fun l => { l with page := [tR1, tHd, tSr, tSs] }).onVault 0 fun v => { v with bayKek := some (List.replicate 32 2), blobs := [(archPlace 0, blobForm (List.replicate 32 2) 1 2 0 (bayOwner 0) 0 (List.replicate 16 1))] }).wrB Reg.vault_sign_pubkeys 0 0 tKey3
/-- A state for tests: the ring of tile 0 is full, and logical block 3 of the archive region is mapped. -/
def tRing : State := (tLehr.onMedia 0 fun m => { m with factory := List.replicate dieBlocks 0, blocks := [(0, { st := .mapped, erases := 0, region := 0, lb := 3, ver := 0, pages := 0, held := 0 })] }).wr Reg.lehr_full_policy 0 1
/-- That state with the records of the block counted as overwritten. -/
def tRing2 : State := [0, 1].foldl (fun (z : State) k =>
  let lost := ((tRing.tile 0).media.arch k).filter fun a => decide (a.2.lb = ([] : List Nat).foldl min 3)
  let z := z.bump Reg.lehr_overwritten 0 0 (lost.countP fun a => !(tRing.tile 0).media.discarded a.1)
  match lost.getLast? with
  | some a => z.setFloor 0 k (max ((tRing.tile 0).media.floor k) (a.1 + 1))
  | none => z) tRing
/-- A measured record for tests, before it has a SEQ. -/
def tPre : PreRec := { out := 0, tend := 900, idur := 900, qual := 0, regs := [1, 0, 0, 0, 0, 0] }
/-- A state for tests: a group waits at Lehr, and the page buffer holds the record of SEQ 9. -/
def tGrp (g : Group) : State := tLehr.onLehr 0 fun l => { l with inq := [g], page := [{ tR1 with seq := 9 }] }
/-- A state for tests: tile 0 issues stream 0, provides time (1 800 s) and its Balance engine has closed no book. -/
def tBal : State := ((timed tLehr).onMer 0 fun m => { m with baseTime := 1800000000000 }).onBal 0 fun b => { b with ready := true, first := 900, tick := 900, b := 900 }
/-- A BOOK record for tests. -/
def tBook : ArchRec := { seq := 7, who := 0, body := .book 2 (List.replicate 42 0), tag := [] }
/-- A state for tests: the metrology of tile 0 measures; its time is 37 s. -/
def tMet : State := ((timed tAct).onMetro 0 fun m => { m with run := true, sync := 37, blk := 1 }).wr Reg.metro_state 0 1
/-- A state for tests: the seal of bay 0 is open. -/
def openSeal (s : State) : State := s.onBay 0 fun y => { y with legalEn := true }
/-- A calibration block for tests that passes every check. -/
def tCal : Bytes :=
  let b := [1, 0] ++ List.replicate 14 0 ++ (List.range 8).flatMap (fun _ => natLE 4 0x40000000 ++ natLE 4 0 ++ [0, 0, 0, 0] ++ natLE 4 1000) ++ List.replicate 108 0
  b ++ natLE 4 (Crypto.crc32 b)
/-- A state for tests: 8 192 samples of a second lie before the metrology of tile 0, with the voltage of L1 at full scale. -/
def tSecond : State := tMet.onMetro 0 fun m => { m with blk := 8, secN := 8192, secV1 := 10 ^ 40, secSq := List.replicate 8 0 }
/-- A state for tests: the first of two records is missing in the feed of tile 0; and the state once it has been read. -/
def tGap : State := (tBal.onBal 0 fun b => { b with next := 5 }).setQueue 0 2 { PPQ.empty with fill := [.record tBook] }
def tGap1 : State := (tGap.qRead 0 2).1.bump Reg.balance_feed_gaps 0
/-- A state for tests: the Balance engine has to rebuild; and it rebuilt. -/
def tReb : State := tBal.onBal 0 fun b => { b with ready := false }
def tReb1 : State := (((tReb.onBal 0 fun _ => (tReb.rebuildFrom 0 0).1).rebuildScan 0 (tReb.archived 0 0) (tReb.rebuildFrom 0 0).2).onBal 0 fun x => { x with ready := true, rebuilt := true, next := ((tReb.archived 0 0).getLast?.map fun r => r.seq + 1).getD ((tReb.vol 0).lehr.stream 0).next })
/-- A state for tests: a pulse of relay 0 of tile 0 runs; and it has ended. -/
def tPulse : State := { (tMet.wr Reg.metro_relay_state 0 2).onRelay 0 0 (fun r => { r with st := 1, drive := some 0 }) with now := 7 }
def tPulse1 : State := ((((tPulse.onBay 0 fun y => { y with pulses := (y.pulses.filter fun x => decide (tPulse.now / 1000000000 < x.1 + 60)) ++ [(tPulse.now / 1000000000, 100)] }).wr Reg.bay_energy_last_pulse_uj 0 100).drivePair 0 0 0).onRelay 0 0 fun r => { r with st := 2, pulsed := some (tPulse.now, if tPulse.relayCmd 0 0 = some 1 then 1 else 2) })
/-- A journal entry for tests: a durable ceiling of 4 096. -/
def tCeil (k : Nat) : JEntry := { op := .ceiling, slot := k, gen := 0, upd := 0, snap := MeterRec.free 0, amount := 0, ceil := 4096 }
/-- A state for tests: the meter of slot 5 is known by its system title, its keys lie in the slot file, its class has every flag, and its counters and that of broadcasts have ceilings of 4 096. -/
def tEph (r : MeterRec) : State := ((((tMeter r).wrB Reg.meters_class_table 0 0 ([0, 1, 15, 0, 0x84, 3] ++ List.replicate 122 0)).onVol 0 fun v => { v with meters := { v.meters with hash := [{ kind := 0, key := 7, midx := 5, bucket := some 0 }], ceils := [(5, 4096), (ctrSlot 2, 4096)] }, gather := { v.gather with slots := [{ midx := 5, kind := 0, keyGen := r.keyGen, key := List.replicate 16 1, usage := 0xFFFF, expiry := 0 }, { midx := 5, kind := 1, keyGen := r.keyGen, key := List.replicate 16 2, usage := 0xFFFF, expiry := 0 }] } }).onTile 0 fun x => { x with media := { x.media with journal := [(0, tCeil 5), (1, tCeil (ctrSlot 2))] } }).wr Reg.eph_select 0 5
/-- A state for tests: the same, with time. -/
def tEphT (r : MeterRec) : State := timed (tEph r)
/-- A record for tests: a meter with both of its keys. -/
def tKeyed : MeterRec := { tRec with keyMap := 3 }
/-- A tariff calendar for tests that comes into force at second `a`, with its CRC. -/
def tCalendar (a : Nat) (crc : Bytes) : Bytes :=
  let b : Bytes := [1, 0] ++ List.replicate 6 0 ++ natLE 6 a ++ [0, 0, 0, 0] ++ [0, 0, 0, 0] ++ [0, 0, 0xC0, 0x3B] ++ [0, 0, 0xC0, 0xAB] ++ List.replicate 34 0 ++ [1, 1, 0, 1] ++ List.replicate 92 0 ++ [0, 0x80] ++ List.replicate 1434 0
  b ++ crc
/-- A request for tests that has been sent. -/
def tReq : EReq := { slot := 5, job := .relayGet, body := [0xC0], kind := 1, cls := 1, inv := 8, tries := 1, sent := some (0, 0) }
/-- An image descriptor for tests: image 9 of 65 bytes 0 in blocks of 64, two multicast rounds, key 20, activated at second 1. -/
def tCamp : Bytes := [9, 0, 0, 0, 65, 0, 0, 0, 64, 0, 2, 3, 20, 1, 0, 0] ++ [7] ++ List.replicate 31 0 ++ natLE 6 1 ++ List.replicate 10 0 ++ Crypto.sha256 (List.replicate 65 0)
/-- A state for tests: the campaign of that descriptor is in state `st`, and the meter of slot 5 is a member of it in state `p`. -/
def tPush (st p : Nat) : State := ((tEphT { tKeyed with imgId := 9, pushState := p }).wrB Reg.eph_push_descriptor 0 0 tCamp).wr Reg.eph_push_state 0 st
/-- A frame for tests: the answer of the meter of slot 5 to request 8, sealed under its keys. -/
def tAnswer : Frame := { tFrame with apdu := [219, 8, 7, 0, 0, 0, 0, 0, 0, 0, 23, 48, 0, 0, 0, 1, 91, 71, 124, 82, 112, 247, 192, 113, 178, 224, 235, 126, 147, 140, 108, 226, 179, 221] }
/-- The state after that answer has been opened. -/
def tOpen : State := ((tEphT tKeyed).onEph 0 fun e => { e with reqs := [tReq] })
def tOpened : State := (tOpen.openFrame 0 5 tAnswer 0).1
def tCounted : State := (tOpened.passCounters 0 5 { apdu := [0xC4, 1, 8, 0, 0x16, 1], ic := some 1, fc := none }).1
/-- A state for tests: a request to the meter of slot 5 waits to be sealed; and it has been sent. -/
def tAsk : State := (tEphT tKeyed).onEph 0 fun e => { e with reqs := [{ tReq with sent := none }] }
def tAsked : State := (tAsk.sealDown 0 5 [0xC0]).1.onEph 0 fun e => { e with reqs := e.reqs.map fun q => if q.slot = 5 ∧ q.inv = 8 then { q with sent := some ((tAsk.sealDown 0 5 [0xC0]).1.now, tAsk.timeNs 0), tries := q.tries + 1 } else q }
/-- A state for tests: the campaign has lost its image while it ran, and its member is being activated; and the image is back. -/
def tNoImg : State := (tPush 36 6).wrB Reg.eph_push_stage 0 0 tCamp
def tImg : State := ((tNoImg.members 0).filter fun i => decide ((tNoImg.meter 0 i).pushState % 16 = 6)).foldl (fun s i => s.onMember 0 i fun m => { m with actAt := s.now, heard := false }) tNoImg
/-- A state for tests: the list of members to add names MIDX 5 and nothing else. -/
def tRun : Cells := (List.range' 4 1020).map fun k => (k, 0xFF)
def tMembers : State := { (tPush 1 0) with regs := Tbl.put (tPush 1 0).regs (Reg.eph_push_members.key 0 0) (.oct ((0, 5) :: tRun)) }
/-- A state for tests: the PLC modem of tile 0 is on, in BEACON mode, with a group master key in slot 9. -/
def plcUp (s : State) : State :=
  ((s.onPlc 0 fun p => { p with up := true }).onVault 0 fun v =>
    { v with slots := [(9, { key := List.replicate 16 4, bad := false })], blobs := [(blobPlace 2 9, [1, 7, 2, 3, 0, 0, 0, 0, 0, 0, 0, 0])] }).wr Reg.plc_mode_now 0 0
/-- A frame of the PLC line for tests, from the neighbour 5, good in every check. -/
def tPhy : PlcPhy := { path := [5], eui := 8, short := true, framing := 1, asks := none, sh := none, lag := 0, own := 0, snr := [], samples := [], cost := 9, level := 5, fcsOk := true, micOk := true }
/-- A transmission for tests that is under way. -/
def tBusy (step : Nat) : PBusy := { step := step, at_ := 0, tx := { dst := 5, cmd := 0, body := [1], slot := 5, kind := 0, inv := 0 }, hop := 5, dur := 1000 }
/-- A neighbour for tests, and a map set. -/
def tSet : MapSet := { msid := 2, slotMap := [0, 0, 0, 0, 0, 0], maps := [(1, 63)] }
def tNeigh : PNeigh := { PNeigh.new 8 1 0 with rxCur := some tSet }
/-- A state for tests: the modem knows that neighbour. -/
def tPlc : State := plcUp (tAct.onPlc 0 fun p => { p with neigh := [(5, tNeigh)] })
/-- A state for tests: a meter of slot 5, known by its EUI-64, whose EAP-PSK is held, asks to join. -/
def tJoin : State :=
  ((plcUp (tEphT tRec)).onVol 0 fun v => { v with meters := { v.meters with hash := [{ kind := 1, key := 8, midx := 5, bucket := some 0 }] } }).onVault 0 fun v =>
    { v with bayKek := some (List.replicate 32 2), blobs := (blobPlace 1 0, blobForm (List.replicate 32 2) 1 7 11 5 0 (List.replicate 16 1)) :: v.blobs }
/-- A state for tests: the keyed meter of slot 5 is known by its short address and answers request 8 over PLC. -/
def tPlcAns : State := (plcUp tOpen).onVol 0 fun v => { v with meters := { v.meters with hash := [{ kind := 2, key := 5, midx := 5, bucket := some 0 }] } }
/-- A state for tests: the modem is in POLLED mode, in slot 0 of its cycle. -/
def tPolled : State := ((plcUp ((tEphT { tKeyed with shortAddr := 5, idur := 900 }).onVol 0 fun v => { v with mer := { v.mer with baseTime := 9370000000000 } })).onPlc 0 fun p =>
  { p with cycle := some (0, 10, 1000000000, 0), sched := [(0, 1, 5)] }).wr Reg.plc_mode_now 0 1
/-- States for tests: the neighbour has sent its capabilities; and it has no maps yet. -/
def tCap : PCap := { caps := 1, maxMaps := 2, bands := 3, epoch := 1, zc := true }
def tPlcCap : State := tPlc.onPlc 0 fun p => { p with caps := [(5, tCap)] }
def tPlcNew : State := plcUp (tAct.onPlc 0 fun p => { p with neigh := [(5, PNeigh.new 8 1 0)] })
/-- A frame of the radio for tests: control bits, the tile's PAN, the broadcast address, source 8. -/
def rfFrame (s : State) (control : Bytes) (body : Bytes) : Bytes := let b := control ++ [9] ++ natLE 2 (s.vol 0).radio.pan ++ List.replicate 8 0xFF ++ natLE 8 8 ++ body
  b ++ rfFcs b
/-- A pending frame for tests. -/
def tPend : RPend := { apdu := [1, 2], kind := 1, inv := 8, at_ := 0, tries := 0, dutyHeld := false, dwellHeld := false }
/-- A state for tests: the transceiver of tile 0 is on, and the meter of slot 5 is reached over it, with an RF link key. -/
def tRf (r : MeterRec) : State := ((tEphT { r with path := 1 }).onRf 0 fun x => { x with up := true, fc := 4 }).onVol 0 fun v => { v with meters := { v.meters with hash := [{ kind := 1, key := 8, midx := 5, bucket := some 0 }] }, gather := { v.gather with slots := v.gather.slots ++ [{ midx := 5, kind := 2, keyGen := r.keyGen, key := List.replicate 16 3, usage := 0xFFFF, expiry := 0 }] } }
/-- A poll for tests, sealed with frame counter 1. -/
def tPoll : Bytes := [11, 236, 9, 255, 255, 255, 255, 255, 255, 255, 255, 255, 255, 8, 0, 0, 0, 0, 0, 0, 0, 13, 1, 0, 0, 0, 0, 88, 150, 211, 224, 99, 217, 165, 250, 185]
/-- The frame of the switch core for tests. -/
def tSw : SwFrame := { cls := 2, len := 3, cells := 1, shared := false, body := .other [1, 2, 3] }
/-- A state for tests: one frame waits from P3 for P6. -/
def tVoq : State := tAct.onSw 0 fun w => (w.push 3 6 tSw false)
def tVoq0 : State := tSatC.onSw 0 fun w => (w.push 3 0 tSw false)
/-- A radio that has heard a poll with a later counter. -/
def tHeard : State := (tRf { tKeyed with keyMap := 7 }).onRf 0 fun r => { r with neigh := [(5, { chan := 0, rssi := 0, pollAt := none, phw := 5, pend := [] })] }
/-- The state of a radio about to send. -/
def tSend : State := (tRf tKeyed).onRf 0 fun r => { r with sendq := [(5, tPend)], neigh := [(5, { chan := (tAct.rd Reg.rf_rx_base_channel 0), rssi := 0, pollAt := none, phw := 0, pend := [] })] }
def tChan : Nat := tAct.rd Reg.rf_rx_base_channel 0
def tAcked : State := (tRf tRec).onRf 0 fun r => { r with wait := some (9, 0, 5, tPend), sendq := [(5, tPend)] }
def tAckPsdu : Bytes := rfControl 2 false false false ++ [9] ++ rfFcs (rfControl 2 false false false ++ [9])
/-- A pair is its first part with its second. -/
theorem tPair {α β : Type} {a : α × β} {b : β} (h : a.2 = b) : a = (a.1, b) := Prod.ext rfl h
/-- An unprotected link frame for tests. -/
def tPlain (type : Nat) (payload : Bytes) : Bytes := List.replicate 6 0 ++ [2, 0, 0, 0, 0, 9] ++ [0x88, 0xB5] ++ linkHead type 0 0 payload.length ++ payload
/-- A v3 certificate for tests with the public key given; its subject has the unit LEGAL. -/
def tCertOf (pub : Bytes) : Bytes :=
  ([48, 129, 251, 48, 129, 163, 160, 3, 2, 1, 2, 2, 1, 1, 48, 10, 6, 8, 42, 134, 72, 206, 61, 4, 3, 2, 48, 0, 48, 30, 23, 13, 55, 48, 48, 49, 48, 49, 48, 48, 48, 48, 48, 48, 90, 23, 13, 52, 57, 49, 50, 51, 49, 50, 51, 53, 57, 53, 57, 90, 48, 16, 49, 14, 48, 12, 6, 3, 85, 4, 11, 12, 5, 76, 69, 71, 65, 76, 48, 89, 48, 19, 6, 7, 42, 134, 72, 206, 61, 2, 1, 6, 8, 42, 134, 72, 206, 61, 3, 1, 7, 3, 66, 0] : Bytes) ++ pub ++
  ([48, 10, 6, 8, 42, 134, 72, 206, 61, 4, 3, 2, 3, 71, 0, 48, 68, 2, 32, 124, 242, 123, 24, 141, 3, 79, 126, 138, 82, 56, 3, 4, 181, 26, 195, 192, 137, 105, 226, 119, 242, 27, 53, 166, 11, 72, 252, 71, 102, 153, 120, 2, 32, 16, 63, 3, 56, 64, 26, 51, 196, 180, 230, 72, 91, 178, 104, 210, 73, 252, 117, 211, 230, 123, 80, 174, 82, 136, 104, 231, 10, 229, 184, 38, 157] : Bytes)
/-- Signatures of the private key 1: over its public key and the certificate below; and over sixteen zeros before them. -/
def tSig1 : Bytes := [81, 89, 11, 122, 81, 81, 64, 210, 215, 132, 200, 86, 8, 102, 143, 223, 239, 140, 130, 253, 31, 91, 229, 36, 33, 85, 74, 13, 195, 208, 51, 237, 117, 31, 173, 223, 161, 170, 220, 232, 39, 49, 248, 254, 196, 62, 207, 241, 134, 75, 230, 222, 158, 232, 84, 87, 255, 35, 221, 178, 123, 89, 66, 164]
def tSig2 : Bytes := [94, 203, 228, 209, 166, 51, 10, 68, 200, 247, 239, 149, 29, 75, 241, 101, 230, 198, 183, 33, 239, 173, 169, 133, 251, 65, 102, 27, 198, 231, 253, 108, 28, 71, 129, 170, 70, 172, 157, 223, 246, 2, 198, 101, 245, 142, 61, 248, 57, 227, 13, 204, 107, 124, 169, 118, 141, 220, 87, 119, 137, 1, 223, 75]
/-- The certificate of the private key 1, signed with that key. -/
def tCert : Bytes := tCertOf tPub
/-- The certificate of the tests as it stands in its entry of 1 024 bytes. -/
def tFull : Bytes := tCert ++ List.replicate 770 0
/-- A whole entry with the default zero, of which nothing was written, after a write from its start. -/
theorem tNew (s : State) (e : Entry) (n i : Nat) (b c : Bytes) (hc : s.cells e n i = []) (hl : b.length ≤ e.size) (h : b ++ List.replicate (e.size - b.length) 0 = c)
    (hd : e.dflt = .zeros) : (s.wrB e n 0 b i).rdAll e n i = c := by
  rw [State.rdAll_wrB_new _ _ _ _ _ hc hl, ← h, hd]
  congr 1
  apply List.ext_getElem <;> simp [Dflt.byteAt]
theorem tFull_of : tCert ++ List.replicate (1024 - tCert.length) 0 = tFull := by decide +kernel
theorem tFull_pub : certPub tFull = some tPub := by decide +kernel
/-- A state for tests: D0 of tile 0 is UP, its link key is in slot 1, the DRBG is ready, the certificate stands in the table of satellites. -/
def tHand : State := ((tSat.onVault 0 fun v => { v with slots := [(1, { key := natBE 32 1, bad := false })] }).wr Reg.vault_drbg_state 0 1).wrB Reg.meters_sat_table 0 0 (Crypto.sha256 tCert)
/-- The handshake of that satellite. -/
def tShake : Sess := { tSess with st := 1 }
def tWait : State := tHand.onSw 0 fun w => { w with sess := [(0, tShake)] }
def tHelloFrame : Bytes := tPlain 1 (List.replicate 20 7)
def tRspFrame : Bytes := tPlain 3 (tPub ++ natLE 2 254 ++ tCert ++ tSig1)
def tVerify : State := tHand.onSw 0 fun w => { w with sess := [(0, { tSess with st := 3 })] }
/-- A RESUME of that session, sealed under its key. -/
def tResume : Bytes := [0, 0, 0, 0, 0, 0, 2, 0, 0, 0, 0, 9, 136, 181, 1, 6, 0, 0, 1, 0, 0, 0, 1, 0, 0, 0, 0, 0, 0, 0, 52, 0, 0, 0, 226, 51, 196, 161, 247, 6, 211, 84, 118, 212, 29, 188, 80, 109, 29, 245, 19, 165, 64, 125, 101, 99, 81, 118, 186, 25, 141, 132, 190, 123, 110, 52, 47, 56, 167, 32, 206, 164, 207, 137, 161, 46, 33, 77, 220, 199, 231, 146, 163, 216, 211, 184, 91, 225, 59, 156, 246, 208, 248, 149, 193, 243, 148, 48, 250, 79, 119, 35]
def tHello0 : State := tHand.onSw 0 fun w => { w with sess := [] }
def tHelloA : State := (tHello0.linkRx 0 0 tHelloFrame).1
def tHelloRsp : Bytes := natLE 4 ((tHelloA.nonce 0).1.rd Reg.sw_link_epoch 0) ++ (tHelloA.nonce 0).2.getD [] ++ natLE 2 (((tHelloA.nonce 0).1.rdAll Reg.vault_cert_link 0).take ((certLength ((tHelloA.nonce 0).1.rdAll Reg.vault_cert_link 0)).getD 0)).length ++ ((tHelloA.nonce 0).1.rdAll Reg.vault_cert_link 0).take ((certLength ((tHelloA.nonce 0).1.rdAll Reg.vault_cert_link 0)).getD 0)
def tStale : State := tHand.onSw 0 fun w => { w with sess := [(0, { tSess with st := 3, nonce := List.replicate 16 6 })] }
def noFrame : LinkIn := { type := 0, mac := [], sess := none, payload := [] }
/-- A host session for tests. -/
def tHost : HSess := { id := 7, slot := some 0, chan := 0, peer := [1], rights := 4, subs := [], rx := 0, seen := 0, tx := 0, keyRx := List.replicate 32 1, keyTx := List.replicate 32 2, print := [], opened := 0, eph := 0, hello := [], rsp := [], since := 0, lastReq := 0, lastNs := 0, cache := [], vals := [] }
/-- A state for tests: that session is established. -/
def tHub : State := tAct.onHub fun h => { h with sess := [(1, tHost)], next := 2, laneUp := [true, false] }
/-- A protected message of that session for tests. -/
def tMsg (type target : Nat) (p : Bytes) : HostMsg :=
  let m : HostMsg := { target := target, status := 0, session := 7, seq := 1, ref := 0, len := p.length, flags := 0, body := [] }
  let c := Crypto.gcmSeal (List.replicate 32 1) (msgIv 7 1 0) (msgHeader type m) p 16
  { m with body := c.1 ++ c.2 }
/-- A handshake of the host port for tests, and the AUTH that answers it. -/
def tHandshake : HSess := { tHost with slot := none, eph := 1, hello := List.replicate 16 0 ++ tPub }
def tAuthState : State := (tAct.onHub fun h => { h with sess := [(1, tHandshake)], next := 2, laneUp := [true, false] }).wrB Reg.device_sec_anchor 0 0 tCert
def tAuth : HostMsg := { target := 255, status := 0, session := 7, seq := 0, ref := 0, len := 320, flags := 0, body := natLE 2 254 ++ tCert ++ tSig2 }
/-- An event for tests. -/
def tEvent : Event := { sev := 0, wher := 0, code := 1, obj := 0, a := 0, b := 0, whenNs := 0, uptime := 0, eseq := 1, taken := 1 }
def tSub : HSub := { id := 3, stream := 2, target := 255, index := 0x1000, sub := 0, minMs := 10, last := [], at_ := 0 }
def tExec : HExec := { sess := 1, seq := 1, tag := [], type := 9, target := 0, act := 1, since := 0 }
def tMaster : Master := { lane := 0, port := [1], gm := [2], prio1 := 1, cls := 6, acc := 0, var := 0, prio2 := 1, steps := 0, src := 0x20, utc := 37, utcValid := true, leap := 0, seen := 0 }
def tLane : State := (tAct.onPier fun p => { p with activeLane := 0 }).onHub fun h => { h with laneUp := [true, true] }
/-- States for tests: an earlier request of the session is under way; a serial session and its requests; the clock has been selected. -/
def tHubExec : State := tHub.onHub fun h => { h with execs := [{ tExec with seq := 9, target := 255 }] }
def tSet1 : HSet := { tile := 0, sess := 1, seq := 1, tag := [], type := 2, target := 0, body := [], job := 9, mirror := 0, since := 0 }
def tSerial : State := { tHub.onHub fun h => { h with sess := [(1, { tHost with chan := 2 })] } with now := 200000000 }
def tClk : State := tHub.onPier fun p => { p with clock := .onRefclk }
/-- A state for tests: PPS and TOD are the reference. -/
def tPps : State := (tAct.onPier fun p => { p with time := { p.time with source := 1 } }).wr Reg.device_time_pps_polarity 0 0
/-- A state for tests: the PTP master of tile 0 runs, and D0 is UP. -/
def tGm (e : Nat) : State := ((timed tAct).wr Reg.time_ptp_master_enable 0 e).onSw 0 fun w => { w with port := [2, 0] }
/-- A state for tests: bay 0 drives TOUT of tile 0. -/
def tTout (m : Nat) (l : Bool) : State := (((timed tAct).setOwn 0 true).wr Reg.bay_time_tout_mode 0 m).onBay 0 fun y => { y with toutLevel := l }
/-- A state for tests: tile 0 holds identity 1 in slots 0 and 1 and both certificates, in the life cycle state `n`. -/
def tCerts (n : Nat) : State := (((tAct.onVault 0 fun v => { v with slots := [(0, { key := natBE 32 1, bad := false }), (1, { key := natBE 32 1, bad := false }), (2, { key := natBE 32 1, bad := false })], blobs := [(blobPlace 2 7, List.replicate 4 0 ++ natLE 4 (bayOwner 0))], bayKek := some (List.replicate 32 2) }).onTile 0 fun x => { x with page0 := { KeyPage.blank with life := n, good := true, count := 1 } }).wrB Reg.vault_cert_id 0 0 tCert).wrB Reg.vault_cert_link 0 0 tCert
/-- A state for tests: the DRBG of tile 0 is ready. -/
def tRandom : State := tAct.wr Reg.vault_drbg_state 0 1
/-- A debug token for tile 0, in a state in which its challenge is open and the tile does not serve. -/
def tToken : Bytes := [0, 0, 0, 0] ++ List.replicate 8 0 ++ List.replicate 16 3 ++ List.replicate 120 0
def tTok : State := ((tUp.onVault 0 fun v => { v with challenge := some (List.replicate 16 3, 1) }).wrB Reg.vault_debug_token 0 0 tToken)
/-- States for tests: an engineering sample, whose device root is known; and with its next host certificate in the entry. -/
def tEs : State := tUp.onPier fun p => { p with es := true }
def tNext : State := tEs.wrB Reg.device_sec_host_next_cert 0 0 (tCertOf (tEs.hostPub 1))
/-- An import block for tests: one entry, under the point of the private key 1. -/
def tImport : State := (tCerts 1).wrB Reg.vault_import_stage 0 0 ([1, 1, 0, 0] ++ tPub)
/-- A state for tests: tile 1 is the standby of bay 0, in RUN, fully booted, and the bay is synchronised. -/
def tBay : State := (((((tAct.setRole 1 1).onPower 1 fun p => { p with st := .run }).onVol 1 fun v => { v with boot := { v.boot with step := 6, running := some 0 } }).wr Reg.status_missing 1 0).wr Reg.status_service 1 3).wr Reg.bay_mirror_sync 0 0
/-- A state for tests: the tiles 0 and 1 are ready for a role. -/
def tReady : State := { (tBay.setRole 0 255).setRole 1 255 with now := 10000 }
/-- A state for tests: bay 0 is independent, its tiles serve. -/
def tInd : State := ((tBay.setRole 0 5).setRole 1 5).onBay 0 fun x => { x with modeNow := 1 }
/-- A promotion for tests, in step 1. -/
def tPromo : Promo := { step := 1, at_ := 0, t0 := 0, cause := 0, src := 0, dst := 1, wasRun := true, wasHold := false, high := 0, next := 0 }
/-- An audit group for tests of the reading `tRead`, before its digest is known, and the state in which both tiles of the bay have its archive key. -/
def tGroup0 : AuditGroup := { seq := 1, count := 1, keyGen := 0, near := false, splitS := 0, digest := [], inp := some tRead, ctx := List.replicate 64 0, at_ := 0 }
def tKeys : State := [0, 1].foldl (fun s (t : TileId) => s.onVault t fun v => { v with bayKek := some (List.replicate 32 2), blobs := [(archPlace 0, blobForm (List.replicate 32 2) 1 2 0 (bayOwner 0) 0 (List.replicate 16 1))] }) tBay
def tGroupRecs : List ArchRec := [{ seq := 1, who := 5, body := .meter 0 900 900 1 [1, 0, 0, 0, 0, 0], tag := [16, 139, 204, 50, 163, 211, 72, 231, 47, 131, 60, 209] }]
def tGroup : AuditGroup := { tGroup0 with count := tGroupRecs.length, digest := [191, 61, 179, 241, 86, 130, 51, 26, 218, 34, 116, 93, 76, 250, 197, 241, 183, 219, 13, 145, 50, 17, 156, 15, 84, 79, 190, 160, 253, 199, 134, 144] }
def tAudit : State := (tKeys.onBay 0 fun x => { x with groups := [tGroup] }).onLehr 1 fun l => { l with page := tGroupRecs }
def tTie : Tie := { grp := tGroup, a0 := tGroup.digest, s0 := [], a1 := none, s1 := none, start := 0, inj := none }
/-- A state for tests: one item waits in the mirror link of bay 0. -/
def tItem : State := tBay.onBay 0 fun x => { x with link := [.markEnd], placed := 1 }
/-- A state for tests: a block 7 of the NAND of tile 0 is mapped, and the FTL runs. -/
def tBlk : Blk := { st := .mapped, erases := 1, region := 0, lb := 3, ver := 1, pages := 0, held := 0 }
def tMedia : State := (tAct.wr Reg.media_state 0 3).onMedia 0 fun m => { m with formatted := true, blocks := [(7, tBlk)] }
/-- States for tests: that block holds map pages; the next regulator command of a wake waits for its answer; and the bay keeps its standby in RETAIN. -/
def tMapped : State := tMedia.onMedia 0 fun m => { m with blocks := [(7, { tBlk with region := 2 })] }
def tRail : State := (tBay.onPower 1 fun p => { p with st := .waking, step := 1, setMv := p.vrunMv, cmdAt := 0 }).onPier fun p => { p with present := 0xFFFF }
def tAsleep : State := (tBay.wr Reg.bay_wiring 0 1).onPower 1 fun p => { p with st := .retain }
/-- A state for tests: queue `c` of tile 0 holds the items given. -/
def tQueue (c : Fin 7) (drain fill : List QItem) : State := tAct.setQueue 0 c { tAct.queue 0 c with drain := drain, fill := fill }
/-- A state for tests: bay 0 is unlocked for 100 s. -/
def tUnl (s : State) : State := s.onBay 0 fun x => { x with unlockTo := 100000000000 }
/-- An arm record for tests. -/
def tArm (dur p1 p2 p3 : Nat) : Bytes := natLE 4 dur ++ natLE 4 p1 ++ natLE 4 p2 ++ natLE 2 p3 ++ [0, 0]
/-- An entry of the legal log for tests. -/
def tEnt : LegalEnt := { code := 1, lseq := 3, whenNs := 0, sealCnt := 0, data := List.replicate 28 0, tag := List.replicate 16 9 }
/-- An armed control of a tile and of a bay for tests. -/
def tArmed : State := (tUnl tAct).onVol 0 fun v => { v with diag := { v.diag with arms := v.diag.arms.set 0 (some { p1 := 1, p2 := 1, p3 := 1, until_ := 0, count := 1 }) } }
def tBArmed : State := (tUnl tAct).onBay 0 fun x => { x with arms := x.arms.set 0 (some { p1 := 1, p2 := 0, until_ := 0, count := 0 }) }
theorem witness_stepRunsFront_1 : ∃ (s : State) (c : Instr) (rest : List Instr), s.pending = c :: rest :=
  ⟨{ tAct with pending := [.brownOut] }, .brownOut, [], by decide +kernel⟩
theorem witness_stepRunsFront_2 : ∃ (s : State), s.pending = [] :=
  ⟨tAct, by decide +kernel⟩
theorem witness_powerOn : ∃ (s : State), s.pier.up = false :=
  ⟨State.reset, by decide +kernel⟩
theorem witness_sysRstN : ∃ (s : State), s.pier.up = true :=
  ⟨tUp, by decide +kernel⟩
theorem witness_qualificationWindow_1 : ∃ (s : State) (edges : Nat), s.pier.up = true ∧ s.pier.clock = .select ∧ 24000 ≤ edges ∧ edges ≤ 27200 :=
  ⟨tUp, 24000, by decide +kernel⟩
theorem witness_qualificationWindow_2 : ∃ (s : State) (edges : Nat), s.pier.up = true ∧ s.pier.clock = .select ∧ (edges < 24000 ∨ 27200 < edges) :=
  ⟨tUp, 23999, by decide +kernel⟩
theorem witness_qualificationWindow_3 : ∃ (s : State) (edges : Nat), s.pier.up = true ∧ s.pier.clock = .onRc ∧ s.pier.passCount = 99 ∧ 24000 ≤ edges ∧ edges ≤ 27200 ∧ s.rd Reg.pier_clock_switches 0 + 1 < Reg.pier_clock_switches.span :=
  ⟨tUp.onPier fun p => { p with clock := .onRc, passCount := 99 }, 27200, by decide +kernel⟩
theorem witness_qualificationWindow_4 : ∃ (s : State) (edges : Nat), s.pier.up = true ∧ s.pier.clock = .onRc ∧ (edges < 24000 ∨ 27200 < edges) :=
  ⟨tUp.onPier fun p => { p with clock := .onRc, passCount := 50 }, 27201, by decide +kernel⟩
theorem witness_refclkLoss_1 : ∃ (s : State), s.pier.clock = .onRefclk ∧ s.rd Reg.pier_clock_switches 0 + 1 < Reg.pier_clock_switches.span :=
  ⟨tUp.onPier fun p => { p with clock := .onRefclk }, by decide +kernel⟩
theorem witness_qualificationWindow_5 : ∃ (s : State) (edges : Nat), s.pier.up = true ∧ s.pier.clock = .onRc ∧ s.pier.passCount + 1 < 100 ∧ 24000 ≤ edges ∧ edges ≤ 27200 :=
  ⟨tUp.onPier fun p => { p with clock := .onRc, passCount := 50 }, 24000, by decide +kernel⟩
theorem witness_qualificationWindow_6 : ∃ (s : State), s.pier.up = true ∧ s.pier.clock = .select ∧ s.pier.enumDue = true ∧ s.pier.board < 65536 :=
  ⟨tUp.onPier fun p => { p with enumDue := true, board := 3 }, by decide +kernel⟩
theorem witness_refclkLoss_2 : ∃ (s : State), s.pier.clock ≠ .onRefclk :=
  ⟨{ tAct with now := 5 }, by decide +kernel⟩
theorem witness_lockstepMiscompare_1 : ∃ (s : State), s.pier.up = true ∧ s.pier.misc = [] ∧ s.rd Reg.pier_lockstep_miscompares 0 + 1 < Reg.pier_lockstep_miscompares.span :=
  ⟨tUp, by decide +kernel⟩
theorem witness_lockstepMiscompare_2 : ∃ (s : State) (a : Nat) (b : Nat), s.pier.up = true ∧ s.pier.degraded = false ∧ s.pier.misc = [a, b] ∧ s.now < a + 1000000000 ∧ s.now < b + 1000000000 :=
  ⟨tUp.onPier fun p => { p with misc := [0, 0] }, 0, 0, by decide +kernel⟩
theorem witness_lockstepMiscompare_3 : ∃ (s : State), s.pier.up = true ∧ (s.pier.degraded = true ∨ (s.pier.misc.filter fun x => decide (s.now < x + 1000000000)).length < 2) ∧ s.rd Reg.pier_lockstep_miscompares 0 + 1 < Reg.pier_lockstep_miscompares.span :=
  ⟨tUp.onPier fun p => { p with misc := [0] }, by decide +kernel⟩
theorem witness_lockstepMiscompare_4 : ∃ (s : State), s.pier.up = true ∧ s.pier.degraded = false ∧ 2 ≤ (s.pier.misc.filter fun x => decide (s.now < x + 1000000000)).length :=
  ⟨tUp.onPier fun p => { p with misc := [0, 0] }, by decide +kernel⟩
theorem witness_tilePowerUp : ∃ (s : State) (t : TileId) (r : List Nat), s.pier.bootQueue = t.val :: r ∧ s.pier.bootAt ≤ s.now ∧ s.pier.degraded = false ∧ s.pier.pfail = false ∧ (s.tile t).power.st = .off :=
  ⟨(tUp.onPier fun p => { p with bootQueue := [3] }), 3, [], by decide +kernel⟩
theorem witness_tileBoot_1 : ∃ (s : State) (t : TileId), s.inRun t = true ∧ s.pier.up = true ∧ (s.vol t).boot.step = 0 ∧ s.pier.clock = .onRefclk :=
  ⟨((tUp.onPier fun p => { p with clock := .onRefclk }).onPower 0 fun p => { p with st := .run }), 0, by decide +kernel⟩
theorem witness_tileBoot_2 : ∃ (s : State) (t : TileId), s.inRun t = true ∧ s.pier.up = true ∧ (s.vol t).boot.step = 3 :=
  ⟨((tUp.onPower 0 fun p => { p with st := .run }).onVol 0 fun v => { v with boot := { v.boot with step := 3 } }), 0, by decide +kernel⟩
theorem witness_watchdog : ∃ (s : State) (t : TileId) (d : Nat), (s.vol t).boot.dogEnd = some d ∧ d ≤ s.now ∧ s.inRun t = true :=
  ⟨{ tAct.onVol 0 fun v => { v with boot := { v.boot with dogEnd := some 5 } } with now := 5 }, 0, 5, by decide +kernel⟩
theorem witness_trialTimeout : ∃ (s : State) (t : TileId) (d : Nat), (s.vol t).boot.trialEnd = some d ∧ d ≤ s.now ∧ s.inRun t = true :=
  ⟨tAct.onVol 0 fun v => { v with boot := { v.boot with trialEnd := some 0 } }, 0, 0, by decide +kernel⟩
theorem witness_tileBoot_3 : ∃ (s : State) (t : TileId), s.inRun t = true ∧ s.pier.up = true ∧ (s.vol t).boot.step = 1 ∧ s.rd Reg.device_fw_tile_phase 0 t ≠ 2 :=
  ⟨((tUp.onPower 0 fun p => { p with st := .run }).onVol 0 fun v => { v with boot := { v.boot with step := 1 } }), 0, by decide +kernel⟩
theorem witness_tileBoot_4 : ∃ (s : State) (t : TileId), s.inRun t = true ∧ s.pier.up = true ∧ (s.vol t).boot.step = 2 :=
  ⟨((tUp.onPower 0 fun p => { p with st := .run }).onVol 0 fun v => { v with boot := { v.boot with step := 2 } }), 0, by decide +kernel⟩
theorem witness_tileBoot_5 : ∃ (s : State) (t : TileId), s.inRun t = true ∧ s.pier.up = true ∧ (s.vol t).boot.step = 4 :=
  ⟨((tUp.onPower 0 fun p => { p with st := .run }).onVol 0 fun v => { v with boot := { v.boot with step := 4 } }), 0, by decide +kernel⟩
theorem witness_tileBoot_6 : ∃ (s : State) (t : TileId), s.inRun t = true ∧ s.pier.up = true ∧ (s.vol t).boot.step = 5 ∧ s.drbgReady t = true :=
  ⟨(((tUp.onPower 0 fun p => { p with st := .run }).onVol 0 fun v => { v with boot := { v.boot with step := 5 } }).wr Reg.vault_drbg_state 0 1), 0, by decide +kernel⟩
theorem witness_stageBegin : ∃ (s : State) (t : TileId) (bank : Fin 2) (len : Nat), s.takesStaging t = true ∧ (s.vol t).boot.running ≠ some bank.val ∧ 0 < len ∧ len ≤ 4194304 ∧ (s.vol t).boot.stageUntil ≤ s.now :=
  ⟨tAct, 0, 1, 4194304, by decide +kernel⟩
theorem witness_bankWrite : ∃ (s : State) (t : TileId) (bank : Fin 2) (off : Nat) (data : Bytes), s.takesStaging t = true ∧ (s.vol t).boot.running ≠ some bank.val ∧ (s.tile t).code.record.st bank = 1 ∧ data.length ≤ 1024 ∧ off + data.length ≤ (s.tile t).code.len bank ∧ (∀ k, s.lockOf ((if bank = 0 then Reg.fw_bank_a else Reg.fw_bank_b).key t 0) = some k → k = 0) :=
  ⟨tAct.onTile 0 fun x => { x with code := { x.code with rec0 := { BootRec.init with stB := 1 }, lenB := 8 } }, 0, 1, 5, [1, 2, 3], by decide +kernel⟩
theorem witness_stageCommit_1 : ∃ (s : State) (t : TileId) (digest : Bytes), s.takesStaging t = true ∧ (s.vol t).boot.running = none ∧ (s.tile t).code.record.st 0 = 1 ∧ digest.length = 48 ∧ Crypto.sha384 (cellBytes ((s.tile t).code.bank 0) 0 ((s.tile t).code.len 0)) = digest :=
  ⟨((tAct.onVol 0 fun v => { v with boot := { v.boot with running := none } }).onTile 0 fun x =>
      { x with code := { x.code with rec0 := { BootRec.init with stA := 1 } } }), 0, Crypto.sha384 [], by decide +kernel⟩
theorem witness_tileFwReset_1 : ∃ (s : State) (t : TileId), s.takesStaging t = true ∧ s.legalRuns t = false :=
  ⟨tAct, 0, by decide +kernel⟩
theorem witness_legalInstall (img : Cells) (h : tAct.legalImage img = true) : ∃ (s : State) (t : TileId), s.takesStaging t = true ∧ (s.bay (bayOf t)).legalEn = true ∧ s.legalRuns t = false ∧ s.legalImage (s.tile t).code.legalStage = true ∧ (s.tile t).code.record.legalFloor ≤ imgF (s.tile t).code.legalStage 0x0C 4 ∧ s.rd Reg.metro_seal_count t < 65535 ∧ s.legalFull t = false :=
  ⟨(tAct.onBay 0 fun y => { y with legalEn := true }).onTile 0 fun x => { x with code := { x.code with legalStage := img } }, 0, ⟨rfl, rfl, rfl, h, Nat.zero_le _, (by decide : 0 < 65535), rfl⟩⟩
theorem witness_trialConfirm : ∃ (s : State) (t : TileId) (b : Nat), (s.vol t).boot.running = some b ∧ (s.tile t).code.record.st b = 3 ∧ s.rd Reg.status_missing t % 16 = 0 :=
  ⟨(tAct.onTile 0 fun x => { x with code := { x.code with rec0 := { BootRec.init with stA := 3 } } }).wr Reg.status_missing 0 16, 0, 0, by decide +kernel⟩
theorem witness_fwConfirm_1 : ∃ (s : State) (t : TileId) (b : Nat), (s.vol t).boot.running = some b ∧ (s.tile t).code.record.st b = 3 ∧ s.takesStaging t = true :=
  ⟨tAct.onTile 0 fun x => { x with code := { x.code with rec0 := { BootRec.init with stA := 3 } } }, 0, 0, by decide +kernel⟩
theorem witness_stageCommit_2 : ∃ (s : State) (t : TileId) (digest : Bytes) (b : Nat), s.takesStaging t = true ∧ (∀ k, (s.vol t).boot.running = some k → (s.tile t).code.record.st k ≠ 3) ∧ ([0, 1].find? fun k => decide ((s.tile t).code.record.st k = 1) && decide ((s.vol t).boot.running ≠ some k)) = some b ∧ digest.length = 48 ∧ Crypto.sha384 (cellBytes ((s.tile t).code.bank b) 0 ((s.tile t).code.len b)) = digest :=
  ⟨tAct.onTile 0 fun x => { x with code := { x.code with rec0 := { BootRec.init with stB := 1 } } }, 0, Crypto.sha384 [], 1, by decide +kernel⟩
theorem witness_tileFwReset_2 : ∃ (s : State) (t : TileId) (force : Nat), s.takesStaging t = true ∧ (s.role t = 0 → force = 1) ∧ s.legalRuns t = false :=
  ⟨tAct, 0, 1, by decide +kernel⟩
theorem witness_fwConfirm_2 : ∃ (s : State) (t : TileId) (b : Nat), (s.vol t).boot.running = some b ∧ s.takesStaging t = true :=
  ⟨tAct, 0, 0, by decide +kernel⟩
theorem witness_bayModeWrite_1 : ∃ (s : State) (b : BayId) (v : Nat), v ≤ 1 ∧ (v = 0 ∨ s.rd Reg.bay_wiring b ≠ 0) :=
  ⟨tUp.wr Reg.bay_wiring 7 1, 7, 1, by decide +kernel⟩
theorem witness_bayModeWrite_2 : ∃ (s : State) (b : BayId) (v : Nat), v ≤ 1 ∧ (v = 1 ∨ s.rd Reg.bay_mode b ≠ 1) :=
  ⟨tUp.wr Reg.bay_wiring 7 1, 7, 0, by decide +kernel⟩
theorem witness_bayModeWrite_3 : ∃ (s : State) (b : BayId), s.rd Reg.bay_wiring b = 0 :=
  ⟨tUp, 7, by decide +kernel⟩
theorem witness_bayModeWrite_4 : ∃ (s : State) (b : BayId), s.rd Reg.bay_mode b = 1 :=
  ⟨tAct.wr Reg.bay_wiring 0 1 |>.wr Reg.bay_mode 0 1, 0, by decide +kernel⟩
theorem witness_metersEnrol_1 : ∃ (s : State) (t : TileId) (midx : Nat) (mode : Nat), fld (s.staging t) 0x100 4 = midx ∧ fld (s.staging t) 0x104 1 = mode ∧ s.actionRuns t = false ∧ s.serves t = true ∧ mode ≤ 1 ∧ leNat ((s.staging t).drop 0x105) = 0 ∧ s.ownMidx t midx = true ∧ (s.meter t (midxSlot midx)).state = 0 ∧ imageCheck s t (MeterRec.parse (s.staging t)) mode (2 ^ 22) = none ∧ (s.tile t).media.journalFull = false ∧ (s.hashEnter t midx (enrolRecord s t (MeterRec.parse (s.staging t)) (s.meter t (midxSlot midx)) mode).ids).2 = true :=
  ⟨(tAct.stage5 (natLE 8 7 ++ natLE 8 (2 ^ 64 - 1))).class0, 0, 5, 0, by decide +kernel⟩
theorem witness_metersEdit_1 : ∃ (s : State) (t : TileId) (midx : Nat), fld (s.staging t) 0x100 4 = midx ∧ s.actionRuns t = false ∧ slotAction s t (s.staging t) true [1] = none ∧ imageCheck s t (MeterRec.parse (s.staging t)) 0 midx = none ∧ ((s.hashRemove t midx).hashEnter t midx (editRecord s t (MeterRec.parse (s.staging t)) (s.meter t (midxSlot midx))).ids).2 = true :=
  ⟨((tMeter tRec).stage5 (natLE 8 9 ++ natLE 8 8)).class0, 0, 5, by decide +kernel⟩
theorem witness_metersEnrol_2 : ∃ (s : State) (t : TileId), s.actionRuns t = true :=
  ⟨tBusyAct, 0, by decide +kernel⟩
theorem witness_metersEdit_2 : ∃ (s : State) (t : TileId), s.actionRuns t = true :=
  ⟨tBusyAct, 0, by decide +kernel⟩
theorem witness_metersMoveOut_1 : ∃ (s : State) (t : TileId) (midx : Nat), fld (s.staging t) 0x100 4 = midx ∧ s.actionRuns t = false ∧ s.serves t = true ∧ s.ownMidx t midx = true ∧ (s.meter t (midxSlot midx)).state = 1 ∧ (s.tile t).media.journalFull = false ∧ (s.meter t (midxSlot midx)).creditHeld = 0 ∧ (s.meter t (midxSlot midx)).relayCmd = (s.meter t (midxSlot midx)).relayRpt :=
  ⟨(tMeter tRec).stage5 [], 0, 5, by decide +kernel⟩
theorem witness_metersRetire_1 : ∃ (s : State) (t : TileId) (midx : Nat), fld (s.staging t) 0x100 4 = midx ∧ s.actionRuns t = false ∧ s.serves t = true ∧ s.ownMidx t midx = true ∧ ((s.meter t (midxSlot midx)).state = 1 ∨ (s.meter t (midxSlot midx)).state = 2) ∧ (s.tile t).media.journalFull = false :=
  ⟨(tMeter tRec).stage5 [], 0, 5, by decide +kernel⟩
theorem witness_metersRelease_1 : ∃ (s : State) (t : TileId) (midx : Nat), fld (s.staging t) 0x100 4 = midx ∧ s.actionRuns t = false ∧ s.serves t = true ∧ s.ownMidx t midx = true ∧ ((s.meter t (midxSlot midx)).state = 2 ∨ (s.meter t (midxSlot midx)).state = 3) ∧ (s.tile t).media.journalFull = false :=
  ⟨(tMeter { tRec with state := 3 }).stage5 [], 0, 5, by decide +kernel⟩
theorem witness_metersMoveOut_2 : ∃ (s : State) (t : TileId), s.actionRuns t = true :=
  ⟨tBusyAct, 0, by decide +kernel⟩
theorem witness_metersRetire_2 : ∃ (s : State) (t : TileId), s.actionRuns t = true :=
  ⟨tBusyAct, 0, by decide +kernel⟩
theorem witness_metersRelease_2 : ∃ (s : State) (t : TileId), s.actionRuns t = true :=
  ⟨tBusyAct, 0, by decide +kernel⟩
theorem witness_classTableWrite : ∃ (s : State) (t : TileId) (off : Nat) (data : Bytes), s.refusesConfig t = false ∧ off + data.length ≤ 8192 ∧ (∀ c < 64, templateOk ((s.wrB Reg.meters_class_table t off data).rdB Reg.meters_class_table t (128 * c) 128) = true) ∧ (∀ c < 64, s.classUsed t c = true → templateFixed (s.rdB Reg.meters_class_table t (128 * c) 128) = templateFixed ((s.wrB Reg.meters_class_table t off data).rdB Reg.meters_class_table t (128 * c) 128)) :=
  ⟨tAct, 0, 8064, [0, 1, 0, 0, 0x84, 3], by decide +kernel⟩
theorem witness_checkpoint_1 : ∃ (s : State) (t : TileId), (s.vol t).meters.ckptRun = none ∧ s.mayCheckpoint t = true ∧ (s.vol t).meters.ckptNext ≤ s.now :=
  ⟨tAct.wr Reg.media_state 0 3, 0, by decide +kernel⟩
theorem witness_journalPageProgram : ∃ (s : State) (t : TileId) (i : Nat), (s.vol t).meters.jFirst = some i ∧ (256 ≤ (s.vol t).meters.jPage.length ∨ i + 10000000 ≤ s.now) :=
  ⟨{ tAct.journal 0 { op := .edit, slot := 5, gen := 5, upd := 1, snap := tRec, amount := 0, ceil := 0 } with now := 10000000 }, 0, 0, by decide +kernel⟩
theorem witness_recordRestore_1 : ∃ (s : State) (t : TileId) (slot : Nat), (s.vol t).meters.restoring.contains slot = false ∧ s.rd Reg.meters_record_errors t + 1 < Reg.meters_record_errors.span :=
  ⟨tMeter tRec, 0, 5, by decide +kernel⟩
theorem witness_meterActionAck_1 : ∃ (s : State) (t : TileId) (p : PendAct) (r : List PendAct), (s.vol t).meters.pend = p :: r ∧ p.jpos ≤ (s.vol t).meters.jDone ∧ s.mirrored t p.mirror = true ∧ p.drain = false ∧ p.topup = false ∧ p.keys = false ∧ (s.vol t).meters.waits = [] :=
  ⟨tAct.onVol 0 fun v => { v with meters := { v.meters with pend := [{ slot := 5, jpos := 0, mirror := 0, drain := false }] } }, 0, { slot := 5, jpos := 0, mirror := 0, drain := false }, [], by decide +kernel⟩
theorem witness_checkpoint_2 : ∃ (s : State) (t : TileId), (s.vol t).meters.ckptRun = none ∧ s.mayCheckpoint t = true ∧ ((s.vol t).meters.ckptNext ≤ s.now ∨ (s.tile t).media.journalFull = true) ∧ (∀ i ∈ Tbl.keys (s.vol t).meters.recs, (s.meter t i).billSeq = (s.meter t i).lastSeq) :=
  ⟨(tMeter tRec).wr Reg.media_state 0 3, 0, by decide +kernel⟩
theorem witness_checkpoint_3 : ∃ (s : State) (t : TileId) (c : Machine.Checkpoint) (wait : List Nat), (s.vol t).meters.ckptRun = some (c, wait) :=
  ⟨(tMeter tRec).onVol 0 fun v => { v with meters := { v.meters with ckptRun := some ({ start := 0, j0 := 0, s0 := 0, recs := [], ceils := [] }, [5]) } }, 0, { start := 0, j0 := 0, s0 := 0, recs := [], ceils := [] }, [5], by decide +kernel⟩
theorem witness_meterActionAck_2 : ∃ (s : State) (y : State) (t : TileId) (p : PendAct) (r : List PendAct), (s.vol t).meters.pend = p :: r ∧ p.jpos ≤ (s.vol t).meters.jDone ∧ s.mirrored t p.mirror = true ∧ (p.drain = true → s.idleMidx t (s.midxOf t p.slot) = true) ∧ p.topup = false ∧ y = (((if p.keys then (s.onMeters t fun m => { m with pend := r }).endKeys t p.slot else s.onMeters t fun m => { m with pend := r }).wr Reg.meters_last_result t 0).answerFor p.act t .ok) :=
  ⟨(tMeter tRec).onVol 0 fun v => { v with meters := { v.meters with pend := [{ slot := 5, jpos := 0, mirror := 0, drain := true, keys := true }], waits := [(.retire, [], {})] } }, (((((tMeter tRec).onVol 0 fun v => { v with meters := { v.meters with pend := [], waits := [(.retire, [], {})] } }).endKeys 0 5).wr Reg.meters_last_result 0 0).answerFor {} 0 .ok), 0, { slot := 5, jpos := 0, mirror := 0, drain := true, keys := true }, [], by decide +kernel⟩
theorem witness_meterActionAck_3 : ∃ (s : State) (t : TileId) (p : PendAct) (r : List PendAct), (s.vol t).meters.pend = p :: r ∧ p.jpos ≤ (s.vol t).meters.jDone ∧ s.mirrored t p.mirror = true ∧ (p.drain = true → s.idleMidx t (s.midxOf t p.slot) = true) ∧ p.topup = true ∧ s.serves t = true :=
  ⟨((tMeter tRec).onVol 0 fun v => { v with meters := { v.meters with pend := [{ slot := 5, jpos := 0, mirror := 0, drain := false, topup := true }] } }), 0, { slot := 5, jpos := 0, mirror := 0, drain := false, topup := true }, [], by decide +kernel⟩
theorem witness_recordRestore_2 : ∃ (s : State) (t : TileId) (slot : Nat), (s.vol t).meters.restoring.contains slot = true :=
  ⟨(tMeter tRec).onVol 0 fun v => { v with meters := { v.meters with restoring := [5] } }, 0, 5, by decide +kernel⟩
theorem witness_recordRestore_3 : ∃ (s : State) (t : TileId) (slot : Nat), (s.vol t).meters.restoring.contains slot = true :=
  ⟨(tMeter tRec).onVol 0 fun v => { v with meters := { v.meters with restoring := [5] } }, 0, 5, by decide +kernel⟩
theorem witness_envelope_1 : ∃ (s : State) (t : TileId) (p : Fin 2) (frame : Bytes) (r : LinkIn) (e : Sess) (seq : Nat) (l : List (Nat × Bytes)), (s.linkRx t p frame).2 = some r ∧ r.type = 0x10 ∧ r.sess.bind (Tbl.get ((s.linkRx t p frame).1.sw t).sess) = some e ∧ (s.linkRx t p frame).1.portTakes t 5 = true ∧ envParse r.payload = some (seq, false, l) :=
  ⟨tSatC, 0, 0, tEnvFrame, { type := 0x10, mac := [2, 0, 0, 0, 0, 9], sess := some 0, payload := [1, 1, 0, 0, 9, 0, 0, 0] ++ List.replicate 8 0 ++ natLE 8 7 ++ [1, 0, 0, 0, 1, 0, 0, 0] }, { tSess with rx := 1 }, 9, [(7, [1])], by decide +kernel⟩
theorem witness_gatherInject_1 : ∃ (s : State) (t : TileId) (seq : Nat) (l : List (Nat × Bytes)), s.serves t = true ∧ (s.vol t).gather.injecting = none ∧ s.intakeOpen t = true ∧ envParse (s.rdAll Reg.gather_inject_buffer t) = some (seq, false, l) ∧ s.rd Reg.sw_sample_n t = 0 ∧ s.portTakes t 5 = true :=
  ⟨tIn.wrB Reg.gather_inject_buffer 0 0 ([1, 1, 0, 0, 9, 0, 0, 0] ++ List.replicate 8 0 ++ natLE 8 7 ++ [1, 0, 0, 0, 1, 0, 0, 0]), 0, 9, [(7, [1])], by decide +kernel⟩
theorem witness_gatherInject_2 : ∃ (s : State) (t : TileId) (seq : Nat) (n : Nat) (force : Bool) (l : List (Nat × Bytes)), s.serves t = true ∧ (s.vol t).gather.injecting = none ∧ s.intakeOpen t = true ∧ envParse (s.rdAll Reg.gather_inject_buffer t) = some (seq, force, l) ∧ n = l.foldl (fun a e => a + (12 + e.2.length + 3) / 4 * 4) 16 :=
  ⟨tIn.wrB Reg.gather_inject_buffer 0 0 ([1, 1, 1, 0, 9, 0, 0, 0] ++ List.replicate 8 0 ++ natLE 8 7 ++ [1, 0, 0, 0, 1, 0, 0, 0]), 0, 9, 32, true, [(7, [1])], by decide +kernel⟩
theorem witness_envelope_2 : ∃ (s : State) (y : State) (t : TileId) (p : Fin 2) (frame : Bytes) (r : LinkIn) (e : Sess) (seq : Nat) (l : List (Nat × Bytes)), (s.linkRx t p frame).2 = some r ∧ r.type = 0x10 ∧ r.sess.bind (Tbl.get ((s.linkRx t p frame).1.sw t).sess) = some e ∧ (s.linkRx t p frame).1.portTakes t 5 = true ∧ envParse r.payload = some (seq, true, l) ∧ y = (s.linkRx t p frame).1.bump Reg.gather_force_old_ignored t :=
  ⟨tSatC, (tSatC.linkRx 0 0 tOldFrame).1.bump Reg.gather_force_old_ignored 0, 0, 0, tOldFrame, { type := 0x10, mac := [2, 0, 0, 0, 0, 9], sess := some 0, payload := [1, 1, 1, 0, 9, 0, 0, 0] ++ List.replicate 8 0 ++ natLE 8 7 ++ [1, 0, 0, 0, 1, 0, 0, 0] }, { tSess with rx := 1 }, 9, [(7, [1])], by decide +kernel⟩
theorem witness_frameIntake_1 : ∃ (s : State) (t : TileId) (k : Nat) (left : Nat) (midx : Nat) (f : Frame) (rest : List Frame), (s.vol t).gather.waiting.length < 256 ∧ (s.vol t).gather.pick (s.mayTake t) (fun j => s.rd Reg.gather_intake_weight t j) = some (k, left) ∧ (s.vol t).gather.voq.getD k [] = f :: rest ∧ identify s t f = .ok midx :=
  ⟨tIn.onGather 0 fun g => { g with voq := [[], [], [], [tFrame], []] }, 0, 3, 3, 5, tFrame, [], by decide +kernel⟩
theorem witness_frameIntake_2 : ∃ (s : State) (t : TileId) (k : Nat) (left : Nat) (i : Nat) (midx : Nat) (w : SwFrame) (f : Frame) (rest : List Frame), (s.vol t).gather.waiting.length < 256 ∧ (s.vol t).gather.voq.length = 5 ∧ k < 5 ∧ (s.sw t).credit.length = 8 ∧ (s.sw t).held.length = 8 ∧ (s.vol t).gather.pick (s.mayTake t) (fun j => s.rd Reg.gather_intake_weight t j) = some (k, left) ∧ (s.vol t).gather.voq.getD k [] = [] ∧ (s.sw t).intakeHead k = some (i, w) ∧ w.body.frames = f :: rest ∧ (s.vol t).diag.p5 = none ∧ s.egressWait t 5 2 = none ∧ identify s t f = .ok midx :=
  ⟨(tIn.onSw 0 fun w => { (w.setVoq (srcInput 3) 5 2 [{ cls := 2, len := 1, cells := 1, shared := false, body := .intake [tFrame] }]) with held := List.replicate 8 0 }).onGather 0 fun g => { g with voq := List.replicate 5 [] }, 0, 3, 3, 0, 5, { cls := 2, len := 1, cells := 1, shared := false, body := .intake [tFrame] }, tFrame, [], by decide +kernel⟩
theorem witness_midxWaitRelease_1 : ∃ (s : State) (t : TileId) (f : Flight), (s.vol t).gather.waiting = [f] :=
  ⟨tIn.onGather 0 fun g => { g with waiting := [{ frame := tFrame, midx := 5, gen := 5, slotBad := 0, report := 0 }] }, 0, { frame := tFrame, midx := 5, gen := 5, slotBad := 0, report := 0 }, by decide +kernel⟩
theorem witness_envelopeAck_1 : ∃ (s : State) (t : TileId) (src : Nat) (peer : Nat) (mark : Nat) (b : Bytes), (s.queue t 4).take.2 = some (.ack src peer mark b) ∧ s.mirrored t mark = true :=
  ⟨tAct.setQueue 0 4 { PPQ.empty with fill := [.ack 0 1 0 [1]] }, 0, 0, 1, 0, [1], by decide +kernel⟩
theorem witness_duplicateCheck_1 : ∃ (s : State) (t : TileId) (row : Row), (s.vol t).gather.rows = [row] ∧ s.midxBusy t row.rd.midx = false ∧ row.restate = none ∧ row.direct = false ∧ dupCheck (s.meter t (midxSlot row.rd.midx)).lastTend row.rd.tend row.rd.idur (s.meter t (midxSlot row.rd.midx)).dupMap row.forceOld = none :=
  ⟨tIn.onGather 0 fun g => { g with rows := [tRow] }, 0, tRow, by decide +kernel⟩
theorem witness_frameIntake_3 : ∃ (s : State) (w : State) (y : State) (z : State) (t : TileId) (k : Nat) (left : Nat) (midx : Nat) (f : Frame) (rest : List Frame), (s.vol t).gather.waiting.length < 256 ∧ (s.vol t).gather.pick (s.mayTake t) (fun j => s.rd Reg.gather_intake_weight t j) = some (k, left) ∧ w = s.intakeFetch t k ∧ (w.vol t).gather.voq.getD k [] = f :: rest ∧ y = ((w.onGather t fun g => { g with voq := g.voq.set k rest, rrPos := k, rrLeft := left }).bump Reg.gather_frames_in t k) ∧ z = y.wr Reg.gather_in_flight_peak t (max (y.rd Reg.gather_in_flight_peak t) ((w.vol t).gather.waiting.length + 1)) ∧ identify z t f = .ok midx ∧ ((z.vol t).gather.waiting.any fun w => decide (w.midx = midx)) = false :=
  ⟨tVoq3, tVoq3.intakeFetch 0 3, (((tVoq3.intakeFetch 0 3).onGather 0 fun g => { g with voq := g.voq.set 3 [], rrPos := 3, rrLeft := 3 }).bump Reg.gather_frames_in 0 3), (((tVoq3.intakeFetch 0 3).onGather 0 fun g => { g with voq := g.voq.set 3 [], rrPos := 3, rrLeft := 3 }).bump Reg.gather_frames_in 0 3).wr Reg.gather_in_flight_peak 0 1, 0, 3, 3, 5, tFrame, [], (by and_intros <;> first | with_reducible rfl | decide +kernel)⟩
theorem witness_midxWaitRelease_2 : ∃ (s : State) (t : TileId) (f : Flight), (s.vol t).gather.waiting.find? (fun x => decide (x.midx = f.midx)) = some f :=
  ⟨tIn.onGather 0 fun g => { g with waiting := [{ frame := tFrame, midx := 5, gen := 5, slotBad := 0, report := 0 }] }, 0, { frame := tFrame, midx := 5, gen := 5, slotBad := 0, report := 0 }, by decide +kernel⟩
theorem witness_envelopeAck_2 : ∃ (s : State) (t : TileId) (src : Nat) (peer : Nat) (mark : Nat) (b : Bytes), (s.queue t 4).take.2 = some (.ack src peer mark b) ∧ (mark = 0 ∨ s.mirrored t mark = true ∨ s.rd Reg.bay_mirror_sync (bayOf t) ≠ 0) :=
  ⟨(tAct.setQueue 0 4 { PPQ.empty with fill := [.ack 0 1 5 [1]] }).wr Reg.bay_mirror_sync 0 1, 0, 0, 1, 5, [1], by decide +kernel⟩
theorem witness_duplicateCheck_2 : ∃ (s : State) (t : TileId) (row : Row) (l : List Row), (s.vol t).gather.rows = row :: l ∧ s.midxBusy t row.rd.midx = false ∧ row.restate = none ∧ row.direct = false ∧ dupCheck (s.meter t (midxSlot row.rd.midx)).lastTend row.rd.tend row.rd.idur (s.meter t (midxSlot row.rd.midx)).dupMap row.forceOld = none :=
  ⟨tIn.onGather 0 fun g => { g with rows := [tRow, tRow] }, 0, tRow, [tRow], by decide +kernel⟩
theorem witness_duplicateCheck_3 : ∃ (s : State) (t : TileId) (row : Row) (l : List Row) (d : Nat), (s.vol t).gather.rows = row :: l ∧ s.midxBusy t row.rd.midx = false ∧ row.restate = none ∧ row.direct = false ∧ dupCheck (s.meter t (midxSlot row.rd.midx)).lastTend row.rd.tend row.rd.idur (s.meter t (midxSlot row.rd.midx)).dupMap row.forceOld = some d :=
  ⟨(tMeter { tRec with lastTend := 900, dupMap := 1 }).onGather 0 fun g => { g with rows := [tRow] }, 0, tRow, [], 0x50, by decide +kernel⟩
theorem witness_marverPass_1 : ∃ (s : State) (t : TileId) (r : Passed) (rest : List Passed), (s.vol t).lehr.stopped = false ∧ (s.vol t).marver.inq = r :: rest ∧ (judge (s.judgeIn t r)).outcome ≠ 0x16 :=
  ⟨tIn.class0.onMarver 0 fun m => { m with inq := [tPassed] }, 0, tPassed, [], by decide +kernel⟩
theorem witness_rulesetCommit : ∃ (s : State) (t : TileId) (set : Nat), s.serves t = true ∧ s.rd Reg.marver_ruleset_select t = set ∧ set ≤ 63 ∧ (∀ i < 32, (Rule.parse (((s.rdAll Reg.marver_ruleset_stage t).drop (16 * i)).take 16)).ok = true) :=
  ⟨tAct.wr Reg.marver_ruleset_select 0 63, 0, 63, by decide +kernel⟩
theorem witness_marverReplay : ∃ (s : State) (t : TileId) (n : Nat), s.serves t = true ∧ (s.vol t).marver.replay = none ∧ fld (s.rdAll Reg.marver_replay_buffer t) 0 1 = n ∧ 1 ≤ n ∧ n ≤ 64 ∧ fld (s.rdAll Reg.marver_replay_buffer t) 1 7 = 0 :=
  ⟨tAct.wrB Reg.marver_replay_buffer 0 0 [64], 0, 64, by decide +kernel⟩
theorem witness_marverPass_2 : ∃ (s : State) (t : TileId) (r : Passed) (rest : List Passed), (s.vol t).lehr.stopped = false ∧ (s.vol t).marver.inq = r :: rest ∧ (judge (s.judgeIn t r)).outcome = 0x16 ∧ s.rd Reg.marver_cullet_rule t + 1 < Reg.marver_cullet_rule.span :=
  ⟨tReject, 0, { tPassed with rule := 0 }, [], by decide +kernel⟩
theorem witness_culletTag_1 : ∃ (s : State) (t : TileId) (e : Bytes) (k : Bytes) (x : GenSlot), ((s.vol t).marver.stage.read 129).item = some e ∧ Tbl.get (s.vol t).vault.slots 3 = some x ∧ x.bad = false ∧ x.key = k :=
  ⟨(tAct.onVol 0 fun v => { v with vault := { v.vault with slots := [(3, { key := List.replicate 16 1, bad := false })] } }).onMarver 0 fun m =>
      { m with stage := { PPQ.empty with fill := [[1, 2]] } }, 0, [1, 2], List.replicate 16 1, { key := List.replicate 16 1, bad := false }, by decide +kernel⟩
theorem witness_culletRead_1 : ∃ (s : State) (t : TileId) (b : Bytes) (r : List QItem), (s.queue t 0).split = none ∧ (s.queue t 0).drain = .cullet b :: r :=
  ⟨tAct.setQueue 0 0 { PPQ.empty with drain := [.cullet [1, 2]] }, 0, [1, 2], [], by decide +kernel⟩
theorem witness_culletReadBlock_1 : ∃ (s : State) (t : TileId) (b : Bytes), (s.queue t 0).split = none ∧ (s.queue t 0).drain = [.cullet b] ∧ (s.queue t 0).fill = [] :=
  ⟨tAct.setQueue 0 0 { PPQ.empty with drain := [.cullet [1, 2]] }, 0, [1, 2], by decide +kernel⟩
theorem witness_culletTag_2 : ∃ (s : State) (u : State) (t : TileId) (e : Bytes) (k : Bytes), ((s.vol t).marver.stage.read 129).item = some e ∧ (s.onMarver t fun m => { m with stage := ((s.vol t).marver.stage.read 129).q }).useSlot t 3 = (u, some k) :=
  ⟨(tAct.onVol 0 fun v => { v with vault := { v.vault with slots := [(3, { key := List.replicate 16 1, bad := false })] } }).onMarver 0 fun m =>
      { m with stage := { PPQ.empty with fill := [[1, 2]] } }, (tAct.onVol 0 fun v => { v with vault := { v.vault with slots := [(3, { key := List.replicate 16 1, bad := false })] } }).onMarver 0 fun m => { m with stage := (({ PPQ.empty with fill := [[1, 2]] } : PPQ Bytes).read 129).q }, 0, [1, 2], List.replicate 16 1, by decide +kernel⟩
theorem witness_culletRead_2 : ∃ (s : State) (t : TileId), (s.queue t 0).split = none ∧ (s.queue t 0).drain = [] ∧ (s.queue t 0).fill = [] :=
  ⟨tAct, 0, by decide +kernel⟩
theorem witness_culletReadBlock_2 : ∃ (s : State) (t : TileId) (y : State × Bytes), y = (List.range 8).foldl (fun (a : State × Bytes) _ => ((a.1.culletTake t).1, a.2 ++ (a.1.culletTake t).2)) (s, []) :=
  ⟨tCul, 0, tCul8, by decide +kernel⟩
theorem witness_lehrArchiveGroup_1 : ∃ (s : State) (t : TileId) (k : Nat) (who : Nat) (out : Nat) (d : Bytes) (rest : List Group), (s.vol t).lehr.inq = .book who out d :: rest ∧ s.issuing t = some k ∧ (s.vol t).lehr.stopped = false ∧ ((s.vol t).lehr.stream k).leaves.length + 1 ≤ s.rd Reg.lehr_batch_max t :=
  ⟨tLehr.onLehr 0 fun l => { l with inq := [.book 3 2 (List.replicate 42 0)] }, 0, 0, 3, 2, List.replicate 42 0, [], by decide +kernel⟩
theorem witness_lehrArchiveGroup_2 : ∃ (s : State) (t : TileId) (k : Nat) (who : Nat) (out : Nat) (d : Bytes) (rest : List Group), (s.vol t).lehr.inq = .book who out d :: rest ∧ s.issuing t = some k ∧ (s.vol t).lehr.stopped = false ∧ s.rd Reg.lehr_batch_max t < ((s.vol t).lehr.stream k).leaves.length + 1 ∧ ((s.vol t).lehr.stream k).carried < ((s.vol t).lehr.stream k).leaves.length :=
  ⟨((tLehr.onLehr 0 fun l => { l with inq := [.book 3 2 (List.replicate 42 0)] }).wr Reg.lehr_batch_max 0 1), 0, 0, 3, 2, List.replicate 42 0, [], by decide +kernel⟩
theorem witness_batchCloseTime : ∃ (s : State) (t : TileId) (k : Nat) (g : Nat), s.issuing t = some k ∧ s.hasTime t = true ∧ g = gridFloor (s.rd Reg.gather_grid_phase t) (s.rd Reg.lehr_batch_period t) (s.timeSec t) ∧ (s.vol t).mer.since < g ∧ (s.vol t).mer.closeSec < g ∧ ((s.vol t).lehr.stream k).carried < ((s.vol t).lehr.stream k).leaves.length :=
  ⟨(timed tLehr).onMer 0 fun m => { m with baseTime := 86400000000000 }, 0, 0, 85537, by decide +kernel⟩
theorem witness_keyChange_1 : ∃ (s : State) (t : TileId) (g : Nat), (s.tile t).media.jobs = [] ∧ s.archGen t = some g ∧ g ≠ (s.vol t).lehr.archGen ∧ s.issuing t = none :=
  ⟨atGen 3 tAct, 0, 3, by decide +kernel⟩
theorem witness_keyChange_2 : ∃ (s : State) (t : TileId) (g : Nat) (k : Nat), (s.tile t).media.jobs = [] ∧ s.archGen t = some g ∧ g ≠ (s.vol t).lehr.archGen ∧ s.issuing t = some k ∧ ((s.vol t).lehr.stream k).leaves ≠ [] :=
  ⟨atGen 3 tLehr, 0, 3, 0, by decide +kernel⟩
theorem witness_pageFlush : ∃ (s : State) (t : TileId) (i : Nat) (r : ArchRec) (l : List ArchRec), (s.vol t).lehr.pageFirst = some i ∧ i + s.rd Reg.lehr_flush_time t * 1000000 ≤ s.now ∧ (s.vol t).lehr.page = r :: l :=
  ⟨{ tAct.onLehr 0 (fun l => { l with page := [tR1], pageFirst := some 0 }) with now := tAct.rd Reg.lehr_flush_time 0 * 1000000 }, 0, 0, tR1, [], by decide +kernel⟩
theorem witness_ringFull_1 : ∃ (s : State) (t : TileId), (s.tile t).media.full = true ∧ s.rd Reg.lehr_full_policy t = 0 ∧ (s.vol t).lehr.stopped = false :=
  ⟨tLehr.onMedia 0 fun m => { m with factory := List.replicate dieBlocks 0 }, 0, by decide +kernel⟩
theorem witness_lehrArchiveGroup_3 : ∃ (s : State) (t : TileId) (k : Nat) (midx : Nat) (fid : Nat) (rolls : Nat) (flags : Nat) (replay : Option Nat) (recs : List PreRec) (opened : Option Opened) (ctx : Bytes) (rest : List Group), (s.vol t).lehr.inq = .meter midx fid replay recs rolls flags opened ctx :: rest ∧ s.issuing t = some k ∧ (s.vol t).lehr.stopped = false ∧ ((s.vol t).lehr.stream k).leaves.length + (s.expand t midx rolls recs).recs.length ≤ s.rd Reg.lehr_batch_max t :=
  ⟨tGrp (.meter 5 0 none [tPre] 0 0 none []), 0, 0, 5, 0, 0, 0, none, [tPre], none, [], [], by decide +kernel⟩
theorem witness_lehrArchiveGroup_4 : ∃ (s : State) (t : TileId) (k : Nat) (midx : Nat) (prior : Nat) (reason : Nat) (flags : Nat) (replay : Option Nat) (p : PreRec) (r : ArchRec) (rest : List Group), (s.vol t).lehr.inq = .restate midx replay prior reason flags p :: rest ∧ s.issuing t = some k ∧ (s.vol t).lehr.stopped = false ∧ s.heldRec t prior = some r ∧ ((s.vol t).lehr.stream k).leaves.length + 2 ≤ s.rd Reg.lehr_batch_max t :=
  ⟨tGrp (.restate 5 none 9 1 0 tPre), 0, 0, 5, 9, 1, 0, none, tPre, { tR1 with seq := 9 }, [], by decide +kernel⟩
theorem witness_lehrArchiveGroup_5 : ∃ (s : State) (t : TileId) (k : Nat) (who : Nat) (out : Nat) (prior : Nat) (d : Bytes) (r : ArchRec) (rest : List Group), (s.vol t).lehr.inq = .bookRestate who out prior d :: rest ∧ s.issuing t = some k ∧ (s.vol t).lehr.stopped = false ∧ s.heldRec t prior = some r ∧ ((s.vol t).lehr.stream k).leaves.length + 2 ≤ s.rd Reg.lehr_batch_max t :=
  ⟨tGrp (.bookRestate 3 2 9 (List.replicate 42 0)), 0, 0, 3, 2, 9, List.replicate 42 0, { tR1 with seq := 9 }, [], by decide +kernel⟩
theorem witness_keyChange_3 : ∃ (s : State) (t : TileId) (g : Nat), (∀ j ∈ (s.tile t).media.jobs, ∀ l, j.2 ≠ .keys l) ∧ s.archGen t = some g ∧ g ≠ (s.vol t).lehr.archGen ∧ (∀ k, s.issuing t = some k → ((s.vol t).lehr.stream k).leaves = []) :=
  ⟨atGen 3 tAct, 0, 3, ⟨fun j h => (List.not_mem_nil (show j ∈ [] from h)).elim, by decide +kernel, by decide +kernel, fun k h => by have e : (atGen 3 tAct).issuing 0 = none := (by decide +kernel); rw [e] at h; cases h⟩⟩
theorem witness_keyChange_4 : ∃ (s : State) (t : TileId) (g : Nat) (k : Nat), (∀ j ∈ (s.tile t).media.jobs, ∀ l, j.2 ≠ .keys l) ∧ s.archGen t = some g ∧ g ≠ (s.vol t).lehr.archGen ∧ s.issuing t = some k ∧ ((s.vol t).lehr.stream k).leaves ≠ [] :=
  ⟨atGen 3 tLehr, 0, 3, 0, ⟨fun j h => (List.not_mem_nil (show j ∈ [] from h)).elim, by decide +kernel⟩⟩
theorem witness_ringFull_2 : ∃ (s : State) (y : State) (t : TileId) (x : Nat) (l : List Nat), (s.tile t).media.full = true ∧ s.rd Reg.lehr_full_policy t ≠ 0 ∧ ((s.tile t).media.blocks.filter fun e => decide (e.2.st = .mapped) && decide (e.2.region = 0) && decide (e.2.lb ≠ (s.tile t).media.head)).map (fun e => e.2.lb) = x :: l ∧ y = [0, 1].foldl (fun (z : State) k => let lost := ((s.tile t).media.arch k).filter fun a => decide (a.2.lb = l.foldl min x); let z := z.bump Reg.lehr_overwritten t 0 (lost.countP fun a => !(s.tile t).media.discarded a.1); match lost.getLast? with | some a => z.setFloor t k (max ((s.tile t).media.floor k) (a.1 + 1)) | none => z) s :=
  ⟨tRing, tRing2, 0, 3, [], ⟨by decide +kernel, by decide +kernel, by decide +kernel, rfl⟩⟩
theorem witness_issueOne : ∃ (s : State) (t : TileId) (k : Nat) (slot : GenSlot), k ≤ 1 ∧ Tbl.get (s.vol t).vault.slots 6 = some slot ∧ slot.bad = false :=
  ⟨(tLehr.onVault 0 fun v => { v with slots := [(6, { key := List.replicate 16 1, bad := false })] }), 0, 0, { key := List.replicate 16 1, bad := false }, by decide +kernel⟩
theorem witness_lehrProof_1 : ∃ (s : State) (t : TileId) (q : Nat) (r : ArchRec) (c : Closure) (leaves : List ArchRec), s.rd Reg.lehr_proof_seq t = q ∧ (s.held t (seqStream q)).find? (fun r => decide (r.seq = q)) = some r ∧ inGap (s.closures t (seqStream q)) q = false ∧ (s.closures t (seqStream q)).find? (fun c => decide (c.first ≤ q) && decide (q < c.first + c.count)) = some c ∧ leavesOf (s.held t (seqStream q)) c = some leaves :=
  ⟨tHeld.wr Reg.lehr_proof_seq 0 1, 0, 1, tR1, tClo, [tR1], by decide +kernel⟩
theorem witness_lehrVerify_1 : ∃ (s : State) (t : TileId) (a : Nat) (b : Nat) (c : Closure), s.rd Reg.lehr_verify_first t = a ∧ s.rd Reg.lehr_verify_last t = b ∧ s.closures t (seqStream a) = [c] ∧ c.first ≤ a ∧ a ≤ b ∧ b < c.first + c.count ∧ c.first + c.count ≤ c.h.seq ∧ verifyBatch s t (s.held t (seqStream a)) [c] c = none :=
  ⟨(tHeld.wr Reg.lehr_verify_first 0 1).wr Reg.lehr_verify_last 0 1, 0, 1, 1, tClo, by decide +kernel⟩
theorem witness_fetch_1 : ∃ (s : State) (t : TileId) (first : Nat) (last : Nat), s.reach t false false = .go ∧ first ≤ last ∧ seqStream first = seqStream last ∧ last < first + 65536 :=
  ⟨tAct, 0, 0, 65535, by decide +kernel⟩
theorem witness_ackDiscard_1 : ∃ (s : State) (t : TileId) (first : Nat) (last : Nat) (h : ArchRec) (a : Nat) (b : Nat) (cause : Nat) (kg : Nat) (sg : Nat) (root : Bytes), s.serves t = true ∧ first ≤ last ∧ seqStream first = seqStream last ∧ s.held t (seqStream first) = [h] ∧ h.body = .header a b cause kg sg root ∧ last ≤ h.seq - 1 ∧ 0 < h.seq ∧ (s.tile t).media.jobs = [] ∧ (s.tile t).media.mapQ = [] ∧ (s.tile t).media.disc (seqStream first) = [] ∧ (s.tile t).media.rangesCounted (seqStream first) (mergeRange [] (first, last)) ≤ 4096 :=
  ⟨tAct.onLehr 0 fun l => { l with page := [tHd] }, 0, 1, 1, tHd, 1, 1, 1, 0, 0, tRoot, by decide +kernel⟩
theorem witness_lehrVerify_2 : ∃ (s : State) (t : TileId) (a : Nat) (b : Nat) (q : Nat), s.rd Reg.lehr_verify_first t = a ∧ s.rd Reg.lehr_verify_last t = b ∧ a ≤ b ∧ verifyClosed s t (s.held t (seqStream a)) (s.closures t (seqStream a)) b a (s.closures t (seqStream a)) = .ok q ∧ verifyOpen s t (s.closures t (seqStream a)) (s.lehrGens t).1 b q (s.held t (seqStream a)) = none :=
  ⟨((tHeld.onLehr 0 fun l => { l with page := [tR1] }).wr Reg.lehr_verify_first 0 1).wr Reg.lehr_verify_last 0 1, 0, 1, 1, 1, by decide +kernel⟩
theorem witness_lehrVerify_3 : ∃ (s : State) (t : TileId) (a : Nat) (b : Nat) (code : Nat) (q : Nat), s.rd Reg.lehr_verify_first t = a ∧ s.rd Reg.lehr_verify_last t = b ∧ a ≤ b ∧ q < Reg.lehr_verify_bad_seq.span ∧ verifyClosed s t (s.held t (seqStream a)) (s.closures t (seqStream a)) b a (s.closures t (seqStream a)) = .error (code, q) ∧ 1 < code ∧ code < 5 :=
  ⟨((tHeld.onLehr 0 fun l => { l with page := [tHd, tSr, tSs] }).wr Reg.lehr_verify_first 0 1).wr Reg.lehr_verify_last 0 1, 0, 1, 1, 4, 1, by decide +kernel⟩
theorem witness_ackDiscard_2 : ∃ (s : State) (t : TileId) (first : Nat) (last : Nat) (h : ArchRec) (a : Nat) (b : Nat) (cause : Nat) (kg : Nat) (sg : Nat) (root : Bytes), s.serves t = true ∧ first ≤ last ∧ seqStream first = seqStream last ∧ h ∈ s.held t (seqStream first) ∧ h.body = .header a b cause kg sg root ∧ last < h.seq ∧ (s.tile t).media.jobs = [] ∧ (s.tile t).media.mapQ = [] ∧ (s.tile t).media.rangesCounted (seqStream first) (mergeRange ((s.tile t).media.disc (seqStream first)) (first, last)) ≤ 4096 :=
  ⟨tAct.onLehr 0 fun l => { l with page := [tR1, tHd] }, 0, 1, 1, tHd, 1, 1, 1, 0, 0, tRoot, by decide +kernel⟩
theorem witness_lehrProof_2 : ∃ (s : State) (t : TileId), (s.held t (seqStream (s.rd Reg.lehr_proof_seq t))).find? (fun r => decide (r.seq = s.rd Reg.lehr_proof_seq t)) = none :=
  ⟨tAct, 0, by decide +kernel⟩
theorem witness_balanceFeed_1 : ∃ (s : State) (t : TileId) (r : ArchRec), (s.vol t).bal.ready = true ∧ (s.qRead t 2).2 = some (.record r) ∧ (((s.qRead t 2).1).vol t).bal.next = r.seq :=
  ⟨(tBal.onBal 0 fun b => { b with next := 7 }).setQueue 0 2 { PPQ.empty with fill := [.record tBook] }, 0, tBook, by decide +kernel⟩
theorem witness_closeTick_1 : ∃ (s : State) (t : TileId) (k : Nat), (s.vol t).bal.ready = true ∧ s.hasTime t = true ∧ (s.vol t).lehr.stopped = false ∧ s.issuing t = some k ∧ (s.vol t).bal.tick ≠ 0 ∧ (s.vol t).bal.first ≤ (s.vol t).bal.tick ∧ (s.vol t).bal.tick + (s.vol t).bal.b + s.rd Reg.balance_close_window t * (s.vol t).bal.b ≤ s.timeSec t :=
  ⟨(tBal.wr Reg.balance_close_window 0 0), 0, 0, by decide +kernel⟩
theorem witness_gridChangeTick_1 : ∃ (s : State) (t : TileId) (k : Nat) (g : BGrid), (s.vol t).bal.grid = some g ∧ (s.vol t).bal.ready = true ∧ s.hasTime t = true ∧ (s.vol t).lehr.stopped = false ∧ s.issuing t = some k ∧ g.at_ ≤ s.timeSec t ∧ g.tx = g.tc + g.bOld ∧ 0 < g.bOld :=
  ⟨tBal.onBal 0 fun b => { b with grid := some { bOld := 900, tc := 900, tx := 1800, at_ := 1800 } }, 0, 0, { bOld := 900, tc := 900, tx := 1800, at_ := 1800 }, by decide +kernel⟩
theorem witness_closeTick_2 : ∃ (s : State) (t : TileId) (k : Nat) (T : Nat), (s.vol t).bal.ready = true ∧ s.hasTime t = true ∧ (s.vol t).lehr.stopped = false ∧ s.issuing t = some k ∧ (T = (if (s.vol t).bal.tick = 0 ∨ (s.vol t).bal.tick < (s.vol t).bal.first then (s.vol t).bal.first else (s.vol t).bal.tick + (s.vol t).bal.b)) ∧ T + s.rd Reg.balance_close_window t * (s.vol t).bal.b ≤ s.timeSec t :=
  ⟨(tBal.onBal 0 fun b => { b with tick := 0 }).wr Reg.balance_close_window 0 0, 0, 0, 900, by decide +kernel⟩
theorem witness_gridChangeTick_2 : ∃ (s : State) (t : TileId) (k : Nat) (g : BGrid), (s.vol t).bal.grid = some g ∧ (s.vol t).bal.ready = true ∧ s.hasTime t = true ∧ (s.vol t).lehr.stopped = false ∧ s.issuing t = some k ∧ g.at_ ≤ s.timeSec t ∧ 0 < g.bOld :=
  ⟨tBal.onBal 0 fun b => { b with grid := some { bOld := 450, tc := 900, tx := 1800, at_ := 1800 } }, 0, 0, { bOld := 450, tc := 900, tx := 1800, at_ := 1800 }, by decide +kernel⟩
theorem witness_balanceFeed_2 : ∃ (s : State) (t : TileId) (r : ArchRec), (s.vol t).bal.ready = true ∧ (s.qRead t 2).2 = some (.record r) ∧ r.seq < ((s.qRead t 2).1.vol t).bal.next :=
  ⟨(tBal.onBal 0 fun b => { b with next := 8 }).setQueue 0 2 { PPQ.empty with fill := [.record tBook] }, 0, tBook, by decide +kernel⟩
theorem witness_balanceFeed_3 : ∃ (s : State) (y : State) (t : TileId) (r : ArchRec) (n : Nat), (s.vol t).bal.ready = true ∧ (s.qRead t 2).2 = some (.record r) ∧ ((s.qRead t 2).1.vol t).bal.next = n ∧ n ≠ 0 ∧ n < r.seq ∧ y = (((s.qRead t 2).1.archived t (seqStream r.seq)).filter fun y => decide (n ≤ y.seq) && decide (y.seq < r.seq)).foldl (fun s y => s.takeRecord t y) ((s.qRead t 2).1.bump Reg.balance_feed_gaps t) :=
  ⟨tGap, tGap1, 0, tBook, 5, by decide +kernel⟩
theorem witness_treeCommit : ∃ (s : State) (t : TileId), s.serves t = true ∧ (s.vol t).bal.oldTree = none ∧ s.badNode t (s.stagedTree t) = none ∧ s.rd Reg.balance_tree_version t + 1 < Reg.balance_tree_version.span :=
  ⟨tAct.wrB Reg.balance_tree_stage 0 0 [0xFF, 0xFF, 7, 1], 0, by decide +kernel⟩
theorem witness_treeTakesEffect_1 : ∃ (s : State) (t : TileId) (g : Nat), (s.vol t).bal.effect = some g ∧ (s.vol t).bal.ready = true ∧ s.hasTime t = true ∧ g ≤ s.timeSec t ∧ (s.vol t).bal.nodes = [] :=
  ⟨tBal.onBal 0 fun b => { b with effect := some 1800 }, 0, 1800, by decide +kernel⟩
theorem witness_balanceRebuild_1 : ∃ (s : State) (t : TileId) (k : Nat), s.issuing t = some k ∧ (s.vol t).bal.ready = false ∧ s.serves t = true ∧ s.hasTime t = true ∧ s.held t k = [] ∧ s.rd Reg.balance_rebuilds t + 1 < Reg.balance_rebuilds.span :=
  ⟨tBal.onBal 0 fun b => { b with ready := false }, 0, 0, by decide +kernel⟩
theorem witness_treeTakesEffect_2 : ∃ (s : State) (t : TileId) (g : Nat), (s.vol t).bal.effect = some g ∧ (s.vol t).bal.ready = true ∧ s.hasTime t = true ∧ g ≤ s.timeSec t :=
  ⟨tBal.onBal 0 fun b => { b with effect := some 1800, nodes := [(3, { BNode.zero with raised := true })] }, 0, 1800, by decide +kernel⟩
theorem witness_balanceRebuild_2 : ∃ (s : State) (y : State) (t : TileId) (k : Nat), s.issuing t = some k ∧ (s.vol t).bal.ready = false ∧ s.serves t = true ∧ s.hasTime t = true ∧ y = (((s.onBal t fun _ => (s.rebuildFrom t k).1).rebuildScan t (s.archived t k) (s.rebuildFrom t k).2).onBal t fun x => { x with ready := true, rebuilt := true, next := ((s.archived t k).getLast?.map fun r => r.seq + 1).getD ((s.vol t).lehr.stream k).next }) :=
  ⟨tReb, tReb1, 0, 0, by decide +kernel⟩
theorem witness_metroResync : ∃ (s : State) (t : TileId), (s.vol t).syncWanted = none ∧ (s.metro t).run = false :=
  ⟨tAct, 0, by decide +kernel⟩
theorem witness_syncReset_1 : ∃ (s : State) (t : TileId) (w : Nat), (s.vol t).syncWanted = some w ∧ s.metroOn t = true ∧ (s.metro t).run = false ∧ (s.tile t).legalEnd = 0 ∧ (w : Int) + 1000000 ≤ s.now - (s.timeNs t - s.timeSec t * 1000000000) ∧ s.rd Reg.metro_resyncs t + 1 < Reg.metro_resyncs.span :=
  ⟨{ (timed tAct).onVol 0 fun v => { v with syncWanted := some 0 } with now := 2000000000 }, 0, 0, by decide +kernel⟩
theorem witness_blockEnd_1 : ∃ (s : State) (t : TileId) (v1 : List Int) (v2 : List Int) (v3 : List Int) (i1 : List Int) (i2 : List Int) (i3 : List Int) (inVx : List Int × List Int) (codes : List (List Int)), codes = [v1, v2, v3, i1, i2, i3, inVx.1, inVx.2] ∧ (s.metro t).run = true ∧ s.metroOn t = true ∧ 0 < (s.metro t).blk ∧ (s.metro t).hold = false ∧ (∀ i < 3, quiet ((blockOf (s.metro t).cal codes).square (3 + i) 0 1024) 1024 = true) ∧ s.fieldPin t = none ∧ (s.metro t).judged = false ∧ (s.vol t).modDue = false ∧ ((s.metro t).blk + 1) % 8 ≠ 0 ∧ (∀ i < 12, s.rd Reg.metro_legal_regs t i < Reg.metro_legal_regs.span) :=
  ⟨tMet, 0, [], [], [], [], [], [], ([], []), [[], [], [], [], [], [], [], []], by decide +kernel⟩
theorem witness_secondUpdate_1 : ∃ (s : State) (t : TileId) (sec : Nat) (n1 : Nat) (a1 : Nat) (b1 : Nat), (s.metro t).run = true ∧ s.metroOn t = true ∧ (s.metro t).secN ≠ 0 ∧ (s.metro t).blockEnd = sec * 1000000000 ∧ faint (s.metro t).secV1 (s.metro t).secN = false ∧ (s.metro t).secSq.length = 8 ∧ (s.metro t).zeros.1.frequency n1 a1 b1 < Reg.metro_frequency.span ∧ (∀ i < 8, rmsOf ((s.metro t).secSq.getD i 0) (s.metro t).secN < Reg.metro_rms.span) :=
  ⟨tSecond, 0, 38, 50, 0, 1000000000, by decide +kernel⟩
theorem witness_minuteRecord : ∃ (s : State) (t : TileId), (s.metro t).run = true ∧ s.metroOn t = true ∧ onGrid (s.rd Reg.gather_grid_phase t) 60 (s.timeSec t) = true :=
  ⟨tMet, 0, by decide +kernel⟩
theorem witness_localReading_1 : ∃ (s : State) (t : TileId) (slot : Nat) (T : Nat), s.localSlot t = some slot ∧ (s.metro t).run = true ∧ s.metroOn t = true ∧ (s.metro t).blockEnd / 1000000000 = T ∧ (s.metro t).blk % 8 = 0 ∧ (s.metro t).localAt ≠ T ∧ onGrid (s.rd Reg.gather_grid_phase t) (s.meter t slot).idur T = true ∧ (Tbl.get (s.metro t).marks T).all (fun e => !e.2.isEmpty) = true ∧ (Tbl.get (s.metro t).marks T).isSome = true ∧ T < (s.metro t).since + (s.meter t slot).idur :=
  ⟨((tMeter { tRec with path := 3 }).wr Reg.time_state 0 2).onMetro 0 fun m => { m with run := true, sync := 900036, blk := 8, since := 899138, marks := [(899137, (List.replicate 8 0, List.replicate 8 1)), (900037, (List.replicate 8 0, List.replicate 8 1))] }, 0, 5, 900037, by decide +kernel⟩
theorem witness_syncReset_2 : ∃ (s : State) (t : TileId) (w : Nat), (s.vol t).syncWanted = some w ∧ s.metroOn t = true ∧ (w : Int) + 1000000 ≤ s.now - (s.timeNs t - s.timeSec t * 1000000000) ∧ s.rd Reg.metro_resyncs t + 1 < Reg.metro_resyncs.span :=
  ⟨{ tMet.onVol 0 fun v => { v with syncWanted := some 0 } with now := 2000000000 }, 0, 0, by decide +kernel⟩
theorem witness_blockEnd_2 : ∃ (s : State) (t : TileId) (v1 : List Int) (v2 : List Int) (v3 : List Int) (i1 : List Int) (i2 : List Int) (i3 : List Int) (inVx : List Int × List Int) (codes : List (List Int)) (k : Nat), codes = [v1, v2, v3, i1, i2, i3, inVx.1, inVx.2] ∧ (s.metro t).run = true ∧ s.metroOn t = true ∧ k = (if (s.metro t).blk = 0 then 35 else 0) :=
  ⟨tMet, 0, [], [], [], [], [], [], ([], []), [[], [], [], [], [], [], [], []], 0, by decide +kernel⟩
theorem witness_secondUpdate_2 : ∃ (s : State) (t : TileId) (sec : Nat), (s.metro t).run = true ∧ s.metroOn t = true ∧ (s.metro t).secN ≠ 0 ∧ (s.metro t).blockEnd = sec * 1000000000 :=
  ⟨tSecond, 0, 38, by decide +kernel⟩
theorem witness_localReading_2 : ∃ (s : State) (t : TileId) (slot : Nat) (T : Nat), s.localSlot t = some slot ∧ (s.metro t).run = true ∧ s.metroOn t = true ∧ (s.metro t).blockEnd / 1000000000 = T ∧ (s.metro t).blk % 8 = 0 ∧ (s.metro t).localAt ≠ T ∧ onGrid (s.rd Reg.gather_grid_phase t) (s.meter t slot).idur T = true ∧ (Tbl.get (s.metro t).marks T).all (fun e => !e.2.isEmpty) = true ∧ (Tbl.get (s.metro t).marks T).isSome = true ∧ (s.metro t).since + (s.meter t slot).idur ≤ T ∧ s.unsound t slot = false ∧ (s.tile t).unmeasured ((T - (s.meter t slot).idur) * 1000000000) (T * 1000000000) / 1000000 ≤ s.rd Reg.metro_head_gap_max_ms t ∧ s.midxBusy t (s.midxOf t slot) = false ∧ ((s.vol t).gather.rows.any fun r => decide (r.rd.midx = s.midxOf t slot)) = false :=
  ⟨((tMeter { tRec with path := 3 }).wr Reg.time_state 0 2).onMetro 0 fun m => { m with run := true, sync := 900036, blk := 8, since := 899137, marks := [(899137, (List.replicate 8 0, List.replicate 8 1)), (900037, (List.replicate 8 0, List.replicate 8 1))] }, 0, 5, 900037, by decide +kernel⟩
theorem witness_localReading_3 : ∃ (s : State) (t : TileId) (slot : Nat) (T : Nat), s.localSlot t = some slot ∧ (s.metro t).run = true ∧ s.metroOn t = true ∧ (s.metro t).blockEnd / 1000000000 = T ∧ (s.metro t).blk % 8 = 0 ∧ (s.metro t).localAt ≠ T ∧ onGrid (s.rd Reg.gather_grid_phase t) (s.meter t slot).idur T = true ∧ (Tbl.get (s.metro t).marks T).all (fun e => !e.2.isEmpty) = true ∧ (Tbl.get (s.metro t).marks T).isSome = true ∧ (s.metro t).since + (s.meter t slot).idur ≤ T ∧ (s.tile t).unmeasured ((T - (s.meter t slot).idur) * 1000000000) (T * 1000000000) / 1000000 ≤ s.rd Reg.metro_head_gap_max_ms t ∧ s.unsound t slot = true ∧ (s.queue t 0).drain.length + (s.queue t 0).fill.length = 0 :=
  ⟨((tMeter { tRec with path := 3, checkGood := false }).wr Reg.time_state 0 2).onMetro 0 fun m => { m with run := true, sync := 900036, blk := 8, since := 899137, marks := [(899137, (List.replicate 8 0, List.replicate 8 1)), (900037, (List.replicate 8 0, List.replicate 8 1))] }, 0, 5, 900037, by decide +kernel⟩
theorem witness_sealAssert_1 : ∃ (s : State) (b : BayId), s.pier.up = true ∧ (s.bay b).legalEn = false ∧ (∀ o, s.inRun (tileOf b o) = false) ∧ (s.bay b).unlockTo = 0 :=
  ⟨tUp, 7, by decide +kernel⟩
theorem witness_sealRelease_1 : ∃ (s : State) (b : BayId), s.pier.up = true ∧ (s.bay b).legalEn = true ∧ (∀ o, s.inRun (tileOf b o) = false) :=
  ⟨openSeal tUp, 0, by decide +kernel⟩
theorem witness_calCommit_1 : ∃ (s : State) (t : TileId), s.serves t = true ∧ (s.bay (bayOf t)).legalEn = true ∧ calOk (s.rdAll Reg.metro_cal_stage t) = true ∧ s.rd Reg.metro_seal_count t < 65535 ∧ s.legalFull t = false ∧ s.legalRuns t = false ∧ (s.vol t).syncWanted = none ∧ (s.metro t).run = false :=
  ⟨(openSeal tAct).wrB Reg.metro_cal_stage 0 0 tCal, 0, by decide +kernel⟩
theorem witness_regRestore_1 : ∃ (s : State) (t : TileId), s.serves t = true ∧ (s.bay (bayOf t)).legalEn = true ∧ s.rd Reg.metro_seal_count t < 65535 ∧ s.legalFull t = false ∧ s.legalRuns t = false ∧ (s.vol t).syncWanted = none ∧ (s.metro t).run = false :=
  ⟨openSeal tAct, 0, by decide +kernel⟩
theorem witness_sealAssert_2 : ∃ (s : State) (b : BayId), s.pier.up = true ∧ (s.bay b).legalEn = false :=
  ⟨tAct, 0, by decide +kernel⟩
theorem witness_sealRelease_2 : ∃ (s : State) (b : BayId), s.pier.up = true ∧ (s.bay b).legalEn = true :=
  ⟨openSeal tAct, 0, by decide +kernel⟩
theorem witness_calCommit_2 : ∃ (s : State) (t : TileId), s.serves t = true ∧ (s.bay (bayOf t)).legalEn = true ∧ s.legalRuns t = true :=
  ⟨(openSeal tAct).onVol 0 fun v => { v with legalUntil := 9 }, 0, by decide +kernel⟩
theorem witness_regRestore_2 : ∃ (s : State) (t : TileId), s.serves t = true ∧ (s.bay (bayOf t)).legalEn = true ∧ s.legalRuns t = true :=
  ⟨(openSeal tAct).onVol 0 fun v => { v with legalUntil := 9 }, 0, by decide +kernel⟩
theorem witness_magRead_1 : ∃ (s : State) (t : TileId), (s.metro t).run = true ∧ s.metroOn t = true ∧ fld (s.rdAll Reg.metro_mag_desc t 0) 0 1 = 0 ∧ fld (s.rdAll Reg.metro_mag_desc t 1) 0 1 ≠ 0 ∧ (s.metro t).mags.length = 2 ∧ ((s.metro t).mags.getD 1 MagSensor.init).failed = false ∧ ((s.metro t).mags.getD 1 MagSensor.init).miss = 0 :=
  ⟨tMet.wrB Reg.metro_mag_desc 0 0 [1] 1, 0, by decide +kernel⟩
theorem witness_sensorRetry_1 : ∃ (s : State) (t : TileId) (i : Fin 2), (s.metro t).run = true ∧ s.metroOn t = true ∧ (s.metro t).mags.length = 2 ∧ ((s.metro t).mags.getD i MagSensor.init).failed = true :=
  ⟨tMet.onMetro 0 fun m => { m with mags := [MagSensor.init, { MagSensor.init with failed := true }] }, 0, 1, by decide +kernel⟩
theorem witness_magRead_2 : ∃ (s : State) (t : TileId) (v : List (Option Bytes)) (i : Nat) (l : Bytes), i < 2 ∧ (s.metro t).run = true ∧ s.metroOn t = true ∧ (s.metro t).mags.length = 2 ∧ fld (s.rdAll Reg.metro_mag_desc t i) 0 1 ≠ 0 ∧ ((s.metro t).mags.getD i MagSensor.init).failed = false ∧ v.getD i none = some l :=
  ⟨tMet.wrB Reg.metro_mag_desc 0 0 [1] 1, 0, [none, some [0, 0, 0]], 1, [0, 0, 0], by decide +kernel⟩
theorem witness_magRead_3 : ∃ (s : State) (t : TileId) (v : List (Option Bytes)) (i : Nat), i < 2 ∧ (s.metro t).run = true ∧ s.metroOn t = true ∧ (s.metro t).mags.length = 2 ∧ fld (s.rdAll Reg.metro_mag_desc t i) 0 1 ≠ 0 ∧ ((s.metro t).mags.getD i MagSensor.init).failed = false ∧ ((s.metro t).mags.getD i MagSensor.init).miss = 2 ∧ v.getD i none = none :=
  ⟨(tMet.wrB Reg.metro_mag_desc 0 0 [1] 0).onMetro 0 fun m => { m with mags := [{ MagSensor.init with miss := 2 }, MagSensor.init] }, 0, [none, none], 0, by decide +kernel⟩
theorem witness_sensorRetry_2 : ∃ (s : State) (t : TileId) (i : Fin 2), (s.metro t).run = true ∧ s.metroOn t = true ∧ (s.metro t).mags.length = 2 ∧ ((s.metro t).mags.getD i MagSensor.init).failed = true :=
  ⟨tMet.onMetro 0 fun m => { m with mags := [MagSensor.init, { MagSensor.init with failed := true }] }, 0, 1, by decide +kernel⟩
theorem witness_localRelayCmd_1 : ∃ (s : State) (t : TileId) (k : Fin 2) (c : Nat), c ≤ 1 ∧ s.serves t = true ∧ (s.metro t).relays.length = 2 ∧ ((s.metro t).judged = false ∨ (s.relay t k).st = 1 ∨ (s.relay t k).st = 2) :=
  ⟨tMet.onRelay 0 1 fun r => { r with st := 2 }, 0, 1, 1, by decide +kernel⟩
theorem witness_localRelayCmd_2 : ∃ (s : State) (t : TileId) (k : Fin 2) (c : Nat), c ≤ 1 ∧ s.serves t = true ∧ (s.metro t).judged = true ∧ ((s.relay t k).st = 0 ∨ (s.relay t k).st = 3) :=
  ⟨tMet.onMetro 0 fun m => { m with judged := true }, 0, 0, 1, by decide +kernel⟩
theorem witness_relayPulseEnd_1 : ∃ (s : State) (t : TileId) (k : Fin 2) (at_ : Nat), (s.relay t k).drive = some at_ ∧ (s.relay t k).st = 1 ∧ at_ + s.rd Reg.metro_relay_pulse_ms t * 1000000 ≤ s.now ∧ s.relayCmd t k = some 1 ∧ s.rd Reg.metro_fb_mode t k ≠ 0 :=
  ⟨{ (tMet.wr Reg.metro_relay_state 0 2).onRelay 0 0 (fun r => { r with st := 1, drive := some 0 }) with now := tMet.rd Reg.metro_relay_pulse_ms 0 * 1000000 }, 0, 0, 0, by decide +kernel⟩
theorem witness_relayFeedbackChange_1 : ∃ (s : State) (t : TileId), (s.metro t).judged = false ∧ (s.tile t).fbLow.length = 2 :=
  ⟨tMet, 0, by decide +kernel⟩
theorem witness_relayConfirmTimeout_1 : ∃ (s : State) (t : TileId) (k : Fin 2) (at_ : Nat), (s.relay t k).st = 2 ∧ (s.relay t k).drive = some at_ ∧ at_ + s.rd Reg.metro_relay_confirm_ms t * 1000000 ≤ s.now ∧ (s.relay t k).a ≤ s.rd Reg.metro_relay_retries t :=
  ⟨{ tMet.onRelay 0 0 (fun r => { r with st := 2, drive := some 0, a := 1 }) with now := tMet.rd Reg.metro_relay_confirm_ms 0 * 1000000 }, 0, 0, 0, by decide +kernel⟩
theorem witness_dispLine_1 : ∃ (s : State) (b : BayId) (l : Bytes), s.serves (tileOf b false) = true ∧ s.inRun (tileOf b false) = true ∧ s.serves (tileOf b true) = false ∧ (s.bay b).dispAt ≤ s.now ∧ (s.bay b).dispPos = 0 ∧ s.dispItem (tileOf b false) 0 = some l ∧ s.rd Reg.bay_disp_lines_sent b + 1 < Reg.bay_disp_lines_sent.span :=
  ⟨tAct, 0, dispLine 0 ("1.8.0".toList) (fixed 1000000000 3 10 0) ("kWh".toList) true, by decide +kernel⟩
theorem witness_relayFeedbackChange_2 : ∃ (s : State) (t : TileId), (s.metro t).judged = true :=
  ⟨tMet.onMetro 0 fun m => { m with judged := true }, 0, by decide +kernel⟩
theorem witness_relayPulseEnd_2 : ∃ (s : State) (y : State) (z : State) (t : TileId) (k : Fin 2) (uj : Nat) (at_ : Nat) (cut : Bool), (s.relay t k).drive = some at_ ∧ (s.relay t k).st = 1 ∧ (cut = true ∨ at_ + s.rd Reg.metro_relay_pulse_ms t * 1000000 ≤ s.now) ∧ y = ((((s.onBay (bayOf t) fun y => { y with pulses := (y.pulses.filter fun x => decide (s.now / 1000000000 < x.1 + 60)) ++ [(s.now / 1000000000, uj)] }).wr Reg.bay_energy_last_pulse_uj (bayOf t) uj).drivePair t k 0).onRelay t k fun r => { r with st := 2, pulsed := some (s.now, if s.relayCmd t k = some 1 then 1 else 2) }) ∧ z = (if cut then y.bump Reg.metro_pulses_cut t else y) :=
  ⟨tPulse, tPulse1, tPulse1.bump Reg.metro_pulses_cut 0, 0, 0, 100, 0, true, by decide +kernel⟩
theorem witness_relayConfirmTimeout_2 : ∃ (s : State) (t : TileId) (k : Fin 2), (s.relay t k).st = 2 ∧ (s.relay t k).drive.getD 0 + s.rd Reg.metro_relay_confirm_ms t * 1000000 ≤ s.now ∧ s.rd Reg.metro_relay_retries t < (s.relay t k).a :=
  ⟨{ tMet.onRelay 0 0 (fun r => { r with st := 2, drive := some 0, a := 9 }) with now := tMet.rd Reg.metro_relay_confirm_ms 0 * 1000000 }, 0, 0, by decide +kernel⟩
theorem witness_relayConfirmTimeout_3 : ∃ (s : State) (t : TileId) (k : Fin 2) (a : Nat), (s.relay t k).st = 0 ∧ (s.relay t k).off = some a ∧ a + s.rd Reg.metro_relay_confirm_ms t * 1000000 ≤ s.now :=
  ⟨{ tMet.onRelay 0 1 (fun r => { r with off := some 0 }) with now := tMet.rd Reg.metro_relay_confirm_ms 0 * 1000000 }, 0, 1, 0, by decide +kernel⟩
theorem witness_dispLine_2 : ∃ (s : State) (b : BayId) (t : TileId) (r : List TileId) (x : Nat × Nat), (([false, true].map (tileOf b)).filter fun t => s.serves t && s.inRun t) = t :: r ∧ (s.bay b).dispAt ≤ s.now ∧ ((dispCycle.zipIdx.drop (s.bay b).dispPos) ++ dispCycle.zipIdx.take (s.bay b).dispPos).find? (fun x => (s.dispItem t x.1).isSome) = some x ∧ s.rd Reg.bay_disp_lines_sent b + 1 < Reg.bay_disp_lines_sent.span :=
  ⟨tAct.onBay 0 fun y => { y with dispPos := 1 }, 0, 0, [], (1, 1), by decide +kernel⟩
theorem tCal_read (s : State) (a : Nat) (crc : Bytes) (hc : s.cells Reg.eph_cal_stage 0 0 = []) (h : (tCalendar a crc).length = 1600) :
    (s.wrB Reg.eph_cal_stage 0 0 (tCalendar a crc)).rdAll Reg.eph_cal_stage (0 : TileId) = tCalendar a crc := by
  refine tNew _ _ _ _ _ _ hc (Nat.le_of_eq h) ?_ rfl
  rw [h]
  exact List.append_nil _
theorem witness_ephCalCommit_1 : ∃ (s : State) (t : TileId), s.serves t = true ∧ calBad (s.rdAll Reg.eph_cal_stage t) (s.whenNs t) = none ∧ calActivateNs (s.rdAll Reg.eph_cal_stage t) ≠ 0 ∧ s.rd Reg.eph_cal_version t < 255 :=
  ⟨tAct.wrB Reg.eph_cal_stage 0 0 (tCalendar 100 [93, 141, 180, 165]), 0, ⟨by decide +kernel, by rw [tCal_read tAct _ _ rfl (by decide +kernel)]; decide +kernel, by rw [tCal_read tAct _ _ rfl (by decide +kernel)]; decide +kernel, by decide +kernel⟩⟩
theorem witness_calendarActivate : ∃ (s : State) (t : TileId), s.serves t = true ∧ fld (s.rdAll Reg.eph_cal_passive t) 0 1 ≠ 0 ∧ s.hasTime t = true ∧ (calActivateNs (s.rdAll Reg.eph_cal_passive t) : Int) ≤ s.timeNs t :=
  ⟨(timed tAct).wrB Reg.eph_cal_passive 0 0 (tCalendar 37 [14, 144, 70, 159]), 0, by decide +kernel⟩
theorem witness_billingApply_1 : ∃ (s : State) (y : State) (t : TileId) (r : ArchRec), s.serves t = true ∧ s.qRead t 3 = (y, some (.record r)) ∧ (y.eph t).next = r.seq :=
  ⟨((tAct.onEph 0 fun e => { e with next := 7 }).setQueue 0 3 { PPQ.empty with fill := [.record tBook] }), (((tAct.onEph 0 fun e => { e with next := 7 }).setQueue 0 3 { PPQ.empty with fill := [.record tBook] }).qRead 0 3).1, 0, tBook, by decide +kernel⟩
theorem witness_clockEvent : ∃ (s : State) (t : TileId) (midx : Nat), s.serves t = true ∧ fld (s.rdAll Reg.eph_clock_stage t) 0 4 = midx ∧ fld (s.rdAll Reg.eph_clock_stage t) 14 2 = 0 ∧ s.ownMidx t midx = true ∧ (s.meter t (midxSlot midx)).state = 1 :=
  ⟨(tEphT tRec).wrB Reg.eph_clock_stage 0 0 [5, 0, 0, 0, 37, 0, 0, 0, 0, 0, 1, 0, 0, 0, 0, 0], 0, 5, by decide +kernel⟩
theorem witness_splitExpire_1 : ∃ (s : State) (t : TileId) (e : SplitEnt), s.serves t = true ∧ (s.eph t).splits = [e] ∧ e.g + 16 * (s.meter t (midxSlot e.midx)).idur < (s.meter t (midxSlot e.midx)).lastTend ∧ s.rd Reg.eph_splits_expired t + 1 < Reg.eph_splits_expired.span :=
  ⟨(tEph { tRec with lastTend := 14401 }).onEph 0 fun e => { e with splits := [{ midx := 5, g := 0, s := 0 }] }, 0, { midx := 5, g := 0, s := 0 }, by decide +kernel⟩
theorem witness_ephCalCommit_2 : ∃ (s : State) (t : TileId), s.serves t = true ∧ calBad (s.rdAll Reg.eph_cal_stage t) (s.whenNs t) = none ∧ calActivateNs (s.rdAll Reg.eph_cal_stage t) = 0 :=
  ⟨(timed tAct).wrB Reg.eph_cal_stage 0 0 (tCalendar 0 [157, 213, 66, 73]), 0, ⟨by decide +kernel, by rw [tCal_read (timed tAct) _ _ rfl (by decide +kernel)]; decide +kernel, by rw [tCal_read (timed tAct) _ _ rfl (by decide +kernel)]; decide +kernel⟩⟩
theorem witness_splitExpire_2 : ∃ (s : State) (t : TileId), s.serves t = true :=
  ⟨(tEph { tRec with lastTend := 14401 }).onEph 0 fun e => { e with splits := [{ midx := 5, g := 0, s := 0 }] }, 0, by decide +kernel⟩
theorem witness_billingApply_2 : ∃ (s : State) (t : TileId) (r : ArchRec), s.serves t = true ∧ (s.qRead t 3).2 = some (.record r) ∧ r.seq < (s.eph t).next :=
  ⟨(tAct.onEph 0 fun e => { e with next := 9 }).setQueue 0 3 { PPQ.empty with fill := [.record tBook] }, 0, tBook, by decide +kernel⟩
theorem witness_profileWrite : ∃ (s : State) (t : TileId) (off : Nat) (data : Bytes), s.refusesConfig t = false ∧ off + data.length ≤ 1024 ∧ (∀ p < 16, profileOk ((s.wrB Reg.eph_profiles t off data).rdB Reg.eph_profiles t (64 * p) 64) = true) :=
  ⟨tAct, 0, 1023, [0], by decide +kernel⟩
theorem witness_topup : ∃ (s : State) (t : TileId) (midx : Nat) (p : Profile), fld (s.rdAll Reg.eph_topup_stage t) 0 4 = midx ∧ s.serves t = true ∧ s.ownMidx t midx = true ∧ (s.meter t (midxSlot midx)).state = 1 ∧ s.prepay t (s.meter t (midxSlot midx)) = some p ∧ fld (s.rdAll Reg.eph_topup_stage t) 4 4 = 0 ∧ fld (s.rdAll Reg.eph_topup_stage t) 0x18 8 = 0 ∧ (s.eph t).topups.contains (fld (s.rdAll Reg.eph_topup_stage t) 8 8) = false ∧ (s.tile t).media.journalFull = false :=
  ⟨((tEphT tRec).wrB Reg.eph_profiles 0 0x24 [1]).wrB Reg.eph_topup_stage 0 0 ([5, 0, 0, 0, 0, 0, 0, 0] ++ natLE 8 77 ++ natLE 8 1000 ++ natLE 8 0), 0, 5, { prices := [0, 0, 0, 0, 0, 0, 0, 0], standing := 0, flags := 1, start := 0, stop := 0, days := 0, emergency := 0, reconnect := 0 }, by decide +kernel⟩
theorem witness_confirmHeld : ∃ (s : State) (t : TileId) (i : Nat), s.serves t = true ∧ s.ephSelected t = some i :=
  ⟨tEph { tRec with creditHeld := 3 }, 0, 5, by decide +kernel⟩
theorem witness_prepayEvaluate : ∃ (s : State) (t : TileId), s.serves t = true ∧ s.hasTime t = true ∧ (s.eph t).minute ≠ s.localNow t / 60 :=
  ⟨(tEphT tRec).onEph 0 fun e => { e with minute := -1, deferred := [5] }, 0, by decide +kernel⟩
theorem witness_flagsClear : ∃ (s : State) (t : TileId) (i : Nat), s.serves t = true ∧ s.ephSelected t = some i :=
  ⟨tEph { tRec with eventFlags := 3 }, 0, 5, by decide +kernel⟩
theorem witness_ephRelayCmd_1 : ∃ (s : State) (t : TileId) (c : Nat) (i : Nat), s.serves t = true ∧ s.ephSelected t = some i ∧ s.relayMeter t (s.meter t i) = true ∧ c ≤ 2 ∧ (s.meter t i).path ≠ 3 ∧ (s.erelay t i).st ≠ 0 :=
  ⟨(tEphT tRec).onERelay 0 5 fun r => { r with st := 1 }, 0, 2, 5, by decide +kernel⟩
theorem witness_relayCheckGet : ∃ (s : State) (t : TileId) (slot : Nat) (a : Nat), (s.erelay t slot).getAt = some a ∧ s.serves t = true ∧ (s.erelay t slot).st = 2 ∧ a ≤ s.now :=
  ⟨(tEphT tRec).onERelay 0 5 fun r => { r with st := 2, getAt := some 0 }, 0, 5, 0, by decide +kernel⟩
theorem witness_relayConfirmExpiry_1 : ∃ (s : State) (t : TileId) (slot : Nat), s.serves t = true ∧ (s.erelay t slot).st = 2 ∧ s.relayLate t slot = true ∧ (s.erelay t slot).a ≤ s.rd Reg.eph_relay_retries t :=
  ⟨((tEphT { tRec with relayCmdTime := 2 ^ 32 - 1 }).onERelay 0 5 fun r => { r with st := 2, a := 1 }).wr Reg.eph_relay_confirm_s 0 38, 0, 5, by decide +kernel⟩
theorem witness_relayAudit_1 : ∃ (s : State) (t : TileId) (slot : Nat), s.serves t = true ∧ s.relayMeter t (s.meter t slot) = true ∧ (s.meter t slot).path ≠ 3 ∧ (s.erelay t slot).auditAt ≠ 0 ∧ (s.erelay t slot).auditAt ≤ s.now ∧ s.asking t slot (fun j => decide (j = .auditGet)) = false :=
  ⟨{ (tEphT tRec).onERelay 0 5 fun r => { r with auditAt := 5 } with now := 5 }, 0, 5, by decide +kernel⟩
theorem witness_ephRelayCmd_2 : ∃ (s : State) (y : State) (t : TileId) (c : Nat) (i : Nat), s.serves t = true ∧ s.ephSelected t = some i ∧ s.relayCommand t i c = some y :=
  ⟨(tEphT tRec).onERelay 0 5 fun r => { r with st := 1 }, (((tEphT tRec).onERelay 0 5 fun r => { r with st := 1 }).relayCommand 0 5 2).getD tAct, 0, 2, 5, by decide +kernel⟩
theorem witness_relayConfirmExpiry_2 : ∃ (s : State) (t : TileId) (slot : Nat), s.serves t = true ∧ (s.erelay t slot).st = 2 ∧ s.relayLate t slot = true :=
  ⟨((tEphT { tRec with relayCmdTime := 2 ^ 32 - 1 }).onERelay 0 5 fun r => { r with st := 2, a := 9 }).wr Reg.eph_relay_confirm_s 0 38, 0, 5, by decide +kernel⟩
theorem witness_relayAudit_2 : ∃ (s : State) (t : TileId) (slot : Nat), s.serves t = true ∧ s.relayMeter t (s.meter t slot) = true ∧ (s.meter t slot).path ≠ 3 ∧ (s.erelay t slot).auditAt = 0 :=
  ⟨tEphT tRec, 0, 5, by decide +kernel⟩
theorem witness_ephDownlinkApdu_1 : ∃ (s : State) (t : TileId) (r : EReq) (y : State) (apdu : Bytes), s.serves t = true ∧ (s.eph t).reqs = [r] ∧ r.sent = none ∧ r.kind = 1 ∧ s.icState t r.slot = .ready ∧ s.mayPush t r = true ∧ s.unsound t r.slot = false ∧ (s.meter t r.slot).state = 1 ∧ r.job = .relayGet ∧ s.sealDown t r.slot r.body = (y, some apdu) ∧ (y.meter t r.slot).path = 0 :=
  ⟨tAsk, 0, { tReq with sent := none }, (tAsk.sealDown 0 5 [0xC0]).1, (tAsk.sealDown 0 5 [0xC0]).2.getD [], (by and_intros <;> first | decide +kernel | rfl)⟩
theorem witness_ephResponse_1 : ∃ (s : State) (t : TileId) (f : Frame), s.serves t = true ∧ (s.vol t).meters.lookup f.addrKind f.addr = none ∧ s.rd Reg.eph_resp_dropped t + 1 < Reg.eph_resp_dropped.span :=
  ⟨tEphT tRec, 0, { tFrame with addr := 8 }, by decide +kernel⟩
theorem witness_ephResponse_2 : ∃ (s : State) (y : State) (z : State) (t : TileId) (f : Frame) (midx : Nat) (inv : Nat) (p : Plain) (w : Option (Nat × Nat) × Option (Nat × Nat)) (d : Option Bytes) (r : EReq), s.serves t = true ∧ (s.vol t).meters.lookup f.addrKind f.addr = some midx ∧ s.openFrame t midx f 0 = (y, .ok p) ∧ y.passCounters t midx p = (z, .ok w) ∧ dlmsRsp p.apdu = some (inv, d) ∧ ((z.deferWaters t midx w.1 w.2).eph t).reqs.find? (fun r => decide (r.slot = midxSlot midx) && decide (r.inv = inv) && r.sent.isSome) = some r :=
  ⟨tOpen, tOpened, tCounted, 0, tAnswer, 5, 8, { apdu := [0xC4, 1, 8, 0, 0x16, 1], ic := some 1, fc := none }, (some (0, 1), none), some [0x16, 1], tReq, by decide +kernel⟩
theorem witness_responseTimeout_1 : ∃ (s : State) (t : TileId) (r : EReq) (a : Nat × Int), (s.eph t).reqs = [r] ∧ r.sent = some a ∧ a.1 + s.rd Reg.eph_resp_timeout_ms t * 1000000 ≤ s.now ∧ s.pushWaits t r.slot r.inv = false ∧ r.tries < s.rd Reg.eph_mgmt_tries t ∧ r.job ≠ .relayAct :=
  ⟨{ ((tEphT tRec).onEph 0 fun e => { e with reqs := [{ tReq with tries := 0 }] }) with now := tAct.rd Reg.eph_resp_timeout_ms 0 * 1000000 }, 0, { tReq with tries := 0 }, (0, 0), by decide +kernel⟩
theorem witness_downRsp : ∃ (s : State) (t : TileId) (p : Fin 2) (frame : Bytes) (m : LinkIn) (e : Sess) (f : Frame), (s.linkRx t p frame).2 = some m ∧ m.type = 0x13 ∧ m.sess.bind (Tbl.get ((s.linkRx t p frame).1.sw t).sess) = some e ∧ f = { source := p, addrKind := 0, satId := e.sat, forceOld := false, rfSecured := false, entry := 0, addr := fld m.payload 0 8, arrival := (s.linkRx t p frame).1.arrivalAt t p, envSeq := 0, aad := [], apdu := m.payload.drop 12, env := 0 } :=
  ⟨((tEphT { tKeyed with satId := 4 }).onEph 0 fun e => { e with reqs := [tReq] }).onSw 0 fun w => { w with port := [2, 0], sess := [(0, tSess)], nextSess := 2 }, 0, 0, tDownFrame, { type := 0x13, mac := [2, 0, 0, 0, 0, 9], sess := some 0, payload := natLE 8 7 ++ [0, 0, 0, 0] ++ [1, 2] }, { tSess with rx := 1, gotNs := (((tEphT { tKeyed with satId := 4 }).onEph 0 fun e => { e with reqs := [tReq] }).onSw 0 fun w => { w with port := [2, 0], sess := [(0, tSess)], nextSess := 2 }).arrivalAt 0 0 }, { source := 0, addrKind := 0, satId := 4, forceOld := false, rfSecured := false, entry := 0, addr := 7, arrival := (((((tEphT { tKeyed with satId := 4 }).onEph 0 fun e => { e with reqs := [tReq] }).onSw 0 fun w => { w with port := [2, 0], sess := [(0, tSess)], nextSess := 2 }).linkRx 0 0 tDownFrame).1.arrivalAt 0 0), envSeq := 0, aad := [], apdu := [1, 2], env := 0 }, by decide +kernel⟩
theorem witness_meterClockCheck_1 : ∃ (s : State) (t : TileId) (slot : Nat), s.serves t = true ∧ s.rd Reg.time_meter_set_enable t = 1 ∧ (s.meter t slot).state = 1 ∧ (s.meter t slot).path ≤ 2 ∧ s.hasTime t = true ∧ (s.eclock t slot).nextAt ≠ 0 ∧ (s.eclock t slot).nextAt ≤ s.now ∧ s.asking t slot EJob.isClock = false ∧ s.rd Reg.time_meter_checks t + 1 < Reg.time_meter_checks.span :=
  ⟨{ (tEphT tRec).onEClock 0 5 fun c => { c with nextAt := 5 } with now := 5 }, 0, 5, by decide +kernel⟩
theorem witness_ephDownlinkApdu_2 : ∃ (s : State) (y : State) (z : State) (w : State) (t : TileId) (r : EReq) (apdu : Bytes) (body : Bytes), s.serves t = true ∧ (List.range 4).findSome? (fun k => ((s.eph t).reqs.filter fun q => q.sent.isNone).find? fun q => decide (q.kind = k) && (decide (s.icState t q.slot ≠ .wait) && s.mayPush t q && !s.unsound t q.slot)) = some r ∧ (s.meter t r.slot).state = 1 ∧ s.icState t r.slot = .ready ∧ body = (if r.job = .clockSet then s.clockSetting t (s.timeNs t + pathDelay (s.eclock t r.slot).trips) r.inv else r.body) ∧ s.sealDown t r.slot body = (y, some apdu) ∧ z = (y.onEph t fun e => { e with reqs := e.reqs.map fun q => if q.slot = r.slot ∧ q.inv = r.inv then { q with sent := some (s.now, s.timeNs t), tries := q.tries + 1, via := (s.satSess t (s.meter t r.slot).satId).map fun x => x.value } else q }) ∧ w = (if r.job = .clockSet then z.onEClock t r.slot fun c => { c with setAt := s.timeNs t + pathDelay (s.eclock t r.slot).trips } else z) :=
  ⟨tAsk, (tAsk.sealDown 0 5 [0xC0]).1, tAsked, tAsked, 0, { tReq with sent := none }, (tAsk.sealDown 0 5 [0xC0]).2.getD [], [0xC0], (by and_intros <;> first | decide +kernel | rfl)⟩
theorem witness_responseTimeout_2 : ∃ (s : State) (t : TileId) (slot : Nat) (inv : Nat) (r : EReq) (a : Nat × Int), (s.eph t).reqs.find? (fun q => decide (q.slot = slot) && decide (q.inv = inv)) = some r ∧ r.sent = some a ∧ a.1 + s.rd Reg.eph_resp_timeout_ms t * 1000000 ≤ s.now ∧ s.pushWaits t slot inv = false ∧ (s.rd Reg.eph_mgmt_tries t ≤ r.tries ∨ r.job = .relayAct) :=
  ⟨{ ((tEphT tRec).onEph 0 fun e => { e with reqs := [{ tReq with tries := 99 }] }) with now := tAct.rd Reg.eph_resp_timeout_ms 0 * 1000000 }, 0, 5, 8, { tReq with tries := 99 }, (0, 0), by decide +kernel⟩
theorem witness_responseTimeout_3 : ∃ (s : State) (t : TileId) (slot : Nat) (inv : Nat) (r : EReq) (a : Nat × Int), (s.eph t).reqs.find? (fun q => decide (q.slot = slot) && decide (q.inv = inv)) = some r ∧ r.sent = some a ∧ a.1 + s.rd Reg.eph_resp_timeout_ms t * 1000000 ≤ s.now ∧ s.pushWaits t slot inv = false ∧ r.tries < s.rd Reg.eph_mgmt_tries t ∧ r.job ≠ .relayAct :=
  ⟨{ ((tEphT tRec).onEph 0 fun e => { e with reqs := [{ tReq with tries := 0 }, { tReq with inv := 9 }] }) with now := tAct.rd Reg.eph_resp_timeout_ms 0 * 1000000 }, 0, 5, 8, { tReq with tries := 0 }, (0, 0), by decide +kernel⟩
theorem witness_meterClockCheck_2 : ∃ (s : State) (t : TileId) (slot : Nat), s.serves t = true ∧ s.rd Reg.time_meter_set_enable t = 1 ∧ (s.meter t slot).state = 1 ∧ (s.meter t slot).path ≤ 2 ∧ s.hasTime t = true ∧ (s.eclock t slot).nextAt = 0 :=
  ⟨tEphT tRec, 0, 5, by decide +kernel⟩
theorem run_get (v : Byte) (n j : Nat) : ∀ s, s ≤ j → j < s + n → Tbl.get ((List.range' s n).map fun k => (k, v)) j = some v := by
  induction n with
  | zero => intro s h1 h2; omega
  | succ n ih =>
    intro s h1 h2
    rw [List.range'_succ, List.map_cons, Tbl.get]
    split
    · rfl
    · exact ih (s + 1) (by omega) (by omega)
theorem run_read (d : Nat → Byte) (c : Byte) (n j : Nat) (h : 4 ≤ j) (h' : j < 4 + n) :
    Cells.read d ((0, c) :: (List.range' 4 n).map fun k => (k, 0xFF)) j = 0xFF := by
  rw [Cells.read, Tbl.get, if_neg (by omega), run_get 0xFF n j 4 h h']
  rfl
theorem run_field (s : State) (e : Entry) (c : Byte) (n i : Nat) (hc : s.cells e 0 0 = (0, c) :: (List.range' 4 n).map fun k => (k, 0xFF))
    (h : 1 ≤ i) (h' : 4 * i ≤ n) : s.rdF e 0 (4 * i) 4 = 0xFFFFFFFF := by
  have g : ∀ k < 4, Cells.read (e.dflt.byteAt 0) (s.cells e 0 0) (4 * i + k) = 0xFF := by
    intro k hk
    rw [hc]
    exact run_read _ c n _ (by omega) (by omega)
  rw [State.rdF, State.rdB, show List.range 4 = [0, 1, 2, 3] from rfl]
  simp only [List.map_cons, List.map_nil, g 0 (by omega), g 1 (by omega), g 2 (by omega), g 3 (by omega)]
  decide
theorem run_list (f : Nat → Nat) (n : Nat) (h0 : f 0 = 5) (h : ∀ i, 1 ≤ i → i < n + 1 → f i = 0xFFFFFFFF) :
    ((List.range (n + 1)).map f).filter (· != 0xFFFFFFFF) = [5] := by
  have hr : (List.range (n + 1)).map f = 5 :: List.replicate n 0xFFFFFFFF := by
    rw [List.range_eq_range', List.range'_succ, List.map_cons, h0]
    congr 1
    rw [List.eq_replicate_iff]
    refine ⟨by simp, ?_⟩
    intro b hb
    obtain ⟨i, hi, rfl⟩ := List.mem_map.mp hb
    rw [List.mem_range'_1] at hi
    exact h i (by omega) (by omega)
  rw [hr]
  simp
theorem tMembers_cells : tMembers.cells Reg.eph_push_members 0 0 = (0, 5) :: tRun := by decide +kernel
theorem tMembers_only : ((List.range 256).map fun i => tMembers.rdF Reg.eph_push_members 0 (4 * i) 4).filter (· != 0xFFFFFFFF) = [5] :=
  run_list _ 255 (by decide +kernel) fun i (h : 1 ≤ i) (h' : i < 256) => run_field tMembers _ 5 1020 i tMembers_cells h (by omega)
theorem witness_pushLoad_1 : ∃ (s : State) (t : TileId), s.serves t = true ∧ s.campState t ≠ 2 ∧ s.campState t ≠ 3 ∧ s.campState t ≠ 4 ∧ campOk (s.rdAll Reg.eph_push_stage t) = true ∧ Crypto.sha256 (s.rdB Reg.eph_image t 0 (campSize (s.rdAll Reg.eph_push_stage t))) = ((s.rdAll Reg.eph_push_stage t).drop 0x40).take 32 :=
  ⟨tAct.wrB Reg.eph_push_stage 0 0 tCamp, 0, by decide +kernel⟩
theorem witness_pushStart_1 : ∃ (s : State) (t : TileId) (i : Nat) (r : List Nat), s.serves t = true ∧ (s.campState t = 1 ∨ s.campState t = 3) ∧ (s.wrM Reg.eph_push_state t 2).openMembers t = i :: r :=
  ⟨tPush 1 1, 0, 5, [], by decide +kernel⟩
theorem witness_pushPause : ∃ (s : State) (t : TileId), s.serves t = true ∧ s.campState t = 2 :=
  ⟨tPush 2 1, 0, by decide +kernel⟩
theorem witness_pushActivate_1 : ∃ (s : State) (t : TileId), s.serves t = true ∧ s.campState t = 2 ∧ (∀ i ∈ s.members t, (s.meter t i).pushState % 16 ≠ 5) :=
  ⟨tPush 2 6, 0, by decide +kernel⟩
theorem witness_pushCancel_1 : ∃ (s : State) (t : TileId), s.serves t = true ∧ s.campState t = 2 ∧ ((∀ i ∈ s.members t, (s.meter t i).pushState % 16 = 7 ∨ (s.meter t i).pushState % 16 = 8)) :=
  ⟨tPush 2 7, 0, by decide +kernel⟩
theorem witness_pushAdd_1 : ∃ (s : State) (t : TileId) (m : Nat), s.serves t = true ∧ s.campState t = 1 ∧ ((List.range 256).map fun i => s.rdF Reg.eph_push_members t (4 * i) 4).filter (· != 0xFFFFFFFF) = [m] ∧ s.ownMidx t m = true ∧ (s.meter t (midxSlot m)).state = 1 ∧ bit (s.clsFlags t (s.meter t (midxSlot m)).cls) 3 = true ∧ (s.meter t (midxSlot m)).pushState % 16 = 0 :=
  ⟨tMembers, 0, 5, ⟨by decide +kernel, by decide +kernel, tMembers_only, by decide +kernel, by decide +kernel, by decide +kernel, by decide +kernel⟩⟩
theorem witness_pushLoad_2 : ∃ (s : State) (t : TileId), s.serves t = true ∧ s.campState t = 4 ∧ campOk (s.rdAll Reg.eph_push_stage t) = true ∧ Crypto.sha256 (s.rdB Reg.eph_image t 0 (campSize (s.rdAll Reg.eph_push_stage t))) = ((s.rdAll Reg.eph_push_stage t).drop 0x40).take 32 ∧ (s.campaign t).drop 0x40 = (s.rdAll Reg.eph_push_stage t).drop 0x40 :=
  ⟨tNoImg, 0, by decide +kernel⟩
theorem witness_pushStart_2 : ∃ (s : State) (t : TileId), s.serves t = true ∧ (s.campState t = 1 ∨ s.campState t = 3) :=
  ⟨tPush 3 7, 0, by decide +kernel⟩
theorem witness_pushActivate_2 : ∃ (s : State) (t : TileId), s.serves t = true ∧ s.campState t = 2 :=
  ⟨tPush 2 5, 0, by decide +kernel⟩
theorem witness_pushCancel_2 : ∃ (s : State) (t : TileId), s.serves t = true ∧ 1 ≤ s.campState t ∧ s.campState t ≤ 4 :=
  ⟨tPush 2 5, 0, by decide +kernel⟩
theorem witness_pushAdd_2 : ∃ (s : State) (t : TileId) (m : Nat), s.serves t = true ∧ 1 ≤ s.campState t ∧ s.campState t ≤ 3 ∧ ((List.range 256).map fun i => s.rdF Reg.eph_push_members t (4 * i) 4).filter (· != 0xFFFFFFFF) = [m] ∧ s.ownMidx t m = true ∧ (s.meter t (midxSlot m)).state = 1 ∧ bit (s.clsFlags t (s.meter t (midxSlot m)).cls) 3 = true ∧ [0, 7, 8, 9].contains ((s.meter t (midxSlot m)).pushState % 16) = true :=
  ⟨tMembers, 0, 5, ⟨by decide +kernel, by decide +kernel, by decide +kernel, tMembers_only, by decide +kernel, by decide +kernel, by decide +kernel, by decide +kernel⟩⟩
theorem witness_calendarPush_1 : ∃ (s : State) (t : TileId) (slot : Nat), s.serves t = true ∧ s.rd Reg.eph_cal_push_enable t = 1 ∧ s.calMeter t (s.meter t slot) = true ∧ (s.meter t slot).calVersion ≠ s.rd Reg.eph_cal_version t ∧ s.asking t slot EJob.isCal = false ∧ (Tbl.get (s.eph t).calRetry slot) = none ∧ Tbl.get (s.eph t).cal slot = none :=
  ⟨(tEphT tRec).wr Reg.eph_cal_version 0 3, 0, 5, by decide +kernel⟩
theorem witness_pushMemberStep_1 : ∃ (s : State) (t : TileId) (slot : Nat), s.serves t = true ∧ s.campState t = 2 ∧ (s.members t).contains slot = true ∧ s.asking t slot EJob.isPush = false ∧ (s.member t slot).waitTo ≤ s.now ∧ (s.meter t slot).pushState % 16 = 1 ∧ (s.member t slot).sub = 0 :=
  ⟨tPush 2 1, 0, 5, by decide +kernel⟩
theorem witness_pushMemberStep_2 : ∃ (s : State) (t : TileId) (slot : Nat), s.serves t = true ∧ s.campState t = 2 ∧ (s.members t).contains slot = true ∧ s.asking t slot EJob.isPush = false ∧ (s.member t slot).waitTo ≤ s.now ∧ (s.meter t slot).pushState % 16 = 5 ∧ (s.eph t).activate = true :=
  ⟨(tPush 2 5).onEph 0 fun e => { e with activate := true }, 0, 5, by decide +kernel⟩
theorem witness_multicastRound_1 : ∃ (s : State) (y : State) (t : TileId) (i : Nat) (key : Bytes), s.serves t = true ∧ s.campState t = 2 ∧ (s.eph t).mcastDone = false ∧ s.members t = [i] ∧ (s.meter t i).pushState % 16 = 2 ∧ s.mcastFor t i = true ∧ s.ctrReady t 2 (s.eph t).bcast = true ∧ s.useBayKey t (campKey (s.campaign t)) 1 = (y, some key) ∧ (s.eph t).mcast = none ∧ 1 < campBlocks (s.campaign t) :=
  ⟨(tPush 2 2).onVault 0 fun v => { v with slots := [(20, { key := List.replicate 16 3, bad := false })], blobs := [(blobPlace 2 20, [1, 2, 1, 255, 0, 0, 0, 0, 0, 0, 0, 0])] }, (tPush 2 2).onVault 0 fun v => { v with slots := [(20, { key := List.replicate 16 3, bad := false })], blobs := [(blobPlace 2 20, [1, 2, 1, 255, 0, 0, 0, 0, 0, 0, 0, 0])] }, 0, 5, List.replicate 16 3, by decide +kernel⟩
theorem witness_fillPass_1 : ∃ (s : State) (t : TileId) (slot : Nat) (n : Nat) (r : List Nat), s.serves t = true ∧ s.campState t = 2 ∧ (s.members t).contains slot = true ∧ s.asking t slot EJob.isPush = false ∧ (s.member t slot).waitTo ≤ s.now ∧ (s.meter t slot).pushState % 16 = 3 ∧ (s.member t slot).sub = 1 ∧ (s.member t slot).todo = n :: r :=
  ⟨(tPush 2 3).onMember 0 5 fun m => { m with sub := 1, todo := [1] }, 0, 5, 1, [], by decide +kernel⟩
theorem witness_imageActivateTime : ∃ (s : State) (t : TileId), s.serves t = true ∧ s.campState t = 2 ∧ campActivate (s.campaign t) ≠ 0 ∧ s.hasTime t = true ∧ (campActivate (s.campaign t) : Int) ≤ s.timeNs t :=
  ⟨tPush 2 5, 0, by decide +kernel⟩
theorem witness_activatingTimeout : ∃ (s : State) (t : TileId) (slot : Nat), s.serves t = true ∧ s.campState t = 2 ∧ (s.members t).contains slot = true ∧ (s.meter t slot).pushState % 16 = 6 ∧ (s.member t slot).heard = false ∧ (s.member t slot).actAt + 600 * 1000000000 ≤ s.now :=
  ⟨{ (tPush 2 6) with now := 600000000000 }, 0, 5, by decide +kernel⟩
theorem witness_calendarPush_2 : ∃ (s : State) (t : TileId) (slot : Nat) (k : Nat) (v : Nat), s.serves t = true ∧ s.rd Reg.eph_cal_push_enable t ≠ 0 ∧ s.calMeter t (s.meter t slot) = true ∧ s.rd Reg.eph_cal_version t = v ∧ (s.meter t slot).calVersion ≠ v ∧ s.asking t slot EJob.isCal = false ∧ (Tbl.get (s.eph t).calRetry slot).getD 0 ≤ s.now ∧ Tbl.get (s.eph t).cal slot = some (k, v) :=
  ⟨((tEphT tRec).wr Reg.eph_cal_version 0 3).onEph 0 fun e => { e with cal := [(5, (1, 3))] }, 0, 5, 1, 3, by decide +kernel⟩
theorem witness_pushMemberStep_3 : ∃ (s : State) (t : TileId) (slot : Nat), s.serves t = true ∧ s.campState t = 2 ∧ (s.members t).contains slot = true ∧ s.asking t slot EJob.isPush = false ∧ (s.member t slot).waitTo ≤ s.now ∧ (s.meter t slot).pushState % 16 = 1 ∧ (s.member t slot).sub = 1 :=
  ⟨(tPush 2 1).onMember 0 5 fun m => { m with sub := 1 }, 0, 5, by decide +kernel⟩
theorem witness_pushMemberStep_4 : ∃ (s : State) (t : TileId) (slot : Nat), s.serves t = true ∧ s.campState t = 2 ∧ (s.members t).contains slot = true ∧ s.asking t slot EJob.isPush = false ∧ (s.member t slot).waitTo ≤ s.now ∧ (s.meter t slot).pushState % 16 = 1 ∧ 2 ≤ (s.member t slot).sub :=
  ⟨(tPush 2 1).onMember 0 5 fun m => { m with sub := 2 }, 0, 5, by decide +kernel⟩
theorem witness_pushMemberStep_5 : ∃ (s : State) (t : TileId) (slot : Nat), s.serves t = true ∧ s.campState t = 2 ∧ (s.members t).contains slot = true ∧ s.asking t slot EJob.isPush = false ∧ (s.member t slot).waitTo ≤ s.now ∧ (s.meter t slot).pushState % 16 = 2 ∧ ((s.eph t).mcastDone = true ∨ s.mcastFor t slot = false) :=
  ⟨(tPush 2 2).onEph 0 fun e => { e with mcastDone := true }, 0, 5, by decide +kernel⟩
theorem witness_pushMemberStep_6 : ∃ (s : State) (t : TileId) (slot : Nat), s.serves t = true ∧ s.campState t = 2 ∧ (s.members t).contains slot = true ∧ s.asking t slot EJob.isPush = false ∧ (s.member t slot).waitTo ≤ s.now ∧ (s.meter t slot).pushState % 16 = 4 :=
  ⟨tPush 2 4, 0, 5, by decide +kernel⟩
theorem witness_pushMemberStep_7 : ∃ (s : State) (t : TileId) (slot : Nat), s.serves t = true ∧ s.campState t = 2 ∧ (s.members t).contains slot = true ∧ s.asking t slot EJob.isPush = false ∧ (s.member t slot).waitTo ≤ s.now ∧ (s.meter t slot).pushState % 16 = 6 :=
  ⟨tPush 2 6, 0, 5, by decide +kernel⟩
theorem witness_multicastRound_2 : ∃ (s : State) (y : State) (t : TileId) (key : Bytes) (r : Nat) (k : Nat), s.serves t = true ∧ s.campState t = 2 ∧ (s.eph t).mcastDone = false ∧ (∀ i ∈ s.members t, (s.meter t i).pushState % 16 ≠ 1) ∧ (∃ i ∈ s.members t, (s.meter t i).pushState % 16 = 2 ∧ s.mcastFor t i = true) ∧ s.ctrReady t 2 (s.eph t).bcast = true ∧ s.useBayKey t (campKey (s.campaign t)) 1 = (y, some key) ∧ (s.eph t).mcast.getD (0, 0) = (r, k) :=
  ⟨(tPush 2 2).onVault 0 fun v => { v with slots := [(20, { key := List.replicate 16 3, bad := false })], blobs := [(blobPlace 2 20, [1, 2, 1, 255, 0, 0, 0, 0, 0, 0, 0, 0])] }, (tPush 2 2).onVault 0 fun v => { v with slots := [(20, { key := List.replicate 16 3, bad := false })], blobs := [(blobPlace 2 20, [1, 2, 1, 255, 0, 0, 0, 0, 0, 0, 0, 0])] }, 0, List.replicate 16 3, 0, 0, by decide +kernel⟩
theorem witness_fillPass_2 : ∃ (s : State) (t : TileId) (slot : Nat), s.serves t = true ∧ s.campState t = 2 ∧ (s.members t).contains slot = true ∧ s.asking t slot EJob.isPush = false ∧ (s.member t slot).waitTo ≤ s.now ∧ (s.meter t slot).pushState % 16 = 3 ∧ (s.member t slot).sub = 0 :=
  ⟨tPush 2 3, 0, 5, by decide +kernel⟩
theorem witness_fillPass_3 : ∃ (s : State) (t : TileId) (slot : Nat), s.serves t = true ∧ s.campState t = 2 ∧ (s.members t).contains slot = true ∧ s.asking t slot EJob.isPush = false ∧ (s.member t slot).waitTo ≤ s.now ∧ (s.meter t slot).pushState % 16 = 3 ∧ (s.member t slot).sub ≠ 0 ∧ (s.member t slot).todo = [] :=
  ⟨(tPush 2 3).onMember 0 5 fun m => { m with sub := 1 }, 0, 5, by decide +kernel⟩
theorem witness_plcFrameRx_1 : ∃ (s : State) (y : State) (t : TileId) (p : PlcPhy) (b : Bytes), s.plcRx t p = (y, true) ∧ y.isEphRsp t (plcFrame y t p b) = false ∧ (y.swCount t 3 2 b b.length).plcUnsolicited t (plcFrame y t p b) (p.path.headD 0xFFFF) = false :=
  ⟨plcUp (tIn.setMeter 0 5 tRec), ((plcUp (tIn.setMeter 0 5 tRec)).plcRx 0 tPhy).1, 0, tPhy, [0x0F, 1], by decide +kernel⟩
theorem witness_plcTransmit_1 : ∃ (s : State) (t : TileId), (s.plc t).up = true ∧ (s.plc t).busy = none ∧ s.pier.pfail = false :=
  ⟨plcUp tAct, 0, by decide +kernel⟩
theorem witness_plcTransmit_2 : ∃ (s : State) (t : TileId) (b : PBusy), (s.plc t).up = true ∧ (s.plc t).busy = some b ∧ b.step = 1 ∧ b.at_ + 50000 ≤ s.now ∧ s.pier.pfail = false :=
  ⟨{ (plcUp (tAct.onPlc 0 fun p => { p with busy := some (tBusy 1) })) with now := 50000 }, 0, tBusy 1, by decide +kernel⟩
theorem witness_plcTransmit_3 : ∃ (s : State) (t : TileId) (b : PBusy), (s.plc t).up = true ∧ (s.plc t).busy = some b ∧ b.step = 2 ∧ b.at_ + b.lead + b.dur + 10000 ≤ s.now :=
  ⟨{ (plcUp (tAct.onPlc 0 fun p => { p with busy := some (tBusy 2) })) with now := 11000 + tAct.rd Reg.plc_txen_lead_us 0 * 1000 }, 0, tBusy 2, by decide +kernel⟩
theorem witness_plcTransmit_4 : ∃ (s : State) (t : TileId) (b : PBusy), (s.plc t).up = true ∧ (s.plc t).busy = some b ∧ b.step = 3 ∧ b.at_ + 50000 ≤ s.now :=
  ⟨{ (plcUp (tAct.onPlc 0 fun p => { p with busy := some (tBusy 3) })) with now := 50000 }, 0, tBusy 3, by decide +kernel⟩
theorem witness_zcEdge_1 : ∃ (s : State) (t : TileId) (e : Nat) (l : List Nat), (s.plc t).up = true ∧ (s.plc t).zc = e :: l ∧ (∀ e' ∈ (s.plc t).zc, e' + 2000000 ≤ s.now) ∧ 15385000 ≤ s.now - e ∧ s.now - e ≤ 22222000 ∧ 7 ≤ (s.plc t).zcRun :=
  ⟨{ (plcUp (tAct.onPlc 0 fun p => { p with zc := [20000000], zcRun := 7 })) with now := 40000000 }, 0, 20000000, [], by decide +kernel⟩
theorem witness_zcLost_1 : ∃ (s : State) (t : TileId) (e : Nat) (l : List Nat), (s.plc t).zc = e :: l ∧ e + 25000000 ≤ s.now ∧ (s.plc t).valid = true :=
  ⟨{ (plcUp (tAct.onPlc 0 fun p => { p with zc := [20000000], valid := true })) with now := 45000000 }, 0, 20000000, [], by decide +kernel⟩
theorem witness_mapSetDrop : ∃ (s : State) (t : TileId) (a : Nat) (d : Nat) (n : PNeigh), Tbl.get (s.plc t).neigh a = some n ∧ n.dropAt = some d ∧ d ≤ s.now :=
  ⟨plcUp (tAct.onPlc 0 fun p => { p with neigh := [(5, { tNeigh with rxPrev := some tSet, dropAt := some 0 })] }), 0, 5, 0, { tNeigh with rxPrev := some tSet, dropAt := some 0 }, by decide +kernel⟩
theorem witness_plcFrameRx_2 : ∃ (s : State) (y : State) (t : TileId) (p : PlcPhy) (b : Bytes), s.plcRx t p = (y, true) ∧ y.isEphRsp t (plcFrame y t p b) = true :=
  ⟨tPlcAns, (tPlcAns.plcRx 0 tPhy).1, 0, tPhy, tAnswer.apdu, by decide +kernel⟩
theorem witness_plcFrameRx_3 : ∃ (s : State) (y : State) (t : TileId) (p : PlcPhy) (b : Bytes), s.plcRx t p = (y, true) ∧ y.isEphRsp t (plcFrame y t p b) = false ∧ (y.swCount t 3 2 b b.length).plcUnsolicited t (plcFrame y t p b) (p.path.headD 0xFFFF) = true :=
  ⟨(plcUp tIn).wr Reg.plc_mode_now 0 1, (((plcUp tIn).wr Reg.plc_mode_now 0 1).plcRx 0 tPhy).1, 0, tPhy, [0x0F, 1], by decide +kernel⟩
theorem witness_plcFrameRx_4 : ∃ (s : State) (y : State) (t : TileId) (p : PlcPhy), s.plcRx t p = (y, false) :=
  ⟨plcUp tAct, ((plcUp tAct).plcRx 0 { tPhy with micOk := false }).1, 0, { tPhy with micOk := false }, by decide +kernel⟩
theorem witness_zcEdge_2 : ∃ (s : State) (t : TileId), (s.plc t).up = true ∧ (s.plc t).zc = [] :=
  ⟨{ plcUp tAct with now := 7 }, 0, by decide +kernel⟩
theorem witness_zcEdge_3 : ∃ (s : State) (t : TileId) (e : Nat) (l : List Nat), (s.plc t).up = true ∧ (s.plc t).zc = e :: l ∧ (∀ e' ∈ (s.plc t).zc, e' + 2000000 ≤ s.now) ∧ 15385000 ≤ s.now - e ∧ s.now - e ≤ 22222000 ∧ (s.plc t).zcRun < 7 :=
  ⟨{ (plcUp (tAct.onPlc 0 fun p => { p with zc := [20000000], zcRun := 3 })) with now := 40000000 }, 0, 20000000, [], by decide +kernel⟩
theorem witness_zcEdge_4 : ∃ (s : State) (t : TileId) (e : Nat) (l : List Nat), (s.plc t).up = true ∧ (s.plc t).zc = e :: l ∧ (∀ e' ∈ (s.plc t).zc, e' + 2000000 ≤ s.now) ∧ (s.now - e < 15385000 ∨ 22222000 < s.now - e) :=
  ⟨{ (plcUp (tAct.onPlc 0 fun p => { p with zc := [20000000], zcRun := 9, valid := true })) with now := 42222001 }, 0, 20000000, [], by decide +kernel⟩
theorem witness_zcLost_2 : ∃ (s : State) (t : TileId) (e : Nat) (l : List Nat), (s.plc t).zc = e :: l ∧ e + 25000000 ≤ s.now ∧ (s.plc t).valid = false :=
  ⟨{ (plcUp (tAct.onPlc 0 fun p => { p with zc := [20000000], zcRun := 3 })) with now := 45000000 }, 0, 20000000, [], by decide +kernel⟩
theorem witness_join_1 : ∃ (s : State) (y : State) (t : TileId) (eui : Nat) (midx : Nat) (psk : Bytes), (s.plc t).up = true ∧ s.rd Reg.plc_mode_now t = 0 ∧ (s.vol t).meters.lookup 1 eui = some midx ∧ (s.meter t (midxSlot midx)).state = 1 ∧ (s.meter t (midxSlot midx)).path = 0 ∧ s.takePsk t eui = (y, some psk) ∧ (s.plc t).joined.length < 512 ∧ ((s.plc t).joined.any fun e => decide (e.2 = eui)) = false :=
  ⟨tJoin, (tJoin.takePsk 0 8).1, 0, 8, 5, (tJoin.takePsk 0 8).2.getD [], by decide +kernel⟩
theorem witness_plcModeSwitch : ∃ (s : State) (t : TileId), (s.plc t).up = true :=
  ⟨plcUp tAct, 0, by decide +kernel⟩
theorem witness_pollCycleStart : ∃ (s : State) (y : State) (t : TileId) (n : Nat) (sec : Nat) (at_ : Nat) (total : Nat), (s.plc t).up = true ∧ s.rd Reg.plc_mode_now t = 1 ∧ s.rd Reg.plc_poll_cycle_s t = n ∧ 1 ≤ n ∧ s.gridDue t n (s.vol t).mer.pollSec = some sec ∧ at_ = (if sec = s.timeSec t then s.now - (s.timeNs t % 1000000000).toNat else s.now) ∧ (s.plc t).pend = none ∧ total = n * 1000 / s.plcSlotMs t ∧ y = (s.onMer t fun m => { m with pollSec := sec }).onPlc t (fun p => { p with joinEvery := 1000 / max (s.rd Reg.plc_join_share t) 1, cycleS := n }) :=
  ⟨(((plcUp (tAct.onVol 0 fun v => { v with mer := { v.mer with baseTime := 937000000000 } })).wr Reg.time_state 0 2).wr Reg.plc_mode_now 0 1), ((((plcUp (tAct.onVol 0 fun v => { v with mer := { v.mer with baseTime := 937000000000 } })).wr Reg.time_state 0 2).wr Reg.plc_mode_now 0 1).onMer 0 fun m => { m with pollSec := 937 }).onPlc 0 (fun p => { p with joinEvery := 1000 / max ((((plcUp (tAct.onVol 0 fun v => { v with mer := { v.mer with baseTime := 937000000000 } })).wr Reg.time_state 0 2).wr Reg.plc_mode_now 0 1).rd Reg.plc_join_share 0) 1, cycleS := 900 }), 0, 900, 937, (((plcUp (tAct.onVol 0 fun v => { v with mer := { v.mer with baseTime := 937000000000 } })).wr Reg.time_state 0 2).wr Reg.plc_mode_now 0 1).now, 900 * 1000 / (((plcUp (tAct.onVol 0 fun v => { v with mer := { v.mer with baseTime := 937000000000 } })).wr Reg.time_state 0 2).wr Reg.plc_mode_now 0 1).plcSlotMs 0, (by and_intros <;> first | with_reducible rfl | decide +kernel)⟩
theorem witness_collectionRequest_1 : ∃ (s : State) (t : TileId) (slot : Nat) (q : Nat × Nat × Bool), (s.plc t).up = true ∧ s.hasTime t = true ∧ s.rd Reg.plc_mode_now t = 0 ∧ (s.meter t slot).state = 1 ∧ (s.meter t slot).path = 0 ∧ (s.meter t slot).shortAddr ≠ 0xFFFF ∧ (s.meter t slot).idur ≠ 0 ∧ (s.meter t slot).lastTend + (s.meter t slot).idur + s.rd Reg.plc_pull_after_s t ≤ s.timeSec t ∧ s.collectWhat t (s.plc t).collect slot (s.rd Reg.plc_rows_per_request t) (decide (s.rd Reg.plc_fill_holes t = 1)) true false = some q :=
  ⟨plcUp ((tEphT { tKeyed with shortAddr := 5, idur := 900 }).onVol 0 fun v => { v with mer := { v.mer with baseTime := 9370000000000 } }), 0, 5, (900, 7200, false), by decide +kernel⟩
theorem witness_cycleBeacon_1 : ∃ (s : State) (t : TileId), (s.plc t).up = true ∧ s.rd Reg.plc_mode_now t = 0 ∧ (s.plc t).beaconAt = none ∧ (s.plc t).pend = none :=
  ⟨plcUp tAct, 0, by decide +kernel⟩
theorem witness_routeRecompute : ∃ (s : State) (t : TileId), (s.plc t).up = true ∧ (s.plc t).routeAt + 600 * 1000000000 ≤ s.now :=
  ⟨{ (plcUp tAct) with now := 600000000000 }, 0, by decide +kernel⟩
theorem witness_phaseQuery : ∃ (s : State) (t : TileId), (s.plc t).up = true ∧ (s.plc t).queryAt ≤ s.now :=
  ⟨plcUp tAct, 0, by decide +kernel⟩
theorem witness_join_2 : ∃ (s : State) (t : TileId) (eui : Nat), (s.plc t).up = true ∧ s.rd Reg.plc_mode_now t = 0 ∧ (s.vol t).meters.lookup 1 eui = none ∧ s.repeaterShort t eui = none :=
  ⟨plcUp tAct, 0, 9, by decide +kernel⟩
theorem witness_collectionRequest_2 : ∃ (s : State) (t : TileId) (slot : Nat) (q : Nat × Nat × Bool), (s.plc t).up = true ∧ s.hasTime t = true ∧ s.rd Reg.plc_mode_now t = 1 ∧ (s.meter t slot).state = 1 ∧ (s.meter t slot).path = 0 ∧ (s.meter t slot).shortAddr ≠ 0xFFFF ∧ (s.meter t slot).idur ≠ 0 ∧ s.plcDue t (s.meter t slot) = true ∧ ((s.plc t).sched.any fun e => decide (e.2.2 = slot) && (s.plcSlot t).any fun j => decide (e.1 ≤ j)) = true ∧ s.collectWhat t (s.plc t).collect slot (s.rd Reg.plc_rows_per_request t) (decide (s.rd Reg.plc_fill_holes t = 1)) true false = some q :=
  ⟨tPolled, 0, 5, (900, 7200, false), by decide +kernel⟩
theorem witness_cycleBeacon_2 : ∃ (s : State) (t : TileId) (a : Nat), (s.plc t).up = true ∧ s.rd Reg.plc_mode_now t = 0 ∧ (s.plc t).beaconAt = some a ∧ a + s.rd Reg.plc_beacon_period_s t * 1000000000 ≤ s.now ∧ (s.plc t).pend = none :=
  ⟨{ (plcUp (tAct.onPlc 0 fun p => { p with beaconAt := some 0 })) with now := tAct.rd Reg.plc_beacon_period_s 0 * 1000000000 }, 0, 0, by decide +kernel⟩
theorem witness_cycleBeacon_3 : ∃ (s : State) (t : TileId) (c : Nat × Nat × Nat × Nat) (j : Nat), (s.plc t).up = true ∧ s.rd Reg.plc_mode_now t = 1 ∧ (s.plc t).cycle = some c ∧ s.plcSlot t = some j ∧ s.joinSlot t j = true ∧ (s.plc t).beaconSlot ≠ some (c.2.2.2, j) :=
  ⟨tPolled, 0, (0, 10, 1000000000, 0), 0, by decide +kernel⟩
theorem witness_cap_1 : ∃ (s : State) (y : State) (t : TileId) (p : PlcPhy) (a : Nat) (b : Bytes), s.plcRx t p = (y, true) ∧ p.path.headD 0xFFFF = a ∧ b.length = 8 ∧ fld b 0 1 = 1 ∧ Tbl.get (y.plc t).caps a = none :=
  ⟨plcUp tAct, ((plcUp tAct).plcRx 0 tPhy).1, 0, tPhy, 5, [1, 7, 6, 3, 1, 1, 0, 0], by decide +kernel⟩
theorem witness_mapReq_1 : ∃ (s : State) (y : State) (t : TileId) (p : PlcPhy) (a : Nat) (n : PNeigh) (m : MapSet) (b : Bytes), s.plcRx t p = (y, true) ∧ p.path.headD 0xFFFF = a ∧ b.length = 2 ∧ fld b 0 1 = 1 ∧ y.rd Reg.plc_ext_enable t ≠ 0 ∧ Tbl.get (y.plc t).neigh a = some n ∧ n.rxCur = some m :=
  ⟨tPlc, (tPlc.plcRx 0 tPhy).1, 0, tPhy, 5, { tNeigh with cost := 9 }, tSet, [1, 0], by decide +kernel⟩
theorem witness_mapRsp_1 : ∃ (s : State) (y : State) (t : TileId) (p : PlcPhy) (a : Nat) (n : PNeigh) (m : MapSet) (b : Bytes), s.plcRx t p = (y, true) ∧ p.path.headD 0xFFFF = a ∧ mapRspOf (y.plcBand t) 6 b = some m ∧ Tbl.get (y.plc t).neigh a = some n :=
  ⟨tPlc, (tPlc.plcRx 0 tPhy).1, 0, tPhy, 5, { tNeigh with cost := 9 }, tSet, tSet.bytes, by decide +kernel⟩
theorem witness_mapRefresh_1 : ∃ (s : State) (t : TileId) (a : Nat) (n : PNeigh) (c : PCap), (s.plc t).up = true ∧ Tbl.get (s.plc t).neigh a = some n ∧ Tbl.get (s.plc t).caps a = some c ∧ bit c.caps 0 = true ∧ bit c.bands (s.plcBand t) = true ∧ s.rd Reg.plc_ext_enable t ≠ 0 ∧ n.snr ≠ [] ∧ n.rxCur = none :=
  ⟨plcUp (tAct.onPlc 0 fun p => { p with neigh := [(5, { PNeigh.new 8 1 0 with snr := [List.replicate 6 (List.replicate 36 100)] })], caps := [(5, { caps := 1, maxMaps := 2, bands := 3, epoch := 0, zc := true })] }), 0, 5, { PNeigh.new 8 1 0 with snr := [List.replicate 6 (List.replicate 36 100)] }, { caps := 1, maxMaps := 2, bands := 3, epoch := 0, zc := true }, by decide +kernel⟩
theorem witness_neighReport_1 : ∃ (s : State) (y : State) (t : TileId) (p : PlcPhy) (a : Nat) (n : Nat × PNeigh) (l : Tbl PNeigh), s.plcRx t p = (y, true) ∧ p.path.headD 0xFFFF = a ∧ (y.plc t).neigh = n :: l :=
  ⟨tPlc, (tPlc.plcRx 0 tPhy).1, 0, tPhy, 5, (5, { tNeigh with cost := 9 }), [], by decide +kernel⟩
theorem witness_neighReport_2 : ∃ (s : State) (y : State) (t : TileId) (p : PlcPhy) (a : Nat) (e : Bytes), s.plcRx t p = (y, true) ∧ p.path.headD 0xFFFF = a ∧ e.length = 8 :=
  ⟨tPlc, (tPlc.plcRx 0 tPhy).1, 0, tPhy, 5, [6, 0, 9, 255, 88, 2, 4, 0], by decide +kernel⟩
theorem witness_cap_2 : ∃ (s : State) (y : State) (t : TileId) (p : PlcPhy) (a : Nat) (o : PCap) (b : Bytes), s.plcRx t p = (y, true) ∧ p.path.headD 0xFFFF = a ∧ b.length = 8 ∧ fld b 0 1 = 1 ∧ Tbl.get (y.plc t).caps a = some o ∧ o.epoch = fld b 4 1 :=
  ⟨tPlcCap, (tPlcCap.plcRx 0 tPhy).1, 0, tPhy, 5, tCap, [1, 7, 6, 3, 1, 1, 0, 0], by decide +kernel⟩
theorem witness_cap_3 : ∃ (s : State) (y : State) (t : TileId) (p : PlcPhy) (a : Nat) (o : PCap) (n : PNeigh) (b : Bytes), s.plcRx t p = (y, true) ∧ p.path.headD 0xFFFF = a ∧ b.length = 8 ∧ fld b 0 1 = 1 ∧ Tbl.get (y.plc t).caps a = some o ∧ o.epoch ≠ fld b 4 1 ∧ Tbl.get (y.plc t).neigh a = some n :=
  ⟨tPlcCap, (tPlcCap.plcRx 0 tPhy).1, 0, tPhy, 5, tCap, { tNeigh with cost := 9 }, [1, 7, 6, 3, 2, 1, 0, 0], by decide +kernel⟩
theorem witness_mapReq_2 : ∃ (s : State) (y : State) (t : TileId) (p : PlcPhy) (a : Nat) (n : PNeigh) (b : Bytes), s.plcRx t p = (y, true) ∧ p.path.headD 0xFFFF = a ∧ b.length = 2 ∧ fld b 0 1 = 1 ∧ y.rd Reg.plc_ext_enable t ≠ 0 ∧ Tbl.get (y.plc t).neigh a = some n ∧ n.rxCur = none :=
  ⟨tPlcNew, (tPlcNew.plcRx 0 tPhy).1, 0, tPhy, 5, { PNeigh.new 8 1 0 with cost := 9 }, [1, 0], by decide +kernel⟩
theorem witness_mapRsp_2 : ∃ (s : State) (y : State) (t : TileId) (p : PlcPhy) (b : Bytes), s.plcRx t p = (y, true) ∧ mapRspOf (y.plcBand t) 6 b = none :=
  ⟨tPlc, (tPlc.plcRx 0 tPhy).1, 0, tPhy, [9], by decide +kernel⟩
theorem witness_mapRefresh_2 : ∃ (s : State) (t : TileId) (a : Nat) (n : PNeigh) (c : PCap), (s.plc t).up = true ∧ Tbl.get (s.plc t).neigh a = some n ∧ Tbl.get (s.plc t).caps a = some c ∧ bit c.caps 0 = true ∧ bit c.bands (s.plcBand t) = true ∧ s.rd Reg.plc_ext_enable t ≠ 0 ∧ n.snr ≠ [] ∧ n.rxAt + s.rd Reg.plc_map_refresh_s t * 1000000000 ≤ s.now :=
  ⟨{ (plcUp (tAct.onPlc 0 fun p => { p with neigh := [(5, { tNeigh with snr := [List.replicate 6 (List.replicate 36 100)] })], caps := [(5, tCap)] })) with now := tAct.rd Reg.plc_map_refresh_s 0 * 1000000000 }, 0, 5, { tNeigh with snr := [List.replicate 6 (List.replicate 36 100)] }, tCap, by decide +kernel⟩
theorem witness_neighReport_3 : ∃ (s : State) (y : State) (t : TileId) (p : PlcPhy) (n : Nat) (e : Bytes), s.plcRx t p = (y, true) ∧ 1 ≤ n ∧ n ≤ 16 ∧ e.length = 8 * n :=
  ⟨tPlc, (tPlc.plcRx 0 tPhy).1, 0, tPhy, 2, [6, 0, 9, 255, 88, 2, 4, 0, 7, 0, 9, 255, 88, 2, 4, 0], by decide +kernel⟩
theorem witness_rfFrameRx_1 : ∃ (s : State) (y : State) (t : TileId) (ch : Nat) (psdu : Bytes) (m : RfIn) (until_ : Nat) (slot : Nat) (p : RPend), s.rfRx t ch psdu = (y, some m) ∧ m.type = 2 ∧ (y.rf t).wait = some (m.seq, until_, slot, p) ∧ y.now ≤ until_ :=
  ⟨tAcked, (tAcked.rfRx 0 tChan tAckPsdu).1, 0, tChan, tAckPsdu, ((tAcked.rfRx 0 tChan tAckPsdu).2.getD { type := 0, sec := false, ar := false, bcast := false, seq := 0, src := 0, mhr := [], body := [] }), 0, 5, tPend, by decide +kernel⟩
theorem witness_rfFrameRx_2 : ∃ (s : State) (y : State) (t : TileId) (ch : Nat) (psdu : Bytes) (m : RfIn) (f : Frame), s.rfRx t ch psdu = (y, some m) ∧ m.type = 1 ∧ m.ar = false ∧ y.rfMeter t m.src = none ∧ f = { source := 4, addrKind := 1, satId := 0xFFFF, forceOld := false, rfSecured := m.sec, entry := 0, addr := m.src, arrival := y.whenNs t - (2 + psdu.length) * 8 * 1000000000 / rfBitRate (y.vol t).radio.rate, envSeq := 0, aad := if m.sec then m.mhr else [], apdu := m.body, env := 0 } ∧ y.isEphRsp t f = false :=
  ⟨tRf { tRec with state := 2 }, ((tRf { tRec with state := 2 }).rfRx 0 tChan (rfFrame tAct (rfControl 1 false false false) [0x0F, 1])).1, 0, tChan, rfFrame tAct (rfControl 1 false false false) [0x0F, 1], (((tRf { tRec with state := 2 }).rfRx 0 tChan (rfFrame tAct (rfControl 1 false false false) [0x0F, 1])).2.getD { type := 0, sec := false, ar := false, bcast := false, seq := 0, src := 0, mhr := [], body := [] }), { source := 4, addrKind := 1, satId := 0xFFFF, forceOld := false, rfSecured := false, entry := 0, addr := 8, arrival := (((tRf { tRec with state := 2 }).rfRx 0 tChan (rfFrame tAct (rfControl 1 false false false) [0x0F, 1])).1.whenNs 0 - (2 + (rfFrame tAct (rfControl 1 false false false) [0x0F, 1]).length) * 8 * 1000000000 / rfBitRate (((tRf { tRec with state := 2 }).rfRx 0 tChan (rfFrame tAct (rfControl 1 false false false) [0x0F, 1])).1.vol 0).radio.rate), envSeq := 0, aad := [], apdu := [0x0F, 1], env := 0 }, by decide +kernel⟩
theorem witness_rfPoll_1 : ∃ (s : State) (y : State) (z : State) (t : TileId) (ch : Nat) (psdu : Bytes) (m : RfIn) (slot : Nat) (fc : Nat), s.rfRx t ch psdu = (y, some m) ∧ m.type = 3 ∧ y.pollCheck t m = (z, some (slot, fc)) :=
  ⟨tRf { tKeyed with keyMap := 7 }, ((tRf { tKeyed with keyMap := 7 }).rfRx 0 tChan tPoll).1, (((tRf { tKeyed with keyMap := 7 }).rfRx 0 tChan tPoll).1.pollCheck 0 (((tRf { tKeyed with keyMap := 7 }).rfRx 0 tChan tPoll).2.getD { type := 0, sec := false, ar := false, bcast := false, seq := 0, src := 0, mhr := [], body := [] })).1, 0, tChan, tPoll, ((tRf { tKeyed with keyMap := 7 }).rfRx 0 tChan tPoll).2.getD { type := 0, sec := false, ar := false, bcast := false, seq := 0, src := 0, mhr := [], body := [] }, 5, 1, by decide +kernel⟩
theorem witness_rfDownlink_1 : ∃ (s : State) (y : State) (z : State) (d : State) (t : TileId) (slot : Nat) (p : RPend) (psdu : Bytes), (s.rf t).up = true ∧ (s.rfAdvance t).rfTake t = y ∧ (y.rf t).wait = none ∧ (y.rf t).txs = [] ∧ y.pier.pfail = false ∧ (y.rf t).sendq.foldl (fun s x => s.markHeld t x) y = z ∧ z.rfNext t = some (slot, p) ∧ z.rfData t slot false (decide (slot ≠ 2 ^ 22)) p.apdu = (d, some psdu) :=
  ⟨tSend, (tSend.rfAdvance 0).rfTake 0, ((tSend.rfAdvance 0).rfTake 0), (((tSend.rfAdvance 0).rfTake 0).rfData 0 5 false true [1, 2]).1, 0, 5, tPend, (((tSend.rfAdvance 0).rfTake 0).rfData 0 5 false true [1, 2]).2.getD [], by decide +kernel⟩
theorem witness_pendingExpire : ∃ (s : State) (t : TileId) (slot : Nat) (n : RNeigh), Tbl.get (s.rf t).neigh slot = some n :=
  ⟨tRf tRec |>.onRf 0 fun r => { r with neigh := [(5, { chan := 0, rssi := 0, pollAt := none, phw := 0, pend := [tPend] })] }, 0, 5, { chan := 0, rssi := 0, pollAt := none, phw := 0, pend := [tPend] }, by decide +kernel⟩
theorem witness_rfCollection : ∃ (s : State) (t : TileId) (slot : Nat) (q : Nat × Nat × Bool), (s.rf t).up = true ∧ s.hasTime t = true ∧ (s.meter t slot).state = 1 ∧ (s.meter t slot).path = 1 ∧ (s.meter t slot).idur ≠ 0 ∧ (s.meter t slot).lastTend + (s.meter t slot).idur + s.rd Reg.rf_pull_after_s t ≤ s.timeSec t ∧ s.collectWhat t (s.rf t).collect slot (s.rd Reg.rf_rows_per_request t) (decide (s.rd Reg.rf_fill_holes t = 1)) true false = some q :=
  ⟨(tRf { tKeyed with idur := 900 }).onVol 0 fun v => { v with mer := { v.mer with baseTime := 9370000000000 } }, 0, 5, (900, 7200, false), by decide +kernel⟩
theorem witness_dutyBucket : ∃ (s : State) (t : TileId), (s.rf t).up = true :=
  ⟨tRf tRec, 0, by decide +kernel⟩
theorem witness_dwellBucket : ∃ (s : State) (t : TileId) (ch : Nat) (l : List (Nat × Nat)), Tbl.get (s.rf t).dwell ch = some l :=
  ⟨(tRf tRec).onRf 0 fun r => { r with dwell := [(3, [(0, 5)])] }, 0, 3, [(0, 5)], by decide +kernel⟩
theorem witness_rfFrameRx_3 : ∃ (s : State) (y : State) (z : State) (t : TileId) (ch : Nat) (rssi : Int) (psdu : Bytes) (m : RfIn) (f : Frame), s.rfRx t ch psdu = (y, some m) ∧ m.type = 1 ∧ z = (if m.ar && !m.bcast then (match y.rfMeter t m.src with | some i => y.onRNeigh t i fun n => { n with chan := ch, rssi := rssi } | none => y).rfAck t ch m.seq else match y.rfMeter t m.src with | some i => y.onRNeigh t i fun n => { n with chan := ch, rssi := rssi } | none => y) ∧ f = { source := 4, addrKind := 1, satId := 0xFFFF, forceOld := false, rfSecured := m.sec, entry := 0, addr := m.src, arrival := z.whenNs t - (2 + psdu.length) * 8 * 1000000000 / rfBitRate (z.vol t).radio.rate, envSeq := 0, aad := if m.sec then m.mhr else [], apdu := m.body, env := 0 } :=
  ⟨tRf { tRec with state := 2 }, ((tRf { tRec with state := 2 }).rfRx 0 tChan (rfFrame tAct (rfControl 1 false false false) [0x0F, 1])).1, ((tRf { tRec with state := 2 }).rfRx 0 tChan (rfFrame tAct (rfControl 1 false false false) [0x0F, 1])).1, 0, tChan, -80, rfFrame tAct (rfControl 1 false false false) [0x0F, 1], (((tRf { tRec with state := 2 }).rfRx 0 tChan (rfFrame tAct (rfControl 1 false false false) [0x0F, 1])).2.getD { type := 0, sec := false, ar := false, bcast := false, seq := 0, src := 0, mhr := [], body := [] }), { source := 4, addrKind := 1, satId := 0xFFFF, forceOld := false, rfSecured := false, entry := 0, addr := 8, arrival := (((tRf { tRec with state := 2 }).rfRx 0 tChan (rfFrame tAct (rfControl 1 false false false) [0x0F, 1])).1.whenNs 0 - (2 + (rfFrame tAct (rfControl 1 false false false) [0x0F, 1]).length) * 8 * 1000000000 / rfBitRate (((tRf { tRec with state := 2 }).rfRx 0 tChan (rfFrame tAct (rfControl 1 false false false) [0x0F, 1])).1.vol 0).radio.rate), envSeq := 0, aad := [], apdu := [0x0F, 1], env := 0 }, by decide +kernel⟩
theorem witness_rfPoll_2 : ∃ (s : State) (y : State) (z : State) (t : TileId) (ch : Nat) (psdu : Bytes) (m : RfIn), s.rfRx t ch psdu = (y, some m) ∧ m.type = 3 ∧ y.pollCheck t m = (z, none) :=
  ⟨tHeard, (tHeard.rfRx 0 tChan tPoll).1, ((tHeard.rfRx 0 tChan tPoll).1.pollCheck 0 ((tHeard.rfRx 0 tChan tPoll).2.getD { type := 0, sec := false, ar := false, bcast := false, seq := 0, src := 0, mhr := [], body := [] })).1, 0, tChan, tPoll, (tHeard.rfRx 0 tChan tPoll).2.getD { type := 0, sec := false, ar := false, bcast := false, seq := 0, src := 0, mhr := [], body := [] }, by decide +kernel⟩
theorem witness_rfDownlink_2 : ∃ (s : State) (y : State) (z : State) (d : State) (t : TileId) (slot : Nat) (p : RPend) (psdu : Bytes), (s.rf t).up = true ∧ y = (match (((s.rfAdvance t).rfTake t).rf t).wait with | some (_, u, k, q) => if u < ((s.rfAdvance t).rfTake t).now then ((s.rfAdvance t).rfTake t).rfRetry t k q else (s.rfAdvance t).rfTake t | none => (s.rfAdvance t).rfTake t) ∧ (y.rf t).wait = none ∧ (y.rf t).txs = [] ∧ y.pier.pfail = false ∧ (y.rf t).sendq.foldl (fun s x => s.markHeld t x) y = z ∧ z.rfNext t = some (slot, p) ∧ z.rfData t slot false (decide (slot ≠ 2 ^ 22)) p.apdu = (d, some psdu) :=
  ⟨tSend, (tSend.rfAdvance 0).rfTake 0, ((tSend.rfAdvance 0).rfTake 0), (((tSend.rfAdvance 0).rfTake 0).rfData 0 5 false true [1, 2]).1, 0, 5, tPend, (((tSend.rfAdvance 0).rfTake 0).rfData 0 5 false true [1, 2]).2.getD [], by decide +kernel⟩
theorem witness_rfDownlink_3 : ∃ (s : State) (y : State) (z : State) (t : TileId) (slot : Nat) (p : RPend), (s.rf t).up = true ∧ (s.rfAdvance t).rfTake t = y ∧ (y.rf t).wait = none ∧ (y.rf t).txs = [] ∧ y.pier.pfail = false ∧ (y.rf t).sendq.foldl (fun s x => s.markHeld t x) y = z ∧ z.rfNext t = some (slot, p) :=
  ⟨tSend, (tSend.rfAdvance 0).rfTake 0, ((tSend.rfAdvance 0).rfTake 0), 0, 5, tPend, by decide +kernel⟩
theorem witness_frameAdmit_1 : ∃ (n : Fin 8) (o : Fin 8) (d : Bytes), 2 ≤ n.val ∧ n.val ≠ 7 ∧ o.val ≠ 7 ∧ d.length ≤ 9216 :=
  ⟨2, 6, [1, 2, 3], by decide +kernel⟩
theorem witness_frameAdmit_2 : ∃ (n : Fin 8) (o : Fin 8) (d : Bytes), (n.val = 7 ∨ 9216 < d.length ∨ (2 ≤ n.val ∧ o.val = 7)) :=
  ⟨7, 6, [], by decide +kernel⟩
theorem witness_frameAdmit_3 : ∃ (s : State) (t : TileId) (n : Fin 8) (d : Bytes) (r : Bytes) (src : Bytes) (ety : Nat), n.val < 2 ∧ (s.sw t).port.getD n 0 = 2 ∧ s.etherIn t d = some (src, ety, r) ∧ isPtp ety r = true ∧ d.length ≤ 9216 :=
  ⟨tSat, 0, 0, List.replicate 12 0 ++ [0x88, 0xF7, 1], [1], List.replicate 6 0, 0x88F7, by decide +kernel⟩
theorem witness_frameAdmit_4 : ∃ (s : State) (t : TileId) (n : Fin 8) (d : Bytes), n.val < 2 ∧ (s.sw t).port.getD n 0 = 2 ∧ d.length ≤ 9216 ∧ s.rd Reg.sw_fcs_errors t n + 1 < Reg.sw_fcs_errors.span :=
  ⟨tSat, 0, 0, [1], by decide +kernel⟩
theorem witness_frameDispatch_1 : ∃ (s : State) (t : TileId) (o : Fin 8) (c : Nat) (n : Nat) (k : Nat) (w : Switch) (f : SwFrame), s.delayedDue t o = none ∧ 2 ≤ o.val ∧ o.val ≠ 7 ∧ (s.sw t).stopped.getD o false = false ∧ s.portTakes t o = true ∧ (s.sw t).choose o (fun c => s.rd Reg.sw_class_weight t (c - 1)) = some (c, w) ∧ w.head o c = some (n, k, f) ∧ s.egressWait t o c = none :=
  ⟨tVoq, 0, 6, 2, 3, 0, (((tVoq.sw 0).choose 6 fun c => tVoq.rd Reg.sw_class_weight 0 (c - 1)).map Prod.snd).getD (tVoq.sw 0), { tSw with shared := false }, by decide +kernel⟩
theorem witness_creditReturn_1 : ∃ (s : State) (t : TileId) (o : Fin 8) (n : Nat), s.tileArm t 1 = none ∧ (s.sw t).credit.length = 8 ∧ (s.sw t).held.length = 8 ∧ n ≤ (s.sw t).held.getD o 0 ∧ (s.sw t).credit.getD o 0 + n ≤ 1024 :=
  ⟨tAct.onSw 0 fun w => { w with credit := w.credit.set 6 1014, held := w.held.set 6 10 }, 0, 6, 10, by decide +kernel⟩
theorem witness_creditCheck_1 : ∃ (s : State) (t : TileId) (o : Fin 8) (seen : Nat), o.val ≠ 7 ∧ s.portTakes t o = true ∧ (s.sw t).miss.length = 8 ∧ (s.sw t).stopped.getD o false = false ∧ (s.sw t).credit.getD o 0 + (s.vol t).diag.back.getD o 0 + s.inTransfer t o + seen = outCap o :=
  ⟨tAct, 0, 6, 0, by decide +kernel⟩
theorem witness_creditCheck_2 : ∃ (s : State) (t : TileId) (o : Fin 8) (seen : Nat), o.val ≠ 7 ∧ s.portTakes t o = true ∧ (s.sw t).stopped.getD o false = false ∧ (s.sw t).credit.getD o 0 + (s.vol t).diag.back.getD o 0 + s.inTransfer t o + seen ≠ outCap o ∧ (s.sw t).miss.length = 8 ∧ (s.sw t).miss.getD o 0 = 0 ∧ s.rd Reg.sw_credit_faults t o + 1 < Reg.sw_credit_faults.span :=
  ⟨tAct, 0, 6, 1, by decide +kernel⟩
theorem witness_frameDispatch_2 : ∃ (s : State) (t : TileId) (o : Fin 8) (x : Nat × Nat × Nat × SwFrame), s.delayedDue t o = some x :=
  ⟨tAct.onVol 0 fun v => { v with diag := { v.diag with delayed := [(6, 3, 0, tSw)] } }, 0, 6, (6, 3, 0, tSw), by decide +kernel⟩
theorem witness_frameDispatch_3 : ∃ (s : State) (t : TileId) (o : Fin 8) (c : Nat) (n : Nat) (k : Nat) (w : Switch) (f : SwFrame), s.delayedDue t o = none ∧ o.val < 2 ∧ (s.sw t).port.getD o 0 = 2 ∧ (s.sw t).stopped.getD o false = false ∧ s.portTakes t o = true ∧ (s.sw t).choose o (fun c => s.rd Reg.sw_class_weight t (c - 1)) = some (c, w) ∧ w.head o c = some (n, k, f) ∧ s.egressWait t o c = none :=
  ⟨tVoq0, 0, 0, 2, 3, 0, (((tVoq0.sw 0).choose 0 fun c => tVoq0.rd Reg.sw_class_weight 0 (c - 1)).map Prod.snd).getD (tVoq0.sw 0), { tSw with shared := false }, by decide +kernel⟩
theorem witness_creditReturn_2 : ∃ (s : State) (t : TileId), (s.sw t).credit.length = 8 ∧ (s.sw t).held.length = 8 ∧ (s.vol t).diag.back.length = 8 :=
  ⟨tAct.onSw 0 fun w => { w with credit := w.credit.set 6 1014, held := w.held.set 6 10 }, 0, by decide +kernel⟩
theorem witness_creditCheck_3 : ∃ (s : State) (t : TileId) (o : Fin 8) (seen : Nat), o.val ≠ 7 ∧ s.portTakes t o = true ∧ (s.sw t).stopped.getD o false = true ∧ (s.sw t).credit.getD o 0 + (s.vol t).diag.back.getD o 0 + s.inTransfer t o + seen ≠ outCap o :=
  ⟨tAct.onSw 0 fun w => { w with stopped := w.stopped.set 6 true }, 0, 6, 1, by decide +kernel⟩
theorem witness_creditCheck_4 : ∃ (s : State) (t : TileId) (o : Fin 8) (seen : Nat), o.val ≠ 7 ∧ s.portTakes t o = true ∧ (s.sw t).stopped.getD o false = true ∧ (s.sw t).credit.getD o 0 + (s.vol t).diag.back.getD o 0 + s.inTransfer t o + seen = outCap o :=
  ⟨tAct.onSw 0 fun w => { w with stopped := w.stopped.set 6 true }, 0, 6, 0, by decide +kernel⟩
theorem witness_creditCheck_5 : ∃ (s : State) (t : TileId) (o : Fin 8) (seen : Nat), o.val ≠ 7 ∧ s.portTakes t o = true ∧ (s.sw t).stopped.getD o false = false ∧ (s.sw t).credit.getD o 0 + (s.vol t).diag.back.getD o 0 + s.inTransfer t o + seen ≠ outCap o ∧ 2 ≤ (s.sw t).miss.getD o 0 :=
  ⟨tAct.onSw 0 fun w => { w with miss := w.miss.set 6 2 }, 0, 6, 1, by decide +kernel⟩
theorem witness_linkUp_1 : ∃ (s : State) (t : TileId) (p : Fin 2), (s.sw t).port.getD p 0 = 1 :=
  ⟨tAct.onSw 0 fun w => { w with port := [1, 0] }, 0, 0, by decide +kernel⟩
theorem witness_linkLost_1 : ∃ (s : State) (t : TileId) (p : Fin 2), (s.sw t).port.getD p 0 = 2 ∧ s.rd Reg.sw_link_hold_ms t ≠ 0 ∧ (s.sw t).hold.length = 2 ∧ s.rd Reg.sw_hold_events t p + 1 < Reg.sw_hold_events.span :=
  ⟨tSat.wr Reg.sw_link_hold_ms 0 500, 0, 0, by decide +kernel⟩
theorem witness_holdExpiry : ∃ (s : State) (t : TileId) (p : Fin 2), (s.sw t).port.getD p 0 = 3 ∧ (s.sw t).hold.getD p 0 + s.holdNs t ≤ s.now :=
  ⟨(tSat.wr Reg.sw_link_hold_ms 0 0).onSw 0 fun w => { w with port := [3, 0] }, 0, 0, by decide +kernel⟩
theorem witness_portDisable_1 : ∃ (v : Nat), v ≤ 1 :=
  ⟨1, by decide +kernel⟩
theorem witness_linkUp_2 : ∃ (s : State) (t : TileId) (p : Fin 2), (s.sw t).port.getD p 0 = 3 ∧ s.now ≤ (s.sw t).hold.getD p 0 + s.holdNs t :=
  ⟨tSat.onSw 0 fun w => { w with port := [3, 0] }, 0, 0, by decide +kernel⟩
theorem witness_linkLost_2 : ∃ (s : State) (t : TileId) (p : Fin 2), (s.sw t).port.getD p 0 = 2 ∧ s.rd Reg.sw_link_hold_ms t = 0 :=
  ⟨tSat.wr Reg.sw_link_hold_ms 0 0, 0, 0, by decide +kernel⟩
theorem witness_portDisable_2 : ∃ (v : Nat), 1 < v :=
  ⟨2, by decide +kernel⟩
theorem tSig1_good : Crypto.ecdsaVerify tPub (tShake.hello ++ tPub ++ tCert) tSig1 = true := by decide +kernel
theorem witness_helloReq_1 : ∃ (s : State) (y : State) (z : State) (t : TileId) (p : Fin 2) (frame : Bytes) (nonce : Bytes) (key : Bytes) (m : LinkIn), s.linkRx t p frame = (y, some m) ∧ m.type = 1 ∧ (y.sw t).sess = [] ∧ y.nonce t = (z, some nonce) ∧ y.slotKey t 1 = some key ∧ m.payload.length = 20 :=
  ⟨tHello0, (tHello0.linkRx 0 0 tHelloFrame).1, ((tHello0.linkRx 0 0 tHelloFrame).1.nonce 0).1, 0, 0, tHelloFrame, ((tHello0.linkRx 0 0 tHelloFrame).1.nonce 0).2.getD [], natBE 32 1, (tHello0.linkRx 0 0 tHelloFrame).2.getD noFrame, ⟨by decide +kernel, by decide +kernel, by decide +kernel, rfl, by decide +kernel, by decide +kernel⟩⟩
theorem witness_helloRsp_1 : ∃ (s : State) (y : State) (t : TileId) (p : Fin 2) (frame : Bytes) (cert : Bytes) (eph : Bytes) (sig : Bytes) (pub : Bytes) (z : Bytes) (m : LinkIn) (k : Nat) (n : Nat) (sat : Nat) (d : Nat) (e : Sess) (v : Sess), s.linkRx t p frame = (y, some m) ∧ m.type = 3 ∧ (y.sw t).sess = [(k, e)] ∧ e.port = p ∧ e.mac = m.mac ∧ e.st = 1 ∧ y.now < e.since + 100000000 ∧ m.payload = eph ++ natLE 2 n ++ cert ++ sig ∧ eph.length = 65 ∧ cert.length = n ∧ n ≤ 1024 ∧ sig.length = 64 ∧ y.peerSat t cert = some sat ∧ certKey cert = some pub ∧ y.slotD t 1 = some d ∧ Crypto.ecdsaVerify pub (e.hello ++ eph ++ cert) sig = true ∧ Crypto.ecdh Crypto.p256 d eph = some z ∧ v = { e with st := 2, sat := sat, value := (y.sw t).nextSess, keyTx := (Crypto.kdf z (Crypto.ascii "SATLINK") (Crypto.sha256 (e.hello ++ eph ++ cert)) 512).take 32, keyRx := (Crypto.kdf z (Crypto.ascii "SATLINK") (Crypto.sha256 (e.hello ++ eph ++ cert)) 512).drop 32, print := Crypto.sha256 cert, gotAt := y.now, gotNs := y.whenNs t, hello := [] } :=
  ⟨tWait, (tWait.linkRx 0 0 tRspFrame).1, 0, 0, tRspFrame, tCert, tPub, tSig1, tPub, (Crypto.ecdh Crypto.p256 1 tPub).getD [], (tWait.linkRx 0 0 tRspFrame).2.getD noFrame, 0, 254, 0, 1, tShake, { tShake with st := 2, sat := 0, value := ((tWait.linkRx 0 0 tRspFrame).1.sw 0).nextSess, keyTx := (Crypto.kdf ((Crypto.ecdh Crypto.p256 1 tPub).getD []) (Crypto.ascii "SATLINK") (Crypto.sha256 (tShake.hello ++ tPub ++ tCert)) 512).take 32, keyRx := (Crypto.kdf ((Crypto.ecdh Crypto.p256 1 tPub).getD []) (Crypto.ascii "SATLINK") (Crypto.sha256 (tShake.hello ++ tPub ++ tCert)) 512).drop 32, print := Crypto.sha256 tCert, gotAt := (tWait.linkRx 0 0 tRspFrame).1.now, gotNs := (tWait.linkRx 0 0 tRspFrame).1.whenNs 0, hello := [] }, (by and_intros <;> first | with_reducible exact tSig1_good | with_reducible rfl | decide +kernel)⟩
theorem witness_handshakeTimeout : ∃ (s : State) (t : TileId) (k : Nat) (e : Sess), Tbl.get (s.sw t).sess k = some e ∧ e.st = 1 ∧ e.since + 100000000 ≤ s.now :=
  ⟨{ tWait with now := 100000000 }, 0, 0, tShake, by decide +kernel⟩
theorem witness_resume_1 : ∃ (s : State) (y : State) (t : TileId) (p : Fin 2) (frame : Bytes) (m : LinkIn) (k : Nat) (e : Sess), s.linkRx t p frame = (y, some m) ∧ m.type = 6 ∧ m.sess = some k ∧ Tbl.get (y.sw t).sess k = some e ∧ e.st = 3 ∧ e.nonce ≠ [] ∧ m.payload = natLE 4 e.epoch ++ e.nonce ++ e.print ∧ y.rd Reg.sw_resumes t + 1 < Reg.sw_resumes.span :=
  ⟨tVerify, (tVerify.linkRx 0 0 tResume).1, 0, 0, tResume, (tVerify.linkRx 0 0 tResume).2.getD noFrame, 0, (Tbl.get ((tVerify.linkRx 0 0 tResume).1.sw 0).sess 0).getD tSess, by decide +kernel⟩
theorem witness_verifyTimeout : ∃ (s : State) (t : TileId) (k : Nat) (e : Sess), Tbl.get (s.sw t).sess k = some e ∧ e.st = 3 ∧ e.since + s.rd Reg.sw_verify_ms t * 1000000 ≤ s.now :=
  ⟨{ tVerify with now := tAct.rd Reg.sw_verify_ms 0 * 1000000 }, 0, 0, { tSess with st := 3 }, by decide +kernel⟩
theorem witness_keepalive : ∃ (s : State) (t : TileId) (k : Nat) (e : Sess), Tbl.get (s.sw t).sess k = some e ∧ e.st = 2 ∧ (s.sw t).port.getD e.port 0 = 2 ∧ e.sentAt + s.rd Reg.sw_keepalive_ms t * 1000000 ≤ s.now ∧ (s.sw t).keepaliveWaits e.value = false :=
  ⟨{ tSat with now := tAct.rd Reg.sw_keepalive_ms 0 * 1000000 }, 0, 0, tSess, by decide +kernel⟩
theorem witness_satDead : ∃ (s : State) (t : TileId) (k : Nat) (e : Sess), Tbl.get (s.sw t).sess k = some e ∧ e.st = 2 ∧ (s.sw t).port.getD e.port 0 = 2 ∧ e.gotAt + s.rd Reg.sw_sat_dead_ms t * 1000000 ≤ s.now :=
  ⟨{ tSat with now := tAct.rd Reg.sw_sat_dead_ms 0 * 1000000 }, 0, 0, tSess, by decide +kernel⟩
theorem witness_helloReq_2 : ∃ (s : State) (y : State) (w : State) (z : State) (t : TileId) (p : Fin 2) (frame : Bytes) (nonce : Bytes) (key : Bytes) (hello : Bytes) (m : LinkIn) (k : Nat) (e : Sess), s.linkRx t p frame = (y, some m) ∧ m.type = 1 ∧ w = ((y.sw t).peers p m.mac).foldl (fun s e => (if e.2.st = 3 then s.bump Reg.sw_resume_fail t else s).endSess t e.1) y ∧ (List.range 1024).find? (fun k => (Tbl.get (w.sw t).sess k).isNone) = some k ∧ w.nonce t = (z, some nonce) ∧ w.slotKey t 1 = some key ∧ m.payload.length = 20 ∧ ((w.sw t).sess.countP fun e => decide (e.2.st = 1)) < 64 ∧ hello = natLE 4 (z.rd Reg.sw_link_epoch t) ++ nonce ++ natLE 2 ((z.rdAll Reg.vault_cert_link t).take ((certLength (z.rdAll Reg.vault_cert_link t)).getD 0)).length ++ (z.rdAll Reg.vault_cert_link t).take ((certLength (z.rdAll Reg.vault_cert_link t)).getD 0) ∧ e = { st := 1, port := p, mac := m.mac, sat := 0xFFFF, value := 0, epoch := fld m.payload 0 4, tx := 0, rx := 0, keyTx := [], keyRx := [], print := [], sentAt := z.now, gotAt := z.now, gotNs := z.whenNs t, hello := m.payload ++ hello, nonce := [], since := z.now } :=
  ⟨tHello0, tHelloA, tHelloA, (tHelloA.nonce 0).1, 0, 0, tHelloFrame, (tHelloA.nonce 0).2.getD [], natBE 32 1, tHelloRsp, (tHello0.linkRx 0 0 tHelloFrame).2.getD noFrame, 0, { st := 1, port := 0, mac := ((tHello0.linkRx 0 0 tHelloFrame).2.getD noFrame).mac, sat := 0xFFFF, value := 0, epoch := fld ((tHello0.linkRx 0 0 tHelloFrame).2.getD noFrame).payload 0 4, tx := 0, rx := 0, keyTx := [], keyRx := [], print := [], sentAt := (tHelloA.nonce 0).1.now, gotAt := (tHelloA.nonce 0).1.now, gotNs := (tHelloA.nonce 0).1.whenNs 0, hello := ((tHello0.linkRx 0 0 tHelloFrame).2.getD noFrame).payload ++ tHelloRsp, nonce := [], since := (tHelloA.nonce 0).1.now }, ⟨by decide +kernel, by decide +kernel, rfl, by decide +kernel, rfl, by decide +kernel, by decide +kernel, by decide +kernel, rfl, rfl⟩⟩
theorem witness_helloRsp_2 : ∃ (s : State) (y : State) (u : State) (t : TileId) (p : Fin 2) (frame : Bytes) (cert : Bytes) (eph : Bytes) (sig : Bytes) (pub : Bytes) (z : Bytes) (m : LinkIn) (k : Nat) (n : Nat) (sat : Nat) (d : Nat) (e : Sess) (v : Sess), s.linkRx t p frame = (y, some m) ∧ m.type = 3 ∧ ((y.sw t).peers p m.mac).find? (fun e => decide (e.2.st = 1) && decide (y.now < e.2.since + 100000000)) = some (k, e) ∧ m.payload = eph ++ natLE 2 n ++ cert ++ sig ∧ eph.length = 65 ∧ cert.length = n ∧ n ≤ 1024 ∧ sig.length = 64 ∧ y.peerSat t cert = some sat ∧ certKey cert = some pub ∧ y.slotD t 1 = some d ∧ Crypto.ecdsaVerify pub (e.hello ++ eph ++ cert) sig = true ∧ Crypto.ecdh Crypto.p256 d eph = some z ∧ u = ((y.sw t).sess.filter fun f => decide (f.2.print = Crypto.sha256 cert) && decide (1 < f.2.st)).foldl (fun s f => s.endSess t f.1) y ∧ v = { e with st := 2, sat := sat, value := (u.sw t).nextSess, keyTx := (Crypto.kdf z (Crypto.ascii "SATLINK") (Crypto.sha256 (e.hello ++ eph ++ cert)) 512).take 32, keyRx := (Crypto.kdf z (Crypto.ascii "SATLINK") (Crypto.sha256 (e.hello ++ eph ++ cert)) 512).drop 32, print := Crypto.sha256 cert, gotAt := u.now, gotNs := u.whenNs t, hello := [] } :=
  ⟨tWait, (tWait.linkRx 0 0 tRspFrame).1, (tWait.linkRx 0 0 tRspFrame).1, 0, 0, tRspFrame, tCert, tPub, tSig1, tPub, (Crypto.ecdh Crypto.p256 1 tPub).getD [], (tWait.linkRx 0 0 tRspFrame).2.getD noFrame, 0, 254, 0, 1, tShake, { tShake with st := 2, sat := 0, value := ((tWait.linkRx 0 0 tRspFrame).1.sw 0).nextSess, keyTx := (Crypto.kdf ((Crypto.ecdh Crypto.p256 1 tPub).getD []) (Crypto.ascii "SATLINK") (Crypto.sha256 (tShake.hello ++ tPub ++ tCert)) 512).take 32, keyRx := (Crypto.kdf ((Crypto.ecdh Crypto.p256 1 tPub).getD []) (Crypto.ascii "SATLINK") (Crypto.sha256 (tShake.hello ++ tPub ++ tCert)) 512).drop 32, print := Crypto.sha256 tCert, gotAt := (tWait.linkRx 0 0 tRspFrame).1.now, gotNs := (tWait.linkRx 0 0 tRspFrame).1.whenNs 0, hello := [] }, (by and_intros <;> first | with_reducible exact tSig1_good | with_reducible rfl | decide +kernel)⟩
theorem witness_helloRsp_3 : ∃ (s : State) (y : State) (t : TileId) (p : Fin 2) (frame : Bytes) (m : LinkIn), s.linkRx t p frame = (y, some m) ∧ m.type = 3 ∧ ((y.sw t).peers p m.mac).find? (fun e => decide (e.2.st = 1) && decide (y.now < e.2.since + 100000000)) = none :=
  ⟨tHello0, (tHello0.linkRx 0 0 tRspFrame).1, 0, 0, tRspFrame, (tHello0.linkRx 0 0 tRspFrame).2.getD noFrame, by decide +kernel⟩
theorem witness_resume_2 : ∃ (s : State) (y : State) (t : TileId) (p : Fin 2) (frame : Bytes) (m : LinkIn) (k : Nat) (e : Sess), s.linkRx t p frame = (y, some m) ∧ m.type = 6 ∧ m.sess = some k ∧ Tbl.get (y.sw t).sess k = some e ∧ e.st = 3 ∧ m.payload ≠ natLE 4 e.epoch ++ e.nonce ++ e.print :=
  ⟨tStale, (tStale.linkRx 0 0 tResume).1, 0, 0, tResume, (tStale.linkRx 0 0 tResume).2.getD noFrame, 0, (Tbl.get ((tStale.linkRx 0 0 tResume).1.sw 0).sess 0).getD tSess, by decide +kernel⟩
theorem tHub_keys : ∀ k ∈ Crypto.roundKeys (List.replicate 32 1), k.length = 16 := by decide +kernel
theorem tHub_opened (s : State) (hl : s.laneDown 0 = false) (hf : s.pier.hub.find 7 = some (1, tHost)) (hp : ∀ b, s.pier.hub.inProgress 1 1 b = false)
    (type target : Nat) (p : Bytes) : s.opened 0 type (tMsg type target p) 1 tHost p := by
  have hi : (msgIv 7 1 0).length = 12 := by decide
  have ht : (Crypto.gcmSeal (List.replicate 32 1) (msgIv 7 1 0) (msgHeader type (tMsg type target p)) p 16).2.length = 16 := by
    show (List.take 16 _).length = 16
    rw [List.length_take, Crypto.gcmTag_length _ _ _ _ hi tHub_keys]; rfl
  have hb : (tMsg type target p).body = (Crypto.gcmSeal (List.replicate 32 1) (msgIv 7 1 0) (msgHeader type (tMsg type target p)) p 16).1 ++
    (Crypto.gcmSeal (List.replicate 32 1) (msgIv 7 1 0) (msgHeader type (tMsg type target p)) p 16).2 := rfl
  refine ⟨hl, rfl, hf, by decide, ?_, ?_, rfl, hp _, (by decide : tHost.fresh 1 = true), (by decide : (1 : Nat) ≠ 0), rfl, rfl, (by decide : (0 : Nat) < 4), rfl⟩
  · rw [hb, List.length_append, ht]; omega
  · have hl : (tMsg type target p).body.length - 16 = (Crypto.gcmSeal (List.replicate 32 1) (msgIv 7 1 0) (msgHeader type (tMsg type target p)) p 16).1.length := by
      rw [hb, List.length_append, ht]; omega
    rw [hl, hb, List.take_left, List.drop_left]
    exact Crypto.gcmOpen_gcmSeal _ _ _ _ _ (by omega) hi tHub_keys
theorem tHub_requested (type target : Nat) (p : Bytes) : tHub.requested 0 type (tMsg type target p) 1 tHost p :=
  ⟨tHub_opened tHub (by decide +kernel) (by decide +kernel) (fun _ => rfl) type target p, rfl, rfl, rfl, rfl, rfl⟩
theorem witness_get : ∃ (s : State) (lane : Fin 2) (p : Bytes) (m : HostMsg) (k : Nat) (x : HSess), s.requested lane 1 m k x p ∧ tgtOf m.target = some .dev :=
  ⟨tHub, 0, [1, 0, 0, 0, 0, 0x10, 0, 0], tMsg 1 255 [1, 0, 0, 0, 0, 0x10, 0, 0], 1, tHost, ⟨tHub_requested _ _ _, by decide +kernel⟩⟩
theorem witness_set : ∃ (s : State) (lane : Fin 2) (p : Bytes) (m : HostMsg) (k : Nat) (x : HSess), s.requested lane 2 m k x p ∧ tgtOf m.target = some .dev :=
  ⟨tHub, 0, [1, 0, 0, 0, 0, 0x10, 0, 0, 1, 0, 0, 0, 5], tMsg 2 255 [1, 0, 0, 0, 0, 0x10, 0, 0, 1, 0, 0, 0, 5], 1, tHost, ⟨tHub_requested _ _ _, by decide +kernel⟩⟩
theorem witness_getBlock : ∃ (s : State) (lane : Fin 2) (p : Bytes) (m : HostMsg) (k : Nat) (x : HSess), s.requested lane 3 m k x p ∧ tgtOf m.target = some .dev :=
  ⟨tHub, 0, [0, 0x10, 0, 0, 0, 0, 0, 0, 8, 0, 0, 0], tMsg 3 255 [0, 0x10, 0, 0, 0, 0, 0, 0, 8, 0, 0, 0], 1, tHost, ⟨tHub_requested _ _ _, by decide +kernel⟩⟩
theorem witness_setBlock : ∃ (s : State) (lane : Fin 2) (p : Bytes) (m : HostMsg) (k : Nat) (x : HSess), s.requested lane 4 m k x p ∧ tgtOf m.target = some .dev :=
  ⟨tHub, 0, [0, 0x10, 0, 0, 0, 0, 0, 0, 1, 0, 0, 0, 9], tMsg 4 255 [0, 0x10, 0, 0, 0, 0, 0, 0, 1, 0, 0, 0, 9], 1, tHost, ⟨tHub_requested _ _ _, by decide +kernel⟩⟩
theorem witness_subscribe : ∃ (s : State) (lane : Fin 2) (p : Bytes) (m : HostMsg) (k : Nat) (x : HSess) (g : Tgt), s.requested lane 5 m k x p ∧ tgtOf m.target = some g ∧ (∀ t, g ≠ .tile t) :=
  ⟨tHub, 0, [1, 0, 0, 0, 0, 0, 0, 0], tMsg 5 255 [1, 0, 0, 0, 0, 0, 0, 0], 1, tHost, .dev, ⟨tHub_requested _ _ _, by decide +kernel⟩⟩
theorem witness_unsubscribe : ∃ (s : State) (lane : Fin 2) (p : Bytes) (m : HostMsg) (k : Nat) (x : HSess) (g : Tgt), s.requested lane 6 m k x p ∧ tgtOf m.target = some g ∧ (∀ t, g ≠ .tile t) :=
  ⟨tHub, 0, [3, 0, 0, 0], tMsg 6 255 [3, 0, 0, 0], 1, tHost, .dev, ⟨tHub_requested _ _ _, by decide +kernel⟩⟩
theorem witness_fetch_2 : ∃ (s : State) (z : State) (lane : Fin 2) (p : Bytes) (m : HostMsg) (k : Nat) (x : HSess) (t : TileId), s.requested lane 7 m k x p ∧ tgtOf m.target = some (.tile t) ∧ (s.taken lane m k x).reach t false false = .go ∧ (s.taken lane m k x).p2Open t (requestOf 7 m k p) = true ∧ (s.taken lane m k x).p2In t (requestOf 7 m k p) = (z, true) :=
  ⟨tHub, ((tHub.taken 0 (tMsg 7 0 [1, 0, 0, 0, 0, 0, 2, 0, 0, 0, 0, 0]) 1 tHost).p2In 0 (requestOf 7 (tMsg 7 0 [1, 0, 0, 0, 0, 0, 2, 0, 0, 0, 0, 0]) 1 [1, 0, 0, 0, 0, 0, 2, 0, 0, 0, 0, 0])).1, 0, [1, 0, 0, 0, 0, 0, 2, 0, 0, 0, 0, 0], tMsg 7 0 [1, 0, 0, 0, 0, 0, 2, 0, 0, 0, 0, 0], 1, tHost, 0, ⟨tHub_requested _ _ _, by decide +kernel, by decide +kernel, by decide +kernel, tPair (by decide +kernel)⟩⟩
theorem witness_ackDiscard_3 : ∃ (s : State) (z : State) (lane : Fin 2) (p : Bytes) (m : HostMsg) (k : Nat) (x : HSess) (t : TileId), s.requested lane 8 m k x p ∧ tgtOf m.target = some (.tile t) ∧ (s.taken lane m k x).reach t false false = .go ∧ (s.taken lane m k x).p2Open t (requestOf 8 m k p) = true ∧ (s.taken lane m k x).p2In t (requestOf 8 m k p) = (z, true) :=
  ⟨tHub, ((tHub.taken 0 (tMsg 8 0 [1, 0, 0, 0, 0, 0, 2, 0, 0, 0, 0, 0]) 1 tHost).p2In 0 (requestOf 8 (tMsg 8 0 [1, 0, 0, 0, 0, 0, 2, 0, 0, 0, 0, 0]) 1 [1, 0, 0, 0, 0, 0, 2, 0, 0, 0, 0, 0])).1, 0, [1, 0, 0, 0, 0, 0, 2, 0, 0, 0, 0, 0], tMsg 8 0 [1, 0, 0, 0, 0, 0, 2, 0, 0, 0, 0, 0], 1, tHost, 0, ⟨tHub_requested _ _ _, by decide +kernel, by decide +kernel, by decide +kernel, tPair (by decide +kernel)⟩⟩
theorem witness_hostRequests_1 : ∃ (s : State) (z : State) (lane : Fin 2) (peer : Bytes) (p : Bytes) (m : HostMsg) (k : Nat) (type : Nat) (x : HSess) (t : TileId) (c : Instr), (type, c) ∈ [(1, .get lane peer m), (2, .set lane peer m), (3, .getBlock lane peer m), (4, .setBlock lane peer m), (5, .subscribe lane peer m), (6, .unsubscribe lane peer m), (9, .exec lane peer m)] ∧ s.requested lane type m k x p ∧ tgtOf m.target = some (.tile t) ∧ forPier (.tile t) type p = false ∧ (s.taken lane m k x).reach t false (forCode (.tile t) type p) = .go ∧ (s.taken lane m k x).p2Open t (requestOf type m k p) = true ∧ (s.taken lane m k x).p2In t (requestOf type m k p) = (z, true) :=
  ⟨tHub, ((tHub.taken 0 (tMsg 1 0 [1, 0, 0, 0, 0, 0x41, 0, 0]) 1 tHost).p2In 0 (requestOf 1 (tMsg 1 0 [1, 0, 0, 0, 0, 0x41, 0, 0]) 1 [1, 0, 0, 0, 0, 0x41, 0, 0])).1, 0, [1], [1, 0, 0, 0, 0, 0x41, 0, 0], tMsg 1 0 [1, 0, 0, 0, 0, 0x41, 0, 0], 1, 1, tHost, 0, .get 0 [1] (tMsg 1 0 [1, 0, 0, 0, 0, 0x41, 0, 0]), ⟨List.mem_cons_self .., tHub_requested _ _ _, by decide +kernel, by decide +kernel, by decide +kernel, by decide +kernel, tPair (by decide +kernel)⟩⟩
theorem witness_exec : ∃ (s : State) (lane : Fin 2) (p : Bytes) (m : HostMsg) (k : Nat) (x : HSess), s.requested lane 9 m k x p ∧ tgtOf m.target = some .dev :=
  ⟨tHub, 0, [0, 0x10, 0, 0, 0, 0, 0, 0], tMsg 9 255 [0, 0x10, 0, 0, 0, 0, 0, 0], 1, tHost, ⟨tHub_requested _ _ _, by decide +kernel⟩⟩
theorem witness_close : ∃ (s : State) (lane : Fin 2) (m : HostMsg) (k : Nat) (x : HSess) (g : Tgt), s.requested lane 10 m k x [] ∧ tgtOf m.target = some g :=
  ⟨tHub, 0, tMsg 10 255 [], 1, tHost, .dev, ⟨tHub_requested _ _ _, by decide +kernel⟩⟩
theorem witness_hostRequests_2 : ∃ (s : State) (lane : Fin 2) (peer : Bytes) (p : Bytes) (m : HostMsg) (k : Nat) (type : Nat) (x : HSess) (g : Tgt) (c : Instr), (type, c) ∈ [(1, .get lane peer m), (2, .set lane peer m), (3, .getBlock lane peer m), (4, .setBlock lane peer m), (5, .subscribe lane peer m), (6, .unsubscribe lane peer m), (7, .fetch (.host lane peer m)), (8, .ackDiscard (.host lane peer m)), (9, .exec lane peer m), (10, .close lane peer m)] ∧ s.opened lane type m k x p ∧ tgtOf m.target = some g ∧ ((s.taken lane m k x).hubAnswers.pier.hub.begun k m.target || waitsFor (s.taken lane m k x).hubAnswers.pier.hub.waits k m.target) = false :=
  ⟨tHub, 0, [1], [1, 0, 0, 0, 0, 0x10, 0, 0], tMsg 1 255 [1, 0, 0, 0, 0, 0x10, 0, 0], 1, 1, tHost, .dev, .get 0 [1] (tMsg 1 255 [1, 0, 0, 0, 0, 0x10, 0, 0]), ⟨List.mem_cons_self .., tHub_opened tHub (by decide +kernel) (by decide +kernel) (fun _ => rfl) _ _ _, by decide +kernel, by decide +kernel⟩⟩
theorem witness_hostRequests_3 : ∃ (s : State) (lane : Fin 2) (peer : Bytes) (p : Bytes) (m : HostMsg) (k : Nat) (type : Nat) (x : HSess) (g : Tgt) (c : Instr), (type, c) ∈ [(1, .get lane peer m), (2, .set lane peer m), (3, .getBlock lane peer m), (4, .setBlock lane peer m), (5, .subscribe lane peer m), (6, .unsubscribe lane peer m), (7, .fetch (.host lane peer m)), (8, .ackDiscard (.host lane peer m)), (9, .exec lane peer m), (10, .close lane peer m)] ∧ s.opened lane type m k x p ∧ tgtOf m.target = some g ∧ ((s.taken lane m k x).hubAnswers.pier.hub.begun k m.target || waitsFor (s.taken lane m k x).hubAnswers.pier.hub.waits k m.target) = true ∧ (s.taken lane m k x).hubAnswers.denied k type g p = false :=
  ⟨tHubExec, 0, [1], [1, 0, 0, 0, 0, 0x10, 0, 0], tMsg 1 255 [1, 0, 0, 0, 0, 0x10, 0, 0], 1, 1, tHost, .dev, .get 0 [1] (tMsg 1 255 [1, 0, 0, 0, 0, 0x10, 0, 0]), ⟨List.mem_cons_self .., tHub_opened tHubExec (by decide +kernel) (by decide +kernel) (fun _ => rfl) _ _ _, by decide +kernel, by decide +kernel, by decide +kernel⟩⟩
theorem tCert_signed : certSignedBy tCert tPub = true := by decide +kernel
theorem tSig2_good : Crypto.ecdsaVerify tPub (tHandshake.hello ++ tHandshake.rsp ++ tCert) tSig2 = true := by decide +kernel
theorem tAuth_key : ∀ j : Fin 8, Tbl.get tAct.regs (Reg.device_sec_anchor.key 0 j) = none ∧ Reg.device_sec_anchor.key 0 j ≠ Reg.device_host_frames_in.key 0 0 ∧
    (j ≠ 0 → Reg.device_sec_anchor.key 0 j ≠ Reg.device_sec_anchor.key 0 0) := by decide +kernel
theorem tAuth_entry (j : Nat) (h : j < 8) : (tAuthState.bump Reg.device_host_frames_in 0 0).rdAll Reg.device_sec_anchor 0 j = if j = 0 then tFull else List.replicate 1024 0 := by
  have hk := tAuth_key ⟨j, h⟩
  have hc : ∀ f, (tAct.onHub f).cells Reg.device_sec_anchor 0 j = [] := by
    intro f
    unfold State.cells
    rw [show Tbl.get (tAct.onHub f).regs (Reg.device_sec_anchor.key 0 j) = none from hk.1]
  have hs : (tAuthState.bump Reg.device_host_frames_in 0 0).rdAll Reg.device_sec_anchor 0 j = tAuthState.rdAll Reg.device_sec_anchor 0 j := by
    unfold State.rdAll State.bump
    exact State.rdB_wr_ne _ _ _ _ _ _ _ _ _ _ hk.2.1
  rw [hs]
  by_cases h0 : j = 0
  · subst h0
    rw [if_pos rfl]
    exact tNew _ _ _ _ _ _ (hc _) (by decide) tFull_of rfl
  · rw [if_neg h0]
    unfold tAuthState State.rdAll
    rw [State.rdB_wrB_ne _ _ _ _ _ _ _ _ _ _ _ (hk.2.2 (Fin.ne_of_val_ne h0))]
    unfold State.rdB
    rw [hc]
    apply List.ext_getElem
    · simp [Reg.device_sec_anchor]
    · intro k h1 h2
      simp [Cells.read, Tbl.get, Reg.device_sec_anchor, Dflt.byteAt]
theorem tAuth_anchors : (tAuthState.bump Reg.device_host_frames_in 0 0).anchors = [tFull] := by
  unfold State.anchors
  rw [List.map_congr_left (g := fun j => if j = 0 then tFull else List.replicate 1024 0) fun j h => tAuth_entry j (List.mem_range.mp h)]
  decide +kernel
theorem tEcdh : Crypto.ecdh Crypto.p256 1 tPub = some ((Crypto.ecdh Crypto.p256 1 tPub).getD []) := by decide +kernel
theorem tCert_parse : ∃ x, certParse tCert = some x ∧ x.rights = some 4 ∧ x.key = tPub :=
  ⟨(certParse tCert).getD ⟨[], [], [], [], [], []⟩, by decide +kernel⟩
theorem tAuthOpens {s : State} {x : HSess} {p c sig pub z : Bytes} {r : Nat} (hn : ¬ (fld p 0 2 = 0 ∨ 1024 < fld p 0 2 ∨ p.length ≠ 2 + fld p 0 2 + 64))
    (hc : (p.drop 2).take (fld p 0 2) = c) (hs : p.drop (2 + fld p 0 2) = sig) (hg : s.certGrants c = some (r, pub))
    (hz : Crypto.ecdh Crypto.p256 x.eph (x.hello.drop 16) = some z) (hv : Crypto.ecdsaVerify pub (x.hello ++ x.rsp ++ c) sig = true) :
    s.authOpen x p = some (r, Crypto.kdf z (Crypto.ascii "TRAKMER") (Crypto.sha256 (x.hello ++ x.rsp ++ c)) 512, Crypto.sha256 c) := by
  subst hc hs
  simp only [State.authOpen, if_neg hn, hg, hz, hv, if_true]
theorem tAnchored {s : State} {c a pub : Bytes} (h : s.anchors = [a]) (hp : certPub a = some pub) (hs : certSignedBy c pub = true) : s.anchored c = true := by
  unfold State.anchored
  rw [h]
  simp [hp, hs]
theorem tAuth_grants : (tAuthState.bump Reg.device_host_frames_in 0 0).certGrants tCert = some (4, tPub) := by
  obtain ⟨x, hx, hr, hk⟩ := tCert_parse
  have hn : (tAuthState.bump Reg.device_host_frames_in 0 0).pierNs = 0 := by decide +kernel
  simp only [State.certGrants, hx, tAnchored tAuth_anchors tFull_pub tCert_signed, hn, hr, hk, decide_true, Bool.true_or, Bool.and_self, if_true, Option.map_some]
theorem tAuth_z : Crypto.ecdh Crypto.p256 tHandshake.eph (tHandshake.hello.drop 16) = some ((Crypto.ecdh Crypto.p256 1 tPub).getD []) := by
  rw [show tHandshake.hello.drop 16 = tPub from rfl, show tHandshake.eph = 1 from rfl]
  exact tEcdh
theorem tAuth_open : (tAuthState.bump Reg.device_host_frames_in 0 0).authOpen tHandshake tAuth.body = some (4, Crypto.kdf ((Crypto.ecdh Crypto.p256 1 tPub).getD []) (Crypto.ascii "TRAKMER") (Crypto.sha256 (tHandshake.hello ++ tHandshake.rsp ++ tCert)) 512, Crypto.sha256 tCert) :=
  tAuthOpens (by decide +kernel) (by decide +kernel) (by decide +kernel) tAuth_grants tAuth_z tSig2_good
theorem witness_hello : ∃ (s : State) (lane : Fin 2) (m : HostMsg), s.laneDown lane = false ∧ m.form = .trakmer ∧ s.pier.rootState ≠ 2 ∧ m.session = 0 ∧ m.status = 0 ∧ m.ref = 0 ∧ m.flags < 4 ∧ m.len = 81 ∧ m.body.length = 81 ∧ s.pier.hub.hostSessions < 8 ∧ s.pier.hub.handshakes s.now < 16 ∧ s.hubRandom = true :=
  ⟨{ tHub with now := 5000000 }, 0, { target := 255, status := 0, session := 0, seq := 0, ref := 0, len := 81, flags := 0, body := List.replicate 16 0 ++ tPub }, (by and_intros <;> first | decide +kernel | exact decide_eq_true (Nat.le_trans (Nat.add_le_add_left (Nat.min_le_right _ _) _) (by decide +kernel)))⟩
theorem witness_auth_1 : ∃ (s : State) (lane : Fin 2) (m : HostMsg) (k : Nat) (r : Nat) (slot : Nat) (x : HSess) (keys : Bytes) (print : Bytes), s.laneDown lane = false ∧ m.form = .trakmer ∧ s.pier.hub.sess.find? (fun e => decide (e.2.id = m.session) && e.2.slot.isNone && (decide (e.2.chan = serialChan) == false)) = some (k, x) ∧ s.now ≤ x.since + authNs ∧ m.status = 0 ∧ m.ref = 0 ∧ m.flags < 4 ∧ m.len = m.body.length ∧ (s.bump Reg.device_host_frames_in 0 lane).authOpen x m.body = some (r, keys, print) ∧ s.pier.hub.freeSlot false = some slot :=
  ⟨tAuthState, 0, tAuth, 1, 4, 0, tHandshake, Crypto.kdf ((Crypto.ecdh Crypto.p256 1 tPub).getD []) (Crypto.ascii "TRAKMER") (Crypto.sha256 (tHandshake.hello ++ tHandshake.rsp ++ tCert)) 512, Crypto.sha256 tCert, ⟨by decide +kernel, by decide +kernel, by decide +kernel, by decide +kernel, by decide +kernel, by decide +kernel, by decide +kernel, by decide +kernel, tAuth_open, by decide +kernel⟩⟩
theorem witness_noSession_1 : ∃ (s : State) (lane : Fin 2) (type : Nat) (m : HostMsg), s.laneDown lane = false ∧ m.form = .trakmer ∧ 1 ≤ type ∧ type ≤ 10 ∧ s.pier.hub.find m.session = none ∧ (s.pier.hub.noSess.filter fun e => decide (s.now < e + 1000000000)).length < 100 ∧ s.rd Reg.device_host_no_session_sent 0 + 1 < Reg.device_host_no_session_sent.span :=
  ⟨tHub, 0, 1, { tMsg 1 255 [1] with session := 8 }, by decide +kernel⟩
theorem witness_sessionIdle : ∃ (s : State) (session : Nat) (k : Nat) (x : HSess), s.pier.hub.find session = some (k, x) ∧ (s.pier.hub.execs.any fun w => decide (w.sess = k)) = false ∧ max x.lastReq x.busyAt + s.rd Reg.device_host_session_idle_s 0 * 1000000000 ≤ s.now :=
  ⟨{ tHub with now := tAct.rd Reg.device_host_session_idle_s 0 * 1000000000 }, 7, 1, tHost, by decide +kernel⟩
theorem witness_sessionEnd : ∃ (s : State) (k : Nat) (x : HSess), s.pier.hub.place (s.rd Reg.device_host_session_select 0) = some (k, x) :=
  ⟨tHub.wr Reg.device_host_session_select 0 0, 1, tHost, by decide +kernel⟩
theorem witness_stagingLockTimeout : ∃ (s : State) (index : Nat) (sub : Nat) (a : Nat) (b : Nat), Tbl.get s.pier.hub.locks (index * 256 + sub) = some (a, b) ∧ b + lockNs ≤ s.now :=
  ⟨{ (tHub.onHub fun h => { h with locks := [(0x100003, (1, 0))] }) with now := 60000000000 }, 0x1000, 3, 1, 0, by decide +kernel⟩
theorem witness_noSession_2 : ∃ (s : State) (lane : Fin 2) (type : Nat) (m : HostMsg), s.laneDown lane = false ∧ m.form = .trakmer ∧ 1 ≤ type ∧ type ≤ 10 ∧ s.pier.hub.find m.session = none ∧ 100 ≤ (s.pier.hub.noSess.filter fun e => decide (s.now < e + 1000000000)).length :=
  ⟨tHub.onHub fun h => { h with noSess := List.replicate 100 0 }, 0, 10, { tMsg 1 255 [1] with session := 8 }, by decide +kernel⟩
theorem witness_noSession_3 : ∃ (s : State) (lane : Fin 2) (type : Nat) (m : HostMsg), s.laneDown lane = false ∧ m.form = .trakmer ∧ (type = 0 ∨ 10 < type) ∧ type ≠ 0x70 ∧ type ≠ 0x71 :=
  ⟨tHub, 0, 11, tMsg 1 255 [1], by decide +kernel⟩
theorem witness_hostSessions : ∃ (s : State) (lane : Fin 2) (peer : Bytes) (type : Nat) (m : HostMsg) (c : Instr), s.laneDown lane = false ∧ (m.form = .otherPort ∨ m.form = .fragment) ∧ c ∈ [.hello lane peer m, .auth lane peer m, .noSession lane peer type m, .get lane peer m, .set lane peer m, .getBlock lane peer m, .setBlock lane peer m, .subscribe lane peer m, .unsubscribe lane peer m, .exec lane peer m, .close lane peer m] :=
  ⟨tHub, 0, [1], 0, { target := 0, status := 0, session := 0, seq := 0, ref := 0, len := 0, flags := 0, body := [], form := .otherPort }, .hello 0 [1] { target := 0, status := 0, session := 0, seq := 0, ref := 0, len := 0, flags := 0, body := [], form := .otherPort }, ⟨by decide +kernel, Or.inl rfl, List.mem_cons_self ..⟩⟩
theorem witness_noSession_5 : ∃ (s : State) (lane : Fin 2) (m : HostMsg), s.laneDown lane = false ∧ m.form = .echo :=
  ⟨tHub, 0, { target := 0, status := 0, session := 0, seq := 0, ref := 0, len := 0, flags := 0, body := [], form := .echo }, by decide +kernel⟩
theorem witness_noSession_6 : ∃ (s : State) (lane : Fin 2) (m : HostMsg), s.laneDown lane = false ∧ m.form = .solicit ∧ s.pier.hub.cfg.owns lane m.body = true :=
  ⟨tHub, 0, { target := 0, status := 0, session := 0, seq := 0, ref := 0, len := 0, flags := 0, body := linkLocal 0, form := .solicit }, ⟨by decide +kernel, rfl, by simp [HubCfg.owns]⟩⟩
theorem witness_auth_2 : ∃ (s : State) (lane : Fin 2) (m : HostMsg) (k : Nat) (x : HSess), s.laneDown lane = false ∧ m.form = .trakmer ∧ s.pier.hub.sess.find? (fun e => decide (e.2.id = m.session) && e.2.slot.isNone && (decide (e.2.chan = serialChan) == false)) = some (k, x) ∧ x.since + authNs < s.now :=
  ⟨{ tAuthState with now := 60000000000 }, 0, tAuth, 1, tHandshake, by decide +kernel⟩
theorem witness_notify_1 : ∃ (s : State) (t : TileId) (e : Event) (l : List Event), s.pier.up = true ∧ s.inRun t = true ∧ (s.vol t).elog.unsent = e :: l :=
  ⟨tHub.onVol 0 fun v => { v with elog := { v.elog with unsent := [tEvent] } }, 0, tEvent, [], by decide +kernel⟩
theorem witness_notify_2 : ∃ (s : State) (t : TileId), s.pier.up = true ∧ s.inRun t = true :=
  ⟨tHub, 0, by decide +kernel⟩
theorem witness_watchCompare : ∃ (s : State) (session : Nat) (sub : Nat) (k : Nat) (x : HSess) (w : HSub), s.pier.hub.find session = some (k, x) ∧ x.subs.find? (fun w => decide (w.id = sub) && decide (w.stream = 2)) = some w ∧ w.at_ + w.minMs * 1000000 ≤ s.now :=
  ⟨{ (tHub.onHub fun h => { h with sess := [(1, { tHost with subs := [tSub] })] }) with now := 10000000 }, 7, 3, 1, { tHost with subs := [tSub] }, tSub, by decide +kernel⟩
theorem witness_laneDown_1 : ∃ (s : State), s.pier.up = true ∧ s.pier.hub.laneUp.length = 2 ∧ s.pier.hub.laneAt.length = 2 :=
  ⟨tHub, by decide +kernel⟩
theorem witness_laneDown_2 : ∃ (s : State) (lane : Fin 2), s.pier.up = true ∧ s.pier.hub.cfg.mode = 0 ∧ s.pier.hub.active = lane ∧ s.pier.hub.laneUp.getD lane false = false ∧ s.pier.hub.laneAt.getD lane 0 + s.pier.hub.cfg.holdMs * 1000000 ≤ s.now ∧ s.pier.hub.laneUp.getD (otherLane lane) false = true :=
  ⟨{ (tHub.onHub fun h => { h with laneUp := [false, true] }) with now := 10000000 }, 0, by decide +kernel⟩
theorem witness_laneRevert : ∃ (s : State), s.pier.hub.cfg.mode = 0 ∧ s.pier.hub.cfg.revertS ≠ 0 ∧ s.pier.hub.laneUp.getD s.pier.hub.cfg.primary false = true ∧ s.pier.hub.active ≠ s.pier.hub.cfg.primary ∧ s.pier.hub.laneAt.getD s.pier.hub.cfg.primary 0 + s.pier.hub.cfg.revertS * 1000000000 ≤ s.now :=
  ⟨{ (tHub.onHub fun h => { h with laneUp := [true, true], active := 1 }) with now := 10000000000 }, by decide +kernel⟩
theorem witness_serialFrame_1 : ∃ (s : State) (frame : Bytes) (b : Bytes), s.pier.up = true ∧ s.pier.clock ≠ .select ∧ unstuff frame = some (u8 s.pier.hub.cfg.addr ++ b ++ u16 (fcs16 (u8 s.pier.hub.cfg.addr ++ b))) ∧ s.pier.hub.cfg.addr < 256 :=
  ⟨tClk, [1, 9] ++ u16 (fcs16 [1, 9]), [9], by decide +kernel⟩
theorem witness_serialTileTimeout_1 : ∃ (s : State) (w : HExec), s.pier.hub.execs.find? (fun w => s.isSerial w.sess && decide (w.target < 16) && decide (w.since + 200000000 ≤ s.now)) = some w :=
  ⟨tSerial.onHub fun h => { h with execs := [tExec] }, tExec, by decide +kernel⟩
theorem witness_serialTileTimeout_2 : ∃ (s : State) (w : HSet), s.pier.hub.execs = [] ∧ s.pier.hub.sets.find? (fun w => s.isSerial w.sess && decide (w.since + 200000000 ≤ s.now)) = some w :=
  ⟨tSerial.onHub fun h => { h with sets := [tSet1] }, tSet1, by decide +kernel⟩
theorem witness_notify_3 : ∃ (s : State), s.pier.up = true :=
  ⟨tHub.onPier fun p => { p with elog := { p.elog with unsent := [tEvent] } }, by decide +kernel⟩
theorem witness_laneDown_3 : ∃ (s : State), s.pier.up = true :=
  ⟨tHub, by decide +kernel⟩
theorem witness_serialFrame_2 : ∃ (s : State) (frame : Bytes), s.pier.up = true ∧ s.pier.clock ≠ .select ∧ unstuff frame = none :=
  ⟨tClk, [0x7D], by decide +kernel⟩
theorem witness_ptpAnnounce_1 : ∃ (s : State) (lane : Fin 2), s.laneDown lane = false ∧ s.pier.time.source = 0 ∧ s.pier.time.masters = [] ∧ s.pier.time.best = none ∧ s.laneHeard lane = true ∧ s.rd Reg.device_time_master_changes 0 + 1 < Reg.device_time_master_changes.span :=
  ⟨tLane, 0, by decide +kernel⟩
theorem witness_ptpSync_1 : ∃ (s : State) (y : State) (lane : Fin 2) (m : Master) (two : Bool), s.pier.time.best = some m ∧ s.pier.time.source = 0 ∧ m.lane = lane.val ∧ s.laneHeard lane = true ∧ s.laneDown lane = false ∧ y = (if two then (s.ptpForward 60).ptpForward 60 else s.ptpForward 60) :=
  ⟨(tLane.onPier fun p => { p with time := { p.time with best := some tMaster, source := 0 } }), ((tLane.onPier fun p => { p with time := { p.time with best := some tMaster, source := 0 } }).ptpForward 60).ptpForward 60, 0, tMaster, true, (by and_intros <;> first | with_reducible rfl | decide +kernel)⟩
theorem witness_pdelay : ∃ (s : State) (lane : Fin 2) (t1 : Nat) (t2 : Nat) (t3 : Nat) (t4 : Nat) (d : Nat), s.laneDown lane = false ∧ s.pier.time.source = 0 ∧ d = meanLinkDelay (58 + s.rdI Reg.device_time_lane_corr_ns 0 lane) (36 + s.rdI Reg.device_time_lane_corr_ns 0 lane) (t1, t2, t3, t4) ∧ d < Reg.device_time_link_delay_ns.span :=
  ⟨tLane, 1, 100, 300, 310, 510, 153, by decide +kernel⟩
theorem witness_ppsEdge_1 : ∃ (s : State) (width : Nat) (sec : Nat), s.pier.up = true ∧ s.rd Reg.device_time_pps_polarity 0 = 0 ∧ 100 ≤ width ∧ s.pier.time.lastEdge = none ∧ s.pier.time.todNamed = some sec ∧ s.pier.time.source = 1 :=
  ⟨(tAct.onPier fun p => { p with time := { p.time with todNamed := some 40, source := 1 } }).wr Reg.device_time_pps_polarity 0 0, 100, 40, by decide +kernel⟩
theorem witness_ppsEdge_2 : ∃ (s : State) (width : Nat), s.pier.up = true ∧ s.pier.time.source = 1 ∧ s.rd Reg.device_time_pps_polarity 0 = 0 ∧ 100 ≤ width ∧ s.pier.time.lastEdge = none ∧ s.pier.time.todNamed = none ∧ s.rd Reg.device_time_tod_errors 0 + 1 < Reg.device_time_tod_errors.span :=
  ⟨tPps, 100, by decide +kernel⟩
theorem witness_todMessage_1 : ∃ (s : State) (msg : Bytes) (sec : Nat) (l : Nat) (u : Int), parseTod msg = some (sec, u, l) ∧ s.pier.time.lastEdge = none ∧ s.pier.time.source = 0 :=
  ⟨tAct, Crypto.ascii "$WTOD,40,37,0,0*" ++ Crypto.ascii "08" ++ [13, 10], 40, 0, 37, by decide +kernel⟩
theorem witness_ptpAnnounce_2 : ∃ (s : State) (lane : Fin 2) (port : Bytes) (gm : Bytes) (prio1 : Nat) (cls : Nat) (acc : Nat) (var : Nat) (prio2 : Nat) (steps : Nat) (src : Nat) (utc : Int) (leap : Int) (utcValid : Bool) (m : Master), s.laneDown lane = false ∧ s.pier.time.source = 0 ∧ m = { lane := lane, port := port, gm := gm, prio1 := prio1, cls := cls, acc := acc, var := var, prio2 := prio2, steps := steps, src := src, utc := utc, utcValid := utcValid, leap := clampI 1 leap, seen := s.now } :=
  ⟨tLane, 0, [1], [2], 1, 6, 0, 0, 1, 0, 0x20, 37, 0, true, tMaster, by decide +kernel⟩
theorem witness_ptpAnnounce_3 : ∃ (s : State) (p : PtpSender), (s.pier.time.source ≠ 0 ∨ p.domain ≠ s.rd Reg.device_time_ptp_domain 0) :=
  ⟨tLane, { domain := tLane.rd Reg.device_time_ptp_domain 0 + 1, port := [1] }, by decide +kernel⟩
theorem witness_ptpSync_2 : ∃ (s : State) (domain : Nat), domain ≠ s.rd Reg.device_time_ptp_domain 0 :=
  ⟨tLane.onPier fun p => { p with time := { p.time with best := some tMaster, source := 0 } }, 9, by decide +kernel⟩
theorem witness_ppsEdge_3 : ∃ (s : State) (rising : Bool) (width : Nat) (sec : Nat), s.pier.up = true ∧ rising = decide (s.rd Reg.device_time_pps_polarity 0 = 0) ∧ 100 ≤ width ∧ (s.pier.time.lastEdge.all fun e => decide (e + 500000000 ≤ s.now)) = true ∧ s.pier.time.todNamed = some sec ∧ s.pier.time.source = 1 :=
  ⟨{ (tPps.onPier fun p => { p with time := { p.time with todNamed := some 40, lastEdge := some 0 } }) with now := 500000000 }, true, 100, 40, by decide +kernel⟩
theorem witness_ppsEdge_4 : ∃ (s : State) (rising : Bool) (width : Nat), s.pier.up = true ∧ (rising ≠ decide (s.rd Reg.device_time_pps_polarity 0 = 0) ∨ width < 100 ∨ (s.pier.time.lastEdge.any fun e => decide (s.now < e + 500000000)) = true) :=
  ⟨tPps, true, 99, by decide +kernel⟩
theorem witness_todMessage_2 : ∃ (s : State) (msg : Bytes) (sec : Nat) (l : Nat) (u : Int), parseTod msg = some (sec, u, l) ∧ (s.pier.time.lastEdge.all fun e => decide (e + 100000000 ≤ s.now) && decide (s.now ≤ e + 900000000)) = true :=
  ⟨{ (tPps.onPier fun p => { p with time := { p.time with lastEdge := some 0 } }) with now := 900000000 }, Crypto.ascii "$WTOD,40,37,0,0*" ++ Crypto.ascii "08" ++ [13, 10], 40, 0, 37, by decide +kernel⟩
theorem witness_meridianMeasurement : ∃ (s : State) (t : TileId) (c : Nat) (o : Int) (r : List (Nat × Int)), (s.vol t).mer.formed = (c, o) :: r :=
  ⟨tAct.onMer 0 fun m => { m with formed := [(1, 5), (2, 6)] }, 0, 1, 5, [(2, 6)], by decide +kernel⟩
theorem witness_referenceLoss : ∃ (s : State) (t : TileId), s.rd Reg.time_state t = 2 ∧ (s.vol t).mer.lastMeas + s.rd Reg.device_time_loss_ms 0 * 1000000 ≤ s.now :=
  ⟨{ (timed tAct) with now := tAct.rd Reg.device_time_loss_ms 0 * 1000000 }, 0, by decide +kernel⟩
theorem witness_leapSecond_1 : ∃ (s : State), s.rdI Reg.device_time_leap_pending 0 ≠ 0 ∧ s.pier.time.leapAt ≠ 0 ∧ s.pier.time.leapAt ≤ s.pierNs / 1000000000 :=
  ⟨((timed tAct).wrI Reg.device_time_leap_pending 0 1).onPier fun p => { p with time := { p.time with leapAt := 37 } }, by decide +kernel⟩
theorem witness_leapSecond_2 : ∃ (s : State), s.rdI Reg.device_time_leap_pending 0 ≠ 0 ∧ s.pierNs / 1000000000 ≠ 0 ∧ (s.pier.time.leapAt = 0 ∨ s.pierNs / 1000000000 < s.pier.time.leapAt) ∧ s.pierNs / 1000000000 < leapInstant (s.pierNs / 1000000000) s.pier.time.utc (s.rdI Reg.device_time_leap_pending 0) :=
  ⟨(timed tAct).wrI Reg.device_time_leap_pending 0 1, by decide +kernel⟩
theorem witness_restep_1 : ∃ (s : State) (t : TileId) (p : Bytes) (mask : Nat), restepParams p = some (mask, 0, 0) ∧ s.pier.time.restep = none ∧ allTiles.filter (fun t => bit mask t.val) = [t] ∧ s.inRun t = true ∧ (s.restepTable t).length < 4 :=
  ⟨tAct, 0, [1] ++ List.replicate 15 0, 1, by decide +kernel⟩
theorem witness_restepTimeout_1 : ∃ (s : State) (t : TileId) (r : RestepRun), s.pier.time.restep = some r ∧ r.waiting = [t.val] ∧ r.failed = [] ∧ r.start + 70000000000 ≤ s.now :=
  ⟨{ (tAct.onPier fun p => { p with time := { p.time with restep := some { mode := 0, waiting := [0], failed := [], full := false, start := 0 } } }) with now := 70000000000 }, 0, { mode := 0, waiting := [0], failed := [], full := false, start := 0 }, by decide +kernel⟩
theorem witness_toutEdge_1 : ∃ (s : State) (b : BayId) (t : TileId), s.pier.up = true ∧ s.rd Reg.bay_time_tout_mode b = 0 ∧ s.toutTile b = some t ∧ s.timeNs t % 1000000000 < (s.rd Reg.bay_time_tout_width_us b * 1000 : Nat) ∧ (((s.bay b).toutOf = some t.val ∧ (s.bay b).toutSec < s.timeNs t / 1000000000) ∨ ((s.bay b).toutOf ≠ some t.val ∧ s.timeNs t % 1000000000 < 1000)) ∧ (s.bay b).toutLevel = false ∧ s.rd Reg.bay_time_tout_pulses b + 1 < Reg.bay_time_tout_pulses.span :=
  ⟨(timed tAct).setOwn 0 true, 0, 0, by decide +kernel⟩
theorem witness_ptpMasterTx_1 : ∃ (s : State) (t : TileId) (cls : Nat) (src : Nat) (steps : Nat), s.serves t = true ∧ s.inRun t = true ∧ s.announceOf t = some (cls, src, steps) ∧ cls < 256 ∧ s.timeNs t / 1000000000 ≠ (s.vol t).ptpSec ∧ s.rd Reg.time_ptp_master_enable t = 1 :=
  ⟨tGm 1, 0, 6, 0x90, 0, by decide +kernel⟩
theorem witness_ptpMasterTx_2 : ∃ (s : State) (t : TileId) (cls : Nat) (src : Nat) (steps : Nat), s.serves t = true ∧ s.inRun t = true ∧ s.announceOf t = some (cls, src, steps) ∧ s.timeNs t / 1000000000 ≠ (s.vol t).ptpSec ∧ s.rd Reg.time_ptp_master_enable t = 0 :=
  ⟨tGm 0, 0, 6, 0x90, 0, by decide +kernel⟩
theorem witness_ptpMasterTx_3 : ∃ (s : State) (t : TileId) (cls : Nat) (src : Nat) (steps : Nat) (d : Nat × Nat × Nat × Nat), s.serves t = true ∧ s.inRun t = true ∧ s.announceOf t = some (cls, src, steps) ∧ s.timeNs t / 1000000000 ≠ (s.vol t).ptpSec ∧ s.rd Reg.time_ptp_master_enable t = 1 ∧ s.peerDelay t 0 d < Reg.time_peer_delay_ns.span :=
  ⟨tGm 1, 0, 6, 0x90, 0, (100, 300, 310, 510), by decide +kernel⟩
theorem witness_toutEdge_2 : ∃ (s : State) (b : BayId) (t : TileId), s.pier.up = true ∧ s.rd Reg.bay_time_tout_mode b = 0 ∧ s.toutTile b = some t ∧ (s.rd Reg.bay_time_tout_width_us b * 1000 : Nat) ≤ s.timeNs t % 1000000000 ∧ (s.bay b).toutLevel = true :=
  ⟨{ tTout 0 true with now := 999999999 }, 0, 0, by decide +kernel⟩
theorem witness_toutEdge_3 : ∃ (s : State) (b : BayId), s.pier.up = true ∧ s.rd Reg.bay_time_tout_mode b = 1 ∧ (s.bay b).toutLevel ≠ s.pier.time.ppsLevel :=
  ⟨tTout 1 true, 0, by decide +kernel⟩
theorem witness_toutEdge_4 : ∃ (s : State) (b : BayId), s.pier.up = true ∧ (s.rd Reg.bay_time_tout_mode b ≠ 0 ∧ s.rd Reg.bay_time_tout_mode b ≠ 1 ∨ s.rd Reg.bay_time_tout_mode b = 0 ∧ s.toutTile b = none) :=
  ⟨tTout 2 true, 0, by decide +kernel⟩
theorem witness_restep_2 : ∃ (p : Bytes), restepParams p = none :=
  ⟨[9], by decide +kernel⟩
theorem witness_restep_3 : ∃ (s : State) (y : State) (p : Bytes) (mask : Nat) (mode : Nat) (ns : Nat) (r : RestepRun), restepParams p = some (mask, mode, ns) ∧ s.pier.time.restep = none ∧ allTiles.filter (fun t => bit mask t.val) ≠ [] ∧ r = { mode := mode, waiting := (allTiles.filter fun t => bit mask t.val).map Fin.val, failed := [], full := false, start := s.now, act := s.acts.now } ∧ y = s.onPier (fun q => { q with time := { q.time with restep := some r } }) :=
  ⟨tAct, tAct.onPier fun q => { q with time := { q.time with restep := some { mode := 0, waiting := [0], failed := [], full := false, start := 0 } } }, [1] ++ List.replicate 15 0, 1, 0, 0, { mode := 0, waiting := [0], failed := [], full := false, start := 0 }, by decide +kernel⟩
theorem witness_restepTimeout_2 : ∃ (s : State) (r : RestepRun), s.pier.time.restep = some r :=
  ⟨{ (tAct.onPier fun p => { p with time := { p.time with restep := some { mode := 0, waiting := [0, 1], failed := [], full := false, start := 0 } } }) with now := 70000000000 }, { mode := 0, waiting := [0, 1], failed := [], full := false, start := 0 }, by decide +kernel⟩
theorem tCerts_id (n : Nat) : (tCerts n).rdAll Reg.vault_cert_id (0 : TileId) = tFull := by
  unfold tCerts State.rdAll
  rw [State.rdB_wrB_ne _ _ _ _ _ _ _ _ _ _ _ (by decide)]
  exact tNew _ _ _ _ _ _ rfl (by decide) tFull_of rfl
theorem tCerts_link (n : Nat) : (tCerts n).rdAll Reg.vault_cert_link (0 : TileId) = tFull := by
  unfold tCerts
  refine tNew _ _ _ _ _ _ ?_ (by decide) tFull_of rfl
  unfold State.cells
  rw [State.get_wrB_ne _ _ _ _ _ _ _ (by decide)]
  rfl
theorem witness_vaultEnrol : ∃ (s : State) (a : State) (b : State) (t : TileId) (ka : Bytes) (kb : Bytes), (s.lifecycle t = 0 ∨ s.lifecycle t = 3) ∧ s.drbgReady t = true ∧ s.rd Reg.vault_enrol_mode t ≠ 1 ∧ ((s.tile (mate t)).retired = true ∨ leNat ((s.tile (mate t)).keyPage.bkF ++ (s.tile (mate t)).keyPage.bkP) = 0) ∧ s.draw t = (a, ka) ∧ a.draw t = (b, kb) :=
  ⟨tRandom, (tRandom.draw 0).1, ((tRandom.draw 0).1.draw 0).1, 0, (tRandom.draw 0).2, ((tRandom.draw 0).1.draw 0).2, ⟨by decide +kernel, by decide +kernel, by decide +kernel, by decide +kernel, rfl, rfl⟩⟩
theorem witness_bayOffer : ∃ (s : State) (t : TileId) (k : Bytes), (s.lifecycle t = 1 ∨ s.lifecycle t = 2 ∨ s.lifecycle t = 3) ∧ (s.vol t).vault.bayKek = some k :=
  ⟨tCerts 2, 0, List.replicate 32 2, by decide +kernel⟩
theorem witness_bayOfferExpiry : ∃ (s : State) (t : TileId) (u : Nat), (s.vol t).vault.offerUntil = some u ∧ u ≤ s.now :=
  ⟨tAct.onVault 0 fun v => { v with offerUntil := some 0 }, 0, 0, by decide +kernel⟩
theorem witness_goField : ∃ (s : State) (t : TileId) (g : Nat), s.lifecycle t = 1 ∧ s.certHeld t Reg.vault_cert_id 0 = true ∧ s.certHeld t Reg.vault_cert_link 1 = true ∧ s.archGen t = some g :=
  ⟨tCerts 1, 0, 0, ⟨by decide +kernel, by rw [State.certHeld, tCerts_id, tFull_pub]; decide +kernel, by rw [State.certHeld, tCerts_link, tFull_pub]; decide +kernel, by decide +kernel⟩⟩
theorem witness_vaultErase_1 : ∃ (s : State) (t : TileId), s.serves t = false ∧ (s.lifecycle t = 1 ∨ s.lifecycle t = 2) :=
  ⟨(tCerts 2).setRole 0 255, 0, by decide +kernel⟩
theorem witness_vaultRetire : ∃ (s : State) (t : TileId), s.serves t = false ∧ s.lifecycle t ≠ 4 :=
  ⟨(tCerts 2).setRole 0 255, 0, by decide +kernel⟩
theorem witness_archiveRotate : ∃ (s : State) (t : TileId) (k : Bytes) (g : Nat), s.serves t = true ∧ s.drbgReady t = true ∧ (s.vol t).vault.rotating = false ∧ (s.vol t).vault.bayKek = some k ∧ s.archGen t = some g :=
  ⟨((tCerts 2).wr Reg.vault_drbg_state 0 1), 0, List.replicate 32 2, 0, by decide +kernel⟩
theorem witness_vaultImport : ∃ (s : State) (u : State) (t : TileId) (b : Bytes) (d : Bytes) (z : Bytes) (n : Nat) (pt : Nat × Nat), s.serves t = true ∧ s.rdAll Reg.vault_import_stage t = b ∧ fld b 0 1 = 1 ∧ fld b 1 1 = n ∧ 1 ≤ n ∧ n ≤ 16 ∧ fld b 2 2 = 0 ∧ fld b 69 3 = 0 ∧ Crypto.decodePoint Crypto.p256 ((b.drop 4).take 65) = some pt ∧ s.useSlot t 2 = (u, some d) ∧ Crypto.ecdh Crypto.p256 (beNat d) ((b.drop 4).take 65) = some z :=
  ⟨tImport, tImport, 0, [1, 1, 0, 0] ++ tPub ++ List.replicate (Reg.vault_import_stage.size - 69) 0, natBE 32 1, (Crypto.ecdh Crypto.p256 1 tPub).getD [], 1, (Crypto.decodePoint Crypto.p256 tPub).getD (0, 0), by decide +kernel⟩
theorem witness_vaultErase_2 : ∃ (s : State) (t : TileId), s.serves t = false ∧ s.lifecycle t = 0 :=
  ⟨tUp, 0, by decide +kernel⟩
theorem witness_vaultErase_3 : ∃ (s : State) (t : TileId), s.serves t = false ∧ s.lifecycle t = 3 ∧ s.pier.es = false :=
  ⟨(tCerts 3).setRole 0 255, 0, by decide +kernel⟩
theorem tTok_ok (hs : (tToken.drop 4).take 8 = fit 8 (Config.serial 0))
    (hv : Crypto.ecdsaVerify384 Config.debugKey (tToken.take 0x34) ((tToken.drop 0x34).take 96) = true) : tTok.tokenOk 0 = true := by
  have hb : tTok.rdAll Reg.vault_debug_token (0 : TileId) = tToken := by decide +kernel
  have hc : (tTok.vol 0).vault.challenge = some (List.replicate 16 3, 1) := by rfl
  have h1 : fld tToken 1 1 = 0 := by decide +kernel
  have h2 : (tToken.drop 0xC).take 16 = List.replicate 16 3 := by decide +kernel
  have hn : tTok.now = 0 := by rfl
  unfold State.tokenOk
  rw [hb, hc]
  simp [h1, h2, hs, hv, hn]
def tHostPub : Bytes := [4, 92, 128, 104, 175, 233, 23, 119, 45, 45, 211, 212, 148, 82, 176, 159, 208, 211, 68, 52, 80, 206, 129, 193, 99, 112, 37, 56, 227, 86, 117, 165, 236, 246, 47, 82, 200, 180, 161, 17, 95, 72, 25, 176, 209, 98, 54, 209, 121, 48, 173, 94, 207, 155, 221, 120, 130, 235, 112, 250, 226, 164, 243, 105, 199]
theorem tNext_pub : tEs.hostPub 1 = tHostPub := by decide +kernel
theorem tNext_full : tNext.rdAll Reg.device_sec_host_next_cert 0 = tCertOf tHostPub ++ List.replicate 770 0 := by
  unfold tNext
  rw [tNext_pub]
  exact tNew _ _ _ _ _ _ (by decide +kernel) (by decide) (by decide +kernel) rfl
theorem tNext_cert : certPub (tNext.rdAll Reg.device_sec_host_next_cert 0) = some (tNext.hostPub 1) := by
  have h : tNext.hostPub 1 = tEs.hostPub 1 := by
    unfold tNext State.hostPub State.hostKeyD State.wrB
    rfl
  rw [tNext_full, h, tNext_pub]
  decide +kernel
theorem witness_debugUnlock (hs : (tToken.drop 4).take 8 = fit 8 (Config.serial 0)) (hv : Crypto.ecdsaVerify384 Config.debugKey (tToken.take 0x34) ((tToken.drop 0x34).take 96) = true) : ∃ (s : State) (t : TileId), s.serves t = false ∧ s.lifecycle t < 3 ∧ s.tokenOk t = true :=
  ⟨tTok, 0, ⟨by decide +kernel, by decide +kernel, tTok_ok hs hv⟩⟩
theorem witness_debugChallenge : ∃ (s : State) (y : State) (t : TileId) (k : Bytes), s.drbgReady t = true ∧ s.draw t = (y, k) :=
  ⟨tRandom, (tRandom.draw 0).1, 0, (tRandom.draw 0).2, ⟨by decide +kernel, rfl⟩⟩
theorem witness_hostRekey : ∃ (s : State) (g : Nat), s.rd Reg.device_sec_host_key_gen 0 = g ∧ g < 255 ∧ certPub (s.rdAll Reg.device_sec_host_next_cert 0) = some (s.hostPub (g + 1)) :=
  ⟨tNext, 0, ⟨by decide +kernel, by decide +kernel, tNext_cert⟩⟩
theorem witness_certWrite_1 : ∃ (s : State) (t : TileId) (data : Bytes) (k : Bytes), data.length = 1024 ∧ leNat data ≠ 0 ∧ certPub data = some k ∧ s.slotPub t 0 = some k :=
  ⟨tCerts 1, 0, tFull, tPub, by decide +kernel⟩
theorem witness_anchorWrite_1 : ∃ (data : Bytes) (k : Bytes), data.length = 1024 ∧ leNat data ≠ 0 ∧ certPub data = some k :=
  ⟨tFull, tPub, by decide +kernel⟩
theorem witness_drbgReseed : ∃ (s : State) (t : TileId) (a : Nat), s.drbgReady t = true ∧ (s.vol t).vault.drbgSeeded = some a ∧ a + 10 * 10 ^ 9 ≤ s.now ∧ s.rd Reg.vault_reseeds t + 1 < Reg.vault_reseeds.span :=
  ⟨{ (tRandom.onVault 0 fun v => { v with drbgSeeded := some 0 }) with now := 10000000000 }, 0, 0, by decide +kernel⟩
theorem witness_healthFail : ∃ (s : State) (t : TileId) (a : Nat), (s.vol t).vault.drbgTry = some a ∧ s.rd Reg.vault_health_fail t + 1 < Reg.vault_health_fail.span :=
  ⟨tRandom.onVault 0 fun v => { v with drbgTry := some 0 }, 0, 0, by decide +kernel⟩
theorem witness_drbgReady_1 : ∃ (s : State) (t : TileId) (a : Nat), (s.vol t).vault.drbgTry = some a ∧ s.drbgReady t = false ∧ (s.vol t).vault.drbgOnce = false :=
  ⟨(tAct.wr Reg.vault_drbg_state 0 0).onVault 0 fun v => { v with drbgTry := some 0 }, 0, 0, by decide +kernel⟩
theorem witness_drbgStartTimeout : ∃ (s : State) (t : TileId) (a : Nat), (s.vol t).vault.drbgTry = some a ∧ s.rd Reg.vault_drbg_state t = 0 ∧ a + 100000000 ≤ s.now :=
  ⟨{ ((tAct.wr Reg.vault_drbg_state 0 0).onVault 0 fun v => { v with drbgTry := some 0 }) with now := 100000000 }, 0, 0, by decide +kernel⟩
theorem witness_certWrite_2 : ∃ (s : State) (t : TileId) (which : Fin 5) (off : Nat) (data : Bytes) (b : Bytes) (e : Entry) (n : Nat) (k : Bytes), off + data.length ≤ 1024 ∧ e = [Reg.vault_cert_id, Reg.vault_cert_link, Reg.vault_sat_anchor, Reg.device_sec_host_cert, Reg.device_sec_host_next_cert].getD which Reg.vault_cert_id ∧ n = (if which.val < 3 then t.val else 0) ∧ b = fit 1024 ((s.rdAll e n).take off ++ data ++ (s.rdAll e n).drop (off + data.length)) ∧ (leNat b = 0 ∨ certPub b = some k ∧ (which.val = 0 → s.slotPub t 0 = some k) ∧ (which.val = 1 → s.slotPub t 1 = some k)) :=
  ⟨tAct, 0, 4, 0, [], List.replicate 1024 0, Reg.device_sec_host_next_cert, 0, [], by decide +kernel⟩
theorem witness_anchorWrite_2 : ∃ (s : State) (j : Fin 8) (off : Nat) (data : Bytes) (b : Bytes) (k : Bytes), off + data.length ≤ 1024 ∧ b = fit 1024 ((s.rdAll Reg.device_sec_anchor 0 j).take off ++ data ++ (s.rdAll Reg.device_sec_anchor 0 j).drop (off + data.length)) ∧ (leNat b = 0 ∧ (s.wrB Reg.device_sec_anchor 0 off data j).anchors ≠ [] ∨ leNat b ≠ 0 ∧ certPub b = some k) :=
  ⟨tUp.wrB Reg.device_sec_anchor 0 0 [1] 6, 7, 0, [0], List.replicate 1024 0, [], by decide +kernel⟩
theorem witness_drbgReady_2 : ∃ (s : State) (t : TileId) (a : Nat), (s.vol t).vault.drbgTry = some a ∧ s.drbgReady t = false ∧ (s.vol t).vault.drbgOnce = true :=
  ⟨(tAct.wr Reg.vault_drbg_state 0 0).onVault 0 fun v => { v with drbgTry := some 0, drbgOnce := true }, 0, 0, by decide +kernel⟩
theorem witness_roleAssign_1 : ∃ (s : State) (t : TileId), s.readyForRole t = true ∧ s.independent t = true :=
  ⟨(tInd.setRole 1 255), 1, by decide +kernel⟩
theorem witness_roleAssign_2 : ∃ (s : State) (t : TileId), s.readyForRole t = true ∧ s.independent t = false ∧ s.role (mate t) = 0 :=
  ⟨tBay.setRole 1 255, 1, by decide +kernel⟩
theorem witness_roleAssign_3 : ∃ (s : State) (t : TileId), s.readyForRole t = true ∧ s.independent t = false ∧ s.role (mate t) ≠ 0 ∧ (s.bay (bayOf t)).promo = none ∧ s.ownSettled (bayOf t) = true ∧ s.preferred (bayOf t) = t :=
  ⟨tReady, 0, by decide +kernel⟩
theorem witness_preferredTimeout : ∃ (s : State) (b : BayId), s.pier.upSince + 10000000000 ≤ s.now ∧ s.activeOf b = none ∧ (s.bay b).promo = none ∧ s.independent (s.preferred b) = false ∧ s.readyForRole (s.preferred b) = false ∧ s.readyForRole (mate (s.preferred b)) = true ∧ s.ownSettled b = true :=
  ⟨{ (tReady.wr Reg.status_service 0 2) with now := 10000000000 }, 0, by decide +kernel⟩
theorem witness_heartbeat : ∃ (s : State) (t : TileId), s.role t = 5 ∧ s.inRun t = true ∧ 2 ≤ (s.vol t).boot.step :=
  ⟨tInd, 1, by decide +kernel⟩
theorem witness_heartbeatLoss_1 : ∃ (s : State) (t : TileId), s.role t = 0 ∧ (if t.val % 2 = 0 then (s.bay (bayOf t)).lastBeat.1 else (s.bay (bayOf t)).lastBeat.2) + 30000000 ≤ s.now ∧ s.pier.degraded = false ∧ (s.bay (bayOf t)).tie = none :=
  ⟨{ tBay with now := 30000000 }, 0, by decide +kernel⟩
theorem witness_promotion_1 : ∃ (s : State) (b : BayId) (p : Promo), s.pier.degraded = false ∧ (s.bay b).promo = some p :=
  ⟨tBay.onBay 0 fun x => { x with promo := some tPromo }, 0, tPromo, by decide +kernel⟩
theorem witness_promotion_2 : ∃ (s : State) (b : BayId) (a : TileId) (d : TileId), s.pier.degraded = false ∧ (s.bay b).promo = none ∧ (s.bay b).handover = true ∧ s.activeOf b = some a ∧ s.promotable b = some d ∧ (s.closeHandover a).intakeDone a = true ∧ ((s.closeHandover a).bay b).placed ≤ ((s.closeHandover a).bay b).reported :=
  ⟨tBay.onBay 0 fun x => { x with handover := true }, 0, 0, 1, by decide +kernel⟩
theorem witness_bayPromote : ∃ (s : State) (b : BayId) (a : TileId) (d : TileId) (force : Nat), s.bayBusy b = false ∧ s.activeOf b = some a ∧ s.promotable b = some d ∧ (s.bay b).modeNow = 0 ∧ (bit (s.rd Reg.bay_alarm b) 4 = false ∨ force = 1) :=
  ⟨tBay, 0, 0, 1, 0, by decide +kernel⟩
theorem witness_clearFault_1 : ∃ (s : State) (b : BayId), s.role (tileOf b true) = 4 ∧ s.pier.degraded = false ∧ (s.tile (tileOf b true)).power.st = .run :=
  ⟨tBay.setRole 1 4, 0, by decide +kernel⟩
theorem witness_roleAssign_4 : ∃ (s : State) (t : TileId), s.pier.degraded = true ∧ s.serves t = true ∧ s.inRun t = true ∧ s.rd Reg.status_service t = 3 ∧ s.issuing t = none :=
  ⟨tAct.onPier fun p => { p with degraded := true }, 0, by decide +kernel⟩
theorem witness_roleAssign_5 : ∃ (s : State) (t : TileId), s.readyForRole t = true ∧ s.independent t = false ∧ s.role (mate t) = 4 ∧ (s.bay (bayOf t)).promo = none ∧ s.ownSettled (bayOf t) = true :=
  ⟨tReady.setRole 1 4, 0, by decide +kernel⟩
theorem witness_clearFault_2 : ∃ (s : State) (b : BayId) (odd : Nat), odd ≤ 1 ∧ s.role (tileOf b (decide (odd = 1))) = 4 ∧ s.pier.degraded = false ∧ (s.tile (tileOf b (decide (odd = 1)))).power.st = .run :=
  ⟨tBay.setRole 0 4, 0, 0, by decide +kernel⟩
theorem witness_heartbeatLoss_2 : ∃ (s : State) (t : TileId), s.role t = 5 ∧ (if t.val % 2 = 0 then (s.bay (bayOf t)).lastBeat.1 else (s.bay (bayOf t)).lastBeat.2) + 30000000 ≤ s.now ∧ s.pier.degraded = false :=
  ⟨{ tInd with now := 30000000 }, 1, by decide +kernel⟩
theorem witness_bayModeChange_1 : ∃ (s : State) (y : State) (b : BayId) (a : TileId) (d : TileId), s.bayBusy b = false ∧ s.pier.degraded = false ∧ (s.bay b).modeNow = 0 ∧ s.activeOf b = some a ∧ s.promotable b = some d ∧ s.maySplit b = true ∧ s.inRun d = true ∧ y = (s.onBay b fun x => { x with modeTo := true, modeAct := s.acts.now }).finishIntake a ∧ y.intakeDone a = true ∧ y.maySplit b = true :=
  ⟨(tBay.wr Reg.bay_wiring 0 1), ((tBay.wr Reg.bay_wiring 0 1).onBay 0 fun x => { x with modeTo := true, modeAct := (tBay.wr Reg.bay_wiring 0 1).acts.now }).finishIntake 0, 0, 0, 1, (by and_intros <;> first | with_reducible rfl | decide +kernel)⟩
theorem witness_bayModeChange_2 : ∃ (s : State) (y : State) (b : BayId), s.bayBusy b = false ∧ s.pier.degraded = false ∧ (s.bay b).modeNow = 1 ∧ (s.slotsOf (tileOf b true) fun r => decide (r.state = 1) || decide (r.state = 2)) = [] ∧ s.role (tileOf b true) = 5 ∧ s.role (tileOf b false) = 5 ∧ y = ((s.onBay b fun x => { x with modeTo := true, modeAct := s.acts.now }).finishIntake (tileOf b true)).finishIntake (tileOf b false) ∧ y.intakeDone (tileOf b true) = true ∧ y.intakeDone (tileOf b false) = true :=
  ⟨tInd, ((tInd.onBay 0 fun x => { x with modeTo := true, modeAct := tInd.acts.now }).finishIntake (tileOf 0 true)).finishIntake (tileOf 0 false), 0, (by and_intros <;> first | with_reducible rfl | decide +kernel)⟩
theorem witness_wake : ∃ (s : State) (t : TileId), (s.tile t).power.st = .waking ∧ 2 ≤ (s.tile t).power.step :=
  ⟨tUp.onPower 0 fun p => { p with st := .waking, step := 2 }, 0, by decide +kernel⟩
theorem witness_wakeOrderTimeout : ∃ (s : State) (t : TileId) (a : Nat), (s.tile t).power.orderAt = some a ∧ s.inRun t = false ∧ a + 10000000 ≤ s.now ∧ s.role t = 1 ∧ s.pier.degraded = false :=
  ⟨{ ((tBay.onPower 1 fun p => { p with st := .waking, orderAt := some 0 })) with now := 10000000 }, 1, 0, by decide +kernel⟩
theorem witness_tileStatusReport : ∃ (s : State) (t : TileId), s.inRun t = true ∧ s.role t = 1 ∧ 6 ≤ (s.vol t).boot.step ∧ s.rd Reg.status_missing t % 16 ≠ 0 :=
  ⟨tBay.wr Reg.status_missing 1 8, 1, by decide +kernel⟩
theorem witness_bayModeChange_3 : ∃ (s : State) (b : BayId) (mode : Nat), s.bayBusy b = false ∧ s.pier.degraded = false ∧ mode ≤ 1 ∧ mode = (s.bay b).modeNow :=
  ⟨tBay, 0, 0, by decide +kernel⟩
theorem witness_bayModeChange_4 : ∃ (s : State) (b : BayId) (a : TileId) (d : TileId), s.bayBusy b = false ∧ s.pier.degraded = false ∧ (s.bay b).modeNow = 0 ∧ s.activeOf b = some a ∧ s.promotable b = some d ∧ s.maySplit b = true ∧ s.inRun d = false ∧ (s.tile d).power.st ≠ .entering :=
  ⟨tAsleep, 0, 0, 1, by decide +kernel⟩
theorem witness_promotion_3 : ∃ (s : State) (b : BayId), s.pier.degraded = false ∧ (s.bay b).promo = none ∧ (s.bay b).handover = false ∧ (s.bay b).modeTo = true ∧ (s.bay b).modeNow = 1 ∧ s.role (tileOf b true) = 1 ∧ s.owns (tileOf b true) = false :=
  ⟨(((tBay.setRole 1 1).setOwn 1 false).onBay 0 fun x => { x with modeTo := true, modeNow := 1 }), 0, by decide +kernel⟩
theorem witness_mirrorItem_1 : ∃ (s : State) (y : State) (b : BayId) (i : MItem), s.hasStandby b = true ∧ s.nextItem b = some (i, y) :=
  ⟨tItem, (tItem.nextItem 0).elim tItem Prod.snd, 0, .markEnd, by decide +kernel⟩
theorem witness_mirrorFrameLost : ∃ (s : State) (y : State) (z : State) (b : BayId) (i : MItem) (t : TileId), s.hasStandby b = true ∧ s.nextItem b = some (i, y) ∧ ((y.onBay b fun x => { x with reported := x.reported + 1 }).bump Reg.bay_mirror_retransmits b 0 2).mirrorLost b 1 = z ∧ z.activeOf b = some t :=
  ⟨tItem, (tItem.nextItem 0).elim tItem Prod.snd, ((((tItem.nextItem 0).elim tItem Prod.snd).onBay 0 fun x => { x with reported := x.reported + 1 }).bump Reg.bay_mirror_retransmits 0 0 2).mirrorLost 0 1, 0, .markEnd, 0, by decide +kernel⟩
theorem witness_standbyDrain : ∃ (s : State) (b : BayId) (d : TileId), s.standbyOf b = some d ∧ s.drains d = true ∧ (s.bay b).promo = none ∧ s.groupReady b = false :=
  ⟨tBay, 0, 1, by decide +kernel⟩
theorem witness_standbyWake_1 : ∃ (s : State) (b : BayId) (d : TileId), s.standbyOf b = some d ∧ (s.bay b).promo = none ∧ s.rd Reg.bay_mirror_wake_level b ≤ (s.bay b).fifo.fill_ :=
  ⟨tBay.onBay 0 fun x => { x with fifo := { PPQ.empty with fill := List.replicate (tBay.rd Reg.bay_mirror_wake_level 0) .markEnd } }, 0, 1, by decide +kernel⟩
theorem witness_auditCheck_1 : ∃ (s : State) (y : State) (b : BayId) (d : TileId) (g : AuditGroup) (rest : List AuditGroup) (l : List ArchRec), s.standbyOf b = some d ∧ (s.bay b).groups = g :: rest ∧ s.role d = 1 ∧ s.drains d = true ∧ s.groupReady b = true ∧ (s.bay b).tie = none ∧ y = (s.onBay b fun x => { x with groups := rest }).loadSlot d 8 (archPlace (g.keyGen % 16)) ∧ y.formGroup d g = some l ∧ ((List.range g.count).map fun i => y.heldRec d (g.seq + i)) = l.map some ∧ groupDigest l [] = g.digest ∧ y.bayArm b 2 = none ∧ s.rd Reg.bay_audit_checked b + 1 < Reg.bay_audit_checked.span ∧ g.seq < Reg.bay_audit_last_match_seq.span :=
  ⟨tAudit, (tAudit.onBay 0 fun x => { x with groups := [] }).loadSlot 1 8 (archPlace (tGroup.keyGen % 16)), 0, 1, tGroup, [], tGroupRecs, (by and_intros <;> first | with_reducible rfl | decide +kernel)⟩
theorem witness_tieBreak_1 : ∃ (s : State) (b : BayId) (u : TileId) (y : Tie) (l : List ArchRec), (s.bay b).tie = some y ∧ s.activeOf b = some u ∧ s.inRun u = true ∧ y.a1 = none ∧ y.inj = none ∧ s.formGroup u y.grp = some l :=
  ⟨tKeys.onBay 0 fun x => { x with tie := some tTie }, 0, 0, tTie, tGroupRecs, by decide +kernel⟩
theorem witness_tieBreakTimeout : ∃ (s : State) (b : BayId) (y : Tie), (s.bay b).tie = some y ∧ y.start + 100000000 ≤ s.now :=
  ⟨{ (tKeys.onBay 0 fun x => { x with tie := some tTie }) with now := 100000000 }, 0, tTie, by decide +kernel⟩
theorem witness_resync_1 : ∃ (s : State) (b : BayId) (t : TileId) (d : TileId), s.activeOf b = some t ∧ s.standbyOf b = some d ∧ s.hasStandby b = true ∧ s.inRun t = true ∧ (s.bay b).promo = none ∧ (s.bay b).handover = false ∧ (s.bay b).resync = none ∧ s.rd Reg.bay_mirror_sync b = 1 ∧ s.drains d = true :=
  ⟨tBay.wr Reg.bay_mirror_sync 0 1, 0, 0, 1, by decide +kernel⟩
theorem witness_mirrorItem_2 : ∃ (s : State) (y : State) (b : BayId) (i : MItem) (n : Nat), n ≠ 0 ∧ s.hasStandby b = true ∧ s.nextItem b = some (i, y) :=
  ⟨tItem, (tItem.nextItem 0).elim tItem Prod.snd, 0, .markEnd, 2, by decide +kernel⟩
theorem witness_standbyWake_2 : ∃ (s : State) (b : BayId) (d : TileId) (a : Nat), s.standbyOf b = some d ∧ (s.bay b).promo = none ∧ (s.bay b).auditAt = some a ∧ a + s.rd Reg.bay_audit_timer_ms b * 1000000 ≤ s.now :=
  ⟨{ (tBay.onBay 0 fun x => { x with auditAt := some 0 }) with now := tBay.rd Reg.bay_audit_timer_ms 0 * 1000000 }, 0, 1, 0, by decide +kernel⟩
theorem witness_auditCheck_2 : ∃ (s : State) (y : State) (b : BayId) (d : TileId) (g : AuditGroup) (rest : List AuditGroup) (l : List ArchRec) (upset : Bytes), s.standbyOf b = some d ∧ (s.bay b).groups = g :: rest ∧ s.role d = 1 ∧ s.drains d = true ∧ s.groupReady b = true ∧ (s.bay b).tie = none ∧ s.pier.degraded = false ∧ y = (s.onBay b fun x => { x with groups := rest }).loadSlot d 8 (archPlace (g.keyGen % 16)) ∧ y.formGroup d g = some l ∧ (((List.range g.count).map fun i => y.heldRec d (g.seq + i)).any Option.isNone) = false ∧ (groupDigest l upset ≠ g.digest ∨ (List.range g.count).map (fun i => y.heldRec d (g.seq + i)) ≠ l.map some) :=
  ⟨tAudit, (tAudit.onBay 0 fun x => { x with groups := [] }).loadSlot 1 8 (archPlace (tGroup.keyGen % 16)), 0, 1, tGroup, [], tGroupRecs, [1], (by and_intros <;> first | with_reducible rfl | decide +kernel)⟩
theorem witness_auditCheck_3 : ∃ (s : State) (y : State) (b : BayId) (d : TileId) (g : AuditGroup) (rest : List AuditGroup), s.standbyOf b = some d ∧ (s.bay b).groups = g :: rest ∧ s.role d = 1 ∧ s.drains d = true ∧ s.groupReady b = true ∧ (s.bay b).tie = none ∧ y = (s.onBay b fun x => { x with groups := rest }).loadSlot d 8 (archPlace (g.keyGen % 16)) ∧ y.formGroup d g = none :=
  ⟨(tBay.onBay 0 fun x => { x with groups := [tGroup] }), ((tBay.onBay 0 fun x => { x with groups := [tGroup] }).onBay 0 fun x => { x with groups := [] }).loadSlot 1 8 (archPlace (tGroup.keyGen % 16)), 0, 1, tGroup, [], (by and_intros <;> first | with_reducible rfl | decide +kernel)⟩
theorem witness_tieBreak_2 : ∃ (s : State) (b : BayId) (u : TileId) (y : Tie) (l : List ArchRec), (s.bay b).tie = some y ∧ s.standbyOf b = some u ∧ s.inRun u = true ∧ y.s1 = none ∧ y.inj = none ∧ s.formGroup u y.grp = some l :=
  ⟨tKeys.onBay 0 fun x => { x with tie := some tTie }, 0, 1, tTie, tGroupRecs, by decide +kernel⟩
theorem witness_resync_2 : ∃ (s : State) (b : BayId) (t : TileId) (d : TileId) (r : Resync), s.activeOf b = some t ∧ s.standbyOf b = some d ∧ s.hasStandby b = true ∧ s.inRun t = true ∧ (s.bay b).promo = none ∧ (s.bay b).handover = false ∧ (s.bay b).resync = some r ∧ r.phase = 1 :=
  ⟨tBay.onBay 0 fun x => { x with resync := some { first := 1, next := 1, phase := 1 } }, 0, 0, 1, { first := 1, next := 1, phase := 1 }, by decide +kernel⟩
theorem witness_powerRequestRun : ∃ (s : State) (t : TileId), rolePermits (s.role t) 0 = true ∧ ((s.tile t).power.st = .hold ∨ (s.tile t).power.st = .retain) :=
  ⟨tBay.onPower 1 fun p => { p with st := .retain }, 1, by decide +kernel⟩
theorem witness_powerRequestHold : ∃ (s : State) (t : TileId), rolePermits (s.role t) 1 = true ∧ (s.tile t).power.st = .run ∧ s.entryRefuser t 1 (decide (s.rd Reg.power_force t = 1)) = none :=
  ⟨tBay, 1, by decide +kernel⟩
theorem witness_powerRequestRetain : ∃ (s : State) (t : TileId), rolePermits (s.role t) 2 = true ∧ (s.tile t).power.st = .run ∧ s.entryRefuser t 2 (decide (s.rd Reg.power_force t = 1)) = none :=
  ⟨tBay, 1, by decide +kernel⟩
theorem witness_powerRequestIsolated_1 : ∃ (s : State) (t : TileId), rolePermits (s.role t) 3 = true ∧ s.role t ≠ 1 ∧ s.pier.degraded = false ∧ (s.tile t).power.st = .run :=
  ⟨tBay.setRole 1 4, 1, by decide +kernel⟩
theorem witness_powerRequestOff : ∃ (s : State) (t : TileId), rolePermits (s.role t) 4 = true ∧ s.role t ≠ 1 ∧ s.pier.degraded = false ∧ (s.tile t).power.st = .isolated :=
  ⟨(tBay.setRole 1 4).onPower 1 fun p => { p with st := .isolated }, 1, by decide +kernel⟩
theorem witness_idleEntry : ∃ (s : State) (t : TileId) (a : Nat), s.role t = 1 ∧ s.inRun t = true ∧ 6 ≤ (s.vol t).boot.step ∧ (s.bay (bayOf t)).fifo.fill_ = 0 ∧ (s.tile t).media.idle = true ∧ s.rateLowSince (bayOf t) = some a ∧ a + 10000000000 ≤ s.now :=
  ⟨{ (tBay.onBay 0 fun x => { x with rateLow := some 0 }) with now := 10000000000 }, 1, 0, by decide +kernel⟩
theorem witness_isolation : ∃ (s : State) (t : TileId), s.role t = 4 :=
  ⟨tBay.setRole 1 4, 1, by decide +kernel⟩
theorem witness_wakeEvent : ∃ (s : State) (t : TileId), (s.tile t).power.st = .entering ∧ (s.tile t).power.requester ≠ 2 :=
  ⟨tBay.onPower 1 fun p => { p with st := .entering, requester := 0, step := 1, target := 1 }, 1, by decide +kernel⟩
theorem witness_regulatorAck_1 : ∃ (s : State) (t : TileId) (mv : Nat) (st : Nat), s.pier.degraded = false ∧ bit s.pier.present t = true ∧ s.pier.up = true ∧ (s.tile t).power.st = .entering ∧ 5 ≤ (s.tile t).power.step ∧ (s.tile t).power.setMv = 500 ∧ 2 < (s.tile t).power.target ∧ acknowledged 500 mv st = true ∧ s.now ≤ (s.tile t).power.cmdAt + s.pmbDelay t 0 + 1000000 :=
  ⟨(tBay.onPower 1 fun p => { p with st := .entering, step := 5, setMv := 500, target := 3, cmdAt := 0 }).onPier fun p => { p with present := 0xFFFF }, 1, 515, 0, by decide +kernel⟩
theorem witness_regulatorAckTimeout : ∃ (s : State) (t : TileId), s.pier.bootQueue.head? ≠ some t.val ∧ (s.tile t).power.st = .entering ∧ 5 ≤ (s.tile t).power.step ∧ (s.tile t).power.cmdAt + 1000000 ≤ s.now ∧ (s.tile t).power.target < 3 :=
  ⟨{ (tBay.onPower 1 fun p => { p with st := .entering, step := 5, setMv := 500, target := 2, cmdAt := 0 }) with now := 1000000 }, 1, by decide +kernel⟩
theorem witness_powerRequestIsolated_2 : ∃ (s : State) (t : TileId), s.role t = 1 ∧ s.pier.degraded = false ∧ (s.tile t).power.st = .run :=
  ⟨tBay, 1, by decide +kernel⟩
theorem witness_regulatorAck_2 : ∃ (s : State) (t : TileId) (mv : Nat) (st : Nat), s.pier.degraded = false ∧ bit s.pier.present t = true ∧ s.pier.up = true ∧ (s.tile t).power.st = .waking ∧ (s.tile t).power.step = 1 ∧ (s.tile t).power.setMv = (s.tile t).power.vrunMv ∧ (s.vol t).boot.step ≠ 0 ∧ s.promoting t = false ∧ acknowledged (s.tile t).power.vrunMv mv st = true ∧ (s.tile t).power.cmdAt + s.pmbDelay t 1 ≤ s.now ∧ s.now ≤ (s.tile t).power.cmdAt + s.pmbDelay t 1 + 1000000 :=
  ⟨tRail, 1, (tRail.tile 1).power.vrunMv, 0, by decide +kernel⟩
theorem witness_pfailAssert_1 : ∃ (s : State) (mv : Nat), s.pier.up = true ∧ s.pier.pfail = false ∧ mv < 2350 ∧ s.rd Reg.device_supply_pfail_events 0 + 1 < Reg.device_supply_pfail_events.span :=
  ⟨tAct, 2300, by decide +kernel⟩
theorem witness_pfailRelease : ∃ (s : State) (mv : Nat), s.pier.pfail = true ∧ 2450 < mv ∧ mv < Reg.device_supply_vsys_mv.span :=
  ⟨tAct.onPier fun p => { p with pfail := true }, 2451, by decide +kernel⟩
theorem witness_pmbAlert : ∃ (s : State), s.pier.up = true :=
  ⟨tAct, by decide +kernel⟩
theorem witness_statusPoll : ∃ (s : State), s.pier.polledAt + 10000000 ≤ s.now :=
  ⟨{ tAct with now := 10000000 }, by decide +kernel⟩
theorem witness_energySettingWrite_1 : ∃ (v : Nat) (rights : Nat), 3 ≤ rights ∧ Reg.bay_energy_plc_duty_pm.lo.toNat ≤ v ∧ v ≤ Reg.bay_energy_plc_duty_pm.hi.toNat :=
  ⟨Reg.bay_energy_plc_duty_pm.hi.toNat, 3, by decide +kernel⟩
theorem witness_vanaOutOfRange_2 : ∃ (s : State) (t : TileId), (s.tile t).vanaOk = false :=
  ⟨tMet.onTile 0 fun x => { x with vanaOk := false }, 0, by decide +kernel⟩
theorem witness_pfailAssert_2 : ∃ (s : State) (rails : Nat), s.pier.up = true ∧ s.pier.pfail = false ∧ rails % 64 ≠ 0 :=
  ⟨tAct, 5, by decide +kernel⟩
theorem witness_pfailAssert_3 : ∃ (s : State), s.pier.up = true ∧ s.pier.pfail = false :=
  ⟨tAct, by decide +kernel⟩
theorem witness_energySettingWrite_2 : ∃ (which : Fin 4) (v : Nat) (rights : Nat) (e : Entry), 3 ≤ rights ∧ e = [Reg.bay_energy_pulse_mj, Reg.bay_energy_bank_budget_mj, Reg.bay_energy_plc_atten_min_db, Reg.bay_energy_plc_duty_pm].getD which.val Reg.bay_energy_pulse_mj ∧ e.lo.toNat ≤ v ∧ v ≤ e.hi.toNat :=
  ⟨0, Reg.bay_energy_pulse_mj.lo.toNat, 3, Reg.bay_energy_pulse_mj, by decide +kernel⟩
/-- A state for tests: `n` entries stand in the log of the key store. -/
def tLog (n : Nat) : State := tMedia.onMedia 0 fun m => { m with keyLog := [List.replicate n 5] }
/-- A state for tests: the same, with a second block of that log. -/
def tLog2 (n : Nat) : State := tMedia.onMedia 0 fun m => { m with keyLog := [List.replicate n 5, [5]] }
theorem tLog2_ok (n : Nat) (h : 1441792 < n) : (tLog2 n).ftlRuns 0 = true ∧ 24 * 65536 < ((tLog2 n).tile 0).media.keysUsed + 131072 ∧
    ((tLog2 n).tile 0).media.keyLog = [List.replicate n 5, [5]] := by
  have hk : ((tLog2 n).tile 0).media.keyLog = [List.replicate n 5, [5]] := rfl
  refine ⟨rfl, ?_, hk⟩
  rw [Media.keysUsed, hk]
  simp only [List.map_cons, List.map_nil, List.length_replicate, List.sum_cons, List.sum_nil]
  omega
theorem tLog_ok (n : Nat) (h : 1441792 < n) : (tLog n).ftlRuns 0 = true ∧ 24 * 65536 < ((tLog n).tile 0).media.keysUsed + 131072 ∧
    ((tLog n).tile 0).media.keyLog = [List.replicate n 5] := by
  have hk : ((tLog n).tile 0).media.keyLog = [List.replicate n 5] := rfl
  refine ⟨rfl, ?_, hk⟩
  rw [Media.keysUsed, hk]
  simp only [List.map_cons, List.map_nil, List.length_replicate, List.sum_cons, List.sum_nil]
  omega
theorem witness_mediaFormat_1 : ∃ (s : State) (t : TileId), s.serves t = false :=
  ⟨tUp, 0, by decide +kernel⟩
theorem witness_relocation_1 : ∃ (s : State) (t : TileId) (pb : Nat) (new : Nat) (rest : List (Nat × Bool)), s.ftlRuns t = true ∧ (s.tile t).media.reloc = none ∧ (s.tile t).media.relocQ = (pb, true) :: rest ∧ ((s.tile t).media.blk pb).st = .mapped ∧ (s.tile t).media.leastWorn = some new :=
  ⟨tMedia.onMedia 0 fun m => { m with relocQ := [(7, true)] }, 0, 7, 0, [], by decide +kernel⟩
theorem witness_relocation_2 : ∃ (s : State) (t : TileId) (r : Reloc), s.ftlRuns t = true ∧ (s.tile t).media.reloc = some r ∧ r.committed = false ∧ r.region = 2 :=
  ⟨tMedia.onMedia 0 fun m => { m with reloc := some { region := 2, lb := 3, old := 7, new := 8, ver := 2, committed := false, retire := true } }, 0, { region := 2, lb := 3, old := 7, new := 8, ver := 2, committed := false, retire := true }, by decide +kernel⟩
theorem witness_programFail : ∃ (s : State) (t : TileId), (s.tile t).media.busy = true :=
  ⟨tMedia.onMedia 0 fun m => { m with busy := true, jobs := [(1, .journal [])] }, 0, by decide +kernel⟩
theorem witness_eraseComplete_1 : ∃ (s : State) (t : TileId) (pb : Nat) (rest : List Nat), s.ftlRuns t = true ∧ (s.tile t).media.eraseQ = pb :: rest ∧ ((s.tile t).media.blk pb).st ≠ .mapped :=
  ⟨tMedia.onMedia 0 fun m => { m with eraseQ := [9] }, 0, 9, [], by decide +kernel⟩
theorem witness_patrol_1 : ∃ (s : State) (t : TileId) (pb : Nat) (page : Nat) (worst : Nat) (total : Nat), s.ftlRuns t = true ∧ ((s.tile t).media.blk pb).st = .mapped ∧ (s.tile t).media.busy = false ∧ ((s.tile t).media.blk pb).patrolled page = true ∧ s.patrolDue t (pb * 1536 + page) = true ∧ worst < s.rd Reg.media_refresh_bits t ∧ s.now < ((s.tile t).media.blk pb).held + 365 * 86400 * 1000000000 ∧ s.rd Reg.media_ecc_corrected t + total < Reg.media_ecc_corrected.span ∧ s.rd Reg.media_bytes_read t + 16384 < Reg.media_bytes_read.span :=
  ⟨tMapped, 0, 7, 3, 0, 5, by decide +kernel⟩
theorem witness_wearLevel_1 : ∃ (s : State) (t : TileId) (pb : Nat) (k : Blk), s.ftlRuns t = true ∧ (s.tile t).media.wear.2.2 + 300 < (s.tile t).media.wear.1 ∧ ((s.tile t).media.blocks.filter fun e => decide (e.2.st = .mapped)) = [(pb, k)] ∧ k.erases + 300 < (s.tile t).media.wear.1 :=
  ⟨tMedia.onMedia 0 fun m => { m with formats := 302 }, 0, 7, tBlk, by decide +kernel⟩
theorem witness_mapJournalPage : ∃ (s : State) (t : TileId), (s.tile t).media.mapQ ≠ [] ∧ (s.tile t).media.mapQAt + 1000000 ≤ s.now :=
  ⟨{ (tMedia.onMedia 0 fun m => { m with mapQ := [.free 3 1], mapQAt := 0 }) with now := 1000000 }, 0, by decide +kernel⟩
theorem witness_keystoreCompact_1 : ∃ (s : State) (t : TileId) (old : List Nat), s.ftlRuns t = true ∧ 24 * 65536 < (s.tile t).media.keysUsed + 131072 ∧ (s.tile t).media.keyLog = [old] :=
  ⟨tLog 1441793, 0, List.replicate 1441793 5, tLog_ok _ (by decide)⟩
theorem witness_temperatureSample_1 : ∃ (s : State) (t : TileId) (c : Int), (s.tile t).media.tempAt ≤ s.now ∧ (s.tile t).media.tempAcc.length = 8 ∧ (s.tile t).media.tempAcc.getD (tempBand c) 0 + 60 < 3600 ∧ -128 ≤ c ∧ c < 128 :=
  ⟨tAct, 0, 70, by decide +kernel⟩
theorem witness_pageProgramComplete : ∃ (s : State) (y : State) (t : TileId) (j : PageJob), (s.tile t).media.busy = true ∧ s.nandArmed t (((s.tile t).media.jobs.head?.map fun j => j.2.region).getD 9) = false ∧ s.completeFrom t (s.tile t).media.jobs.length 0 = (y, some j) :=
  ⟨tMedia.onMedia 0 fun m => { m with busy := true, jobs := [(1, .journal [])] }, ((tMedia.onMedia 0 fun m => { m with busy := true, jobs := [(1, .journal [])] }).completeFrom 0 1 0).1, 0, .journal [], by decide +kernel⟩
theorem witness_mediaFormat_2 : ∃ (s : State) (t : TileId), s.serves t = true :=
  ⟨tAct, 0, by decide +kernel⟩
theorem witness_relocation_3 : ∃ (s : State) (t : TileId) (pb : Nat) (new : Nat) (retire : Bool), s.ftlRuns t = true ∧ (s.tile t).media.reloc = none ∧ (s.tile t).media.nextReloc = some (pb, retire) ∧ ((s.tile t).media.blk pb).st = .mapped ∧ (s.tile t).media.leastWorn = some new :=
  ⟨tMedia.onMedia 0 fun m => { m with relocQ := [(7, false)] }, 0, 7, 0, false, by decide +kernel⟩
theorem witness_relocation_4 : ∃ (s : State) (t : TileId) (r : Reloc), s.ftlRuns t = true ∧ (s.tile t).media.reloc = some r ∧ r.committed = false :=
  ⟨tMedia.onMedia 0 fun m => { m with reloc := some { region := 0, lb := 3, old := 7, new := 8, ver := 2, committed := false, retire := false } }, 0, { region := 0, lb := 3, old := 7, new := 8, ver := 2, committed := false, retire := false }, by decide +kernel⟩
theorem witness_eraseComplete_2 : ∃ (s : State) (t : TileId) (pb : Nat) (rest : List Nat), s.ftlRuns t = true ∧ (s.tile t).media.eraseQ = pb :: rest ∧ ((s.tile t).media.blk pb).st ≠ .mapped :=
  ⟨tMedia.onMedia 0 fun m => { m with eraseQ := [9] }, 0, 9, [], by decide +kernel⟩
theorem witness_patrol_2 : ∃ (s : State) (t : TileId) (pb : Nat) (page : Nat) (total : Nat) (fails : Nat), s.ftlRuns t = true ∧ ((s.tile t).media.blk pb).st = .mapped ∧ (s.tile t).media.busy = false ∧ ((s.tile t).media.blk pb).patrolled page = true ∧ s.patrolDue t (pb * 1536 + page) = true ∧ s.rd Reg.media_ecc_corrected t + total < Reg.media_ecc_corrected.span ∧ s.rd Reg.media_ecc_uncorrectable t + fails < Reg.media_ecc_uncorrectable.span ∧ s.rd Reg.media_bytes_read t + 16384 < Reg.media_bytes_read.span :=
  ⟨tMapped, 0, 7, 3, 5, 1, by decide +kernel⟩
theorem witness_wearLevel_2 : ∃ (s : State) (t : TileId), s.ftlRuns t = true ∧ (s.tile t).media.wear.1 ≤ (s.tile t).media.wear.2.2 + 300 :=
  ⟨tMedia, 0, by decide +kernel⟩
theorem witness_keystoreCompact_2 : ∃ (s : State) (t : TileId) (old : List Nat) (rest : List (List Nat)), s.ftlRuns t = true ∧ 24 * 65536 < (s.tile t).media.keysUsed + 131072 ∧ (s.tile t).media.keyLog = old :: rest :=
  ⟨tLog2 1441793, 0, List.replicate 1441793 5, [[5]], tLog2_ok _ (by decide)⟩
theorem witness_temperatureSample_2 : ∃ (s : State) (t : TileId) (c : Int) (a : Nat), (s.tile t).media.tempAt ≤ s.now ∧ a = (s.tile t).media.tempAcc.getD (tempBand c) 0 ∧ 3600 ≤ a + 60 ∧ s.rd Reg.media_temp_hours t (tempBand c) + 1 < Reg.media_temp_hours.span :=
  ⟨tAct.onMedia 0 fun m => { m with tempAcc := List.replicate 8 3550 }, 0, 70, 3550, by decide +kernel⟩
theorem witness_queueWrite_1 : ∃ (s : State) (t : TileId) (c : Fin 7), (s.queue t c).split = none ∧ (s.queue t c).fill.length < bankSize c :=
  ⟨tQueue 6 [] [], 0, 6, by decide +kernel⟩
theorem witness_queueWrite_2 : ∃ (s : State) (t : TileId) (c : Fin 7), (s.queue t c).split = none ∧ (s.queue t c).fill.length = bankSize c ∧ (s.queue t c).drain ≠ [] ∧ s.rd Reg.queue_lost t c + 1 < Reg.queue_lost.span :=
  ⟨tQueue 6 [.event tEvent] (List.replicate 256 (.event tEvent)), 0, 6, by decide +kernel⟩
theorem witness_queueRead_1 : ∃ (s : State) (t : TileId) (c : Fin 7) (d : QItem) (r : List QItem), (s.queue t c).split = none ∧ (s.queue t c).drain = d :: r :=
  ⟨tQueue 6 [.event tEvent] [.event { tEvent with code := 2 }], 0, 6, .event tEvent, [], by decide +kernel⟩
theorem witness_queueWrite_3 : ∃ (s : State) (t : TileId) (c : Fin 7), (s.queue t c).split = none ∧ (s.queue t c).fill.length = bankSize c ∧ (s.queue t c).drain = [] :=
  ⟨tQueue 6 [] (List.replicate 256 (.event tEvent)), 0, 6, by decide +kernel⟩
theorem witness_queueRead_2 : ∃ (s : State) (t : TileId) (c : Fin 7) (d : QItem) (r : List QItem), (s.queue t c).split = none ∧ (s.queue t c).drain = [] ∧ (s.queue t c).fill = d :: r :=
  ⟨tQueue 6 [] [.event tEvent, .event { tEvent with code := 2 }], 0, 6, .event tEvent, [.event { tEvent with code := 2 }], by decide +kernel⟩
theorem witness_queueRead_3 : ∃ (s : State) (t : TileId) (c : Fin 7), (s.queue t c).split = none ∧ (s.queue t c).drain = [] ∧ (s.queue t c).fill = [] :=
  ⟨tQueue 6 [] [], 0, 6, by decide +kernel⟩
theorem witness_queueWrite_4 : ∃ (s : State) (t : TileId) (c : Fin 7), (s.queue t c).split = none ∧ (s.queue t c).fill.length = bankSize c ∧ (s.queue t c).drain ≠ [] ∧ s.rd Reg.queue_lost t c = 0xFFFFFFFF :=
  ⟨(tQueue 6 [.event tEvent] (List.replicate 256 (.event tEvent))).wr Reg.queue_lost 0 0xFFFFFFFF 6, 0, 6, by decide +kernel⟩
theorem witness_eventLog_1 : ∃ (s : State) (t : TileId) (e : Event) (r : List QItem), (s.queue t 6).split = none ∧ (s.queue t 6).drain = .event e :: r ∧ ((s.vol t).elog.take 65536 s.now (s.rd Reg.events_next_eseq t) e).2 = (false, false) ∧ s.rd Reg.events_next_eseq t + 1 < Reg.events_next_eseq.span :=
  ⟨tQueue 6 [.event tEvent] [], 0, tEvent, [], by decide +kernel⟩
theorem witness_legalEvent : ∃ (s : State) (t : TileId), (s.tile t).legal.length < 4096 ∧ s.rd Reg.legal_next_lseq t + 1 < Reg.legal_next_lseq.span :=
  ⟨tAct, 0, by decide +kernel⟩
theorem witness_legalAck : ∃ (s : State) (t : TileId) (e : LegalEnt), (s.tile t).legal.find? (fun x => decide (x.lseq = e.lseq)) = some e ∧ s.rd Reg.legal_unlogged t = 0 :=
  ⟨tAct.onTile 0 fun x => { x with legal := [tEnt] }, 0, tEnt, by decide +kernel⟩
theorem witness_eventLog_2 : ∃ (s : State) (t : TileId) (e : Event) (r : List QItem) (n : Nat), (s.queue t 6).split = none ∧ (s.queue t 6).drain = .event e :: r ∧ (e.wher, e.code, e.obj, n) ∈ (s.vol t).elog.recent ∧ s.now < n + 1000000000 ∧ s.rd Reg.events_suppressed t + 1 < Reg.events_suppressed.span :=
  ⟨(tQueue 6 [.event tEvent] []).onVol 0 fun v => { v with elog := { v.elog with recent := [(0, 1, 0, 0)] } }, 0, tEvent, [], 0, by decide +kernel⟩
theorem witness_eventLog_3 : ∃ (s : State) (e : Event) (r : List Event) (n : Nat), s.pier.evq.split = none ∧ s.pier.evq.drain = e :: r ∧ (e.wher, e.code, e.obj, n) ∈ s.pier.elog.recent ∧ s.now < n + 1000000000 ∧ s.rd Reg.device_events_suppressed 0 + 1 < Reg.device_events_suppressed.span :=
  ⟨tAct.onPier fun p => { p with evq := { p.evq with drain := [tEvent], fill := [] }, elog := { p.elog with recent := [(0, 1, 0, 0)] } }, tEvent, [], 0, by decide +kernel⟩
theorem witness_rcCounterRead_1 : ∃ (s : State), s.rd Reg.device_host_rx_discard 0 < 2 ^ 32 :=
  ⟨tAct.wr Reg.device_host_rx_discard 0 7, by decide +kernel⟩
theorem witness_rcCounterRead_2 : ∃ (s : State) (y : State) (index : Nat) (sub : Nat) (k : Nat) (g : Tgt) (e : Entry) (b : Bytes), areaOf index = some g ∧ s.checkItem g.number index sub 0 .get = .ok (g, e, k) ∧ e.acc = .rc ∧ s.readEntry g e k = (y, .ok b) :=
  ⟨tAct, (tAct.readEntry .dev Reg.device_host_rx_discard 0).1, 0x1203, 6, 0, .dev, Reg.device_host_rx_discard, [0, 0, 0, 0], by decide +kernel⟩
theorem witness_entryWrite_1 : ∃ (s : State) (y : State) (target : Nat) (index : Nat) (sub : Nat) (rights : Nat) (k : Nat) (v : Bytes) (g : Tgt) (e : Entry), s.checkItem target index sub rights .set = .ok (g, e, k) ∧ s.setEntry g e k none v rights 0 = (y, .ok) :=
  ⟨tAct, (tAct.setEntry .dev Reg.device_time_pps_polarity 0 none [1] 3 0).1, 255, 0x1303, 0, 3, 0, [1], .dev, Reg.device_time_pps_polarity, by decide +kernel⟩
theorem witness_entryWrite_2 : ∃ (s : State) (v : Nat), v ≤ 1 ∧ s.rd Reg.device_time_pps_polarity 0 = 1 - v :=
  ⟨tAct, 1, by decide +kernel⟩
theorem witness_restoreDefaults_1 : ∃ (s : State) (mask : Nat), mask < 512 ∧ bit mask 0 = false ∧ (∀ b : BayId, bit mask (b.val + 1) = true → s.bayBusy b = false ∧ s.legalRuns (tileOf b false) = false ∧ s.legalRuns (tileOf b true) = false) :=
  ⟨tAct, 2, by decide +kernel⟩
theorem witness_restoreDefaults_2 : ∃ (s : State) (mask : Nat), mask < 512 ∧ (∀ b : BayId, bit mask (b.val + 1) = true → s.bayBusy b = false ∧ s.legalRuns (tileOf b false) = false ∧ s.legalRuns (tileOf b true) = false) ∧ bit mask 0 = true :=
  ⟨tAct, 3, by decide +kernel⟩
theorem witness_entryWrite_3 : ∃ (s : State) (y : State) (target : Nat) (index : Nat) (sub : Nat) (rights : Nat) (k : Nat) (v : Bytes) (g : Tgt) (e : Entry) (r : Status), s.checkItem target index sub rights .set = .ok (g, e, k) ∧ s.setEntry g e k none v rights 0 = (y, r) :=
  ⟨tAct, (tAct.setEntry .dev Reg.device_time_pps_polarity 0 none [2] 3 0).1, 255, 0x1303, 0, 3, 0, [2], .dev, Reg.device_time_pps_polarity, (tAct.setEntry .dev Reg.device_time_pps_polarity 0 none [2] 3 0).2, by decide +kernel⟩
theorem witness_diagUnlock : ∃ (bays : Nat) (secs : Nat), bays ≤ 255 ∧ 60 ≤ secs ∧ secs ≤ 86400 :=
  ⟨3, 60, by decide +kernel⟩
theorem witness_diagLock_1 : ∃ (bays : Nat), bays ≤ 255 :=
  ⟨1, by decide +kernel⟩
theorem witness_unlockExpiry_1 : ∃ (s : State) (b : BayId), (s.bay b).unlockTo ≠ 0 ∧ s.unlocked b = false :=
  ⟨{ tUnl tAct with now := 100000000000 }, 0, by decide +kernel⟩
theorem witness_diagLock_2 : ∃ (s : State) (bays : Nat) (b : BayId), bays ≤ 255 ∧ bit bays b.val = true ∧ (s.bay b).unlockTo ≠ 0 :=
  ⟨tArmed, 1, 0, by decide +kernel⟩
theorem witness_unlockExpiry_2 : ∃ (s : State) (b : BayId), (s.bay b).unlockTo ≠ 0 ∧ s.unlocked b = false :=
  ⟨{ tBArmed with now := 100000000000 }, 0, by decide +kernel⟩
theorem witness_sealAssert_3 : ∃ (s : State) (b : BayId), s.pier.up = true ∧ (s.bay b).legalEn = false ∧ (s.bay b).unlockTo ≠ 0 :=
  ⟨tArmed, 0, by decide +kernel⟩
theorem witness_egressDelay : ∃ (s : State) (t : TileId) (r : Bytes), r.length = 16 ∧ leNat r ≠ 0 ∧ s.armCheck (bayOf t) (ArmIn.parse r) false (tileArmOk 0 (ArmIn.parse r)) true = none ∧ s.rd Reg.device_diag_arms 0 + 1 < Reg.device_diag_arms.span :=
  ⟨tUnl tAct, 0, tArm 60 6 100 15, by decide +kernel⟩
theorem witness_creditStarve : ∃ (s : State) (t : TileId) (r : Bytes), r.length = 16 ∧ leNat r ≠ 0 ∧ s.armCheck (bayOf t) (ArmIn.parse r) false (tileArmOk 1 (ArmIn.parse r)) true = none ∧ s.rd Reg.device_diag_arms 0 + 1 < Reg.device_diag_arms.span :=
  ⟨tUnl tAct, 0, tArm 60 1 5 0, by decide +kernel⟩
theorem witness_nandFail : ∃ (s : State) (t : TileId) (r : Bytes), r.length = 16 ∧ leNat r ≠ 0 ∧ s.rd Reg.media_state t = 3 ∧ s.armCheck (bayOf t) (ArmIn.parse r) false (tileArmOk 2 (ArmIn.parse r)) true = none ∧ s.rd Reg.device_diag_arms 0 + 1 < Reg.device_diag_arms.span :=
  ⟨(tUnl tAct).wr Reg.media_state 0 3, 0, tArm 60 3 16 0, by decide +kernel⟩
theorem witness_lostInject : ∃ (s : State) (y : State) (t : TileId) (r : Bytes) (a : ArmIn), r.length = 16 ∧ leNat r ≠ 0 ∧ a = ArmIn.parse r ∧ s.armCheck (bayOf t) a true (tileArmOk 3 a) true = none ∧ y = (s.bump Reg.device_diag_arms 0).event t 1 0x1E03 (diagObjT t 3) a.dur a.p1 :=
  ⟨tUnl (tQueue 6 [] [.event tEvent, .event tEvent]), (((tUnl (tQueue 6 [] [.event tEvent, .event tEvent])).bump Reg.device_diag_arms 0).event 0 1 0x1E03 (diagObjT 0 3) 0 6), 0, tArm 0 6 1 0, ArmIn.parse (tArm 0 6 1 0), by decide +kernel⟩
theorem witness_mirrorDelay : ∃ (s : State) (b : BayId) (r : Bytes), r.length = 16 ∧ leNat r ≠ 0 ∧ (s.bay b).modeNow = 0 ∧ s.armCheck b (ArmIn.parse r) false (bayArmOk 0 (ArmIn.parse r)) true = none :=
  ⟨tUnl tAct, 0, tArm 60 100000 0 0, by decide +kernel⟩
theorem witness_pmbusDelay : ∃ (s : State) (b : BayId) (r : Bytes), r.length = 16 ∧ leNat r ≠ 0 ∧ (s.bay b).modeNow = 0 ∧ s.armCheck b (ArmIn.parse r) false (bayArmOk 1 (ArmIn.parse r)) true = none :=
  ⟨tUnl tAct, 0, tArm 60 10 3 0, by decide +kernel⟩
theorem witness_auditMismatch : ∃ (s : State) (b : BayId) (r : Bytes), r.length = 16 ∧ leNat r ≠ 0 ∧ (s.bay b).modeNow = 0 ∧ (ArmIn.parse r).p1 < 2 ∧ s.armCheck b (ArmIn.parse r) false (bayArmOk 2 (ArmIn.parse r)) true = none :=
  ⟨tUnl tAct, 0, tArm 60 1 16 0, by decide +kernel⟩
theorem witness_mirrorLost : ∃ (s : State) (y : State) (b : BayId) (r : Bytes) (a : ArmIn), r.length = 16 ∧ leNat r ≠ 0 ∧ (s.bay b).modeNow = 0 ∧ s.hasStandby b = true ∧ a = ArmIn.parse r ∧ s.armCheck b a true (bayArmOk 3 a) true = none ∧ y = (s.bump Reg.device_diag_arms 0).pierEvent (0x80 + b.val) 1 0x1E03 (diagObjB b 3) a.dur a.p1 :=
  ⟨tUnl tBay, (((tUnl tBay).bump Reg.device_diag_arms 0).pierEvent 0x80 1 0x1E03 (diagObjB 0 3) 0 2), 0, tArm 0 2 0 0, ArmIn.parse (tArm 0 2 0 0), by decide +kernel⟩
theorem witness_controlExpiry_1 : ∃ (s : State) (t : TileId) (k : Fin 4) (a : Arm), s.tileArm t k = some a ∧ a.until_ ≤ s.now :=
  ⟨tArmed, 0, 0, { p1 := 1, p2 := 1, p3 := 1, until_ := 0, count := 1 }, by decide +kernel⟩
theorem witness_controlExpiry_2 : ∃ (s : State) (t : TileId) (k : Fin 4) (a : BayArm), s.bayArm (bayOf t) k = some a ∧ a.until_ ≤ s.now :=
  ⟨tBArmed, 0, 0, { p1 := 1, p2 := 0, until_ := 0, count := 0 }, by decide +kernel⟩

end Sys2Proof.Machine
end

namespace Sys2Proof.Machine

/-! ### Gates that follow the state (R31 to R33, R488, R547) -/

theorem State.gated_settle (s : State) : s.settle.gated := rfl

/-- Where the gates follow the state, BAY_OWN has the level that the state gives. -/
theorem State.gated.ownLevel_eq {s : State} (h : s.gated) (t : TileId) : s.ownLevel t = s.ownPin t := by
  unfold State.ownLevel
  rw [h]
  simp [State.pinsOf, allTiles, List.getD]

/-- Where the gates follow the state, the field balls are driven as the state gives. -/
theorem State.gated.fieldLevel_eq {s : State} (h : s.gated) (t : TileId) : s.fieldLevel t = s.fieldPin t := by
  unfold State.fieldLevel
  rw [h]
  simp [State.pinsOf, allTiles, List.getD]

theorem State.gated.pfailN_eq {s : State} (h : s.gated) : s.pins.pfailN = !s.pier.pfail := by
  rw [h]; rfl

@[simp] theorem mate_even (b : BayId) : mate (tileOf b false) = tileOf b true := by
  revert b; decide

/-- In a redundant bay a tile's pin is low while the Punty lets the other own (R32). -/
theorem State.ownPin_false_of_mate {s : State} {t : TileId} (hi : s.independent t = false) (hm : s.owns (mate t) = true) : s.ownPin t = false := by
  simp [State.ownPin, hi, hm]

theorem State.ownPin_false_of_not_owns {s : State} {t : TileId} (h : s.owns t = false) : s.ownPin t = false := by
  simp [State.ownPin, h]

theorem State.gated.oneOwner {s : State} (h : s.gated) : s.oneOwner := by
  intro b hi
  rw [h.ownLevel_eq, h.ownLevel_eq]
  cases ho : s.owns (tileOf b true) with
  | true => rw [State.ownPin_false_of_mate hi (by rw [mate_even, ho]), Bool.false_and]
  | false => rw [State.ownPin_false_of_not_owns ho, Bool.and_false]

/-- What a tile that drives its field balls drives, and why it may (R33, R547). -/
theorem State.fieldPin_eq_some {s : State} {t : TileId} {d : Drive} (h : s.fieldPin t = some d) :
    s.ownPin t = true ∧ s.inRun t = true ∧ (s.pier.pfail = true → d.txen = false ∧ d.paen = false) := by
  unfold State.fieldPin at h
  dsimp only at h
  rw [Option.ite_none_right_eq_some] at h
  obtain ⟨hc, hd⟩ := h
  simp only [Bool.and_eq_true] at hc
  obtain ⟨⟨⟨⟨hown, -⟩, -⟩, -⟩, hrun⟩ := hc
  refine ⟨hown, hrun, fun hp => ?_⟩
  rw [if_pos hp] at hd
  cases hd
  exact ⟨rfl, rfl⟩

theorem State.gated.fieldGated {s : State} (h : s.gated) : s.fieldGated := by
  intro t d hd
  rw [h.fieldLevel_eq] at hd
  obtain ⟨hown, hrun, htx⟩ := State.fieldPin_eq_some hd
  exact ⟨by rw [h.ownLevel_eq, hown], hrun, fun hp => htx (by simpa [h.pfailN_eq] using hp)⟩

/-- Whatever a step answers, its gates were formed last. -/
theorem step_settled {s x : State} (h : step s = .next x) : ∃ y : State, x = y.settle := by
  unfold step at h
  split at h
  case h_1 c rest _ =>
    obtain ⟨y, hy⟩ := exec_done c { s with pending := rest }
    rw [hy] at h
    cases h
    exact ⟨_, rfl⟩
  case h_2 =>
    unfold idle at h
    rw [finish_eq] at h
    cases h
    exact ⟨_, rfl⟩

/-- Settles O4: the gates are the last thing that a step forms, and gates that follow the state are legal. -/
theorem stepKeepsGates : Obligations.StepKeepsGates := by
  intro s x h
  obtain ⟨y, rfl⟩ := step_settled h
  have hg := State.gated_settle y
  exact ⟨hg, hg.oneOwner, hg.fieldGated⟩

/-! ### The machine in reset (R31, R33, R602) -/

theorem State.rd_reset (e : Entry) (n i : Nat) : State.reset.rd e n i = e.dflt.numAt i := rfl

/-- While the Pier is in reset no BAY_OWN is high. -/
theorem State.ownPin_of_down {s : State} (h : s.pier.up = false) (t : TileId) : s.ownPin t = false := by
  simp [State.ownPin, h]

/-- While the Pier is in reset no tile drives its field balls. -/
theorem State.fieldPin_of_down {s : State} (h : s.pier.up = false) (t : TileId) : s.fieldPin t = none := by
  simp [State.fieldPin, State.ownPin_of_down h]

theorem State.gated_reset : State.reset.gated := by
  have hup : State.reset.pier.up = false := rfl
  have hown : State.reset.ownPin = fun _ => false := funext (State.ownPin_of_down hup)
  have hfield : State.reset.fieldPin = fun _ => none := funext (State.fieldPin_of_down hup)
  unfold State.gated State.pinsOf
  rw [hown, hfield, hup]
  rfl

theorem State.power_reset (t : TileId) : (State.reset.tile t).power.st = .off := by
  simp [State.tile, State.reset, Tile.init, Power.init]

/-- Settles O2: every part reads off the initial state, whose gates agree with a Pier in reset. -/
theorem resetState : Obligations.ResetState := by
  have hg := State.gated_reset
  refine ⟨rfl, rfl, rfl, State.rd_reset, fun t => ⟨?_, ?_, State.power_reset t⟩, hg, hg.oneOwner, hg.fieldGated⟩
  · rw [hg.ownLevel_eq, State.ownPin_of_down rfl]
  · rw [hg.fieldLevel_eq, State.fieldPin_of_down rfl]

/-! ### Writes of a bay's mode and wiring (R25) -/

theorem exec_bayModeWrite (b : BayId) (wiring : Bool) (v : Nat) (s : State) :
    exec (.bayModeWrite b wiring v) s = .next (s.done ((writeBayMode b wiring v s).1.answer (128 + b) (writeBayMode b wiring v s).2)) := rfl

/-- A permitted write of the mode. -/
theorem writeBayMode_mode {s : State} {b : BayId} {v : Nat} (hv : v ≤ 1) (h : v = 0 ∨ s.rd Reg.bay_wiring b ≠ 0) :
    writeBayMode b false v s = (s.wr Reg.bay_mode b v, .ok) := by
  unfold writeBayMode
  rw [if_neg (by omega), if_neg (by decide), if_neg (by omega)]

/-- A permitted write of the wiring. -/
theorem writeBayMode_wiring {s : State} {b : BayId} {v : Nat} (hv : v ≤ 1) (h : v = 1 ∨ s.rd Reg.bay_mode b ≠ 1) :
    writeBayMode b true v s = (s.wr Reg.bay_wiring b v, .ok) := by
  unfold writeBayMode
  rw [if_neg (by omega), if_pos rfl, if_neg (by omega)]

/-- Independent mode over PARALLEL wiring is refused. -/
theorem writeBayMode_mode_conflict {s : State} {b : BayId} (h : s.rd Reg.bay_wiring b = 0) : writeBayMode b false 1 s = (s, .conflict) := by
  unfold writeBayMode
  rw [if_neg (by decide), if_neg (by decide), if_pos ⟨rfl, h⟩]

/-- PARALLEL wiring under independent mode is refused. -/
theorem writeBayMode_wiring_conflict {s : State} {b : BayId} (h : s.rd Reg.bay_mode b = 1) : writeBayMode b true 0 s = (s, .conflict) := by
  unfold writeBayMode
  rw [if_neg (by decide), if_pos rfl, if_pos ⟨rfl, h⟩]

/-- A value of 0 or 1 fits an entry of one byte. -/
theorem State.rd_wr_bit {s : State} {e : Entry} {n v : Nat} (he : e.span = 256) (hv : v ≤ 1) : (s.wr e n v).rd e n = v := by
  rw [State.rd_wr_self, he, Nat.mod_eq_of_lt (by omega)]

theorem quiet_bay_mode : Reg.bay_mode.quiet 0 = true := by decide
theorem quiet_bay_wiring : Reg.bay_wiring.quiet 0 = true := by decide

/-- Settles O10: the four outcomes of `writeBayMode`, with the answer put out. -/
theorem bayModeWrite : Obligations.BayModeWrite := by
  refine ⟨fun s b v hv h => ?_, fun s b v hv h => ?_, fun s b h => ?_, fun s b h => ?_⟩ <;>
    refine ⟨_, exec_bayModeWrite _ _ _ _, ?_⟩
  · rw [writeBayMode_mode hv h, State.rd_done _ _ _ _ _ quiet_bay_mode]
    exact ⟨State.rd_wr_bit rfl hv, by simp, by simp⟩
  · rw [writeBayMode_wiring hv h, State.rd_done _ _ _ _ _ quiet_bay_wiring]
    exact ⟨State.rd_wr_bit rfl hv, by simp, by simp⟩
  · rw [writeBayMode_mode_conflict h, State.rd_done _ _ _ _ _ quiet_bay_mode]
    exact ⟨rfl, by simp⟩
  · rw [writeBayMode_wiring_conflict h, State.rd_done _ _ _ _ _ quiet_bay_wiring]
    exact ⟨rfl, by simp⟩

end Sys2Proof.Machine

namespace Sys2Proof.Machine

/-! ### What an operation of a tile or a bay leaves of the Pier

Many operations of a tile change its own state, count in its own entries, raise events and end actions. Of the Pier they touch the event queue and the hub alone. -/

/-- The Pier but for its event queue and its hub. -/
def Pier.core (p : Pier) : Pier := { p with evq := PPQ.empty, hub := Hub.init }

/-- From `s` to `x` the Pier keeps its core and every quiet entry of the device its value. -/
structure PierKept (s x : State) : Prop where
  core : x.pier.core = s.pier.core
  rd : ∀ (d : Entry) (m j : Nat), d.area = .dev → d.quiet j = true → x.rd d m j = s.rd d m j

theorem Entry.place_lt_of_quiet_dev {d : Entry} {j : Nat} (hd : d.area = .dev) (hq : d.quiet j = true) : d.place j < 0x2000 * 256 := by
  simp only [Entry.quiet, hd, Bool.and_eq_true, decide_eq_true_eq] at hq
  obtain ⟨⟨hp, -⟩, -⟩ := hq
  exact hp

/-- A quiet place of the device and a place of a bay or a tile. -/
theorem Entry.key_ne_of_quiet_dev {d e : Entry} {m n i j : Nat} (hd : d.area = .dev) (hq : d.quiet j = true) (he : e.area ≠ .dev) :
    d.key m j ≠ e.key n i := by
  have hp := Entry.place_lt_of_quiet_dev hd hq
  cases ha : e.area with
  | dev => exact absurd ha he
  | bay => exact (Entry.key_ne_bay_dev e d n m j i ha hd hp).symm
  | tile => exact (Entry.key_ne_tile_dev e d n m j i ha hd hp).symm

/-- In DEGRADED a change of mode that waits ends with CONFLICT. -/
theorem State.modeReady_of_degraded {s : State} {b : BayId} (h : s.pier.degraded = true) :
    s.modeReady b = if (s.bay b).modeTo then (s.onBay b fun x => { x with modeTo := false }).modeResult b .conflict else s := by
  unfold State.modeReady
  cases (s.bay b).modeTo
  · rfl
  · simp only [h, Bool.not_true, Bool.false_eq_true, if_false, if_true]

namespace PierKept

variable {s x : State}

theorem refl (s : State) : PierKept s s := ⟨rfl, fun _ _ _ _ _ => rfl⟩

theorem clock (h : PierKept s x) : x.pier.clock = s.pier.clock := (congrArg Pier.clock h.core :)
theorem passCount (h : PierKept s x) : x.pier.passCount = s.pier.passCount := (congrArg Pier.passCount h.core :)
theorem misc (h : PierKept s x) : x.pier.misc = s.pier.misc := (congrArg Pier.misc h.core :)
theorem degraded (h : PierKept s x) : x.pier.degraded = s.pier.degraded := (congrArg Pier.degraded h.core :)
theorem pmb (h : PierKept s x) : x.pier.pmb = s.pier.pmb := (congrArg Pier.pmb h.core :)
theorem pmbFlight (h : PierKept s x) : x.pier.pmbFlight = s.pier.pmbFlight := (congrArg Pier.pmbFlight h.core :)
theorem board (h : PierKept s x) : x.pier.board = s.pier.board := (congrArg Pier.board h.core :)
theorem enumDue (h : PierKept s x) : x.pier.enumDue = s.pier.enumDue := (congrArg Pier.enumDue h.core :)

theorem trans {y : State} (h : PierKept s x) (k : PierKept x y) : PierKept s y :=
  ⟨k.core.trans h.core, fun d m j hd hq => (k.rd d m j hd hq).trans (h.rd d m j hd hq)⟩

/-- A change outside the Pier and the dictionary. -/
theorem of_eq {y : State} (h : PierKept s x) (hp : y.pier.core = x.pier.core) (hr : y.regs = x.regs) : PierKept s y :=
  h.trans ⟨hp, fun d m j _ _ => by unfold State.rd; rw [hr]⟩

theorem wr (h : PierKept s x) (e : Entry) (n v i : Nat) (he : e.area ≠ .dev := by decide) : PierKept s (x.wr e n v i) :=
  h.trans ⟨rfl, fun _ _ _ hd hq => State.rd_wr_ne _ _ _ _ _ _ _ _ (Entry.key_ne_of_quiet_dev hd hq he)⟩
theorem wrB (h : PierKept s x) (e : Entry) (n a : Nat) (b : Bytes) (i : Nat) (he : e.area ≠ .dev := by decide) : PierKept s (x.wrB e n a b i) :=
  h.trans ⟨rfl, fun _ _ _ hd hq => State.rd_wrB_ne _ _ _ _ _ _ _ _ _ (Entry.key_ne_of_quiet_dev hd hq he)⟩
theorem bump (h : PierKept s x) (e : Entry) (n i k : Nat) (he : e.area ≠ .dev := by decide) : PierKept s (x.bump e n i k) :=
  h.wr e n _ i he
theorem onTile (h : PierKept s x) (t : TileId) (f : Tile → Tile) : PierKept s (x.onTile t f) := h.of_eq rfl rfl
theorem onVol (h : PierKept s x) (t : TileId) (f : Vol → Vol) : PierKept s (x.onVol t f) := h.of_eq rfl rfl
theorem onSw (h : PierKept s x) (t : TileId) (f : Switch → Switch) : PierKept s (x.onSw t f) := h.of_eq rfl rfl
theorem onGather (h : PierKept s x) (t : TileId) (f : Gather → Gather) : PierKept s (x.onGather t f) := h.of_eq rfl rfl
theorem onBay (h : PierKept s x) (b : BayId) (f : Bay → Bay) : PierKept s (x.onBay b f) := h.of_eq rfl rfl
theorem answerFor (h : PierKept s x) (a : Act) (n : Nat) (st : Status) : PierKept s (x.answerFor a n st) := h.of_eq rfl rfl
theorem answer (h : PierKept s x) (n : Nat) (st : Status) : PierKept s (x.answer n st) := h.of_eq rfl rfl

theorem pierEvent (h : PierKept s x) (w sev code obj a b : Nat) : PierKept s (x.pierEvent w sev code obj a b) :=
  h.trans ⟨State.pierPut_keeps (fun y => y.pier.core) (fun _ _ => rfl) (fun _ _ => rfl) _ _, fun _ _ _ _ hq => State.rd_pierEvent _ _ _ _ _ _ _ _ _ _ hq⟩

theorem qWrite (h : PierKept s x) (t : TileId) (c : Fin 7) (q : QItem) : PierKept s (x.qWrite t c q) :=
  h.trans ⟨State.access_keeps (fun y => y.pier.core) t c (fun _ _ _ => rfl) (fun _ _ _ => rfl) (fun _ _ _ => rfl) (fun _ _ => rfl) (fun _ _ => rfl) _ _,
    fun d _ _ hd hq => State.rd_qWrite _ _ _ _ _ _ _ hq (by simp [hd])⟩

theorem alarm (h : PierKept s x) (b : BayId) (k : Nat) (on : Bool) : PierKept s (x.alarm b k on) := by
  unfold State.alarm
  dsimp only
  split
  · exact h
  · exact (h.wr _ _ _ _).pierEvent _ _ _ _ _ _

/-- A step that keeps the Pier, taken for each element of a list. -/
theorem foldl {α : Type} (h : PierKept s x) (l : List α) (f : State → α → State) (hf : ∀ y a, PierKept s y → PierKept s (f y a)) :
    PierKept s (l.foldl f x) := by
  induction l generalizing x with
  | nil => exact h
  | cons a l ih => exact ih (hf x a h)

theorem each {α : Type} (h : PierKept s x) (l : List α) (f : State → α → State) (hf : ∀ y a, PierKept s y → PierKept s (f y a)) :
    PierKept s (x.each l f) := h.foldl l f hf

/-! Ports of a tile (R364, R378, R379) -/

theorem swRelease (h : PierKept s x) (t : TileId) (i n : Nat) (shared : Bool) : PierKept s (x.swRelease t i n shared) := h.onSw _ _

theorem setCredit (h : PierKept s x) (t : TileId) (o n : Nat) : PierKept s (x.setCredit t o n) := by
  unfold State.setCredit State.starve
  split
  · exact (h.onVol _ _).onVol _ _
  · exact h.onVol _ _

theorem settleEnv (h : PierKept s x) (t : TileId) (uid : Nat) : PierKept s (x.settleEnv t uid) := by
  unfold State.settleEnv
  split
  · split
    · dsimp only
      split
      · exact (((h.onGather _ _).onGather _ _).wrB _ _ _ _ _).answerFor _ _ _
      · exact (h.onGather _ _).qWrite _ _ _
    · exact h
  · exact h

theorem flushIntake (h : PierKept s x) (t : TileId) : PierKept s (x.flushIntake t) := by
  unfold State.flushIntake
  dsimp only
  split
  · exact (h.onGather _ _).settleEnv _ _
  · exact h.onGather _ _

theorem dropWaiting (h : PierKept s x) (t : TileId) (o : Nat) : PierKept s (x.dropWaiting t o) := by
  unfold State.dropWaiting
  exact (h.bump _ _ _ _).onSw _ _

theorem dropDelayed (h : PierKept s x) (t : TileId) (o : Nat) : PierKept s (x.dropDelayed t o) :=
  (h.onVol _ _).each _ _ fun _ _ k => (k.bump _ _ _ _).swRelease _ _ _ _

theorem portDown (h : PierKept s x) (t : TileId) (o : Nat) : PierKept s (x.portDown t o) := by
  have flushed : ∀ y : State, PierKept s y → PierKept s (if o = 5 then y.flushIntake t else y) := fun y k => by
    split
    · exact k.flushIntake t
    · exact k
  have emptied : ∀ (y : State) (i c : Nat), PierKept s y → PierKept s
      (if (y.sw t).voq i o c = [] then y
       else ((y.sw t).voq i o c).foldl (fun z f => z.swRelease t i f.cells f.shared)
        ((y.bump Reg.sw_flushed t (4 * o + c) ((y.sw t).voq i o c).length).onSw t fun w => w.setVoq i o c [])) := fun y i c k => by
    split
    · exact k
    · exact ((k.bump _ _ _ _).onSw _ _).foldl _ _ fun _ _ k' => k'.swRelease _ _ _ _
  have closed := ((((flushed x h).dropWaiting t o).dropDelayed t o).each (List.range 8) _ fun y i k => k.each (List.range 4) _ fun z c k' =>
    emptied z i c k').setCredit t o 0
  unfold State.portDown
  dsimp only
  split
  · exact (closed.onSw _ _).bump _ _ _ _
  · exact closed.onSw _ _

theorem plcStart (h : PierKept s x) (t : TileId) : PierKept s (x.plcStart t) := ((h.onTile _ _).onVol _ _).wr _ _ _ _
theorem plcStop (h : PierKept s x) (t : TileId) : PierKept s (x.plcStop t) :=
  (((((h.onVol _ _).wr _ _ _ _).wr _ _ _ _).wr _ _ _ _).wr _ _ _ _).wr _ _ _ _
theorem rfStart (h : PierKept s x) (t : TileId) : PierKept s (x.rfStart t) := by
  unfold State.rfStart
  exact h.onVol _ _
theorem rfStop (h : PierKept s x) (t : TileId) : PierKept s (x.rfStop t) := by
  unfold State.rfStop
  dsimp only
  split
  · exact (h.bump _ _ _ _).onVol _ _
  · exact h.onVol _ _

/-- Bringing the ports of a tile in line leaves the Pier. -/
theorem followTile (h : PierKept s x) (t : TileId) : PierKept s (x.followTile t) := by
  unfold State.followTile
  dsimp only
  refine (h.each _ _ fun y p k => ?_).each _ _ fun y p k => ?_
  · split
    · exact k.onSw _ _
    · split
      · exact (k.portDown _ _).onSw _ _
      · exact k
  · split
    · split
      · exact (k.setCredit _ _ _).plcStart _
      · split
        · exact (k.setCredit _ _ _).rfStart _
        · exact k.setCredit _ _ _
    · split
      · split
        · exact (k.portDown _ _).plcStop _
        · split
          · exact (k.portDown _ _).rfStop _
          · exact k.portDown _ _
      · exact k

/-! A tile without REFCLK (R19), and a bay as the Pier enters DEGRADED (R22) -/

theorem settleService (h : PierKept s x) (t : TileId) : PierKept s (x.settleService t) := h.wr _ _ _ _

theorem stopTile (h : PierKept s x) (t : TileId) : PierKept s (stopTile x t) := by
  unfold Machine.stopTile
  split
  · exact h.onVol _ _
  · exact h

theorem bayResult (h : PierKept s x) (b : BayId) (st : Status) : PierKept s (x.bayResult b st) := (h.wr _ _ _ _).answer _ _

theorem acting (h : PierKept s x) (a : Act) (f : State → State) (hf : ∀ y, PierKept s y → PierKept s (f y)) : PierKept s (x.acting a f) :=
  (hf { x with acts := { x.acts with now := a } } (h.of_eq rfl rfl)).of_eq rfl rfl

theorem modeResult (h : PierKept s x) (b : BayId) (st : Status) : PierKept s (x.modeResult b st) := h.acting _ _ fun _ k => k.bayResult _ _

/-- In DEGRADED a change of mode that waits is given up, and no more. -/
theorem modeReady (h : PierKept s x) (b : BayId) (hd : s.pier.degraded = true) : PierKept s (x.modeReady b) := by
  have hx : x.pier.degraded = true := h.degraded.trans hd
  rw [State.modeReady_of_degraded hx]
  split
  · exact (h.onBay _ _).modeResult _ _
  · exact h

theorem degradeBay (h : PierKept s x) (b : BayId) (hd : s.pier.degraded = true) : PierKept s (x.degradeBay b) := by
  have rest : ∀ y, PierKept s y → PierKept s
      (if ((y.modeReady b).bay b).promo.isSome && ((y.modeReady b).activeOf b).isNone then (y.modeReady b).alarm b 2 true else y.modeReady b) := fun y k => by
    split
    · exact (k.modeReady b hd).alarm _ _ _
    · exact k.modeReady b hd
  unfold State.degradeBay
  dsimp only
  split
  · exact rest _ ((h.onBay _ _).followTile _)
  · exact rest _ (h.onBay _ _)
  · exact rest _ h

end PierKept

end Sys2Proof.Machine

namespace Sys2Proof.Machine

/-! ### The clock selection (R18, R19) -/

theorem quiet_pier_clock_source : Reg.pier_clock_source.quiet 0 = true := by decide
theorem quiet_pier_clock_switches : Reg.pier_clock_switches.quiet 0 = true := by decide
theorem quiet_device_pmbus_present : Reg.device_pmbus_present.quiet 0 = true := by decide

theorem windowPasses_of_mem {n : Nat} (h1 : 24000 ≤ n) (h2 : n ≤ 27200) : windowPasses n = true := by
  simp [windowPasses, h1, h2]

theorem windowPasses_of_out {n : Nat} (h : n < 24000 ∨ 27200 < n) : windowPasses n = false := by
  simp only [windowPasses, Bool.and_eq_false_iff, decide_eq_false_iff_not]
  omega

@[simp] theorem State.now_pierEvent (s : State) (w sev code obj a b : Nat) : (s.pierEvent w sev code obj a b).now = s.now :=
  State.pierPut_keeps State.now (fun _ _ => rfl) (fun _ _ => rfl) _ _

/-- Each regulator of the board that does not answer is counted and reported. -/
def State.reportAbsent (s : State) : State :=
  s.each allTiles fun s t => if bit s.pier.board t then s else (s.bump Reg.device_pmbus_naks 0 0 2).pierEvent 0xFF 2 0x0104 t

theorem State.enumerate_of_not_due {s : State} (hd : s.pier.enumDue = false) : s.enumerate = s := by
  unfold State.enumerate
  rw [hd]
  rfl

/-- What counting and reporting a missing regulator leave, `reportAbsent` leaves. -/
theorem State.reportAbsent_keeps {β : Type} (g : State → β) (hn : ∀ x k, g (State.bump x Reg.device_pmbus_naks 0 0 k) = g x)
    (he : ∀ x a b c d, g (State.pierEvent x a b c d) = g x) (s : State) : g s.reportAbsent = g s :=
  State.each_keeps g allTiles _ _ fun x t => by
    split
    · rfl
    · rw [he, hn]

@[simp] theorem State.reportAbsent_core (s : State) : s.reportAbsent.pier.core = s.pier.core :=
  State.reportAbsent_keeps (fun x => x.pier.core) (fun _ _ => rfl) (fun x _ _ _ _ => ((PierKept.refl x).pierEvent _ _ _ _ _ _).core) s
@[simp] theorem State.reportAbsent_now (s : State) : s.reportAbsent.now = s.now :=
  State.reportAbsent_keeps State.now (fun _ _ => rfl) (fun _ _ _ _ _ => by simp) s
@[simp] theorem State.reportAbsent_out (s : State) : s.reportAbsent.out = s.out :=
  State.reportAbsent_keeps State.out (fun _ _ => rfl) (fun _ _ _ _ _ => by simp) s

/-- The Pier once the 16 addresses have been asked (R18, R536). -/
def State.polled (s : State) : State :=
  (s.onPier fun p => { p with enumDue := false, present := p.board, polledAt := s.now }).reportAbsent.bump Reg.device_pmbus_transactions 0 0 32

/-- The enumeration that is due. -/
theorem State.enumerate_of_due {s : State} (hd : s.pier.enumDue = true) :
    s.enumerate = (s.polled.wr Reg.device_pmbus_present 0 s.polled.pier.present).onPier fun p =>
      { p with bootQueue := (s.polled.wr Reg.device_pmbus_present 0 s.polled.pier.present).bootOrder, bootAt := s.polled.now } := by
  unfold State.enumerate
  rw [hd]
  rfl

theorem State.polled_core (s : State) : s.polled.pier.core = Pier.core { s.pier with enumDue := false, present := s.pier.board, polledAt := s.now } :=
  State.reportAbsent_core _
@[simp] theorem State.polled_now (s : State) : s.polled.now = s.now := State.reportAbsent_now _
@[simp] theorem State.polled_out (s : State) : s.polled.out = s.out := State.reportAbsent_out _
theorem State.polled_present (s : State) : s.polled.pier.present = s.pier.board := (congrArg Pier.present s.polled_core :)

/-- The enumeration leaves the clock selection. -/
@[simp] theorem State.enumerate_clock (s : State) : s.enumerate.pier.clock = s.pier.clock := by
  cases hd : s.pier.enumDue with
  | false => rw [State.enumerate_of_not_due hd]
  | true =>
    rw [State.enumerate_of_due hd]
    exact (congrArg Pier.clock s.polled_core :)

/-- The enumeration leaves the values that it neither counts nor writes. -/
theorem State.rd_enumerate (s : State) (d : Entry) (m j : Nat) (hq : d.quiet j = true) (hn : d.key m j ≠ Reg.device_pmbus_naks.key 0 0)
    (ht : d.key m j ≠ Reg.device_pmbus_transactions.key 0 0) (hp : d.key m j ≠ Reg.device_pmbus_present.key 0 0) :
    s.enumerate.rd d m j = s.rd d m j := by
  cases hd : s.pier.enumDue with
  | false => rw [State.enumerate_of_not_due hd]
  | true =>
    rw [State.enumerate_of_due hd, State.rd_onPier, State.rd_wr_ne _ _ _ _ _ _ _ _ hp, State.polled, State.rd_bump_ne _ _ _ _ _ _ _ _ ht]
    exact State.reportAbsent_keeps (fun x => x.rd d m j) (fun _ _ => State.rd_bump_ne _ _ _ _ _ _ _ _ hn)
      (fun _ _ _ _ _ => State.rd_pierEvent _ _ _ _ _ _ _ _ _ _ hq) _

theorem State.rd_enumerate_clock_source (s : State) : s.enumerate.rd Reg.pier_clock_source 0 0 = s.rd Reg.pier_clock_source 0 0 :=
  State.rd_enumerate s _ _ _ quiet_pier_clock_source (by decide) (by decide) (by decide)

/-- What the enumeration that is due leaves: the Pier and the host see the regulators that answer, and the boot plan may begin. -/
theorem State.enumerate_due {s : State} (hd : s.pier.enumDue = true) (hb : s.pier.board < 65536) :
    s.enumerate.pier.enumDue = false ∧ s.enumerate.pier.present = s.pier.board ∧ s.enumerate.rd Reg.device_pmbus_present 0 0 = s.pier.board ∧
      s.enumerate.pier.bootAt = s.now ∧ s.enumerate.out = s.out := by
  rw [State.enumerate_of_due hd]
  refine ⟨(congrArg Pier.enumDue s.polled_core :), s.polled_present, ?_, s.polled_now, s.polled_out⟩
  rw [State.rd_onPier, State.rd_wr_self, s.polled_present]
  exact Nat.mod_eq_of_lt hb

/-! A change of source between REFCLK and the RC oscillator (R19) -/

/-- The change is written, counted and told. -/
def State.switchSource (s : State) (c : ClockSt) (v sev code : Nat) : State :=
  (((s.onPier fun p => { p with clock := c, passCount := 0 }).wr Reg.pier_clock_source 0 v).bump Reg.pier_clock_switches 0).pierEvent 0xFF sev code

@[simp] theorem State.switchSource_clock (s : State) (c : ClockSt) (v sev code : Nat) : (s.switchSource c v sev code).pier.clock = c :=
  State.pierEvent_clock _ _ _ _ _ _ _
@[simp] theorem State.switchSource_passCount (s : State) (c : ClockSt) (v sev code : Nat) : (s.switchSource c v sev code).pier.passCount = 0 :=
  State.pierEvent_passCount _ _ _ _ _ _ _

theorem State.rd_switchSource_source (s : State) (c : ClockSt) {v : Nat} (sev code : Nat) (hv : v ≤ 1) :
    (s.switchSource c v sev code).rd Reg.pier_clock_source 0 = v := by
  rw [State.switchSource, State.rd_pierEvent _ _ _ _ _ _ _ _ _ _ quiet_pier_clock_source, State.rd_bump_ne _ _ _ _ _ _ _ _ (by decide),
    State.rd_wr_bit rfl hv]

theorem State.rd_switchSource_switches (s : State) (c : ClockSt) (v sev code : Nat)
    (h : s.rd Reg.pier_clock_switches 0 + 1 < Reg.pier_clock_switches.span) :
    (s.switchSource c v sev code).rd Reg.pier_clock_switches 0 = s.rd Reg.pier_clock_switches 0 + 1 := by
  have hk : ((s.onPier fun p => { p with clock := c, passCount := 0 }).wr Reg.pier_clock_source 0 v).rd Reg.pier_clock_switches 0 =
      s.rd Reg.pier_clock_switches 0 := State.rd_wr_ne _ _ _ _ _ _ _ _ (by decide)
  rw [State.switchSource, State.rd_pierEvent _ _ _ _ _ _ _ _ _ _ quiet_pier_clock_switches, State.rd_bump_lt _ _ _ _ (hk.symm ▸ h), hk]

/-! The table of R19, row by row -/

theorem exec_qualificationWindow (n : Nat) (s : State) : exec (.qualificationWindow n) s = .next (s.done (qualifyWindow n s)) := rfl
theorem exec_refclkLoss (s : State) : exec .refclkLoss s = .next (s.done (loseRefclk s)) := rfl

section
variable {s : State} {n : Nat} (hu : s.pier.up = true)
include hu

theorem qualifyWindow_select_pass (hc : s.pier.clock = .select) (hw : windowPasses n = true) :
    qualifyWindow n s = ((s.onPier fun p => { p with clock := .onRefclk, passCount := 0 }).wr Reg.pier_clock_source 0 0).enumerate := by
  unfold qualifyWindow
  rw [hu, hc, hw]
  rfl

theorem qualifyWindow_select_fail (hc : s.pier.clock = .select) (hw : windowPasses n = false) :
    qualifyWindow n s =
      (((s.onPier fun p => { p with clock := .onRc, passCount := 0 }).wr Reg.pier_clock_source 0 1).pierEvent 0xFF 1 0x0101).enumerate := by
  unfold qualifyWindow
  rw [hu, hc, hw]
  rfl

/-- Whatever the first window finds, the enumeration follows it. -/
theorem qualifyWindow_select (hc : s.pier.clock = .select) : ∃ y : State, qualifyWindow n s = y.enumerate ∧ y.pier.enumDue = s.pier.enumDue ∧
    y.pier.board = s.pier.board ∧ y.now = s.now ∧ y.out = s.out := by
  cases hw : windowPasses n with
  | true => exact ⟨_, qualifyWindow_select_pass hu hc hw, rfl, rfl, rfl, rfl⟩
  | false =>
    have hk := (PierKept.refl ((s.onPier fun p => { p with clock := .onRc, passCount := 0 }).wr Reg.pier_clock_source 0 1)).pierEvent 0xFF 1 0x0101 0 0 0
    exact ⟨_, qualifyWindow_select_fail hu hc hw, hk.enumDue, hk.board, by simp, by simp⟩

theorem qualifyWindow_rc_pass (hc : s.pier.clock = .onRc) (hw : windowPasses n = true) :
    qualifyWindow n s = if s.pier.passCount + 1 < 100 then s.onPier fun p => { p with passCount := p.passCount + 1 }
      else s.switchSource .onRefclk 0 0 0x0102 := by
  unfold qualifyWindow
  rw [hu, hc, hw]
  rfl

theorem qualifyWindow_rc_fail (hc : s.pier.clock = .onRc) (hw : windowPasses n = false) :
    qualifyWindow n s = s.onPier fun p => { p with passCount := 0 } := by
  unfold qualifyWindow
  rw [hu, hc, hw]
  rfl

end

/-- Every running tile stops with every element missing, and its ports follow (R19, R40). -/
def State.stopTiles (s : State) : State :=
  s.each allTiles fun y t => if y.inRun t then (((stopTile y t).wr Reg.status_missing t 0x1F).settleService t).followTile t else y

theorem State.stopTiles_kept (s : State) : PierKept s s.stopTiles :=
  (PierKept.refl s).each _ _ fun _ t k => by
    split
    · exact (((k.stopTile t).wr _ _ _ _).settleService t).followTile t
    · exact k

theorem loseRefclk_of_onRefclk {s : State} (h : s.pier.clock = .onRefclk) :
    loseRefclk s = (s.switchSource .onRc 1 1 0x0101).stopTiles := by
  unfold loseRefclk
  rw [if_pos h]
  rfl

theorem loseRefclk_of_ne {s : State} (h : s.pier.clock ≠ .onRefclk) : loseRefclk s = s.stopTiles := by
  unfold loseRefclk
  rw [if_neg h]
  rfl

/-- Settles O6, by the rows of the table of R19. -/
theorem clockSelection : Obligations.ClockSelection := by
  refine ⟨fun s n hu hc h1 h2 => ?_, fun s n hu hc h => ?_, fun s n hu hc hp h1 h2 hs => ?_, fun s n hu hc h => ?_, fun s hc hs => ?_,
    fun s n hu hc hp h1 h2 => ?_, fun s n hu hc hd hb => ?_, fun s hc => ?_⟩
  · refine ⟨_, exec_qualificationWindow n s, ?_⟩
    rw [qualifyWindow_select_pass hu hc (windowPasses_of_mem h1 h2), State.done_pier, State.rd_done _ _ _ _ _ quiet_pier_clock_source,
      State.enumerate_clock, State.rd_enumerate_clock_source]
    exact ⟨rfl, State.rd_wr_bit rfl (by decide)⟩
  · refine ⟨_, exec_qualificationWindow n s, ?_⟩
    rw [qualifyWindow_select_fail hu hc (windowPasses_of_out h), State.done_pier, State.rd_done _ _ _ _ _ quiet_pier_clock_source,
      State.enumerate_clock, State.rd_enumerate_clock_source, State.pierEvent_clock, State.rd_pierEvent _ _ _ _ _ _ _ _ _ _ quiet_pier_clock_source]
    exact ⟨rfl, State.rd_wr_bit rfl (by decide)⟩
  · refine ⟨_, exec_qualificationWindow n s, ?_⟩
    rw [qualifyWindow_rc_pass hu hc (windowPasses_of_mem h1 h2), if_neg (by omega), State.done_pier, State.rd_done _ _ _ _ _ quiet_pier_clock_source,
      State.rd_done _ _ _ _ _ quiet_pier_clock_switches]
    exact ⟨s.switchSource_clock _ _ _ _, s.rd_switchSource_source _ _ _ (by decide), s.rd_switchSource_switches _ _ _ _ hs⟩
  · refine ⟨_, exec_qualificationWindow n s, ?_⟩
    rw [qualifyWindow_rc_fail hu hc (windowPasses_of_out h), State.done_pier]
    exact ⟨hc, rfl⟩
  · refine ⟨_, exec_refclkLoss s, ?_⟩
    rw [loseRefclk_of_onRefclk hc, State.done_pier, State.rd_done _ _ _ _ _ quiet_pier_clock_source, State.rd_done _ _ _ _ _ quiet_pier_clock_switches]
    have hk := (s.switchSource .onRc 1 1 0x0101).stopTiles_kept
    rw [hk.rd _ _ _ rfl quiet_pier_clock_source, hk.rd _ _ _ rfl quiet_pier_clock_switches, hk.clock, hk.passCount]
    exact ⟨s.switchSource_clock _ _ _ _, s.switchSource_passCount _ _ _ _, s.rd_switchSource_source _ _ _ (by decide),
      s.rd_switchSource_switches _ _ _ _ hs⟩
  · refine ⟨_, exec_qualificationWindow n s, ?_⟩
    rw [qualifyWindow_rc_pass hu hc (windowPasses_of_mem h1 h2), if_pos hp, State.done_pier, State.done_out]
    exact ⟨hc, rfl, State.done_regs s _ rfl, rfl⟩
  · refine ⟨_, exec_qualificationWindow n s, ?_⟩
    rw [State.done_pier, State.done_out, State.rd_done _ _ _ _ _ quiet_device_pmbus_present]
    obtain ⟨y, hy, hdue, hboard, hnow, hout⟩ := qualifyWindow_select (n := n) hu hc
    rw [hy, ← hboard, ← hnow, ← hout]
    exact State.enumerate_due (hdue.trans hd) (hboard ▸ hb)
  · rw [exec_refclkLoss, loseRefclk_of_ne hc]
    rfl

end Sys2Proof.Machine

namespace Sys2Proof.Machine

/-! ### Lock-step (R21, R22) -/

theorem quiet_pier_lockstep_state : Reg.pier_lockstep_state.quiet 0 = true := by decide
theorem quiet_pier_lockstep_miscompares : Reg.pier_lockstep_miscompares.quiet 0 = true := by decide

/-- The miscompares of the last second, this one with them. -/
def State.recentMisc (s : State) : List Nat := (s.pier.misc.filter fun x => decide (s.now < x + 1000000000)) ++ [s.now]

/-- The miscompare is counted and its instant kept. -/
def State.countMiscompare (s : State) : State :=
  (s.bump Reg.pier_lockstep_miscompares 0).onPier fun p => { p with misc := s.recentMisc }

/-- The reload of the copies shows, but in DEGRADED (R21). -/
def State.noteMiscompare (s : State) : State :=
  if s.pier.degraded then s.countMiscompare else s.countMiscompare.wr Reg.pier_lockstep_state 0 1

/-- The PMBus transaction in flight is put back to be issued once more. -/
def State.reissue (s : State) : State :=
  match s.pier.pmbFlight with
  | some x => if x.again then s.onPier fun p => { p with pmbFlight := none }
              else s.onPier fun p => { p with pmbFlight := none, pmb := { x with again := true } :: p.pmb }
  | none => s

/-- The Pier is DEGRADED and its PMBus transactions are dropped (R22). -/
def State.dropPmbus (s : State) : State :=
  (s.onPier fun p => { p with degraded := true, pmb := [], pmbFlight := none }).wr Reg.pier_lockstep_state 0 2

/-- The Pier enters DEGRADED, and every bay gives up what waits. -/
def State.enterDegraded (s : State) : State := (s.dropPmbus.pierEvent 0xFF 3 0x0103).each allBays fun y b => y.degradeBay b

theorem State.reissue_eq (s : State) : ∃ l, s.reissue = s.onPier fun p => { p with pmbFlight := none, pmb := l } := by
  unfold State.reissue
  split
  · split <;> exact ⟨_, rfl⟩
  · next h => exact ⟨s.pier.pmb, by simp only [State.onPier, ← h]⟩

theorem State.reissue_pmbFlight (s : State) : s.reissue.pier.pmbFlight = none := by
  obtain ⟨l, hl⟩ := s.reissue_eq
  rw [hl]
  rfl

/-- What neither the PMBus of the Pier nor the state of lock-step decides, the reload leaves as the count left it. -/
theorem State.reload_keeps {β : Type} (g : State → β) (hw : ∀ x v, g (State.wr x Reg.pier_lockstep_state 0 v) = g x)
    (hp : ∀ x l, g (State.onPier x fun p => { p with pmbFlight := none, pmb := l }) = g x) (s : State) :
    g s.noteMiscompare.reissue = g s.countMiscompare := by
  obtain ⟨l, hl⟩ := s.noteMiscompare.reissue_eq
  rw [hl, hp]
  unfold State.noteMiscompare
  split
  · rfl
  · exact hw _ _

theorem State.reload_degraded (s : State) : s.noteMiscompare.reissue.pier.degraded = s.pier.degraded :=
  State.reload_keeps (fun x => x.pier.degraded) (fun _ _ => rfl) (fun _ _ => rfl) s
theorem State.reload_misc (s : State) : s.noteMiscompare.reissue.pier.misc = s.recentMisc :=
  State.reload_keeps (fun x => x.pier.misc) (fun _ _ => rfl) (fun _ _ => rfl) s
theorem State.reload_bays (s : State) : s.noteMiscompare.reissue.bays = s.bays :=
  State.reload_keeps State.bays (fun _ _ => rfl) (fun _ _ => rfl) s
theorem State.reload_out (s : State) : s.noteMiscompare.reissue.out = s.out :=
  State.reload_keeps State.out (fun _ _ => rfl) (fun _ _ => rfl) s

/-- The miscompare is counted, whatever the copies show. -/
theorem State.rd_reload_miscompares (s : State) (h : s.rd Reg.pier_lockstep_miscompares 0 + 1 < Reg.pier_lockstep_miscompares.span) :
    s.noteMiscompare.reissue.rd Reg.pier_lockstep_miscompares 0 = s.rd Reg.pier_lockstep_miscompares 0 + 1 :=
  (State.reload_keeps (fun x => x.rd Reg.pier_lockstep_miscompares 0) (fun _ _ => State.rd_wr_ne _ _ _ _ _ _ _ _ (by decide)) (fun _ _ => rfl) s).trans
    (State.rd_bump_lt _ _ _ _ h)

theorem State.rd_reload_state {s : State} (h : s.pier.degraded = false) : s.noteMiscompare.reissue.rd Reg.pier_lockstep_state 0 = 1 := by
  obtain ⟨l, hl⟩ := s.noteMiscompare.reissue_eq
  rw [hl, State.noteMiscompare, h, if_neg Bool.false_ne_true, State.rd_onPier, State.rd_wr_self]
  rfl

theorem exec_lockstepMiscompare (s : State) : exec .lockstepMiscompare s = .next (s.done (miscompare s)) := rfl

/-- A miscompare reloads the copies; the third within a second makes the Pier DEGRADED besides. -/
theorem miscompare_eq {s : State} (hu : s.pier.up = true) :
    miscompare s = if 3 ≤ s.recentMisc.length && !s.noteMiscompare.reissue.pier.degraded then s.noteMiscompare.reissue.enterDegraded
      else s.noteMiscompare.reissue := by
  unfold miscompare
  rw [hu]
  rfl

/-- In DEGRADED, or with fewer than two miscompares in the second before, the copies reload and no more. -/
theorem miscompare_reload {s : State} (hu : s.pier.up = true)
    (h : s.pier.degraded = true ∨ (s.pier.misc.filter fun x => decide (s.now < x + 1000000000)).length < 2) :
    miscompare s = s.noteMiscompare.reissue := by
  rw [miscompare_eq hu, s.reload_degraded]
  refine if_neg fun hc => ?_
  simp only [State.recentMisc, List.length_append, List.length_singleton, Bool.and_eq_true, decide_eq_true_eq, Bool.not_eq_true'] at hc
  rcases h with h | h
  · exact absurd (h.symm.trans hc.2) (by decide)
  · omega

/-- The third miscompare within a second. -/
theorem miscompare_third {s : State} (hu : s.pier.up = true) (hd : s.pier.degraded = false)
    (h : 2 ≤ (s.pier.misc.filter fun x => decide (s.now < x + 1000000000)).length) :
    miscompare s = s.noteMiscompare.reissue.enterDegraded := by
  rw [miscompare_eq hu, s.reload_degraded, hd]
  refine if_pos ?_
  simp only [State.recentMisc, List.length_append, List.length_singleton, Bool.not_false, Bool.and_true, decide_eq_true_eq]
  omega

/-- The event and what the bays give up leave the Pier. -/
theorem State.enterDegraded_kept (s : State) : PierKept s.dropPmbus s.enterDegraded :=
  ((PierKept.refl _).pierEvent _ _ _ _ _ _).each _ _ fun _ b k => k.degradeBay b rfl

theorem State.rd_enterDegraded_state (s : State) : s.enterDegraded.rd Reg.pier_lockstep_state 0 = 2 :=
  (s.enterDegraded_kept.rd _ _ _ rfl quiet_pier_lockstep_state).trans (State.rd_wr_self _ _ _ _ _)

/-- A miscompare that is not the third: counted, its instant kept, the copies reloaded, bays and outputs as they were. -/
theorem lockstep_reloads (s : State) (hu : s.pier.up = true)
    (h : s.pier.degraded = true ∨ (s.pier.misc.filter fun x => decide (s.now < x + 1000000000)).length < 2)
    (hs : s.rd Reg.pier_lockstep_miscompares 0 + 1 < Reg.pier_lockstep_miscompares.span) :
    ∃ x, exec .lockstepMiscompare s = .next x ∧ x.rd Reg.pier_lockstep_miscompares 0 = s.rd Reg.pier_lockstep_miscompares 0 + 1 ∧
      x.pier.misc = s.recentMisc ∧ x.pier.degraded = s.pier.degraded ∧ x.pier.pmbFlight = none ∧
      (s.pier.degraded = false → x.rd Reg.pier_lockstep_state 0 = 1) ∧ x.bays = s.bays ∧ x.out = s.out := by
  refine ⟨_, exec_lockstepMiscompare s, ?_⟩
  rw [miscompare_reload hu h, State.done_pier, State.done_bays, State.done_out, State.rd_done _ _ _ _ _ quiet_pier_lockstep_miscompares,
    State.rd_done _ _ _ _ _ quiet_pier_lockstep_state]
  exact ⟨s.rd_reload_miscompares hs, s.reload_misc, s.reload_degraded, State.reissue_pmbFlight _, State.rd_reload_state, s.reload_bays, s.reload_out⟩

/-- The third miscompare within a second: the Pier is DEGRADED and nothing waits for the PMBus. -/
theorem lockstep_degrades (s : State) (hu : s.pier.up = true) (hd : s.pier.degraded = false)
    (h : 2 ≤ (s.pier.misc.filter fun x => decide (s.now < x + 1000000000)).length) :
    ∃ x, exec .lockstepMiscompare s = .next x ∧ x.pier.degraded = true ∧ x.pier.pmb = [] ∧ x.pier.pmbFlight = none ∧
      x.rd Reg.pier_lockstep_state 0 = 2 ∧ x.pier.misc = s.recentMisc := by
  refine ⟨_, exec_lockstepMiscompare s, ?_⟩
  rw [miscompare_third hu hd h, State.done_pier, State.rd_done _ _ _ _ _ quiet_pier_lockstep_state]
  have hk := s.noteMiscompare.reissue.enterDegraded_kept
  exact ⟨hk.degraded, hk.pmb, hk.pmbFlight, State.rd_enterDegraded_state _, hk.misc.trans s.reload_misc⟩

/-- Settles O7: a miscompare reloads the copies, and the third within a second enters DEGRADED. -/
theorem lockstep : Obligations.Lockstep := by
  refine ⟨fun s hu hm hs => ?_, fun s a b hu hd hm ha hb => ?_, lockstep_reloads, fun s hu hd h => ?_⟩
  · obtain ⟨x, hx, hcount, hmisc, hdeg, -⟩ := lockstep_reloads s hu (.inr (by simp [hm])) hs
    exact ⟨x, hx, hcount, by simpa [State.recentMisc, hm] using hmisc, hdeg⟩
  · have hf : (s.pier.misc.filter fun x => decide (s.now < x + 1000000000)) = [a, b] := by simp [hm, ha, hb]
    obtain ⟨x, hx, hdeg, hpmb, hflight, hstate, hmisc⟩ := lockstep_degrades s hu hd (by simp [hf])
    exact ⟨x, hx, hdeg, hpmb, hflight, hstate, by rw [hmisc, State.recentMisc, hf]; rfl⟩
  · obtain ⟨x, hx, hdeg, -, -, hstate, hmisc⟩ := lockstep_degrades s hu hd h
    exact ⟨x, hx, hdeg, hstate, hmisc⟩

end Sys2Proof.Machine

namespace Sys2Proof.Machine

/-! ### Roles (R485) -/

theorem exec_roleAssign (t : TileId) (s : State) : exec (.roleAssign t) s = .next (s.done (roleAssign t s)) := rfl
theorem exec_preferredTimeout (b : BayId) (s : State) : exec (.preferredTimeout b) s = .next (s.done (preferredTimeout b s)) := rfl
theorem exec_heartbeat (t : TileId) (s : State) : exec (.heartbeat t) s = .next (s.done (heartbeat t s)) := rfl
theorem exec_heartbeatLoss (t : TileId) (s : State) : exec (.heartbeatLoss t) s = .next (s.done (heartbeatLoss t s)) := rfl
theorem exec_promotion (b : BayId) (ok : Bool) (s : State) : exec (.promotion b ok) s = .next (s.done (promotion b ok s)) := rfl
theorem exec_bayPromote (b : BayId) (force : Nat) (s : State) : exec (.bayPromote b force) s = .next (s.done (bayPromote b force s)) := rfl
theorem exec_clearFault (b : BayId) (odd : Nat) (s : State) : exec (.clearFault b odd) s = .next (s.done (clearFault b odd s)) := rfl

theorem State.serves_of_role_zero {s : State} {t : TileId} (h : s.role t = 0) : s.serves t = true := by simp [State.serves, h]
theorem State.serves_of_role_five {s : State} {t : TileId} (h : s.role t = 5) : s.serves t = true := by simp [State.serves, h]

/-- A tile gets a role outside DEGRADED only. -/
theorem State.not_degraded_of_readyForRole {s : State} {t : TileId} (h : s.readyForRole t = true) : s.pier.degraded = false := by
  simp only [State.readyForRole, Bool.and_eq_true, Bool.not_eq_true'] at h
  obtain ⟨⟨-, hd⟩, -⟩ := h
  exact hd

/-- What ROLE_ASSIGN does with a tile that is ready for a role. -/
theorem roleAssign_of_ready {s : State} {t : TileId} (h : s.readyForRole t = true) :
    roleAssign t s = if s.independent t then s.beginServing t 5
      else if s.role (mate t) = 0 then s.beginStandby t
      else if (s.bay (bayOf t)).promo.isSome then s
      else if s.ownSettled (bayOf t) = true ∧ (s.preferred (bayOf t) = t ∨ s.role (mate t) = 4) then s.beginServing t 0
      else s := by
  unfold roleAssign
  simp only [State.not_degraded_of_readyForRole h, h, Bool.false_eq_true, false_and, if_false, Bool.not_true]

/-- A ready tile of a redundant bay without an active one serves, when it is the preferred one or the other is FAULTED. -/
theorem roleAssign_serves {s : State} {t : TileId} (h : s.readyForRole t = true) (hi : s.independent t = false) (hm : s.role (mate t) ≠ 0)
    (hp : (s.bay (bayOf t)).promo = none) (ho : s.ownSettled (bayOf t) = true) (hc : s.preferred (bayOf t) = t ∨ s.role (mate t) = 4) :
    roleAssign t s = s.beginServing t 0 := by
  rw [roleAssign_of_ready h, hi, if_neg Bool.false_ne_true, if_neg hm, hp, if_neg (by simp), if_pos ⟨ho, hc⟩]

/-- In DEGRADED a tile that was reset takes up serving again in the role that it kept (R22). -/
theorem roleAssign_degraded {s : State} {t : TileId} (hd : s.pier.degraded = true) (hv : s.serves t = true) (hr : s.inRun t = true)
    (hl : s.rd Reg.status_service t = 3) (hi : s.issuing t = none) : roleAssign t s = s.startServing t 4 := by
  unfold roleAssign
  dsimp only
  rw [if_pos ⟨hd, hv, hr, hl, by rw [hi]; rfl⟩]

theorem preferredTimeout_serves {s : State} {b : BayId} (hn : s.pier.upSince + 10000000000 ≤ s.now) (ha : s.activeOf b = none)
    (hp : (s.bay b).promo = none) (hi : s.independent (s.preferred b) = false) (hr : s.readyForRole (s.preferred b) = false)
    (hm : s.readyForRole (mate (s.preferred b)) = true) (ho : s.ownSettled b = true) :
    preferredTimeout b s = s.beginServing (mate (s.preferred b)) 0 := by
  unfold preferredTimeout
  dsimp only
  rw [if_neg (by simp [ha, hp, hi, hr, hm, ho, hn])]

/-! ### Heartbeats (R487, R505) -/

/-- What the noting of a stream's mark changes in a tile alone, it leaves. -/
theorem State.noteMark_keeps {β : Type} (g : State → β) (h : ∀ x u f, g (State.onTile x u f) = g x) (s : State) (t : TileId) : g (s.noteMark t) = g s := by
  unfold State.noteMark
  split
  · rfl
  · dsimp only
    rw [h, h]

/-- The instant of the tile's last heartbeat. -/
def State.beatAt (s : State) (t : TileId) : Nat := if t.val % 2 = 0 then (s.bay (bayOf t)).lastBeat.1 else (s.bay (bayOf t)).lastBeat.2

/-- A heartbeat of the tile counts as heard now. -/
def State.beatNow (s : State) (t : TileId) : State :=
  s.onBay (bayOf t) fun x => { x with lastBeat := if t.val % 2 = 0 then (s.now, x.lastBeat.2) else (x.lastBeat.1, s.now) }

theorem State.beatAt_beatNow (s : State) (t : TileId) : (s.beatNow t).beatAt t = s.now := by
  unfold State.beatAt State.beatNow
  rw [State.bay_onBay_self]
  split <;> rfl

theorem State.beatNow_role (s : State) (t u : TileId) : (s.beatNow t).role u = s.role u := by
  have hb : ((s.beatNow t).bay (bayOf u)).roleE = (s.bay (bayOf u)).roleE ∧ ((s.beatNow t).bay (bayOf u)).roleO = (s.bay (bayOf u)).roleO := by
    unfold State.beatNow
    by_cases h : bayOf u = bayOf t
    · rw [h, State.bay_onBay_self]
      exact ⟨rfl, rfl⟩
    · rw [State.bay_onBay_ne _ _ _ _ h]
      exact ⟨rfl, rfl⟩
  unfold State.role
  rw [hb.1, hb.2]

theorem State.beatNow_tie (s : State) (t : TileId) : ((s.beatNow t).bay (bayOf t)).tie = (s.bay (bayOf t)).tie := by
  unfold State.beatNow
  rw [State.bay_onBay_self]

/-- A heartbeat of an independent tile is noted, and no more. -/
theorem heartbeat_independent {s : State} {t : TileId} (h : s.role t = 5) (hr : s.inRun t = true) (hb : 2 ≤ (s.vol t).boot.step) :
    heartbeat t s = (s.beatNow t).noteMark t := by
  have hrole : ((s.beatNow t).noteMark t).role t = 5 :=
    (State.noteMark_keeps (fun x => x.role t) (fun _ _ _ => rfl) _ _).trans ((s.beatNow_role t t).trans h)
  unfold heartbeat
  rw [if_neg (by simp [State.serves_of_role_five h, hr]; omega)]
  exact if_neg fun hc => by
    have := hrole.symm.trans hc.1
    omega

/-- The loss of a heartbeat is counted and the wait begins anew: an independent tile is FAULTED, and an active one that owes no report for a
tie-break triggers a promotion. -/
theorem heartbeatLoss_of_late {s : State} {t : TileId} (hv : s.serves t = true) (hl : s.beatAt t + 30000000 ≤ s.now) (hd : s.pier.degraded = false)
    (ht : s.role t = 5 ∨ (s.bay (bayOf t)).tie = none) :
    heartbeatLoss t s = if s.role t = 5 then ((s.bump Reg.bay_heartbeat_losses (bayOf t)).beatNow t).faultTile t 0
      else ((s.bump Reg.bay_heartbeat_losses (bayOf t)).beatNow t).trigger (bayOf t) 0 := by
  have hrole : ((s.bump Reg.bay_heartbeat_losses (bayOf t)).beatNow t).role t = s.role t := State.beatNow_role _ t t
  have htie : (((s.bump Reg.bay_heartbeat_losses (bayOf t)).beatNow t).bay (bayOf t)).tie = (s.bay (bayOf t)).tie := State.beatNow_tie _ t
  have hlate : ¬((!s.serves t) = true ∨ s.now < s.beatAt t + 30000000 ∨ s.pier.degraded = true) := by
    rw [hv, hd]
    simp only [Bool.not_true, Bool.false_eq_true, false_or, or_false]
    omega
  unfold heartbeatLoss
  refine (if_neg hlate).trans ?_
  by_cases h5 : s.role t = 5
  · rw [if_pos h5]
    exact if_pos (hrole.trans h5)
  · rw [if_neg h5]
    refine (if_neg (hrole.symm ▸ h5)).trans ?_
    split
    case h_1 y hy => exact absurd (hy.symm.trans (htie.trans (ht.resolve_left h5))) (Option.some_ne_none y)
    case h_2 => rfl

/-! ### Promotion and hand-over (R506, R509) -/

theorem promotion_of_promo {s : State} {b : BayId} {p : Promo} {ok : Bool} (hd : s.pier.degraded = false) (hp : (s.bay b).promo = some p) :
    promotion b ok s = s.promotionStep b p ok := by
  unfold promotion
  rw [hd, hp]
  rfl

/-- A hand-over whose last item has been reported begins its promotion. -/
theorem promotion_of_handover {s : State} {b : BayId} {a d : TileId} {ok : Bool} (hd : s.pier.degraded = false) (hp : (s.bay b).promo = none)
    (hh : (s.bay b).handover = true) (ha : s.activeOf b = some a) (hs : s.promotable b = some d) (hi : (s.closeHandover a).intakeDone a = true)
    (hm : ((s.closeHandover a).bay b).placed ≤ ((s.closeHandover a).bay b).reported) :
    promotion b ok s = (s.closeHandover a).beginPromotion b 4 a d := by
  unfold promotion
  rw [hd, hp, hh, ha, hs]
  simp only [Bool.not_true, Bool.false_eq_true, if_false]
  rw [if_pos ⟨hi, hm⟩]

theorem bayPromote_ordered {s : State} {b : BayId} {a d : TileId} {force : Nat} (hb : s.bayBusy b = false) (ha : s.activeOf b = some a)
    (hs : s.promotable b = some d) (hm : (s.bay b).modeNow = 0) (hf : bit (s.rd Reg.bay_alarm b) 4 = false ∨ force = 1) :
    bayPromote b force s = (((s.closeHandover a).onBay b fun x => { x with handover := true }).followTile a).bayResult b .ok := by
  unfold bayPromote
  rw [hb, ha, hs]
  simp only [Bool.false_eq_true, if_false]
  rw [if_neg]
  rintro (h1 | ⟨h4, hne⟩)
  · omega
  · exact hf.elim (fun h => absurd (h.symm.trans h4) (by decide)) hne

/-- A FAULTED tile in RUN is reset and waits for a role. -/
theorem clearFault_of_run {s : State} {b : BayId} {odd : Nat} {t : TileId} (ho : odd ≤ 1) (ht : t = tileOf b (decide (odd = 1))) (hr : s.role t = 4)
    (hd : s.pier.degraded = false) (hp : (s.tile t).power.st = .run) :
    clearFault b odd s = ((((s.tileReset t 6).setRole t 255).linkUpdate b).wr Reg.device_fw_tile_phase 0 1 t).bayResult b .ok := by
  subst ht
  unfold clearFault
  dsimp only
  rw [if_neg (by omega), if_neg (by simp [hr, hd]), hp]
  rfl

/-- Settles O47: what each command of the family does, where its conditions hold. -/
theorem bayRoles : Obligations.BayRoles := by
  refine ⟨fun s t h hi => ?_, fun s t h hi hm => ?_, fun s t h hi hm hp ho hf => ?_, fun s b hn ha hp hi hr hm ho => ?_, fun s t h hr hb => ?_,
    fun s t h hl hd ht => ?_, fun s b p ok hd hp => ?_, fun s b a d ok hd hp hh ha hs hi hm => ?_, fun s b a d force hb ha hs hm hf => ?_,
    fun s b hr hd hp => ?_, fun s t hd hv hr hl hi => ?_, fun s t h hi hm hp ho => ?_, fun s b odd ho hr hd hp => ?_, fun s t h hl hd => ?_⟩
  · rw [exec_roleAssign, roleAssign_of_ready h, if_pos hi]
  · rw [exec_roleAssign, roleAssign_of_ready h, hi, if_neg Bool.false_ne_true, if_pos hm]
  · rw [exec_roleAssign, roleAssign_serves h hi hm hp ho (.inl hf)]
  · rw [exec_preferredTimeout, preferredTimeout_serves hn ha hp hi hr hm ho]
  · refine ⟨_, exec_heartbeat t s, ?_⟩
    rw [heartbeat_independent h hr hb, State.done_out, State.done_bay]
    exact ⟨State.noteMark_keeps State.out (fun _ _ _ => rfl) _ _, State.done_regs s _ (State.noteMark_keeps State.regs (fun _ _ _ => rfl) _ _),
      (State.noteMark_keeps (fun x => x.beatAt t) (fun _ _ _ => rfl) _ _).trans (s.beatAt_beatNow t)⟩
  · rw [exec_heartbeatLoss, heartbeatLoss_of_late (State.serves_of_role_zero h) hl hd (.inr ht), if_neg (by omega)]
    rfl
  · rw [exec_promotion, promotion_of_promo hd hp]
  · rw [exec_promotion, promotion_of_handover hd hp hh ha hs hi hm]
  · rw [exec_bayPromote, bayPromote_ordered hb ha hs hm hf]
  · rw [exec_clearFault, clearFault_of_run (Nat.le_refl 1) rfl hr hd hp]
    rfl
  · rw [exec_roleAssign, roleAssign_degraded hd hv hr hl hi]
  · rw [exec_roleAssign, roleAssign_serves h hi (by omega) hp ho (.inr hm)]
  · rw [exec_clearFault, clearFault_of_run ho rfl hr hd hp]
  · rw [exec_heartbeatLoss, heartbeatLoss_of_late (State.serves_of_role_five h) hl hd (.inl h), if_pos h]
    rfl

end Sys2Proof.Machine

namespace Sys2Proof.Machine

/-! ### What leaves the meters of a tile

Many operations of the other units change a tile without touching its meter population, the bay's mode or what was put out. -/

/-- The meters of tile `t` and what was put out are the same in two states. -/
structure MetersKept (t : TileId) (s x : State) : Prop where
  meters : (x.vol t).meters = (s.vol t).meters
  mode : (x.bay (bayOf t)).modeNow = (s.bay (bayOf t)).modeNow
  out : x.out = s.out

namespace MetersKept
variable {t : TileId} {s x : State}

theorem refl (t : TileId) (s : State) : MetersKept t s s := ⟨rfl, rfl, rfl⟩

theorem meter (h : MetersKept t s x) (k : Nat) : x.meter t k = s.meter t k :=
  State.meter_congr t k (congrArg Meters.recs h.meters) h.mode

theorem onVol (h : MetersKept t s x) (f : Vol → Vol) (hf : ∀ v, (f v).meters = v.meters := by intro v; rfl) : MetersKept t s (x.onVol t f) :=
  ⟨by simp [hf, h.meters], h.mode, h.out⟩

theorem onEph (h : MetersKept t s x) (f : Eph → Eph) : MetersKept t s (x.onEph t f) := h.onVol fun v => { v with eph := f v.eph }

theorem mirror (h : MetersKept t s x) (i : MItem) (n : Nat) : MetersKept t s (x.mirror t i n) :=
  ⟨by simp [h.meters], by simp [h.mode], by simp [h.out]⟩

theorem mirrorRec (h : MetersKept t s x) (k : Nat) : MetersKept t s (x.mirrorRec t k) := h.mirror _ _

theorem mirrorFields (h : MetersKept t s x) (k : Nat) (o n : MeterRec) : MetersKept t s (x.mirrorFields t k o n) := h.mirror _ _

theorem event (h : MetersKept t s x) (sev code obj a b : Nat) : MetersKept t s (x.event t sev code obj a b) :=
  ⟨by simp [h.meters], by simp [h.mode], by simp [h.out]⟩

theorem wrM (h : MetersKept t s x) (e : Entry) (v i : Nat) : MetersKept t s (x.wrM e t v i) :=
  ⟨by simp [h.meters], by simp [h.mode], by simp [h.out]⟩

theorem starve (h : MetersKept t s x) : MetersKept t s (x.starve t) := by
  unfold State.starve
  split
  · exact h.onVol _
  · exact h

theorem swForget (h : MetersKept t s x) (m title : Nat) : MetersKept t s (x.swForget t m title) :=
  ((h.onVol _).onVol _).starve

theorem rfForget (h : MetersKept t s x) (k : Nat) : MetersKept t s (x.rfForget t k) := h.onVol _

theorem ephForget (h : MetersKept t s x) (k : Nat) : MetersKept t s (x.ephForget t k) := h.onVol _

theorem pushSettle (h : MetersKept t s x) : MetersKept t s (x.pushSettle t) := by
  unfold State.pushSettle
  split
  · exact h.wrM _ _ _
  · exact h

theorem leaveUnits (h : MetersKept t s x) (k : Nat) : MetersKept t s (x.leaveUnits t k) :=
  (((h.swForget _ _).rfForget _).ephForget _).pushSettle

theorem auditPlan (h : MetersKept t s x) (k : Nat) : MetersKept t s (x.auditPlan t k) := by
  unfold State.auditPlan
  dsimp only
  split
  · exact h.onEph _
  · exact h

end MetersKept
end Sys2Proof.Machine

namespace Sys2Proof.Machine

/-! ### A commanded action on meter records (R60) -/

/-- The state in which an action runs. -/
def State.under (s : State) (a : Act) : State := { s with acts := { s.acts with now := a } }

/-- The action that a command of chapter 2 starts: it consumes the staging block. -/
def stagedAct (t : TileId) : Act := { frees := [Reg.meters_staging.key t 0] }

/-- The effect of a command that starts the action `op`. -/
def commandAction (op : MeterOp) (t : TileId) (s : State) : State := consuming t [Reg.meters_staging] (meterAction op t) s

theorem exec_metersEnrol (t : TileId) (s : State) : exec (.metersEnrol t) s = .next (s.done (commandAction .enrol t s)) := rfl
theorem exec_metersEdit (t : TileId) (s : State) : exec (.metersEdit t) s = .next (s.done (commandAction .edit t s)) := rfl
theorem exec_metersMoveOut (t : TileId) (s : State) : exec (.metersMoveOut t) s = .next (s.done (commandAction .moveOut t s)) := rfl
theorem exec_metersRetire (t : TileId) (s : State) : exec (.metersRetire t) s = .next (s.done (commandAction .retire t s)) := rfl
theorem exec_metersRelease (t : TileId) (s : State) : exec (.metersRelease t) s = .next (s.done (commandAction .release t s)) := rfl

@[simp] theorem State.acting_vol (s : State) (a : Act) (f : State → State) (u : TileId) : (s.acting a f).vol u = (f (s.under a)).vol u := rfl
@[simp] theorem State.acting_meter (s : State) (a : Act) (f : State → State) (u : TileId) (k : Nat) : (s.acting a f).meter u k = (f (s.under a)).meter u k := rfl
@[simp] theorem State.acting_out (s : State) (a : Act) (f : State → State) : (s.acting a f).out = (f (s.under a)).out := rfl

/-- Whether a meter's identities fit (R57) does not depend on the action that runs. -/
theorem State.hashEnter_under (s : State) (a : Act) (t : TileId) (m : Nat) (ids : List (Nat × Nat)) :
    ((s.under a).hashEnter t m ids).2 = (s.hashEnter t m ids).2 := by
  unfold State.hashEnter
  dsimp only
  split <;> split <;> simp_all [State.under, State.vol, State.tile]

theorem State.hashRemove_under (s : State) (a : Act) (t : TileId) (m : Nat) : (s.under a).hashRemove t m = (s.hashRemove t m).under a := rfl

/-- With no action running, the commanded one runs at once. -/
theorem commandAction_idle {s : State} {t : TileId} (h : s.actionRuns t = false) (op : MeterOp) :
    commandAction op t s = s.acting (stagedAct t) (op.run t (s.staging t)) := by
  have hu : (s.under (stagedAct t)).actionRuns t = false := h
  have e : meterAction op t (s.under (stagedAct t)) = op.run t (s.staging t) (s.under (stagedAct t)) := by
    unfold meterAction
    rw [hu]
    rfl
  exact congrArg (fun r : State => { r with acts := { r.acts with now := s.acts.now } }) e

/-- While an action runs, the commanded one waits. -/
theorem commandAction_waits {s : State} {t : TileId} (h : s.actionRuns t = true) (op : MeterOp) :
    commandAction op t s = s.acting (stagedAct t) fun y => y.onMeters t fun m => { m with waits := m.waits ++ [(op, s.staging t, stagedAct t)] } := by
  have hu : (s.under (stagedAct t)).actionRuns t = true := h
  have e : meterAction op t (s.under (stagedAct t)) =
      (s.under (stagedAct t)).onMeters t fun m => { m with waits := m.waits ++ [(op, s.staging t, stagedAct t)] } := by
    unfold meterAction
    rw [hu]
    rfl
  exact congrArg (fun r : State => { r with acts := { r.acts with now := s.acts.now } }) e

/-- What a command that finds an action running changes. -/
theorem commandAction_waits_effect {s : State} {t : TileId} (h : s.actionRuns t = true) (op : MeterOp) :
    ((s.done (commandAction op t s)).vol t).meters.waits = (s.vol t).meters.waits ++ [(op, s.staging t, { frees := [Reg.meters_staging.key t 0] })] ∧
      ((s.done (commandAction op t s)).vol t).meters.recs = (s.vol t).meters.recs ∧ (s.done (commandAction op t s)).regs = s.regs ∧
      (s.done (commandAction op t s)).out = s.out := by
  rw [commandAction_waits h]
  refine ⟨?_, ?_, State.done_regs _ _ rfl, by rw [State.done_out]; rfl⟩ <;>
    rw [State.done_vol, State.acting_vol, State.meters_onMeters] <;> rfl

/-! ### Which meter an action is for -/

theorem midxSlot_lt (m : Nat) : midxSlot m < 2 ^ 18 := Nat.mod_lt _ (by decide)

/-- An action on a slot in one of the states it is for, with room in the journal ring, is not refused (R690). -/
theorem slotAction_none {s : State} {t : TileId} {b : Bytes} {states : List Nat} (hv : s.serves t = true) (hm : s.ownMidx t (fld b 0x100 4) = true)
    (hs : (s.meter t (midxSlot (fld b 0x100 4))).state ∈ states) (hj : (s.tile t).media.journalFull = false) : slotAction s t b false states = none := by
  unfold slotAction
  simp [hv, hm, hs, hj]

/-! ### What each accepted action does -/

/-- Of state `z`, state `x` has the records, the hash table, the ceilings and what was put out; behind what waits there for its acknowledgement it orders one
for slot `k`. -/
structure AckOrdered (t : TileId) (k : Nat) (drain keys : Bool) (z x : State) : Prop where
  meter : ∀ j, x.meter t j = z.meter t j
  hash : (x.vol t).meters.hash = (z.vol t).meters.hash
  ceils : (x.vol t).meters.ceils = (z.vol t).meters.ceils
  out : x.out = z.out
  pend : ∃ p : PendAct, (x.vol t).meters.pend = (z.vol t).meters.pend ++ [p] ∧ (p.slot, p.drain, p.keys) = (k, drain, keys)

theorem MetersKept.ackLater {t : TileId} {z y : State} (h : MetersKept t z y) (k : Nat) (drain keys : Bool) :
    AckOrdered t k drain keys z (y.ackLater t k drain keys) where
  meter j := by rw [State.meter_ackLater, h.meter]
  hash := by rw [State.hash_ackLater, h.meters]
  ceils := by rw [State.ceils_ackLater, h.meters]
  out := by rw [State.out_ackLater, h.out]
  pend := ⟨_, by rw [← h.meters, State.ackLater, State.meters_onMeters], rfl⟩

namespace AckOrdered
variable {t : TileId} {k : Nat} {drain keys : Bool} {z x : State}

theorem pend_length (h : AckOrdered t k drain keys z x) : (x.vol t).meters.pend.length = (z.vol t).meters.pend.length + 1 := by
  obtain ⟨p, hp, -⟩ := h.pend
  rw [hp, List.length_append]
  rfl

theorem pend_last (h : AckOrdered t k drain keys z x) : (x.vol t).meters.pend.getLast?.map (fun p => (p.slot, p.drain, p.keys)) = some (k, drain, keys) := by
  obtain ⟨p, hp, he⟩ := h.pend
  rw [hp, List.getLast?_append, ← he]
  rfl

/-- What an action run at once has ordered stands after the whole command. -/
theorem after_command {s : State} {op : MeterOp} (hr : s.actionRuns t = false)
    (h : AckOrdered t k drain keys z (op.run t (s.staging t) (s.under (stagedAct t)))) : AckOrdered t k drain keys z (s.done (commandAction op t s)) := by
  rw [commandAction_idle hr]
  exact ⟨fun j => by rw [State.meter_done, State.acting_meter, h.meter], by rw [State.done_vol, State.acting_vol, h.hash],
    by rw [State.done_vol, State.acting_vol, h.ceils], by rw [State.done_out, State.acting_out, h.out],
    by rw [State.done_vol, State.acting_vol]; exact h.pend⟩

end AckOrdered

/-- The record of an action is stored with its UPD_CNT raised (R45). -/
def MeterRec.counted (r : MeterRec) : MeterRec := { r with updCnt := (r.updCnt + 1) % 2 ^ 32 }

@[simp] theorem MeterRec.counted_state (r : MeterRec) : r.counted.state = r.state := rfl
@[simp] theorem MeterRec.counted_midxGen (r : MeterRec) : r.counted.midxGen = r.midxGen := rfl
@[simp] theorem MeterRec.counted_shortAddr (r : MeterRec) : r.counted.shortAddr = r.shortAddr := rfl

/-- A reservation changes neither what is to be acknowledged nor what was put out. -/
@[simp] theorem State.pend_reserveIc (s : State) (t : TileId) (k : Nat) : ((s.reserveIc t k).vol t).meters.pend = (s.vol t).meters.pend := by
  unfold State.reserveIc State.setCeil
  dsimp only
  split <;> simp

@[simp] theorem State.out_reserveIc (s : State) (t : TileId) (k : Nat) : (s.reserveIc t k).out = s.out := by
  unfold State.reserveIc State.setCeil
  dsimp only
  split <;> simp

/-- Nor does entering identities, whether they fit or not. -/
@[simp] theorem State.pend_hashEnter (s : State) (t : TileId) (m : Nat) (ids : List (Nat × Nat)) :
    ((s.hashEnter t m ids).1.vol t).meters.pend = (s.vol t).meters.pend := by
  unfold State.hashEnter
  dsimp only
  split <;> simp

@[simp] theorem State.out_hashEnter (s : State) (t : TileId) (m : Nat) (ids : List (Nat × Nat)) : (s.hashEnter t m ids).1.out = s.out := by
  unfold State.hashEnter
  dsimp only
  split <;> rfl

/-- An accepted enrolment: the record's update count is raised by its own step and by that of the first reservation (R62, R69). -/
theorem runEnrol_accepted {s : State} {t : TileId} {b : Bytes} {m k mode : Nat} {r : MeterRec} (hm : m = fld b 0x100 4) (hk : k = midxSlot m)
    (hmode : mode = fld b 0x104 1) (hr : r = enrolRecord s t (MeterRec.parse b) (s.meter t k) mode) (hv : s.serves t = true) (hle : mode ≤ 1)
    (hz : leNat (b.drop 0x105) = 0) (ho : s.ownMidx t m = true) (hs : (s.meter t k).state = 0)
    (hi : imageCheck s t (MeterRec.parse b) mode (2 ^ 22) = none) (hj : (s.tile t).media.journalFull = false) (hh : (s.hashEnter t m r.ids).2 = true) :
    ∃ z, AckOrdered t k false false z (runEnrol t b s) ∧ z.meter t k = r.counted.counted ∧ (z.vol t).meters.pend = (s.vol t).meters.pend ∧ z.out = s.out := by
  subst hr hmode hk hm
  unfold runEnrol
  dsimp only
  rw [hv, hi, hj, hh, hz, ho, hs]
  simp only [Bool.not_true, Bool.false_eq_true, if_false, ne_eq, not_true_eq_false, or_false]
  rw [if_neg (by omega)]
  refine ⟨_, (((MetersKept.refl t _).mirrorRec _).auditPlan _).ackLater _ _ _, ?_, ?_, ?_⟩
  · rw [State.meter_reserveIc _ _ _ (midxSlot_lt _), State.meter_journalMeter]
    rfl
  · simp
  · simp

/-- An accepted edit. -/
theorem runEdit_accepted {s : State} {t : TileId} {b : Bytes} {m k : Nat} {r : MeterRec} (hm : m = fld b 0x100 4) (hk : k = midxSlot m)
    (hr : r = editRecord s t (MeterRec.parse b) (s.meter t k)) (ha : slotAction s t b true [1] = none) (hi : imageCheck s t (MeterRec.parse b) 0 m = none)
    (hh : ((s.hashRemove t m).hashEnter t m r.ids).2 = true) :
    AckOrdered t k false false (((s.hashRemove t m).hashEnter t m r.ids).1.journalMeter t k r .edit) (runEdit t b s) := by
  subst hr hk hm
  unfold runEdit
  dsimp only
  rw [ha]
  dsimp only
  rw [hi]
  dsimp only
  rw [hh, Bool.not_true, if_neg Bool.false_ne_true]
  refine (MetersKept.auditPlan ?_ _).ackLater _ _ _
  split
  · exact (MetersKept.refl t _).mirrorFields _ _ _
  · exact ((MetersKept.refl t _).mirrorFields _ _ _).event _ _ _ _ _

/-- An accepted move-out. -/
theorem runMoveOut_accepted {s : State} {t : TileId} {b : Bytes} {m k : Nat} (hm : m = fld b 0x100 4) (hk : k = midxSlot m)
    (ha : slotAction s t b false [1] = none) (hc : (s.meter t k).creditHeld = 0) (hr : (s.meter t k).relayCmd = (s.meter t k).relayRpt) :
    AckOrdered t k true false
      ((s.hashRemove t m).journalMeter t k { (s.meter t k).leaveCampaign with state := 2, icDown := s.ceil t k } .moveOut) (runMoveOut t b s) := by
  subst hk hm
  unfold runMoveOut
  dsimp only
  rw [ha]
  dsimp only
  rw [if_neg (by simp [hc, hr])]
  exact (((MetersKept.refl t _).mirrorRec _).leaveUnits _).ackLater _ _ _

/-- An accepted retirement. -/
theorem runRetire_accepted {s : State} {t : TileId} {b : Bytes} {m k : Nat} (hm : m = fld b 0x100 4) (hk : k = midxSlot m)
    (ha : slotAction s t b false [1, 2] = none) :
    AckOrdered t k true true
      (((s.hashRemove t m).onMeters t fun m => { m with damaged := m.damaged.filter (· != k), restoring := m.restoring.filter (· != k) }).journalMeter t k
        { (s.meter t k).leaveCampaign with state := 3, checkGood := true } .retire) (runRetire t b s) := by
  subst hk hm
  unfold runRetire
  dsimp only
  rw [ha]
  exact ((((MetersKept.refl t _).mirrorRec _).event _ _ _ _ _).leaveUnits _).ackLater _ _ _

/-- An accepted release. -/
theorem runRelease_accepted {s : State} {t : TileId} {b : Bytes} {m k : Nat} (hm : m = fld b 0x100 4) (hk : k = midxSlot m)
    (ha : slotAction s t b false [2, 3] = none) :
    AckOrdered t k false true ((s.leaveUnits t k).freeMeter t k (s.meter t k).midxGen) (runRelease t b s) := by
  subst hk hm
  unfold runRelease
  dsimp only
  rw [ha]
  exact ((MetersKept.refl t _).mirrorRec _).ackLater _ _ _

/-! ### The records that actions write (R44, R62, R690) -/

theorem editRecord_updCnt (s : State) (t : TileId) (img old : MeterRec) : (editRecord s t img old).updCnt = old.updCnt := by
  unfold editRecord
  dsimp only
  rw [apply_ite MeterRec.updCnt]
  exact ite_self _

theorem enrolRecord_state (s : State) (t : TileId) (img old : MeterRec) (mode : Nat) : (enrolRecord s t img old mode).state = 1 := by
  unfold enrolRecord
  dsimp only
  split <;> rfl

theorem enrolRecord_midxGen (s : State) (t : TileId) (img old : MeterRec) (mode : Nat) :
    (enrolRecord s t img old mode).midxGen = (old.midxGen + 2 ^ 22) % 2 ^ 32 := by
  unfold enrolRecord
  dsimp only
  split <;> rfl

theorem enrolRecord_shortAddr (s : State) (t : TileId) (img old : MeterRec) (mode : Nat) : (enrolRecord s t img old mode).shortAddr = 0xFFFF := by
  unfold enrolRecord
  dsimp only
  split <;> rfl

/-- Settles O11: an accepted action runs at once, its record stands after the command; any other waits. -/
theorem meterEnrolment : Obligations.MeterEnrolment := by
  refine ⟨fun s t midx mode hm hmode hr hv hle hz ho hs hi hj hh => ?_, fun s t midx hm hr ha hi hh => ?_,
    fun s t h => ⟨_, exec_metersEnrol t s, commandAction_waits_effect h _⟩, fun s t h => ⟨_, exec_metersEdit t s, commandAction_waits_effect h _⟩⟩
  · obtain ⟨z, ha, hz, hp, hout⟩ := runEnrol_accepted (s := s.under (stagedAct t)) (b := s.staging t) hm.symm rfl hmode.symm rfl hv hle hz ho hs hi hj
      ((s.hashEnter_under ..).trans hh)
    have hx := AckOrdered.after_command (op := .enrol) hr ha
    refine ⟨_, exec_metersEnrol t s, ?_, ?_, ?_, by rw [hx.pend_length, hp]; rfl, hx.out.trans hout⟩ <;> rw [hx.meter, hz]
    · rw [MeterRec.counted_state, MeterRec.counted_state, enrolRecord_state]
    · rw [MeterRec.counted_midxGen, MeterRec.counted_midxGen, enrolRecord_midxGen]
      rfl
    · rw [MeterRec.counted_shortAddr, MeterRec.counted_shortAddr, enrolRecord_shortAddr]
  · have hh' : (((s.under (stagedAct t)).hashRemove t midx).hashEnter t midx
        (editRecord s t (MeterRec.parse (s.staging t)) (s.meter t (midxSlot midx))).ids).2 = true := by
      rw [State.hashRemove_under, State.hashEnter_under, hh]
    have hrun := runEdit_accepted (s := s.under (stagedAct t)) (b := s.staging t) hm.symm rfl rfl ha hi hh'
    have hx := AckOrdered.after_command (op := .edit) hr hrun
    refine ⟨_, exec_metersEdit t s, ?_, ?_, ?_⟩
    · rw [hx.meter, State.meter_journalMeter, editRecord_updCnt]
      rfl
    · rw [hx.pend_length, State.pend_journalMeter, State.pend_hashEnter, State.pend_hashRemove]
      rfl
    · rw [hx.out, State.out_journalMeter, State.out_hashEnter, State.out_hashRemove]
      rfl

/-! ### Leaving (R64 to R66) -/

/-- A release leaves a FREE record of the slot, without a ceiling, and nothing else of what the other actions order or put out. -/
@[simp] theorem State.meter_freeMeter (s : State) (t : TileId) (k gen : Nat) : (s.freeMeter t k gen).meter t k = MeterRec.free gen := by
  unfold State.freeMeter
  dsimp only
  rw [State.meter_journal, State.meter_setMeter_self]

@[simp] theorem State.pend_freeMeter (s : State) (t : TileId) (k gen : Nat) : ((s.freeMeter t k gen).vol t).meters.pend = (s.vol t).meters.pend := by
  simp [State.freeMeter]

theorem State.get_ceils_freeMeter (s : State) (t : TileId) (k gen : Nat) : Tbl.get ((s.freeMeter t k gen).vol t).meters.ceils k = none := by
  simp [State.freeMeter]

@[simp] theorem State.out_freeMeter (s : State) (t : TileId) (k gen : Nat) : (s.freeMeter t k gen).out = s.out := rfl

/-- Settles O12: an accepted action runs at once and leaves its record, and any other waits. -/
theorem meterLeaving : Obligations.MeterLeaving := by
  refine ⟨fun s t midx hm hr hv ho hs hj hc hrel => ?_, fun s t midx hm hr hv ho hs hj => ?_, fun s t midx hm hr hv ho hs hj => ?_,
    fun s t h => ⟨_, exec_metersMoveOut t s, commandAction_waits_effect h _⟩, fun s t h => ⟨_, exec_metersRetire t s, commandAction_waits_effect h _⟩,
    fun s t h => ⟨_, exec_metersRelease t s, commandAction_waits_effect h _⟩⟩ <;> subst hm
  · have ha : slotAction (s.under (stagedAct t)) t (s.staging t) false [1] = none := slotAction_none hv ho (List.mem_singleton.mpr hs) hj
    have hx := AckOrdered.after_command (op := .moveOut) hr (runMoveOut_accepted (s := s.under (stagedAct t)) rfl rfl ha hc hrel)
    refine ⟨_, exec_metersMoveOut t s, ?_, ?_, ?_, ?_⟩
    · rw [hx.meter, State.meter_journalMeter]
    · rw [hx.hash, State.hash_journalMeter]
      exact State.hash_hashRemove _ _ _
    · rw [hx.pend_length, State.pend_journalMeter, State.pend_hashRemove]
      rfl
    · rw [hx.out]
      rfl
  · have ha : slotAction (s.under (stagedAct t)) t (s.staging t) false [1, 2] = none := slotAction_none hv ho (List.mem_pair.mpr hs) hj
    have hx := AckOrdered.after_command (op := .retire) hr (runRetire_accepted (s := s.under (stagedAct t)) rfl rfl ha)
    refine ⟨_, exec_metersRetire t s, ?_, hx.pend_last, ?_, ?_, ?_⟩
    · rw [hx.meter, State.meter_journalMeter]
    · rw [hx.hash, State.hash_journalMeter, State.meters_onMeters]
      exact State.hash_hashRemove _ _ _
    · rw [hx.pend_length, State.pend_journalMeter, State.meters_onMeters, State.pend_hashRemove]
      rfl
    · rw [hx.out]
      rfl
  · have ha : slotAction (s.under (stagedAct t)) t (s.staging t) false [2, 3] = none := slotAction_none hv ho (List.mem_pair.mpr hs) hj
    have hx := AckOrdered.after_command (op := .release) hr (runRelease_accepted (s := s.under (stagedAct t)) rfl rfl ha)
    have hl := (MetersKept.refl t (s.under (stagedAct t))).leaveUnits (midxSlot (fld (s.staging t) 0x100 4))
    refine ⟨_, exec_metersRelease t s, ?_, ?_, ?_, ?_⟩
    · rw [hx.meter, State.meter_freeMeter]
      rfl
    · rw [hx.ceils]
      exact State.get_ceils_freeMeter ..
    · rw [hx.pend_length, State.pend_freeMeter, hl.meters]
      rfl
    · rw [hx.out, State.out_freeMeter, hl.out]
      rfl

end Sys2Proof.Machine

namespace Sys2Proof.Machine

/-! ### The class table (R51, R689) -/

/-- One key of the table of values after a whole command, but for the count of writes to the Pier store. -/
theorem State.get_regs_done (s x : State) {k : Nat} (h : k ≠ Reg.device_config_writes.key 0 0) : Tbl.get (s.done x).regs k = Tbl.get x.regs k := by
  refine (?_ : Tbl.get (persist s { x with pending := s.pending, now := s.now }).regs k = _)
  unfold persist
  split
  · rfl
  · dsimp only
    rw [State.each_keeps (fun y => Tbl.get y.regs k) _ _ _ fun y t => queueValues_keeps (fun y => Tbl.get y.regs k) (fun _ _ _ => rfl) y t _]
    split
    · unfold countStore
      dsimp only
      split
      · rfl
      · exact State.get_wr_ne _ _ _ _ _ _ h
    · rfl

/-- Bytes of a quiet entry are read after a command as its effect left them. -/
theorem State.rdB_done (s x : State) (d : Entry) (m a l j : Nat) (h : d.quiet j = true) : (s.done x).rdB d m a l j = x.rdB d m a l j :=
  State.rdB_congr _ _ _ _ _ (State.get_regs_done _ _ (Entry.quiet_writes _ _ _ h))

theorem State.wrBM_acts (s : State) (e : Entry) (t : TileId) (a : Nat) (b : Bytes) (i : Nat) : (s.wrBM e t a b i).acts = s.acts :=
  State.mirror_keeps State.acts t (fun _ _ _ _ => rfl) _ _ _

theorem quiet_meters_class_table : Reg.meters_class_table.quiet 0 = true := by decide
theorem quiet_meters_record_errors : Reg.meters_record_errors.quiet 0 = true := by decide
theorem quiet_meters_last_result : Reg.meters_last_result.quiet 0 = true := by decide

theorem exec_classTableWrite (t : TileId) (off : Nat) (data : Bytes) (s : State) :
    exec (.classTableWrite t off data) s = .next (s.done ((writeClassTable t off data s).1.answer t (writeClassTable t off data s).2)) := rfl

/-- A write of the class table that passes the checks of R689. -/
theorem writeClassTable_accepted {s : State} {t : TileId} {off : Nat} {data : Bytes} (hr : s.refusesConfig t = false) (hl : off + data.length ≤ 8192)
    (hok : ∀ c < 64, templateOk ((s.wrB Reg.meters_class_table t off data).rdB Reg.meters_class_table t (128 * c) 128) = true)
    (hfix : ∀ c < 64, s.classUsed t c = true → templateFixed (s.rdB Reg.meters_class_table t (128 * c) 128) =
      templateFixed ((s.wrB Reg.meters_class_table t off data).rdB Reg.meters_class_table t (128 * c) 128)) :
    writeClassTable t off data s = (s.wrBM Reg.meters_class_table t off data, .ok) := by
  have hall : ((List.range 64).all fun c => templateOk ((s.wrB Reg.meters_class_table t off data).rdB Reg.meters_class_table t (128 * c) 128)) = true :=
    List.all_eq_true.mpr fun c hc => hok c (List.mem_range.mp hc)
  have hany : ((List.range 64).any fun c => s.classUsed t c && decide (templateFixed (s.rdB Reg.meters_class_table t (128 * c) 128) ≠
      templateFixed ((s.wrB Reg.meters_class_table t off data).rdB Reg.meters_class_table t (128 * c) 128))) = false := by
    refine List.any_eq_false.mpr fun c hc => ?_
    rw [Bool.and_eq_true, decide_eq_true_eq]
    exact fun h => h.2 (hfix c (List.mem_range.mp hc) h.1)
  unfold writeClassTable
  dsimp only
  rw [hr, if_neg Bool.false_ne_true, if_neg (by omega), hall, hany]
  rfl

/-! ### Checkpoint and journal (R68, R70) -/

theorem exec_checkpoint (t : TileId) (s : State) : exec (.checkpoint t) s = .next (s.done (checkpoint t s)) := rfl
theorem exec_journalPageProgram (t : TileId) (s : State) : exec (.journalPageProgram t) s = .next (s.done (journalPageProgram t s)) := rfl

/-- A queued page stands behind those that wait. -/
theorem State.jobs_queueJob (s : State) (t : TileId) (j : PageJob) :
    ((s.queueJob t j).tile t).media.jobs = (s.tile t).media.jobs ++ [((s.tile t).media.jobCount, j)] := by
  simp [State.queueJob]

/-- Of the meters' part copying records changes the running checkpoint alone; it changes no value and puts nothing out. -/
theorem copyRecords_effect (s : State) (t : TileId) (c : Machine.Checkpoint) (wait : List Nat) :
    (∃ r, ((copyRecords s t c wait).vol t).meters = { (s.vol t).meters with ckptRun := r }) ∧ (copyRecords s t c wait).regs = s.regs ∧
      (copyRecords s t c wait).out = s.out := by
  unfold copyRecords
  dsimp only
  split
  · exact ⟨⟨none, by rw [State.vol_queueJob, State.meters_onMeters]⟩, rfl, rfl⟩
  · exact ⟨⟨_, State.meters_onMeters ..⟩, rfl, rfl⟩

/-- With every waiting record ready the checkpoint is complete: its page is queued and none runs any more. -/
theorem copyRecords_complete {s : State} {t : TileId} {c : Machine.Checkpoint} {wait : List Nat}
    (h : ∀ i ∈ wait, (s.meter t i).billSeq = (s.meter t i).lastSeq) :
    ∃ c', copyRecords s t c wait = (s.onMeters t fun m => { m with ckptRun := none }).queueJob t (.checkpoint c') := by
  have hrest : (wait.filter fun i => !decide ((s.meter t i).billSeq = (s.meter t i).lastSeq)) = [] := by
    simpa [List.filter_eq_nil_iff] using h
  unfold copyRecords
  dsimp only
  rw [if_pos hrest]
  exact ⟨_, rfl⟩

/-- The state from which a checkpoint that starts copies the records: the next one is set, the blocks that it takes are erased. -/
def State.ckptBegun (s : State) (t : TileId) : State :=
  (s.onMeters t fun m => { m with ckptNext := s.now + s.rd Reg.meters_checkpoint_interval t * 1000000000 }).onMedia t Media.eraseCk

theorem State.ckptBegun_meters (s : State) (t : TileId) :
    ((s.ckptBegun t).vol t).meters = { (s.vol t).meters with ckptNext := s.now + s.rd Reg.meters_checkpoint_interval t * 1000000000 } := by
  unfold State.ckptBegun
  rw [State.vol_onMedia, State.meters_onMeters]

theorem State.ckptBegun_meter (s : State) (t : TileId) (k : Nat) : (s.ckptBegun t).meter t k = s.meter t k :=
  State.meter_congr _ _ (by rw [State.ckptBegun_meters]) rfl

theorem Media.reuse_jobs (m : Media) (region lb : Nat) : (m.reuse region lb).jobs = m.jobs := by
  unfold Media.reuse
  split <;> rfl

theorem Media.eraseCk_jobs (m : Media) : m.eraseCk.jobs = m.jobs := by
  unfold Media.eraseCk
  split <;> simp [Media.reuse_jobs]

theorem State.ckptBegun_jobs (s : State) (t : TileId) : ((s.ckptBegun t).tile t).media.jobs = (s.tile t).media.jobs := by
  simp [State.ckptBegun, Media.eraseCk_jobs, State.onMeters]

/-- A checkpoint that may start, when it is due or the journal ring is full, copies the records that are ready. -/
theorem checkpoint_starts {s : State} {t : TileId} (hn : (s.vol t).meters.ckptRun = none) (hm : s.mayCheckpoint t = true)
    (hd : (s.vol t).meters.ckptNext ≤ s.now ∨ (s.tile t).media.journalFull = true) :
    ∃ c, checkpoint t s = copyRecords (s.ckptBegun t) t c (Tbl.keys (s.vol t).meters.recs) := by
  unfold checkpoint
  rw [hn]
  dsimp only
  rw [if_pos ⟨hm, hd⟩]
  exact ⟨_, by rw [State.meters_onMeters]; rfl⟩

theorem checkpoint_running {s : State} {t : TileId} {c : Machine.Checkpoint} {wait : List Nat} (h : (s.vol t).meters.ckptRun = some (c, wait)) :
    checkpoint t s = copyRecords s t c wait := by
  unfold checkpoint
  rw [h]

/-- What a checkpoint that starts sets and leaves. -/
theorem checkpoint_starts_effect {s : State} {t : TileId} (hn : (s.vol t).meters.ckptRun = none) (hm : s.mayCheckpoint t = true)
    (hd : (s.vol t).meters.ckptNext ≤ s.now ∨ (s.tile t).media.journalFull = true) :
    ((checkpoint t s).vol t).meters.ckptNext = s.now + s.rd Reg.meters_checkpoint_interval t * 1000000000 ∧
      ((checkpoint t s).vol t).meters.recs = (s.vol t).meters.recs ∧ (checkpoint t s).regs = s.regs ∧ (checkpoint t s).out = s.out := by
  obtain ⟨c, hc⟩ := checkpoint_starts hn hm hd
  obtain ⟨⟨r, hr⟩, hregs, hout⟩ := copyRecords_effect (s.ckptBegun t) t c (Tbl.keys (s.vol t).meters.recs)
  rw [hc, hr, hregs, hout, State.ckptBegun_meters]
  exact ⟨rfl, rfl, rfl, rfl⟩

/-- A checkpoint that starts with every record ready is queued at once. -/
theorem checkpoint_starts_complete {s : State} {t : TileId} (hn : (s.vol t).meters.ckptRun = none) (hm : s.mayCheckpoint t = true)
    (hd : (s.vol t).meters.ckptNext ≤ s.now ∨ (s.tile t).media.journalFull = true)
    (hr : ∀ i ∈ Tbl.keys (s.vol t).meters.recs, (s.meter t i).billSeq = (s.meter t i).lastSeq) :
    ((checkpoint t s).vol t).meters.ckptRun = none ∧ ((checkpoint t s).tile t).media.jobs.length = (s.tile t).media.jobs.length + 1 := by
  obtain ⟨c, hc⟩ := checkpoint_starts hn hm hd
  obtain ⟨c', hc'⟩ := copyRecords_complete (s := s.ckptBegun t) (t := t) (c := c) (wait := Tbl.keys (s.vol t).meters.recs)
    (by simpa only [State.ckptBegun_meter] using hr)
  rw [hc, hc']
  constructor
  · rw [State.vol_queueJob, State.meters_onMeters]
  · rw [State.jobs_queueJob, List.length_append, State.onMeters, State.tile_onVol_self]
    dsimp only
    rw [State.ckptBegun_jobs]
    rfl

/-- A page of the journal that is due goes to the FTL (R70). -/
theorem journalPageProgram_due {s : State} {t : TileId} {i : Nat} (hf : (s.vol t).meters.jFirst = some i)
    (hd : 256 ≤ (s.vol t).meters.jPage.length ∨ i + 10000000 ≤ s.now) :
    journalPageProgram t s =
      (s.onMeters t fun m =>
        { m with jPage := (s.vol t).meters.jPage.drop 256
                 jFirst := if (s.vol t).meters.jPage.drop 256 = [] then none else some s.now }).queueJob t (.journal ((s.vol t).meters.jPage.take 256)) := by
  unfold journalPageProgram
  dsimp only
  rw [hf]
  dsimp only
  rw [if_pos hd]

/-! ### Acknowledgement (R63, R65) -/

theorem exec_meterActionAck (t : TileId) (s : State) : exec (.meterActionAck t) s = .next (s.done (meterActionAck t s)) := rfl

@[simp] theorem State.vol_answerFor (s : State) (a : Act) (n : Nat) (st : Status) (u : TileId) : (s.answerFor a n st).vol u = s.vol u := rfl

section
variable {s : State} {t : TileId} {p : PendAct} {r : List PendAct}

/-- The oldest action may be acknowledged: its entry is durable and placed, and readings that it waits for have left G8. -/
def State.ackDue (s : State) (t : TileId) (p : PendAct) : Prop :=
  p.jpos ≤ (s.vol t).meters.jDone ∧ s.mirrored t p.mirror = true ∧ (p.drain = true → s.idleMidx t (s.midxOf t p.slot) = true)

/-- The oldest action, once it may be, is acknowledged, and the actions behind it run. -/
theorem meterActionAck_due (hp : (s.vol t).meters.pend = p :: r) (hd : s.ackDue t p) (ht : p.topup = false) {y : State}
    (hy : y = (((if p.keys then (s.onMeters t fun m => { m with pend := r }).endKeys t p.slot else s.onMeters t fun m => { m with pend := r }).wr
      Reg.meters_last_result t 0).answerFor p.act t .ok)) :
    meterActionAck t s = y.nextActions t (y.vol t).meters.waits := by
  obtain ⟨hj, hm, hi⟩ := hd
  subst hy
  unfold meterActionAck
  rw [hp]
  dsimp only
  rw [if_pos ⟨hj, hm, by cases h : p.drain <;> simp [h, hi]⟩, ht, if_neg Bool.false_ne_true]

/-- What such an acknowledgement leaves when no key goes and no action waits. -/
theorem meterActionAck_plain (hp : (s.vol t).meters.pend = p :: r) (hd : s.ackDue t p) (ht : p.topup = false) (hk : p.keys = false)
    (hw : (s.vol t).meters.waits = []) :
    meterActionAck t s = (((s.onMeters t fun m => { m with pend := r }).wr Reg.meters_last_result t 0).answerFor p.act t .ok).onMeters t fun m =>
      { m with waits := [] } := by
  have hy : (((((s.onMeters t fun m => { m with pend := r }).wr Reg.meters_last_result t 0).answerFor p.act t .ok)).vol t).meters.waits = [] := by
    rw [State.vol_answerFor, State.vol_wr, State.meters_onMeters, hw]
  rw [meterActionAck_due hp hd ht rfl, hk, if_neg Bool.false_ne_true, hy]
  rfl

/-- The meter of a top-up is evaluated after its acknowledgement (R277). -/
theorem meterActionAck_topup (hp : (s.vol t).meters.pend = p :: r) (hd : s.ackDue t p) (ht : p.topup = true) (hv : s.serves t = true) :
    meterActionAck t s = ((s.onMeters t fun m => { m with pend := r }).acting p.act fun s => s.ephOk t).prepayEval t p.slot := by
  obtain ⟨hj, hm, hi⟩ := hd
  unfold meterActionAck
  rw [hp]
  dsimp only
  rw [if_pos ⟨hj, hm, by cases h : p.drain <;> simp [h, hi]⟩, if_pos ht]
  exact if_pos hv

end

/-! ### The end of a restoration (R72) -/

theorem exec_recordRestore (t : TileId) (k : Nat) (bad : Bool) (s : State) : exec (.recordRestore t k bad) s = .next (s.done (recordRestore t k bad s)) := rfl

theorem recordRestore_starts {s : State} {t : TileId} {k : Nat} (h : (s.vol t).meters.restoring.contains k = false) (bad : Bool) :
    recordRestore t k bad s = s.recordBad t k := by
  unfold recordRestore
  rw [h]
  rfl

theorem recordRestore_damaged {s : State} {t : TileId} {k : Nat} (h : (s.vol t).meters.restoring.contains k = true) :
    recordRestore t k true s = (s.onMeters t fun m => { m with restoring := m.restoring.filter (· != k) }).onMeters t fun m =>
      { m with damaged := m.damaged.filter (· != k) ++ [k] } := by
  unfold recordRestore
  rw [h, if_pos rfl]
  exact if_pos rfl

theorem recordRestore_restored {s : State} {t : TileId} {k : Nat} (h : (s.vol t).meters.restoring.contains k = true) :
    recordRestore t k false s = (s.onMeters t fun m => { m with restoring := m.restoring.filter (· != k) }).restoreMeter t k := by
  unfold recordRestore
  rw [h, if_pos rfl]
  exact if_neg Bool.false_ne_true

/-- A record whose CHECK fails is marked so and waits for its restoration. -/
theorem State.recordBad_meters (s : State) (t : TileId) (k : Nat) :
    ((s.recordBad t k).vol t).meters.restoring = (s.vol t).meters.restoring ++ [k] ∧ ((s.recordBad t k).meter t k).checkGood = false := by
  unfold State.recordBad
  dsimp only
  constructor
  · rw [State.meters_onMeters, State.event_meters, State.vol_bump, State.setMeter, State.meters_onMeters]
  · rw [State.meter_onMeters _ _ _ _ rfl, State.meter_event, State.meter_bump, State.meter_setMeter_self]

/-- It is counted. -/
theorem State.rd_recordBad_errors {s : State} {t : TileId} (k : Nat) (h : s.rd Reg.meters_record_errors t + 1 < Reg.meters_record_errors.span) :
    (s.recordBad t k).rd Reg.meters_record_errors t = s.rd Reg.meters_record_errors t + 1 := by
  refine (State.rd_event _ _ _ _ _ _ _ _ _ _ quiet_meters_record_errors fun h => absurd h (by decide)).trans ?_
  exact State.rd_bump_lt (s.setMeter t k { s.meter t k with checkGood := false }) _ _ _ h

/-- Settles O13: what each command of the store does, where its conditions hold. -/
theorem meterStore : Obligations.MeterStore := by
  refine ⟨fun s t off data hr hl hok hfix => ?_, fun s t hn hm hd => ?_, fun s t i hf hd => ?_, fun s t k hk he => ?_,
    fun s t p r hp hj hm hdr ht hk hw => ?_, fun s t hn hm hd hr => ?_, fun s t c wait h => ?_, fun s y t p r hp hj hm hi ht hy => ?_,
    fun s t p r hp hj hm hi ht hv => ?_, fun s t k h => ?_, fun s t k h => ?_⟩
  · refine ⟨_, exec_classTableWrite t off data s, ?_⟩
    rw [writeClassTable_accepted hr hl hok hfix, State.rdB_done _ _ _ _ _ _ _ quiet_meters_class_table, State.done_out, State.done_pier]
    refine ⟨State.rdB_wrBM_self _ _ _ _ _ _, by rw [State.answer_out_eq, State.out_wrBM], ?_⟩
    unfold State.answer State.answerFor
    rw [State.wrBM_acts, State.pier_wrBM]
  · obtain ⟨hnext, hrecs, hregs, hout⟩ := checkpoint_starts_effect hn hm (.inl hd)
    exact ⟨_, exec_checkpoint t s, by rw [State.done_vol, hnext], by rw [State.done_vol, hrecs], State.done_regs _ _ hregs, by rw [State.done_out, hout]⟩
  · have hregs : (journalPageProgram t s).regs = s.regs := by rw [journalPageProgram_due hf hd]; rfl
    refine ⟨_, exec_journalPageProgram t s, ?_, ?_, State.done_regs _ _ hregs⟩
    · rw [State.done_vol, journalPageProgram_due hf hd, State.vol_queueJob, State.meters_onMeters]
    · rw [State.done_mediaRegs _ _ _ hregs, journalPageProgram_due hf hd, State.jobs_queueJob, State.onMeters, State.tile_onVol_self]
  · obtain ⟨hrest, hgood⟩ := s.recordBad_meters t k
    refine ⟨_, exec_recordRestore t k false s, ?_⟩
    rw [recordRestore_starts hk, State.done_vol, State.rd_done _ _ _ _ _ quiet_meters_record_errors, State.meter_done]
    exact ⟨hrest, State.rd_recordBad_errors k he, hgood⟩
  · refine ⟨_, exec_meterActionAck t s, ?_⟩
    rw [meterActionAck_plain hp ⟨hj, hm, fun h => absurd (hdr.symm.trans h) Bool.false_ne_true⟩ ht hk hw, State.done_vol, State.meters_onMeters,
      State.vol_answerFor, State.vol_wr, State.meters_onMeters, State.rd_done _ _ _ _ _ quiet_meters_last_result, State.done_out]
    exact ⟨rfl, (State.rd_wr_self (s.onMeters t fun m => { m with pend := r }) Reg.meters_last_result t 0 0).trans (Nat.zero_mod _), rfl⟩
  · obtain ⟨hnext, hrecs, hregs, hout⟩ := checkpoint_starts_effect hn hm hd
    obtain ⟨hrun, hjobs⟩ := checkpoint_starts_complete hn hm hd hr
    exact ⟨_, exec_checkpoint t s, by rw [State.done_vol, hrun], by rw [State.done_mediaRegs _ _ _ hregs, hjobs], by rw [State.done_vol, hnext],
      by rw [State.done_vol, hrecs], State.done_regs _ _ hregs, by rw [State.done_out, hout]⟩
  · rw [exec_checkpoint, checkpoint_running h]
  · rw [exec_meterActionAck, meterActionAck_due hp ⟨hj, hm, hi⟩ ht hy]
  · rw [exec_meterActionAck, meterActionAck_topup hp ⟨hj, hm, hi⟩ ht hv]
  · refine ⟨_, exec_recordRestore t k true s, ?_⟩
    have hregs : (recordRestore t k true s).regs = s.regs := by rw [recordRestore_damaged h]; rfl
    rw [State.done_regs _ _ hregs, recordRestore_damaged h, State.done_vol, State.meters_onMeters, State.meters_onMeters, State.done_out]
    exact ⟨rfl, rfl, rfl, rfl⟩
  · rw [exec_recordRestore, recordRestore_restored h]

end Sys2Proof.Machine

namespace Sys2Proof.Machine

/-! ### Gather and the switch core as parts of a tile -/

@[simp] theorem State.vol_onGather (s : State) (t : TileId) (f : Gather → Gather) :
    (s.onGather t f).vol t = { s.vol t with gather := f (s.vol t).gather } := State.vol_onVol_self ..

@[simp] theorem State.vol_onMarver (s : State) (t : TileId) (f : Marver → Marver) :
    (s.onMarver t f).vol t = { s.vol t with marver := f (s.vol t).marver } := State.vol_onVol_self ..

@[simp] theorem State.vol_onSw (s : State) (t : TileId) (f : Switch → Switch) :
    (s.onSw t f).vol t = { s.vol t with sw := f (s.vol t).sw } := State.vol_onVol_self ..

/-- A change of a tile is known by its value at the tile. -/
theorem State.onTile_congr {s : State} {t : TileId} {f g : Tile → Tile} (h : f (s.tile t) = g (s.tile t)) : s.onTile t f = s.onTile t g :=
  congrArg (fun x => { s with tiles := s.tiles.set t x }) h

theorem State.onGather_congr {s : State} {t : TileId} {f g : Gather → Gather} (h : f (s.vol t).gather = g (s.vol t).gather) :
    s.onGather t f = s.onGather t g := by
  unfold State.onGather State.onVol
  exact State.onTile_congr (congrArg (fun x : Gather => { s.tile t with vol := { s.vol t with gather := x } }) h)

/-- An action is known by what it does in the state in which it runs. -/
theorem State.acting_congr {s : State} {a : Act} {f g : State → State} (h : f (s.under a) = g (s.under a)) : s.acting a f = s.acting a g :=
  congrArg (fun r : State => { r with acts := { r.acts with now := s.acts.now } }) h

/-! What a unit of the tile other than the meters does, the meters do not see -/

theorem MetersKept.wr {t : TileId} {s x : State} (h : MetersKept t s x) (e : Entry) (n v i : Nat) : MetersKept t s (x.wr e n v i) :=
  ⟨h.meters, h.mode, h.out⟩

theorem MetersKept.bump {t : TileId} {s x : State} (h : MetersKept t s x) (e : Entry) (n i k : Nat) : MetersKept t s (x.bump e n i k) :=
  h.wr e n _ i

theorem MetersKept.onGather {t : TileId} {s x : State} (h : MetersKept t s x) (f : Gather → Gather) : MetersKept t s (x.onGather t f) :=
  h.onVol _

theorem MetersKept.onSw {t : TileId} {s x : State} (h : MetersKept t s x) (f : Switch → Switch) : MetersKept t s (x.onSw t f) :=
  h.onVol _

/-- The conditions of R85 are judged on the meters alone. -/
theorem MetersKept.identify_eq {t : TileId} {s x : State} (h : MetersKept t s x) (f : Frame) : identify x t f = identify s t f := by
  unfold identify State.unsound
  simp only [h.meters, h.meter]

theorem MetersKept.genOf_eq {t : TileId} {s x : State} (h : MetersKept t s x) (f : Frame) : genOf x t f = genOf s t f := by
  unfold genOf
  simp only [h.meters, h.meter]

/-! ### The pool (R369, R370) -/

/-- Frames that enter the pool as cells become free change the VOQs, the cells in use and who waits. -/
theorem Switch.retry_keeps {β : Type} (g : Switch → β) (ha : ∀ w i n sh, g (Switch.alloc w i n sh) = g w)
    (hv : ∀ w i o c l, g (Switch.setVoq w i o c l) = g w) (hw : ∀ (w : Switch) l, g { w with waiting := l } = g w) (w : Switch) (m : Nat) :
    g (w.retry m) = g w := by
  unfold Switch.retry
  refine List.foldlRecOn (motive := fun x => g x = g w) _ _ (hw w []) fun x hx e _ => ?_
  split
  · exact ((hv _ _ _ _ _).trans (ha _ _ _ _)).trans hx
  · exact (hw _ _).trans hx

/-- What the cells of an input and the VOQs do not touch, a release of cells leaves. -/
theorem State.swRelease_sw_keeps {β : Type} (g : Switch → β) (ha : ∀ w i n sh, g (Switch.alloc w i n sh) = g w)
    (hr : ∀ w i n sh, g (Switch.release w i n sh) = g w) (hv : ∀ w i o c l, g (Switch.setVoq w i o c l) = g w)
    (hw : ∀ (w : Switch) l, g { w with waiting := l } = g w) (s : State) (t : TileId) (i n : Nat) (shared : Bool) :
    g ((s.swRelease t i n shared).sw t) = g (s.sw t) := by
  unfold State.swRelease State.sw
  rw [State.vol_onSw]
  exact (Switch.retry_keeps g ha hv hw _ _).trans (hr _ _ _ _)

@[simp] theorem Switch.alloc_credit (w : Switch) (i n : Nat) (sh : Bool) : (w.alloc i n sh).credit = w.credit := by cases sh <;> rfl
@[simp] theorem Switch.alloc_held (w : Switch) (i n : Nat) (sh : Bool) : (w.alloc i n sh).held = w.held := by cases sh <;> rfl
@[simp] theorem Switch.release_credit (w : Switch) (i n : Nat) (sh : Bool) : (w.release i n sh).credit = w.credit := by cases sh <;> rfl
@[simp] theorem Switch.release_held (w : Switch) (i n : Nat) (sh : Bool) : (w.release i n sh).held = w.held := by cases sh <;> rfl

/-- Cells that are released carry no credit of an output. -/
@[simp] theorem State.swRelease_credit (s : State) (t : TileId) (i n : Nat) (shared : Bool) : ((s.swRelease t i n shared).sw t).credit = (s.sw t).credit :=
  State.swRelease_sw_keeps Switch.credit Switch.alloc_credit Switch.release_credit (fun _ _ _ _ _ => rfl) (fun _ _ => rfl) _ _ _ _ _
@[simp] theorem State.swRelease_held (s : State) (t : TileId) (i n : Nat) (shared : Bool) : ((s.swRelease t i n shared).sw t).held = (s.sw t).held :=
  State.swRelease_sw_keeps Switch.held Switch.alloc_held Switch.release_held (fun _ _ _ _ _ => rfl) (fun _ _ => rfl) _ _ _ _ _

theorem getD_addAt {l : List Nat} {i : Nat} (h : i < l.length) (k : Nat) : (addAt l i k).getD i 0 = l.getD i 0 + k := by
  simp [addAt, List.getD, h]

theorem getD_subAt {l : List Nat} {i : Nat} (h : i < l.length) (k : Nat) : (subAt l i k).getD i 0 = l.getD i 0 - k := by
  simp [subAt, List.getD, h]

/-- Storing a frame touches the switch core and its counters; Gather and what was put out stay. -/
theorem State.swStore_keeps {β : Type} (g : State → β) (t : TileId) (hb : ∀ x e n i k, g (State.bump x e n i k) = g x)
    (hs : ∀ x f, g (State.onSw x t f) = g x) (s : State) (i o : Nat) (f : SwFrame) : g (s.swStore t i o f) = g s := by
  have hd : g (if swClass f.cls f.len = f.cls then s else s.bump Reg.sw_express_demoted t) = g s := by
    split
    · rfl
    · exact hb _ _ _ _ _
  unfold State.swStore
  dsimp only
  generalize (if swClass f.cls f.len = f.cls then s else s.bump Reg.sw_express_demoted t) = z at hd ⊢
  refine Eq.trans ?_ hd
  split
  · exact hb _ _ _ _ _
  · split
    · split
      · exact hs _ _
      · exact hb _ _ _ _ _
    · split
      · exact hs _ _
      · split
        · exact hs _ _
        · exact hb _ _ _ _ _

@[simp] theorem State.swStore_out (s : State) (t : TileId) (i o : Nat) (f : SwFrame) : (s.swStore t i o f).out = s.out :=
  State.swStore_keeps State.out t (fun _ _ _ _ _ => rfl) (fun _ _ => rfl) _ _ _ _
@[simp] theorem State.swStore_gather (s : State) (t : TileId) (i o : Nat) (f : SwFrame) : ((s.swStore t i o f).vol t).gather = (s.vol t).gather :=
  State.swStore_keeps (fun x => (x.vol t).gather) t (fun _ _ _ _ _ => rfl) (fun _ _ => by simp) _ _ _ _

/-! ### Envelopes (R79, R81) -/

theorem exec_envelope (t : TileId) (p : Fin 2) (frame : Bytes) (s : State) : exec (.envelope t p frame) s = .next (s.done (envelope_ t p frame s)) := rfl
theorem exec_gatherInject (t : TileId) (s : State) :
    exec (.gatherInject t) s = .next (s.done (consuming t [Reg.gather_inject_buffer] (gatherInject t) s)) := rfl

/-- An envelope of a session that parses is opened; its FORCE_OLD is counted and no more. -/
theorem envelope_opens {s : State} {t : TileId} {p : Fin 2} {frame : Bytes} {r : LinkIn} {e : Sess} {seq : Nat} {force : Bool} {l : List (Nat × Bytes)}
    (hr : (s.linkRx t p frame).2 = some r) (hty : r.type = 0x10) (he : r.sess.bind (Tbl.get ((s.linkRx t p frame).1.sw t).sess) = some e)
    (hp : (s.linkRx t p frame).1.portTakes t 5 = true) (hl : envParse r.payload = some (seq, force, l)) :
    envelope_ t p frame s =
      (if force then (s.linkRx t p frame).1.bump Reg.gather_force_old_ignored t else (s.linkRx t p frame).1).openEnvelope
        t p e.sat e.value frame.length seq false l := by
  unfold envelope_
  simp only [hr, hty, he, hp, hl, ne_eq, not_true_eq_false, if_false, Bool.not_true, Bool.false_eq_true]

/-- An inject that is not refused is counted at its input and opened as one of no satellite; it consumes its buffer. -/
theorem gatherInject_opens {s : State} {t : TileId} {seq n : Nat} {force : Bool} {l : List (Nat × Bytes)} (hv : s.serves t = true)
    (hi : (s.vol t).gather.injecting = none) (ho : s.intakeOpen t = true) (hl : envParse (s.rdAll Reg.gather_inject_buffer t) = some (seq, force, l))
    (hn : n = l.foldl (fun a e => a + (12 + e.2.length + 3) / 4 * 4) 16) :
    consuming t [Reg.gather_inject_buffer] (gatherInject t) s =
      consuming t [Reg.gather_inject_buffer] (fun y =>
        (y.swCount t 6 2 ((s.rdAll Reg.gather_inject_buffer t).take n) n).openEnvelope t 2 0xFFFF 0 n seq force l) s := by
  subst hn
  refine State.acting_congr ?_
  generalize hy : s.under _ = y
  have hv' : y.serves t = true := hy ▸ hv
  have hi' : (y.vol t).gather.injecting = none := hy ▸ hi
  have ho' : y.intakeOpen t = true := hy ▸ ho
  have hb : y.rdAll Reg.gather_inject_buffer t = s.rdAll Reg.gather_inject_buffer t := hy ▸ rfl
  unfold gatherInject
  simp only [hv', hi', ho', hb, hl, Bool.not_true, Option.isSome_none, Bool.false_eq_true, or_self, if_false]

/-- Without a sampler the entry of a frame is counted, and no more. -/
theorem State.swCount_unsampled {s : State} {t : TileId} (h : s.rd Reg.sw_sample_n t = 0) (i cls : Nat) (b : Bytes) (len : Nat) (hi : i < 8) :
    s.swCount t i cls b len = (s.bump Reg.sw_frames_in t i).bump Reg.sw_bytes_in t i len := by
  have hk : ∀ e : Entry, e.area = .tile → e.place i ≠ Reg.sw_sample_n.place 0 → Reg.sw_sample_n.key t 0 ≠ e.key t i :=
    fun e ha hp => Entry.key_ne_place _ _ _ _ _ ha.symm hp.symm
  unfold State.swCount
  dsimp only
  rw [State.rd_bump_ne _ _ _ _ _ _ _ _ (hk _ rfl (by simp only [Entry.place, Reg.sw_bytes_in, Reg.sw_sample_n]; omega)),
    State.rd_bump_ne _ _ _ _ _ _ _ _ (hk _ rfl (by simp only [Entry.place, Reg.sw_frames_in, Reg.sw_sample_n]; omega)), h]
  exact if_pos (.inl rfl)

/-- An envelope that an inject opens has the next number, and the inject runs under it. -/
theorem State.openEnvelope_inject {s : State} {t : TileId} (h : s.portTakes t 5 = true) (sat peer len seq : Nat) (force : Bool) (l : List (Nat × Bytes)) :
    ((s.openEnvelope t 2 sat peer len seq force l).vol t).gather.injecting = some (s.vol t).gather.nextEnv ∧
      ((s.openEnvelope t 2 sat peer len seq force l).vol t).gather.nextEnv = (s.vol t).gather.nextEnv + 1 ∧
      (s.openEnvelope t 2 sat peer len seq force l).out = s.out := by
  have hg : ∀ fr, s.toGather t 2 len fr = (s.swStore t 6 5 { cls := 2, len := len, cells := 0, shared := false, body := .intake fr }, true) :=
    fun fr => by simp [State.toGather, srcInput, h]
  unfold State.openEnvelope
  simp only [hg, if_true, State.vol_onGather, true_and]
  exact State.swStore_out ..

/-- Settles O14: an envelope that passes its checks is opened with what its source gives. -/
theorem envelopeIntake : Obligations.EnvelopeIntake := by
  refine ⟨fun s t p frame r e seq l hr hty he hp hl => ?_, fun s t seq l hv hi ho hl hn hp => ?_, fun s t seq n force l hv hi ho hl hn => ?_,
    fun s y t p frame r e seq l hr hty he hp hl hy => ?_⟩
  · rw [exec_envelope, envelope_opens hr hty he hp hl, if_neg Bool.false_ne_true]
  · refine ⟨_, exec_gatherInject t s, ?_⟩
    have hn' : ∀ a, (s.under a).rd Reg.sw_sample_n t = 0 := fun _ => hn
    rw [State.done_vol, State.done_out, gatherInject_opens hv hi ho hl rfl, consuming, State.acting_vol, State.acting_out,
      State.swCount_unsampled (hn' _) 6 _ _ _ (by decide)]
    refine State.openEnvelope_inject ?_ ..
    exact hp
  · rw [exec_gatherInject, gatherInject_opens hv hi ho hl hn]
  · rw [exec_envelope, envelope_opens hr hty he hp hl, if_pos rfl, hy]

/-! ### G1 (R82, R85, R86) -/

theorem exec_frameIntake (t : TileId) (overlap : Bool) (bad report : Nat) (s : State) :
    exec (.frameIntake t overlap ⟨bad, report⟩) s = .next (s.done (frameIntake t overlap bad report s)) := rfl
theorem exec_midxWaitRelease (t : TileId) (midx : Nat) (s : State) :
    exec (.midxWaitRelease t midx) s = .next (s.done (midxWaitRelease t midx s)) := rfl

/-- The front frame of source `k` leaves its queue and is counted. -/
def State.takeFrame (s : State) (t : TileId) (k left : Nat) (rest : List Frame) : State :=
  let y := (s.onGather t fun g => { g with voq := g.voq.set k rest, rrPos := k, rrLeft := left }).bump Reg.gather_frames_in t k
  y.wr Reg.gather_in_flight_peak t (max (y.rd Reg.gather_in_flight_peak t) ((s.vol t).gather.waiting.length + 1))

/-- A frame waits behind another of its MIDX. -/
def State.holdFlight (s : State) (t : TileId) (x : Flight) : State :=
  let y := (s.bump Reg.gather_midx_waits t).onGather t fun g => { g with waiting := g.waiting ++ [x] }
  y.wr Reg.gather_in_flight t (y.vol t).gather.waiting.length

theorem State.takeFrame_gather (s : State) (t : TileId) (k left : Nat) (rest : List Frame) :
    ((s.takeFrame t k left rest).vol t).gather = { (s.vol t).gather with voq := (s.vol t).gather.voq.set k rest, rrPos := k, rrLeft := left } := by
  simp [State.takeFrame]

theorem State.takeFrame_sw (s : State) (t : TileId) (k left : Nat) (rest : List Frame) : (s.takeFrame t k left rest).sw t = s.sw t := by
  simp [State.takeFrame, State.sw]

theorem State.holdFlight_gather (s : State) (t : TileId) (x : Flight) :
    ((s.holdFlight t x).vol t).gather = { (s.vol t).gather with waiting := (s.vol t).gather.waiting ++ [x] } := by
  simp [State.holdFlight]

theorem State.holdFlight_sw (s : State) (t : TileId) (x : Flight) : (s.holdFlight t x).sw t = s.sw t := by
  simp [State.holdFlight, State.sw]

/-- The frame that waits is counted with those before it. -/
theorem State.rd_holdFlight_inFlight (s : State) (t : TileId) (x : Flight) :
    (s.holdFlight t x).rd Reg.gather_in_flight t = ((s.vol t).gather.waiting.length + 1) % Reg.gather_in_flight.span := by
  unfold State.holdFlight
  rw [State.rd_wr_self, State.vol_onGather, List.length_append]
  rfl

theorem MetersKept.takeFrame {t : TileId} {s x : State} (h : MetersKept t s x) (k left : Nat) (rest : List Frame) :
    MetersKept t s (x.takeFrame t k left rest) := ((h.onGather _).bump _ _ _ _).wr _ _ _ _

theorem MetersKept.holdFlight {t : TileId} {s x : State} (h : MetersKept t s x) (f : Flight) : MetersKept t s (x.holdFlight t f) :=
  ((h.bump _ _ _ _).onGather _).wr _ _ _ _

/-- A frame that is identified waits behind another of its MIDX or goes through the pipeline. -/
theorem frameIntake_identified {s w z : State} {t : TileId} {overlap : Bool} {bad report k left midx : Nat} {f : Frame} {rest : List Frame}
    (hl : (s.vol t).gather.waiting.length < 256)
    (hp : (s.vol t).gather.pick (s.mayTake t) (fun j => s.rd Reg.gather_intake_weight t j) = some (k, left)) (hw : w = s.intakeFetch t k)
    (hf : (w.vol t).gather.voq.getD k [] = f :: rest) (hz : z = w.takeFrame t k left rest) (hi : identify z t f = .ok midx) :
    frameIntake t overlap bad report s =
      if overlap ∨ (z.vol t).gather.waiting.any (fun y => decide (y.midx = midx)) then
        z.holdFlight t { frame := f, midx := midx, gen := genOf z t f, slotBad := bad, report := report }
      else runFrame z t { frame := f, midx := midx, gen := genOf z t f, slotBad := bad, report := report } := by
  unfold State.takeFrame at hz
  dsimp only at hz
  unfold frameIntake
  rw [if_neg (by omega), hp]
  dsimp only
  rw [← hw, hf]
  dsimp only
  rw [← hz, hi]
  rfl

/-- With another frame of its MIDX between G2 and G4, an identified frame waits. -/
theorem frameIntake_waits {s w : State} {t : TileId} {k left midx : Nat} {f : Frame} {rest : List Frame}
    (hl : (s.vol t).gather.waiting.length < 256)
    (hp : (s.vol t).gather.pick (s.mayTake t) (fun j => s.rd Reg.gather_intake_weight t j) = some (k, left)) (hw : w = s.intakeFetch t k)
    (hk : MetersKept t s w) (hf : (w.vol t).gather.voq.getD k [] = f :: rest) (hi : identify s t f = .ok midx) (bad report : Nat) :
    frameIntake t true bad report s =
      (w.takeFrame t k left rest).holdFlight t { frame := f, midx := midx, gen := genOf s t f, slotBad := bad, report := report } := by
  have hk' := hk.takeFrame k left rest
  rw [frameIntake_identified hl hp hw hf rfl ((hk'.identify_eq f).trans hi), if_pos (.inl rfl), hk'.genOf_eq]

/-- Frames that were handed over before go first. -/
theorem State.intakeFetch_of_queued {s : State} {t : TileId} {k : Nat} {f : Frame} {rest : List Frame} (h : (s.vol t).gather.voq.getD k [] = f :: rest) :
    s.intakeFetch t k = s := by
  unfold State.intakeFetch
  rw [h]
  rfl

/-- The frame at place `i` of source `k`'s queue toward P5 takes its credit and leaves the VOQ (R371). -/
def State.dispatchIntake (s : State) (t : TileId) (k i : Nat) (w : SwFrame) : State :=
  (s.onVol t fun v => { v with diag := { v.diag with p5 := none } }).onSw t fun x =>
    { x.setVoq (srcInput k) 5 2 ((x.voq (srcInput k) 5 2).eraseIdx i) with credit := subAt x.credit 5 w.cells, held := addAt x.held 5 w.cells }

/-- Its cells are free, it is counted at its output, and its entries are Gather's. -/
def State.handOver (s : State) (t : TileId) (k : Nat) (w : SwFrame) : State :=
  (((s.swRelease t (srcInput k) w.cells w.shared).bump Reg.sw_frames_out t 5).bump Reg.sw_bytes_out t 5 w.len).onGather t fun g =>
    { g with voq := g.voq.set k w.body.frames }

theorem State.intakeFetch_of_head {s : State} {t : TileId} {k i : Nat} {w : SwFrame} (hv : (s.vol t).gather.voq.getD k [] = [])
    (hh : (s.sw t).intakeHead k = some (i, w)) (hd : (s.vol t).diag.p5 = none) (he : s.egressWait t 5 2 = none) :
    s.intakeFetch t k = (s.dispatchIntake t k i w).handOver t k w := by
  unfold State.intakeFetch
  rw [hv, hh, hd, he]
  rfl

@[simp] theorem State.swRelease_gather (s : State) (t : TileId) (i n : Nat) (shared : Bool) :
    ((s.swRelease t i n shared).vol t).gather = (s.vol t).gather := by simp [State.swRelease]

theorem State.dispatchIntake_effect (s : State) (t : TileId) (k i : Nat) (w : SwFrame) :
    ((s.dispatchIntake t k i w).vol t).gather = (s.vol t).gather ∧
      ((s.dispatchIntake t k i w).sw t).credit = subAt (s.sw t).credit 5 w.cells ∧ ((s.dispatchIntake t k i w).sw t).held = addAt (s.sw t).held 5 w.cells := by
  unfold State.sw State.dispatchIntake
  rw [State.vol_onSw, State.vol_onVol_self]
  exact ⟨rfl, rfl, rfl⟩

theorem State.handOver_gather (s : State) (t : TileId) (k : Nat) (w : SwFrame) :
    ((s.handOver t k w).vol t).gather = { (s.vol t).gather with voq := (s.vol t).gather.voq.set k w.body.frames } := by
  unfold State.handOver
  rw [State.vol_onGather, State.vol_bump, State.vol_bump, State.swRelease_gather]

theorem State.handOver_credit_held (s : State) (t : TileId) (k : Nat) (w : SwFrame) :
    ((s.handOver t k w).sw t).credit = (s.sw t).credit ∧ ((s.handOver t k w).sw t).held = (s.sw t).held := by
  have h : (s.handOver t k w).sw t = (s.swRelease t (srcInput k) w.cells w.shared).sw t := by simp [State.handOver, State.sw]
  rw [h]
  exact ⟨State.swRelease_credit .., State.swRelease_held ..⟩

theorem MetersKept.dispatchIntake {t : TileId} {s x : State} (h : MetersKept t s x) (k i : Nat) (w : SwFrame) : MetersKept t s (x.dispatchIntake t k i w) :=
  (h.onVol _).onSw _

theorem MetersKept.handOver {t : TileId} {s x : State} (h : MetersKept t s x) (k : Nat) (w : SwFrame) : MetersKept t s (x.handOver t k w) :=
  (((h.onSw _).bump _ _ _ _).bump _ _ _ _).onGather _

/-- A frame that is taken anew from the switch has left its credit there and its entries to Gather; the meters are as they were. -/
theorem State.intakeFetch_anew {s x : State} {t : TileId} {k i : Nat} {w : SwFrame} (hx : x = s.intakeFetch t k)
    (hv : (s.vol t).gather.voq.getD k [] = []) (hh : (s.sw t).intakeHead k = some (i, w)) (hd : (s.vol t).diag.p5 = none)
    (he : s.egressWait t 5 2 = none) :
    MetersKept t s x ∧ (x.vol t).gather = { (s.vol t).gather with voq := (s.vol t).gather.voq.set k w.body.frames } ∧
      (x.sw t).credit = subAt (s.sw t).credit 5 w.cells ∧ (x.sw t).held = addAt (s.sw t).held 5 w.cells := by
  obtain ⟨hg, hcredit, hheld⟩ := s.dispatchIntake_effect t k i w
  obtain ⟨hcredit', hheld'⟩ := (s.dispatchIntake t k i w).handOver_credit_held t k w
  rw [hx, State.intakeFetch_of_head hv hh hd he]
  exact ⟨((MetersKept.refl t s).dispatchIntake k i w).handOver k w, by rw [State.handOver_gather, hg], hcredit'.trans hcredit, hheld'.trans hheld⟩

/-- The first frame that waits for its MIDX goes on. -/
theorem midxWaitRelease_first {s : State} {t : TileId} {f : Flight}
    (h : (s.vol t).gather.waiting.find? (fun x => decide (x.midx = f.midx)) = some f) {y : State}
    (hy : y = s.onGather t fun g => { g with waiting := g.waiting.eraseIdx ((s.vol t).gather.waiting.findIdx fun x => decide (x.midx = f.midx)) }) :
    midxWaitRelease t f.midx s = runFrame (y.wr Reg.gather_in_flight t (y.vol t).gather.waiting.length) t f := by
  unfold midxWaitRelease
  dsimp only
  rw [h, hy]

/-! ### Acknowledgement (R108) -/

theorem exec_envelopeAck (t : TileId) (s : State) : exec (.envelopeAck t) s = .next (s.done (envelopeAck t s)) := rfl

/-- The acknowledgement at the front of the queue leaves once its point is reached. -/
theorem envelopeAck_reached {s : State} {t : TileId} {src peer mark : Nat} {b : Bytes} (h : (s.queue t 4).take.2 = some (.ack src peer mark b))
    (hm : mark = 0 ∨ s.mirrored t mark = true ∨ s.rd Reg.bay_mirror_sync (bayOf t) ≠ 0) :
    envelopeAck t s = (s.qRead t 4).1.swSend t 5 src 1 (.link peer 0x11 b) := by
  unfold envelopeAck
  rw [h]
  exact if_pos hm

/-! ### The duplicate check (R104) -/

theorem exec_duplicateCheck (t : TileId) (s : State) : exec (.duplicateCheck t) s = .next (s.done (duplicateCheck t s)) := rfl

/-- A list numbered from 0 whose first element is the one sought. -/
theorem find?_zip_range_head {α : Type} (a : α) (l : List α) (p : α × Nat → Bool) (h : p (a, 0) = true) :
    ((a :: l).zip (List.range (a :: l).length)).find? p = some (a, 0) := by
  rw [List.length_cons, List.range_succ_eq_map, List.zip_cons_cons, List.find?_cons, h]

/-- The first row, whose meter is free, leaves the list, and the table of R104 says what becomes of it. -/
theorem duplicateCheck_first {s : State} {t : TileId} {row : Row} {l : List Row} (hr : (s.vol t).gather.rows = row :: l)
    (hb : s.midxBusy t row.rd.midx = false) (hq : row.restate = none) (hd : row.direct = false) :
    duplicateCheck t s =
      (dupCheck (s.meter t (midxSlot row.rd.midx)).lastTend row.rd.tend row.rd.idur (s.meter t (midxSlot row.rd.midx)).dupMap row.forceOld).elim
        (((s.onGather t fun g => { g with rows := l }).passRow t row).bump Reg.gather_readings_out t) fun d =>
          ((((s.onGather t fun g => { g with rows := l }).cullet t 0x14 d 1 0xFF 0 0 row.gen (openedBytes row.rd)).countEnd t d).endReading
            t row.fid none).endReplay t row.replay 2 := by
  have hg : (s.onGather t fun g => { g with rows := g.rows.eraseIdx 0 }) = s.onGather t fun g => { g with rows := l } :=
    State.onGather_congr (by rw [hr]; rfl)
  have hm : ∀ k, (s.onGather t fun g => { g with rows := l }).meter t k = s.meter t k := ((MetersKept.refl t s).onGather _).meter
  unfold duplicateCheck
  dsimp only
  rw [hr, find?_zip_range_head _ _ _ (by simp [hb])]
  dsimp only
  rw [hg, hq, hd, hm, if_neg Bool.false_ne_true]
  cases dupCheck (s.meter t (midxSlot row.rd.midx)).lastTend row.rd.tend row.rd.idur (s.meter t (midxSlot row.rd.midx)).dupMap row.forceOld with
  | none => rfl
  | some d => rfl

/-- A reading that is handed on is the last in Marver's queue, with what its meter record holds. -/
theorem State.passRow_effect (s : State) (t : TileId) (row : Row) :
    ((s.passRow t row).vol t).gather = (s.vol t).gather ∧ (s.passRow t row).out = s.out ∧
      ((s.passRow t row).vol t).marver.inq = (s.vol t).marver.inq ++
        [{ rd := row.rd, fid := row.fid, gen := row.gen, restate := row.restate, replay := row.replay,
           lastTend := (s.meter t (midxSlot row.rd.midx)).lastTend, lastReg := (s.meter t (midxSlot row.rd.midx)).lastReg,
           phase := (s.meter t (midxSlot row.rd.midx)).phase, cls := (s.meter t (midxSlot row.rd.midx)).cls, rule := row.rule, flags := row.flags }] := by
  unfold State.passRow
  rw [State.vol_onMarver]
  exact ⟨rfl, rfl, rfl⟩

theorem quiet_gather_in_flight : Reg.gather_in_flight.quiet 0 = true := by decide

/-- Settles O15: what each command of the intake does, where its conditions hold. -/
theorem frameIntake_holds : Obligations.FrameIntake := by
  refine ⟨fun s t bad k left midx report f rest hl hp hf hi => ?_, fun s t bad k left i midx report w f rest hl hv hk hc hh hp hf hw hb hd he hi => ?_,
    fun s t f h => ?_, fun s t src peer mark b h hm => ?_, fun s t row hr hb hq hd hdup => ?_,
    fun s w y z t bad k left midx report f rest hl hp hw hf hy hz hi ha => ?_, fun s t f h => ?_, fun s t src peer mark b h hm => ?_,
    fun s t row l hr hb hq hd hdup => ?_, fun s t row l d hr hb hq hd hdup => ?_⟩
  · refine ⟨_, exec_frameIntake t true bad report s, ?_⟩
    rw [frameIntake_waits hl hp (State.intakeFetch_of_queued hf).symm (.refl t s) hf hi, State.done_vol, State.done_out,
      State.rd_done _ _ _ _ _ quiet_gather_in_flight, State.holdFlight_gather, State.takeFrame_gather, State.rd_holdFlight_inFlight, State.takeFrame_gather]
    exact ⟨rfl, rfl, rfl, (((MetersKept.refl t s).takeFrame ..).holdFlight _).out⟩
  · refine ⟨_, exec_frameIntake t true bad report s, ?_⟩
    obtain ⟨hkept, hg, hcredit, hheld⟩ := State.intakeFetch_anew rfl hf hw hd he
    have hfront : ((s.intakeFetch t k).vol t).gather.voq.getD k [] = f :: rest := by
      rw [hg, ← hb]
      simp [List.getD, hv, hk]
    have hsw : ∀ x : State, (s.done x).sw t = x.sw t := fun x => congrArg Vol.sw (State.done_vol s x t)
    rw [frameIntake_waits hl hp rfl hkept hfront hi, State.done_vol, State.done_out, hsw, State.holdFlight_gather, State.takeFrame_gather, hg,
      State.holdFlight_sw, State.takeFrame_sw, hcredit, hheld, getD_subAt (by omega), getD_addAt (by omega)]
    exact ⟨List.set_set .., rfl, rfl, rfl, ((hkept.takeFrame ..).holdFlight _).out⟩
  · have hfind : (s.vol t).gather.waiting.find? (fun x => decide (x.midx = f.midx)) = some f := by simp [h]
    rw [exec_midxWaitRelease, midxWaitRelease_first hfind rfl]
    simp [h]
  · rw [exec_envelopeAck, envelopeAck_reached h (.inr (.inl hm))]
  · refine ⟨_, exec_duplicateCheck t s, ?_⟩
    rw [duplicateCheck_first hr hb hq hd, hdup, Option.elim_none]
    obtain ⟨hg, hout, hin⟩ := (s.onGather t fun g => { g with rows := [] }).passRow_effect t row
    rw [State.done_vol, State.done_out, State.vol_bump, hg, State.bump_out, hout, hin, hq, ((MetersKept.refl t s).onGather _).meter, State.vol_onGather]
    exact ⟨rfl, rfl, rfl⟩
  · have hz' : z = w.takeFrame t k left rest := by rw [hz, hy]; rfl
    rw [exec_frameIntake, frameIntake_identified hl hp hw hf hz' hi, ha]
    rfl
  · exact ⟨_, by rw [exec_midxWaitRelease, midxWaitRelease_first h rfl], rfl⟩
  · rw [exec_envelopeAck, envelopeAck_reached h hm]
  · rw [exec_duplicateCheck, duplicateCheck_first hr hb hq hd, hdup, Option.elim_none]
  · rw [exec_duplicateCheck, duplicateCheck_first hr hb hq hd, hdup, Option.elim_some]

end Sys2Proof.Machine

namespace Sys2Proof.Machine

/-! ### Accesses to a tile queue whose pointer copies agree (R579, R580, R582) -/

@[simp] theorem PPQ.note_drain {α : Type} (q : PPQ α) (l : Nat) : (q.note l).drain = q.drain := rfl
@[simp] theorem PPQ.note_fill {α : Type} (q : PPQ α) (l : Nat) : (q.note l).fill = q.fill := rfl
@[simp] theorem PPQ.note_split {α : Type} (q : PPQ α) (l : Nat) : (q.note l).split = q.split := rfl

@[simp] theorem State.queue_setQueue_self (s : State) (t : TileId) (c : Fin 7) (q : PPQ QItem) : (s.setQueue t c q).queue t c = q := by
  simp [State.queue, State.setQueue]

/-- A read of a queue whose pointer copies agree takes the next item, and nothing is lost or reset. -/
theorem State.qRead_of_agree {s : State} {t : TileId} {c : Fin 7} (h : (s.queue t c).split = none) :
    s.qRead t c = (s.setQueue t c ((s.queue t c).take.1.note (s.level t c)), (s.queue t c).take.2) := by
  have hr : (s.queue t c).read (s.level t c) = ⟨(s.queue t c).take.1.note (s.level t c), 0, false, (s.queue t c).take.2⟩ := by
    unfold PPQ.read PPQ.check
    rw [h]
  unfold State.qRead
  rw [hr]
  rfl

/-! ### The Cullet queue (R139, R140) -/

theorem exec_culletTag (t : TileId) (s : State) : exec (.culletTag t) s = .next (s.done (culletTag t s)) := rfl
theorem exec_culletRead (t : TileId) (s : State) : exec (.culletRead t) s = .next (s.done (culletRead t s)) := rfl
theorem exec_culletReadBlock (t : TileId) (s : State) : exec (.culletReadBlock t) s = .next (s.done (culletReadBlock t s)) := rfl

/-- A general slot with a good key delivers it, and nothing changes (R466). -/
theorem State.useSlot_of_good {s : State} {t : TileId} {n : Nat} {x : GenSlot} (h : Tbl.get (s.vol t).vault.slots n = some x) (hb : x.bad = false) :
    s.useSlot t n = (s, some x.key) := by
  unfold State.useSlot
  rw [h]
  exact if_neg (by simp [hb])

/-- The next staged entry is tagged with the key that slot 3 delivers, queued and counted. -/
theorem culletTag_of_key {s u : State} {t : TileId} {e k : Bytes} (he : ((s.vol t).marver.stage.read 129).item = some e)
    (hk : (s.onMarver t fun m => { m with stage := ((s.vol t).marver.stage.read 129).q }).useSlot t 3 = (u, some k)) :
    culletTag t s = (u.qWrite t 0 (.cullet (e ++ Crypto.cmac k e))).bump Reg.cullet_written t := by
  unfold culletTag
  dsimp only
  rw [he, hk]

/-- The pointer copies of the Cullet queue agree, and these are its two banks. -/
def State.culletHolds (s : State) (t : TileId) (drain fill : List QItem) : Prop :=
  (s.queue t 0).split = none ∧ (s.queue t 0).drain = drain ∧ (s.queue t 0).fill = fill

/-- A read takes the oldest entry of the drain bank. -/
theorem State.culletTake_of_cons {s : State} {t : TileId} {b : Bytes} {r f : List QItem} (h : s.culletHolds t (.cullet b :: r) f) :
    (s.culletTake t).1.culletHolds t r f ∧ (s.culletTake t).2 = b := by
  obtain ⟨hsplit, hdrain, hfill⟩ := h
  unfold State.culletTake State.culletHolds
  simp [State.qRead_of_agree hsplit, PPQ.take, hsplit, hdrain, hfill]

/-- A read of an empty queue gives 128 zero bytes (R139). -/
theorem State.culletTake_of_empty {s : State} {t : TileId} (h : s.culletHolds t [] []) :
    (s.culletTake t).1.culletHolds t [] [] ∧ (s.culletTake t).2 = List.replicate 128 0 := by
  obtain ⟨hsplit, hdrain, hfill⟩ := h
  unfold State.culletTake State.culletHolds
  simp [State.qRead_of_agree hsplit, PPQ.take, hsplit, hdrain, hfill]

@[simp] theorem State.culletTake_out (s : State) (t : TileId) : (s.culletTake t).1.out = s.out := State.qRead_out ..

/-- One position of a block read: the state, and the bytes so far. -/
def culletPosition (t : TileId) (a : State × Bytes) : State × Bytes := ((a.1.culletTake t).1, a.2 ++ (a.1.culletTake t).2)

theorem culletReadBlock_eq (t : TileId) (s : State) :
    culletReadBlock t s = ((List.range 8).foldl (fun a _ => culletPosition t a) (s, [])).1.emit
      (.bytes t ((List.range 8).foldl (fun a _ => culletPosition t a) (s, [])).2) := rfl

@[simp] theorem State.culletHolds_emit (s : State) (o : Out) (t : TileId) (d f : List QItem) : (s.emit o).culletHolds t d f ↔ s.culletHolds t d f := Iff.rfl

/-- Positions of an empty queue are zeros. -/
theorem culletPositions_of_empty {t : TileId} (l : List Nat) {a : State × Bytes} (h : a.1.culletHolds t [] []) :
    (l.foldl (fun a _ => culletPosition t a) a).1.culletHolds t [] [] ∧ (l.foldl (fun a _ => culletPosition t a) a).1.out = a.1.out ∧
      (l.foldl (fun a _ => culletPosition t a) a).2 = a.2 ++ List.replicate (128 * l.length) 0 := by
  induction l generalizing a with
  | nil => simpa using h
  | cons i l ih =>
    obtain ⟨hq, hb⟩ := State.culletTake_of_empty h
    obtain ⟨hq', hout, hbytes⟩ := ih (a := culletPosition t a) hq
    refine ⟨hq', hout.trans (State.culletTake_out ..), hbytes.trans ?_⟩
    simp only [culletPosition, hb, List.append_assoc, List.replicate_append_replicate, List.length_cons]
    congr 2
    omega

/-- A block read of a queue with one entry gives it and zeros for the other seven positions. -/
theorem culletReadBlock_of_single {s : State} {t : TileId} {b : Bytes} (h : s.culletHolds t [.cullet b] []) :
    (culletReadBlock t s).culletHolds t [] [] ∧ (culletReadBlock t s).out = s.out ++ [.bytes t (b ++ List.replicate 896 0)] := by
  obtain ⟨hq, hb⟩ := State.culletTake_of_cons h
  obtain ⟨hq', hout, hbytes⟩ := culletPositions_of_empty [1, 2, 3, 4, 5, 6, 7] (a := culletPosition t (s, [])) hq
  have hrange : List.range 8 = 0 :: [1, 2, 3, 4, 5, 6, 7] := rfl
  have hfirst : culletPosition t (s, []) = ((s.culletTake t).1, b) := by simp [culletPosition, hb]
  have hlen : 128 * [1, 2, 3, 4, 5, 6, 7].length = 896 := rfl
  rw [hfirst] at hq' hout hbytes
  rw [culletReadBlock_eq, hrange, List.foldl_cons, hfirst, State.culletHolds_emit, State.emit_out_eq, hout, hbytes, hlen, State.culletTake_out]
  exact ⟨hq', rfl⟩

theorem State.culletHolds_done {s x : State} {t : TileId} {d f : List QItem} (h : x.culletHolds t d f) : (s.done x).culletHolds t d f := by
  unfold State.culletHolds
  rwa [State.done_queue]

/-- Settles O17: what tagging, reading and block-reading do, where their conditions hold. -/
theorem cullet : Obligations.Cullet := by
  refine ⟨fun s t e k x he hx hb hk => ?_, fun s t b r hs hd => ?_, fun s t b hs hd hf => ?_, fun s u t e k he hk => ?_,
    fun s t hs hd hf => ?_, fun s t y hy => ?_⟩
  · have hslot : Tbl.get ((s.onMarver t fun m => { m with stage := ((s.vol t).marver.stage.read 129).q }).vol t).vault.slots 3 = some x := by
      rwa [State.vol_onMarver]
    rw [exec_culletTag, culletTag_of_key he (hk ▸ State.useSlot_of_good hslot hb)]
  · obtain ⟨hq, hb⟩ := State.culletTake_of_cons (s := s) (t := t) (b := b) ⟨hs, hd, rfl⟩
    obtain ⟨-, hdrain, hfill⟩ := State.culletHolds_done (s := s) (x := culletRead t s) hq
    refine ⟨_, exec_culletRead t s, ?_, hdrain, hfill⟩
    rw [State.done_out, culletRead, State.emit_out_eq, State.culletTake_out, hb]
  · obtain ⟨hq, hout⟩ := culletReadBlock_of_single (s := s) (t := t) ⟨hs, hd, hf⟩
    obtain ⟨-, hdrain, hfill⟩ := State.culletHolds_done (s := s) hq
    exact ⟨_, exec_culletReadBlock t s, by rw [State.done_out, hout], hdrain, hfill⟩
  · rw [exec_culletTag, culletTag_of_key he hk]
  · obtain ⟨hq, hb⟩ := State.culletTake_of_empty (s := s) (t := t) ⟨hs, hd, hf⟩
    obtain ⟨-, hdrain, hfill⟩ := State.culletHolds_done (s := s) (x := culletRead t s) hq
    refine ⟨_, exec_culletRead t s, ?_, hdrain, hfill⟩
    rw [State.done_out, culletRead, State.emit_out_eq, State.culletTake_out, hb]
  · rw [exec_culletReadBlock, culletReadBlock_eq, hy]
    rfl

end Sys2Proof.Machine

namespace Sys2Proof.Machine

/-! ### Values of one tile -/

/-- Counting in another entry of the tile. -/
theorem State.rd_bump_place (s : State) (d e : Entry) {t i j k : Nat} (ha : d.area = e.area) (h : d.place j ≠ e.place i) :
    (s.bump e t i k).rd d t j = s.rd d t j := State.rd_bump_ne _ _ _ _ _ _ _ _ (Entry.key_ne_place _ _ _ _ _ ha h)

/-- Writing another entry of the tile. -/
theorem State.rd_wr_place (s : State) (d e : Entry) {t v i j : Nat} (ha : d.area = e.area) (h : d.place j ≠ e.place i) :
    (s.wr e t v i).rd d t j = s.rd d t j := State.rd_wr_ne _ _ _ _ _ _ _ _ (Entry.key_ne_place _ _ _ _ _ ha h)

/-- Writing bytes of another entry of the tile. -/
theorem State.rd_wrB_place (s : State) (d e : Entry) {t a i j : Nat} {b : Bytes} (ha : d.area = e.area) (h : d.place j ≠ e.place i) :
    (s.wrB e t a b i).rd d t j = s.rd d t j := State.rd_wrB_ne _ _ _ _ _ _ _ _ _ (Entry.key_ne_place _ _ _ _ _ ha h)

theorem quiet_marver_cullet_rule : Reg.marver_cullet_rule.quiet 0 = true := by decide

/-! ### What the end of a reading leaves

A reading that ends settles its entry, its frame and its item of a replay; the queues before Marver and before Lehr and the count of refused readings stay. -/

/-- From `s` to `x` the queue before Marver, Lehr and the count of the readings that a rule refused stay as they are. -/
structure ReadingsKept (t : TileId) (s x : State) : Prop where
  inq : (x.vol t).marver.inq = (s.vol t).marver.inq
  lehr : (x.vol t).lehr = (s.vol t).lehr
  refused : x.rd Reg.marver_cullet_rule t = s.rd Reg.marver_cullet_rule t

namespace ReadingsKept
variable {t : TileId} {s x : State}

theorem refl (t : TileId) (s : State) : ReadingsKept t s s := ⟨rfl, rfl, rfl⟩

theorem trans {y : State} (h : ReadingsKept t s x) (k : ReadingsKept t x y) : ReadingsKept t s y :=
  ⟨k.inq.trans h.inq, k.lehr.trans h.lehr, k.refused.trans h.refused⟩

theorem onGather (h : ReadingsKept t s x) (f : Gather → Gather) : ReadingsKept t s (x.onGather t f) :=
  h.trans ⟨by simp, by simp, rfl⟩

theorem onMarver (h : ReadingsKept t s x) (f : Marver → Marver) (hf : ∀ m, (f m).inq = m.inq) : ReadingsKept t s (x.onMarver t f) :=
  h.trans ⟨by simp [hf], by simp, rfl⟩

theorem bump (h : ReadingsKept t s x) (e : Entry) (i k : Nat) (ha : e.area = .tile)
    (hp : Reg.marver_cullet_rule.place 0 ≠ e.place i) : ReadingsKept t s (x.bump e t i k) :=
  h.trans ⟨rfl, rfl, State.rd_bump_place _ _ _ ha.symm hp⟩

theorem wrB (h : ReadingsKept t s x) (e : Entry) (a : Nat) (b : Bytes) (i : Nat) (ha : e.area = .tile)
    (hp : Reg.marver_cullet_rule.place 0 ≠ e.place i) : ReadingsKept t s (x.wrB e t a b i) :=
  h.trans ⟨rfl, rfl, State.rd_wrB_place _ _ _ ha.symm hp⟩

theorem answerFor (h : ReadingsKept t s x) (a : Act) (n : Nat) (st : Status) : ReadingsKept t s (x.answerFor a n st) := h.trans ⟨rfl, rfl, rfl⟩

theorem mirror (h : ReadingsKept t s x) (i : MItem) (n : Nat) : ReadingsKept t s (x.mirror t i n) := h.trans ⟨by simp, by simp, by simp⟩

theorem qWrite (h : ReadingsKept t s x) (c : Fin 7) (q : QItem) : ReadingsKept t s (x.qWrite t c q) :=
  h.trans ⟨by simp, by simp, State.rd_qWrite _ _ _ _ _ _ _ quiet_marver_cullet_rule fun h => absurd h (by decide)⟩

/-- An entry of the staging queue takes no place in the queue before Marver. -/
theorem cullet (h : ReadingsKept t s x) (outcome detail form ruleset ver mask gen : Nat) (body : Bytes) :
    ReadingsKept t s (x.cullet t outcome detail form ruleset ver mask gen body) := by
  unfold State.cullet
  dsimp only
  split
  · exact h.onMarver _ (by intro; rfl)
  · exact (h.onMarver _ (by intro; rfl)).bump _ _ _ (by rfl) (by decide)

theorem settleEnv (h : ReadingsKept t s x) (uid : Nat) : ReadingsKept t s (x.settleEnv t uid) := by
  unfold State.settleEnv
  split
  · split
    · dsimp only
      split
      · exact (((h.onGather _).onGather _).wrB _ _ _ _ (by rfl) (by decide)).answerFor _ _ _
      · exact (h.onGather _).qWrite _ _
    · exact h
  · exact h

theorem endEntry (h : ReadingsKept t s x) (uid entry : Nat) (retry : Bool) : ReadingsKept t s (x.endEntry t uid entry retry) :=
  (h.onGather _).settleEnv _

theorem mirrorWaters (h : ReadingsKept t s x) (midx : Nat) (ic fc : Option (Nat × Nat)) : ReadingsKept t s (x.mirrorWaters t midx ic fc) := by
  unfold State.mirrorWaters
  dsimp only
  split
  · exact h
  · exact h.mirror _ _

theorem endReading (h : ReadingsKept t s x) (fid : Nat) (mark : Option Nat) : ReadingsKept t s (x.endReading t fid mark) := by
  unfold State.endReading
  split
  · dsimp only
    split
    · exact (h.onGather _).onGather _
    · exact (((h.onGather _).onGather _).mirrorWaters _ _ _).endEntry _ _ _
  · exact h

theorem endReplay (h : ReadingsKept t s x) (item : Option Nat) (code : Nat) : ReadingsKept t s (x.endReplay t item code) := by
  unfold State.endReplay
  split
  · dsimp only
    split
    · exact ((h.onMarver _ (by intro; rfl)).wrB _ _ _ _ (by rfl) (by decide)).answerFor _ _ _
    · exact h.onMarver _ (by intro; rfl)
  · exact h

end ReadingsKept

/-! ### Marver's pass (R126, R127) -/

@[simp] theorem State.out_onMarver (s : State) (t : TileId) (f : Marver → Marver) : (s.onMarver t f).out = s.out := rfl

theorem exec_marverPass (t : TileId) (s : State) : exec (.marverPass t) s = .next (s.done (marverPass t s)) := rfl

/-- A rule that applies has one of the 32 indices. -/
theorem JudgeIn.live_lt {j : JudgeIn} {p : Nat × Rule} (h : p ∈ j.live) : p.1 < 32 := by
  unfold JudgeIn.live at h
  exact List.mem_range.1 (List.of_mem_zip (List.mem_of_mem_filter h)).1

/-- So has a rule that fails. -/
theorem judge_fails_lt {j : JudgeIn} {i : Nat} (h : i ∈ (judge j).fails) : i < 32 := by
  have hf : (judge j).fails =
      (((j.live.map fun p => (p, j.eval p.1 p.2)).filter fun x => x.2 == some true).map Prod.fst).map Prod.fst := by
    unfold judge
    dsimp only
    split <;> rfl
  rw [hf] at h
  obtain ⟨p, hp, rfl⟩ := List.mem_map.1 h
  obtain ⟨x, hx, rfl⟩ := List.mem_map.1 hp
  obtain ⟨q, hq, rfl⟩ := List.mem_map.1 (List.mem_of_mem_filter hx)
  exact JudgeIn.live_lt hq

/-- The oldest reading leaves the queue, and what the rules made of it is counted. -/
def State.judged (s : State) (t : TileId) (rest : List Passed) (o : Judged) : State :=
  let s := (s.onMarver t fun m => { m with inq := rest }).bump Reg.marver_readings_in t
  let s := o.fails.foldl (fun s i => s.bump Reg.marver_rule_fails t i) s
  let s := (s.bump Reg.marver_rule_skips t 0 o.skips).bump Reg.marver_fill_refused t 0 o.fillRefused
  (s.bump Reg.marver_spike_edits t 0 o.spikes).bump Reg.marver_rollovers t 0 o.rollovers

/-- Counting the rules that fail leaves everything but the values. -/
theorem countFails_keeps {β : Type} (g : State → β) (h : ∀ x e n i k, g (State.bump x e n i k) = g x) (s : State) (t : TileId) (l : List Nat) :
    g (l.foldl (fun s i => s.bump Reg.marver_rule_fails t i) s) = g s :=
  State.each_keeps g l (fun s i => s.bump Reg.marver_rule_fails t i) s fun _ _ => h _ _ _ _ _

theorem State.judged_vol (s : State) (t : TileId) (rest : List Passed) (o : Judged) :
    (s.judged t rest o).vol t = { s.vol t with marver := { (s.vol t).marver with inq := rest } } := by
  unfold State.judged
  simp [countFails_keeps (fun x => x.vol t) fun _ _ _ _ _ => rfl]

theorem State.judged_out (s : State) (t : TileId) (rest : List Passed) (o : Judged) : (s.judged t rest o).out = s.out := by
  unfold State.judged
  simp [countFails_keeps State.out fun _ _ _ _ _ => rfl]

/-- The readings that a rule refuses are counted apart. -/
theorem State.judged_refused (s : State) (t : TileId) (rest : List Passed) {o : Judged} (h : ∀ i ∈ o.fails, i < 32) :
    (s.judged t rest o).rd Reg.marver_cullet_rule t = s.rd Reg.marver_cullet_rule t := by
  have hfails : ∀ (l : List Nat) (y : State), (∀ i ∈ l, i < 32) →
      ReadingsKept t y (l.foldl (fun s i => s.bump Reg.marver_rule_fails t i) y) := fun l y hl =>
    List.foldlRecOn (motive := fun x => ReadingsKept t y x) l _ (.refl t y) fun x k i hi =>
      k.bump _ _ _ rfl (by have := hl i hi; simp only [Entry.place, Reg.marver_cullet_rule, Reg.marver_rule_fails]; omega)
  have hin := (ReadingsKept.refl t (s.onMarver t fun m => { m with inq := rest })).bump Reg.marver_readings_in 0 1 rfl (by decide)
  have hskips := (hin.trans (hfails o.fails _ h)).bump Reg.marver_rule_skips 0 o.skips rfl (by decide)
  have hfills := hskips.bump Reg.marver_fill_refused 0 o.fillRefused rfl (by decide)
  have hspikes := hfills.bump Reg.marver_spike_edits 0 o.spikes rfl (by decide)
  exact (hspikes.bump Reg.marver_rollovers 0 o.rollovers rfl (by decide)).refused

section
variable {s : State} {t : TileId} {r : Passed} {rest : List Passed}

/-- A reading that is not refused is counted and handed to Lehr as one group. -/
theorem marverPass_accepts (hl : (s.vol t).lehr.stopped = false) (hq : (s.vol t).marver.inq = r :: rest) (ho : (judge (s.judgeIn t r)).outcome ≠ 0x16) :
    ∃ e k g, marverPass t s = (((s.judged t rest (judge (s.judgeIn t r))).bump e t).bump Reg.marver_accept_est t 0 k).onLehr t fun l =>
      { l with inq := l.inq ++ [g] } := by
  unfold marverPass
  rw [hl, hq]
  dsimp only
  rw [if_neg Bool.false_ne_true, if_neg ho]
  split
  · exact ⟨Reg.marver_accept_edit, _, _, rfl⟩
  · exact ⟨Reg.marver_accept, _, _, rfl⟩

/-- A reading that a rule refuses ends in the Cullet queue and is counted. -/
theorem marverPass_refuses (hl : (s.vol t).lehr.stopped = false) (hq : (s.vol t).marver.inq = r :: rest) (ho : (judge (s.judgeIn t r)).outcome = 0x16) :
    ∃ ver mask, marverPass t s =
      ((((s.judged t rest (judge (s.judgeIn t r))).cullet t 0x16 (judge (s.judgeIn t r)).detail 1 r.rule ver mask r.gen (openedBytes r.rd)).bump
        Reg.marver_cullet_rule t).endReading t r.fid none).endReplay t r.replay 2 := by
  unfold marverPass
  rw [hl, hq]
  dsimp only
  rw [if_neg Bool.false_ne_true, if_pos ho]
  exact ⟨_, _, rfl⟩

/-- What a refusal leaves. -/
theorem marverPass_refuses_effect (hl : (s.vol t).lehr.stopped = false) (hq : (s.vol t).marver.inq = r :: rest)
    (ho : (judge (s.judgeIn t r)).outcome = 0x16) (hc : s.rd Reg.marver_cullet_rule t + 1 < Reg.marver_cullet_rule.span) :
    ((marverPass t s).vol t).marver.inq = rest ∧ ((marverPass t s).vol t).lehr = (s.vol t).lehr ∧
      (marverPass t s).rd Reg.marver_cullet_rule t = s.rd Reg.marver_cullet_rule t + 1 := by
  obtain ⟨ver, mask, hpass⟩ := marverPass_refuses hl hq ho
  generalize hj : s.judged t rest (judge (s.judgeIn t r)) = y at hpass
  have hvol : y.vol t = { s.vol t with marver := { (s.vol t).marver with inq := rest } } := hj ▸ State.judged_vol ..
  have hrd : y.rd Reg.marver_cullet_rule t = s.rd Reg.marver_cullet_rule t := hj ▸ State.judged_refused _ _ _ fun _ => judge_fails_lt
  have hkept := (ReadingsKept.refl t y).cullet 0x16 (judge (s.judgeIn t r)).detail 1 r.rule ver mask r.gen (openedBytes r.rd)
  generalize y.cullet t 0x16 (judge (s.judgeIn t r)).detail 1 r.rule ver mask r.gen (openedBytes r.rd) = z at hpass hkept
  have hend := ((ReadingsKept.refl t (z.bump Reg.marver_cullet_rule t)).endReading r.fid none).endReplay r.replay 2
  rw [hpass, hend.inq, hend.lehr, hend.refused, State.vol_bump, hkept.inq, hkept.lehr, hvol,
    State.rd_bump_lt _ _ _ _ (by rwa [hkept.refused, hrd]), hkept.refused, hrd]
  exact ⟨rfl, rfl, rfl⟩

end

/-! ### Rule sets and replay (R119, R143) -/

theorem exec_rulesetCommit (t : TileId) (s : State) :
    exec (.rulesetCommit t) s = .next (s.done (consuming t [Reg.marver_ruleset_stage] (rulesetCommit t) s)) := rfl
theorem exec_marverReplay (t : TileId) (s : State) :
    exec (.marverReplay t) s = .next (s.done (consuming t [Reg.marver_replay_buffer] (marverReplay t) s)) := rfl

@[simp] theorem State.acting_rd (s : State) (a : Act) (f : State → State) (e : Entry) (n i : Nat) :
    (s.acting a f).rd e n i = (f (s.under a)).rd e n i := rfl

theorem quiet_marver_last_result : Reg.marver_last_result.quiet 0 = true := by decide
theorem quiet_marver_last_bad_entry : Reg.marver_last_bad_entry.quiet 0 = true := by decide

/-- The staged rules stand at set `set` of the rule table, its version is raised, and no entry is named bad. -/
def State.takeRules (s : State) (t : TileId) (set : Nat) : State :=
  let y := (s.wr Reg.marver_last_bad_entry t 0xFF).wrBM Reg.marver_rule_table t (512 * set) (s.rdAll Reg.marver_ruleset_stage t)
  y.wrM Reg.marver_ruleset_version t ((y.rd Reg.marver_ruleset_version t set + 1) % 65536) set

theorem State.takeRules_out (s : State) (t : TileId) (set : Nat) : (s.takeRules t set).out = s.out := by simp [State.takeRules]

theorem State.rd_takeRules_badEntry {s : State} {t : TileId} {set : Nat} (hset : set ≤ 63) :
    (s.takeRules t set).rd Reg.marver_last_bad_entry t = 0xFF := by
  have hversion : Reg.marver_last_bad_entry.place 0 ≠ Reg.marver_ruleset_version.place set := by
    simp only [Entry.place, Reg.marver_last_bad_entry, Reg.marver_ruleset_version]; omega
  unfold State.takeRules
  rw [State.rd_wrM_ne _ _ _ _ _ _ _ _ (Entry.key_ne_place Reg.marver_last_bad_entry Reg.marver_ruleset_version _ _ _ rfl hversion),
    State.rd_wrBM_ne _ _ _ _ _ _ _ _ _ (Entry.key_ne_place Reg.marver_last_bad_entry Reg.marver_rule_table _ _ _ rfl (by decide)), State.rd_wr_self]
  rfl

section
variable {s : State} {t : TileId}

/-- A commit of 32 well-formed rules takes them and answers OK. -/
theorem rulesetCommit_accepts {set : Nat} (hv : s.serves t = true) (hsel : s.rd Reg.marver_ruleset_select t = set) (hset : set ≤ 63)
    (hok : ∀ i < 32, (Rule.parse (((s.rdAll Reg.marver_ruleset_stage t).drop (16 * i)).take 16)).ok = true) :
    rulesetCommit t s = ((s.takeRules t set).wr Reg.marver_last_result t Status.ok.code).answer t .ok := by
  have hfind : ((List.range 32).find? fun i => !(Rule.parse (((s.rdAll Reg.marver_ruleset_stage t).drop (16 * i)).take 16)).ok) = none :=
    List.find?_eq_none.2 fun i hi => by simp [hok i (List.mem_range.1 hi)]
  unfold rulesetCommit
  dsimp only
  rw [hv, hsel, hfind, if_neg (by decide), if_neg (by omega)]
  rfl

/-- What it answers and shows as its result. -/
theorem rulesetCommit_accepts_effect {set : Nat} (hv : s.serves t = true) (hsel : s.rd Reg.marver_ruleset_select t = set) (hset : set ≤ 63)
    (hok : ∀ i < 32, (Rule.parse (((s.rdAll Reg.marver_ruleset_stage t).drop (16 * i)).take 16)).ok = true) :
    (rulesetCommit t s).rd Reg.marver_last_result t = 0 ∧ (rulesetCommit t s).rd Reg.marver_last_bad_entry t = 0xFF ∧
      (rulesetCommit t s).out = s.out ++ [.answer t .ok] := by
  rw [rulesetCommit_accepts hv hsel hset hok]
  refine ⟨by simp [Status.code], ?_, by simp [State.takeRules_out]⟩
  rw [State.rd_answer, State.rd_wr_place _ Reg.marver_last_bad_entry Reg.marver_last_result rfl (by decide), State.rd_takeRules_badEntry hset]

/-- A replay of 1 to 64 items that is not refused takes them in turn. -/
theorem marverReplay_accepts {n : Nat} (hv : s.serves t = true) (hr : (s.vol t).marver.replay = none)
    (hn : fld (s.rdAll Reg.marver_replay_buffer t) 0 1 = n) (h1 : 1 ≤ n) (h64 : n ≤ 64) (hz : fld (s.rdAll Reg.marver_replay_buffer t) 1 7 = 0) :
    consuming t [Reg.marver_replay_buffer] (marverReplay t) s =
      consuming t [Reg.marver_replay_buffer] (fun y => ((y.wr Reg.marver_last_result t 0).onMarver t fun m =>
        { m with replay := some { results := List.replicate n none, act := y.acts.now } }).each (List.range n)
          (replayItem t (s.rdAll Reg.marver_replay_buffer t))) s := by
  refine State.acting_congr ?_
  generalize hy : s.under _ = y
  have hv' : y.serves t = true := hy ▸ hv
  have hr' : (y.vol t).marver.replay = none := hy ▸ hr
  have hb : y.rdAll Reg.marver_replay_buffer t = s.rdAll Reg.marver_replay_buffer t := hy ▸ rfl
  unfold marverReplay
  dsimp only
  rw [hv', hr', hb, hn, hz, if_neg (by decide), if_neg (by decide), if_neg (by omega)]

end

/-- Settles O16: what the pass, a commit and a replay do, where their conditions hold. -/
theorem marver : Obligations.Marver := by
  refine ⟨fun s t r rest hl hq ho => ?_, fun s t set hv hsel hset hok => ?_, fun s t n hv hr hn h1 h64 hz => ?_, fun s t r rest hl hq ho hc => ?_⟩
  · obtain ⟨e, k, g, hpass⟩ := marverPass_accepts hl hq ho
    refine ⟨_, exec_marverPass t s, ?_⟩
    rw [State.done_vol, State.done_out, hpass, State.onLehr, State.vol_onVol_self, State.vol_bump, State.vol_bump, State.judged_vol, State.onVol_out,
      State.bump_out, State.bump_out, State.judged_out]
    exact ⟨rfl, by simp, rfl⟩
  · refine ⟨_, exec_rulesetCommit t s, ?_⟩
    rw [State.rd_done _ _ _ _ _ quiet_marver_last_result, State.rd_done _ _ _ _ _ quiet_marver_last_bad_entry, State.done_out, consuming, State.acting_rd,
      State.acting_rd, State.acting_out]
    exact rulesetCommit_accepts_effect (s := s.under _) hv hsel hset hok
  · rw [exec_marverReplay, marverReplay_accepts hv hr hn h1 h64 hz]
  · obtain ⟨hin, hlehr, hcount⟩ := marverPass_refuses_effect hl hq ho hc
    exact ⟨_, exec_marverPass t s, by rw [State.done_vol, hin], by rw [State.done_vol, hlehr],
      by rw [State.rd_done _ _ _ _ _ quiet_marver_cullet_rule, hcount]⟩

end Sys2Proof.Machine

namespace Sys2Proof.Machine

/-! ### The metrology as a part of a tile -/

@[simp] theorem State.vol_onMetro (s : State) (t : TileId) (f : Metro → Metro) :
    (s.onMetro t f).vol t = { s.vol t with metro := f (s.vol t).metro } := State.vol_onVol_self ..

@[simp] theorem State.metro_onMetro (s : State) (t : TileId) (f : Metro → Metro) : (s.onMetro t f).metro t = f (s.metro t) := by
  simp [State.metro]

@[simp] theorem State.metro_wr (s : State) (e : Entry) (n v i : Nat) (t : TileId) : (s.wr e n v i).metro t = s.metro t := rfl
@[simp] theorem State.metro_bump (s : State) (e : Entry) (n i k : Nat) (t : TileId) : (s.bump e n i k).metro t = s.metro t := rfl
@[simp] theorem State.metro_mirror (s : State) (t u : TileId) (x : MItem) (n : Nat) : (s.mirror t x n).metro u = s.metro u := by simp [State.metro]
@[simp] theorem State.metro_done (s x : State) (t : TileId) : (s.done x).metro t = x.metro t := by simp [State.metro]
@[simp] theorem State.out_onMetro (s : State) (t : TileId) (f : Metro → Metro) : (s.onMetro t f).out = s.out := rfl
@[simp] theorem State.regs_onMetro (s : State) (t : TileId) (f : Metro → Metro) : (s.onMetro t f).regs = s.regs := rfl
@[simp] theorem State.rd_onMetro (s : State) (t : TileId) (f : Metro → Metro) (e : Entry) (n i : Nat) : (s.onMetro t f).rd e n i = s.rd e n i := rfl

theorem Tile.addGap_vol (x : Tile) (a b : Nat) : (x.addGap a b).vol = x.vol := by
  unfold Tile.addGap
  split <;> rfl

theorem Tile.putLegal_vol (x : Tile) (l : List Nat) (endNs : Nat) (both : Bool) : (x.putLegal l endNs both).vol = x.vol := by
  unfold Tile.putLegal
  dsimp only
  split
  · rfl
  · split <;> rfl

theorem Tile.putLegal_power (x : Tile) (l : List Nat) (endNs : Nat) (both : Bool) : (x.putLegal l endNs both).power = x.power := by
  unfold Tile.putLegal
  dsimp only
  split
  · rfl
  · split <;> rfl

/-! ### What the followers of a block and of a synchronising reset leave

Energies, the legal log, the book intervals, the module and the relays change no count of blocks, no sums of the newest block, no order of a reset and not the
count of resets. -/

/-- The number of blocks, the sums of the newest one, and since when a synchronising reset is ordered. -/
def Vol.measured (v : Vol) : Nat × List Int × List Int × Option Nat := (v.metro.blk, v.metro.lastP, v.metro.lastQ, v.syncWanted)

/-- From `s` to `x` what the newest block gave, the order of a synchronising reset and the count of these resets stay. -/
structure MeasureKept (t : TileId) (s x : State) : Prop where
  vol : (x.vol t).measured = (s.vol t).measured
  resyncs : x.rd Reg.metro_resyncs t = s.rd Reg.metro_resyncs t

theorem quiet_metro_resyncs : Reg.metro_resyncs.quiet 0 = true := by decide

namespace MeasureKept
variable {t : TileId} {s x : State}

theorem refl (t : TileId) (s : State) : MeasureKept t s s := ⟨rfl, rfl⟩

theorem trans {y : State} (h : MeasureKept t s x) (k : MeasureKept t x y) : MeasureKept t s y := ⟨k.vol.trans h.vol, k.resyncs.trans h.resyncs⟩

theorem blk (h : MeasureKept t s x) : (x.metro t).blk = (s.metro t).blk := (congrArg Prod.fst h.vol :)
theorem lastP (h : MeasureKept t s x) : (x.metro t).lastP = (s.metro t).lastP := (congrArg (fun p => p.2.1) h.vol :)
theorem lastQ (h : MeasureKept t s x) : (x.metro t).lastQ = (s.metro t).lastQ := (congrArg (fun p => p.2.2.1) h.vol :)
theorem wanted (h : MeasureKept t s x) : (x.vol t).syncWanted = (s.vol t).syncWanted := (congrArg (fun p => p.2.2.2) h.vol :)

theorem onVol (h : MeasureKept t s x) (f : Vol → Vol) (hf : ∀ v, (f v).measured = v.measured) : MeasureKept t s (x.onVol t f) :=
  h.trans ⟨by rw [State.vol_onVol_self, hf], rfl⟩

theorem onMetro (h : MeasureKept t s x) (f : Metro → Metro) (hf : ∀ m, (f m).blk = m.blk ∧ (f m).lastP = m.lastP ∧ (f m).lastQ = m.lastQ) :
    MeasureKept t s (x.onMetro t f) := h.onVol _ fun v => by simp [Vol.measured, hf]

theorem onTile (h : MeasureKept t s x) (f : Tile → Tile) (hf : ∀ y, (f y).vol = y.vol) : MeasureKept t s (x.onTile t f) :=
  h.trans ⟨by rw [State.vol_onTile_self, hf]; rfl, rfl⟩

theorem emit (h : MeasureKept t s x) (o : Out) : MeasureKept t s (x.emit o) := h.trans ⟨rfl, rfl⟩

theorem wr (h : MeasureKept t s x) (e : Entry) (v i : Nat) (ha : e.area = .tile)
    (hp : Reg.metro_resyncs.place 0 ≠ e.place i) : MeasureKept t s (x.wr e t v i) :=
  h.trans ⟨rfl, State.rd_wr_place _ _ _ ha.symm hp⟩

theorem bump (h : MeasureKept t s x) (e : Entry) (i k : Nat) (ha : e.area = .tile)
    (hp : Reg.metro_resyncs.place 0 ≠ e.place i) : MeasureKept t s (x.bump e t i k) := h.wr e _ i ha hp

theorem bumpBay (h : MeasureKept t s x) (e : Entry) (b : BayId) (i k : Nat) (ha : e.area = .bay)
    (hp : e.place i < 0x100 * 256) : MeasureKept t s (x.bump e b i k) :=
  h.trans ⟨rfl, State.rd_bump_ne _ _ _ _ _ _ _ _ (Entry.key_ne_tile_bay _ _ _ _ _ _ rfl ha b.isLt hp)⟩

theorem mirror (h : MeasureKept t s x) (i : MItem) (n : Nat) : MeasureKept t s (x.mirror t i n) := h.trans ⟨by simp, by simp⟩

theorem event (h : MeasureKept t s x) (sev code obj a b : Nat) : MeasureKept t s (x.event t sev code obj a b) :=
  h.trans ⟨by simp [Vol.measured], State.rd_event _ _ _ _ _ _ _ _ _ _ quiet_metro_resyncs fun h => absurd h (by decide)⟩

theorem ite {c : Prop} [Decidable c] {y : State} (h : MeasureKept t s x) (k : MeasureKept t s y) : MeasureKept t s (if c then x else y) := by
  split
  · exact h
  · exact k

/-- A step that keeps the measurements, taken for each element of a list. -/
theorem foldl {α : Type} (h : MeasureKept t s x) (l : List α) (f : State → α → State) (hf : ∀ y a, MeasureKept t s y → MeasureKept t s (f y a)) :
    MeasureKept t s (l.foldl f x) := List.foldlRecOn (motive := MeasureKept t s) l f h fun y k a _ => hf y a k

theorem each {α : Type} (h : MeasureKept t s x) (l : List α) (f : State → α → State) (hf : ∀ y a, MeasureKept t s y → MeasureKept t s (f y a)) :
    MeasureKept t s (x.each l f) := h.foldl l f hf

/-! Meter records (R69) and the vault's general slots (R464, R466) -/

theorem fieldsMeter (h : MeasureKept t s x) (slot : Nat) (f : MeterRec → MeterRec) (op : JOp) : MeasureKept t s (x.fieldsMeter t slot f op) :=
  ((h.onVol _ (by intro; rfl)).onVol _ (by intro; rfl)).mirror _ _

theorem latchLocal (h : MeasureKept t s x) (k : Nat) : MeasureKept t s (x.latchLocal t k) := by
  unfold State.latchLocal State.latchFlag
  split
  · split
    · exact h
    · exact h.fieldsMeter _ _ _
  · exact h

theorem setSlot (h : MeasureKept t s x) (n : Nat) (key : Bytes) : MeasureKept t s (x.setSlot t n key) := by
  unfold State.setSlot State.onVault
  exact h.onVol _ (by intro; rfl)

theorem deriveSlots (h : MeasureKept t s x) : MeasureKept t s (x.deriveSlots t) := by
  have fromTile (a b c d : Bytes) := (((h.setSlot 0 a).setSlot 1 b).setSlot 4 c).setSlot 5 d
  unfold State.deriveSlots
  dsimp only
  cases (x.vol t).vault.tileKek with
  | none =>
    cases (x.vol t).vault.bayKek with
    | none => exact h
    | some b => exact (h.setSlot _ _).setSlot _ _
  | some k =>
    cases (x.vol t).vault.bayKek with
    | none => exact fromTile _ _ _ _
    | some b => exact ((fromTile _ _ _ _).setSlot _ _).setSlot _ _

theorem loadSlot (h : MeasureKept t s x) (n place : Nat) : MeasureKept t s (x.loadSlot t n place) := by
  unfold State.loadSlot
  split
  · exact (h.bump _ _ _ (by rfl) (by decide)).setSlot _ _
  · exact h.onVol _ (by intro; rfl)

theorem refillSlot (h : MeasureKept t s x) (n : Nat) : MeasureKept t s (x.refillSlot t n) := by
  unfold State.refillSlot
  split
  · exact h.deriveSlots
  · split
    · split
      · exact h.loadSlot _ _
      · exact h
    · split
      · exact h.onVol _ (by intro; rfl)
      · exact h.loadSlot _ _

theorem useSlot (h : MeasureKept t s x) (n : Nat) : MeasureKept t s (x.useSlot t n).1 := by
  unfold State.useSlot
  split
  · split
    · exact ((h.bump _ _ _ (by rfl) (by decide)).event _ _ _ _ _).refillSlot _
    · exact h
  · exact h

theorem legalLog (h : MeasureKept t s x) (code : Nat) (data : Bytes) : MeasureKept t s (x.legalLog t code data) := by
  unfold State.legalLog
  split
  · exact (h.bump _ _ _ (by rfl) (by decide)).latchLocal _
  · exact ((h.useSlot 5).onTile _ (by intro; rfl)).wr _ _ _ (by rfl) (by decide)

/-! The legal registers and the book intervals (R233 to R235) -/

theorem useRegs (h : MeasureKept t s x) (l : List Nat) (endNs : Nat) : MeasureKept t s (x.useRegs t l endNs) := by
  unfold State.useRegs
  exact (h.foldl _ _ fun _ i k =>
    k.wr Reg.metro_legal_regs _ i rfl (by simp only [Entry.place, Reg.metro_resyncs, Reg.metro_legal_regs]; omega)).onTile _ (by intro; rfl)

theorem setLegalRegs (h : MeasureKept t s x) (l : List Nat) (endNs : Nat) (both : Bool) : MeasureKept t s (x.setLegalRegs t l endNs both) :=
  (h.useRegs _ _).onTile _ fun _ => Tile.putLegal_vol _ _ _ _

theorem accumulate (h : MeasureKept t s x) (p q : List Int) (k : Int) (endNs : Nat) : MeasureKept t s (x.accumulate t p q k endNs) :=
  (h.onMetro _ (by intro; exact ⟨rfl, rfl, rfl⟩)).setLegalRegs _ _ _

theorem addGap (h : MeasureKept t s x) (a b : Nat) : MeasureKept t s (x.onTile t fun y => y.addGap a b) := h.onTile _ fun _ => Tile.addGap_vol _ _ _

theorem deliverHead (h : MeasureKept t s x) (T b : Nat) : MeasureKept t s (x.deliverHead t T b) := by
  unfold State.deliverHead State.onBal
  exact (h.onTile _ (by intro; rfl)).onVol _ (by intro; rfl)

theorem deliverMissed (h : MeasureKept t s x) (a b : Nat) : MeasureKept t s (x.deliverMissed t a b) := h.foldl _ _ fun _ _ k => k.deliverHead _ _

theorem markRegs (h : MeasureKept t s x) (sec : Nat) : MeasureKept t s (x.markRegs t sec) := h.onMetro _ (by intro; exact ⟨rfl, rfl, rfl⟩)

theorem sensorInit (h : MeasureKept t s x) : MeasureKept t s (x.sensorInit t) := by
  unfold State.sensorInit
  refine h.each _ _ fun y i k => ?_
  dsimp only
  split
  · exact k
  · exact k.each _ _ fun z j k' => k'.emit _

theorem legalMended (h : MeasureKept t s x) (k : Nat) : MeasureKept t s (x.legalMended t k) := by
  unfold State.legalMended
  dsimp only
  split
  · split
    · exact ((h.onTile _ (by intro; rfl)).onMetro _ (by intro; exact ⟨rfl, rfl, rfl⟩)).wr _ _ _ (by rfl) (by decide)
    · exact (h.onTile _ (by intro; rfl)).onMetro _ (by intro; exact ⟨rfl, rfl, rfl⟩)
  · exact h

theorem takeModule (h : MeasureKept t s x) : MeasureKept t s (x.takeModule t) := ((h.onVol _ (by intro; rfl)).onTile _ (by intro; rfl)).legalMended _

/-! The local relays (R249 to R252) -/

theorem onRelay (h : MeasureKept t s x) (k : Fin 2) (f : Relay → Relay) : MeasureKept t s (x.onRelay t k f) := h.onMetro _ (by intro; exact ⟨rfl, rfl, rfl⟩)

theorem drivePair (h : MeasureKept t s x) (k : Fin 2) (d : Nat) : MeasureKept t s (x.drivePair t k d) := by
  unfold State.drivePair
  exact h.onVol _ (by intro; rfl)

theorem tryPulse (h : MeasureKept t s x) (k : Fin 2) : MeasureKept t s (x.tryPulse t k) := by
  unfold State.tryPulse
  exact ite h (ite (ite h ((h.onRelay _ _).bumpBay Reg.bay_energy_budget_holds _ 0 1 (by rfl) (by decide))) ((h.onRelay _ _).drivePair _ _))

theorem relayStore (h : MeasureKept t s x) (k : Fin 2) (c : Nat) : MeasureKept t s (x.relayStore t k c) := by
  have stored := (h.wr Reg.metro_relay_state (c + 1) k rfl (by simp only [Entry.place, Reg.metro_resyncs, Reg.metro_relay_state]; omega)).mirror
    (.localRelay ((x.wr Reg.metro_relay_state t (c + 1) k).rd Reg.metro_relay_state t 0) ((x.wr Reg.metro_relay_state t (c + 1) k).rd Reg.metro_relay_state t 1)) 0
  unfold State.relayStore
  dsimp only
  split
  · split
    · exact stored.fieldsMeter _ _ _
    · exact stored
  · exact stored

theorem relaySequence (h : MeasureKept t s x) (k : Fin 2) (c : Nat) : MeasureKept t s (x.relaySequence t k c) := by
  unfold State.relaySequence
  exact ((h.relayStore k c).onRelay _ _).tryPulse _

theorem relayTake (h : MeasureKept t s x) (k : Fin 2) (c : Nat) : MeasureKept t s (x.relayTake t k c) := by
  unfold State.relayTake
  split
  · exact h.onRelay _ _
  · exact h.relaySequence _ _

theorem relayReport (h : MeasureKept t s x) (k : Fin 2) (c : Nat) : MeasureKept t s (x.relayReport t k c) := by
  unfold State.relayReport
  dsimp only
  split
  · split
    · exact (h.onRelay _ _).fieldsMeter _ _ _
    · exact h.onRelay _ _
  · exact h.onRelay _ _

theorem relayNext (h : MeasureKept t s x) (k : Fin 2) : MeasureKept t s (x.relayNext t k) := by
  unfold State.relayNext
  split
  · exact (h.onRelay _ _).relayTake _ _
  · exact h

theorem relayJudge (h : MeasureKept t s x) (k : Fin 2) : MeasureKept t s (x.relayJudge t k) := by
  unfold State.relayJudge
  dsimp only
  split
  · exact h
  · split
    · split
      · exact ((h.relayReport _ _).onRelay _ _).relayNext _
      · exact h
    · split
      · split
        · exact (((h.relayReport _ _).onRelay _ _).event _ _ _ _ _).relayNext _
        · exact h
      · split
        · exact h.onRelay _ _
        · exact h

theorem relayStart (h : MeasureKept t s x) (k : Fin 2) : MeasureKept t s (x.relayStart t k) := by
  unfold State.relayStart
  split
  · split
    · exact ((h.relayReport _ _).onRelay _ _).relayNext _
    · exact h.relaySequence _ _
  · split
    · exact ((h.relayStore _ _).relayReport _ _).relayNext _
    · exact h.relayNext _

theorem bothRelays (h : MeasureKept t s x) (f : State → Fin 2 → State) (hf : ∀ y k, MeasureKept t s y → MeasureKept t s (f y k)) :
    MeasureKept t s (x.bothRelays f) := hf _ _ (hf _ _ h)

end MeasureKept

end Sys2Proof.Machine

namespace Sys2Proof.Machine

open Crypto

/-! ### A synchronising reset (R226 to R229) -/

theorem exec_metroResync (t : TileId) (s : State) : exec (.metroResync t) s = .next (s.done (metroResync t s)) := rfl
theorem exec_syncReset (t : TileId) (sec : Nat) (s : State) : exec (.syncReset t sec) s = .next (s.done (syncReset t sec s)) := rfl

theorem quiet_metro_state : Reg.metro_state.quiet 0 = true := by decide
theorem quiet_metro_legal_regs {i : Nat} (h : i < 12) : Reg.metro_legal_regs.quiet i = true :=
  Entry.quiet_fin (n := 12) (e := Reg.metro_legal_regs) (by decide) ⟨i, h⟩

/-- The order of a reset while the metrology stands still and none is ordered. -/
theorem metroResync_orders {s : State} {t : TileId} (hw : (s.vol t).syncWanted = none) (hr : (s.metro t).run = false) :
    metroResync t s = (s.onVol t fun v => { v with syncWanted := some s.now }).answer t .ok := by
  have hr' : (s.vol t).metro.run = false := hr
  unfold metroResync State.askSync
  dsimp only
  rw [if_neg (by simp [hw, hr'])]

/-- Blocks before the reset show the energy that its SETTLE samples hold (R228). -/
def Metro.bridges (m : Metro) : Bool := m.run && decide (2 ≤ m.blk)

/-- The metrology starts behind a stretch that the legal registers do not hold (R229). -/
def State.startsLate (s : State) (t : TileId) : Bool :=
  !(s.metro t).run && decide (0 < (s.tile t).legalEnd) && decide ((s.tile t).legalEnd < s.timeSec t * 1000000000)

/-- The order is met: the energy of the SETTLE samples is bridged, and a stretch that is lost is counted and logged. -/
def State.syncBridged (s : State) (t : TileId) : State :=
  let y := s.onVol t fun v => { v with syncWanted := none }
  let y := if (s.metro t).bridges then y.accumulate t (s.metro t).lastP (s.metro t).lastQ 35 (s.timeSec t * 1000000000) else y
  if s.startsLate t then
    let ms := (s.timeSec t * 1000000000 - (s.tile t).legalEnd) / 1000000
    (y.bump Reg.metro_unmeasured_ms t 0 ms).legalLog t 0x05 (time80 (s.tile t).legalEnd ++ natLE 6 ms)
  else y

/-- A metrology that starts at second `sec` shows the stretch since `from_` as unmeasured, delivers the book intervals that it lost, and begins the one that
runs. -/
def State.measuringBegun (s : State) (t : TileId) (from_ sec : Nat) (lost : Bool) : State :=
  let start := s.bookStart t sec
  let y := s.onTile t fun x => x.addGap from_ (sec * 1000000000)
  let y := if lost then y.deliverMissed t from_ (sec * 1000000000) else y
  let y := if (y.tile t).bookBase.1 = start then y
    else (y.onTile t fun x => x.addGap (start * 1000000000) (min from_ (sec * 1000000000))).onTile t fun x =>
      { x with bookBase := (start, netOf (y.legalRegs t)) }
  y.sensorInit t

/-- The blocks count anew from second `sec` on, which begins at clock count `begins`, under the calibration as stored; before, the metrology was `o`. -/
def State.blocksAnew (s : State) (t : TileId) (o : Metro) (sec : Nat) (begins : Int) : State :=
  let cal := s.rdAll Reg.metro_cal_block t
  let y := s.onMetro t fun m =>
    { m with run := true, sync := sec, blk := 0, cal := cal, hold := !o.bridges, slips := 0, syncNow := begins
             settles := keepLast 256 (m.settles ++ [sec]) }
  let y := if o.run then y else (y.onMetro t fun m => { m with since := sec }).markRegs t sec
  (y.bump Reg.metro_resyncs t).wr Reg.metro_state t 1

/-- The state in which the blocks of a synchronising reset begin. -/
def State.syncReady (s : State) (t : TileId) : State :=
  if (s.metro t).run then s.syncBridged t else (s.syncBridged t).measuringBegun t (s.tile t).legalEnd (s.timeSec t) (s.startsLate t)

theorem State.syncBridged_kept (s : State) (t : TileId) : MeasureKept t (s.onVol t fun v => { v with syncWanted := none }) (s.syncBridged t) := by
  have bridged : MeasureKept t (s.onVol t fun v => { v with syncWanted := none })
      (if (s.metro t).bridges then (s.onVol t fun v => { v with syncWanted := none }).accumulate t (s.metro t).lastP (s.metro t).lastQ 35
        (s.timeSec t * 1000000000) else s.onVol t fun v => { v with syncWanted := none }) := .ite ((MeasureKept.refl ..).accumulate ..) (.refl ..)
  exact .ite ((bridged.bump _ _ _ (by rfl) (by decide)).legalLog _ _) bridged

theorem MeasureKept.measuringBegun {t : TileId} {s x : State} (h : MeasureKept t s x) (from_ sec : Nat) (lost : Bool) :
    MeasureKept t s (x.measuringBegun t from_ sec lost) := by
  have missed : MeasureKept t s (if lost then (x.onTile t fun y => y.addGap from_ (sec * 1000000000)).deliverMissed t from_ (sec * 1000000000)
      else x.onTile t fun y => y.addGap from_ (sec * 1000000000)) := .ite ((h.addGap _ _).deliverMissed _ _) (h.addGap _ _)
  unfold State.measuringBegun
  exact (MeasureKept.ite missed ((missed.addGap _ _).onTile _ (by intro; rfl))).sensorInit

theorem State.syncReady_kept (s : State) (t : TileId) : MeasureKept t (s.onVol t fun v => { v with syncWanted := none }) (s.syncReady t) :=
  .ite (s.syncBridged_kept t) ((s.syncBridged_kept t).measuringBegun _ _ _)

/-- The INIT writes of the sensors change no value. -/
theorem State.sensorInit_regs (s : State) (t : TileId) : (s.sensorInit t).regs = s.regs :=
  State.each_keeps State.regs _ _ _ fun y i => by
    dsimp only
    split
    · rfl
    · exact State.each_keeps State.regs _ _ _ fun _ _ => rfl

/-- A first start, without a block before it, changes no value. -/
theorem State.syncReady_regs {s : State} {t : TileId} (hr : (s.metro t).run = false) (hl : (s.tile t).legalEnd = 0) : (s.syncReady t).regs = s.regs := by
  have hlate : s.startsLate t = false := by simp [State.startsLate, hl]
  have hbridges : (s.metro t).bridges = false := by simp [Metro.bridges, hr]
  have hbridged : s.syncBridged t = s.onVol t fun v => { v with syncWanted := none } := by simp [State.syncBridged, hlate, hbridges]
  unfold State.syncReady State.measuringBegun
  rw [hr, hlate, hbridged, if_neg Bool.false_ne_true]
  dsimp only
  rw [State.sensorInit_regs, if_neg Bool.false_ne_true]
  split <;> rfl

/-- At the second that is due, a tile that may measure takes the reset. -/
theorem syncReset_due {s : State} {t : TileId} {w : Nat} (hw : (s.vol t).syncWanted = some w) (hm : s.metroOn t = true)
    (hd : (w : Int) + 1000000 ≤ s.now - (s.timeNs t - s.timeSec t * 1000000000)) :
    syncReset t (s.timeSec t) s =
      (s.syncReady t).blocksAnew t (s.metro t) (s.timeSec t) (s.now - (s.timeNs t - s.timeSec t * 1000000000)) := by
  unfold syncReset
  exact (if_neg (by simp [hw, hm, hd])).trans rfl

section
variable (s : State) (t : TileId) (o : Metro) (sec : Nat) (begins : Int)

theorem State.blocksAnew_metro :
    ((s.blocksAnew t o sec begins).metro t).run = true ∧ ((s.blocksAnew t o sec begins).metro t).sync = sec ∧
      ((s.blocksAnew t o sec begins).metro t).blk = 0 := by
  unfold State.blocksAnew
  dsimp only
  rw [State.metro_wr, State.metro_bump]
  split <;> simp [State.markRegs]

theorem State.blocksAnew_wanted : ((s.blocksAnew t o sec begins).vol t).syncWanted = (s.vol t).syncWanted := by
  unfold State.blocksAnew
  dsimp only
  rw [State.vol_wr, State.vol_bump]
  split <;> simp [State.markRegs]

/-- Of the values it changes the state of the metrology and the count of resets. -/
theorem State.rd_blocksAnew {d : Entry} {j : Nat} (ha : d.area = .tile) (hs : d.place j ≠ Reg.metro_state.place 0)
    (hr : d.place j ≠ Reg.metro_resyncs.place 0) : (s.blocksAnew t o sec begins).rd d t j = s.rd d t j := by
  unfold State.blocksAnew
  dsimp only
  rw [State.rd_wr_place _ d Reg.metro_state ha hs, State.rd_bump_place _ d Reg.metro_resyncs ha hr]
  split <;> rfl

theorem State.rd_blocksAnew_state : (s.blocksAnew t o sec begins).rd Reg.metro_state t = 1 := State.rd_wr_self ..

theorem State.rd_blocksAnew_resyncs (h : s.rd Reg.metro_resyncs t + 1 < Reg.metro_resyncs.span) :
    (s.blocksAnew t o sec begins).rd Reg.metro_resyncs t = s.rd Reg.metro_resyncs t + 1 := by
  have hb : ∀ y : State, y.regs = s.regs → (y.bump Reg.metro_resyncs t).rd Reg.metro_resyncs t = s.rd Reg.metro_resyncs t + 1 := fun y hy => by
    have hrd : y.rd Reg.metro_resyncs t = s.rd Reg.metro_resyncs t := by unfold State.rd; rw [hy]
    rw [State.rd_bump_lt _ _ _ _ (by rwa [hrd]), hrd]
  unfold State.blocksAnew
  dsimp only
  rw [State.rd_wr_place _ Reg.metro_resyncs Reg.metro_state rfl (by decide)]
  refine hb _ ?_
  split <;> rfl

end

/-- What a reset that is due sets. -/
theorem syncReset_due_effect {s : State} {t : TileId} {w : Nat} (hw : (s.vol t).syncWanted = some w) (hm : s.metroOn t = true)
    (hd : (w : Int) + 1000000 ≤ s.now - (s.timeNs t - s.timeSec t * 1000000000)) (hc : s.rd Reg.metro_resyncs t + 1 < Reg.metro_resyncs.span) :
    ∃ x, exec (.syncReset t (s.timeSec t)) s = .next x ∧ (x.metro t).run = true ∧ (x.metro t).sync = s.timeSec t ∧ (x.metro t).blk = 0 ∧
      (x.vol t).syncWanted = none ∧ x.rd Reg.metro_state t = 1 ∧ x.rd Reg.metro_resyncs t = s.rd Reg.metro_resyncs t + 1 ∧
      ∀ i < 12, x.rd Reg.metro_legal_regs t i = (s.syncReady t).rd Reg.metro_legal_regs t i := by
  have hkept := s.syncReady_kept t
  have hresyncs : (s.syncReady t).rd Reg.metro_resyncs t = s.rd Reg.metro_resyncs t := hkept.resyncs
  have hwanted : ((s.syncReady t).vol t).syncWanted = none := hkept.wanted.trans (by rw [State.vol_onVol_self])
  refine ⟨_, exec_syncReset t _ s, ?_⟩
  rw [syncReset_due hw hm hd, State.metro_done, State.done_vol, State.rd_done _ _ _ _ _ quiet_metro_state, State.rd_done _ _ _ _ _ quiet_metro_resyncs,
    State.blocksAnew_wanted, State.rd_blocksAnew_state, State.rd_blocksAnew_resyncs _ _ _ _ _ (by rwa [hresyncs]), hresyncs]
  obtain ⟨hrun, hsync, hblk⟩ := (s.syncReady t).blocksAnew_metro t (s.metro t) (s.timeSec t) (s.now - (s.timeNs t - s.timeSec t * 1000000000))
  refine ⟨hrun, hsync, hblk, hwanted, rfl, rfl, fun i hi => ?_⟩
  rw [State.rd_done _ _ _ _ _ (quiet_metro_legal_regs hi)]
  refine State.rd_blocksAnew _ _ _ _ _ rfl ?_ ?_ <;> simp only [Entry.place, Reg.metro_legal_regs, Reg.metro_state, Reg.metro_resyncs] <;> omega

end Sys2Proof.Machine

namespace Sys2Proof.Machine

/-! ### The end of a block (R223, R227, R230, R231) -/

theorem exec_blockEnd (t : TileId) (v1 v2 v3 i1 i2 i3 : List Int) (inVx : List Int × List Int) (s : State) :
    exec (.blockEnd t v1 v2 v3 i1 i2 i3 inVx) s = .next (s.done (blockEnd t [v1, v2, v3, i1, i2, i3, inVx.1, inVx.2] s)) := rfl

/-- The SETTLE samples of the next block, which enter nothing (R227). -/
def Metro.settling (m : Metro) : Nat := if m.blk = 0 then 35 else 0

/-- Sums by phase without the phases whose current stays below its starting current over the `n` samples from `skip` on (R231). -/
def Block.driven (x : Block) (skip n : Nat) (l : List Int) : List Int :=
  List.zipWith (fun (o : Bool) v => if o then 0 else v) ((List.range 3).map fun i => quiet (x.square (3 + i) skip n) n) l

/-- The metrology `m` with the samples of block `x` taken; before the block it was `o`. -/
def Metro.takeBlock (o : Metro) (x : Block) (m : Metro) : Metro :=
  let skip := o.settling
  let n := 1024 - skip
  let sq := (List.range 8).map fun c => x.square c skip n * x.scale c * x.scale c
  { m with
    blk := m.blk + 1, remP := x.driven skip n m.remP, remQ := x.driven skip n m.remQ, lastP := x.active skip n, lastQ := x.reactive skip n
    secP := addI m.secP (x.active skip n), secQ := addI m.secQ (x.reactive skip n), secSq := List.zipWith (· + ·) m.secSq sq
    secV1 := m.secV1 + x.square 0 skip n, secN := m.secN + n
    zeros := (m.zeros.1.block (o.blk % 8 * 125000000) skip (x.run 0 0 1024), m.zeros.2.block (o.blk % 8 * 125000000) skip (x.run 1 0 1024))
    vx := rmsOf (sq.getD 7 0) n, volts := (sq.take 3).map fun v => rmsOf v n }

/-- The energies of block `x`, which ends at `e` ns, and held ones that are due go to the legal registers (R228, R231). -/
def State.blockEnergies (s : State) (t : TileId) (o : Metro) (x : Block) (e : Nat) : State :=
  let skip := o.settling
  let n := 1024 - skip
  let y := s.accumulate t (x.driven skip n (x.active skip n)) (x.driven skip n (x.reactive skip n)) 1024 e
  if o.hold && decide (o.blk = 1) then
    (y.accumulate t (addI o.lastP (x.active 0 35)) (addI o.lastQ (x.reactive 0 35)) 35 e).onMetro t fun m => { m with hold := false }
  else y

/-- Overloads are counted, a first block gives the state of the metrology, and the registers enter the mirror stream. -/
def State.blockShown (s : State) (t : TileId) (o : Metro) (x : Block) (e : Nat) : State :=
  let y := s.bump Reg.metro_overloads t 0 x.overs
  let y := if o.blk = 0 then y.wr Reg.metro_state t (if fld o.cal 1 1 = 1 then 2 else 3) else y
  y.mirror t (.legalRegs 0 (y.legalRegs t) e)

/-- An installed module takes over; a book interval that ends with the block is delivered, and the registers of a minute are kept. -/
def State.blockCloses (s : State) (t : TileId) (e : Nat) : State :=
  let y := if (s.vol t).modDue then s.takeModule t else s
  let T := e / 1000000000
  let y := (if e % 1000000000 = 0 then y.headGrid t T else none).elim y fun b => y.deliverHead t T b
  if e % 1000000000 = 0 ∧ onGrid (y.rd Reg.gather_grid_phase t) 60 T = true then y.markRegs t T else y

/-- The relays are judged, or start once the field outputs are driven (R252). -/
def State.blockRelays (s : State) (t : TileId) (judged : Bool) : State :=
  if judged then (s.bothRelays fun s k => s.relayJudge t k).bothRelays fun s k => s.tryPulse t k
  else if (s.fieldPin t).isSome then
    (s.onMetro t fun m => { m with judged := true }).bothRelays fun s k => s.relayStart t k
  else s

/-- A block of a metrology that measures: its samples, its energies, what it shows, what it closes, and the relays. -/
theorem blockEnd_measures {s : State} {t : TileId} (codes : List (List Int)) {y : State} (hr : (s.metro t).run = true) (hm : s.metroOn t = true)
    (hy : y = s.onMetro t ((s.metro t).takeBlock (blockOf (s.metro t).cal codes))) :
    blockEnd t codes s =
      (((y.blockEnergies t (s.metro t) (blockOf (s.metro t).cal codes) (y.metro t).blockEnd).blockShown t (s.metro t)
        (blockOf (s.metro t).cal codes) (y.metro t).blockEnd).blockCloses t (y.metro t).blockEnd).blockRelays t (s.metro t).judged := by
  subst hy
  unfold blockEnd
  refine (if_neg (by simp [hr, hm])).trans ?_
  extract_lets x skip n p q sq off live due at_ held y e y1 y2 y3 y4 y5 y6 T y7 y8
  have hclosed : y7 = (if e % 1000000000 = 0 then y6.headGrid t T else none).elim y6 fun b => y6.deliverHead t T b := by
    unfold y7
    cases (if e % 1000000000 = 0 then y6.headGrid t T else none) with
    | none => rfl
    | some b => rfl
  have hcloses : y8 = y5.blockCloses t e := by
    unfold y8
    rw [hclosed]
    rfl
  have henergies : y2 = y.blockEnergies t (s.metro t) x e := rfl
  have hshown : y5 = y2.blockShown t (s.metro t) x e := rfl
  calc _ = y8.blockRelays t (s.metro t).judged := rfl
    _ = (((y.blockEnergies t (s.metro t) x e).blockShown t (s.metro t) x e).blockCloses t e).blockRelays t (s.metro t).judged := by
      rw [hcloses, hshown, henergies]

/-! What follows on the samples leaves the measurements -/

namespace MeasureKept
variable {t : TileId} {s x : State}

theorem blockEnergies (h : MeasureKept t s x) (o : Metro) (b : Block) (e : Nat) : MeasureKept t s (x.blockEnergies t o b e) :=
  ite (((h.accumulate _ _ _ _).accumulate _ _ _ _).onMetro _ (by intro; exact ⟨rfl, rfl, rfl⟩)) (h.accumulate _ _ _ _)

theorem blockShown (h : MeasureKept t s x) (o : Metro) (b : Block) (e : Nat) : MeasureKept t s (x.blockShown t o b e) := by
  unfold State.blockShown
  exact (ite ((h.bump Reg.metro_overloads _ _ (by rfl) (by decide)).wr Reg.metro_state _ _ (by rfl) (by decide)) (h.bump Reg.metro_overloads _ _ (by rfl) (by decide))).mirror _ _

theorem blockCloses (h : MeasureKept t s x) (e : Nat) : MeasureKept t s (x.blockCloses t e) := by
  have module : MeasureKept t s (if (x.vol t).modDue then x.takeModule t else x) := .ite h.takeModule h
  unfold State.blockCloses
  dsimp only
  generalize (if (x.vol t).modDue then x.takeModule t else x) = y at module
  cases (if e % 1000000000 = 0 then y.headGrid t (e / 1000000000) else none) with
  | none => exact ite (module.markRegs _) module
  | some b => exact ite ((module.deliverHead _ _).markRegs _) (module.deliverHead _ _)

theorem blockRelays (h : MeasureKept t s x) (judged : Bool) : MeasureKept t s (x.blockRelays t judged) := by
  unfold State.blockRelays
  exact ite ((h.bothRelays _ fun _ k hy => hy.relayJudge k).bothRelays _ fun _ k hy => hy.tryPulse k)
    (ite ((h.onMetro _ (by intro; exact ⟨rfl, rfl, rfl⟩)).bothRelays _ fun _ k hy => hy.relayStart k) h)

end MeasureKept

/-- The measurements after a block are those of its samples. -/
theorem blockEnd_kept {s : State} {t : TileId} (codes : List (List Int)) (hr : (s.metro t).run = true) (hm : s.metroOn t = true) :
    MeasureKept t (s.onMetro t ((s.metro t).takeBlock (blockOf (s.metro t).cal codes))) (blockEnd t codes s) := by
  rw [blockEnd_measures codes hr hm rfl]
  exact ((((MeasureKept.refl ..).blockEnergies _ _ _).blockShown _ _ _).blockCloses _).blockRelays _

/-! ### A block without current (R231) -/

/-- Where every phase is silenced, nothing is left. -/
theorem getD_zipWith_silenced (n : Nat) (l : List Int) (i : Nat) :
    (List.zipWith (fun (o : Bool) v => if o then 0 else v) (List.replicate n true) l).getD i 0 = 0 := by
  induction n generalizing l i with
  | zero => simp
  | succ n ih =>
    cases l with
    | nil => simp
    | cons v l =>
      cases i with
      | zero => simp [List.replicate_succ]
      | succ i => simpa [List.replicate_succ] using ih l i

/-- Phases that are quiet give nothing. -/
theorem Block.driven_of_quiet {x : Block} {skip n : Nat} (h : ∀ i < 3, quiet (x.square (3 + i) skip n) n = true) (l : List Int) (i : Nat) :
    (x.driven skip n l).getD i 0 = 0 := by
  have hoff : ((List.range 3).map fun i => quiet (x.square (3 + i) skip n) n) = List.replicate 3 true :=
    List.eq_replicate_iff.2 ⟨rfl, fun b hb => by
      obtain ⟨j, hj, rfl⟩ := List.mem_map.1 hb
      exact h j (List.mem_range.1 hj)⟩
  unfold Block.driven
  rw [hoff, getD_zipWith_silenced]

/-- No power and no remainder make no energy. -/
theorem energyStep_of_zero {rem p : List Int} (hr : ∀ i, rem.getD i 0 = 0) (hp : ∀ i, p.getD i 0 = 0) (k : Int) :
    energyStep rem p k = ([0, 0, 0], [0, 0, 0]) := by
  simp only [energyStep, hr, hp, Int.zero_mul, Int.add_zero]
  decide

/-- No energy leaves the registers. -/
theorem addEnergies_zero (l : List Nat) (pPos qPos : Bool) : addEnergies l [0, 0, 0] [0, 0, 0] pPos qPos = l := by
  have hput : ∀ (l : List Nat) (i : Nat), l.set i (l[i]?.getD 0) = l := fun l i => by
    by_cases h : i < l.length
    · simp [h]
    · exact List.set_eq_of_length_le (by omega)
  simp [addEnergies, List.range_succ, hput]

/-- Numbers written one after the other at the sub-indices of an entry are read where they were written. -/
theorem State.rd_wrEach (s : State) (e : Entry) (t : Nat) (f : Nat → Nat) {n i : Nat} (h : i < n) :
    ((List.range n).foldl (fun s j => s.wr e t (f j) j) s).rd e t i = f i % e.span := by
  induction n with
  | zero => omega
  | succ n ih =>
    rw [List.range_succ, List.foldl_append, List.foldl_cons, List.foldl_nil]
    by_cases hi : i = n
    · subst hi; exact State.rd_wr_self ..
    · rw [State.rd_wr_place _ e e rfl (by simp only [Entry.place]; omega), ih (by omega)]

theorem State.rd_useRegs (s : State) (t : TileId) (l : List Nat) (endNs : Nat) {i : Nat} (h : i < 12) :
    (s.useRegs t l endNs).rd Reg.metro_legal_regs t i = l.getD i 0 % Reg.metro_legal_regs.span := by
  unfold State.useRegs
  rw [State.rd_onTile, State.rd_wrEach _ _ _ (fun i => l.getD i 0) h]

theorem State.legalRegs_getD (s : State) (t : TileId) {i : Nat} (h : i < 12) : (s.legalRegs t).getD i 0 = s.rd Reg.metro_legal_regs t i := by
  simp [State.legalRegs, List.getD, h]

/-- Sums of power that make no energy leave the legal registers. -/
theorem State.rd_accumulate_of_zero {s : State} {t : TileId} {p q : List Int} (hp : ∀ i, p.getD i 0 = 0) (hq : ∀ i, q.getD i 0 = 0)
    (hrp : ∀ i, (s.metro t).remP.getD i 0 = 0) (hrq : ∀ i, (s.metro t).remQ.getD i 0 = 0)
    (hspan : ∀ i < 12, s.rd Reg.metro_legal_regs t i < Reg.metro_legal_regs.span) (k : Int) (endNs : Nat) {i : Nat} (h : i < 12) :
    (s.accumulate t p q k endNs).rd Reg.metro_legal_regs t i = s.rd Reg.metro_legal_regs t i := by
  unfold State.accumulate
  dsimp only
  rw [energyStep_of_zero hrp hp, energyStep_of_zero hrq hq, addEnergies_zero]
  unfold State.setLegalRegs
  rw [State.rd_onTile, State.rd_useRegs _ _ _ _ h, State.legalRegs_getD _ _ h, State.rd_onMetro, Nat.mod_eq_of_lt (hspan i h)]

end Sys2Proof.Machine

namespace Sys2Proof.Machine

/-! ### What a block without current leaves -/

/-- What the accesses to the legal registers and the metrology leave, adding energies leaves. -/
theorem State.accumulate_keeps {β : Type} (g : State → β) (t : TileId) (hw : ∀ x v i, g (State.wr x Reg.metro_legal_regs t v i) = g x)
    (ht : ∀ x (f : Tile → Tile), (∀ y, (f y).vol = y.vol ∧ (f y).power = y.power) → g (State.onTile x t f) = g x)
    (hm : ∀ x f, g (State.onMetro x t f) = g x) (s : State) (p q : List Int) (k : Int) (endNs : Nat) : g (s.accumulate t p q k endNs) = g s := by
  have useRegs : ∀ (y : State) (l : List Nat), g (y.useRegs t l endNs) = g y := fun y l => by
    unfold State.useRegs
    refine (ht _ _ ?_).trans (State.each_keeps g _ _ _ fun _ _ => hw _ _ _)
    exact fun _ => ⟨rfl, rfl⟩
  exact (ht _ _ fun _ => ⟨Tile.putLegal_vol .., Tile.putLegal_power ..⟩).trans ((useRegs _ _).trans (hm _ _))

/-- The field outputs do not see a change of a tile that leaves its domain and what it drives. -/
theorem State.fieldPin_onTile (s : State) (t : TileId) (f : Tile → Tile) (hp : (f (s.tile t)).power = (s.tile t).power)
    (hd : (f (s.tile t)).vol.drive = (s.tile t).vol.drive) : (s.onTile t f).fieldPin t = s.fieldPin t := by
  have hrun : (s.onTile t f).inRun t = s.inRun t := by simp [State.inRun, hp]
  have hdrive : ((s.onTile t f).vol t).drive = (s.vol t).drive := by rw [State.vol_onTile_self, hd]; rfl
  unfold State.fieldPin
  rw [hrun, hdrive]
  rfl

theorem State.fieldPin_onMetro (s : State) (t : TileId) (f : Metro → Metro) : (s.onMetro t f).fieldPin t = s.fieldPin t :=
  State.fieldPin_onTile _ _ _ rfl rfl

/-- Nor do they see the mirror stream. -/
theorem State.fieldPin_mirror (s : State) (t u : TileId) (x : MItem) (n : Nat) : (s.mirror t x n).fieldPin u = s.fieldPin u := by
  have hrun : (s.mirror t x n).inRun u = s.inRun u := by simp [State.inRun]
  have hdropE : ∀ c, ((s.mirror t x n).bay c).dropE = (s.bay c).dropE := State.mirror_bay Bay.dropE (fun _ _ _ _ => rfl) s t x n
  have hdropO : ∀ c, ((s.mirror t x n).bay c).dropO = (s.bay c).dropO := State.mirror_bay Bay.dropO (fun _ _ _ _ => rfl) s t x n
  have hnow : (s.mirror t x n).now = s.now := State.mirror_keeps State.now t (fun _ _ _ _ => rfl) _ _ _
  unfold State.fieldPin State.ownPin State.owns State.dropping State.independent
  simp [hrun, hdropE, hdropO, hnow]

theorem State.fieldPin_accumulate (s : State) (t : TileId) (p q : List Int) (k : Int) (endNs : Nat) :
    (s.accumulate t p q k endNs).fieldPin t = s.fieldPin t :=
  State.accumulate_keeps (fun x => x.fieldPin t) t (fun _ _ _ => rfl)
    (fun x f h => State.fieldPin_onTile x t f (h _).2 (by rw [(h _).1])) (fun _ _ => State.fieldPin_onMetro _ _ _) _ _ _ _ _

theorem State.modDue_accumulate (s : State) (t : TileId) (p q : List Int) (k : Int) (endNs : Nat) :
    ((s.accumulate t p q k endNs).vol t).modDue = (s.vol t).modDue :=
  State.accumulate_keeps (fun x => (x.vol t).modDue) t (fun _ _ _ => rfl)
    (fun x f h => by rw [State.vol_onTile_self, (h _).1]; rfl) (fun _ _ => by rw [State.vol_onMetro]) _ _ _ _ _

theorem State.out_accumulate (s : State) (t : TileId) (p q : List Int) (k : Int) (endNs : Nat) : (s.accumulate t p q k endNs).out = s.out :=
  State.accumulate_keeps State.out t (fun _ _ _ => rfl) (fun _ _ _ => rfl) (fun _ _ => rfl) _ _ _ _ _

/-- A block that ends within a second, with no module installed, closes nothing. -/
theorem State.blockCloses_idle {s : State} {t : TileId} {e : Nat} (hd : (s.vol t).modDue = false) (he : e % 1000000000 ≠ 0) : s.blockCloses t e = s := by
  simp [State.blockCloses, hd, he]

/-- Relays that have not been judged wait until the field outputs are driven. -/
theorem State.blockRelays_idle {s : State} {t : TileId} (h : s.fieldPin t = none) : s.blockRelays t false = s := by
  simp [State.blockRelays, h]

section
variable {s : State} {t : TileId} {codes : List (List Int)}

/-- A block in which every current is below its starting current leaves the legal registers and puts nothing out. -/
theorem blockEnd_quiet_effect (hr : (s.metro t).run = true) (hm : s.metroOn t = true) (hb : 0 < (s.metro t).blk) (hh : (s.metro t).hold = false)
    (hq : ∀ i < 3, quiet ((blockOf (s.metro t).cal codes).square (3 + i) 0 1024) 1024 = true) (hf : s.fieldPin t = none)
    (hj : (s.metro t).judged = false) (hd : (s.vol t).modDue = false) (he : ((s.metro t).blk + 1) % 8 ≠ 0)
    (hspan : ∀ i < 12, s.rd Reg.metro_legal_regs t i < Reg.metro_legal_regs.span) :
    (blockEnd t codes s).out = s.out ∧ ∀ i < 12, (blockEnd t codes s).rd Reg.metro_legal_regs t i = s.rd Reg.metro_legal_regs t i := by
  have hsettling : (s.metro t).settling = 0 := if_neg (by omega)
  have hdriven : ∀ l i, ((blockOf (s.metro t).cal codes).driven 0 1024 l).getD i 0 = 0 := Block.driven_of_quiet hq
  generalize hy : s.onMetro t ((s.metro t).takeBlock (blockOf (s.metro t).cal codes)) = y
  have hmetro : y.metro t = (s.metro t).takeBlock (blockOf (s.metro t).cal codes) (s.metro t) := by rw [← hy, State.metro_onMetro]
  have hrem : (∀ i, (y.metro t).remP.getD i 0 = 0) ∧ ∀ i, (y.metro t).remQ.getD i 0 = 0 := by
    rw [hmetro]
    simp only [Metro.takeBlock, hsettling]
    exact ⟨hdriven _, hdriven _⟩
  have hend : (y.metro t).blockEnd % 1000000000 ≠ 0 := by
    have hblk : (y.metro t).blk = (s.metro t).blk + 1 := by rw [hmetro]; rfl
    unfold Metro.blockEnd
    omega
  have hshown : ∃ z k i, (y.blockEnergies t (s.metro t) (blockOf (s.metro t).cal codes) (y.metro t).blockEnd).blockShown t (s.metro t)
      (blockOf (s.metro t).cal codes) (y.metro t).blockEnd = (State.bump z Reg.metro_overloads t 0 k).mirror t i ∧ z.fieldPin t = none ∧
      (z.vol t).modDue = false ∧ z.out = s.out ∧ ∀ i < 12, z.rd Reg.metro_legal_regs t i = s.rd Reg.metro_legal_regs t i := by
    unfold State.blockEnergies State.blockShown
    simp only [hsettling, hh, Bool.false_and, Bool.false_eq_true, if_false, if_neg (Nat.ne_of_gt hb)]
    refine ⟨_, _, _, rfl, ?_, ?_, ?_, fun i hi => ?_⟩
    · rw [State.fieldPin_accumulate, ← hy, State.fieldPin_onMetro, hf]
    · rw [State.modDue_accumulate, ← hy, State.vol_onMetro, hd]
    · rw [State.out_accumulate, ← hy, State.out_onMetro]
    · rw [State.rd_accumulate_of_zero (hdriven _) (hdriven _) hrem.1 hrem.2 (by rwa [← hy]) _ _ hi, ← hy, State.rd_onMetro]
  obtain ⟨z, k, item, hz, hpin, hmod, hout, hregs⟩ := hshown
  rw [blockEnd_measures codes hr hm hy.symm, hz, State.blockCloses_idle (by rwa [State.vol_mirror, State.vol_bump]) hend, hj,
    State.blockRelays_idle (by rw [State.fieldPin_mirror]; exact hpin), State.out_mirror, State.bump_out]
  refine ⟨hout, fun i hi => ?_⟩
  rw [State.rd_mirror, State.rd_bump_place _ Reg.metro_legal_regs Reg.metro_overloads rfl
    (by simp only [Entry.place, Reg.metro_legal_regs, Reg.metro_overloads]; omega), hregs i hi]

end

end Sys2Proof.Machine

namespace Sys2Proof.Machine

/-! ### A second and a minute (R232, R234) -/

theorem exec_secondUpdate (t : TileId) (sec n1 a1 b1 n2 a2 b2 : Nat) (s : State) :
    exec (.secondUpdate t sec n1 a1 b1 n2 a2 b2) s = .next (s.done (secondUpdate t sec (n1, a1, b1) (n2, a2, b2) s)) := rfl
theorem exec_minuteRecord (t : TileId) (s : State) : exec (.minuteRecord t) s = .next (s.done (minuteRecord t s)) := rfl

theorem quiet_metro_frequency : Reg.metro_frequency.quiet 0 = true := by decide
theorem quiet_metro_rms {i : Nat} (h : i < 8) : Reg.metro_rms.quiet i = true := Entry.quiet_fin (n := 8) (e := Reg.metro_rms) (by decide) ⟨i, h⟩

/-- The frequency of the second that ends: that of V2 where V1 is too low (R232). -/
def Metro.secondFrequency (m : Metro) (x1 x2 : Nat × Nat × Nat) : Nat :=
  if faint m.secV1 m.secN then m.zeros.2.frequency x2.1 x2.2.1 x2.2.2 else m.zeros.1.frequency x1.1 x1.2.1 x1.2.2

/-- The rms values of the second that ends. -/
def Metro.secondRms (m : Metro) : List Nat := m.secSq.map fun v => rmsOf v m.secN

/-- The values of the second that ends are shown, with frequency `f`. -/
def State.secondShown (s : State) (t : TileId) (m : Metro) (f : Nat) : State :=
  let watts := fun (v : Int) => v.tdiv (m.secN * powerUnit * 1000000)
  let y := (List.range 8).foldl (fun y i => y.wr Reg.metro_rms t (m.secondRms.getD i 0) i) s
  let y := (List.range 3).foldl (fun y i => (y.wrI Reg.metro_p t (watts (m.secP.getD i 0)) i).wrI Reg.metro_q t (watts (m.secQ.getD i 0)) i) y
  y.wr Reg.metro_frequency t f

/-- The metrology `m` with the second added to its minute and the sums of a second begun anew; before the second it was `o`. -/
def Metro.takeSecond (o : Metro) (f : Nat) (goal : Int) (m : Metro) : Metro :=
  { m with
    sums := List.zipWith (· + ·) m.sums ((o.secSq.take 3).map fun v => rmsOf (v * 100) o.secN), count := m.count + 1
    max8 := (List.range 8).map fun i => max (m.max8.getD i 0) ((o.secondRms.take 7 ++ [f]).getD i 0)
    secP := [0, 0, 0], secQ := [0, 0, 0], secSq := List.replicate 8 0, secV1 := 0, secN := 0, zeros := (ZeroX.init, ZeroX.init), slips := goal }

/-- What a write of a value leaves, the shown second leaves. -/
theorem State.secondShown_keeps {β : Type} (g : State → β) (h : ∀ x e n v i, g (State.wr x e n v i) = g x) (s : State) (t : TileId) (m : Metro) (f : Nat) :
    g (s.secondShown t m f) = g s := by
  unfold State.secondShown
  refine (h _ _ _ _ _).trans ((State.each_keeps g _ _ _ fun x i => ?_).trans (State.each_keeps g _ _ _ fun x i => h _ _ _ _ _))
  exact (h _ _ _ _ _).trans (h _ _ _ _ _)

/-- The rms values stand in their entry. -/
theorem State.rd_secondShown_rms (s : State) (t : TileId) (m : Metro) (f : Nat) {i : Nat} (h : i < 8) :
    (s.secondShown t m f).rd Reg.metro_rms t i = m.secondRms.getD i 0 % Reg.metro_rms.span := by
  have powers : ∀ (P Q : Nat → Int) (n : Nat) (y : State), n ≤ 3 →
      ((List.range n).foldl (fun y j => (y.wrI Reg.metro_p t (P j) j).wrI Reg.metro_q t (Q j) j) y).rd Reg.metro_rms t i = y.rd Reg.metro_rms t i := by
    intro P Q n y hn
    induction n with
    | zero => rfl
    | succ n ih =>
      rw [List.range_succ, List.foldl_append, List.foldl_cons, List.foldl_nil, State.wrI, State.wrI,
        State.rd_wr_place _ Reg.metro_rms Reg.metro_q rfl (by simp only [Entry.place, Reg.metro_rms, Reg.metro_q]; omega),
        State.rd_wr_place _ Reg.metro_rms Reg.metro_p rfl (by simp only [Entry.place, Reg.metro_rms, Reg.metro_p]; omega), ih (by omega)]
  unfold State.secondShown
  dsimp only
  rw [State.rd_wr_place _ Reg.metro_rms Reg.metro_frequency rfl (by simp only [Entry.place, Reg.metro_rms, Reg.metro_frequency]; omega),
    powers _ _ 3 _ (Nat.le_refl 3), State.rd_wrEach _ _ _ (fun j => m.secondRms.getD j 0) h]

theorem State.rd_secondShown_frequency (s : State) (t : TileId) (m : Metro) (f : Nat) :
    (s.secondShown t m f).rd Reg.metro_frequency t = f % Reg.metro_frequency.span := State.rd_wr_self ..

/-- The largest values of the seconds join the registers kept for second `sec`. -/
def Metro.keepLargest (sec : Nat) (m : Metro) : Metro :=
  { m with marks := m.marks.map fun e => if e.1 = sec then (e.1, (e.2.1, m.max8)) else e, max8 := [] }

/-- The end of a minute only moves the largest values of its seconds. -/
theorem State.closeMinute_cases (s : State) (t : TileId) (sec : Nat) :
    s.closeMinute t sec = s ∨ s.closeMinute t sec = s.onMetro t (Metro.keepLargest sec) := by
  unfold State.closeMinute
  split
  · exact .inl rfl
  · exact .inr rfl

/-- Everything of the metrology but the marks and the largest values, and the values and the outputs, are the same after it. -/
theorem State.closeMinute_metro {β : Type} (g : Metro → β) (h : ∀ k m, g (Metro.keepLargest k m) = g m) (s : State) (t : TileId) (sec : Nat) :
    g ((s.closeMinute t sec).metro t) = g (s.metro t) := by
  obtain hc | hc := s.closeMinute_cases t sec
  · rw [hc]
  · rw [hc, State.metro_onMetro, h]

theorem State.closeMinute_out (s : State) (t : TileId) (sec : Nat) : (s.closeMinute t sec).out = s.out := by
  obtain hc | hc := s.closeMinute_cases t sec <;> rw [hc]
  exact State.out_onMetro ..

theorem State.rd_closeMinute (s : State) (t : TileId) (sec : Nat) (e : Entry) (n i : Nat) : (s.closeMinute t sec).rd e n i = s.rd e n i := by
  obtain hc | hc := s.closeMinute_cases t sec <;> rw [hc]
  exact State.rd_onMetro ..

section
variable {s : State} {t : TileId} {sec : Nat}

/-- The second of a metrology that measures: what it shows, what it adds to the minute, and the samples by which the clocks drifted. -/
theorem secondUpdate_measures (x1 x2 : Nat × Nat × Nat) (hr : (s.metro t).run = true) (hm : s.metroOn t = true) (hn : (s.metro t).secN ≠ 0)
    (he : (s.metro t).blockEnd = sec * 1000000000) :
    secondUpdate t sec x1 x2 s =
      (((s.secondShown t (s.metro t) ((s.metro t).secondFrequency x1 x2)).onMetro t
        ((s.metro t).takeSecond ((s.metro t).secondFrequency x1 x2) (s.slipTarget t))).closeMinute t sec).bump Reg.metro_slip_adjusts t 0
          (s.slipTarget t - (s.metro t).slips).natAbs := by
  rw [← State.secondShown_keeps (fun x => x.slipTarget t) (fun _ _ _ _ _ => rfl) s t (s.metro t) ((s.metro t).secondFrequency x1 x2)]
  unfold secondUpdate
  exact (if_neg (by simp [hr, hm, hn, he])).trans rfl

/-- What the metrology is after it, but for the marks and the largest values of a minute. -/
theorem secondUpdate_metro {β : Type} (g : Metro → β) (hg : ∀ k m, g (Metro.keepLargest k m) = g m) (x1 x2 : Nat × Nat × Nat)
    (hr : (s.metro t).run = true) (hm : s.metroOn t = true) (hn : (s.metro t).secN ≠ 0) (he : (s.metro t).blockEnd = sec * 1000000000) :
    g ((secondUpdate t sec x1 x2 s).metro t) = g ((s.metro t).takeSecond ((s.metro t).secondFrequency x1 x2) (s.slipTarget t) (s.metro t)) := by
  rw [secondUpdate_measures x1 x2 hr hm hn he, State.metro_bump, State.closeMinute_metro g hg, State.metro_onMetro,
    State.secondShown_keeps (fun x => x.metro t) fun _ _ _ _ _ => rfl]

theorem secondUpdate_out (x1 x2 : Nat × Nat × Nat) (hr : (s.metro t).run = true) (hm : s.metroOn t = true) (hn : (s.metro t).secN ≠ 0)
    (he : (s.metro t).blockEnd = sec * 1000000000) : (secondUpdate t sec x1 x2 s).out = s.out := by
  rw [secondUpdate_measures x1 x2 hr hm hn he, State.bump_out, State.closeMinute_out, State.out_onMetro, State.secondShown_keeps State.out fun _ _ _ _ _ => rfl]

/-- The rms values and the frequency that it shows. -/
theorem rd_secondUpdate (x1 x2 : Nat × Nat × Nat) (hr : (s.metro t).run = true) (hm : s.metroOn t = true) (hn : (s.metro t).secN ≠ 0)
    (he : (s.metro t).blockEnd = sec * 1000000000) :
    (secondUpdate t sec x1 x2 s).rd Reg.metro_frequency t = (s.metro t).secondFrequency x1 x2 % Reg.metro_frequency.span ∧
      ∀ i < 8, (secondUpdate t sec x1 x2 s).rd Reg.metro_rms t i = (s.metro t).secondRms.getD i 0 % Reg.metro_rms.span := by
  rw [secondUpdate_measures x1 x2 hr hm hn he]
  refine ⟨?_, fun i hi => ?_⟩
  · rw [State.rd_bump_place _ Reg.metro_frequency Reg.metro_slip_adjusts rfl (by decide), State.rd_closeMinute, State.rd_onMetro,
      State.rd_secondShown_frequency]
  · rw [State.rd_bump_place _ Reg.metro_rms Reg.metro_slip_adjusts rfl (by simp only [Entry.place, Reg.metro_rms, Reg.metro_slip_adjusts]; omega),
      State.rd_closeMinute, State.rd_onMetro, State.rd_secondShown_rms _ _ _ _ hi]

/-- On its grid a minute enters the history, which keeps two days, and its sums start anew. -/
theorem minuteRecord_closes (hr : (s.metro t).run = true) (hm : s.metroOn t = true) (hg : onGrid (s.rd Reg.gather_grid_phase t) 60 (s.timeSec t) = true) :
    ∃ m : Minute, minuteRecord t s = (s.onMetro t fun m => { m with sums := [0, 0, 0], count := 0 }).onMarver t fun x =>
      { x with history := (Tbl.put x.history (s.timeSec t) m).filter fun e => decide (s.timeSec t < e.1 + 172800) } := by
  unfold minuteRecord
  exact ⟨_, (if_neg (by simp [hr, hm, hg])).trans rfl⟩

end

end Sys2Proof.Machine

namespace Sys2Proof.Machine

/-! ### The LOCAL reading (R116, R236) -/

theorem exec_localReading (t : TileId) (s : State) : exec (.localReading t) s = .next (s.done (localReading t s)) := rfl

/-- The newest block of a metrology that measures ends the LOCAL interval of record `slot` at second `T`, and what the reading needs is kept. -/
structure State.LocalDue (s : State) (t : TileId) (slot T : Nat) : Prop where
  found : s.localSlot t = some slot
  run : (s.metro t).run = true
  on : s.metroOn t = true
  ends : (s.metro t).blockEnd / 1000000000 = T
  whole : (s.metro t).blk % 8 = 0
  anew : (s.metro t).localAt ≠ T
  grid : onGrid (s.rd Reg.gather_grid_phase t) (s.meter t slot).idur T = true
  marked : ∃ regs v l, Tbl.get (s.metro t).marks T = some (regs, v :: l)

/-- A kept second whose largest values have joined it. -/
theorem marked_of_get {o : Option (List Nat × List Nat)} (h : o.all (fun e => !e.2.isEmpty) = true) (hs : o.isSome = true) :
    ∃ regs v l, o = some (regs, v :: l) := by
  match o, h, hs with
  | some (regs, v :: l), _, _ => exact ⟨regs, v, l, rfl⟩

/-- The interval that ends at `T` gives no reading: the metrology started within it, or too much of it is unmeasured. -/
def State.localVoid (s : State) (t : TileId) (slot T : Nat) : Prop :=
  T < (s.metro t).since + (s.meter t slot).idur ∨ s.rd Reg.metro_head_gap_max_ms t <
    (s.tile t).unmeasured ((T - (s.meter t slot).idur) * 1000000000) (T * 1000000000) / 1000000

/-- `rd` is a reading of the LOCAL record of `slot` for the interval that ends at `T`. -/
def State.isLocal (s : State) (t : TileId) (slot T : Nat) (rd : Opened) : Prop :=
  rd.midx = s.midxOf t slot ∧ rd.tend = T ∧ rd.source = 5 ∧ rd.idur = (s.meter t slot).idur

/-- The LOCAL reading of second `T` has been taken. -/
def State.localTaken (s : State) (t : TileId) (T : Nat) : State := s.onMetro t fun m => { m with localAt := T }

/-- An entry of the staging queue and its count change nothing else of the tile. -/
theorem State.vol_cullet_countEnd (s : State) (t : TileId) (outcome detail form ruleset ver mask gen : Nat) (body : Bytes) (d : Nat) :
    ∃ q, ((s.cullet t outcome detail form ruleset ver mask gen body).countEnd t d).vol t =
      { s.vol t with marver := { (s.vol t).marver with stage := q } } := by
  unfold State.countEnd
  rw [State.vol_wr, State.vol_bump]
  unfold State.cullet
  dsimp only
  split
  · exact ⟨_, State.vol_onMarver ..⟩
  · exact ⟨_, (State.vol_bump ..).trans (State.vol_onMarver ..)⟩

section
variable {s : State} {t : TileId} {slot T : Nat}

/-- A reading that is due ends the interval with nothing, in the Cullet queue or on the way to Marver. -/
theorem localReading_due (h : s.LocalDue t slot T) :
    (s.localVoid t slot T → localReading t s = s.localTaken t T) ∧
      (¬s.localVoid t slot T → ∃ (rd : Opened) (row : Row), s.isLocal t slot T rd ∧ row.rd = rd ∧
        localReading t s = if s.unsound t slot then
            ((s.localTaken t T).cullet t 0x10 0x02 1 0xFF 0 0 (s.meter t slot).midxGen (openedBytes rd)).countEnd t 0x02
          else (s.localTaken t T).localRow t row) := by
  obtain ⟨hslot, hrun, hon, hends, hwhole, hanew, hgrid, regs, v, l, hmarks⟩ := h
  unfold localReading
  dsimp only
  rw [hslot]
  dsimp only
  rw [hends, hmarks, if_neg (by simp [hrun, hon, hwhole, hanew, hgrid])]
  dsimp only
  refine ⟨fun hv => if_pos hv, fun hv => ?_⟩
  rw [if_neg (show ¬(_ ∨ _) from hv)]
  refine ⟨_, _, ?_, ?_, rfl⟩
  · exact ⟨rfl, rfl, rfl, rfl⟩
  · rfl

/-- The interval in progress when the metrology started only takes its registers as a base. -/
theorem localReading_void_effect (h : s.LocalDue t slot T) (hv : s.localVoid t slot T) :
    ∃ x, exec (.localReading t) s = .next x ∧ (x.metro t).localAt = T ∧ (x.vol t).gather = (s.vol t).gather ∧
      (x.vol t).marver = (s.vol t).marver ∧ x.regs = s.regs ∧ x.out = s.out := by
  refine ⟨_, exec_localReading t s, ?_⟩
  rw [(localReading_due h).1 hv, State.metro_done, State.done_vol, State.done_out, State.done_regs s (s.localTaken t T) rfl, State.localTaken, State.metro_onMetro,
    State.vol_onMetro]
  exact ⟨rfl, rfl, rfl, rfl, rfl⟩

/-- A reading of a sound record, with none of its MIDX under way, enters Marver directly. -/
theorem localReading_sound_effect (h : s.LocalDue t slot T) (hv : ¬s.localVoid t slot T) (hu : s.unsound t slot = false)
    (hb : s.midxBusy t (s.midxOf t slot) = false) (hr : ((s.vol t).gather.rows.any fun r => decide (r.rd.midx = s.midxOf t slot)) = false) :
    ∃ x r, exec (.localReading t) s = .next x ∧ (x.metro t).localAt = T ∧ (x.vol t).marver.inq = (s.vol t).marver.inq ++ [r] ∧
      s.isLocal t slot T r.rd := by
  obtain ⟨rd, row, hrow, hrd, heq⟩ := (localReading_due h).2 hv
  have hmidx : row.rd.midx = s.midxOf t slot := hrd ▸ hrow.1
  have hvol : (s.localTaken t T).vol t = { s.vol t with metro := { s.metro t with localAt := T } } := State.vol_onMetro ..
  have hpass : (s.localTaken t T).localRow t row = (s.localTaken t T).passRow t row := by
    refine if_neg ?_
    unfold State.midxBusy at hb ⊢
    dsimp only at hb ⊢
    rw [hvol, hmidx]
    simp only [hb, hr]
    decide
  obtain ⟨r, hr, hinq⟩ : ∃ r : Passed, r.rd = row.rd ∧ (((s.localTaken t T).passRow t row).vol t).marver.inq = ((s.localTaken t T).vol t).marver.inq ++ [r] := by
    obtain ⟨-, -, hinq⟩ := (s.localTaken t T).passRow_effect t row
    refine ⟨_, ?_, hinq⟩
    rfl
  refine ⟨_, r, exec_localReading t s, ?_, ?_, by rwa [hr, hrd]⟩
  · rw [State.metro_done, heq, hu, if_neg Bool.false_ne_true, hpass, State.metro, State.passRow, State.vol_onMarver, hvol]
  · rw [State.done_vol, heq, hu, if_neg Bool.false_ne_true, hpass, hinq, hvol]

/-- A reading of a damaged record ends in the Cullet queue. -/
theorem localReading_unsound_effect (h : s.LocalDue t slot T) (hv : ¬s.localVoid t slot T) (hu : s.unsound t slot = true) :
    ∃ x, exec (.localReading t) s = .next x ∧ (x.metro t).localAt = T ∧ (x.vol t).gather.rows = (s.vol t).gather.rows ∧
      (x.vol t).marver.inq = (s.vol t).marver.inq := by
  obtain ⟨rd, row, -, -, heq⟩ := (localReading_due h).2 hv
  have hvol : (s.localTaken t T).vol t = { s.vol t with metro := { s.metro t with localAt := T } } := State.vol_onMetro ..
  obtain ⟨m, hm⟩ := (s.localTaken t T).vol_cullet_countEnd t 0x10 0x02 1 0xFF 0 0 (s.meter t slot).midxGen (openedBytes rd) 0x02
  refine ⟨_, exec_localReading t s, ?_⟩
  rw [State.metro, State.done_vol, heq, if_pos hu, hm, hvol]
  exact ⟨rfl, rfl, rfl⟩

end

end Sys2Proof.Machine

namespace Sys2Proof.Machine

/-! ### The measurements, command by command -/

/-- The order of a reset is answered and sets nothing else. -/
theorem metroResync_effect {s : State} {t : TileId} (hw : (s.vol t).syncWanted = none) (hr : (s.metro t).run = false) :
    ∃ x, exec (.metroResync t) s = .next x ∧ (x.vol t).syncWanted = some s.now ∧ x.regs = s.regs ∧ x.out = s.out ++ [.answer t .ok] := by
  have hregs : (metroResync t s).regs = s.regs := by rw [metroResync_orders hw hr]; rfl
  refine ⟨_, exec_metroResync t s, ?_, State.done_regs s _ hregs, ?_⟩
  · rw [State.done_vol, metroResync_orders hw hr]
    simp
  · rw [State.done_out, metroResync_orders hw hr]
    rfl

/-- The sums of the newest block are those of its samples but the SETTLE samples. -/
theorem blockEnd_effect {s : State} {t : TileId} (v1 v2 v3 i1 i2 i3 : List Int) (inVx : List Int × List Int) (hr : (s.metro t).run = true)
    (hm : s.metroOn t = true) :
    ∃ x, exec (.blockEnd t v1 v2 v3 i1 i2 i3 inVx) s = .next x ∧ (x.metro t).blk = (s.metro t).blk + 1 ∧
      (x.metro t).lastP = (blockOf (s.metro t).cal [v1, v2, v3, i1, i2, i3, inVx.1, inVx.2]).active (s.metro t).settling (1024 - (s.metro t).settling) ∧
      (x.metro t).lastQ = (blockOf (s.metro t).cal [v1, v2, v3, i1, i2, i3, inVx.1, inVx.2]).reactive (s.metro t).settling (1024 - (s.metro t).settling) := by
  have hkept := blockEnd_kept [v1, v2, v3, i1, i2, i3, inVx.1, inVx.2] hr hm
  refine ⟨_, exec_blockEnd t v1 v2 v3 i1 i2 i3 inVx s, ?_⟩
  rw [State.metro_done, hkept.blk, hkept.lastP, hkept.lastQ, State.metro_onMetro]
  exact ⟨rfl, rfl, rfl⟩

/-- Of eight rms values each stands at the index of its channel. -/
theorem Metro.secondRms_getD {m : Metro} (h : m.secSq.length = 8) {i : Nat} (hi : i < 8) :
    m.secondRms.getD i 0 = rmsOf (m.secSq.getD i 0) m.secN := by
  have hi' : i < m.secSq.length := h ▸ hi
  rw [Metro.secondRms, List.getD_eq_getElem _ _ (by rwa [List.length_map]), List.getElem_map, List.getD_eq_getElem _ _ hi']

section
variable {s : State} {t : TileId} {sec : Nat}

/-- A second is added to the minute, and the sums of the next begin anew. -/
theorem secondUpdate_sums (x1 x2 : Nat × Nat × Nat) (hr : (s.metro t).run = true) (hm : s.metroOn t = true) (hn : (s.metro t).secN ≠ 0)
    (he : (s.metro t).blockEnd = sec * 1000000000) :
    ((secondUpdate t sec x1 x2 s).metro t).count = (s.metro t).count + 1 ∧ ((secondUpdate t sec x1 x2 s).metro t).secN = 0 ∧
      ((secondUpdate t sec x1 x2 s).metro t).secP = [0, 0, 0] ∧ ((secondUpdate t sec x1 x2 s).metro t).slips = s.slipTarget t ∧
      ((secondUpdate t sec x1 x2 s).metro t).sums =
        List.zipWith (· + ·) (s.metro t).sums (((s.metro t).secSq.take 3).map fun v => rmsOf (v * 100) (s.metro t).secN) :=
  ⟨secondUpdate_metro Metro.count (fun _ _ => rfl) x1 x2 hr hm hn he, secondUpdate_metro Metro.secN (fun _ _ => rfl) x1 x2 hr hm hn he,
    secondUpdate_metro Metro.secP (fun _ _ => rfl) x1 x2 hr hm hn he,
    secondUpdate_metro Metro.slips (fun _ _ => rfl) x1 x2 hr hm hn he,
    secondUpdate_metro Metro.sums (fun _ _ => rfl) x1 x2 hr hm hn he⟩

/-- The minute is closed, and the values stay. -/
theorem minuteRecord_effect (hr : (s.metro t).run = true) (hm : s.metroOn t = true) (hg : onGrid (s.rd Reg.gather_grid_phase t) 60 (s.timeSec t) = true) :
    ∃ x, exec (.minuteRecord t) s = .next x ∧ (x.metro t).sums = [0, 0, 0] ∧ (x.metro t).count = 0 ∧ x.regs = s.regs ∧ x.out = s.out ∧
      (∀ e ∈ (x.vol t).marver.history, s.timeSec t < e.1 + 172800) := by
  obtain ⟨m, hrec⟩ := minuteRecord_closes hr hm hg
  have hregs : (minuteRecord t s).regs = s.regs := by rw [hrec]; rfl
  refine ⟨_, exec_minuteRecord t s, ?_⟩
  rw [State.done_regs s _ hregs, hrec, State.metro_done, State.metro, State.done_vol, State.done_out, State.vol_onMarver, State.vol_onMetro]
  refine ⟨rfl, rfl, rfl, rfl, fun e he => ?_⟩
  have hkept := List.of_mem_filter he
  exact of_decide_eq_true hkept

end

/-- An interval that lies behind the start of the metrology, with little unmeasured time, gives a reading. -/
theorem State.not_localVoid {s : State} {t : TileId} {slot T : Nat} (hi : (s.metro t).since + (s.meter t slot).idur ≤ T)
    (hgap : (s.tile t).unmeasured ((T - (s.meter t slot).idur) * 1000000000) (T * 1000000000) / 1000000 ≤ s.rd Reg.metro_head_gap_max_ms t) :
    ¬s.localVoid t slot T := not_or.2 ⟨Nat.not_lt.2 hi, Nat.not_lt.2 hgap⟩

/-- Settles O23: what each command of the measurements does, where its conditions hold. -/
theorem metrologyMeasures : Obligations.MetrologyMeasures := by
  refine ⟨fun s t => metroResync_effect, fun s t w hw hm hr hl hd hc => ?_,
    fun s t v1 v2 v3 i1 i2 i3 inVx codes hcodes hr hm hb hh hq hf hj hd he hspan => ?_,
    fun s t sec n1 a1 b1 n2 a2 b2 hr hm hn he hv hlen hfs hrs => ?_, fun s t => minuteRecord_effect,
    fun s t slot T hs hr hm hT hw ha hg hall hsome hv => ?_, fun s t w hw hm hd hc => ?_,
    fun s t v1 v2 v3 i1 i2 i3 inVx codes k hcodes hr hm hk => ?_, fun s t sec n1 a1 b1 n2 a2 b2 hr hm hn he => ?_,
    fun s t slot T hs hr hm hT hw ha hg hall hsome hi hu hgap hb hrows => ?_, fun s t slot T hs hr hm hT hw ha hg hall hsome hi hgap hu hq => ?_⟩
  · obtain ⟨x, hx, hrun, hsync, hblk, hwanted, hstate, hresyncs, hregs⟩ := syncReset_due_effect hw hm hd hc
    refine ⟨x, hx, hrun, hsync, hblk, hwanted, hstate, hresyncs, fun i hi => (hregs i hi).trans ?_⟩
    rw [State.rd, State.syncReady_regs hr hl]
    rfl
  · obtain ⟨hout, hregs⟩ := blockEnd_quiet_effect (codes := codes) hr hm hb hh hq hf hj hd he hspan
    rw [hcodes] at hout hregs
    obtain ⟨x, hx, hblk, -⟩ := blockEnd_effect v1 v2 v3 i1 i2 i3 inVx hr hm
    obtain rfl : s.done (blockEnd t [v1, v2, v3, i1, i2, i3, inVx.1, inVx.2] s) = x := Host.Outcome.next.inj ((exec_blockEnd ..).symm.trans hx)
    exact ⟨_, hx, hblk, by rw [State.done_out, hout], fun i hi => by rw [State.rd_done _ _ _ _ _ (quiet_metro_legal_regs hi), hregs i hi]⟩
  · obtain ⟨hfreq, hrms⟩ := rd_secondUpdate (n1, a1, b1) (n2, a2, b2) hr hm hn he
    have hf : (s.metro t).secondFrequency (n1, a1, b1) (n2, a2, b2) = (s.metro t).zeros.1.frequency n1 a1 b1 := by simp [Metro.secondFrequency, hv]
    obtain ⟨hcount, hsecN, -, -, hsums⟩ := secondUpdate_sums (n1, a1, b1) (n2, a2, b2) hr hm hn he
    refine ⟨_, exec_secondUpdate t sec n1 a1 b1 n2 a2 b2 s, ?_⟩
    rw [State.metro_done, State.done_out, State.rd_done _ _ _ _ _ quiet_metro_frequency, hfreq, hf, Nat.mod_eq_of_lt hfs, secondUpdate_out _ _ hr hm hn he]
    refine ⟨rfl, hcount, hsecN, fun i hi => ?_, rfl, hsums⟩
    rw [State.rd_done _ _ _ _ _ (quiet_metro_rms hi), hrms i hi, Metro.secondRms_getD hlen hi, Nat.mod_eq_of_lt (hrs i hi)]
  · exact localReading_void_effect ⟨hs, hr, hm, hT, hw, ha, hg, marked_of_get hall hsome⟩ (.inl hv)
  · obtain ⟨x, hx, hrun, hsync, hblk, hwanted, hstate, hresyncs, -⟩ := syncReset_due_effect hw hm hd hc
    exact ⟨x, hx, hrun, hsync, hblk, hwanted, hstate, hresyncs⟩
  · rw [hcodes, hk]
    exact blockEnd_effect v1 v2 v3 i1 i2 i3 inVx hr hm
  · obtain ⟨hcount, hsecN, hsecP, hslips, -⟩ := secondUpdate_sums (n1, a1, b1) (n2, a2, b2) hr hm hn he
    refine ⟨_, exec_secondUpdate t sec n1 a1 b1 n2 a2 b2 s, ?_⟩
    rw [State.metro_done, State.done_out, secondUpdate_out _ _ hr hm hn he]
    exact ⟨hcount, hsecN, hsecP, hslips, rfl⟩
  · exact localReading_sound_effect ⟨hs, hr, hm, hT, hw, ha, hg, marked_of_get hall hsome⟩ (State.not_localVoid hi hgap) hu hb hrows
  · exact localReading_unsound_effect ⟨hs, hr, hm, hT, hw, ha, hg, marked_of_get hall hsome⟩ (State.not_localVoid hi hgap) hu

end Sys2Proof.Machine

namespace Sys2Proof.Machine

/-! ### Lehr as a part of a tile -/

@[simp] theorem State.vol_onLehr (s : State) (t : TileId) (f : Lehr → Lehr) :
    (s.onLehr t f).vol t = { s.vol t with lehr := f (s.vol t).lehr } := State.vol_onVol_self ..

@[simp] theorem State.stream_onStream (s : State) (t : TileId) (k : Nat) (f : StreamSt → StreamSt) :
    ((s.onStream t k f).vol t).lehr.stream k = f ((s.vol t).lehr.stream k) := by
  unfold State.onStream Lehr.stream
  rw [State.vol_onLehr]
  split <;> rfl

@[simp] theorem State.inq_onStream (s : State) (t : TileId) (k : Nat) (f : StreamSt → StreamSt) :
    ((s.onStream t k f).vol t).lehr.inq = (s.vol t).lehr.inq := by
  unfold State.onStream
  rw [State.vol_onLehr]
  dsimp only
  split <;> rfl

/-- A change of Lehr's groups and page buffer leaves the streams. -/
theorem State.stream_onLehr (s : State) (t : TileId) (k : Nat) {f : Lehr → Lehr} (h0 : ∀ l, (f l).stream0 = l.stream0)
    (h1 : ∀ l, (f l).stream1 = l.stream1) : ((s.onLehr t f).vol t).lehr.stream k = (s.vol t).lehr.stream k := by
  simp [Lehr.stream, h0, h1]

/-! What the general slots (R464, R466) and the meter records leave of Lehr -/

@[simp] theorem State.lehr_onVault (s : State) (t : TileId) (f : Vault → Vault) : ((s.onVault t f).vol t).lehr = (s.vol t).lehr := by
  simp [State.onVault]

@[simp] theorem State.lehr_setSlot (s : State) (t : TileId) (n : Nat) (key : Bytes) : ((s.setSlot t n key).vol t).lehr = (s.vol t).lehr :=
  State.lehr_onVault ..

@[simp] theorem State.lehr_deriveSlots (s : State) (t : TileId) : ((s.deriveSlots t).vol t).lehr = (s.vol t).lehr := by
  unfold State.deriveSlots
  dsimp only
  split <;> split <;> simp only [State.lehr_setSlot]

@[simp] theorem State.lehr_loadSlot (s : State) (t : TileId) (n place : Nat) : ((s.loadSlot t n place).vol t).lehr = (s.vol t).lehr := by
  unfold State.loadSlot
  split
  · rw [State.lehr_setSlot, State.vol_bump]
  · exact State.lehr_onVault ..

@[simp] theorem State.lehr_refillSlot (s : State) (t : TileId) (n : Nat) : ((s.refillSlot t n).vol t).lehr = (s.vol t).lehr := by
  unfold State.refillSlot
  split
  · exact State.lehr_deriveSlots ..
  · split
    · split
      · exact State.lehr_loadSlot ..
      · rfl
    · split
      · exact State.lehr_onVault ..
      · exact State.lehr_loadSlot ..

@[simp] theorem State.lehr_useSlot (s : State) (t : TileId) (n : Nat) : ((s.useSlot t n).1.vol t).lehr = (s.vol t).lehr := by
  unfold State.useSlot
  split
  · split
    · rw [State.lehr_refillSlot, State.event_lehr, State.vol_bump]
    · rfl
  · rfl

@[simp] theorem State.lehr_setMeter (s : State) (t : TileId) (slot : Nat) (r : MeterRec) : ((s.setMeter t slot r).vol t).lehr = (s.vol t).lehr := by
  simp [State.setMeter, State.onMeters]

/-! ### The page buffer (R180) -/

/-- A page with records is queued whole, and the buffer is empty. -/
theorem State.flushPage_of_page {s : State} {t : TileId} {r : ArchRec} {l : List ArchRec} (h : (s.vol t).lehr.page = r :: l) :
    s.flushPage t = (s.onLehr t fun x => { x with page := [], pageFirst := none }).queueJob t (.archive (seqStream r.seq) (r :: l)) := by
  unfold State.flushPage
  rw [h]

@[simp] theorem State.stream_flushPage (s : State) (t : TileId) (k : Nat) :
    ((s.flushPage t).vol t).lehr.stream k = (s.vol t).lehr.stream k := by
  unfold State.flushPage
  split
  · rfl
  · rw [State.vol_queueJob, State.stream_onLehr] <;> intro <;> rfl

@[simp] theorem State.inq_flushPage (s : State) (t : TileId) : ((s.flushPage t).vol t).lehr.inq = (s.vol t).lehr.inq := by
  unfold State.flushPage
  split
  · rfl
  · rw [State.vol_queueJob, State.vol_onLehr]

/-! ### One archive record (R152, R158, R163) -/

/-- The record placed in the page buffer, which is queued once it is full. -/
def State.pageRecord (s : State) (t : TileId) (r : ArchRec) : State :=
  let s := s.onLehr t fun l => { l with page := l.page ++ [r], pageFirst := if l.page = [] then some s.now else l.pageFirst }
  if 256 ≤ (s.vol t).lehr.page.length then s.flushPage t else s

theorem State.stream_pageRecord (s : State) (t : TileId) (r : ArchRec) (k : Nat) :
    ((s.pageRecord t r).vol t).lehr.stream k = (s.vol t).lehr.stream k := by
  unfold State.pageRecord
  dsimp only
  split
  · rw [State.stream_flushPage, State.stream_onLehr] <;> intro <;> rfl
  · rw [State.stream_onLehr] <;> intro <;> rfl

theorem State.inq_pageRecord (s : State) (t : TileId) (r : ArchRec) : ((s.pageRecord t r).vol t).lehr.inq = (s.vol t).lehr.inq := by
  unfold State.pageRecord
  dsimp only
  split
  · rw [State.inq_flushPage, State.vol_onLehr]
  · rw [State.vol_onLehr]

section
variable (s : State) (t : TileId) (k who : Nat) (b : RecBody)

/-- Of Lehr, issuing a record leaves what placing it in the page buffer leaves, on the stream that has taken it. -/
theorem State.issue_lehr : ((s.issue t k who b).1.vol t).lehr =
    ((((s.useSlot t 6).1.onStream t k fun x => { x with
        next := ((s.vol t).lehr.stream k).next + 1, leaves := x.leaves ++ [leafHash (recBytes (s.issue t k who b).2)] }).pageRecord t
      (s.issue t k who b).2).vol t).lehr := by
  unfold State.issue State.pageRecord
  simp only [State.vol_mirror, State.vol_bump, State.qWrite_lehr]

/-- The stream goes on at the next SEQ, with the record's leaf behind those of the open batch. -/
theorem State.issue_stream : ((s.issue t k who b).1.vol t).lehr.stream k =
    { (s.vol t).lehr.stream k with
      next := ((s.vol t).lehr.stream k).next + 1
      leaves := ((s.vol t).lehr.stream k).leaves ++ [leafHash (recBytes (s.issue t k who b).2)] } := by
  rw [State.issue_lehr, State.stream_pageRecord, State.stream_onStream, State.lehr_useSlot]

theorem State.issue_inq : ((s.issue t k who b).1.vol t).lehr.inq = (s.vol t).lehr.inq := by
  rw [State.issue_lehr, State.inq_pageRecord, State.inq_onStream, State.lehr_useSlot]

/-- Under a good archive key in slot 6 the record carries that key's tag. -/
theorem State.issue_record_of_good {slot : GenSlot} (h : Tbl.get (s.vol t).vault.slots 6 = some slot) (hb : slot.bad = false) :
    (s.issue t k who b).2 =
      { seq := ((s.vol t).lehr.stream k).next, who := who, body := b
        tag := tagWith slot.key (t.val / 2) (recHead ((s.vol t).lehr.stream k).next who b) } := by
  unfold State.issue
  rw [State.useSlot_of_good h hb]

end

/-- Settles O19: the record, the next SEQ and the leaf of one issue. -/
theorem issueOne : Obligations.IssueOne := by
  intro s t k who b slot _ hslot hgood
  refine ⟨s.issue_record_of_good t k who b hslot hgood, ?_, ?_⟩ <;> rw [State.issue_stream]

end Sys2Proof.Machine

namespace Sys2Proof.Machine

/-! ### Groups that are archived (R153, R162, R171) -/

theorem exec_lehrArchiveGroup (t : TileId) (s : State) : exec (.lehrArchiveGroup t) s = .next (s.done (lehrArchiveGroup t s)) := rfl

theorem ReadingsKept.onBay {t : TileId} {s x : State} (h : ReadingsKept t s x) (b : BayId) (f : Bay → Bay) : ReadingsKept t s (x.onBay b f) :=
  h.trans ⟨rfl, rfl, rfl⟩

theorem ReadingsKept.ite {t : TileId} {s x y : State} {c : Prop} [Decidable c] (h : ReadingsKept t s x) (k : ReadingsKept t s y) :
    ReadingsKept t s (if c then x else y) := by
  split
  · exact h
  · exact k

/-- The items of a group for the standby's audit (R501) concern the bay and the mirror stream. -/
theorem ReadingsKept.audit {t : TileId} {s x : State} (h : ReadingsKept t s x) (o : Opened) (ctx : Bytes) (recs : List ArchRec) (near : Bool)
    (pairs : List Nat) : ReadingsKept t s (x.audit t o ctx recs near pairs) := by
  unfold State.audit
  exact .ite (h.onBay _ _) (((((h.onBay _ _).onBay _ _).mirror _ _).mirror _ _).mirror _ _)

/-- From `s` to `x` stream `k` has gone on by `n` SEQs; the groups that wait are the same. -/
structure Issued (t : TileId) (k n : Nat) (s x : State) : Prop where
  inq : (x.vol t).lehr.inq = (s.vol t).lehr.inq
  next : ((x.vol t).lehr.stream k).next = ((s.vol t).lehr.stream k).next + n

namespace Issued
variable {t : TileId} {k n : Nat} {s x : State}

theorem refl (t : TileId) (k : Nat) (s : State) : Issued t k 0 s s := ⟨rfl, rfl⟩

theorem of_lehr {y : State} (h : Issued t k n s x) (hl : (y.vol t).lehr = (x.vol t).lehr) : Issued t k n s y :=
  ⟨(congrArg Lehr.inq hl).trans h.inq, (congrArg (fun l => (Lehr.stream l k).next) hl).trans h.next⟩

theorem kept {y : State} (h : Issued t k n s x) (r : ReadingsKept t x y) : Issued t k n s y := h.of_lehr r.lehr

theorem issue (h : Issued t k n s x) (who : Nat) (b : RecBody) : Issued t k (n + 1) s (x.issue t k who b).1 :=
  ⟨(State.issue_inq ..).trans h.inq, by rw [State.issue_stream, h.next]; rfl⟩

theorem bump (h : Issued t k n s x) (e : Entry) (u i c : Nat) : Issued t k n s (x.bump e u i c) := h.of_lehr rfl

theorem onVol (h : Issued t k n s x) (f : Vol → Vol) (hf : ∀ v, (f v).lehr = v.lehr) : Issued t k n s (x.onVol t f) :=
  h.of_lehr (by rw [State.vol_onVol_self, hf])

theorem setMeter (h : Issued t k n s x) (slot : Nat) (r : MeterRec) : Issued t k n s (x.setMeter t slot r) := h.of_lehr (by simp)

theorem mirror (h : Issued t k n s x) (i : MItem) (c : Nat) : Issued t k n s (x.mirror t i c) := h.of_lehr (by simp)

theorem mirrors {α : Type} (h : Issued t k n s x) (l : List α) (f : α → MItem) : Issued t k n s (l.foldl (fun s a => s.mirror t (f a)) x) :=
  List.foldlRecOn (motive := Issued t k n s) l _ h fun _ hy _ _ => hy.mirror _ _

/-- A step that issues one record, taken for each element of a list. -/
theorem foldl {α β : Type} {f : State × β → α → State × β} (hf : ∀ n a p, Issued t k n s a.1 → Issued t k (n + 1) s (f a p).1) (l : List α)
    (a : State × β) (h : Issued t k n s a.1) : Issued t k (n + l.length) s (l.foldl f a).1 := by
  induction l generalizing n a with
  | nil => exact h
  | cons p l ih =>
    rw [List.foldl_cons, List.length_cons, Nat.add_comm l.length, ← Nat.add_assoc]
    exact ih _ (hf n a p h)

/-- Each record of a reading takes one SEQ. -/
theorem issueMeter (h : Issued t k n s x) (midx flags : Nat) (l : List PreRec) (near : Bool) :
    Issued t k (n + l.length) s (x.issueMeter t k midx flags l near).1 := by
  unfold State.issueMeter
  exact foldl (fun _ _ _ ha => ((ha.issue midx _).onVol _ (by intro; rfl)).setMeter _ _) l (x, []) h

/-- The records of a reading are issued, the splits that it has used up leave the mirror stream, and they are counted. -/
theorem reading {α : Type} (h : Issued t k n s x) (f : Vol → Vol) (hf : ∀ v, (f v).lehr = v.lehr) (midx flags : Nat) (l : List PreRec) (near : Bool)
    (gone : List α) (i : α → MItem) (e : Entry) (u j c : Nat) :
    Issued t k (n + l.length) s ((gone.foldl (fun s a => s.mirror t (i a)) ((x.onVol t f).issueMeter t k midx flags l near).1).bump e u j c) :=
  (((h.onVol f hf).issueMeter midx flags l near).mirrors gone i).bump e u j c

/-- A step that may be left out and issues nothing. -/
theorem leaveOut {y : State} {c : Prop} [Decidable c] (h : Issued t k n s x) (r : ReadingsKept t x y) : Issued t k n s (if c then x else y) := by
  split
  · exact h
  · exact h.kept r

end Issued

/-- A group that fits is placed in the open batch. -/
theorem State.roomFor_of_fits {s : State} {t : TileId} {k n : Nat} (h : ((s.vol t).lehr.stream k).leaves.length + n ≤ s.rd Reg.lehr_batch_max t) :
    s.roomFor t k n = s := by
  unfold State.roomFor
  exact if_neg fun hc => absurd hc.1 (Nat.not_lt.2 h)

/-- One that does not fit closes an open batch that has records of its own with cause 0. -/
theorem State.roomFor_of_full {s : State} {t : TileId} {k n : Nat} (h : s.rd Reg.lehr_batch_max t < ((s.vol t).lehr.stream k).leaves.length + n)
    (hu : ((s.vol t).lehr.stream k).used = true) : s.roomFor t k n = s.closeBatch t k 0 := by
  unfold State.roomFor
  exact if_pos ⟨h, hu⟩

theorem StreamSt.used_of_lt {x : StreamSt} (h : x.carried < x.leaves.length) : x.used = true := decide_eq_true h

/-- The oldest group leaves the queue before Lehr. -/
def State.nextGroup (s : State) (t : TileId) (rest : List Group) : State := s.onLehr t fun l => { l with inq := rest }

section
variable {s : State} {t : TileId} {k : Nat} {rest : List Group}

@[simp] theorem State.stream_nextGroup (s : State) (t : TileId) (rest : List Group) (k : Nat) :
    ((s.nextGroup t rest).vol t).lehr.stream k = (s.vol t).lehr.stream k := State.stream_onLehr _ _ _ (fun _ => rfl) fun _ => rfl

@[simp] theorem State.inq_nextGroup (s : State) (t : TileId) (rest : List Group) : ((s.nextGroup t rest).vol t).lehr.inq = rest := by
  simp [State.nextGroup]

/-- What the splits of a reading are formed from (R270) does not depend on the groups that wait. -/
theorem State.expand_nextGroup (s : State) (t : TileId) (rest : List Group) (midx rolls : Nat) (recs : List PreRec) :
    (s.nextGroup t rest).expand t midx rolls recs = s.expand t midx rolls recs := by
  have hm : ∀ j, (s.nextGroup t rest).meter t j = s.meter t j := fun j => State.meter_congr t j (by simp [State.nextGroup]) rfl
  have he : ((s.nextGroup t rest).vol t).eph = (s.vol t).eph := by simp [State.nextGroup]
  have hs : ∀ g, (s.nextGroup t rest).splitAt t midx g = s.splitAt t midx g := fun g => by
    unfold State.splitAt
    rw [hm, he]
    rfl
  unfold State.expand
  simp only [hm, hs]
  rfl

/-- A record of which a copy is held is found as well behind the group that has left. -/
theorem State.heldRec_nextGroup (s : State) (t : TileId) (rest : List Group) (q : Nat) : (s.nextGroup t rest).heldRec t q = s.heldRec t q := by
  have hm : ((s.nextGroup t rest).tile t).media = (s.tile t).media := by simp [State.nextGroup, State.onLehr, State.tile_onVol_self]
  have hp : ((s.nextGroup t rest).vol t).lehr.page = (s.vol t).lehr.page := by simp [State.nextGroup]
  unfold State.heldRec
  rw [hm, hp]

/-- Room in the open batch is the same once the group has left the queue. -/
theorem State.roomFor_nextGroup {n : Nat} (h : ((s.vol t).lehr.stream k).leaves.length + n ≤ s.rd Reg.lehr_batch_max t) :
    (s.nextGroup t rest).roomFor t k n = s.nextGroup t rest :=
  State.roomFor_of_fits (by rw [State.stream_nextGroup]; exact h)

/-- A group whose records take `n` SEQs leaves the queue, and the stream goes on behind them. -/
theorem lehrArchiveGroup_issued {n : Nat} (h : Issued t k n (s.nextGroup t rest) (lehrArchiveGroup t s)) :
    ∃ x, exec (.lehrArchiveGroup t) s = .next x ∧ (x.vol t).lehr.inq = rest ∧
      ((x.vol t).lehr.stream k).next = ((s.vol t).lehr.stream k).next + n := by
  refine ⟨_, exec_lehrArchiveGroup t s, ?_, ?_⟩
  · rw [State.done_vol, h.inq, State.inq_nextGroup]
  · rw [State.done_vol, h.next, State.stream_nextGroup]

variable (hi : s.issuing t = some k) (hr : (s.vol t).lehr.stopped = false)
include hi hr

/-- A BOOK record takes its place in the open batch, or in the next one. -/
theorem lehrArchiveGroup_book {who out : Nat} {d : Bytes} (hq : (s.vol t).lehr.inq = .book who out d :: rest) :
    lehrArchiveGroup t s = (((s.nextGroup t rest).roomFor t k 1).issue t k who (.book out d)).1 := by
  unfold lehrArchiveGroup
  rw [hq, hi]
  exact if_neg (by simp [hr])

/-- The records of a reading take one SEQ each. -/
theorem lehrArchiveGroup_meter {midx fid rolls flags : Nat} {replay : Option Nat} {recs : List PreRec} {opened : Option Opened} {ctx : Bytes}
    (hq : (s.vol t).lehr.inq = .meter midx fid replay recs rolls flags opened ctx :: rest)
    (hroom : ((s.vol t).lehr.stream k).leaves.length + (s.expand t midx rolls recs).recs.length ≤ s.rd Reg.lehr_batch_max t) :
    Issued t k (s.expand t midx rolls recs).recs.length (s.nextGroup t rest) (lehrArchiveGroup t s) := by
  unfold lehrArchiveGroup
  rw [hq, hi]
  dsimp only
  rw [if_neg (by simp [hr]), ← State.nextGroup, State.expand_nextGroup, State.roomFor_nextGroup hroom]
  rw [← Nat.zero_add (List.length _)]
  refine .kept (.leaveOut ?_ ((ReadingsKept.refl t _).mirror _ _)) (((ReadingsKept.refl t _).endReading _ _).endReplay _ _)
  split
  · exact .kept ((Issued.refl t k _).reading _ (by intro; rfl) _ _ _ _ _ _ _ _ _ _) ((ReadingsKept.refl t _).audit _ _ _ _ _)
  · exact (Issued.refl t k _).reading _ (by intro; rfl) _ _ _ _ _ _ _ _ _ _

/-- A restatement of a record that is held takes two SEQs, one for the LINK and one for the record (R171). -/
theorem lehrArchiveGroup_restate {midx prior reason flags : Nat} {replay : Option Nat} {p : PreRec} {r : ArchRec}
    (hq : (s.vol t).lehr.inq = .restate midx replay prior reason flags p :: rest) (hh : s.heldRec t prior = some r)
    (hroom : ((s.vol t).lehr.stream k).leaves.length + 2 ≤ s.rd Reg.lehr_batch_max t) :
    Issued t k 2 (s.nextGroup t rest) (lehrArchiveGroup t s) := by
  unfold lehrArchiveGroup
  rw [hq, hi]
  dsimp only
  rw [if_neg (by simp [hr]), ← State.nextGroup, State.heldRec_nextGroup, hh]
  dsimp only
  rw [State.roomFor_nextGroup hroom]
  refine .kept (.bump ?_ _ _ _ _) ((ReadingsKept.refl t _).endReplay _ _)
  exact .mirror (((Issued.refl t k _).issue midx _).issueMeter midx flags [_] _) _ _

/-- So does a restatement of a BOOK record. -/
theorem lehrArchiveGroup_bookRestate {who out prior : Nat} {d : Bytes} {r : ArchRec}
    (hq : (s.vol t).lehr.inq = .bookRestate who out prior d :: rest) (hh : s.heldRec t prior = some r)
    (hroom : ((s.vol t).lehr.stream k).leaves.length + 2 ≤ s.rd Reg.lehr_batch_max t) :
    Issued t k 2 (s.nextGroup t rest) (lehrArchiveGroup t s) := by
  unfold lehrArchiveGroup
  rw [hq, hi]
  dsimp only
  rw [if_neg (by simp [hr]), ← State.nextGroup, State.heldRec_nextGroup, hh]
  dsimp only
  rw [State.roomFor_nextGroup hroom]
  exact (((Issued.refl t k _).issue who _).issue who _).bump _ _ _ _

end

/-! ### Closings of a batch (R159, R162) -/

theorem exec_batchCloseTime (t : TileId) (s : State) : exec (.batchCloseTime t) s = .next (s.done (batchCloseTime t s)) := rfl
theorem exec_keyChange (t : TileId) (s : State) : exec (.keyChange t) s = .next (s.done (keyChange t s)) := rfl

/-- A grid point that has passed while the tile had time, later than the last one that fired, is due (R434). -/
theorem State.gridDue_of_passed {s : State} {t : TileId} {idur last g : Nat} (ht : s.hasTime t = true)
    (hg : g = gridFloor (s.rd Reg.gather_grid_phase t) idur (s.timeSec t)) (hs : (s.vol t).mer.since < g) (hl : last < g) :
    s.gridDue t idur last = some g := by
  unfold State.gridDue
  rw [← hg, ht]
  simp [hs, hl]

/-- A batch with records of its own is closed as its period ends. -/
theorem batchCloseTime_due {s : State} {t : TileId} {k g : Nat} (hi : s.issuing t = some k)
    (hg : s.gridDue t (s.rd Reg.lehr_batch_period t) (s.vol t).mer.closeSec = some g) (hu : ((s.vol t).lehr.stream k).used = true) :
    batchCloseTime t s = (s.onMer t fun m => { m with closeSec := g }).closeBatch t k 1 := by
  have hv : ((s.onMer t fun m => { m with closeSec := g }).vol t).lehr = (s.vol t).lehr := by simp [State.onMer]
  unfold batchCloseTime
  rw [hi, hg]
  exact if_pos (by rw [hv, hu])

/-- The archive key and the signing key of a generation come into use. -/
def State.useKeys (s : State) (t : TileId) (g : Nat) : State :=
  ((s.loadSlot t 6 (archPlace g)).loadSlot t 7 (blobPlace 2 7)).onLehr t fun l => { l with archGen := g, signGen := g }

theorem State.useKeys_gens (s : State) (t : TileId) (g : Nat) :
    ((s.useKeys t g).vol t).lehr.archGen = g ∧ ((s.useKeys t g).vol t).lehr.signGen = g := by simp [State.useKeys]

/-- Before the keys change, an open batch with leaves is closed with cause 5. -/
def State.closeForKeys (s : State) (t : TileId) : State :=
  match s.issuing t with
  | some k => if ((s.vol t).lehr.stream k).leaves = [] then s else s.closeBatch t k 5
  | none => s

theorem State.closeForKeys_of_empty {s : State} {t : TileId} (he : ∀ k, s.issuing t = some k → ((s.vol t).lehr.stream k).leaves = []) :
    s.closeForKeys t = s := by
  unfold State.closeForKeys
  split
  · exact if_pos (he _ ‹_›)
  · rfl

theorem State.closeForKeys_of_leaves {s : State} {t : TileId} {k : Nat} (hk : s.issuing t = some k) (hl : ((s.vol t).lehr.stream k).leaves ≠ []) :
    s.closeForKeys t = s.closeBatch t k 5 := by
  unfold State.closeForKeys
  rw [hk]
  exact if_neg hl

/-- A new generation whose blobs are durable comes into use. -/
theorem keyChange_new {s : State} {t : TileId} {g : Nat} (hj : ∀ j ∈ (s.tile t).media.jobs, ∀ l, j.2 ≠ .keys l) (hg : s.archGen t = some g)
    (hne : g ≠ (s.vol t).lehr.archGen) : keyChange t s = (s.closeForKeys t).useKeys t g := by
  unfold keyChange
  rw [hg]
  refine if_neg ?_
  rintro (h | h)
  · exact hne h
  · obtain ⟨j, hm, hkeys⟩ := List.any_eq_true.1 h
    split at hkeys
    · exact hj j hm _ ‹_›
    · cases hkeys

/-! ### The page buffer and the ring (R180, R181) -/

theorem exec_pageFlush (t : TileId) (s : State) : exec (.pageFlush t) s = .next (s.done (pageFlush t s)) := rfl
theorem exec_ringFull (t : TileId) (s : State) : exec (.ringFull t) s = .next (s.done (s.ringFull t)) := rfl

/-- A page whose first record has waited the flush time is queued. -/
theorem pageFlush_due {s : State} {t : TileId} {i : Nat} (hi : (s.vol t).lehr.pageFirst = some i)
    (hd : i + s.rd Reg.lehr_flush_time t * 1000000 ≤ s.now) : pageFlush t s = s.flushPage t := by
  unfold pageFlush
  rw [hi]
  exact if_pos hd

/-- Queueing a page empties the buffer, and no more. -/
theorem State.flushPage_effect {s : State} {t : TileId} {r : ArchRec} {l : List ArchRec} (h : (s.vol t).lehr.page = r :: l) :
    ((s.flushPage t).vol t).lehr.page = [] ∧ ((s.flushPage t).vol t).lehr.pageFirst = none ∧
      ((s.flushPage t).tile t).media.jobs = (s.tile t).media.jobs ++ [((s.tile t).media.jobCount, .archive (seqStream r.seq) (r :: l))] ∧
      (s.flushPage t).regs = s.regs ∧ (s.flushPage t).out = s.out := by
  rw [State.flushPage_of_page h]
  refine ⟨by simp, by simp, ?_, rfl, rfl⟩
  rw [State.jobs_queueJob, State.onLehr, State.tile_onVol_self]

/-- Under policy 0 a full ring stops Lehr, which is counted and raises an event. -/
theorem State.ringFull_stops {s : State} {t : TileId} (hf : (s.tile t).media.full = true) (hp : s.rd Reg.lehr_full_policy t = 0)
    (hr : (s.vol t).lehr.stopped = false) :
    s.ringFull t = (((s.onLehr t fun l => { l with stopped := true }).bump Reg.lehr_full_stops t).event t 2 0x1202).followTile t := by
  unfold State.ringFull
  simp only [hf, hp, hr, Bool.not_true, Bool.false_eq_true, if_false, if_true]

/-- The logical blocks of the ring that may be freed: those behind the head. -/
def Media.ringBlocks (m : Media) : List Nat :=
  (m.blocks.filter fun e => decide (e.2.st = .mapped) && decide (e.2.region = 0) && decide (e.2.lb ≠ m.head)).map fun e => e.2.lb

/-- The records of block `lb` are lost: those not discarded are counted, and the retained floors rise above them. -/
def State.loseBlock (s : State) (t : TileId) (m : Media) (lb : Nat) : State :=
  [0, 1].foldl (fun s k =>
    let lost := (m.arch k).filter fun a => decide (a.2.lb = lb)
    let s := s.bump Reg.lehr_overwritten t 0 (lost.countP fun a => !m.discarded a.1)
    match lost.getLast? with
    | some a => s.setFloor t k (max (m.floor k) (a.1 + 1))
    | none => s) s

/-- Under another policy the oldest block is freed, once its loss has been counted. -/
theorem State.ringFull_overwrites {s : State} {t : TileId} {x : Nat} {l : List Nat} (hf : (s.tile t).media.full = true)
    (hp : s.rd Reg.lehr_full_policy t ≠ 0) (hb : (s.tile t).media.ringBlocks = x :: l) :
    s.ringFull t = ((s.loseBlock t (s.tile t).media (l.foldl min x)).freeLb t (l.foldl min x)).resumeLehr t := by
  unfold Media.ringBlocks at hb
  unfold State.ringFull
  simp only [hf, hp, hb, Bool.not_true, Bool.false_eq_true, if_false]
  rfl

/-- Settles O18: what Lehr does with a group, at the end of a batch, as the keys change, with its page and on a full ring. -/
theorem lehrArchive : Obligations.LehrArchive := by
  refine ⟨fun s t k who out d rest hq hi hr hroom => ?_, fun s t k who out d rest hq hi hr hfull hown => ?_, fun s t k g hi ht hg hs hl hown => ?_,
    fun s t g hj hg hne hi => ?_, fun s t g k hj hg hne hi hl => ?_, fun s t i r l hi hd hp => ?_, fun s t hf hp hr => ?_,
    fun s t k midx fid rolls flags replay recs opened ctx rest hq hi hr hroom => ?_, fun s t k midx prior reason flags replay p r rest hq hi hr hh hroom => ?_,
    fun s t k who out prior d r rest hq hi hr hh hroom => ?_, fun s t g hj hg hne he => ?_, fun s t g k hj hg hne hi hl => ?_,
    fun s y t x l hf hp hb hy => ?_⟩
  · rw [exec_lehrArchiveGroup, lehrArchiveGroup_book hi hr hq, State.roomFor_nextGroup hroom, State.nextGroup]
  · rw [exec_lehrArchiveGroup, lehrArchiveGroup_book hi hr hq, State.roomFor_of_full (by rw [State.stream_nextGroup]; exact hfull)
      (by rw [State.stream_nextGroup]; exact StreamSt.used_of_lt hown), State.nextGroup]
  · rw [exec_batchCloseTime, batchCloseTime_due hi (State.gridDue_of_passed ht hg hs hl) (StreamSt.used_of_lt hown)]
  · refine ⟨_, exec_keyChange t s, ?_⟩
    rw [keyChange_new (by simp [hj]) hg hne, State.closeForKeys_of_empty (by simp [hi]), State.done_vol]
    exact State.useKeys_gens ..
  · rw [exec_keyChange, keyChange_new (by simp [hj]) hg hne, State.closeForKeys_of_leaves hi hl, State.useKeys]
  · obtain ⟨hpage, hfirst, hjobs, hregs, hout⟩ := State.flushPage_effect hp
    refine ⟨_, exec_pageFlush t s, ?_⟩
    rw [pageFlush_due hi hd, State.done_vol, State.done_mediaRegs _ _ _ hregs, State.done_regs _ _ hregs, State.done_out]
    exact ⟨hpage, hfirst, hjobs, rfl, hout⟩
  · rw [exec_ringFull, State.ringFull_stops hf hp hr]
  · exact lehrArchiveGroup_issued (lehrArchiveGroup_meter hi hr hq hroom)
  · exact lehrArchiveGroup_issued (lehrArchiveGroup_restate hi hr hq hh hroom)
  · exact lehrArchiveGroup_issued (lehrArchiveGroup_bookRestate hi hr hq hh hroom)
  · rw [exec_keyChange, keyChange_new hj hg hne, State.closeForKeys_of_empty he, State.useKeys]
  · rw [exec_keyChange, keyChange_new hj hg hne, State.closeForKeys_of_leaves hi hl, State.useKeys]
  · rw [exec_ringFull, State.ringFull_overwrites hf hp hb, hy]
    rfl

end Sys2Proof.Machine

namespace Sys2Proof.Machine

/-! ### Proofs (R169) -/

theorem exec_lehrProof (t : TileId) (s : State) : exec (.lehrProof t) s = .next (s.done (lehrProof t s)) := rfl

/-- The record of a closed batch with all its leaves held is proved: block and result. -/
theorem lehrProof_proves {s : State} {t : TileId} {q : Nat} {r : ArchRec} {c : Closure} {leaves : List ArchRec} (hq : s.rd Reg.lehr_proof_seq t = q)
    (hr : (s.held t (seqStream q)).find? (fun r => decide (r.seq = q)) = some r) (hgap : inGap (s.closures t (seqStream q)) q = false)
    (hc : (s.closures t (seqStream q)).find? (fun c => decide (c.first ≤ q) && decide (q < c.first + c.count)) = some c)
    (hl : leavesOf (s.held t (seqStream q)) c = some leaves) :
    lehrProof t s = ((s.wrB Reg.lehr_proof_block t 0
      ([1] ++ natLE 1 (treePath 16 (q - c.first) (leaves.map fun x => leafHash (recBytes x))).length ++ natLE 2 (q - c.first) ++ natLE 2 c.count ++ [0, 0] ++
        recBytes r ++ recBytes c.h ++ recBytes c.r ++ recBytes c.s ++
        fit 384 (treePath 16 (q - c.first) (leaves.map fun x => leafHash (recBytes x))).flatten)).wr Reg.lehr_proof_result t 0).answer t .ok := by
  subst hq
  unfold lehrProof
  simp only [hr, hgap, hc, hl, Bool.false_eq_true, if_false]

/-- A record that is not held gives result 1. -/
theorem lehrProof_notHeld {s : State} {t : TileId}
    (h : (s.held t (seqStream (s.rd Reg.lehr_proof_seq t))).find? (fun r => decide (r.seq = s.rd Reg.lehr_proof_seq t)) = none) :
    lehrProof t s = (s.wr Reg.lehr_proof_result t 1).answer t .ok := by
  unfold lehrProof
  simp only [h]

/-! ### Verification (R170) -/

theorem exec_lehrVerify (t : TileId) (s : State) : exec (.lehrVerify t) s = .next (s.done (lehrVerify t s)) := rfl

/-- Archive keys of older generations pass through general slot 8. -/
def State.loadGens (s : State) (t : TileId) (gens : List Nat) : State := gens.foldl (fun s g => s.loadSlot t 8 (archPlace g)) s

@[simp] theorem State.out_loadSlot (s : State) (t : TileId) (n place : Nat) : (s.loadSlot t n place).out = s.out := by
  unfold State.loadSlot
  split <;> rfl

@[simp] theorem State.out_loadGens (s : State) (t : TileId) (gens : List Nat) : (s.loadGens t gens).out = s.out :=
  State.each_keeps State.out gens (fun s g => s.loadSlot t 8 (archPlace g)) s fun _ _ => State.out_loadSlot ..

section
variable {s : State} {t : TileId} {q : Nat} (hab : s.rd Reg.lehr_verify_first t ≤ s.rd Reg.lehr_verify_last t)
include hab

/-- Closed batches and open leaves that all verify give result 0. -/
theorem lehrVerify_passes
    (hc : verifyClosed s t (s.held t (seqStream (s.rd Reg.lehr_verify_first t))) (s.closures t (seqStream (s.rd Reg.lehr_verify_first t)))
      (s.rd Reg.lehr_verify_last t) (s.rd Reg.lehr_verify_first t) (s.closures t (seqStream (s.rd Reg.lehr_verify_first t))) = .ok q)
    (ho : verifyOpen s t (s.closures t (seqStream (s.rd Reg.lehr_verify_first t))) (s.lehrGens t).1 (s.rd Reg.lehr_verify_last t) q
      (s.held t (seqStream (s.rd Reg.lehr_verify_first t))) = none) :
    ∃ gens, lehrVerify t s = ((s.loadGens t gens).wr Reg.lehr_verify_result t 0).answer t .ok := by
  unfold lehrVerify
  simp only [if_neg (Nat.not_lt.2 hab), hc, ho]
  exact ⟨_, rfl⟩

/-- A closed batch that fails other than by a TAG gives its code and SEQ. -/
theorem lehrVerify_fails {code : Nat} (h1 : code ≠ 1)
    (hc : verifyClosed s t (s.held t (seqStream (s.rd Reg.lehr_verify_first t))) (s.closures t (seqStream (s.rd Reg.lehr_verify_first t)))
      (s.rd Reg.lehr_verify_last t) (s.rd Reg.lehr_verify_first t) (s.closures t (seqStream (s.rd Reg.lehr_verify_first t))) = .error (code, q)) :
    ∃ gens, lehrVerify t s = (((s.loadGens t gens).wr Reg.lehr_verify_result t code).wr Reg.lehr_verify_bad_seq t q).answer t .ok := by
  unfold lehrVerify
  simp only [if_neg (Nat.not_lt.2 hab), hc, if_neg h1]
  exact ⟨_, rfl⟩

end

/-- A range inside one closed batch that verifies is checked up to the batch's HEADER. -/
theorem verifyClosed_of_one {s : State} {t : TileId} {l : List ArchRec} {a b : Nat} {c : Closure} (hca : c.first ≤ a) (hab : a ≤ b)
    (hb : b < c.first + c.count) (hh : c.first + c.count ≤ c.h.seq) (hv : verifyBatch s t l [c] c = none) :
    verifyClosed s t l [c] b a [c] = .ok c.h.seq := by
  unfold verifyClosed
  rw [if_neg (by omega), if_neg (by omega), if_neg (by omega), if_pos (by omega), hv]
  rfl

/-- Behind the end of the range no leaf is checked. -/
theorem verifyOpen_of_past {s : State} {t : TileId} {cs : List Closure} {g b q : Nat} (h : b < q) (l : List ArchRec) :
    verifyOpen s t cs g b q l = none := by
  cases l with
  | nil => exact if_neg (Nat.not_le.2 h)
  | cons r l => exact if_pos h

theorem quiet_lehr_proof_result : Reg.lehr_proof_result.quiet 0 = true := by decide
theorem quiet_lehr_verify_result : Reg.lehr_verify_result.quiet 0 = true := by decide
theorem quiet_lehr_verify_bad_seq : Reg.lehr_verify_bad_seq.quiet 0 = true := by decide

/-- What a range that verifies shows. -/
theorem exec_lehrVerify_of_passes {s : State} {t : TileId}
    (h : ∃ gens, lehrVerify t s = ((s.loadGens t gens).wr Reg.lehr_verify_result t 0).answer t .ok) :
    ∃ x, exec (.lehrVerify t) s = .next x ∧ x.rd Reg.lehr_verify_result t = 0 ∧ x.out = s.out ++ [.answer t .ok] := by
  obtain ⟨gens, hv⟩ := h
  refine ⟨_, exec_lehrVerify t s, ?_⟩
  rw [State.rd_done _ _ _ _ _ quiet_lehr_verify_result, State.done_out, hv, State.rd_answer, State.rd_wr_self]
  exact ⟨Nat.zero_mod _, by simp⟩

/-! ### FETCH and ACK_DISCARD (R176, R179) -/

theorem exec_fetch_direct (t : TileId) (first last : Nat) (s : State) :
    exec (.fetch (.direct t first last)) s = .next (s.done (fetchDirect t first last s)) := rfl
theorem exec_ackDiscard_direct (t : TileId) (first last : Nat) (s : State) :
    exec (.ackDiscard (.direct t first last)) s = .next (s.done (ackDiscard t first last s)) := rfl

theorem badRange_eq_false {a b : Nat} (hab : a ≤ b) (hs : seqStream a = seqStream b) : badRange a b = false := by
  simp [badRange, hab, hs]

/-- A range of at most 65 536 SEQs of one stream is counted and put out. -/
theorem fetchDirect_ok {s : State} {t : TileId} {first last : Nat} (hr : s.reach t false false = .go) (hle : first ≤ last)
    (hs : seqStream first = seqStream last) (hn : last < first + 65536) :
    fetchDirect t first last s = (s.countFetch t first last).emit (.bytes t (s.fetchSlots t first last)) := by
  have hbad : fetchBad first last = false := by
    rw [fetchBad, badRange_eq_false hle hs, Bool.false_or]
    exact decide_eq_false (by omega)
  unfold fetchDirect
  rw [hr]
  exact if_neg (by simp [hbad])

/-- A fold whose steps never fall is at least what it starts from. -/
theorem le_foldl {α : Type} {f : Nat → α → Nat} (hf : ∀ a y, a ≤ f a y) (l : List α) (a : Nat) : a ≤ l.foldl f a :=
  List.foldlRecOn (motive := fun n => a ≤ n) l f le_rfl fun _ h y _ => h.trans (hf _ y)

/-- It is at least what one of its steps gives. -/
theorem le_foldl_of_mem {α : Type} {f : Nat → α → Nat} {l : List α} {x : α} {n : Nat} (hf : ∀ a y, a ≤ f a y) (hx : x ∈ l) (hn : ∀ a, n ≤ f a x)
    (a : Nat) : n ≤ l.foldl f a := by
  induction l generalizing a with
  | nil => cases hx
  | cons y l ih =>
    cases hx with
    | head => exact (hn a).trans (le_foldl hf l _)
    | tail _ hx => exact ih hx _

/-- A range below a HEADER that is held, with room for it among the discarded ranges, is queued for the map journal and mirrored. -/
theorem ackDiscard_queues {s : State} {t : TileId} {first last a b cause kg sg : Nat} {h : ArchRec} {root : Bytes} (hv : s.serves t = true)
    (hle : first ≤ last) (hs : seqStream first = seqStream last) (hh : h ∈ s.held t (seqStream first)) (hb : h.body = .header a b cause kg sg root)
    (hlast : last < h.seq) (hj : (s.tile t).media.jobs = []) (hm : (s.tile t).media.mapQ = [])
    (hn : (s.tile t).media.rangesCounted (seqStream first) (mergeRange ((s.tile t).media.disc (seqStream first)) (first, last)) ≤ 4096) :
    ackDiscard t first last s =
      (s.queueMap t (.discard (seqStream first) first last (some s.acts.now))).mirror t (.discard (seqStream first) first last) := by
  unfold ackDiscard
  dsimp only
  rw [hj, hm, if_neg (by simp [hv]), if_neg (by simp [badRange_eq_false hle hs]), if_neg, List.flatMap_nil,
    List.append_nil, List.foldl_nil, if_neg (Nat.not_lt.2 hn)]
  refine Nat.not_le.2 (Nat.lt_of_lt_of_le (Nat.succ_lt_succ hlast) (le_foldl_of_mem (fun n r => ?_) hh (fun n => ?_) 0))
  · split
    · exact Nat.le_max_left _ _
    · exact le_rfl
  · rw [hb]
    exact Nat.le_max_right _ _

/-- Settles O20: proof, verification, FETCH and ACK_DISCARD, each where its conditions hold. -/
theorem lehrRanges : Obligations.LehrRanges := by
  refine ⟨fun s t q r c leaves hq hr hgap hc hl => ?_, fun s t a b c ha hb hcs hca hab hbc hh hv => ?_, fun s t first last hr hle hs hn => ?_,
    fun s t first last h a b cause kg sg root hv hle hs hh hb hlast hpos hj hm hd hn => ?_, fun s t a b q ha hb hab hc ho => ?_,
    fun s t a b code q ha hb hab hq hc h1 h5 => ?_, fun s t first last h a b cause kg sg root hv hle hs hh hb hlast hj hm hn => ?_, fun s t h => ?_⟩
  · rw [exec_lehrProof, lehrProof_proves hq hr hgap hc hl]
  · subst ha hb
    rw [← hcs] at hv
    refine exec_lehrVerify_of_passes (lehrVerify_passes hab (q := c.h.seq) ?_ (verifyOpen_of_past (by omega) _))
    rw [hcs] at hv ⊢
    exact verifyClosed_of_one hca hab hbc hh hv
  · refine ⟨_, exec_fetch_direct t first last s, ?_⟩
    rw [State.done_out, fetchDirect_ok hr hle hs hn]
    exact ⟨rfl, fun u => by rw [State.done_vol]; rfl⟩
  · rw [exec_ackDiscard_direct, ackDiscard_queues hv hle hs (hh ▸ List.mem_singleton_self h) hb (by omega) hj hm (hd ▸ hn)]
  · subst ha hb
    exact exec_lehrVerify_of_passes (lehrVerify_passes hab hc ho)
  · subst ha hb
    obtain ⟨gens, hv⟩ := lehrVerify_fails hab (by omega) hc
    refine ⟨_, exec_lehrVerify t s, ?_⟩
    rw [State.rd_done _ _ _ _ _ quiet_lehr_verify_result, State.rd_done _ _ _ _ _ quiet_lehr_verify_bad_seq, State.done_out, hv, State.rd_answer,
      State.rd_answer, State.rd_wr_place _ Reg.lehr_verify_result Reg.lehr_verify_bad_seq rfl (by decide), State.rd_wr_self, State.rd_wr_self]
    exact ⟨Nat.mod_eq_of_lt (h5.trans (by decide)), Nat.mod_eq_of_lt hq, by simp⟩
  · rw [exec_ackDiscard_direct, ackDiscard_queues hv hle hs hh hb hlast hj hm hn]
  · refine ⟨_, exec_lehrProof t s, ?_⟩
    rw [State.rd_done _ _ _ _ _ quiet_lehr_proof_result, State.done_out, lehrProof_notHeld h, State.rd_answer, State.rd_wr_self]
    exact ⟨rfl, by simp⟩

end Sys2Proof.Machine

namespace Sys2Proof.Machine

/-! ### A message that passes the checks of the hub (R394, R398, R403, R404, R410) -/

/-- The commands by which a protected message of each TYPE arrives on a lane. -/
def hostRows (lane : Fin 2) (peer : Bytes) (m : HostMsg) : List (Nat × Instr) :=
  [(1, .get lane peer m), (2, .set lane peer m), (3, .getBlock lane peer m), (4, .setBlock lane peer m), (5, .subscribe lane peer m),
    (6, .unsubscribe lane peer m), (7, .fetch (.host lane peer m)), (8, .ackDiscard (.host lane peer m)), (9, .exec lane peer m), (10, .close lane peer m)]

/-- Each of them is the arrival of a message of its TYPE. -/
theorem exec_hostRow {lane : Fin 2} {peer : Bytes} {m : HostMsg} {type : Nat} {c : Instr} (h : (type, c) ∈ hostRows lane peer m) (s : State) :
    exec c s = .next (s.done (hostRequest lane peer type m s)) := by
  simp only [hostRows, List.mem_cons, Prod.mk.injEq, List.not_mem_nil, or_false] at h
  obtain ⟨rfl, rfl⟩ | ⟨rfl, rfl⟩ | ⟨rfl, rfl⟩ | ⟨rfl, rfl⟩ | ⟨rfl, rfl⟩ | ⟨rfl, rfl⟩ | ⟨rfl, rfl⟩ | ⟨rfl, rfl⟩ | ⟨rfl, rfl⟩ | ⟨rfl, rfl⟩ := h <;> rfl

@[simp] theorem HSess.accept_chan (x : HSess) (seq : Nat) : (x.accept seq).chan = x.chan := by
  unfold HSess.accept
  split <;> rfl

section
variable {s : State} {lane : Fin 2} {type : Nat} {m : HostMsg} {k : Nat} {x : HSess} {p : Bytes}

/-- A message that opens is taken and handed on. -/
theorem hostRequest_opened (h : s.opened lane type m k x p) (peer : Bytes) :
    hostRequest lane peer type m s = (s.taken lane m k x).dispatchReq false (requestOf type m k p) := by
  obtain ⟨hlane, hform, hfind, hchan, hlen, hopen, hcache, hprog, hfresh, hseq, hstatus, href, hflags, hp⟩ := h
  have hlanes : ((lane : Nat) = serialChan) = False := eq_false (Nat.ne_of_lt lane.isLt)
  have hbad : decide (m.status ≠ 0 ∨ m.ref ≠ 0 ∨ 4 ≤ m.flags ∨ m.len ≠ p.length) = false :=
    decide_eq_false (by simp [hstatus, href, hp, hflags])
  unfold hostRequest arrive State.receive
  rw [hlane, hform]
  simp only [State.bump_pier, hfind, hlanes, hchan, hopen, hcache, hprog, hfresh, hseq, hbad, Nat.not_lt.2 hlen, ne_eq, not_true_eq_false, if_false,
    Bool.false_eq_true, Bool.true_eq_false, or_self]
  rfl

theorem State.opened.exec_eq {c : Instr} {peer : Bytes} (h : s.opened lane type m k x p) (hc : (type, c) ∈ hostRows lane peer m) :
    exec c s = .next (s.done ((s.taken lane m k x).dispatchReq false (requestOf type m k p))) := by
  rw [exec_hostRow hc, hostRequest_opened h]

/-- A session of a lane is not that of the service bus. -/
theorem State.opened.not_serial (h : s.opened lane type m k x p) : (s.taken lane m k x).isSerial k = false := by
  obtain ⟨-, -, -, hchan, -⟩ := h
  simp [State.isSerial, State.taken, State.onHub, State.onPier, hchan]

end

/-! ### The order of requests (R410) -/

section
variable {s : State} {r : HReq} {g : Tgt} (hg : tgtOf r.target = some g)
include hg

/-- A request that no earlier one of its session to the same target holds up is carried out. -/
theorem State.dispatchReq_carries
    (hfree : (s.hubAnswers.pier.hub.begun r.sess r.target || waitsFor s.hubAnswers.pier.hub.waits r.sess r.target) = false) :
    s.dispatchReq false r = s.hubAnswers.carry g r := by
  unfold State.dispatchReq
  rw [hg]
  dsimp only
  rw [hfree]
  rfl

/-- One that is held up waits, unless the hub answers it by itself. -/
theorem State.dispatchReq_holds
    (hheld : (s.hubAnswers.pier.hub.begun r.sess r.target || waitsFor s.hubAnswers.pier.hub.waits r.sess r.target) = true)
    (hd : s.hubAnswers.denied r.sess r.type g r.payload = false) : s.dispatchReq false r = s.hubAnswers.hold r := by
  unfold State.dispatchReq
  rw [hg]
  dsimp only
  rw [hheld, hd]
  rfl

end

/-- With no EXEC open and no action completed the hub has nothing to answer. -/
theorem State.hubAnswers_of_idle {s : State} (he : s.pier.hub.execs = []) (hf : s.acts.fins = []) : s.hubAnswers = s := by
  unfold State.hubAnswers
  rw [he, List.foldl_nil, ← hf]

theorem State.requested.to_opened {s : State} {lane : Fin 2} {type : Nat} {m : HostMsg} {k : Nat} {x : HSess} {p : Bytes}
    (h : s.requested lane type m k x p) : s.opened lane type m k x p := h.1

/-- With nothing under way in the hub a request is carried out at once. -/
theorem State.requested.exec_eq {s : State} {lane : Fin 2} {type : Nat} {m : HostMsg} {k : Nat} {x : HSess} {p peer : Bytes} {c : Instr} {g : Tgt}
    (h : s.requested lane type m k x p) (hc : (type, c) ∈ hostRows lane peer m) (hg : tgtOf m.target = some g) :
    exec c s = .next (s.done ((s.taken lane m k x).carry g (requestOf type m k p))) := by
  obtain ⟨hopen, -, hexecs, hsets, hwaits, hfins⟩ := h
  have hans : (s.taken lane m k x).hubAnswers = s.taken lane m k x := State.hubAnswers_of_idle hexecs hfins
  have hfree : ((s.taken lane m k x).pier.hub.begun k m.target || waitsFor (s.taken lane m k x).pier.hub.waits k m.target) = false := by
    simp [Hub.begun, waitsFor, State.taken, State.onHub, State.onPier, hexecs, hsets, hwaits]
  rw [hopen.exec_eq hc, State.dispatchReq_carries hg (by rw [hans]; exact hfree), hans]

/-! ### Who carries a request out (R395, R405, R409) -/

section
variable {s : State} {r : HReq}

/-- What is not for a tile, the Pier carries out. -/
theorem State.carry_pier {g : Tgt} (ht : r.type ≠ 10) (hg : ∀ t, g ≠ .tile t) : s.carry g r = s.perform g r := by
  unfold State.carry
  rw [if_neg ht]
  cases g with
  | tile t => exact absurd rfl (hg t)
  | dev => rfl
  | bay b => rfl

/-- A tile that runs carries out what reaches it through P2. -/
theorem State.carry_tile {t : TileId} {z : State} (ht : r.type ≠ 10) (hp : forPier (.tile t) r.type r.payload = false) (hs : s.isSerial r.sess = false)
    (hr : s.reach t false (forCode (.tile t) r.type r.payload) = .go) (ho : s.p2Open t r = true) (hz : s.p2In t r = (z, true)) :
    s.carry (.tile t) r = z.perform (.tile t) { r with p2 := true } := by
  unfold State.carry State.toTile
  simp only [if_neg ht, hp, hs, hr, ho, hz, Bool.false_or, Bool.false_eq_true, if_false, if_true]

/-- CLOSE is answered, and its session ends. -/
theorem State.carry_close {g : Tgt} (ht : r.type = 10) (hp : r.payload = []) : s.carry g r = (s.reply r .ok []).endSession r.sess := by
  unfold State.carry
  rw [if_pos ht, if_pos hp]

end

section
variable {s : State} {lane : Fin 2} {type : Nat} {m : HostMsg} {k : Nat} {x : HSess} {p peer : Bytes} {c : Instr}
  (h : s.requested lane type m k x p) (hc : (type, c) ∈ hostRows lane peer m) (ht : type ≠ 10)
include h hc ht

/-- A request for the device or a bay: the Pier has carried it out. -/
theorem State.requested.exec_pier {g : Tgt} (hg : tgtOf m.target = some g) (hnt : ∀ t, g ≠ .tile t) :
    exec c s = .next (s.done ((s.taken lane m k x).perform g (requestOf type m k p))) := by
  rw [h.exec_eq hc hg, State.carry_pier ht hnt]

/-- A request for a tile that runs: the tile has carried it out. -/
theorem State.requested.exec_tile {t : TileId} {z : State} (hg : tgtOf m.target = some (.tile t)) (hp : forPier (.tile t) type p = false)
    (hr : (s.taken lane m k x).reach t false (forCode (.tile t) type p) = .go) (ho : (s.taken lane m k x).p2Open t (requestOf type m k p) = true)
    (hz : (s.taken lane m k x).p2In t (requestOf type m k p) = (z, true)) :
    exec c s = .next (s.done (z.perform (.tile t) { requestOf type m k p with p2 := true })) := by
  rw [h.exec_eq hc hg, State.carry_tile (r := requestOf type m k p) ht hp h.to_opened.not_serial hr ho hz]

end

/-- FETCH and ACK_DISCARD name no entry, so the tile itself answers them. -/
theorem forPier_range {type : Nat} (h : type = 7 ∨ type = 8) (t : TileId) (p : Bytes) : forPier (.tile t) type p = false := by
  obtain rfl | rfl := h <;> rfl

theorem forCode_range {type : Nat} (h : type = 7 ∨ type = 8) (t : TileId) (p : Bytes) : forCode (.tile t) type p = false := by
  obtain rfl | rfl := h <;> rfl

/-! ### The end of a session (R399, R405) -/

/-- The staging locks of other sessions. -/
def Hub.locksBut (h : Hub) (k : Nat) : Tbl (Nat × Nat) := h.locks.filter fun e => decide (e.2.1 ≠ k)

theorem State.endSession_sess (s : State) (k : Nat) : Tbl.get (s.endSession k).pier.hub.sess k = none := Tbl.get_del_self _ _

theorem State.endSession_locks (s : State) (k : Nat) : (s.endSession k).pier.hub.locks = s.pier.hub.locksBut k := rfl

theorem State.sendFrame_locks (s : State) (k target : Nat) (b : Bytes) : (s.sendFrame k target b).pier.hub.locks = s.pier.hub.locks := by
  have hput : ∀ chan peer, (s.putFrame chan peer b).pier = s.pier := fun chan peer => by
    unfold State.putFrame
    split <;> rfl
  unfold State.sendFrame
  split
  · rfl
  · dsimp only
    split
    · rw [hput]
    · split
      · rfl
      · split <;> rfl

/-- A message sent to a session leaves the locks of the others. -/
theorem State.message_locksBut (s : State) (k type target status ref : Nat) (last : Bool) (p : Bytes) :
    (s.message k type target status ref last p).1.pier.hub.locksBut k = s.pier.hub.locksBut k := by
  unfold State.message
  split
  · rfl
  · split
    · simp only [Hub.locksBut, State.endSession_locks, List.filter_filter, Bool.and_self]
    · simp only [Hub.locksBut, State.sendFrame_locks]
      rfl

/-- So does the Pier's answer to one of its requests. -/
theorem State.reply_locksBut (s : State) {r : HReq} (hr : r.p2 = false) (st : Status) (p : Bytes) :
    (s.reply r st p).pier.hub.locksBut r.sess = s.pier.hub.locksBut r.sess := by
  unfold State.reply State.replyCode
  rw [hr]
  dsimp only
  split <;> exact State.message_locksBut ..

/-- Settles O40: who carries a request out, which one waits, and what CLOSE ends. -/
theorem hostRequests : Obligations.HostRequests := by
  refine ⟨fun s lane peer p m k x h hg => ?_, fun s lane peer p m k x h hg => ?_, fun s lane peer p m k x h hg => ?_, fun s lane peer p m k x h hg => ?_,
    fun s lane peer p m k x g h hg hnt => ?_, fun s lane peer p m k x g h hg hnt => ?_, fun s z lane peer p m k x t h hg hr ho hz => ?_,
    fun s z lane peer p m k x t h hg hr ho hz => ?_, fun s z lane peer p m k type x t c hc h hg hp hr ho hz => ?_, fun s lane peer p m k x h hg => ?_,
    fun s lane peer m k x g h hg => ?_, fun s lane peer p m k type x g c hc h hg hfree => ?_, fun s lane peer p m k type x g c hc h hg hheld hd => ?_⟩
  · exact h.exec_pier (peer := peer) (by simp [hostRows]) (by decide) hg (by simp)
  · exact h.exec_pier (peer := peer) (by simp [hostRows]) (by decide) hg (by simp)
  · exact h.exec_pier (peer := peer) (by simp [hostRows]) (by decide) hg (by simp)
  · exact h.exec_pier (peer := peer) (by simp [hostRows]) (by decide) hg (by simp)
  · exact h.exec_pier (peer := peer) (by simp [hostRows]) (by decide) hg hnt
  · exact h.exec_pier (peer := peer) (by simp [hostRows]) (by decide) hg hnt
  · exact h.exec_tile (peer := peer) (by simp [hostRows]) (by decide) hg (forPier_range (.inl rfl) t p) (by rwa [forCode_range (.inl rfl)]) ho hz
  · exact h.exec_tile (peer := peer) (by simp [hostRows]) (by decide) hg (forPier_range (.inr rfl) t p) (by rwa [forCode_range (.inr rfl)]) ho hz
  · have hrow : (type, c) ∈ hostRows lane peer m := by
      simp only [hostRows, List.mem_cons] at hc ⊢
      tauto
    have ht : type ≠ 10 := by
      rintro rfl
      simp at hc
    exact h.exec_tile hrow ht hg hp hr ho hz
  · exact h.exec_pier (peer := peer) (by simp [hostRows]) (by decide) hg (by simp)
  · refine ⟨_, h.exec_eq (peer := peer) (by simp [hostRows]) hg, ?_⟩
    rw [State.carry_close rfl rfl, State.done_pier, State.endSession_locks]
    exact ⟨State.endSession_sess _ _, State.reply_locksBut _ rfl _ _⟩
  · rw [h.exec_eq hc, State.dispatchReq_carries hg hfree]
  · rw [h.exec_eq hc, State.dispatchReq_holds hg hheld hd]

end Sys2Proof.Machine

namespace Sys2Proof.Machine

/-! ### The Balance engine as a part of a tile -/

@[simp] theorem State.vol_onBal (s : State) (t : TileId) (f : Bal → Bal) :
    (s.onBal t f).vol t = { s.vol t with bal := f (s.vol t).bal } := State.vol_onVol_self ..
@[simp] theorem State.regs_onBal (s : State) (t : TileId) (f : Bal → Bal) : (s.onBal t f).regs = s.regs := rfl
@[simp] theorem State.now_onBal (s : State) (t : TileId) (f : Bal → Bal) : (s.onBal t f).now = s.now := rfl
@[simp] theorem State.out_onBal (s : State) (t : TileId) (f : Bal → Bal) : (s.onBal t f).out = s.out := rfl

@[simp] theorem State.vol_countRaised (s : State) (t u : TileId) : (s.countRaised t).vol u = s.vol u := rfl
@[simp] theorem State.out_countRaised (s : State) (t : TileId) : (s.countRaised t).out = s.out := rfl

/-! ### Taking the feed (R185) -/

theorem exec_balanceFeed (t : TileId) (s : State) : exec (.balanceFeed t) s = .next (s.done (s.feedStep t).1) := rfl

section
variable {s : State} {t : TileId} {r : ArchRec} (hready : (s.vol t).bal.ready = true) (hread : (s.qRead t 2).2 = some (.record r))
include hready hread

/-- A record older than the one expected is passed over. -/
theorem State.feedStep_of_taken (h : r.seq < ((s.qRead t 2).1.vol t).bal.next) : (s.feedStep t).1 = (s.qRead t 2).1 := by
  unfold State.feedStep
  simp only [hready, hread, h, Bool.not_true, Bool.false_eq_true, if_false, if_true]

/-- A record is taken behind those that the archive holds between it and the one expected. -/
theorem State.feedStep_of_untaken {n : Nat} (hn : ((s.qRead t 2).1.vol t).bal.next = n) (h : n ≤ r.seq) :
    (s.feedStep t).1 =
      ((if n ≠ 0 ∧ n < r.seq then
          (((s.qRead t 2).1.archived t (seqStream r.seq)).filter fun y => decide (n ≤ y.seq) && decide (y.seq < r.seq)).foldl
            (fun s y => s.takeRecord t y) ((s.qRead t 2).1.bump Reg.balance_feed_gaps t)
        else (s.qRead t 2).1).takeRecord t r).onBal t fun y => { y with next := r.seq + 1 } := by
  unfold State.feedStep
  simp only [hready, hread, hn, Nat.not_lt.2 h, Bool.not_true, Bool.false_eq_true, if_false]

end

/-! ### Ticks (R201, R219) -/

theorem exec_closeTick (t : TileId) (s : State) : exec (.closeTick t) s = .next (s.done (closeTick t s)) := rfl
theorem exec_gridChangeTick (t : TileId) (s : State) : exec (.gridChangeTick t) s = .next (s.done (gridChangeTick t s)) := rfl

/-- The books of the old grid, and those that its ticks have closed, go with it. -/
def Bal.leaveGrid (g : BGrid) (y : Bal) : Bal :=
  Bal.shedTree { y with grid := none, closed := y.closed.filter fun c => decide (g.tx < c.t), books := y.books.filter fun e => decide (g.tx < e.1),
                        volts := y.volts.filter fun e => decide (g.tx < e.1) }

theorem Bal.mem_books_leaveGrid {g : BGrid} {y : Bal} {e : Nat × List BShare} (h : e ∈ (y.leaveGrid g).books) : g.tx < e.1 :=
  of_decide_eq_true (List.mem_filter.1 h).2
theorem Bal.mem_closed_leaveGrid {g : BGrid} {y : Bal} {c : BClosed} (h : c ∈ (y.leaveGrid g).closed) : g.tx < c.t :=
  of_decide_eq_true (List.mem_filter.1 h).2

/-- The ends of the books of the old grid that are still to close. -/
def BGrid.ends (g : BGrid) : List Nat := (List.range ((g.tx - g.tc) / g.bOld)).map fun i => g.tc + (i + 1) * g.bOld

theorem BGrid.ends_of_one {g : BGrid} (h : g.tx = g.tc + g.bOld) (hb : 0 < g.bOld) : g.ends = [g.tx] := by
  unfold BGrid.ends
  rw [h, Nat.add_sub_cancel_left, Nat.div_self hb]
  simp

section
variable {s : State} {t : TileId} {k : Nat} (hready : (s.vol t).bal.ready = true) (htime : s.hasTime t = true)
  (hgoes : (s.vol t).lehr.stopped = false) (hissue : s.issuing t = some k)
include hready htime hgoes hissue

/-- A tick is closed once its close window has passed. -/
theorem closeTick_of_due {T : Nat}
    (hT : T = if (s.vol t).bal.tick = 0 ∨ (s.vol t).bal.tick < (s.vol t).bal.first then (s.vol t).bal.first else (s.vol t).bal.tick + (s.vol t).bal.b)
    (hdue : T + s.rd Reg.balance_close_window t * (s.vol t).bal.b ≤ s.timeSec t) : closeTick t s = s.tick t [T] T (s.vol t).bal.b 0 := by
  unfold closeTick
  dsimp only
  rw [← hT, if_neg (by simp [hready, htime, hgoes, hissue, hdue])]

/-- The old grid's ticks are closed at once, and the grid is left. -/
theorem gridChangeTick_of_due {g : BGrid} (hg : (s.vol t).bal.grid = some g) (hdue : g.at_ ≤ s.timeSec t) (hb : 0 < g.bOld) :
    gridChangeTick t s = (s.tick t g.ends g.tx g.bOld g.tx).onBal t (Bal.leaveGrid g) := by
  unfold gridChangeTick
  simp only [hg]
  rw [if_neg (by simp [hready, htime, hgoes, hissue, hdue]), Nat.max_eq_left hb]
  rfl

end

/-- Settles O21: what the feed gives the engine, which ticks close, and how a grid is left. -/
theorem balanceFeed : Obligations.BalanceFeed := by
  refine ⟨fun s t r hready hread hnext => ?_, fun s t k hready htime hgoes hissue h0 hfirst hdue => ?_,
    fun s t k g hg hready htime hgoes hissue hdue hone hb => ?_, fun s t k T hready htime hgoes hissue hT hdue => ?_,
    fun s t k g hg hready htime hgoes hissue hdue hb => ?_, fun s t r hready hread h => ?_, fun s y t r n hready hread hn h0 hgap hy => ?_⟩
  · rw [exec_balanceFeed, State.feedStep_of_untaken hready hread hnext le_rfl, if_neg (by simp)]
  · rw [exec_closeTick, closeTick_of_due hready htime hgoes hissue (by rw [if_neg (by omega)]) hdue]
  · rw [exec_gridChangeTick, gridChangeTick_of_due hready htime hgoes hissue hg hdue hb, BGrid.ends_of_one hone hb]
    rfl
  · rw [exec_closeTick, closeTick_of_due hready htime hgoes hissue hT hdue]
  · refine ⟨_, s.tick t g.ends g.tx g.bOld g.tx, exec_gridChangeTick t s, ?_⟩
    rw [State.done_vol, gridChangeTick_of_due hready htime hgoes hissue hg hdue hb, State.vol_onBal]
    exact ⟨rfl, rfl, rfl, fun _ => Bal.mem_books_leaveGrid, fun _ => Bal.mem_closed_leaveGrid⟩
  · rw [exec_balanceFeed, State.feedStep_of_taken hready hread h]
  · rw [exec_balanceFeed, State.feedStep_of_untaken hready hread hn hgap.le, if_pos ⟨h0, hgap⟩, hy]

end Sys2Proof.Machine

namespace Sys2Proof.Machine

/-! ### A commit of the staged tree (R197) -/

theorem exec_treeCommit (t : TileId) (s : State) :
    exec (.treeCommit t) s = .next (s.done (consuming t [Reg.balance_tree_stage] (treeCommit t) s)) := rfl

/-- The bytes `c` stand as the newest tree, and the tree of now is the previous one. -/
def State.putTree (s : State) (t : TileId) (c : Cells) : State :=
  { s.treeChange t with regs := if c = [] then Tbl.del s.regs (Reg.balance_tree.key t 0) else Tbl.put s.regs (Reg.balance_tree.key t 0) (.oct c) }

/-- They are mirrored, the version of the tree is raised, and no node is named bad. -/
def State.commitTree (s : State) (t : TileId) (c : Cells) : State :=
  let y := s.putTree t c
  let z := y.mirror t (.config [(Reg.balance_tree.runKey 0, .oct c)] (y.tile t).calSince) (7 + c.length)
  (z.wr Reg.balance_tree_version t (z.rd Reg.balance_tree_version t + 1)).wr Reg.balance_tree_bad_node t 0xFFFF

theorem quiet_balance_tree : Reg.balance_tree.quiet 0 = true := by decide
theorem quiet_balance_tree_version : Reg.balance_tree_version.quiet 0 = true := by decide
theorem quiet_balance_last_result : Reg.balance_last_result.quiet 0 = true := by decide
theorem quiet_balance_tree_bad_node : Reg.balance_tree_bad_node.quiet 0 = true := by decide

/-- The listed bytes of an entry are read from its key alone. -/
theorem State.cells_congr {s x : State} (d : Entry) (m j : Nat) (h : Tbl.get s.regs (d.key m j) = Tbl.get x.regs (d.key m j)) :
    s.cells d m j = x.cells d m j := by
  unfold State.cells
  rw [h]

/-- Writing another entry of the tile leaves the listed bytes. -/
theorem State.cells_wr_place (s : State) (d e : Entry) {t v i j : Nat} (ha : d.area = e.area) (h : d.place j ≠ e.place i) :
    (s.wr e t v i).cells d t j = s.cells d t j :=
  State.cells_congr _ _ _ (State.get_wr_ne _ _ _ _ _ _ (Entry.key_ne_place _ _ _ _ _ ha h))

theorem State.cells_answer (s : State) (n : Nat) (st : Status) (d : Entry) (m j : Nat) : (s.answer n st).cells d m j = s.cells d m j := rfl

theorem State.cells_mirror (s : State) (t : TileId) (x : MItem) (n : Nat) (d : Entry) (m j : Nat) : (s.mirror t x n).cells d m j = s.cells d m j :=
  State.mirror_keeps (fun x => x.cells d m j) t (fun _ _ _ _ => rfl) _ _ _

theorem State.cells_done (s x : State) (d : Entry) (m j : Nat) (h : d.quiet j = true) : (s.done x).cells d m j = x.cells d m j :=
  State.cells_congr _ _ _ (State.get_regs_done _ _ (Entry.quiet_writes _ _ _ h))

section
variable (s : State) (t : TileId) (c : Cells)

theorem State.cells_putTree : (s.putTree t c).cells Reg.balance_tree t 0 = c := by
  unfold State.cells State.putTree
  by_cases hc : c = [] <;> simp [hc]

theorem State.rd_putTree (d : Entry) (ha : d.area = .tile) (h : d.place 0 ≠ Reg.balance_tree.place 0) : (s.putTree t c).rd d t = s.rd d t := by
  have hkey : d.key t 0 ≠ Reg.balance_tree.key t 0 := Entry.key_ne_place _ _ _ _ _ ha h
  unfold State.rd State.putTree
  by_cases hc : c = []
  · simp only [hc, if_true, Tbl.get_del_ne _ hkey]
  · simp only [hc, if_false, Tbl.get_put_ne _ _ hkey]

theorem State.cells_commitTree : (s.commitTree t c).cells Reg.balance_tree t 0 = c := by
  unfold State.commitTree
  dsimp only
  rw [State.cells_wr_place _ Reg.balance_tree Reg.balance_tree_bad_node rfl (by decide),
    State.cells_wr_place _ Reg.balance_tree Reg.balance_tree_version rfl (by decide), State.cells_mirror, State.cells_putTree]

theorem State.version_commitTree (h : s.rd Reg.balance_tree_version t + 1 < Reg.balance_tree_version.span) :
    (s.commitTree t c).rd Reg.balance_tree_version t = s.rd Reg.balance_tree_version t + 1 := by
  unfold State.commitTree
  dsimp only
  rw [State.rd_wr_place _ Reg.balance_tree_version Reg.balance_tree_bad_node rfl (by decide), State.rd_wr_self, State.rd_mirror,
    State.rd_putTree _ _ _ _ rfl (by decide), Nat.mod_eq_of_lt h]

theorem State.badNode_commitTree : (s.commitTree t c).rd Reg.balance_tree_bad_node t = 0xFFFF := State.rd_wr_self ..

theorem State.out_commitTree : (s.commitTree t c).out = s.out := by
  unfold State.commitTree
  simp [State.putTree, State.treeChange]

end

section
variable {s : State} {t : TileId} (hserves : s.serves t = true) (hfree : (s.vol t).bal.oldTree = none)
  (hgood : s.badNode t (s.stagedTree t) = none)
include hserves hfree hgood

/-- A staged tree without a bad node is committed and answered OK. -/
theorem treeCommit_accepts :
    treeCommit t s = ((s.commitTree t (s.stagedTree t)).wr Reg.balance_last_result t Status.ok.code).answer t .ok := by
  unfold treeCommit
  simp only [hserves, hfree, hgood]
  rfl

/-- What such a commit shows of itself. -/
theorem treeCommit_accepts_effect (hver : s.rd Reg.balance_tree_version t + 1 < Reg.balance_tree_version.span) :
    (treeCommit t s).rd Reg.balance_tree_version t = s.rd Reg.balance_tree_version t + 1 ∧ (treeCommit t s).rd Reg.balance_last_result t = 0 ∧
      (treeCommit t s).rd Reg.balance_tree_bad_node t = 0xFFFF ∧ (treeCommit t s).cells Reg.balance_tree t 0 = s.stagedTree t ∧
      (treeCommit t s).out = s.out ++ [.answer t .ok] := by
  rw [treeCommit_accepts hserves hfree hgood]
  refine ⟨?_, ?_, ?_, ?_, ?_⟩
  · rw [State.rd_answer, State.rd_wr_place _ Reg.balance_tree_version Reg.balance_last_result rfl (by decide), State.version_commitTree _ _ _ hver]
  · rw [State.rd_answer, State.rd_wr_self]
    rfl
  · rw [State.rd_answer, State.rd_wr_place _ Reg.balance_tree_bad_node Reg.balance_last_result rfl (by decide), State.badNode_commitTree]
  · rw [State.cells_answer, State.cells_wr_place _ Reg.balance_tree Reg.balance_last_result rfl (by decide), State.cells_commitTree]
  · rw [State.answer_out_eq, State.wr_out, State.out_commitTree]

end

/-! ### The tree takes effect (R213, R217) -/

theorem exec_treeTakesEffect (t : TileId) (s : State) : exec (.treeTakesEffect t) s = .next (s.done (treeTakesEffect t s)) := rfl

/-- Every node that is RAISED archives an ALARM record that ends its alarm at the grid point. -/
def State.resetAlarms (s : State) (t : TileId) (g : Nat) : State :=
  ((s.vol t).bal.nodes.filter fun e => e.2.raised).foldl (fun s e => s.alarmRecord t e.1 g (s.bookBAt t g) 2) s

/-- The newest tree is in force: no node is RAISED, and every score starts anew. -/
def Bal.newTree (x : Bal) : Bal :=
  { x with effect := none,
           nodes := x.nodes.map fun e => (e.1, { e.2 with k := 0, raised := false, ph := e.2.ph.map fun y => { y with s := 0, d := 0 } }) }

theorem treeTakesEffect_of_due {s : State} {t : TileId} {g : Nat} (heff : (s.vol t).bal.effect = some g) (hready : (s.vol t).bal.ready = true)
    (htime : s.hasTime t = true) (hdue : g ≤ s.timeSec t) :
    treeTakesEffect t s = ((s.resetAlarms t g).onBal t Bal.newTree).countRaised t := by
  unfold treeTakesEffect
  simp only [heff]
  rw [if_neg (by simp [hready, htime, hdue])]
  rfl

theorem State.resetAlarms_of_noNodes {s : State} {t : TileId} (g : Nat) (h : (s.vol t).bal.nodes = []) : s.resetAlarms t g = s := by
  unfold State.resetAlarms
  rw [h]
  rfl

theorem quiet_balance_alarms_raised : Reg.balance_alarms_raised.quiet 0 = true := by decide

theorem State.rd_countRaised_of_noNodes {s : State} {t : TileId} (h : (s.vol t).bal.nodes = []) :
    (s.countRaised t).rd Reg.balance_alarms_raised t = 0 := by
  unfold State.countRaised
  rw [State.rd_wr_self, h]
  rfl

end Sys2Proof.Machine

namespace Sys2Proof.Machine

/-! ### The clock count as records are taken (R193 to R204, R214, R218) -/

theorem State.now_evidence (s : State) (t : TileId) (ekind node who value device : Nat) : (s.evidence t ekind node who value device).now = s.now := by
  unfold State.evidence
  extract_lets
  split
  · rfl
  · split <;> rfl

theorem State.now_contribute (s : State) (t : TileId) (seq sec : Nat) (energy : Bool) (n : BShare) : (s.contribute t seq sec energy n).now = s.now := by
  unfold State.contribute
  extract_lets x beyond
  have hbeyond (y : State) : (beyond y).now = y.now := by
    dsimp only [beyond]
    split <;> rfl
  split
  · exact hbeyond s
  · split
    · split <;> rfl
    · split
      · split
        · extract_lets
          split
          · rfl
          · split
            · rfl
            · exact hbeyond s
        · exact hbeyond s
      · rfl

theorem State.now_takeVolts (s : State) (t : TileId) (m : MRec) : (s.takeVolts t m).now = s.now := by
  unfold State.takeVolts
  extract_lets
  split
  · split <;> rfl
  · rfl

theorem State.now_takeMeter (s : State) (t : TileId) (m : MRec) (prior : Option (List Int)) : (s.takeMeter t m prior).now = s.now := by
  unfold State.takeMeter
  extract_lets s' slot r b bm base bGrid takes est ph give mEnd has rk2 sOld sBase sNew
  have hgive (x : State) (sec : Nat) (e : List Int) (ends : List Nat) : (give x sec e ends).now = x.now := by
    dsimp only [give]
    split
    · rfl
    · split
      · exact (State.now_evidence ..).trans (State.now_contribute ..)
      · exact State.now_contribute ..
  have hold : sOld.now = s.now := by
    dsimp only [sOld]
    split
    · rw [hgive, State.now_takeVolts]
    · rw [State.now_takeVolts]
  have hnew : sNew.now = s.now := by
    dsimp only [sNew]
    split
    · rw [hgive]
      exact State.now_takeVolts ..
    · exact State.now_takeVolts ..
  split
  · split
    · extract_lets d e0 sFirst sBoth
      have hboth : sBoth.now = s.now := by
        dsimp only [sBoth, sFirst]
        split
        · rw [hgive, hgive, State.now_takeVolts]
        · rw [hgive, State.now_takeVolts]
      split <;> exact hboth
    · exact State.now_takeVolts ..
  · split
    · split <;> exact hold
    · split
      · exact hnew
      · split
        · exact hnew
        · exact (State.each_keeps State.now _ _ _ fun x j => hgive ..).trans hnew

theorem State.now_takeBook (s : State) (t : TileId) (r : ArchRec) (data : Bytes) : (s.takeBook t r data).now = s.now := by
  unfold State.takeBook
  extract_lets _ _ _ sRestated
  rw [State.now_onBal]
  dsimp only [sRestated]
  split <;> rfl

theorem State.now_takeRecord (s : State) (t : TileId) (r : ArchRec) : (s.takeRecord t r).now = s.now := by
  unfold State.takeRecord
  split
  · exact State.now_takeMeter ..
  · rfl
  · split
    · rfl
    · split
      · exact State.now_takeBook ..
      · rfl
  · rfl

/-- The scan of a rebuild takes no clock time. -/
theorem State.now_rebuildScan (s : State) (t : TileId) (all : List ArchRec) (start : Nat) : (s.rebuildScan t all start).now = s.now := by
  unfold State.rebuildScan
  extract_lets scan books points sScan
  have hbooks : books.now = s.now := State.each_keeps State.now _ _ _ fun x r => by
    split
    · rfl
    · exact State.now_takeRecord ..
  have hscan : sScan.now = s.now := by
    refine (State.each_keeps State.now _ _ _ fun x r => ?_).trans hbooks
    split
    · exact State.now_takeRecord ..
    · rfl
    · split
      · rfl
      · split
        · rfl
        · split <;> rfl
    · rfl
  refine (State.each_keeps State.now _ _ _ fun x g => ?_).trans hscan
  split <;> rfl

end Sys2Proof.Machine

namespace Sys2Proof.Machine

/-! ### A rebuild (R218) -/

theorem exec_balanceRebuild (t : TileId) (s : State) : exec (.balanceRebuild t) s = .next (s.done (balanceRebuild t s)) := rfl

/-- The engine as the archive of the stream gives it. -/
def State.rebuildBooks (s : State) (t : TileId) (k : Nat) : State :=
  ((s.onBal t fun _ => (s.rebuildFrom t k).1).rebuildScan t (s.archived t k) (s.rebuildFrom t k).2).onBal t fun x =>
    { x with ready := true, rebuilt := true, next := ((s.archived t k).getLast?.map fun r => r.seq + 1).getD ((s.vol t).lehr.stream k).next }

theorem State.now_rebuildBooks (s : State) (t : TileId) (k : Nat) : (s.rebuildBooks t k).now = s.now := by
  unfold State.rebuildBooks
  rw [State.now_onBal, State.now_rebuildScan, State.now_onBal]

theorem quiet_balance_rebuilds : Reg.balance_rebuilds.quiet 0 = true := by decide

/-- A scan that finds no record leaves what every change of the engine that keeps its interval leaves. -/
theorem State.rebuildScan_nil_keeps {β : Type} (g : State → β) (t : TileId)
    (hg : ∀ x (f : Bal → Bal), (∀ y, (f y).b = y.b) → g (State.onBal x t f) = g x) (s : State) (start : Nat) : g (s.rebuildScan t [] start) = g s := by
  unfold State.rebuildScan
  dsimp only [List.filter_nil, List.foldl_nil, List.filterMap_nil]
  refine (State.each_keeps g _ _ _ fun x e => ?_).trans (hg _ _ fun _ => rfl)
  split
  · exact hg _ _ fun _ => rfl
  · rfl

section
variable {s : State} {t : TileId} {k : Nat}

theorem balanceRebuild_of_due (hissue : s.issuing t = some k) (hready : (s.vol t).bal.ready = false) (hserves : s.serves t = true)
    (htime : s.hasTime t = true) :
    balanceRebuild t s =
      (((s.rebuildBooks t k).countRaised t).bump Reg.balance_rebuilds t).wr Reg.balance_rebuild_time t (Config.measured 1 t s.now) := by
  unfold balanceRebuild
  simp only [hissue]
  rw [if_neg (by simp [hready, hserves, htime]), ← State.now_rebuildBooks s t k]
  rfl

variable (hheld : s.held t k = [])
include hheld

theorem State.archived_of_held_nil : s.archived t k = [] := by
  unfold State.archived
  rw [hheld]
  rfl

/-- Without a record the engine starts with the interval of the settings. -/
theorem State.b_rebuildFrom_of_held_nil : (s.rebuildFrom t k).1.b = s.rd Reg.balance_interval t := by
  have hnone : s.newestTick t k = none := by
    unfold State.newestTick
    rw [State.archived_of_held_nil hheld]
    rfl
  unfold State.rebuildFrom
  simp only [hnone]

/-- What the rebuild of a tile that holds no record sets and leaves. -/
theorem State.rebuildBooks_of_held_nil :
    ((s.rebuildBooks t k).vol t).bal.ready = true ∧ ((s.rebuildBooks t k).vol t).bal.b = s.rd Reg.balance_interval t ∧
      ((s.rebuildBooks t k).vol t).bal.next = ((s.vol t).lehr.stream k).next ∧ (s.rebuildBooks t k).regs = s.regs ∧ (s.rebuildBooks t k).out = s.out := by
  unfold State.rebuildBooks
  rw [State.archived_of_held_nil hheld, State.vol_onBal, State.regs_onBal, State.out_onBal,
    State.rebuildScan_nil_keeps State.regs t fun _ _ _ => rfl, State.rebuildScan_nil_keeps State.out t fun _ _ _ => rfl]
  refine ⟨rfl, ?_, rfl, rfl, rfl⟩
  calc _ = ((s.onBal t fun _ => (s.rebuildFrom t k).1).vol t).bal.b :=
        State.rebuildScan_nil_keeps (fun x => (x.vol t).bal.b) t (fun x f hf => by rw [State.vol_onBal, hf]) _ _
    _ = s.rd Reg.balance_interval t := by rw [State.vol_onBal, State.b_rebuildFrom_of_held_nil hheld]

end

/-- Settles O22: a commit, the tree as it takes effect, and a rebuild, each where its conditions hold. -/
theorem balanceTree : Obligations.BalanceTree := by
  refine ⟨fun s t hserves hfree hgood hver => ?_, fun s t g heff hready htime hdue hnodes => ?_,
    fun s t k hissue hready hserves htime hheld hcount => ?_, fun s t g heff hready htime hdue => ?_, fun s y t k hissue hready hserves htime hy => ?_⟩
  · refine ⟨_, exec_treeCommit t s, ?_⟩
    rw [State.rd_done _ _ _ _ _ quiet_balance_tree_version, State.rd_done _ _ _ _ _ quiet_balance_last_result,
      State.rd_done _ _ _ _ _ quiet_balance_tree_bad_node, State.cells_done _ _ _ _ _ quiet_balance_tree, State.done_out]
    exact treeCommit_accepts_effect (s := s.under _) hserves hfree hgood hver
  · refine ⟨_, exec_treeTakesEffect t s, ?_⟩
    rw [State.done_vol, State.rd_done _ _ _ _ _ quiet_balance_alarms_raised, State.done_out, treeTakesEffect_of_due heff hready htime hdue,
      State.resetAlarms_of_noNodes g hnodes, State.vol_countRaised, State.vol_onBal, State.out_countRaised, State.out_onBal,
      State.rd_countRaised_of_noNodes (by rw [State.vol_onBal, Bal.newTree, hnodes, List.map_nil])]
    exact ⟨rfl, rfl, rfl⟩
  · obtain ⟨hset, hb, hnext, hregs, hout⟩ := State.rebuildBooks_of_held_nil hheld
    refine ⟨_, exec_balanceRebuild t s, ?_⟩
    have hrd : ((s.rebuildBooks t k).countRaised t).rd Reg.balance_rebuilds t = s.rd Reg.balance_rebuilds t := by
      unfold State.countRaised
      rw [State.rd_wr_place _ Reg.balance_rebuilds Reg.balance_alarms_raised rfl (by decide), State.rd, hregs, State.rd]
    rw [State.done_vol, State.rd_done _ _ _ _ _ quiet_balance_rebuilds, State.done_out, balanceRebuild_of_due hissue hready hserves htime,
      State.vol_wr, State.vol_bump, State.vol_countRaised, State.wr_out, State.bump_out, State.out_countRaised,
      State.rd_wr_place _ Reg.balance_rebuilds Reg.balance_rebuild_time rfl (by decide), State.rd_bump_lt _ _ _ _ (by rwa [hrd]), hrd]
    exact ⟨hset, hb, hnext, rfl, hout⟩
  · rw [exec_treeTakesEffect, treeTakesEffect_of_due heff hready htime hdue]
    rfl
  · rw [exec_balanceRebuild, balanceRebuild_of_due hissue hready hserves htime, hy]
    rfl

end Sys2Proof.Machine

namespace Sys2Proof.Machine

/-! ### The machine of a local relay (R249 to R251) -/

theorem exec_localRelayCmd (t : TileId) (k : Fin 2) (c : Nat) (s : State) :
    exec (.localRelayCmd t k c) s = .next (s.done ((localRelayCmd t k c s).1.answer t (localRelayCmd t k c s).2)) := rfl
theorem exec_relayPulseEnd (t : TileId) (k : Fin 2) (uj : Nat) (cut : Bool) (s : State) :
    exec (.relayPulseEnd t k uj cut) s = .next (s.done (relayPulseEnd t k uj cut s)) := rfl
theorem exec_relayFeedbackChange (t : TileId) (k : Fin 2) (low : Bool) (s : State) :
    exec (.relayFeedbackChange t k low) s = .next (s.done (relayFeedbackChange t k low s)) := rfl
theorem exec_relayConfirmTimeout (t : TileId) (k : Fin 2) (s : State) :
    exec (.relayConfirmTimeout t k) s = .next (s.done (relayConfirmTimeout t k s)) := rfl

@[simp] theorem State.relay_done (s x : State) (t : TileId) (k : Fin 2) : (s.done x).relay t k = x.relay t k := by simp [State.relay]

theorem State.relay_onRelay {s : State} {t : TileId} (h : (s.metro t).relays.length = 2) (k : Fin 2) (f : Relay → Relay) :
    (s.onRelay t k f).relay t k = f (s.relay t k) := by
  have hk : k.val < (s.metro t).relays.length := by omega
  simp [State.relay, State.onRelay, hk]

section
variable {s : State} {t : TileId} {k : Fin 2}

/-- A command to a relay that is not judged yet, or under way, waits. -/
theorem localRelayCmd_waits {c : Nat} (hc : c ≤ 1) (hs : s.serves t = true)
    (h : (s.metro t).judged = false ∨ (s.relay t k).st = 1 ∨ (s.relay t k).st = 2) :
    localRelayCmd t k c s = (s.onRelay t k fun r => { r with wait := some c }, .ok) := by
  unfold localRelayCmd
  rw [if_neg (by omega), if_neg (by simp [hs]), if_pos (by simpa using h)]

/-- A command to a relay at rest is taken. -/
theorem localRelayCmd_takes {c : Nat} (hc : c ≤ 1) (hs : s.serves t = true) (hj : (s.metro t).judged = true)
    (h : (s.relay t k).st = 0 ∨ (s.relay t k).st = 3) : localRelayCmd t k c s = (s.relayTake t k c, .ok) := by
  have hrest : ¬((s.relay t k).st = 1 ∨ (s.relay t k).st = 2) := by omega
  unfold localRelayCmd
  rw [if_neg (by omega), if_neg (by simp [hs]), if_neg (by simpa [hj] using hrest)]

/-- The pulse of relay `k` has ended: its energy `uj` is counted, its pair is idle, and the relay is in WAIT. -/
def State.pulseEnded (s : State) (t : TileId) (k : Fin 2) (uj : Nat) : State :=
  (((s.onBay (bayOf t) fun y =>
    { y with pulses := (y.pulses.filter fun x => decide (s.now / 1000000000 < x.1 + 60)) ++ [(s.now / 1000000000, uj)] }).wr Reg.bay_energy_last_pulse_uj
    (bayOf t) uj).drivePair t k 0).onRelay t k fun r => { r with st := 2, pulsed := some (s.now, if s.relayCmd t k = some 1 then 1 else 2) }

theorem State.rd_pulseEnded (s : State) (t : TileId) (k : Fin 2) (uj : Nat) (d : Entry) (n i : Nat) (hd : d.area = .tile) :
    (s.pulseEnded t k uj).rd d n i = s.rd d n i :=
  State.rd_wr_ne _ Reg.bay_energy_last_pulse_uj _ _ _ _ _ _ (Entry.key_ne_tile_bay _ _ _ _ _ _ hd rfl (bayOf t).isLt (by decide))

/-- Without a feedback the relay reports its command once the pulse has ended (R250). -/
def State.reportBlind (z : State) (t : TileId) (k : Fin 2) : State :=
  if z.rd Reg.metro_fb_mode t k = 0 then z.onRelay t k fun r => { r with reported := z.relayCmd t k } else z

/-- What the end of a pulse does once the pulse has run its length or is cut. -/
theorem relayPulseEnd_ends {uj at_ : Nat} {cut : Bool} (hd : (s.relay t k).drive = some at_) (hst : (s.relay t k).st = 1)
    (h : cut = true ∨ at_ + s.rd Reg.metro_relay_pulse_ms t * 1000000 ≤ s.now) :
    relayPulseEnd t k uj cut s =
      (((((if cut then (s.pulseEnded t k uj).bump Reg.metro_pulses_cut t else s.pulseEnded t k uj).reportBlind t k).relayJudge t k).tryPulse t 0).tryPulse t
        1) := by
  have hdue : ¬((s.relay t k).st ≠ 1 ∨ (cut = false ∧ s.now < at_ + s.rd Reg.metro_relay_pulse_ms t * 1000000)) := by
    rintro (hne | ⟨hcut, hlt⟩)
    · exact hne hst
    · exact h.elim (by simp [hcut]) (by omega)
  unfold relayPulseEnd
  simp only [hd]
  rw [if_neg hdue]
  simp only [State.pulseEnded, State.reportBlind, State.bothRelays, State.wr_now, State.onBay_now]
  rfl

/-- A confirmation that did not come in time pulses again while retries are left. -/
theorem relayConfirmTimeout_retries (hst : (s.relay t k).st = 2) (hat : (s.relay t k).drive.getD 0 + s.rd Reg.metro_relay_confirm_ms t * 1000000 ≤ s.now)
    (ha : (s.relay t k).a ≤ s.rd Reg.metro_relay_retries t) :
    relayConfirmTimeout t k s = (s.onRelay t k fun r => { r with st := 1, a := r.a + 1, drive := none, counted := false }).tryPulse t k := by
  unfold relayConfirmTimeout
  rw [if_pos ⟨hst, hat⟩, if_pos ha]

/-- With no retry left the relay is in MISMATCH. -/
theorem relayConfirmTimeout_fails (hst : (s.relay t k).st = 2) (hat : (s.relay t k).drive.getD 0 + s.rd Reg.metro_relay_confirm_ms t * 1000000 ≤ s.now)
    (ha : s.rd Reg.metro_relay_retries t < (s.relay t k).a) :
    relayConfirmTimeout t k s = (s.onRelay t k fun r => { r with outcome := 3 }).relayMismatch t k := by
  unfold relayConfirmTimeout
  rw [if_pos ⟨hst, hat⟩, if_neg (by omega)]

/-- A relay at rest whose feedback has differed for W is in MISMATCH. -/
theorem relayConfirmTimeout_differs {a : Nat} (hst : (s.relay t k).st = 0) (ho : (s.relay t k).off = some a)
    (hat : a + s.rd Reg.metro_relay_confirm_ms t * 1000000 ≤ s.now) : relayConfirmTimeout t k s = s.relayMismatch t k := by
  unfold relayConfirmTimeout
  dsimp only
  rw [if_neg (by simp [hst]), if_pos hst, ho]
  exact if_pos hat

/-- The level of a feedback before the judgement is taken and nothing else is done. -/
theorem relayFeedbackChange_unjudged (low : Bool) (h : (s.metro t).judged = false) :
    relayFeedbackChange t k low s = s.onTile t fun x => { x with fbLow := x.fbLow.set k low } := by
  have hj : ((s.onTile t fun x => { x with fbLow := x.fbLow.set k low }).metro t).judged = false := by simpa [State.metro, State.tile_vol] using h
  exact if_neg (by simp [hj])

theorem relayFeedbackChange_judged (low : Bool) (h : (s.metro t).judged = true) :
    relayFeedbackChange t k low s = (s.onTile t fun x => { x with fbLow := x.fbLow.set k low }).relayJudge t k := by
  have hj : ((s.onTile t fun x => { x with fbLow := x.fbLow.set k low }).metro t).judged = true := by simpa [State.metro, State.tile_vol] using h
  exact if_pos hj

/-- The contact reads closed by the new level and the polarity set for it (R250). -/
theorem relayFeedbackChange_unjudged_effect (low : Bool) (h : (s.metro t).judged = false) (hl : (s.tile t).fbLow.length = 2) :
    ∃ x, exec (.relayFeedbackChange t k low) s = .next x ∧ x.regs = s.regs ∧ x.out = s.out ∧
      (x.contact t k) = (if bit (s.rd Reg.metro_fb_polarity t) k then low else !low) := by
  have hregs : (relayFeedbackChange t k low s).regs = s.regs := by rw [relayFeedbackChange_unjudged low h]; rfl
  have hlow : ((s.done (relayFeedbackChange t k low s)).tile t).fbLow.getD k true = low := by
    rw [State.done_mediaRegs _ _ _ hregs, relayFeedbackChange_unjudged low h, State.tile_onTile_self]
    have hk : k.val < (s.tile t).fbLow.length := by omega
    simp [hk]
  have hpol : (s.done (relayFeedbackChange t k low s)).rd Reg.metro_fb_polarity t = s.rd Reg.metro_fb_polarity t := by
    unfold State.rd
    rw [State.done_regs _ _ hregs]
  refine ⟨_, exec_relayFeedbackChange t k low s, State.done_regs _ _ hregs, ?_, ?_⟩
  · rw [State.done_out, relayFeedbackChange_unjudged low h]
    rfl
  · unfold State.contact
    rw [hlow, hpol]

end

/-! ### The display (R254) -/

theorem exec_dispLine (b : BayId) (s : State) : exec (.dispLine b) s = .next (s.done (dispSend b s)) := rfl

theorem quiet_bay_disp_lines_sent : Reg.bay_disp_lines_sent.quiet 0 = true := by decide

theorem State.relay_wr (s : State) (e : Entry) (n v i : Nat) (t : TileId) (k : Fin 2) : (s.wr e n v i).relay t k = s.relay t k := rfl
theorem State.timeSec_wr (s : State) (e : Entry) (n v i : Nat) (t : TileId) : (s.wr e n v i).timeSec t = s.timeSec t := rfl
theorem State.legalFull_wr (s : State) (e : Entry) (n v i : Nat) (t : TileId) : (s.wr e n v i).legalFull t = s.legalFull t := rfl

/-- What an item shows does not depend on the errors shown. -/
theorem State.dispItem_wr_errors (s : State) (b : BayId) (v : Nat) (t : TileId) (pos : Nat) :
    (s.wr Reg.bay_disp_errors b v).dispItem t pos = s.dispItem t pos := by
  have htile : ∀ d j, d.area = .tile → (s.wr Reg.bay_disp_errors b v).rd d t j = s.rd d t j := fun d j hd =>
    State.rd_wr_ne _ _ _ _ _ _ _ _ (Entry.key_ne_tile_bay _ _ _ _ _ _ hd rfl b.isLt (by decide))
  have hitems : (s.wr Reg.bay_disp_errors b v).rdAll Reg.bay_disp_items (bayOf t) = s.rdAll Reg.bay_disp_items (bayOf t) :=
    State.rdB_wr_ne _ _ _ _ _ _ _ _ _ _ (by simp only [Entry.key, Entry.index, Reg.bay_disp_items, Reg.bay_disp_errors]; omega)
  have hutc : ∀ a l, (s.wr Reg.bay_disp_errors b v).rdB Reg.device_time_utc_history 0 a l = s.rdB Reg.device_time_utc_history 0 a l := fun a l =>
    State.rdB_wr_ne _ _ _ _ _ _ _ _ _ _ (by simp only [Entry.key, Entry.index, Reg.device_time_utc_history, Reg.bay_disp_errors]; omega)
  have htime : ∀ n, (s.wr Reg.bay_disp_errors b v).utcOfTai n = s.utcOfTai n := fun n => by
    simp only [State.utcOfTai, State.utcAt, State.utcHistory, State.utcPlaces, hutc, State.wr_pier]
  unfold State.dispItem
  simp only [htile Reg.metro_legal_regs _ rfl, htile Reg.metro_rms _ rfl, htile Reg.metro_frequency _ rfl, htile Reg.metro_seal_count _ rfl, hitems, htime,
    State.tile_wr, State.metro_wr, State.relay_wr, State.timeSec_wr, State.legalFull_wr]
  rfl

/-- A tile sends the line of a position, if it is shown. -/
def State.sendItem (s : State) (pos : Nat) (t : TileId) : State :=
  match s.dispItem t pos with
  | some l => s.emit (.bytes t l)
  | none => s

/-- What an output leaves, the lines of a dwell leave. -/
theorem State.sendItem_keeps {β : Type} (g : State → β) (h : ∀ x o, g (State.emit x o) = g x) (s : State) (pos : Nat) (t : TileId) :
    g (s.sendItem pos t) = g s := by
  unfold State.sendItem
  split
  · exact h _ _
  · rfl

section
variable {s : State} {b : BayId} {t : TileId} {r : List TileId} {x : Nat × Nat}

/-- The state in which every serving tile of the bay has sent item `x`, with the errors `errs` shown. -/
def State.dwellSent (s : State) (b : BayId) (errs : Nat) (tiles : List TileId) (x : Nat × Nat) : State :=
  (s.wr Reg.bay_disp_errors b errs).each tiles fun y t => y.sendItem x.1 t

/-- A dwell that begins shows the next item there is. -/
theorem dispSend_sends (ht : (([false, true].map (tileOf b)).filter fun t => s.serves t && s.inRun t) = t :: r) (hat : (s.bay b).dispAt ≤ s.now)
    (hx : ((dispCycle.zipIdx.drop (s.bay b).dispPos) ++ dispCycle.zipIdx.take (s.bay b).dispPos).find? (fun x => (s.dispItem t x.1).isSome) = some x) :
    ∃ errs, dispSend b s = ((s.dwellSent b errs (t :: r) x).onBay b fun y =>
      { y with dispPos := (x.2 + 1) % 35
               dispAt := (s.dwellSent b errs (t :: r) x).now + (s.dwellSent b errs (t :: r) x).rd Reg.bay_disp_dwell b * 1000000000 }).bump
      Reg.bay_disp_lines_sent b := by
  unfold dispSend
  simp only [ht, if_neg (Nat.not_lt.2 hat), State.dispItem_wr_errors, hx]
  exact ⟨_, rfl⟩

/-- The place in the cycle goes on, the dwell begins, and the line is counted. -/
theorem dispSend_counts (ht : (([false, true].map (tileOf b)).filter fun t => s.serves t && s.inRun t) = t :: r) (hat : (s.bay b).dispAt ≤ s.now)
    (hx : ((dispCycle.zipIdx.drop (s.bay b).dispPos) ++ dispCycle.zipIdx.take (s.bay b).dispPos).find? (fun x => (s.dispItem t x.1).isSome) = some x)
    (hc : s.rd Reg.bay_disp_lines_sent b + 1 < Reg.bay_disp_lines_sent.span) :
    ∃ y errs, exec (.dispLine b) s = .next y ∧ y.out = (s.dwellSent b errs (t :: r) x).out ∧ (y.bay b).dispPos = (x.2 + 1) % 35 ∧
      (y.bay b).dispAt = s.now + s.rd Reg.bay_disp_dwell b * 1000000000 ∧ y.rd Reg.bay_disp_lines_sent b = s.rd Reg.bay_disp_lines_sent b + 1 := by
  obtain ⟨errs, hsend⟩ := dispSend_sends ht hat hx
  have hkeeps : ∀ {β : Type} (g : State → β), (∀ y o, g (State.emit y o) = g y) →
      g (s.dwellSent b errs (t :: r) x) = g (s.wr Reg.bay_disp_errors b errs) := fun g hg =>
    State.each_keeps g _ _ _ fun y u => State.sendItem_keeps g hg y x.1 u
  have hrd : ∀ d : Entry, d.area = .bay → d.place 0 ≠ Reg.bay_disp_errors.place 0 → (s.dwellSent b errs (t :: r) x).rd d b = s.rd d b := fun d ha hp =>
    (hkeeps (fun y => y.rd d b) fun _ _ => rfl).trans (State.rd_wr_place _ _ _ ha hp)
  refine ⟨_, errs, exec_dispLine b s, ?_⟩
  rw [State.done_out, State.done_bay, State.rd_done _ _ _ _ _ quiet_bay_disp_lines_sent, hsend,
    State.rd_bump_lt _ _ _ _ (by rwa [State.rd_onBay, hrd _ rfl (by decide)]),
    State.bay_bump, State.bay_onBay_self, State.rd_onBay, hrd _ rfl (by decide), hrd _ rfl (by decide), hkeeps State.now fun _ _ => rfl]
  exact ⟨rfl, rfl, rfl, rfl⟩

end

/-- Settles O26: what each command of the local relays and of the display does, where its conditions hold. -/
theorem relays : Obligations.Relays := by
  refine ⟨fun s t k c hc hs hl h => ?_, fun s t k c hc hs hj h => ?_, fun s t k uj at_ hd hst hat hcmd hmode => ?_,
    fun s t k low hj hl => relayFeedbackChange_unjudged_effect low hj hl, fun s t k at_ hst hd hat ha => ?_,
    fun s b l hs hr hm hat hpos hl hc => ?_, fun s t k low hj => ?_, fun s y z t k uj at_ cut hd hst h hy hz => ?_,
    fun s t k hst hat ha => ?_, fun s t k a hst ho hat => ?_, fun s b t r x ht hat hx hc => ?_⟩
  · have hregs : ((localRelayCmd t k c s).1.answer t (localRelayCmd t k c s).2).regs = s.regs := by rw [localRelayCmd_waits hc hs h]; rfl
    refine ⟨_, exec_localRelayCmd t k c s, ?_⟩
    rw [State.done_regs _ _ hregs, State.done_out, State.relay_done, localRelayCmd_waits hc hs h]
    have hrelay := State.relay_onRelay hl k fun r => { r with wait := some c }
    exact ⟨congrArg Relay.wait hrelay, (congrArg Relay.st hrelay :), rfl, rfl⟩
  · rw [exec_localRelayCmd, localRelayCmd_takes hc hs hj h]
  · have hblind : (s.pulseEnded t k uj).reportBlind t k = s.pulseEnded t k uj := if_neg (by rwa [State.rd_pulseEnded _ _ _ _ _ _ _ rfl])
    rw [exec_relayPulseEnd, relayPulseEnd_ends hd hst (.inr hat), if_neg (by decide), hblind, State.pulseEnded, if_pos hcmd]
  · rw [exec_relayConfirmTimeout, relayConfirmTimeout_retries hst (by rwa [hd]) ha]
  · have ht : (([false, true].map (tileOf b)).filter fun t => s.serves t && s.inRun t) = [tileOf b false] := by simp [hs, hr, hm]
    have hx : ((dispCycle.zipIdx.drop (s.bay b).dispPos) ++ dispCycle.zipIdx.take (s.bay b).dispPos).find?
        (fun x => (s.dispItem (tileOf b false) x.1).isSome) = some (0, 0) := by
      rw [hpos]
      exact List.find?_cons_of_pos (by simp [hl])
    obtain ⟨y, errs, hy, hout, hnext, hdwell, hlines⟩ := dispSend_counts ht hat hx hc
    refine ⟨y, hy, hout.trans ?_, hnext, hdwell, hlines⟩
    simp [State.dwellSent, State.each, State.sendItem, State.dispItem_wr_errors, hl]
  · rw [exec_relayFeedbackChange, relayFeedbackChange_judged low hj]
  · rw [exec_relayPulseEnd, relayPulseEnd_ends hd hst h, hz, hy]
    rfl
  · rw [exec_relayConfirmTimeout, relayConfirmTimeout_fails hst hat ha]
  · rw [exec_relayConfirmTimeout, relayConfirmTimeout_differs hst ho hat]
  · obtain ⟨y, errs, hy, -, hnext, hdwell, hlines⟩ := dispSend_counts ht hat hx hc
    exact ⟨y, hy, hnext, hdwell, hlines⟩

end Sys2Proof.Machine

namespace Sys2Proof.Machine

/-! ### What events, evidence and the legal log leave of chapter 7

They change no metrology, order no synchronising reset, power no tile, seal no bay, write no value of chapter 7 and put nothing out. All but the legal
log itself also leave every legal log. -/

/-- Keys of the values of chapter 7: those of the tiles (R255) and those of the bays (R256). -/
def feederKey (k : Nat) : Bool :=
  (decide (0x400000 ≤ k) && decide (0x14000 ≤ k % 0x40000) && decide (k % 0x40000 < 0x14700)) ||
    (decide (0x200000 ≤ k) && decide (k < 0x280000) && decide (k % 0x10000 / 256 = 0x20))

theorem feederKey_tile {d : Entry} {j : Nat} (t : Nat) (ha : d.area = .tile) (hp : 0x14000 ≤ d.place j ∧ d.place j < 0x14700) :
    feederKey (d.key t j) = true := by
  obtain ⟨hlow, hhigh⟩ := hp
  unfold Entry.place at hlow hhigh
  simp only [feederKey, Entry.key, Entry.index, ha, Bool.or_eq_true, Bool.and_eq_true, decide_eq_true_eq]
  omega

theorem not_feederKey_tile {e : Entry} {i : Nat} (t : Nat) (ha : e.area = .tile)
    (hp : e.place i < 0x14000 ∨ 0x14700 ≤ e.place i ∧ e.place i < 0x40000) : feederKey (e.key t i) = false := by
  unfold Entry.place at hp
  simp only [feederKey, Entry.key, Entry.index, ha, Bool.or_eq_false_iff, Bool.and_eq_false_iff, decide_eq_false_iff_not]
  omega

theorem feederKey_bay_legal_en (b : BayId) : feederKey (Reg.bay_legal_en.key b 0) = true := by
  have hb := b.isLt
  have hkey : Reg.bay_legal_en.key b 0 = 0x202004 + 0x10000 * b.val := by simp only [Entry.key, Entry.index, Reg.bay_legal_en]; omega
  simp only [feederKey, hkey, Bool.or_eq_true, Bool.and_eq_true, decide_eq_true_eq]
  omega

/-- Another value is under another key. -/
theorem Entry.key_ne_of_feeder {k : Nat} {e : Entry} {n i : Nat} (hk : feederKey k = true) (he : feederKey (e.key n i) = false) : k ≠ e.key n i := by
  rintro rfl
  exact Bool.false_ne_true (he.symm.trans hk)

theorem State.onTile_keeps {β : Type} (g : Tile → β) {f : Tile → Tile} (hf : ∀ y, g (f y) = g y) (s : State) (t u : TileId) :
    g ((s.onTile t f).tile u) = g (s.tile u) := by
  by_cases h : u = t
  · rw [h, State.tile_onTile_self, hf]
  · rw [State.tile_onTile_ne _ _ _ _ h]

theorem State.onBay_keeps {β : Type} (g : Bay → β) {f : Bay → Bay} (hf : ∀ y, g (f y) = g y) (s : State) (b c : BayId) :
    g ((s.onBay b f).bay c) = g (s.bay c) := by
  by_cases h : c = b
  · rw [h, State.bay_onBay_self, hf]
  · rw [State.bay_onBay_ne _ _ _ _ h]

/-- What of a tile the metrology is: its domain, what it measures, and since when a synchronising reset is ordered. -/
def Tile.feeder (x : Tile) : Power × Metro × Option Nat := (x.power, x.vol.metro, x.vol.syncWanted)

/-- From `s` to `x` the metrology, the seals, the values of chapter 7, the clock count and the outputs stay. -/
structure FeederKept (s x : State) : Prop where
  feeder : ∀ u, (x.tile u).feeder = (s.tile u).feeder
  legalEn : ∀ b, (x.bay b).legalEn = (s.bay b).legalEn
  regs : ∀ k, feederKey k = true → Tbl.get x.regs k = Tbl.get s.regs k
  now : x.now = s.now
  out : x.out = s.out

/-- From `s` to `x` the legal logs stay too. -/
structure FeederLogKept (s x : State) : Prop extends FeederKept s x where
  legal : ∀ u, (x.tile u).legal = (s.tile u).legal

namespace FeederKept
variable {s x : State}

theorem refl (s : State) : FeederKept s s := ⟨fun _ => rfl, fun _ => rfl, fun _ _ => rfl, rfl, rfl⟩

theorem trans {y : State} (h : FeederKept s x) (k : FeederKept x y) : FeederKept s y :=
  ⟨fun u => (k.feeder u).trans (h.feeder u), fun b => (k.legalEn b).trans (h.legalEn b), fun n hn => (k.regs n hn).trans (h.regs n hn), k.now.trans h.now,
    k.out.trans h.out⟩

theorem metro (h : FeederKept s x) (u : TileId) : x.metro u = s.metro u := (congrArg (fun p => p.2.1) (h.feeder u) :)
theorem wanted (h : FeederKept s x) (u : TileId) : (x.vol u).syncWanted = (s.vol u).syncWanted := (congrArg (fun p => p.2.2) (h.feeder u) :)
theorem inRun (h : FeederKept s x) (u : TileId) : x.inRun u = s.inRun u := by
  have hpower : (x.tile u).power = (s.tile u).power := (congrArg (fun p => p.1) (h.feeder u) :)
  unfold State.inRun
  rw [hpower]

theorem rd (h : FeederKept s x) {d : Entry} {n j : Nat} (hk : feederKey (d.key n j) = true) : x.rd d n j = s.rd d n j := by
  unfold State.rd
  rw [h.regs _ hk]

theorem rdB (h : FeederKept s x) {d : Entry} {n j : Nat} (hk : feederKey (d.key n j) = true) (a l : Nat) : x.rdB d n a l j = s.rdB d n a l j :=
  State.rdB_congr _ _ _ _ _ (h.regs _ hk)

theorem onTile (h : FeederKept s x) (t : TileId) (f : Tile → Tile) (hf : ∀ y, (f y).feeder = y.feeder) : FeederKept s (x.onTile t f) :=
  h.trans ⟨State.onTile_keeps Tile.feeder hf x t, fun _ => rfl, fun _ _ => rfl, rfl, rfl⟩

theorem wr (h : FeederKept s x) (e : Entry) (n v i : Nat) (he : feederKey (e.key n i) = false) : FeederKept s (x.wr e n v i) :=
  h.trans ⟨fun _ => rfl, fun _ => rfl, fun _ hk => State.get_wr_ne _ _ _ _ _ _ (Entry.key_ne_of_feeder hk he), rfl, rfl⟩

theorem onBay (h : FeederKept s x) (b : BayId) (f : Bay → Bay) (hf : ∀ y, (f y).legalEn = y.legalEn) : FeederKept s (x.onBay b f) :=
  h.trans ⟨fun _ => rfl, State.onBay_keeps Bay.legalEn hf x b, fun _ _ => rfl, rfl, rfl⟩

end FeederKept

theorem not_feederKey_lost (t : TileId) (c : Fin 7) : feederKey (Reg.queue_lost.key t c) = false :=
  not_feederKey_tile t rfl (by simp only [Entry.place, Reg.queue_lost]; omega)
theorem not_feederKey_resets (t : TileId) (c : Fin 7) : feederKey (Reg.queue_resets.key t c) = false :=
  not_feederKey_tile t rfl (by simp only [Entry.place, Reg.queue_resets]; omega)
theorem not_feederKey_pierLost : feederKey (Reg.device_events_queue_lost.key 0 0) = false := by decide

namespace FeederLogKept
variable {s x : State}

theorem refl (s : State) : FeederLogKept s s := ⟨.refl s, fun _ => rfl⟩

theorem trans {y : State} (h : FeederLogKept s x) (k : FeederLogKept x y) : FeederLogKept s y :=
  ⟨h.toFeederKept.trans k.toFeederKept, fun u => (k.legal u).trans (h.legal u)⟩

theorem onVol (h : FeederLogKept s x) (t : TileId) (f : Vol → Vol) (hf : ∀ v, (f v).metro = v.metro ∧ (f v).syncWanted = v.syncWanted) :
    FeederLogKept s (x.onVol t f) :=
  ⟨h.toFeederKept.onTile t _ fun y => by simp [Tile.feeder, hf], fun u => (State.onTile_keeps Tile.legal (by intro; rfl) x t u).trans (h.legal u)⟩

theorem onBay (h : FeederLogKept s x) (b : BayId) (f : Bay → Bay) (hf : ∀ y, (f y).legalEn = y.legalEn) : FeederLogKept s (x.onBay b f) :=
  ⟨h.toFeederKept.onBay b f hf, h.legal⟩

theorem wr (h : FeederLogKept s x) (e : Entry) (n v i : Nat) (he : feederKey (e.key n i) = false) : FeederLogKept s (x.wr e n v i) :=
  ⟨h.toFeederKept.wr e n v i he, h.legal⟩

theorem bump (h : FeederLogKept s x) (e : Entry) (n i k : Nat) (he : feederKey (e.key n i) = false) : FeederLogKept s (x.bump e n i k) := h.wr e n _ i he

theorem mirror (h : FeederLogKept s x) (t : TileId) (i : MItem) (n : Nat) : FeederLogKept s (x.mirror t i n) :=
  h.trans ⟨⟨fun _ => by simp, State.mirror_bay Bay.legalEn (fun _ _ _ _ => rfl) x t i n,
    fun k _ => State.mirror_keeps (fun y => Tbl.get y.regs k) t (fun _ _ _ _ => rfl) _ _ _,
    State.mirror_keeps State.now t (fun _ _ _ _ => rfl) _ _ _, by simp⟩,
    fun _ => by simp⟩

theorem event (h : FeederLogKept s x) (t : TileId) (sev code obj a b : Nat) : FeederLogKept s (x.event t sev code obj a b) :=
  h.trans ⟨⟨fun u => by simp [Tile.feeder, State.tile_vol], fun _ => by simp,
    fun k hk => State.event_keeps (fun y => Tbl.get y.regs k) t (fun _ _ => rfl)
      (fun _ _ => State.get_wr_ne _ _ _ _ _ _ (Entry.key_ne_of_feeder hk (not_feederKey_lost t 6)))
      (fun _ _ => State.get_wr_ne _ _ _ _ _ _ (Entry.key_ne_of_feeder hk (not_feederKey_resets t 6))) (fun _ _ => rfl)
      (fun _ _ => State.get_wr_ne _ _ _ _ _ _ (Entry.key_ne_of_feeder hk not_feederKey_pierLost)) _ _ _ _ _ _,
    State.event_keeps State.now t (fun _ _ => rfl) (fun _ _ => rfl) (fun _ _ => rfl) (fun _ _ => rfl) (fun _ _ => rfl) _ _ _ _ _ _, by simp⟩,
    fun _ => by simp⟩

theorem pierEvent (h : FeederLogKept s x) (w sev code obj a b : Nat) : FeederLogKept s (x.pierEvent w sev code obj a b) :=
  h.trans ⟨⟨fun _ => by simp, fun _ => by simp,
    fun k hk => State.pierPut_keeps (fun y => Tbl.get y.regs k) (fun _ _ => rfl)
      (fun _ _ => State.get_wr_ne _ _ _ _ _ _ (Entry.key_ne_of_feeder hk not_feederKey_pierLost)) _ _,
    State.pierPut_keeps State.now (fun _ _ => rfl) (fun _ _ => rfl) _ _, by simp⟩, fun _ => by simp⟩

theorem foldl {α : Type} (h : FeederLogKept s x) (l : List α) (f : State → α → State) (hf : ∀ y a, FeederLogKept s y → FeederLogKept s (f y a)) :
    FeederLogKept s (l.foldl f x) := List.foldlRecOn (motive := FeederLogKept s) l f h fun y k a _ => hf y a k

theorem ite {c : Prop} [Decidable c] {y : State} (h : FeederLogKept s x) (k : FeederLogKept s y) : FeederLogKept s (if c then x else y) := by
  split
  · exact h
  · exact k

/-! Meter records (R69), evidence (R214) and the vault's general slots (R464, R466) -/

theorem latchLocal (h : FeederLogKept s x) (t : TileId) (k : Nat) : FeederLogKept s (x.latchLocal t k) := by
  unfold State.latchLocal State.latchFlag
  split
  · split
    · exact h
    · exact ((h.onVol t _ (by intro; exact ⟨rfl, rfl⟩)).onVol t _ (by intro; exact ⟨rfl, rfl⟩)).mirror _ _ _
  · exact h

theorem onBal (h : FeederLogKept s x) (t : TileId) (f : Bal → Bal) : FeederLogKept s (x.onBal t f) := h.onVol t _ fun _ => ⟨rfl, rfl⟩
theorem onLehr (h : FeederLogKept s x) (t : TileId) (f : Lehr → Lehr) : FeederLogKept s (x.onLehr t f) := h.onVol t _ fun _ => ⟨rfl, rfl⟩

theorem evidence (h : FeederLogKept s x) (t : TileId) (ekind node who value device : Nat) :
    FeederLogKept s (x.evidence t ekind node who value device) := by
  unfold State.evidence
  refine ite h (ite h (FeederLogKept.bump ?_ Reg.balance_evidence_records _ _ _ (not_feederKey_tile t (by rfl) (by decide))))
  exact ((h.onBal t _).onBal t _).onLehr t _

theorem setSlot (h : FeederLogKept s x) (t : TileId) (n : Nat) (key : Bytes) : FeederLogKept s (x.setSlot t n key) := by
  unfold State.setSlot State.onVault
  exact h.onVol t _ (by intro; exact ⟨rfl, rfl⟩)

theorem deriveSlots (h : FeederLogKept s x) (t : TileId) : FeederLogKept s (x.deriveSlots t) := by
  have fromTile (a b c d : Bytes) := (((h.setSlot t 0 a).setSlot t 1 b).setSlot t 4 c).setSlot t 5 d
  unfold State.deriveSlots
  dsimp only
  cases (x.vol t).vault.tileKek <;> cases (x.vol t).vault.bayKek
  · exact h
  · exact (h.setSlot _ _ _).setSlot _ _ _
  · exact fromTile _ _ _ _
  · exact ((fromTile _ _ _ _).setSlot _ _ _).setSlot _ _ _

theorem loadSlot (h : FeederLogKept s x) (t : TileId) (n place : Nat) : FeederLogKept s (x.loadSlot t n place) := by
  unfold State.loadSlot
  split
  · exact (h.bump _ _ _ _ (not_feederKey_tile t (by rfl) (by decide))).setSlot _ _ _
  · exact h.onVol t _ (by intro; exact ⟨rfl, rfl⟩)

theorem refillSlot (h : FeederLogKept s x) (t : TileId) (n : Nat) : FeederLogKept s (x.refillSlot t n) := by
  unfold State.refillSlot
  split
  · exact h.deriveSlots t
  · split
    · split
      · exact h.loadSlot _ _ _
      · exact h
    · split
      · exact h.onVol t _ (by intro; exact ⟨rfl, rfl⟩)
      · exact h.loadSlot _ _ _

theorem useSlot (h : FeederLogKept s x) (t : TileId) (n : Nat) : FeederLogKept s (x.useSlot t n).1 := by
  unfold State.useSlot
  split
  · split
    · exact ((h.bump _ _ _ _ (not_feederKey_tile t (by rfl) (by decide))).event _ _ _ _ _ _).refillSlot _ _
    · exact h
  · exact h

/-! The end of armed controls (R629, R637) -/

theorem endTileArm (h : FeederLogKept s x) (t : TileId) (k reason : Nat) : FeederLogKept s (x.endTileArm t k reason) := by
  have disarmed := h.onVol t (fun v => { v with diag := { v.diag with arms := v.diag.arms.set k none } }) (by intro; exact ⟨rfl, rfl⟩)
  unfold State.endTileArm
  split
  · exact h
  · dsimp only
    split
    · exact (disarmed.onVol t _ (by intro; exact ⟨rfl, rfl⟩)).event _ _ _ _ _ _
    · split
      · exact (disarmed.onVol t _ (by intro; exact ⟨rfl, rfl⟩)).event _ _ _ _ _ _
      · exact disarmed.event _ _ _ _ _ _

theorem endBayArm (h : FeederLogKept s x) (b : BayId) (k reason : Nat) : FeederLogKept s (x.endBayArm b k reason) := by
  unfold State.endBayArm
  split
  · exact h
  · exact (h.onBay b _ fun y => by dsimp only; split <;> rfl).pierEvent _ _ _ _ _ _

theorem endBayArms (h : FeederLogKept s x) (b : BayId) (reason : Nat) : FeederLogKept s (x.endBayArms b reason) :=
  ((h.foldl _ _ fun _ k hk => hk.endBayArm b k reason).foldl _ _ fun _ k hk => hk.endTileArm _ k reason).foldl _ _ fun _ k hk => hk.endTileArm _ k reason

theorem endUnlock (h : FeederLogKept s x) (b : BayId) : FeederLogKept s (x.endUnlock b) := by
  unfold State.endUnlock
  split
  · exact h
  · exact (h.onBay b _ (by intro; rfl)).endBayArms b 2

end FeederLogKept

/-! ### The legal log (R598) -/

/-- An entry of `code` stands at the end of the log, behind what the vault did for its tag. -/
theorem State.legalLog_of_not_full {s : State} {t : TileId} (h : s.legalFull t = false) (code : Nat) (data : Bytes) :
    ∃ y e v, FeederLogKept s y ∧ e.code = code ∧
      s.legalLog t code data = (y.onTile t fun x => { x with legal := x.legal ++ [e] }).wr Reg.legal_next_lseq t v := by
  unfold State.legalLog
  rw [if_neg (by simp [h])]
  exact ⟨_, _, _, (FeederLogKept.refl s).useSlot t 5, rfl, rfl⟩

theorem State.legalLog_of_full {s : State} {t : TileId} (h : s.legalFull t = true) (code : Nat) (data : Bytes) :
    FeederLogKept s (s.legalLog t code data) := by
  unfold State.legalLog
  rw [if_pos h]
  exact ((FeederLogKept.refl s).bump _ _ _ _ (not_feederKey_tile t (by rfl) (by decide))).latchLocal t 5

theorem FeederKept.legalLog {s x : State} (h : FeederKept s x) (t : TileId) (code : Nat) (data : Bytes) : FeederKept s (x.legalLog t code data) := by
  cases hf : x.legalFull t with
  | true => exact h.trans (State.legalLog_of_full hf code data).toFeederKept
  | false =>
    obtain ⟨y, e, v, hy, -, hlog⟩ := State.legalLog_of_not_full hf code data
    rw [hlog]
    exact ((h.trans hy.toFeederKept).onTile t _ (by intro; rfl)).wr _ _ _ _ (not_feederKey_tile t (by rfl) (by decide))

/-- The newest entry of a log that was not full is the one put there. -/
theorem State.legalLog_newest {s : State} {t : TileId} (h : s.legalFull t = false) (code : Nat) (data : Bytes) :
    ((s.legalLog t code data).tile t).legal.getLast?.map LegalEnt.code = some code := by
  obtain ⟨y, e, v, -, he, hlog⟩ := State.legalLog_of_not_full h code data
  simp [hlog, he]

/-- The logs of the other tiles stay. -/
theorem State.legalLog_other {s : State} {t u : TileId} (h : u ≠ t) (code : Nat) (data : Bytes) :
    ((s.legalLog t code data).tile u).legal = (s.tile u).legal := by
  cases hf : s.legalFull t with
  | true => exact (State.legalLog_of_full hf code data).legal u
  | false =>
    obtain ⟨y, e, v, hy, -, hlog⟩ := State.legalLog_of_not_full hf code data
    rw [hlog, State.tile_wr, State.tile_onTile_ne _ _ _ _ h, hy.legal]

end Sys2Proof.Machine

namespace Sys2Proof.Machine

/-! ### The magnetic sensors (R246, R247) -/

theorem exec_magRead (t : TileId) (v : List (Option Bytes)) (s : State) : exec (.magRead t v) s = .next (s.done (magRead t v s)) := rfl
theorem exec_sensorRetry (t : TileId) (i : Fin 2) (v : Option Bytes) (s : State) :
    exec (.sensorRetry t i v) s = .next (s.done (sensorRetry t i v s)) := rfl

/-- The misses of a sensor, and whether it has failed. -/
def MagSensor.health (x : MagSensor) : Nat × Bool := (x.miss, x.failed)

/-- Sensor `i` of a tile. -/
def State.sensor (s : State) (t : TileId) (i : Nat) : MagSensor := (s.metro t).mags.getD i MagSensor.init

/-- A sensor after a read: the bytes, or a miss, of which the third fails it (R246). -/
def MagSensor.afterRead (v : Option Bytes) (x : MagSensor) : MagSensor :=
  match v with
  | some _ => { x with miss := 0, failed := false }
  | none => if x.miss + 1 < 3 ∨ x.failed = true then { x with miss := x.miss + 1 } else { x with miss := 3, failed := true }

/-- A read takes from a sensor its misses and its failure only. -/
theorem MagSensor.health_afterRead {x y : MagSensor} (h : x.health = y.health) (v : Option Bytes) : (x.afterRead v).health = (y.afterRead v).health := by
  obtain ⟨hmiss, hfailed⟩ := Prod.ext_iff.1 h
  cases v with
  | some l => rfl
  | none =>
    simp only [MagSensor.health] at hmiss hfailed
    simp only [MagSensor.afterRead, hmiss, hfailed]
    split
    · simp [MagSensor.health]
    · rfl

/-- From `s` to `x` sensor `i` neither misses nor fails nor recovers, and what describes it stays. -/
structure SensorKept (t : TileId) (i : Nat) (s x : State) : Prop where
  health : (x.sensor t i).health = (s.sensor t i).health
  count : (x.metro t).mags.length = (s.metro t).mags.length
  desc : x.rdAll Reg.metro_mag_desc t i = s.rdAll Reg.metro_mag_desc t i

theorem FeederKept.sensorKept {s x : State} (h : FeederKept s x) (t : TileId) {i : Nat} (hi : i < 2) : SensorKept t i s x :=
  ⟨by rw [State.sensor, h.metro]; rfl, by rw [h.metro],
    h.rdB (feederKey_tile t rfl (by simp only [Entry.place, Reg.metro_mag_desc]; omega)) _ _⟩

namespace SensorKept
variable {t : TileId} {i : Nat} {s x : State}

theorem refl (t : TileId) (i : Nat) (s : State) : SensorKept t i s s := ⟨rfl, rfl, rfl⟩

theorem trans {y : State} (h : SensorKept t i s x) (k : SensorKept t i x y) : SensorKept t i s y :=
  ⟨k.health.trans h.health, k.count.trans h.count, k.desc.trans h.desc⟩

/-- A change of another sensor, or of what this one watches. -/
theorem setMag (h : SensorKept t i s x) (j : Nat) (f : MagSensor → MagSensor) (hf : j ≠ i ∨ ∀ y, (f y).health = y.health) :
    SensorKept t i s (x.onMetro t fun m => { m with mags := m.mags.set j (f (m.mags.getD j MagSensor.init)) }) := by
  refine h.trans ⟨?_, by simp, rfl⟩
  unfold State.sensor
  rw [State.metro_onMetro]
  by_cases hj : j = i
  · subst hj
    have hf' := hf.resolve_left (· rfl)
    by_cases hl : j < (x.metro t).mags.length
    · simp [hl, hf']
    · simp [hl]
  · simp [hj]

theorem wr (h : SensorKept t i s x) (e : Entry) (v j : Nat) (ha : e.area = .tile) (hp : Reg.metro_mag_desc.place i ≠ e.place j) :
    SensorKept t i s (x.wr e t v j) :=
  h.trans ⟨rfl, rfl, State.rdB_wr_ne _ _ _ _ _ _ _ _ _ _ (Entry.key_ne_place _ _ _ _ _ ha.symm hp)⟩

theorem wrB (h : SensorKept t i s x) (e : Entry) (a : Nat) (b : Bytes) (j : Nat) (ha : e.area = .tile)
    (hp : Reg.metro_mag_desc.place i ≠ e.place j) : SensorKept t i s (x.wrB e t a b j) :=
  h.trans ⟨rfl, rfl, State.rdB_wrB_ne _ _ _ _ _ _ _ _ _ _ _ (Entry.key_ne_place _ _ _ _ _ ha.symm hp)⟩

theorem putEpisode (h : SensorKept t i s x) (hi : i < 2) (sensor axis : Nat) (e : Episode) (ended : Option Nat) :
    SensorKept t i s (x.putEpisode t sensor axis e ended) :=
  h.wrB Reg.metro_mag_log _ _ 0 rfl (by simp only [Entry.place, Reg.metro_mag_desc, Reg.metro_mag_log]; omega)

theorem ite {c : Prop} [Decidable c] {y : State} (h : SensorKept t i s x) (k : SensorKept t i s y) : SensorKept t i s (if c then x else y) := by
  split
  · exact h
  · exact k

theorem evidence (h : SensorKept t i s x) (hi : i < 2) (ekind node who value device : Nat) : SensorKept t i s (x.evidence t ekind node who value device) :=
  h.trans (((FeederLogKept.refl x).evidence ..).toFeederKept.sensorKept t hi)

theorem judgeAxis (h : SensorKept t i s x) (hi : i < 2) (sensor axis : Nat) (v : Int) : SensorKept t i s (x.judgeAxis t sensor axis v) := by
  have setAxis (e : Option Episode) :=
    h.setMag sensor (fun y => { y with axes := y.axes.set axis e }) (.inr (by intro; rfl))
  unfold State.judgeAxis
  extract_lets d range hit v thr now cur put evid
  have judged (y : State) (hy : SensorKept t i s y) (e : Episode) : SensorKept t i s (evid y e) := hy.evidence hi _ _ _ _ _
  clear_value cur
  cases cur with
  | none =>
    refine ite h (judged _ ?_ _)
    exact ((setAxis _).putEpisode hi _ _ _ _).wr Reg.metro_mag_episodes _ 0 rfl
      (by simp only [Entry.place, Reg.metro_mag_desc, Reg.metro_mag_episodes]; omega)
  | some e =>
    refine ite (judged _ ((setAxis _).putEpisode hi _ _ _ _) _) (judged _ ?_ _)
    exact ((setAxis none).putEpisode hi _ _ _ _).trans
      ((((FeederKept.refl _).legalLog t _ _).trans ((FeederLogKept.refl _).latchLocal t 0).toFeederKept).sensorKept t hi)

theorem each {α : Type} (h : SensorKept t i s x) (l : List α) (f : State → α → State) (hf : ∀ y a, SensorKept t i s y → SensorKept t i s (f y a)) :
    SensorKept t i s (x.each l f) := List.foldlRecOn (motive := SensorKept t i s) l f h fun y k a _ => hf y a k

theorem magStatus (h : SensorKept t i s x) (hi : i < 2) : SensorKept t i s (x.magStatus t) :=
  h.wr Reg.metro_mag_status _ 0 rfl (by simp only [Entry.place, Reg.metro_mag_desc, Reg.metro_mag_status]; omega)

end SensorKept

section
variable {s : State} {t : TileId} {i : Nat}

/-- Sensor `j` has been read. -/
def State.sensorRead (s : State) (t : TileId) (j : Nat) (v : Option Bytes) : State :=
  s.onMetro t fun m => { m with mags := m.mags.set j ((m.mags.getD j MagSensor.init).afterRead v) }

theorem State.sensor_sensorRead (h : i < (s.metro t).mags.length) (v : Option Bytes) : (s.sensorRead t i v).sensor t i = (s.sensor t i).afterRead v := by
  simp [State.sensor, State.sensorRead, h]

theorem State.onMetro_congr {f g : Metro → Metro} (h : f (s.metro t) = g (s.metro t)) : s.onMetro t f = s.onMetro t g := by
  unfold State.onMetro State.onVol
  exact State.onTile_congr (congrArg (fun m => { s.tile t with vol := { s.vol t with metro := m } }) h)

/-- A read that succeeds clears the misses, and each axis is judged. -/
theorem readSensor_some (j : Nat) (l : Bytes) :
    s.readSensor t j (some l) =
      ((s.emit (.i2cRead t (fld (s.rdAll Reg.metro_mag_desc t j) 0 1) (fld (s.rdAll Reg.metro_mag_desc t j) 1 1) 6)).sensorRead t j (some l)).each
        (List.range 3) fun y a => y.judgeAxis t j a
          ((magAxes (fld (s.rdAll Reg.metro_mag_desc t j) 2 1) l).getD a 0 * (fld (s.rdAll Reg.metro_mag_desc t j) 4 4 : Int)) := rfl

/-- A read that is missed is counted, short of the third in a row. -/
theorem readSensor_missed {j : Nat} (h : (s.sensor t j).miss + 1 < 3 ∨ (s.sensor t j).failed = true) :
    s.readSensor t j none =
      (s.emit (.i2cRead t (fld (s.rdAll Reg.metro_mag_desc t j) 0 1) (fld (s.rdAll Reg.metro_mag_desc t j) 1 1) 6)).sensorRead t j none := by
  refine (if_pos h).trans (State.onMetro_congr ?_)
  exact congrArg (fun y => { s.metro t with mags := (s.metro t).mags.set j y }) (if_pos h).symm

/-- The third miss in a row fails the sensor, raises an event and is latched. -/
theorem readSensor_failed {j : Nat} (h : ¬((s.sensor t j).miss + 1 < 3 ∨ (s.sensor t j).failed = true)) :
    s.readSensor t j none =
      (((s.emit (.i2cRead t (fld (s.rdAll Reg.metro_mag_desc t j) 0 1) (fld (s.rdAll Reg.metro_mag_desc t j) 1 1) 6)).sensorRead t j none).event t 1 0x1401
        j).latchLocal t 2 := by
  refine (if_neg h).trans (congrArg (fun y : State => (y.event t 1 0x1401 j).latchLocal t 2) (State.onMetro_congr ?_))
  exact congrArg (fun y => { s.metro t with mags := (s.metro t).mags.set j y }) (if_neg h).symm

theorem SensorKept.emit (o : Out) {j : Nat} {v : Option Bytes} : SensorKept t i (s.sensorRead t j v) ((s.emit o).sensorRead t j v) := ⟨rfl, rfl, rfl⟩

/-- Behind the sensor that is read, a read only judges what it shows and raises events. -/
theorem readSensor_kept (hi : i < 2) (j : Nat) (v : Option Bytes) : SensorKept t i (s.sensorRead t j v) (s.readSensor t j v) := by
  cases v with
  | some l =>
    rw [readSensor_some]
    exact SensorKept.each (SensorKept.emit _) _ _ fun y a hy => hy.judgeAxis hi _ _ _
  | none =>
    by_cases h : (s.sensor t j).miss + 1 < 3 ∨ (s.sensor t j).failed = true
    · rw [readSensor_missed h]
      exact SensorKept.emit _
    · rw [readSensor_failed h]
      exact (SensorKept.emit _).trans ((((FeederLogKept.refl _).event t _ _ _ _ _).latchLocal t 2).toFeederKept.sensorKept t hi)

/-- The turn of sensor `j`: it is read if it is present and has not failed. -/
def State.sensorTurn (s : State) (t : TileId) (v : List (Option Bytes)) (j : Nat) : State :=
  if fld (s.rdAll Reg.metro_mag_desc t j) 0 1 = 0 ∨ (s.sensor t j).failed = true then s else s.readSensor t j (v.getD j none)

theorem magRead_reads (hr : (s.metro t).run = true) (hm : s.metroOn t = true) (v : List (Option Bytes)) :
    magRead t v s = ((s.sensorTurn t v 0).sensorTurn t v 1).magStatus t := by
  unfold magRead
  exact if_neg (by simp [hr, hm])

theorem sensorRetry_reads (j : Fin 2) (hr : (s.metro t).run = true) (hm : s.metroOn t = true) (hf : (s.sensor t j).failed = true) (v : Option Bytes) :
    sensorRetry t j v s = (s.readSensor t j v).magStatus t := by
  have hf' : ((s.metro t).mags.getD j MagSensor.init).failed = true := hf
  unfold sensorRetry
  exact if_neg (by rw [hr, hm, hf']; decide)

/-- The turn of another sensor. -/
theorem SensorKept.turn {x : State} (h : SensorKept t i s x) (hi : i < 2) (v : List (Option Bytes)) {j : Nat} (hj : j ≠ i) :
    SensorKept t i s (x.sensorTurn t v j) := by
  unfold State.sensorTurn
  split
  · exact h
  · exact (h.setMag j (MagSensor.afterRead (v.getD j none)) (.inl hj)).trans (readSensor_kept hi j _)

/-- The turn of a sensor that is present and has not failed. -/
theorem health_sensorTurn (hi : i < 2) (hl : (s.metro t).mags.length = 2) (hp : fld (s.rdAll Reg.metro_mag_desc t i) 0 1 ≠ 0)
    (hf : (s.sensor t i).failed = false) (v : List (Option Bytes)) :
    ((s.sensorTurn t v i).sensor t i).health = ((s.sensor t i).afterRead (v.getD i none)).health := by
  unfold State.sensorTurn
  rw [if_neg (by simp [hp, hf]), (readSensor_kept hi i _).health, State.sensor_sensorRead (by omega)]

/-- Each sensor that is present and has not failed is read once. -/
theorem health_magRead (hi : i < 2) (hr : (s.metro t).run = true) (hm : s.metroOn t = true) (hl : (s.metro t).mags.length = 2)
    (hp : fld (s.rdAll Reg.metro_mag_desc t i) 0 1 ≠ 0) (hf : (s.sensor t i).failed = false) (v : List (Option Bytes)) :
    ((magRead t v s).sensor t i).health = ((s.sensor t i).afterRead (v.getD i none)).health := by
  rw [magRead_reads hr hm, ((SensorKept.refl t i _).magStatus hi).health]
  obtain rfl | rfl : i = 0 ∨ i = 1 := by omega
  · rw [((SensorKept.refl t 0 _).turn hi v (by decide)).health]
    exact health_sensorTurn hi hl hp hf v
  · have first : SensorKept t 1 s (s.sensorTurn t v 0) := (SensorKept.refl t 1 s).turn hi v (by decide)
    have hf' : ((s.sensorTurn t v 0).sensor t 1).failed = false := (congrArg Prod.snd first.health).trans hf
    rw [health_sensorTurn hi (first.count.trans hl) (by rwa [first.desc]) hf' v]
    exact MagSensor.health_afterRead first.health _

/-- A failed sensor is read once more. -/
theorem health_sensorRetry (j : Fin 2) (hr : (s.metro t).run = true) (hm : s.metroOn t = true) (hl : (s.metro t).mags.length = 2)
    (hf : (s.sensor t j).failed = true) (v : Option Bytes) :
    ((sensorRetry t j v s).sensor t j).health = ((s.sensor t j).afterRead v).health := by
  rw [sensorRetry_reads j hr hm hf, ((SensorKept.refl t j _).magStatus j.isLt).health, (readSensor_kept j.isLt j v).health,
    State.sensor_sensorRead (by omega)]

end

@[simp] theorem State.sensor_done (s x : State) (t : TileId) (i : Nat) : (s.done x).sensor t i = x.sensor t i := by simp [State.sensor]

/-- Settles O25: what a read and a retry make of the misses and the failure of a sensor. -/
theorem magneticSensors : Obligations.MagneticSensors := by
  refine ⟨fun s t hr hm habsent hp hl hf hmiss => ?_, fun s t i hr hm hl hf => ?_, fun s t v i l hi hr hm hl hp hf hv => ?_,
    fun s t v i hi hr hm hl hp hf hmiss hv => ?_, fun s t i l hr hm hl hf => ?_⟩
  · have hf' : (s.sensor t 1).failed = false := hf
    have hmiss' : (s.sensor t 1).miss = 0 := hmiss
    have hfirst : s.sensorTurn t [none, none] 0 = s := if_pos (.inl habsent)
    have hsecond : s.sensorTurn t [none, none] 1 = s.readSensor t 1 none := if_neg (by simp [hp, hf'])
    have hread : magRead t [none, none] s = (s.readSensor t 1 none).magStatus t := by rw [magRead_reads hr hm, hfirst, hsecond]
    have hmissed : (s.sensor t 1).miss + 1 < 3 ∨ (s.sensor t 1).failed = true := .inl (by rw [hmiss']; decide)
    have hone : (s.sensor t 1).afterRead none = { s.sensor t 1 with miss := 1 } := by simp [MagSensor.afterRead, hmiss']
    have hhealth := health_magRead (by decide) hr hm hl hp hf [none, none]
    refine ⟨_, exec_magRead t _ s, ?_, ?_, ?_⟩
    · rw [State.metro_done]
      exact congrArg Prod.fst (hhealth.trans (congrArg MagSensor.health hone))
    · rw [State.metro_done, hread, readSensor_missed hmissed]
      simp [State.magStatus, State.sensorRead]
      rfl
    · rw [State.done_out, hread, readSensor_missed hmissed]
      rfl
  · have hmissed : (s.sensor t i).miss + 1 < 3 ∨ (s.sensor t i).failed = true := .inr hf
    have hafter : (s.sensor t i).afterRead none = { s.sensor t i with miss := (s.sensor t i).miss + 1 } := if_pos hmissed
    have hhealth := (health_sensorRetry i hr hm hl hf none).trans (congrArg MagSensor.health hafter)
    refine ⟨_, exec_sensorRetry t i none s, ?_, ?_, ?_⟩
    · rw [State.metro_done]
      exact (congrArg Prod.snd hhealth).trans hf
    · rw [State.metro_done]
      exact congrArg Prod.fst hhealth
    · rw [State.done_out, sensorRetry_reads i hr hm hf, readSensor_missed hmissed]
      rfl
  · have hhealth := health_magRead hi hr hm hl hp hf v
    rw [hv] at hhealth
    refine ⟨_, exec_magRead t v s, ?_⟩
    rw [State.metro_done]
    exact ⟨congrArg Prod.fst hhealth, congrArg Prod.snd hhealth⟩
  · have hhealth := health_magRead hi hr hm hl hp hf v
    have hf' : (s.sensor t i).failed = false := hf
    have hmiss' : (s.sensor t i).miss = 2 := hmiss
    have hthird : (s.sensor t i).afterRead none = { s.sensor t i with miss := 3, failed := true } := if_neg (by simp [hmiss', hf'])
    rw [hv, hthird] at hhealth
    refine ⟨_, exec_magRead t v s, ?_⟩
    rw [State.metro_done]
    exact congrArg Prod.snd hhealth
  · have hhealth := health_sensorRetry i hr hm hl hf (some l)
    refine ⟨_, exec_sensorRetry t i (some l) s, ?_⟩
    rw [State.metro_done]
    exact ⟨congrArg Prod.snd hhealth, congrArg Prod.fst hhealth⟩

end Sys2Proof.Machine

namespace Sys2Proof.Machine

open Crypto

/-! ### The seal (R239) -/

theorem exec_sealAssert (b : BayId) (s : State) : exec (.sealAssert b) s = .next (s.done (sealChange b true s)) := rfl
theorem exec_sealRelease (b : BayId) (s : State) : exec (.sealRelease b) s = .next (s.done (sealChange b false s)) := rfl

theorem quiet_bay_legal_en : Reg.bay_legal_en.quiet 0 = true := by decide

/-- The seal of a bay reads `on`. -/
def State.sealShown (s : State) (b : BayId) (on : Bool) : State := (s.onBay b fun x => { x with legalEn := on }).wr Reg.bay_legal_en b (b2n on)

/-- Its change is an event, and an asserted seal ends the bay's unlock (R629). -/
def State.sealRaised (s : State) (b : BayId) (on : Bool) : State :=
  let y := (s.sealShown b on).pierEvent (0x80 + b) 0 0x0209 0 (b2n on)
  if on then y.endUnlock b else y

/-- A tile in RUN logs the change. -/
def State.logSeal (s : State) (on : Bool) (t : TileId) : State := if s.inRun t then s.legalLog t (if on then 0x03 else 0x04) [] else s

theorem FeederLogKept.sealRaised (s : State) (b : BayId) (on : Bool) : FeederLogKept (s.sealShown b on) (s.sealRaised b on) := by
  unfold State.sealRaised
  cases on with
  | true => exact ((FeederLogKept.refl _).pierEvent ..).endUnlock b
  | false => exact (FeederLogKept.refl _).pierEvent ..

theorem FeederKept.logSeal {s x : State} (h : FeederKept s x) (on : Bool) (t : TileId) : FeederKept s (x.logSeal on t) := by
  unfold State.logSeal
  split
  · exact h.legalLog _ _ _
  · exact h

section
variable {s : State} {b : BayId} {on : Bool}

theorem State.logSeal_newest {t : TileId} (hr : s.inRun t = true) (hf : s.legalFull t = false) :
    ((s.logSeal on t).tile t).legal.getLast?.map LegalEnt.code = some (if on then 3 else 4) := by
  unfold State.logSeal
  rw [if_pos hr, State.legalLog_newest hf]

theorem State.logSeal_other {t u : TileId} (h : u ≠ t) : ((s.logSeal on t).tile u).legal = (s.tile u).legal := by
  unfold State.logSeal
  split
  · exact State.legalLog_other h _ _
  · rfl

theorem State.logSeal_idle {t : TileId} (h : s.inRun t = false) : s.logSeal on t = s := if_neg (by simp [h])

theorem tileOf_ne (b : BayId) : tileOf b false ≠ tileOf b true := by
  simp [tileOf, b2n]

/-- A change of the seal is shown and raised, and logged by the even and by the odd tile. -/
theorem sealChange_logs (hup : s.pier.up = true) (h : (s.bay b).legalEn ≠ on) :
    sealChange b on s = ((s.sealRaised b on).logSeal on (tileOf b false)).logSeal on (tileOf b true) := by
  unfold sealChange
  exact if_neg (by simp [hup, h])

theorem State.legalFull_of_legal {s x : State} {t : TileId} (h : (x.tile t).legal = (s.tile t).legal) : x.legalFull t = s.legalFull t := by
  unfold State.legalFull
  rw [h]

/-- The seal reads as the pin does, and each tile in RUN, whose log has room, ends its log with the change. -/
theorem sealChange_effect (hup : s.pier.up = true) (h : (s.bay b).legalEn ≠ on) :
    ((s.done (sealChange b on s)).bay b).legalEn = on ∧ (s.done (sealChange b on s)).rd Reg.bay_legal_en b = b2n on ∧
      ∀ o, s.inRun (tileOf b o) = true → s.legalFull (tileOf b o) = false →
        ((s.done (sealChange b on s)).tile (tileOf b o)).legal.getLast?.map LegalEnt.code = some (if on then 3 else 4) := by
  have raised := FeederLogKept.sealRaised s b on
  have even := raised.toFeederKept.logSeal on (tileOf b false)
  have both := even.logSeal on (tileOf b true)
  rw [State.done_bay, State.rd_done _ _ _ _ _ quiet_bay_legal_en, sealChange_logs hup h]
  refine ⟨?_, ?_, fun o hr hf => ?_⟩
  · rw [both.legalEn]
    simp [State.sealShown]
  · rw [both.rd (feederKey_bay_legal_en b), State.sealShown, State.rd_wr_self]
    cases on <;> rfl
  · rw [State.done_legal]
    cases o with
    | false =>
      rw [State.logSeal_other (tileOf_ne b)]
      exact State.logSeal_newest ((raised.inRun _).trans hr) ((State.legalFull_of_legal (raised.legal _)).trans hf)
    | true =>
      have hlegal := (State.logSeal_other (s := s.sealRaised b on) (on := on) (tileOf_ne b).symm).trans (raised.legal (tileOf b true))
      exact State.logSeal_newest ((even.inRun _).trans hr) ((State.legalFull_of_legal hlegal).trans hf)

/-- Where no tile of the bay is in RUN and no unlock ends, no tile's volatile part changes. -/
theorem sealChange_vol (hup : s.pier.up = true) (h : (s.bay b).legalEn ≠ on) (hr : ∀ o, s.inRun (tileOf b o) = false)
    (hu : on = true → (s.bay b).unlockTo = 0) (u : TileId) : (s.done (sealChange b on s)).vol u = s.vol u := by
  have raised := FeederLogKept.sealRaised s b on
  have hidle : ∀ o, (s.sealRaised b on).inRun (tileOf b o) = false := fun o => (raised.inRun _).trans (hr o)
  rw [State.done_vol, sealChange_logs hup h, State.logSeal_idle (hidle false), State.logSeal_idle (hidle true)]
  unfold State.sealRaised
  cases on with
  | true =>
    have hlocked : (((s.sealShown b true).pierEvent (0x80 + b) 0 0x0209 0 1).bay b).unlockTo = 0 := by simpa [State.sealShown] using hu rfl
    rw [if_pos rfl]
    refine (congrArg (fun y : State => y.vol u) (if_pos hlocked)).trans ?_
    simp [State.sealShown]
  | false =>
    rw [if_neg (by decide)]
    simp [State.sealShown]

end

/-! ### The legal operations (R240, R242, R244) -/

theorem exec_calCommit (t : TileId) (s : State) :
    exec (.calCommit ⟨t, 0⟩) s = .next (s.done (consuming t [Reg.metro_cal_stage] (calCommit t 0) s)) := rfl
theorem exec_regRestore (t : TileId) (s : State) :
    exec (.regRestore ⟨t, 0⟩) s = .next (s.done (consuming t [Reg.metro_reg_stage] (regRestore t 0) s)) := rfl

theorem quiet_metro_last_result : Reg.metro_last_result.quiet 0 = true := by decide

theorem leNat_lt (b : Bytes) : leNat b < 256 ^ b.length := by
  induction b with
  | nil => decide
  | cons x r ih =>
    have hx := x.isLt
    rw [leNat, List.length_cons, Nat.pow_succ]
    omega

theorem fld_lt (b : Bytes) (a n : Nat) : fld b a n < 256 ^ n :=
  (leNat_lt _).trans_le (Nat.pow_le_pow_right (by decide) (by simp))

/-- The first bytes of an entry. -/
theorem State.rdB_take (s : State) (e : Entry) (n i : Nat) {m l : Nat} (h : m ≤ l) : s.rdB e n 0 m i = (s.rdB e n 0 l i).take m := by
  unfold State.rdB
  rw [← List.map_take, List.take_range, Nat.min_eq_left h]

/-- A value is read from its key. -/
theorem State.rd_congr {s x : State} {d : Entry} {m j : Nat} (h : Tbl.get x.regs (d.key m j) = Tbl.get s.regs (d.key m j)) : x.rd d m j = s.rd d m j := by
  unfold State.rd
  rw [h]

section
variable {s : State} {t : TileId}

theorem State.legalCheck_busy (hs : s.serves t = true) (he : (s.bay (bayOf t)).legalEn = true) (hr : s.legalRuns t = true) (bad : Bool) :
    s.legalCheck t bad = some .busy := by
  simp [State.legalCheck, hs, he, hr]

theorem State.legalCheck_passes (hs : s.serves t = true) (he : (s.bay (bayOf t)).legalEn = true) (hr : s.legalRuns t = false)
    (hc : s.rd Reg.metro_seal_count t < 65535) (hf : s.legalFull t = false) : s.legalCheck t false = none := by
  simp [State.legalCheck, hs, he, hr, hf, Nat.not_le.2 hc]

theorem State.acting_regs (a : Act) (f : State → State) : (s.acting a f).regs = (f (s.under a)).regs := rfl

theorem State.get_metroResult (st : Status) {k : Nat} (h : k ≠ Reg.metro_last_result.key t 0) : Tbl.get (s.metroResult t st).regs k = Tbl.get s.regs k :=
  State.get_wr_ne _ _ _ _ _ _ h

theorem State.rd_metroResult (st : Status) : (s.metroResult t st).rd Reg.metro_last_result t = st.code % 256 := State.rd_wr_self ..

/-- A refused legal operation gives its result and changes no tile. -/
theorem legalRefused_effect {l : List Entry} {f : State → State} {st : Status} (h : ∀ a, f (s.under a) = (s.under a).metroResult t st) :
    (s.done (consuming t l f s)).rd Reg.metro_last_result t = st.code % 256 ∧ (s.done (consuming t l f s)).out = s.out ++ [.answer t st] ∧
      ∀ u, (s.done (consuming t l f s)).vol u = s.vol u := by
  unfold consuming
  rw [State.rd_done _ _ _ _ _ quiet_metro_last_result, State.done_out, State.acting_rd, State.acting_out, h]
  refine ⟨State.rd_metroResult _, rfl, fun u => ?_⟩
  rw [State.done_vol, State.acting_vol, h]
  rfl

/-- A trigger while the metrology stands still and no reset is ordered orders one. -/
theorem State.askSync_orders (hw : (s.vol t).syncWanted = none) (hr : (s.metro t).run = false) :
    s.askSync t = s.onVol t fun v => { v with syncWanted := some s.now } := by
  have hr' : (s.vol t).metro.run = false := hr
  exact if_neg (by simp [hw, hr'])

/-- The end of a legal operation that took what was staged as state `y` has it: entries of the log and of the mirror stream, which lead to `z`, the order of
a reset, and the result. -/
theorem legalTaken_effect {y z : State} {l : List Entry} {f : State → State} (hz : FeederKept y z)
    (hf : f (s.under { frees := l.map fun e => e.key t 0 }) = (z.askSync t).metroResult t .ok) (hw : (y.vol t).syncWanted = none)
    (hr : (y.metro t).run = false) (hnow : y.now = s.now) (hout : y.out = s.out) :
    (s.done (consuming t l f s)).rd Reg.metro_last_result t = 0 ∧ ((s.done (consuming t l f s)).vol t).syncWanted = some s.now ∧
      (s.done (consuming t l f s)).out = s.out ++ [.answer t .ok] ∧
      ∀ (d : Entry) (j : Nat), d.area = .tile → 0x14000 ≤ d.place j ∧ d.place j < 0x14700 → d.place j ≠ Reg.metro_last_result.place 0 →
        Tbl.get (s.done (consuming t l f s)).regs (d.key t j) = Tbl.get y.regs (d.key t j) := by
  have horders := State.askSync_orders ((hz.wanted t).trans hw) ((congrArg Metro.run (hz.metro t)).trans hr)
  have hwrites : feederKey (Reg.device_config_writes.key 0 0) = false := by decide
  unfold consuming
  rw [State.rd_done _ _ _ _ _ quiet_metro_last_result, State.done_vol, State.done_out, State.acting_rd, State.acting_vol, State.acting_out, hf, horders]
  refine ⟨State.rd_metroResult _, ?_, ?_, fun d j ha hp hne => ?_⟩
  · simp [State.metroResult, hz.now, hnow]
  · simp [State.metroResult, hz.out, hout]
  · rw [State.get_regs_done _ _ (Entry.key_ne_of_feeder (feederKey_tile t ha hp) hwrites), State.acting_regs, hf, horders,
      State.get_metroResult _ (Entry.key_ne_place _ _ _ _ _ ha hne)]
    exact hz.regs _ (feederKey_tile t ha hp)

theorem FeederKept.under (s : State) (a : Act) : FeederKept s (s.under a) := ⟨fun _ => rfl, fun _ => rfl, fun _ _ => rfl, rfl, rfl⟩

theorem FeederLogKept.legalStarts (s : State) (t : TileId) (most : Nat) : FeederLogKept s (s.legalStarts t most) :=
  ((FeederLogKept.refl s).onVol t _ (by intro; exact ⟨rfl, rfl⟩)).endBayArms _ _

/-- The seal counter goes on by one short of its end (R240). -/
theorem State.rd_countSeal (h : s.rd Reg.metro_seal_count t < 65535) :
    (s.countSeal t).rd Reg.metro_seal_count t = s.rd Reg.metro_seal_count t + 1 := by
  unfold State.countSeal
  rw [State.rd_wr_self]
  exact Nat.mod_eq_of_lt (Nat.succ_lt_succ h)

/-! A calibration commit (R242) -/

/-- The staged block with when and how often it was committed, and its CRC. -/
def calStamped (st : Bytes) (ns n : Nat) : Bytes :=
  let body := st.take 0x90 ++ time80 ns ++ natLE 2 n ++ List.replicate 96 0
  body ++ natLE 4 (crc32 body)

theorem length_calStamped {st : Bytes} (h : st.length = 256) (ns n : Nat) : (calStamped st ns n).length = 256 := by
  simp [calStamped, time80, natLE_length, h]

theorem take_calStamped {st : Bytes} (h : st.length = 256) (ns n : Nat) : (calStamped st ns n).take 0x90 = st.take 0x90 := by
  simp [calStamped, h]

/-- Both copies of the calibration block are `b`, and the seal is counted. -/
def State.calTaken (s : State) (t : TileId) (b : Bytes) : State := ((s.useCal t b).onTile t fun x => { x with calA := b, calB := b }).countSeal t

theorem State.rdAll_useCal {b : Bytes} (h : b.length = 256) : (s.useCal t b).rdAll Reg.metro_cal_block t = b := by
  unfold State.useCal
  split
  case isTrue heq => exact heq
  case isFalse =>
    have hread := State.rdB_wrB_self s Reg.metro_cal_block t 0 0 b
    rwa [h] at hread

/-- What writing values and the copies of the block leaves, taking the block leaves. -/
theorem State.calTaken_keeps {β : Type} (g : State → β) (hb : ∀ x b, g (State.wrB x Reg.metro_cal_block t 0 b) = g x)
    (hw : ∀ x v, g (State.wr x Reg.metro_seal_count t v) = g x) (ht : ∀ x a c, g (State.onTile x t fun y => { y with calA := a, calB := c }) = g x)
    (s : State) (b : Bytes) : g (s.calTaken t b) = g s := by
  refine (hw _ _).trans ((ht _ _ _).trans ?_)
  unfold State.useCal
  split
  · rfl
  · exact hb _ _

theorem State.calTaken_rest (s : State) (t : TileId) (b : Bytes) :
    ((s.calTaken t b).vol t).syncWanted = (s.vol t).syncWanted ∧ ((s.calTaken t b).metro t).run = (s.metro t).run ∧ (s.calTaken t b).now = s.now ∧
      (s.calTaken t b).out = s.out :=
  have keeps {β : Type} (g : Vol → β) : g ((s.calTaken t b).vol t) = g (s.vol t) :=
    State.calTaken_keeps (fun x => g (x.vol t)) (fun _ _ => rfl) (fun _ _ => rfl) (fun _ _ _ => by rw [State.vol_onTile_self]; rfl) s b
  ⟨keeps Vol.syncWanted, keeps fun v => v.metro.run, State.calTaken_keeps State.now (fun _ _ => rfl) (fun _ _ => rfl) (fun _ _ _ => rfl) s b,
    State.calTaken_keeps State.out (fun _ _ => rfl) (fun _ _ => rfl) (fun _ _ _ => rfl) s b⟩

theorem State.rd_calTaken_seal (h : s.rd Reg.metro_seal_count t < 65535) (b : Bytes) :
    (s.calTaken t b).rd Reg.metro_seal_count t = s.rd Reg.metro_seal_count t + 1 := by
  have huse : (s.useCal t b).rd Reg.metro_seal_count t = s.rd Reg.metro_seal_count t := by
    unfold State.useCal
    split
    · rfl
    · exact State.rd_wrB_place _ _ _ rfl (by decide)
  exact (State.rd_countSeal (by rwa [State.rd_onTile, huse])).trans (by rw [State.rd_onTile, huse])

theorem State.rdAll_calTaken {b : Bytes} (h : b.length = 256) : (s.calTaken t b).rdAll Reg.metro_cal_block t = b := by
  unfold State.calTaken State.countSeal State.rdAll
  rw [State.rdB_wr_ne _ Reg.metro_seal_count Reg.metro_cal_block _ _ _ _ _ _ _ (Entry.key_ne_place _ _ _ _ _ rfl (by decide))]
  exact State.rdAll_useCal h

/-- A commit that passes the checks: its block, the log, the mirror stream, the order of a reset, the result. -/
theorem calCommit_commits (hs : s.serves t = true) (he : (s.bay (bayOf t)).legalEn = true) (hok : calOk (s.rdAll Reg.metro_cal_stage t) = true)
    (hc : s.rd Reg.metro_seal_count t < 65535) (hf : s.legalFull t = false) (hr : s.legalRuns t = false) :
    ∃ ns n data, calCommit t 0 s =
      (((((s.legalStarts t 50000000).calTaken t (calStamped (s.rdAll Reg.metro_cal_stage t) ns n)).legalLog t 0x01 data).mirror t
        (.calBlock (calStamped (s.rdAll Reg.metro_cal_stage t) ns n))).askSync t).metroResult t .ok := by
  unfold calCommit
  simp only [hok, Bool.not_true, State.legalCheck_passes hs he hr hc hf, if_neg zero_ne_one, if_neg (show ¬0 = 2 by decide)]
  exact ⟨_, _, _, rfl⟩

/-- A commit takes the staged channels, counts the seal and orders a reset. -/
theorem calCommit_effect (hs : s.serves t = true) (he : (s.bay (bayOf t)).legalEn = true) (hok : calOk (s.rdAll Reg.metro_cal_stage t) = true)
    (hc : s.rd Reg.metro_seal_count t < 65535) (hf : s.legalFull t = false) (hr : s.legalRuns t = false) (hw : (s.vol t).syncWanted = none)
    (hrun : (s.metro t).run = false) :
    ∃ x, exec (.calCommit ⟨t, 0⟩) s = .next x ∧ x.rd Reg.metro_seal_count t = s.rd Reg.metro_seal_count t + 1 ∧ x.rd Reg.metro_last_result t = 0 ∧
      x.rdB Reg.metro_cal_block t 0 0x90 = s.rdB Reg.metro_cal_stage t 0 0x90 ∧ (x.vol t).syncWanted = some s.now ∧ x.out = s.out ++ [.answer t .ok] := by
  obtain ⟨ns, n, data, hcommit⟩ := calCommit_commits (s := s.under { frees := [Reg.metro_cal_stage].map fun e => e.key t 0 }) hs he hok hc hf hr
  have hstarts := (FeederKept.under s { frees := [Reg.metro_cal_stage].map fun e => e.key t 0 }).trans (FeederLogKept.legalStarts _ t 50000000).toFeederKept
  generalize (s.under { frees := [Reg.metro_cal_stage].map fun e => e.key t 0 }).legalStarts t 50000000 = y at hstarts hcommit
  have hstage : ((s.under { frees := [Reg.metro_cal_stage].map fun e => e.key t 0 }).rdAll Reg.metro_cal_stage t).length = 256 := by
    simp [State.rdAll, State.rdB, Reg.metro_cal_stage]
  generalize hb : calStamped _ ns n = b at hcommit
  have hseal : y.rd Reg.metro_seal_count t = s.rd Reg.metro_seal_count t := hstarts.rd (feederKey_tile t rfl (by decide))
  obtain ⟨hkept, hrest, hnow, hput⟩ := State.calTaken_rest y t b
  obtain ⟨hlast, hwanted, hout, hregs⟩ := legalTaken_effect (s := s) (((FeederKept.refl _).legalLog t 0x01 data).trans
      ((FeederLogKept.refl _).mirror t (.calBlock b) 0).toFeederKept) hcommit
    (hkept.trans ((hstarts.wanted t).trans hw)) (hrest.trans ((congrArg Metro.run (hstarts.metro t)).trans hrun)) (hnow.trans hstarts.now)
    (hput.trans hstarts.out)
  refine ⟨_, exec_calCommit t s, ?_, hlast, ?_, hwanted, hout⟩
  · rw [State.rd_congr (hregs Reg.metro_seal_count 0 rfl (by decide) (by decide)),
      State.rd_calTaken_seal (hseal ▸ hc), hseal]
  · have hlen : b.length = 256 := hb ▸ length_calStamped hstage ns n
    rw [State.rdB_congr _ _ _ _ _ (hregs Reg.metro_cal_block 0 rfl (by decide) (by decide)),
      State.rdB_take _ _ _ _ (show 0x90 ≤ 256 by decide), State.rdB_take s _ _ _ (show 0x90 ≤ 256 by decide)]
    exact (congrArg (List.take 0x90) (State.rdAll_calTaken hlen)).trans (hb ▸ take_calStamped hstage ns n)

/-! A register restore (R244) -/

/-- The twelve registers as staged. -/
def regsStaged (st : Bytes) : List Nat := (List.range 12).map fun i => fld st (8 * i) 8

/-- Both copies of the legal registers are `l`, no energy of the book interval under way with it, and the seal is counted. -/
def State.regsTaken (s : State) (t : TileId) (l : List Nat) (endNs : Nat) : State :=
  let old := s.legalRegs t
  (((s.onTile t fun x => { x with bookBase := (x.bookBase.1, List.zipWith (· + ·) x.bookBase.2 (List.zipWith (· - ·) (netOf l) (netOf old))) }).setLegalRegs
    t l endNs true).countSeal t).legalMended t 0

/-- What writing values and what lies beside the metrology leaves, taking the registers leaves. -/
theorem State.regsTaken_keeps {β : Type} (g : State → β) (hw : ∀ x e v i, g (State.wr x e t v i) = g x)
    (ht : ∀ x (f : Tile → Tile), (∀ y, (f y).vol = y.vol) → g (State.onTile x t f) = g x)
    (hm : ∀ x (h : Metro → Nat), g (State.onMetro x t fun m => { m with halted := h m }) = g x) (s : State) (l : List Nat) (endNs : Nat) :
    g (s.regsTaken t l endNs) = g s := by
  have mended (y : State) : g (y.legalMended t 0) = g y := by
    unfold State.legalMended
    dsimp only
    split
    · have hhalt := (hm (y.onTile t fun x => { x with legalBad := x.legalBad - 2 ^ 0 }) fun m => m.halted - 2 ^ 0).trans (ht y _ (by intro; rfl))
      split
      · exact (hw _ _ _ _).trans hhalt
      · exact hhalt
    · rfl
  have used (y : State) : g (y.useRegs t l endNs) = g y := by
    unfold State.useRegs
    exact (ht _ (fun x => { x with legalEnd := endNs }) (by intro; rfl)).trans (State.each_keeps g _ _ _ fun _ _ => hw _ _ _ _)
  unfold State.regsTaken State.setLegalRegs State.countSeal
  rw [mended, hw, ht _ _ fun _ => Tile.putLegal_vol _ _ _ _, used]
  exact ht _ _ (by intro; rfl)

theorem State.regsTaken_rest (s : State) (t : TileId) (l : List Nat) (endNs : Nat) :
    ((s.regsTaken t l endNs).vol t).syncWanted = (s.vol t).syncWanted ∧ ((s.regsTaken t l endNs).metro t).run = (s.metro t).run ∧
      (s.regsTaken t l endNs).now = s.now ∧ (s.regsTaken t l endNs).out = s.out :=
  have keeps {β : Type} (g : Vol → β) (hg : ∀ v (h : Nat), g { v with metro := { v.metro with halted := h } } = g v) :
      g ((s.regsTaken t l endNs).vol t) = g (s.vol t) :=
    State.regsTaken_keeps (fun x => g (x.vol t)) (fun _ _ _ _ => rfl) (fun _ _ h => by rw [State.vol_onTile_self, h]; rfl)
      (fun _ _ => by rw [State.vol_onMetro, hg]) s l endNs
  ⟨keeps Vol.syncWanted fun _ _ => rfl, keeps (fun v => v.metro.run) fun _ _ => rfl,
    State.regsTaken_keeps State.now (fun _ _ _ _ => rfl) (fun _ _ _ => rfl) (fun _ _ => rfl) s l endNs,
    State.regsTaken_keeps State.out (fun _ _ _ _ => rfl) (fun _ _ _ => rfl) (fun _ _ => rfl) s l endNs⟩

theorem State.rd_legalMended (k : Nat) {d : Entry} {i : Nat} (ha : d.area = .tile) (hp : d.place i ≠ Reg.metro_state.place 0) :
    (s.legalMended t k).rd d t i = s.rd d t i := by
  unfold State.legalMended
  dsimp only
  split
  · split
    · exact State.rd_wr_place _ _ _ ha hp
    · rfl
  · rfl

theorem State.rd_useRegs_seal (l : List Nat) (endNs : Nat) : (s.useRegs t l endNs).rd Reg.metro_seal_count t = s.rd Reg.metro_seal_count t := by
  refine List.foldlRecOn (motive := fun y => State.rd y Reg.metro_seal_count t = s.rd Reg.metro_seal_count t) (List.range 12) _ rfl fun y hy i hi => ?_
  have hi' := List.mem_range.1 hi
  rw [State.rd_wr_place _ Reg.metro_seal_count Reg.metro_legal_regs rfl (by simp only [Entry.place, Reg.metro_seal_count, Reg.metro_legal_regs]; omega), hy]

theorem State.rd_regsTaken_seal (h : s.rd Reg.metro_seal_count t < 65535) (l : List Nat) (endNs : Nat) :
    (s.regsTaken t l endNs).rd Reg.metro_seal_count t = s.rd Reg.metro_seal_count t + 1 := by
  unfold State.regsTaken State.setLegalRegs
  rw [State.rd_legalMended 0 rfl (by decide), State.rd_countSeal (by rwa [State.rd_onTile, State.rd_useRegs_seal]), State.rd_onTile, State.rd_useRegs_seal]
  rfl

theorem State.rd_regsTaken (l : List Nat) (endNs : Nat) {i : Nat} (hi : i < 12) :
    (s.regsTaken t l endNs).rd Reg.metro_legal_regs t i = l.getD i 0 % Reg.metro_legal_regs.span := by
  unfold State.regsTaken State.setLegalRegs State.countSeal
  rw [State.rd_legalMended 0 rfl (by simp only [Entry.place, Reg.metro_legal_regs, Reg.metro_state]; omega),
    State.rd_wr_place _ Reg.metro_legal_regs Reg.metro_seal_count rfl (by simp only [Entry.place, Reg.metro_legal_regs, Reg.metro_seal_count]; omega),
    State.rd_onTile, State.rd_useRegs _ _ _ _ hi]

/-- A restore that passes the checks: the registers, the log, the mirror stream, the order of a reset, the result. -/
theorem regRestore_restores (hs : s.serves t = true) (he : (s.bay (bayOf t)).legalEn = true) (hc : s.rd Reg.metro_seal_count t < 65535)
    (hf : s.legalFull t = false) (hr : s.legalRuns t = false) :
    ∃ l e data, l = regsStaged (s.rdAll Reg.metro_reg_stage t) ∧
      regRestore t 0 s = (((((s.legalStarts t 50000000).regsTaken t l e).legalLog t 0x07 data).mirror t (.legalRegs 2 l e)).askSync t).metroResult t .ok := by
  have hstage : (s.legalStarts t 50000000).rdAll Reg.metro_reg_stage t = s.rdAll Reg.metro_reg_stage t :=
    (FeederLogKept.legalStarts s t 50000000).rdB (feederKey_tile t rfl (by decide)) _ _
  unfold regRestore
  simp only [State.legalCheck_passes hs he hr hc hf, hstage]
  exact ⟨_, _, _, rfl, rfl⟩

/-- A restore takes the staged registers, counts the seal and orders a reset. -/
theorem regRestore_effect (hs : s.serves t = true) (he : (s.bay (bayOf t)).legalEn = true) (hc : s.rd Reg.metro_seal_count t < 65535)
    (hf : s.legalFull t = false) (hr : s.legalRuns t = false) (hw : (s.vol t).syncWanted = none) (hrun : (s.metro t).run = false) :
    ∃ x, exec (.regRestore ⟨t, 0⟩) s = .next x ∧ x.rd Reg.metro_seal_count t = s.rd Reg.metro_seal_count t + 1 ∧ x.rd Reg.metro_last_result t = 0 ∧
      (∀ i < 12, x.rd Reg.metro_legal_regs t i = fld (s.rdAll Reg.metro_reg_stage t) (8 * i) 8) ∧ (x.vol t).syncWanted = some s.now ∧
      x.out = s.out ++ [.answer t .ok] := by
  obtain ⟨l, e, data, hl, hrestore⟩ := regRestore_restores (s := s.under { frees := [Reg.metro_reg_stage].map fun e => e.key t 0 }) hs he hc hf hr
  have hstarts := (FeederKept.under s { frees := [Reg.metro_reg_stage].map fun e => e.key t 0 }).trans (FeederLogKept.legalStarts _ t 50000000).toFeederKept
  generalize (s.under { frees := [Reg.metro_reg_stage].map fun e => e.key t 0 }).legalStarts t 50000000 = y at hstarts hrestore
  have hseal : y.rd Reg.metro_seal_count t = s.rd Reg.metro_seal_count t := hstarts.rd (feederKey_tile t rfl (by decide))
  obtain ⟨hkept, hrest, hnow, hput⟩ := State.regsTaken_rest y t l e
  obtain ⟨hlast, hwanted, hout, hregs⟩ := legalTaken_effect (s := s) (((FeederKept.refl _).legalLog t 0x07 data).trans
      ((FeederLogKept.refl _).mirror t (.legalRegs 2 l e) 0).toFeederKept) hrestore
    (hkept.trans ((hstarts.wanted t).trans hw)) (hrest.trans ((congrArg Metro.run (hstarts.metro t)).trans hrun)) (hnow.trans hstarts.now)
    (hput.trans hstarts.out)
  refine ⟨_, exec_regRestore t s, ?_, hlast, fun i hi => ?_, hwanted, hout⟩
  · rw [State.rd_congr (hregs Reg.metro_seal_count 0 rfl (by decide) (by decide)),
      State.rd_regsTaken_seal (hseal ▸ hc), hseal]
  · have hplace : Reg.metro_legal_regs.place i ≠ Reg.metro_last_result.place 0 := by
      simp only [Entry.place, Reg.metro_legal_regs, Reg.metro_last_result]; omega
    have hstaged : l.getD i 0 = fld (s.rdAll Reg.metro_reg_stage t) (8 * i) 8 := by
      rw [hl]
      simp [regsStaged, hi]
      rfl
    rw [State.rd_congr (hregs Reg.metro_legal_regs i rfl (by simp only [Entry.place, Reg.metro_legal_regs]; omega) hplace),
      State.rd_regsTaken _ _ hi, hstaged]
    exact Nat.mod_eq_of_lt (fld_lt _ _ 8)

end

/-- Settles O24: what a change of the seal and the legal operations do. -/
theorem sealAndLegal : Obligations.SealAndLegal := by
  refine ⟨fun s b hup he hr hu => ?_, fun s b hup he hr => ?_, fun s t hs he hok hc hf hr => calCommit_effect hs he hok hc hf hr,
    fun s t hs he hc hf hr => regRestore_effect hs he hc hf hr, fun s b hup he => ?_, fun s b hup he => ?_, fun s t hs he hr => ?_, fun s t hs he hr => ?_⟩
  · have hne : (s.bay b).legalEn ≠ true := by simp [he]
    obtain ⟨hen, hrd, -⟩ := sealChange_effect hup hne
    exact ⟨_, exec_sealAssert b s, hen, hrd, sealChange_vol hup hne hr fun _ => hu⟩
  · have hne : (s.bay b).legalEn ≠ false := by simp [he]
    obtain ⟨hen, hrd, -⟩ := sealChange_effect hup hne
    exact ⟨_, exec_sealRelease b s, hen, hrd, sealChange_vol hup hne hr (by simp)⟩
  · obtain ⟨hen, hrd, hlog⟩ := sealChange_effect (b := b) (on := true) hup (by simp [he])
    exact ⟨_, exec_sealAssert b s, hen, hrd, hlog⟩
  · obtain ⟨hen, hrd, hlog⟩ := sealChange_effect (b := b) (on := false) hup (by simp [he])
    exact ⟨_, exec_sealRelease b s, hen, hrd, hlog⟩
  · obtain ⟨hlast, hout, hvol⟩ := legalRefused_effect (l := [Reg.metro_cal_stage]) (f := calCommit t 0) (st := .busy) (s := s) (t := t) fun a => by
      unfold calCommit
      simp only [State.legalCheck_busy (s := s.under a) hs he hr]
    exact ⟨_, exec_calCommit t s, hlast, hout, hvol⟩
  · obtain ⟨hlast, hout, hvol⟩ := legalRefused_effect (l := [Reg.metro_reg_stage]) (f := regRestore t 0) (st := .busy) (s := s) (t := t) fun a => by
      unfold regRestore
      simp only [State.legalCheck_busy (s := s.under a) hs he hr]
    exact ⟨_, exec_regRestore t s, hlast, hout, hvol⟩

end Sys2Proof.Machine

namespace Sys2Proof.Machine

/-! ### What the operations of Ephemeris set and leave (chapter 8) -/

@[simp] theorem State.eph_onEph (s : State) (t : TileId) (f : Eph → Eph) : (s.onEph t f).eph t = f (s.eph t) := by simp [State.onEph, State.eph]
@[simp] theorem State.meter_onEph (s : State) (t u : TileId) (f : Eph → Eph) (k : Nat) : (s.onEph t f).meter u k = s.meter u k :=
  State.meter_congr u k (State.onTile_keeps (fun x => x.vol.meters.recs) (f := fun x => { x with vol := { x.vol with eph := f x.vol.eph } }) (fun _ => rfl) s t u)
    rfl
@[simp] theorem State.out_onEph (s : State) (t : TileId) (f : Eph → Eph) : (s.onEph t f).out = s.out := rfl
@[simp] theorem State.regs_onEph (s : State) (t : TileId) (f : Eph → Eph) : (s.onEph t f).regs = s.regs := rfl
@[simp] theorem State.rd_onEph (s : State) (t : TileId) (f : Eph → Eph) (e : Entry) (n i : Nat) : (s.onEph t f).rd e n i = s.rd e n i := rfl
@[simp] theorem State.eph_wr (s : State) (e : Entry) (n v i : Nat) (t : TileId) : (s.wr e n v i).eph t = s.eph t := rfl
@[simp] theorem State.eph_bump (s : State) (e : Entry) (n i k : Nat) (t : TileId) : (s.bump e n i k).eph t = s.eph t := rfl
@[simp] theorem State.eph_answer (s : State) (n : Nat) (st : Status) (t : TileId) : (s.answer n st).eph t = s.eph t := rfl
@[simp] theorem State.eph_mirror (s : State) (t u : TileId) (x : MItem) (n : Nat) : (s.mirror t x n).eph u = s.eph u := by simp [State.eph]
@[simp] theorem State.eph_wrM (s : State) (e : Entry) (t u : TileId) (v i : Nat) : (s.wrM e t v i).eph u = s.eph u := by simp [State.eph]
@[simp] theorem State.eph_wrBM (s : State) (e : Entry) (t u : TileId) (a : Nat) (b : Bytes) (i : Nat) : (s.wrBM e t a b i).eph u = s.eph u := by
  simp [State.eph]
@[simp] theorem State.eph_event (s : State) (t u : TileId) (sev code obj a b : Nat) : (s.event t sev code obj a b).eph u = s.eph u := by simp [State.eph]
@[simp] theorem State.eph_qWrite (s : State) (t u : TileId) (c : Fin 7) (q : QItem) : (s.qWrite t c q).eph u = s.eph u := by simp [State.eph]
@[simp] theorem State.eph_qRead (s : State) (t u : TileId) (c : Fin 7) : (s.qRead t c).1.eph u = s.eph u := by simp [State.eph]
@[simp] theorem State.eph_onMeters (s : State) (t : TileId) (f : Meters → Meters) : (s.onMeters t f).eph t = s.eph t := by simp [State.onMeters, State.eph]
@[simp] theorem State.eph_onSw (s : State) (t : TileId) (f : Switch → Switch) : (s.onSw t f).eph t = s.eph t := by simp [State.eph]
@[simp] theorem State.eph_onVault (s : State) (t : TileId) (f : Vault → Vault) : (s.onVault t f).eph t = s.eph t := by simp [State.onVault, State.eph]
@[simp] theorem State.eph_done (s x : State) (t : TileId) : (s.done x).eph t = x.eph t := by simp [State.eph]
@[simp] theorem State.acting_eph (s : State) (a : Act) (f : State → State) (t : TileId) : (s.acting a f).eph t = (f (s.under a)).eph t := rfl
theorem State.regs_mirror (s : State) (t : TileId) (x : MItem) (n : Nat) : (s.mirror t x n).regs = s.regs :=
  State.mirror_keeps State.regs t (fun _ _ _ _ => rfl) _ _ _

/-- Completing an action sets the result and answers OK. -/
@[simp] theorem State.eph_ephOk (s : State) (t u : TileId) : (s.ephOk t).eph u = s.eph u := rfl
@[simp] theorem State.meter_ephOk (s : State) (t u : TileId) (k : Nat) : (s.ephOk t).meter u k = s.meter u k := rfl
@[simp] theorem State.out_ephOk (s : State) (t : TileId) : (s.ephOk t).out = s.out ++ [.answer t .ok] := rfl
theorem State.rd_ephOk_result (s : State) (t : TileId) : (s.ephOk t).rd Reg.eph_last_result t = 0 := by simp [State.ephOk]
theorem State.rd_ephOk (s : State) (t : TileId) (d : Entry) {j : Nat} (ha : d.area = .tile) (h : d.place j ≠ Reg.eph_last_result.place 0) :
    (s.ephOk t).rd d t j = s.rd d t j := by
  rw [State.ephOk, State.rd_answer, State.rd_wr_place s d Reg.eph_last_result ha h]
theorem State.rdB_ephOk (s : State) (t : TileId) (d : Entry) (a l : Nat) {j : Nat} (ha : d.area = .tile) (h : d.place j ≠ Reg.eph_last_result.place 0) :
    (s.ephOk t).rdB d t a l j = s.rdB d t a l j := by
  rw [State.ephOk, State.rdB_answer, State.rdB_wr_ne s Reg.eph_last_result d _ _ _ _ _ _ _ (Entry.key_ne_place _ _ _ _ _ ha h)]

theorem quiet_eph_last_result : Reg.eph_last_result.quiet 0 = true := by decide

/-- The result that a completed action leaves after the whole command. -/
theorem State.rd_done_ephOk (s x : State) (t : TileId) : (s.done (x.ephOk t)).rd Reg.eph_last_result t = 0 := by
  rw [State.rd_done _ _ _ _ _ quiet_eph_last_result, State.rd_ephOk_result]

/-- The same for an action that runs as a command. -/
theorem State.rd_done_consuming_ephOk {s x : State} {t : TileId} {l : List Entry} {f : State → State}
    (h : f (s.under { frees := l.map fun e => e.key t 0 }) = x.ephOk t) : (s.done (consuming t l f s)).rd Reg.eph_last_result t = 0 := by
  rw [State.rd_done _ _ _ _ _ quiet_eph_last_result, consuming, State.acting_rd, h, State.rd_ephOk_result]

/-- A journalled change of a record's fields touches the meters and the mirror stream. -/
theorem State.fieldsMeter_keeps {β : Type} (g : State → β) (t : TileId) (hm : ∀ x f, g (State.onMeters x t f) = g x)
    (hl : ∀ x i n, g (State.mirror x t i n) = g x) (s : State) (k : Nat) (f : MeterRec → MeterRec) (op : JOp) : g (s.fieldsMeter t k f op) = g s := by
  unfold State.fieldsMeter State.mirrorFields State.journalMeter State.journal State.setMeter
  rw [hl, hm, hm]

theorem State.latchFlag_keeps {β : Type} (g : State → β) (t : TileId) (hf : ∀ x k f, g (State.fieldsMeter x t k f) = g x) (s : State) (slot k : Nat) :
    g (s.latchFlag t slot k) = g s := by
  unfold State.latchFlag
  split
  · rfl
  · exact hf _ _ _

theorem State.setCalState_keeps {β : Type} (g : State → β) (t : TileId) (hf : ∀ x k f, g (State.fieldsMeter x t k f) = g x) (s : State) (slot st : Nat) :
    g (s.setCalState t slot st) = g s := by
  unfold State.setCalState
  split
  · rfl
  · exact hf _ _ _

@[simp] theorem State.eph_fieldsMeter (s : State) (t : TileId) (k : Nat) (f : MeterRec → MeterRec) (op : JOp) : (s.fieldsMeter t k f op).eph t = s.eph t :=
  State.fieldsMeter_keeps (fun x => x.eph t) t (fun _ _ => State.eph_onMeters _ _ _) (fun _ _ _ => State.eph_mirror _ _ _ _ _) _ _ _ _
@[simp] theorem State.out_fieldsMeter (s : State) (t : TileId) (k : Nat) (f : MeterRec → MeterRec) (op : JOp) : (s.fieldsMeter t k f op).out = s.out :=
  State.fieldsMeter_keeps State.out t (fun _ _ => rfl) (fun _ _ _ => State.out_mirror _ _ _ _) _ _ _ _
@[simp] theorem State.regs_fieldsMeter (s : State) (t : TileId) (k : Nat) (f : MeterRec → MeterRec) (op : JOp) : (s.fieldsMeter t k f op).regs = s.regs :=
  State.fieldsMeter_keeps State.regs t (fun _ _ => rfl) (fun _ _ _ => State.regs_mirror _ _ _ _) _ _ _ _
@[simp] theorem State.rd_fieldsMeter (s : State) (t : TileId) (k : Nat) (f : MeterRec → MeterRec) (op : JOp) (e : Entry) (n i : Nat) :
    (s.fieldsMeter t k f op).rd e n i = s.rd e n i :=
  State.fieldsMeter_keeps (fun x => x.rd e n i) t (fun _ _ => rfl) (fun _ _ _ => State.rd_mirror _ _ _ _ _ _ _) _ _ _ _
@[simp] theorem State.eph_setCalState (s : State) (t : TileId) (k st : Nat) : (s.setCalState t k st).eph t = s.eph t :=
  State.setCalState_keeps (fun x => x.eph t) t (fun _ _ _ => State.eph_fieldsMeter _ _ _ _ _) _ _ _
@[simp] theorem State.out_setCalState (s : State) (t : TileId) (k st : Nat) : (s.setCalState t k st).out = s.out :=
  State.setCalState_keeps State.out t (fun _ _ _ => State.out_fieldsMeter _ _ _ _ _) _ _ _
@[simp] theorem State.rd_setCalState (s : State) (t : TileId) (k st : Nat) (e : Entry) (n i : Nat) : (s.setCalState t k st).rd e n i = s.rd e n i :=
  State.setCalState_keeps (fun x => x.rd e n i) t (fun _ _ _ => State.rd_fieldsMeter _ _ _ _ _ _ _ _) _ _ _

/-- Another record than the one changed. -/
theorem State.meter_fieldsMeter_ne (s : State) (t : TileId) {k j : Nat} (f : MeterRec → MeterRec) (op : JOp) (h : j ≠ k) :
    (s.fieldsMeter t k f op).meter t j = s.meter t j := by
  unfold State.fieldsMeter State.journalMeter
  rw [State.meter_mirrorFields, State.meter_journal, State.meter_setMeter_ne _ _ _ _ _ h]

/-- The calendar state that was set. -/
theorem State.pushState_setCalState (s : State) (t : TileId) (k st : Nat) :
    ((s.setCalState t k st).meter t k).pushState / 16 = st := by
  unfold State.setCalState
  split
  · assumption
  · rw [State.meter_fieldsMeter]
    dsimp only
    omega

/-! ### Requests (R284) -/

/-- A request stands behind those that wait already. -/
theorem State.reqs_request (s : State) (t : TileId) (slot : Nat) (job : EJob) (kind cls : Nat) (body : Nat → Bytes) :
    ∃ r : EReq, r.job = job ∧ ((s.request t slot job kind cls body).eph t).reqs = (s.eph t).reqs ++ [r] := by
  unfold State.request
  exact ⟨_, rfl, by rw [State.eph_onEph]⟩

theorem State.reqs_length_request (s : State) (t : TileId) (slot : Nat) (job : EJob) (kind cls : Nat) (body : Nat → Bytes) :
    ((s.request t slot job kind cls body).eph t).reqs.length = (s.eph t).reqs.length + 1 := by
  obtain ⟨r, -, h⟩ := s.reqs_request t slot job kind cls body
  rw [h, List.length_append]
  rfl

theorem State.reqs_last_request (s : State) (t : TileId) (slot : Nat) (job : EJob) (kind cls : Nat) (body : Nat → Bytes) :
    ((s.request t slot job kind cls body).eph t).reqs.getLast?.map EReq.job = some job := by
  obtain ⟨r, hr, h⟩ := s.reqs_request t slot job kind cls body
  rw [h, List.getLast?_append, ← hr]
  rfl

@[simp] theorem State.out_request (s : State) (t : TileId) (slot : Nat) (job : EJob) (kind cls : Nat) (body : Nat → Bytes) :
    (s.request t slot job kind cls body).out = s.out := rfl
@[simp] theorem State.regs_request (s : State) (t : TileId) (slot : Nat) (job : EJob) (kind cls : Nat) (body : Nat → Bytes) :
    (s.request t slot job kind cls body).regs = s.regs := rfl
@[simp] theorem State.rd_request (s : State) (t : TileId) (slot : Nat) (job : EJob) (kind cls : Nat) (body : Nat → Bytes) (e : Entry) (n i : Nat) :
    (s.request t slot job kind cls body).rd e n i = s.rd e n i := rfl
@[simp] theorem State.meter_request (s : State) (t : TileId) (slot : Nat) (job : EJob) (kind cls : Nat) (body : Nat → Bytes) (k : Nat) :
    (s.request t slot job kind cls body).meter t k = s.meter t k := State.meter_onEph _ _ _ _ _
@[simp] theorem State.erelay_request (s : State) (t : TileId) (slot : Nat) (job : EJob) (kind cls : Nat) (body : Nat → Bytes) (k : Nat) :
    (s.request t slot job kind cls body).erelay t k = s.erelay t k := by simp [State.erelay, State.request]
@[simp] theorem State.eclock_request (s : State) (t : TileId) (slot : Nat) (job : EJob) (kind cls : Nat) (body : Nat → Bytes) (k : Nat) :
    (s.request t slot job kind cls body).eclock t k = s.eclock t k := by simp [State.eclock, State.request]

/-- A meter's relay machine, clock check and place in a campaign, read where they were changed. -/
@[simp] theorem State.erelay_onERelay (s : State) (t : TileId) (k : Nat) (f : ERelay → ERelay) : (s.onERelay t k f).erelay t k = f (s.erelay t k) := by
  simp [State.erelay, State.onERelay]
@[simp] theorem State.eclock_onEClock (s : State) (t : TileId) (k : Nat) (f : EClock → EClock) : (s.onEClock t k f).eclock t k = f (s.eclock t k) := by
  simp [State.eclock, State.onEClock]
@[simp] theorem State.reqs_onERelay (s : State) (t : TileId) (k : Nat) (f : ERelay → ERelay) : ((s.onERelay t k f).eph t).reqs = (s.eph t).reqs := by
  simp [State.onERelay]
@[simp] theorem State.reqs_onEClock (s : State) (t : TileId) (k : Nat) (f : EClock → EClock) : ((s.onEClock t k f).eph t).reqs = (s.eph t).reqs := by
  simp [State.onEClock]
@[simp] theorem State.erelay_done (s x : State) (t : TileId) (k : Nat) : (s.done x).erelay t k = x.erelay t k := by simp [State.erelay]
@[simp] theorem State.eclock_done (s x : State) (t : TileId) (k : Nat) : (s.done x).eclock t k = x.eclock t k := by simp [State.eclock]

end Sys2Proof.Machine

namespace Sys2Proof.Machine

/-! ### Prepayment (R272 to R277, R283) -/

theorem exec_profileWrite (t : TileId) (off : Nat) (data : Bytes) (s : State) :
    exec (.profileWrite t off data) s = .next (s.done ((profileWrite t off data s).1.answer t (profileWrite t off data s).2)) := rfl
theorem exec_topup (t : TileId) (s : State) : exec (.topup t) s = .next (s.done (consuming t [Reg.eph_topup_stage] (topup t) s)) := rfl
theorem exec_confirmHeld (t : TileId) (s : State) : exec (.confirmHeld t) s = .next (s.done (confirmHeld t s)) := rfl
theorem exec_prepayEvaluate (t : TileId) (s : State) : exec (.prepayEvaluate t) s = .next (s.done (prepayEvaluate t s)) := rfl
theorem exec_flagsClear (t : TileId) (mask : Nat) (s : State) :
    exec (.flagsClear t mask) s = .next (s.done ((flagsClear t mask s).1.answer t (flagsClear t mask s).2)) := rfl

theorem quiet_eph_profiles : Reg.eph_profiles.quiet 0 = true := by decide

/-- The newest of a list of which the newest `n + 1` are kept is the one put behind it. -/
theorem getLast?_keepLast_append {α : Type} (n : Nat) (l : List α) (x : α) : (keepLast (n + 1) (l ++ [x])).getLast? = some x := by
  unfold keepLast
  rw [List.length_append, List.length_singleton, List.drop_append_of_le_length (by omega), List.getLast?_append]
  rfl

/-- The number that has, below place `n`, the bits of a predicate. -/
def bitsOf (p : Nat → Bool) (n : Nat) : Nat := (List.range n).foldl (fun a k => if p k then a + 2 ^ k else a) 0

theorem bitsOf_succ (p : Nat → Bool) (n : Nat) : bitsOf p (n + 1) = if p n then bitsOf p n + 2 ^ n else bitsOf p n := by
  simp [bitsOf, List.range_succ]

theorem bitsOf_lt (p : Nat → Bool) (n : Nat) : bitsOf p n < 2 ^ n := by
  induction n with
  | zero => simp [bitsOf]
  | succ n ih =>
    rw [bitsOf_succ, Nat.pow_succ]
    split <;> omega

theorem bit_bitsOf (p : Nat → Bool) {n k : Nat} (hk : k < n) : bit (bitsOf p n) k = p k := by
  induction n with
  | zero => omega
  | succ n ih =>
    have hlt := bitsOf_lt p n
    rw [bitsOf_succ]
    obtain hlow | rfl := Nat.lt_succ_iff_lt_or_eq.mp hk
    · split
      · rw [bit, Nat.add_comm, Nat.testBit_two_pow_add_gt hlow]
        exact ih hlow
      · exact ih hlow
    · split
      · next h => rw [bit, Nat.add_comm, Nat.testBit_two_pow_add_eq, Nat.testBit_lt_two_pow hlt, h]; rfl
      · next h => rw [bit, Nat.testBit_lt_two_pow hlt]; simpa using h

section
variable {s : State} {t : TileId}

/-- A write that leaves sixteen well-formed profiles is taken. -/
theorem profileWrite_accepted {off : Nat} {data : Bytes} (hr : s.refusesConfig t = false) (hl : off + data.length ≤ 1024)
    (hok : ∀ p < 16, profileOk ((s.wrB Reg.eph_profiles t off data).rdB Reg.eph_profiles t (64 * p) 64) = true) :
    profileWrite t off data s = (s.wrBM Reg.eph_profiles t off data, .ok) := by
  have hall : ((List.range 16).all fun p => profileOk ((s.wrB Reg.eph_profiles t off data).rdB Reg.eph_profiles t (64 * p) 64)) = true :=
    List.all_eq_true.mpr fun p hp => hok p (List.mem_range.mp hp)
  unfold profileWrite
  dsimp only
  rw [hr, if_neg Bool.false_ne_true, if_neg (by omega), hall]
  rfl

/-- The credit of slot `slot` is raised by `amount` under the identity `id`, journalled and mirrored (R277). -/
def State.credited (s : State) (t : TileId) (slot : Nat) (amount : Int) (id : Nat) : State :=
  let r := s.meter t slot
  let y := (s.journalMeter t slot { r with credit := sat64 (r.credit + amount) } .topup amount id).onEph t fun e =>
    { e with topups := keepLast 4096 (e.topups ++ [id]) }
  (y.mirrorFields t slot r (y.meter t slot)).mirror t (.topupId (natLE 8 id))

/-- The acknowledgement of a top-up waits for its journal entry and for the mirror stream. -/
def State.orderCreditAck (s : State) (t : TileId) (slot : Nat) : State :=
  s.onMeters t fun m =>
    { m with pend := m.pend ++ [({ slot := slot, jpos := m.jCount, mirror := s.mirrorMark t, drain := false, topup := true, act := s.acts.now } : PendAct)] }

/-- A top-up that is not refused, with the staging block `b`. -/
theorem topup_credits {p : Profile} {b : Bytes} (hb : s.rdAll Reg.eph_topup_stage t = b) (hv : s.serves t = true) (ho : s.ownMidx t (fld b 0 4) = true)
    (hst : (s.meter t (midxSlot (fld b 0 4))).state = 1) (hp : s.prepay t (s.meter t (midxSlot (fld b 0 4))) = some p) (hz : fld b 4 4 = 0)
    (hz' : fld b 0x18 8 = 0) (hnew : (s.eph t).topups.contains (fld b 8 8) = false) (hj : (s.tile t).media.journalFull = false) : topup t s =
      (s.credited t (midxSlot (fld b 0 4)) (toSigned 64 (fld b 0x10 8)) (fld b 8 8)).orderCreditAck t (midxSlot (fld b 0 4)) := by
  unfold topup
  dsimp only
  rw [hb, if_neg (by simp [hv, ho]), if_neg (by simp [hst, hp, hz, hz']), if_neg (by rw [hnew]; exact Bool.false_ne_true), if_neg (by simp [hj])]
  rfl

theorem State.credited_effect (slot : Nat) (amount : Int) (id : Nat) :
    ((s.credited t slot amount id).meter t slot).credit = sat64 ((s.meter t slot).credit + amount) ∧
      ((s.credited t slot amount id).eph t).topups.getLast? = some id ∧
      ((s.credited t slot amount id).vol t).meters.pend = (s.vol t).meters.pend ∧ (s.credited t slot amount id).out = s.out := by
  refine ⟨by simp [State.credited], ?_, by simp [State.credited, State.onEph], by simp [State.credited]⟩
  simp only [State.credited, State.mirrorFields, State.eph_mirror, State.eph_onEph]
  exact getLast?_keepLast_append 4095 _ _

variable {i : Nat}

theorem confirmHeld_confirms (hv : s.serves t = true) (hi : s.ephSelected t = some i) :
    confirmHeld t s = (if (s.meter t i).creditHeld = 0 then s else s.fieldsMeter t i fun r => { r with creditHeld := 0 }).ephOk t := by
  unfold confirmHeld
  simp only [hv, hi]
  rfl

/-- Once a local minute has begun, the evaluations put off are done (R276). -/
theorem prepayEvaluate_evaluates (hv : s.serves t = true) (ht : s.hasTime t = true) (hm : (s.eph t).minute ≠ s.localNow t / 60) :
    prepayEvaluate t s =
      (s.eph t).deferred.foldl (fun s i => s.prepayEval t i) (s.onEph t fun e => { e with minute := s.localNow t / 60 }) := by
  unfold prepayEvaluate
  exact if_neg (by simp [hv, ht, hm])

/-- The bits of EVENT_FLAGS that a clear under `mask` leaves: those not named, and those whose condition lasts (R283). -/
def State.flagsLeft (s : State) (t : TileId) (i mask : Nat) : Nat :=
  bitsOf (fun k => bit (s.meter t i).eventFlags k && (!bit mask k || (s.flagsHeld t i).contains k)) 32

theorem flagsClear_clears {mask : Nat} (hv : s.serves t = true) (hi : s.ephSelected t = some i) : flagsClear t mask s =
    (if s.flagsLeft t i mask = (s.meter t i).eventFlags then s else s.fieldsMeter t i fun r => { r with eventFlags := s.flagsLeft t i mask }, .ok) := by
  unfold flagsClear
  simp only [hv, hi]
  rfl

end

/-- Settles O28: profiles, a top-up, held credit, the evaluations put off and a clear of flags, each where its conditions hold. -/
theorem ephemerisPrepay : Obligations.EphemerisPrepay := by
  refine ⟨fun s t off data hr hl hok => ?_, fun s t midx p hm hv ho hst hp hz hz' hnew hj => ?_, fun s t i hv hi => ?_, fun s t hv ht hm => ?_,
    fun s t mask i hv hi => ?_⟩
  · rw [exec_profileWrite, profileWrite_accepted hr hl hok]
    refine ⟨_, rfl, ?_, by simp⟩
    rw [State.rdB_done _ _ _ _ _ _ _ quiet_eph_profiles, State.rdB_answer, State.rdB_wrBM_self]
  · subst hm
    have htop := topup_credits (s := s.under { frees := [Reg.eph_topup_stage].map fun e => e.key t 0 }) rfl hv ho hst hp hz hz' hnew hj
    obtain ⟨hcredit, hid, hpend, hout⟩ := State.credited_effect (s := s.under { frees := [Reg.eph_topup_stage].map fun e => e.key t 0 }) (t := t)
      (midxSlot (fld (s.rdAll Reg.eph_topup_stage t) 0 4)) (toSigned 64 (fld (s.rdAll Reg.eph_topup_stage t) 0x10 8))
      (fld (s.rdAll Reg.eph_topup_stage t) 8 8)
    refine ⟨_, exec_topup t s, ?_, ?_, ?_, ?_⟩
    · rw [State.meter_done, consuming, State.acting_meter, htop, State.orderCreditAck, State.meter_onMeters _ _ _ _ (by rfl)]
      exact hcredit
    · rw [State.eph_done, consuming, State.acting_eph, htop, State.orderCreditAck, State.eph_onMeters]
      exact hid
    · rw [State.done_vol, consuming, State.acting_vol, htop, State.orderCreditAck, State.meters_onMeters, List.length_append]
      exact congrArg (fun l => l.length + 1) hpend
    · rw [State.done_out, consuming, State.acting_out, htop, State.orderCreditAck, State.out_onMeters]
      exact hout
  · rw [exec_confirmHeld, confirmHeld_confirms hv hi]
    refine ⟨_, rfl, ?_, ?_, State.rd_done_ephOk _ _ _, ?_⟩
    · rw [State.meter_done, State.meter_ephOk]
      split
      · assumption
      · rw [State.meter_fieldsMeter]
    · rw [State.meter_done, State.meter_ephOk]
      split
      · rfl
      · rw [State.meter_fieldsMeter]
    · rw [State.done_out, State.out_ephOk]
      split
      · rfl
      · rw [State.out_fieldsMeter]
  · rw [exec_prepayEvaluate, prepayEvaluate_evaluates hv ht hm]
  · rw [exec_flagsClear, flagsClear_clears hv hi]
    have hleft {k : Nat} (hk : k < 32) : bit (s.flagsLeft t i mask) k =
        (bit (s.meter t i).eventFlags k && (!bit mask k || (s.flagsHeld t i).contains k)) := bit_bitsOf _ hk
    refine ⟨_, rfl, ?_, fun k hk => ?_⟩
    · split <;> simp
    · rw [State.meter_done, State.meter_answer, ← hleft hk]
      split
      · next h => rw [h]
      · rw [State.meter_fieldsMeter]

end Sys2Proof.Machine

namespace Sys2Proof.Machine

/-! ### The relays of meters (R278 to R280) -/

theorem exec_ephRelayCmd (t : TileId) (c : Nat) (s : State) :
    exec (.ephRelayCmd t c) s = .next (s.done ((ephRelayCmd t c s).1.answer t (ephRelayCmd t c s).2)) := rfl
theorem exec_relayCheckGet (t : TileId) (slot : Nat) (s : State) : exec (.relayCheckGet t slot) s = .next (s.done (relayCheckGet t slot s)) := rfl
theorem exec_relayConfirmExpiry (t : TileId) (slot : Nat) (s : State) :
    exec (.relayConfirmExpiry t slot) s = .next (s.done (relayConfirmExpiry t slot s)) := rfl
theorem exec_relayAudit (t : TileId) (slot : Nat) (s : State) : exec (.relayAudit t slot) s = .next (s.done (relayAudit t slot s)) := rfl

section
variable {s : State} {t : TileId}

/-- A command that the selected meter takes is answered OK. -/
theorem ephRelayCmd_taken {y : State} {c i : Nat} (hv : s.serves t = true) (hi : s.ephSelected t = some i) (hc : s.relayCommand t i c = some y) :
    ephRelayCmd t c s = (y, .ok) := by
  unfold ephRelayCmd
  simp [hv, hi, hc]

/-- A command to a relay that is not MATCHED goes out to a meter that is not LOCAL. -/
theorem State.relayCommand_issues {c i : Nat} (hr : s.relayMeter t (s.meter t i) = true) (hc : c ≤ 2) (hp : (s.meter t i).path ≠ 3)
    (hst : (s.erelay t i).st ≠ 0) : s.relayCommand t i c = some (s.relayIssue t i c 1) := by
  unfold State.relayCommand
  dsimp only
  rw [if_neg (by simp [hr, hc]), if_neg hp, if_neg (fun h => hst h.1)]

variable {slot : Nat}

theorem relayCheckGet_asks {a : Nat} (hg : (s.erelay t slot).getAt = some a) (hv : s.serves t = true) (hst : (s.erelay t slot).st = 2) (ha : a ≤ s.now) :
    relayCheckGet t slot s =
      (s.onERelay t slot fun y => { y with getAt := none }).request t slot .relayGet 1 1 (dlmsGet (disconnectCtl 3)) := by
  unfold relayCheckGet
  rw [hg]
  exact if_pos ⟨hv, hst, ha⟩

theorem relayConfirmExpiry_differs (hv : s.serves t = true) (hst : (s.erelay t slot).st = 2) (hl : s.relayLate t slot = true) :
    relayConfirmExpiry t slot s = s.relayDiffers t slot := if_pos ⟨hv, hst, hl⟩

/-- The command is issued again while attempts are left (R279). -/
theorem State.relayDiffers_issues (hl : s.relayLate t slot = true) (ha : (s.erelay t slot).a ≤ s.rd Reg.eph_relay_retries t) :
    s.relayDiffers t slot = s.relayIssue t slot (s.meter t slot).relayCmd ((s.erelay t slot).a + 1) := by
  unfold State.relayDiffers
  rw [if_neg (by simp [hl]), if_pos ha]

/-- A relay meter that is not LOCAL takes part in the audits (R280). -/
theorem relayAudit_asks (hv : s.serves t = true) (hr : s.relayMeter t (s.meter t slot) = true) (hp : (s.meter t slot).path ≠ 3)
    (h0 : (s.erelay t slot).auditAt ≠ 0) (ha : (s.erelay t slot).auditAt ≤ s.now) (hq : s.asking t slot (fun j => decide (j = .auditGet)) = false) :
    relayAudit t slot s = (s.onERelay t slot fun y => { y with auditAt := s.now + s.rd Reg.eph_relay_audit_h t * 3600 * 1000000000 }).request t slot
      .auditGet 1 1 (dlmsGet (disconnectCtl 3)) := by
  unfold relayAudit
  dsimp only
  rw [if_neg (fun h => h0 h.2.2.2), if_pos ⟨hv, hr, hp, ha, hq⟩]

/-- One that has no place in the period yet is given its turn. -/
theorem relayAudit_places (hv : s.serves t = true) (hr : s.relayMeter t (s.meter t slot) = true) (hp : (s.meter t slot).path ≠ 3)
    (h0 : (s.erelay t slot).auditAt = 0) : relayAudit t slot s = s.onERelay t slot fun y => { y with auditAt := s.now + s.auditTurn t slot } :=
  if_pos ⟨hv, hr, hp, h0⟩

/-- A change of a relay's machine and a request behind it: what the two commands that ask leave. -/
theorem State.erelay_request_effect (f : ERelay → ERelay) (job : EJob) (kind cls : Nat) (body : Nat → Bytes) :
    let x := s.done ((s.onERelay t slot f).request t slot job kind cls body)
    x.erelay t slot = f (s.erelay t slot) ∧ (x.eph t).reqs.length = (s.eph t).reqs.length + 1 ∧ x.regs = s.regs ∧ x.out = s.out :=
  ⟨by simp, by rw [State.eph_done, State.reqs_length_request, State.reqs_onERelay], State.done_regs _ _ rfl, by rw [State.done_out]; rfl⟩

end

/-- Settles O29: what a relay command, the check, its expiry and the audit do, where their conditions hold. -/
theorem ephemerisRelays : Obligations.EphemerisRelays := by
  refine ⟨fun s t c i hv hi hr hc hp hst => ?_, fun s t slot a hg hv hst ha => ?_, fun s t slot hv hst hl ha => ?_, fun s t slot hv hr hp h0 ha hq => ?_,
    fun s y t c i hv hi hc => ?_, fun s t slot hv hst hl => ?_, fun s t slot hv hr hp h0 => ?_⟩
  · rw [exec_ephRelayCmd, ephRelayCmd_taken hv hi (State.relayCommand_issues hr hc hp hst)]
  · obtain ⟨hx, heffect⟩ := State.erelay_request_effect (s := s) (t := t) (slot := slot) (fun y => { y with getAt := none }) .relayGet 1 1
      (dlmsGet (disconnectCtl 3))
    exact ⟨_, by rw [exec_relayCheckGet, relayCheckGet_asks hg hv hst ha], by rw [hx], heffect⟩
  · rw [exec_relayConfirmExpiry, relayConfirmExpiry_differs hv hst hl, State.relayDiffers_issues hl ha]
  · obtain ⟨hx, heffect⟩ := State.erelay_request_effect (s := s) (t := t) (slot := slot)
      (fun y => { y with auditAt := s.now + s.rd Reg.eph_relay_audit_h t * 3600 * 1000000000 }) .auditGet 1 1 (dlmsGet (disconnectCtl 3))
    exact ⟨_, by rw [exec_relayAudit, relayAudit_asks hv hr hp h0 ha hq], by rw [hx], heffect⟩
  · rw [exec_ephRelayCmd, ephRelayCmd_taken hv hi hc]
  · rw [exec_relayConfirmExpiry, relayConfirmExpiry_differs hv hst hl]
  · rw [exec_relayAudit, relayAudit_places hv hr hp h0]
    exact ⟨_, rfl, by simp, State.done_regs _ _ rfl, by rw [State.done_out]; rfl⟩

end Sys2Proof.Machine

namespace Sys2Proof.Machine

/-! ### Requests to meters and their responses (R284, R386, R442) -/

theorem exec_ephDownlinkApdu (t : TileId) (s : State) : exec (.ephDownlinkApdu t) s = .next (s.done (ephDownlinkApdu t s)) := rfl
theorem exec_ephResponse (t : TileId) (f : Frame) (s : State) :
    exec (.ephResponse t f) s = .next (s.done (if s.serves t then s.ephResponse t f else s)) := rfl
theorem exec_responseTimeout (t : TileId) (slot inv : Nat) (s : State) :
    exec (.responseTimeout t slot inv) s = .next (s.done (responseTimeout t slot inv s)) := rfl
theorem exec_downRsp (t : TileId) (p : Fin 2) (frame : Bytes) (s : State) : exec (.downRsp t p frame) s = .next (s.done (downRsp t p frame s)) := rfl
theorem exec_meterClockCheck (t : TileId) (slot : Nat) (s : State) : exec (.meterClockCheck t slot) s = .next (s.done (meterClockCheck t slot s)) := rfl

section
variable {s : State} {t : TileId}

/-- The waiting request that goes next, by the precedence of R286. -/
def State.nextRequest (s : State) (t : TileId) : Option EReq :=
  (List.range 4).findSome? fun k => ((s.eph t).reqs.filter fun q => q.sent.isNone).find? fun q =>
    decide (q.kind = k) && (decide (s.icState t q.slot ≠ .wait) && s.mayPush t q && !s.unsound t q.slot)

/-- A tile with one request, which waits and may go. -/
theorem State.nextRequest_of_single {r : EReq} (hq : (s.eph t).reqs = [r]) (hs : r.sent = none) (hk : r.kind = 1) (hc : s.icState t r.slot = .ready)
    (hm : s.mayPush t r = true) (hu : s.unsound t r.slot = false) : s.nextRequest t = some r := by
  have hrange : List.range 4 = [0, 1, 2, 3] := rfl
  simp [State.nextRequest, hrange, hq, hs, hk, hc, hm, hu]

/-- The request `r` is noted as sent, with the satellite session that takes it, and a clock setting with its instant. -/
def State.noteSent (s y : State) (t : TileId) (r : EReq) : State :=
  let z := y.onEph t fun e => { e with reqs := e.reqs.map fun q =>
    if q.slot = r.slot ∧ q.inv = r.inv then
      { q with sent := some (s.now, s.timeNs t), tries := q.tries + 1, via := (s.satSess t (s.meter t r.slot).satId).map fun x => x.value } else q }
  if r.job = .clockSet then z.onEClock t r.slot fun c => { c with setAt := s.timeNs t + pathDelay (s.eclock t r.slot).trips } else z

/-- A sealed request leaves on the path of its meter. -/
def State.sendApdu (w : State) (t : TileId) (r : EReq) (apdu : Bytes) : State :=
  match (w.meter t r.slot).path with
  | 0 => w.swSend t 6 3 r.cls (.mac (w.midxOf t r.slot) r.kind r.inv apdu)
  | 1 => w.swSend t 6 4 r.cls (.mac (w.midxOf t r.slot) r.kind r.inv apdu)
  | _ => w.sendDown t (w.meter t r.slot).satId r.cls (w.meter t r.slot).sysTitle apdu

theorem ephDownlinkApdu_sends {y : State} {r : EReq} {apdu : Bytes} (hv : s.serves t = true) (hr : s.nextRequest t = some r)
    (hst : (s.meter t r.slot).state = 1) (hc : s.icState t r.slot = .ready)
    (hseal : s.sealDown t r.slot (if r.job = .clockSet then s.clockSetting t (s.timeNs t + pathDelay (s.eclock t r.slot).trips) r.inv else r.body) =
      (y, some apdu)) : ephDownlinkApdu t s = (s.noteSent y t r).sendApdu t r apdu := by
  unfold State.nextRequest at hr
  unfold ephDownlinkApdu
  simp only [hr, hv, hst, hc, hseal]
  rfl

/-- Ephemeris opens a response of a known meter that answers a request: the request is taken out and ended. -/
theorem State.ephResponse_answers {y z : State} {f : Frame} {midx inv : Nat} {p : Plain} {w : Option (Nat × Nat) × Option (Nat × Nat)} {d : Option Bytes}
    {r : EReq} (hl : (s.vol t).meters.lookup f.addrKind f.addr = some midx) (ho : s.openFrame t midx f 0 = (y, .ok p))
    (hp : y.passCounters t midx p = (z, .ok w)) (hd : dlmsRsp p.apdu = some (inv, d))
    (hr : ((z.deferWaters t midx w.1 w.2).eph t).reqs.find? (fun r => decide (r.slot = midxSlot midx) && decide (r.inv = inv) && r.sent.isSome) = some r) :
    s.ephResponse t f = ((z.deferWaters t midx w.1 w.2).dropReq t r).ephDone t r (some d) f.arrival := by
  unfold State.ephResponse
  simp only [hl, ho, hp, hd, hr]

theorem State.ephResponse_unknown {f : Frame} (hl : (s.vol t).meters.lookup f.addrKind f.addr = none) :
    s.ephResponse t f = s.bump Reg.eph_resp_dropped t := by
  unfold State.ephResponse
  simp only [hl]

variable {slot inv : Nat} {r : EReq} {a : Nat × Int}

/-- A request unanswered in time that may be tried again waits again (R284). -/
theorem responseTimeout_repeats (hr : (s.eph t).reqs.find? (fun q => decide (q.slot = slot) && decide (q.inv = inv)) = some r) (hs : r.sent = some a)
    (ha : a.1 + s.rd Reg.eph_resp_timeout_ms t * 1000000 ≤ s.now) (hw : s.pushWaits t slot inv = false) (hn : r.tries < s.rd Reg.eph_mgmt_tries t)
    (hj : r.job ≠ .relayAct) : responseTimeout t slot inv s =
      s.onEph t fun e => { e with reqs := e.reqs.map fun y => if y.slot = slot ∧ y.inv = inv then { y with sent := none } else y } := by
  unfold responseTimeout
  simp only [hr, hs]
  rw [if_neg (by simp [hw, ha]), if_pos ⟨hn, hj⟩]

/-- One that has had its tries, or the ACTION of R278, is ended. -/
theorem responseTimeout_ends (hr : (s.eph t).reqs.find? (fun q => decide (q.slot = slot) && decide (q.inv = inv)) = some r) (hs : r.sent = some a)
    (ha : a.1 + s.rd Reg.eph_resp_timeout_ms t * 1000000 ≤ s.now) (hw : s.pushWaits t slot inv = false)
    (hn : s.rd Reg.eph_mgmt_tries t ≤ r.tries ∨ r.job = .relayAct) : responseTimeout t slot inv s = (s.dropReq t r).ephDone t r none 0 := by
  unfold responseTimeout
  simp only [hr, hs]
  rw [if_neg (by simp [hw, ha]), if_neg (fun h => hn.elim (Nat.not_le.mpr h.1) h.2)]

/-- What a repeated request leaves. -/
theorem responseTimeout_repeats_effect (hr : (s.eph t).reqs.find? (fun q => decide (q.slot = slot) && decide (q.inv = inv)) = some r)
    (hs : r.sent = some a) (ha : a.1 + s.rd Reg.eph_resp_timeout_ms t * 1000000 ≤ s.now) (hw : s.pushWaits t slot inv = false)
    (hn : r.tries < s.rd Reg.eph_mgmt_tries t) (hj : r.job ≠ .relayAct) :
    ∃ x, exec (.responseTimeout t slot inv) s = .next x ∧ x.regs = s.regs ∧ x.out = s.out ∧
      (x.eph t).reqs = (s.eph t).reqs.map fun y => if y.slot = slot ∧ y.inv = inv then { y with sent := none } else y := by
  rw [exec_responseTimeout, responseTimeout_repeats hr hs ha hw hn hj]
  exact ⟨_, rfl, State.done_regs _ _ rfl, by rw [State.done_out]; rfl, by rw [State.eph_done, State.eph_onEph]⟩

/-- A DOWN_RSP of a session goes to P6 in the CONTROL class (R381). -/
theorem downRsp_hands_on {p : Fin 2} {frame : Bytes} {m : LinkIn} {e : Sess} (hm : (s.linkRx t p frame).2 = some m) (hty : m.type = 0x13)
    (he : m.sess.bind (Tbl.get ((s.linkRx t p frame).1.sw t).sess) = some e) : downRsp t p frame s =
      (s.linkRx t p frame).1.swStore t p 6 { cls := 1, len := frame.length, cells := 0, shared := false, body := .eph ({
          source := p, addrKind := 0, satId := e.sat, forceOld := false, rfSecured := false, entry := 0, addr := fld m.payload 0 8,
          arrival := (s.linkRx t p frame).1.arrivalAt t p, envSeq := 0, aad := [], apdu := m.payload.drop 12, env := 0 } : Frame) } := by
  unfold downRsp
  simp only [hm, hty, he]
  rfl

/-- The clock of meter `slot` is checked by tile `t` (R442). -/
def State.checksClock (s : State) (t : TileId) (slot : Nat) : Prop :=
  s.serves t = true ∧ s.rd Reg.time_meter_set_enable t = 1 ∧ (s.meter t slot).state = 1 ∧ (s.meter t slot).path ≤ 2 ∧ s.hasTime t = true

theorem meterClockCheck_asks (h : s.checksClock t slot) (h0 : (s.eclock t slot).nextAt ≠ 0) (hn : (s.eclock t slot).nextAt ≤ s.now)
    (hq : s.asking t slot EJob.isClock = false) :
    meterClockCheck t slot s = ((s.bump Reg.time_meter_checks t).onEClock t slot fun c => { c with nextAt := s.now + s.checkPeriod t }).request t slot
      (.clockGet false) 1 1 (dlmsGet (clockObj 2)) := by
  obtain ⟨hv, he, hst, hp, ht⟩ := h
  have hperiod : (s.bump Reg.time_meter_checks t).checkPeriod t = s.checkPeriod t :=
    congrArg (· * 3600 * 1000000000) (State.rd_bump_place s Reg.time_meter_check_h Reg.time_meter_checks rfl (by decide))
  unfold meterClockCheck
  dsimp only
  rw [if_neg (by simp [hv, he, hst, hp, ht]), if_neg h0, if_pos ⟨hn, hq⟩, hperiod]
  rfl

theorem meterClockCheck_places (h : s.checksClock t slot) (h0 : (s.eclock t slot).nextAt = 0) :
    meterClockCheck t slot s = s.onEClock t slot fun c => { c with nextAt := s.now + turnIn (s.checkPeriod t) slot } := by
  obtain ⟨hv, he, hst, hp, ht⟩ := h
  unfold meterClockCheck
  dsimp only
  rw [if_neg (by simp [hv, he, hst, hp, ht]), if_pos h0]

end

theorem quiet_eph_resp_dropped : Reg.eph_resp_dropped.quiet 0 = true := by decide
theorem quiet_time_meter_checks : Reg.time_meter_checks.quiet 0 = true := by decide

/-- Settles O30: which request goes, what a response and a time-out do, and when a clock is read, where their conditions hold. -/
theorem ephemerisMessages : Obligations.EphemerisMessages := by
  refine ⟨fun s t r y apdu hv hq hs hk hc hm hu hst hj hseal hp => ?_, fun s t f hv hl hn => ?_,
    fun s y z t f midx inv p w d r hv hl ho hpass hd hr => ?_, fun s t r a hq hs ha hw hn hj => ?_, fun s t p frame m e f hm hty he hf => ?_,
    fun s t slot hv he hst hp ht h0 hat hq hn => ?_, fun s y z w t r apdu body hv hr hst hc hbody hseal hz hw => ?_,
    fun s t slot inv r a hr hs ha hw hn => ?_, fun s t slot inv r a hr hs ha hw hn hj => responseTimeout_repeats_effect hr hs ha hw hn hj,
    fun s t slot hv he hst hp ht h0 => ?_⟩
  · have hjob : r.job ≠ .clockSet := by simp [hj]
    have hpath (f : Eph → Eph) : ((y.onEph t f).meter t r.slot).path = 0 := by rw [State.meter_onEph, hp]
    rw [exec_ephDownlinkApdu, ephDownlinkApdu_sends hv (State.nextRequest_of_single hq hs hk hc hm hu) hst hc (by rw [if_neg hjob, hseal]),
      State.noteSent, if_neg hjob, State.sendApdu, hpath]
    rfl
  · rw [exec_ephResponse, if_pos hv, State.ephResponse_unknown hl]
    exact ⟨_, rfl, by rw [State.rd_done _ _ _ _ _ quiet_eph_resp_dropped, State.rd_bump_lt _ _ _ _ hn], fun u => by rw [State.done_vol]; rfl,
      by rw [State.done_out]; rfl⟩
  · rw [exec_ephResponse, if_pos hv, State.ephResponse_answers hl ho hpass hd hr]
  · obtain ⟨x, hx, hregs, hout, hreqs⟩ := responseTimeout_repeats_effect (t := t) (slot := r.slot) (inv := r.inv) (by simp [hq]) hs ha hw hn hj
    exact ⟨x, hx, by simp [hreqs, hq], hregs, hout⟩
  · rw [exec_downRsp, downRsp_hands_on hm hty he, hf]
  · rw [exec_meterClockCheck, meterClockCheck_asks ⟨hv, he, hst, hp, ht⟩ h0 hat hq]
    refine ⟨_, rfl, ?_, by simp [State.checkPeriod], ?_, by rw [State.done_out]; rfl⟩
    · rw [State.rd_done _ _ _ _ _ quiet_time_meter_checks, State.rd_request]
      exact State.rd_bump_lt _ _ _ _ hn
    · rw [State.eph_done, State.reqs_length_request, State.reqs_onEClock, State.eph_bump]
  · rw [exec_ephDownlinkApdu, ephDownlinkApdu_sends hv hr hst hc (hbody ▸ hseal), hw, hz]
    rfl
  · rw [exec_responseTimeout, responseTimeout_ends hr hs ha hw hn]
  · rw [exec_meterClockCheck, meterClockCheck_places ⟨hv, he, hst, hp, ht⟩ h0]
    exact ⟨_, rfl, by simp, State.done_regs _ _ rfl, by rw [State.done_out]; rfl⟩

end Sys2Proof.Machine

namespace Sys2Proof.Machine

/-! ### Image campaigns (R288 to R290, R293) -/

theorem exec_pushLoad (t : TileId) (s : State) :
    exec (.pushLoad t) s = .next (s.done (consuming t [Reg.eph_push_stage, Reg.eph_image] (pushLoad t) s)) := rfl
theorem exec_pushStart (t : TileId) (s : State) : exec (.pushStart t) s = .next (s.done (s.campTo t [1, 3] 2 fun s => s.pushSettle t)) := rfl
theorem exec_pushPause (t : TileId) (s : State) : exec (.pushPause t) s = .next (s.done (s.campTo t [2] 3 fun s => s)) := rfl
theorem exec_pushActivate (t : TileId) (s : State) : exec (.pushActivate t) s = .next (s.done (pushActivate t s)) := rfl
theorem exec_pushCancel (t : TileId) (s : State) : exec (.pushCancel t) s = .next (s.done (pushCancel t s)) := rfl
theorem exec_pushAdd (t : TileId) (s : State) : exec (.pushAdd t) s = .next (s.done (consuming t [Reg.eph_push_members] (pushAdd t) s)) := rfl

theorem quiet_eph_push_state : Reg.eph_push_state.quiet 0 = true := by decide
theorem quiet_eph_push_descriptor : Reg.eph_push_descriptor.quiet 0 = true := by decide

/-- The members are read from the descriptor and the records. -/
theorem State.members_congr {s x : State} {t : TileId} (hd : x.campaign t = s.campaign t) (hr : (x.vol t).meters.recs = (s.vol t).meters.recs) :
    x.members t = s.members t := by
  unfold State.members State.slotsOf
  rw [hd, hr]

@[simp] theorem State.members_wrM_push_state (s : State) (t : TileId) (v : Nat) : (s.wrM Reg.eph_push_state t v).members t = s.members t := by
  refine State.members_congr ?_ (by rw [State.vol_wrM])
  unfold State.campaign State.rdAll State.wrM
  rw [State.rdB_mirror, State.rdB_wr_ne _ _ _ _ _ _ _ _ _ _ (Entry.key_ne_place Reg.eph_push_descriptor Reg.eph_push_state _ _ _ rfl (by decide))]

@[simp] theorem State.members_onEph (s : State) (t : TileId) (f : Eph → Eph) : (s.onEph t f).members t = s.members t :=
  State.members_congr rfl (by simp [State.onEph])

/-- The campaign state that an action leaves, after the whole command. -/
theorem State.rd_done_ephOk_push_state (s x : State) (t : TileId) : (s.done (x.ephOk t)).rd Reg.eph_push_state t = x.rd Reg.eph_push_state t := by
  rw [State.rd_done _ _ _ _ _ quiet_eph_push_state, State.rd_ephOk _ _ _ rfl (by decide)]

section
variable {s : State} {t : TileId}

/-! PUSH_LOAD -/

/-- A campaign loaded anew: its descriptor in force, no members, nothing asked, LOADED. -/
def State.loadCampaign (s : State) (t : TileId) (d : Bytes) : State :=
  ((s.onEph t fun e => { e with members := [], mcast := none, mcastDone := false, activate := false
                                reqs := e.reqs.filter fun r => !r.job.isPush }).wrBM Reg.eph_push_descriptor t 0 d).wrM Reg.eph_push_state t 1

theorem pushLoad_loads {d : Bytes} (hd : s.rdAll Reg.eph_push_stage t = d) (hv : s.serves t = true) (h2 : s.campState t ≠ 2) (h3 : s.campState t ≠ 3)
    (h4 : s.campState t ≠ 4) (hok : campOk d = true) (hash : Crypto.sha256 (s.rdB Reg.eph_image t 0 (campSize d)) = (d.drop 0x40).take 32) :
    pushLoad t s = (s.loadCampaign t d).ephOk t := by
  unfold pushLoad
  dsimp only
  rw [hd, if_neg (by simp [hv]), if_neg (by simp [h2, h3]), if_neg (by simp [hok]), if_neg (by simp [hash]), if_neg (fun h => h4 h.1)]
  rfl

theorem State.loadCampaign_descriptor {d : Bytes} (hl : d.length = 96) : (s.loadCampaign t d).rdAll Reg.eph_push_descriptor t = d := by
  have hsize : Reg.eph_push_descriptor.size = d.length := hl.symm
  unfold State.loadCampaign State.rdAll State.wrM
  rw [State.rdB_mirror, State.rdB_wr_ne _ _ _ _ _ _ _ _ _ _ (Entry.key_ne_place Reg.eph_push_descriptor Reg.eph_push_state _ _ _ rfl (by decide)), hsize,
    State.rdB_wrBM_self]

/-- The image of a campaign in NO_IMAGE gives it back its former state (R293). -/
theorem pushLoad_returns {d : Bytes} (hd : s.rdAll Reg.eph_push_stage t = d) (hv : s.serves t = true) (h4 : s.campState t = 4) (hok : campOk d = true)
    (hash : Crypto.sha256 (s.rdB Reg.eph_image t 0 (campSize d)) = (d.drop 0x40).take 32) (hsame : (s.campaign t).drop 0x40 = d.drop 0x40) :
    pushLoad t s =
      let y := ((s.members t).filter fun i => decide ((s.meter t i).pushState % 16 = 6)).foldl
        (fun s i => s.onMember t i fun m => { m with actAt := s.now, heard := false }) s
      ((y.wrM Reg.eph_push_state t (y.rd Reg.eph_push_state t / 16)).pushSettle t).ephOk t := by
  unfold pushLoad
  dsimp only
  rw [hd, if_neg (by simp [hv]), if_neg (by simp [h4]), if_neg (by simp [hok]), if_neg (by simp [hash]), if_pos ⟨h4, hsame⟩]

/-! PUSH_START, PUSH_PAUSE and PUSH_CANCEL -/

theorem State.campTo_goes {l : List Nat} (hv : s.serves t = true) (hc : l.contains (s.campState t) = true) (goal : Nat) (f : State → State) :
    s.campTo t l goal f = (f (s.wrM Reg.eph_push_state t goal)).ephOk t := by
  unfold State.campTo
  rw [if_neg (by simp [hv]), if_neg (by rw [hc]; exact Bool.false_ne_true)]

/-- Only a RUNNING or PAUSED campaign becomes DONE, and not while a member is open. -/
theorem State.pushSettle_open (h : s.openMembers t ≠ []) : s.pushSettle t = s := if_neg fun k => h k.2.2
theorem State.pushSettle_still (h2 : s.campState t ≠ 2) (h3 : s.campState t ≠ 3) : s.pushSettle t = s := if_neg fun k => k.1.elim h2 h3

/-- A member that is taken out of the campaign: nothing is asked of it any more, CANCELLED. -/
def State.cancelMember (t : TileId) (s : State) (i : Nat) : State := (s.unrequest t i EJob.isPush).pushTo t i 9

theorem State.cancelMember_eq {i : Nat} (h : s.campState t = 6) : s.cancelMember t i =
    ((s.unrequest t i EJob.isPush).fieldsMeter t i fun r => { r with pushState := r.pushState / 16 * 16 + 9 }).onMember t i fun m =>
      { m with sub := 0, todo := [], idle := 0, waitTo := 0 } := by
  have hstate : (((s.unrequest t i EJob.isPush).fieldsMeter t i fun r => { r with pushState := r.pushState / 16 * 16 + 9 }).onMember t i fun m =>
      { m with sub := 0, todo := [], idle := 0, waitTo := 0 }).campState t = 6 := by
    rw [← h]
    simp [State.campState, State.onMember, State.unrequest]
  unfold State.cancelMember State.pushTo
  exact State.pushSettle_still (by rw [hstate]; decide) (by rw [hstate]; decide)

/-- What the members taken out of a cancelled campaign leave. -/
theorem State.cancelMembers_effect (l : List Nat) (h : s.campState t = 6) :
    (l.foldl (State.cancelMember t) s).rd Reg.eph_push_state t = s.rd Reg.eph_push_state t ∧ (l.foldl (State.cancelMember t) s).out = s.out ∧
      ∀ j, j ∈ l ∨ 7 ≤ (s.meter t j).pushState % 16 → 7 ≤ ((l.foldl (State.cancelMember t) s).meter t j).pushState % 16 := by
  induction l generalizing s with
  | nil => exact ⟨rfl, rfl, fun j hj => hj.resolve_left (List.not_mem_nil)⟩
  | cons i l ih =>
    have hrd : (s.cancelMember t i).rd Reg.eph_push_state t = s.rd Reg.eph_push_state t := by
      rw [State.cancelMember_eq h]
      simp [State.onMember, State.unrequest]
    have hout : (s.cancelMember t i).out = s.out := by
      rw [State.cancelMember_eq h]
      simp [State.onMember, State.unrequest]
    have hmeter (j : Nat) (hj : j = i ∨ 7 ≤ (s.meter t j).pushState % 16) : 7 ≤ ((s.cancelMember t i).meter t j).pushState % 16 := by
      rw [State.cancelMember_eq h, State.onMember, State.meter_onEph]
      by_cases hji : j = i
      · subst hji
        rw [State.meter_fieldsMeter]
        dsimp only
        omega
      · rw [State.meter_fieldsMeter_ne _ _ _ _ hji, State.unrequest, State.meter_onEph]
        exact hj.resolve_left hji
    obtain ⟨ihrd, ihout, ihmeter⟩ := ih (s := s.cancelMember t i) (by rw [State.campState, hrd]; exact h)
    refine ⟨ihrd.trans hrd, ihout.trans hout, fun j hj => ihmeter j ?_⟩
    rw [List.mem_cons, or_assoc, or_left_comm] at hj
    exact hj.imp_right (hmeter j)

/-- The members that a cancel takes out: neither DONE nor FAILED. -/
def State.toCancel (s : State) (t : TileId) : List Nat :=
  (s.members t).filter fun i => !decide ((s.meter t i).pushState % 16 = 7) && !decide ((s.meter t i).pushState % 16 = 8)

theorem pushCancel_cancels (hv : s.serves t = true) (hc : [1, 2, 3, 4].contains (s.campState t) = true) :
    pushCancel t s = ((s.toCancel t).foldl (State.cancelMember t) (s.wrM Reg.eph_push_state t 6)).ephOk t := by
  unfold pushCancel
  rw [State.campTo_goes hv hc, State.members_wrM_push_state]
  simp only [State.meter_wrM]
  rfl

/-- A cancel leaves every member DONE, FAILED or CANCELLED (R290). -/
theorem pushCancel_effect (hv : s.serves t = true) (hc : [1, 2, 3, 4].contains (s.campState t) = true) :
    ∃ x, exec (.pushCancel t) s = .next x ∧ x.rd Reg.eph_push_state t = 6 ∧ x.rd Reg.eph_last_result t = 0 ∧
      (∀ i ∈ s.members t, 7 ≤ (x.meter t i).pushState % 16) ∧ x.out = s.out ++ [.answer t .ok] := by
  have hsix : (s.wrM Reg.eph_push_state t 6).rd Reg.eph_push_state t = 6 := State.rd_wrM_self _ _ _ _ _
  obtain ⟨hrd, hout, hmeter⟩ := State.cancelMembers_effect (s := s.wrM Reg.eph_push_state t 6) (t := t) (s.toCancel t) (by rw [State.campState, hsix])
  rw [exec_pushCancel, pushCancel_cancels hv hc]
  refine ⟨_, rfl, ?_, State.rd_done_ephOk _ _ _, fun i hi => ?_, ?_⟩
  · rw [State.rd_done_ephOk_push_state, hrd, hsix]
  · rw [State.meter_done, State.meter_ephOk]
    refine hmeter i ?_
    rw [State.meter_wrM]
    by_cases hend : (s.meter t i).pushState % 16 = 7 ∨ (s.meter t i).pushState % 16 = 8
    · exact .inr (by omega)
    · exact .inl (List.mem_filter.mpr ⟨hi, by simpa using hend⟩)
  · rw [State.done_out, State.out_ephOk, hout, State.out_wrM]

/-! PUSH_ACTIVATE -/

/-- The order to activate reaches the VERIFIED members at once. -/
theorem pushActivate_orders (hv : s.serves t = true) (hc : s.campState t = 2) : pushActivate t s =
    ((((s.onEph t fun e => { e with activate := true }).members t).filter fun i =>
      decide (((s.onEph t fun e => { e with activate := true }).meter t i).pushState % 16 = 5)).foldl (fun s i => pushMemberStep t i s)
        (s.onEph t fun e => { e with activate := true })).ephOk t := by
  unfold pushActivate
  rw [if_neg (by simp [hv]), if_neg (by simp [hc])]

/-! PUSH_ADD -/

/-- A listed meter that may take part joins the campaign. -/
theorem pushAdd_adds {m : Nat} (hv : s.serves t = true) (hc : [1, 2, 3].contains (s.campState t) = true)
    (hl : ((List.range 256).map fun i => s.rdF Reg.eph_push_members t (4 * i) 4).filter (· != 0xFFFFFFFF) = [m]) (ho : s.ownMidx t m = true)
    (hst : (s.meter t (midxSlot m)).state = 1) (hf : bit (s.clsFlags t (s.meter t (midxSlot m)).cls) 3 = true)
    (hp : [0, 7, 8, 9].contains ((s.meter t (midxSlot m)).pushState % 16) = true) :
    ∃ late, pushAdd t s = ((s.fieldsMeter t (midxSlot m) fun r =>
      { r with imgId := campId (s.campaign t), imgBlocks := 0, pushState := r.pushState / 16 * 16 + 1 }).onMember t (midxSlot m) fun _ =>
        EMember.init late).ephOk t := by
  unfold pushAdd
  dsimp only
  rw [if_neg (by simp [hv]), if_neg (by rw [hc]; exact Bool.false_ne_true), hl, List.foldl_cons, List.foldl_nil, if_pos ⟨ho, hst, hf, hp⟩]
  exact ⟨_, rfl⟩

theorem pushAdd_effect {m : Nat} (hv : s.serves t = true) (hc : [1, 2, 3].contains (s.campState t) = true)
    (hl : ((List.range 256).map fun i => s.rdF Reg.eph_push_members t (4 * i) 4).filter (· != 0xFFFFFFFF) = [m]) (ho : s.ownMidx t m = true)
    (hst : (s.meter t (midxSlot m)).state = 1) (hf : bit (s.clsFlags t (s.meter t (midxSlot m)).cls) 3 = true)
    (hp : [0, 7, 8, 9].contains ((s.meter t (midxSlot m)).pushState % 16) = true) :
    ∃ x, exec (.pushAdd t) s = .next x ∧ (x.meter t (midxSlot m)).pushState % 16 = 1 ∧ (x.meter t (midxSlot m)).imgId = campId (s.campaign t) ∧
      (x.meter t (midxSlot m)).imgBlocks = 0 ∧ x.rd Reg.eph_last_result t = 0 ∧ x.out = s.out ++ [.answer t .ok] := by
  obtain ⟨late, hadd⟩ := pushAdd_adds (s := s.under { frees := [Reg.eph_push_members].map fun e => e.key t 0 }) hv hc hl ho hst hf hp
  refine ⟨_, exec_pushAdd t s, ?_, ?_, ?_, State.rd_done_consuming_ephOk hadd, ?_⟩
  · rw [State.meter_done, consuming, State.acting_meter, hadd, State.meter_ephOk, State.onMember, State.meter_onEph, State.meter_fieldsMeter]
    dsimp only
    omega
  · rw [State.meter_done, consuming, State.acting_meter, hadd, State.meter_ephOk, State.onMember, State.meter_onEph, State.meter_fieldsMeter]
    rfl
  · rw [State.meter_done, consuming, State.acting_meter, hadd, State.meter_ephOk, State.onMember, State.meter_onEph, State.meter_fieldsMeter]
  · rw [State.done_out, consuming, State.acting_out, hadd, State.out_ephOk, State.onMember, State.out_onEph, State.out_fieldsMeter]
    rfl

end

/-- Settles O31: what each command of a campaign does, where its conditions hold. -/
theorem campaigns : Obligations.Campaigns := by
  refine ⟨fun s t hv h2 h3 h4 hok hash => ?_, fun s t i r hv hc ho => ?_, fun s t hv hc => ?_, fun s t hv hc hnone => ?_, fun s t hv hc hall => ?_,
    fun s t m hv hc hl ho hst hf hp => pushAdd_effect hv (by rw [hc]; rfl) hl ho hst hf (by rw [hp]; rfl), fun s t hv hc hok hash hsame => ?_,
    fun s t hv hc => ?_, fun s t hv hc => ?_, fun s t hv h1 h4 => pushCancel_effect hv (by simp; omega),
    fun s t m hv h1 h3 hl ho hst hf hp => pushAdd_effect hv (by simp; omega) hl ho hst hf hp⟩
  · have hload := pushLoad_loads (s := s.under { frees := [Reg.eph_push_stage, Reg.eph_image].map fun e => e.key t 0 }) rfl hv h2 h3 h4 hok hash
    have heph : ((s.done (consuming t [Reg.eph_push_stage, Reg.eph_image] (pushLoad t) s)).eph t) =
        { s.eph t with members := [], mcast := none, mcastDone := false, activate := false, reqs := (s.eph t).reqs.filter fun r => !r.job.isPush } := by
      rw [State.eph_done, consuming, State.acting_eph, hload, State.eph_ephOk, State.loadCampaign, State.eph_wrM, State.eph_wrBM, State.eph_onEph]
      rfl
    refine ⟨_, exec_pushLoad t s, ?_, by rw [heph], by rw [heph], by rw [heph], ?_, State.rd_done_consuming_ephOk hload, ?_⟩
    · rw [State.rd_done _ _ _ _ _ quiet_eph_push_state, consuming, State.acting_rd, hload, State.rd_ephOk _ _ _ rfl (by decide), State.loadCampaign,
        State.rd_wrM_self]
      rfl
    · unfold State.rdAll
      rw [State.rdB_done _ _ _ _ _ _ _ quiet_eph_push_descriptor]
      refine (congrArg (fun x : State => x.rdB Reg.eph_push_descriptor t 0 96) hload).trans ?_
      rw [State.rdB_ephOk _ _ _ _ _ rfl (by decide)]
      exact State.loadCampaign_descriptor (by simp [State.rdAll, State.rdB, Reg.eph_push_stage])
    · rw [State.done_out, consuming, State.acting_out, hload, State.out_ephOk, State.loadCampaign, State.out_wrM, State.out_wrBM, State.out_onEph]
      rfl
  · rw [exec_pushStart, State.campTo_goes hv (by rcases hc with hc | hc <;> rw [hc] <;> rfl), State.pushSettle_open (by rw [ho]; exact List.cons_ne_nil _ _)]
    exact ⟨_, rfl, by rw [State.rd_done_ephOk_push_state, State.rd_wrM_self]; rfl, State.rd_done_ephOk _ _ _, by simp⟩
  · rw [exec_pushPause, State.campTo_goes hv (by rw [hc]; rfl)]
    exact ⟨_, rfl, by rw [State.rd_done_ephOk_push_state, State.rd_wrM_self]; rfl, State.rd_done_ephOk _ _ _, by simp, by simp⟩
  · have hnil : ((s.members t).filter fun i => decide ((s.meter t i).pushState % 16 = 5)) = [] :=
      List.filter_eq_nil_iff.mpr fun i hi => by simpa using hnone i hi
    rw [exec_pushActivate, pushActivate_orders hv hc]
    simp only [State.members_onEph, State.meter_onEph, hnil, List.foldl_nil]
    exact ⟨_, rfl, by simp, State.rd_done_ephOk _ _ _, by simp⟩
  · have hnil : s.toCancel t = [] := List.filter_eq_nil_iff.mpr fun i hi => by rcases hall i hi with h | h <;> simp [h]
    rw [exec_pushCancel, pushCancel_cancels hv (by rw [hc]; rfl), hnil, List.foldl_nil]
    exact ⟨_, rfl, by rw [State.rd_done_ephOk_push_state, State.rd_wrM_self]; rfl, State.rd_done_ephOk _ _ _, by simp, by simp⟩
  · rw [exec_pushLoad]
    refine congrArg (fun x => Host.Outcome.next (s.done x)) (State.acting_congr ?_)
    exact pushLoad_returns rfl hv hc hok hash hsame
  · rw [exec_pushStart, State.campTo_goes hv (by rcases hc with hc | hc <;> rw [hc] <;> rfl)]
  · rw [exec_pushActivate, pushActivate_orders hv hc]

end Sys2Proof.Machine

namespace Sys2Proof.Machine

/-! ### Steps of pushes at the meters (R287, R290 to R292) -/

theorem exec_calendarPush (t : TileId) (slot : Nat) (s : State) : exec (.calendarPush t slot) s = .next (s.done (calendarPush t slot s)) := rfl
theorem exec_pushMemberStep (t : TileId) (slot : Nat) (s : State) : exec (.pushMemberStep t slot) s = .next (s.done (pushMemberStep t slot s)) := rfl
theorem exec_multicastRound (t : TileId) (s : State) : exec (.multicastRound t) s = .next (s.done (multicastRound t s)) := rfl
theorem exec_fillPass (t : TileId) (slot : Nat) (s : State) : exec (.fillPass t slot) s = .next (s.done (fillPass t slot s)) := rfl
theorem exec_imageActivateTime (t : TileId) (s : State) : exec (.imageActivateTime t) s = .next (s.done (imageActivateTime t s)) := rfl
theorem exec_activatingTimeout (t : TileId) (slot : Nat) (s : State) :
    exec (.activatingTimeout t slot) s = .next (s.done (activatingTimeout t slot s)) := rfl

section
variable {s : State} {t : TileId} {slot : Nat}

/-- A step of a calendar push to a meter whose calendar differs and that may be asked now: the next request, and calendar state 2 (R287). -/
theorem calendarPush_places {k v : Nat} (hv : s.serves t = true) (he : s.rd Reg.eph_cal_push_enable t ≠ 0) (hm : s.calMeter t (s.meter t slot) = true)
    (hver : s.rd Reg.eph_cal_version t = v) (hne : (s.meter t slot).calVersion ≠ v) (hq : s.asking t slot EJob.isCal = false)
    (hretry : (Tbl.get (s.eph t).calRetry slot).getD 0 ≤ s.now)
    (hk : Tbl.get (s.eph t).cal slot = some (k, v) ∨ k = 0 ∧ Tbl.get (s.eph t).cal slot = none) :
    ∃ x, exec (.calendarPush t slot) s = .next x ∧ (x.eph t).reqs.length = (s.eph t).reqs.length + 1 ∧
      (x.eph t).reqs.getLast?.map EReq.job = some (.cal k v) ∧ (x.meter t slot).pushState / 16 = 2 ∧ x.out = s.out := by
  obtain ⟨body, hpush⟩ : ∃ body, calendarPush t slot s =
      (((s.onEph t fun e => { e with cal := Tbl.put e.cal slot (k, v), calRetry := Tbl.del e.calRetry slot }).setCalState t slot 2).request t slot
        (.cal k v) 2 3 body) := by
    unfold calendarPush
    simp only [hver]
    rw [if_neg (by simp [hv, he, hm, hne, hq, hretry])]
    obtain hk | ⟨rfl, hk⟩ := hk
    · simp only [hk, if_true]
      exact ⟨_, rfl⟩
    · simp only [hk]
      exact ⟨_, rfl⟩
  rw [exec_calendarPush, hpush]
  refine ⟨_, rfl, ?_, ?_, ?_, ?_⟩
  · rw [State.eph_done, State.reqs_length_request, State.eph_setCalState, State.eph_onEph]
  · rw [State.eph_done, State.reqs_last_request]
  · rw [State.meter_done, State.meter_request, State.pushState_setCalState]
  · rw [State.done_out, State.out_request, State.out_setCalState, State.out_onEph]

/-- It is a member's turn: the campaign runs, nothing is asked of the meter, and it has waited (R290). -/
structure State.memberDue (s : State) (t : TileId) (slot : Nat) : Prop where
  serves : s.serves t = true
  running : s.campState t = 2
  member : (s.members t).contains slot = true
  idle : s.asking t slot EJob.isPush = false
  waited : (s.member t slot).waitTo ≤ s.now

theorem State.memberDue.not_barred (h : s.memberDue t slot) :
    ¬(!s.serves t ∨ s.campState t ≠ 2 ∨ !(s.members t).contains slot ∨ s.asking t slot EJob.isPush ∨ s.now < (s.member t slot).waitTo) := by
  simp [h.serves, h.running, List.contains_iff_mem.mp h.member, h.idle, h.waited]

/-! The machine of a member outside FILLING, state by state -/

theorem pushMemberStep_asks_block_size (h : s.memberDue t slot) (hst : (s.meter t slot).pushState % 16 = 1) (h0 : (s.member t slot).sub = 0) :
    pushMemberStep t slot s = s.pushAsk t slot 2 (dlmsGet (imageTransfer 2)) := by
  simp only [pushMemberStep, if_neg h.not_barred, hst, if_pos h0]

theorem pushMemberStep_asks_enabled (h : s.memberDue t slot) (hst : (s.meter t slot).pushState % 16 = 1) (h1 : (s.member t slot).sub = 1) :
    pushMemberStep t slot s = s.pushAsk t slot 5 (dlmsGet (imageTransfer 5)) := by
  simp only [pushMemberStep, if_neg h.not_barred, hst, h1, if_neg Nat.one_ne_zero, if_true]

theorem pushMemberStep_initiates (h : s.memberDue t slot) (hst : (s.meter t slot).pushState % 16 = 1) (h2 : 2 ≤ (s.member t slot).sub) :
    pushMemberStep t slot s =
      s.pushAsk t slot 11 (dlmsAct (imageTransfer 1) (dStr [dOct (campIdent (s.campaign t)), dU32 (campSize (s.campaign t))])) := by
  simp only [pushMemberStep, if_neg h.not_barred, hst]
  rw [if_neg (by omega), if_neg (by omega)]

theorem pushMemberStep_fills (h : s.memberDue t slot) (hst : (s.meter t slot).pushState % 16 = 2)
    (hm : (s.eph t).mcastDone = true ∨ s.mcastFor t slot = false) : pushMemberStep t slot s = s.pushTo t slot 3 := by
  simp only [pushMemberStep, if_neg h.not_barred, hst]
  exact if_pos (by simpa using hm)

theorem pushMemberStep_verifies (h : s.memberDue t slot) (hst : (s.meter t slot).pushState % 16 = 4) : pushMemberStep t slot s =
    if (s.member t slot).sub = 0 then s.pushAsk t slot 13 (dlmsAct (imageTransfer 3) (dInt8 0)) else s.pushAsk t slot 6 (dlmsGet (imageTransfer 6)) := by
  simp only [pushMemberStep, if_neg h.not_barred, hst]

theorem pushMemberStep_activates (h : s.memberDue t slot) (hst : (s.meter t slot).pushState % 16 = 5) (ha : (s.eph t).activate = true) :
    pushMemberStep t slot s =
      ((s.pushTo t slot 6).onMember t slot fun m => { m with actAt := s.now, heard := false }).pushAsk t slot 14 (dlmsAct (imageTransfer 4) (dInt8 0)) := by
  simp only [pushMemberStep, if_neg h.not_barred, hst]
  exact if_pos (.inl ha)

theorem pushMemberStep_asks_status (h : s.memberDue t slot) (hst : (s.meter t slot).pushState % 16 = 6) :
    pushMemberStep t slot s = s.pushAsk t slot 16 (dlmsGet (imageTransfer 6)) := by
  simp only [pushMemberStep, if_neg h.not_barred, hst]

/-! A fill pass (R292) -/

theorem State.memberDue.not_barred_fill (h : s.memberDue t slot) (hst : (s.meter t slot).pushState % 16 = 3) :
    ¬(!s.serves t ∨ s.campState t ≠ 2 ∨ !(s.members t).contains slot ∨ (s.meter t slot).pushState % 16 ≠ 3 ∨ s.asking t slot EJob.isPush ∨
      s.now < (s.member t slot).waitTo) := by
  simp [h.serves, h.running, List.contains_iff_mem.mp h.member, h.idle, h.waited, hst]

theorem fillPass_asks_status (h : s.memberDue t slot) (hst : (s.meter t slot).pushState % 16 = 3) (h0 : (s.member t slot).sub = 0) :
    fillPass t slot s = s.pushAsk t slot 3 (dlmsGet (imageTransfer (if 15872 < campBlocks (s.campaign t) then 4 else 3))) := by
  simp only [fillPass, if_neg (h.not_barred_fill hst), if_pos h0]

theorem fillPass_sends {n : Nat} {r : List Nat} (h : s.memberDue t slot) (hst : (s.meter t slot).pushState % 16 = 3) (h0 : (s.member t slot).sub ≠ 0)
    (hn : (s.member t slot).todo = n :: r) : fillPass t slot s = s.pushAsk t slot 12 (dlmsAct (imageTransfer 2) (s.blockData t n)) := by
  simp only [fillPass, if_neg (h.not_barred_fill hst), if_neg h0, hn]

theorem fillPass_asks_count (h : s.memberDue t slot) (hst : (s.meter t slot).pushState % 16 = 3) (h0 : (s.member t slot).sub ≠ 0)
    (hn : (s.member t slot).todo = []) : fillPass t slot s = s.pushAsk t slot 4 (dlmsGet (imageTransfer 4)) := by
  simp only [fillPass, if_neg (h.not_barred_fill hst), if_neg h0, hn]

theorem imageActivateTime_reached (hv : s.serves t = true) (hc : s.campState t = 2) (h0 : campActivate (s.campaign t) ≠ 0) (ht : s.hasTime t = true)
    (ha : (campActivate (s.campaign t) : Int) ≤ s.timeNs t) : imageActivateTime t s =
      ((s.members t).filter fun i => decide ((s.meter t i).pushState % 16 = 5)).foldl (fun s i => pushMemberStep t i s) s := by
  unfold imageActivateTime
  exact if_neg (by simp [hv, hc, h0, ht, ha])

theorem activatingTimeout_fails (hv : s.serves t = true) (hc : s.campState t = 2) (hm : (s.members t).contains slot = true)
    (hst : (s.meter t slot).pushState % 16 = 6) (hh : (s.member t slot).heard = false) (ha : (s.member t slot).actAt + 600 * 1000000000 ≤ s.now) :
    activatingTimeout t slot s = s.pushFail t slot 5 := if_pos ⟨hv, hc, hm, hst, hh, ha⟩

/-! A multicast round (R291): delivering the broadcast key and sending a block leave Ephemeris -/

@[simp] theorem State.eph_setSlot (s : State) (t : TileId) (n : Nat) (key : Bytes) : (s.setSlot t n key).eph t = s.eph t := State.eph_onVault _ _ _

theorem State.eph_deriveSlots (s : State) (t : TileId) : (s.deriveSlots t).eph t = s.eph t := by
  unfold State.deriveSlots
  dsimp only
  cases (s.vol t).vault.tileKek <;> cases (s.vol t).vault.bayKek <;> simp only [State.eph_setSlot]

theorem State.eph_loadSlot (s : State) (t : TileId) (n place : Nat) : (s.loadSlot t n place).eph t = s.eph t := by
  unfold State.loadSlot
  split
  · rw [State.eph_setSlot, State.eph_bump]
  · exact State.eph_onVault _ _ _

theorem State.eph_refillSlot (s : State) (t : TileId) (n : Nat) : (s.refillSlot t n).eph t = s.eph t := by
  unfold State.refillSlot
  split
  · exact s.eph_deriveSlots t
  · split
    · split
      · exact s.eph_loadSlot t _ _
      · rfl
    · split
      · exact State.eph_onVault _ _ _
      · exact s.eph_loadSlot t _ _

theorem State.eph_useSlot (s : State) (t : TileId) (n : Nat) : (s.useSlot t n).1.eph t = s.eph t := by
  unfold State.useSlot
  split
  · split
    · rw [State.eph_refillSlot, State.eph_event, State.eph_bump]
    · rfl
  · rfl

theorem State.eph_useBayKey (s : State) (t : TileId) (n u : Nat) : (s.useBayKey t n u).1.eph t = s.eph t := by
  refine Eq.trans ?_ (s.eph_useSlot t n)
  unfold State.useBayKey
  dsimp only
  split
  · split
    · rfl
    · split <;> rfl
  · rfl

theorem State.eph_swCount (s : State) (t : TileId) (i cls : Nat) (b : Bytes) (len : Nat) : (s.swCount t i cls b len).eph t = s.eph t := by
  unfold State.swCount
  dsimp only
  split
  · rfl
  · split
    · rw [State.eph_onSw]; rfl
    · rw [State.eph_qWrite, State.eph_onSw]; rfl

@[simp] theorem State.eph_swSend (s : State) (t : TileId) (i o cls : Nat) (body : SwBody) : (s.swSend t i o cls body).eph t = s.eph t := by
  unfold State.swSend
  rw [State.swStore_keeps (fun x => x.eph t) t (fun _ _ _ _ _ => rfl) (fun _ _ => State.eph_onSw _ _ _), State.eph_swCount]

theorem State.eph_ctrEnsure (s : State) (t : TileId) (k live : Nat) : (s.ctrEnsure t k live).eph t = s.eph t := by
  unfold State.ctrEnsure State.reserveCtr State.journal
  split
  · rw [State.eph_mirror, State.eph_onMeters, State.eph_onMeters]
  · rfl

/-- A member waits for the multicast, none is asked its block size any more, and the counter and the key may be used. -/
structure State.roundDue (s y : State) (t : TileId) (key : Bytes) : Prop where
  serves : s.serves t = true
  running : s.campState t = 2
  more : (s.eph t).mcastDone = false
  none_starts : ∀ i ∈ s.members t, (s.meter t i).pushState % 16 ≠ 1
  some_waits : ∃ i ∈ s.members t, (s.meter t i).pushState % 16 = 2 ∧ s.mcastFor t i = true
  counter : s.ctrReady t 2 (s.eph t).bcast = true
  keyed : s.useBayKey t (campKey (s.campaign t)) 1 = (y, some key)

theorem multicastRound_sends {y : State} {key : Bytes} {r k : Nat} (h : s.roundDue y t key) (hr : (s.eph t).mcast.getD (0, 0) = (r, k)) :
    ((multicastRound t s).eph t).bcast = (s.eph t).bcast + 1 ∧
      ((multicastRound t s).eph t).mcastDone = (decide (campBlocks (s.campaign t) ≤ k + 1) && decide (campRounds (s.campaign t) ≤ r + 1)) ∧
      ((multicastRound t s).eph t).mcast =
        if campBlocks (s.campaign t) ≤ k + 1 then (if campRounds (s.campaign t) ≤ r + 1 then none else some (r + 1, 0)) else some (r, k + 1) := by
  obtain ⟨hv, hc, hd, hone, ⟨i, hi, hst, hm⟩, hctr, hkey⟩ := h
  have hy : y.eph t = s.eph t := by rw [← s.eph_useBayKey t (campKey (s.campaign t)) 1, hkey]
  have hbar : ¬(!s.serves t ∨ s.campState t ≠ 2 ∨ (s.eph t).mcastDone ∨ ((s.members t).any fun i => decide ((s.meter t i).pushState % 16 = 1)) ∨
      ((s.members t).filter fun i => decide ((s.meter t i).pushState % 16 = 2) && s.mcastFor t i) = []) := by
    have hne : ((s.members t).filter fun i => decide ((s.meter t i).pushState % 16 = 2) && s.mcastFor t i) ≠ [] :=
      List.ne_nil_of_mem (List.mem_filter.mpr ⟨hi, by simp [hst, hm]⟩)
    have hany : ((s.members t).any fun i => decide ((s.meter t i).pushState % 16 = 1)) = false := by
      simpa using hone
    simp only [hv, hc, hd, hany]
    simpa using hne
  unfold multicastRound
  simp only [if_neg hbar, hctr, hkey, hr, hy]
  by_cases hlast : campBlocks (s.campaign t) ≤ k + 1 <;> simp [State.eph_ctrEnsure, apply_ite (fun x : State => x.eph t), hy, hlast]

end

/-- Settles O32: what each command of a push does, where its conditions hold. -/
theorem campaignSteps : Obligations.CampaignSteps := by
  refine ⟨fun s t slot hv he hm hne hq hretry hk => ?_, fun s t slot hv hc hin hq hw hst h0 => ?_, fun s t slot hv hc hin hq hw hst ha => ?_,
    fun s y t i key hv hc hd hmem hst hm hctr hkey hnone hk => ?_, fun s t slot n r hv hc hin hq hw hst h1 hn => ?_, fun s t hv hc h0 ht ha => ?_,
    fun s t slot hv hc hin hst hh ha => ?_, fun s t slot k v hv he hm hver hne hq hretry hk => calendarPush_places hv he hm hver hne hq hretry (.inl hk),
    fun s t slot hv hc hin hq hw hst h1 => ?_, fun s t slot hv hc hin hq hw hst h2 => ?_, fun s t slot hv hc hin hq hw hst hm => ?_,
    fun s t slot hv hc hin hq hw hst => ?_, fun s t slot hv hc hin hq hw hst => ?_, fun s y t key r k hv hc hd hone hsome hctr hkey hr => ?_,
    fun s t slot hv hc hin hq hw hst h0 => ?_, fun s t slot hv hc hin hq hw hst h0 hn => ?_⟩
  · exact calendarPush_places hv (by simp [he]) hm rfl hne hq (by simp [hretry]) (.inr ⟨rfl, hk⟩)
  · rw [exec_pushMemberStep, pushMemberStep_asks_block_size ⟨hv, hc, hin, hq, hw⟩ hst h0]
  · rw [exec_pushMemberStep, pushMemberStep_activates ⟨hv, hc, hin, hq, hw⟩ hst ha]
  · obtain ⟨hb, hdone, hnext⟩ := multicastRound_sends (r := 0) (k := 0) ⟨hv, hc, hd, by simp [hmem, hst], ⟨i, by simp [hmem], hst, hm⟩, hctr, hkey⟩
      (by rw [hnone]; rfl)
    rw [exec_multicastRound]
    exact ⟨_, rfl, by rw [State.eph_done, hnext, if_neg (by omega)], by rw [State.eph_done, hb], by rw [State.eph_done, hdone]; simp; omega⟩
  · rw [exec_fillPass, fillPass_sends ⟨hv, hc, hin, hq, hw⟩ hst (by omega) hn]
  · rw [exec_imageActivateTime, imageActivateTime_reached hv hc h0 ht ha]
  · rw [exec_activatingTimeout, activatingTimeout_fails hv hc hin hst hh ha]
  · rw [exec_pushMemberStep, pushMemberStep_asks_enabled ⟨hv, hc, hin, hq, hw⟩ hst h1]
  · rw [exec_pushMemberStep, pushMemberStep_initiates ⟨hv, hc, hin, hq, hw⟩ hst h2]
  · rw [exec_pushMemberStep, pushMemberStep_fills ⟨hv, hc, hin, hq, hw⟩ hst hm]
  · rw [exec_pushMemberStep, pushMemberStep_verifies ⟨hv, hc, hin, hq, hw⟩ hst]
  · rw [exec_pushMemberStep, pushMemberStep_asks_status ⟨hv, hc, hin, hq, hw⟩ hst]
  · obtain ⟨hb, hdone, hnext⟩ := multicastRound_sends ⟨hv, hc, hd, hone, hsome, hctr, hkey⟩ hr
    rw [exec_multicastRound]
    exact ⟨_, rfl, by rw [State.eph_done, hb], by rw [State.eph_done, hdone], by rw [State.eph_done, hnext]⟩
  · rw [exec_fillPass, fillPass_asks_status ⟨hv, hc, hin, hq, hw⟩ hst h0]
  · rw [exec_fillPass, fillPass_asks_count ⟨hv, hc, hin, hq, hw⟩ hst h0 hn]

end Sys2Proof.Machine

namespace Sys2Proof.Machine

/-! ### Calendars (R258 to R263) -/

/-- A calendar that comes into force leaves every number but those of the two calendars, which are runs of bytes. -/
theorem State.rd_calInForce (s : State) (t : TileId) (c : Bytes) (sec : Nat) (d : Entry) (ha : d.area = .tile)
    (hp : d.place 0 ≠ Reg.eph_cal_previous.place 0) (hc : d.place 0 ≠ Reg.eph_calendar.place 0) : (s.calInForce t c sec).rd d t = s.rd d t := by
  unfold State.calInForce
  rw [State.rd_wrBM_ne _ _ _ _ _ _ _ _ _ (Entry.key_ne_place _ _ _ _ _ ha hc), State.rd_wrBM_ne _ _ _ _ _ _ _ _ _ (Entry.key_ne_place _ _ _ _ _ ha hp),
    State.rd_onTile]

theorem State.rd_setCalStates (l : List Nat) (s : State) (t : TileId) (st : Nat) (e : Entry) (n i : Nat) :
    (l.foldl (fun s k => s.setCalState t k st) s).rd e n i = s.rd e n i :=
  State.each_keeps (fun x => x.rd e n i) l (fun s k => s.setCalState t k st) s fun x k => State.rd_setCalState x t k st e n i

/-- The version that a commit of an accepted calendar leaves: the next one, cut to the entry's byte. -/
theorem State.rd_ephCalCommit_version {s : State} {t : TileId} (hs : s.serves t = true)
    (hc : calBad (s.rdAll Reg.eph_cal_stage t) (s.whenNs t) = none) :
    (ephCalCommit t s).rd Reg.eph_cal_version t =
      (if s.rd Reg.eph_cal_version t = 255 then 1 else s.rd Reg.eph_cal_version t + 1) % Reg.eph_cal_version.span := by
  have hpassive : Reg.eph_cal_version.key t 0 ≠ Reg.eph_cal_passive.key t 0 := Entry.key_ne_place _ _ _ _ _ rfl (by decide)
  simp only [ephCalCommit, hs, hc, Bool.not_true, Bool.false_eq_true, ↓reduceIte]
  rw [State.rd_ephOk _ _ _ rfl (by decide)]
  rw [State.rd_setCalStates, State.rd_onEph]
  split
  · rw [State.rd_calInForce _ _ _ _ _ rfl (by decide) (by decide), State.rd_wrBM_ne _ _ _ _ _ _ _ _ _ hpassive, State.rd_wrM_self]
  · rw [State.rd_wrBM_ne _ _ _ _ _ _ _ _ _ hpassive, State.rd_wrM_self]

/-- An entry, of which nothing was listed, after a write of the whole of it. -/
theorem State.rdAll_wrB_whole (s : State) (e : Entry) (n i : Nat) (b : Bytes) (hc : s.cells e n i = []) (hl : b.length = e.size) :
    (s.wrB e n 0 b i).rdAll e n i = b := by
  rw [State.rdAll_wrB_new _ _ _ _ _ hc (Nat.le_of_eq hl), hl, Nat.sub_self]
  exact List.append_nil _

theorem quiet_eph_cal_version : Reg.eph_cal_version.quiet 0 = true := by decide

/-- The same after the whole command. -/
theorem State.rd_done_ephCalCommit_version {s : State} {t : TileId} (hs : s.serves t = true)
    (hc : calBad (s.rdAll Reg.eph_cal_stage t) (s.whenNs t) = none) :
    (s.done (consuming t [Reg.eph_cal_stage] (ephCalCommit t) s)).rd Reg.eph_cal_version t =
      (if s.rd Reg.eph_cal_version t = 255 then 1 else s.rd Reg.eph_cal_version t + 1) % Reg.eph_cal_version.span := by
  rw [State.rd_done _ _ _ _ _ quiet_eph_cal_version, consuming, State.acting_rd]
  exact State.rd_ephCalCommit_version (s := s.under _) hs hc

/-- A calendar of format 1 without ACTIVATE: DST rules in March and October, one season, whose week has day profile 0 on every day, and no special day; the
CRC of R262 stands at its end. -/
def plainCal : Bytes :=
  [1, 0] ++ List.replicate 16 0 ++ [0, 0, 0, 0] ++ [0, 0, 0xC0, 0x3B] ++ [0, 0, 0xC0, 0xAB] ++ List.replicate 34 0 ++ [1, 1, 0, 1] ++ List.replicate 92 0 ++
    [0, 0x80] ++ List.replicate 1434 0 ++ [157, 213, 66, 73]

/-- The reset state with tile 0 ACTIVE, and 256 where the one byte of the calendar version stands: a value that no write leaves there. -/
def wideVersionReset : State := { State.reset.setRole 0 0 with regs := [(Reg.eph_cal_version.key (0 : TileId) 0, .num 256)] }

/-- That state with the calendar staged. -/
def wideVersion : State := wideVersionReset.wrB Reg.eph_cal_stage (0 : TileId) 0 plainCal

theorem plainCal_length : plainCal.length = 1600 := by decide +kernel
theorem plainCal_accepted : calBad plainCal 0 = none := by decide +kernel
theorem plainCal_activate : calActivateNs plainCal = 0 := by decide +kernel

theorem wideVersionReset_cells : wideVersionReset.cells Reg.eph_cal_stage (0 : TileId) 0 = [] := rfl

theorem wideVersion_stage : wideVersion.rdAll Reg.eph_cal_stage (0 : TileId) = plainCal :=
  State.rdAll_wrB_whole wideVersionReset Reg.eph_cal_stage (0 : TileId) 0 plainCal wideVersionReset_cells plainCal_length

theorem wideVersion_serves : wideVersion.serves 0 = true := by decide +kernel
theorem wideVersion_whenNs : wideVersion.whenNs 0 = 0 := by decide +kernel
theorem wideVersion_version : wideVersion.rd Reg.eph_cal_version (0 : TileId) = 256 := by decide +kernel

theorem wideVersion_accepted : calBad (wideVersion.rdAll Reg.eph_cal_stage (0 : TileId)) (wideVersion.whenNs 0) = none := by
  rw [wideVersion_stage, wideVersion_whenNs]
  exact plainCal_accepted

theorem wideVersion_activate : calActivateNs (wideVersion.rdAll Reg.eph_cal_stage (0 : TileId)) = 0 := by
  rw [wideVersion_stage, plainCal_activate]

/-- The commit leaves version 1 in that state: 257 does not fit the byte. -/
theorem wideVersion_commit :
    (wideVersion.done (consuming 0 [Reg.eph_cal_stage] (ephCalCommit 0) wideVersion)).rd Reg.eph_cal_version (0 : TileId) = 1 := by
  rw [State.rd_done_ephCalCommit_version wideVersion_serves wideVersion_accepted, wideVersion_version]
  decide

/-- Refutes O27: the clause on a calendar without ACTIVATE bounds no version, and a state may hold 256 in the version's one byte. The commit writes the next
version cut to the byte, 1, where the clause asks for 257. No run reaches such a state; the clause lacks the bound that the first clause has. -/
theorem not_ephemerisBilling : ¬ Obligations.EphemerisBilling := by
  unfold Obligations.EphemerisBilling
  rintro ⟨-, -, -, -, -, atOnce, -, -⟩
  obtain ⟨x, hx, hv, -⟩ := atOnce wideVersion 0 wideVersion_serves wideVersion_accepted wideVersion_activate
  have hrun : exec (.ephCalCommit 0) wideVersion = .next (wideVersion.done (consuming 0 [Reg.eph_cal_stage] (ephCalCommit 0) wideVersion)) := rfl
  obtain rfl := Host.Outcome.next.inj (hrun.symm.trans hx)
  rw [wideVersion_commit, wideVersion_version] at hv
  exact absurd hv (by decide)

end Sys2Proof.Machine

namespace Sys2Proof.Machine

/-! ### What the operations of the PLC modem set and leave (chapter 9) -/

@[simp] theorem State.plc_onPlc (s : State) (t : TileId) (f : Plc → Plc) : (s.onPlc t f).plc t = f (s.plc t) := by simp [State.onPlc, State.plc]
@[simp] theorem State.out_onPlc (s : State) (t : TileId) (f : Plc → Plc) : (s.onPlc t f).out = s.out := rfl
@[simp] theorem State.regs_onPlc (s : State) (t : TileId) (f : Plc → Plc) : (s.onPlc t f).regs = s.regs := rfl
@[simp] theorem State.now_onPlc (s : State) (t : TileId) (f : Plc → Plc) : (s.onPlc t f).now = s.now := rfl
@[simp] theorem State.rd_onPlc (s : State) (t : TileId) (f : Plc → Plc) (e : Entry) (n i : Nat) : (s.onPlc t f).rd e n i = s.rd e n i := rfl
@[simp] theorem State.plc_wr (s : State) (e : Entry) (n v i : Nat) (t : TileId) : (s.wr e n v i).plc t = s.plc t := rfl
@[simp] theorem State.plc_bump (s : State) (e : Entry) (n i k : Nat) (t : TileId) : (s.bump e n i k).plc t = s.plc t := rfl
@[simp] theorem State.plc_event (s : State) (t u : TileId) (sev code obj a b : Nat) : (s.event t sev code obj a b).plc u = s.plc u := by simp [State.plc]
@[simp] theorem State.plc_mirror (s : State) (t u : TileId) (x : MItem) (n : Nat) : (s.mirror t x n).plc u = s.plc u := by simp [State.plc]
@[simp] theorem State.plc_onMeters (s : State) (t : TileId) (f : Meters → Meters) : (s.onMeters t f).plc t = s.plc t := by simp [State.onMeters, State.plc]
@[simp] theorem State.plc_onMer (s : State) (t : TileId) (f : Mer → Mer) : (s.onMer t f).plc t = s.plc t := by simp [State.onMer, State.plc]
@[simp] theorem State.plc_done (s x : State) (t : TileId) : (s.done x).plc t = x.plc t := by simp [State.plc]
@[simp] theorem State.plc_fieldsMeter (s : State) (t : TileId) (k : Nat) (f : MeterRec → MeterRec) (op : JOp) : (s.fieldsMeter t k f op).plc t = s.plc t :=
  State.fieldsMeter_keeps (fun x => x.plc t) t (fun _ _ => State.plc_onMeters _ _ _) (fun _ _ _ => State.plc_mirror _ _ _ _ _) _ _ _ _

/-- A neighbour that the tile knows, read where it was changed. -/
theorem State.neigh_onNeigh {s : State} {t : TileId} {a : Nat} {n : PNeigh} (f : PNeigh → PNeigh) (h : Tbl.get (s.plc t).neigh a = some n) :
    Tbl.get ((s.onNeigh t a f).plc t).neigh a = some (f n) := by
  simp [State.onNeigh, Tbl.upd, h]

/-! ### Frames that are queued -/

/-- `x` is `s` with another queue of the modem's own frames: nothing else of the modem, no value and no output differs. -/
structure QueueOnly (t : TileId) (s x : State) : Prop where
  plc : ∃ q, x.plc t = { s.plc t with txq := q }
  out : x.out = s.out
  regs : x.regs = s.regs
  now : x.now = s.now

namespace QueueOnly

variable {t : TileId} {s x y : State}

theorem refl (t : TileId) (s : State) : QueueOnly t s s := ⟨⟨_, rfl⟩, rfl, rfl, rfl⟩

theorem trans (h : QueueOnly t s x) (k : QueueOnly t x y) : QueueOnly t s y := by
  obtain ⟨q, hq⟩ := h.plc
  obtain ⟨r, hr⟩ := k.plc
  exact ⟨⟨r, by rw [hr, hq]⟩, k.out.trans h.out, k.regs.trans h.regs, k.now.trans h.now⟩

theorem plcQueue (t : TileId) (s : State) (dst cmd : Nat) (body : Bytes) : QueueOnly t s (s.plcQueue t dst cmd body) :=
  ⟨⟨_, State.plc_onPlc _ _ _⟩, rfl, rfl, rfl⟩

theorem foldl {α : Type} (l : List α) (f : State → α → State) (hf : ∀ y a, QueueOnly t y (f y a)) (s : State) : QueueOnly t s (l.foldl f s) :=
  List.foldlRecOn (motive := QueueOnly t s) l f (.refl t s) fun y k a _ => k.trans (hf y a)

theorem rd (h : QueueOnly t s x) (e : Entry) (n i : Nat) : x.rd e n i = s.rd e n i := State.rd_congr (by rw [h.regs])

end QueueOnly

/-- The newest frame of the queue is the one just queued. -/
theorem State.txq_last_plcQueue (s : State) (t : TileId) (dst cmd : Nat) (body : Bytes) :
    (((s.plcQueue t dst cmd body).plc t).txq.getLast?.map fun q => (q.dst, q.cmd)) = some (dst, cmd) := by
  simp [State.plcQueue]

end Sys2Proof.Machine

namespace Sys2Proof.Machine

/-! ### The link layer (R297, R301, R303, R322, R542) -/

theorem exec_plcFrameRx (t : TileId) (p : PlcPhy) (b : Bytes) (s : State) : exec (.plcFrameRx t p b) s = .next (s.done (plcFrameRx t p b s)) := rfl
theorem exec_plcTransmit (t : TileId) (dur ofs : Nat) (fail acked : Bool) (route : List Nat) (s : State) :
    exec (.plcTransmit t dur ofs fail acked route) s = .next (s.done (plcTransmit t dur ofs fail acked route s)) := rfl
theorem exec_zcEdge (t : TileId) (s : State) : exec (.zcEdge t) s = .next (s.done (zcEdge t s)) := rfl
theorem exec_zcLost (t : TileId) (s : State) : exec (.zcLost t) s = .next (s.done (zcLost t s)) := rfl
theorem exec_plcDutyFree (t : TileId) (s : State) : exec (.plcDutyFree t) s = .next (s.done (plcDutyFree t s)) := rfl
theorem exec_mapSetDrop (t : TileId) (a : Nat) (s : State) : exec (.mapSetDrop t a) s = .next (s.done (mapSetDrop t a s)) := rfl

section
variable {s y : State} {t : TileId} {p : PlcPhy} {b : Bytes}

theorem plcFrameRx_dropped (h : s.plcRx t p = (y, false)) : plcFrameRx t p b s = y := by simp [plcFrameRx, h]

theorem plcFrameRx_toEph (h : s.plcRx t p = (y, true)) (he : y.isEphRsp t (plcFrame y t p b) = true) :
    plcFrameRx t p b s = y.swSend t 3 6 1 (.eph (plcFrame y t p b)) := by
  simp [plcFrameRx, h, he]

/-- A frame that answers no request of Ephemeris goes to Gather; one outside a slot that the tile opened is counted first (R306). -/
theorem plcFrameRx_toGather (h : s.plcRx t p = (y, true)) (he : y.isEphRsp t (plcFrame y t p b) = false) :
    plcFrameRx t p b s =
      ((if (y.swCount t 3 2 b b.length).plcUnsolicited t (plcFrame y t p b) (p.path.headD 0xFFFF) then
          (y.swCount t 3 2 b b.length).bump Reg.plc_unsolicited t else y.swCount t 3 2 b b.length).toGather t 3 b.length [plcFrame y t p b]).1 := by
  simp [plcFrameRx, h, he]

end

section
variable {s : State} {t : TileId} {b : PBusy} {dur ofs : Nat} {fail acked : Bool} {route : List Nat}

theorem plcTransmit_begins (hup : (s.plc t).up = true) (hb : (s.plc t).busy = none) (hp : s.pier.pfail = false) :
    plcTransmit t dur ofs fail acked route s = s.plcBegin t dur fail route := by
  simp [plcTransmit, hup, hb, hp]

theorem plcTransmit_sends (hup : (s.plc t).up = true) (hb : (s.plc t).busy = some b) (h1 : b.step = 1) (ht : b.at_ + 50000 ≤ s.now)
    (hp : s.pier.pfail = false) : plcTransmit t dur ofs fail acked route s = s.plcSend t b ofs := by
  simp [plcTransmit, hup, hb, h1, ht, hp]

theorem plcTransmit_ends (hup : (s.plc t).up = true) (hb : (s.plc t).busy = some b) (h2 : b.step = 2)
    (ht : b.at_ + b.lead + b.dur + 10000 ≤ s.now) : plcTransmit t dur ofs fail acked route s = s.plcEnd t b acked := by
  simp [plcTransmit, hup, hb, h2, ht]

theorem plcTransmit_leaves (hup : (s.plc t).up = true) (hb : (s.plc t).busy = some b) (h3 : b.step = 3) (ht : b.at_ + 50000 ≤ s.now) :
    plcTransmit t dur ofs fail acked route s = (s.drivePlc t 3 false).onPlc t fun p => { p with busy := none } := by
  simp [plcTransmit, hup, hb, h3, ht]

end

/-! The zero-crossing reference -/

theorem State.setZc_same {s : State} {t : TileId} {v : Bool} (h : (s.plc t).valid = v) : s.setZc t v = s := if_pos h

/-- A changed ZC bit is shown, and CAPs go out. -/
theorem State.setZc_queues {s : State} {t : TileId} {v : Bool} (h : (s.plc t).valid ≠ v) :
    QueueOnly t ((s.onPlc t fun p => { p with valid := v }).wr Reg.plc_zc_state t (b2n v)) (s.setZc t v) := by
  rw [State.setZc, if_neg h]
  exact .foldl _ _ (fun y k => .plcQueue t y k _ _) _

theorem State.plc_setZc (s : State) (t : TileId) (v : Bool) : ∃ q, (s.setZc t v).plc t = { s.plc t with valid := v, txq := q } := by
  by_cases h : (s.plc t).valid = v
  · exact ⟨(s.plc t).txq, by rw [State.setZc_same h, ← h]⟩
  · obtain ⟨q, hq⟩ := (State.setZc_queues h).plc
    exact ⟨q, by rw [hq, State.plc_wr, State.plc_onPlc]⟩

@[simp] theorem State.out_setZc (s : State) (t : TileId) (v : Bool) : (s.setZc t v).out = s.out := by
  by_cases h : (s.plc t).valid = v
  · rw [State.setZc_same h]
  · exact (State.setZc_queues h).out

/-- An accepted edge with the count of good intervals that it leaves, before the ZC bit follows. -/
def State.edgeTaken (s : State) (t : TileId) (run : Nat) : State :=
  let x := s.onPlc t fun p => { p with zc := (s.now :: p.zc).take 8, zcRun := run, zcNs := s.timeNs t - s.rdI Reg.plc_zc_delay_us t * 1000 }
  x.wr Reg.plc_mains_period_us t ((x.plc t).period / 1000)

@[simp] theorem State.out_edgeTaken (s : State) (t : TileId) (run : Nat) : (s.edgeTaken t run).out = s.out := rfl
@[simp] theorem State.zcRun_edgeTaken (s : State) (t : TileId) (run : Nat) : ((s.edgeTaken t run).plc t).zcRun = run := by simp [State.edgeTaken]
@[simp] theorem State.valid_edgeTaken (s : State) (t : TileId) (run : Nat) : ((s.edgeTaken t run).plc t).valid = (s.plc t).valid := by
  simp [State.edgeTaken]
@[simp] theorem State.zc_edgeTaken (s : State) (t : TileId) (run : Nat) : ((s.edgeTaken t run).plc t).zc = s.now :: (s.plc t).zc.take 7 := by
  simp [State.edgeTaken]

/-- What an edge leaves once the ZC bit has followed it. -/
theorem State.setZc_edgeTaken (s : State) (t : TileId) (run : Nat) (v : Bool) :
    (((s.edgeTaken t run).setZc t v).plc t).zcRun = run ∧ (((s.edgeTaken t run).setZc t v).plc t).valid = v ∧
      (((s.edgeTaken t run).setZc t v).plc t).zc = s.now :: (s.plc t).zc.take 7 := by
  obtain ⟨q, hq⟩ := (s.edgeTaken t run).plc_setZc t v
  simp [hq]

section
variable {s : State} {t : TileId} {e : Nat} {l : List Nat}

/-- No edge lies less than 2 ms back: a bounce is not accepted. -/
theorem zc_settled (h : ∀ e' ∈ (s.plc t).zc, e' + 2000000 ≤ s.now) : ((s.plc t).zc.any fun e => decide (s.now < e + 2000000)) = false := by
  simpa using h

theorem zcEdge_first (hup : (s.plc t).up = true) (hz : (s.plc t).zc = []) : zcEdge t s = (s.edgeTaken t 0).setZc t false := by
  simp [zcEdge, State.edgeTaken, hup, hz]

theorem zcEdge_bad (hup : (s.plc t).up = true) (hz : (s.plc t).zc = e :: l) (hgap : ∀ e' ∈ (s.plc t).zc, e' + 2000000 ≤ s.now)
    (hbad : s.now - e < 15385000 ∨ 22222000 < s.now - e) : zcEdge t s = (s.edgeTaken t 0).setZc t false := by
  have hok : ¬(15385000 ≤ s.now - e ∧ s.now - e ≤ 22222000) := by omega
  have hany := zc_settled hgap
  rw [hz] at hany
  simp only [zcEdge, State.edgeTaken, hup, hz, hany, hok]
  simp

theorem zcEdge_good (hup : (s.plc t).up = true) (hz : (s.plc t).zc = e :: l) (hgap : ∀ e' ∈ (s.plc t).zc, e' + 2000000 ≤ s.now)
    (hlo : 15385000 ≤ s.now - e) (hhi : s.now - e ≤ 22222000) :
    zcEdge t s = if 8 ≤ (s.plc t).zcRun + 1 then (s.edgeTaken t ((s.plc t).zcRun + 1)).setZc t true else s.edgeTaken t ((s.plc t).zcRun + 1) := by
  have hok : 15385000 ≤ s.now - e ∧ s.now - e ≤ 22222000 := ⟨hlo, hhi⟩
  have hany := zc_settled hgap
  rw [hz] at hany
  simp only [zcEdge, State.edgeTaken, hup, hz, hany, hok]
  simp

theorem zcLost_passed (hz : (s.plc t).zc = e :: l) (ht : e + 25000000 ≤ s.now) : zcLost t s = (s.onPlc t fun p => { p with zcRun := 0 }).setZc t false := by
  simp [zcLost, hz, ht]

end

/-- Settles O33: the reception and the transmission of a frame, the zero-crossing reference, the duty window and the former map set. -/
theorem plcLink : Obligations.PlcLink := by
  refine ⟨fun s y t p b h he hu => ?_, fun s t dur ofs fail acked route hup hb hp => ?_, fun s t b dur ofs fail acked route hup hb h1 ht hp => ?_,
    fun s t b dur ofs fail acked route hup hb h2 ht => ?_, fun s t b dur ofs fail acked route hup hb h3 ht => ?_, fun s t e l hup hz hgap hlo hhi h7 => ?_,
    fun s t e l hz ht hv => ?_, fun s t => ⟨_, exec_plcDutyFree t s, ?_⟩, fun s t a d n hn hd ht => ⟨_, exec_mapSetDrop t a s, ?_⟩, fun s y t p b h he => ?_,
    fun s y t p b h he hu => ?_, fun s y t p b h => ?_, fun s t hup hz => ?_, fun s t e l hup hz hgap hlo hhi h7 => ?_, fun s t e l hup hz hgap hbad => ?_,
    fun s t e l hz ht hv => ?_⟩
  · rw [exec_plcFrameRx, plcFrameRx_toGather h he, hu]; rfl
  · rw [exec_plcTransmit, plcTransmit_begins hup hb hp]
  · rw [exec_plcTransmit, plcTransmit_sends hup hb h1 ht hp]
  · rw [exec_plcTransmit, plcTransmit_ends hup hb h2 ht]
  · rw [exec_plcTransmit, plcTransmit_leaves hup hb h3 ht]
    exact ⟨_, rfl, by simp, by simp [State.onPlc, State.drivePlc], by simp [State.onPlc, State.drivePlc], State.done_regs _ _ rfl, State.done_out _ _⟩
  · obtain ⟨hrun, hvalid, hzc⟩ := s.setZc_edgeTaken t ((s.plc t).zcRun + 1) true
    rw [exec_zcEdge, zcEdge_good hup hz hgap hlo hhi, if_pos (by omega)]
    exact ⟨_, rfl, by simpa using hrun, by simpa using hvalid, by simp [hzc], by simp⟩
  · obtain ⟨q, hq⟩ := (s.onPlc t fun p => { p with zcRun := 0 }).plc_setZc t false
    have hz0 := (State.setZc_queues (s := s.onPlc t fun p => { p with zcRun := 0 }) (t := t) (v := false) (by simp [hv])).rd Reg.plc_zc_state t 0
    rw [exec_zcLost, zcLost_passed hz ht]
    exact ⟨_, rfl, by simp [hq], by simp [hq], by rw [State.rd_done _ _ _ _ _ (by decide), hz0]; simp [b2n], by simp⟩
  · exact ⟨by simp [plcDutyFree], by simp [plcDutyFree], State.done_regs _ _ rfl, State.done_out _ _⟩
  · exact ⟨by rw [State.plc_done, mapSetDrop, State.neigh_onNeigh _ hn]; simp [hd, ht], State.done_regs _ _ rfl, State.done_out _ _⟩
  · rw [exec_plcFrameRx, plcFrameRx_toEph h he]
  · rw [exec_plcFrameRx, plcFrameRx_toGather h he, hu]; rfl
  · rw [exec_plcFrameRx, plcFrameRx_dropped h]
  · obtain ⟨hrun, hvalid, hzc⟩ := s.setZc_edgeTaken t 0 false
    rw [exec_zcEdge, zcEdge_first hup hz]
    exact ⟨_, rfl, by simp [hzc, hz], by simpa using hrun, by simpa using hvalid, by simp⟩
  · rw [exec_zcEdge, zcEdge_good hup hz hgap hlo hhi, if_neg (by omega)]
    exact ⟨_, rfl, by simp, by simp, by simp, by simp⟩
  · obtain ⟨hrun, hvalid, hzc⟩ := s.setZc_edgeTaken t 0 false
    rw [exec_zcEdge, zcEdge_bad hup hz hgap hbad]
    exact ⟨_, rfl, by simpa using hrun, by simpa using hvalid, by simp [hzc], by simp⟩
  · rw [exec_zcLost, zcLost_passed hz ht, State.setZc_same (by simp [hv])]
    exact ⟨_, rfl, by simp, by simp [hv], State.done_regs _ _ rfl, by simp⟩

end Sys2Proof.Machine

namespace Sys2Proof.Machine

/-! ### The network (R304, R307 to R309, R312, R329, R333) -/

theorem exec_join (t : TileId) (eui : Nat) (ok : Bool) (s : State) : exec (.join t eui ok) s = .next (s.done (plcJoin t eui ok s)) := rfl
theorem exec_plcModeSwitch (t : TileId) (s : State) : exec (.plcModeSwitch t) s = .next (s.done (plcModeSwitch t s)) := rfl
theorem exec_pollCycleStart (t : TileId) (s : State) : exec (.pollCycleStart t) s = .next (s.done (pollCycleStart t s)) := rfl
theorem exec_collectionRequest (t : TileId) (slot : Nat) (s : State) :
    exec (.collectionRequest t slot) s = .next (s.done (collectionRequest t slot s)) := rfl
theorem exec_cycleBeacon (t : TileId) (s : State) : exec (.cycleBeacon t) s = .next (s.done (cycleBeacon t s)) := rfl
theorem exec_routeRecompute (t : TileId) (s : State) : exec (.routeRecompute t) s = .next (s.done (routeRecompute t s)) := rfl
theorem exec_phaseQuery (t : TileId) (s : State) : exec (.phaseQuery t) s = .next (s.done (phaseQuery t s)) := rfl

/-! Joining and the mode -/

section
variable {s y : State} {t : TileId} {eui : Nat}

theorem plcJoin_refused {ok : Bool} (hup : (s.plc t).up = true) (hmode : s.rd Reg.plc_mode_now t = 0) (hm : (s.vol t).meters.lookup 1 eui = none)
    (hr : s.repeaterShort t eui = none) : plcJoin t eui ok s = s.joinRefused t eui := by
  simp [plcJoin, hup, hmode, hm, hr]

/-- A listed PLC meter with a key that has not joined is admitted while the table of BEACON mode has room. -/
theorem plcJoin_admitted {midx : Nat} {psk : Bytes} (hup : (s.plc t).up = true) (hmode : s.rd Reg.plc_mode_now t = 0)
    (hm : (s.vol t).meters.lookup 1 eui = some midx) (hst : (s.meter t (midxSlot midx)).state = 1) (hpath : (s.meter t (midxSlot midx)).path = 0)
    (hpsk : s.takePsk t eui = (y, some psk)) (hroom : (s.plc t).joined.length < 512) (hnew : ((s.plc t).joined.any fun e => decide (e.2 = eui)) = false) :
    plcJoin t eui true s = y.joinWith t eui psk := by
  have hfull : ¬512 ≤ (s.plc t).joined.length := by omega
  unfold plcJoin
  simp only [hup, hmode, hm, hst, hpath, hpsk, hnew, hfull, Option.map_some, Option.any_some]
  simp

theorem plcModeSwitch_notes (hup : (s.plc t).up = true) :
    plcModeSwitch t s = s.onPlc t fun p => { p with pend := s.plcWant t, tries := p.recent s.now } := by
  simp [plcModeSwitch, hup]

theorem State.plcApplyMode_none (h : (s.plc t).pend = none) : s.plcApplyMode t = s := by simp [State.plcApplyMode, h]

end

/-! The polling schedule and collection -/

/-- The length of a slot rests on the setting and the band. -/
theorem State.plcSlotMs_onMer (s : State) (t : TileId) (f : Mer → Mer) : (s.onMer t f).plcSlotMs t = s.plcSlotMs t := by
  have hradio : ((s.onMer t f).vol t).radio = (s.vol t).radio := by simp [State.onMer]
  unfold State.plcSlotMs State.plcBand
  rw [hradio]
  rfl

/-- With no change of mode pending a POLLED cycle begins with its schedule filled. -/
theorem pollCycleStart_fills {s y : State} {t : TileId} {n sec at_ total : Nat} (hup : (s.plc t).up = true) (hmode : s.rd Reg.plc_mode_now t = 1)
    (hn : s.rd Reg.plc_poll_cycle_s t = n) (hn1 : 1 ≤ n) (hdue : s.gridDue t n (s.vol t).mer.pollSec = some sec)
    (hat : at_ = (if sec = s.timeSec t then s.now - (s.timeNs t % 1000000000).toNat else s.now)) (hpend : (s.plc t).pend = none)
    (htotal : total = n * 1000 / s.plcSlotMs t)
    (hy : y = (s.onMer t fun m => { m with pollSec := sec }).onPlc t fun p => { p with joinEvery := 1000 / max (s.rd Reg.plc_join_share t) 1, cycleS := n }) :
    pollCycleStart t s = (y.onPlc t fun p =>
      { p with cycle := some (at_, total, s.plcSlotMs t * 1000000, sec), sched := (y.fillSlots t total).1, overrun := false, taken := [], push := 0 }).plcOverrun
        t (y.fillSlots t total).2 := by
  have hmax : max n 1 = n := Nat.max_eq_left hn1
  subst hy htotal hat
  unfold pollCycleStart
  simp only [hn, hmax, hdue, State.plcApplyMode_none hpend, State.plcSlotMs_onMer]
  simp [hup, hpend, hmode, State.onMer]

section
variable {s : State} {t : TileId} {slot : Nat} {q : Nat × Nat × Bool}

/-- The meter can be asked at all: PATH 0 of a tile that provides time, ENROLLED with a short address and an interval. -/
structure State.plcAskable (s : State) (t : TileId) (slot : Nat) : Prop where
  up : (s.plc t).up = true
  time : s.hasTime t = true
  state : (s.meter t slot).state = 1
  path : (s.meter t slot).path = 0
  short : (s.meter t slot).shortAddr ≠ 0xFFFF
  idur : (s.meter t slot).idur ≠ 0

theorem collectionRequest_late (h : s.plcAskable t slot) (hmode : s.rd Reg.plc_mode_now t = 0)
    (hlate : (s.meter t slot).lastTend + (s.meter t slot).idur + s.rd Reg.plc_pull_after_s t ≤ s.timeSec t)
    (hq : s.collectWhat t (s.plc t).collect slot (s.rd Reg.plc_rows_per_request t) (decide (s.rd Reg.plc_fill_holes t = 1)) true false = some q) :
    collectionRequest t slot s = (s.collectSend t 3 slot (s.plc t).collect q).1.onPlc t fun p =>
      { p with collect := (s.collectSend t 3 slot (s.plc t).collect q).2 } := by
  obtain ⟨hup, htime, hst, hpath, hshort, hidur⟩ := h
  simp [collectionRequest, hup, htime, hst, hpath, hshort, hidur, hmode, hlate, hq]

theorem collectionRequest_inSlot (h : s.plcAskable t slot) (hmode : s.rd Reg.plc_mode_now t = 1) (hdue : s.plcDue t (s.meter t slot) = true)
    (hslot : ((s.plc t).sched.any fun e => decide (e.2.2 = slot) && (s.plcSlot t).any fun j => decide (e.1 ≤ j)) = true)
    (hq : s.collectWhat t (s.plc t).collect slot (s.rd Reg.plc_rows_per_request t) (decide (s.rd Reg.plc_fill_holes t = 1)) true false = some q) :
    collectionRequest t slot s = (s.collectSend t 3 slot (s.plc t).collect q).1.onPlc t fun p =>
      { p with collect := (s.collectSend t 3 slot (s.plc t).collect q).2 } := by
  obtain ⟨hup, htime, hst, hpath, hshort, hidur⟩ := h
  unfold collectionRequest
  simp only [hup, htime, hst, hpath, hshort, hidur, hmode, hdue, Bool.and_true, hslot]
  simp [hq]

end

/-! The cycle beacon -/

/-- A beacon goes out under the next number; `place` gives the join slot that it leaves noted. -/
def State.beaconOut (s : State) (t : TileId) (place : Plc → Option (Nat × Nat)) : State :=
  let x := (s.wr Reg.plc_beacon_seq t ((s.rd Reg.plc_beacon_seq t + 1) % 256)).onPlc t fun p => { p with beaconAt := some s.now, beaconSlot := place p }
  x.plcQueue t 0xFFFF 0xE5 (x.beaconBody t)

theorem State.rd_done_beaconOut (r s : State) (t : TileId) (place : Plc → Option (Nat × Nat)) :
    (r.done (s.beaconOut t place)).rd Reg.plc_beacon_seq t = (s.rd Reg.plc_beacon_seq t + 1) % 256 := by
  rw [State.rd_done _ _ _ _ _ (by decide), State.beaconOut, (QueueOnly.plcQueue t _ _ _ _).rd, State.rd_onPlc, State.rd_wr_self]
  exact Nat.mod_mod _ _

theorem State.plc_beaconOut (s : State) (t : TileId) (place : Plc → Option (Nat × Nat)) :
    ((s.beaconOut t place).plc t).beaconAt = some s.now ∧ ((s.beaconOut t place).plc t).beaconSlot = place (s.plc t) := by
  simp [State.beaconOut, State.plcQueue]

theorem State.txq_beaconOut (s : State) (t : TileId) (place : Plc → Option (Nat × Nat)) :
    (((s.beaconOut t place).plc t).txq.getLast?.map fun q => (q.dst, q.cmd)) = some (0xFFFF, 0xE5) := State.txq_last_plcQueue _ _ _ _ _

@[simp] theorem State.out_beaconOut (s : State) (t : TileId) (place : Plc → Option (Nat × Nat)) : (s.beaconOut t place).out = s.out := rfl

section
variable {s : State} {t : TileId}

/-- In BEACON mode a beacon goes out when none has, or the period has passed. -/
theorem cycleBeacon_period (hup : (s.plc t).up = true) (hmode : s.rd Reg.plc_mode_now t = 0)
    (hdue : ((s.plc t).beaconAt.any fun a => decide (s.now < a + s.rd Reg.plc_beacon_period_s t * 1000000000)) = false) (hpend : (s.plc t).pend = none) :
    cycleBeacon t s = s.beaconOut t Plc.beaconSlot := by
  unfold cycleBeacon
  simp only [State.plcApplyMode_none hpend, hup, hmode, hdue, hpend]
  simp [State.beaconOut, State.onPlc]

/-- In POLLED mode a beacon goes out once for each join slot. -/
theorem cycleBeacon_joinSlot {c : Nat × Nat × Nat × Nat} {j : Nat} (hup : (s.plc t).up = true) (hmode : s.rd Reg.plc_mode_now t = 1)
    (hc : (s.plc t).cycle = some c) (hj : s.plcSlot t = some j) (hjoin : s.joinSlot t j = true) (hnew : (s.plc t).beaconSlot ≠ some (c.2.2.2, j)) :
    cycleBeacon t s = s.beaconOut t fun _ => some (c.2.2.2, j) := by
  unfold cycleBeacon
  simp only [hup, hmode, hc, hj, hjoin]
  simp [State.beaconOut, hnew]

end

/-! The phase query and the routes -/

theorem phaseQuery_next {s : State} {t : TileId} (hup : (s.plc t).up = true) (ht : (s.plc t).queryAt ≤ s.now) :
    ((phaseQuery t s).plc t).queryAt = s.now + s.rd Reg.plc_phase_query_h t * 3600 * 1000000000 ∧ (phaseQuery t s).regs = s.regs ∧
      (phaseQuery t s).out = s.out := by
  have hgo : ¬(!(s.plc t).up ∨ s.now < (s.plc t).queryAt) := by simp [hup, ht]
  unfold phaseQuery
  rw [if_neg hgo]
  have hq := QueueOnly.foldl (t := t) ((((s.plc t).routes.flatMap fun e => e.2).eraseDups).filter fun d =>
    (Tbl.get (s.plc t).caps d).any fun c => bit c.caps 2) (fun s d => s.plcQueue t d 0xE3 []) (fun y d => .plcQueue t y d _ _) s
  exact ⟨by simp [hq.now, hq.rd], hq.regs, hq.out⟩

/-- What a change of the routes in use leaves: when they are next formed, the joined devices, the links, every value and what was put out. -/
def State.besideRoutes (s : State) (t : TileId) : Nat × Tbl Nat × List (Nat × Nat × PLink) × Tbl Val × List Out :=
  ((s.plc t).routeAt, (s.plc t).joined, (s.plc t).links, s.regs, s.out)

theorem State.besideRoutes_onPlc (s : State) (t : TileId) (f : Plc → Plc)
    (hf : ∀ p, (f p).routeAt = p.routeAt ∧ (f p).joined = p.joined ∧ (f p).links = p.links) : (s.onPlc t f).besideRoutes t = s.besideRoutes t := by
  simp [State.besideRoutes, hf]

theorem State.besideRoutes_plcQueue (s : State) (t : TileId) (dst cmd : Nat) (body : Bytes) :
    (s.plcQueue t dst cmd body).besideRoutes t = s.besideRoutes t := State.besideRoutes_onPlc s t _ fun _ => ⟨rfl, rfl, rfl⟩

theorem State.besideRoutes_setRoute (s : State) (t : TileId) (path : List Nat) : (s.setRoute t path).besideRoutes t = s.besideRoutes t := by
  unfold State.setRoute
  split
  · split
    · rfl
    · unfold State.routesToBalance
      rw [State.besideRoutes_onPlc _ _ _ fun _ => by exact ⟨rfl, rfl, rfl⟩, State.besideRoutes_onPlc _ _ _ fun _ => by exact ⟨rfl, rfl, rfl⟩]
  · rfl

theorem routeRecompute_keeps {s : State} {t : TileId} (hup : (s.plc t).up = true) (ht : (s.plc t).routeAt + 600 * 1000000000 ≤ s.now) :
    (routeRecompute t s).besideRoutes t = (s.now, (s.plc t).joined, (s.plc t).links, s.regs, s.out) := by
  have hgo : ¬(!(s.plc t).up ∨ s.now < (s.plc t).routeAt + 600 * 1000000000) := by simp [hup]; omega
  unfold routeRecompute
  rw [if_neg hgo]
  refine (State.each_keeps (fun x => x.besideRoutes t) _ _ _ fun x d => ?_).trans (by simp [State.besideRoutes])
  dsimp only
  split
  · split
    · refine (State.each_keeps (fun x => x.besideRoutes t) _ _ _ fun y l => ?_).trans ?_
      · split
        · exact State.besideRoutes_plcQueue _ _ _ _ _
        · rfl
      · rw [State.besideRoutes_onPlc _ _ _ fun _ => by exact ⟨rfl, rfl, rfl⟩, State.besideRoutes_setRoute]
    · rfl
  · rfl

/-- Settles O34: joining, the mode, the polling cycle, collection, the beacon, the routes and the phase query. -/
theorem plcNetwork : Obligations.PlcNetwork := by
  refine ⟨fun s y t eui midx psk hup hmode hm hst hpath hpsk hroom hnew => ?_, fun s t hup => ?_,
    fun s y t n sec at_ total hup hmode hn hn1 hdue hat hpend htotal hy => ?_, fun s t slot q hup htime hmode hst hpath hshort hidur hlate hq => ?_,
    fun s t hup hmode hnone hpend => ?_, fun s t hup ht => ?_, fun s t hup ht => ⟨_, exec_phaseQuery t s, ?_⟩, fun s t eui b hup hmode hm hr => ?_,
    fun s t slot q hup htime hmode hst hpath hshort hidur hdue hslot hq => ?_, fun s t a hup hmode ha hpassed hpend => ?_,
    fun s t c j hup hmode hc hj hjoin hnew => ?_⟩
  · rw [exec_join, plcJoin_admitted hup hmode hm hst hpath hpsk hroom hnew]
  · rw [exec_plcModeSwitch, plcModeSwitch_notes hup]
    exact ⟨_, rfl, by simp, by simp, State.done_regs _ _ rfl, State.done_out _ _⟩
  · rw [exec_pollCycleStart, pollCycleStart_fills hup hmode hn hn1 hdue hat hpend htotal hy]
  · rw [exec_collectionRequest, collectionRequest_late ⟨hup, htime, hst, hpath, hshort, hidur⟩ hmode hlate hq]
  · rw [exec_cycleBeacon, cycleBeacon_period hup hmode (by simp [hnone]) hpend]
    exact ⟨_, rfl, State.rd_done_beaconOut _ _ _ _, by simp [State.plc_beaconOut], by simp [State.txq_beaconOut], by simp⟩
  · have hk := routeRecompute_keeps hup ht
    simp only [State.besideRoutes, Prod.mk.injEq] at hk
    obtain ⟨hat, hjoined, hlinks, hregs, hout⟩ := hk
    exact ⟨_, exec_routeRecompute t s, by simpa using hat, by simpa using hjoined, by simpa using hlinks, State.done_regs _ _ hregs, by simpa using hout⟩
  · obtain ⟨hat, hregs, hout⟩ := phaseQuery_next hup ht
    exact ⟨by simpa using hat, State.done_regs _ _ hregs, by simpa using hout⟩
  · rw [exec_join, plcJoin_refused hup hmode hm hr]
  · rw [exec_collectionRequest, collectionRequest_inSlot ⟨hup, htime, hst, hpath, hshort, hidur⟩ hmode hdue hslot hq]
  · rw [exec_cycleBeacon, cycleBeacon_period hup hmode (by rw [ha, Option.any_some, decide_eq_false_iff_not]; exact Nat.not_lt.mpr hpassed) hpend]
    exact ⟨_, rfl, State.rd_done_beaconOut _ _ _ _, by simp [State.plc_beaconOut], by simp [State.txq_beaconOut], by simp⟩
  · rw [exec_cycleBeacon, cycleBeacon_joinSlot hup hmode hc hj hjoin hnew]
    exact ⟨_, rfl, State.rd_done_beaconOut _ _ _ _, by simp [State.plc_beaconOut], by simp [State.txq_beaconOut], by simp⟩

end Sys2Proof.Machine

namespace Sys2Proof.Machine

/-! ### The slotted tone-map extension (R315, R319, R322, R323, R329) -/

theorem exec_cap (t : TileId) (p : PlcPhy) (b : Bytes) (s : State) : exec (.cap t p b) s = .next (s.done (cap t p b s)) := rfl
theorem exec_mapReq (t : TileId) (p : PlcPhy) (b : Bytes) (s : State) : exec (.mapReq t p b) s = .next (s.done (mapReq t p b s)) := rfl
theorem exec_mapRsp (t : TileId) (p : PlcPhy) (b : Bytes) (s : State) : exec (.mapRsp t p b) s = .next (s.done (mapRsp t p b s)) := rfl
theorem exec_mapRefresh (t : TileId) (a : Nat) (s : State) : exec (.mapRefresh t a) s = .next (s.done (mapRefresh t a s)) := rfl
theorem exec_neighReport (t : TileId) (p : PlcPhy) (b : Bytes) (s : State) : exec (.neighReport t p b) s = .next (s.done (neighReport t p b s)) := rfl

/-- A MAC command that the receiver decodes acts on its payload, for the device that sent it. -/
theorem State.plcCommand_received {s y : State} {t : TileId} {p : PlcPhy} {a : Nat} (h : s.plcRx t p = (y, true)) (ha : p.path.headD 0xFFFF = a)
    (f : State → Nat → State) : s.plcCommand t p f = f y a := by
  simp only [State.plcCommand, h, ha]
  rfl

/-! Capabilities -/

/-- The capabilities that a CAP states (R315). -/
def capOf (b : Bytes) : PCap := { caps := fld b 1 1 % 8, maxMaps := fld b 2 1, bands := fld b 3 1 % 4, epoch := fld b 4 1, zc := bit (fld b 5 1) 0 }

/-- A neighbour's capabilities are noted, and the neighbours with the extension counted. -/
def State.capNoted (s : State) (t : TileId) (a : Nat) (c : PCap) : State :=
  let x := s.onPlc t fun p => { p with caps := Tbl.put p.caps a c }
  x.wr Reg.plc_ext_peers t ((x.plc t).caps.countP fun e => bit e.2.caps 0)

/-- A neighbour whose map sets are all dropped. -/
def PNeigh.noMaps (n : PNeigh) : PNeigh := { n with tx := none, asked := false, rxCur := none, rxPrev := none, dropAt := none, rxCap := [] }

@[simp] theorem State.plc_capNoted (s : State) (t : TileId) (a : Nat) (c : PCap) :
    (s.capNoted t a c).plc t = { s.plc t with caps := Tbl.put (s.plc t).caps a c } := by
  simp [State.capNoted]
@[simp] theorem State.out_capNoted (s : State) (t : TileId) (a : Nat) (c : PCap) : (s.capNoted t a c).out = s.out := rfl

section
variable {s y : State} {t : TileId} {p : PlcPhy} {a : Nat} {b : Bytes}

theorem cap_unknown (h : s.plcRx t p = (y, true)) (ha : p.path.headD 0xFFFF = a) (hl : b.length = 8) (hv : fld b 0 1 = 1)
    (hn : Tbl.get (y.plc t).caps a = none) : cap t p b s = (y.capNoted t a (capOf b)).sendCap t a := by
  have hform : ¬(b.length ≠ 8 ∨ fld b 0 1 ≠ 1) := by simp [hl, hv]
  rw [cap, State.plcCommand_received h ha]
  simp only [if_neg hform, hn]
  rfl

theorem cap_sameEpoch {o : PCap} (h : s.plcRx t p = (y, true)) (ha : p.path.headD 0xFFFF = a) (hl : b.length = 8) (hv : fld b 0 1 = 1)
    (ho : Tbl.get (y.plc t).caps a = some o) (he : o.epoch = fld b 4 1) : cap t p b s = y.capNoted t a (capOf b) := by
  have hform : ¬(b.length ≠ 8 ∨ fld b 0 1 ≠ 1) := by simp [hl, hv]
  rw [cap, State.plcCommand_received h ha]
  simp only [if_neg hform, ho, if_pos he]
  rfl

theorem cap_newEpoch {o : PCap} (h : s.plcRx t p = (y, true)) (ha : p.path.headD 0xFFFF = a) (hl : b.length = 8) (hv : fld b 0 1 = 1)
    (ho : Tbl.get (y.plc t).caps a = some o) (he : o.epoch ≠ fld b 4 1) :
    cap t p b s = (((y.capNoted t a (capOf b)).recodeFor t a).onNeigh t a PNeigh.noMaps).sendCap t a := by
  have hform : ¬(b.length ≠ 8 ∨ fld b 0 1 ≠ 1) := by simp [hl, hv]
  rw [cap, State.plcCommand_received h ha]
  simp only [if_neg hform, ho, if_neg he]
  rfl

end

theorem State.txq_last_sendCap (s : State) (t : TileId) (a : Nat) :
    (((s.sendCap t a).plc t).txq.getLast?.map fun q => (q.dst, q.cmd)) = some (a, 0xE0) := State.txq_last_plcQueue _ _ _ _ _
@[simp] theorem State.caps_sendCap (s : State) (t : TileId) (a : Nat) : ((s.sendCap t a).plc t).caps = (s.plc t).caps := by
  simp [State.sendCap, State.plcQueue]
@[simp] theorem State.neigh_sendCap (s : State) (t : TileId) (a : Nat) : ((s.sendCap t a).plc t).neigh = (s.plc t).neigh := by
  simp [State.sendCap, State.plcQueue]
@[simp] theorem State.out_sendCap (s : State) (t : TileId) (a : Nat) : (s.sendCap t a).out = s.out := rfl

/-- The map sets of a neighbour in a new epoch, of which the frames that wait for it are coded again. -/
theorem State.neigh_recodeFor_noMaps {s : State} {t : TileId} {a : Nat} {n : PNeigh} (h : Tbl.get (s.plc t).neigh a = some n) :
    Tbl.get (((s.recodeFor t a).onNeigh t a PNeigh.noMaps).plc t).neigh a = some n.noMaps :=
  State.neigh_onNeigh _ (by simpa [State.recodeFor] using h)

/-! Maps -/

section
variable {s y : State} {t : TileId} {p : PlcPhy} {a : Nat} {b : Bytes} {n : PNeigh}

/-- A well-formed MAP_REQ of a known neighbour is answered with the set in force, or with a first one. -/
theorem mapReq_answers (h : s.plcRx t p = (y, true)) (ha : p.path.headD 0xFFFF = a) (hl : b.length = 2) (hv : fld b 0 1 = 1)
    (hen : y.rd Reg.plc_ext_enable t ≠ 0) (hn : Tbl.get (y.plc t).neigh a = some n) :
    mapReq t p b s = if n.rxCur.isSome then y.sendMaps t a
      else y.giveMaps t a (y.formMaps t n (((Tbl.get (y.plc t).caps a).map PCap.maxMaps).getD 1)) := by
  have hform : ¬(b.length ≠ 2 ∨ fld b 0 1 ≠ 1 ∨ y.rd Reg.plc_ext_enable t = 0) := by simp [hl, hv, hen]
  rw [mapReq, State.plcCommand_received h ha]
  simp only [if_neg hform, hn]

theorem mapRsp_taken {m : MapSet} (h : s.plcRx t p = (y, true)) (ha : p.path.headD 0xFFFF = a) (hm : mapRspOf (y.plcBand t) 6 b = some m) :
    mapRsp t p b s = y.onNeigh t a fun n => { n with tx := some m, asked := false } := by
  rw [mapRsp, State.plcCommand_received h ha]
  simp only [hm]

theorem mapRsp_bad (h : s.plcRx t p = (y, true)) (hm : mapRspOf (y.plcBand t) 6 b = none) : mapRsp t p b s = y.bump Reg.plc_map_rsp_bad t := by
  rw [mapRsp, State.plcCommand_received h rfl]
  simp only [hm]

/-- A neighbour that can use maps gets new ones when it has none, or the refresh time has passed. -/
theorem mapRefresh_gives {c : PCap} (hup : (s.plc t).up = true) (hn : Tbl.get (s.plc t).neigh a = some n) (hc : Tbl.get (s.plc t).caps a = some c)
    (hslot : bit c.caps 0 = true) (hband : bit c.bands (s.plcBand t) = true) (hen : s.rd Reg.plc_ext_enable t ≠ 0) (hsnr : n.snr ≠ [])
    (hdue : n.rxCur = none ∨ n.rxAt + s.rd Reg.plc_map_refresh_s t * 1000000000 ≤ s.now) :
    mapRefresh t a s = s.giveMaps t a (s.formMaps t n c.maxMaps) := by
  have hcan : ¬(!(s.plc t).up ∨ !bit c.caps 0 ∨ !bit c.bands (s.plcBand t) ∨ s.rd Reg.plc_ext_enable t = 0 ∨ n.snr = []) := by
    simp [hup, hslot, hband, hen, hsnr]
  unfold mapRefresh
  simp only [hn, hc, if_neg hcan]
  refine if_pos ?_
  rcases hdue with h | h
  · exact .inl (by simp [h])
  · exact .inr (.inr h)

end

/-! Reports -/

/-- The link that an entry of a report from `a` states (R329). -/
def reportLink (a : Nat) (e : Bytes) : Nat × Nat × PLink :=
  (fld e 0 2, a, { cost := fld e 2 1, rbar := fld e 3 1, theta := if fld e 4 2 = 0xFFFF then 0xFFFF else fld e 4 2 % 4096, nfr := fld e 6 1 })

/-- Judging a meter's phase leaves the links and puts nothing out. -/
theorem State.phaseJudge_leaves (s : State) (t : TileId) (short : Nat) :
    ((s.phaseJudge t short).plc t).links = (s.plc t).links ∧ (s.phaseJudge t short).out = s.out := by
  unfold State.phaseJudge
  split
  case h_1 =>
    dsimp only
    split
    · split
      · split <;> simp
      · exact ⟨rfl, rfl⟩
    · split <;> simp
  case h_2 => exact ⟨rfl, rfl⟩

theorem State.phaseAll_leaves (s : State) (t : TileId) (dev : Nat) :
    ((s.phaseAll t dev).plc t).links = (s.plc t).links ∧ (s.phaseAll t dev).out = s.out :=
  Prod.mk.inj (State.each_keeps (fun x => ((x.plc t).links, x.out)) _ (fun s (e : Nat × List Nat) => s.phaseJudge t e.1) s fun x e =>
    Prod.ext (x.phaseJudge_leaves t e.1).1 (x.phaseJudge_leaves t e.1).2)

section
variable {s y : State} {t : TileId} {p : PlcPhy} {a : Nat}

theorem neighReport_asked {e : Nat × PNeigh} {l : Tbl PNeigh} (h : s.plcRx t p = (y, true)) (ha : p.path.headD 0xFFFF = a)
    (hn : (y.plc t).neigh = e :: l) : neighReport t p [] s = y.plcQueue t a 0xE3 (y.ownReport t) := by
  rw [neighReport, State.plcCommand_received h ha]
  simp [hn]

theorem neighReport_notes {b : Bytes} (h : s.plcRx t p = (y, true)) (ha : p.path.headD 0xFFFF = a) (hv : fld b 0 1 = 1) (h1 : 1 ≤ fld b 1 1)
    (h16 : fld b 1 1 ≤ 16) (hl : b.length = 2 + 8 * fld b 1 1) :
    (neighReport t p b s).out = y.out ∧ ∀ i < fld b 1 1, reportLink a ((b.drop (2 + 8 * i)).take 8) ∈ ((neighReport t p b s).plc t).links := by
  have hne : b ≠ [] := by rintro rfl; rw [List.length_nil] at hl; omega
  have hform : ¬(fld b 0 1 ≠ 1 ∨ fld b 1 1 < 1 ∨ 16 < fld b 1 1 ∨ b.length ≠ 2 + 8 * fld b 1 1) := by omega
  rw [neighReport, State.plcCommand_received h ha]
  simp only [if_neg hne, if_neg hform]
  refine ⟨(State.phaseAll_leaves _ _ _).2, fun i hi => ?_⟩
  rw [(State.phaseAll_leaves _ _ _).1, State.plc_onPlc]
  exact List.mem_append_right _ (List.mem_map.mpr ⟨i, List.mem_range.mpr hi, rfl⟩)

/-- The same for a report written out: version, number of entries, entries. -/
theorem neighReport_entries {n : Nat} {e : Bytes} (h : s.plcRx t p = (y, true)) (ha : p.path.headD 0xFFFF = a) (h1 : 1 ≤ n) (h16 : n ≤ 16)
    (hl : e.length = 8 * n) :
    (neighReport t p (1 :: (natLE 1 n ++ e)) s).out = y.out ∧
      ∀ i < n, reportLink a ((e.drop (8 * i)).take 8) ∈ ((neighReport t p (1 :: (natLE 1 n ++ e)) s).plc t).links := by
  have hv : fld (1 :: (natLE 1 n ++ e)) 0 1 = 1 := by simp [fld, leNat]
  have hn : fld (1 :: (natLE 1 n ++ e)) 1 1 = n := by
    simp only [fld, natLE, leNat, List.drop_succ_cons, List.drop_zero, List.cons_append, List.take_succ_cons, List.take_zero, BitVec.toNat_ofNat]
    omega
  have hb : (1 :: (natLE 1 n ++ e) : Bytes).length = 2 + 8 * n := by simp [natLE, hl]; omega
  obtain ⟨hout, hlinks⟩ := neighReport_notes h ha hv (by omega) (by omega) (by rw [hb, hn])
  refine ⟨hout, fun i hi => ?_⟩
  have hdrop : (1 :: (natLE 1 n ++ e) : Bytes).drop (2 + 8 * i) = e.drop (8 * i) := by
    rw [Nat.add_comm]
    rfl
  rw [← hdrop]
  exact hlinks i (by omega)

end

/-- Settles O35: capabilities, maps and reports, as the neighbours send them. -/
theorem plcExtension : Obligations.PlcExtension := by
  refine ⟨fun s y t p a b h ha hl hv hn => ?_, fun s y t p a n m b h ha hl hv hen hn hm => ?_, fun s y t p a n m b h ha hm hn => ?_,
    fun s t a n c hup hn hc hslot hband hen hsnr hnone => ?_, fun s y t p a n l h ha hn => ?_, fun s y t p a e h ha hl => ?_,
    fun s y t p a o b h ha hl hv ho he => ?_, fun s y t p a o n b h ha hl hv ho he hn => ?_, fun s y t p a n b h ha hl hv hen hn hnone => ?_,
    fun s y t p b h hm => ?_, fun s t a n c hup hn hc hslot hband hen hsnr hdue => ?_, fun s y t p n e h h1 h16 hl => ?_⟩
  · rw [exec_cap, cap_unknown h ha hl hv hn]
    exact ⟨_, rfl, by simp, by simp [State.txq_last_sendCap], by simp [capOf]⟩
  · rw [exec_mapReq, mapReq_answers h ha hl hv hen hn, if_pos (by simp [hm])]
  · rw [exec_mapRsp, mapRsp_taken h ha hm]
    exact ⟨_, rfl, by rw [State.plc_done, State.neigh_onNeigh _ hn], State.done_out _ _⟩
  · rw [exec_mapRefresh, mapRefresh_gives hup hn hc hslot hband hen hsnr (.inl hnone)]
  · rw [exec_neighReport, neighReport_asked h ha hn]
  · obtain ⟨hout, hlinks⟩ := neighReport_entries (n := 1) h ha (Nat.le_refl 1) (by omega) hl
    have hlink := hlinks 0 Nat.zero_lt_one
    rw [Nat.mul_zero, List.drop_zero, List.take_of_length_le (Nat.le_of_eq hl)] at hlink
    exact ⟨_, exec_neighReport t p _ s, by rw [State.done_out]; exact hout, by rw [State.plc_done]; exact hlink⟩
  · rw [exec_cap, cap_sameEpoch h ha hl hv ho he]
    exact ⟨_, rfl, by simp, by simp, by simp, by simp [capOf]⟩
  · rw [exec_cap, cap_newEpoch h ha hl hv ho he]
    refine ⟨_, rfl, State.done_out _ _, by simp [State.txq_last_sendCap], ?_⟩
    rw [State.plc_done, State.neigh_sendCap, State.neigh_recodeFor_noMaps (n := n) (by simpa using hn)]
    rfl
  · rw [exec_mapReq, mapReq_answers h ha hl hv hen hn, if_neg (by simp [hnone])]
  · rw [exec_mapRsp, mapRsp_bad h hm]
  · rw [exec_mapRefresh, mapRefresh_gives hup hn hc hslot hband hen hsnr (.inr hdue)]
  · obtain ⟨hout, hlinks⟩ := neighReport_entries h rfl h1 h16 hl
    exact ⟨_, exec_neighReport t p _ s, by rw [State.done_out]; exact hout, fun i hi => ⟨_, rfl, by rw [State.plc_done]; exact hlinks i hi⟩⟩

end Sys2Proof.Machine

namespace Sys2Proof.Machine

/-! ### The radio (R346, R353, R355, R357, R359, R360) -/

@[simp] theorem State.rf_onRf (s : State) (t : TileId) (f : Rf → Rf) : (s.onRf t f).rf t = f (s.rf t) := by simp [State.onRf, State.rf]
@[simp] theorem State.rf_bump (s : State) (e : Entry) (n i k : Nat) (t : TileId) : (s.bump e n i k).rf t = s.rf t := rfl
@[simp] theorem State.rf_mirror (s : State) (t u : TileId) (x : MItem) (n : Nat) : (s.mirror t x n).rf u = s.rf u := by simp [State.rf]
@[simp] theorem State.rf_done (s x : State) (t : TileId) : (s.done x).rf t = x.rf t := by simp [State.rf]
@[simp] theorem State.out_onRf (s : State) (t : TileId) (f : Rf → Rf) : (s.onRf t f).out = s.out := rfl
@[simp] theorem State.neigh_onRNeigh (s : State) (t : TileId) (k : Nat) (f : RNeigh → RNeigh) :
    Tbl.get ((s.onRNeigh t k f).rf t).neigh k = some (f (s.rfNeigh t k)) := by simp [State.onRNeigh]

theorem exec_rfFrameRx (t : TileId) (ch : Nat) (rssi : Int) (psdu : Bytes) (s : State) :
    exec (.rfFrameRx t ch rssi psdu) s = .next (s.done (rfFrameRx t ch rssi psdu s)) := rfl
theorem exec_rfPoll (t : TileId) (ch : Nat) (rssi : Int) (psdu : Bytes) (s : State) :
    exec (.rfPoll t ch rssi psdu) s = .next (s.done (rfPoll t ch rssi psdu s)) := rfl
theorem exec_rfDownlink (t : TileId) (fail : Bool) (s : State) : exec (.rfDownlink t fail) s = .next (s.done (rfDownlink t fail s)) := rfl
theorem exec_pendingExpire (t : TileId) (slot : Nat) (s : State) : exec (.pendingExpire t slot) s = .next (s.done (pendingExpire t slot s)) := rfl
theorem exec_rfCollection (t : TileId) (slot : Nat) (s : State) : exec (.rfCollection t slot) s = .next (s.done (rfCollection t slot s)) := rfl
theorem exec_dutyBucket (t : TileId) (s : State) : exec (.dutyBucket t) s = .next (s.done (dutyBucket t s)) := rfl
theorem exec_dwellBucket (t : TileId) (ch : Nat) (s : State) : exec (.dwellBucket t ch) s = .next (s.done (dwellBucket t ch s)) := rfl

/-! Frames that are received -/

/-- The neighbour entry of a meter in service shows the channel and the RSSI of its newest frame (R351). -/
def State.rfHeard (s : State) (t : TileId) (ch : Nat) (rssi : Int) (src : Nat) : State :=
  match s.rfMeter t src with
  | some i => s.onRNeigh t i fun n => { n with chan := ch, rssi := rssi }
  | none => s

/-- A data frame is noted and, when it asks for it, acknowledged (R346, R351). -/
def State.rfDataTaken (s : State) (t : TileId) (ch : Nat) (rssi : Int) (m : RfIn) : State :=
  if m.ar && !m.bcast then (s.rfHeard t ch rssi m.src).rfAck t ch m.seq else s.rfHeard t ch rssi m.src

/-- The frame that a data frame of the air gives Gather (R347); its ARRIVAL is the end of its SFD. -/
def State.rfFrame (s : State) (t : TileId) (psdu : Bytes) (m : RfIn) : Frame :=
  { source := 4, addrKind := 1, satId := 0xFFFF, forceOld := false, rfSecured := m.sec, entry := 0, addr := m.src
    arrival := s.whenNs t - (2 + psdu.length) * 8 * 1000000000 / rfBitRate (s.vol t).radio.rate, envSeq := 0
    aad := if m.sec then m.mhr else [], apdu := m.body, env := 0 }

theorem State.rfHeard_unknown {s : State} {t : TileId} {src : Nat} (h : s.rfMeter t src = none) (ch : Nat) (rssi : Int) :
    s.rfHeard t ch rssi src = s := by
  simp [State.rfHeard, h]

/-- A stranger's frame without AR leaves the transceiver as it is. -/
theorem State.rfDataTaken_unknown {s : State} {t : TileId} {m : RfIn} (har : m.ar = false) (h : s.rfMeter t m.src = none) (ch : Nat) (rssi : Int) :
    s.rfDataTaken t ch rssi m = s := by
  simp [State.rfDataTaken, har, State.rfHeard_unknown h]

section
variable {s y z : State} {t : TileId} {ch : Nat} {rssi : Int} {psdu : Bytes} {m : RfIn}

theorem rfFrameRx_acknowledged {until_ slot : Nat} {p : RPend} (h : s.rfRx t ch psdu = (y, some m)) (hm : m.type = 2)
    (hw : (y.rf t).wait = some (m.seq, until_, slot, p)) (hu : y.now ≤ until_) :
    rfFrameRx t ch rssi psdu s = y.onRf t fun r => { r with wait := none, sendq := r.sendq.erase (slot, p) } := by
  simp [rfFrameRx, h, hm, hw, hu]

theorem rfFrameRx_data (h : s.rfRx t ch psdu = (y, some m)) (hm : m.type = 1) (hz : z = y.rfDataTaken t ch rssi m) :
    rfFrameRx t ch rssi psdu s = if z.isEphRsp t (z.rfFrame t psdu m) then z.swSend t 4 6 1 (.eph (z.rfFrame t psdu m))
      else ((z.swCount t 4 2 m.body m.body.length).toGather t 4 m.body.length [z.rfFrame t psdu m]).1 := by
  subst hz
  simp only [rfFrameRx, h, hm]
  rfl

theorem rfPoll_accepted {slot fc : Nat} (h : s.rfRx t ch psdu = (y, some m)) (hm : m.type = 3) (hc : y.pollCheck t m = (z, some (slot, fc))) :
    rfPoll t ch rssi psdu s =
      ((z.onRNeigh t slot fun n => { n with chan := ch, rssi := rssi, pollAt := some z.now, phw := fc }).bump Reg.rf_polls t).pollAnswer t ch slot := by
  simp [rfPoll, h, hm, hc]

theorem rfPoll_refused (h : s.rfRx t ch psdu = (y, some m)) (hm : m.type = 3) (hc : y.pollCheck t m = (z, none)) :
    rfPoll t ch rssi psdu s = z.bump Reg.rf_poll_refused t := by
  simp [rfPoll, h, hm, hc]

end

/-! The send queue (R355) -/

/-- A wait for an acknowledgement that has run out is one attempt that failed. -/
def State.rfWaited (s : State) (t : TileId) : State :=
  match (s.rf t).wait with
  | some (_, until_, slot, p) => if until_ < s.now then s.rfRetry t slot p else s
  | none => s

theorem State.rfWaited_idle {s : State} {t : TileId} (h : (s.rf t).wait = none) : s.rfWaited t = s := by simp [State.rfWaited, h]

/-- An item of the send queue goes on the air, or has used up an attempt when its channel could not be accessed. -/
def State.rfSend (s : State) (t : TileId) (fail : Bool) (slot : Nat) (p : RPend) : State :=
  if fail then (s.bump Reg.rf_csma_fail t).rfRetry t slot p
  else
    let d := s.rfData t slot false (decide (slot ≠ 2 ^ 22)) p.apdu
    match d.2 with
    | none => d.1
    | some psdu =>
      (d.1.rfPut t
        { start := s.now + s.rd Reg.rf_pa_lead_us t * 1000 + 20000, air := d.1.rfAir t psdu.length, step := 0, chan := s.rfChannel t slot, psdu := psdu, what := 2,
          slot := slot, item := some p } p.kind).rfAdvance t

/-- A transceiver that neither sends nor waits, on a device with power, turns to its send queue: the holds are marked, and the next item is sent. -/
def State.rfServe (s : State) (t : TileId) (fail : Bool) : State :=
  if (s.rf t).txs ≠ [] ∨ (s.rf t).wait.isSome ∨ s.pier.pfail = true then s
  else
    let z := (s.rf t).sendq.foldl (fun s x => s.markHeld t x) s
    match z.rfNext t with
    | none => z
    | some (slot, p) => z.rfSend t fail slot p

section
variable {s y z d : State} {t : TileId} {slot : Nat} {p : RPend} {psdu : Bytes}

theorem rfDownlink_up (h : (s.rf t).up = true) (fail : Bool) :
    rfDownlink t fail s = (((s.rfAdvance t).rfTake t).rfWaited t).rfServe t fail := by
  have hgo : ¬((!(s.rf t).up) = true) := by simp [h]
  unfold rfDownlink
  rw [if_neg hgo]
  -- as a variable, the state with the new frames taken is compared at no cost
  generalize (s.rfAdvance t).rfTake t = x
  rfl

theorem State.rfServe_chosen (hw : (y.rf t).wait = none) (htx : (y.rf t).txs = []) (hp : y.pier.pfail = false)
    (hz : (y.rf t).sendq.foldl (fun s x => s.markHeld t x) y = z) (hn : z.rfNext t = some (slot, p)) (fail : Bool) :
    y.rfServe t fail = z.rfSend t fail slot p := by
  simp [State.rfServe, hw, htx, hp, hz, hn]

theorem State.rfSend_onAir (h : z.rfData t slot false (decide (slot ≠ 2 ^ 22)) p.apdu = (d, some psdu)) :
    z.rfSend t false slot p = (d.rfPut t
      { start := z.now + z.rd Reg.rf_pa_lead_us t * 1000 + 20000, air := d.rfAir t psdu.length, step := 0, chan := z.rfChannel t slot, psdu := psdu, what := 2,
        slot := slot, item := some p } p.kind).rfAdvance t := by
  simp only [State.rfSend, h]
  rfl

theorem State.rfSend_noAccess (z : State) (t : TileId) (slot : Nat) (p : RPend) :
    z.rfSend t true slot p = (z.bump Reg.rf_csma_fail t).rfRetry t slot p := if_pos rfl

end

/-! Pending items, collection and the buckets -/

section
variable {s : State} {t : TileId} {slot : Nat}

theorem pendingExpire_heard {n : RNeigh} (h : Tbl.get (s.rf t).neigh slot = some n) :
    ∃ k, pendingExpire t slot s = (s.onRNeigh t slot fun n =>
      { n with pend := n.pend.filter fun p => decide (s.now < p.at_ + s.rd Reg.rf_pending_ttl_s t * 1000000000) }).bump Reg.rf_pending_expired t 0 k := by
  have hn : s.rfNeigh t slot = n := by simp [State.rfNeigh, h]
  exact ⟨_, by simp only [pendingExpire, h, State.onRNeigh, hn]; rfl⟩

theorem rfCollection_late {q : Nat × Nat × Bool} (hup : (s.rf t).up = true) (htime : s.hasTime t = true) (hst : (s.meter t slot).state = 1)
    (hpath : (s.meter t slot).path = 1) (hidur : (s.meter t slot).idur ≠ 0)
    (hlate : (s.meter t slot).lastTend + (s.meter t slot).idur + s.rd Reg.rf_pull_after_s t ≤ s.timeSec t)
    (hq : s.collectWhat t (s.rf t).collect slot (s.rd Reg.rf_rows_per_request t) (decide (s.rd Reg.rf_fill_holes t = 1)) true false = some q) :
    rfCollection t slot s = (s.collectSend t 4 slot (s.rf t).collect q).1.onRf t fun p =>
      { p with collect := (s.collectSend t 4 slot (s.rf t).collect q).2 } := by
  simp [rfCollection, hup, htime, hst, hpath, hidur, hlate, hq]

end

/-- The totals of the enabled bands in the buckets of `l` go to the mirror stream (R361). -/
def State.dutyMirrored (s : State) (t : TileId) (l : List Nat) : State :=
  s.each l fun s b => s.each ((List.range 4).filter fun i => (s.rfBand t i).2.2.2) fun s i =>
    s.mirror t (.duty i b ((Tbl.get ((s.rf t).bands.getD i []) b).getD (0, 0)).1 ((Tbl.get ((s.rf t).bands.getD i []) b).getD (0, 0)).2)

theorem State.dutyMirrored_leaves (s : State) (t : TileId) (l : List Nat) :
    (s.dutyMirrored t l).rf t = s.rf t ∧ (s.dutyMirrored t l).out = s.out :=
  Prod.mk.inj (State.each_keeps (fun x => (x.rf t, x.out)) l _ s fun x _ => State.each_keeps (fun x => (x.rf t, x.out)) _ _ x fun _ _ => by simp)

theorem dutyBucket_up {s : State} {t : TileId} (h : (s.rf t).up = true) :
    ∃ l, dutyBucket t s = (s.dutyMirrored t l).onRf t fun r =>
      { r with mirrored := s.rfNow / 10000000000, bands := r.bands.map fun m => m.filter fun x => decide (s.rfNow / 10000000000 < x.1 + 360) } := by
  have hgo : ¬((!(s.rf t).up) = true) := by simp [h]
  exact ⟨_, if_neg hgo⟩

theorem dwellBucket_dwell {s : State} {t : TileId} {ch : Nat} {l : List (Nat × Nat)} (h : Tbl.get (s.rf t).dwell ch = some l) :
    Tbl.get ((dwellBucket t ch s).rf t).dwell ch = some (l.filter fun e => decide (s.rfNow / 100000000 < e.1 + 10 * s.rd Reg.rf_dwell_window_s t)) := by
  simp [dwellBucket, h]

/-- Settles O36: acknowledgements, data frames and polls received, the send queue, expiries and buckets, and the collection of late meters. -/
theorem radioUnit : Obligations.RadioUnit := by
  refine ⟨fun s y t ch rssi psdu m until_ slot p h hm hw hu => ?_, fun s y t ch rssi psdu m f h hm har hno hf he => ?_,
    fun s y z t ch rssi psdu m slot fc h hm hc => ?_, fun s y z d t slot p psdu hup hy hw htx hp hz hn hd => ?_, fun s t slot n h => ?_,
    fun s t slot q hup htime hst hpath hidur hlate hq => ?_, fun s t hup => ?_, fun s t ch l h => ?_, fun s y z t ch rssi psdu m f h hm hz hf => ?_,
    fun s y z t ch rssi psdu m h hm hc => ?_, fun s y z d t slot p psdu hup hy hw htx hp hz hn hd => ?_,
    fun s y z t slot p hup hy hw htx hp hz hn => ?_⟩
  · rw [exec_rfFrameRx, rfFrameRx_acknowledged h hm hw hu]
    exact ⟨_, rfl, by simp, by simp, by simp⟩
  · have hf : f = y.rfFrame t psdu m := hf
    rw [exec_rfFrameRx, rfFrameRx_data h hm (State.rfDataTaken_unknown har hno ch rssi).symm, ← hf, he]
    rfl
  · rw [exec_rfPoll, rfPoll_accepted h hm hc]
  · rw [exec_rfDownlink, rfDownlink_up hup, hy, State.rfWaited_idle hw, State.rfServe_chosen hw htx hp hz hn, State.rfSend_onAir hd]
  · obtain ⟨k, hk⟩ := pendingExpire_heard h
    rw [exec_pendingExpire, hk]
    exact ⟨_, rfl, by rw [State.done_out]; rfl, by simp [State.rfNeigh, h]⟩
  · rw [exec_rfCollection, rfCollection_late hup htime hst hpath hidur hlate hq]
  · obtain ⟨l, hl⟩ := dutyBucket_up hup
    obtain ⟨hrf, hout⟩ := s.dutyMirrored_leaves t l
    rw [exec_dutyBucket, hl]
    exact ⟨_, rfl, by simp, by simp [hrf], by simp [hout]⟩
  · exact ⟨_, exec_dwellBucket t ch s, State.done_regs _ _ rfl, State.done_out _ _, by rw [State.rf_done, dwellBucket_dwell h]⟩
  · have hz : z = y.rfDataTaken t ch rssi m := hz
    have hf : f = z.rfFrame t psdu m := hf
    rw [exec_rfFrameRx, rfFrameRx_data h hm hz, hf]
  · rw [exec_rfPoll, rfPoll_refused h hm hc]
  · have hy : ((s.rfAdvance t).rfTake t).rfWaited t = y := hy.symm
    rw [exec_rfDownlink, rfDownlink_up hup, hy, State.rfServe_chosen hw htx hp hz hn, State.rfSend_onAir hd]
  · rw [exec_rfDownlink, rfDownlink_up hup, hy, State.rfWaited_idle hw, State.rfServe_chosen hw htx hp hz hn, State.rfSend_noAccess]

end Sys2Proof.Machine

namespace Sys2Proof.Machine

/-! ### The switch core as a part of a tile (chapter 11) -/

@[simp] theorem State.sw_onSw (s : State) (t : TileId) (f : Switch → Switch) : (s.onSw t f).sw t = f (s.sw t) := by simp [State.sw]
@[simp] theorem State.sw_bump (s : State) (e : Entry) (n i k : Nat) (t : TileId) : (s.bump e n i k).sw t = s.sw t := rfl
@[simp] theorem State.sw_event (s : State) (t : TileId) (a b x y z : Nat) (u : TileId) : (s.event t a b x y z).sw u = s.sw u := State.event_sw ..
@[simp] theorem State.sw_done (s x : State) (t : TileId) : (s.done x).sw t = x.sw t := congrArg Vol.sw (State.done_vol ..)

/-- A place of a list whose value is not the one read beyond its end stands in the list. -/
theorem lt_length_of_getD {l : List Nat} {i d : Nat} (h : l.getD i d ≠ d) : i < l.length := by
  by_contra hlen
  exact h (List.getD_eq_default _ _ (Nat.le_of_not_lt hlen))

/-- Every output has its place in a list of eight. -/
theorem output_lt {α : Type} {l : List α} (h : l.length = 8) (o : Fin 8) : o.val < l.length := h.symm ▸ o.isLt

theorem getD_set_self {α : Type} {l : List α} {i : Nat} (h : i < l.length) (a d : α) : (l.set i a).getD i d = a := by
  simp [List.getD, h]

/-- A place set to what is read beyond the end reads so wherever it stands. -/
theorem getD_set_default {α : Type} (l : List α) (i : Nat) (d : α) : (l.set i d).getD i d = d := by
  rcases Nat.lt_or_ge i l.length with h | h
  · exact getD_set_self h d d
  · exact List.getD_eq_default _ _ (by rwa [List.length_set])

/-- What the counting of a frame at its input leaves of the switch core: all but the sampler's turns. -/
theorem State.swCount_sw_keeps {β : Type} (g : Switch → β) (hs : ∀ (w : Switch) l, g { w with sampled := l } = g w)
    (s : State) (t : TileId) (i cls : Nat) (b : Bytes) (len : Nat) : g ((s.swCount t i cls b len).sw t) = g (s.sw t) := by
  unfold State.swCount
  dsimp only
  split
  · rfl
  · split
    · rw [State.sw_onSw]
      exact hs _ _
    · refine (congrArg g (State.qWrite_sw ..)).trans ?_
      exact (congrArg g (State.sw_onSw ..)).trans (hs _ _)

/-- What the storing of a frame leaves of the switch core: all but the cells, the VOQs and who waits. -/
theorem State.swStore_sw_keeps {β : Type} (g : Switch → β) (ha : ∀ w i n sh, g (Switch.alloc w i n sh) = g w)
    (hv : ∀ w i o c l, g (Switch.setVoq w i o c l) = g w) (hw : ∀ (w : Switch) l, g { w with waiting := l } = g w)
    (s : State) (t : TileId) (i o : Nat) (f : SwFrame) : g ((s.swStore t i o f).sw t) = g (s.sw t) := by
  have hpush : ∀ (w : Switch) f sh, g (w.push i o f sh) = g w := fun w f sh => (hv _ _ _ _ _).trans (ha _ _ _ _)
  have hd : (if swClass f.cls f.len = f.cls then s else s.bump Reg.sw_express_demoted t).sw t = s.sw t := by split <;> rfl
  unfold State.swStore
  dsimp only
  generalize (if swClass f.cls f.len = f.cls then s else s.bump Reg.sw_express_demoted t) = z at hd ⊢
  rw [← hd]
  split
  · rfl
  · split
    · split
      · rw [State.sw_onSw, hpush]
      · rfl
    · split
      · rw [State.sw_onSw, hpush]
      · split
        · rw [State.sw_onSw, hw]
        · rfl

@[simp] theorem Switch.alloc_sess (w : Switch) (i n : Nat) (sh : Bool) : (w.alloc i n sh).sess = w.sess := by cases sh <;> rfl

/-- A frame that enters the switch core ends no session and makes none. -/
@[simp] theorem State.swSend_sess (s : State) (t : TileId) (i o cls : Nat) (body : SwBody) : ((s.swSend t i o cls body).sw t).sess = (s.sw t).sess := by
  unfold State.swSend
  rw [State.swStore_sw_keeps Switch.sess Switch.alloc_sess (fun _ _ _ _ _ => rfl) (fun _ _ => rfl),
    State.swCount_sw_keeps Switch.sess (fun _ _ => rfl)]

@[simp] theorem State.sendLink_sess (s : State) (t : TileId) (x : Sess) (type : Nat) (payload : Bytes) :
    ((s.sendLink t x type payload).sw t).sess = (s.sw t).sess := State.swSend_sess ..

/-- An armed CREDIT_STARVE acts on the volatile part of the tile alone. -/
theorem State.starve_keeps {β : Type} (g : State → β) (t : TileId) (h : ∀ x f, g (State.onVol x t f) = g x) (s : State) : g (s.starve t) = g s := by
  unfold State.starve
  split
  · exact h _ _
  · rfl

/-- What new credits of an output leave of the switch core: all but the credits. -/
theorem State.setCredit_sw_keeps {β : Type} (g : Switch → β) (hc : ∀ (w : Switch) l, g { w with credit := l } = g w)
    (s : State) (t : TileId) (o n : Nat) : g ((s.setCredit t o n).sw t) = g (s.sw t) := by
  unfold State.setCredit State.starve State.sw
  split
  · rw [State.vol_onVol_self, hc, State.vol_onVol_self, hc]
  · rw [State.vol_onVol_self, hc]

@[simp] theorem State.setCredit_port (s : State) (t : TileId) (o n : Nat) : ((s.setCredit t o n).sw t).port = (s.sw t).port :=
  State.setCredit_sw_keeps Switch.port (fun _ _ => rfl) ..
@[simp] theorem State.setCredit_sess (s : State) (t : TileId) (o n : Nat) : ((s.setCredit t o n).sw t).sess = (s.sw t).sess :=
  State.setCredit_sw_keeps Switch.sess (fun _ _ => rfl) ..
@[simp] theorem State.setCredit_regs (s : State) (t : TileId) (o n : Nat) : (s.setCredit t o n).regs = s.regs :=
  State.starve_keeps State.regs t (fun _ _ => rfl) _
@[simp] theorem State.setCredit_out (s : State) (t : TileId) (o n : Nat) : (s.setCredit t o n).out = s.out :=
  State.starve_keeps State.out t (fun _ _ => rfl) _

theorem quiet_sw_fcs_errors {i : Nat} (h : i < 2) : Reg.sw_fcs_errors.quiet i = true :=
  Entry.quiet_fin (n := 2) (e := Reg.sw_fcs_errors) (by decide) ⟨i, h⟩
theorem quiet_sw_credit_faults (o : Fin 8) : Reg.sw_credit_faults.quiet o = true := Entry.quiet_fin (e := Reg.sw_credit_faults) (by decide) o
theorem quiet_sw_hold_events (p : Fin 2) : Reg.sw_hold_events.quiet p = true := Entry.quiet_fin (e := Reg.sw_hold_events) (by decide) p
theorem quiet_sw_resumes : Reg.sw_resumes.quiet 0 = true := by decide

end Sys2Proof.Machine

namespace Sys2Proof.Machine

/-! ### Admission (R366 to R370, R377) -/

theorem exec_frameAdmit (t : TileId) (n o : Fin 8) (c : Fin 4) (d : Bytes) (b : Bool) (s : State) :
    exec (.frameAdmit t n o c d b) s = .next (s.done (frameAdmit t n o c d b s)) := rfl
theorem exec_frameDispatch (t : TileId) (o : Fin 8) (s : State) : exec (.frameDispatch t o) s = .next (s.done (frameDispatch t o s)) := rfl
theorem exec_creditReturn (t : TileId) (o : Fin 8) (n : Nat) (s : State) : exec (.creditReturn t o n) s = .next (s.done (creditReturn t o n s)) := rfl
theorem exec_creditCheck (t : TileId) (o : Fin 8) (seen : Nat) (s : State) :
    exec (.creditCheck t o seen) s = .next (s.done (creditCheck t o seen s)) := rfl

section
variable {s : State} {t : TileId} {n o : Fin 8} {c : Fin 4} {d : Bytes} {b : Bool}

/-- Frames that no port carries (R364, R365). -/
theorem frameAdmit_refused (h : n.val = 7 ∨ 9216 < d.length ∨ (2 ≤ n.val ∧ o.val = 7)) : frameAdmit t n o c d b s = s := if_pos h

theorem frameAdmit_internal (hn : 2 ≤ n.val) (hn7 : n.val ≠ 7) (ho : o.val ≠ 7) (hd : d.length ≤ 9216) :
    frameAdmit t n o c d b s = s.swSend t n o c (.other d) := by
  have hcarried : ¬(n.val = 7 ∨ 9216 < d.length ∨ (2 ≤ n.val ∧ o.val = 7)) := by omega
  unfold frameAdmit
  rw [if_neg hcarried, dif_neg (Nat.not_lt.mpr hn)]

/-- A frame with a bad FCS on a link that is up is counted. -/
theorem frameAdmit_badFcs (hn : n.val < 2) (hp : (s.sw t).port.getD n 0 = 2) (hd : d.length ≤ 9216) :
    frameAdmit t n o c d true s = s.bump Reg.sw_fcs_errors t n := by
  have hcarried : ¬(n.val = 7 ∨ 9216 < d.length ∨ (2 ≤ n.val ∧ o.val = 7)) := by omega
  unfold frameAdmit
  rw [if_neg hcarried, dif_pos hn]
  exact (if_neg (not_not.mpr hp)).trans (if_pos rfl)

/-- A PTP frame of a link goes to P6 in the EXPRESS class (R377). -/
theorem frameAdmit_ptp {r src : Bytes} {ety : Nat} (hn : n.val < 2) (hp : (s.sw t).port.getD n 0 = 2) (he : s.etherIn t d = some (src, ety, r))
    (hptp : isPtp ety r = true) (hd : d.length ≤ 9216) :
    frameAdmit t n o c d false s =
      (s.swCount t n 0 d d.length).swStore t n 6 { cls := 0, len := d.length, cells := 0, shared := false, body := .other d } := by
  have hcarried : ¬(n.val = 7 ∨ 9216 < d.length ∨ (2 ≤ n.val ∧ o.val = 7)) := by omega
  unfold frameAdmit
  rw [if_neg hcarried, dif_pos hn]
  refine (if_neg (not_not.mpr hp)).trans ((if_neg Bool.false_ne_true).trans ?_)
  simp only [he, hptp, if_true]

end

/-! ### Dispatch (R371, R372, R385) -/

section
variable {s : State} {t : TileId} {o : Fin 8}

/-- A frame that EGRESS_DELAY held goes first once its time has come (R632). -/
theorem frameDispatch_delayed {x : Nat × Nat × Nat × SwFrame} (h : s.delayedDue t o = some x) :
    frameDispatch t o s =
      (s.onVol t fun v => { v with diag := { v.diag with delayed := v.diag.delayed.erase x } }).transfer t o x.2.2.2.cls x.2.1 x.2.2.2 := by
  simp only [frameDispatch, h]

/-- The frame at place `k` of the VOQ of input `n` leaves it; the switch core after the choice is `w`. -/
def State.leaveVoq (s : State) (t : TileId) (o c n k : Nat) (w : Switch) : State :=
  s.onSw t fun _ => { w.setVoq n o c ((w.voq n o c).eraseIdx k) with rr := Tbl.put w.rr (4 * o + c) n }

/-- The cells of a frame become those of the unit behind the output. -/
def State.spendCredit (s : State) (t : TileId) (o : Nat) (f : SwFrame) : State :=
  s.onSw t fun w => { w with credit := subAt w.credit o f.cells, held := addAt w.held o f.cells }

/-- The frame that the output chooses is transferred against credit, where the port serves frames and nothing delays this one. -/
theorem frameDispatch_chosen {c n k : Nat} {w : Switch} {f : SwFrame} (hdue : s.delayedDue t o = none) (ho : o.val ≠ 7)
    (hlink : o.val < 2 → (s.sw t).port.getD o 0 = 2) (hst : (s.sw t).stopped.getD o false = false) (htakes : s.portTakes t o = true)
    (hc : (s.sw t).choose o (fun c => s.rd Reg.sw_class_weight t (c - 1)) = some (c, w)) (hh : w.head o c = some (n, k, f))
    (hwait : s.egressWait t o c = none) :
    frameDispatch t o s = ((s.leaveVoq t o c n k w).spendCredit t o f).transfer t o c n f := by
  have hserves : ¬(o.val = 7 ∨ (s.sw t).stopped.getD o false ∨ (o.val < 2 ∧ (s.sw t).port.getD o 0 ≠ 2) ∨ !s.portTakes t o) := by
    rintro (h | h | ⟨h, hp⟩ | h)
    · exact ho h
    · exact Bool.eq_false_iff.mp hst h
    · exact hp (hlink h)
    · simp [htakes] at h
  have hw : ∀ f g, ((s.onSw t f).onSw t g).egressWait t o c = s.egressWait t o c := fun f g => by
    simp [State.egressWait, State.tileArm]
  simp only [frameDispatch, hdue, if_neg hserves, hc, hh, hw, hwait]
  rfl

end

/-! ### Credits (R371, R374) -/

section
variable {s : State} {t : TileId} {o : Fin 8} {n seen : Nat}

/-- Ceiling of the credits of an output: that of an armed CREDIT_STARVE (R632), else the largest K (R364). -/
def State.creditTop (s : State) (t : TileId) (o : Nat) : Nat :=
  match s.tileArm t 1 with
  | some a => if a.p1 = o then a.p2 else 1024
  | none => 1024

/-- Of `k` returned cells those that stay below the ceiling. -/
def State.creditUp (s : State) (t : TileId) (o k : Nat) : Nat := min k (s.creditTop t o - (s.sw t).credit.getD o 0)

/-- Cells that an output has back: those that its credits take, and those that are held back from them. -/
def State.giveBack (s : State) (t : TileId) (o k : Nat) : State :=
  (s.onSw t fun w => { w with credit := addAt w.credit o (s.creditUp t o k), held := subAt w.held o k }).onVol t fun v =>
    { v with diag := { v.diag with back := addAt v.diag.back o (k - s.creditUp t o k) } }

/-- No more comes back than the unit behind the output holds. -/
theorem creditReturn_eq : creditReturn t o n s = s.giveBack t o (min n ((s.sw t).held.getD o 0)) := rfl

theorem State.giveBack_sw (s : State) (t : TileId) (o k : Nat) : (s.giveBack t o k).sw t =
    { s.sw t with credit := addAt (s.sw t).credit o (s.creditUp t o k), held := subAt (s.sw t).held o k } := by
  simp [State.giveBack, State.sw]

theorem State.giveBack_back (s : State) (t : TileId) (o k : Nat) :
    ((s.giveBack t o k).vol t).diag.back = addAt (s.vol t).diag.back o (k - s.creditUp t o k) := by
  simp [State.giveBack]

/-- Without an armed CREDIT_STARVE the credits take all that stays within K. -/
theorem State.creditUp_of_unarmed {k : Nat} (ha : s.tileArm t 1 = none) (hk : (s.sw t).credit.getD o 0 + k ≤ 1024) : s.creditUp t o k = k := by
  have htop : s.creditTop t o = 1024 := by simp [State.creditTop, ha]
  rw [State.creditUp, htop]
  omega

/-- What a return of credit leaves and sets. -/
theorem creditReturn_effect : ∃ x, exec (.creditReturn t o n) s = .next x ∧ x.regs = s.regs ∧ x.out = s.out ∧
    x.sw t = (s.giveBack t o (min n ((s.sw t).held.getD o 0))).sw t ∧
    (x.vol t).diag.back = ((s.giveBack t o (min n ((s.sw t).held.getD o 0))).vol t).diag.back := by
  refine ⟨_, exec_creditReturn t o n s, State.done_regs _ _ rfl, ?_, ?_, ?_⟩
  · rw [State.done_out]
    rfl
  · rw [State.sw_done, creditReturn_eq]
  · rw [State.done_vol, creditReturn_eq]

/-- The counts of R374 add up: the credits, those held back, the cells in transfer and those of the unit are K. -/
abbrev State.creditAgrees (s : State) (t : TileId) (o seen : Nat) : Prop :=
  (s.sw t).credit.getD o 0 + (s.vol t).diag.back.getD o 0 + s.inTransfer t o + seen = outCap o

/-- No miss of the output stands any more. -/
def State.clearMiss (s : State) (t : TileId) (o : Nat) : State := s.onSw t fun w => { w with miss := w.miss.set o 0 }

/-- A miss of the output is counted and logged. -/
def State.countMiss (s : State) (t : TileId) (o seen : Nat) : State :=
  ((s.bump Reg.sw_credit_faults t o).event t 1 0x1801 o ((s.sw t).credit.getD o 0) seen).onSw t fun w => { w with miss := addAt w.miss o 1 }

theorem State.clearMiss_miss (s : State) (t : TileId) (o : Nat) : ((s.clearMiss t o).sw t).miss = (s.sw t).miss.set o 0 := by
  simp [State.clearMiss]
theorem State.countMiss_miss (s : State) (t : TileId) (o seen : Nat) : ((s.countMiss t o seen).sw t).miss = addAt (s.sw t).miss o 1 := by
  simp [State.countMiss]

/-- A count that adds up clears the misses; only an output that is stopped is repaired. -/
theorem creditCheck_agrees (ho : o.val ≠ 7) (ht : s.portTakes t o = true) (h : s.creditAgrees t o seen) :
    creditCheck t o seen s = if (s.sw t).stopped.getD o false then (s.clearMiss t o).repairCredit t o seen else s.clearMiss t o := by
  have hruns : ¬(o.val = 7 ∨ !s.portTakes t o) := by simp [ho, ht]
  have hmiss : ¬3 ≤ ((s.clearMiss t o).sw t).miss.getD o 0 := by
    rw [State.clearMiss_miss, getD_set_default]
    decide
  unfold creditCheck
  dsimp only
  rw [if_neg hruns, if_pos h]
  exact if_congr (or_iff_left hmiss) rfl rfl

/-- One that does not is counted; an output that is stopped or misses for the third time is repaired. -/
theorem creditCheck_differs (ho : o.val ≠ 7) (ht : s.portTakes t o = true) (h : ¬s.creditAgrees t o seen) :
    creditCheck t o seen s = if (s.sw t).stopped.getD o false = true ∨ 3 ≤ (addAt (s.sw t).miss o 1).getD o 0 then
      (s.countMiss t o seen).repairCredit t o seen else s.countMiss t o seen := by
  have hruns : ¬(o.val = 7 ∨ !s.portTakes t o) := by simp [ho, ht]
  unfold creditCheck
  dsimp only
  rw [if_neg hruns, if_neg h, ← State.countMiss_miss s t o seen]
  rfl

/-- A miss counts one fault of the output. -/
theorem State.rd_countMiss (h : s.rd Reg.sw_credit_faults t o + 1 < Reg.sw_credit_faults.span) :
    (s.countMiss t o seen).rd Reg.sw_credit_faults t o = s.rd Reg.sw_credit_faults t o + 1 := by
  refine (State.rd_event _ _ _ _ _ _ _ _ _ _ (quiet_sw_credit_faults o) (fun h => by cases h)).trans ?_
  exact State.rd_bump_lt _ _ _ _ h

end

/-- Settles O37: admission by input and content, dispatch against credit, return of credit, and the count of R374 by whether it adds up and what follows. -/
theorem switchFrames : Obligations.SwitchFrames := by
  refine ⟨fun s t n o c d b hn hn7 ho hd => ?_, fun s t n o c d b h => ?_, fun s t n o c d r src ety hn hp he hptp hd => ?_,
    fun s t n o c d hn hp hd hspan => ?_, fun s t o c n k w f hdue ho ho7 hst htakes hc hh hwait => ?_, fun s t o n ha hcl hhl hn hk => ?_,
    fun s t o seen ho ht hl hst hsum => ?_, fun s t o seen ho ht hst hsum hl hm hspan => ?_, fun s t o x h => ?_,
    fun s t o c n k w f hdue ho hp hst htakes hc hh hwait => ?_, fun s t o n hcl hhl hbl => ?_, fun s t o seen ho ht hst hsum => ?_,
    fun s t o seen ho ht hst hsum => ?_, fun s t o seen ho ht hst hsum hm => ?_⟩
  · rw [exec_frameAdmit, frameAdmit_internal hn hn7 ho hd]
  · rw [exec_frameAdmit, frameAdmit_refused h]
  · rw [exec_frameAdmit, frameAdmit_ptp hn hp he hptp hd]
  · refine ⟨_, exec_frameAdmit t n o c d true s, ?_, fun u => ?_, ?_⟩ <;> rw [frameAdmit_badFcs hn hp hd]
    · rw [State.rd_done _ _ _ _ _ (quiet_sw_fcs_errors hn), State.rd_bump_lt _ _ _ _ hspan]
    · rw [State.done_vol]
      rfl
    · rw [State.done_out]
      rfl
  · rw [exec_frameDispatch, frameDispatch_chosen hdue ho7 (fun h => absurd h (Nat.not_lt.mpr ho)) hst htakes hc hh hwait]
    rfl
  · obtain ⟨x, hx, hregs, hout, hsw, -⟩ := creditReturn_effect (s := s) (t := t) (o := o) (n := n)
    rw [Nat.min_eq_left hn, State.giveBack_sw, State.creditUp_of_unarmed ha hk] at hsw
    refine ⟨x, hx, ?_, ?_, hregs, hout⟩ <;> rw [hsw]
    · exact getD_addAt (output_lt hcl o) _
    · exact getD_subAt (output_lt hhl o) _
  · rw [exec_creditCheck, creditCheck_agrees ho ht hsum, if_neg (Bool.eq_false_iff.mp hst)]
    refine ⟨_, rfl, ?_, ?_, State.done_regs _ _ rfl, State.done_out _ _⟩ <;> rw [State.sw_done]
    · rw [State.clearMiss_miss, getD_set_self (output_lt hl o)]
    · simp [State.clearMiss]
  · have hmiss : (addAt (s.sw t).miss o 1).getD o 0 = 1 := by rw [getD_addAt (output_lt hl o), hm]
    rw [exec_creditCheck, creditCheck_differs ho ht hsum, if_neg (by rw [hst, hmiss]; decide)]
    refine ⟨_, rfl, ?_, ?_, ?_⟩
    · rw [State.sw_done, State.countMiss_miss, hmiss]
    · simp [State.countMiss]
    · rw [State.rd_done _ _ _ _ _ (quiet_sw_credit_faults o), State.rd_countMiss hspan]
  · rw [exec_frameDispatch, frameDispatch_delayed h]
  · rw [exec_frameDispatch, frameDispatch_chosen hdue (by omega) (fun _ => hp) hst htakes hc hh hwait]
    rfl
  · obtain ⟨x, hx, hregs, hout, hsw, hback⟩ := creditReturn_effect (s := s) (t := t) (o := o) (n := n)
    refine ⟨x, hx, hregs, hout, ?_, ?_, ?_⟩ <;> rw [hsw, State.giveBack_sw]
    · exact getD_subAt (output_lt hhl o) _
    · rw [hback, State.giveBack_back, getD_addAt (output_lt hcl o), getD_addAt (output_lt hbl o)]
      have hup : s.creditUp t o (min n ((s.sw t).held.getD o 0)) ≤ min n ((s.sw t).held.getD o 0) := Nat.min_le_left _ _
      omega
  · rw [exec_creditCheck, creditCheck_differs ho ht hsum, if_pos (.inl hst)]
    rfl
  · rw [exec_creditCheck, creditCheck_agrees ho ht hsum, if_pos hst]
    rfl
  · have hlen : o.val < (s.sw t).miss.length := lt_length_of_getD (d := 0) (by omega)
    rw [exec_creditCheck, creditCheck_differs ho ht hsum, if_pos (.inr (by rw [getD_addAt hlen]; omega))]
    rfl

end Sys2Proof.Machine

namespace Sys2Proof.Machine

/-! ### The link machine of D0 and D1 (R378) -/

theorem exec_linkUp (t : TileId) (p : Fin 2) (s : State) : exec (.linkUp t p) s = .next (s.done (linkUpEvent t p s)) := rfl
theorem exec_linkLost (t : TileId) (p : Fin 2) (s : State) : exec (.linkLost t p) s = .next (s.done (linkLost t p s)) := rfl
theorem exec_holdExpiry (t : TileId) (p : Fin 2) (s : State) : exec (.holdExpiry t p) s = .next (s.done (holdExpiry t p s)) := rfl
theorem exec_portDisable (t : TileId) (p : Fin 2) (v : Nat) (s : State) :
    exec (.portDisable t p v) s = .next (s.done (portDisable t p v s)) := rfl

section
variable {s : State} {t : TileId} {p : Fin 2} {v : Nat}

theorem holdExpiry_over (hp : (s.sw t).port.getD p 0 = 3) (h : (s.sw t).hold.getD p 0 + s.holdNs t ≤ s.now) :
    holdExpiry t p s = (s.portDown t p).onSw t fun w => { w with port := w.port.set p 1 } := if_pos ⟨hp, h⟩

/-- Only a port in HOLD has a hold time that can end. -/
theorem holdExpiry_idle (hp : (s.sw t).port.getD p 0 ≠ 3) : holdExpiry t p s = s := if_neg fun h => hp h.1

/-- A port in search comes up with the credits of its output. -/
theorem linkUpEvent_search (hp : (s.sw t).port.getD p 0 = 1) :
    linkUpEvent t p s = (s.onSw t fun w => { w with port := w.port.set p 2 }).setCredit t p (outCap p) := by
  have hidle : holdExpiry t p s = s := holdExpiry_idle (by omega)
  simp only [linkUpEvent, hidle, ite_self, hp]

/-- A link that comes back within the hold time is UP again, and its sessions are challenged (R384). -/
theorem linkUpEvent_held (hp : (s.sw t).port.getD p 0 = 3) (h : s.now ≤ (s.sw t).hold.getD p 0 + s.holdNs t) :
    linkUpEvent t p s = (s.onSw t fun w => { w with port := w.port.set p 2 }).challengePort t p := by
  simp only [linkUpEvent, if_pos h, hp]

/-- Without a hold time the port goes down with its link. -/
theorem linkLost_down (hp : (s.sw t).port.getD p 0 = 2) (hh : s.rd Reg.sw_link_hold_ms t = 0) :
    linkLost t p s = (s.portDown t p).onSw t fun w => { w with port := w.port.set p 1 } :=
  (if_neg (not_not.mpr hp)).trans (if_pos hh)

/-- With one it is held from now on, and the hold is counted. -/
theorem linkLost_holds (hp : (s.sw t).port.getD p 0 = 2) (hh : s.rd Reg.sw_link_hold_ms t ≠ 0) :
    linkLost t p s = (s.bump Reg.sw_hold_events t p).onSw t fun w => { w with port := w.port.set p 3, hold := w.hold.set p s.now } :=
  (if_neg (not_not.mpr hp)).trans (if_neg hh)

theorem portDisable_bool (h : v ≤ 1) : portDisable t p v s = ((s.wr Reg.sw_port_disable t v p).followTile t).answer t .ok :=
  if_neg (Nat.not_lt.mpr h)
theorem portDisable_invalid (h : 1 < v) : portDisable t p v s = s.answer t .invalid := if_pos h

end

/-- Settles O38: the link machine by the state of the port, and the entry that disables it by its value. -/
theorem switchPorts : Obligations.SwitchPorts := by
  refine ⟨fun s t p hp => ?_, fun s t p hp hh hl hspan => ?_, fun s t p hp h => ?_, fun s t p v h => ?_, fun s t p hp h => ?_,
    fun s t p hp hh => ?_, fun s t p v h => ?_⟩
  · have hlen : p.val < (s.sw t).port.length := lt_length_of_getD (d := 0) (by omega)
    rw [exec_linkUp, linkUpEvent_search hp]
    refine ⟨_, rfl, ?_, ?_, State.done_regs _ _ (State.setCredit_regs ..), ?_⟩
    · rw [State.sw_done, State.setCredit_port, State.sw_onSw]
      exact getD_set_self hlen 2 0
    · rw [State.sw_done, State.setCredit_sess, State.sw_onSw]
    · rw [State.done_out, State.setCredit_out]
      rfl
  · have hlen : p.val < (s.sw t).port.length := lt_length_of_getD (d := 0) (by omega)
    rw [exec_linkLost, linkLost_holds hp hh]
    refine ⟨_, rfl, ?_, ?_, ?_, ?_, State.done_out _ _⟩
    · rw [State.sw_done, State.sw_onSw]
      exact getD_set_self hlen 3 0
    · rw [State.sw_done, State.sw_onSw]
      exact getD_set_self (hl.symm ▸ p.isLt : p.val < (s.sw t).hold.length) s.now 0
    · rw [State.rd_done _ _ _ _ _ (quiet_sw_hold_events p)]
      exact State.rd_bump_lt _ _ _ _ hspan
    · rw [State.sw_done, State.sw_onSw, State.sw_bump]
  · rw [exec_holdExpiry, holdExpiry_over hp h]
  · rw [exec_portDisable, portDisable_bool h]
  · rw [exec_linkUp, linkUpEvent_held hp h]
  · rw [exec_linkLost, linkLost_down hp hh]
  · rw [exec_portDisable, portDisable_invalid h]

end Sys2Proof.Machine

namespace Sys2Proof.Machine

open Crypto

/-! ### Fields of a message -/

theorem leNat_natLE : ∀ (k n : Nat), leNat (natLE k n) = n % 256 ^ k
  | 0, n => by simp [natLE, leNat, Nat.mod_one]
  | k + 1, n => by
    rw [natLE, leNat, leNat_natLE k, BitVec.toNat_ofNat, Nat.pow_succ' (m := 256)]
    exact Nat.mod_mul.symm

/-- The parts of the second message of the handshake (R382): a key, a certificate behind its length, a signature. -/
def helloRspBytes (eph cert sig : Bytes) (n : Nat) : Bytes := eph ++ natLE 2 n ++ cert ++ sig

section
variable {eph cert sig : Bytes} {n : Nat}

theorem helloRspBytes_eph (he : eph.length = 65) : (helloRspBytes eph cert sig n).take 65 = eph := by
  simp [helloRspBytes, ← he]

theorem helloRspBytes_drop (he : eph.length = 65) : (helloRspBytes eph cert sig n).drop 65 = natLE 2 n ++ (cert ++ sig) := by
  simp [helloRspBytes, ← he]

theorem helloRspBytes_length (he : eph.length = 65) (hc : cert.length = n) (hs : sig.length = 64) :
    (helloRspBytes eph cert sig n).length = 131 + n := by
  simp only [helloRspBytes, List.length_append, natLE_length]
  omega

theorem helloRspBytes_fld (he : eph.length = 65) (hn : n ≤ 1024) : fld (helloRspBytes eph cert sig n) 65 2 = n := by
  rw [fld, helloRspBytes_drop he, List.take_left' (natLE_length 2 n), leNat_natLE]
  exact Nat.mod_eq_of_lt (by omega)

theorem helloRspBytes_body (he : eph.length = 65) : (helloRspBytes eph cert sig n).drop 67 = cert ++ sig := by
  rw [show (67 : Nat) = 65 + 2 from rfl, ← List.drop_drop, helloRspBytes_drop he, List.drop_left' (natLE_length 2 n)]

theorem helloRspBytes_cert (he : eph.length = 65) (hc : cert.length = n) : ((helloRspBytes eph cert sig n).drop 67).take n = cert := by
  rw [helloRspBytes_body he, List.take_left' hc]

theorem helloRspBytes_sig (he : eph.length = 65) (hc : cert.length = n) : (helloRspBytes eph cert sig n).drop (67 + n) = sig := by
  rw [← List.drop_drop, helloRspBytes_body he, List.drop_left' hc]

end

/-! ### Sessions of satellites (R382 to R384) -/

theorem exec_helloReq (t : TileId) (p : Fin 2) (frame : Bytes) (s : State) : exec (.helloReq t p frame) s = .next (s.done (helloReq t p frame s)) := rfl
theorem exec_helloRsp (t : TileId) (p : Fin 2) (frame : Bytes) (s : State) : exec (.helloRsp t p frame) s = .next (s.done (helloRsp t p frame s)) := rfl
theorem exec_handshakeTimeout (t : TileId) (k : Nat) (s : State) : exec (.handshakeTimeout t k) s = .next (s.done (handshakeTimeout t k s)) := rfl
theorem exec_resume (t : TileId) (p : Fin 2) (frame : Bytes) (s : State) : exec (.resume t p frame) s = .next (s.done (resume t p frame s)) := rfl
theorem exec_verifyTimeout (t : TileId) (k : Nat) (s : State) : exec (.verifyTimeout t k) s = .next (s.done (verifyTimeout t k s)) := rfl
theorem exec_keepalive (t : TileId) (k : Nat) (s : State) : exec (.keepalive t k) s = .next (s.done (keepalive t k s)) := rfl
theorem exec_satDead (t : TileId) (k : Nat) (s : State) : exec (.satDead t k) s = .next (s.done (satDead t k s)) := rfl

/-! HELLO -/

/-- A new HELLO of a peer ends what it has on the port; a session that was being verified has failed. -/
def State.endPeers (s : State) (t : TileId) (p : Nat) (mac : Bytes) : State :=
  ((s.sw t).peers p mac).foldl (fun s e => (if e.2.st = 3 then s.bump Reg.sw_resume_fail t else s).endSess t e.1) s

/-- The answer to a HELLO: EPOCH, nonce, and the link certificate behind its length. -/
def State.satHello (z : State) (t : TileId) (nonce : Bytes) : Bytes :=
  natLE 4 (z.rd Reg.sw_link_epoch t) ++ nonce ++ natLE 2 ((z.rdAll Reg.vault_cert_link t).take ((certLength (z.rdAll Reg.vault_cert_link t)).getD 0)).length ++
    (z.rdAll Reg.vault_cert_link t).take ((certLength (z.rdAll Reg.vault_cert_link t)).getD 0)

/-- The handshake that a HELLO opens; it keeps what both sides have sent. -/
def LinkIn.handshake (m : LinkIn) (z : State) (t : TileId) (p : Nat) (hello : Bytes) : Sess :=
  { st := 1, port := p, mac := m.mac, sat := 0xFFFF, value := 0, epoch := fld m.payload 0 4, tx := 0, rx := 0, keyTx := [], keyRx := [], print := [],
    sentAt := z.now, gotAt := z.now, gotNs := z.whenNs t, hello := m.payload ++ hello, nonce := [], since := z.now }

section
variable {s y : State} {t : TileId} {p : Fin 2} {frame : Bytes} {m : LinkIn}

/-- A HELLO opens a handshake under the lowest free index, where a nonce and the link key can be had and fewer than 64 others run. -/
theorem helloReq_opens {w z : State} {nonce key : Bytes} {k : Nat} (hrx : s.linkRx t p frame = (y, some m)) (hm : m.type = 1)
    (hw : y.endPeers t p m.mac = w) (hk : (List.range 1024).find? (fun k => (Tbl.get (w.sw t).sess k).isNone) = some k)
    (hnonce : w.nonce t = (z, some nonce)) (hkey : w.slotKey t 1 = some key) (hlen : m.payload.length = 20)
    (hbusy : ((w.sw t).sess.countP fun e => decide (e.2.st = 1)) < 64) :
    helloReq t p frame s = (z.onSw t fun w =>
        { w with sess := Tbl.put w.sess k (m.handshake z t p (z.satHello t nonce)) }).sendLink t
      (m.handshake z t p (z.satHello t nonce)) 2 (z.satHello t nonce) := by
  have hform : ¬(m.payload.length ≠ 20 ∨ 64 ≤ (w.sw t).sess.countP fun e => decide (e.2.st = 1)) := by omega
  have hpeers : ((y.sw t).peers p m.mac).foldl
      (fun s e => (if e.2.st = 3 then s.bump Reg.sw_resume_fail t else s).endSess t e.1) y = w := hw
  unfold helloReq
  simp only [hrx, hm, ne_eq, not_true_eq_false, if_false, hpeers, hk, hnonce, hkey]
  exact if_neg hform

/-- Without sessions a peer has none to end. -/
theorem State.endPeers_of_empty (h : (y.sw t).sess = []) (p : Nat) (mac : Bytes) : y.endPeers t p mac = y := by
  simp [State.endPeers, Switch.peers, h]

/-- Without sessions the lowest index is free. -/
theorem freeIndex_of_empty (h : (y.sw t).sess = []) : (List.range 1024).find? (fun k => (Tbl.get (y.sw t).sess k).isNone) = some 0 := by
  simp [List.find?_range_eq_some, h, Tbl.get]

end

/-! The second message -/

/-- What a satellite proves with its second message for the handshake `e`: its certificate is one the tile accepts, its signature over both messages verifies under
it, and both sides have the secret `z`. -/
structure SatProof (y : State) (t : TileId) (e : Sess) (eph cert sig z : Bytes) (sat : Nat) : Prop where
  peer : y.peerSat t cert = some sat
  signed : ∃ pub, certKey cert = some pub ∧ ecdsaVerify pub (e.hello ++ eph ++ cert) sig = true
  shared : ∃ d, y.slotD t 1 = some d ∧ ecdh p256 d eph = some z

/-- The sessions that the satellite of a certificate had before. -/
def State.endPrint (y : State) (t : TileId) (print : Bytes) : State :=
  ((y.sw t).sess.filter fun f => decide (f.2.print = print) && decide (1 < f.2.st)).foldl (fun s f => s.endSess t f.1) y

/-- The session that the handshake `e` becomes, with the keys of R383. -/
def Sess.proved (e : Sess) (u : State) (t : TileId) (sat : Nat) (eph cert z : Bytes) : Sess :=
  { e with st := 2, sat := sat, value := (u.sw t).nextSess,
           keyTx := (kdf z (ascii "SATLINK") (sha256 (e.hello ++ eph ++ cert)) 512).take 32,
           keyRx := (kdf z (ascii "SATLINK") (sha256 (e.hello ++ eph ++ cert)) 512).drop 32, print := sha256 cert,
           gotAt := u.now, gotNs := u.whenNs t, hello := [] }

/-- A session is made under the next SESSION value, and its satellite told its SAT_ID. -/
def State.makeSess (u : State) (t : TileId) (k : Nat) (v : Sess) : State :=
  ((u.onSw t fun w => { w with sess := Tbl.put w.sess k v, nextSess := (u.sw t).nextSess + 1 }).sendLink t v 4 (natLE 2 v.sat ++ [0, 0])).bump
    Reg.sw_handshakes t

/-- The handshake of a peer that is open and not over (R382). -/
def State.openHandshake (y : State) (t : TileId) (p : Nat) (mac : Bytes) : Option (Nat × Sess) :=
  ((y.sw t).peers p mac).find? fun e => decide (e.2.st = 1) && decide (y.now < e.2.since + 100000000)

section
variable {s y : State} {t : TileId} {p : Fin 2} {frame : Bytes} {m : LinkIn}

theorem helloRsp_unasked (hrx : s.linkRx t p frame = (y, some m)) (hm : m.type = 3) (hf : y.openHandshake t p m.mac = none) :
    helloRsp t p frame s = y.bump Reg.sw_handshake_fail t := by
  unfold State.openHandshake at hf
  simp only [helloRsp, hrx, hm, ne_eq, not_true_eq_false, if_false, hf]

theorem helloRsp_proved {eph cert sig z : Bytes} {k n sat : Nat} {e : Sess} (hrx : s.linkRx t p frame = (y, some m)) (hm : m.type = 3)
    (hf : y.openHandshake t p m.mac = some (k, e)) (hpay : m.payload = helloRspBytes eph cert sig n) (he : eph.length = 65) (hc : cert.length = n)
    (hn : n ≤ 1024) (hs : sig.length = 64) (hproof : SatProof y t e eph cert sig z sat) :
    helloRsp t p frame s = (y.endPrint t (sha256 cert)).makeSess t k (e.proved (y.endPrint t (sha256 cert)) t sat eph cert z) := by
  obtain ⟨hpeer, ⟨pub, hpub, hsig⟩, ⟨d, hd, hz⟩⟩ := hproof
  unfold State.openHandshake at hf
  simp only [helloRsp, hrx, hm, ne_eq, not_true_eq_false, if_false, hf, hpay, helloRspBytes_eph he, helloRspBytes_fld he hn, helloRspBytes_cert he hc,
    helloRspBytes_sig he hc, helloRspBytes_length he hc hs, Nat.not_lt.mpr hn, or_self, hpeer, hpub, hd, hsig, hz]
  rfl

/-- The only session is the open handshake of its peer. -/
theorem State.openHandshake_of_single {k : Nat} {e : Sess} (h : (y.sw t).sess = [(k, e)]) (hst : e.st = 1) (ht : y.now < e.since + 100000000) :
    y.openHandshake t e.port e.mac = some (k, e) := by
  simp [State.openHandshake, Switch.peers, h, hst, ht]

/-- A handshake is no session that its satellite had before. -/
theorem State.endPrint_of_single {k : Nat} {e : Sess} (h : (y.sw t).sess = [(k, e)]) (hst : e.st = 1) (print : Bytes) : y.endPrint t print = y := by
  simp [State.endPrint, h, hst]

/-! RESUME (R384) -/

theorem resume_echoed {k : Nat} {e : Sess} (hrx : s.linkRx t p frame = (y, some m)) (hm : m.type = 6) (hk : m.sess = some k)
    (he : Tbl.get (y.sw t).sess k = some e) (hst : e.st = 3) (hn : e.nonce ≠ []) (hpay : m.payload = natLE 4 e.epoch ++ e.nonce ++ e.print) :
    resume t p frame s = (y.onSw t fun w => { w with sess := Tbl.put w.sess k { e with st := 2 } }).bump Reg.sw_resumes t := by
  simp only [resume, hrx, hm, hk, he, hst, ne_eq, not_true_eq_false, if_false]
  exact if_pos ⟨hn, hpay⟩

theorem resume_wrong {k : Nat} {e : Sess} (hrx : s.linkRx t p frame = (y, some m)) (hm : m.type = 6) (hk : m.sess = some k)
    (he : Tbl.get (y.sw t).sess k = some e) (hst : e.st = 3) (hpay : m.payload ≠ natLE 4 e.epoch ++ e.nonce ++ e.print) :
    resume t p frame s = (y.bump Reg.sw_resume_fail t).endSess t k := by
  simp only [resume, hrx, hm, hk, he, hst, ne_eq, not_true_eq_false, if_false]
  exact if_neg fun h => hpay h.2

end

/-! Time-outs and the keep-alive -/

section
variable {s : State} {t : TileId} {k : Nat} {e : Sess}

theorem handshakeTimeout_over (he : Tbl.get (s.sw t).sess k = some e) (hst : e.st = 1) (h : e.since + 100000000 ≤ s.now) :
    handshakeTimeout t k s = s.endSess t k := by
  simp only [handshakeTimeout, he]
  exact if_pos ⟨hst, h⟩

theorem verifyTimeout_over (he : Tbl.get (s.sw t).sess k = some e) (hst : e.st = 3) (h : e.since + s.rd Reg.sw_verify_ms t * 1000000 ≤ s.now) :
    verifyTimeout t k s = (s.bump Reg.sw_resume_fail t).endSess t k := by
  simp only [verifyTimeout, he]
  exact if_pos ⟨hst, h⟩

theorem keepalive_due (he : Tbl.get (s.sw t).sess k = some e) (hst : e.st = 2) (hp : (s.sw t).port.getD e.port 0 = 2)
    (h : e.sentAt + s.rd Reg.sw_keepalive_ms t * 1000000 ≤ s.now) (hw : (s.sw t).keepaliveWaits e.value = false) :
    keepalive t k s = s.sendLink t e 7 [] := by
  simp only [keepalive, he]
  exact if_pos ⟨hst, hp, h, by rw [hw]; rfl⟩

theorem satDead_silent (he : Tbl.get (s.sw t).sess k = some e) (hst : e.st = 2) (hp : (s.sw t).port.getD e.port 0 = 2)
    (h : e.gotAt + s.rd Reg.sw_sat_dead_ms t * 1000000 ≤ s.now) : satDead t k s = s.endSess t k := by
  simp only [satDead, he]
  exact if_pos ⟨hst, hp, h⟩

end

/-- Settles O39: the handshake by its two messages, RESUME by its echo, the time-outs, the keep-alive, and the reset by command. -/
theorem linkSessions : Obligations.LinkSessions := by
  refine ⟨fun s y z t p frame nonce key m hrx hm hsess hnonce hkey hlen => ?_,
    fun s y t p frame cert eph sig pub z m k n sat d e v hrx hm hsess hp hmac hst ht hpay he hc hn hs hpeer hpub hd hsig hz hv => ?_,
    fun s t k e he hst h => ?_, fun s y t p frame m k e hrx hm hk he hst hn hpay hspan => ?_, fun s t k e he hst h => ?_,
    fun s t k e he hst hp h hw => ?_, fun s t k e he hst hp h => ?_, fun s t => rfl,
    fun s y w z t p frame nonce key hello m k e hrx hm hw hk hnonce hkey hlen hbusy hhello he => ?_,
    fun s y u t p frame cert eph sig pub z m k n sat d e v hrx hm hf hpay he hc hn hs hpeer hpub hd hsig hz hu hv => ?_,
    fun s y t p frame m hrx hm hf => ?_, fun s y t p frame m k e hrx hm hk he hst hpay => ?_⟩
  · rw [exec_helloReq, helloReq_opens hrx hm (State.endPeers_of_empty hsess _ _) (freeIndex_of_empty hsess) hnonce hkey hlen (by simp [hsess])]
    refine ⟨_, m.handshake z t p (z.satHello t nonce), rfl, ?_, rfl, rfl, rfl, rfl, rfl, ?_⟩
    · rw [State.sw_done, State.sendLink_sess, State.sw_onSw, Tbl.get_put_self]
    · exact List.take_left' hlen
  · have hf : y.openHandshake t p m.mac = some (k, e) := by
      rw [← hp, ← hmac, State.openHandshake_of_single hsess hst ht]
    rw [exec_helloRsp, helloRsp_proved hrx hm hf hpay he hc hn hs ⟨hpeer, ⟨pub, hpub, hsig⟩, ⟨d, hd, hz⟩⟩,
      State.endPrint_of_single hsess hst, hv]
    rfl
  · rw [exec_handshakeTimeout, handshakeTimeout_over he hst h]
  · rw [exec_resume, resume_echoed hrx hm hk he hst hn hpay]
    refine ⟨_, rfl, ?_, ?_, State.done_out _ _⟩
    · rw [State.sw_done, State.sw_bump, State.sw_onSw, Tbl.get_put_self]
    · rw [State.rd_done _ _ _ _ _ quiet_sw_resumes]
      exact State.rd_bump_lt _ _ _ _ hspan
  · rw [exec_verifyTimeout, verifyTimeout_over he hst h]
  · rw [exec_keepalive, keepalive_due he hst hp h hw]
  · rw [exec_satDead, satDead_silent he hst hp h]
  · rw [exec_helloReq, helloReq_opens hrx hm hw.symm hk hnonce hkey hlen hbusy, he, hhello]
    rfl
  · have hu : y.endPrint t (sha256 cert) = u := hu.symm
    rw [exec_helloRsp, helloRsp_proved hrx hm hf hpay he hc hn hs ⟨hpeer, ⟨pub, hpub, hsig⟩, ⟨d, hd, hz⟩⟩, hu, hv]
    rfl
  · rw [exec_helloRsp, helloRsp_unasked hrx hm hf]
  · rw [exec_resume, resume_wrong hrx hm hk he hst hpay]

end Sys2Proof.Machine

namespace Sys2Proof.Machine

/-! ### Steps and commands -/

theorem idle_eq (s : State) : idle s = .next (State.done { s with now := s.now + tickNs } (State.elapse { s with now := s.now + tickNs })) := by
  unfold idle
  exact finish_eq _ _

/-- On an empty queue the block idles. -/
theorem step_of_empty {s : State} (h : s.pending = []) : step s = idle s := by
  unfold step
  rw [h]

/-- Settles O1: the queue decides which of the two a step is, and what stands around every effect keeps the queue and the clock count. -/
theorem stepRunsFront : Obligations.StepRunsFront := by
  refine ⟨fun s c rest h => ?_, fun s h => ⟨_, (step_of_empty h).trans (idle_eq s), ?_, ?_⟩⟩
  · unfold step
    rw [h]
  · rw [State.done_pending, h]
  · rw [State.done_now]
    rfl

/-- Settles O3: every command is an effect with `finish` around it, which keeps the queue and the clock count. -/
theorem commandsComplete : Obligations.CommandsComplete := by
  intro c s
  obtain ⟨y, hy⟩ := exec_done c s
  exact ⟨_, hy, State.done_pending s y, State.done_now s y⟩

/-! ### Accesses to a queue whose pointer copies agree (R579 to R581, R584, R585) -/

theorem exec_queueWrite (t : TileId) (c : Fin 7) (x : QItem) (s : State) : exec (.queueWrite t c x) s = .next (s.done (s.qWrite t c x)) := rfl
theorem exec_queueRead (t : TileId) (c : Fin 7) (s : State) : exec (.queueRead t c) s = .next (s.done (queueRead t c s)) := rfl
theorem exec_wmStatusRead (t : TileId) (c : Fin 7) (s : State) : exec (.wmStatusRead t c) s = .next (s.done (wmStatusRead t c s)) := rfl

/-- A write places its item and counts what that loses. -/
theorem State.qWrite_of_agree {s : State} {t : TileId} {c : Fin 7} (h : (s.queue t c).split = none) (x : QItem) :
    s.qWrite t c x =
      if ((s.queue t c).put (bankSize c) x).2 = 0 then s.setQueue t c (((s.queue t c).put (bankSize c) x).1.note (s.level t c))
      else (s.setQueue t c (((s.queue t c).put (bankSize c) x).1.note (s.level t c))).bump Reg.queue_lost t c ((s.queue t c).put (bankSize c) x).2 := by
  simp [State.qWrite, PPQ.write, PPQ.check, h, State.qDone, State.qEvent]

/-- An item goes to the fill bank while it has room. -/
theorem PPQ.put_of_room {α : Type} {q : PPQ α} {n : Nat} (h : q.fill.length < n) (x : α) : q.put n x = ({ q with fill := q.fill ++ [x] }, 0) := by
  simp [PPQ.put, h]

/-- A full fill bank and an empty drain bank swap. -/
theorem PPQ.put_swaps {α : Type} {q : PPQ α} {n : Nat} (h : q.fill.length = n) (hd : q.drain = []) (x : α) :
    q.put n x = ({ q with drain := q.fill, fill := [x] }, 0) := by
  simp [PPQ.put, h, hd]

/-- A full fill bank beside a drain bank that holds something loses its oldest item. -/
theorem PPQ.put_overwrites {α : Type} {q : PPQ α} {n : Nat} (h : q.fill.length = n) (hd : q.drain ≠ []) (x : α) :
    q.put n x = ({ q with fill := q.fill.tail ++ [x] }, 1) := by
  simp [PPQ.put, h, hd]

/-- A write that loses nothing changes the queue alone. -/
theorem State.qWrite_kept {s : State} {t : TileId} {c : Fin 7} {x : QItem} {q : PPQ QItem} (h : (s.queue t c).split = none)
    (hp : (s.queue t c).put (bankSize c) x = (q, 0)) : s.qWrite t c x = s.setQueue t c (q.note (s.level t c)) := by
  rw [State.qWrite_of_agree h, hp, if_pos rfl]

/-- A write that overwrites an item counts it in LOST. -/
theorem State.qWrite_lost {s : State} {t : TileId} {c : Fin 7} {x : QItem} {q : PPQ QItem} (h : (s.queue t c).split = none)
    (hp : (s.queue t c).put (bankSize c) x = (q, 1)) : s.qWrite t c x = (s.setQueue t c (q.note (s.level t c))).bump Reg.queue_lost t c := by
  rw [State.qWrite_of_agree h, hp, if_neg Nat.one_ne_zero]

@[simp] theorem State.queue_bump (s : State) (e : Entry) (n i k : Nat) (t : TileId) (c : Fin 7) : (s.bump e n i k).queue t c = s.queue t c := rfl

/-- LOST of a queue is not the counter of writes to the Pier store. -/
theorem queue_lost_ne_writes (t : TileId) (c : Fin 7) : Reg.queue_lost.key t c ≠ Reg.device_config_writes.key 0 0 :=
  Entry.key_ne_tile_dev _ _ _ _ _ _ rfl rfl (by decide)

/-- A read of a queue whose copies agree takes an item and puts it out. -/
theorem queueRead_takes {s : State} {t : TileId} {c : Fin 7} {q : PPQ QItem} {i : Option QItem} (h : (s.queue t c).split = none)
    (ht : (s.queue t c).take = (q, i)) :
    queueRead t c s = (s.setQueue t c (q.note (s.level t c))).emit (.bytes t ((i.map itemBytes).getD (List.replicate (itemSize c) 0))) := by
  unfold queueRead
  rw [State.qRead_of_agree h, ht]
  cases i <;> rfl

/-- What a write that loses nothing leaves and sets. -/
theorem queueWrite_kept_effect {s : State} {t : TileId} {c : Fin 7} {x : QItem} {q : PPQ QItem} (h : (s.queue t c).split = none)
    (hp : (s.queue t c).put (bankSize c) x = (q, 0)) :
    ∃ y, exec (.queueWrite t c x) s = .next y ∧ (y.queue t c).fill = q.fill ∧ (y.queue t c).drain = q.drain ∧ y.regs = s.regs ∧ y.out = s.out := by
  refine ⟨_, exec_queueWrite t c x s, ?_⟩
  rw [State.qWrite_kept h hp, State.done_queue, State.queue_setQueue_self, State.done_out]
  exact ⟨rfl, rfl, State.done_regs _ _ rfl, rfl⟩

/-- What a write that overwrites sets; LOST counts on and stays at its largest value. -/
theorem queueWrite_lost_effect {s : State} {t : TileId} {c : Fin 7} {x : QItem} {q : PPQ QItem} (h : (s.queue t c).split = none)
    (hp : (s.queue t c).put (bankSize c) x = (q, 1)) :
    ∃ y, exec (.queueWrite t c x) s = .next y ∧ (y.queue t c).fill = q.fill ∧ (y.queue t c).drain = q.drain ∧
      y.rd Reg.queue_lost t c = (s.bump Reg.queue_lost t c).rd Reg.queue_lost t c ∧ y.out = s.out := by
  refine ⟨_, exec_queueWrite t c x s, ?_⟩
  rw [State.qWrite_lost h hp, State.done_queue, State.queue_bump, State.queue_setQueue_self, State.done_out,
    State.done_rd _ _ _ _ _ (queue_lost_ne_writes t c)]
  exact ⟨rfl, rfl, rfl, rfl⟩

/-- What a read sets and puts out. -/
theorem queueRead_effect {s : State} {t : TileId} {c : Fin 7} {q : PPQ QItem} {i : Option QItem} (h : (s.queue t c).split = none)
    (ht : (s.queue t c).take = (q, i)) :
    ∃ y, exec (.queueRead t c) s = .next y ∧ (y.queue t c).drain = q.drain ∧ (y.queue t c).fill = q.fill ∧ y.regs = s.regs ∧
      y.out = s.out ++ [.bytes t ((i.map itemBytes).getD (List.replicate (itemSize c) 0))] := by
  have hq : ((s.setQueue t c (q.note (s.level t c))).emit (.bytes t ((i.map itemBytes).getD (List.replicate (itemSize c) 0)))).queue t c =
      q.note (s.level t c) := State.queue_setQueue_self ..
  refine ⟨_, exec_queueRead t c s, ?_⟩
  rw [queueRead_takes h ht, State.done_queue, State.done_out, hq]
  exact ⟨rfl, rfl, State.done_regs _ _ rfl, rfl⟩

/-- Settles O53: where an item goes is what `PPQ.put` and `PPQ.take` say of banks with room, full and empty. -/
theorem pingPong : Obligations.PingPong := by
  refine ⟨fun s t c d h hr => queueWrite_kept_effect h (PPQ.put_of_room hr d), fun s t c d h hf hd hspan => ?_, fun s t c d r h hd => ?_, fun s t c => ?_,
    fun s t c d h hf hd => ?_, fun s t c d r h hd hf => ?_, fun s t c h hd hf => ?_, fun s t c d h hf hd hmax => ?_⟩
  · obtain ⟨y, hy, hfill, hdrain, hlost, hout⟩ := queueWrite_lost_effect h (PPQ.put_overwrites hf hd d)
    exact ⟨y, hy, hfill, hdrain, hlost.trans (State.rd_bump_lt _ _ _ _ hspan), hout⟩
  · exact queueRead_effect (q := { s.queue t c with drain := r }) (i := some d) h (by simp [PPQ.take, hd])
  · have hq : (wmStatusRead t c s).queue t c = (s.queue t c).seen := State.queue_setQueue_self ..
    refine ⟨_, exec_wmStatusRead t c s, ?_⟩
    rw [State.done_queue, hq, State.done_out]
    exact ⟨rfl, rfl, rfl, rfl, rfl⟩
  · obtain ⟨y, hy, hfill, hdrain, hkept⟩ := queueWrite_kept_effect h (PPQ.put_swaps hf hd d)
    exact ⟨y, hy, hdrain, hfill, hkept⟩
  · exact queueRead_effect (q := { s.queue t c with drain := r, fill := [] }) (i := some d) h (by simp [PPQ.take, hd, hf])
  · obtain ⟨y, hy, hdrain, hfill, hregs, -⟩ := queueRead_effect (q := s.queue t c) (i := none) h (by simp [PPQ.take, hd, hf])
    exact ⟨y, hy, hdrain.trans hd, hfill.trans hf, hregs⟩
  · obtain ⟨y, hy, hfill, hdrain, hlost, -⟩ := queueWrite_lost_effect h (PPQ.put_overwrites hf hd d)
    refine ⟨y, hy, hfill, hdrain, hlost.trans ?_⟩
    rw [State.rd_bump_self, hmax]
    rfl

end Sys2Proof.Machine

namespace Sys2Proof.Machine

/-! ### What the vault's general slots and the legal log leave (R464, R466, R598)

They change the vault's part of the tile, its event queue, its values and records; the queue of the Pier's events takes a copy of a fault. -/

section
variable {β : Type} (g : State → β) (t : TileId) (hw : ∀ x e n v i, g (State.wr x e n v i) = g x) (hv : ∀ x f, g (State.onVault x t f) = g x)

include hv in
theorem State.setSlot_keeps (s : State) (n : Nat) (key : Bytes) : g (s.setSlot t n key) = g s := hv _ _

include hv in
theorem State.deriveSlots_keeps (s : State) : g (s.deriveSlots t) = g s := by
  unfold State.deriveSlots
  dsimp only
  cases (s.vol t).vault.tileKek <;> cases (s.vol t).vault.bayKek <;> simp only [State.setSlot_keeps g t hv]

include hw hv in
theorem State.loadSlot_keeps (s : State) (n place : Nat) : g (s.loadSlot t n place) = g s := by
  unfold State.loadSlot
  split
  · exact (State.setSlot_keeps g t hv _ _ _).trans (hw _ _ _ _ _)
  · exact hv _ _

include hw hv in
theorem State.refillSlot_keeps (s : State) (n : Nat) : g (s.refillSlot t n) = g s := by
  unfold State.refillSlot
  split
  · exact State.deriveSlots_keeps g t hv _
  · split
    · split
      · exact State.loadSlot_keeps g t hw hv _ _ _
      · rfl
    · split
      · exact hv _ _
      · exact State.loadSlot_keeps g t hw hv _ _ _

variable (hq : ∀ x q, g (State.setQueue x t 6 q) = g x) (hp : ∀ x q, g (State.onPier x fun p => { p with evq := q }) = g x)

include hw hv hq hp in
theorem State.useSlot_keeps (s : State) (n : Nat) : g (s.useSlot t n).1 = g s := by
  unfold State.useSlot
  split
  · split
    · refine (State.refillSlot_keeps g t hw hv _ _).trans ?_
      exact (State.event_keeps g t hq (fun _ _ => hw _ _ _ _ _) (fun _ _ => hw _ _ _ _ _) hp (fun _ _ => hw _ _ _ _ _) _ _ _ _ _ _).trans (hw _ _ _ _ _)
    · rfl
  · rfl

variable (hl : ∀ x (f : List LegalEnt → List LegalEnt), g (State.onTile x t fun y => { y with legal := f y.legal }) = g x) (hf : ∀ x k f, g (State.fieldsMeter x t k f) = g x)

include hw hv hq hp hl hf in
theorem State.legalLog_keeps (s : State) (code : Nat) (data : Bytes) : g (s.legalLog t code data) = g s := by
  unfold State.legalLog
  split
  · unfold State.latchLocal
    split
    · exact (State.latchFlag_keeps g t hf _ _ _).trans (hw _ _ _ _ _)
    · exact hw _ _ _ _ _
  · unfold State.legalPut
    dsimp only
    exact (hw _ _ _ _ _).trans ((hl _ fun l => l ++ [_]).trans (State.useSlot_keeps g t hw hv hq hp _ _))

end

/-! ### The controls of a bay and of its tiles (R628, R629, R637) -/

theorem exec_diagUnlock (bays secs : Nat) (s : State) :
    exec (.diagUnlock bays secs) s = .next (s.done ((diagUnlockDo bays secs s).1.answer 255 (diagUnlockDo bays secs s).2)) := rfl
theorem exec_diagLock (bays : Nat) (s : State) : exec (.diagLock bays) s = .next (s.done ((diagLockDo bays s).1.answer 255 (diagLockDo bays s).2)) := rfl
theorem exec_unlockExpiry (b : BayId) (s : State) : exec (.unlockExpiry b) s = .next (s.done (unlockExpiry b s)) := rfl

theorem bayOf_tileOf (b : BayId) (o : Bool) : bayOf (tileOf b o) = b := by
  apply Fin.ext
  cases o <;> simp [bayOf, tileOf, b2n]
  omega

theorem tileOf_inj {b c : BayId} {o p : Bool} (h : tileOf b o = tileOf c p) : b = c ∧ o = p := by
  have hv : 2 * b.val + b2n o = 2 * c.val + b2n p := congrArg Fin.val h
  have hfst : b2n o < 2 ∧ b2n p < 2 := ⟨by cases o <;> decide, by cases p <;> decide⟩
  have hsnd : b2n o = b2n p := by omega
  refine ⟨Fin.ext (by omega), ?_⟩
  cases o <;> cases p <;> trivial

/-- Positions 0, 1 and 2 are those below 3. -/
theorem ite_below_three {α : Type} (j : Nat) (x y : α) : (if j = 2 then x else if j = 1 then x else if j = 0 then x else y) = if j < 3 then x else y := by
  by_cases h : j < 3
  · rw [if_pos h]
    split_ifs
    · rfl
    · rfl
    · rfl
    · omega
  · rw [if_neg h, if_neg (by omega), if_neg (by omega), if_neg (by omega)]

/-- One position of a list of armed controls after another was set. -/
theorem getD_set_none {α : Type} (l : List (Option α)) (k j : Nat) : ((l.set k none)[j]?).getD none = if j = k then none else (l[j]?).getD none := by
  by_cases h : j = k
  · subst h
    simp only [if_pos, List.getElem?_set_self']
    cases l[j]? <;> rfl
  · rw [if_neg h, List.getElem?_set_ne (Ne.symm h)]

/-- When the unlock of a bay ends, its own controls, and those of its two tiles. -/
structure BayControls where
  till : Nat
  bay : Nat → Option BayArm
  tiles : Bool → Nat → Option Arm

def State.controls (s : State) (b : BayId) : BayControls := ⟨(s.bay b).unlockTo, s.bayArm b, fun o => s.tileArm (tileOf b o)⟩

theorem State.controls_eq_iff {x : State} {b : BayId} {c : BayControls} :
    x.controls b = c ↔ (x.bay b).unlockTo = c.till ∧ (∀ k, x.bayArm b k = c.bay k) ∧ ∀ o k, x.tileArm (tileOf b o) k = c.tiles o k := by
  obtain ⟨n, f, h⟩ := c
  simp only [State.controls, BayControls.mk.injEq, funext_iff]

theorem State.controls_congr {s x : State} {b : BayId} (hu : (x.bay b).unlockTo = (s.bay b).unlockTo) (ha : (x.bay b).arms = (s.bay b).arms)
    (ht : ∀ o, (x.vol (tileOf b o)).diag.arms = (s.vol (tileOf b o)).diag.arms) : x.controls b = s.controls b := by
  unfold State.controls State.bayArm State.tileArm
  simp only [hu, ha, ht]

@[simp] theorem State.controls_pierEvent (s : State) (w sev code obj a c : Nat) (b : BayId) : (s.pierEvent w sev code obj a c).controls b = s.controls b :=
  State.controls_congr (by simp) (by simp) (by simp)

/-- The end of a tile control disarms it alone. -/
theorem State.tileArm_endTileArm (s : State) (t : TileId) (k reason j : Nat) :
    (s.endTileArm t k reason).tileArm t j = if j = k then none else s.tileArm t j := by
  unfold State.endTileArm
  split
  case h_1 h =>
    split
    · subst j; exact h
    · rfl
  case h_2 =>
    unfold State.tileArm
    dsimp only
    rw [State.event_diag, ← getD_set_none]
    split
    · simp
    · split <;> simp [State.returnCredits]

theorem State.endTileArm_bays (s : State) (t : TileId) (k reason : Nat) : (s.endTileArm t k reason).bays = s.bays := by
  unfold State.endTileArm
  split
  · rfl
  · dsimp only
    rw [State.event_bays]
    split
    · rfl
    · split <;> rfl

theorem State.vol_onVol_ne {s : State} {t u : TileId} (h : u ≠ t) (f : Vol → Vol) : (s.onVol t f).vol u = s.vol u :=
  congrArg Tile.vol (State.tile_onTile_ne s t u _ h)

theorem State.endTileArm_other {s : State} {t u : TileId} (h : u ≠ t) (k reason : Nat) : ((s.endTileArm t k reason).vol u).diag = (s.vol u).diag := by
  unfold State.endTileArm
  split
  · rfl
  · dsimp only
    rw [State.event_diag]
    split
    · rw [State.vol_onVol_ne h, State.vol_onVol_ne h]
    · split
      · rw [State.returnCredits, State.vol_onVol_ne h, State.vol_onVol_ne h]
      · rw [State.vol_onVol_ne h]

/-- The end of a bay control disarms it alone. -/
theorem State.bayArm_endBayArm (s : State) (b : BayId) (k reason j : Nat) : (s.endBayArm b k reason).bayArm b j = if j = k then none else s.bayArm b j := by
  unfold State.endBayArm
  split
  case h_1 h =>
    split
    · subst j; exact h
    · rfl
  case h_2 =>
    unfold State.bayArm
    rw [State.bay_pierEvent, ← getD_set_none, State.bay_onBay_self]
    split <;> rfl

theorem State.endBayArm_unlockTo (s : State) (b : BayId) (k reason : Nat) (c : BayId) : ((s.endBayArm b k reason).bay c).unlockTo = (s.bay c).unlockTo := by
  unfold State.endBayArm
  split
  · rfl
  · rw [State.bay_pierEvent]
    exact State.onBay_keeps Bay.unlockTo (fun y => by dsimp only; split <;> rfl) s b c

theorem State.endBayArm_tiles (s : State) (b : BayId) (k reason : Nat) : (s.endBayArm b k reason).tiles = s.tiles := by
  unfold State.endBayArm
  split
  · rfl
  · rw [State.tiles_pierEvent]
    rfl

theorem State.endBayArm_other {s : State} {b c : BayId} (h : c ≠ b) (k reason : Nat) : (s.endBayArm b k reason).bay c = s.bay c := by
  unfold State.endBayArm
  split
  · rfl
  · rw [State.bay_pierEvent, State.bay_onBay_ne _ _ _ _ h]

/-! Every control -/

theorem State.endTileArms_bays (s : State) (t : TileId) (reason : Nat) : (s.endTileArms t reason).bays = s.bays :=
  State.each_keeps State.bays _ _ _ fun _ _ => State.endTileArm_bays _ _ _ _

theorem State.endTileArms_other {s : State} {t u : TileId} (h : u ≠ t) (reason : Nat) : ((s.endTileArms t reason).vol u).diag = (s.vol u).diag :=
  State.each_keeps (fun x => (x.vol u).diag) _ _ _ fun _ _ => State.endTileArm_other h _ _

theorem State.tileArm_endTileArms (s : State) (t : TileId) (reason j : Nat) :
    (s.endTileArms t reason).tileArm t j = if j < 3 then none else s.tileArm t j := by
  have hr : s.endTileArms t reason = ((s.endTileArm t 0 reason).endTileArm t 1 reason).endTileArm t 2 reason := rfl
  rw [hr, State.tileArm_endTileArm, State.tileArm_endTileArm, State.tileArm_endTileArm, ite_below_three]

/-- The three controls of the bay itself. -/
def State.endOwnArms (s : State) (b : BayId) (reason : Nat) : State := (List.range 3).foldl (fun s k => s.endBayArm b k reason) s

theorem State.endBayArms_eq (s : State) (b : BayId) (reason : Nat) :
    s.endBayArms b reason = ((s.endOwnArms b reason).endTileArms (tileOf b false) reason).endTileArms (tileOf b true) reason := rfl

theorem State.endOwnArms_unlockTo (s : State) (b : BayId) (reason : Nat) (c : BayId) : ((s.endOwnArms b reason).bay c).unlockTo = (s.bay c).unlockTo :=
  State.each_keeps (fun x => (x.bay c).unlockTo) _ _ _ fun _ _ => State.endBayArm_unlockTo _ _ _ _ _

theorem State.endOwnArms_tiles (s : State) (b : BayId) (reason : Nat) : (s.endOwnArms b reason).tiles = s.tiles :=
  State.each_keeps State.tiles _ _ _ fun _ _ => State.endBayArm_tiles _ _ _ _

theorem State.endOwnArms_other {s : State} {b c : BayId} (h : c ≠ b) (reason : Nat) : (s.endOwnArms b reason).bay c = s.bay c :=
  State.each_keeps (fun x => x.bay c) _ _ _ fun _ _ => State.endBayArm_other h _ _

theorem State.bayArm_endOwnArms (s : State) (b : BayId) (reason j : Nat) :
    (s.endOwnArms b reason).bayArm b j = if j < 3 then none else s.bayArm b j := by
  have hr : s.endOwnArms b reason = ((s.endBayArm b 0 reason).endBayArm b 1 reason).endBayArm b 2 reason := rfl
  rw [hr, State.bayArm_endBayArm, State.bayArm_endBayArm, State.bayArm_endBayArm, ite_below_three]

/-- No control below 3 is armed. -/
def BayControls.disarmed (c : BayControls) : BayControls where
  till := c.till
  bay k := if k < 3 then none else c.bay k
  tiles o k := if k < 3 then none else c.tiles o k

theorem State.bay_congr {s x : State} (h : x.bays = s.bays) (b : BayId) : x.bay b = s.bay b := by
  unfold State.bay
  rw [h]

theorem State.tileArm_congr {s x : State} {t : TileId} (h : (x.vol t).diag = (s.vol t).diag) (k : Nat) : x.tileArm t k = s.tileArm t k := by
  unfold State.tileArm
  rw [h]

/-- Of the bay itself the end of every control leaves what the end of its own three does. -/
theorem State.bay_endBayArms (s : State) (b c : BayId) (reason : Nat) : (s.endBayArms b reason).bay c = (s.endOwnArms b reason).bay c := by
  rw [State.endBayArms_eq]
  exact State.bay_congr ((State.endTileArms_bays _ _ _).trans (State.endTileArms_bays _ _ _)) c

theorem State.tileArm_endOwnArms (s : State) (b : BayId) (reason : Nat) (t : TileId) (k : Nat) : (s.endOwnArms b reason).tileArm t k = s.tileArm t k :=
  State.tileArm_congr (congrArg Vol.diag (State.vol_congr (State.endOwnArms_tiles s b reason) t)) k

theorem State.tileArm_endBayArms (s : State) (b : BayId) (reason : Nat) (o : Bool) (k : Nat) :
    (s.endBayArms b reason).tileArm (tileOf b o) k = if k < 3 then none else s.tileArm (tileOf b o) k := by
  rw [State.endBayArms_eq, ← State.tileArm_endOwnArms s b reason]
  cases o with
  | true => rw [State.tileArm_endTileArms, State.tileArm_congr (State.endTileArms_other (tileOf_ne b).symm reason)]
  | false => rw [State.tileArm_congr (State.endTileArms_other (tileOf_ne b) reason), State.tileArm_endTileArms]

theorem State.tileArm_endBayArms_other {s : State} {b : BayId} {u : TileId} (h : ∀ o, u ≠ tileOf b o) (reason k : Nat) :
    (s.endBayArms b reason).tileArm u k = s.tileArm u k := by
  rw [State.endBayArms_eq, State.tileArm_congr (State.endTileArms_other (h true) reason), State.tileArm_congr (State.endTileArms_other (h false) reason),
    State.tileArm_endOwnArms]

theorem State.controls_endBayArms (s : State) (b : BayId) (reason : Nat) : (s.endBayArms b reason).controls b = (s.controls b).disarmed := by
  refine State.controls_eq_iff.2 ⟨?_, fun k => ?_, fun o k => State.tileArm_endBayArms s b reason o k⟩
  · rw [State.bay_endBayArms, State.endOwnArms_unlockTo]
    rfl
  · refine Eq.trans ?_ (State.bayArm_endOwnArms s b reason k)
    unfold State.bayArm
    rw [State.bay_endBayArms]

theorem State.controls_endBayArms_other {s : State} {b c : BayId} (h : c ≠ b) (reason : Nat) : (s.endBayArms b reason).controls c = s.controls c := by
  have hbay : (s.endBayArms b reason).bay c = s.bay c := by rw [State.bay_endBayArms, State.endOwnArms_other h]
  refine State.controls_eq_iff.2 ⟨congrArg Bay.unlockTo hbay, fun k => ?_, fun o k => ?_⟩
  · unfold State.controls State.bayArm
    rw [hbay]
  · exact State.tileArm_endBayArms_other (fun p e => h (tileOf_inj e).1) reason k

/-! The end of an unlock -/

/-- What the end of an unlock makes of a bay's controls: nothing where the bay is not unlocked. -/
def BayControls.locked (c : BayControls) : BayControls := if c.till = 0 then c else { c.disarmed with till := 0 }

theorem State.controls_endUnlock (s : State) (b : BayId) : (s.endUnlock b).controls b = (s.controls b).locked := by
  unfold State.endUnlock BayControls.locked
  split
  case isTrue h => exact (if_pos h).symm
  case isFalse h =>
    have hbay : (s.onBay b fun x => { x with unlockTo := 0 }).controls b = { s.controls b with till := 0 } :=
      State.controls_eq_iff.2 ⟨by rw [State.bay_onBay_self], fun k => by unfold State.bayArm; rw [State.bay_onBay_self]; rfl, fun _ _ => rfl⟩
    rw [State.controls_endBayArms, hbay]
    exact (if_neg h).symm

theorem State.controls_endUnlock_other {s : State} {b c : BayId} (h : c ≠ b) : (s.endUnlock b).controls c = s.controls c := by
  unfold State.endUnlock
  split
  · rfl
  · rw [State.controls_endBayArms_other h]
    exact State.controls_congr (by rw [State.bay_onBay_ne _ _ _ _ h]) (by rw [State.bay_onBay_ne _ _ _ _ h]) fun _ => rfl

/-- A locked bay has no armed control. -/
theorem locked_of_controls {s x : State} {b : BayId} (h : x.controls b = (s.controls b).locked) (hu : (s.bay b).unlockTo ≠ 0) :
    (x.bay b).unlockTo = 0 ∧ ∀ k, k < 3 → x.bayArm b k = none ∧ ∀ o, x.tileArm (tileOf b o) k = none := by
  have hl : (s.controls b).locked = { (s.controls b).disarmed with till := 0 } := if_neg hu
  obtain ⟨htill, hbay, htiles⟩ := State.controls_eq_iff.1 (h.trans hl)
  exact ⟨htill, fun k hk => ⟨(hbay k).trans (if_pos hk), fun o => (htiles o k).trans (if_pos hk)⟩⟩

/-- A step for each bay that changes what is read of that bay alone. -/
theorem State.foldl_each_bay {β : Type} (g : State → BayId → β) (w : BayId → β → β) (f : State → BayId → State) (hs : ∀ x b, g (f x b) b = w b (g x b))
    (ho : ∀ x b c, c ≠ b → g (f x b) c = g x c) (s : State) (b : BayId) : g (allBays.foldl f s) b = w b (g s b) := by
  have outside : ∀ (l : List BayId) (x : State), b ∉ l → g (l.foldl f x) b = g x b := fun l x hl => by
    induction l generalizing x with
    | nil => rfl
    | cons a l ih =>
      rw [List.mem_cons, not_or] at hl
      rw [List.foldl_cons, ih _ hl.2, ho _ _ _ hl.1]
  have inside : ∀ (l : List BayId) (x : State), l.Nodup → b ∈ l → g (l.foldl f x) b = w b (g x b) := fun l x hn hb => by
    induction l generalizing x with
    | nil => cases hb
    | cons a l ih =>
      obtain ⟨ha, hn⟩ := List.nodup_cons.1 hn
      rw [List.foldl_cons]
      by_cases h : b = a
      · subst h
        rw [outside l _ ha, hs]
      · rw [ih _ hn ((List.mem_cons.1 hb).resolve_left h), ho _ _ _ h]
  exact inside allBays s (List.nodup_finRange 8) (List.mem_finRange b)

/-! ### Unlock and lock (R628) -/

/-- A bay of the mask whose seal is open is unlocked until `now` plus the time. -/
def State.unlockBay (bays secs : Nat) (s : State) (b : BayId) : State :=
  if bit bays b.val && !(s.bay b).legalEn then s.onBay b fun x => { x with unlockTo := s.now + secs * 1000000000 } else s

/-- A bay of the mask is locked. -/
def State.lockBay (bays : Nat) (s : State) (b : BayId) : State := if bit bays b.val then s.endUnlock b else s

theorem diagUnlockDo_accepted {s : State} {bays secs : Nat} (hb : bays ≤ 255) (hlo : 60 ≤ secs) (hhi : secs ≤ 86400) :
    diagUnlockDo bays secs s = ((allBays.foldl (State.unlockBay bays secs) s).pierEvent 0xFF 1 0x1E01 (unlockObj 0) secs bays, .ok) := by
  unfold diagUnlockDo
  rw [if_neg (by omega)]
  rfl

theorem diagLockDo_accepted {s : State} {bays : Nat} (hb : bays ≤ 255) :
    diagLockDo bays s = ((allBays.foldl (State.lockBay bays) s).pierEvent 0xFF 0 0x1E02 (unlockObj 1) 0 bays, .ok) := by
  unfold diagLockDo
  rw [if_neg (by omega)]
  rfl

theorem State.unlockBay_keeps {β : Type} (g : State → β) (h : ∀ x b f, g (State.onBay x b f) = g x) (bays secs : Nat) (s : State) (b : BayId) :
    g (s.unlockBay bays secs b) = g s := by
  unfold State.unlockBay
  split
  · exact h _ _ _
  · rfl

/-- What an unlock reads and sets of a bay: the end of its time, its seal, and the clock count. -/
theorem State.unlockBays_unlockTo (s : State) (bays secs : Nat) (b : BayId) :
    ((allBays.foldl (State.unlockBay bays secs) s).bay b).unlockTo =
      if bit bays b.val = true ∧ (s.bay b).legalEn = false then s.now + secs * 1000000000 else (s.bay b).unlockTo := by
  have h := State.foldl_each_bay (fun x c => ((x.bay c).unlockTo, (x.bay c).legalEn, x.now))
    (fun c r => (if bit bays c.val = true ∧ r.2.1 = false then r.2.2 + secs * 1000000000 else r.1, r.2)) (State.unlockBay bays secs)
    (fun x c => by
      unfold State.unlockBay
      by_cases hc : bit bays c.val = true ∧ (x.bay c).legalEn = false
      · simp [hc]
      · rw [if_neg (by simpa using hc), if_neg hc])
    (fun x c d hd => by
      unfold State.unlockBay
      split
      · rw [State.bay_onBay_ne _ _ _ _ hd]
        rfl
      · rfl) s b
  exact congrArg Prod.fst h

theorem State.lockBays_controls (s : State) (bays : Nat) (b : BayId) :
    (allBays.foldl (State.lockBay bays) s).controls b = if bit bays b.val = true then (s.controls b).locked else s.controls b :=
  State.foldl_each_bay State.controls (fun c r => if bit bays c.val = true then r.locked else r) (State.lockBay bays)
    (fun x c => by
      unfold State.lockBay
      split
      · exact State.controls_endUnlock x c
      · rfl)
    (fun x c d hd => by
      unfold State.lockBay
      split
      · exact State.controls_endUnlock_other hd
      · rfl) s b

theorem State.lockBays_out (s : State) (bays : Nat) : (allBays.foldl (State.lockBay bays) s).out = s.out :=
  State.each_keeps State.out _ _ _ fun x c => by
    unfold State.lockBay
    split
    · exact ((FeederLogKept.refl x).endUnlock c).out
    · rfl

theorem unlockExpiry_over {s : State} {b : BayId} (hu : (s.bay b).unlockTo ≠ 0) (hl : s.unlocked b = false) : unlockExpiry b s = s.endUnlock b := by
  unfold unlockExpiry
  rw [if_pos ⟨hu, hl⟩]

@[simp] theorem State.controls_answer (s : State) (n : Nat) (st : Status) (b : BayId) : (s.answer n st).controls b = s.controls b := rfl
@[simp] theorem State.controls_done (s x : State) (b : BayId) : (s.done x).controls b = x.controls b :=
  State.controls_congr (by simp) (by simp) (by simp)

/-- What a lock leads to. -/
theorem diagLock_effect {s : State} {bays : Nat} (hb : bays ≤ 255) (b : BayId) :
    (s.done ((diagLockDo bays s).1.answer 255 (diagLockDo bays s).2)).controls b = if bit bays b.val = true then (s.controls b).locked else s.controls b := by
  rw [diagLockDo_accepted hb, State.controls_done, State.controls_answer, State.controls_pierEvent, State.lockBays_controls]

theorem BayControls.locked_till (c : BayControls) : c.locked.till = 0 := by
  unfold BayControls.locked
  split
  case isTrue h => exact h
  case isFalse => rfl

/-- Settles O57: an unlock and a lock go through the bays of their mask one by one. -/
theorem diagLock : Obligations.DiagLock := by
  refine ⟨fun s bays secs hb hlo hhi => ⟨_, exec_diagUnlock bays secs s, ?_, fun u => ?_, fun b => ?_⟩,
    fun s bays hb => ⟨_, exec_diagLock bays s, ?_, fun b => ?_⟩, fun s b hu hl => ?_⟩
  · rw [diagUnlockDo_accepted hb hlo hhi, State.done_out, State.answer_out_eq, State.out_pierEvent]
    exact congrArg (· ++ _) (State.each_keeps State.out _ _ _ (State.unlockBay_keeps State.out (fun _ _ _ => rfl) bays secs))
  · rw [diagUnlockDo_accepted hb hlo hhi, State.done_vol, State.vol_answer, State.vol_pierEvent]
    exact State.each_keeps (fun x => x.vol u) _ _ _ (State.unlockBay_keeps (fun x => x.vol u) (fun _ _ _ => rfl) bays secs)
  · rw [diagUnlockDo_accepted hb hlo hhi, State.done_bay, State.bay_answer, State.bay_pierEvent, State.unlockBays_unlockTo]
  · rw [diagLockDo_accepted hb, State.done_out, State.answer_out_eq, State.out_pierEvent, State.lockBays_out]
  · refine (congrArg BayControls.till (diagLock_effect (s := s) hb b)).trans ?_
    split
    · exact BayControls.locked_till _
    · rfl
  · rw [exec_unlockExpiry, unlockExpiry_over hu hl]

/-! ### The end of an unlock (R629) -/

/-- A change of a tile that leaves what its controls are. -/
theorem State.controls_onTile (s : State) (t : TileId) (f : Tile → Tile) (hf : ∀ y, (f y).vol.diag = y.vol.diag) (b : BayId) :
    (s.onTile t f).controls b = s.controls b :=
  State.controls_congr rfl rfl fun o => State.onTile_keeps (fun y => y.vol.diag.arms) (fun y => by rw [hf]) s t (tileOf b o)

theorem State.controls_onVol (s : State) (t : TileId) (f : Vol → Vol) (hf : ∀ v, (f v).diag = v.diag) (b : BayId) : (s.onVol t f).controls b = s.controls b :=
  State.controls_onTile s t (fun y => { y with vol := f y.vol }) (fun y => hf y.vol) b

/-- What a tile logs of its seal leaves the controls. -/
theorem State.controls_logSeal (s : State) (on : Bool) (t : TileId) (b : BayId) : (s.logSeal on t).controls b = s.controls b := by
  have hmirror : ∀ (x : State) (i : MItem) (n : Nat), (x.mirror t i n).controls b = x.controls b := fun x i n =>
    State.controls_congr (State.mirror_unlockTo x t i n b) (State.mirror_arms x t i n b) fun o => by rw [State.vol_mirror]
  unfold State.logSeal
  split
  · exact State.legalLog_keeps (fun x => x.controls b) t (fun _ _ _ _ _ => rfl)
      (fun x f => State.controls_onVol x t (fun v => { v with vault := f v.vault }) (fun _ => rfl) b)
      (fun x q => State.controls_onVol x t (fun v => { v with queues := v.queues.set 6 q }) (fun _ => rfl) b) (fun _ _ => rfl)
      (fun x f => State.controls_onTile x t (fun y => { y with legal := f y.legal }) (fun _ => rfl) b)
      (State.fieldsMeter_keeps (fun x => x.controls b) t
        (fun x f => State.controls_onVol x t (fun v => { v with meters := f v.meters }) (fun _ => rfl) b) hmirror · · · _) s _ _
  · rfl

/-- The assertion of LEGAL_EN_N ends the bay's unlock. -/
theorem State.controls_sealAssert {s : State} {b : BayId} (hup : s.pier.up = true) (he : (s.bay b).legalEn = false) :
    (sealChange b true s).controls b = (s.controls b).locked := by
  have hshown : (s.sealShown b true).controls b = s.controls b :=
    State.controls_congr (State.onBay_keeps Bay.unlockTo (f := fun x => { x with legalEn := true }) (fun _ => rfl) s b b)
      (State.onBay_keeps Bay.arms (f := fun x => { x with legalEn := true }) (fun _ => rfl) s b b) fun _ => rfl
  rw [sealChange_logs hup (by simp [he]), State.controls_logSeal, State.controls_logSeal]
  exact (State.controls_endUnlock _ b).trans (by rw [State.controls_pierEvent, hshown])

/-- Settles O58: each of the three ways goes through `State.endUnlock`, which disarms every control of the bay and of its tiles. -/
theorem unlockEndsControls : Obligations.UnlockEndsControls := by
  refine ⟨fun s bays b hb hm hu => ⟨_, exec_diagLock bays s, locked_of_controls (s := s) ?_ hu⟩,
    fun s b hu hl => ⟨_, exec_unlockExpiry b s, locked_of_controls (s := s) ?_ hu⟩,
    fun s b hup he hu => ⟨_, exec_sealAssert b s, locked_of_controls (s := s) ?_ hu⟩⟩
  · rw [diagLock_effect hb, if_pos hm]
  · rw [State.controls_done, unlockExpiry_over hu hl, State.controls_endUnlock]
  · rw [State.controls_done, State.controls_sealAssert hup he]

end Sys2Proof.Machine

namespace Sys2Proof.Machine

/-! ### The perturbation controls (R630 to R637) -/

theorem exec_egressDelay (t : TileId) (r : Bytes) (s : State) : exec (.egressDelay t r) s = .next (s.done (armTileCmd t 0 r s)) := rfl
theorem exec_creditStarve (t : TileId) (r : Bytes) (s : State) : exec (.creditStarve t r) s = .next (s.done (armTileCmd t 1 r s)) := rfl
theorem exec_nandFail (t : TileId) (r : Bytes) (s : State) : exec (.nandFail t r) s = .next (s.done (armTileCmd t 2 r s)) := rfl
theorem exec_lostInject (t : TileId) (r : Bytes) (s : State) : exec (.lostInject t r) s = .next (s.done (armTileCmd t 3 r s)) := rfl
theorem exec_mirrorDelay (b : BayId) (r : Bytes) (s : State) : exec (.mirrorDelay b r) s = .next (s.done (armBayCmd b 0 r s)) := rfl
theorem exec_pmbusDelay (b : BayId) (r : Bytes) (s : State) : exec (.pmbusDelay b r) s = .next (s.done (armBayCmd b 1 r s)) := rfl
theorem exec_auditMismatch (b : BayId) (r : Bytes) (s : State) : exec (.auditMismatch b r) s = .next (s.done (armBayCmd b 2 r s)) := rfl
theorem exec_mirrorLost (b : BayId) (r : Bytes) (s : State) : exec (.mirrorLost b r) s = .next (s.done (armBayCmd b 3 r s)) := rfl
theorem exec_controlDisarm (t : TileId) (ofBay : Bool) (k : Fin 4) (s : State) :
    exec (.controlDisarm t ofBay k) s = .next (s.done (controlDisarm t ofBay k s)) := rfl
theorem exec_controlExpiry (t : TileId) (ofBay : Bool) (k : Fin 4) (s : State) :
    exec (.controlExpiry t ofBay k) s = .next (s.done (controlExpiry t ofBay k s)) := rfl

theorem State.now_event (s : State) (t : TileId) (a b x y z : Nat) : (s.event t a b x y z).now = s.now :=
  State.event_keeps State.now t (fun _ _ => rfl) (fun _ _ => rfl) (fun _ _ => rfl) (fun _ _ => rfl) (fun _ _ => rfl) _ _ _ _ _ _

theorem quiet_device_diag_arms : Reg.device_diag_arms.quiet 0 = true := by decide

/-- The counted and logged start of a tile control. -/
def State.tileControlStarts (s : State) (t : TileId) (k : Nat) (a : ArmIn) : State :=
  (s.bump Reg.device_diag_arms 0).event t 1 0x1E03 (diagObjT t k) a.dur a.p1

/-- The control as the tile holds it. -/
def ArmIn.armed (a : ArmIn) (now : Nat) : Arm := { p1 := a.p1, p2 := a.p2, p3 := a.p3, until_ := now + a.dur * 1000000000, count := a.p2 }

def State.setTileArm (s : State) (t : TileId) (k : Nat) (x : Arm) : State :=
  s.onVol t fun v => { v with diag := { v.diag with arms := v.diag.arms.set k (some x) } }

/-- A control that lasts is armed; CREDIT_STARVE returns the credits it held and takes those of its new ceiling. -/
def State.armTileControl (s : State) (t : TileId) (k : Nat) (a : ArmIn) : State :=
  let y := s.tileControlStarts t k a
  let z := (if k = 1 then y.returnCredits t else y).setTileArm t k (a.armed s.now)
  if k = 1 then z.starve t else z

section
variable {s : State} {t : TileId} {k : Fin 4} {r : Bytes} (hlen : r.length = 16) (hnz : leNat r ≠ 0)
include hlen hnz

/-- What the write of an arm record does where the checks of R630 pass. -/
theorem armTile_passes {P : State × Status → Prop}
    (hc : s.armCheck (bayOf t) (ArmIn.parse r) (decide (k.val = 3)) (tileArmOk k (ArmIn.parse r)) (decide (k.val ≠ 2) || decide (s.rd Reg.media_state t = 3)) = none)
    (hone : k.val = 3 → P ((((s.tileControlStarts t k (ArmIn.parse r)).lostInject t ⟨(ArmIn.parse r).p1 % 7, Nat.mod_lt _ (by decide)⟩ (ArmIn.parse r).p2).event
      t 0 0x1E04 (diagObjT t k) 0, .ok)))
    (hlast : k.val ≠ 3 → P (s.armTileControl t k (ArmIn.parse r), .ok)) : P (armTile t k r s) := by
  have hnow : ∀ x : State, (if k.val = 1 then x.returnCredits t else x).now = x.now := fun x => by split <;> rfl
  unfold armTile
  rw [if_neg (by omega), if_neg hnz]
  dsimp only
  rw [hc]
  dsimp only
  split
  case isTrue h => exact hone h
  case isFalse h =>
    have hl := hlast h
    unfold State.armTileControl State.setTileArm ArmIn.armed at hl
    rw [hnow, State.now_event]
    exact hl

theorem armTileCmd_arms (hk : k.val ≠ 3)
    (hc : s.armCheck (bayOf t) (ArmIn.parse r) false (tileArmOk k (ArmIn.parse r)) (decide (k.val ≠ 2) || decide (s.rd Reg.media_state t = 3)) = none) :
    armTileCmd t k r s = (s.armTileControl t k (ArmIn.parse r)).answer t .ok := by
  unfold armTileCmd
  exact armTile_passes (P := fun p => p.1.answer t p.2 = _) hlen hnz (by rwa [decide_eq_false hk]) (fun h => absurd h hk) fun _ => rfl

theorem armTileCmd_lostInject (hc : s.armCheck (bayOf t) (ArmIn.parse r) true (tileArmOk 3 (ArmIn.parse r)) true = none) :
    armTileCmd t 3 r s = (((s.tileControlStarts t 3 (ArmIn.parse r)).lostInject t ⟨(ArmIn.parse r).p1 % 7, Nat.mod_lt _ (by decide)⟩ (ArmIn.parse r).p2).event
      t 0 0x1E04 (diagObjT t 3) 0).answer t .ok := by
  unfold armTileCmd
  exact armTile_passes (P := fun p => p.1.answer t p.2 = _) hlen hnz hc (fun _ => rfl) fun h => absurd rfl h

end

theorem State.tileControlStarts_arms (s : State) (t : TileId) (k : Nat) (a : ArmIn) :
    ((s.tileControlStarts t k a).vol t).diag = (s.vol t).diag := by
  unfold State.tileControlStarts
  rw [State.event_diag, State.vol_bump]

theorem State.vol_starve_arms (s : State) (t : TileId) : ((s.starve t).vol t).diag.arms = (s.vol t).diag.arms := by
  unfold State.starve
  split
  · rw [State.vol_onVol_self]
  · rfl

theorem State.starve_out (s : State) (t : TileId) : (s.starve t).out = s.out := by unfold State.starve; split <;> rfl
theorem State.starve_rd (s : State) (t : TileId) (d : Entry) (m j : Nat) : (s.starve t).rd d m j = s.rd d m j := by unfold State.starve; split <;> rfl

theorem State.armTileControl_arms (s : State) (t : TileId) (k : Nat) (a : ArmIn) :
    ((s.armTileControl t k a).vol t).diag.arms = (s.vol t).diag.arms.set k (some (a.armed s.now)) := by
  unfold State.armTileControl State.setTileArm
  dsimp only
  split
  · rw [State.vol_starve_arms, State.vol_onVol_self, State.returnCredits, State.vol_onVol_self]
    dsimp only
    rw [State.tileControlStarts_arms]
  · rw [State.vol_onVol_self]
    dsimp only
    rw [State.tileControlStarts_arms]

theorem State.armTileControl_out (s : State) (t : TileId) (k : Nat) (a : ArmIn) : (s.armTileControl t k a).out = s.out := by
  have hstarts : (s.tileControlStarts t k a).out = s.out := by rw [State.tileControlStarts, State.event_out, State.bump_out]
  unfold State.armTileControl State.setTileArm
  dsimp only
  split
  · rw [State.starve_out, ← hstarts]
    rfl
  · exact hstarts

theorem State.armTileControl_counts (s : State) (t : TileId) (k : Nat) (a : ArmIn) (h : s.rd Reg.device_diag_arms 0 + 1 < Reg.device_diag_arms.span) :
    (s.armTileControl t k a).rd Reg.device_diag_arms 0 = s.rd Reg.device_diag_arms 0 + 1 := by
  have hstarts : (s.tileControlStarts t k a).rd Reg.device_diag_arms 0 = s.rd Reg.device_diag_arms 0 + 1 := by
    rw [State.tileControlStarts, State.rd_event _ _ _ _ _ _ _ _ _ _ quiet_device_diag_arms (fun h => absurd h (by decide)), State.rd_bump_lt _ _ _ _ h]
  unfold State.armTileControl State.setTileArm
  dsimp only
  split
  · rw [State.starve_rd, ← hstarts]
    rfl
  · exact hstarts

/-- What the arming of a tile control leads to. -/
theorem armTileCmd_effect {s : State} {t : TileId} {k : Fin 4} {r : Bytes} (hlen : r.length = 16) (hnz : leNat r ≠ 0) (hk : k.val ≠ 3)
    (hc : s.armCheck (bayOf t) (ArmIn.parse r) false (tileArmOk k (ArmIn.parse r)) (decide (k.val ≠ 2) || decide (s.rd Reg.media_state t = 3)) = none)
    (h : s.rd Reg.device_diag_arms 0 + 1 < Reg.device_diag_arms.span) :
    (s.done (armTileCmd t k r s)).out = s.out ++ [.answer t .ok] ∧
      (s.done (armTileCmd t k r s)).rd Reg.device_diag_arms 0 = s.rd Reg.device_diag_arms 0 + 1 ∧
      ((s.done (armTileCmd t k r s)).vol t).diag.arms = (s.vol t).diag.arms.set k (some ((ArmIn.parse r).armed s.now)) := by
  rw [State.done_out, State.rd_done _ _ _ _ _ quiet_device_diag_arms, State.done_vol, armTileCmd_arms hlen hnz hk hc, State.answer_out_eq, State.rd_answer,
    State.vol_answer, State.armTileControl_out, State.armTileControl_counts _ _ _ _ h, State.armTileControl_arms]
  exact ⟨rfl, rfl, rfl⟩

/-! The controls of a bay -/

def State.bayControlStarts (s : State) (b : BayId) (k : Nat) (a : ArmIn) : State :=
  (s.bump Reg.device_diag_arms 0).pierEvent (0x80 + b.val) 1 0x1E03 (diagObjB b k) a.dur a.p1

def ArmIn.bayArmed (a : ArmIn) (now : Nat) : BayArm := { p1 := a.p1, p2 := a.p2, until_ := now + a.dur * 1000000000, count := a.p2 }

def State.armBayControl (s : State) (b : BayId) (k : Nat) (a : ArmIn) : State :=
  (s.bayControlStarts b k a).onBay b fun y => { y with arms := y.arms.set k (some (a.bayArmed s.now)) }

/-- The condition of order 4 of R630 for a control of a bay. -/
def State.bayControlOkay (s : State) (b : BayId) (k : Fin 4) (a : ArmIn) : Bool :=
  decide ((s.bay b).modeNow = 0) && (decide (k.val ≠ 2) || decide (a.p1 < 2) || (s.promotable b).isSome) && (decide (k.val ≠ 3) || s.hasStandby b)

section
variable {s : State} {b : BayId} {k : Fin 4} {r : Bytes} (hlen : r.length = 16) (hnz : leNat r ≠ 0)
include hlen hnz

theorem armBay_passes {P : State × Status → Prop}
    (hc : s.armCheck b (ArmIn.parse r) (decide (k.val = 3)) (bayArmOk k (ArmIn.parse r)) (s.bayControlOkay b k (ArmIn.parse r)) = none)
    (hone : k.val = 3 → P (((s.bayControlStarts b k (ArmIn.parse r)).mirrorInject b (ArmIn.parse r).p1).pierEvent (0x80 + b.val) 0 0x1E04 (diagObjB b k) 0, .ok))
    (hlast : k.val ≠ 3 → P (s.armBayControl b k (ArmIn.parse r), .ok)) : P (armBay b k r s) := by
  unfold State.bayControlOkay at hc
  unfold armBay
  rw [if_neg (by omega), if_neg hnz]
  dsimp only
  rw [hc]
  dsimp only
  split
  case isTrue h => exact hone h
  case isFalse h =>
    have hl := hlast h
    unfold State.armBayControl ArmIn.bayArmed at hl
    rw [State.now_pierEvent]
    exact hl

/-- What the arming of a bay control leads to. -/
theorem armBayCmd_effect (hk : k.val ≠ 3) (hm : (s.bay b).modeNow = 0) (htwo : k.val = 2 → (ArmIn.parse r).p1 < 2)
    (hc : s.armCheck b (ArmIn.parse r) false (bayArmOk k (ArmIn.parse r)) true = none) :
    (s.done (armBayCmd b k r s)).out = s.out ++ [.answer (128 + b) .ok] ∧
      ((s.done (armBayCmd b k r s)).bay b).arms = (s.bay b).arms.set k (some ((ArmIn.parse r).bayArmed s.now)) := by
  have hokay : s.bayControlOkay b k (ArmIn.parse r) = true := by
    by_cases h2 : k.val = 2
    · simp [State.bayControlOkay, hm, h2, htwo h2]
    · simp [State.bayControlOkay, hm, h2, hk]
  have hcmd : armBayCmd b k r s = (s.armBayControl b k (ArmIn.parse r)).answer (128 + b.val) .ok := by
    unfold armBayCmd
    exact armBay_passes (P := fun p => p.1.answer (128 + b.val) p.2 = _) hlen hnz (by rwa [decide_eq_false hk, hokay]) (fun h => absurd h hk) fun _ => rfl
  rw [State.done_out, State.done_bay, hcmd, State.answer_out_eq, State.bay_answer]
  unfold State.armBayControl State.bayControlStarts
  rw [State.bay_onBay_self, State.onBay_out, State.out_pierEvent, State.bay_pierEvent]
  exact ⟨rfl, rfl⟩

theorem armBayCmd_mirrorLost (hm : (s.bay b).modeNow = 0) (hs : s.hasStandby b = true)
    (hc : s.armCheck b (ArmIn.parse r) true (bayArmOk 3 (ArmIn.parse r)) true = none) :
    armBayCmd b 3 r s = (((s.bayControlStarts b 3 (ArmIn.parse r)).mirrorInject b (ArmIn.parse r).p1).pierEvent (0x80 + b.val) 0 0x1E04 (diagObjB b 3) 0).answer
      (128 + b.val) .ok := by
  have hokay : s.bayControlOkay b 3 (ArmIn.parse r) = true := by simp [State.bayControlOkay, hm, hs]
  unfold armBayCmd
  exact armBay_passes (P := fun p => p.1.answer (128 + b.val) p.2 = _) hlen hnz (by rw [hokay]; exact hc) (fun _ => rfl) fun h => absurd rfl h

end

/-! Disarm and expiry -/

theorem controlDisarm_tile (t : TileId) (k : Fin 4) (s : State) : controlDisarm t false k s = (s.endTileArm t k 1).answer t .ok := by
  unfold controlDisarm armTileCmd armTile
  rw [if_neg (by decide), if_neg (by decide), if_pos (by decide)]

theorem controlDisarm_bay (t : TileId) (k : Fin 4) (s : State) : controlDisarm t true k s = (s.endBayArm (bayOf t) k 1).answer (128 + (bayOf t).val) .ok := by
  unfold controlDisarm armBayCmd armBay
  rw [if_pos rfl, if_neg (by decide), if_pos (by decide)]

theorem controlExpiry_tile {s : State} {t : TileId} {k : Fin 4} {a : Arm} (h : s.tileArm t k = some a) (hu : a.until_ ≤ s.now) :
    controlExpiry t false k s = s.endTileArm t k 0 := by
  unfold controlExpiry
  rw [if_neg (by decide), h]
  exact if_pos (.inl hu)

theorem controlExpiry_bay {s : State} {t : TileId} {k : Fin 4} {a : BayArm} (h : s.bayArm (bayOf t) k = some a) (hu : a.until_ ≤ s.now) :
    controlExpiry t true k s = s.endBayArm (bayOf t) k 0 := by
  unfold controlExpiry
  rw [if_pos rfl, h]
  exact if_pos (.inl hu)

/-- Settles O59: the write of an arm record that passes the checks of R630, for the controls of a tile and of a bay, and the ends of R637. -/
theorem diagControls : Obligations.DiagControls := by
  refine ⟨fun s t r hlen hnz hc hn => ⟨_, exec_egressDelay t r s, armTileCmd_effect hlen hnz (by decide) hc hn⟩,
    fun s t r hlen hnz hc hn => ⟨_, exec_creditStarve t r s, armTileCmd_effect hlen hnz (by decide) hc hn⟩,
    fun s t r hlen hnz hm hc hn => ⟨_, exec_nandFail t r s, armTileCmd_effect hlen hnz (by decide) (by rwa [decide_eq_true hm]) hn⟩,
    fun s y t r a hlen hnz ha hc hy => ?_,
    fun s b r hlen hnz hm hc => ⟨_, exec_mirrorDelay b r s, armBayCmd_effect hlen hnz (by decide) hm (fun h => absurd h (by decide)) hc⟩,
    fun s b r hlen hnz hm hc => ⟨_, exec_pmbusDelay b r s, armBayCmd_effect hlen hnz (by decide) hm (fun h => absurd h (by decide)) hc⟩,
    fun s b r hlen hnz hm hp hc => ⟨_, exec_auditMismatch b r s, armBayCmd_effect hlen hnz (by decide) hm (fun _ => hp) hc⟩,
    fun s y b r a hlen hnz hm hs ha hc hy => ?_,
    fun s t k => by rw [exec_controlDisarm, controlDisarm_tile],
    fun s t k => by rw [exec_controlDisarm, controlDisarm_bay],
    fun s t k a h hu => by rw [exec_controlExpiry, controlExpiry_tile h hu],
    fun s t k a h hu => by rw [exec_controlExpiry, controlExpiry_bay h hu]⟩
  · subst ha hy
    rw [exec_lostInject, armTileCmd_lostInject hlen hnz hc]
    rfl
  · subst ha hy
    rw [exec_mirrorLost, armBayCmd_mirrorLost hlen hnz hm hs hc]
    rfl

end Sys2Proof.Machine

namespace Sys2Proof.Machine

/-! ### Reads and writes through the dictionary (R587, R646, R659, R662) -/

theorem exec_rcCounterRead (index sub : Nat) (s : State) : exec (.rcCounterRead index sub) s = .next (s.done (rcCounterRead index sub s)) := rfl
theorem exec_dictDescribe (s : State) : exec .dictDescribe s = .next (s.done (s.emit (.bytes 255 s.dictDescribe))) := rfl
theorem exec_entryWrite (target index sub rights : Nat) (v : Bytes) (s : State) :
    exec (.entryWrite target index sub v rights) s = .next (s.done (entryWrite target index sub v rights s)) := rfl
theorem exec_restoreDefaults (mask : Nat) (s : State) :
    exec (.restoreDefaults mask) s = .next (s.done ((restoreDefaultsDo mask s).1.answer 255 (restoreDefaultsDo mask s).2)) := rfl

/-- A command that leaves the values queues no page: it ends as its operation leaves the state. -/
theorem State.done_tiles_of_regs {s x : State} (h : x.regs = s.regs) : (s.done x).tiles = x.tiles := by
  unfold State.done persist
  rw [if_pos h.symm]
  rfl

theorem rcCounterRead_given {s y : State} {index sub k : Nat} {g : Tgt} {e : Entry} {b : Bytes} (ha : areaOf index = some g)
    (hc : s.checkItem g.number index sub 0 .get = .ok (g, e, k)) (he : e.acc = .rc) (hr : s.readEntry g e k = (y, .ok b)) :
    rcCounterRead index sub s = y.emit (.value g.number (leNat b)) := by
  unfold rcCounterRead
  rw [ha]
  dsimp only
  rw [hc]
  dsimp only
  rw [if_neg (by simp [he]), hr]

theorem entryWrite_checked {s y : State} {target index sub rights k : Nat} {v : Bytes} {g : Tgt} {e : Entry} {r : Status}
    (hc : s.checkItem target index sub rights .set = .ok (g, e, k)) (hs : s.setEntry g e k none v rights 0 = (y, r)) :
    entryWrite target index sub v rights s = y.answer target r := by
  unfold entryWrite
  rw [hc]
  dsimp only
  rw [hs]

/-! The counter of discarded host frames, at 0x1203 sub-index 6 -/

theorem checkItem_rxDiscard (s : State) : s.checkItem Tgt.dev.number 0x1203 6 0 .get = .ok (.dev, Reg.device_host_rx_discard, 0) := rfl

theorem readEntry_rxDiscard (s : State) :
    s.readEntry .dev Reg.device_host_rx_discard 0 = (s.wr Reg.device_host_rx_discard 0 0 0, .ok (natLE 4 (s.rd Reg.device_host_rx_discard 0))) := rfl

/-! The polarity of PPS, a setting of one byte -/

theorem checkItem_ppsPolarity (s : State) :
    s.checkItem 255 (Reg.device_time_pps_polarity.index 0) Reg.device_time_pps_polarity.sub 3 .set = .ok (.dev, Reg.device_time_pps_polarity, 0) := rfl

theorem setEntry_ppsPolarity {s : State} {v : Nat} (hv : v ≤ 1) (hd : s.rd Reg.device_time_pps_polarity 0 = 1 - v) :
    s.setEntry .dev Reg.device_time_pps_polarity 0 none (natLE 1 v) 3 0 = (s.wr Reg.device_time_pps_polarity 0 v, .ok) := by
  have hstored : s.store .dev Reg.device_time_pps_polarity 0 0 (natLE 1 v) = s.wr Reg.device_time_pps_polarity 0 v := by
    interval_cases v
    · exact if_neg (by rw [show Tgt.dev.unit = 0 from rfl, hd]; decide)
    · exact if_neg (by rw [show Tgt.dev.unit = 0 from rfl, hd]; decide)
  rw [← hstored]
  interval_cases v <;> rfl

/-! The defaults -/

section
variable {s : State} {mask : Nat} (hm : mask < 512) (hfree : ∀ b : BayId, bit mask (b.val + 1) = true → s.bayBusy b = false ∧
  s.legalRuns (tileOf b false) = false ∧ s.legalRuns (tileOf b true) = false)
include hm hfree

theorem restoreDefaultsDo_free : restoreDefaultsDo mask s = (((maskBays mask).foldl (fun (s : State) (b : BayId) => s.clearArea bayEntries b)
    (if bit mask 0 then (s.clearArea deviceEntries 0).refreshUtc else s)).pierEvent 0xFF 0 0x010A 0 mask, .ok) := by
  have hnone : ¬ ((maskBays mask).any fun b => s.bayBusy b || s.legalRuns (tileOf b false) || s.legalRuns (tileOf b true)) = true := by
    rw [List.any_eq_true]
    rintro ⟨b, hb, hbusy⟩
    obtain ⟨h1, h2, h3⟩ := hfree b (List.mem_filter.1 hb).2
    simp [h1, h2, h3] at hbusy
  unfold restoreDefaultsDo
  rw [if_neg (by omega), if_neg hnone]

end

/-- Settles O56: the checked read and write in general, and on the counter and the setting that the clauses name; RESTORE_DEFAULTS where no bay is busy. -/
theorem dictionaryAccess : Obligations.DictionaryAccess := by
  refine ⟨fun s hs => ⟨_, exec_rcCounterRead 0x1203 6 s, ?_⟩, fun s y index sub k g e b ha hc he hr => by rw [exec_rcCounterRead, rcCounterRead_given ha hc he hr],
    fun s => ⟨_, exec_dictDescribe s, by rw [State.done_out]; rfl, State.done_regs _ _ rfl, State.done_tiles_of_regs rfl, State.done_pier _ _⟩,
    fun s y target index sub rights k v g e hc hs => by rw [exec_entryWrite, entryWrite_checked hc hs],
    fun s v hv hd => ⟨_, exec_entryWrite 255 _ _ 3 (natLE 1 v) s, ?_⟩, fun s mask hm h0 hfree => ?_, fun s mask hm hfree h0 => ?_,
    fun s y target index sub rights k v g e r hc hs => by rw [exec_entryWrite, entryWrite_checked hc hs]⟩
  · rw [State.done_rd _ _ _ _ _ (by decide), State.done_out, State.done_pier,
      rcCounterRead_given rfl (checkItem_rxDiscard s) rfl (readEntry_rxDiscard s), leNat_natLE, Nat.mod_eq_of_lt (lt_of_lt_of_le hs (by norm_num))]
    refine ⟨(State.rd_wr_self s Reg.device_host_rx_discard 0 0 0).trans (Nat.zero_mod _), rfl, fun u => by rw [State.done_vol]; rfl, rfl⟩
  · rw [entryWrite_checked (checkItem_ppsPolarity s) (setEntry_ppsPolarity hv hd), State.done_rd _ _ _ _ _ (by decide), State.done_out, State.rd_answer,
      State.rd_wr_self, State.answer_out_eq]
    exact ⟨Nat.mod_eq_of_lt (by have : Reg.device_time_pps_polarity.span = 256 := rfl; omega), rfl⟩
  · rw [exec_restoreDefaults, restoreDefaultsDo_free hm hfree, h0]
    rfl
  · rw [exec_restoreDefaults, restoreDefaultsDo_free hm hfree, h0]
    rfl

end Sys2Proof.Machine

namespace Sys2Proof.Machine

/-! ### Resets of device scope (R602, R603) -/

theorem exec_powerOn (present : Nat) (lost : List Nat) (s : State) : exec (.powerOn present lost) s = .next (s.done (powerOn present lost s)) := rfl
theorem exec_brownOut (s : State) : exec .brownOut s = .next (s.done (brownOut s)) := rfl
theorem exec_sysRstN (present : Nat) (lost : List Nat) (s : State) : exec (.sysRstN present lost) s = .next (s.done (sysRstN present lost s)) := rfl
theorem exec_deviceReset (s : State) : exec .deviceReset s = .next (s.done (deviceReset s)) := rfl

section
variable {β : Type} (g : State → β)

/-- The frames of a tile that PFAIL_N cuts are the tile's own. -/
theorem State.cutFrames_keeps (t : TileId) (hv : ∀ x f, g (State.onVol x t f) = g x) (s : State) : g (s.cutFrames t) = g s := by
  have plc : ∀ x : State, g (match (x.plc t).busy with
      | some b => if b.step = 2 then (x.drivePlc t (x.vol t).drive.psel false).onPlc t fun p => { p with busy := some { b with step := 3, at_ := x.now } } else x
      | none => x) = g x := fun x => by
    split
    · split
      · exact (hv _ _).trans (hv _ _)
      · rfl
    · rfl
  unfold State.cutFrames
  dsimp only
  split
  · split
    · exact (hv _ _).trans ((hv _ _).trans ((hv _ _).trans (plc s)))
    · exact (hv _ _).trans ((hv _ _).trans ((hv _ _).trans (plc s)))
    · exact (hv _ _).trans ((hv _ _).trans (plc s))
  · exact plc s

/-- The fall of PFAIL_N shows in the Pier's entries and event queue and in the frames being sent. -/
theorem State.assertPfail_keeps (hv : ∀ x t f, g (State.onVol x t f) = g x) (hw : ∀ x e n v i, g (State.wr x e n v i) = g x)
    (hq : ∀ x q, g (State.onPier x fun p => { p with evq := q }) = g x) (hf : ∀ x, g (State.onPier x fun p => { p with pfail := true, pfailOkAt := none }) = g x)
    (s : State) (source : Nat) : g (s.assertPfail source) = g s := by
  unfold State.assertPfail
  dsimp only
  rw [State.each_keeps g _ _ _ fun x t => State.cutFrames_keeps g t (fun y f => hv y t f) x]
  exact (State.pierPut_keeps g hq (fun _ _ => hw _ _ _ _ _) _ _).trans ((hw _ _ _ _ _).trans ((hw _ _ _ _ _).trans (hf _)))

end

/-- What a reset decides of the Pier itself: whether it is up and since when, its clock source and check, the board it will enumerate. -/
def Pier.birth (p : Pier) : Pier :=
  { Pier.init with up := p.up, upSince := p.upSince, clock := p.clock, degraded := p.degraded, board := p.board, enumDue := p.enumDue }

/-- The same, and what the device has put out. -/
def State.birth (s : State) : Pier × List Out := (s.pier.birth, s.out)

theorem State.birth_pierEvent (s : State) (w sev code obj a c : Nat) : (s.pierEvent w sev code obj a c).birth = s.birth :=
  State.pierPut_keeps State.birth (fun _ _ => rfl) (fun _ _ => rfl) _ _

theorem State.birth_storeDefaulted (s : State) (key : Nat) : (s.storeDefaulted key).birth = s.birth := by
  unfold State.storeDefaulted
  split
  · rfl
  · exact State.birth_pierEvent _ _ _ _ _ _ _

theorem State.birth_assertPfail (s : State) (source : Nat) : (s.assertPfail source).birth = s.birth :=
  State.assertPfail_keeps State.birth (fun _ _ _ => rfl) (fun _ _ _ _ _ => rfl) (fun _ _ => rfl) (fun _ => rfl) s source

theorem State.birth_pfailAgain (s : State) : s.pfailAgain.birth = s.birth := by
  have shown : ∀ n, (((s.wr Reg.device_supply_vsys_mv 0 s.pier.vsysMv).wr Reg.device_supply_rail_faults 0 s.pier.rails).wr Reg.device_supply_pfail_source 0 n).birth =
    s.birth := fun _ => rfl
  unfold State.pfailAgain
  dsimp only
  split
  · rw [State.birth_assertPfail, shown]
  · rfl

/-! The steps in which the Pier leaves reset (R24, R603) -/

def State.pierUp (s : State) (present : Nat) : State :=
  s.onPier fun p => { p with up := true, upSince := s.now, polledAt := s.now, board := present % 65536, enumDue := true }
def State.storeRead (s : State) (lost : List Nat) : State := (lost.filter inPierStore).foldl (fun s k => s.storeDefaulted k) s
def State.bootCounted (s : State) : State := s.wr Reg.device_host_boot_count 0 ((s.rd Reg.device_host_boot_count 0 + 1) % 2 ^ 32)
def State.modesTaken (s : State) : State :=
  allBays.foldl (fun (s : State) (b : BayId) => s.onBay b fun x => { x with modeNow := s.rd Reg.bay_mode b, ownFell := s.now, lastBeat := (s.now, s.now), rate := (s.now, 0) }) s
def State.tilesBoot (s : State) : State := allTiles.foldl (fun (s : State) (t : TileId) => s.bootAgain t) s
def State.sourceTaken (s : State) : State := s.onPier fun p => { p with time := { p.time with source := s.rd Reg.device_time_source 0 } }
def State.hubTaken (s : State) : State :=
  s.onPier fun p =>
    let first := s.rd Reg.device_host_lane_primary 0
    let cfg : HubCfg :=
      { mode := s.rd Reg.device_host_lane_mode 0, primary := first, holdMs := s.rd Reg.device_host_lane_hold_ms 0
        revertS := s.rd Reg.device_host_lane_revert_s 0, addr := s.rd Reg.device_svc_address 0, vlan := s.rd Reg.device_host_vlan 0
        port := s.rd Reg.device_host_udp_port 0, ip := s.rdAll Reg.device_host_ipv6_addr 0, ipB := s.rdAll Reg.device_host_ipv6_addr_b 0 }
    { p with plan := s.rd Reg.device_boot_plan 0, activeLane := first, pmbAddr := (s.rdAll Reg.device_pmbus_addr 0).map BitVec.toNat, hub := { p.hub with cfg := cfg, active := first } }

theorem State.deviceUp_eq (s : State) (present : Nat) (lost : List Nat) :
    s.deviceUp present lost = (((s.pierUp present).storeRead lost).bootCounted.modesTaken.tilesBoot.sourceTaken.takeUtc.pfailAgain).hubTaken := rfl

theorem State.birth_pierUp (s : State) (present : Nat) :
    (s.pierUp present).birth = ({ s.pier.birth with up := true, upSince := s.now, board := present % 65536, enumDue := true }, s.out) := rfl
theorem State.birth_storeRead (s : State) (lost : List Nat) : (s.storeRead lost).birth = s.birth :=
  State.each_keeps State.birth _ _ s fun _ _ => State.birth_storeDefaulted _ _
theorem State.birth_bootCounted (s : State) : s.bootCounted.birth = s.birth := rfl
theorem State.birth_modesTaken (s : State) : s.modesTaken.birth = s.birth := State.each_keeps State.birth _ _ s fun _ _ => rfl
theorem State.birth_tilesBoot (s : State) : s.tilesBoot.birth = s.birth := State.each_keeps State.birth _ _ s fun _ _ => rfl
theorem State.birth_sourceTaken (s : State) : s.sourceTaken.birth = s.birth := rfl
theorem State.birth_takeUtc (s : State) : s.takeUtc.birth = s.birth := rfl
theorem State.birth_hubTaken (s : State) : s.hubTaken.birth = s.birth := rfl

/-- The Pier that leaves reset is up from now on, with its enumeration due. -/
theorem State.birth_deviceUp (s : State) (present : Nat) (lost : List Nat) :
    (s.deviceUp present lost).birth =
      ({ s.pier.birth with up := true, upSince := s.now, board := present % 65536, enumDue := true }, s.out) := by
  rw [State.deviceUp_eq, State.birth_hubTaken, State.birth_pfailAgain, State.birth_takeUtc, State.birth_sourceTaken, State.birth_tilesBoot, State.birth_modesTaken,
    State.birth_bootCounted, State.birth_storeRead, State.birth_pierUp]

/-! The steps of the reset itself (R602, R652) -/

def State.valuesReset (s : State) : State := { s with regs := s.regs.filter fun e => !clearedByDeviceReset e.1 }
def State.pierReset (s : State) (cause : Nat) : State :=
  s.onPier fun p => { Pier.init with es := p.es, rootState := p.rootState, draws := p.draws, vsysMv := p.vsysMv,
                                     pfail := p.pfail && decide (2 ≤ cause), rails := if cause < 2 then 0 else p.rails,
                                     boardPull := p.boardPull && decide (2 ≤ cause) }
def State.baysReset (s : State) : State := allBays.foldl (fun (s : State) (b : BayId) => s.onBay b fun _ => Bay.init) s
def State.tileDown (cause : Nat) (s : State) (t : TileId) : State :=
  let m := (s.tile t).media.damage t
  let m := if cause < 2 then m else m.keepConfig
  let p := (s.tile t).power
  let s := s.onTile t fun x =>
    { x with vol := { Vol.init s.now with bal := s.balKept t }, upSince := s.now, media := m.interrupt, power := { Power.init with vrunMv := p.vrunMv, since := s.now, railMv := p.railMv } }
  let s := s.reloadConfig t
  let s := s.onVol t fun v => { v with sw := Switch.init (s.rd Reg.sw_reserve_cells t), radio := s.radioNow t }
  s.wr Reg.fw_last_reset t cause
def State.tilesDown (s : State) (cause : Nat) : State := allTiles.foldl (State.tileDown cause) s

theorem State.deviceDown_eq (s : State) (cause : Nat) :
    s.deviceDown cause = ((s.valuesReset.pierReset cause).baysReset.tilesDown cause).wr Reg.device_reset_cause 0 cause := rfl

/-- The tiles that go down leave the Pier, the bays, the clock and what was put out. -/
theorem State.tilesDown_keeps {β : Type} (g : State → β) (hg : ∀ (x : State) r v, g { x with regs := r, tiles := v } = g x) (s : State) (cause : Nat) :
    g (s.tilesDown cause) = g s :=
  State.each_keeps g allTiles _ s fun x _ => hg x _ _

theorem State.birth_baysReset (s : State) : s.baysReset.birth = s.birth := State.each_keeps State.birth _ _ s fun _ _ => rfl
theorem State.now_baysReset (s : State) : s.baysReset.now = s.now := State.each_keeps State.now _ _ s fun _ _ => rfl

theorem State.birth_deviceDown (s : State) (cause : Nat) : (s.deviceDown cause).birth = (Pier.init.birth, s.out) := by
  have pier : (s.valuesReset.pierReset cause).birth = (Pier.init.birth, s.out) := rfl
  have set : ∀ (x : State) (n : Nat), (x.wr Reg.device_reset_cause 0 n).birth = x.birth := fun _ _ => rfl
  rw [State.deviceDown_eq, set, State.tilesDown_keeps State.birth (fun _ _ _ => rfl), State.birth_baysReset, pier]

theorem State.now_deviceDown (s : State) (cause : Nat) : (s.deviceDown cause).now = s.now := by
  have set : ∀ (x : State) (n : Nat), (x.wr Reg.device_reset_cause 0 n).now = x.now := fun _ _ => rfl
  rw [State.deviceDown_eq, set, State.tilesDown_keeps State.now (fun _ _ _ => rfl), State.now_baysReset]
  rfl

theorem State.bay_deviceDown (s : State) (cause : Nat) (b : BayId) : (s.deviceDown cause).bay b = Bay.init := by
  have reset : ∀ x : State, x.baysReset.bay b = Bay.init := fun x =>
    State.foldl_each_bay State.bay (fun _ _ => Bay.init) _ (fun y c => State.bay_onBay_self _ _ _) (fun y c d hd => State.bay_onBay_ne _ _ _ _ hd) x b
  rw [State.deviceDown_eq, State.bay_wr, State.tilesDown_keeps (fun x => x.bay b) (fun _ _ _ => rfl), reset]

/-- What the restart of the Pier leads to. -/
theorem State.birth_restart (s : State) (cause present : Nat) (lost : List Nat) :
    ((s.deviceDown cause).deviceUp present lost).birth =
      ({ Pier.init.birth with up := true, upSince := s.now, board := present % 65536, enumDue := true }, s.out) := by
  have hdown := Prod.ext_iff.1 (State.birth_deviceDown s cause)
  rw [State.birth_deviceUp, State.now_deviceDown, show (s.deviceDown cause).pier.birth = Pier.init.birth from hdown.1, show (s.deviceDown cause).out = s.out from hdown.2]

theorem restart_effect {s x : State} {n : Nat} (h : x.birth = ({ Pier.init.birth with up := true, upSince := s.now, board := n, enumDue := true }, s.out)) :
    x.pier.up = true ∧ x.pier.upSince = s.now ∧ x.pier.board = n ∧ x.pier.enumDue = true ∧ x.pier.degraded = false ∧ x.pier.clock = .select ∧ x.out = s.out := by
  obtain ⟨hp, hout⟩ := Prod.ext_iff.1 h
  exact ⟨(congrArg Pier.up hp :), (congrArg Pier.upSince hp :), (congrArg Pier.board hp :), (congrArg Pier.enumDue hp :), (congrArg Pier.degraded hp :),
    (congrArg Pier.clock hp :), hout⟩

theorem powerOn_off {s : State} (h : s.pier.up = false) (present : Nat) (lost : List Nat) :
    powerOn present lost s = (s.deviceDown (s.rd Reg.device_reset_cause 0)).deviceUp present lost := if_neg (by simp [h])

theorem sysRstN_up {s : State} (h : s.pier.up = true) (present : Nat) (lost : List Nat) : sysRstN present lost s = (s.deviceDown 2).deviceUp present lost := if_pos h

/-- The rails of every tile are off. -/
def State.railsOff (s : State) : State := allTiles.foldl (fun (s : State) (t : TileId) => s.onPower t fun p => { p with railMv := 0 }) s

theorem brownOut_eq (s : State) : brownOut s = ((s.deviceDown 1).onPier fun p => { p with vsysMv := 0 }).railsOff := rfl

theorem State.railsOff_keeps {β : Type} (g : State → β) (ht : ∀ x t f, g (State.onTile x t f) = g x) (s : State) : g s.railsOff = g s :=
  State.each_keeps g allTiles _ _ fun _ _ => ht _ _ _

theorem brownOut_pier (s : State) : (brownOut s).pier.up = false ∧ (brownOut s).pier.vsysMv = 0 := by
  have hup : (s.deviceDown 1).pier.up = false := (congrArg (fun p => p.1.up) (State.birth_deviceDown s 1) :)
  rw [brownOut_eq, State.railsOff_keeps State.pier (fun _ _ _ => rfl)]
  exact ⟨hup, rfl⟩

theorem rd_brownOut (s : State) : (brownOut s).rd Reg.device_reset_cause 0 = 1 := by
  rw [brownOut_eq, State.railsOff_keeps (fun x => x.rd Reg.device_reset_cause 0) (fun _ _ _ => rfl), State.rd_onPier, State.deviceDown_eq, State.rd_wr_self]
  rfl

theorem bay_brownOut (s : State) (b : BayId) : (brownOut s).bay b = Bay.init := by
  rw [brownOut_eq, State.railsOff_keeps (fun x => x.bay b) (fun _ _ _ => rfl), State.bay_onPier, State.bay_deviceDown]

/-- Settles O5: the Pier goes through its reset (`State.deviceDown`) and out of it (`State.deviceUp`). -/
theorem deviceResets : Obligations.DeviceResets := by
  refine ⟨fun s present lost h => ⟨_, exec_powerOn present lost s, ?_⟩, fun s => ⟨_, exec_brownOut s, ?_⟩, fun s present lost h => ⟨_, exec_sysRstN present lost s, ?_⟩,
    fun s => ⟨_, exec_deviceReset s, ?_⟩⟩
  · obtain ⟨hup, hsince, hboard, hdue, hdeg, -, hout⟩ := restart_effect (State.birth_restart s _ present lost)
    rw [powerOn_off h, State.done_pier, State.done_out]
    exact ⟨hup, hsince, hboard, hdue, hdeg, hout⟩
  · rw [State.done_pier, State.done_rd _ _ _ _ _ (by decide), rd_brownOut]
    exact ⟨(brownOut_pier s).1, (brownOut_pier s).2, fun b => by rw [State.done_bay, bay_brownOut], rfl⟩
  · obtain ⟨hup, hsince, -, -, hdeg, hclock, -⟩ := restart_effect (State.birth_restart s 2 present lost)
    rw [sysRstN_up h, State.done_pier]
    exact ⟨hup, hsince, hclock, hdeg⟩
  · rw [State.done_pier, State.done_out, deviceReset, State.answer_out_eq]
    exact ⟨rfl, rfl, fun u => by rw [State.done_vol, State.vol_answer]; rfl⟩

end Sys2Proof.Machine

namespace Sys2Proof.Machine

/-! ### Supply and energy limits (R536 to R548, R674) -/

theorem exec_pfailAssert (cause : Fin 3) (mv rails : Nat) (s : State) : exec (.pfailAssert cause mv rails) s = .next (s.done (pfailAssert cause mv rails s)) := rfl
theorem exec_pfailRelease (mv : Nat) (s : State) : exec (.pfailRelease mv) s = .next (s.done (pfailRelease mv s)) := rfl
theorem exec_pmbAlert (words : List Nat) (s : State) : exec (.pmbAlert words) s = .next (s.done (pmbAlert words s)) := rfl
theorem exec_statusPoll (words : List Nat) (s : State) : exec (.statusPoll words) s = .next (s.done (statusPoll words s)) := rfl
theorem exec_bankBudgetFree (b : BayId) (s : State) : exec (.bankBudgetFree b) s = .next (s.done (bankBudgetFree b s)) := rfl
theorem exec_energySettingWrite (b : BayId) (which : Fin 4) (v rights : Nat) (s : State) :
    exec (.energySettingWrite b which v rights) s = .next (s.done ((energySetting b which v rights s).1.answer (128 + b) (energySetting b which v rights s).2)) := rfl
theorem exec_vanaOutOfRange (t : TileId) (back : Bool) (s : State) : exec (.vanaOutOfRange t back) s = .next (s.done (vanaOutOfRange t back s)) := rfl

theorem quiet_device_supply_pfail : Reg.device_supply_pfail.quiet 0 = true := by decide
theorem quiet_device_supply_pfail_source : Reg.device_supply_pfail_source.quiet 0 = true := by decide
theorem quiet_device_supply_pfail_events : Reg.device_supply_pfail_events.quiet 0 = true := by decide
theorem quiet_device_supply_rail_faults : Reg.device_supply_rail_faults.quiet 0 = true := by decide
theorem quiet_device_supply_vsys_mv : Reg.device_supply_vsys_mv.quiet 0 = true := by decide

/-- The PFAIL_N ball shows after every command what the Pier holds. -/
theorem State.done_pfailN (s x : State) : (s.done x).pins.pfailN = !x.pier.pfail :=
  congrArg (fun p : Pier => !p.pfail) (State.done_pier s x)

/-! PFAIL_N falls (R546, R547) -/

theorem State.rd_cutAll (s : State) (d : Entry) (m j : Nat) : (s.each allTiles fun s t => s.cutFrames t).rd d m j = s.rd d m j :=
  State.each_keeps (fun x => x.rd d m j) _ _ _ fun x t => State.cutFrames_keeps (fun x => x.rd d m j) t (fun _ _ => rfl) x

theorem State.rd_assertPfail (s : State) (source : Nat) (d : Entry) (hq : d.quiet 0 = true) (hp : d.key 0 0 ≠ Reg.device_supply_pfail.key 0 0)
    (he : d.key 0 0 ≠ Reg.device_supply_pfail_events.key 0 0) : (s.assertPfail source).rd d 0 = s.rd d 0 := by
  unfold State.assertPfail
  dsimp only
  rw [State.rd_cutAll, State.rd_pierEvent _ _ _ _ _ _ _ _ _ _ hq, State.rd_bump_ne _ _ _ _ _ _ _ _ he, State.rd_wr_ne _ _ _ _ _ _ _ _ hp, State.rd_onPier]

theorem State.assertPfail_pfail (s : State) (source : Nat) : (s.assertPfail source).rd Reg.device_supply_pfail 0 = 1 := by
  unfold State.assertPfail
  dsimp only
  rw [State.rd_cutAll, State.rd_pierEvent _ _ _ _ _ _ _ _ _ _ quiet_device_supply_pfail, State.rd_bump_ne _ _ _ _ _ _ _ _ (by decide), State.rd_wr_self]
  rfl

theorem State.assertPfail_counts (s : State) (source : Nat) (h : s.rd Reg.device_supply_pfail_events 0 + 1 < Reg.device_supply_pfail_events.span) :
    (s.assertPfail source).rd Reg.device_supply_pfail_events 0 = s.rd Reg.device_supply_pfail_events 0 + 1 := by
  have hset : ((s.onPier fun p => { p with pfail := true, pfailOkAt := none }).wr Reg.device_supply_pfail 0 1).rd Reg.device_supply_pfail_events 0 =
      s.rd Reg.device_supply_pfail_events 0 := by rw [State.rd_wr_ne _ _ _ _ _ _ _ _ (by decide), State.rd_onPier]
  unfold State.assertPfail
  dsimp only
  rw [State.rd_cutAll, State.rd_pierEvent _ _ _ _ _ _ _ _ _ _ quiet_device_supply_pfail_events, State.rd_bump_lt _ _ _ _ (by rwa [hset]), hset]

theorem State.assertPfail_low (s : State) (source : Nat) : (s.assertPfail source).pier.pfail = true := by
  have event : ∀ (x : State) (w sev code obj a c : Nat), (x.pierEvent w sev code obj a c).pier.pfail = x.pier.pfail := fun x w sev code obj a c =>
    State.pierPut_keeps (fun x => x.pier.pfail) (fun _ _ => rfl) (fun _ _ => rfl) _ _
  unfold State.assertPfail
  dsimp only
  rw [State.each_keeps (fun x => x.pier.pfail) _ _ _ fun x t => State.cutFrames_keeps (fun x => x.pier.pfail) t (fun _ _ => rfl) x, event]
  rfl

theorem State.assertPfail_out (s : State) (source : Nat) : (s.assertPfail source).out = s.out :=
  State.assertPfail_keeps State.out (fun _ _ _ => rfl) (fun _ _ _ _ _ => rfl) (fun _ _ => rfl) (fun _ => rfl) s source

/-- The cause as the Pier holds and shows it before PFAIL_N falls. -/
def State.pfailCause (s : State) (cause : Fin 3) (mv rails : Nat) : State :=
  let y := s.onPier fun p => { p with vsysMv := if cause = 0 then mv else p.vsysMv, rails := if cause = 1 then rails % 64 else p.rails
                                      boardPull := p.boardPull || decide (cause = 2) }
  ((y.wr Reg.device_supply_vsys_mv 0 y.pier.vsysMv).wr Reg.device_supply_rail_faults 0 y.pier.rails).wr Reg.device_supply_pfail_source 0 (cause.val + 1)

section
variable {s : State} {cause : Fin 3} {mv rails : Nat}

theorem pfailAssert_falls (hup : s.pier.up = true) (hp : s.pier.pfail = false) (hmv : cause = 0 → mv < 2350) (hr : cause = 1 → rails % 64 ≠ 0) :
    pfailAssert cause mv rails s = (s.pfailCause cause mv rails).assertPfail (cause.val + 1) := by
  have hnew : decide (cause ≠ 1 ∨ rails % 64 ≠ 0) = true := by
    by_cases h : cause = 1
    · simp [hr h]
    · simp [h]
  have hlow : (s.pfailCause cause mv rails).pier.pfail = false := hp
  have hnot : ¬ ((!s.pier.up) = true ∨ (cause = 0 ∧ 2350 ≤ mv)) := by
    rintro (h | ⟨h, hge⟩)
    · simp [hup] at h
    · exact absurd (hmv h) (by omega)
  unfold pfailAssert
  rw [if_neg hnot]
  dsimp only
  rw [hnew, if_pos rfl]
  unfold State.pfailCause at hlow ⊢
  rw [hlow]
  rfl

/-- What a fall of PFAIL_N leads to, for each of its causes. -/
theorem pfailAssert_effect (hup : s.pier.up = true) (hp : s.pier.pfail = false) (hmv : cause = 0 → mv < 2350) (hr : cause = 1 → rails % 64 ≠ 0) :
    (s.done (pfailAssert cause mv rails s)).pier.pfail = true ∧ (s.done (pfailAssert cause mv rails s)).pins.pfailN = false ∧
      (s.done (pfailAssert cause mv rails s)).rd Reg.device_supply_pfail 0 = 1 ∧ (s.done (pfailAssert cause mv rails s)).rd Reg.device_supply_pfail_source 0 = cause.val + 1 ∧
      (s.done (pfailAssert cause mv rails s)).out = s.out := by
  rw [State.done_pier, State.done_pfailN, State.rd_done _ _ _ _ _ quiet_device_supply_pfail, State.rd_done _ _ _ _ _ quiet_device_supply_pfail_source, State.done_out,
    pfailAssert_falls hup hp hmv hr, State.assertPfail_low, State.assertPfail_pfail, State.assertPfail_out,
    State.rd_assertPfail _ _ _ quiet_device_supply_pfail_source (by decide) (by decide), State.pfailCause, State.rd_wr_self]
  have hspan : Reg.device_supply_pfail_source.span = 256 := rfl
  exact ⟨rfl, rfl, rfl, Nat.mod_eq_of_lt (by omega), rfl⟩

theorem pfailAssert_counts (hup : s.pier.up = true) (hp : s.pier.pfail = false) (hmv : cause = 0 → mv < 2350) (hr : cause = 1 → rails % 64 ≠ 0)
    (h : s.rd Reg.device_supply_pfail_events 0 + 1 < Reg.device_supply_pfail_events.span) :
    (s.done (pfailAssert cause mv rails s)).rd Reg.device_supply_pfail_events 0 = s.rd Reg.device_supply_pfail_events 0 + 1 := by
  have hset : (s.pfailCause cause mv rails).rd Reg.device_supply_pfail_events 0 = s.rd Reg.device_supply_pfail_events 0 := by
    unfold State.pfailCause
    dsimp only
    rw [State.rd_wr_ne _ _ _ _ _ _ _ _ (by decide), State.rd_wr_ne _ _ _ _ _ _ _ _ (by decide), State.rd_wr_ne _ _ _ _ _ _ _ _ (by decide), State.rd_onPier]
  rw [State.rd_done _ _ _ _ _ quiet_device_supply_pfail_events, pfailAssert_falls hup hp hmv hr, State.assertPfail_counts _ _ (by rwa [hset]), hset]

/-- The rails outside their windows are shown. -/
theorem pfailAssert_rails (hup : s.pier.up = true) (hp : s.pier.pfail = false) (hr : rails % 64 ≠ 0) :
    (s.done (pfailAssert 1 mv rails s)).rd Reg.device_supply_rail_faults 0 = rails % 64 := by
  have hspan : Reg.device_supply_rail_faults.span = 256 := rfl
  rw [State.rd_done _ _ _ _ _ quiet_device_supply_rail_faults, pfailAssert_falls hup hp (fun h => absurd h (by decide)) (fun _ => hr),
    State.rd_assertPfail _ _ _ quiet_device_supply_rail_faults (by decide) (by decide), State.pfailCause, State.rd_wr_ne _ _ _ _ _ _ _ _ (by decide), State.rd_wr_self, hspan]
  exact Nat.mod_eq_of_lt (lt_trans (Nat.mod_lt _ (by decide)) (by decide))

end

/-! PFAIL_N rises (R548) -/

/-- Two cases that both leave something as in `z`. -/
theorem State.ite_keeps {β : Type} (g : State → β) {c : Prop} [Decidable c] {x y : State} {z : β} (hx : g x = z) (hy : g y = z) : g (if c then x else y) = z := by
  split
  · exact hx
  · exact hy

/-- A relay pulse that starts is the tile's own; one that the budget holds is counted. -/
theorem State.tryPulse_keeps {β : Type} (g : State → β) (t : TileId) (hv : ∀ x f, g (State.onVol x t f) = g x)
    (hb : ∀ x, g (State.bump x Reg.bay_energy_budget_holds (bayOf t)) = g x) (s : State) (k : Fin 2) : g (s.tryPulse t k) = g s := by
  have relay : ∀ x f, g (State.onRelay x t k f) = g x := fun x f => by
    unfold State.onRelay
    exact hv _ _
  unfold State.tryPulse
  exact State.ite_keeps g rfl (State.ite_keeps g (State.ite_keeps g rfl ((hb _).trans (relay _ _))) ((hv _ _).trans (relay _ _)))

/-- A tile that runs goes on with its programs, erases and pulses. -/
theorem State.resumed_keeps {β : Type} (g : State → β) (ht : ∀ x t f, g (State.onTile x t f) = g x)
    (hb : ∀ x t, g (State.bump x Reg.bay_energy_budget_holds (bayOf t)) = g x) (s : State) :
    g (s.each allTiles fun s t => if s.inRun t then (s.onMedia t fun m => { m with busy := m.busy || !m.jobs.isEmpty }).tryPulses t else s) = g s :=
  State.each_keeps g _ _ _ fun x t => by
    split
    · exact (State.tryPulse_keeps g t (fun _ _ => ht _ _ _) (fun _ => hb _ _) _ _).trans
        ((State.tryPulse_keeps g t (fun _ _ => ht _ _ _) (fun _ => hb _ _) _ _).trans (ht _ _ _))
    · rfl

theorem State.rd_resumed (s : State) (d : Entry) (m j : Nat) (hd : d.area = .dev) (hq : d.quiet j = true) :
    (s.each allTiles fun s t => if s.inRun t then (s.onMedia t fun m => { m with busy := m.busy || !m.jobs.isEmpty }).tryPulses t else s).rd d m j = s.rd d m j :=
  State.resumed_keeps (fun x => x.rd d m j) (fun _ _ _ => rfl)
    (fun _ _ => State.rd_bump_ne _ _ _ _ _ _ _ _ (Entry.key_ne_of_quiet_dev hd hq (by decide))) s

/-- The cause is over: what the Pier holds and shows of it. -/
def State.pfailOver (s : State) (mv : Nat) : State :=
  (((s.onPier fun p => { p with pfail := false, vsysMv := mv, rails := 0, boardPull := false, pfailOkAt := some s.now }).wr Reg.device_supply_pfail 0 0).wr
    Reg.device_supply_vsys_mv 0 mv).wr Reg.device_supply_rail_faults 0 0

theorem pfailRelease_rises {s : State} {mv : Nat} (hp : s.pier.pfail = true) (hmv : 2450 < mv) :
    pfailRelease mv s = (s.pfailOver mv).each allTiles fun s t =>
      if s.inRun t then (s.onMedia t fun m => { m with busy := m.busy || !m.jobs.isEmpty }).tryPulses t else s :=
  if_neg (by simp [hp, hmv])

theorem pfailRelease_effect {s : State} {mv : Nat} (hp : s.pier.pfail = true) (hmv : 2450 < mv) (hlt : mv < Reg.device_supply_vsys_mv.span) :
    (s.done (pfailRelease mv s)).pier.pfail = false ∧ (s.done (pfailRelease mv s)).pins.pfailN = true ∧
      (s.done (pfailRelease mv s)).rd Reg.device_supply_pfail 0 = 0 ∧ (s.done (pfailRelease mv s)).rd Reg.device_supply_vsys_mv 0 = mv ∧
      (s.done (pfailRelease mv s)).rd Reg.device_supply_rail_faults 0 = 0 ∧ (s.done (pfailRelease mv s)).out = s.out := by
  rw [State.done_pier, State.done_pfailN, State.rd_done _ _ _ _ _ quiet_device_supply_pfail, State.rd_done _ _ _ _ _ quiet_device_supply_vsys_mv,
    State.rd_done _ _ _ _ _ quiet_device_supply_rail_faults, State.done_out, pfailRelease_rises hp hmv,
    State.resumed_keeps State.pier (fun _ _ _ => rfl) (fun _ _ => rfl), State.resumed_keeps State.out (fun _ _ _ => rfl) (fun _ _ => rfl),
    State.rd_resumed _ _ _ _ rfl quiet_device_supply_pfail, State.rd_resumed _ _ _ _ rfl quiet_device_supply_vsys_mv,
    State.rd_resumed _ _ _ _ rfl quiet_device_supply_rail_faults, State.pfailOver]
  refine ⟨rfl, rfl, ?_, ?_, ?_, rfl⟩
  · rw [State.rd_wr_ne _ _ _ _ _ _ _ _ (by decide), State.rd_wr_ne _ _ _ _ _ _ _ _ (by decide), State.rd_wr_self]
    rfl
  · rw [State.rd_wr_ne _ _ _ _ _ _ _ _ (by decide), State.rd_wr_self, Nat.mod_eq_of_lt hlt]
  · rw [State.rd_wr_self]
    rfl

/-! The energy settings (R540 to R543) -/

/-- The four settings of a bay. -/
def energyEntry (which : Fin 4) : Entry :=
  [Reg.bay_energy_pulse_mj, Reg.bay_energy_bank_budget_mj, Reg.bay_energy_plc_atten_min_db, Reg.bay_energy_plc_duty_pm].getD which.val Reg.bay_energy_pulse_mj

theorem energyEntry_quiet (which : Fin 4) : (energyEntry which).quiet 0 = true := by revert which; decide
theorem energyEntry_fits (which : Fin 4) : (energyEntry which).hi.toNat < (energyEntry which).span := by revert which; decide

theorem energySetting_stored {s : State} {b : BayId} {which : Fin 4} {v rights : Nat} (hr : 3 ≤ rights) (hlo : (energyEntry which).lo.toNat ≤ v)
    (hhi : v ≤ (energyEntry which).hi.toNat) :
    energySetting b which v rights s = ((s.wr (energyEntry which) b v).pierEvent 0xFF 0 0x0108 b which.val v, .ok) := by
  unfold energySetting
  rw [if_neg (by omega)]
  exact if_neg (not_or.2 ⟨Nat.not_lt.2 hlo, Nat.not_lt.2 hhi⟩)

theorem energySetting_effect {s : State} {b : BayId} {which : Fin 4} {v rights : Nat} (hr : 3 ≤ rights) (hlo : (energyEntry which).lo.toNat ≤ v)
    (hhi : v ≤ (energyEntry which).hi.toNat) :
    ∃ x, exec (.energySettingWrite b which v rights) s = .next x ∧ x.rd (energyEntry which) b = v ∧ (∀ u, x.vol u = s.vol u) ∧ x.bays = s.bays ∧
      x.out = s.out ++ [.answer (128 + b) .ok] := by
  refine ⟨_, exec_energySettingWrite b which v rights s, ?_⟩
  rw [energySetting_stored hr hlo hhi, State.rd_done _ _ _ _ _ (energyEntry_quiet which), State.done_bays, State.done_out, State.rd_answer,
    State.rd_pierEvent _ _ _ _ _ _ _ _ _ _ (energyEntry_quiet which), State.rd_wr_self, Nat.mod_eq_of_lt (lt_of_le_of_lt hhi (energyEntry_fits which)),
    State.answer_out_eq, State.out_pierEvent]
  refine ⟨rfl, fun u => ?_, ?_, rfl⟩
  · rw [State.done_vol, State.vol_answer, State.vol_pierEvent, State.vol_wr]
  · exact State.pierPut_keeps State.bays (fun _ _ => rfl) (fun _ _ => rfl) _ _

/-- Settles O51: the fall and the rise of PFAIL_N, the settings, and the commands that are one step of the model each. -/
theorem powerSupply : Obligations.PowerSupply := by
  refine ⟨fun s mv hup hp hmv hn => ⟨_, exec_pfailAssert 0 mv 0 s, ?_⟩, fun s mv hp hmv hlt => ⟨_, exec_pfailRelease mv s, pfailRelease_effect hp hmv hlt⟩,
    fun s words hup => ?_, fun s words h => ?_, fun s b => exec_bankBudgetFree b s, fun s b v rights hr hlo hhi => energySetting_effect (which := 3) hr hlo hhi,
    fun s t => exec_vanaOutOfRange t false s, fun s t h => ?_, fun s mv rails hup hp hr => ⟨_, exec_pfailAssert 1 mv rails s, ?_⟩,
    fun s mv rails hup hp => ⟨_, exec_pfailAssert 2 mv rails s, pfailAssert_effect hup hp (fun h => absurd h (by decide)) (fun h => absurd h (by decide))⟩,
    fun s b which v rights e hr he hlo hhi => ?_⟩
  · obtain ⟨hlow, hpin, hshown, hsource, hout⟩ := pfailAssert_effect (cause := 0) (rails := 0) hup hp (fun _ => hmv) (fun h => absurd h (by decide))
    exact ⟨hlow, hpin, hshown, hsource, pfailAssert_counts hup hp (fun _ => hmv) (fun h => absurd h (by decide)) hn, hout⟩
  · rw [exec_pmbAlert, pmbAlert, if_pos hup]
  · rw [exec_statusPoll, statusPoll, if_neg (by omega)]
  · rw [exec_vanaOutOfRange, vanaOutOfRange, if_pos rfl, if_neg (by simp [h])]
  · obtain ⟨hlow, hpin, hshown, hsource, hout⟩ := pfailAssert_effect (cause := 1) (mv := mv) hup hp (fun h => absurd h (by decide)) (fun _ => hr)
    exact ⟨hlow, hpin, hshown, hsource, pfailAssert_rails hup hp hr, hout⟩
  · subst he
    exact energySetting_effect hr hlo hhi

end Sys2Proof.Machine

namespace Sys2Proof.Machine

/-! ### Requests to a power domain (R520 to R535) -/

theorem exec_powerRequestRun (t : TileId) (s : State) : exec (.powerRequestRun t) s = .next (s.done (powerAnswer t 0 s)) := rfl
theorem exec_powerRequestHold (t : TileId) (s : State) : exec (.powerRequestHold t) s = .next (s.done (powerAnswer t 1 s)) := rfl
theorem exec_powerRequestRetain (t : TileId) (s : State) : exec (.powerRequestRetain t) s = .next (s.done (powerAnswer t 2 s)) := rfl
theorem exec_powerRequestIsolated (t : TileId) (s : State) : exec (.powerRequestIsolated t) s = .next (s.done (powerAnswer t 3 s)) := rfl
theorem exec_powerRequestOff (t : TileId) (s : State) : exec (.powerRequestOff t) s = .next (s.done (powerAnswer t 4 s)) := rfl
theorem exec_idleEntry (t : TileId) (s : State) : exec (.idleEntry t) s = .next (s.done (idleEntry t s)) := rfl
theorem exec_isolation (t : TileId) (s : State) : exec (.isolation t) s = .next (s.done (isolation t s)) := rfl
theorem exec_wakeEvent (t : TileId) (s : State) : exec (.wakeEvent t) s = .next (s.done (s.wakeEvent t)) := rfl
theorem exec_regulatorAck (t : TileId) (mv st : Nat) (s : State) : exec (.regulatorAck t mv st) s = .next (s.done (regulatorAck t mv st s)) := rfl
theorem exec_regulatorAckTimeout (t : TileId) (s : State) : exec (.regulatorAckTimeout t) s = .next (s.done (regulatorAckTimeout t s)) := rfl

/-! The state of a domain -/

/-- A change of state takes the state and its instant; the rest of the domain stays. -/
theorem State.power_setPwr (s : State) (t : TileId) (st : Pwr) :
    ((s.setPwr t st).tile t).power = { (s.tile t).power with st := st, since := s.now } := by
  unfold State.setPwr
  dsimp only
  rw [State.tile_onPower_self]
  split <;> rfl

@[simp] theorem State.out_setPwr (s : State) (t : TileId) (st : Pwr) : (s.setPwr t st).out = s.out := by
  unfold State.setPwr
  dsimp only
  split <;> rfl

/-- An entry begins at its first step. -/
def State.beginEntry (s : State) (t : TileId) (target requester : Nat) (forced : Bool) : State :=
  (s.setPwr t .entering).onPower t fun p => { p with target := target, requester := requester, step := 1, wakeUp := false, forced := forced }

theorem State.requestEntry_begins {s : State} {t : TileId} {target requester : Nat}
    (h : s.entryRefuser t target (decide (requester = 1) && decide (s.rd Reg.power_force t = 1)) = none) :
    s.requestEntry t target requester = s.beginEntry t target requester (decide (requester = 1) && decide (s.rd Reg.power_force t = 1)) := by
  unfold State.requestEntry
  dsimp only
  rw [h]
  rfl

/-- No entry is permitted in DEGRADED. -/
theorem State.degraded_of_entryRefuser {s : State} {t : TileId} {target : Nat} {forced : Bool} (h : s.entryRefuser t target forced = none) :
    s.pier.degraded = false := by
  unfold State.entryRefuser at h
  split at h
  · cases h
  case isFalse hnot =>
    rw [not_or] at hnot
    simpa using hnot.1

/-! The request of R520 -/

section
variable {s : State} {t : TileId} {target : Nat}

/-- A request to RUN in HOLD or RETAIN is a wake event. -/
theorem powerAnswer_run (hr : rolePermits (s.role t) 0 = true) (hp : (s.tile t).power.st = .hold ∨ (s.tile t).power.st = .retain) :
    powerAnswer t 0 s = (s.wakeEvent t).answer t .ok := by
  unfold powerAnswer powerRequest
  rw [if_neg (by decide), if_neg (by simp [hr]), if_pos rfl]
  obtain h | h := hp <;> rw [h]

/-- What a request from RUN first does to a standby that leaves its role, and to the bay's link. -/
def State.leavesRole (s : State) (t : TileId) (target : Nat) : State :=
  let s := if 3 ≤ target ∧ s.role t = 1 then (s.setRole t 4).alarm (bayOf t) 0 true else s
  if 3 ≤ target then s.linkUpdate (bayOf t) else s

theorem State.leavesRole_none (h : target < 3) : s.leavesRole t target = s := by
  unfold State.leavesRole
  rw [if_neg (by omega), if_neg (by omega)]

theorem State.leavesRole_faulted (h : 3 ≤ target) (hr : s.role t ≠ 1) : s.leavesRole t target = s.linkUpdate (bayOf t) := by
  unfold State.leavesRole
  rw [if_pos h, if_neg fun k => hr k.2]

theorem State.leavesRole_standby (h : 3 ≤ target) (hr : s.role t = 1) :
    s.leavesRole t target = ((s.setRole t 4).alarm (bayOf t) 0 true).linkUpdate (bayOf t) := by
  unfold State.leavesRole
  rw [if_pos h, if_pos ⟨h, hr⟩]

theorem powerRequest_from_run (hr : rolePermits (s.role t) target = true) (h4 : target ≤ 4) (h0 : target ≠ 0) (hd : s.pier.degraded = false)
    (hp : (s.tile t).power.st = .run) : powerAnswer t target s = ((s.leavesRole t target).requestEntry t target 1).answer t .ok := by
  unfold powerAnswer powerRequest State.leavesRole
  rw [if_neg (by omega), if_neg (by simp [hr]), if_neg h0, hp, if_neg (by simpa [Pwr.code] using h0.symm), if_neg (by simp), if_neg (by simp), if_neg (by simp [hd])]

theorem powerRequest_off_isolated (hr : rolePermits (s.role t) 4 = true) (hn : s.role t ≠ 1) (hd : s.pier.degraded = false)
    (hp : (s.tile t).power.st = .isolated) :
    powerAnswer t 4 s = (((s.linkUpdate (bayOf t)).onPower t fun p => { p with target := 4 }).reachTarget t).answer t .ok := by
  unfold powerAnswer powerRequest
  rw [if_neg (by omega), if_neg (by simp [hr]), if_neg (by decide), hp, if_neg (by decide), if_neg (by simp), if_neg (by simp), if_neg (by simp [hd])]
  simp [hn]

/-- What an entry to HOLD or RETAIN that nothing refuses leads to. -/
theorem powerRequest_entry_effect (hr : rolePermits (s.role t) target = true) (h3 : target < 3) (h0 : target ≠ 0) (hp : (s.tile t).power.st = .run)
    (h : s.entryRefuser t target (decide (s.rd Reg.power_force t = 1)) = none) :
    ((s.done (powerAnswer t target s)).tile t).power.st = .entering ∧ ((s.done (powerAnswer t target s)).tile t).power.target = target ∧
      ((s.done (powerAnswer t target s)).tile t).power.requester = 1 ∧ ((s.done (powerAnswer t target s)).tile t).power.step = 1 ∧
      ((s.done (powerAnswer t target s)).tile t).power.since = s.now ∧ (s.done (powerAnswer t target s)).out = s.out ++ [.answer t .ok] := by
  rw [State.done_power, State.done_out, powerRequest_from_run hr (by omega) h0 (State.degraded_of_entryRefuser h) hp, State.leavesRole_none h3,
    State.requestEntry_begins (by simpa using h), State.answer_out_eq, State.tile_answer, State.beginEntry, State.tile_onPower_self, State.power_setPwr]
  exact ⟨rfl, rfl, rfl, rfl, rfl, congrArg (· ++ _) (State.out_setPwr s t .entering)⟩

end

/-! The standby's own entry (R497), isolation (R527), wake events (R526) -/

theorem idleEntry_requests {s : State} {t : TileId} {a : Nat} (hr : s.role t = 1) (hrun : s.inRun t = true) (hboot : 6 ≤ (s.vol t).boot.step)
    (hf : (s.bay (bayOf t)).fifo.fill_ = 0) (hm : (s.tile t).media.idle = true) (hl : s.rateLowSince (bayOf t) = some a) (ha : a + 10000000000 ≤ s.now) :
    idleEntry t s = s.requestEntry t (s.rd Reg.power_idle_state t) 0 := by
  unfold idleEntry
  exact if_pos ⟨hr, hrun, hboot, hf, hm, by rw [hl]; simp [ha]⟩

theorem wakeEvent_entering {s : State} {t : TileId} (hp : (s.tile t).power.st = .entering) (hr : (s.tile t).power.requester ≠ 2) :
    s.wakeEvent t = s.onPower t fun p => { p with wakeUp := true } := by
  unfold State.wakeEvent
  dsimp only
  rw [if_pos hp, if_neg hr]

/-! The regulator's answer (R529, R535) -/

section
variable {s : State} {t : TileId} {mv st : Nat} (hd : s.pier.degraded = false) (hpres : bit s.pier.present t = true) (hup : s.pier.up = true)

@[simp] theorem State.power_readRail : ((s.readRail t mv st).tile t).power = { (s.tile t).power with railMv := mv } :=
  congrArg Tile.power (State.tile_onTile_self s t fun x => { x with power := { x.power with railMv := mv } })

include hd hpres hup in
theorem regulatorAck_enters (hp : (s.tile t).power.st = .entering) (hs : 5 ≤ (s.tile t).power.step) (hset : (s.tile t).power.setMv = 500)
    (ht : 2 < (s.tile t).power.target) (ha : acknowledged 500 mv st = true) (hw : s.now ≤ (s.tile t).power.cmdAt + s.pmbDelay t 0 + 1000000) :
    regulatorAck t mv st s = (s.readRail t mv st).reachTarget t := by
  unfold regulatorAck
  refine (if_neg (by simp [hd, hpres, hup])).trans ?_
  extract_lets y p late wait
  have hpow : p = { (s.tile t).power with railMv := mv } := State.power_readRail
  have hst : p.st = .entering := by rw [hpow]; exact hp
  have hstep : 5 ≤ p.step := by rw [hpow]; exact hs
  have hmv : p.setMv = 500 := by rw [hpow]; exact hset
  have htarget : 2 < p.target := by rw [hpow]; exact ht
  have hwait : wait = s.pmbDelay t 0 := if_pos hst
  have hcmd : p.cmdAt = (s.tile t).power.cmdAt := by rw [hpow]
  have hintime : ¬ p.cmdAt + wait + 1000000 < y.now := by rw [hwait, hcmd]; exact Nat.not_lt.2 hw
  rw [if_neg (by rw [hmv, ha]; simpa using hintime), if_pos ⟨hst, hstep, hmv⟩, if_neg (by omega)]
  exact if_neg (by omega)

include hd hpres hup in
theorem regulatorAck_wakes (hp : (s.tile t).power.st = .waking) (hs : (s.tile t).power.step = 1) (hset : (s.tile t).power.setMv = (s.tile t).power.vrunMv)
    (hb : (s.vol t).boot.step ≠ 0) (hn : s.promoting t = false) (ha : acknowledged (s.tile t).power.vrunMv mv st = true)
    (hlo : (s.tile t).power.cmdAt + s.pmbDelay t 1 ≤ s.now) (hw : s.now ≤ (s.tile t).power.cmdAt + s.pmbDelay t 1 + 1000000) :
    regulatorAck t mv st s = ((s.readRail t mv st).onPower t fun p => { p with step := 2 }).stopCount t := by
  have hvol : ((s.readRail t mv st).vol t).boot.step = (s.vol t).boot.step :=
    congrArg (fun v : Vol => v.boot.step) (State.onTile_keeps (f := fun x => { x with power := { x.power with railMv := mv } }) Tile.vol (fun _ => rfl) s t t)
  unfold regulatorAck
  refine (if_neg (by simp [hd, hpres, hup])).trans ?_
  extract_lets y p late wait
  have hpow : p = { (s.tile t).power with railMv := mv } := State.power_readRail
  have hst : p.st = .waking := by rw [hpow]; exact hp
  have hstep : p.step = 1 := by rw [hpow]; exact hs
  have hmv : p.setMv = p.vrunMv := by rw [hpow]; exact hset
  have hack : acknowledged p.setMv mv st = true := by rw [hmv, hpow]; exact ha
  have hnot : p.st ≠ .entering := by simp [hst]
  have hprom : y.promoting t = false := hn
  have hwait : wait = s.pmbDelay t 1 := (if_neg hnot).trans (if_neg (by simp [hprom]))
  have hcmd : p.cmdAt = (s.tile t).power.cmdAt := by rw [hpow]
  have hintime : ¬ p.cmdAt + wait + 1000000 < y.now := by rw [hwait, hcmd]; exact Nat.not_lt.2 hw
  have hlate : late 1 = false := decide_eq_false (by rw [hcmd]; exact Nat.not_lt.2 hlo)
  rw [if_neg (by rw [hack]; simpa using hintime), if_neg (fun h => hnot h.1), if_neg (fun h => hb (hvol.symm.trans h.2.2.2)), if_pos ⟨hst, hstep, hmv⟩]
  exact if_neg (by simp [hlate])

end

theorem regulatorAckTimeout_wakes {s : State} {t : TileId} (hq : s.pier.bootQueue.head? ≠ some t.val) (hp : (s.tile t).power.st = .entering)
    (hs : 5 ≤ (s.tile t).power.step) (hc : (s.tile t).power.cmdAt + 1000000 ≤ s.now) (ht : (s.tile t).power.target < 3) :
    regulatorAckTimeout t s = (((s.refuseEntry t (s.tile t).power.target 4 6 (s.tile t).power.requester).setPwr t .waking).onPower t fun p =>
      { p with step := 1, orderAt := some s.now, wakeUp := false }).pmbus 3 t 0x21 (s.tile t).power.vrunMv := by
  unfold regulatorAckTimeout
  dsimp only
  rw [if_neg (fun h => hq h.1), if_neg (by simp [hp]; omega), if_neg (by omega)]
  rfl

/-- Settles O50: the request of R520 in each state that a role permits, and the two answers of the regulator. -/
theorem powerRequests : Obligations.PowerRequests := by
  refine ⟨fun s t hr hp => by rw [exec_powerRequestRun, powerAnswer_run hr hp],
    fun s t hr hp h => ⟨_, exec_powerRequestHold t s, powerRequest_entry_effect hr (by decide) (by decide) hp h⟩,
    fun s t hr hp h => ⟨_, exec_powerRequestRetain t s, powerRequest_entry_effect hr (by decide) (by decide) hp h⟩,
    fun s t hr hn hd hp => ?_, fun s t hr hn hd hp => by rw [exec_powerRequestOff, powerRequest_off_isolated hr hn hd hp],
    fun s t a hr hrun hboot hf hm hl ha => by rw [exec_idleEntry, idleEntry_requests hr hrun hboot hf hm hl ha],
    fun s t hr => by rw [exec_isolation, isolation, if_pos hr], fun s t hp hr => ⟨_, exec_wakeEvent t s, ?_⟩,
    fun s t mv st hd hpres hup hp hs hset ht ha hw => by rw [exec_regulatorAck, regulatorAck_enters hd hpres hup hp hs hset ht ha hw],
    fun s t hq hp hs hc ht => by rw [exec_regulatorAckTimeout, regulatorAckTimeout_wakes hq hp hs hc ht],
    fun s t hr hd hp => ⟨?_, ?_⟩,
    fun s t mv st hd hpres hup hp hs hset hb hn ha hlo hw => by rw [exec_regulatorAck, regulatorAck_wakes hd hpres hup hp hs hset hb hn ha hlo hw]⟩
  · rw [exec_powerRequestIsolated, powerRequest_from_run hr (by decide) (by decide) hd hp, State.leavesRole_faulted (by decide) hn]
  · rw [wakeEvent_entering hp hr, State.done_power, State.tile_onPower_self, State.done_out]
    exact ⟨rfl, hp, State.done_regs _ _ rfl, rfl⟩
  · rw [exec_powerRequestIsolated, powerRequest_from_run (by rw [hr]; decide) (by decide) (by decide) hd hp, State.leavesRole_standby (by decide) hr]
  · rw [exec_powerRequestOff, powerRequest_from_run (by rw [hr]; decide) (by decide) (by decide) hd hp, State.leavesRole_standby (by decide) hr]

end Sys2Proof.Machine

namespace Sys2Proof.Machine

/-! ### Changes of a bay's mode, wakes and reports (R485, R514, R530) -/

theorem exec_bayModeChange (b : BayId) (mode : Nat) (s : State) : exec (.bayModeChange b mode) s = .next (s.done (bayModeChange b mode s)) := rfl
theorem exec_wake (t : TileId) (s : State) : exec (.wake t) s = .next (s.done ((wake t s).modeReady (bayOf t))) := rfl
theorem exec_wakeOrderTimeout (t : TileId) (s : State) : exec (.wakeOrderTimeout t) s = .next (s.done (wakeOrderTimeout t s)) := rfl
theorem exec_tileStatusReport (t : TileId) (s : State) : exec (.tileStatusReport t) s = .next (s.done (tileStatusReport t s)) := rfl

/-! A change of a bay that leaves the roles of its tiles -/

section
variable {s : State} {b : BayId} {f : Bay → Bay} (hE : ∀ x, (f x).roleE = x.roleE) (hO : ∀ x, (f x).roleO = x.roleO)
include hE hO

theorem State.role_onBay (t : TileId) : (s.onBay b f).role t = s.role t := by
  unfold State.role
  rw [State.onBay_keeps Bay.roleE hE, State.onBay_keeps Bay.roleO hO]

theorem State.activeOf_onBay (c : BayId) : (s.onBay b f).activeOf c = s.activeOf c := by
  unfold State.activeOf
  simp only [State.role_onBay hE hO]

theorem State.standbyOf_onBay (c : BayId) : (s.onBay b f).standbyOf c = s.standbyOf c := by
  unfold State.standbyOf
  simp only [State.role_onBay hE hO]

theorem State.promotable_onBay (c : BayId) : (s.onBay b f).promotable c = s.promotable c := by
  unfold State.promotable
  rw [State.standbyOf_onBay hE hO]
  simp only [State.role_onBay hE hO]
  rfl

end

/-! A change of mode under way -/

/-- The change of mode is accepted: it waits with the action that ordered it. -/
def State.modeOrdered (s : State) (b : BayId) : State := s.onBay b fun x => { x with modeTo := true, modeAct := s.acts.now }

section
variable {s : State} {b : BayId} {a d : TileId}

theorem State.modeOrdered_bay (s : State) (b : BayId) : ((s.modeOrdered b).bay b).modeTo = true ∧ ((s.modeOrdered b).bay b).modeNow = (s.bay b).modeNow := by
  unfold State.modeOrdered
  rw [State.bay_onBay_self]
  exact ⟨rfl, rfl⟩

theorem State.activeOf_modeOrdered (s : State) (b c : BayId) : (s.modeOrdered b).activeOf c = s.activeOf c :=
  State.activeOf_onBay (f := fun x => { x with modeTo := true, modeAct := s.acts.now }) (fun _ => rfl) (fun _ => rfl) c
theorem State.promotable_modeOrdered (s : State) (b c : BayId) : (s.modeOrdered b).promotable c = s.promotable c :=
  State.promotable_onBay (f := fun x => { x with modeTo := true, modeAct := s.acts.now }) (fun _ => rfl) (fun _ => rfl) c
theorem State.role_modeOrdered (s : State) (b : BayId) (t : TileId) : (s.modeOrdered b).role t = s.role t :=
  State.role_onBay (f := fun x => { x with modeTo := true, modeAct := s.acts.now }) (fun _ => rfl) (fun _ => rfl) t

theorem modeReady_splits {y : State} (hto : (s.bay b).modeTo = true) (hd : s.pier.degraded = false) (hm : (s.bay b).modeNow = 0) (ha : s.activeOf b = some a)
    (hp : s.promotable b = some d) (hrun : s.inRun d = true) (hy : y = s.finishIntake a) (hi : y.intakeDone a = true) (hs : y.maySplit b = true) :
    s.modeReady b = ((y.onBay b fun x => { x with modeTo := false }).splitBay b a d).modeDone b 1 := by
  unfold State.modeReady
  dsimp only
  rw [if_neg (by simp [hto]), if_neg (by simp [hd]), if_neg (by simp [hm]), ha, hp]
  dsimp only
  rw [if_neg (by simp [hrun]), ← hy, if_neg (by simp [hi]), if_pos hs]

theorem modeReady_begins_join {y : State} (hto : (s.bay b).modeTo = true) (hd : s.pier.degraded = false) (hm : (s.bay b).modeNow = 1)
    (ho : s.role (tileOf b true) = 5) (he : s.role (tileOf b false) = 5) (hy : y = (s.finishIntake (tileOf b true)).finishIntake (tileOf b false))
    (hio : y.intakeDone (tileOf b true) = true) (hie : y.intakeDone (tileOf b false) = true) : s.modeReady b = y.joinBegin b := by
  unfold State.modeReady
  dsimp only
  rw [if_neg (by simp [hto]), if_neg (by simp [hd]), if_pos hm, if_neg (by simp [ho]), if_neg (by simp [ho, he]), ← hy, if_pos (by simp [hio, hie])]

theorem modeReady_joins (hto : (s.bay b).modeTo = true) (hd : s.pier.degraded = false) (hm : (s.bay b).modeNow = 1) (ho : s.role (tileOf b true) = 1)
    (hown : s.owns (tileOf b true) = false) : s.modeReady b = ((s.onBay b fun x => { x with modeTo := false }).joinBay b).modeDone b 0 := by
  unfold State.modeReady
  dsimp only
  rw [if_neg (by simp [hto]), if_neg (by simp [hd]), if_pos hm, if_pos ho, if_neg (by simp [hown])]

/-! `bay.mode_change` -/

theorem bayModeChange_same {mode : Nat} (hb : s.bayBusy b = false) (hd : s.pier.degraded = false) (h1 : mode ≤ 1) (hm : mode = (s.bay b).modeNow) :
    bayModeChange b mode s = s.bayResult b .ok := by
  unfold bayModeChange
  dsimp only
  rw [if_neg (by omega), if_neg (by simp [hb]), if_neg (by simp [hd]), if_pos hm]

/-- A change to independent that is accepted: a standby in RUN needs no wake, one in an idle state is ordered to RUN. -/
theorem bayModeChange_independent (hb : s.bayBusy b = false) (hd : s.pier.degraded = false) (hm : (s.bay b).modeNow = 0) (ha : s.activeOf b = some a)
    (hp : s.promotable b = some d) (hs : s.maySplit b = true) (he : (s.tile d).power.st ≠ .entering) :
    bayModeChange b 1 s = (if s.inRun d then s.modeOrdered b else (s.modeOrdered b).orderWake d 1).modeReady b := by
  unfold bayModeChange
  dsimp only
  rw [if_neg (by omega), if_neg (by simp [hb]), if_neg (by simp [hd]), if_neg (by simp [hm]), if_pos rfl, ha, hp]
  dsimp only
  rw [if_neg (by simp [hs])]
  exact congrArg (fun x : State => (if s.inRun d then s.modeOrdered b else x).modeReady b) (if_neg he)

theorem bayModeChange_redundant (hb : s.bayBusy b = false) (hd : s.pier.degraded = false) (hm : (s.bay b).modeNow = 1)
    (hk : (s.slotsOf (tileOf b true) fun r => decide (r.state = 1) || decide (r.state = 2)) = []) (ho : s.role (tileOf b true) = 5) (he : s.role (tileOf b false) = 5) :
    bayModeChange b 0 s = (s.modeOrdered b).modeReady b := by
  unfold bayModeChange
  dsimp only
  rw [if_neg (by omega), if_neg (by simp [hb]), if_neg (by simp [hd]), if_neg (by simp [hm]), if_neg (by omega), if_neg (by simp [hk, ho, he])]
  rfl

end

theorem wake_finishes {s : State} {t : TileId} (hp : (s.tile t).power.st = .waking) (hs : 2 ≤ (s.tile t).power.step) : wake t s = s.wakeDone t := if_pos ⟨hp, hs⟩

theorem wakeOrderTimeout_faults {s : State} {t : TileId} {a : Nat} (ho : (s.tile t).power.orderAt = some a) (hrun : s.inRun t = false) (ha : a + 10000000 ≤ s.now)
    (hr : s.role t = 1) (hd : s.pier.degraded = false) : wakeOrderTimeout t s = (s.onPower t fun p => { p with orderAt := none }).faultTile t 0 := by
  unfold wakeOrderTimeout
  rw [ho]
  exact if_neg (by simp [hrun, hr, hd]; omega)

theorem promotion_of_modeTo {s : State} {b : BayId} {ok : Bool} (hd : s.pier.degraded = false) (hp : (s.bay b).promo = none) (hh : (s.bay b).handover = false) :
    promotion b ok s = s.modeReady b := by
  unfold promotion
  rw [if_neg (by simp [hd]), hp]
  exact if_pos (by simp [hh])

/-- Settles O48: the action `bay.mode_change` in each of its accepted forms, the change under way (`State.modeReady`), and the ends of a wake. -/
theorem bayModes : Obligations.BayModes := by
  refine ⟨fun s y b a d hb hd hm ha hp hs hrun hy hi hsy => ?_, fun s y b hb hd hm hk ho he hy hio hie => ?_,
    fun s t hp hs => by rw [exec_wake, wake_finishes hp hs], fun s t a ho hrun ha hr hd => by rw [exec_wakeOrderTimeout, wakeOrderTimeout_faults ho hrun ha hr hd],
    fun s t hrun hr hboot hmiss => by rw [exec_tileStatusReport, tileStatusReport, if_pos ⟨hrun, hr, hboot, hmiss⟩],
    fun s b mode hb hd h1 hm => by rw [exec_bayModeChange, bayModeChange_same hb hd h1 hm], fun s b a d hb hd hm ha hp hs hrun he => ?_,
    fun s b ok hd hp hh hto hm ho hown => by rw [exec_promotion, promotion_of_modeTo hd hp hh, modeReady_joins hto hd hm ho hown]⟩
  · obtain ⟨hto, hnow⟩ := State.modeOrdered_bay s b
    have hawake : (s.tile d).power.st ≠ .entering := by
      have hst : (s.tile d).power.st = .run := by simpa [State.inRun] using hrun
      simp [hst]
    rw [exec_bayModeChange, bayModeChange_independent hb hd hm ha hp hs hawake, if_pos hrun, modeReady_splits (a := a) (d := d) hto hd (hnow.trans hm)
      ((State.activeOf_modeOrdered s b b).trans ha) ((State.promotable_modeOrdered s b b).trans hp) hrun hy hi hsy]
  · obtain ⟨hto, hnow⟩ := State.modeOrdered_bay s b
    rw [exec_bayModeChange, bayModeChange_redundant hb hd hm hk ho he, modeReady_begins_join hto hd (hnow.trans hm)
      ((State.role_modeOrdered s b _).trans ho) ((State.role_modeOrdered s b _).trans he) hy hio hie]
  · rw [exec_bayModeChange, bayModeChange_independent hb hd hm ha hp hs he, if_neg (by simp [hrun])]
    rfl

end Sys2Proof.Machine

namespace Sys2Proof.Machine

/-! ### The mirror stream and the shadow audit (R489 to R503) -/

theorem exec_mirrorItem (b : BayId) (resent : Nat) (s : State) : exec (.mirrorItem b resent) s = .next (s.done (mirrorItem b resent s)) := rfl
theorem exec_mirrorFrameLost (b : BayId) (s : State) : exec (.mirrorFrameLost b) s = .next (s.done (mirrorFrameLost b s)) := rfl
theorem exec_standbyDrain (b : BayId) (s : State) : exec (.standbyDrain b) s = .next (s.done (standbyDrain b s)) := rfl
theorem exec_standbyWake (b : BayId) (s : State) : exec (.standbyWake b) s = .next (s.done (standbyWake b s)) := rfl
theorem exec_auditCheck (b : BayId) (upset : Bytes) (s : State) : exec (.auditCheck b upset) s = .next (s.done (auditCheck b upset s)) := rfl
theorem exec_tieBreak (b : BayId) (active : Bool) (upset : Bytes) (s : State) :
    exec (.tieBreak b active upset) s = .next (s.done (tieBreak b active upset s)) := rfl
theorem exec_tieBreakTimeout (b : BayId) (s : State) : exec (.tieBreakTimeout b) s = .next (s.done (tieBreakTimeout b s)) := rfl
theorem exec_resync (b : BayId) (s : State) : exec (.resync b) s = .next (s.done (resync b s)) := rfl

/-! The link -/

section
variable {s : State} {b : BayId} {d : TileId}

theorem mirrorItem_delivers {y : State} {i : MItem} (h : s.hasStandby b = true) (hn : s.nextItem b = some (i, y)) (resent : Nat) :
    mirrorItem b resent s = (if resent = 0 then y else y.bump Reg.bay_mirror_retransmits b 0 resent).deliver b i := by
  unfold mirrorItem
  rw [if_neg (by simp [h]), hn]

theorem mirrorFrameLost_gives_up {y z : State} {i : MItem} {t : TileId} (h : s.hasStandby b = true) (hn : s.nextItem b = some (i, y))
    (hz : ((y.onBay b fun x => { x with reported := x.reported + 1 }).bump Reg.bay_mirror_retransmits b 0 2).mirrorLost b 1 = z) (ha : z.activeOf b = some t) :
    mirrorFrameLost b s = z.releaseVault t := by
  unfold mirrorFrameLost
  rw [if_neg (by simp [h]), hn]
  dsimp only
  rw [hz, ha]

theorem standbyDrain_drains (hs : s.standbyOf b = some d) (hd : s.drains d = true) (hp : (s.bay b).promo = none) (hg : s.groupReady b = false) :
    standbyDrain b s = s.drainOne b d true := by
  unfold standbyDrain
  rw [hs]
  exact if_neg (by simp [hd, hp, hg])

/-- The standby is woken at the FIFO's level, and when an audit group has waited its timer. -/
theorem standbyWake_wakes (hs : s.standbyOf b = some d) (hp : (s.bay b).promo = none)
    (h : s.rd Reg.bay_mirror_wake_level b ≤ (s.bay b).fifo.fill_ ∨ ∃ a, (s.bay b).auditAt = some a ∧ a + s.rd Reg.bay_audit_timer_ms b * 1000000 ≤ s.now) :
    standbyWake b s = s.wakeEvent d := by
  unfold standbyWake
  rw [hs]
  refine if_pos ⟨by simp [hp], h.imp_right ?_⟩
  rintro ⟨a, ha, hle⟩
  rw [ha]
  exact decide_eq_true hle

end

/-! The audit of a group (R502) -/

/-- The oldest group is taken, and its archive key loaded. -/
def State.groupTaken (s : State) (b : BayId) (d : TileId) (g : AuditGroup) (rest : List AuditGroup) : State :=
  (s.onBay b fun x => { x with groups := rest }).loadSlot d 8 (archPlace (g.keyGen % 16))

/-- A group that differs starts a tie-break. -/
def State.tieStarts (s : State) (b : BayId) (d : TileId) (g : AuditGroup) (own : Bytes) : State :=
  ((s.bump Reg.bay_audit_mismatches b).setRole d 2).onBay b fun x =>
    { x with tie := some { grp := g, a0 := g.digest, s0 := own, a1 := none, s1 := none, start := s.now, inj := none } }

section
variable {s : State} {b : BayId} {d : TileId} {g : AuditGroup} {rest : List AuditGroup} {upset : Bytes}

theorem State.groupTaken_keeps {β : Type} (h : State → β) (hw : ∀ x, h (State.bump x Reg.vault_unwraps d) = h x) (hv : ∀ x f, h (State.onVault x d f) = h x) :
    h (s.groupTaken b d g rest) = h (s.onBay b fun x => { x with groups := rest }) := by
  unfold State.groupTaken State.loadSlot
  split
  · exact (hv _ _).trans (hw _)
  · exact hv _ _

theorem State.groupTaken_now : (s.groupTaken b d g rest).now = s.now := State.groupTaken_keeps State.now (fun _ => rfl) fun _ _ => rfl
theorem State.groupTaken_pier : (s.groupTaken b d g rest).pier = s.pier := State.groupTaken_keeps State.pier (fun _ => rfl) fun _ _ => rfl
theorem State.groupTaken_out : (s.groupTaken b d g rest).out = s.out := State.groupTaken_keeps State.out (fun _ => rfl) fun _ _ => rfl
theorem State.groupTaken_bay : (s.groupTaken b d g rest).bay b = { s.bay b with groups := rest } :=
  (State.groupTaken_keeps (fun x => x.bay b) (fun _ => rfl) fun _ _ => rfl).trans (State.bay_onBay_self _ _ _)
theorem State.rd_groupTaken (e : Entry) (he : e.area = .bay) (hp : e.place 0 < 0x100 * 256) : (s.groupTaken b d g rest).rd e b = s.rd e b :=
  State.groupTaken_keeps (fun x => x.rd e b) (fun _ => State.rd_bump_ne _ _ _ _ _ _ _ _ (Entry.key_ne_tile_bay _ _ _ _ _ _ rfl he b.isLt hp).symm) fun _ _ => rfl

variable (hs : s.standbyOf b = some d) (hg : (s.bay b).groups = g :: rest) (hr : s.role d = 1) (hd : s.drains d = true) (hready : s.groupReady b = true)
  (htie : (s.bay b).tie = none)
include hs hg hr hd hready htie

/-- What the check does once the standby takes up the group: for any property of its result. -/
theorem auditCheck_judges {P : State → Prop}
    (hnone : (s.groupTaken b d g rest).formGroup d g = none → P ((s.groupTaken b d g rest).bump Reg.bay_audit_inconclusive b))
    (hsome : ∀ l, (s.groupTaken b d g rest).formGroup d g = some l →
      P (if ((List.range g.count).map fun i => (s.groupTaken b d g rest).heldRec d (g.seq + i)).any Option.isNone then
          (s.groupTaken b d g rest).bump Reg.bay_audit_inconclusive b
        else
          let start := fun (s : State) (x : Bytes) (inj : Option Nat) =>
            if s.pier.degraded then s else (s.setRole d 2).onBay b fun y =>
              { y with tie := some { grp := g, a0 := g.digest, s0 := x, a1 := none, s1 := none, start := s.now, inj := inj } }
          if groupDigest l upset = g.digest ∧ ((List.range g.count).map fun i => (s.groupTaken b d g rest).heldRec d (g.seq + i)) = l.map some then
            match (s.groupTaken b d g rest).bayArm b 2 with
            | some a => start ((s.groupTaken b d g rest).spendAudit b) (flipBit (groupDigest l upset) 0)
                (some (if a.p1 = 2 ∧ ((s.groupTaken b d g rest).promotable b).isNone then 0 else a.p1))
            | none => ((s.groupTaken b d g rest).bump Reg.bay_audit_checked b).wr Reg.bay_audit_last_match_seq b g.seq
          else start ((s.groupTaken b d g rest).bump Reg.bay_audit_mismatches b) (groupDigest l upset) none)) :
    P (auditCheck b upset s) := by
  unfold auditCheck
  rw [hs, hg]
  dsimp only
  rw [if_neg (by simp [hr, hd, hready, htie])]
  cases hf : (s.groupTaken b d g rest).formGroup d g with
  | none =>
    have h := hnone hf
    unfold State.groupTaken at hf h
    rw [hf]
    exact h
  | some l =>
    have h := hsome l hf
    unfold State.groupTaken at hf h
    rw [hf]
    exact h

theorem auditCheck_inconclusive (hf : (s.groupTaken b d g rest).formGroup d g = none) :
    auditCheck b upset s = (s.groupTaken b d g rest).bump Reg.bay_audit_inconclusive b :=
  auditCheck_judges (P := fun x => x = _) hs hg hr hd hready htie (fun _ => rfl) fun l h => by rw [hf] at h; cases h

theorem auditCheck_agrees {l : List ArchRec} (hf : (s.groupTaken b d g rest).formGroup d g = some l)
    (hown : ((List.range g.count).map fun i => (s.groupTaken b d g rest).heldRec d (g.seq + i)) = l.map some) (hdig : groupDigest l upset = g.digest)
    (harm : (s.groupTaken b d g rest).bayArm b 2 = none) :
    auditCheck b upset s = ((s.groupTaken b d g rest).bump Reg.bay_audit_checked b).wr Reg.bay_audit_last_match_seq b g.seq := by
  have hheld : ¬ ((l.map some).any Option.isNone) = true := by simp
  refine auditCheck_judges (P := fun x => x = _) hs hg hr hd hready htie (fun h => by rw [hf] at h; cases h) fun k h => ?_
  obtain rfl : l = k := Option.some.inj (hf.symm.trans h)
  dsimp only
  rw [hown, if_neg hheld, if_pos ⟨hdig, rfl⟩, harm]

theorem auditCheck_differs {l : List ArchRec} (hdeg : s.pier.degraded = false) (hf : (s.groupTaken b d g rest).formGroup d g = some l)
    (hheld : (((List.range g.count).map fun i => (s.groupTaken b d g rest).heldRec d (g.seq + i)).any Option.isNone) = false)
    (hne : groupDigest l upset ≠ g.digest ∨ (List.range g.count).map (fun i => (s.groupTaken b d g rest).heldRec d (g.seq + i)) ≠ l.map some) :
    auditCheck b upset s = (s.groupTaken b d g rest).tieStarts b d g (groupDigest l upset) := by
  have hup : (s.groupTaken b d g rest).pier.degraded = false := by rw [State.groupTaken_pier, hdeg]
  refine auditCheck_judges (P := fun x => x = _) hs hg hr hd hready htie (fun h => by rw [hf] at h; cases h) fun k h => ?_
  obtain rfl : l = k := Option.some.inj (hf.symm.trans h)
  dsimp only
  rw [if_neg (by simp [hheld]), if_neg (by rwa [not_and_or]), if_neg (by simp [hup])]
  rfl

end

/-! The tie-break (R503) -/

section
variable {s : State} {b : BayId} {u : TileId} {y : Tie} {l : List ArchRec} {upset : Bytes}

theorem tieBreak_active (ht : (s.bay b).tie = some y) (ha : s.activeOf b = some u) (hrun : s.inRun u = true) (h1 : y.a1 = none) (hi : y.inj = none)
    (hf : s.formGroup u y.grp = some l) :
    tieBreak b true upset s = (s.onBay b fun x => { x with tie := some { y with a1 := some (groupDigest l upset) } }).verdict b := by
  unfold tieBreak
  rw [ht, if_pos rfl, ha]
  dsimp only
  rw [if_neg (by simp [hrun, h1]), hi, hf]
  rfl

theorem tieBreak_standby (ht : (s.bay b).tie = some y) (ha : s.standbyOf b = some u) (hrun : s.inRun u = true) (h1 : y.s1 = none) (hi : y.inj = none)
    (hf : s.formGroup u y.grp = some l) :
    tieBreak b false upset s = (s.onBay b fun x => { x with tie := some { y with s1 := some (groupDigest l upset) } }).verdict b := by
  unfold tieBreak
  rw [ht, if_neg (by decide), ha]
  dsimp only
  rw [if_neg (by simp [hrun, h1]), hi, hf]
  rfl

theorem tieBreakTimeout_ends (ht : (s.bay b).tie = some y) (h : y.start + 100000000 ≤ s.now) :
    tieBreakTimeout b s = (s.onBay b fun x => { x with tie := some { y with a1 := some (y.a1.getD []), s1 := some (y.s1.getD []) } }).verdict b := by
  unfold tieBreakTimeout
  rw [ht]
  exact if_neg (by omega)

end

/-! The resynchronisation (R499) -/

section
variable {s : State} {b : BayId} {t d : TileId} (ha : s.activeOf b = some t) (hs : s.standbyOf b = some d) (hst : s.hasStandby b = true) (hrun : s.inRun t = true)
  (hp : (s.bay b).promo = none) (hh : (s.bay b).handover = false)
include ha hs hst hrun hp hh

theorem resync_begins (hr : (s.bay b).resync = none) (hsync : s.rd Reg.bay_mirror_sync b = 1) (hd : s.drains d = true) :
    resync b s = (((((s.onBay b fun x => { x with resync := some { first := s.highHeld d + 1, next := s.highHeld d + 1, phase := 1 } }).mirror t
      (.markBegin (s.highHeld d + 1))).alarm b 4 false).wr Reg.bay_mirror_resync_progress b 0).setSync b 2) := by
  unfold resync
  rw [ha, hs]
  dsimp only
  rw [if_neg (by simp [hst, hrun, hp, hh]), hr]
  dsimp only
  rw [if_neg (by omega), if_neg (by simp [hd])]

theorem resync_snapshot {r : Resync} (hr : (s.bay b).resync = some r) (hphase : r.phase = 1) :
    resync b s = ((s.placeSnapshot t).onBay b fun x => { x with resync := some { r with phase := 2 } }).wr Reg.bay_mirror_resync_progress b 33 := by
  unfold resync
  rw [ha, hs]
  dsimp only
  rw [if_neg (by simp [hst, hrun, hp, hh]), hr]
  exact if_pos hphase

end

theorem quiet_bay_audit_checked : Reg.bay_audit_checked.quiet 0 = true := by decide
theorem quiet_bay_audit_last_match_seq : Reg.bay_audit_last_match_seq.quiet 0 = true := by decide

/-- Settles O49: the link's next item, the audit of the oldest group by its outcomes, the tie-break and the steps of a resynchronisation. -/
theorem bayMirror : Obligations.BayMirror := by
  refine ⟨fun s y b i h hn => by rw [exec_mirrorItem, mirrorItem_delivers h hn, if_pos rfl],
    fun s y z b i t h hn hz ha => by rw [exec_mirrorFrameLost, mirrorFrameLost_gives_up h hn hz ha],
    fun s b d hs hd hp hg => by rw [exec_standbyDrain, standbyDrain_drains hs hd hp hg],
    fun s b d hs hp h => by rw [exec_standbyWake, standbyWake_wakes hs hp (.inl h)],
    fun s y b d g rest l hs hg hr hd hready htie hy hf hown hdig harm hn hseq => ⟨_, exec_auditCheck b [] s, ?_⟩,
    fun s b u y l ht ha hrun h1 hi hf => by rw [exec_tieBreak, tieBreak_active ht ha hrun h1 hi hf],
    fun s b y ht h => by rw [exec_tieBreakTimeout, tieBreakTimeout_ends ht h],
    fun s b t d ha hs hst hrun hp hh hr hsync hd => by rw [exec_resync, resync_begins ha hs hst hrun hp hh hr hsync hd],
    fun s y b i n h0 h hn => by rw [exec_mirrorItem, mirrorItem_delivers h hn, if_neg h0],
    fun s b d a hs hp ha h => by rw [exec_standbyWake, standbyWake_wakes hs hp (.inr ⟨a, ha, h⟩)],
    fun s y b d g rest l upset hs hg hr hd hready htie hdeg hy hf hheld hne => ?_, fun s y b d g rest upset hs hg hr hd hready htie hy hf => ?_,
    fun s b u y l upset ht ha hrun h1 hi hf => by rw [exec_tieBreak, tieBreak_standby ht ha hrun h1 hi hf],
    fun s b t d r ha hs hst hrun hp hh hr hphase => by rw [exec_resync, resync_snapshot ha hs hst hrun hp hh hr hphase]⟩
  · obtain rfl : y = s.groupTaken b d g rest := hy
    have hplaces : Reg.bay_audit_checked.key b 0 ≠ Reg.bay_audit_last_match_seq.key b 0 := Entry.key_ne_place _ _ _ _ _ rfl (by decide)
    have hchecked : (s.groupTaken b d g rest).rd Reg.bay_audit_checked b = s.rd Reg.bay_audit_checked b := State.rd_groupTaken _ rfl (by decide)
    rw [State.rd_done _ _ _ _ _ quiet_bay_audit_checked, State.rd_done _ _ _ _ _ quiet_bay_audit_last_match_seq, State.done_bay, State.done_out,
      auditCheck_agrees hs hg hr hd hready htie hf hown hdig harm, State.rd_wr_self, State.rd_wr_ne _ _ _ _ _ _ _ _ hplaces,
      State.rd_bump_lt _ _ _ _ (by rwa [hchecked]), hchecked, Nat.mod_eq_of_lt hseq, State.bay_wr, State.bay_bump, State.groupTaken_bay]
    exact ⟨rfl, rfl, rfl, htie, State.groupTaken_out⟩
  · obtain rfl : y = s.groupTaken b d g rest := hy
    rw [exec_auditCheck, auditCheck_differs hs hg hr hd hready htie hdeg hf hheld hne, State.tieStarts, State.groupTaken_now]
  · obtain rfl : y = s.groupTaken b d g rest := hy
    rw [exec_auditCheck, auditCheck_inconclusive hs hg hr hd hready htie hf]

end Sys2Proof.Machine

namespace Sys2Proof.Machine

/-! ### The boot of a tile (R604 to R613) -/

theorem exec_tilePowerUp (s : State) : exec .tilePowerUp s = .next (s.done (tilePowerUp s)) := rfl
theorem exec_tileBoot (t : TileId) (trained : Bool) (how legal : Nat) (s : State) :
    exec (.tileBoot t trained ⟨how, legal⟩) s = .next (s.done (tileBoot t trained how legal s)) := rfl
theorem exec_watchdog (t : TileId) (s : State) : exec (.watchdog t) s = .next (s.done (watchdog t s)) := rfl
theorem exec_trialTimeout (t : TileId) (s : State) : exec (.trialTimeout t) s = .next (s.done (trialTimeout t s)) := rfl

/-- A request on the PMBus is the Pier's: of a domain it notes the instant and the setpoint alone. -/
theorem State.pmbus_keeps {β : Type} (g : State → β)
    (hd : ∀ x u (f : Power → Power), (∀ p, (f p).st = p.st ∧ (f p).step = p.step) → g (State.onPower x u f) = g x)
    (hp : ∀ x f, g (State.onPier x f) = g x) (hb : ∀ x, g (State.bump x Reg.device_pmbus_transactions 0) = g x) (ho : ∀ x o, g (State.emit x o) = g x)
    (s : State) (cls : Nat) (t : TileId) (cmd data : Nat) : g (s.pmbus cls t cmd data) = g s := by
  have sent : ∀ (x : State) (y : PmTx), g (x.pmSend y) = g x := fun x y => by
    unfold State.pmSend
    refine (ho _ _).trans ?_
    split
    · split
      · refine (hd _ _ _ ?_).trans ((hb _).trans (hp _ _))
        exact fun _ => ⟨rfl, rfl⟩
      · exact (hb _).trans (hp _ _)
    · exact (hb _).trans (hp _ _)
  have noted : g (if cmd = 0x21 then s.onPower t fun p => { p with cmdAt := s.now } else s) = g s := State.ite_keeps g (hd _ _ _ fun _ => ⟨rfl, rfl⟩) rfl
  unfold State.pmbus
  refine Eq.trans ?_ noted
  refine State.ite_keeps g rfl ?_
  split
  · exact sent _ _
  · exact hp _ _

/-- The state and the step of a domain. -/
def State.domain (s : State) (t : TileId) : Pwr × Nat := ((s.tile t).power.st, (s.tile t).power.step)

theorem State.domain_pmbus (s : State) (cls : Nat) (u : TileId) (cmd data : Nat) (t : TileId) : (s.pmbus cls u cmd data).domain t = s.domain t :=
  State.pmbus_keeps (fun x => x.domain t)
    (fun x u f hf => State.onTile_keeps (f := fun y => { y with power := f y.power }) (fun y => (y.power.st, y.power.step))
      (fun y => Prod.ext (hf y.power).1 (hf y.power).2) x u t)
    (fun _ _ => rfl) (fun _ => rfl) (fun _ _ => rfl) s cls u cmd data

theorem State.now_pmbus (s : State) (cls : Nat) (u : TileId) (cmd data : Nat) : (s.pmbus cls u cmd data).now = s.now :=
  State.pmbus_keeps State.now (fun _ _ _ _ => rfl) (fun _ _ => rfl) (fun _ => rfl) (fun _ _ => rfl) s cls u cmd data

theorem State.now_setPwr (s : State) (t : TileId) (st : Pwr) : (s.setPwr t st).now = s.now := by
  unfold State.setPwr
  dsimp only
  split <;> rfl

/-! Power-up (R604) -/

/-- The domain's rail is ordered up. -/
def State.railOrdered (s : State) (t : TileId) : State :=
  let y := (s.setPwr t .waking).onPower t fun p => { p with step := 1, orderAt := none }
  ((y.pmbus 3 t 0x01 0x80).pmbus 3 t 0x21 (s.tile t).power.vrunMv).wr Reg.device_fw_tile_phase 0 1 t

theorem tilePowerUp_front {s : State} {t : TileId} {r : List Nat} (hq : s.pier.bootQueue = t.val :: r) (ha : s.pier.bootAt ≤ s.now) (hd : s.pier.degraded = false)
    (hp : s.pier.pfail = false) (hoff : (s.tile t).power.st = .off) :
    tilePowerUp s = (s.railOrdered t).onTile t fun x => { x with upSince := (s.railOrdered t).now } := by
  unfold tilePowerUp
  rw [hq]
  dsimp only
  rw [dif_pos t.isLt]
  exact if_neg (by simp [ha, hd, hp, hoff])

theorem State.domain_railOrdered (s : State) (t : TileId) : (s.railOrdered t).domain t = (.waking, 1) := by
  have set : ∀ x : State, (x.wr Reg.device_fw_tile_phase 0 1 t).domain t = x.domain t := fun _ => rfl
  unfold State.railOrdered
  rw [set, State.domain_pmbus, State.domain_pmbus, State.domain, State.tile_onPower_self, State.power_setPwr]

theorem State.rd_railOrdered (s : State) (t : TileId) : (s.railOrdered t).rd Reg.device_fw_tile_phase 0 t = 1 := State.rd_wr_self _ _ _ _ _

theorem State.now_railOrdered (s : State) (t : TileId) : (s.railOrdered t).now = s.now := by
  have set : ∀ x : State, (x.wr Reg.device_fw_tile_phase 0 1 t).now = x.now := fun _ => rfl
  unfold State.railOrdered
  rw [set, State.now_pmbus, State.now_pmbus]
  exact State.now_setPwr s t .waking

theorem quiet_device_fw_tile_phase (t : TileId) : Reg.device_fw_tile_phase.quiet t = true := by revert t; decide
theorem quiet_status_missing : Reg.status_missing.quiet 0 = true := by decide
theorem quiet_media_state : Reg.media_state.quiet 0 = true := by decide

theorem tilePowerUp_effect {s : State} {t : TileId} {r : List Nat} (hq : s.pier.bootQueue = t.val :: r) (ha : s.pier.bootAt ≤ s.now) (hd : s.pier.degraded = false)
    (hp : s.pier.pfail = false) (hoff : (s.tile t).power.st = .off) :
    ((s.done (tilePowerUp s)).tile t).power.st = .waking ∧ ((s.done (tilePowerUp s)).tile t).power.step = 1 ∧ ((s.done (tilePowerUp s)).tile t).upSince = s.now ∧
      (s.done (tilePowerUp s)).rd Reg.device_fw_tile_phase 0 t = 1 := by
  have hdom := State.domain_railOrdered s t
  rw [State.done_power, State.done_tile Tile.upSince (fun _ _ => rfl), State.rd_done _ _ _ _ _ (quiet_device_fw_tile_phase t), tilePowerUp_front hq ha hd hp hoff,
    State.tile_onTile_self]
  exact ⟨congrArg Prod.fst hdom, congrArg Prod.snd hdom, State.now_railOrdered s t, State.rd_railOrdered s t⟩

/-! The steps of R605 -/

section
variable {s : State} {t : TileId} {trained : Bool} {how legal : Nat} (hrun : s.inRun t = true) (hup : s.pier.up = true)

def State.atStep (s : State) (t : TileId) (k : Nat) : State := s.onBoot t fun b => { b with step := k }

theorem State.vol_atStep (s : State) (t : TileId) (k : Nat) : (s.atStep t k).vol t = { s.vol t with boot := { (s.vol t).boot with step := k } } :=
  State.vol_onVol_self _ _ _

include hrun hup

theorem tileBoot_rom (h : (s.vol t).boot.step = 0) (hc : s.pier.clock = .onRefclk) :
    tileBoot t trained how legal s = (s.onVault t fun v => { v with drbgTry := some s.now }).atStep t 1 := by
  unfold tileBoot
  rw [if_neg (by simp [hrun, hup]), h]
  exact if_pos hc

theorem tileBoot_decides (h : (s.vol t).boot.step = 1) (hp : s.rd Reg.device_fw_tile_phase 0 t ≠ 2) : tileBoot t trained how legal s = s.bootRom t := by
  unfold tileBoot
  rw [if_neg (by simp [hrun, hup]), h]
  exact if_neg hp

theorem tileBoot_vault (h : (s.vol t).boot.step = 2) : tileBoot t trained how legal s = ((s.vaultStart t).settleRoot t).atStep t 3 := by
  unfold tileBoot
  rw [if_neg (by simp [hrun, hup]), h]
  rfl

theorem tileBoot_trained (h : (s.vol t).boot.step = 3) : tileBoot t true how legal s = ((s.setMissing t 2 false).wr Reg.media_state t 1).atStep t 4 := by
  unfold tileBoot
  rw [if_neg (by simp [hrun, hup]), h]
  rfl

theorem tileBoot_mounts (h : (s.vol t).boot.step = 4) : tileBoot t trained how legal s = ((s.mount t how).takeDefs t).atStep t 5 := by
  unfold tileBoot
  rw [if_neg (by simp [hrun, hup]), h]
  rfl

theorem tileBoot_loads (h : (s.vol t).boot.step = 5) (hr : s.drbgReady t = true) :
    tileBoot t trained how legal s = (((s.bootLoad t legal).atStep t 6).wr Reg.device_fw_tile_phase 0 4 t).followTile t := by
  unfold tileBoot
  rw [if_neg (by simp [hrun, hup]), h]
  exact if_pos hr

end

/-- The trained DRAM is no longer missing. -/
theorem rd_missing_trained (s : State) (t : TileId) :
    ((s.setMissing t 2 false).wr Reg.media_state t 1).rd Reg.status_missing t = setBit (s.rd Reg.status_missing t) 2 false % 256 := by
  have media : Reg.status_missing.key t 0 ≠ Reg.media_state.key t 0 := Entry.key_ne_place _ _ _ _ _ rfl (by decide)
  have service : Reg.status_missing.key t 0 ≠ Reg.status_service.key t 0 := Entry.key_ne_place _ _ _ _ _ rfl (by decide)
  unfold State.setMissing State.wrBit
  rw [State.rd_wr_ne _ _ _ _ _ _ _ _ media, State.rd_settleService _ _ _ _ _ service, State.rd_wr_self]
  rfl

theorem watchdog_resets {s : State} {t : TileId} {d : Nat} (hd : (s.vol t).boot.dogEnd = some d) (hle : d ≤ s.now) (hrun : s.inRun t = true) :
    watchdog t s = (s.tileReset t 5).pierEvent t 2 0x1D05 := if_pos (by simp [hd, hle, hrun])

theorem trialTimeout_resets {s : State} {t : TileId} {d : Nat} (hd : (s.vol t).boot.trialEnd = some d) (hle : d ≤ s.now) (hrun : s.inRun t = true) :
    trialTimeout t s = s.tileReset t 8 := by
  unfold trialTimeout
  rw [hd]
  exact if_pos ⟨hle, hrun⟩

/-- Settles O8: the power-up of the plan's next tile, the steps of R605 one by one, and the two resets. -/
theorem tileBoot_holds : Obligations.TileBoot := by
  refine ⟨fun s t r hq ha hd hp hoff => ⟨_, exec_tilePowerUp s, tilePowerUp_effect hq ha hd hp hoff⟩,
    fun s t trained how legal hrun hup h hc => ⟨_, exec_tileBoot t trained how legal s, ?_⟩, fun s t how legal hrun hup h => ⟨_, exec_tileBoot t true how legal s, ?_⟩,
    fun s t d hd hle hrun => by rw [exec_watchdog, watchdog_resets hd hle hrun], fun s t d hd hle hrun => by rw [exec_trialTimeout, trialTimeout_resets hd hle hrun],
    fun s t trained how legal hrun hup h hp => by rw [exec_tileBoot, tileBoot_decides hrun hup h hp],
    fun s t trained how legal hrun hup h => ⟨_, exec_tileBoot t trained how legal s, ?_⟩, fun s t trained how legal hrun hup h => ⟨_, exec_tileBoot t trained how legal s, ?_⟩,
    fun s t trained how legal hrun hup h hr => by rw [exec_tileBoot, tileBoot_loads hrun hup h hr]; rfl⟩
  · rw [State.done_vol, tileBoot_rom hrun hup h hc, State.vol_atStep, State.onVault, State.vol_onVol_self]
    exact ⟨rfl, rfl⟩
  · have hstep : ∀ (x : State) (d : Entry), (x.atStep t 4).rd d t = x.rd d t := fun _ _ => rfl
    rw [State.done_vol, State.rd_done _ _ _ _ _ quiet_status_missing, State.rd_done _ _ _ _ _ quiet_media_state, tileBoot_trained hrun hup h, State.vol_atStep,
      hstep, hstep, rd_missing_trained, State.rd_wr_self]
    exact ⟨rfl, rfl, rfl⟩
  · rw [State.done_vol, tileBoot_vault hrun hup h, State.vol_atStep]
    exact ⟨rfl, rfl⟩
  · rw [State.done_vol, tileBoot_mounts hrun hup h, State.vol_atStep]
    exact ⟨rfl, rfl⟩

end Sys2Proof.Machine

namespace Sys2Proof.Machine

/-! ### The lock of a bank written while an action runs (R399, R617) -/

/-- A state whose running action has consumed bank B of tile 0, and whose bank B is STAGING with eight bytes. -/
def bankConsumed : State :=
  { tAct.onTile 0 fun x => { x with code := { x.code with rec0 := { BootRec.init with stB := 1 }, lenB := 8 } } with
    acts := { now := { frees := [Reg.fw_bank_b.key 0 0] } } }

/-- Three bytes written to it, before the answer. -/
def bankConsumedWritten : State × Status := bankConsumed.stage 0 Reg.fw_bank_b 0 5 [1, 2, 3] 0

theorem exec_bankWrite (t : TileId) (bank : Fin 2) (off : Nat) (data : Bytes) (s : State) :
    exec (.bankWrite t bank off data) s = .next (s.done (bankWrite t bank off data s)) := rfl

theorem bankConsumed_takes : bankConsumed.takesStaging 0 = true ∧ (bankConsumed.vol 0).boot.running ≠ some (1 : Fin 2).val ∧
    (bankConsumed.tile 0).code.record.st (1 : Fin 2) = 1 ∧ 5 + [(1 : Byte), 2, 3].length ≤ (bankConsumed.tile 0).code.len (1 : Fin 2) := by decide +kernel

theorem bankConsumed_unlocked : bankConsumed.lockOf (Reg.fw_bank_b.key 0 0) = none := by decide +kernel

theorem bankConsumedWritten_frees : Reg.fw_bank_b.key 0 0 ∈ bankConsumedWritten.1.acts.now.frees := by decide +kernel

theorem Tbl.get_of_filter {α : Type} {l : Tbl α} {p : Nat × α → Bool} {k : Nat} (h : ∀ v, p (k, v) = false) : Tbl.get (l.filter p) k = none := by
  induction l with
  | nil => rfl
  | cons e l ih =>
    obtain ⟨j, v⟩ := e
    rw [List.filter_cons]
    split
    case isTrue hp =>
      have hne : j ≠ k := fun hjk => by rw [hjk, h] at hp; cases hp
      simp only [Tbl.get, if_neg hne, ih]
    case isFalse => exact ih

theorem State.lockOf_of_free {s : State} {key : Nat} (h : Tbl.get s.pier.hub.locks key = none) : s.lockOf key = none := by
  unfold State.lockOf
  rw [h]

/-- The answer of an action frees the entries that it consumed. -/
theorem State.locks_answer_freed {s : State} {key : Nat} (h : key ∈ s.acts.now.frees) (n : Nat) (st : Status) :
    Tbl.get (s.answer n st).pier.hub.locks key = none := Tbl.get_of_filter fun v => by simp [h]

/-- Refutes O9: the clause on a write to a bank says nothing of the action that runs. Where that action has consumed the bank, its answer frees the bank's lock,
which the write has just taken: no lock stands, where the clause asks for one. No run reaches such a state, since no action runs between two commands. -/
theorem not_staging : ¬ Obligations.Staging := by
  unfold Obligations.Staging
  rintro ⟨-, written, -⟩
  obtain ⟨htakes, hrun, hst, hlen⟩ := bankConsumed_takes
  obtain ⟨x, hx, -, hlock, -⟩ := written bankConsumed 0 1 5 [1, 2, 3] htakes hrun hst (by decide) hlen fun k hk =>
    absurd (bankConsumed_unlocked.symm.trans hk) (by simp)
  obtain rfl := Host.Outcome.next.inj ((exec_bankWrite 0 1 5 [1, 2, 3] bankConsumed).symm.trans hx)
  have hfree : (bankConsumed.done (bankWrite 0 1 5 [1, 2, 3] bankConsumed)).lockOf (Reg.fw_bank_b.key 0 0) = none :=
    State.lockOf_of_free (by rw [State.done_pier]; exact State.locks_answer_freed bankConsumedWritten_frees 0 bankConsumedWritten.2)
  exact absurd (hfree.symm.trans hlock) (by simp)

end Sys2Proof.Machine

namespace Sys2Proof.Machine

/-! ### The references of time (R420 to R424) -/

theorem exec_pdelay (lane : Fin 2) (t1 t2 t3 t4 : Nat) (s : State) : exec (.pdelay lane t1 t2 t3 t4) s = .next (s.done (pdelay lane t1 t2 t3 t4 s)) := rfl
theorem exec_ptpSync (lane : Fin 2) (p : PtpSender) (originNs : Nat) (corrNs : Int) (s : State) :
    exec (.ptpSync lane p originNs corrNs) s = .next (s.done (ptpSync lane p originNs corrNs s)) := rfl
theorem exec_ppsEdge (rising : Bool) (width : Nat) (s : State) : exec (.ppsEdge rising width) s = .next (s.done (ppsEdge rising width s)) := rfl
theorem exec_todMessage (msg : Bytes) (s : State) : exec (.todMessage msg) s = .next (s.done (todMessage msg s)) := rfl

/-! What a frame that crosses a switch core within its command leaves (R371) -/

section
variable {β : Type} (g : State → β) (t : TileId) (hb : ∀ x (e : Entry) i k, e.area = .tile → g (State.bump x e t i k) = g x)
  (hs : ∀ x f, g (State.onSw x t f) = g x) (hq : ∀ x q, g (State.qWrite x t 5 q) = g x)
include hb hs hq

theorem State.swCount_keeps (s : State) (i cls : Nat) (b : Bytes) (len : Nat) : g (s.swCount t i cls b len) = g s := by
  have counted : g ((s.bump Reg.sw_frames_in t i).bump Reg.sw_bytes_in t i len) = g s := (hb _ _ _ _ rfl).trans (hb _ _ _ _ rfl)
  unfold State.swCount
  exact State.ite_keeps g counted (State.ite_keeps g ((hs _ _).trans counted) ((hq _ _).trans ((hs _ _).trans counted)))

theorem State.swPass_keeps (s : State) (i o cls : Nat) (b : Bytes) (len : Nat) : g (s.swPass t i o cls b len) = g s :=
  (hb _ _ _ _ rfl).trans ((hb _ _ _ _ rfl).trans (State.swCount_keeps g t hb hs hq s i cls b len))

end

/-- A message of the selected master that is forwarded to every tile. -/
theorem State.ptpForward_keeps {β : Type} (g : State → β) (hp : ∀ x, g (State.bump x Reg.device_time_ptp_rx 0) = g x)
    (hb : ∀ x (e : Entry) (t : TileId) i k, e.area = .tile → g (State.bump x e t i k) = g x) (hs : ∀ x t f, g (State.onSw x t f) = g x)
    (hq : ∀ x t q, g (State.qWrite x t 5 q) = g x) (s : State) (len : Nat) : g (s.ptpForward len) = g s :=
  (State.each_keeps g _ _ _ fun _ t => State.swPass_keeps g t (fun x e i k h => hb x e t i k h) (fun x f => hs x t f) (fun x q => hq x t q) _ _ _ _ _ _).trans (hp s)

/-! What the UTC offset and the leap second change (R420) -/

section
variable {β : Type} (g : State → β) (hl : ∀ x v, g (State.onPier x fun p => { p with time := { p.time with leapAt := v } }) = g x)
  (hw : ∀ x v, g (State.wr x Reg.device_time_leap_pending 0 v) = g x)
  (hu : ∀ x a b, g (State.onPier x fun p => { p with time := { p.time with utc := a, utcSrc := b } }) = g x)
  (hh : ∀ x b, g (State.wrB x Reg.device_time_utc_history 0 0 b) = g x) (he : ∀ x w a b c d e, g (State.pierEvent x w a b c d e) = g x)

include hl hw in
theorem State.signalLeap_keeps (s : State) (leap : Int) : g (s.signalLeap leap) = g s := by
  unfold State.signalLeap
  exact State.ite_keeps g (hl _ _) ((hl _ _).trans ((hl _ _).trans (hw _ _)))

include hu hh he in
theorem State.refreshUtc_keeps (s : State) : g s.refreshUtc = g s := by
  unfold State.refreshUtc
  exact State.ite_keeps g (hu _ _ _) ((he _ _ _ _ _ _ _).trans ((hh _ _).trans (hu _ _ _)))

end

/-! The choice of the master (R422) -/

/-- The best of the masters that have not lapsed, on the lanes considered. -/
def State.bestHeard (s : State) : Option Master := bestMaster ((s.pier.time.masters.filter s.stillHeard).filter fun x => s.laneHeard x.lane)

def State.masterTaken (s : State) : State :=
  s.onPier fun p => { p with time := { p.time with masters := s.pier.time.masters.filter s.stillHeard, best := s.bestHeard } }

/-- A change of the master is counted. -/
def State.masterCounted (s : State) : State :=
  if s.bestHeard.map (fun b => (b.port, b.gm, b.lane)) = s.pier.time.best.map (fun b => (b.port, b.gm, b.lane)) then s.masterTaken
  else s.masterTaken.bump Reg.device_time_master_changes 0

/-- The master is shown. -/
def State.masterShown (s : State) : State :=
  let b := s.bestHeard.map fun b => (b.gm, b.port, b.leap)
  (s.masterCounted.wrB Reg.device_time_gm_identity 0 0 (fit 8 (b.elim [] (·.1)))).wrB Reg.device_time_master_port 0 0 (fit 10 (b.elim [] (·.2.1)))

/-- What it says of UTC is taken. -/
def State.masterUtc (s : State) (b : Option (Bytes × Bytes × Int)) : State := (b.elim s fun x => s.signalLeap x.2.2).refreshUtc

theorem State.chooseMaster_eq (s : State) : s.chooseMaster = s.masterShown.masterUtc (s.bestHeard.map fun b => (b.gm, b.port, b.leap)) := rfl

theorem State.masterUtc_keeps {β : Type} (g : State → β) (hl : ∀ x v, g (State.onPier x fun p => { p with time := { p.time with leapAt := v } }) = g x)
    (hw : ∀ x v, g (State.wr x Reg.device_time_leap_pending 0 v) = g x)
    (hu : ∀ x a b, g (State.onPier x fun p => { p with time := { p.time with utc := a, utcSrc := b } }) = g x)
    (hh : ∀ x b, g (State.wrB x Reg.device_time_utc_history 0 0 b) = g x) (he : ∀ x w a b c d e, g (State.pierEvent x w a b c d e) = g x)
    (s : State) (b : Option (Bytes × Bytes × Int)) : g (s.masterUtc b) = g s := by
  unfold State.masterUtc
  rw [State.refreshUtc_keeps g hu hh he]
  cases b with
  | none => rfl
  | some x => exact State.signalLeap_keeps g hl hw s _

/-- The masters of the Pier, and the one chosen. -/
def State.masters (s : State) : List Master × Option Master := (s.pier.time.masters, s.pier.time.best)

theorem State.masters_snd (s : State) : s.masters.2 = s.pier.time.best := rfl

theorem State.masters_fst (s : State) : s.masters.1 = s.pier.time.masters := rfl

theorem State.masters_pierEvent (s : State) (w a b c d e : Nat) : (s.pierEvent w a b c d e).masters = s.masters :=
  State.pierPut_keeps State.masters (fun _ _ => rfl) (fun _ _ => rfl) _ _

theorem State.masters_chooseMaster (s : State) : s.chooseMaster.masters = (s.pier.time.masters.filter s.stillHeard, s.bestHeard) := by
  have counted : s.masterCounted.masters = (s.pier.time.masters.filter s.stillHeard, s.bestHeard) := State.ite_keeps State.masters rfl rfl
  rw [State.chooseMaster_eq, State.masterUtc_keeps State.masters (fun _ _ => rfl) (fun _ _ => rfl) (fun _ _ _ => rfl) (fun _ _ => rfl) State.masters_pierEvent, ← counted]
  rfl

theorem State.vol_chooseMaster (s : State) (u : TileId) : s.chooseMaster.vol u = s.vol u := by
  have counted : s.masterCounted.vol u = s.vol u := State.ite_keeps (fun x => x.vol u) rfl rfl
  rw [State.chooseMaster_eq, State.masterUtc_keeps (fun x => x.vol u) (fun _ _ => rfl) (fun _ _ => rfl) (fun _ _ _ => rfl) (fun _ _ => rfl)
    fun _ _ _ _ _ _ _ => State.vol_pierEvent _ _ _ _ _ _ _ _, ← counted]
  rfl

/-- A message of a master enters the list. -/
def State.masterHeard (s : State) (m : Master) : State :=
  s.onPier fun p => { p with time := { p.time with masters := m :: p.time.masters.filter fun x => !(x.port == m.port && x.lane == m.lane) } }

theorem ptpAnnounce_eq (m : Master) (s : State) :
    ptpAnnounce m s = if (s.masterHeard m).chooseMaster.pier.time.best = some m then (s.masterHeard m).chooseMaster.ptpForward 78 else (s.masterHeard m).chooseMaster := rfl

/-- Whether forwarded or not. -/
theorem ptpAnnounce_keeps {β : Type} (g : State → β) (hp : ∀ x, g (State.bump x Reg.device_time_ptp_rx 0) = g x)
    (hb : ∀ x (e : Entry) (t : TileId) i k, e.area = .tile → g (State.bump x e t i k) = g x) (hs : ∀ x t f, g (State.onSw x t f) = g x)
    (hq : ∀ x t q, g (State.qWrite x t 5 q) = g x) (m : Master) (s : State) : g (ptpAnnounce m s) = g (s.masterHeard m).chooseMaster := by
  rw [ptpAnnounce_eq]
  exact State.ite_keeps g (State.ptpForward_keeps g hp hb hs hq _ _) rfl

theorem State.masters_qWrite (s : State) (t : TileId) (q : QItem) : (s.qWrite t 5 q).masters = s.masters :=
  State.access_keeps State.masters t 5 (fun _ _ _ => rfl) (fun _ _ _ => rfl) (fun _ _ _ => rfl) (fun _ _ => rfl) (fun _ _ => rfl) _ _

theorem ptpAnnounce_masters (m : Master) (s : State) :
    (ptpAnnounce m s).masters = ((s.masterHeard m).pier.time.masters.filter s.stillHeard, (s.masterHeard m).bestHeard) := by
  rw [ptpAnnounce_keeps State.masters (fun _ => rfl) (fun _ _ _ _ _ _ => rfl) (fun _ _ _ => rfl) State.masters_qWrite, State.masters_chooseMaster]
  rfl

theorem ptpAnnounce_mer (m : Master) (s : State) (u : TileId) : ((ptpAnnounce m s).vol u).mer = (s.vol u).mer := by
  have sw : ∀ (x : State) (t : TileId) (f : Switch → Switch), ((x.onSw t f).vol u).mer = (x.vol u).mer := fun x t f =>
    State.onTile_keeps (f := fun y => { y with vol := { y.vol with sw := f y.vol.sw } }) (fun y => y.vol.mer) (fun _ => rfl) x t u
  rw [ptpAnnounce_keeps (fun x => (x.vol u).mer) (fun _ => rfl) (fun _ _ _ _ _ _ => rfl) sw (fun _ _ _ => State.qWrite_mer _ _ _ _ _), State.vol_chooseMaster]
  rfl

/-- The identity and the count of the master shown stand until the command ends. -/
theorem ptpAnnounce_shown (m : Master) (s : State) (d : Entry) (hd : d.area = .dev) (hq : d.quiet 0 = true) (hp : d.key 0 0 ≠ Reg.device_time_ptp_rx.key 0 0)
    (hl : d.key 0 0 ≠ Reg.device_time_leap_pending.key 0 0) (hh : d.key 0 0 ≠ Reg.device_time_utc_history.key 0 0) :
    Tbl.get (ptpAnnounce m s).regs (d.key 0 0) = Tbl.get (s.masterHeard m).masterShown.regs (d.key 0 0) := by
  have queue : ∀ (x : State) (t : TileId) (q : QItem), Tbl.get (x.qWrite t 5 q).regs (d.key 0 0) = Tbl.get x.regs (d.key 0 0) := fun x t q =>
    State.access_keeps (fun x => Tbl.get x.regs (d.key 0 0)) t 5 (fun _ _ _ => rfl) (fun _ _ _ => State.get_wr_ne _ _ _ _ _ _ (Entry.quiet_lost _ _ _ _ _ hq (by simp [hd])))
      (fun _ _ _ => State.get_wr_ne _ _ _ _ _ _ (Entry.quiet_resets _ _ _ _ _ hq (by simp [hd]))) (fun _ _ => rfl)
      (fun _ _ => State.get_wr_ne _ _ _ _ _ _ (Entry.quiet_pierLost _ _ _ hq)) _ _
  have event : ∀ (x : State) (w a b c y z : Nat), Tbl.get (x.pierEvent w a b c y z).regs (d.key 0 0) = Tbl.get x.regs (d.key 0 0) := fun x w a b c y z =>
    State.pierPut_keeps (fun x => Tbl.get x.regs (d.key 0 0)) (fun _ _ => rfl) (fun _ _ => State.get_wr_ne _ _ _ _ _ _ (Entry.quiet_pierLost _ _ _ hq)) _ _
  rw [ptpAnnounce_keeps (fun x => Tbl.get x.regs (d.key 0 0)) (fun _ => State.get_wr_ne _ _ _ _ _ _ hp)
    (fun _ _ _ _ _ he => State.get_wr_ne _ _ _ _ _ _ (Entry.key_ne_of_quiet_dev hd hq (by simp [he]))) (fun _ _ _ => rfl) queue, State.chooseMaster_eq,
    State.masterUtc_keeps (fun x => Tbl.get x.regs (d.key 0 0)) (fun _ _ => rfl) (fun _ _ => State.get_wr_ne _ _ _ _ _ _ hl) (fun _ _ _ => rfl)
      (fun _ _ => State.get_wrB_ne _ _ _ _ _ _ _ hh) event]

/-- The master that an Announce message describes. -/
def announced (s : State) (lane : Fin 2) (port gm : Bytes) (prio1 cls acc var prio2 steps src : Nat) (utc : Int) (utcValid : Bool) (leap : Int) : Master :=
  { lane := lane, port := port, gm := gm, prio1 := prio1, cls := cls, acc := acc, var := var, prio2 := prio2, steps := steps, src := src, utc := utc
    utcValid := utcValid, leap := clampI 1 leap, seen := s.now }

section
variable {s : State} {lane : Fin 2} {p : PtpSender} {port gm : Bytes} {prio1 cls acc var prio2 steps src : Nat} {utc leap : Int} {utcValid : Bool}

theorem exec_ptpAnnounce_taken (hdown : s.laneDown lane = false) (hdom : p.domain = s.rd Reg.device_time_ptp_domain 0) (hsrc : s.pier.time.source = 0) :
    exec (.ptpAnnounce lane p gm prio1 cls acc var prio2 steps src utc utcValid leap) s =
      .next (s.done (ptpAnnounce (announced s lane p.port gm prio1 cls acc var prio2 steps src utc utcValid leap) s)) := by
  have hnot : ¬ (s.laneDown lane = true ∨ p.domain ≠ s.rd Reg.device_time_ptp_domain 0 ∨ s.pier.time.source ≠ 0) := by simp [hdown, hdom, hsrc]
  exact congrArg (fun x => Host.Outcome.next (s.done x)) (if_neg hnot)

theorem exec_ptpAnnounce_discarded (h : s.pier.time.source ≠ 0 ∨ p.domain ≠ s.rd Reg.device_time_ptp_domain 0) :
    exec (.ptpAnnounce lane p gm prio1 cls acc var prio2 steps src utc utcValid leap) s = .next (s.done s) :=
  congrArg (fun x => Host.Outcome.next (s.done x)) (if_pos (.inr h.symm))

theorem announced_stillHeard : s.stillHeard (announced s lane port gm prio1 cls acc var prio2 steps src utc utcValid leap) = true := by
  simp [State.stillHeard, announced]

theorem announced_masters (m : Master) (hm : s.stillHeard m = true) :
    (s.masterHeard m).pier.time.masters.filter s.stillHeard = m :: (s.pier.time.masters.filter fun x => !(x.port == m.port && x.lane == m.lane)).filter s.stillHeard :=
  List.filter_cons_of_pos hm

end

/-- The first master heard is the best. -/
theorem bestHeard_first {s : State} {m : Master} (h : s.pier.time.masters = []) (hm : s.stillHeard m = true) (hl : s.laneHeard m.lane = true) :
    (s.masterHeard m).bestHeard = some m := by
  have hmasters : (s.masterHeard m).pier.time.masters.filter s.stillHeard = [m] := by rw [announced_masters m hm, h]; rfl
  have hheard : ([m].filter fun x => s.laneHeard x.lane) = [m] := List.filter_cons_of_pos hl
  calc (s.masterHeard m).bestHeard = bestMaster (((s.masterHeard m).pier.time.masters.filter s.stillHeard).filter fun x => s.laneHeard x.lane) := rfl
    _ = some m := by rw [hmasters, hheard]; rfl

theorem rd_masterShown_first {s : State} {m : Master} (hb : s.bestHeard = some m) (hn : s.pier.time.best = none)
    (hc : s.rd Reg.device_time_master_changes 0 + 1 < Reg.device_time_master_changes.span) :
    s.masterShown.rd Reg.device_time_master_changes 0 = s.rd Reg.device_time_master_changes 0 + 1 := by
  have hcounted : s.masterCounted = s.masterTaken.bump Reg.device_time_master_changes 0 := if_neg (by simp [hb, hn])
  have htaken : s.masterTaken.rd Reg.device_time_master_changes 0 = s.rd Reg.device_time_master_changes 0 := rfl
  unfold State.masterShown
  dsimp only
  rw [State.rd_wrB_ne _ _ _ _ _ _ _ _ _ (by decide), State.rd_wrB_ne _ _ _ _ _ _ _ _ _ (by decide), hcounted, State.rd_bump_lt _ _ _ _ (by rwa [htaken]), htaken]

theorem rdB_masterShown {s : State} {m : Master} (hb : s.bestHeard = some m) : s.masterShown.rdB Reg.device_time_gm_identity 0 0 8 = fit 8 m.gm := by
  have hlen : (fit 8 m.gm).length = 8 := by simp [fit]; omega
  unfold State.masterShown
  rw [hb]
  dsimp only [Option.map_some, Option.elim_some]
  rw [State.rdB_wrB_ne _ _ _ _ _ _ _ _ _ _ _ (by decide)]
  have h := State.rdB_wrB_self s.masterCounted Reg.device_time_gm_identity 0 0 0 (fit 8 m.gm)
  rwa [hlen] at h

theorem quiet_device_time_master_changes : Reg.device_time_master_changes.quiet 0 = true := by decide
theorem quiet_device_time_gm_identity : Reg.device_time_gm_identity.quiet 0 = true := by decide
theorem quiet_device_time_tod_errors : Reg.device_time_tod_errors.quiet 0 = true := by decide
theorem quiet_device_time_link_delay_ns (lane : Fin 2) : Reg.device_time_link_delay_ns.quiet lane = true := by revert lane; decide

theorem ptpAnnounce_first {s : State} {m : Master} (h : s.pier.time.masters = []) (hn : s.pier.time.best = none) (hm : s.stillHeard m = true)
    (hl : s.laneHeard m.lane = true) (hc : s.rd Reg.device_time_master_changes 0 + 1 < Reg.device_time_master_changes.span) :
    (ptpAnnounce m s).pier.time.best = some m ∧ (ptpAnnounce m s).rdB Reg.device_time_gm_identity 0 0 8 = fit 8 m.gm ∧
      (ptpAnnounce m s).rd Reg.device_time_master_changes 0 = s.rd Reg.device_time_master_changes 0 + 1 := by
  have hbest := bestHeard_first h hm hl
  have hchanges := ptpAnnounce_shown m s Reg.device_time_master_changes rfl quiet_device_time_master_changes (by decide) (by decide) (by decide)
  have hchosen : (ptpAnnounce m s).masters.2 = some m := by rw [ptpAnnounce_masters, hbest]
  rw [State.masters_snd] at hchosen
  have hgm := ptpAnnounce_shown m s Reg.device_time_gm_identity rfl quiet_device_time_gm_identity (by decide) (by decide) (by decide)
  refine ⟨hchosen, (State.rdB_congr _ _ _ _ _ hgm).trans (rdB_masterShown hbest), (State.rd_congr hchanges).trans ?_⟩
  have hrd : (s.masterHeard m).rd Reg.device_time_master_changes 0 = s.rd Reg.device_time_master_changes 0 := rfl
  rw [rd_masterShown_first hbest hn (by rwa [hrd]), hrd]

/-! Synchronisations and delays (R422) -/

theorem ptpSync_measured {s : State} {lane : Fin 2} {p : PtpSender} {m : Master} {originNs : Nat} {corrNs : Int} (hb : s.pier.time.best = some m)
    (hsrc : s.pier.time.source = 0) (hlane : m.lane = lane.val) (hheard : s.laneHeard lane = true) (hdown : s.laneDown lane = false)
    (hdom : p.domain = s.rd Reg.device_time_ptp_domain 0) (hport : m.port = p.port) :
    ptpSync lane p originNs corrNs s = (if p.followUp then (s.ptpForward 60).ptpForward 60 else s.ptpForward 60).each allTiles fun z t => z.formMeasure t
      ((originNs : Int) + corrNs + (if p.followUp then (s.ptpForward 60).ptpForward 60 else s.ptpForward 60).rd Reg.device_time_link_delay_ns 0 lane -
        (z.timeNs t - (82 + (if p.followUp then (s.ptpForward 60).ptpForward 60 else s.ptpForward 60).rdI Reg.device_time_lane_corr_ns 0 lane))) := by
  unfold ptpSync
  rw [hb]
  exact if_pos ⟨hdown, hdom, hsrc, hport, hlane, hheard⟩

theorem ptpSync_discarded {s : State} {lane : Fin 2} {p : PtpSender} {originNs : Nat} {corrNs : Int} (h : p.domain ≠ s.rd Reg.device_time_ptp_domain 0) :
    ptpSync lane p originNs corrNs s = s := by
  unfold ptpSync
  split
  · exact if_neg fun k => h k.2.1
  · rfl

theorem pdelay_measures {s : State} {lane : Fin 2} (hdown : s.laneDown lane = false) (hsrc : s.pier.time.source = 0) (t1 t2 t3 t4 : Nat) :
    pdelay lane t1 t2 t3 t4 s = ((s.emit (.lanePdelay lane false)).emit (.lanePdelay lane true)).wr Reg.device_time_link_delay_ns 0
      (meanLinkDelay (58 + s.rdI Reg.device_time_lane_corr_ns 0 lane) (36 + s.rdI Reg.device_time_lane_corr_ns 0 lane) (t1, t2, t3, t4)) lane :=
  if_neg (by simp [hdown, hsrc])

/-! PPS and its messages (R423, R424) -/

/-- The level of PPS as it stands after an edge. -/
def State.ppsShown (s : State) (rising : Bool) : State := s.onPier fun p => { p with time := { p.time with ppsLevel := rising } }

/-- An active edge is taken. -/
def State.ppsTaken (s : State) (rising : Bool) : State :=
  s.onPier fun p => { p with time := { p.time with ppsLevel := rising, lastEdge := some s.now, todNamed := none } }

/-- The edge before came less than 500 ms ago. -/
def State.ppsEarly (s : State) : Bool :=
  match s.pier.time.lastEdge with
  | some e => decide (s.now < e + 500000000)
  | none => false

/-- What an active edge names is measured, or counted where nothing names it. -/
def State.ppsMeasured (s : State) : Option Nat → State
  | some sec => if s.pier.time.source = 1 then s.each allTiles fun z t => z.formMeasure t ((sec : Int) * 1000000000 - z.timeNs t) else s
  | none => if s.pier.time.source = 1 then s.bump Reg.device_time_tod_errors 0 else s

theorem ppsMeasured_named {s : State} {rising : Bool} (h : s.pier.time.source = 1) (sec : Nat) :
    (s.ppsTaken rising).ppsMeasured (some sec) = (s.ppsTaken rising).each allTiles fun z t => z.formMeasure t ((sec : Int) * 1000000000 - z.timeNs t) := if_pos h

theorem ppsMeasured_unnamed {s : State} {rising : Bool} (h : s.pier.time.source = 1) :
    (s.ppsTaken rising).ppsMeasured none = (s.ppsTaken rising).bump Reg.device_time_tod_errors 0 := if_pos h

theorem ppsEdge_eq (rising : Bool) (width : Nat) (s : State) :
    ppsEdge rising width s = if !s.pier.up then s
      else if !decide (rising = decide ((s.ppsShown rising).rd Reg.device_time_pps_polarity 0 = 0)) || decide (width < 100) || (s.ppsShown rising).ppsEarly then s.ppsShown rising
      else (s.ppsTaken rising).ppsMeasured s.pier.time.todNamed := rfl

theorem match_eq_any (o : Option Nat) (f : Nat → Bool) : (match o with | some e => f e | none => false) = o.any f := by cases o <;> rfl

theorem match_eq_all (o : Option Nat) (f : Nat → Bool) : (match o with | some e => f e | none => true) = o.all f := by cases o <;> rfl

theorem ppsEarly_ppsShown (s : State) (rising : Bool) :
    (s.ppsShown rising).ppsEarly = s.pier.time.lastEdge.any fun e => decide (s.now < e + 500000000) :=
  match_eq_any s.pier.time.lastEdge fun e => decide (s.now < e + 500000000)

section
variable {s : State} {rising : Bool} {width sec : Nat} (hup : s.pier.up = true)
include hup

theorem ppsEdge_active (ha : rising = decide (s.rd Reg.device_time_pps_polarity 0 = 0)) (hw : 100 ≤ width)
    (hl : (s.pier.time.lastEdge.all fun e => decide (e + 500000000 ≤ s.now)) = true) :
    ppsEdge rising width s = (s.ppsTaken rising).ppsMeasured s.pier.time.todNamed := by
  have hpol : (s.ppsShown rising).rd Reg.device_time_pps_polarity 0 = s.rd Reg.device_time_pps_polarity 0 := rfl
  have hearly : (s.ppsShown rising).ppsEarly = false := by
    rw [ppsEarly_ppsShown]
    cases h : s.pier.time.lastEdge with
    | none => exact Option.any_none
    | some e =>
      rw [h, Option.all_some] at hl
      rw [Option.any_some]
      exact decide_eq_false (Nat.not_lt.2 (of_decide_eq_true hl))
  have hwide : ¬ width < 100 := by omega
  rw [ppsEdge_eq, if_neg (by simp [hup]), if_neg (by simp [hpol, ← ha, hwide, hearly])]

theorem ppsEdge_other (h : rising ≠ decide (s.rd Reg.device_time_pps_polarity 0 = 0) ∨ width < 100 ∨
    (s.pier.time.lastEdge.any fun e => decide (s.now < e + 500000000)) = true) : ppsEdge rising width s = s.ppsShown rising := by
  have hpol : (s.ppsShown rising).rd Reg.device_time_pps_polarity 0 = s.rd Reg.device_time_pps_polarity 0 := rfl
  rw [← ppsEarly_ppsShown s rising] at h
  rw [ppsEdge_eq, if_neg (by simp [hup])]
  refine if_pos ?_
  rw [hpol]
  obtain h | h | h := h
  · simp [h]
  · simp [h]
  · simp [h]

end

/-- What a message of TOD names. -/
def State.todTaken (s : State) (sec : Nat) (u : Int) : State := s.onPier fun p => { p with time := { p.time with todNamed := some sec, todUtc := some u } }

/-- The message comes between 100 ms and 900 ms after the last edge. -/
def State.todInTime (s : State) : Bool :=
  match s.pier.time.lastEdge with
  | some e => decide (e + 100000000 ≤ s.now) && decide (s.now ≤ e + 900000000)
  | none => true

theorem todMessage_eq (msg : Bytes) (s : State) : todMessage msg s = match parseTod msg with
    | some (sec, u, l) => if s.todInTime then
        (if s.pier.time.source = 1 then (s.todTaken sec u).signalLeap (if l = 1 then 1 else if l = 2 then -1 else 0) else s.todTaken sec u).refreshUtc else s
    | none => s := rfl

theorem todMessage_names {s : State} {msg : Bytes} {sec l : Nat} {u : Int} (hp : parseTod msg = some (sec, u, l))
    (hin : (s.pier.time.lastEdge.all fun e => decide (e + 100000000 ≤ s.now) && decide (s.now ≤ e + 900000000)) = true) :
    todMessage msg s = (if s.pier.time.source = 1 then (s.todTaken sec u).signalLeap (if l = 1 then 1 else if l = 2 then -1 else 0) else s.todTaken sec u).refreshUtc := by
  have htime : s.todInTime = true := (match_eq_all s.pier.time.lastEdge fun e => decide (e + 100000000 ≤ s.now) && decide (s.now ≤ e + 900000000)).trans hin
  rw [todMessage_eq, hp]
  exact if_pos htime

/-- The named edge, its UTC offset and the last edge stand when the offset in force follows. -/
theorem todMessage_keeps {β : Type} (g : State → β) {s : State} {msg : Bytes} {sec l : Nat} {u : Int} (hp : parseTod msg = some (sec, u, l))
    (hin : (s.pier.time.lastEdge.all fun e => decide (e + 100000000 ≤ s.now) && decide (s.now ≤ e + 900000000)) = true)
    (hl : ∀ x v, g (State.onPier x fun p => { p with time := { p.time with leapAt := v } }) = g x) (hw : ∀ x v, g (State.wr x Reg.device_time_leap_pending 0 v) = g x)
    (hu : ∀ x a b, g (State.onPier x fun p => { p with time := { p.time with utc := a, utcSrc := b } }) = g x)
    (hh : ∀ x b, g (State.wrB x Reg.device_time_utc_history 0 0 b) = g x) (he : ∀ x w a b c d e, g (State.pierEvent x w a b c d e) = g x) :
    g (todMessage msg s) = g (s.todTaken sec u) := by
  rw [todMessage_names hp hin, State.refreshUtc_keeps g hu hh he]
  exact State.ite_keeps g (State.signalLeap_keeps g hl hw _ _) rfl

theorem todMessage_effect {s : State} {msg : Bytes} {sec l : Nat} {u : Int} (hp : parseTod msg = some (sec, u, l))
    (hin : (s.pier.time.lastEdge.all fun e => decide (e + 100000000 ≤ s.now) && decide (s.now ≤ e + 900000000)) = true) :
    (todMessage msg s).pier.time.todNamed = some sec ∧ (todMessage msg s).pier.time.todUtc = some u ∧
      (todMessage msg s).pier.time.lastEdge = s.pier.time.lastEdge ∧ (todMessage msg s).out = s.out ∧ ∀ v, (todMessage msg s).vol v = s.vol v := by
  have hkept : ((todMessage msg s).pier.time.todNamed, (todMessage msg s).pier.time.todUtc, (todMessage msg s).pier.time.lastEdge) =
      (some sec, some u, s.pier.time.lastEdge) :=
    todMessage_keeps (fun x => (x.pier.time.todNamed, x.pier.time.todUtc, x.pier.time.lastEdge)) hp hin (fun _ _ => rfl) (fun _ _ => rfl) (fun _ _ _ => rfl)
      (fun _ _ => rfl) fun x w a b c d e =>
        State.pierPut_keeps (fun x => (x.pier.time.todNamed, x.pier.time.todUtc, x.pier.time.lastEdge)) (fun _ _ => rfl) (fun _ _ => rfl) _ _
  obtain ⟨hnamed, hrest⟩ := Prod.mk.inj hkept
  obtain ⟨hutc, hedge⟩ := Prod.mk.inj hrest
  exact ⟨hnamed, hutc, hedge,
    todMessage_keeps State.out hp hin (fun _ _ => rfl) (fun _ _ => rfl) (fun _ _ _ => rfl) (fun _ _ => rfl) fun _ _ _ _ _ _ _ => State.out_pierEvent _ _ _ _ _ _ _,
    fun v => todMessage_keeps (fun x => x.vol v) hp hin (fun _ _ => rfl) (fun _ _ => rfl) (fun _ _ _ => rfl) (fun _ _ => rfl) fun _ _ _ _ _ _ _ =>
      State.vol_pierEvent _ _ _ _ _ _ _ _⟩

/-- Settles O43: the choice of the master, and what a synchronisation, a delay exchange, an edge of PPS and a message of TOD lead to. -/
theorem timeReferences : Obligations.TimeReferences := by
  refine ⟨fun s lane port gm prio1 cls acc var prio2 steps src utc leap utcValid hdown hsrc hmasters hbest hheard hc => ⟨_, exec_ptpAnnounce_taken hdown rfl hsrc, ?_⟩,
    fun s y lane m originNs corrNs two hb hsrc hlane hheard hdown hy => ?_, fun s lane t1 t2 t3 t4 d hdown hsrc hd hspan => ⟨_, exec_pdelay lane t1 t2 t3 t4 s, ?_⟩,
    fun s width sec hup hpol hw hedge hnamed hsrc => ?_, fun s width hup hsrc hpol hw hedge hnamed hn => ⟨_, exec_ppsEdge true width s, ?_⟩,
    fun s msg sec l u hp hedge hsrc => ⟨_, exec_todMessage msg s, ?_⟩,
    fun s lane port gm prio1 cls acc var prio2 steps src utc leap utcValid m hdown hsrc hm => ⟨_, exec_ptpAnnounce_taken hdown rfl hsrc, ?_⟩,
    fun s lane p gm prio1 cls acc var prio2 steps src utc leap utcValid h => exec_ptpAnnounce_discarded h,
    fun s lane domain originNs port corrNs h => by rw [exec_ptpSync, ptpSync_discarded h],
    fun s rising width sec hup ha hw hl hnamed hsrc => by rw [exec_ppsEdge, ppsEdge_active hup ha hw hl, hnamed, ppsMeasured_named hsrc]; rfl,
    fun s rising width hup h => ⟨_, exec_ppsEdge rising width s, ?_⟩, fun s msg sec l u hp hin => ⟨_, exec_todMessage msg s, ?_⟩⟩
  · obtain ⟨hchosen, hgm, hcount⟩ := ptpAnnounce_first (m := announced s lane port gm prio1 cls acc var prio2 steps src utc utcValid leap) hmasters hbest
      announced_stillHeard hheard hc
    rw [State.done_pier, State.rdB_done _ _ _ _ _ _ _ quiet_device_time_gm_identity, State.rd_done _ _ _ _ _ quiet_device_time_master_changes, hchosen, hgm, hcount]
    exact ⟨rfl, rfl, rfl⟩
  · subst hy
    rw [exec_ptpSync, ptpSync_measured hb hsrc hlane hheard hdown rfl rfl]
  · rw [State.rd_done _ _ _ _ _ (quiet_device_time_link_delay_ns lane), State.done_pier, State.done_out, pdelay_measures hdown hsrc, ← hd, State.rd_wr_self,
      Nat.mod_eq_of_lt hspan]
    exact ⟨rfl, fun u => by rw [State.done_vol]; rfl, rfl, List.append_assoc _ _ _⟩
  · rw [exec_ppsEdge, ppsEdge_active hup (by simp [hpol]) hw (by simp [hedge]), hnamed, ppsMeasured_named hsrc]
    rfl
  · rw [State.rd_done _ _ _ _ _ quiet_device_time_tod_errors, State.done_pier, State.done_out, ppsEdge_active hup (by simp [hpol]) hw (by simp [hedge]), hnamed,
      ppsMeasured_unnamed hsrc]
    exact ⟨State.rd_bump_lt _ _ _ _ hn, rfl, rfl, fun u => by rw [State.done_vol]; rfl, rfl⟩
  · obtain ⟨hnamed, hutc, -, hout, -⟩ := todMessage_effect (s := s) hp (by simp [hedge])
    rw [State.done_pier, State.done_out]
    exact ⟨hnamed, hutc, hout⟩
  · subst hm
    have hkept := ptpAnnounce_masters (announced s lane port gm prio1 cls acc var prio2 steps src utc utcValid leap) s
    rw [announced_masters _ announced_stillHeard] at hkept
    have hmasters := congrArg Prod.fst hkept
    have hchosen := congrArg Prod.snd hkept
    rw [State.masters_fst] at hmasters
    rw [State.masters_snd] at hchosen
    rw [State.done_pier]
    refine ⟨hmasters, hchosen.trans ?_, fun u => by rw [State.done_vol]; exact ptpAnnounce_mer _ s u⟩
    refine congrArg bestMaster (congrArg (List.filter fun x : Master => s.laneHeard x.lane) ?_)
    exact (announced_masters (s := s) _ announced_stillHeard).trans hmasters.symm
  · rw [State.done_pier, ppsEdge_other hup h]
    exact ⟨rfl, rfl, rfl, State.done_regs _ _ rfl, fun u => by rw [State.done_vol]; rfl⟩
  · obtain ⟨hnamed, hutc, hedge, -, hvol⟩ := todMessage_effect (s := s) hp hin
    rw [State.done_pier]
    exact ⟨hnamed, hutc, hedge, fun v => by rw [State.done_vol]; exact hvol v⟩

end Sys2Proof.Machine

namespace Sys2Proof.Machine

/-! ### Meridian in a tile (R429 to R441) -/

theorem exec_meridianMeasurement (t : TileId) (s : State) : exec (.meridianMeasurement t) s = .next (s.done (meridianMeasurement t s)) := rfl
theorem exec_referenceLoss (t : TileId) (s : State) : exec (.referenceLoss t) s = .next (s.done (referenceLoss t s)) := rfl
theorem exec_leapSecond (s : State) : exec .leapSecond s = .next (s.done (leapSecond s)) := rfl
theorem exec_restep (p : Bytes) (s : State) : exec (.restep p) s = .next (s.done (restep p s)) := rfl
theorem exec_restepTimeout (s : State) : exec .restepTimeout s = .next (s.done (restepTimeout s)) := rfl
theorem exec_restepEntryExpiry (t : TileId) (s : State) : exec (.restepEntryExpiry t) s =
    .next (s.done (s.setRestepTable t ((s.restepTable t).filter fun v => decide (s.timeSec t < v + 16 * 86400)))) := rfl
theorem exec_toutEdge (b : BayId) (s : State) : exec (.toutEdge b) s = .next (s.done (toutEdge b s)) := rfl
theorem exec_ptpMasterTx (t : TileId) (d0 d1 : Option (Nat × Nat × Nat × Nat)) (s : State) : exec (.ptpMasterTx t d0 d1) s = .next (s.done (ptpMasterTx t d0 d1 s)) := rfl

/-! The state of a tile's reference (R430) -/

theorem State.vol_onMer_self (s : State) (t : TileId) (f : Mer → Mer) : (s.onMer t f).vol t = { s.vol t with mer := f (s.vol t).mer } := State.vol_onVol_self _ _ _

theorem State.rdI_done (s x : State) (d : Entry) (m j : Nat) (h : d.quiet j = true) : (s.done x).rdI d m j = x.rdI d m j := by
  unfold State.rdI
  rw [State.rd_done _ _ _ _ _ h]

theorem quiet_time_state : Reg.time_state.quiet 0 = true := by decide

/-- What the state entered leaves of the Meridian, and what it notes. -/
theorem State.mer_setMer (s : State) (t : TileId) (st : Nat) :
    ((s.setMer t st).vol t).mer.restepMeas = (s.vol t).mer.restepMeas ∧
      ((s.setMer t st).vol t).mer.leftLocked = (if st = 2 then none else if s.rd Reg.time_state t = 2 then some s.now else (s.vol t).mer.leftLocked) := by
  have sync : ∀ (c : Prop) [Decidable c] (x : State), ((if c then x.askSync t else x).vol t).mer = (x.vol t).mer := fun c _ x => by
    refine State.ite_keeps (fun y : State => (y.vol t).mer) ?_ rfl
    unfold State.askSync
    dsimp only
    exact State.ite_keeps (fun y : State => (y.vol t).mer) rfl (by rw [State.vol_onVol_self])
  unfold State.setMer
  dsimp only
  rw [State.vol_setMissing, State.vol_wr]
  refine ⟨?_, ?_⟩ <;> rw [sync, State.vol_onVol_self, State.vol_onMer_self]

theorem State.rd_setMer (s : State) (t : TileId) (st : Nat) (h : st < 256) : (s.setMer t st).rd Reg.time_state t = st := by
  have hservice : Reg.time_state.key t 0 ≠ Reg.status_service.key t 0 := Entry.key_ne_place _ _ _ _ _ rfl (by decide)
  have hmissing : Reg.time_state.key t 0 ≠ Reg.status_missing.key t 0 := Entry.key_ne_place _ _ _ _ _ rfl (by decide)
  unfold State.setMer
  dsimp only
  rw [State.rd_setMissing _ _ _ _ _ _ _ hservice hmissing, State.rd_wr_self]
  exact Nat.mod_eq_of_lt h

theorem State.out_setMer (s : State) (t : TileId) (st : Nat) : (s.setMer t st).out = s.out := by
  have sync : ∀ x : State, (x.askSync t).out = x.out := fun x => by
    unfold State.askSync
    exact State.ite_keeps State.out rfl rfl
  unfold State.setMer
  dsimp only
  rw [State.out_setMissing]
  exact State.ite_keeps State.out (sync _) rfl

/-- A locked tile that has had no measurement for the loss time. -/
theorem referenceLoss_locked {s : State} {t : TileId} (hst : s.rd Reg.time_state t = 2)
    (hl : (s.vol t).mer.lastMeas + s.rd Reg.device_time_loss_ms 0 * 1000000 ≤ s.now) :
    referenceLoss t s = (s.onMer t fun m => { m with restepMeas := [] }).setMer t 3 := by
  have hst' : (s.onMer t fun m => { m with restepMeas := [] }).rd Reg.time_state t = 2 := hst
  unfold referenceLoss
  rw [if_pos hl]
  dsimp only
  rw [if_neg (by rw [hst']; decide), if_pos hst']

/-! Leap seconds (R420) -/

/-- The instant of the pending leap. -/
def State.leapPlace (s : State) : Nat :=
  if s.pierNs / 1000000000 = 0 ∨ s.rdI Reg.device_time_leap_pending 0 = 0 then 0
  else if s.pier.time.leapAt ≠ 0 ∧ s.pier.time.leapAt ≤ s.pierNs / 1000000000 then s.pier.time.leapAt
  else leapInstant (s.pierNs / 1000000000) s.pier.time.utc (s.rdI Reg.device_time_leap_pending 0)

def State.leapPlaced (s : State) (v : Nat) : State := s.onPier fun x => { x with time := { x.time with leapAt := v } }

theorem State.placeLeap_eq (s : State) : s.placeLeap = s.leapPlaced s.leapPlace := rfl

theorem State.pierNs_onPier (s : State) (f : Pier → Pier) : (s.onPier f).pierNs = s.pierNs := rfl

/-- The leap has come: the offset changes by it. -/
def State.leapTaken (s : State) : State :=
  let v := s.pier.time.utc + s.rdI Reg.device_time_leap_pending 0
  ((s.utcEnter s.pier.time.leapAt v).wrI Reg.device_time_leap_pending 0 0).onPier fun x => { x with time := { x.time with utc := v, leapAt := 0 } }

theorem leapSecond_eq (s : State) : leapSecond s =
    if s.placeLeap.pier.time.leapAt ≠ 0 ∧ s.placeLeap.pier.time.leapAt ≤ s.placeLeap.pierNs / 1000000000 then s.placeLeap.leapTaken else s.placeLeap := rfl

theorem State.leapAt_leapPlaced (s : State) (v : Nat) : (s.leapPlaced v).pier.time.leapAt = v := rfl

theorem leapSecond_come {s : State} (h : s.leapPlace ≠ 0) (hc : s.leapPlace ≤ s.pierNs / 1000000000) : leapSecond s = (s.leapPlaced s.leapPlace).leapTaken := by
  have hns : (s.leapPlaced s.leapPlace).pierNs = s.pierNs := State.pierNs_onPier _ _
  rw [leapSecond_eq, State.placeLeap_eq, State.leapAt_leapPlaced, hns, if_pos ⟨h, hc⟩]

theorem leapSecond_waits {s : State} (hc : s.pierNs / 1000000000 < s.leapPlace) : leapSecond s = s.leapPlaced s.leapPlace := by
  have hns : (s.leapPlaced s.leapPlace).pierNs = s.pierNs := State.pierNs_onPier _ _
  rw [leapSecond_eq, State.placeLeap_eq, State.leapAt_leapPlaced, hns, if_neg fun h => absurd h.2 (by omega)]

theorem State.rdI_wrI_zero (s : State) (e : Entry) (n i : Nat) (h : 0 < e.span / 2) : (s.wrI e n 0 i).rdI e n i = 0 := by
  have hrd : (s.wrI e n 0 i).rd e n i = 0 := by
    unfold State.wrI
    rw [State.rd_wr_self]
    simp
  unfold State.rdI
  dsimp only
  rw [hrd, if_pos h]
  rfl

theorem State.rdI_onPier (s : State) (f : Pier → Pier) (d : Entry) (m j : Nat) : (s.onPier f).rdI d m j = s.rdI d m j := rfl

theorem State.rdI_leapTaken (s : State) : s.leapTaken.rdI Reg.device_time_leap_pending 0 = 0 := by
  unfold State.leapTaken
  dsimp only
  rw [State.rdI_onPier, State.rdI_wrI_zero _ _ _ _ (by decide)]

theorem State.vol_leapTaken (s : State) (u : TileId) : s.leapTaken.vol u = s.vol u := by
  unfold State.leapTaken State.utcEnter
  dsimp only
  rw [State.vol_onPier, State.vol_wrI, State.vol_wrB]

theorem State.out_leapTaken (s : State) : s.leapTaken.out = s.out := by
  unfold State.leapTaken State.utcEnter
  dsimp only
  rw [State.onPier_out, State.wrI_out, State.wrB_out]

theorem State.utc_leapTaken (s : State) : s.leapTaken.pier.time.utc = s.pier.time.utc + s.rdI Reg.device_time_leap_pending 0 := by
  unfold State.leapTaken
  dsimp only [State.onPier]

theorem quiet_device_time_leap_pending : Reg.device_time_leap_pending.quiet 0 = true := by decide

/-! Stepping again (R435) -/

/-- A tile's part of an order to re-step ends. -/
def State.restepTaken (s : State) (t : TileId) (r : RestepRun) : State :=
  (s.onMer t fun m => { m with restepSince := none, restepMeas := [] }).onPier fun p => { p with time := { p.time with restep := some r } }

/-- The order has its result. -/
def State.restepResult (s : State) (r : RestepRun) : State :=
  (((s.onPier fun p => { p with time := { p.time with restep := none } }).wr Reg.device_time_restep_result 0 r.result.code).wr
    Reg.device_time_restep_failed 0 (r.failed.foldl (fun a t => setBit a t true) 0)).answerFor r.act 255 r.result

theorem State.restepDone_last (s : State) (t : TileId) (r : RestepRun) (h : r.waiting = []) : (s.restepTaken t r).restepDone = (s.restepTaken t r).restepResult r :=
  if_pos h

theorem State.restepTileDone_failed {s : State} {t : TileId} {r : RestepRun} (h : s.pier.time.restep = some r) (hw : r.waiting = [t.val]) (hf : r.failed = []) :
    s.restepTileDone t true = (s.restepTaken t { r with waiting := [], failed := [t.val] }).restepResult { r with waiting := [], failed := [t.val] } := by
  rw [← State.restepDone_last _ _ _ rfl]
  have hfilter : r.waiting.filter (· != t.val) = [] := by simp [hw]
  have hshown : (s.onMer t fun m => { m with restepSince := none, restepMeas := [] }).onPier (fun p => { p with time := { p.time with restep := p.time.restep.map fun r =>
      { r with waiting := r.waiting.filter (· != t.val), failed := if true then r.failed ++ [t.val] else r.failed } } }) =
      s.restepTaken t { r with waiting := [], failed := [t.val] } := by
    unfold State.restepTaken State.onPier
    have hrun : (s.onMer t fun m => { m with restepSince := none, restepMeas := [] }).pier.time.restep = some r := h
    dsimp only
    rw [hrun, Option.map_some, hfilter, if_pos rfl, hf, List.nil_append]
  exact congrArg State.restepDone hshown

theorem filter_allTiles_eq (t : TileId) : allTiles.filter (fun u => decide (u = t)) = [t] := by revert t; decide

theorem setBit_zero_mod (t : TileId) : setBit 0 t.val true % Reg.device_time_restep_failed.span = 2 ^ t.val := by revert t; decide

theorem quiet_device_time_restep_failed : Reg.device_time_restep_failed.quiet 0 = true := by decide

/-- The tiles whose time to re-step is over. -/
def State.restepLate (s : State) (r : RestepRun) (t : TileId) : Bool :=
  r.waiting.contains t.val && (decide (r.start + 70000000000 ≤ s.now) || (match (s.vol t).mer.restepSince with
    | some x => decide (x + 60000000000 ≤ s.now)
    | none => false))

theorem restepTimeout_eq {s : State} {r : RestepRun} (h : s.pier.time.restep = some r) :
    restepTimeout s = s.each (allTiles.filter (s.restepLate r)) fun s t => s.restepTileDone t true := by
  unfold restepTimeout
  rw [h]
  rfl

theorem restepTimeout_last {s : State} {t : TileId} {r : RestepRun} (h : s.pier.time.restep = some r) (hw : r.waiting = [t.val])
    (ht : r.start + 70000000000 ≤ s.now) : restepTimeout s = s.restepTileDone t true := by
  have hlate : ∀ u, s.restepLate r u = decide (u = t) := fun u => by
    unfold State.restepLate
    rw [decide_eq_true ht, Bool.true_or, Bool.and_true, hw, Bool.eq_iff_iff]
    simp [Fin.ext_iff]
  rw [restepTimeout_eq h, List.filter_congr fun u _ => hlate u, filter_allTiles_eq]
  rfl

/-- An order begun for some tiles. -/
def State.restepRun (s : State) (mode : Nat) (sel : List TileId) : RestepRun :=
  { mode := mode, waiting := sel.map Fin.val, failed := [], full := false, start := s.now, act := s.acts.now }

/-- An order that may run. -/
theorem restep_begins {s : State} {p : Bytes} {mask mode ns : Nat} (hp : restepParams p = some (mask, mode, ns)) (hr : s.pier.time.restep = none)
    (hsel : allTiles.filter (fun t => bit mask t.val) ≠ []) :
    restep p s = (s.onPier fun q => { q with time := { q.time with restep := some (s.restepRun mode (allTiles.filter fun t => bit mask t.val)) } }).each
      (allTiles.filter fun t => bit mask t.val) (restepTile mode ns) := by
  unfold restep
  rw [hp]
  dsimp only
  rw [hr, if_neg (by decide), if_neg hsel]
  rfl

/-- A running tile whose table has room waits for its reference. -/
theorem restepTile_waits {s : State} {t : TileId} {ns : Nat} (hrun : s.inRun t = true) (hroom : (s.restepTable t).length < 4) :
    restepTile 0 ns s t = s.onMer t fun m => { m with restepSince := some s.now, restepMeas := [] } := by
  unfold restepTile
  rw [if_neg (by simp [hrun]), if_neg (by omega), if_neg (by decide)]

/-! TOUT (R439) -/

/-- TOUT is driven to a level, its source shown and a pulse counted. -/
def State.toutDrive (s : State) (b : BayId) (lvl : Bool) (src : Nat) (pulse : Bool) : State :=
  let x := ((if lvl = (s.bay b).toutLevel then s else s.emit (.tout b lvl)).onBay b fun y => { y with toutLevel := lvl }).wr Reg.bay_time_tout_source b src
  if pulse then x.bump Reg.bay_time_tout_pulses b else x

/-- The second whose edge TOUT gave. -/
def State.toutTold (s : State) (b : BayId) (t : TileId) : State :=
  s.onBay b fun x => { x with toutSec := if decide ((s.bay b).toutOf = some t.val) then max x.toutSec (s.timeNs t / 1000000000) else s.timeNs t / 1000000000, toutOf := some t.val }

/-- TOUT is high in the second's first part, and the second is new. -/
def State.toutHigh (s : State) (b : BayId) (t : TileId) : Bool := decide (s.timeNs t % 1000000000 < (s.rd Reg.bay_time_tout_width_us b * 1000 : Nat))
def State.toutNew (s : State) (b : BayId) (t : TileId) : Bool :=
  if decide ((s.bay b).toutOf = some t.val) then decide ((s.bay b).toutSec < s.timeNs t / 1000000000) else decide (s.timeNs t % 1000000000 < 1000)

section
variable {s : State} {b : BayId} (hup : s.pier.up = true)
include hup

theorem toutEdge_disciplined {t : TileId} (hm : s.rd Reg.bay_time_tout_mode b = 0) (ht : s.toutTile b = some t) :
    toutEdge b s = (s.toutTold b t).toutDrive b (s.toutHigh b t && (s.toutNew b t || ((s.toutTold b t).bay b).toutLevel)) (if t.val % 2 = 0 then 1 else 2)
      (s.toutHigh b t && s.toutNew b t) := by
  unfold toutEdge
  rw [if_neg (by simp [hup]), hm]
  dsimp only
  rw [ht]
  rfl

theorem toutEdge_repeats (hm : s.rd Reg.bay_time_tout_mode b = 1) : toutEdge b s = s.toutDrive b s.pier.time.ppsLevel 3
    (decide (s.pier.time.ppsLevel = decide (s.rd Reg.device_time_pps_polarity 0 = 0)) && decide (s.pier.time.ppsLevel ≠ (s.bay b).toutLevel)) := by
  unfold toutEdge
  rw [if_neg (by simp [hup]), hm]
  rfl

theorem toutEdge_low (h : s.rd Reg.bay_time_tout_mode b ≠ 0 ∧ s.rd Reg.bay_time_tout_mode b ≠ 1 ∨ s.rd Reg.bay_time_tout_mode b = 0 ∧ s.toutTile b = none) :
    toutEdge b s = s.toutDrive b false 0 false := by
  unfold toutEdge
  rw [if_neg (by simp [hup])]
  obtain ⟨h0, h1⟩ | ⟨h0, ht⟩ := h
  · split
    · exact absurd ‹_› h0
    · exact absurd ‹_› h1
    · rfl
  · rw [h0]
    dsimp only
    rw [ht]
    rfl

end

theorem State.out_toutDrive (s : State) (b : BayId) (lvl : Bool) (src : Nat) (pulse : Bool) :
    (s.toutDrive b lvl src pulse).out = s.out ++ if lvl = (s.bay b).toutLevel then [] else [.tout b lvl] := by
  have hemit : (if lvl = (s.bay b).toutLevel then s else s.emit (.tout b lvl)).out = s.out ++ if lvl = (s.bay b).toutLevel then [] else [.tout b lvl] := by
    split
    · exact (List.append_nil _).symm
    · rfl
  exact State.ite_keeps State.out hemit hemit

theorem State.bay_toutDrive (s : State) (b : BayId) (lvl : Bool) (src : Nat) (pulse : Bool) :
    (s.toutDrive b lvl src pulse).bay b = { s.bay b with toutLevel := lvl } := by
  have hdriven : ((if lvl = (s.bay b).toutLevel then s else s.emit (.tout b lvl)).onBay b fun y => { y with toutLevel := lvl }).bay b = { s.bay b with toutLevel := lvl } := by
    rw [State.bay_onBay_self]
    split <;> rfl
  exact State.ite_keeps (fun x => x.bay b) hdriven hdriven

theorem State.rd_toutSource (s : State) (b : BayId) (lvl : Bool) (src : Nat) (pulse : Bool) (h : src < 256) :
    (s.toutDrive b lvl src pulse).rd Reg.bay_time_tout_source b = src := by
  have hpulses : Reg.bay_time_tout_source.key b 0 ≠ Reg.bay_time_tout_pulses.key b 0 := Entry.key_ne_place _ _ _ _ _ rfl (by decide)
  have hshown : ∀ x : State, (x.wr Reg.bay_time_tout_source b src).rd Reg.bay_time_tout_source b = src := fun x => by
    rw [State.rd_wr_self]
    exact Nat.mod_eq_of_lt h
  exact State.ite_keeps (fun x => x.rd Reg.bay_time_tout_source b) ((State.rd_bump_ne _ _ _ _ _ _ _ _ hpulses).trans (hshown _)) (hshown _)

theorem State.rd_toutPulses {s : State} {b : BayId} (lvl : Bool) (src : Nat) (h : s.rd Reg.bay_time_tout_pulses b + 1 < Reg.bay_time_tout_pulses.span) :
    (s.toutDrive b lvl src true).rd Reg.bay_time_tout_pulses b = s.rd Reg.bay_time_tout_pulses b + 1 := by
  have hemit : (if lvl = (s.bay b).toutLevel then s else s.emit (.tout b lvl)).regs = s.regs := State.ite_keeps State.regs rfl rfl
  have hbefore : (((if lvl = (s.bay b).toutLevel then s else s.emit (.tout b lvl)).onBay b fun y => { y with toutLevel := lvl }).wr
      Reg.bay_time_tout_source b src).rd Reg.bay_time_tout_pulses b = s.rd Reg.bay_time_tout_pulses b := by
    have hsource : Reg.bay_time_tout_pulses.key b 0 ≠ Reg.bay_time_tout_source.key b 0 := Entry.key_ne_place _ _ _ _ _ rfl (by decide)
    rw [State.rd_wr_ne _ _ _ _ _ _ _ _ hsource]
    exact State.rd_congr (congrArg (fun r => Tbl.get r _) hemit)
  exact (State.rd_bump_lt _ _ _ _ (by rwa [hbefore])).trans (congrArg (· + 1) hbefore)

theorem quiet_bay_time_tout_source : Reg.bay_time_tout_source.quiet 0 = true := by decide
theorem quiet_bay_time_tout_pulses : Reg.bay_time_tout_pulses.quiet 0 = true := by decide

/-! The tile as a PTP master (R441) -/

/-- What a frame from within the tile, for one of the eight ports, leaves: all but the switch core, its counters and the tap's queue. -/
theorem State.swSend_keeps {β : Type} (g : State → β) (t : TileId)
    (hb : ∀ x (e : Entry) j k, e.area = .tile → e.place j < Reg.time_state.place 0 → g (State.bump x e t j k) = g x)
    (hs : ∀ x f, g (State.onSw x t f) = g x) (hq : ∀ x q, g (State.qWrite x t 5 q) = g x) (s : State) {o : Nat} (ho : o < 8) (cls : Nat) (body : SwBody) :
    g (s.swSend t 6 o cls body) = g s := by
  have counted : ∀ (b : Bytes) (len : Nat), g (s.swCount t 6 cls b len) = g s := fun b len => by
    have hin : g ((s.bump Reg.sw_frames_in t 6).bump Reg.sw_bytes_in t 6 len) = g s := (hb _ _ _ _ rfl (by decide)).trans (hb _ _ _ _ rfl (by decide))
    unfold State.swCount
    exact State.ite_keeps g hin (State.ite_keeps g ((hs _ _).trans hin) ((hq _ _).trans ((hs _ _).trans hin)))
  have stored : ∀ (x : State) (f : SwFrame), g (x.swStore t 6 o f) = g x := fun x f => by
    have hd : g (if swClass f.cls f.len = f.cls then x else x.bump Reg.sw_express_demoted t) = g x := State.ite_keeps g rfl (hb _ _ _ _ rfl (by decide))
    have hdown : Reg.sw_drop_port_down.place o < Reg.time_state.place 0 := by
      change 0x22B * 256 + 0x00 + o < 0x260 * 256 + 0x00 + 0
      omega
    unfold State.swStore
    dsimp only
    generalize (if swClass f.cls f.len = f.cls then x else x.bump Reg.sw_express_demoted t) = z at hd ⊢
    refine Eq.trans ?_ hd
    refine State.ite_keeps g (hb _ _ _ _ rfl hdown) (State.ite_keeps g (State.ite_keeps g (hs _ _) (hb _ _ _ _ rfl (by decide))) ?_)
    split
    · exact hs _ _
    · rw [if_pos (.inr rfl)]
      exact hs _ _
  exact (stored _ _).trans (counted _ _)

/-- The second's messages are begun. -/
def State.ptpBegun (s : State) (t : TileId) (cls : Nat) : State :=
  (s.onVol t fun v => { v with ptpSec := s.timeNs t / 1000000000 }).wr Reg.time_clock_class t cls

/-- The messages of one port. -/
def State.ptpPort (s : State) (t : TileId) (en : Nat) (sec : Int) (a : Nat × Nat × Nat) (p : Nat × Option (Nat × Nat × Nat × Nat)) : State :=
  if !bit en p.1 then s
  else
    let x := s.swSend t 6 p.1 0 (.ptp (.sync (s.rd Reg.device_time_ptp_domain 0) sec.toNat a.1 a.2.1 a.2.2))
    match p.2 with
    | some d => x.wr Reg.time_peer_delay_ns t (x.peerDelay t p.1 d) p.1
    | none => x

section
variable {s : State} {t : TileId} {cls src steps : Nat} (hserve : s.serves t = true) (hrun : s.inRun t = true) (ha : s.announceOf t = some (cls, src, steps))
  (hsec : s.timeNs t / 1000000000 ≠ (s.vol t).ptpSec)
include hserve hrun ha hsec

theorem ptpMasterTx_begins (d0 d1 : Option (Nat × Nat × Nat × Nat)) : ptpMasterTx t d0 d1 s =
    (s.ptpBegun t (if s.rd Reg.time_ptp_master_enable t = 0 then 255 else cls)).each [(0, d0), (1, d1)]
      fun x p => x.ptpPort t (s.rd Reg.time_ptp_master_enable t) (s.timeNs t / 1000000000) (cls, src, steps) p := by
  unfold ptpMasterTx
  dsimp only
  rw [if_neg (by simp [hserve, hrun]), ha]
  exact if_neg hsec

/-- Neither port is enabled. -/
theorem ptpMasterTx_none (d0 d1 : Option (Nat × Nat × Nat × Nat)) (hen : s.rd Reg.time_ptp_master_enable t = 0) : ptpMasterTx t d0 d1 s = s.ptpBegun t 255 := by
  have skip : ∀ (x : State) (sec : Int) (a : Nat × Nat × Nat) (p : Nat × Option (Nat × Nat × Nat × Nat)), x.ptpPort t 0 sec a p = x := fun x sec a p => if_pos (by simp [bit])
  rw [ptpMasterTx_begins hserve hrun ha hsec, hen, if_pos rfl]
  exact State.each_keeps id _ _ _ fun x p => skip x _ _ p

/-- D0 alone is enabled. -/
theorem ptpMasterTx_first (d0 d1 : Option (Nat × Nat × Nat × Nat)) (hen : s.rd Reg.time_ptp_master_enable t = 1) :
    ptpMasterTx t d0 d1 s = (s.ptpBegun t cls).ptpPort t 1 (s.timeNs t / 1000000000) (cls, src, steps) (0, d0) := by
  have hoff : (!bit 1 1) = true := by decide
  have skip : ∀ x : State, x.ptpPort t 1 (s.timeNs t / 1000000000) (cls, src, steps) (1, d1) = x := fun x => if_pos hoff
  rw [ptpMasterTx_begins hserve hrun ha hsec, hen, if_neg (by decide)]
  exact skip _

end

/-- The frame that D0 carries. -/
def State.ptpSync (s : State) (t : TileId) (cls src steps : Nat) : State :=
  (s.ptpBegun t cls).swSend t 6 0 0 (.ptp (.sync (s.rd Reg.device_time_ptp_domain 0) (s.timeNs t / 1000000000).toNat cls src steps))

theorem State.ptpBegun_domain (s : State) (t : TileId) (cls : Nat) : (s.ptpBegun t cls).rd Reg.device_time_ptp_domain 0 = s.rd Reg.device_time_ptp_domain 0 :=
  State.rd_wr_ne _ _ _ _ _ _ _ _ (Entry.key_ne_of_quiet_dev rfl (by decide) (by decide))

theorem State.ptpPort_sends (s : State) (t : TileId) (cls src steps : Nat) :
    (s.ptpBegun t cls).ptpPort t 1 (s.timeNs t / 1000000000) (cls, src, steps) (0, none) = s.ptpSync t cls src steps := by
  unfold State.ptpPort State.ptpSync
  rw [State.ptpBegun_domain, if_neg (by simp [bit])]

theorem State.ptpPort_measures (s : State) (t : TileId) (cls src steps : Nat) (d : Nat × Nat × Nat × Nat) :
    (s.ptpBegun t cls).ptpPort t 1 (s.timeNs t / 1000000000) (cls, src, steps) (0, some d) =
      (s.ptpSync t cls src steps).wr Reg.time_peer_delay_ns t ((s.ptpSync t cls src steps).peerDelay t 0 d) 0 := by
  unfold State.ptpPort State.ptpSync
  rw [State.ptpBegun_domain, if_neg (by simp [bit])]

/-- The corrections of a port stand while a frame is sent. -/
theorem State.rdI_ptpSync (s : State) (t : TileId) (cls src steps : Nat) {i : Nat} (hi : i < 4) :
    (s.ptpSync t cls src steps).rdI Reg.time_port_corr_ns t i = s.rdI Reg.time_port_corr_ns t i := by
  have hquiet : Reg.time_port_corr_ns.quiet i = true := by
    have h : ∀ k : Fin 4, Reg.time_port_corr_ns.quiet k = true := by decide
    exact h ⟨i, hi⟩
  have hplace : Reg.time_state.place 0 < Reg.time_port_corr_ns.place i := by
    change 0x260 * 256 + 0x00 + 0 < 0x261 * 256 + 0x00 + i
    omega
  have hclass : Reg.time_port_corr_ns.key t i ≠ Reg.time_clock_class.key t 0 := Entry.key_ne_place _ _ _ _ _ rfl (by
    change 0x261 * 256 + 0x00 + i ≠ 0x262 * 256 + 0x01 + 0
    omega)
  refine (State.swSend_keeps (fun x => x.rdI Reg.time_port_corr_ns t i) t (fun x e j k he hp => ?_) (fun _ _ => rfl) (fun x q => ?_) _ (by decide) _ _).trans ?_
  · have hkey : Reg.time_port_corr_ns.key t i ≠ e.key t j := Entry.key_ne_place _ _ _ _ _ (by rw [he]; rfl) (by omega)
    unfold State.rdI
    rw [State.rd_bump_ne _ _ _ _ _ _ _ _ hkey]
  · unfold State.rdI
    rw [State.rd_qWrite _ _ _ _ _ _ _ hquiet fun h => by cases h]
  · have hbegun : (s.ptpBegun t cls).rd Reg.time_port_corr_ns t i = s.rd Reg.time_port_corr_ns t i := State.rd_wr_ne _ _ _ _ _ _ _ _ hclass
    unfold State.rdI
    rw [hbegun]

theorem State.speed_ptpSync (s : State) (t : TileId) (cls src steps : Nat) : ((s.ptpSync t cls src steps).vol t).sw.speed = (s.vol t).sw.speed := by
  have hsent : ((s.ptpSync t cls src steps).sw t).speed = ((s.ptpBegun t cls).sw t).speed := by
    unfold State.ptpSync State.swSend
    rw [State.swStore_sw_keeps Switch.speed (fun w i n sh => by cases sh <;> rfl) (fun _ _ _ _ _ => rfl) (fun _ _ => rfl), State.swCount_sw_keeps Switch.speed fun _ _ => rfl]
  have hbegun : ((s.ptpBegun t cls).vol t).sw.speed = (s.vol t).sw.speed := by
    unfold State.ptpBegun
    rw [State.vol_wr, State.vol_onVol_self]
  have named : ∀ x : State, (x.vol t).sw = x.sw t := fun _ => rfl
  rw [named, hsent, ← named, hbegun]

theorem State.peerDelay_ptpSync (s : State) (t : TileId) (cls src steps : Nat) (d : Nat × Nat × Nat × Nat) :
    (s.ptpSync t cls src steps).peerDelay t 0 d = s.peerDelay t 0 d := by
  unfold State.peerDelay State.portCorr
  rw [State.speed_ptpSync, State.rdI_ptpSync _ _ _ _ _ (by decide), State.rdI_ptpSync _ _ _ _ _ (by decide)]

theorem State.ptpSec_ptpBegun (s : State) (t : TileId) (cls : Nat) : ((s.ptpBegun t cls).vol t).ptpSec = s.timeNs t / 1000000000 := by
  unfold State.ptpBegun
  rw [State.vol_wr, State.vol_onVol_self]

theorem State.ptpSec_ptpSync (s : State) (t : TileId) (cls src steps : Nat) : ((s.ptpSync t cls src steps).vol t).ptpSec = s.timeNs t / 1000000000 := by
  refine (State.swSend_keeps (fun x => (x.vol t).ptpSec) t (fun _ _ _ _ _ _ => rfl) (fun x f => ?_) (fun _ _ => State.qWrite_ptpSec _ _ _ _ _) _ (by decide) _ _).trans ?_
  · unfold State.onSw
    rw [State.vol_onVol_self]
  · exact State.ptpSec_ptpBegun s t cls

theorem quiet_time_peer_delay_ns : Reg.time_peer_delay_ns.quiet 0 = true := by decide
theorem quiet_time_clock_class : Reg.time_clock_class.quiet 0 = true := by decide

/-- Settles O44: what a tile's Meridian and its outputs do with a measurement, a loss, a leap second, an order to re-step and a new second. -/
theorem meridianTime : Obligations.MeridianTime := by
  refine ⟨fun s t c o r h => by rw [exec_meridianMeasurement, meridianMeasurement, h], fun s t hst hl => ⟨_, exec_referenceLoss t s, ?_⟩,
    fun s hp hat hcome => ⟨_, exec_leapSecond s, ?_⟩, fun s hp hsec hat hinst => ⟨_, exec_leapSecond s, ?_⟩,
    fun s t p mask hp hr hsel hrun hroom => ⟨_, exec_restep p s, ?_⟩, fun s t r hr hw hf ht => ⟨_, exec_restepTimeout s, ?_⟩,
    fun s b t hup hm ht hhigh hnew hlvl hn => ⟨_, exec_toutEdge b s, ?_⟩, fun s t cls src steps hserve hrun ha _ hsec hen => ?_,
    fun s t => exec_restepEntryExpiry t s, fun s t cls src steps d0 d1 hserve hrun ha hsec hen => ⟨_, exec_ptpMasterTx t d0 d1 s, ?_⟩,
    fun s t cls src steps d d1 hserve hrun ha hsec hen hd => ⟨_, exec_ptpMasterTx t (some d) d1 s, ?_⟩,
    fun s b t hup hm ht hlow hlvl => ⟨_, exec_toutEdge b s, ?_⟩, fun s b hup hm hlvl => ⟨_, exec_toutEdge b s, ?_⟩,
    fun s b hup h => ⟨_, exec_toutEdge b s, ?_⟩, fun s p hp => by rw [exec_restep, restep, hp], fun s y p mask mode ns r hp hr hsel hrun hy => ?_,
    fun s r hr => by rw [exec_restepTimeout, restepTimeout_eq hr]; rfl⟩
  · obtain ⟨hmeas, hleft⟩ := State.mer_setMer (s.onMer t fun m => { m with restepMeas := [] }) t 3
    have hst' : (s.onMer t fun m => { m with restepMeas := [] }).rd Reg.time_state t = 2 := hst
    rw [State.rd_done _ _ _ _ _ quiet_time_state, State.done_vol, State.done_out, referenceLoss_locked hst hl, State.rd_setMer _ _ _ (by decide), hmeas, hleft,
      State.out_setMer, State.vol_onMer_self, if_neg (by decide), if_pos hst']
    exact ⟨rfl, rfl, rfl, rfl⟩
  · have hplace : s.leapPlace = s.pier.time.leapAt := by
      unfold State.leapPlace
      rw [if_neg (by omega), if_pos ⟨hat, hcome⟩]
    rw [State.rdI_done _ _ _ _ _ quiet_device_time_leap_pending, State.done_pier, State.done_out, leapSecond_come (by rwa [hplace]) (by rwa [hplace])]
    exact ⟨State.rdI_leapTaken _, (State.utc_leapTaken _).trans rfl, fun u => by rw [State.done_vol, State.vol_leapTaken]; rfl, State.out_leapTaken _⟩
  · have hplace : s.leapPlace = leapInstant (s.pierNs / 1000000000) s.pier.time.utc (s.rdI Reg.device_time_leap_pending 0) := by
      unfold State.leapPlace
      rw [if_neg (by omega), if_neg (by omega)]
    rw [leapSecond_waits (by rwa [hplace]), State.done_pier, State.done_out, hplace]
    exact ⟨rfl, State.done_regs _ _ rfl, fun u => by rw [State.done_vol]; rfl, rfl, rfl⟩
  · have hbegun := restep_begins hp hr (by rw [hsel]; exact List.cons_ne_nil _ _)
    rw [hsel] at hbegun
    have hwait := hbegun.trans (restepTile_waits (s := s.onPier _) hrun hroom)
    rw [State.done_pier, State.done_vol, State.done_out, hwait, State.vol_onMer_self]
    exact ⟨rfl, rfl, State.done_regs _ _ rfl, rfl⟩
  · rw [State.done_pier, State.rd_done _ _ _ _ _ quiet_device_time_restep_failed, State.done_vol, restepTimeout_last hr hw ht, State.restepTileDone_failed hr hw hf]
    refine ⟨rfl, (State.rd_wr_self _ _ _ _ _).trans (setBit_zero_mod t), ?_⟩
    unfold State.restepResult State.restepTaken
    rw [State.vol_answerFor, State.vol_wr, State.vol_wr, State.vol_onPier, State.vol_onPier, State.vol_onMer_self]
  · have hh : s.toutHigh b t = true := decide_eq_true hhigh
    have hn' : s.toutNew b t = true := by
      unfold State.toutNew
      obtain ⟨hof, hlt⟩ | ⟨hof, hlt⟩ := hnew
      · rw [if_pos (decide_eq_true hof)]
        exact decide_eq_true hlt
      · rw [if_neg (by simpa using hof)]
        exact decide_eq_true hlt
    have hsec : ((s.toutTold b t).bay b).toutSec = s.timeNs t / 1000000000 := by
      unfold State.toutTold
      rw [State.bay_onBay_self]
      obtain ⟨hof, hlt⟩ | ⟨hof, hlt⟩ := hnew
      · exact (if_pos (decide_eq_true hof)).trans (max_eq_right hlt.le)
      · exact if_neg (by simpa using hof)
    have hlow : ((s.toutTold b t).bay b).toutLevel = false := by
      unfold State.toutTold
      rw [State.bay_onBay_self]
      exact hlvl
    have hpulses : (s.toutTold b t).rd Reg.bay_time_tout_pulses b = s.rd Reg.bay_time_tout_pulses b := rfl
    rw [State.done_out, State.done_bay, State.rd_done _ _ _ _ _ quiet_bay_time_tout_source, State.rd_done _ _ _ _ _ quiet_bay_time_tout_pulses,
      toutEdge_disciplined hup hm ht, hh, hn', State.out_toutDrive, State.bay_toutDrive, State.rd_toutSource _ _ _ _ _ (by split <;> decide)]
    refine ⟨?_, rfl, hsec, rfl, (State.rd_toutPulses _ _ (by rwa [hpulses])).trans (congrArg (· + 1) hpulses)⟩
    rw [hlow]
    rfl
  · rw [exec_ptpMasterTx, ptpMasterTx_first hserve hrun ha hsec none none hen, State.ptpPort_sends]
    rfl
  · rw [State.done_vol, State.rd_done _ _ _ _ _ quiet_time_clock_class, State.done_out, ptpMasterTx_none hserve hrun ha hsec d0 d1 hen]
    exact ⟨State.ptpSec_ptpBegun s t 255, State.rd_wr_self _ _ _ _ _, rfl⟩
  · rw [State.rd_done _ _ _ _ _ quiet_time_peer_delay_ns, State.done_vol, ptpMasterTx_first hserve hrun ha hsec (some d) d1 hen, State.ptpPort_measures, State.rd_wr_self,
      State.peerDelay_ptpSync, State.vol_wr]
    exact ⟨Nat.mod_eq_of_lt hd, State.ptpSec_ptpSync s t cls src steps⟩
  · have hh : s.toutHigh b t = false := decide_eq_false (not_lt.2 hlow)
    have hlevel : ((s.toutTold b t).bay b).toutLevel = true := by
      unfold State.toutTold
      rw [State.bay_onBay_self]
      exact hlvl
    rw [State.done_out, State.done_bay, State.rd_done _ _ _ _ _ quiet_bay_time_tout_source, toutEdge_disciplined hup hm ht, hh, State.out_toutDrive, State.bay_toutDrive,
      State.rd_toutSource _ _ _ _ _ (by split <;> decide), hlevel]
    exact ⟨rfl, rfl, rfl⟩
  · rw [State.done_out, State.done_bay, State.rd_done _ _ _ _ _ quiet_bay_time_tout_source, toutEdge_repeats hup hm, State.out_toutDrive, State.bay_toutDrive,
      State.rd_toutSource _ _ _ _ _ (by decide), if_neg (Ne.symm hlvl)]
    exact ⟨rfl, rfl, rfl⟩
  · rw [State.done_out, State.done_bay, State.rd_done _ _ _ _ _ quiet_bay_time_tout_source, toutEdge_low hup h, State.out_toutDrive, State.bay_toutDrive,
      State.rd_toutSource _ _ _ _ _ (by decide)]
    refine ⟨congrArg (s.out ++ ·) ?_, rfl, rfl⟩
    cases (s.bay b).toutLevel <;> rfl
  · subst hrun hy
    rw [exec_restep, restep_begins hp hr hsel]
    rfl

end Sys2Proof.Machine

namespace Sys2Proof.Machine

/-! ### Sessions of the host port (R390 to R406) -/

theorem exec_hello (lane : Fin 2) (peer : Bytes) (m : HostMsg) (s : State) :
    exec (.hello lane peer m) s = .next (s.done (arrive lane peer m (fun x => x.hello lane peer m) s)) := rfl
theorem exec_auth (lane : Fin 2) (peer : Bytes) (m : HostMsg) (s : State) : exec (.auth lane peer m) s = .next (s.done (arrive lane peer m (fun x => x.auth lane m) s)) := rfl
theorem exec_noSession (lane : Fin 2) (peer : Bytes) (type : Nat) (m : HostMsg) (s : State) :
    exec (.noSession lane peer type m) s = .next (s.done (arrive lane peer m (fun x => x.hostMsg lane peer type m) s)) := rfl
theorem exec_sessionIdle (session : Nat) (s : State) : exec (.sessionIdle session) s = .next (s.done (sessionIdle session s)) := rfl
theorem exec_sessionEnd (s : State) : exec .sessionEnd s = .next (s.done (s.runAction .dev Reg.device_host_session_end [])) := rfl
theorem exec_stagingLockTimeout (index sub : Nat) (s : State) : exec (.stagingLockTimeout index sub) s = .next (s.done (stagingLockTimeout index sub s)) := rfl

/-! What arrives on a lane (R390) -/

/-- A datagram on a lane is counted. -/
def State.laneIn (s : State) (lane : Fin 2) : State := s.bump Reg.device_host_frames_in 0 lane

section
variable {s : State} {lane : Fin 2} {peer : Bytes} {m : HostMsg} (hdown : s.laneDown lane = false)
include hdown

theorem arrive_trakmer (hf : m.form = .trakmer) (f : State → State) : arrive lane peer m f s = f (s.laneIn lane) := by
  unfold arrive
  rw [if_neg (by simp [hdown]), hf]
  rfl

/-- A datagram to another port, or a fragment. -/
theorem arrive_discarded (hf : m.form = .otherPort ∨ m.form = .fragment) (f : State → State) :
    arrive lane peer m f s = (s.laneIn lane).bump Reg.device_host_rx_discard 0 := by
  unfold arrive
  rw [if_neg (by simp [hdown])]
  obtain hf | hf := hf
  · rw [hf]
    rfl
  · rw [hf]
    rfl

theorem arrive_echo (hf : m.form = .echo) (f : State → State) : arrive lane peer m f s = (s.laneIn lane).icmp lane peer 129 m.body := by
  unfold arrive
  rw [if_neg (by simp [hdown]), hf]
  rfl

theorem arrive_solicit (hf : m.form = .solicit) (ho : s.pier.hub.cfg.owns lane m.body = true) (f : State → State) :
    arrive lane peer m f s = (s.laneIn lane).icmp lane peer 136 m.body := by
  have ho' : (s.laneIn lane).pier.hub.cfg.owns lane m.body = true := ho
  unfold arrive
  rw [if_neg (by simp [hdown]), hf]
  exact if_pos ho'

end

theorem not_serialLane (lane : Fin 2) : lane.val ≠ serialChan := by
  unfold serialChan
  omega

/-! What an unprotected answer leaves -/

/-- A frame that is put on a channel is counted and goes out. -/
theorem State.sendPlain_keeps {β : Type} (g : State → β) (hb : ∀ x c, g (State.bump x Reg.device_host_frames_out 0 c) = g x)
    (hv : ∀ x, g (State.bump x Reg.device_svc_frames_out 0) = g x) (he : ∀ x o, g (State.emit x o) = g x) (s : State) (chan : Nat) (peer b : Bytes) :
    g (s.sendPlain chan peer b) = g s := by
  unfold State.sendPlain State.putFrame
  exact State.ite_keeps g (State.ite_keeps g ((he _ _).trans (hv _)) ((he _ _).trans (hb _ _))) rfl

theorem State.sendPlain_pier (s : State) (chan : Nat) (peer b : Bytes) : (s.sendPlain chan peer b).pier = s.pier :=
  State.sendPlain_keeps State.pier (fun _ _ => rfl) (fun _ => rfl) (fun _ _ => rfl) _ _ _ _

theorem State.sendPlain_vol (s : State) (chan : Nat) (peer b : Bytes) (u : TileId) : (s.sendPlain chan peer b).vol u = s.vol u :=
  State.sendPlain_keeps (fun x => x.vol u) (fun _ _ => rfl) (fun _ => rfl) (fun _ _ => rfl) _ _ _ _

/-! HELLO (R400) -/

/-- A good HELLO, in a hub with room and a ready random source, opens a handshake under the next number and is answered. -/
theorem hello_opens {s : State} {lane : Fin 2} {peer : Bytes} {m : HostMsg} (hroot : s.pier.rootState ≠ 2) (hsess : m.session = 0) (hst : m.status = 0) (href : m.ref = 0)
    (hflags : m.flags < 4) (hlen : m.len = 81) (hbody : m.body.length = 81) (hfull : s.pier.hub.hostSessions < 8) (hshake : s.pier.hub.handshakes s.now < 16)
    (hrnd : s.hubRandom = true) : ∃ (z : State) (e : HSess) (st : Status) (p : Bytes),
      s.hello lane peer m = (z.onHub fun h => { h with next := s.pier.hub.next + 1, sess := Tbl.put h.sess s.pier.hub.next e }).helloAnswer lane peer m e.id st p ∧
      e.slot = none ∧ e.chan = lane ∧ e.hello = m.body ∧ e.since = s.now ∧ e.id = (s.rd Reg.device_host_boot_count 0 % 65536) * 65536 + s.pier.hub.next := by
  have hserial : decide (lane.val = serialChan) = false := decide_eq_false (not_serialLane lane)
  have hform : ¬(m.session ≠ 0 ∨ m.status ≠ 0 ∨ m.ref ≠ 0 ∨ 4 ≤ m.flags ∨ m.len ≠ m.body.length ∨ m.body.length ≠ 81) := by omega
  have hlane : (if false = true then (s.pier.hub.sess.filter fun e => decide (e.2.chan = serialChan)).foldl (fun (x : State) e => x.endSession e.1) s else s) = s := if_neg (by decide)
  have hroom : ¬(!false && (decide (8 ≤ s.pier.hub.hostSessions) || decide (handshakesMax ≤ s.pier.hub.handshakes s.now))) = true := by
    unfold handshakesMax
    simp [hfull, hshake]
  unfold State.hello
  dsimp only
  rw [hserial, hlane, if_neg hroot, if_neg hform, if_neg hroom, if_neg (by simp [hrnd])]
  exact ⟨_, _, _, _, rfl, rfl, rfl, rfl, rfl, rfl⟩

/-! AUTH (R400, R401) -/

/-- The session that a handshake becomes. -/
def HSess.made (x : HSess) (z : State) (slot r : Nat) (keys print : Bytes) : HSess :=
  { x with slot := some slot, rights := r, keyRx := keys.take 32, keyTx := keys.drop 32, print := print, opened := z.pierNs, lastReq := z.now, eph := 0, hello := [], rsp := [] }

section
variable {wait : Nat} {z : State} {lane : Fin 2} {m : HostMsg} {k : Nat} {x : HSess} (hwait : authNs = wait)
  (hx : z.pier.hub.sess.find? (fun e => decide (e.2.id = m.session) && e.2.slot.isNone && (decide (e.2.chan = serialChan) == false)) = some (k, x))
include hwait hx

/-! The time that an AUTH may take is a variable here: the kernel would count the literal down where the model matches on it. -/

theorem auth_verifies {r slot : Nat} {keys print : Bytes} (ht : z.now ≤ x.since + wait) (hst : m.status = 0) (href : m.ref = 0) (hflags : m.flags < 4)
    (hlen : m.len = m.body.length) (hopen : z.authOpen x m.body = some (r, keys, print)) (hslot : z.pier.hub.freeSlot false = some slot) :
    z.auth lane m = (((z.onHub fun h => { h with sess := Tbl.put h.sess k (x.made z slot r keys print) }).bump Reg.device_host_handshakes 0).message k 0xF1 m.target 0
      m.seq true (u8 r ++ [0, 0, 0] ++ u32 (((z.onHub fun h => { h with sess := Tbl.put h.sess k (x.made z slot r keys print) }).bump Reg.device_host_handshakes 0).rd
        Reg.device_host_session_idle_s 0))).1 := by
  have hlate : decide (x.since + wait < z.now) = false := decide_eq_false (not_lt.2 ht)
  have hform : (decide (m.status = 0) && decide (m.ref = 0) && decide (m.flags < 4) && decide (m.len = m.body.length)) = true := by simp [hst, href, hflags, hlen]
  unfold State.auth
  rw [hwait]
  dsimp only
  rw [decide_eq_false (not_serialLane lane), hx]
  dsimp only
  rw [hlate, hform, if_neg (by decide), hopen, hslot]
  rfl

theorem auth_late (ht : x.since + wait < z.now) : z.auth lane m = (z.endSession k).bump Reg.device_host_handshake_fail 0 := by
  unfold State.auth
  rw [hwait]
  dsimp only
  rw [decide_eq_false (not_serialLane lane), hx]
  dsimp only
  rw [decide_eq_true ht, Bool.true_or, if_pos rfl]

end

/-! A message of no session (R406) -/

/-- The NO_SESSION messages of the last second. -/
def State.recentNoSession (s : State) : List Nat := s.pier.hub.noSess.filter fun e => decide (s.now < e + 1000000000)

section
variable {s : State} {lane : Fin 2} {peer : Bytes} {type : Nat} {m : HostMsg}

theorem hostMsg_unknown (h1 : 1 ≤ type) (h10 : type ≤ 10) (hf : s.pier.hub.find m.session = none) : s.hostMsg lane peer type m = s.noSession lane peer m := by
  unfold State.hostMsg State.receive
  rw [if_neg (by omega), if_neg (by omega), if_pos ⟨h1, h10⟩, hf]

theorem hostMsg_other (h : type = 0 ∨ 10 < type) (hh : type ≠ 0x70) (ha : type ≠ 0x71) : s.hostMsg lane peer type m = s.bump Reg.device_host_rx_discard 0 := by
  unfold State.hostMsg
  rw [if_neg hh, if_neg ha, if_neg (by omega)]

/-- One more is answered. -/
theorem noSession_sent (h : s.recentNoSession.length < 100) : ∃ b : Bytes,
    s.noSession lane peer m = ((s.onHub fun h => { h with noSess := s.recentNoSession ++ [s.now] }).bump Reg.device_host_no_session_sent 0).sendPlain lane peer b :=
  ⟨_, if_neg (not_le.2 h)⟩

theorem noSession_limited (h : 100 ≤ s.recentNoSession.length) : s.noSession lane peer m = s.onHub fun h => { h with noSess := s.recentNoSession } := if_pos h

end

theorem State.recentNoSession_laneIn (s : State) (lane : Fin 2) : (s.laneIn lane).recentNoSession = s.recentNoSession := rfl

theorem State.rd_laneIn {s : State} {lane : Fin 2} {d : Entry} (h : d.area = .dev) (hp : d.place 0 < Reg.device_host_frames_in.place 0) :
    (s.laneIn lane).rd d 0 = s.rd d 0 :=
  State.rd_bump_ne _ _ _ _ _ _ _ _ (Entry.key_ne_place _ _ _ _ _ h (by
    change d.place 0 ≠ Reg.device_host_frames_in.place 0 + lane.val
    omega))

theorem State.rd_sendPlain_noSession (s : State) (chan : Nat) (peer b : Bytes) :
    (s.sendPlain chan peer b).rd Reg.device_host_no_session_sent 0 = s.rd Reg.device_host_no_session_sent 0 :=
  State.sendPlain_keeps (fun x => x.rd Reg.device_host_no_session_sent 0)
    (fun _ c => State.rd_bump_ne _ _ _ _ _ _ _ _ (Entry.key_ne_place _ _ _ _ _ rfl (by
      change 0x1203 * 256 + 0x05 + 0 ≠ 0x1205 * 256 + 0x02 + c
      omega)))
    (fun _ => State.rd_bump_ne _ _ _ _ _ _ _ _ (Entry.key_ne_place _ _ _ _ _ rfl (by decide))) (fun _ _ => rfl) _ _ _ _

theorem quiet_device_host_no_session_sent : Reg.device_host_no_session_sent.quiet 0 = true := by decide

/-! The ends of sessions and locks (R399, R405) -/

theorem sessionIdle_over {s : State} {session k : Nat} {x : HSess} (hf : s.pier.hub.find session = some (k, x))
    (he : (s.pier.hub.execs.any fun w => decide (w.sess = k)) = false) (ht : max x.lastReq x.busyAt + s.rd Reg.device_host_session_idle_s 0 * 1000000000 ≤ s.now) :
    sessionIdle session s = s.endSession k := by
  unfold sessionIdle
  rw [hf]
  exact if_pos ⟨ht, he⟩

/-- The action is answered, and the session in the selected place ends. -/
theorem sessionEnd_selected {s : State} {k : Nat} {x : HSess} (h : s.pier.hub.place (s.rd Reg.device_host_session_select 0) = some (k, x)) :
    s.runAction .dev Reg.device_host_session_end [] = (s.answer 255 .ok).endSession k := by
  have hplace : (s.answer 255 .ok).pier.hub.place ((s.answer 255 .ok).rd Reg.device_host_session_select 0) = some (k, x) := h
  have haction : s.runAction .dev Reg.device_host_session_end [] = match (s.answer 255 .ok).pier.hub.place ((s.answer 255 .ok).rd Reg.device_host_session_select 0) with
      | some (k, _) => (s.answer 255 .ok).endSession k
      | none => s.answer 255 .ok := rfl
  rw [haction, hplace]

theorem stagingLockTimeout_over {s : State} {index sub a b : Nat} (h : Tbl.get s.pier.hub.locks (index * 256 + sub) = some (a, b)) (ht : b + lockNs ≤ s.now) :
    stagingLockTimeout index sub s = s.onHub fun h => { h with locks := Tbl.del h.locks (index * 256 + sub) } := by
  unfold stagingLockTimeout
  generalize lockNs = wait at ht ⊢
  dsimp only
  rw [h]
  exact if_pos ht

/-- Settles O41: how a session is opened, what a message of no session is answered, how sessions and staging locks end, and what other datagrams lead to. -/
theorem hostSessions : Obligations.HostSessions := by
  refine ⟨fun s lane peer m hdown hf hroot hsess hst href hflags hlen hbody hfull hshake hrnd => ?_,
    fun s lane peer m k r slot x keys print hdown hf hx ht hst href hflags hlen hopen hslot => ?_,
    fun s lane peer type m hdown hf h1 h10 hnone hroom hn => ⟨_, exec_noSession lane peer type m s, ?_⟩,
    fun s session k x hfind he ht => ⟨_, exec_sessionIdle session s, ?_⟩, fun s k x h => ⟨_, exec_sessionEnd s, ?_⟩,
    fun s index sub a b h ht => ⟨_, exec_stagingLockTimeout index sub s, ?_⟩, fun s lane peer type m hdown hf h1 h10 hnone hfull => ⟨_, exec_noSession lane peer type m s, ?_⟩,
    fun s lane peer type m hdown hf h hh ha => by rw [exec_noSession, arrive_trakmer hdown hf, hostMsg_other h hh ha]; rfl,
    fun s lane peer m => ⟨rfl, rfl⟩, fun s lane peer type m c hdown hf hc => ?_,
    fun s lane peer type m hdown hf => by rw [exec_noSession, arrive_echo hdown hf]; rfl,
    fun s lane peer type m hdown hf ho => by rw [exec_noSession, arrive_solicit hdown hf ho]; rfl,
    fun s lane peer m k x hdown hf hx ht => by rw [exec_auth, arrive_trakmer hdown hf, auth_late (z := s.laneIn lane) rfl hx ht]; rfl⟩
  · obtain ⟨z, e, st, p, hopen, hslot, hchan, hhello, hsince, hid⟩ := hello_opens (s := s.laneIn lane) (lane := lane) (peer := peer) hroot hsess hst href hflags hlen hbody hfull hshake hrnd
    rw [State.rd_laneIn rfl (by decide)] at hid
    refine ⟨_, e, exec_hello lane peer m s, ?_, ?_, hslot, hchan, hhello, hsince, hid⟩
    · rw [State.done_pier, arrive_trakmer hdown hf, hopen, State.helloAnswer, State.sendPlain_pier]
      exact Tbl.get_put_self _ _ _
    · rw [State.done_pier, arrive_trakmer hdown hf, hopen, State.helloAnswer, State.sendPlain_pier]
      rfl
  · refine ⟨_, _, ?_, rfl, rfl⟩
    rw [exec_auth, arrive_trakmer hdown hf, auth_verifies (z := s.laneIn lane) rfl hx ht hst href hflags hlen hopen hslot]
    rfl
  · obtain ⟨b, hsent⟩ := noSession_sent (s := s.laneIn lane) (lane := lane) (peer := peer) (m := m) hroom
    have hrd : ((s.laneIn lane).onHub fun h => { h with noSess := (s.laneIn lane).recentNoSession ++ [(s.laneIn lane).now] }).rd Reg.device_host_no_session_sent 0 =
        s.rd Reg.device_host_no_session_sent 0 := State.rd_laneIn rfl (by decide)
    rw [State.done_pier, State.rd_done _ _ _ _ _ quiet_device_host_no_session_sent, arrive_trakmer hdown hf, hostMsg_unknown (s := s.laneIn lane) h1 h10 hnone, hsent, State.sendPlain_pier,
      State.rd_sendPlain_noSession, State.rd_bump_lt _ _ _ _ (by rwa [hrd]), hrd]
    exact ⟨rfl, rfl, rfl, fun u => by rw [State.done_vol, State.sendPlain_vol]; rfl⟩
  · rw [State.done_pier, State.done_out, sessionIdle_over hfind he ht]
    exact ⟨State.endSession_sess s k, State.done_regs _ _ rfl, rfl⟩
  · rw [State.done_pier, State.done_out, sessionEnd_selected h]
    exact ⟨State.endSession_sess _ k, State.done_regs _ _ rfl, rfl⟩
  · rw [State.done_pier, State.done_out, stagingLockTimeout_over h ht]
    exact ⟨Tbl.get_del_self _ _, State.done_regs _ _ rfl, rfl⟩
  · rw [State.done_pier, State.done_out, State.rd_done _ _ _ _ _ quiet_device_host_no_session_sent, arrive_trakmer hdown hf, hostMsg_unknown (s := s.laneIn lane) h1 h10 hnone,
      noSession_limited (s := s.laneIn lane) hfull]
    exact ⟨rfl, fun u => by rw [State.done_vol]; rfl, rfl, State.rd_laneIn rfl (by decide)⟩
  · have hgone : ∀ f : State → State, Host.Outcome.next (s.done (arrive lane peer m f s)) =
        (Host.Outcome.next (s.done ((s.bump Reg.device_host_frames_in 0 lane).bump Reg.device_host_rx_discard 0)) : Host.Outcome State Fault Refusal) := fun f =>
      congrArg (fun x => Host.Outcome.next (s.done x)) (arrive_discarded hdown hf f)
    simp only [List.mem_cons, List.not_mem_nil, or_false] at hc
    obtain rfl | rfl | rfl | rfl | rfl | rfl | rfl | rfl | rfl | rfl | rfl := hc <;> exact hgone _

end Sys2Proof.Machine

namespace Sys2Proof.Machine

open Crypto

/-! ### Notifications, lanes and the service bus (R391, R408, R412, R413, R650) -/

theorem exec_notify (target stream : Nat) (s : State) : exec (.notify target stream) s = .next (s.done (notify target stream s)) := rfl
theorem exec_watchCompare (session sub : Nat) (s : State) : exec (.watchCompare session sub) s = .next (s.done (watchDue session sub s)) := rfl
theorem exec_laneDown (lane : Fin 2) (ev : Fin 4) (s : State) : exec (.laneDown lane ev) s = .next (s.done (laneDown lane ev s)) := rfl
theorem exec_laneRevert (s : State) : exec .laneRevert s = .next (s.done (laneRevert s)) := rfl
theorem exec_serialFrame (frame : Bytes) (s : State) : exec (.serialFrame frame) s = .next (s.done (serialFrame frame s)) := rfl
theorem exec_serialTileTimeout (s : State) : exec .serialTileTimeout s = .next (s.done (serialTileTimeout s)) := rfl

/-! NOTIFY (R408) -/

section
variable {s : State} (hup : s.pier.up = true)
include hup

theorem notify_tile {t : TileId} (hrun : s.inRun t = true) (stream : Nat) :
    notify t stream s = if stream = 0 then s.notifyArchive t else if stream = 1 then s.notifyTileEvents t else s := by
  unfold notify
  rw [if_neg (by simp [hup]), dif_pos t.isLt]
  exact if_neg (by simp [hrun])

theorem notify_pier : notify 255 1 s = s.notifyPierEvents := by
  unfold notify
  rw [if_neg (by simp [hup]), dif_neg (by decide), if_pos rfl]

end

theorem State.notifyTileEvents_some {s : State} {t : TileId} {e : Event} {l : List Event} (h : (s.vol t).elog.unsent = e :: l) :
    s.notifyTileEvents t = (s.onVol t fun v => { v with elog := { v.elog with unsent := (e :: l).drop 16 } }).notifyTile 1 t (((e :: l).take 16).map eventItem) := by
  unfold State.notifyTileEvents
  dsimp only
  rw [h]
  exact if_neg (List.cons_ne_nil e l)

/-! WATCH_COMPARE (R650) -/

theorem watchDue_due {s : State} {session sub k : Nat} {x : HSess} {w : HSub} (hf : s.pier.hub.find session = some (k, x))
    (hw : x.subs.find? (fun w => decide (w.id = sub) && decide (w.stream = 2)) = some w) (ht : w.at_ + w.minMs * 1000000 ≤ s.now) :
    watchDue session sub s = s.watchCompare k w := by
  unfold watchDue
  rw [hf]
  dsimp only
  rw [hw]
  exact if_pos (.inr ht)

/-! Lanes (R391) -/

section
variable {s : State} (lane : Fin 2) (hup : s.pier.up = true)
include hup

theorem laneDown_up : laneDown lane 0 s = ((s.setLane lane true).laneHeld (otherLane lane)).flushOut := by
  unfold laneDown
  rw [if_neg (by simp [hup]), if_pos rfl]

theorem laneDown_down : laneDown lane 1 s = s.setLane lane false := by
  unfold laneDown
  rw [if_neg (by simp [hup]), if_neg (by decide), if_pos rfl]

theorem laneDown_held : laneDown lane 2 s = s.laneHeld lane := by
  unfold laneDown
  rw [if_neg (by simp [hup]), if_neg (by decide), if_neg (by decide), if_pos rfl]

theorem laneDown_dead : laneDown lane 3 s = s.lanesDead := by
  unfold laneDown
  rw [if_neg (by simp [hup]), if_neg (by decide), if_neg (by decide), if_neg (by decide)]

end

/-- The active lane has been down for the hold time and the other is up. -/
theorem State.laneHeld_switches {s : State} {l : Nat} (hm : s.pier.hub.cfg.mode = 0) (ha : s.pier.hub.active = l) (hl : s.pier.hub.laneUp.getD l false = false)
    (ht : s.pier.hub.laneAt.getD l 0 + s.pier.hub.cfg.holdMs * 1000000 ≤ s.now) (ho : s.pier.hub.laneUp.getD (otherLane l) false = true) :
    s.laneHeld l = s.laneSwitch (otherLane l) := by
  unfold State.laneHeld
  dsimp only
  rw [hl, decide_eq_true ht, ho, if_neg (by decide), if_pos hm, if_pos ha]

theorem laneRevert_due {s : State} (h : s.pier.hub.cfg.mode = 0 ∧ s.pier.hub.cfg.revertS ≠ 0 ∧ s.pier.hub.laneUp.getD s.pier.hub.cfg.primary false = true ∧
    s.pier.hub.active ≠ s.pier.hub.cfg.primary ∧ s.pier.hub.laneAt.getD s.pier.hub.cfg.primary 0 + s.pier.hub.cfg.revertS * 1000000000 ≤ s.now) :
    laneRevert s = s.laneSwitch s.pier.hub.cfg.primary := if_pos h

/-! The service bus (R412, R413) -/

/-- One bit of the FCS. -/
def fcsStep (c : Nat) : Nat := if c % 2 = 1 then (c / 2) ^^^ 0x8408 else c / 2

/-- One byte of the FCS. -/
def fcsByte (c : Nat) (x : Byte) : Nat := (List.range 8).foldl (fun c _ => fcsStep c) (c ^^^ x.toNat)

theorem fcs16_eq (b : Bytes) : fcs16 b = b.foldl fcsByte 0xFFFF ^^^ 0xFFFF := rfl

theorem fcsStep_lt {c : Nat} (h : c < 2 ^ 16) : fcsStep c < 2 ^ 16 := by
  unfold fcsStep
  split
  · exact Nat.xor_lt_two_pow (by omega) (by decide)
  · omega

theorem fcsSteps_lt (l : List Nat) : ∀ {c : Nat}, c < 2 ^ 16 → l.foldl (fun c _ => fcsStep c) c < 2 ^ 16 := by
  induction l with
  | nil => exact id
  | cons _ l ih => exact fun h => ih (fcsStep_lt h)

theorem fcsByte_lt {c : Nat} (x : Byte) (h : c < 2 ^ 16) : fcsByte c x < 2 ^ 16 := by
  have hx : x.toNat < 2 ^ 16 := by have := x.isLt; omega
  exact fcsSteps_lt _ (Nat.xor_lt_two_pow h hx)

theorem fcsBytes_lt (b : Bytes) : ∀ {c : Nat}, c < 2 ^ 16 → b.foldl fcsByte c < 2 ^ 16 := by
  induction b with
  | nil => exact id
  | cons x b ih => exact fun h => ih (fcsByte_lt x h)

/-- The FCS fits its two bytes. -/
theorem fcs16_lt (b : Bytes) : fcs16 b < 2 ^ 16 := by
  rw [fcs16_eq]
  exact Nat.xor_lt_two_pow (fcsBytes_lt b (by decide)) (by decide)

/-- The FCS behind a body is read as it was written. -/
theorem fld_fcs (body : Bytes) : fld (body ++ u16 (fcs16 body)) body.length 2 = fcs16 body := by
  have hlen : (u16 (fcs16 body)).length = 2 := natLE_length 2 _
  rw [fld, List.drop_left, List.take_of_length_le hlen.le, u16, leNat_natLE]
  exact Nat.mod_eq_of_lt (fcs16_lt body)

/-- The first byte of a frame is the address. -/
theorem fld_addr {addr : Nat} (b : Bytes) (h : addr < 256) : fld (u8 addr ++ b) 0 1 = addr := by
  have hlen : (u8 addr).length = 1 := natLE_length 1 _
  rw [fld, List.drop_zero, List.take_left' hlen, u8, leNat_natLE]
  exact Nat.mod_eq_of_lt h

section
variable {s : State} {frame : Bytes} (hup : s.pier.up = true) (hclk : s.pier.clock ≠ .select)
include hup hclk

/-- A frame for this address with a good FCS. -/
theorem serialFrame_good {b : Bytes} (hu : unstuff frame = some (u8 s.pier.hub.cfg.addr ++ b ++ u16 (fcs16 (u8 s.pier.hub.cfg.addr ++ b)))) (ha : s.pier.hub.cfg.addr < 256) :
    serialFrame frame s = (s.bump Reg.device_svc_frames_in 0).serialMsg b := by
  have hlen : (u8 s.pier.hub.cfg.addr).length = 1 := natLE_length 1 _
  have hfcs : (u16 (fcs16 (u8 s.pier.hub.cfg.addr ++ b))).length = 2 := natLE_length 2 _
  have hn : (u8 s.pier.hub.cfg.addr ++ b ++ u16 (fcs16 (u8 s.pier.hub.cfg.addr ++ b))).length - 2 = (u8 s.pier.hub.cfg.addr ++ b).length := by
    rw [List.length_append, hfcs, Nat.add_sub_cancel]
  have hthree : ¬(u8 s.pier.hub.cfg.addr ++ b ++ u16 (fcs16 (u8 s.pier.hub.cfg.addr ++ b))).length < 3 := by
    rw [List.length_append, List.length_append, hlen, hfcs]
    omega
  have haddr : fld (u8 s.pier.hub.cfg.addr ++ b ++ u16 (fcs16 (u8 s.pier.hub.cfg.addr ++ b))) 0 1 = s.pier.hub.cfg.addr := by
    rw [List.append_assoc, fld_addr _ ha]
  unfold serialFrame
  rw [if_neg (by simp [hup, hclk])]
  dsimp only
  rw [hu, Option.getD_some, hn, List.take_left, fld_fcs, if_neg (by simp only [hthree, ne_eq, not_true_eq_false, or_self, not_false_eq_true])]
  have hhub : (s.bump Reg.device_svc_frames_in 0).pier.hub.cfg.addr = s.pier.hub.cfg.addr := rfl
  rw [haddr, hhub, if_neg (by simp), List.drop_left' hlen]

/-- A frame whose stuffing is bad counts as one with a bad FCS. -/
theorem serialFrame_bad (hu : unstuff frame = none) : serialFrame frame s = s.bump Reg.device_svc_fcs_errors 0 := by
  unfold serialFrame
  rw [if_neg (by simp [hup, hclk])]
  dsimp only
  rw [hu]
  exact if_pos (.inl (by decide))

end

theorem serialTileTimeout_exec {s : State} {w : HExec}
    (h : s.pier.hub.execs.find? (fun w => s.isSerial w.sess && decide (w.target < 16) && decide (w.since + serialWaitNs ≤ s.now)) = some w) :
    serialTileTimeout s = (s.onHub fun h => { h with execs := h.execs.map fun v => if v = w then { v with sess := 0 } else v }).reply w.req .unreachable (u8 4) := by
  unfold serialTileTimeout
  dsimp only
  rw [h]

theorem serialTileTimeout_set {s : State} {w : HSet} (he : s.pier.hub.execs = [])
    (h : s.pier.hub.sets.find? (fun w => s.isSerial w.sess && decide (w.since + serialWaitNs ≤ s.now)) = some w) :
    serialTileTimeout s = (s.onHub fun h => { h with sets := h.sets.filter fun v => decide (v ≠ w) }).reply w.req .unreachable (u8 4) := by
  unfold serialTileTimeout
  dsimp only
  rw [he, List.find?_nil]
  dsimp only
  rw [h]

/-- Settles O42: what is notified, when a watch compares, how the lanes change, and what a frame and a silent tile lead to on the service bus. -/
theorem hostStreams : Obligations.HostStreams := by
  refine ⟨fun s t e l hup hrun h => by rw [exec_notify, notify_tile hup hrun, if_neg (by decide), if_pos rfl, State.notifyTileEvents_some h],
    fun s t hup hrun => by rw [exec_notify, notify_tile hup hrun, if_pos rfl],
    fun s session sub k x w hf hw ht => by rw [exec_watchCompare, watchDue_due hf hw ht], fun s lane hup hl ha => ⟨_, exec_laneDown lane 1 s, ?_⟩,
    fun s lane hup hm ha hl ht ho => by rw [exec_laneDown, laneDown_held lane hup, State.laneHeld_switches hm ha hl ht ho],
    fun s hm hr hl ha ht => by rw [exec_laneRevert, laneRevert_due ⟨hm, hr, hl, ha, ht⟩],
    fun s frame b hup hclk hu ha => by rw [exec_serialFrame, serialFrame_good hup hclk hu ha],
    fun s w h => by rw [exec_serialTileTimeout, serialTileTimeout_exec h], fun s w he h => by rw [exec_serialTileTimeout, serialTileTimeout_set he h],
    fun s hup => by rw [exec_notify, notify_pier hup],
    fun s lane hup => ⟨by rw [exec_laneDown, laneDown_up lane hup], by rw [exec_laneDown, laneDown_dead lane hup]⟩,
    fun s frame hup hclk hu => by rw [exec_serialFrame, serialFrame_bad hup hclk hu]⟩
  rw [laneDown_down lane hup, State.done_pier, State.done_out]
  exact ⟨getD_set_self (by rw [hl]; exact lane.isLt) _ _, getD_set_self (by rw [ha]; exact lane.isLt) _ _, rfl, State.done_regs _ _ rfl, rfl⟩

end Sys2Proof.Machine

namespace Sys2Proof.Machine

open Crypto

/-! ### The key hierarchy (R451 to R478) -/

theorem exec_vaultEnrol (t : TileId) (s : State) : exec (.vaultEnrol t) s = .next (s.done (vaultEnrol t s)) := rfl
theorem exec_bayOffer (t : TileId) (s : State) : exec (.bayOffer t) s = .next (s.done (bayOffer t s)) := rfl
theorem exec_bayOfferExpiry (t : TileId) (s : State) : exec (.bayOfferExpiry t) s = .next (s.done (bayOfferExpiry t s)) := rfl
theorem exec_goField (t : TileId) (s : State) : exec (.goField t) s = .next (s.done (goField t s)) := rfl
theorem exec_vaultErase (t : TileId) (s : State) : exec (.vaultErase t) s = .next (s.done (vaultErase t s)) := rfl
theorem exec_vaultRetire (t : TileId) (s : State) : exec (.vaultRetire t) s = .next (s.done (vaultRetire t s)) := rfl
theorem exec_vaultImport (t : TileId) (s : State) : exec (.vaultImport t) s = .next (s.done (consuming t [Reg.vault_import_stage] (vaultImport t) s)) := rfl
theorem exec_archiveRotate (t : TileId) (s : State) : exec (.archiveRotate t) s = .next (s.done (archiveRotate t s)) := rfl

/-- An action that is completed at once shows result 0. -/
theorem State.rd_vaultOk (s : State) (t : TileId) : (s.vaultOk t).rd Reg.vault_last_result t = 0 := State.rd_wr_self s Reg.vault_last_result t 0 0

theorem quiet_vault_last_result : Reg.vault_last_result.quiet 0 = true := by decide

/-! Enrolment and the offer of the bay KEK (R454, R456) -/

section
variable {s : State} {t : TileId}

/-- The first tile of its bay draws both KEKs. -/
theorem vaultEnrol_first {a b : State} {ka kb : Bytes} (hlife : s.lifecycle t = 0 ∨ s.lifecycle t = 3) (hrnd : s.drbgReady t = true) (hmode : s.rd Reg.vault_enrol_mode t ≠ 1)
    (hmate : (s.tile (mate t)).retired = true ∨ leNat ((s.tile (mate t)).keyPage.bkF ++ (s.tile (mate t)).keyPage.bkP) = 0) (ha : s.draw t = (a, ka)) (hb : a.draw t = (b, kb)) :
    vaultEnrol t s = (((((b.sealKeks t ka kb).newGeneration t 0).loadBaySlots t).settleRoot t).vaultLater t).releaseVault t := by
  have hjoin : decide (s.rd Reg.vault_enrol_mode t = 1) = false := decide_eq_false hmode
  have hholds : (!(s.tile (mate t)).retired && decide (leNat ((s.tile (mate t)).keyPage.bkF ++ (s.tile (mate t)).keyPage.bkP) ≠ 0)) = false := by
    obtain h | h := hmate
    · simp [h]
    · simp [h]
  unfold vaultEnrol
  dsimp only
  rw [hjoin, hholds, if_neg (by omega), if_neg (by simp [hrnd]), if_neg (by simp), if_neg (by simp), if_neg (by simp), ha]
  dsimp only
  rw [hb]

theorem bayOffer_stands {k : Bytes} (hlife : s.lifecycle t = 1 ∨ s.lifecycle t = 2 ∨ s.lifecycle t = 3) (hk : (s.vol t).vault.bayKek = some k) :
    bayOffer t s = (s.onVault t fun v => { v with offerUntil := some (s.now + 60 * 10 ^ 9) }).vaultOk t := by
  have hnot : ¬((s.lifecycle t ≠ 1 ∧ s.lifecycle t ≠ 2 ∧ s.lifecycle t ≠ 3) ∨ (s.vol t).vault.bayKek = none) := by
    rw [hk, or_iff_left (Option.some_ne_none k)]
    omega
  exact if_neg hnot

theorem bayOfferExpiry_over {u : Nat} (h : (s.vol t).vault.offerUntil = some u) (ht : u ≤ s.now) :
    bayOfferExpiry t s = s.onVault t fun v => { v with offerUntil := none } := by
  unfold bayOfferExpiry
  rw [h]
  exact if_pos ht

theorem goField_held {g : Nat} (hlife : s.lifecycle t = 1) (hid : s.certHeld t Reg.vault_cert_id 0 = true) (hlink : s.certHeld t Reg.vault_cert_link 1 = true)
    (hg : s.archGen t = some g) : goField t s = ((s.writePage t fun k => { k with life := 2 }).settleRoot t).vaultOk t := if_neg (by simp [hlife, hid, hlink, hg])

/-! Erasing and retiring (R451, R478) -/

theorem vaultErase_blank (hs : s.serves t = false) (hl : s.lifecycle t = 0) : vaultErase t s = s.vaultOk t := by
  unfold vaultErase
  dsimp only
  rw [if_neg (by simp [hs, hl]), if_pos hl]

/-- An enrolled tile, in FIELD or before it. -/
theorem vaultErase_enrolled (hs : s.serves t = false) (hl : s.lifecycle t = 1 ∨ s.lifecycle t = 2) :
    vaultErase t s = (((s.eraseKeks t 0).destroyBayTable t).vaultLater t).releaseVault t := by
  have hdebug : s.lifecycle t ≠ 3 := by omega
  unfold vaultErase
  dsimp only
  rw [if_neg (by simp [hs]; omega), if_neg (by omega), if_neg fun h => hdebug h.1, if_neg (by simp [hdebug])]

/-- A tile in DEBUG that is no engineering sample is reset after it. -/
theorem vaultErase_debug (hs : s.serves t = false) (hl : s.lifecycle t = 3) (hes : s.pier.es = false) :
    vaultErase t s = ((((s.eraseKeks t 0).destroyBayTable t).onVault t fun v => { v with resetDue := true }).vaultLater t).releaseVault t := by
  have hlife : (if s.lifecycle t = 3 ∧ s.pier.es = true then 3 else 0) = 0 := if_neg (by simp [hes])
  unfold vaultErase
  dsimp only
  rw [if_neg (by simp [hs, hl]), if_neg (by omega), hlife, if_pos (by simp [hl, hes])]

theorem vaultRetire_idle (hs : s.serves t = false) (hl : s.lifecycle t ≠ 4) :
    vaultRetire t s = ((((((s.eraseKeks t (s.lifecycle t)).destroyBayTable t).onTile t fun x => { x with retired := true }).wr
      Reg.vault_root_used t 0).settleRoot t).vaultLater t).releaseVault t := if_neg (by simp [hs, hl])

/-! The archive key (R471) -/

theorem archiveRotate_next {k : Bytes} {g : Nat} (hs : s.serves t = true) (hrnd : s.drbgReady t = true) (hrot : (s.vol t).vault.rotating = false)
    (hk : (s.vol t).vault.bayKek = some k) (hg : s.archGen t = some g) :
    archiveRotate t s = (((s.newGeneration t ((g + 1) % 16)).onVault t fun v => { v with rotating := true }).vaultLater t).releaseVault t := by
  unfold archiveRotate
  rw [if_neg (by simp [hs]), if_neg (by simp [hrnd]), if_neg (by simp [hrot]), hk, hg]

end

/-! Import (R468): the key that a slot delivers depends on the vault alone -/

theorem State.vault_setSlot (s : State) (t : TileId) (n : Nat) (key : Bytes) :
    ((s.setSlot t n key).vol t).vault = { (s.vol t).vault with slots := Tbl.put (s.vol t).vault.slots n { key := key, bad := false } } := by
  unfold State.setSlot State.onVault
  rw [State.vol_onVol_self]

section
variable {x y : State} {t : TileId} (h : (x.vol t).vault = (y.vol t).vault)
include h

theorem State.vault_setSlot_congr (n : Nat) (key : Bytes) : ((x.setSlot t n key).vol t).vault = ((y.setSlot t n key).vol t).vault := by
  rw [State.vault_setSlot, State.vault_setSlot, h]

theorem State.vault_deriveSlots_congr : ((x.deriveSlots t).vol t).vault = ((y.deriveSlots t).vol t).vault := by
  unfold State.deriveSlots
  dsimp only
  rw [h]
  cases (y.vol t).vault.tileKek with
  | none =>
    cases (y.vol t).vault.bayKek with
    | none => exact h
    | some k => exact State.vault_setSlot_congr (State.vault_setSlot_congr h _ _) _ _
  | some k =>
    have htile := State.vault_setSlot_congr (State.vault_setSlot_congr (State.vault_setSlot_congr (State.vault_setSlot_congr h 0 (natBE 32 (deriveD k "TILE-ID"))) 1
      (natBE 32 (deriveD k "LINK-ID"))) 4 (deriveK k "SLOTCHK")) 5 (deriveK k "LEGALLOG")
    cases (y.vol t).vault.bayKek with
    | none => exact htile
    | some k => exact State.vault_setSlot_congr (State.vault_setSlot_congr htile _ _) _ _

/-- A derived key is delivered alike. -/
theorem State.useSlot_congr {n : Nat} (hn : n < 6) : (x.useSlot t n).2 = (y.useSlot t n).2 := by
  have event : ∀ z : State, ((((z.bump Reg.vault_integrity_fail t).event t 1 0x1A02 n).vol t)).vault = (z.vol t).vault := fun z => State.event_vault _ _ _ _ _ _ _ _
  have refill : ∀ z : State, (z.refillSlot t n) = z.deriveSlots t := fun z => if_pos hn
  unfold State.useSlot
  rw [h]
  split
  · split
    · dsimp only
      rw [refill, refill]
      unfold State.slotKey
      rw [State.vault_deriveSlots_congr ((event x).trans (h.trans (event y).symm))]
    · rfl
  · rfl

end

/-- The import of a good stage under the key `kek`. -/
def State.imported (u : State) (t : TileId) (b kek : Bytes) (n : Nat) : State :=
  let r := (List.range n).foldl (fun (a : State × List Nat) i =>
    let x := a.1.importEntry t kek ((b.drop (72 + 64 * i)).take 64)
    (x.1, a.2 ++ [x.2])) (u, [])
  ((r.1.wrB Reg.vault_import_result t 0 (fit 16 (ofNats r.2))).vaultLater t).releaseVault t

theorem vaultImport_good {y : State} {t : TileId} {b d z : Bytes} {n : Nat} {pt : Nat × Nat} (hs : y.serves t = true) (hb : y.rdAll Reg.vault_import_stage t = b)
    (hver : fld b 0 1 = 1) (hcount : fld b 1 1 = n) (h1 : 1 ≤ n) (h16 : n ≤ 16) (hr : fld b 2 2 = 0) (hr' : fld b 69 3 = 0) (hpt : decodePoint p256 ((b.drop 4).take 65) = some pt)
    (hd : (y.useSlot t 2).2 = some d) (hz : ecdh p256 (beNat d) ((b.drop 4).take 65) = some z) :
    vaultImport t y = (y.useSlot t 2).1.imported t b (kdf z (ascii "KEYLOAD") ((b.drop 4).take 65) 256) n := by
  have hform : ¬(fld b 0 1 ≠ 1 ∨ n = 0 ∨ 16 < n ∨ fld b 2 2 ≠ 0 ∨ fld b 69 3 ≠ 0 ∨ decodePoint p256 ((b.drop 4).take 65) = none) := by
    rw [hpt]
    simp only [hver, hr, hr', ne_eq, not_true_eq_false, false_or, reduceCtorEq, or_false]
    omega
  unfold vaultImport
  dsimp only
  rw [hb, hcount, if_neg (by simp [hs]), if_neg hform, hd]
  dsimp only
  rw [hz]
  rfl

/-- Settles O45: enrolment, the offer, FIELD, erasing and retiring, the rotation and the import, each by its lifecycle and its keys. -/
theorem vaultKeys : Obligations.VaultKeys := by
  refine ⟨fun s a b t ka kb hlife hrnd hmode hmate ha hb => by rw [exec_vaultEnrol, vaultEnrol_first hlife hrnd hmode hmate ha hb],
    fun s t k hlife hk => ⟨_, exec_bayOffer t s, ?_⟩, fun s t u h ht => ⟨_, exec_bayOfferExpiry t s, ?_⟩,
    fun s t g hlife hid hlink hg => by rw [exec_goField, goField_held hlife hid hlink hg], fun s t hs hl => by rw [exec_vaultErase, vaultErase_enrolled hs hl],
    fun s t hs hl => by rw [exec_vaultRetire, vaultRetire_idle hs hl], fun s t k g hs hrnd hrot hk hg => by rw [exec_archiveRotate, archiveRotate_next hs hrnd hrot hk hg],
    fun s u t b d z n pt hs hb hver hcount h1 h16 hr hr' hpt hu hz => ?_, fun s t hs hl => by rw [exec_vaultErase, vaultErase_blank hs hl],
    fun s t hs hl hes => by rw [exec_vaultErase, vaultErase_debug hs hl hes]⟩
  · rw [State.done_vol, State.rd_done _ _ _ _ _ quiet_vault_last_result, State.done_out, bayOffer_stands hlife hk]
    have hvault : (((s.onVault t fun v => { v with offerUntil := some (s.now + 60 * 10 ^ 9) }).vaultOk t).vol t).vault = { (s.vol t).vault with offerUntil := some (s.now + 60 * 10 ^ 9) } :=
      congrArg Vol.vault (State.vol_onVol_self s t fun v => { v with vault := { v.vault with offerUntil := some (s.now + 60 * 10 ^ 9) } })
    rw [hvault]
    exact ⟨rfl, State.rd_vaultOk _ t, rfl, rfl⟩
  · rw [State.done_vol, State.done_out, bayOfferExpiry_over h ht]
    exact ⟨congrArg (fun v : Vol => v.vault.offerUntil) (State.vol_onVol_self _ _ _), State.done_regs _ _ rfl, rfl⟩
  · rw [exec_vaultImport]
    refine congrArg (fun x => Host.Outcome.next (s.done x)) (State.acting_congr ?_)
    have hd : ((s.under { frees := [Reg.vault_import_stage].map fun e => e.key t 0 }).useSlot t 2).2 = some d :=
      (State.useSlot_congr (x := s.under { frees := [Reg.vault_import_stage].map fun e => e.key t 0 }) (y := s) rfl (by decide)).trans (congrArg Prod.snd hu)
    exact vaultImport_good hs hb hver hcount h1 h16 hr hr' hpt hd hz

end Sys2Proof.Machine

namespace Sys2Proof.Machine

/-! ### Debug, certificates, anchors and the random source (R459 to R479) -/

theorem exec_debugUnlock (t : TileId) (s : State) : exec (.debugUnlock t) s = .next (s.done (consuming t [Reg.vault_debug_token] (debugUnlock t) s)) := rfl
theorem exec_debugChallenge (t : TileId) (s : State) : exec (.debugChallenge t) s = .next (s.done (debugChallengeRead t s)) := rfl
theorem exec_hostRekey (s : State) : exec .hostRekey s = .next (s.done (hostRekey s)) := rfl
theorem exec_certWrite (t : TileId) (which : Fin 5) (off : Nat) (data : Bytes) (s : State) : exec (.certWrite t which off data) s = .next (s.done (certWrite t which off data s)) := rfl
theorem exec_anchorWrite (j : Fin 8) (off : Nat) (data : Bytes) (s : State) : exec (.anchorWrite j off data) s = .next (s.done (anchorWrite j off data s)) := rfl
theorem exec_drbgReseed (t : TileId) (s : State) : exec (.drbgReseed t) s = .next (s.done (drbgReseed t s)) := rfl
theorem exec_healthFail (t : TileId) (s : State) : exec (.healthFail t) s = .next (s.done (healthFail t s)) := rfl
theorem exec_drbgReady (t : TileId) (s : State) : exec (.drbgReady t) s = .next (s.done (drbgReadyEvent t s)) := rfl
theorem exec_drbgStartTimeout (t : TileId) (s : State) : exec (.drbgStartTimeout t) s = .next (s.done (drbgStartTimeout t s)) := rfl

theorem quiet_vault_reseeds : Reg.vault_reseeds.quiet 0 = true := by decide
theorem quiet_vault_health_fail : Reg.vault_health_fail.quiet 0 = true := by decide
theorem quiet_vault_drbg_state : Reg.vault_drbg_state.quiet 0 = true := by decide
theorem quiet_vault_cert_id : Reg.vault_cert_id.quiet 0 = true := by decide
theorem quiet_device_sec_anchor (j : Fin 8) : Reg.device_sec_anchor.quiet j = true := by revert j; decide
theorem quiet_device_sec_host_cert : Reg.device_sec_host_cert.quiet 0 = true := by decide
theorem quiet_device_sec_host_key_gen : Reg.device_sec_host_key_gen.quiet 0 = true := by decide

theorem State.vault_onVault (s : State) (t : TileId) (f : Vault → Vault) : ((s.onVault t f).vol t).vault = f (s.vol t).vault := by
  unfold State.onVault
  rw [State.vol_onVol_self]

/-! Debug (R476, R477) -/

theorem debugUnlock_good {y : State} {t : TileId} (hs : y.serves t = false) (hl : y.lifecycle t < 3) (hok : y.tokenOk t = true) :
    debugUnlock t y = (((y.eraseKeks t 3).onVault t fun v => { v with challenge := none }).vaultOk t).vaultReset t := by
  have hidle : ¬(y.serves t = true ∨ 3 ≤ y.lifecycle t) := by simp [hs, hl]
  unfold debugUnlock
  rw [if_neg hidle, if_neg (by simp [hok])]

theorem debugChallenge_drawn {s y : State} {t : TileId} {k : Bytes} (hr : s.drbgReady t = true) (hd : s.draw t = (y, k)) :
    debugChallengeRead t s = (y.onVault t fun v => { v with challenge := some (k.take 16, s.now + 600 * 10 ^ 9) }).emit (.bytes t (k.take 16)) := by
  have hready : ¬(!s.drbgReady t) = true := by simp [hr]
  unfold debugChallengeRead State.debugChallenge
  dsimp only
  rw [if_neg hready, hd]

/-! Certificates and anchors (R459, R473, R475) -/

theorem State.rdB_length (s : State) (e : Entry) (n a l i : Nat) : (s.rdB e n a l i).length = l := by
  unfold State.rdB
  rw [List.length_map, List.length_range]

/-- A write of a whole entry is read back whole. -/
theorem State.rdAll_wrB {b : Bytes} {e : Entry} (h : b.length = e.size) (s : State) (n i : Nat) : (s.wrB e n 0 b i).rdAll e n i = b := by
  have hread := State.rdB_wrB_self s e n 0 i b
  rwa [h] at hread

theorem State.rdAll_done (s x : State) (d : Entry) (m j : Nat) (h : d.quiet j = true) : (s.done x).rdAll d m j = x.rdAll d m j := State.rdB_done _ _ _ _ _ _ _ h

theorem State.rdAll_answer (s : State) (n : Nat) (st : Status) (d : Entry) (m j : Nat) : (s.answer n st).rdAll d m j = s.rdAll d m j := rfl

/-- The host key goes on to its next generation and certificate. -/
def State.hostRenewed (s : State) : State :=
  ((s.wr Reg.device_sec_host_key_gen 0 (s.rd Reg.device_sec_host_key_gen 0 + 1)).wrB Reg.device_sec_host_cert 0 0 (s.rdAll Reg.device_sec_host_next_cert 0)).clr
    Reg.device_sec_host_next_cert 0

theorem hostRekey_good {s : State} (hg : s.rd Reg.device_sec_host_key_gen 0 < 255)
    (hc : certPub (s.rdAll Reg.device_sec_host_next_cert 0) = some (s.hostPub (s.rd Reg.device_sec_host_key_gen 0 + 1))) : hostRekey s = s.hostRenewed.answer 255 .ok := by
  unfold hostRekey
  dsimp only
  rw [if_neg (by omega), if_neg (by simp [hc])]
  rfl

theorem State.get_clr_ne (s : State) (e : Entry) (n i k : Nat) (h : k ≠ e.key n i) : Tbl.get (s.clr e n i).regs k = Tbl.get s.regs k := Tbl.get_del_ne _ h

theorem State.rd_hostRenewed {s : State} (hg : s.rd Reg.device_sec_host_key_gen 0 < 255) :
    s.hostRenewed.rd Reg.device_sec_host_key_gen 0 = s.rd Reg.device_sec_host_key_gen 0 + 1 := by
  unfold State.hostRenewed
  rw [State.rd_congr (State.get_clr_ne _ _ _ _ _ (by decide)), State.rd_wrB_ne _ _ _ _ _ _ _ _ _ (by decide), State.rd_wr_self]
  exact Nat.mod_eq_of_lt (show _ < 256 by omega)

theorem State.out_hostRenewed (s : State) : s.hostRenewed.out = s.out := by
  unfold State.hostRenewed
  rw [State.clr_out, State.wrB_out, State.wr_out]

theorem State.rdAll_hostRenewed (s : State) : s.hostRenewed.rdAll Reg.device_sec_host_cert 0 = s.rdAll Reg.device_sec_host_next_cert 0 := by
  have hlen : (s.rdAll Reg.device_sec_host_next_cert 0).length = Reg.device_sec_host_cert.size := State.rdB_length _ _ _ _ _ _
  refine (State.rdB_congr _ _ _ _ _ ?_).trans (State.rdAll_wrB hlen (s.wr Reg.device_sec_host_key_gen 0 (s.rd Reg.device_sec_host_key_gen 0 + 1)) 0 0)
  exact State.get_clr_ne _ _ _ _ _ (by decide)

/-- The bytes that a write to a part of a certificate or anchor results in. -/
def patched (old : Bytes) (off : Nat) (data : Bytes) : Bytes := fit 1024 (old.take off ++ data ++ old.drop (off + data.length))

theorem patched_whole {old data : Bytes} (ho : old.length = 1024) (hd : data.length = 1024) : patched old 0 data = data := by
  unfold patched
  rw [List.take_zero, List.nil_append, List.drop_of_length_le (by omega), List.append_nil]
  simp [fit, hd]

/-- The entry of a certificate. -/
def certEntry (which : Fin 5) : Entry :=
  [Reg.vault_cert_id, Reg.vault_cert_link, Reg.vault_sat_anchor, Reg.device_sec_host_cert, Reg.device_sec_host_next_cert].getD which Reg.vault_cert_id

def certUnit (t : TileId) (which : Fin 5) : Nat := if which.val < 3 then t.val else 0

/-- A write of a certificate that is blank, or of the key that it certifies. -/
theorem certWrite_good {s : State} {t : TileId} {which : Fin 5} {off : Nat} {data k : Bytes} (hlen : off + data.length ≤ 1024)
    (h : leNat (patched (s.rdAll (certEntry which) (certUnit t which)) off data) = 0 ∨ certPub (patched (s.rdAll (certEntry which) (certUnit t which)) off data) = some k ∧
      (which.val = 0 → s.slotPub t 0 = some k) ∧ (which.val = 1 → s.slotPub t 1 = some k)) :
    certWrite t which off data s =
      (if which.val = 2 then s.wrBM (certEntry which) t off data else s.wrB (certEntry which) (certUnit t which) off data).answer (if which.val < 3 then t.val else 255) .ok := by
  have hdo : certWriteDo t which off data s =
      (if which.val = 2 then s.wrBM (certEntry which) t off data else s.wrB (certEntry which) (certUnit t which) off data, .ok) := by
    refine (if_neg (not_lt.2 hlen)).trans ?_
    obtain h | ⟨hk, h0, h1⟩ := h
    · exact if_pos h
    · by_cases hz : leNat (patched (s.rdAll (certEntry which) (certUnit t which)) off data) = 0
      · exact if_pos hz
      · refine (if_neg hz).trans ?_
        have hkey : ¬((which.val = 0 ∧ s.slotPub t 0 ≠ some k) ∨ (which.val = 1 ∧ s.slotPub t 1 ≠ some k)) := fun h =>
          h.elim (fun h => h.2 (h0 h.1)) fun h => h.2 (h1 h.1)
        change (match certPub (patched (s.rdAll (certEntry which) (certUnit t which)) off data) with
          | none => (s, Status.invalid)
          | some k => if (which.val = 0 ∧ s.slotPub t 0 ≠ some k) ∨ (which.val = 1 ∧ s.slotPub t 1 ≠ some k) then (s, .conflict) else _) = _
        rw [hk]
        exact if_neg hkey
  unfold certWrite
  rw [hdo]

theorem anchorWrite_good {s : State} {j : Fin 8} {off : Nat} {data k : Bytes} (hlen : off + data.length ≤ 1024)
    (h : leNat (patched (s.rdAll Reg.device_sec_anchor 0 j) off data) = 0 ∧ (s.wrB Reg.device_sec_anchor 0 off data j).anchors ≠ [] ∨
      leNat (patched (s.rdAll Reg.device_sec_anchor 0 j) off data) ≠ 0 ∧ certPub (patched (s.rdAll Reg.device_sec_anchor 0 j) off data) = some k) :
    anchorWrite j off data s = (s.wrB Reg.device_sec_anchor 0 off data j).answer 255 .ok := by
  have hdo : anchorWriteDo j off data s = (s.wrB Reg.device_sec_anchor 0 off data j, .ok) := by
    refine (if_neg (not_lt.2 hlen)).trans ?_
    obtain ⟨hz, hleft⟩ | ⟨hz, hk⟩ := h
    · exact (if_pos hz).trans (if_neg hleft)
    · refine (if_neg hz).trans ?_
      change (match certPub (patched (s.rdAll Reg.device_sec_anchor 0 j) off data) with
        | none => (s, Status.invalid)
        | some _ => (s.wrB Reg.device_sec_anchor 0 off data j, .ok)) = _
      rw [hk]
  unfold anchorWrite
  rw [hdo]

/-! The random source (R479) -/

section
variable {s : State} {t : TileId}

theorem drbgReseed_due {a : Nat} (hr : s.drbgReady t = true) (hs : (s.vol t).vault.drbgSeeded = some a) (ht : a + 10 * 10 ^ 9 ≤ s.now) : drbgReseed t s = s.drbgSeed t := by
  have hdue : ((s.vol t).vault.drbgSeeded.any fun x => decide (x + 10 * 10 ^ 9 ≤ s.now)) = true := by
    rw [hs, Option.any_some]
    exact decide_eq_true ht
  refine if_pos (Bool.and_eq_true_iff.2 ⟨hr, Bool.or_eq_true_iff.2 (.inl ?_)⟩)
  exact (match_eq_any (s.vol t).vault.drbgSeeded fun x => decide (x + 10 * 10 ^ 9 ≤ s.now)).trans hdue

theorem State.vault_drbgSeed (s : State) (t : TileId) : ((s.drbgSeed t).vol t).vault = { (s.vol t).vault with drbgReqs := 0, drbgSeeded := some s.now } := by
  unfold State.drbgSeed
  rw [State.vol_bump, State.vault_onVault]

theorem State.out_drbgSeed (s : State) (t : TileId) : (s.drbgSeed t).out = s.out := rfl

/-- A failure of the health tests is counted, and the source is not ready. -/
theorem healthFail_running {a : Nat} (h : (s.vol t).vault.drbgTry = some a) :
    healthFail t s = ((if s.drbgReady t then s.onVault t fun v => { v with drbgTry := some s.now } else s).bump Reg.vault_health_fail t).wr Reg.vault_drbg_state t 0 :=
  if_neg (by rw [h]; exact Option.some_ne_none a)

/-- The source has its seed; the first is no reseed. -/
def State.drbgStarted (s : State) (t : TileId) : State :=
  if (s.vol t).vault.drbgOnce then s.drbgSeed t else s.onVault t fun v => { v with drbgReqs := 0, drbgSeeded := some s.now }

theorem State.vault_drbgStarted (s : State) (t : TileId) : ((s.drbgStarted t).vol t).vault = { (s.vol t).vault with drbgReqs := 0, drbgSeeded := some s.now } :=
  State.ite_keeps (fun x : State => (x.vol t).vault) (State.vault_drbgSeed s t) (State.vault_onVault s t _)

theorem State.out_drbgStarted (s : State) (t : TileId) : (s.drbgStarted t).out = s.out := State.ite_keeps State.out rfl rfl

theorem drbgReadyEvent_ready {a : Nat} (h : (s.vol t).vault.drbgTry = some a) (hr : s.drbgReady t = false) :
    drbgReadyEvent t s = (((s.drbgStarted t).wr Reg.vault_drbg_state t 1).onVault t fun v => { v with drbgOnce := true }).settleRoot t := by
  have hnot : ¬((s.vol t).vault.drbgTry = none ∨ s.drbgReady t = true) := by simp [h, hr]
  exact if_neg hnot

theorem drbgReadyEvent_effect {a : Nat} (h : (s.vol t).vault.drbgTry = some a) (hr : s.drbgReady t = false) :
    (drbgReadyEvent t s).rd Reg.vault_drbg_state t = 1 ∧ ((drbgReadyEvent t s).vol t).vault.drbgOnce = true ∧ ((drbgReadyEvent t s).vol t).vault.drbgReqs = 0 ∧
      ((drbgReadyEvent t s).vol t).vault.drbgSeeded = some s.now ∧ (drbgReadyEvent t s).out = s.out := by
  have hservice : Reg.vault_drbg_state.key t 0 ≠ Reg.status_service.key t 0 := Entry.key_ne_place _ _ _ _ _ rfl (by decide)
  have hmissing : Reg.vault_drbg_state.key t 0 ≠ Reg.status_missing.key t 0 := Entry.key_ne_place _ _ _ _ _ rfl (by decide)
  rw [drbgReadyEvent_ready h hr, State.settleRoot, State.rd_setMissing _ _ _ _ _ _ _ hservice hmissing, State.vol_setMissing, State.out_setMissing, State.vault_onVault,
    State.vol_wr, State.vault_drbgStarted]
  exact ⟨State.rd_wr_self (s.drbgStarted t) Reg.vault_drbg_state t 1 0, rfl, rfl, rfl, State.out_drbgStarted s t⟩

theorem drbgStartTimeout_late {a : Nat} (h : (s.vol t).vault.drbgTry = some a) (hst : s.rd Reg.vault_drbg_state t = 0) (ht : a + 100000000 ≤ s.now) :
    drbgStartTimeout t s = (s.wr Reg.vault_drbg_state t 2).event t 3 0x1A03 := by
  unfold drbgStartTimeout
  rw [h]
  exact if_pos ⟨hst, ht⟩

end

/-- Settles O46: the debug token and challenge, the renewal of the host key, what may be written as a certificate or anchor, and the states of the random source. -/
theorem vaultAccess : Obligations.VaultAccess := by
  refine ⟨fun s t hs hl hok => ?_, fun s y t k hr hd => ⟨_, exec_debugChallenge t s, ?_⟩, fun s g hg hlt hc => ⟨_, exec_hostRekey s, ?_⟩,
    fun s t data k hlen hz hc hk => ⟨_, exec_certWrite t 0 0 data s, ?_⟩, fun s j data k hlen hz hc => ⟨_, exec_anchorWrite j 0 data s, ?_⟩,
    fun s t a hr hs ht hn => ⟨_, exec_drbgReseed t s, ?_⟩, fun s t a h hn => ⟨_, exec_healthFail t s, ?_⟩, fun s t a h hr _ => ⟨_, exec_drbgReady t s, ?_⟩,
    fun s t a h hst ht => ⟨_, exec_drbgStartTimeout t s, ?_⟩, fun s t which off data b e n k hlen he hn hb h => ?_, fun s j off data b k hlen hb h => ?_,
    fun s t a h hr _ => ⟨_, exec_drbgReady t s, ?_⟩⟩
  · rw [exec_debugUnlock]
    exact congrArg (fun x => Host.Outcome.next (s.done x)) (State.acting_congr (debugUnlock_good hs hl hok))
  · rw [State.done_out, State.done_vol, debugChallenge_drawn hr hd]
    refine ⟨rfl, ?_⟩
    rw [State.vol_emit, State.vault_onVault]
  · subst hg
    rw [State.rd_done _ _ _ _ _ quiet_device_sec_host_key_gen, State.rdAll_done _ _ _ _ _ quiet_device_sec_host_cert, State.done_out, hostRekey_good hlt hc,
      State.rd_answer, State.rdAll_answer, State.answer_out_eq, State.out_hostRenewed]
    exact ⟨State.rd_hostRenewed hlt, State.rdAll_hostRenewed s, rfl⟩
  · have hwhole : patched (s.rdAll (certEntry 0) (certUnit t 0)) 0 data = data := patched_whole (State.rdB_length _ _ _ _ _ _) hlen
    rw [State.rdAll_done _ _ _ _ _ quiet_vault_cert_id, State.done_out,
      certWrite_good (k := k) (by omega) (.inr ⟨by rw [hwhole, hc], fun _ => hk, fun h => absurd h (by decide)⟩)]
    exact ⟨State.rdAll_wrB (e := Reg.vault_cert_id) hlen s t 0, rfl⟩
  · have hwhole : patched (s.rdAll Reg.device_sec_anchor 0 j) 0 data = data := patched_whole (State.rdB_length _ _ _ _ _ _) hlen
    rw [State.rdAll_done _ _ _ _ _ (quiet_device_sec_anchor j), State.done_out, anchorWrite_good (k := k) (by omega) (.inr (by rw [hwhole]; exact ⟨hz, hc⟩))]
    exact ⟨State.rdAll_wrB (e := Reg.device_sec_anchor) hlen s 0 j, rfl⟩
  · rw [State.done_vol, State.rd_done _ _ _ _ _ quiet_vault_reseeds, State.done_out, drbgReseed_due hr hs ht, State.vault_drbgSeed]
    exact ⟨rfl, rfl, State.rd_bump_lt _ _ _ _ hn, rfl⟩
  · have hstate : Reg.vault_health_fail.key t 0 ≠ Reg.vault_drbg_state.key t 0 := Entry.key_ne_place _ _ _ _ _ rfl (by decide)
    have hregs : (if s.drbgReady t then s.onVault t fun v => { v with drbgTry := some s.now } else s).regs = s.regs := State.ite_keeps State.regs rfl rfl
    have hcount : (if s.drbgReady t then s.onVault t fun v => { v with drbgTry := some s.now } else s).rd Reg.vault_health_fail t = s.rd Reg.vault_health_fail t :=
      State.rd_congr (congrArg (fun r => Tbl.get r _) hregs)
    rw [State.rd_done _ _ _ _ _ quiet_vault_health_fail, State.rd_done _ _ _ _ _ quiet_vault_drbg_state, State.done_out, healthFail_running h,
      State.rd_wr_ne _ _ _ _ _ _ _ _ hstate, State.rd_bump_lt _ _ _ _ (by rwa [hcount]), hcount, State.rd_wr_self]
    exact ⟨rfl, rfl, State.ite_keeps State.out rfl rfl⟩
  · rw [State.rd_done _ _ _ _ _ quiet_vault_drbg_state, State.done_vol, State.done_out]
    exact drbgReadyEvent_effect h hr
  · rw [State.rd_done _ _ _ _ _ quiet_vault_drbg_state, State.done_out, drbgStartTimeout_late h hst ht,
      State.rd_event _ _ _ _ _ _ _ _ _ _ quiet_vault_drbg_state (fun h => by cases h), State.rd_wr_self, State.event_out]
    exact ⟨rfl, rfl⟩
  · subst he hn hb
    rw [exec_certWrite, certWrite_good hlen h]
    rfl
  · subst hb
    rw [exec_anchorWrite, anchorWrite_good hlen h]
  · rw [State.rd_done _ _ _ _ _ quiet_vault_drbg_state, State.done_vol, State.done_out]
    exact drbgReadyEvent_effect h hr

end Sys2Proof.Machine

namespace Sys2Proof.Machine

/-! ### The archive media (R558 to R576) -/

theorem exec_mediaFormat (t : TileId) (s : State) : exec (.mediaFormat t) s = .next (s.done (mediaFormat t s)) := rfl
theorem exec_relocation (t : TileId) (s : State) : exec (.relocation t) s = .next (s.done (relocation t s)) := rfl
theorem exec_programFail (t : TileId) (copy : Bool) (s : State) : exec (.programFail t copy) s = .next (s.done (programFail t copy s)) := rfl
theorem exec_eraseComplete (t : TileId) (fail : Bool) (s : State) : exec (.eraseComplete t fail) s = .next (s.done (eraseComplete t fail s)) := rfl
theorem exec_patrol (t : TileId) (pb page worst total fails : Nat) (s : State) :
    exec (.patrol t pb page worst total fails) s = .next (s.done (patrol t pb page worst total fails s)) := rfl
theorem exec_wearLevel (t : TileId) (s : State) : exec (.wearLevel t) s = .next (s.done (wearLevel t s)) := rfl
theorem exec_mapJournalPage (t : TileId) (s : State) : exec (.mapJournalPage t) s = .next (s.done (mapJournalPage t s)) := rfl
theorem exec_keystoreCompact (t : TileId) (s : State) : exec (.keystoreCompact t) s = .next (s.done (keystoreCompact t s)) := rfl
theorem exec_temperatureSample (t : TileId) (c : Int) (s : State) : exec (.temperatureSample t c) s = .next (s.done (temperatureSample t c s)) := rfl
theorem exec_pageProgramComplete (t : TileId) (s : State) : exec (.pageProgramComplete t) s = .next (s.done (pageProgramComplete t s)) := rfl

theorem quiet_media_ecc_corrected : Reg.media_ecc_corrected.quiet 0 = true := by decide
theorem quiet_media_ecc_uncorrectable : Reg.media_ecc_uncorrectable.quiet 0 = true := by decide
theorem quiet_media_bytes_read : Reg.media_bytes_read.quiet 0 = true := by decide
theorem quiet_media_temp_now : Reg.media_temp_now.quiet 0 = true := by decide

/-- What the media hold besides the queued programs stays while the changed values are queued for the configuration pages. -/
theorem State.done_media {β : Type} (g : Media → β) (hg : ∀ (m : Media) jobs n b, g { m with jobs := jobs, jobCount := n, busy := b } = g m) (s x : State) (t : TileId) :
    g ((s.done x).tile t).media = g (x.tile t).media :=
  persist_keeps (fun y : State => g (y.tile t).media) (fun _ _ _ _ _ => rfl)
    (fun y u j => by
      by_cases h : t = u
      · subst h
        rw [State.queueJob, State.tile_onMedia_self]
        exact hg ..
      · rw [State.queueJob, State.onMedia, State.tile_onTile_ne _ _ _ _ h])
    s { x with pending := s.pending, now := s.now }

/-- A count that does not reach its end takes the whole increment. -/
theorem State.rd_bump_add {s : State} {e : Entry} {n i k : Nat} (h : s.rd e n i + k < e.span) : (s.bump e n i k).rd e n i = s.rd e n i + k := by
  rw [State.rd_bump_self, Nat.min_eq_left (by omega), ite_self, Nat.mod_eq_of_lt h]

/-! A format -/

theorem bit_setBit_false (v k : Nat) : bit (setBit v k false) k = false := by
  unfold setBit
  rw [if_neg Bool.false_ne_true]
  cases h : bit v k with
  | false => rwa [if_neg Bool.false_ne_true]
  | true =>
    have hadd := Nat.testBit_two_pow_add_eq (v - 2 ^ k) k
    rw [Nat.add_sub_cancel' (Nat.ge_two_pow_of_testBit h)] at hadd
    rw [if_pos rfl]
    unfold bit at h ⊢
    rw [hadd] at h
    simpa using h

/-- A status that no longer misses an element shows its bit clear. -/
theorem State.missing_cleared (s : State) (t : TileId) (k : Nat) : bit ((s.setMissing t k false).rd Reg.status_missing t) k = false := by
  have hspan : Reg.status_missing.span = 2 ^ (8 * Reg.status_missing.size) := by rw [Entry.span, Nat.pow_mul]
  have hkey := Entry.key_ne_place Reg.status_missing Reg.status_service t 0 0 rfl (by decide)
  have hbit := bit_setBit_false (s.rd Reg.status_missing t) k
  unfold State.setMissing
  rw [State.rd_settleService _ _ _ _ _ hkey, State.wrBit, State.rd_wr_self, hspan]
  unfold bit at hbit ⊢
  rw [Nat.testBit_mod_two_pow, hbit, Bool.and_false]

theorem mediaFormat_idle {s : State} {t : TileId} (h : s.serves t = false) :
    mediaFormat t s = ((s.formatMedia t).setMissing t 3 false).answer t .ok := by
  unfold mediaFormat
  rw [if_neg (by simp [h])]

theorem mediaFormat_serving {s : State} {t : TileId} (h : s.serves t = true) : mediaFormat t s = s.answer t .conflict := if_pos h

theorem State.media_state_formatMedia (s : State) (t : TileId) : (s.formatMedia t).rd Reg.media_state t = 3 := by
  unfold State.formatMedia
  rw [State.rd_wr_self]
  rfl

/-! Relocation -/

/-- The copy of a block that begins. -/
def Media.relocBegun (m : Media) (pb new : Nat) (retire : Bool) : Media :=
  { (m.setBlk new { m.blk new with st := .dirty }) with
    relocQ := m.relocQ.erase (pb, retire)
    reloc := some { region := (m.blk pb).region, lb := (m.blk pb).lb, old := pb, new := new, ver := (m.blk pb).ver + 1, committed := false, retire := retire } }

theorem relocation_begins {s : State} {t : TileId} {pb new : Nat} {retire : Bool} (hr : s.ftlRuns t = true) (hn : (s.tile t).media.reloc = none)
    (hq : (s.tile t).media.nextReloc = some (pb, retire)) (hm : ((s.tile t).media.blk pb).st = .mapped) (hl : (s.tile t).media.leastWorn = some new) :
    ∃ f, relocation t s = s.onMedia t f ∧ f (s.tile t).media = (s.tile t).media.relocBegun pb new retire := by
  unfold relocation
  dsimp only
  rw [if_neg (by simp [hr]), hn, hq]
  dsimp only
  rw [if_neg (by simp [hm]), hl]
  exact ⟨_, rfl, rfl⟩

theorem relocation_begun {s : State} {t : TileId} {pb new : Nat} {retire : Bool} (hr : s.ftlRuns t = true) (hn : (s.tile t).media.reloc = none)
    (hq : (s.tile t).media.nextReloc = some (pb, retire)) (hm : ((s.tile t).media.blk pb).st = .mapped) (hl : (s.tile t).media.leastWorn = some new) :
    ∃ x, exec (.relocation t) s = .next x ∧ x.regs = s.regs ∧ x.out = s.out ∧ (x.tile t).media.relocQ = (s.tile t).media.relocQ.erase (pb, retire) ∧
      (x.tile t).media.reloc = some { region := ((s.tile t).media.blk pb).region, lb := ((s.tile t).media.blk pb).lb, old := pb, new := new,
                                      ver := ((s.tile t).media.blk pb).ver + 1, committed := false, retire := retire } := by
  obtain ⟨f, hf, hbegun⟩ := relocation_begins hr hn hq hm hl
  have hregs : (relocation t s).regs = s.regs := by rw [hf, State.onMedia_regs]
  have hmedia : ((s.done (relocation t s)).tile t).media = (s.tile t).media.relocBegun pb new retire := by
    rw [State.done_mediaRegs _ _ _ hregs, hf, State.tile_onMedia_self, hbegun]
  refine ⟨_, exec_relocation t s, State.done_regs _ _ hregs, ?_, ?_, ?_⟩
  · rw [State.done_out, hf, State.onMedia_out]
  · rw [hmedia, Media.relocBegun]
  · rw [hmedia, Media.relocBegun]

theorem relocation_commits {s : State} {t : TileId} {r : Reloc} (hr : s.ftlRuns t = true) (hn : (s.tile t).media.reloc = some r) (hc : r.committed = false) :
    relocation t s = ((s.onMedia t fun m => { m with reloc := some { r with committed := true } }).bump Reg.media_bytes_programmed t 0
      (16384 * (s.tile t).media.validPages ((s.tile t).media.blk r.old))).queueMap t (.map r.region r.lb r.new (some r.old) r.ver) := by
  unfold relocation
  dsimp only
  rw [if_neg (by simp [hr]), hn]
  dsimp only
  rw [if_neg (by simp [hc])]

/-- A block that is retired is the next even with few erased blocks. -/
theorem Media.nextReloc_retire {m : Media} {pb : Nat} {rest : List (Nat × Bool)} (h : m.relocQ = (pb, true) :: rest) : m.nextReloc = some (pb, true) := by
  unfold Media.nextReloc
  rw [h]
  rfl

/-! Programs, erases and the map journal -/

theorem programFail_busy {s : State} {t : TileId} (h : (s.tile t).media.busy = true) :
    programFail t false s = (s.programFailed t false).onMedia t fun m => { m with busy := !m.jobs.isEmpty && !s.pier.pfail } := by
  unfold programFail
  dsimp only
  rw [if_neg Bool.false_ne_true, if_pos h]

theorem pageProgramComplete_done {s y : State} {t : TileId} {j : PageJob} (hb : (s.tile t).media.busy = true)
    (ha : s.nandArmed t (((s.tile t).media.jobs.head?.map fun j => j.2.region).getD 9) = false)
    (hc : s.completeFrom t (s.tile t).media.jobs.length 0 = (y, some j)) :
    pageProgramComplete t s = ((((y.bump Reg.media_bytes_programmed t 0 (16384 * j.pages (s.tile t).media (y.tile t).media)).releaseVault t).wornCheck t).onMedia t fun m =>
      { m with busy := !m.jobs.isEmpty &&
          !(((y.bump Reg.media_bytes_programmed t 0 (16384 * j.pages (s.tile t).media (y.tile t).media)).releaseVault t).wornCheck t).pier.pfail }) := by
  unfold pageProgramComplete
  dsimp only
  rw [if_neg (by simp [hb]), if_neg (by simp [ha]), hc]

theorem eraseComplete_erased {s : State} {t : TileId} {pb : Nat} {rest : List Nat} (hr : s.ftlRuns t = true) (hq : (s.tile t).media.eraseQ = pb :: rest)
    (hm : ((s.tile t).media.blk pb).st ≠ .mapped) :
    eraseComplete t false s = ((s.onMedia t fun m => { m with eraseQ := rest }).onMedia t fun m =>
      m.setBlk pb { ((s.tile t).media.blk pb) with st := .erasing }).queueMap t (.free pb (((s.tile t).media.blk pb).erases + 1)) := by
  unfold eraseComplete
  dsimp only
  rw [if_neg (by simp [hr]), hq]
  dsimp only
  rw [if_neg hm, if_neg Bool.false_ne_true]

theorem eraseComplete_failed {s : State} {t : TileId} {pb : Nat} {rest : List Nat} (hr : s.ftlRuns t = true) (hq : (s.tile t).media.eraseQ = pb :: rest)
    (hm : ((s.tile t).media.blk pb).st ≠ .mapped) :
    eraseComplete t true s = ((((s.onMedia t fun m => { m with eraseQ := rest }).bump Reg.media_erase_fail t).bump Reg.media_retired t).queueMap t
      (.retire pb)).wornCheck t := by
  unfold eraseComplete
  dsimp only
  rw [if_neg (by simp [hr]), hq]
  dsimp only
  rw [if_neg hm, if_pos rfl]

/-- The queue of erases says nothing of a block. -/
theorem State.blk_eraseQ (s : State) (t : TileId) (rest : List Nat) (pb : Nat) :
    ((s.onMedia t fun m => { m with eraseQ := rest }).tile t).media.blk pb = (s.tile t).media.blk pb := by
  rw [State.tile_onMedia_self]
  rfl

theorem mapJournalPage_due {s : State} {t : TileId} (hq : (s.tile t).media.mapQ ≠ []) (hd : (s.tile t).media.mapQAt + 1000000 ≤ s.now) :
    mapJournalPage t s = (s.onMedia t fun m => { m with mapQ := m.mapQ.drop 512, mapQAt := s.now }).queueJob t (.mapJ ((s.tile t).media.mapQ.take 512)) := by
  unfold mapJournalPage
  dsimp only
  rw [if_neg (by rintro (h | h) <;> [exact hq h; omega])]

theorem State.mapQ_queueJob (s : State) (t : TileId) (j : PageJob) : ((s.queueJob t j).tile t).media.mapQ = (s.tile t).media.mapQ := by
  rw [State.queueJob, State.tile_onMedia_self]

/-! The patrol -/

/-- The patrol has read a page: what it corrected is counted, and it stands behind the page. -/
def State.patrolRead (s : State) (t : TileId) (pos total fails : Nat) : State :=
  let s := (s.bump Reg.media_ecc_corrected t 0 total).bump Reg.media_ecc_uncorrectable t 0 fails
  let s := s.bump Reg.media_bytes_read t 0 16384
  s.onMedia t fun m => { m with patrolPos := pos + 1, patrolFrom := if pos < m.patrolPos then s.now else m.patrolFrom }

/-- A block held for a year, or with many corrections, is queued for relocation. -/
def State.patrolAged (s : State) (t : TileId) (pb worst held : Nat) : State :=
  let old := decide (held + 365 * 86400 * 1000000000 ≤ s.now)
  if s.rd Reg.media_refresh_bits t ≤ worst ∨ old then s.wantReloc t pb false else s

/-- What a page that stays unreadable leads to; `m` are the media before the reading. -/
def State.patrolBad (s : State) (t : TileId) (m : Media) (pb page fails : Nat) : State :=
  if fails = 0 then s
  else if (m.blk pb).region = 0 then
    let s := if m.badPages.contains ((m.blk pb).lb, page) then s else s.unreadable t (m.blk pb).lb page
    if m.badPages.any fun x => decide (x.1 = (m.blk pb).lb) then s.wantReloc t pb true else s
  else if (m.blk pb).region ≠ 1 ∧ (m.blk pb).region ≠ 5 ∧ m.newestPage (m.blk pb).region ≠ ((m.blk pb).lb, page) then s.recoverMedia t
  else s

theorem patrol_reads {s : State} {t : TileId} {pb page : Nat} (worst total fails : Nat) (hr : s.ftlRuns t = true) (hm : ((s.tile t).media.blk pb).st = .mapped)
    (hb : (s.tile t).media.busy = false) (hp : ((s.tile t).media.blk pb).patrolled page = true) (hd : s.patrolDue t (pb * 1536 + page) = true) :
    patrol t pb page worst total fails s = ((s.patrolRead t (pb * 1536 + page) total fails).patrolAged t pb worst
      ((s.tile t).media.blk pb).held).patrolBad t (s.tile t).media pb page fails := by
  unfold patrol State.patrolBad State.patrolAged State.patrolRead
  dsimp only
  rw [if_neg (by simp [hr, hm, hb, hp, hd])]

theorem State.patrolAged_keeps {β : Type} (g : State → β) {t : TileId} {pb : Nat} (hw : ∀ (x : State) r, g (x.wantReloc t pb r) = g x) (s : State) (worst held : Nat) :
    g (s.patrolAged t pb worst held) = g s := State.ite_keeps g (hw s false) rfl

theorem State.patrolBad_keeps {β : Type} (g : State → β) {t : TileId} {pb : Nat} (hw : ∀ (x : State) r, g (x.wantReloc t pb r) = g x)
    (hu : ∀ (x : State) lb page, g (x.unreadable t lb page) = g x) (hr : ∀ x : State, g (x.recoverMedia t) = g x) (s : State) (m : Media) (page fails : Nat) :
    g (s.patrolBad t m pb page fails) = g s := by
  have hpage := State.ite_keeps g (c := m.badPages.contains ((m.blk pb).lb, page) = true) rfl (hu s (m.blk pb).lb page)
  unfold State.patrolBad
  exact State.ite_keeps g rfl (State.ite_keeps g (State.ite_keeps g ((hw _ true).trans hpage) hpage) (State.ite_keeps g (hr s) rfl))

theorem State.rd_unreadable {d : Entry} {n j : Nat} {t : TileId} (h : d.key n j ≠ Reg.media_unreadable_pages.key t 0) (s : State) (lb page : Nat) :
    (s.unreadable t lb page).rd d n j = s.rd d n j := by
  unfold State.unreadable
  rw [State.rd_bump_ne _ _ _ _ _ _ _ _ h, State.rd_onMedia]

theorem State.rd_recoverMedia {d : Entry} {n j : Nat} {t : TileId} (h : d.key n j ≠ Reg.media_recoveries.key t 0) (hq : d.quiet j = true) (hd : d.area = .tile)
    (s : State) : (s.recoverMedia t).rd d n j = s.rd d n j := by
  unfold State.recoverMedia
  rw [State.rd_event _ _ _ _ _ _ _ _ _ _ hq (by simp [hd]), State.rd_bump_ne _ _ _ _ _ _ _ _ h, State.rd_onMedia]

theorem State.patrolPos_wantReloc (s : State) (t : TileId) (pb : Nat) (r : Bool) : ((s.wantReloc t pb r).tile t).media.patrolPos = (s.tile t).media.patrolPos := by
  rw [State.wantReloc, State.tile_onMedia_self]
  dsimp only
  split
  · rfl
  · split <;> rfl

theorem State.patrolPos_unreadable (s : State) (t : TileId) (lb page : Nat) : ((s.unreadable t lb page).tile t).media.patrolPos = (s.tile t).media.patrolPos := by
  rw [State.unreadable, State.tile_bump, State.tile_onMedia_self]

theorem Media.patrolPos_reuse (m : Media) (region lb : Nat) : (m.reuse region lb).patrolPos = m.patrolPos := by
  unfold Media.reuse
  split <;> rfl

theorem State.patrolPos_recoverMedia (s : State) (t : TileId) : ((s.recoverMedia t).tile t).media.patrolPos = (s.tile t).media.patrolPos := by
  rw [State.recoverMedia, State.event_media, State.tile_bump, State.tile_onMedia_self]
  exact Media.patrolPos_reuse ..

/-- What the patrol does about the page it read leaves its own place, and the values that count neither an unreadable page nor a recovery mount. -/
theorem patrol_patrolPos {s : State} {t : TileId} {pb page : Nat} (worst total fails : Nat) (hr : s.ftlRuns t = true) (hm : ((s.tile t).media.blk pb).st = .mapped)
    (hb : (s.tile t).media.busy = false) (hp : ((s.tile t).media.blk pb).patrolled page = true) (hd : s.patrolDue t (pb * 1536 + page) = true) :
    ((patrol t pb page worst total fails s).tile t).media.patrolPos = pb * 1536 + page + 1 := by
  rw [patrol_reads worst total fails hr hm hb hp hd,
    State.patrolBad_keeps (fun x => (x.tile t).media.patrolPos) (fun _ _ => State.patrolPos_wantReloc ..) (fun _ _ _ => State.patrolPos_unreadable ..)
      (fun _ => State.patrolPos_recoverMedia ..),
    State.patrolAged_keeps (fun x => (x.tile t).media.patrolPos) (fun _ _ => State.patrolPos_wantReloc ..), State.patrolRead, State.tile_onMedia_self]

theorem rd_patrol {s : State} {t : TileId} {pb page : Nat} {d : Entry} (worst total fails : Nat) (hr : s.ftlRuns t = true)
    (hm : ((s.tile t).media.blk pb).st = .mapped) (hb : (s.tile t).media.busy = false) (hp : ((s.tile t).media.blk pb).patrolled page = true)
    (hd : s.patrolDue t (pb * 1536 + page) = true) (harea : d.area = .tile) (hq : d.quiet 0 = true) (hu : d.place 0 ≠ Reg.media_unreadable_pages.place 0)
    (hv : d.place 0 ≠ Reg.media_recoveries.place 0) :
    (s.done (patrol t pb page worst total fails s)).rd d t = (s.patrolRead t (pb * 1536 + page) total fails).rd d t := by
  rw [State.rd_done _ _ _ _ _ hq, patrol_reads worst total fails hr hm hb hp hd,
    State.patrolBad_keeps (fun x => x.rd d t) (fun _ _ => State.rd_onMedia ..) (State.rd_unreadable (Entry.key_ne_place _ _ _ _ _ harea hu))
      (State.rd_recoverMedia (Entry.key_ne_place _ _ _ _ _ harea hv) hq harea),
    State.patrolAged_keeps (fun x => x.rd d t) (fun _ _ => State.rd_onMedia ..)]

section
variable {s : State} {t : TileId} {pos total fails : Nat}

theorem State.ecc_corrected_patrolRead (h : s.rd Reg.media_ecc_corrected t + total < Reg.media_ecc_corrected.span) :
    (s.patrolRead t pos total fails).rd Reg.media_ecc_corrected t = s.rd Reg.media_ecc_corrected t + total := by
  have hbytes := Entry.key_ne_place Reg.media_ecc_corrected Reg.media_bytes_read t 0 0 rfl (by decide)
  have hfails := Entry.key_ne_place Reg.media_ecc_corrected Reg.media_ecc_uncorrectable t 0 0 rfl (by decide)
  rw [State.patrolRead, State.rd_onMedia, State.rd_bump_ne _ _ _ _ _ _ _ _ hbytes, State.rd_bump_ne _ _ _ _ _ _ _ _ hfails, State.rd_bump_add h]

theorem State.ecc_uncorrectable_patrolRead (h : s.rd Reg.media_ecc_uncorrectable t + fails < Reg.media_ecc_uncorrectable.span) :
    (s.patrolRead t pos total fails).rd Reg.media_ecc_uncorrectable t = s.rd Reg.media_ecc_uncorrectable t + fails := by
  have hbytes := Entry.key_ne_place Reg.media_ecc_uncorrectable Reg.media_bytes_read t 0 0 rfl (by decide)
  have htotal := Entry.key_ne_place Reg.media_ecc_uncorrectable Reg.media_ecc_corrected t 0 0 rfl (by decide)
  have hsame := State.rd_bump_ne s Reg.media_ecc_corrected Reg.media_ecc_uncorrectable t t 0 0 total htotal
  rw [State.patrolRead, State.rd_onMedia, State.rd_bump_ne _ _ _ _ _ _ _ _ hbytes, State.rd_bump_add (by rwa [hsame]), hsame]

theorem State.bytes_read_patrolRead (h : s.rd Reg.media_bytes_read t + 16384 < Reg.media_bytes_read.span) :
    (s.patrolRead t pos total fails).rd Reg.media_bytes_read t = s.rd Reg.media_bytes_read t + 16384 := by
  have hfails := Entry.key_ne_place Reg.media_bytes_read Reg.media_ecc_uncorrectable t 0 0 rfl (by decide)
  have htotal := Entry.key_ne_place Reg.media_bytes_read Reg.media_ecc_corrected t 0 0 rfl (by decide)
  have hsame : ((s.bump Reg.media_ecc_corrected t 0 total).bump Reg.media_ecc_uncorrectable t 0 fails).rd Reg.media_bytes_read t = s.rd Reg.media_bytes_read t := by
    rw [State.rd_bump_ne _ _ _ _ _ _ _ _ hfails, State.rd_bump_ne _ _ _ _ _ _ _ _ htotal]
  rw [State.patrolRead, State.rd_onMedia, State.rd_bump_add (by rwa [hsame]), hsame]

end

/-- A page without an undecodable codeword changes nothing of the tile's volatile state, and nothing is put out. -/
theorem patrol_clean {s : State} {t : TileId} {pb page : Nat} (worst total : Nat) (hr : s.ftlRuns t = true) (hm : ((s.tile t).media.blk pb).st = .mapped)
    (hb : (s.tile t).media.busy = false) (hp : ((s.tile t).media.blk pb).patrolled page = true) (hd : s.patrolDue t (pb * 1536 + page) = true) :
    (patrol t pb page worst total 0 s).vol t = s.vol t ∧ (patrol t pb page worst total 0 s).out = s.out := by
  rw [patrol_reads worst total 0 hr hm hb hp hd, State.patrolBad, if_pos rfl]
  constructor
  · rw [State.patrolAged_keeps (fun x => x.vol t) (fun _ _ => State.vol_onMedia ..), State.patrolRead, State.vol_onMedia, State.vol_bump, State.vol_bump,
      State.vol_bump]
  · rw [State.patrolAged_keeps State.out (fun _ _ => rfl), State.patrolRead, State.onMedia_out, State.bump_out, State.bump_out, State.bump_out]

/-! Wear and the key store -/

theorem wearLevel_level {s : State} {t : TileId} (h : (s.tile t).media.wear.1 ≤ (s.tile t).media.wear.2.2 + 300) : wearLevel t s = s := if_pos (.inr h)

theorem wearLevel_moves {s : State} {t : TileId} {pb : Nat} {k : Blk} (hr : s.ftlRuns t = true) (hw : (s.tile t).media.wear.2.2 + 300 < (s.tile t).media.wear.1)
    (hb : ((s.tile t).media.blocks.filter fun e => decide (e.2.st = .mapped)) = [(pb, k)]) (hk : k.erases + 300 < (s.tile t).media.wear.1) :
    wearLevel t s = s.wantReloc t pb false := by
  have hdiffer : ¬((!s.ftlRuns t) = true ∨ (s.tile t).media.wear.1 ≤ (s.tile t).media.wear.2.2 + 300) := by
    rw [hr]
    simpa using hw
  unfold wearLevel
  dsimp only
  rw [if_neg hdiffer, hb]
  exact if_pos hk

theorem keystoreCompact_compacts {s : State} {t : TileId} {old : List Nat} {rest : List (List Nat)} (hr : s.ftlRuns t = true)
    (hu : 24 * 65536 < (s.tile t).media.keysUsed + 131072) (hl : (s.tile t).media.keyLog = old :: rest) :
    keystoreCompact t s = (s.onMedia t fun m => ({ m with keyLog := rest }.logKeys (old.eraseDups.filter fun p =>
      (Tbl.get (s.tile t).media.keys p).isSome && !rest.flatten.contains p)).reuse 3 m.keyOldest).bump Reg.media_bytes_programmed t 0
        (16384 * (((old.eraseDups.filter fun p => (Tbl.get (s.tile t).media.keys p).isSome && !rest.flatten.contains p).length + 127) / 128)) := by
  have hfull : ¬((!s.ftlRuns t) = true ∨ (s.tile t).media.keysUsed + 131072 ≤ 24 * 65536) := by
    rintro (hstops | hfree)
    · simp [hr] at hstops
    · omega
  unfold keystoreCompact
  dsimp only
  rw [if_neg hfull, hl]

/-- With one block of the log left, no entry of it stands in a later one. -/
theorem filter_standing_last (l : List Nat) (p : Nat → Bool) : (l.filter fun x => p x && !([] : List (List Nat)).flatten.contains x) = l.filter p :=
  List.filter_congr fun _ _ => by rw [List.flatten_nil, List.contains_nil, Bool.not_false, Bool.and_true]

/-! The temperature -/

theorem tempBand_lt (c : Int) : tempBand c < 8 := by
  unfold tempBand
  split_ifs <;> decide

theorem quiet_media_temp_hours {k : Nat} (h : k < 8) : Reg.media_temp_hours.quiet k = true := by
  have hall : ∀ i : Fin 8, Reg.media_temp_hours.quiet i = true := by decide
  exact hall ⟨k, h⟩

theorem place_temp_hours_ne_now {k : Nat} (h : k < 8) : Reg.media_temp_hours.place k ≠ Reg.media_temp_now.place 0 := by
  have hall : ∀ i : Fin 8, Reg.media_temp_hours.place i ≠ Reg.media_temp_now.place 0 := by decide
  exact hall ⟨k, h⟩

/-- The sample is entered: the temperature, `a` s of its band, and the time of the next sample. -/
def State.temperatureTaken (s : State) (t : TileId) (c : Int) (a : Nat) : State :=
  (s.wrI Reg.media_temp_now t c).onMedia t fun m =>
    { m with tempAcc := m.tempAcc.set (tempBand c) (a % 3600), tempNow := c, tempAt := s.now + 60000000000 }

theorem temperatureSample_due {s : State} {t : TileId} (c : Int) (h : (s.tile t).media.tempAt ≤ s.now) :
    temperatureSample t c s = if 3600 ≤ (s.tile t).media.tempAcc.getD (tempBand c) 0 + 60
      then (s.temperatureTaken t c ((s.tile t).media.tempAcc.getD (tempBand c) 0 + 60)).bump Reg.media_temp_hours t (tempBand c)
      else s.temperatureTaken t c ((s.tile t).media.tempAcc.getD (tempBand c) 0 + 60) := by
  unfold temperatureSample State.temperatureTaken
  rw [if_neg (Nat.not_lt.2 h)]
  rfl

theorem State.vol_temperatureTaken (s : State) (t : TileId) (c : Int) (a : Nat) : (s.temperatureTaken t c a).vol t = s.vol t := by
  rw [State.temperatureTaken, State.vol_onMedia, State.vol_wrI]

theorem State.out_temperatureTaken (s : State) (t : TileId) (c : Int) (a : Nat) : (s.temperatureTaken t c a).out = s.out := rfl

/-- A negative number above `-k` leaves, modulo `k`, what it lacks to `k`. -/
theorem Int.toNat_emod_of_neg {v : Int} {k : Nat} (hv : v < 0) (hk : -(k : Int) ≤ v) : ((v % (k : Int)).toNat : Int) = v + k := by
  rw [← Int.add_emod_right, Int.emod_eq_of_lt (by omega) (by omega)]
  omega

/-- A value within half of the entry's range is read back with its sign. -/
theorem State.rdI_wrI {e : Entry} {v : Int} (hlo : -(e.span / 2 : Nat) ≤ v) (hhi : v < (e.span / 2 : Nat)) (s : State) (n i : Nat) :
    (s.wrI e n v i).rdI e n i = v := by
  have hrd : (s.wrI e n v i).rd e n i = (v % (e.span : Int)).toNat := by
    unfold State.wrI
    have hpos : (0 : Int) < e.span := by omega
    have hlt := Int.emod_lt_of_pos v hpos
    have hnonneg := Int.emod_nonneg v hpos.ne'
    rw [State.rd_wr_self]
    exact Nat.mod_eq_of_lt (by omega)
  unfold State.rdI
  dsimp only
  rw [hrd]
  rcases Int.lt_or_le v 0 with hneg | hnonneg
  · have hval := Int.toNat_emod_of_neg (k := e.span) hneg (by omega)
    rw [if_neg (by omega)]
    omega
  · rw [Int.emod_eq_of_lt hnonneg (by omega), if_pos (by omega)]
    omega

theorem State.rdI_temperatureTaken {c : Int} (hlo : -128 ≤ c) (hhi : c < 128) (s : State) (t : TileId) (a : Nat) :
    (s.temperatureTaken t c a).rdI Reg.media_temp_now t = c := by
  have hspan : Reg.media_temp_now.span / 2 = 32768 := rfl
  exact State.rdI_wrI (by omega) (by omega) s t 0

theorem State.temp_hours_temperatureTaken (s : State) (t : TileId) (c : Int) (a : Nat) :
    (s.temperatureTaken t c a).rd Reg.media_temp_hours t (tempBand c) = s.rd Reg.media_temp_hours t (tempBand c) := by
  have hkey := Entry.key_ne_place Reg.media_temp_hours Reg.media_temp_now t 0 (tempBand c) rfl (place_temp_hours_ne_now (tempBand_lt c))
  rw [State.temperatureTaken, State.rd_onMedia, State.wrI, State.rd_wr_ne _ _ _ _ _ _ _ _ hkey]

theorem State.tempAt_temperatureTaken (s : State) (t : TileId) (c : Int) (a : Nat) :
    ((s.temperatureTaken t c a).tile t).media.tempAt = s.now + 60000000000 := by
  rw [State.temperatureTaken, State.tile_onMedia_self]

/-- Settles O52: each command of the media does, under its conditions, one operation on the tile's media; of the patrol the place and the counts stand in one state,
which what follows the reading leaves alone in them. -/
theorem archiveMedia : Obligations.ArchiveMedia := by
  unfold Obligations.ArchiveMedia
  refine ⟨fun s t hs => ⟨_, exec_mediaFormat t s, ?_, ?_, ?_⟩, fun s t pb new rest hr hn hq hm hl => ?_, fun s t r hr hn hc hreg => ?_, fun s t hb => ?_,
    fun s t pb rest hr hq hm => ?_, fun s t pb page worst total hr hm hb hp hd _ _ hc hy => ⟨_, exec_patrol t pb page worst total 0 s, ?_, ?_, ?_, ?_⟩,
    fun s t pb k hr hw hb hk => ?_, fun s t hq hd => ⟨_, exec_mapJournalPage t s, ?_, ?_, ?_, ?_⟩, fun s t old hr hu hl => ?_,
    fun s t c hd _ ha hlo hhi => ⟨_, exec_temperatureSample t c s, ?_, ?_, ?_⟩, fun s y t j hb ha hc => ?_, fun s t hs => ?_,
    fun s t pb new retire => relocation_begun, fun s t r hr hn hc => ?_, fun s t pb rest hr hq hm => ?_,
    fun s t pb page worst total fails hr hm hb hp hd hc hu hy => ⟨_, exec_patrol t pb page worst total fails s, ?_, ?_, ?_, ?_⟩, fun s t _ hw => ?_,
    fun s t old rest hr hu hl => ?_, fun s t c a hd ha hfull hh => ⟨_, exec_temperatureSample t c s, ?_, ?_, ?_⟩⟩
  · have hkey := Entry.key_ne_place Reg.media_state Reg.status_service t 0 0 rfl (by decide)
    have hmiss := Entry.key_ne_place Reg.media_state Reg.status_missing t 0 0 rfl (by decide)
    rw [State.rd_done _ _ _ _ _ quiet_media_state, mediaFormat_idle hs, State.rd_answer, State.rd_setMissing _ _ _ _ _ _ _ hkey hmiss,
      State.media_state_formatMedia]
  · rw [State.rd_done _ _ _ _ _ quiet_status_missing, mediaFormat_idle hs, State.rd_answer, State.missing_cleared]
  · rw [State.done_out, mediaFormat_idle hs]
    rfl
  · obtain ⟨x, hx, hregs, hout, hrest, hreloc⟩ := relocation_begun hr hn (Media.nextReloc_retire hq) hm hl
    refine ⟨x, hx, hregs, hout, ?_, hreloc⟩
    rw [hrest, hq, List.erase_cons_head]
  · rw [exec_relocation, relocation_commits hr hn hc, hreg]
  · rw [exec_programFail, programFail_busy hb]
  · rw [exec_eraseComplete, eraseComplete_erased hr hq hm, State.blk_eraseQ]
  · rw [rd_patrol worst total 0 hr hm hb hp hd rfl quiet_media_ecc_corrected (by decide) (by decide), State.ecc_corrected_patrolRead hc]
  · rw [rd_patrol worst total 0 hr hm hb hp hd rfl quiet_media_bytes_read (by decide) (by decide), State.bytes_read_patrolRead hy]
  · rw [State.done_vol, (patrol_clean worst total hr hm hb hp hd).1]
  · rw [State.done_out, (patrol_clean worst total hr hm hb hp hd).2]
  · rw [exec_wearLevel, wearLevel_moves hr hw hb hk]
  · rw [State.done_regs _ _ (by rw [mapJournalPage_due hq hd]; rfl)]
  · rw [State.done_out, mapJournalPage_due hq hd, State.queueJob_out, State.onMedia_out]
  · rw [State.done_media Media.mapQ (fun _ _ _ _ => rfl), mapJournalPage_due hq hd, State.mapQ_queueJob, State.tile_onMedia_self]
  · rw [State.done_mediaRegs _ _ _ (by rw [mapJournalPage_due hq hd]; rfl), mapJournalPage_due hq hd, State.jobs_queueJob, State.tile_onMedia_self]
  · rw [exec_keystoreCompact, keystoreCompact_compacts hr hu hl, filter_standing_last]
  · rw [State.rdI_done _ _ _ _ _ quiet_media_temp_now, temperatureSample_due c hd, if_neg (Nat.not_le.2 ha), State.rdI_temperatureTaken hlo hhi]
  · rw [State.done_vol, temperatureSample_due c hd, if_neg (Nat.not_le.2 ha), State.vol_temperatureTaken]
  · rw [State.done_out, temperatureSample_due c hd, if_neg (Nat.not_le.2 ha), State.out_temperatureTaken]
  · rw [exec_pageProgramComplete, pageProgramComplete_done hb ha hc]
  · rw [exec_mediaFormat, mediaFormat_serving hs]
  · rw [exec_relocation, relocation_commits hr hn hc]
  · rw [exec_eraseComplete, eraseComplete_failed hr hq hm]
  · rw [rd_patrol worst total fails hr hm hb hp hd rfl quiet_media_ecc_corrected (by decide) (by decide), State.ecc_corrected_patrolRead hc]
  · rw [rd_patrol worst total fails hr hm hb hp hd rfl quiet_media_ecc_uncorrectable (by decide) (by decide), State.ecc_uncorrectable_patrolRead hu]
  · rw [rd_patrol worst total fails hr hm hb hp hd rfl quiet_media_bytes_read (by decide) (by decide), State.bytes_read_patrolRead hy]
  · rw [State.done_media Media.patrolPos (fun _ _ _ _ => rfl), patrol_patrolPos worst total fails hr hm hb hp hd]
  · rw [exec_wearLevel, wearLevel_level hw]
  · rw [exec_keystoreCompact, keystoreCompact_compacts hr hu hl]
  all_goals subst ha
  · have hsame := State.temp_hours_temperatureTaken s t c ((s.tile t).media.tempAcc.getD (tempBand c) 0 + 60)
    rw [State.rd_done _ _ _ _ _ (quiet_media_temp_hours (tempBand_lt c)), temperatureSample_due c hd, if_pos hfull, State.rd_bump_add (by rwa [hsame]), hsame]
  · rw [State.done_media Media.tempAt (fun _ _ _ _ => rfl), temperatureSample_due c hd, if_pos hfull, State.tile_bump, State.tempAt_temperatureTaken]
  · rw [State.done_out, temperatureSample_due c hd, if_pos hfull, State.bump_out, State.out_temperatureTaken]

end Sys2Proof.Machine
